-- ==== Sys2Proof/Word.lean ====
section
/-! DEFINITION. The word types of the block and its sparse tables. -/

namespace Sys2Proof

/-- A register word (R504). -/
abbrev W := BitVec 32

/-- A table of values by number, in one canonical form: numbers strictly rising, no entry equal to the
value an unlisted number reads as. -/
abbrev Tab (α : Type) := List (Nat × α)

end Sys2Proof
end

