-- ==== Sys2Proof/Syntax.lean ====
section
/-! DEFINITION. The commands of the block: one constructor for each row of spec/opcode_table.json, with the
row's operands: the unit it acts on, the value written, what was received or measured. -/

namespace Sys2Proof

/-- A command entry of R288 with the ring it came from. -/
structure CmdEntry where
  ring : Fin 8
  word0 : W
  cookie : W
  ops : List W
  deriving DecidableEq, Repr

/-- One received subframe (R72, R74): the eight UI of time slots 0 to 3, the first in bit 7, the line state before them, time
slots 4 to 27 as a word, then V, U, C and P. -/
structure Subframe where
  pre : BitVec 8
  before : Bool
  data : BitVec 24
  v : Bool
  u : Bool
  c : Bool
  p : Bool
  deriving DecidableEq, Repr

/-- A received frame as the line gives it: how long it took in 1/256 pt, the cc from the last B(j) to the end of its write (R23),
and its subframes. -/
structure LineFrame where
  len : BitVec 32
  phase : BitVec 16
  subs : List Subframe
  deriving DecidableEq, Repr

/-- What a sense port's inputs give in one sample (R347): in mode 1 A and B in 4 mA / 2 ^ 23, in mode 2 in 10.24 V / 2 ^ 23
(two's complement), in modes 3 and 4 `a` the resistance in mΩ or Ω; and the current, in 0.25 mA, that its regulation asks for (R349). -/
structure SenseIn where
  port : Fin 256
  a : BitVec 32
  b : BitVec 32
  ill : BitVec 8
  deriving DecidableEq, Repr

/-- What the sense converters of a terminal give (R192, R193): the current of one segment as its replica shows it, in 1/256 of
0.78125 mA, and the voltage sample. -/
structure LegIn where
  term : Fin 512
  share : Int
  volt : BitVec 16
  deriving DecidableEq, Repr

/-- The boundary of a carrier: number n of the present frame of a channel's carrier, or one of the frame-phased carrier at 800 kHz that a
fold's terminals of no live channel use, at pt `now` (R39, R198). -/
inductive CarrierAt where
  | channel (ch : Fin 512) (n : Fin 64)
  | idle (k : Fin 8) (now : Nat)
  deriving DecidableEq, Repr

/-- A hop 3 finding at the latch of an input word (R149): word 0 SPT, 1 FFW, 2 INJ, 3 STATUS; 0 a corrected bit, 1 a double-bit
error, 2 a tag failure; `instB` for the instance on ENG_B. -/
structure WordFail where
  chan : Fin 512
  instB : Bool
  word : Fin 4
  kind : Fin 3
  deriving DecidableEq, Repr

/-- What a module that joins a station late learns of it (R489, R496): FRATE and M_LOG2 of M0, and its own place on the station's line. -/
structure StnJoin where
  rate : BitVec 18
  mLog2 : BitVec 2
  place : Int
  deriving DecidableEq, Repr

/-- What the voltage senses of the floating leg and of the fold's bus hold at a motor's sample instant (R193, R372): unsigned steps of
1.5625 mV. -/
structure FloatIn where
  float : BitVec 16
  bus : BitVec 16
  deriving DecidableEq, Repr

/-- A point of a diagnosis as the correlators measured it (R362, R363): Z in µΩ, the current amplitude in µA. -/
structure DiagPoint where
  zre : BitVec 32
  zim : BitVec 32
  iamp : BitVec 32
  deriving DecidableEq, Repr

/-- The commands: the rows of spec/opcode_table.json, those of the Iatia-L instruction set after the others and those with no
operand last; beside each its mnemonic there and its rule. -/
inductive Instr where
  /-- AUX_SUPPLY_RISE (R481). -/
  | auxSupplyRise (head : Bool)
  /-- SECURITY_BOOT_DONE (R481). -/
  | securityBootDone (fwOk : Bool) (fw : W)
  /-- FOLD_SLOT_START (R482). -/
  | foldSlotStart (k : Fin 8)
  /-- FOLD_SLOT_END (R482). -/
  | foldSlotEnd (k : Fin 8) (low : Bool) (now : Nat)
  /-- QUICK_BIST_DONE (R483). -/
  | quickBistDone (fails : List (Fin 8 × Fin 131072)) (segs : List (Fin 512 × Fin 16 × Fin 16))
  /-- AUX_SUPPLY_FAIL (R486). -/
  | auxSupplyFail (now : Nat)
  /-- BUS_RISE (R537). -/
  | busRise (k : Fin 8) (now : Nat)
  /-- CLOCK_LOSS_MODULE_STOP (R40). -/
  | clockLossModuleStop (clock : Fin 3) (now : Nat)
  /-- FTB_LOSS (R212). -/
  | ftbLoss (k : Fin 8) (now : Nat)
  /-- FTB_RETURN (R212). -/
  | ftbReturn (k : Fin 8)
  /-- OUTPUT_PORT_CLOCK_LOST (R40). -/
  | outputPortClockLost (n : Fin 4)
  /-- DOMAIN_POWER_LOSS (R436). -/
  | domainPowerLoss (d : Fin 48) (now : Nat)
  /-- DOMAIN_SETTLED (R436). -/
  | domainSettled (d : Fin 48)
  /-- STREAM_FRAME (R89). -/
  | streamFrame (n : Fin 16) (f : LineFrame)
  /-- SEAL_VERDICT (R471). -/
  | sealVerdict (n : Fin 16)
  /-- PORT_STAY_TIMEOUT (R93). -/
  | portStayTimeout (n : Fin 16)
  /-- LINE_OUT_OF_RANGE (R70). -/
  | lineOutOfRange (n : Fin 16)
  /-- SCLK_LOST (R95). -/
  | sclkLost (n : Fin 16)
  /-- SP_CTRL_WRITE (R105). -/
  | spCtrlWrite (n : Fin 16) (v : W)
  /-- SP_KINDMAP_WRITE (R105). -/
  | spKindmapWrite (n : Fin 16) (i : Fin 2) (v : W)
  /-- SO_CTRL_WRITE (R107). -/
  | soCtrlWrite (n : Fin 4) (v : W)
  /-- SO_SLOT_WRITE (R107). -/
  | soSlotWrite (n : Fin 4) (sl : Fin 32) (v : W)
  /-- OUTPUT_FRAME_SEND (R99). -/
  | outputFrameSend (n : Fin 4)
  /-- FRAME_BOUNDARY (R108). -/
  | frameBoundary (len : BitVec 32) (tagFails : List (Fin 16 × Fin 32))
  /-- RUN_LIMIT (R92). -/
  | runLimit (n : Fin 16) (sl : Fin 32)
  /-- DRIFT_MEASUREMENT (R114). -/
  | driftMeasurement (o0 o1 o2 o3 link : BitVec 24) (present : BitVec 5)
  /-- RESELECT (R113). -/
  | reselect (same : Bool)
  /-- UNBAR (R117). -/
  | unbar (bits : BitVec 4)
  /-- FC_RATE_WRITE (R110). -/
  | fcRateWrite (v : W)
  /-- FC_RATIO_WRITE (R110). -/
  | fcRatioWrite (v : W)
  /-- FC_PRIO_WRITE (R128). -/
  | fcPrioWrite (v : W)
  /-- FC_WINDOW_WRITE (R128). -/
  | fcWindowWrite (v : W)
  /-- FC_PHASE_WRITE (R128). -/
  | fcPhaseWrite (v : W)
  /-- ZC_TIMEOUT (R141). -/
  | zcTimeout (ch : Fin 512)
  /-- GATED_STOP_IDLE (R141). -/
  | gatedStopIdle (ch : Fin 512)
  /-- LOOP_LATCH (R218). -/
  | loopLatch (f : Fin 32) (l : Fin 8) (bus : BitVec 16) (sens : List SenseIn) (fails : List WordFail)
  /-- COEF_APPLY (R233). -/
  | coefApply (ch : Fin 512) (ready : BitVec 16)
  /-- TOKEN_GRANT (R416). -/
  | tokenGrant (ch : Fin 512)
  /-- ARM_TAKE_EFFECT (R307). -/
  | armTakeEffect (ch : Fin 512) (now : Nat)
  /-- DISARM_TAKE_EFFECT (R307). -/
  | disarmTakeEffect (ch : Fin 512)
  /-- INSTANCE_RUN_START (R219). -/
  | instanceRunStart (e : Fin 128) (ch : Fin 512) (l : Fin 8)
  /-- LOOP_CUTOFF (R236). -/
  | loopCutoff (e : Fin 128) (l : Fin 8)
  /-- OVERRUN_HEALTH_FAILURE (R238). -/
  | overrunHealthFailure (ch : Fin 512) (shadow : Bool)
  /-- FOLLOW_ERROR (R239). -/
  | followError (ch : Fin 512)
  /-- COEF_WRITE (R233). -/
  | coefWrite (t : Fin 512) (w : Fin 32) (v : W)
  /-- LOOP_CFG_WRITE (R248). -/
  | loopCfgWrite (t : Fin 512) (v : W)
  /-- CARRIER_BOUNDARY (R181). -/
  | carrierBoundary (at_ : CarrierAt) (late : Bool) (fail : BitVec 3) (sample : Option FloatIn) (legs : List LegIn)
  /-- GATE_EVENT (R161). -/
  | gateEvent (t : Fin 512) (ev : Fin 4) (at_ : Nat) (trail : Bool) (fails : List (Fin 16 × Fin 16))
  /-- INTEGRITY_ESCALATION (R150). -/
  | integrityEscalation (kind : Fin 4) (i : Fin 512)
  /-- CROOK_WRITE (R175). -/
  | crookWrite (t : Fin 512) (v : W)
  /-- CROOK_FORCE_APPLY (R174). -/
  | crookForceApply (t : Fin 512) (now : Nat)
  /-- ST_FIELD_WRITE (R178). -/
  | stFieldWrite (t : Fin 512) (reg : Fin 3) (v : W)
  /-- COMMIT_APPLY (R178). -/
  | commitApply (ch : Fin 512) (sample : Option FloatIn)
  /-- STEP_CHANGE_APPLY (R166). -/
  | stepChangeApply (ch : Fin 512) (now : Nat) (sample : Option FloatIn)
  /-- DESATURATION (R194). -/
  | desaturation (t : Fin 512) (p g : Fin 16)
  /-- DESAT_SPAN_CLOSE (R194). -/
  | desatSpanClose (t : Fin 512) (now : Nat)
  /-- SPARE_SELF_TEST_START (R196). -/
  | spareSelfTestStart (t : Fin 512) (p : Fin 16) (now : Nat)
  /-- SPARE_SELF_TEST_END (R196). -/
  | spareSelfTestEnd (t : Fin 512) (fails : BitVec 16) (now : Nat)
  /-- SUBST_OVERLAP_START (R198). -/
  | substOverlapStart (t : Fin 512) (now : Nat)
  /-- SUBST_RELEASE (R199). -/
  | substRelease (t : Fin 512) (now : Nat)
  /-- TIMER_WINDOW_OPEN (R202). -/
  | timerWindowOpen (i : Fin 512) (now : Nat)
  /-- TIMER_WINDOW_CLOSE (R202). -/
  | timerWindowClose (i : Fin 512) (now : Nat)
  /-- EXTERNAL_TRIP (R207). -/
  | externalTrip (g : Fin 32) (levels : List Bool) (at_ : Nat)
  /-- TERMINAL_OVERCURRENT (R204). -/
  | terminalOvercurrent (t : Fin 512) (ma : List Nat) (at_ : Nat)
  /-- FOLD_TRIP (R204). -/
  | foldTrip (k : Fin 8) (src : Fin 5) (vals : List Int) (at_ : Nat)
  /-- STAGE_OVERTEMP_WARN (R204). -/
  | stageOvertempWarn (f : Fin 32) (temp : BitVec 8)
  /-- DEBUG_HALT (R211). -/
  | debugHalt (e : Fin 160) (now : Nat)
  /-- FOLD_BUDGET_RENEWAL (R214). -/
  | foldBudgetRenewal (k : Fin 8) (busV busNow : BitVec 16) (busI busI10 : BitVec 16) (pout : Int) (chanMw : List (Fin 512 × Int)) (termMa : List (Fin 512 × Nat)) (now : Nat)
  /-- COOLANT_DERATE (R548). -/
  | coolantDerate (reading : Option (BitVec 16)) (now : Nat)
  /-- FOLD_CFG_WRITE (R217). -/
  | foldCfgWrite (k : Fin 8) (v : W)
  /-- FOLD_STOP_END (R440). -/
  | foldStopEnd (k : Fin 8)
  /-- INJ_END (R241). -/
  | injEnd (i : Fin 512)
  /-- INJ_CHUNK_FETCH (R242). -/
  | injChunkFetch (i : Fin 512)
  /-- CAP_TRIGGER (R244). -/
  | capTrigger (i : Fin 1024)
  /-- CAP_ENTRY_RECORD (R244). -/
  | capEntryRecord (i : Fin 1024) (fails : BitVec 4)
  /-- CAP_ENTRY_COMMIT (R245). -/
  | capEntryCommit (i : Fin 1024)
  /-- CAP_DONE (R244). -/
  | capDone (i : Fin 1024)
  /-- LOAD_COMPLETE (R304). -/
  | loadComplete (ch : Fin 512)
  /-- MODEL_LOAD_COMPLETE (R319). -/
  | modelLoadComplete (f : Fin 32)
  /-- MOTION_LATCH (R316). -/
  | motionLatch (f : Fin 32) (l : Fin 8)
  /-- IMP_DRIFT (R370). -/
  | impDrift (ch : Fin 512)
  /-- MODEL_RUN_START (R317). -/
  | modelRunStart (e : Fin 32) (ch : Fin 512)
  /-- MODEL_DEADLINE (R320). -/
  | modelDeadline (e : Fin 32)
  /-- CLAMP_HOLD_NARROW (R320). -/
  | clampHoldNarrow (ch : Fin 512)
  /-- MODEL_ENGINE_HEALTH_FAIL (R320). -/
  | modelEngineHealthFail (e : Fin 32)
  /-- COVER_END (R344). -/
  | coverEnd (e : Fin 32) (l : Fin 8)
  /-- TABLE_BUILD_DONE (R339). -/
  | tableBuildDone (ch : Fin 512)
  /-- TABLE_SWAP (R340). -/
  | tableSwap (ch : Fin 512)
  /-- RES_REFIT (R327). -/
  | resRefit (ch : Fin 512)
  /-- SENSE_SETTLED (R355). -/
  | senseSettled (n : Fin 256)
  /-- ILL_FAULT (R349). -/
  | illFault (n : Fin 256) (held : Bool)
  /-- SNS_CONFIG_WRITE (R358). -/
  | snsConfigWrite (n : Fin 256) (reg : Fin 5) (v : W)
  /-- PM_CFG_WRITE (R370). -/
  | pmCfgWrite (t : Fin 512) (reg : Fin 2) (v : W)
  /-- DIAG_POINT_END (R361). -/
  | diagPointEnd (d : Fin 256)
  /-- DIAG_RUN_END (R368). -/
  | diagRunEnd (d : Fin 256) (cause : Fin 6)
  /-- DIAG_RESULT_WRITE (R368). -/
  | diagResultWrite (d : Fin 256)
  /-- ALIGN_END (R381). -/
  | alignEnd (ch : Fin 512) (now : Nat)
  /-- FORCED_STEP (R381). -/
  | forcedStep (ch : Fin 512) (now : Nat)
  /-- MOTOR_HANDOVER (R382). -/
  | motorHandover (ch : Fin 512) (now : Nat)
  /-- LOCKED_ROTOR (R383). -/
  | lockedRotor (ch : Fin 512) (now : Nat)
  /-- RAMP_HOLD_END (R383). -/
  | rampHoldEnd (ch : Fin 512) (now : Nat)
  /-- BLANK_END (R375). -/
  | blankEnd (ch : Fin 512) (now : Nat)
  /-- CROSSING_CONFIRMED (R374). -/
  | crossingConfirmed (ch : Fin 512) (now : Nat) (sample : Option FloatIn)
  /-- COMMUTATION_POST (R378). -/
  | commutationPost (ch : Fin 512) (now : Nat)
  /-- SYNTHETIC_COMMUTATION (R379). -/
  | syntheticCommutation (ch : Fin 512) (now : Nat)
  /-- REVERSE (R385). -/
  | reverse (ch : Fin 512) (now : Nat)
  /-- BRAKE_END (R385). -/
  | brakeEnd (ch : Fin 512) (now : Nat)
  /-- COAST_END (R387). -/
  | coastEnd (ch : Fin 512) (now : Nat)
  /-- RETRY_RELOAD (R387). -/
  | retryReload (ch : Fin 512) (now : Nat)
  /-- GATE_EDGE (R399). -/
  | gateEdge (g : Fin 64) (now : Nat)
  /-- GATE_LOST (R401). -/
  | gateLost (g : Fin 64)
  /-- LAYER_TIMEOUT (R402). -/
  | layerTimeout (g : Fin 64) (now : Nat)
  /-- LAYER_STATE_MESSAGE (R403). -/
  | layerStateMessage (id : BitVec 64) (place : Int) (isOpen : Bool)
  /-- HELD_FAULT_TAKE_EFFECT (R405). -/
  | heldFaultTakeEffect (ch : Fin 512)
  /-- DEFERRED_ACTION_RUN (R404). -/
  | deferredActionRun (got : Option (BitVec 384)) (peerArmed : Bool) (now : Nat)
  /-- SHEEPDOG_JUDGEMENT (R409). -/
  | sheepdogJudgement (f : Fin 32) (l : Fin 8)
  /-- LEASE_EXPIRY (R410). -/
  | leaseExpiry (ch : Fin 512)
  /-- ENGINE_AUTO_TEST_START (R420). -/
  | engineAutoTestStart (n : Fin 176)
  /-- RESYNC_COPY_DONE (R421). -/
  | resyncCopyDone (ch : Fin 512)
  /-- PAIR_COMPARE_MISS (R425). -/
  | pairCompareMiss (u : Fin 16) (unwritten : List (Fin 512 × Fin 3)) (now : Nat)
  /-- FS_RESUME (R426). -/
  | fsResume (k : Fin 8)
  /-- CORE_STANDBY_COPY_DONE (R427). -/
  | coreStandbyCopyDone (r : Fin 4) (b : Bool)
  /-- ERROR_REPORT (R437). -/
  | errorReport (source : BitVec 8) (now : Nat)
  /-- FAULT_REACTION_APPLY (R439). -/
  | faultReactionApply (ch : Fin 512)
  /-- BROKEN_WIRE (R435). -/
  | brokenWire (source : BitVec 8) (unwritten : List (Fin 512 × Fin 3)) (now : Nat)
  /-- BROKEN_SOURCE_POLL (R435). -/
  | brokenSourcePoll (now : Nat)
  /-- CAUSE_CONDITION_END (R447). -/
  | causeConditionEnd (source cause : BitVec 8) (okind : BitVec 2) (object : BitVec 11)
  /-- STATION_C4_RECEIVED (R442). -/
  | stationC4Received (id : BitVec 64) (place : Int)
  /-- FLT_RD_WRITE (R444). -/
  | fltRdWrite (v : W)
  /-- RECORD_FREEZE_READ (R444). -/
  | recordFreezeRead (i : Fin 1024)
  /-- LO_WORD_READ (R127). -/
  | loWordRead (addr : BitVec 25) (size : Fin 4)
  /-- ROLLBACK_BURN (R466). -/
  | rollbackBurn (slot : Fin 16) (got : Option (BitVec 8))
  /-- LINK_TRAINED (R487). -/
  | linkTrained (i : Fin 2) (lanes : Fin 3) (station : Option StnJoin)
  /-- DISCOVERY_TOKEN (R488). -/
  | discoveryToken (i : Fin 2) (count : Fin 16) (id : BitVec 64)
  /-- STATION_FORM_MESSAGE (R488). -/
  | stationFormMessage (i : Fin 2) (nmod : Fin 9) (ring excluded : Bool) (rate : BitVec 18) (m : BitVec 2)
  /-- STATION_MARKER (R490). -/
  | stationMarker (i : Fin 2) (frame : BitVec 48) (err : BitVec 16)
  /-- HOP_DELAY_MEASURE (R490). -/
  | hopDelayMeasure (i : Fin 2) (delay : W)
  /-- STATION_SEATING (R491). -/
  | stationSeating (at_ : Nat)
  /-- ALIGN_CONFIRM (R492). -/
  | alignConfirm (p : Fin 8)
  /-- LINK_DOWN (R494). -/
  | linkDown (i : Fin 2) (far : Option Int)
  /-- LINK_UP (R494). -/
  | linkUp (i : Fin 2) (lanes : Fin 3) (far : Option Int) (station : Option StnJoin)
  /-- CALENDAR_SET (R499). -/
  | calendarSet (v : W)
  /-- CALENDAR_SYNC (R499). -/
  | calendarSync (sec : W) (frac : BitVec 14)
  /-- DOORBELL (R512). -/
  | doorbell (r : Fin 8) (v : W)
  /-- COMMAND_FETCH (R513). -/
  | commandFetch (e : CmdEntry)
  /-- COMPLETION_WRITE (R514). -/
  | completionWrite (r : Fin 8)
  /-- CQ_HEAD_WRITE (R514). -/
  | cqHeadWrite (r : Fin 8) (v : W)
  /-- RING_ENABLE (R515). -/
  | ringEnable (r : Fin 8)
  /-- RING_DISABLE (R515). -/
  | ringDisable (r : Fin 8)
  /-- RING_DMA_FAILURE (R516). -/
  | ringDmaFailure (r : Fin 8) (canWrite : Bool)
  /-- HOST_RESET (R503). -/
  | hostReset (pclk : Bool)
  /-- INT_ACK_WRITE (R518). -/
  | intAckWrite (v : W)
  /-- REGISTER_WRITE (R10). -/
  | registerWrite (addr : BitVec 25) (data : List (BitVec 8))
  /-- BAR2_READ (R510). -/
  | bar2Read (addr : BitVec 30) (len : Nat) (uncorrectable : Bool)
  /-- BAR2_WRITE (R508). -/
  | bar2Write (addr : BitVec 30) (data : List (BitVec 8))
  /-- MAINTENANCE_REQUEST (R519). -/
  | maintenanceRequest (req : List (BitVec 8))
  /-- CHAN_NEW (R60). -/
  | chanNew (e : CmdEntry)
  /-- CHAN_DEL (R56). -/
  | chanDel (e : CmdEntry)
  /-- CHAN_DEL_OPEN (R56). -/
  | chanDelOpen (ch : Fin 512) (now : Nat)
  /-- CHAN_DEL_COMPLETE (R56). -/
  | chanDelComplete (ch : Fin 512)
  /-- BIND (R131). -/
  | bind (e : CmdEntry)
  /-- UNBIND (R132). -/
  | unbind (e : CmdEntry)
  /-- LOAD (R283). -/
  | load (e : CmdEntry) (std : Fin 3)
  /-- MODEL_LOAD (R304). -/
  | modelLoad (e : CmdEntry) (std : Fin 3)
  /-- MODEL_TABLE (R338). -/
  | modelTable (e : CmdEntry)
  /-- STAGE (R305). -/
  | stage (e : CmdEntry)
  /-- STAGE_SET (R305). -/
  | stageSet (e : CmdEntry)
  /-- COMMIT (R179). -/
  | commit (e : CmdEntry)
  /-- ABORT (R305). -/
  | abort (e : CmdEntry)
  /-- ARM (R306). -/
  | arm (e : CmdEntry) (now : Nat)
  /-- DISARM (R306). -/
  | disarm (e : CmdEntry)
  /-- CLEAR (R54). -/
  | clear (e : CmdEntry)
  /-- MUTE (R141). -/
  | mute (e : CmdEntry)
  /-- UNMUTE (R141). -/
  | unmute (e : CmdEntry)
  /-- GAIN (R139). -/
  | gain (e : CmdEntry)
  /-- CAP_NEW (R308). -/
  | capNew (e : CmdEntry)
  /-- CAP_START (R246). -/
  | capStart (e : CmdEntry)
  /-- CAP_STOP (R308). -/
  | capStop (e : CmdEntry)
  /-- CAP_DEL (R308). -/
  | capDel (e : CmdEntry)
  /-- INJ_NEW (R241). -/
  | injNew (e : CmdEntry)
  /-- INJ_START (R241). -/
  | injStart (e : CmdEntry)
  /-- INJ_STOP (R308). -/
  | injStop (e : CmdEntry)
  /-- INJ_DEL (R308). -/
  | injDel (e : CmdEntry)
  /-- DIAG_RUN (R360). -/
  | diagRun (e : CmdEntry)
  /-- DIAG_ABORT (R368). -/
  | diagAbort (e : CmdEntry)
  /-- DIAG_ENROL (R366). -/
  | diagEnrol (e : CmdEntry)
  /-- DIAG_DEL (R310). -/
  | diagDel (e : CmdEntry)
  /-- FENCE_LOAD (R469). -/
  | fenceLoad (e : CmdEntry) (got : Option (BitVec 384))
  /-- FENCE_QUERY (R311). -/
  | fenceQuery (e : CmdEntry)
  /-- ATTEST (R474). -/
  | attest (e : CmdEntry)
  /-- DEBUG_CHAL (R475). -/
  | debugChal (e : CmdEntry)
  /-- DEBUG_RESP (R477). -/
  | debugResp (e : CmdEntry) (fuseOk : Bool)
  /-- BIST_RUN (R527). -/
  | bistRun (e : CmdEntry)
  /-- BIST_WORK_MOVED (R527). -/
  | bistWorkMoved (c : Fin 9)
  /-- BIST_VERDICT (R526). -/
  | bistVerdict (c : Fin 9) (sig : BitVec 64)
  /-- DOMAIN (R33). -/
  | domain (e : CmdEntry) (now : Nat)
  /-- STN_INFO (R312). -/
  | stnInfo (e : CmdEntry)
  /-- STN_RESCAN (R496). -/
  | stnRescan (e : CmdEntry) (peerArmed : Bool)
  /-- TIMER_NEW (R202). -/
  | timerNew (e : CmdEntry)
  /-- TIMER_DEL (R203). -/
  | timerDel (e : CmdEntry)
  /-- TRIP_SET (R207). -/
  | tripSet (e : CmdEntry)
  /-- TRIP_ADD (R207). -/
  | tripAdd (e : CmdEntry) (now : Nat)
  /-- TRIP_DEL (R312). -/
  | tripDel (e : CmdEntry)
  /-- MOTOR_NEW (R391). -/
  | motorNew (e : CmdEntry)
  /-- MOTOR_DEL (R392). -/
  | motorDel (e : CmdEntry)
  /-- GATE_NEW (R398). -/
  | gateNew (e : CmdEntry)
  /-- GATE_DEL (R312). -/
  | gateDel (e : CmdEntry)
  /-- JTAG_BYPASS (R533). -/
  | jtagBypass (code : BitVec 8)
  /-- JTAG_SAMPLE_PRELOAD (R533). -/
  | jtagSamplePreload (pins shift : List Bool)
  /-- JTAG_EXTEST (R534). -/
  | jtagExtest (pins : List Bool) (shift : Option (List Bool))
  /-- LINE_SIGNAL_PRESENT (R93). -/
  | lineSignalPresent (n : Fin 16)
  /-- CALENDAR_SUPPLY_CHANGE (R498). -/
  | calendarSupplyChange (supply : Fin 4)
  /-- PCIE_LINK_TRAINED (R485). -/
  | pcieLinkTrained (width : Fin 3) (speed : Fin 3)
  /-- NOP (R260). -/
  | iaNop (e : Fin 160) (err : Fin 5)
  /-- END (R277). -/
  | iaEnd (e : Fin 160) (err : Fin 5)
  /-- MOVI (R260). -/
  | iaMovi (e : Fin 160) (err : Fin 5)
  /-- LDP (R260). -/
  | iaLdp (e : Fin 160) (err : Fin 5)
  /-- ADDP (R260). -/
  | iaAddp (e : Fin 160) (err : Fin 5)
  /-- MOV (R260). -/
  | iaMov (e : Fin 160) (err : Fin 5)
  /-- MFL (R260). -/
  | iaMfl (e : Fin 160) (err : Fin 5)
  /-- CLRS (R253). -/
  | iaClrs (e : Fin 160) (err : Fin 5)
  /-- LDH (R256). -/
  | iaLdh (e : Fin 160) (err : Fin 5)
  /-- STH (R256). -/
  | iaSth (e : Fin 160) (err : Fin 5)
  /-- LDW (R256). -/
  | iaLdw (e : Fin 160) (err : Fin 5)
  /-- STW (R257). -/
  | iaStw (e : Fin 160) (err : Fin 5)
  /-- ADD (R260). -/
  | iaAdd (e : Fin 160) (err : Fin 5)
  /-- SUB (R260). -/
  | iaSub (e : Fin 160) (err : Fin 5)
  /-- ADDI (R260). -/
  | iaAddi (e : Fin 160) (err : Fin 5)
  /-- NEG (R260). -/
  | iaNeg (e : Fin 160) (err : Fin 5)
  /-- ABS (R260). -/
  | iaAbs (e : Fin 160) (err : Fin 5)
  /-- MIN (R260). -/
  | iaMin (e : Fin 160) (err : Fin 5)
  /-- MAX (R260). -/
  | iaMax (e : Fin 160) (err : Fin 5)
  /-- AND (R260). -/
  | iaAnd (e : Fin 160) (err : Fin 5)
  /-- OR (R260). -/
  | iaOr (e : Fin 160) (err : Fin 5)
  /-- XOR (R260). -/
  | iaXor (e : Fin 160) (err : Fin 5)
  /-- ANDI (R260). -/
  | iaAndi (e : Fin 160) (err : Fin 5)
  /-- SHL (R264). -/
  | iaShl (e : Fin 160) (err : Fin 5)
  /-- SHR (R264). -/
  | iaShr (e : Fin 160) (err : Fin 5)
  /-- CMP (R253). -/
  | iaCmp (e : Fin 160) (err : Fin 5)
  /-- CMPI (R253). -/
  | iaCmpi (e : Fin 160) (err : Fin 5)
  /-- SEL (R259). -/
  | iaSel (e : Fin 160) (err : Fin 5)
  /-- MUL (R221). -/
  | iaMul (e : Fin 160) (err : Fin 5)
  /-- MAC (R260). -/
  | iaMac (e : Fin 160) (err : Fin 5)
  /-- MSU (R260). -/
  | iaMsu (e : Fin 160) (err : Fin 5)
  /-- GMUL (R223). -/
  | iaGmul (e : Fin 160) (err : Fin 5)
  /-- GMAC (R223). -/
  | iaGmac (e : Fin 160) (err : Fin 5)
  /-- ADDA (R260). -/
  | iaAdda (e : Fin 160) (err : Fin 5)
  /-- SUBA (R260). -/
  | iaSuba (e : Fin 160) (err : Fin 5)
  /-- XTA (R260). -/
  | iaXta (e : Fin 160) (err : Fin 5)
  /-- RND (R222). -/
  | iaRnd (e : Fin 160) (err : Fin 5)
  /-- SHA (R264). -/
  | iaSha (e : Fin 160) (err : Fin 5)
  /-- CLPA (R264). -/
  | iaClpa (e : Fin 160) (err : Fin 5)
  /-- SATW (R260). -/
  | iaSatw (e : Fin 160) (err : Fin 5)
  /-- CMPA (R253). -/
  | iaCmpa (e : Fin 160) (err : Fin 5)
  /-- SELA (R259). -/
  | iaSela (e : Fin 160) (err : Fin 5)
  /-- EXT (R262). -/
  | iaExt (e : Fin 160) (err : Fin 5)
  /-- ERR (R261). -/
  | iaErr (e : Fin 160) (err : Fin 5)
  /-- DIV (R263). -/
  | iaDiv (e : Fin 160) (err : Fin 5)
  /-- CLRA (R260). -/
  | iaClra (e : Fin 160) (err : Fin 5)
  /-- LSE (R268). -/
  | iaLse (e : Fin 160) (err : Fin 5)
  /-- HLD (R267). -/
  | iaHld (e : Fin 160) (err : Fin 5)
  /-- CAP (R269). -/
  | iaCap (e : Fin 160) (err : Fin 5)
  /-- CHN (R270). -/
  | iaChn (e : Fin 160) (err : Fin 5)
  /-- CLM (R270). -/
  | iaClm (e : Fin 160) (err : Fin 5)
  /-- SPT (R265). -/
  | iaSpt (e : Fin 160) (err : Fin 5)
  /-- SIN (R265). -/
  | iaSin (e : Fin 160) (err : Fin 5)
  /-- FFW (R265). -/
  | iaFfw (e : Fin 160) (err : Fin 5)
  /-- INJ (R265). -/
  | iaInj (e : Fin 160) (err : Fin 5)
  /-- EVT (R265). -/
  | iaEvt (e : Fin 160) (err : Fin 5)
  /-- OUT (R266). -/
  | iaOut (e : Fin 160) (err : Fin 5)
  /-- LOOP (R272). -/
  | iaLoop (e : Fin 160) (err : Fin 5)
  /-- SKP (R273). -/
  | iaSkp (e : Fin 160) (err : Fin 5)
  /-- ALWAYS_ON_READY (R481). -/
  | alwaysOnReady
  /-- CORES_STARTED (R481). -/
  | coresStarted
  /-- FRAME_CLOCK_PHASED (R481). -/
  | frameClockPhased
  /-- CLOCK_RESERVE_TAKEOVER (R40). -/
  | clockReserveTakeover
  /-- SOURCE_LOST (R112). -/
  | sourceLost
  /-- HOLDOVER_ENTRY (R115). -/
  | holdoverEntry
  /-- HOLDOVER_MIN_END (R115). -/
  | holdoverMinEnd
  /-- HOLDOVER_NO_SOURCE (R126). -/
  | holdoverNoSource
  /-- SLEW_FREQ_MATCHED (R116). -/
  | slewFreqMatched
  /-- SLEW_PHASE_DONE (R116). -/
  | slewPhaseDone
  /-- FC_SETTINGS_APPLY (R128). -/
  | fcSettingsApply
  /-- RECORD_WRITE (R437). -/
  | recordWrite
  /-- TALLY_FREEZE (R452). -/
  | tallyFreeze
  /-- TALLY_LATCH (R452). -/
  | tallyLatch
  /-- TALLY_UNFREEZE (R452). -/
  | tallyUnfreeze
  /-- FENCE_IN_FORCE (R469). -/
  | fenceInForce
  /-- CHALLENGE_LAPSE (R475). -/
  | challengeLapse
  /-- DISCOVERY_TIMEOUT (R488). -/
  | discoveryTimeout
  /-- STATION_READY (R492). -/
  | stationReady
  /-- ALIGN_ERR (R492). -/
  | alignErr
  /-- SUPERCAP_LOW (R500). -/
  | supercapLow
  /-- BACKUP_LOW (R500). -/
  | backupLow
  /-- COMMAND_TAKE (R294). -/
  | commandTake
  /-- DRAM_UNCORRECTABLE (R510). -/
  | dramUncorrectable
  /-- JTAG_IDCODE (R533). -/
  | jtagIdcode
  deriving DecidableEq, Repr

end Sys2Proof
end

