-- ==== Sys2Proof/Decode.lean ====
section
/-! DEFINITION. The commands of this block have no bits: spec/opcode_table.json gives no row any, so no word spells one. -/

namespace Sys2Proof

/-- The command that a word spells by the table's bits. -/
def decodeTableWord (_nbits _w : Nat) : Option Instr := none

end Sys2Proof
end

