-- ==== Sys2Proof/Machine/Tab.lean ====
section
/-! DEFINITION. Sparse tables and bit helpers: the one place that decides how a table is read and
written, how a field is cut from a word, and how the check codes are computed. -/

namespace Sys2Proof.Machine

/-- The value at number `k`; an unlisted number reads as `d`. -/
def tget {α : Type} (d : α) : Tab α → Nat → α
  | [], _ => d
  | (i, v) :: r, k => if i = k then v else tget d r k

/-- Put an entry in front of the first entry of a higher number. -/
def tins {α : Type} (k : Nat) (v : α) : Tab α → Tab α
  | [] => [(k, v)]
  | (i, w) :: r => if k < i then (k, v) :: (i, w) :: r else (i, w) :: tins k v r

/-- Write one number. Writing the value an unlisted number reads as removes the entry, so equal tables
are equal data. -/
def tset {α : Type} [DecidableEq α] (d : α) (t : Tab α) (k : Nat) (v : α) : Tab α :=
  let t' := t.filter (fun e => e.1 != k)
  if v = d then t' else tins k v t'

/-- Rewrite one number from its present value. -/
def tupd {α : Type} [DecidableEq α] (d : α) (t : Tab α) (k : Nat) (f : α → α) : Tab α :=
  tset d t k (f (tget d t k))

/-- The canonical form: numbers strictly rising, no entry equal to what its number reads as unlisted. -/
def twf {α : Type} [DecidableEq α] (d : Nat → α) (t : Tab α) : Bool :=
  t.all (fun e => decide (e.2 ≠ d e.1)) && decide (t.Pairwise (fun a b => a.1 < b.1))

/-- The numbers listed, rising. -/
def tkeys {α : Type} (t : Tab α) : List Nat := t.map (·.1)

/-- Apply `f` to every listed entry. -/
def tmap {α : Type} [DecidableEq α] (d : α) (t : Tab α) (f : Nat → α → α) : Tab α :=
  (tkeys t).foldl (fun a k => tset d a k (f k (tget d a k))) t

/-- Drop every entry whose number satisfies `p`: those numbers read as the unlisted value again. -/
def tdrop {α : Type} (t : Tab α) (p : Nat → Bool) : Tab α := t.filter (fun e => !p e.1)

/-- The first number below `n` that satisfies `p`. -/
def firstIdx (n : Nat) (p : Nat → Bool) : Option Nat := (List.range n).find? p

/-- Bits [lo + width − 1 : lo] of a natural number. -/
def fieldN (x lo width : Nat) : Nat := x / 2 ^ lo % 2 ^ width

/-- Bits [lo + width − 1 : lo] of a word. -/
def fld (w : W) (lo width : Nat) : Nat := fieldN w.toNat lo width

/-- One bit of a word. -/
def bitOf (w : W) (i : Nat) : Bool := w.getLsbD i

/-- The word with field [lo + width − 1 : lo] set to `v`. -/
def setFld (w : W) (lo width v : Nat) : W :=
  BitVec.ofNat 32 (w.toNat - fld w lo width * 2 ^ lo + v % 2 ^ width * 2 ^ lo)

/-- The word with bit `i` set. -/
def setBit (w : W) (i : Nat) : W := w ||| BitVec.ofNat 32 (2 ^ i)

/-- The word with bit `i` clear. -/
def clrBit (w : W) (i : Nat) : W := w &&& ~~~ (BitVec.ofNat 32 (2 ^ i))

/-- A flag as a number. -/
def b2n (b : Bool) : Nat := if b then 1 else 0

/-- Two's complement value of the low `n` bits of a natural number. -/
def sx (n x : Nat) : Int :=
  let y := x % 2 ^ n
  if y < 2 ^ (n - 1) then (y : Int) else (y : Int) - (2 ^ n : Nat)

/-- An integer modulo 2 ^ n, as a natural number (two's complement bits). -/
def ux (n : Nat) (i : Int) : Nat := (i % ((2 ^ n : Nat) : Int)).toNat

/-- An integer limited to a range. -/
def clampI (lo hi x : Int) : Int := max lo (min hi x)

/-- Absolute value of an integer. -/
def absI (x : Int) : Int := if x < 0 then -x else x

/-- Floor of a quotient, for a positive divisor. -/
def floorDiv (a b : Int) : Int := a.fdiv b

/-- Quotient rounded to nearest, ties away from zero, for a positive divisor. -/
def roundDiv (a b : Int) : Int :=
  if a < 0 then - ((2 * (-a) + b).fdiv (2 * b)) else (2 * a + b).fdiv (2 * b)

/-- The largest r with r * r ≤ n, by `fuel` halvings of a bit. -/
def isqrtAux : Nat → Nat → Nat → Nat
  | 0, _, acc => acc
  | b + 1, n, acc =>
    let c := acc + 2 ^ b
    isqrtAux b n (if c * c ≤ n then c else acc)

/-- Integer square root of a number below 2 ^ 128. -/
def isqrt (n : Nat) : Nat := isqrtAux 64 n 0

/-- The square root of num / den to nearest. -/
def rootNear (num den : Nat) : Nat := (isqrt (4 * num / den) + 1) / 2

/-- One bit into a CRC register of `width` bits with polynomial `poly`, most significant bit first. -/
def crcBit (width poly : Nat) (r : Nat) (b : Bool) : Nat :=
  let top := fieldN r (width - 1) 1
  let r' := r * 2 % 2 ^ width
  if (top == 1) != b then r' ^^^ poly else r'

/-- The low `n` bits of a number, least significant first. -/
def bitsOf (n x : Nat) : List Bool := (List.range n).map (fun i => fieldN x i 1 == 1)

/-- A CRC over a list of bits. -/
def crc (width poly init : Nat) (bits : List Bool) : Nat := bits.foldl (crcBit width poly) init

/-- The bytes of a number, least significant first. -/
def leBytes : Nat → Nat → List (BitVec 8)
  | 0, _ => []
  | n + 1, x => BitVec.ofNat 8 x :: leBytes n (x / 256)

/-- The number that bytes spell, least significant first. -/
def leVal : List (BitVec 8) → Nat
  | [] => 0
  | b :: r => b.toNat + 256 * leVal r

/-- Apply `f` over a list from the left. -/
def forL {α β : Type} (l : List α) (f : α → β → β) (b : β) : β := l.foldl (fun x a => f a x) b

/-- The sum of `f` over a list. -/
def sumL {α : Type} (l : List α) (f : α → Nat) : Nat := l.foldl (fun n a => n + f a) 0

end Sys2Proof.Machine
end

