-- ==== Sys2Proof/Machine/Crypto.lean ====
section
/-! DEFINITION. The cryptographic functions that the security rules name (18 R460 to R476): SHA-384 (FIPS 180-4), HMAC and
HKDF-SHA-384 (RFC 2104, RFC 5869), AES-256 (FIPS 197), AES-256-GCM (SP 800-38D), the AES key wrap (RFC 3394), ECDSA and ECDH on P-384
(FIPS 186-4, SEC 1). PRESUMED: the spec names these standards and does not restate them (log 157). -/

namespace Sys2Proof.Machine

open Sys2Proof

abbrev Bytes := List (BitVec 8)

/-- The number that bytes spell, most significant first, and the bytes of a number. -/
def beVal (l : Bytes) : Nat := l.foldl (fun n b => n * 256 + b.toNat) 0
def beBytes (n x : Nat) : Bytes := (leBytes n x).reverse

/-- A list in pieces of n. -/
def pieces {α : Type} (n : Nat) : Nat → List α → List (List α)
  | 0, _ => []
  | k + 1, l => if l.isEmpty then [] else l.take n :: pieces n k (l.drop n)

-- ---------------------------------------------------------------- SHA-384

/-- The round constants: the first 64 fractional bits of the cube roots of the first 80 primes. -/
def shaK : List Nat :=
  [0x428a2f98d728ae22, 0x7137449123ef65cd, 0xb5c0fbcfec4d3b2f, 0xe9b5dba58189dbbc] ++
  [0x3956c25bf348b538, 0x59f111f1b605d019, 0x923f82a4af194f9b, 0xab1c5ed5da6d8118] ++
  [0xd807aa98a3030242, 0x12835b0145706fbe, 0x243185be4ee4b28c, 0x550c7dc3d5ffb4e2] ++
  [0x72be5d74f27b896f, 0x80deb1fe3b1696b1, 0x9bdc06a725c71235, 0xc19bf174cf692694] ++
  [0xe49b69c19ef14ad2, 0xefbe4786384f25e3, 0x0fc19dc68b8cd5b5, 0x240ca1cc77ac9c65] ++
  [0x2de92c6f592b0275, 0x4a7484aa6ea6e483, 0x5cb0a9dcbd41fbd4, 0x76f988da831153b5] ++
  [0x983e5152ee66dfab, 0xa831c66d2db43210, 0xb00327c898fb213f, 0xbf597fc7beef0ee4] ++
  [0xc6e00bf33da88fc2, 0xd5a79147930aa725, 0x06ca6351e003826f, 0x142929670a0e6e70] ++
  [0x27b70a8546d22ffc, 0x2e1b21385c26c926, 0x4d2c6dfc5ac42aed, 0x53380d139d95b3df] ++
  [0x650a73548baf63de, 0x766a0abb3c77b2a8, 0x81c2c92e47edaee6, 0x92722c851482353b] ++
  [0xa2bfe8a14cf10364, 0xa81a664bbc423001, 0xc24b8b70d0f89791, 0xc76c51a30654be30] ++
  [0xd192e819d6ef5218, 0xd69906245565a910, 0xf40e35855771202a, 0x106aa07032bbd1b8] ++
  [0x19a4c116b8d2d0c8, 0x1e376c085141ab53, 0x2748774cdf8eeb99, 0x34b0bcb5e19b48a8] ++
  [0x391c0cb3c5c95a63, 0x4ed8aa4ae3418acb, 0x5b9cca4f7763e373, 0x682e6ff3d6b2b8a3] ++
  [0x748f82ee5defb2fc, 0x78a5636f43172f60, 0x84c87814a1f0ab72, 0x8cc702081a6439ec] ++
  [0x90befffa23631e28, 0xa4506cebde82bde9, 0xbef9a3f7b2c67915, 0xc67178f2e372532b] ++
  [0xca273eceea26619c, 0xd186b8c721c0c207, 0xeada7dd6cde0eb1e, 0xf57d4f7fee6ed178] ++
  [0x06f067aa72176fba, 0x0a637dc5a2c898a6, 0x113f9804bef90dae, 0x1b710b35131c471b] ++
  [0x28db77f523047d84, 0x32caab7b40c72493, 0x3c9ebe0a15c9bebc, 0x431d67c49c100d4c] ++
  [0x4cc5d4becb3e42b6, 0x597f299cfc657e2a, 0x5fcb6fab3ad6faec, 0x6c44198c4a475817]

/-- The first hash value: the first 64 fractional bits of the square roots of the ninth to sixteenth prime. -/
def shaH : List Nat :=
  [0xcbbb9d5dc1059ed8, 0x629a292a367cd507, 0x9159015a3070dd17, 0x152fecd8f70e5939,
    0x67332667ffc00b31, 0x8eb44a8768581511, 0xdb0c2e0d64f98fa7, 0x47b5481dbefa4fa4]

def rotr64 (n x : Nat) : Nat := (x >>> n) ||| (x <<< (64 - n) % 2 ^ 64)
def shaS (a b c x : Nat) : Nat := rotr64 a x ^^^ rotr64 b x ^^^ rotr64 c x
def shaT (a b c x : Nat) : Nat := rotr64 a x ^^^ rotr64 b x ^^^ (x >>> c)

/-- One round on the working variables with k + w. -/
def shaRound (v : List Nat) (kw : Nat) : List Nat :=
  match v with
  | [a, b, c, d, e, f, g, h] =>
    let t1 := h + shaS 14 18 41 e + ((e &&& f) ^^^ ((2 ^ 64 - 1 - e) &&& g)) + kw
    let t2 := shaS 28 34 39 a + ((a &&& b) ^^^ (a &&& c) ^^^ (b &&& c))
    [(t1 + t2) % 2 ^ 64, a, b, c, (d + t1) % 2 ^ 64, e, f, g]
  | l => l

/-- The message schedule goes on by one word. -/
def shaNext (w : List Nat) : List Nat :=
  w.drop 1 ++ [(shaT 19 61 6 (w.getD 14 0) + w.getD 9 0 + shaT 1 8 7 (w.getD 1 0) + w.getD 0 0) % 2 ^ 64]

def shaRounds : List Nat → List Nat → List Nat → List Nat
  | [], _, v => v
  | k :: r, w, v => shaRounds r (shaNext w) (shaRound v (k + w.getD 0 0))

/-- One block of 128 bytes. -/
def shaBlock (h : List Nat) (b : Bytes) : List Nat :=
  List.zipWith (fun x y => (x + y) % 2 ^ 64) h (shaRounds shaK ((pieces 8 16 b).map beVal) h)

/-- The SHA-384 digest of a byte string (R460, R461, R463, R474). -/
def sha384 (m : Bytes) : BitVec 384 :=
  let n := m.length
  let full := m ++ 0x80 :: List.replicate ((239 - n % 128) % 128) 0 ++ beBytes 16 (8 * n)
  BitVec.ofNat 384 (((pieces 128 full.length full).foldl shaBlock shaH).foldl (fun x y => x * 2 ^ 64 + y) 0 / 2 ^ 128)

def sha384Bytes (m : Bytes) : Bytes := beBytes 48 (sha384 m).toNat

/-- HMAC with SHA-384 of a key of at most 128 bytes. -/
def hmac384 (key m : Bytes) : Bytes :=
  let k := key ++ List.replicate (128 - key.length) 0
  sha384Bytes (k.map (· ^^^ 0x5C) ++ sha384Bytes (k.map (· ^^^ 0x36) ++ m))

/-- The first 32 bytes of HKDF-SHA-384. -/
def hkdf32 (ikm salt info : Bytes) : Bytes := (hmac384 (hmac384 salt ikm) (info ++ [1])).take 32

-- ---------------------------------------------------------------- AES-256

/-- The S-box and its inverse, entry x in byte x from the least significant on. -/
def aesBox : Nat :=
  0x16bb54b00f2d99416842e6bf0d89a18cdf2855cee9871e9b948ed9691198f8e19e1dc186b95735610ef6034866b53e708a8bbd4b1f74dde8c6b4a61c2e2578ba08ae7a65eaf4566ca94ed58d6d37c8e779e4959162acd3c25c2406490a3a32e0db0b5ede14b8ee4688902a22dc4f816073195d643d7ea7c41744975fec130ccdd2f3ff1021dab6bcf5389d928f40a351a89f3c507f02f94585334d43fbaaefd0cf584c4a39becb6a5bb1fc20ed00d153842fe329b3d63b52a05a6e1b1a2c830975b227ebe28012079a059618c323c7041531d871f1e5a534ccf73f362693fdb7c072a49cafa2d4adf04759fa7dc982ca76abd7fe2b670130c56f6bf27b777c63
def aesUnbox : Nat :=
  0x7d0c2155631469e126d677ba7e042b17619953833cbbebc8b0f52aae4d3be0a0ef9cc9939f7ae52d0d4ab519a97f51605fec8027591012b131c7078833a8dd1ff45acd78fec0db9a2079d2c64b3e56fc1bbe18aa0e62b76f89c5291d711af1476edf751ce837f9e28535ade72274ac9673e6b4f0cecff297eadc674f4111913a6b8a130103bdafc1020f3fca8f1e2cd00645b3b80558e4f70ad3bc8c00abd890849d8da75746155edab9edfd5048706c92b6655dcc5ca4d41698688664f6f87225d18b6d49a25b76b224d92866a12e084ec3fa420b954cee3d23c2a632947b54cbe9dec444438e3487ff2f9b8239e37cfbd7f3819ea340bf38a53630d56a0952

def boxAt (t x : Nat) : Nat := (t >>> (8 * x)) % 256
def xtime (x : Nat) : Nat := if x < 128 then 2 * x else (2 * x) ^^^ 0x11B

/-- A product in GF(2 ^ 8) with a factor below 16. -/
def gfMul (k x : Nat) : Nat :=
  let x2 := xtime x
  let x4 := xtime x2
  (if k % 2 = 1 then x else 0) ^^^ (if k / 2 % 2 = 1 then x2 else 0) ^^^ (if k / 4 % 2 = 1 then x4 else 0) ^^^
    (if 8 ≤ k then xtime x4 else 0)

def xorL (a b : List Nat) : List Nat := List.zipWith (· ^^^ ·) a b

/-- The words of the key schedule after the first eight, `w` the last eight, from word i on. -/
def aesWords : Nat → Nat → Nat → List (List Nat) → List (List Nat)
  | 0, _, _, _ => []
  | n + 1, i, rcon, w =>
    let t := w.getD 7 []
    let t := if i % 8 = 0 then
        match t with | a :: r => xorL ((r ++ [a]).map (boxAt aesBox)) [rcon, 0, 0, 0] | [] => []
      else if i % 8 = 4 then t.map (boxAt aesBox) else t
    let x := xorL (w.getD 0 []) t
    x :: aesWords n (i + 1) (if i % 8 = 0 then xtime rcon else rcon) (w.drop 1 ++ [x])

/-- The 15 round keys of a key of 32 bytes. -/
def aesKeys (key : Bytes) : List (List Nat) :=
  let w := pieces 4 8 (key.map (·.toNat))
  pieces 16 15 ((w ++ aesWords 52 8 1 w).flatten)

/-- Columns multiplied by the matrix whose first row is given. -/
def mixCols (m : List Nat) (s : List Nat) : List Nat :=
  (List.range 16).map (fun i => ((List.range 4).map (fun j => gfMul (m.getD ((j + 4 - i % 4) % 4) 0) (s.getD (i / 4 * 4 + j) 0))).foldl (· ^^^ ·) 0)

def aesRounds : List (List Nat) → List Nat → List Nat
  | [], s => s
  | k :: r, s =>
    let t := (List.range 16).map (fun i => boxAt aesBox (s.getD ((5 * i) % 16) 0))
    aesRounds r (xorL (if r.isEmpty then t else mixCols [2, 3, 1, 1] t) k)

/-- AES-256 of one block of 16 bytes under the round keys. -/
def aesEnc (ks : List (List Nat)) (b : List Nat) : List Nat :=
  match ks with | k :: r => aesRounds r (xorL b k) | [] => b

def aesBack : List (List Nat) → List Nat → List Nat
  | [], s => s
  | k :: r, s =>
    let t := xorL ((List.range 16).map (fun i => boxAt aesUnbox (s.getD ((13 * i) % 16) 0))) k
    aesBack r (if r.isEmpty then t else mixCols [14, 11, 13, 9] t)

/-- Its inverse. -/
def aesDec (ks : List (List Nat)) (b : List Nat) : List Nat :=
  match ks.reverse with | k :: r => aesBack r (xorL b k) | [] => b

-- ---------------------------------------------------------------- AES-256-GCM

/-- A product in GF(2 ^ 128), blocks as numbers of their 16 bytes, most significant first. -/
def ghashMul (x y : Nat) : Nat :=
  ((List.range 128).foldl (fun (p : Nat × Nat) i =>
    (if (x >>> (127 - i)) % 2 = 1 then p.1 ^^^ p.2 else p.1, if p.2 % 2 = 1 then (p.2 >>> 1) ^^^ (0xE1 <<< 120) else p.2 >>> 1)) (0, y)).1

/-- The blocks of a byte string, the last filled up with zeros. -/
def gcmBlocks (l : Bytes) : List Nat :=
  (pieces 16 l.length l).map (fun b => beVal b * 256 ^ (16 - b.length))

def aesNat (ks : List (List Nat)) (x : Nat) : Nat :=
  (aesEnc ks ((beBytes 16 x).map (·.toNat))).foldl (fun n b => n * 256 + b) 0

/-- The tag of a ciphertext with additional data under a key and a 12-byte IV. -/
def gcmTag (key iv aad ct : Bytes) : BitVec 128 :=
  let ks := aesKeys key
  let h := aesNat ks 0
  let len := 8 * aad.length * 2 ^ 64 + 8 * ct.length
  let g := (gcmBlocks aad ++ gcmBlocks ct ++ [len]).foldl (fun y x => ghashMul (y ^^^ x) h) 0
  BitVec.ofNat 128 (g ^^^ aesNat ks (beVal iv * 2 ^ 32 + 1))

/-- A text under the key stream, which encrypts and decrypts. -/
def gcmCrypt (key iv text : Bytes) : Bytes :=
  let ks := aesKeys key
  (pieces 16 text.length text).zipIdx.flatMap (fun b =>
    List.zipWith (· ^^^ ·) b.1 (beBytes 16 (aesNat ks (beVal iv * 2 ^ 32 + 2 + b.2))))

-- ---------------------------------------------------------------- key wrap

/-- One step of the unwrapping, number t, on A and the words R with the last first. -/
def unwrapStep (ks : List (List Nat)) (t : Nat) (a : Nat) (r : Nat) : Nat × Nat :=
  let b := (aesDec ks ((beBytes 8 (a ^^^ t) ++ beBytes 8 r).map (·.toNat))).foldl (fun n b => n * 256 + b) 0
  (b / 2 ^ 64, b % 2 ^ 64)

/-- The steps t, t − 1, … of the unwrapping, the words in the order in which they come next. -/
def unwrapSteps (ks : List (List Nat)) : Nat → Nat → List Nat → Nat × List Nat
  | 0, a, l => (a, l)
  | t + 1, a, l =>
    match l with
    | r :: l =>
      let p := unwrapStep ks (t + 1) a r
      unwrapSteps ks t p.1 (l ++ [p.2])
    | [] => (a, [])

/-- The key that 40 wrapped bytes hold, where they unwrap. -/
def keyUnwrap (kek wrapped : Bytes) : Option Bytes :=
  let w := (pieces 8 5 wrapped).map beVal
  let p := unwrapSteps (aesKeys kek) 24 (w.getD 0 0) (w.drop 1).reverse
  if p.1 = 0xA6A6A6A6A6A6A6A6 then some (p.2.reverse.flatMap (beBytes 8)) else none

-- ---------------------------------------------------------------- P-384

def ecP : Nat := 2 ^ 384 - 2 ^ 128 - 2 ^ 96 + 2 ^ 32 - 1
def ecB : Nat := 0xb3312fa7e23ee7e4988e056be3f82d19181d9c6efe8141120314088f5013875ac656398d8a2ed19d2a85c8edd3ec2aef
def ecN : Nat := 0xffffffffffffffffffffffffffffffffffffffffffffffffc7634d81f4372ddf581a0db248b0a77aecec196accc52973

/-- A point X / Z², Y / Z³; Z is 0 at infinity. -/
structure EcPoint where
  x : Nat
  y : Nat
  z : Nat
  deriving DecidableEq, Repr

def ecInf : EcPoint := ⟨1, 1, 0⟩
def ecG : EcPoint :=
  { x := 0xaa87ca22be8b05378eb1c71ef320ad746e1d3b628ba79b9859f741e082542a385502f25dbf55296c3a545e3872760ab7
    y := 0x3617de4a96262c6f5d9e98bf9292dc29f8f41dbd289a147ce9da3113b5f0b8c00a60b1ce1d7e819d7a431d7c90ea0e5f
    z := 1 }

/-- a − b modulo m, of numbers below it. -/
def subMod (m a b : Nat) : Nat := (a + m - b) % m

/-- a ^ e modulo m, by the low n bits of e. -/
def powMod (m : Nat) : Nat → Nat → Nat → Nat
  | 0, _, _ => 1 % m
  | n + 1, a, e =>
    let r := powMod m n (a * a % m) (e / 2)
    if e % 2 = 1 then a * r % m else r

/-- The inverse modulo a prime of 384 bits. -/
def invMod (m a : Nat) : Nat := powMod m 384 (a % m) (m - 2)

def ecDouble (p : EcPoint) : EcPoint :=
  if p.z = 0 then p
  else
    let d := p.z * p.z % ecP
    let g := p.y * p.y % ecP
    let b := p.x * g % ecP
    let a := 3 * (subMod ecP p.x d * (p.x + d)) % ecP
    let x := subMod ecP (a * a % ecP) (8 * b % ecP)
    { x, y := subMod ecP (a * subMod ecP (4 * b % ecP) x % ecP) (8 * (g * g) % ecP), z := 2 * (p.y * p.z) % ecP }

def ecAdd (p q : EcPoint) : EcPoint :=
  if p.z = 0 then q
  else if q.z = 0 then p
  else
    let z1 := p.z * p.z % ecP
    let z2 := q.z * q.z % ecP
    let u1 := p.x * z2 % ecP
    let s1 := p.y * (z2 * q.z) % ecP
    let h := subMod ecP (q.x * z1 % ecP) u1
    let r := subMod ecP (q.y * (z1 * p.z) % ecP) s1
    if h = 0 then (if r = 0 then ecDouble p else ecInf)
    else
      let h2 := h * h % ecP
      let h3 := h * h2 % ecP
      let v := u1 * h2 % ecP
      let x := subMod ecP (r * r % ecP) ((h3 + 2 * v) % ecP)
      { x, y := subMod ecP (r * subMod ecP v x % ecP) (s1 * h3 % ecP), z := h * (p.z * q.z) % ecP }

/-- k times a point, by the low n bits of k. -/
def ecMul : Nat → Nat → EcPoint → EcPoint
  | 0, _, _ => ecInf
  | n + 1, k, p =>
    let r := ecDouble (ecMul n (k / 2) p)
    if k % 2 = 1 then ecAdd r p else r

/-- The x and y of a point that is not at infinity. -/
def ecAffine (p : EcPoint) : Option (Nat × Nat) :=
  if p.z = 0 then none
  else
    let i := invMod ecP p.z
    let i2 := i * i % ecP
    some (p.x * i2 % ecP, p.y * (i2 * i) % ecP)

/-- The point of an uncompressed public key of 97 bytes, where they are one. -/
def ecKey (k : Bytes) : Option EcPoint :=
  let x := beVal ((k.drop 1).take 48)
  let y := beVal (k.drop 49)
  if k.length = 97 ∧ k.head? = some 4 ∧ x < ecP ∧ y < ecP ∧ y * y % ecP = (x * (x * x) + (ecP - 3) * x + ecB) % ecP then some ⟨x, y, 1⟩
  else none

/-- The uncompressed public key of a private key. -/
def ecPublic (d : Nat) : Bytes :=
  match ecAffine (ecMul 384 d ecG) with
  | some (x, y) => 4 :: beBytes 48 x ++ beBytes 48 y
  | none => List.replicate 97 0

/-- An ECDSA signature of 96 bytes, r then s, verifies over a digest under a public key. -/
def ecdsaVerify (key : Bytes) (digest : BitVec 384) (sig : Bytes) : Bool :=
  let r := beVal (sig.take 48)
  let s := beVal (sig.drop 48)
  match ecKey key with
  | none => false
  | some q =>
    if sig.length = 96 ∧ 0 < r ∧ r < ecN ∧ 0 < s ∧ s < ecN then
      let w := invMod ecN s
      match ecAffine (ecAdd (ecMul 384 (digest.toNat * w % ecN) ecG) (ecMul 384 (r * w % ecN) q)) with
      | some (x, _) => x % ecN == r
      | none => false
    else false

/-- The ECDSA signature of a digest under a private key with nonce k. -/
def ecdsaSign (d : Nat) (digest : BitVec 384) (k : Nat) : Bytes :=
  match ecAffine (ecMul 384 k ecG) with
  | some (x, _) =>
    let r := x % ecN
    beBytes 48 r ++ beBytes 48 (invMod ecN k * (digest.toNat + r * d) % ecN)
  | none => List.replicate 96 0

/-- The ECDH secret of a private key and a public key: the x of their point, 48 bytes. -/
def ecdh (d : Nat) (key : Bytes) : Option Bytes :=
  (ecKey key).bind (fun q => (ecAffine (ecMul 384 d q)).map (fun p => beBytes 48 p.1))

end Sys2Proof.Machine
end

