-- ==== Sys2Proof/Config.lean ====
section
/-! DEFINITION. Free values: constants with no body, so that no proof can see one. Each stands where the
spec lets a value be and does not say which (notes/assumptions names them). -/

namespace Sys2Proof.Config

/-- A fresh word of any width for the n-th time one is needed (random bytes, R475). -/
opaque freeBits (w : Nat) : Nat → BitVec w

/-- The module's private identity key, generated at manufacture (R460). -/
opaque identityKey : BitVec 384

/-- The manufacturer identity of the IDCODE register (R533). -/
opaque manufacturer : BitVec 11

/-- The flags word at the END of a run of a standard loop image (R276, R551), by what the run read: it follows from words that the
spec does not give. -/
opaque endFlags : List Int → BitVec 16

/-- The cause code that a captured value of bad parity is reported with (R247): R434 names none. -/
opaque capParityCause : BitVec 8

/-- The cc that a fold supervisor takes to take over its neighbour's fold (R426): the spec bounds it by 1,600. -/
opaque fsTakeover : Nat → Nat

/-- The seven SECDED check bits of a word (R136): the spec does not give the code. -/
opaque eccBits : BitVec 32 → BitVec 7

/-- The golden value of a level and kind of test (R526). -/
opaque golden : Nat → Nat → BitVec 64

/-- The cause code that a failed test is reported with, BIST_FAIL (R529): R434 names none. -/
opaque bistFailCause : BitVec 8

/-- The temperature in °C × 2 ^ 14 of an RTD (false Pt100, true Pt1000) of a resistance in mΩ whose temperature lies outside −50 °C to
600 °C (R351). -/
opaque rtdTemp : Bool → Nat → BitVec 24

/-- The temperature in °C × 2 ^ 14 of a thermistor outside −40 °C to 150 °C, by RNOM in 10 Ω, BETA in K and its resistance in Ω
(R352). -/
opaque thermistorTemp : Nat → Nat → Nat → BitVec 24

/-- Bytes 0x040 on of a working table bank where the spec states none (R339): the coefficients at 0x040, and rows of parameters
that the formulas of R331 and R332 give no value for. By the parameter table, RES20 in µΩ, XLIM and VLIM, FRATE and M_LOG2. -/
opaque motionTable : List (BitVec 8) → Nat → Nat → Nat → Nat → Nat → List (BitVec 8)

/-- One motion period of the estimate (R330) with parameters that make a formula divide by 0: x̂, v̂ and the current give the next
x̂ and v̂. -/
opaque motionStep : List (BitVec 8) → Int → Int → Int → Int × Int

end Sys2Proof.Config
end

