-- ==== Sys2Proof/Machine/Addr.lean ====
section
/-! DEFINITION. BAR0 addresses of the register words (R104, R127, R154, R183, R217, R248, R406, R449,
R459, R479, R501, R506, R507, R521, R522), the event register of each source and selector (R434,
R479, R501, R521), and the reset value of each word. -/

namespace Sys2Proof.Machine

-- blocks (R506)
def aPort (n : Nat) : Nat := 0x100000 + 0x1000 * n
def aOut (n : Nat) : Nat := 0x110000 + 0x1000 * n
def aFc : Nat := 0x180000
def aLayer : Nat := 0x190000
def aCol : Nat := 0x200000
def aTal : Nat := 0x200C00
def aCore : Nat := 0x208000
def aSec : Nat := 0x300000
def aStn : Nat := 0x1400000
def aTest : Nat := 0x1500000
def aRing (r : Nat) : Nat := 0x1000 + 0x40 * r
def aFlock (f : Nat) : Nat := 0x400000 + 0x80000 * f

/-- Fold registers (R217). -/
def aFold (k : Nat) : Nat := aFlock (4 * k) + 0x70000

/-- Registers of beam gate g (R406). -/
def aGate (g : Nat) : Nat := aFold (g / 8) + 0x400 + 0x20 * (g % 8)

-- index rules (R18)
def flockOf (t : Nat) : Nat := t / 16
def foldOf (t : Nat) : Nat := t / 64
def posOf (t : Nat) : Nat := t % 16

-- input ports (R104)
def spCtrl (n : Nat) : Nat := aPort n
def spLimit (n : Nat) : Nat := aPort n + 0x004
def spKindmap (n i : Nat) : Nat := aPort n + 0x008 + 4 * i
def spStat (n : Nat) : Nat := aPort n + 0x010
def spEvt (n : Nat) : Nat := aPort n + 0x014
def spRate (n : Nat) : Nat := aPort n + 0x01C
def spArrival (n : Nat) : Nat := aPort n + 0x020
def spStdinfo (n : Nat) : Nat := aPort n + 0x024
def spBlkcnt (n : Nat) : Nat := aPort n + 0x028
def spCnt (n i : Nat) : Nat := aPort n + 0x040 + 4 * i
def spTally (n i : Nat) : Nat := aPort n + 0xA00 + 8 * i
def sealEvt (n : Nat) : Nat := aPort n + 0xB04
def sealCnt (n i : Nat) : Nat := aPort n + 0xB10 + 4 * i

-- output ports (R107)
def soCtrl (n : Nat) : Nat := aOut n
def soStat (n : Nat) : Nat := aOut n + 4
def soId (n : Nat) : Nat := aOut n + 8
def soSlot (n i : Nat) : Nat := aOut n + 0x40 + 4 * i

-- Bellwether (R127)
def fcCtrl : Nat := aFc
def fcRate : Nat := aFc + 0x004
def fcRatio : Nat := aFc + 0x008
def fcPrio : Nat := aFc + 0x00C
def fcWindow : Nat := aFc + 0x010
def fcPhase : Nat := aFc + 0x014
def fcStat : Nat := aFc + 0x018
def fcEvt : Nat := aFc + 0x01C
def fcOffset (e : Nat) : Nat := aFc + 0x024 + 4 * e
def fcCountLo : Nat := aFc + 0x034
def slipDrop (n : Nat) : Nat := aFc + 0x100 + 8 * n
def slipRepeat (n : Nat) : Nat := aFc + 0x104 + 8 * n

-- flock blocks (R507)
def intCnt (f i : Nat) : Nat := aFlock f + 0x2000 + 4 * i
def intEvt (f : Nat) : Nat := aFlock f + 0x2020
def smpStat (t : Nat) : Nat := aFlock (flockOf t) + 0x2040 + 4 * posOf t
def modReg (t off : Nat) : Nat := aFlock (flockOf t) + 0x3000 + 0x40 * posOf t + off
def crookReg (t : Nat) : Nat := aFlock (flockOf t) + 0x3400 + 4 * posOf t
def modEvt (f : Nat) : Nat := aFlock f + 0x3440
def psReg (t off : Nat) : Nat := aFlock (flockOf t) + 0x4000 + 0x40 * posOf t + off
def segmap (t p : Nat) : Nat := aFlock (flockOf t) + 0x4400 + 0x40 * posOf t + 4 * p
def vsUnconf (t : Nat) : Nat := aFlock (flockOf t) + 0x7800 + 0x10 * posOf t
def vsBreak (t : Nat) : Nat := vsUnconf t + 8
def leaseTally (f : Nat) : Nat := aFlock f + 0x7900

-- folds (R217)
def foldCfg (k : Nat) : Nat := aFold k
def foldBus (k : Nat) : Nat := aFold k + 0x04
def foldPower (k : Nat) : Nat := aFold k + 0x08
def foldTemp (k : Nat) : Nat := aFold k + 0x10
def foldEvt (k : Nat) : Nat := aFold k + 0x14
def tripAct (k : Nat) : Nat := aFold k + 0x1C
def tripFired (k : Nat) : Nat := aFold k + 0x20
def segTally (k i : Nat) : Nat := aFold k + 0x40 + 4 * i
def cntFallback (k : Nat) : Nat := aFold k + 0x50
def gateEvt (g : Nat) : Nat := aGate g + 0x14
def gateCnt (g i : Nat) : Nat := aGate g + 0x08 + 4 * i

-- collector, tallies, security, host (R449, R459, R479, R521, R522)
def fltCtrl : Nat := aCol + 0x004
def fltWr : Nat := aCol + 0x008
def fltRd : Nat := aCol + 0x00C
def fltEvt : Nat := aCol + 0x010
def clsCnt (c i : Nat) : Nat := aCol + 0x040 + 0x10 * c + 4 * i
def talCtrl : Nat := aTal
def talEvt : Nat := aTal + 0x008
def crGranted (r : Nat) : Nat := aTal + 0x040 + 8 * r
def crReturned (r : Nat) : Nat := aTal + 0x044 + 8 * r
def secEvt : Nat := aSec + 0x010
def hostEvt : Nat := 0x014
def scratchReg : Nat := 0x00C
def modFw : Nat := 0x004
def modCap : Nat := 0x008
def ambTemp : Nat := 0x010
def mntStat : Nat := 0x02C
def ringCtrl (r : Nat) : Nat := aRing r
def ringSize (r : Nat) : Nat := aRing r + 0x04
def sqTail (r : Nat) : Nat := aRing r + 0x1C
def sqFetch (r : Nat) : Nat := aRing r + 0x20
def cqTail (r : Nat) : Nat := aRing r + 0x24
def cqHead (r : Nat) : Nat := aRing r + 0x28

-- loop, engines, models, leases, sense, monitor, motors (R248, R287, R345, R357, R370, R394, R429, R430)
def atPos (t base step off : Nat) : Nat := aFlock (flockOf t) + base + step * posOf t + off
def loopReg (t off : Nat) : Nat := atPos t 0x5000 0x100 off
def coefReg (t w : Nat) : Nat := loopReg t (4 * w)
def loopCfg (t : Nat) : Nat := loopReg t 0x80
def feLim (t : Nat) : Nat := loopReg t 0x84
def feTime (t : Nat) : Nat := loopReg t 0x88
def loopEvt (t : Nat) : Nat := loopReg t 0x90
def capReg (t off : Nat) : Nat := atPos t 0x6100 0x20 off
def injReg (t off : Nat) : Nat := atPos t 0x6300 0x10 off
def mdlReg (t off : Nat) : Nat := atPos t 0x6800 0x40 off
def mdlEvt (t : Nat) : Nat := mdlReg t 0x18
def leaseReg (t off : Nat) : Nat := atPos t 0x6C00 0x10 off
def shdEvt (f : Nat) : Nat := aFlock f + 0x6D00
def snsReg (n off : Nat) : Nat := aFlock (n / 8) + 0x7000 + 0x40 * (n % 8) + off
def snsEvt (n : Nat) : Nat := snsReg n 0x20
def pmReg (t off : Nat) : Nat := atPos t 0x7200 0x20 off
def pmEvt (t : Nat) : Nat := pmReg t 0x10
def motReg (t off : Nat) : Nat := aFlock (flockOf t) + 0x7400 + 0x40 * (posOf t / 4) + off
def motEvt (t : Nat) : Nat := motReg t 0x24

/-- Registers of engine e: loop engines 0 to 127 (R248, R287), model engines from 128 (R345). -/
def engReg (e off : Nat) : Nat :=
  if e < 128 then aFlock (e / 4) + 0x6000 + 0x20 * (e % 4) + off else aFlock (e - 128) + 0x6400 + off

/-- Health registers of engine e (R430). -/
def hltReg (e off : Nat) : Nat :=
  if e < 128 then aFlock (e / 4) + 0x6080 + 0x20 * (e % 4) + off else aFlock (e - 128) + 0x6440 + off

def engEvt (e : Nat) : Nat := engReg e 0x10
def fsReg (k off : Nat) : Nat := aFold k + 0x80 + off
def coreReg (r off : Nat) : Nat := aCore + 0x10 * r + off
def calEvt : Nat := 0x824
def calStat : Nat := 0x820
def stnEvt : Nat := aStn + 0x30
def stnAlign : Nat := aStn + 0x08
def linkStat (i : Nat) : Nat := aStn + 0x10 + 0x10 * i
def linkDelay (i : Nat) : Nat := aStn + 0x14 + 0x10 * i
def bistReg (c off : Nat) : Nat := aTest + 0x20 * c + off

/-- The event registers of a source under a selector (R434, R479, R501, R521): one, or one for each
position, port or gate of the block. Selector 15 has none. -/
def evtRegs (source sel : Nat) : List Nat :=
  if source < 0x80 then (if sel = 0 then [engEvt source] else [])
  else if source < 0xA0 then
    let f := source - 0x80
    match sel with
    | 0 => [engEvt (128 + f)]
    | 1 => (List.range 16).map (fun q => mdlEvt (16 * f + q))
    | _ => []
  else if source < 0xC0 then
    let f := source - 0xA0
    match sel with
    | 0 => [intEvt f]
    | 1 => [modEvt f]
    | 2 => (List.range 16).map (fun q => loopEvt (16 * f + q))
    | 3 => (List.range 8).map (fun n => snsEvt (8 * f + n))
    | 4 => (List.range 16).map (fun q => pmEvt (16 * f + q))
    | 5 => (List.range 4).map (fun q => motEvt (16 * f + 4 * q))
    | 6 => [shdEvt f]
    | _ => []
  else if source < 0xC8 then
    let k := source - 0xC0
    match sel with
    | 0 => [foldEvt k]
    | 1 => (List.range 8).map (fun g => gateEvt (8 * k + g))
    | _ => []
  else if source < 0xD0 then []
  else if source < 0xE0 then
    match sel with
    | 0 => [spEvt (source - 0xD0)]
    | 1 => [sealEvt (source - 0xD0)]
    | _ => []
  else match source, sel with
    | 0xE4, 0 => [fcEvt]
    | 0xE5, 0 => [stnEvt]
    | 0xE6, 0 => [stnEvt]
    | 0xE7, 0 => [hostEvt]
    | 0xEA, 0 => [secEvt]
    | 0xEB, 0 => [secEvt]
    | 0xF2, 0 => [calEvt]
    | _, _ => []

/-- Reset values of register words that are not 0. -/
def regReset (a : Nat) : W :=
  if 0x100000 ≤ a ∧ a < 0x110000 then
    match a % 0x1000 with
    | 0 => 0x20
    | 4 => 0x10
    | 8 => 0x55555555
    | 12 => 0x55555555
    | _ => 0
  else if 0x400000 ≤ a ∧ a < 0x1400000 then
    let o := (a - 0x400000) % 0x80000
    if 0x4000 ≤ o ∧ o < 0x4400 then
      match o % 0x40 with
      | 0x04 => 0x00E00000
      | 0x08 => 0x50000000
      | _ => 0
    else if 0x4400 ≤ o ∧ o < 0x4800 then 0xFFFF
    else if 0x7000 ≤ o ∧ o < 0x7200 then
      match o % 0x40 with
      | 0x04 => 0x00801000
      | 0x08 => 0x4000
      | 0x10 => 0x03E80F6E
      | _ => 0
    else if 0x7200 ≤ o ∧ o < 0x7400 ∧ o % 0x20 = 4 then 0x0014000A
    else if o = 0x70000 ∧ (a - 0x400000) / 0x80000 % 4 = 0 then 0x00320030
    else if o = 0x70040 ∧ (a - 0x400000) / 0x80000 % 4 = 0 then 0x3800
    else if o = 0x70044 ∧ (a - 0x400000) / 0x80000 % 4 = 0 then 0x800
    else if 0x6800 ≤ o ∧ o < 0x6C00 ∧ o % 0x40 = 0 then 0x180
    else 0
  else match a with
    | 0x180004 => 0x17700
    | 0x180008 => 2
    | 0x18000C => 0x20
    | 0x180010 => 0x0A141388
    | 0x180014 => 0x40001046
    | 0x200004 => 1
    | 0 => 0x02560101
    | 8 => 0x08100000
    | _ =>
      if 0x1000 ≤ a ∧ a < 0x1200 ∧ a % 0x40 = 4 then 4
      else if 0x208000 ≤ a ∧ a < 0x208040 ∧ a % 0x10 = 0 then 0x10
      else 0

/-- Sources of R433. -/
def srcLoop (e : Nat) : Nat := e
def srcModel (f : Nat) : Nat := 0x80 + f
def srcFlock (f : Nat) : Nat := 0xA0 + f
def srcFold (k : Nat) : Nat := 0xC0 + k
def srcFs (k : Nat) : Nat := 0xC8 + k
def srcPort (n : Nat) : Nat := 0xD0 + n
def srcOut (n : Nat) : Nat := 0xE0 + n
def srcBell : Nat := 0xE4
def srcLink (i : Nat) : Nat := 0xE5 + i
def srcPcie : Nat := 0xE7
def srcCore (i : Nat) : Nat := 0xE8 + i
def srcDram : Nat := 0xF0
def srcClock : Nat := 0xF1
def srcCal : Nat := 0xF2
def srcMnt : Nat := 0xF3
def srcStn : Nat := 0xF4

end Sys2Proof.Machine
end

