-- ==== Sys2Proof/Machine/State.lean ====
section
/-! DEFINITION. The state of the block as plain data, its stops, and the state at reset. Register words
that the spec numbers by BAR0 address live in one table by that address; everything that is not a
register word has a field of its own. -/

namespace Sys2Proof.Machine

open Sys2Proof

-- ---------------------------------------------------------------- collector (16)

/-- One report of a source: what R437 latches and R443 records. -/
structure Report where
  source : Nat
  cause : Nat
  cls : Nat
  okind : Nat
  object : Nat
  deriving DecidableEq, Repr

/-- A report latched at its task input with its stamp (R438), and whether its condition has ended since (R447). -/
structure Stamped where
  rep : Report
  seconds : W
  frame : W
  frac : Nat
  delayed : Bool
  ended : Bool
  deriving DecidableEq, Repr

/-- A dispatched stop of one channel that waits for its carrier boundary (R439). -/
structure React where
  chan : Nat
  rep : Report
  deriving DecidableEq, Repr

/-- A record of the queue (R443) with its frozen mark (R444). -/
structure Rec where
  st : Stamped
  merged : Nat
  cleared : Bool
  frozen : Bool
  deriving DecidableEq, Repr

/-- The collector (R433 to R449). `own` holds the causes of selector 15, which have no register; `gone` the reports of `srcQ`, and
`ended` the latched causes, whose condition has ended. -/
structure Col where
  srcQ : List Report
  gone : List Report
  intake : List Stamped
  reacts : List React
  own : Tab W
  broken : List Nat
  unwatched : List Nat
  latched : List Report
  live : List Report
  ended : List Report
  recs : Tab Rec
  turn : Nat
  c4 : Bool
  c4rec : Option Stamped
  lastC4 : Option Stamped
  deriving DecidableEq, Repr

-- ---------------------------------------------------------------- input ports (03, 18)

/-- Port states of R93. -/
inductive PortSt where
  | off | acquire | frame | block | locked | rateHold
  deriving DecidableEq, Repr

/-- One delivered slot of a frame in the alignment queue (R23, R89, R148). -/
structure QSample where
  slot : Nat
  sample : BitVec 24
  valid : Bool
  ev : Nat
  deriving DecidableEq, Repr

/-- A frame in the alignment queue. `arrival` are the cc from the end of its write to the next boundary, `samples` is what it delivers, `counted` how many
of its subframes are received samples (R89, R453). -/
structure QFrame where
  samples : List QSample
  counted : Nat
  arrival : Nat
  deriving DecidableEq, Repr

/-- A received frame that waits in the seal buffer (R472): whether it has a framing error, its subframes. -/
structure RxFrame where
  bad : Bool
  subs : List Subframe
  deriving DecidableEq, Repr

/-- Status of one slot (SP_SLOT), whether RUN_LIMIT was raised in this run of missing samples (R92), and
what it released at the last boundary. -/
structure SlotSt where
  run : Nat
  kindRx : Nat
  csOk : Bool
  valid : Bool
  limHit : Bool
  relNow : Option QSample
  deriving DecidableEq, Repr

/-- A block whose verdict is awaited (R471): its seal fields, whether the CRCC of slot 0 passed, its tag and the block data. -/
structure SealInfo where
  epoch : Nat
  seq : Nat
  streamId : Nat
  crcOk : Bool
  tag : BitVec 128
  data : List (BitVec 8)
  deriving DecidableEq, Repr

/-- A port's seal entry (R467). -/
structure PortSeal where
  mode : Nat
  streamId : Nat
  epochMin : Nat
  deriving DecidableEq, Repr

/-- An input port (R93 to R106, R470 to R472). `lens` are the lengths of the last frames in 1/256 pt, at most 256 (R96), `blkClean`
that the block in progress, and once it is complete its slot 0 status, has failed nothing (R93). `sealAt` is the instant, in 1/256 pt, at
which the settings that wait for a block start came in force, `sealKey` the SEAL_KEY of its seal unit, `sealData` the block data so far. -/
structure Port where
  st : PortSt
  sclkOk : Bool
  lens : List Nat
  nrx : Nat
  goodPre : Nat
  badRun : Nat
  blk : Nat
  blkClean : Bool
  seqExp : Option Nat
  relOnce : Bool
  queue : List QFrame
  dropEv : List QSample
  csAcc : Tab (BitVec 192)
  usAcc : Tab (BitVec 192)
  cs : Tab (BitVec 192)
  us : Tab (BitVec 192)
  slots : Tab SlotSt
  sealSet : PortSeal
  sealPend : Option PortSeal
  sealAt : Nat
  sealKey : BitVec 256
  sealData : List (BitVec 8)
  sealCur : List RxFrame
  sealOut : List RxFrame
  sealBlk : Option SealInfo
  sealDone : List RxFrame
  epoch : Nat
  lastSeq : Option Nat
  deriving DecidableEq, Repr

/-- An output slot as latched at a boundary (R99, R101). `model` names what it carries of a channel's model: the channel, EXC or TCOIL, the
loop boundary (R346). -/
structure OSlot where
  sample : BitVec 24
  invalid : Bool
  units : Nat
  exp : Nat
  model : Option (Nat × Bool × Nat)
  deriving DecidableEq, Repr

/-- One subframe as sent: sample, validity, user and channel status bit, preamble Z or X in slot 0 (R99, R103). -/
structure OSub where
  sample : BitVec 24
  invalid : Bool
  u : Bool
  c : Bool
  z : Bool
  deriving DecidableEq, Repr

/-- An output port (R99 to R107). `latched` are the values of the last boundary, `due` those of the one before it, which the next
frame carries; `seq` counts the Z sent since ENABLE. -/
structure OutPort where
  slotPend : Tab (Option W)
  latched : List OSlot
  due : List OSlot
  sent : List OSub
  seq : Nat
  deriving DecidableEq, Repr

-- ---------------------------------------------------------------- Bellwether (04)

/-- Modes of the Bellwether (FC_STAT.MODE). -/
inductive BellMode where
  | tracking | holdover | slewing
  deriving DecidableEq, Repr

/-- The Bellwether (R108 to R129). Its registers in effect are register words; `pend` holds writes that
wait for B(j). `len256` is the frame period the fold timebases measured, in 1/256 pt, `bPt` the pt of
the last B(j) with its fraction `bFrac`. `meas` are the last measurements of each entry while its source was present, newest
first, at most 4, and `linkMeas` those of the station link (R113, R489); `unbarred` the entries unbarred since their last measurement
(R117); `lastGood` the last measurement of the selected source within WINDOW (R115); `freq` the frequency reached by a slew or held,
as an offset in 0.01 ppm times FRATE (R115, R116). `onLink`: the station link is selected above every entry; `follow` the SRC and PORT
byte still followed where the selected entry was rewritten. -/
structure Bell where
  pend : Tab W
  revert : Bool
  mode : BellMode
  active : Nat
  follow : Option Nat
  barred : Nat
  unbarred : Nat
  meas : Tab (List Int)
  linkMeas : List Int
  lastGood : Int
  freq : Int
  frame : BitVec 48
  holdFp : Nat
  noSrcFp : Nat
  excl : Option Nat
  enterHold : Bool
  phaseStep : Bool
  lost : Bool
  onLink : Bool
  len256 : Nat
  bPt : Nat
  bFrac : Nat
  dead : Bool
  deriving DecidableEq, Repr

-- ---------------------------------------------------------------- beam gates and layers (14)

/-- A pending edge of a gate: its time in pt and its level (R399, R400). -/
structure GEdge where
  at_ : Nat
  level : Bool
  deriving DecidableEq, Repr

/-- A beam gate (R397 to R406). `level` is the level on the contact, also with no gate object. -/
structure Gate where
  live : Bool
  level : Bool
  lagChan : Option Nat
  onHeld : Bool
  port : Nat
  slot : Nat
  gateRun : Nat
  delayOn : Int
  delayOff : Int
  td : Nat
  layerMax : Nat
  bound : List Nat
  pend : List GEdge
  open_ : Bool
  openAt : Nat
  lag : Nat
  forced : Nat
  deriving DecidableEq, Repr

-- ---------------------------------------------------------------- objects and channels (02, 05, 06, 10)

/-- A stream binding (R130). -/
structure Binding where
  live : Bool
  port : Nat
  slot : Nat
  chan : Nat
  input : Nat
  units : Nat
  exp : Nat
  ending : Bool
  deriving DecidableEq, Repr

/-- States of a channel (R46, R53). -/
inductive ChanSt where
  | free | idle | armed | stopped | deleting
  deriving DecidableEq, Repr

/-- What CHAN.NEW admitted (R59, R302) and where admission placed it (R45, R62). -/
structure Adm where
  kind : Nat
  first : Nat
  sense : Bool
  motion : Nat
  divLog2 : Nat
  wcc : Nat
  ipk : Nat
  irms : Nat
  exc : Nat
  vel : Nat
  temp : Nat
  power : Nat
  rload : Nat
  wsKib : Nat
  ringJ : Nat
  largest : Nat
  engA : Nat
  engB : Nat
  phase : Nat
  capAt : Nat
  deriving DecidableEq, Repr

/-- The modulator and power-stage settings of a channel (R163 to R173, R190). -/
structure ModSet where
  mode : Nat
  kLog2 : Nat
  dt : Nat
  minp : Nat
  spread : Nat
  slew : Nat
  deriving DecidableEq, Repr

/-- A staging group (R13, R178, R305): the ST fields and STAGE.SET fields written so far. -/
structure Group where
  mode : Option Nat
  kLog2 : Option Nat
  dt : Option Nat
  minp : Option Nat
  spread : Option Nat
  slew : Option Nat
  injPt : Option Nat
  safe : Option Bool
  audible : Option Bool
  zcTimeout : Option Nat
  deriving DecidableEq, Repr

/-- The kinds of gated change (R141, R142). -/
inductive ZcKind where
  | start | stop | mute | unmute | gain
  deriving DecidableEq, Repr

/-- A gated change that is accepted and not applied (R141): `left` are the boundaries it still waits for a crossing, none while it is
not yet pending. -/
structure ZcChange where
  kind : ZcKind
  target : Nat
  left : Option Nat
  deriving DecidableEq, Repr

/-- A gated change that ramps from a gain in 64 steps (R141). -/
structure ZcRamp where
  kind : ZcKind
  target : Nat
  from_ : Nat
  step : Nat
  deriving DecidableEq, Repr

/-- Zero-crossing gating of a channel (R139 to R142). `eff` is the effective gain of the samples released at the last
B(j), `prev` that of the samples before them. `pend` are the changes that wait, in the order accepted, `stopping` that a stop is applied
and waits for its last latch. `ms` is ZC_TIMEOUT in effect. -/
structure Zc where
  gain : Nat
  eff : Nat
  prev : Nat
  muted : Bool
  pend : List ZcChange
  ramp : Option ZcRamp
  stopping : Bool
  timeouts : Nat
  ms : Nat
  lastValid : Option (BitVec 24)
  unitsMm : Bool
  deriving DecidableEq, Repr

/-- One input word (R136): its tag and sample. -/
structure InWord where
  tag : Nat
  sample : BitVec 24
  deriving DecidableEq, Repr

/-- One bank of a position's input words (R136, R137): set-point, feed-forward, injection, and FRAME, FRESH bits and TAG of its STATUS
word; `ev` are the event bits of the set-point sample, `pt` the point of the injection object that wrote the injection word. -/
structure Bank where
  spt : InWord
  ffw : InWord
  inj : InWord
  frame : Nat
  fresh : Nat
  stTag : Nat
  ev : Nat
  pt : Nat
  deriving DecidableEq, Repr

/-- The input side of a channel: banks, and per input word the frames in a row in which every latch failed
hop 3, with what the present frame has seen (R137, R149, R150); `late` marks words that their first latch finds unwritten (R427). -/
structure Inp where
  bank0 : Bank
  bank1 : Bank
  late : Nat
  failRun : Tab Nat
  failed : Nat
  good : Nat
  deriving DecidableEq, Repr

-- ---------------------------------------------------------------- terminals and folds (06, 07)

/-- What a leg does in the present carrier period: both sides off, low, high, a pulse between two
compares, or the complement of one (leg B of mode 1, R164). -/
inductive Drive where
  | off | low | high
  | pulse (cr cf : Nat)
  | inverse (cr cf : Nat)
  deriving DecidableEq, Repr

/-- The account of the carrier period in progress of a modulated leg (R168, R171): its length, on-time
commanded, requested and delivered, what it drops, the residue it leaves, its high span from `cr` to `cf`
in pt from `start` (row 0 a pulse, 1 held, 2 suppressed), whether the readback failed in it, and
whether its compares were repeated (R181 row 5). -/
structure Period where
  start : Nat
  p : Nat
  t : Int
  t' : Int
  deliv : Int
  drop : Int
  rNew : Int
  row : Nat
  cr : Nat
  cf : Nat
  repeated : Bool
  rbFail : Bool
  deriving DecidableEq, Repr

/-- An open desaturation span or overlap is counted by pen and segment. -/
abbrev Seg := Nat × Nat

/-- A gate event that a leg's drive commands and that has not appeared (R151, R161): which one, the pt at which it is scheduled, whether it
is an edge of the pulse that the leg's account counts, and the count of the carrier period that scheduled it. -/
structure Edge where
  ev : Nat
  at_ : Nat
  own : Bool
  per : Nat
  deriving DecidableEq, Repr

/-- A terminal (R157 to R183, R187 to R201). `hi` and `lo` are the gate states of its lead pens, `tHi` and `tLo` those of its trailing pens
(R190). `edges` are the gate events commanded and not yet seen, `offAt` the pt of the last one that turned a side off, `seenAt` the pt
at which the last one appeared. `credit` is the on-time that the last renewal credited to VS_DEL. `shRow` and `shCmp` are ROW and
the compares of the period in progress (R183). `ocHist` and `ocAct` are the overcurrent filter's samples, newest first, and its output
(R204, R205). -/
structure Term where
  hi : Bool
  lo : Bool
  tHi : Bool
  tLo : Bool
  edges : List Edge
  offAt : Nat
  seenAt : Nat
  credit : Int
  shRow : Nat
  shCmp : Option (Nat × Nat)
  ocHist : List Bool
  ocAct : Bool
  drive : Drive
  cur : Option Period
  residue : Int
  forceQ : Option Nat
  forceEff : Nat
  parRun : Nat
  rbHist : List Nat
  periods : Nat
  spanOpen : Bool
  span : List Seg
  gateOff : List Seg
  leads : List Nat
  selfTest : Option Nat
  passed : List (Nat × Nat)
  retire : List Nat
  underBist : List Nat
  deriving DecidableEq, Repr

/-- An act of a fold supervisor that waits for a takeover (R426): segments of a terminal to isolate, a self-test's start and end, the start of an
overlap, the outcome of a substitution (incoming and wanted pen), the measures of R214. -/
inductive FoldWait
  | isolate (t : Nat) (segs : List (Nat × Nat))
  | testStart (t p : Nat)
  | testEnd (t : Nat) (fails : BitVec 16)
  | overlap (t : Nat)
  | outcome (t i w : Nat)
  | budget (busV busNow busI busI10 : BitVec 16) (pout : Int) (chanMw : List (Fin 512 × Int)) (termMa : List (Fin 512 × Nat))
  deriving DecidableEq, Repr

/-- A fold (R204 to R217, R440, R537). `filt` are the samples of each fold-wide trip filter, newest first, and `act` the sources that
their filters show active, a bit each (R204, R205). `dissMs` are the dissipation measures of the last second in µW, newest first (R214). -/
structure Fold where
  filt : Tab (List Bool)
  act : Nat
  dissMs : List Nat
  busS : Nat
  stopped : Bool
  causes : List Report
  ftbLost : Bool
  ftbBack : Bool
  precharge : Bool
  diss : Bool
  waits : List FoldWait
  deriving DecidableEq, Repr

/-- A timer channel (R202, R203). -/
structure Timer where
  live : Bool
  term : Nat
  event : Nat
  delay : Nat
  width : Nat
  retrig : Bool
  open_ : Bool
  openAt : Nat
  deriving DecidableEq, Repr

/-- A trip group (R207). `fired` are the channels it stopped and that have not left stopped. `hist` are its filter's last unblanked
samples, newest first (R205); `blank`, `blankAt` and `blankTo` that a blanking window is open, the pt of its opening and that of its end,
`blankEnd` the pt at which the last one closed (R206). -/
structure Trip where
  hist : List Bool
  blank : Bool
  blankAt : Nat
  blankTo : Nat
  blankEnd : Option Nat
  live : Bool
  mask : Nat
  high : Bool
  n : Nat
  m : Nat
  scope : Nat
  timer : Option Nat
  chans : List Nat
  active : Bool
  fired : List Nat
  firedFolds : List Nat
  deriving DecidableEq, Repr

-- ---------------------------------------------------------------- commands and rings (10, 20)

/-- A completion entry (R289) and whether its command asked for an interrupt. -/
structure Compl where
  opcode : Nat
  status : Nat
  cookie : W
  result : W
  check : Nat
  rule : Nat
  index : Nat
  irq : Bool
  deriving DecidableEq, Repr

/-- An accepted command that has not completed (R295). `silent`: a host reset or a halt took its
completion (R503, R516). -/
structure Prog where
  entry : CmdEntry
  obj : Option (Nat × Nat)
  result : W
  silent : Bool
  burning : Bool
  ready : Bool
  deriving DecidableEq, Repr

/-- A deferred action of R404; a command with the DRAM block it read when it was taken (R509), `silent` where a host reset or a halt
took its completion (R503, R516). -/
inductive Deferred where
  | command (e : CmdEntry) (blk : List (BitVec 8)) (silent : Bool)
  | reselect
  | revert
  | autoTest (engine : Nat)
  | rejoin (engine : Nat)
  deriving DecidableEq, Repr

/-- A command ring (R511 to R516): entries fetched and not taken, completions not yet written, the words of each completion entry as
written (none: an empty list), and whether a halt has left it unwritable (R516). -/
structure Ring where
  fetched : List CmdEntry
  done : List Compl
  cq : Tab (List W)
  lost : Bool
  deriving DecidableEq, Repr

/-- The service core (R294 to R299) and the deferred queue (R404). `takenBlk` is the DRAM block that the command taken names, as
read when it was taken (R509). -/
structure Svc where
  taken : Option CmdEntry
  takenBlk : List (BitVec 8)
  lastRing : Nat
  inProg : List Prog
  defer : List Deferred
  deriving DecidableEq, Repr

-- ---------------------------------------------------------------- tallies and security (17, 18)

/-- The latched read view of the tally counters (R452). -/
structure Frozen where
  regs : Tab W
  wide : Tab (BitVec 48)
  deriving DecidableEq, Repr

/-- The tallies' control state (R452, R458). -/
structure Tal where
  freezePend : Bool
  frozen : Option Frozen
  broken : Nat
  deriving DecidableEq, Repr

/-- A fence entry of one terminal (R467). -/
structure FenceTerm where
  ipk : Nat
  irms : Nat
  exc : Nat
  vel : Nat
  temp : Nat
  kinds : Nat
  tflags : Nat
  deriving DecidableEq, Repr

/-- A fence record body (R467) and its SHA-384 digest. -/
structure Fence where
  version : Nat
  target : BitVec 64
  foldLim : List Nat
  seals : List PortSeal
  sealKey : BitVec 256
  terms : Tab FenceTerm
  hash : BitVec 384
  deriving DecidableEq, Repr

/-- An outstanding debug challenge (R475). -/
structure Chal where
  count : Nat
  seconds : W
  random : BitVec 384
  deriving DecidableEq, Repr

/-- A rollback burn in progress (R466): slot, the count it raises to, opcode and object of its command. -/
structure Burn where
  slot : Nat
  version : Nat
  op : Nat
  obj : Nat × Nat
  deriving DecidableEq, Repr

/-- The security pair (R460 to R479). `fenceStored` is the fence record in the non-volatile store with its signature block, `pendObj` that
of the record to come in force. -/
structure Sec where
  builderHash : Option (BitVec 384)
  rollback : Tab Nat
  debugCount : Nat
  idReady : Bool
  fenceStored : Option (List (BitVec 8))
  fence : Option Fence
  fencePend : Option Fence
  pendObj : List (BitVec 8)
  chal : Option Chal
  unlocked : Bool
  scope : Nat
  burns : List Burn
  unlockLog : List (Nat × W)
  deriving DecidableEq, Repr

/-- An attestation report in preparation (R474): nonce, address, the entry of its command. -/
structure Attest where
  nonce : List (BitVec 8)
  addr : Nat
  deriving DecidableEq, Repr

/-- A distinct loaded image (R281): its header fields, words and coefficients, and the digest of its
plaintext body. `std`: its words are those of a listing of Dwentora's (R551): 1 of std-galvo or std-model, 2 of the heater or
focus-shifter image. -/
structure Image where
  kind : Nat
  id : W
  version : W
  slot : Nat
  wcc : Nat
  stateBytes : Nat
  words : List W
  coef : List W
  hash : BitVec 384
  std : Nat
  deriving DecidableEq, Repr

-- ---------------------------------------------------------------- test and lockstep pairs (15, 21)

/-- The IEEE 1149.1 port (R533, R534): instruction in force, bits last captured, the boundary register's output latches, and the
levels that EXTEST drives. -/
structure Jtag where
  ir : BitVec 8
  captured : List Bool
  latch : List Bool
  driven : Option (List Bool)
  deriving DecidableEq, Repr

/-- Health of an engine (R420, R430): HSTATE, CAUSE, CONVICTS, TEST_RESULT; `st` is STATE of ENG_STAT. -/
structure Health where
  st : Nat
  hstate : Nat
  cause : Nat
  convicts : Nat
  testResult : Nat
  lastTest : W
  deriving DecidableEq, Repr

/-- A fold supervisor pair or one pair of a module core role (R425 to R427, R431). -/
structure Pair where
  st : Nat
  stops : Nat
  testResult : Nat
  lastTest : W
  till : Nat
  deriving DecidableEq, Repr

/-- A module core role (R427, R431): `active` true for pair B. -/
structure Core where
  a : Pair
  b : Pair
  active : Bool
  takeovers : W
  deriving DecidableEq, Repr

/-- A diagnosis run (R359 to R369): `st` 1 waiting, 2 running, 3 excitation ended and its result awaited, 4 ended. `points` are
measured, `outcome` is its end in R368 by number from 0, `verdicts` and `result` what was written, `abort` that DIAG.ABORT is
accepted, `frame` the frame count at its start, `passAt` at the start of its present point or pass; `first` and `ckind` are its channel's first terminal and kind.
`pts` are the points formed, `vamp` the coil voltage amplitude at point 0 in µV, `leak` the leakage RMS in µA, `res` and `par` RES(Tc) in µΩ and the parameter
table at the end of the measurement (R362). -/
structure Diag where
  live : Bool
  chan : Nat
  first : Nat
  ckind : Nat
  kind : Nat
  st : Nat
  block : List (BitVec 8)
  points : Nat
  outcome : Nat
  abort : Bool
  frame : W
  passAt : BitVec 48
  verdicts : Nat
  addr : Nat
  result : List (BitVec 8)
  pts : List DiagPoint
  vamp : Nat
  leak : Nat
  res : Int
  par : List (BitVec 8)
  deriving DecidableEq, Repr

-- ---------------------------------------------------------------- loops, leases, motors (08, 13, 15)

/-- The latch set of one instance, or of a channel at a motion latch (R218, R316), with the model values in effect at it (R244).
`bad`: input words that failed hop 3 for this instance only (R411 row 3). -/
structure Latch where
  sp : BitVec 24
  ff : BitVec 24
  inj : BitVec 24
  flags : BitVec 16
  vbus : BitVec 16
  vnom : BitVec 16
  pos : BitVec 24
  sec : BitVec 24
  cur : List (BitVec 16)
  volt : List (BitVec 16)
  tc : BitVec 16
  exc : BitVec 16
  esh : Nat
  bad : Nat
  idx : Nat
  deriving DecidableEq, Repr

/-- A LOOP in progress: the index of its first body word, the index after its last, the passes left (R272). -/
structure LoopFr where
  start : Nat
  stop : Nat
  left : Nat
  deriving DecidableEq, Repr

/-- The model state that a run of std-model or std-cover works on (R323 to R333): temperatures in 2⁻¹⁶ °C, MSA in 2⁻¹⁶ A², G in
Q1.15, x̂ and v̂ in Q1.15 of twice their limits (log 30); `overN` runs in a row out of bounds, `warn` that Tc was above
TLIM − TBAND. -/
structure MState where
  tc : Int
  tb : Int
  msa : Nat
  g : Nat
  x : Int
  v : Int
  overN : Nat
  warn : Bool
  deriving DecidableEq, Repr

/-- The states of a standard loop image in its instance's state area: I, D and Ic in Q1.31, x[n−1], the last signs of saturation of the
stage output and of c, whether the last run was manual, and x₁, x₂, y₁, y₂ of the notches (R225, R226, R230). -/
structure LawState where
  i : Int
  d : Int
  xprev : Int
  uSat : Int
  manual : Bool
  cSat : Int
  ic : Int
  n1 : List Int
  n2 : List Int
  deriving DecidableEq, Repr

/-- What a run of the law gives: the recorded error, the stage output, the command, the current reference, the states. -/
structure LawOut where
  e32 : Int
  e16 : Int
  auto : Bool
  u : Int
  c : Int
  iref : Int
  st : LawState
  deriving DecidableEq, Repr

/-- A run of an instance on an engine (R250 to R280). `pc` is the index of the next instruction word, `skip` the index
before which words execute as NOPs under SKP, `loops` the LOOPs in progress, innermost first, `mst` the model state that a run
of a standard model image has formed and not yet stored, `law` what a run of a standard loop image computes from what it read. -/
structure Run where
  live : Bool
  ch : Nat
  inst : Bool
  model : Bool
  cover : Bool
  bank : Bool
  rec_ : List (BitVec 8)
  img : Nat
  start : Nat
  pc : Nat
  cc : Nat
  skip : Nat
  loops : List LoopFr
  x : Tab (BitVec 16)
  ac : Tab (BitVec 40)
  p : Tab (BitVec 16)
  z : Bool
  n : Bool
  v : Bool
  sat : Bool
  dz : Bool
  sel : Nat
  sig : BitVec 32
  out : Bool
  hld : Bool
  lse : Bool
  cap : BitVec 16
  bounds : Nat
  evid : Bool
  mst : Option MState
  law : Option LawOut
  deriving DecidableEq, Repr

/-- What an ended run hands to the fold supervisor (R277, R411): whether it ended at END, its signature, renewal,
output, bounds faults, self-check evidence. -/
structure RunSum where
  ended : Bool
  sig : BitVec 32
  lse : Bool
  out : Bool
  hld : Bool
  bounds : Nat
  evid : Bool
  deriving DecidableEq, Repr

/-- The loop part of a channel (R233 to R239): its image, the coefficient writes that wait (word 32 is ESH), program
stores to the block, supervision counts, the latch sets of both instances, `armedAt` the cc at which it was last armed. -/
structure LoopPart where
  img : Option Nat
  coefQ : List (Nat × W)
  progQ : List (Nat × Nat × Nat)
  injPt : Nat
  first : Bool
  feCount : Nat
  ovrRun : Nat
  ovrRunS : Nat
  followErr : Bool
  ovr : Bool
  held : Bool
  delivered : Bool
  lastErr : W
  lastE : Nat
  lastCmd : Nat
  latA : Latch
  latB : Latch
  capVal : BitVec 16
  runs : Nat
  armedAt : Nat
  deriving DecidableEq, Repr

/-- The lease of a channel (R407 to R423). Instance A is the one placed on ENG_A; a side is true for B. `stby` is STBY of
LEASE_STAT, `grant` the side that the next latch gives the token, `lost` that LEASE_LOST stopped the channel, `stepped` that the standby was in step at
the last latch. -/
structure Lease where
  holder : Option Bool
  miss : Nat
  everArmed : Bool
  ovrA : Nat
  ovrB : Nat
  sumA : Option RunSum
  sumB : Option RunSum
  stby : Nat
  mirror : Bool
  unshadowed : Bool
  firstCmp : Bool
  stepped : Bool
  grant : Option Bool
  lost : Bool
  yield_ : Bool
  deriving DecidableEq, Repr

/-- A test controller (R525, R532): `st` 0 idle, 1 moving work, 2 testing; `back` and `was` what the unit, and the leases of the channels
it was standby of, were before the test (R531); `bad` the flock SRAMs and sense ports of its fold that failed a test, as level and
unit (R529). -/
structure Bist where
  level : Nat
  kind : Nat
  unit : Nat
  st : Nat
  sig : BitVec 64
  gold : BitVec 64
  cntRun : W
  cntFail : W
  auto : Bool
  back : Nat
  was : List (Nat × Lease)
  bad : List (Nat × Nat)
  deriving DecidableEq, Repr

/-- What a working table is built from (R339, R341): the parameter table, RES20 in µΩ, the limits in effect, FRATE, M_LOG2, the
nominal bus in V, the build number; `reb` that it was started since the last change of rate, `own` that it carries a MODEL.TABLE
not yet complete. -/
structure BankSrc where
  par : List (BitVec 8)
  res : Nat
  tlim : Nat
  xlim : Nat
  vlim : Nat
  frate : Nat
  mLog2 : Nat
  volt : Nat
  seq : Nat
  reb : Bool
  own : Bool
  deriving DecidableEq, Repr

/-- The model part of a channel (R314 to R344). `par` and `res` are the parameter table and RES20 of the active bank, `parN` and
`resN` the latest, `job` what the build in progress uses, `bk0` and `bk1` what the banks were built from; `opn` that a MODEL.TABLE is
not complete; `fitN` fits in a row outside REFIT_TOL and `fitSum` the sum of their values; `latch` and `rec` what the last motion latch gave the run, `ran` that the run has begun. -/
structure Mdl where
  par : List (BitVec 8)
  parN : List (BitVec 8)
  res : Nat
  resN : Nat
  seq : Nat
  valid : Bool
  swapped : Bool
  bank : Bool
  building : Bool
  job : BankSrc
  bk0 : BankSrc
  bk1 : BankSrc
  opn : Bool
  swapPend : Bool
  rebuild : Bool
  refitWait : Bool
  first : Bool
  infeas : Bool
  ambFb : Bool
  fitN : Nat
  fitSum : Nat
  latch : Latch
  rec_ : List (BitVec 8)
  latBank : Bool
  ran : Bool
  got : Bool
  without : Nat
  upper : Int
  lower : Int
  deriving DecidableEq, Repr

/-- A model engine (R286, R315 to R320, R343): its image, cover, consecutive motion periods with a stopped run, the
motion period in progress and the loop period it began in, and what its last ended run handed over with the run's channel
(R277). -/
structure MEng where
  img : Option Nat
  next : Option Nat
  covering : Bool
  covered : Bool
  late : Nat
  stopped : Bool
  therm : Bool
  latchAt : Nat
  sum : Option (Nat × RunSum)
  deriving DecidableEq, Repr

/-- A sense port (R347 to R358): writes that wait for a latch strobe, what it shows, the illumination in effect and whether it is being
regulated (R349), and the last primary value that position mode formed (R348). -/
structure Sense where
  pend : Tab (Option W)
  settling : Bool
  illNow : Nat
  regOn : Bool
  lastGood : BitVec 24
  deriving DecidableEq, Repr

/-- The sums of one tone in a correlator set (R362): samples, and the coil's voltage and current in steps against sine and cosine in 2⁻⁶⁰. -/
structure Corr where
  n : Nat
  vs : Int
  vc : Int
  is_ : Int
  ic : Int
  deriving DecidableEq, Repr

/-- A channel's correlator set in a diagnosis (R361, R362): the sums of its tones, the samples of the pass between which they are formed, and
the leakage over the whole run: its squares in steps and their number. -/
structure Correl where
  sums : List Corr
  lo : Nat
  hi : Nat
  leak2 : Nat
  leakN : Nat
  deriving DecidableEq, Repr

/-- What the sense hardware forms over a thermal period (R322, R370): samples, the sums of I², of V I and of the squared sum of leg currents in
steps, commands and the sum of their sizes, and the sums at FW. -/
structure CoilAcc where
  n : Nat
  i2 : Nat
  vi : Int
  leak2 : Nat
  cmdN : Nat
  cmdSum : Nat
  fw : Corr
  deriving DecidableEq, Repr

/-- The passive monitor of a channel (R370): writes that wait for a thermal period, the present period's sums, the sums of the window at FW and its
thermal periods, drift windows in a row. -/
structure Mon where
  pend : Tab (Option W)
  acc : CoilAcc
  win : Corr
  winN : Nat
  drift : Nat
  deriving DecidableEq, Repr

/-- A motor object (R371 to R393). Times are in cc. `far`: the first valid sample of the step lay on the side that the expected crossing leads
to; `oppLen` then are the last valid samples in a row on the other side (R376). -/
structure Motor where
  live : Bool
  chan : Nat
  timer : Nat
  dir : Bool
  alignStep : Nat
  alignCmd : Nat
  alignMs : Nat
  rampCmd : Nat
  f0 : Nat
  f1 : Nat
  rampMs : Nat
  holdMs : Nat
  handF : Nat
  confirm : Nat
  zsMin : Nat
  zcOfs : Int
  blankFr : Nat
  adv : Nat
  obsSh : Nat
  jump : Nat
  missMax : Nat
  lockWin : Nat
  retries : Nat
  coastMs : Nat
  brakeMs : Nat
  revN : Nat
  mstate : Nat
  blank : Bool
  tc : Nat
  tp : Nat
  tz : Option Nat
  tzPrev : Nat
  runLen : Nat
  runAt : Nat
  judged : Bool
  far : Option Bool
  oppLen : Nat
  oppJudged : Bool
  cause : Nat
  plaus : Nat
  noPlaus : Nat
  misses : Nat
  revEv : Bool
  revRun : Nat
  left : Nat
  speed : Nat
  zfrac : Nat
  posted : Bool
  sampled : Bool
  since : Nat
  freq : Nat
  due : Option Nat
  deriving DecidableEq, Repr

/-- A capture object (R244 to R247). `codes` are the signal codes as CAP_CFG shows them, `sigs` the captured ones in ascending number;
`queued` are formed entries not yet in DRAM. -/
structure Cap where
  live : Bool
  chan : Nat
  codes : BitVec 16
  sigs : List Nat
  layout : Nat
  decim : Nat
  trig : Bool
  cont : Bool
  target : Nat
  st : Nat
  wptr : Nat
  wraps : Nat
  count : Nat
  skip : Nat
  queued : List (List (BitVec 24))
  formed : Nat
  stopping : Bool
  deriving DecidableEq, Repr

/-- An injection object (R241, R242). `zero`: the single 0 after its end is still to be written. -/
structure Inj where
  live : Bool
  chan : Nat
  amp : Int
  point : Nat
  src : Nat
  len : Nat
  tones : List (Nat × Int × Int)
  p3 : W
  p4 : W
  p5 : W
  st : Nat
  k : Nat
  pos : Nat
  last : BitVec 24
  chunks : List (Nat × List (BitVec 24))
  prbs : Nat
  stop : Bool
  zero : Bool
  deriving DecidableEq, Repr

-- ---------------------------------------------------------------- the channel and the whole state

/-- A channel (02): its admission, state, settings, staging groups, gating, inputs and the parts that
its loop, lease, model and monitor keep. Its register words are in `State.regs`. -/
structure Chan where
  st : ChanSt
  adm : Adm
  safe : Bool
  audible : Bool
  armPend : Bool
  disarmPend : Bool
  causes : List Report
  clearPend : Bool
  held : List Report
  opened : Bool
  md : ModSet
  step : Nat
  stepPend : List (Nat × Nat)
  lfsr : BitVec 16
  xSpread : Nat
  tones : List (Nat × Nat × Nat)
  excK : Nat
  cor : Correl
  grp : Option Group
  commit : Option Group
  cmdQ : Option Int
  cmd : Int
  applied : Int
  curP : Nat
  clampQ : Option (Int × Int)
  clamp : Option (Int × Int)
  clp : Nat
  zc : Zc
  inp : Inp
  powAvg : Int
  loop : LoopPart
  lease : Lease
  mdl : Mdl
  mon : Mon
  deriving DecidableEq, Repr

/-- Start-up and module supply (19): the phase of R481, folds whose slot is complete, BOOT_FAIL and BIST_FAIL of BOOT_STAT, the
STATION_HEAD strap, `down` that the auxiliary supply is off, `calDead` that PD47 has lost every supply, `calPend` a calendar setting
that waits for its tick (R499). -/
structure Boot where
  phase : Nat
  foldUp : Nat
  bootFail : Bool
  bistFail : Bool
  head : Bool
  down : Bool
  calDead : Bool
  calPend : Option (W × Nat)
  deriving DecidableEq, Repr

/-- The coolant inlet sensor (R521, R548, R549): AMB_TEMP and Tin, the 1 s average, both in °C × 64, whether the reading is valid and
renewed, kT in units of 1/1280, the readings of the last 1,000 ms, newest first, none where it was out of range, and the ms since a renewal. -/
structure Amb where
  ok : Bool
  temp : BitVec 16
  hist : List (Option Int)
  stale : Nat
  tin : Int
  kt : Nat
  hot : Bool
  deriving DecidableEq, Repr

/-- What the host side has sent and been sent (R503, R518, R519): MSI-X table, pending bits, messages
sent, maintenance response. -/
structure HostIf where
  msixTable : Tab W
  msixPba : BitVec 16
  msgs : List Nat
  summary : Nat
  mntResp : List (BitVec 8)
  bar2Resp : Option (List (BitVec 8) × Bool)
  readResp : Option (List (BitVec 8))
  deriving DecidableEq, Repr

/-- The station as this module sees it (R403, R442, R487 to R501): `openMods` and `c4Mods` other modules with an open window or in C4, each
by MODULE_ID and place, `lanes` in use by port, `upstream` the port on which the token arrived, `refPort` the port of the reference,
`broken` the broken hops, hop h between places h and h + 1 on the station's line, `place` this module's own place, the hops from M0 and
below 0 on the side of M0's KL1, `headId` the MODULE_ID of the head heard, `seated` that the station
link has been selected since power-up or a rescan, `confirmed` the modules whose phase is confirmed, `mark` the frame count of the
last reference marker, `sent` the port and hop count of the discovery token or count this module last sent out, `alignIn` and `alignOut`
the markers in a row whose phase lay within ±2 ns and outside it. -/
structure Stn where
  nmod : Nat
  pos : Nat
  ring : Bool
  late : Bool
  dstate : Nat
  openMods : List (BitVec 64 × Int)
  c4Mods : List (BitVec 64 × Int)
  stnFault : Bool
  lanes : Tab Nat
  upstream : Option Nat
  refPort : Option Nat
  broken : List Int
  place : Int
  headId : Option Nat
  seated : Bool
  confirmed : List Nat
  mark : BitVec 48
  sent : Option (Nat × Nat)
  alignIn : Nat
  alignOut : Nat
  deriving DecidableEq, Repr

/-- An enrolled signature of a terminal (R366): calendar time, the channel's kind, the run's parameter block and result. -/
structure Enrol where
  seconds : W
  chanKind : Nat
  dkind : Nat
  block : List (BitVec 8)
  result : List (BitVec 8)
  deriving DecidableEq, Repr

/-- The parts of the non-volatile health record with no register of their own: signatures by terminal (R366), retirements of
engines (R420), units that failed a test as level and unit (R526). -/
structure Nv where
  sigs : Tab Enrol
  retired : Nat
  failed : List (Nat × Nat)
  deriving DecidableEq, Repr

/-- The whole block. -/
structure State where
  pending : List Instr
  regs : Tab W
  wide : Tab (BitVec 48)
  hiLatch : Tab W
  gens : Tab Nat
  ws : Tab (BitVec 8)
  dram : List Host.Cell
  dom : BitVec 48
  boot : Boot
  amb : Amb
  ports : Tab Port
  outs : Tab OutPort
  bell : Bell
  chans : Tab Chan
  terms : Tab Term
  folds : Tab Fold
  binds : Tab Binding
  gates : Tab Gate
  timers : Tab Timer
  trips : Tab Trip
  motors : Tab Motor
  caps : Tab Cap
  injs : Tab Inj
  images : Tab Image
  health : Tab Health
  runs : Tab Run
  mengs : Tab MEng
  sense : Tab Sense
  fs : Tab Pair
  cores : Tab Core
  bists : Tab Bist
  jtag : Jtag
  diags : Tab Diag
  rings : Tab Ring
  svc : Svc
  col : Col
  tal : Tal
  sec : Sec
  attest : List Attest
  host : HostIf
  stn : Stn
  nv : Nv
  free : Nat
  deriving DecidableEq, Repr

-- ---------------------------------------------------------------- values of what is not listed

/-- An input port at reset: off (R104). -/
def Port.none : Port :=
  { st := .off, sclkOk := false, lens := [], nrx := 0, goodPre := 0, badRun := 0, blk := 0
    blkClean := false, seqExp := Option.none, relOnce := false, queue := [], dropEv := []
    csAcc := [], usAcc := [], cs := [], us := [], slots := [], sealSet := ⟨0, 0, 0⟩, sealPend := Option.none, sealAt := 0
    sealKey := 0, sealData := [], sealCur := []
    sealOut := [], sealBlk := Option.none, sealDone := [], epoch := 0, lastSeq := Option.none }

def SlotSt.none : SlotSt :=
  { run := 0, kindRx := 0, csOk := false, valid := false, limHit := false, relNow := Option.none }

def OutPort.none : OutPort := { slotPend := [], latched := [], due := [], sent := [], seq := 0 }

def Gate.none : Gate :=
  { live := false, level := false, lagChan := Option.none, onHeld := false, port := 0, slot := 0, gateRun := 0
    delayOn := 0, delayOff := 0, td := 0, layerMax := 0, bound := [], pend := [], open_ := false, openAt := 0
    lag := 0, forced := 0 }

def Binding.none : Binding :=
  { live := false, port := 0, slot := 0, chan := 0, input := 0, units := 0, exp := 0, ending := false }

def Adm.none : Adm :=
  { kind := 0, first := 0, sense := false, motion := 0, divLog2 := 0, wcc := 0, ipk := 0, irms := 0, exc := 0
    vel := 0, temp := 0, power := 0, rload := 0, wsKib := 0, ringJ := 0, largest := 0, engA := 0, engB := 0
    phase := 0, capAt := 0 }

def ModSet.none : ModSet := { mode := 0, kLog2 := 0, dt := 0x50, minp := 0x30, spread := 0, slew := 0 }

def Group.none : Group :=
  { mode := Option.none, kLog2 := Option.none, dt := Option.none, minp := Option.none, spread := Option.none
    slew := Option.none, injPt := Option.none, safe := Option.none, audible := Option.none
    zcTimeout := Option.none }

/-- GAIN at creation is 1.0 (log 8). -/
def Zc.none : Zc :=
  { gain := 32768, eff := 32768, prev := 32768, muted := false, pend := [], ramp := Option.none, stopping := false, timeouts := 0, ms := 20
    lastValid := Option.none, unitsMm := false }

/-- Words of sample 0 with the tag that matches it at source address 0, and a STATUS word of 0 with its tag (R136, R138, R148). -/
def Bank.none : Bank := { spt := ⟨77, 0⟩, ffw := ⟨77, 0⟩, inj := ⟨77, 0⟩, frame := 0, fresh := 0, stTag := 129, ev := 0, pt := 0 }

def Inp.none : Inp := { bank0 := Bank.none, bank1 := Bank.none, late := 0, failRun := [], failed := 0, good := 0 }

def Term.none : Term :=
  { hi := false, lo := false, tHi := false, tLo := false, edges := [], offAt := 0, seenAt := 0, credit := 0, shRow := 0
    shCmp := Option.none, ocHist := [], ocAct := false, drive := .off, cur := Option.none, residue := 0, forceQ := Option.none
    forceEff := 0, parRun := 0, rbHist := [], periods := 0, spanOpen := false, span := [], gateOff := []
    leads := [], selfTest := Option.none, passed := [], retire := [], underBist := [] }

def Fold.none : Fold :=
  { filt := [], act := 0, dissMs := [], busS := 0, stopped := false, causes := [], ftbLost := false, ftbBack := false, precharge := false, diss := false, waits := [] }

def Timer.none : Timer :=
  { live := false, term := 0, event := 0, delay := 0, width := 0, retrig := false, open_ := false, openAt := 0 }

def Trip.none : Trip :=
  { hist := [], blank := false, blankAt := 0, blankTo := 0, blankEnd := Option.none, live := false, mask := 0, high := false, n := 0, m := 0, scope := 0, timer := Option.none, chans := []
    active := false, fired := [], firedFolds := [] }

def Image.none : Image :=
  { kind := 0, id := 0, version := 0, slot := 0, wcc := 0, stateBytes := 0, words := [], coef := [], hash := 0, std := 0 }

def Ring.none : Ring := { fetched := [], done := [], cq := [], lost := false }

def FenceTerm.none : FenceTerm := { ipk := 0, irms := 0, exc := 0, vel := 0, temp := 0, kinds := 0, tflags := 0 }

def Latch.none : Latch :=
  { sp := 0, ff := 0, inj := 0, flags := 0, vbus := 0, vnom := 0, pos := 0, sec := 0, cur := [], volt := [], tc := 0, exc := 0, esh := 0, bad := 0, idx := 0 }

def Run.none : Run :=
  { live := false, ch := 0, inst := false, model := false, cover := false, bank := false, rec_ := [], img := 0, start := 0, pc := 0, cc := 0, skip := 0
    loops := [], x := [], ac := [], p := [], z := false, n := false, v := false, sat := false, dz := false, sel := 0
    sig := 0xFFFFFFFF, out := false, hld := false, lse := false, cap := 0, bounds := 0, evid := false, mst := Option.none, law := Option.none }

def LoopPart.none : LoopPart :=
  { img := Option.none, coefQ := [], progQ := [], injPt := 0, first := false, feCount := 0, ovrRun := 0, ovrRunS := 0
    followErr := false, ovr := false, held := false, delivered := true, lastErr := 0, lastE := 0, lastCmd := 0
    latA := Latch.none, latB := Latch.none, capVal := 0, runs := 0, armedAt := 0 }

def Lease.none : Lease :=
  { holder := Option.none, miss := 0, everArmed := false, ovrA := 0, ovrB := 0, sumA := Option.none
    sumB := Option.none, stby := 0, mirror := false, unshadowed := false, firstCmp := false, stepped := false
    grant := Option.none, lost := false, yield_ := false }

def MState.none : MState :=
  { tc := 0, tb := 0, msa := 0, g := 0, x := 0, v := 0, overN := 0, warn := false }

def BankSrc.none : BankSrc :=
  { par := [], res := 0, tlim := 0, xlim := 0, vlim := 0, frate := 0, mLog2 := 0, volt := 0, seq := 0, reb := false, own := false }

def Mdl.none : Mdl :=
  { par := [], parN := [], res := 0, resN := 0, seq := 0, valid := false, swapped := false, bank := false, building := false
    job := BankSrc.none, bk0 := BankSrc.none, bk1 := BankSrc.none, opn := false, swapPend := false, rebuild := false
    refitWait := false, first := false, infeas := false, ambFb := false, fitN := 0, fitSum := 0, latch := Latch.none, rec_ := [], latBank := false
    ran := true, got := false, without := 0, upper := 0, lower := 0 }

def MEng.none : MEng :=
  { img := Option.none, next := Option.none, covering := false, covered := false, late := 0, stopped := false, therm := false
    latchAt := 0, sum := Option.none }

def Sense.none : Sense := { pend := [], settling := false, illNow := 0, regOn := false, lastGood := 0 }

def Corr.none : Corr := { n := 0, vs := 0, vc := 0, is_ := 0, ic := 0 }
def Correl.none : Correl := { sums := [], lo := 0, hi := 0, leak2 := 0, leakN := 0 }
def CoilAcc.none : CoilAcc := { n := 0, i2 := 0, vi := 0, leak2 := 0, cmdN := 0, cmdSum := 0, fw := Corr.none }
def Mon.none : Mon := { pend := [], acc := CoilAcc.none, win := Corr.none, winN := 0, drift := 0 }

def Motor.none : Motor :=
  { live := false, chan := 0, timer := 0, dir := false, alignStep := 0, alignCmd := 0, alignMs := 0, rampCmd := 0
    f0 := 0, f1 := 0, rampMs := 0, holdMs := 0, handF := 0, confirm := 0, zsMin := 0, zcOfs := 0, blankFr := 0
    adv := 0, obsSh := 0, jump := 0, missMax := 0, lockWin := 0, retries := 0, coastMs := 0, brakeMs := 0
    revN := 0, mstate := 0, blank := false, tc := 0, tp := 0, tz := Option.none, tzPrev := 0
    runLen := 0, runAt := 0, judged := false, far := Option.none, oppLen := 0, oppJudged := false, cause := 0, plaus := 0, noPlaus := 0, misses := 0, revEv := false, revRun := 0
    left := 0, speed := 0, zfrac := 0, posted := false, sampled := false, since := 0, freq := 0, due := Option.none }

def Cap.none : Cap :=
  { live := false, chan := 0, codes := 0, sigs := [], layout := 0, decim := 0, trig := false, cont := false, target := 0
    st := 0, wptr := 0, wraps := 0, count := 0, skip := 0, queued := [], formed := 0, stopping := false }

def Inj.none : Inj :=
  { live := false, chan := 0, amp := 0, point := 0, src := 0, len := 0, tones := [], p3 := 0, p4 := 0, p5 := 0, st := 0, k := 0
    pos := 0, last := 0, chunks := [], prbs := 0, stop := false, zero := false }

def Diag.none : Diag :=
  { live := false, chan := 0, first := 0, ckind := 0, kind := 0, st := 0, block := [], points := 0, outcome := 0
    abort := false, frame := 0, passAt := 0, verdicts := 0, addr := 0, result := [], pts := [], vamp := 0, leak := 0, res := 0, par := [] }

def Enrol.none : Enrol := { seconds := 0, chanKind := 0, dkind := 0, block := [], result := [] }

def Bist.none : Bist :=
  { level := 0, kind := 0, unit := 0, st := 0, sig := 0, gold := 0, cntRun := 0, cntFail := 0, auto := false, back := 0, was := [], bad := [] }

def Health.none : Health := { st := 0, hstate := 0, cause := 0, convicts := 0, testResult := 0, lastTest := 0 }

def Pair.none : Pair := { st := 0, stops := 0, testResult := 0, lastTest := 0, till := 0 }

/-- A core role at reset: pair A active, pair B standby in step (R431). -/
def Core.none : Core := { a := Pair.none, b := { Pair.none with st := 1 }, active := false, takeovers := 0 }

def Chan.free : Chan :=
  { st := .free, adm := Adm.none, safe := false, audible := false, armPend := false, disarmPend := false
    causes := [], clearPend := false, held := [], opened := false, md := ModSet.none, step := 7, stepPend := [], lfsr := 0
    xSpread := 0, tones := [], excK := 0, cor := Correl.none, grp := Option.none, commit := Option.none,     cmdQ := Option.none, cmd := 0, applied := 0, curP := 0, clampQ := Option.none, clamp := Option.none, clp := 0, zc := Zc.none
    inp := Inp.none, powAvg := 0, loop := LoopPart.none, lease := Lease.none, mdl := Mdl.none, mon := Mon.none }

-- ---------------------------------------------------------------- stops

/-- Stops of the machine. No command of this block ends in one today except the first, which is safe:
the model stops where no hardware could be. -/
inductive Fault where
  /-- Raised by a BAR2 access that runs past the 1 GiB of module DRAM (R143, R508). Safe. -/
  | outsideDram
  deriving DecidableEq, Repr

/-- Commands the model has no meaning for. -/
inductive Refusal where
  /-- An arm of `exec` that has no meaning yet. Safe. -/
  | notModelled (mnemonic : String)
  deriving DecidableEq, Repr

def Col.reset : Col :=
  { srcQ := [], gone := [], intake := [], reacts := [], own := [], broken := [], unwatched := [], latched := [], live := []
    ended := [], recs := [], turn := 0, c4 := false, c4rec := Option.none, lastC4 := Option.none }

/-- The Bellwether at power-up: tracking the TCXO at the reset rate (R108, R119, R127). -/
def Bell.reset : Bell :=
  { pend := [], revert := false, mode := .tracking, active := 0, follow := Option.none, barred := 0, unbarred := 0, meas := []
    linkMeas := [], lastGood := 0, freq := 0, frame := 0, holdFp := 0, noSrcFp := 0, excl := Option.none, enterHold := false
    phaseStep := false, lost := false, onLink := false, len256 := 4266666, bPt := 0, bFrac := 0, dead := false }

def Svc.reset : Svc := { taken := Option.none, takenBlk := [], lastRing := 7, inProg := [], defer := [] }

def Tal.reset : Tal := { freezePend := false, frozen := Option.none, broken := 0 }

def Sec.reset : Sec :=
  { builderHash := Option.none, rollback := [], debugCount := 0, idReady := false
    fenceStored := Option.none, fence := Option.none, fencePend := Option.none, chal := Option.none, pendObj := []
    unlocked := false, scope := 0, burns := [], unlockLog := [] }

def HostIf.reset : HostIf :=
  { msixTable := [], msixPba := 0, msgs := [], summary := 0, mntResp := [], bar2Resp := Option.none
    readResp := Option.none }

def Stn.reset : Stn :=
  { nmod := 0, pos := 15, ring := false, late := false, dstate := 0, openMods := [], c4Mods := []
    stnFault := false, lanes := [], upstream := Option.none, refPort := Option.none, broken := [], place := 0, headId := Option.none
    seated := false, confirmed := [], mark := 0, sent := Option.none, alignIn := 0, alignOut := 0 }

/-- The block right after power-up, at the start of phase 0 (R481): the always-on domains powered, every
register word at its reset value, no object, no command waiting. -/
def State.reset : State :=
  { pending := [], regs := [], wide := [], hiLatch := [], gens := [], ws := [], dram := []
    dom := 0xC00000000000
    boot := { phase := 0, foldUp := 0, bootFail := false, bistFail := false, head := false, down := false
              calDead := false, calPend := Option.none }
    amb := { ok := true, temp := 0, hist := [], stale := 0, tin := 0, kt := 1280, hot := false }
    ports := [], outs := [], bell := Bell.reset, chans := [], terms := [], folds := [], binds := [], gates := []
    timers := [], trips := [], motors := [], caps := [], injs := [], images := [], health := [], runs := [], mengs := [], sense := [], fs := [], cores := [], bists := []
    jtag := { ir := 0xFF, captured := [], latch := [], driven := Option.none }, diags := [], rings := [], svc := Svc.reset, col := Col.reset, tal := Tal.reset
    sec := Sec.reset, attest := [], host := HostIf.reset, stn := Stn.reset, nv := { sigs := [], retired := 0, failed := [] }, free := 0 }

end Sys2Proof.Machine
end

