-- ==== Sys2Proof/Machine/Ops.lean ====
section
/-! DEFINITION. The named operations over the state: register words, events and reports, interrupts,
memories, objects and the index rules every family shares. -/

namespace Sys2Proof.Machine

open Sys2Proof

/-- What a meaning answers when the machine goes on. -/
abbrev Res := Host.Outcome State Fault Refusal

-- ---------------------------------------------------------------- register words (R10, R504)

def State.reg (s : State) (a : Nat) : W := tget (regReset a) s.regs a
def State.setReg (s : State) (a : Nat) (v : W) : State := { s with regs := tset (regReset a) s.regs a v }
def State.updReg (s : State) (a : Nat) (f : W → W) : State := s.setReg a (f (s.reg a))

/-- Count one (wraps at 2 ^ 32). -/
def State.bump (s : State) (a : Nat) : State := s.updReg a (· + 1)
def State.addReg (s : State) (a n : Nat) : State := s.updReg a (· + BitVec.ofNat 32 n)
def State.regField (s : State) (a lo w : Nat) : Nat := fld (s.reg a) lo w
def State.setField (s : State) (a lo w v : Nat) : State := s.updReg a (fun r => setFld r lo w v)

/-- Clear the register words whose address satisfies `p` back to their reset values. -/
def State.clearRegs (s : State) (p : Nat → Bool) : State := { s with regs := tdrop s.regs p }

def State.wideAt (s : State) (a : Nat) : BitVec 48 := tget 0 s.wide a
def State.addWide (s : State) (a : Nat) (n : Int) : State :=
  { s with wide := tset 0 s.wide a (s.wideAt a + BitVec.ofInt 48 n) }
def State.setWide (s : State) (a : Nat) (v : BitVec 48) : State := { s with wide := tset 0 s.wide a v }

-- ---------------------------------------------------------------- tables of units and objects

def State.port (s : State) (n : Nat) : Port := tget Port.none s.ports n
def State.setPort (s : State) (n : Nat) (p : Port) : State := { s with ports := tset Port.none s.ports n p }
def State.updPort (s : State) (n : Nat) (f : Port → Port) : State := s.setPort n (f (s.port n))
def State.out (s : State) (n : Nat) : OutPort := tget OutPort.none s.outs n
def State.setOut (s : State) (n : Nat) (p : OutPort) : State := { s with outs := tset OutPort.none s.outs n p }
def State.chan (s : State) (i : Nat) : Chan := tget Chan.free s.chans i
def State.setChan (s : State) (i : Nat) (c : Chan) : State := { s with chans := tset Chan.free s.chans i c }
def State.updChan (s : State) (i : Nat) (f : Chan → Chan) : State := s.setChan i (f (s.chan i))
def State.term (s : State) (t : Nat) : Term := tget Term.none s.terms t
def State.setTerm (s : State) (t : Nat) (x : Term) : State := { s with terms := tset Term.none s.terms t x }
def State.updTerm (s : State) (t : Nat) (f : Term → Term) : State := s.setTerm t (f (s.term t))
def State.fold (s : State) (k : Nat) : Fold := tget Fold.none s.folds k
def State.setFold (s : State) (k : Nat) (x : Fold) : State := { s with folds := tset Fold.none s.folds k x }
def State.updFold (s : State) (k : Nat) (f : Fold → Fold) : State := s.setFold k (f (s.fold k))
def State.bind (s : State) (i : Nat) : Binding := tget Binding.none s.binds i
def State.setBind (s : State) (i : Nat) (x : Binding) : State := { s with binds := tset Binding.none s.binds i x }
def State.gate (s : State) (g : Nat) : Gate := tget Gate.none s.gates g
def State.setGate (s : State) (g : Nat) (x : Gate) : State := { s with gates := tset Gate.none s.gates g x }
def State.updGate (s : State) (g : Nat) (f : Gate → Gate) : State := s.setGate g (f (s.gate g))
def State.timer (s : State) (i : Nat) : Timer := tget Timer.none s.timers i
def State.setTimer (s : State) (i : Nat) (x : Timer) : State := { s with timers := tset Timer.none s.timers i x }
def State.trip (s : State) (g : Nat) : Trip := tget Trip.none s.trips g
def State.setTrip (s : State) (g : Nat) (x : Trip) : State := { s with trips := tset Trip.none s.trips g x }
def State.ring (s : State) (r : Nat) : Ring := tget Ring.none s.rings r
def State.setRing (s : State) (r : Nat) (x : Ring) : State := { s with rings := tset Ring.none s.rings r x }
def State.updRing (s : State) (r : Nat) (f : Ring → Ring) : State := s.setRing r (f (s.ring r))
def State.inj (s : State) (i : Nat) : Inj := tget Inj.none s.injs i
def State.setInj (s : State) (i : Nat) (x : Inj) : State := { s with injs := tset Inj.none s.injs i x }
def State.updInj (s : State) (i : Nat) (f : Inj → Inj) : State := s.setInj i (f (s.inj i))
def State.cap (s : State) (i : Nat) : Cap := tget Cap.none s.caps i
def State.setCap (s : State) (i : Nat) (x : Cap) : State := { s with caps := tset Cap.none s.caps i x }
def State.updCap (s : State) (i : Nat) (f : Cap → Cap) : State := s.setCap i (f (s.cap i))
def State.motor (s : State) (i : Nat) : Motor := tget Motor.none s.motors i
def State.setMotor (s : State) (i : Nat) (x : Motor) : State := { s with motors := tset Motor.none s.motors i x }
def State.updMotor (s : State) (i : Nat) (f : Motor → Motor) : State := s.setMotor i (f (s.motor i))
def State.hlt (s : State) (e : Nat) : Health := tget Health.none s.health e
def State.updHlt (s : State) (e : Nat) (f : Health → Health) : State :=
  { s with health := tset Health.none s.health e (f (s.hlt e)) }
def State.run (s : State) (e : Nat) : Run := tget Run.none s.runs e
def State.setRun (s : State) (e : Nat) (x : Run) : State := { s with runs := tset Run.none s.runs e x }
def State.meng (s : State) (f : Nat) : MEng := tget MEng.none s.mengs f
def State.updMEng (s : State) (f : Nat) (g : MEng → MEng) : State := { s with mengs := tset MEng.none s.mengs f (g (s.meng f)) }
def State.sns (s : State) (n : Nat) : Sense := tget Sense.none s.sense n
def State.updSns (s : State) (n : Nat) (g : Sense → Sense) : State := { s with sense := tset Sense.none s.sense n (g (s.sns n)) }
def State.image (s : State) (i : Nat) : Image := tget Image.none s.images i
def State.fsPair (s : State) (k : Nat) : Pair := tget Pair.none s.fs k
def State.setFs (s : State) (k : Nat) (x : Pair) : State := { s with fs := tset Pair.none s.fs k x }
def State.core (s : State) (r : Nat) : Core := tget Core.none s.cores r
def State.setCore (s : State) (r : Nat) (x : Core) : State := { s with cores := tset Core.none s.cores r x }
def State.bist (s : State) (c : Nat) : Bist := tget Bist.none s.bists c
def State.setBist (s : State) (c : Nat) (x : Bist) : State := { s with bists := tset Bist.none s.bists c x }

/-- A unit of a level of R524 is under test. -/
def State.testing (s : State) (level unit : Nat) : Bool :=
  (tkeys s.bists).any (fun c => (s.bist c).st == 2 && (s.bist c).level == level && (s.bist c).unit == unit)

/-- The controller that serves a unit: that of its fold, or 8 for module core pairs (R525). -/
def ctrlOf (level unit : Nat) : Nat :=
  match level with
  | 1 => unit / 16
  | 2 => unit / 4
  | 3 => unit / 4
  | 4 => unit / 32
  | 5 => unit / 1024
  | 6 => unit
  | _ => 8

/-- A flock SRAM or a sense port that failed a test is retired until the next power-up (R529). -/
def State.badUnit (s : State) (level unit : Nat) : Bool := (s.bist (ctrlOf level unit)).bad.contains (level, unit)

/-- A terminal counts as under test while its flock's SRAM is (R528). -/
def State.termTesting (s : State) (t : Nat) : Bool := s.testing 3 (flockOf t)

/-- A loop engine is in service (R408): neither quarantined, under test nor retired; nor does its rejoining wait (R428). -/
def State.inSvc (s : State) (e : Nat) : Bool :=
  let h := (s.hlt e).hstate
  h == 0 || h == 3 && !s.svc.defer.contains (.rejoin e)

def State.updCol (s : State) (f : Col → Col) : State := { s with col := f s.col }
def State.updBell (s : State) (f : Bell → Bell) : State := { s with bell := f s.bell }
def State.updSvc (s : State) (f : Svc → Svc) : State := { s with svc := f s.svc }
def State.updSec (s : State) (f : Sec → Sec) : State := { s with sec := f s.sec }

-- ---------------------------------------------------------------- memories (R135, R143, R508)

/-- DRAM holds 1 GiB (R143). -/
def dramSize : Nat := 0x40000000

def State.dramByte (s : State) (a : Nat) : BitVec 8 := tget 0 s.dram a
def State.setDramByte (s : State) (a : Nat) (b : BitVec 8) : State := { s with dram := tset 0 s.dram a b }

/-- Bytes of DRAM from an address on. -/
def State.dramBytes (s : State) (a n : Nat) : List (BitVec 8) := (List.range n).map (fun i => s.dramByte (a + i))
def State.dramVal (s : State) (a n : Nat) : Nat := leVal (s.dramBytes a n)

def State.putDram (s : State) (a : Nat) : List (BitVec 8) → State
  | [] => s
  | b :: r => (s.setDramByte a b).putDram (a + 1) r

/-- Whether every byte of a range is zero. Only listed bytes can be other than zero. -/
def State.dramZero (s : State) (a n : Nat) : Bool := s.dram.all (fun e => !(a ≤ e.1 && e.1 < a + n))

/-- The regions of R143. -/
def inImages (a n : Nat) : Bool := a + n ≤ 0x08000000
def inWindows (a n : Nat) : Bool := 0x08000000 ≤ a && a + n ≤ 0x10000000
def capBase : Nat := 0x10000000

/-- A workspace byte of a channel (R135, R255): channels keep their workspaces apart. -/
def wsKey (ch off : Nat) : Nat := ch * 0x4000 + off
def State.wsByte (s : State) (ch off : Nat) : BitVec 8 := tget 0 s.ws (wsKey ch off)
def State.setWsByte (s : State) (ch off : Nat) (b : BitVec 8) : State := { s with ws := tset 0 s.ws (wsKey ch off) b }
def State.wsVal (s : State) (ch off n : Nat) : Nat := leVal ((List.range n).map (fun i => s.wsByte ch (off + i)))
def State.putWs (s : State) (ch off : Nat) : List (BitVec 8) → State
  | [] => s
  | b :: r => (s.setWsByte ch off b).putWs ch (off + 1) r

/-- Zero the workspace of a channel (R56 step 5). -/
def State.zeroWs (s : State) (ch : Nat) : State := { s with ws := tdrop s.ws (fun k => k / 0x4000 == ch) }

-- ---------------------------------------------------------------- power domains (R31)

def State.domOn (s : State) (d : Nat) : Bool := s.dom.getLsbD d
def State.flockOn (s : State) (f : Nat) : Bool := s.domOn f
def State.foldOn (s : State) (k : Nat) : Bool := s.domOn (32 + k)
def State.setDom (s : State) (d : Nat) (on : Bool) : State :=
  let m := BitVec.ofNat 48 (2 ^ d)
  { s with dom := if on then s.dom ||| m else s.dom &&& ~~~m }

-- ---------------------------------------------------------------- interrupts (R517, R518)

/-- The vector of an event register (R517); ENG_EVT has no enable register, so it never pends. -/
def vecOf (a : Nat) : Option Nat :=
  if a = fltEvt then some 8
  else if a = fcEvt then some 9
  else if a = secEvt then some 12
  else if a = stnEvt ∨ a = calEvt then some 13
  else if a = talEvt then some 14
  else if a = hostEvt then some 15
  else if 0x100000 ≤ a ∧ a < 0x110000 then
    (if a % 0x1000 = 0x014 then some 9 else if a % 0x1000 = 0xB04 then some 12 else none)
  else if 0x400000 ≤ a ∧ a < 0x1400000 then
    let o := (a - 0x400000) % 0x80000
    if o = 0x2020 ∨ o = 0x3440 ∨ o = 0x6410 ∨ o = 0x6D00 then some 10
    else if 0x5000 ≤ o ∧ o < 0x6000 ∧ o % 0x100 = 0x90 then some 10
    else if 0x6800 ≤ o ∧ o < 0x6C00 ∧ o % 0x40 = 0x18 then some 10
    else if 0x7000 ≤ o ∧ o < 0x7200 ∧ o % 0x40 = 0x20 then some 10
    else if 0x7200 ≤ o ∧ o < 0x7400 ∧ o % 0x20 = 0x10 then some 10
    else if 0x7400 ≤ o ∧ o < 0x7500 ∧ o % 0x40 = 0x24 then some 10
    else if o = 0x70014 then some 11
    else if 0x70400 ≤ o ∧ o < 0x70500 ∧ o % 0x20 = 0x14 then some 11
    else none
  else none

/-- Whether an event register has a set and enabled bit (R517). -/
def State.evtPends (s : State) (a : Nat) : Bool :=
  (s.reg a &&& s.reg (a + 4)) != 0

/-- PEND of INT_SUMMARY for vector v (R517, R521). -/
def State.vecPends (s : State) (v : Nat) : Bool :=
  (tkeys s.regs).any (fun a => vecOf a == some v && s.evtPends a)

/-- Send one MSI-X message, or leave it pending where its table entry is masked (R518). -/
def sendMsg (v : Nat) (s : State) : State :=
  if bitOf (tget 1 s.host.msixTable (4 * v + 3)) 0 then
    { s with host := { s.host with msixPba := s.host.msixPba ||| BitVec.ofNat 16 (2 ^ v) } }
  else { s with host := { s.host with msgs := s.host.msgs ++ [v] } }

/-- Bring INT_SUMMARY up to date for one vector and send a message when its bit rises (R518). -/
def signalVec (v : Nat) (s : State) : State :=
  let now := s.vecPends v
  let was := fieldN s.host.summary v 1 == 1
  if now == was then s
  else
    let s := { s with host := { s.host with
      summary := if now then s.host.summary + 2 ^ v else s.host.summary - 2 ^ v } }
    if now then sendMsg v s else s

/-- The same for the vector of one event register. -/
def signal (a : Nat) (s : State) : State :=
  match vecOf a with
  | some v => signalVec v s
  | none => s

-- ---------------------------------------------------------------- events and reports (R434, R437)

/-- Latch a bit of an event register. -/
def setEvt (a bit : Nat) (s : State) : State := signal a (s.updReg a (fun w => setBit w bit))

/-- A report of a source: its cause names a selector and a bit (R434). -/
def mkRep (source sel bit cls okind object : Nat) : Report :=
  { source, cause := 16 * sel + bit, cls, okind, object }

/-- Hand a report to the collector's intake: the source's error pair changes (R435, R437). -/
def queueRep (r : Report) (s : State) : State :=
  s.updCol (fun c => { c with srcQ := c.srcQ ++ [r]
                              latched := if c.latched.contains r then c.latched else c.latched ++ [r] })

/-- Latch an event bit and report it. -/
def raise (a : Nat) (r : Report) (s : State) : State := queueRep r (setEvt a (r.cause % 16) s)

/-- Latch an event bit and report it only when the bit was clear (R185). -/
def raiseOnce (a : Nat) (r : Report) (s : State) : State :=
  if bitOf (s.reg a) (r.cause % 16) then s else raise a r s

/-- An event of the active security pair. -/
def secEvent (bit : Nat) (s : State) : State :=
  let cls := if bit = 1 ∨ bit = 4 ∨ bit = 5 then 1 else 0
  raise secEvt (mkRep (srcCore (if (s.core 1).active then 3 else 2)) 0 bit cls 0 0) s

/-- A report of one of the collector's own causes (selector 15), whose latch is no register. -/
def raiseOwn (source bit cls okind object : Nat) (s : State) : State :=
  queueRep (mkRep source 15 bit cls okind object)
    (s.updCol (fun c => { c with own := tupd 0 c.own source (fun w => setBit w bit) }))

/-- The condition of a reported cause is present from now on (R447). -/
def holdLive (r : Report) (s : State) : State :=
  s.updCol (fun c => { c with live := if c.live.contains r then c.live else c.live ++ [r] })

def dropLive (p : Report → Bool) (s : State) : State :=
  s.updCol (fun c =>
    { c with live := c.live.filter (fun r => !p r)
             ended := c.ended.filter (fun r => !c.live.contains r || !p r) ++ c.live.filter p })

-- ---------------------------------------------------------------- objects (R48 to R52)

/-- Object types of R49 and their index limits. -/
def typeLimit (ty : Nat) : Nat :=
  match ty with
  | 1 => 512 | 2 => 512 | 3 => 512 | 4 => 1024 | 5 => 1024 | 6 => 512 | 7 => 128 | 8 => 64 | 9 => 512
  | 10 => 32 | 11 => 256 | _ => 0

def genKey (ty i : Nat) : Nat := ty * 4096 + i

/-- The generation of an index (R50). -/
def State.gen (s : State) (ty i : Nat) : Nat := tget 1 s.gens (genKey ty i)

/-- The generation after this one: 0x0000 is never issued (R50). -/
def nextGen (g : Nat) : Nat := if g ≥ 0xFFFF then 1 else g + 1
def State.advGen (s : State) (ty i : Nat) : State := { s with gens := tset 1 s.gens (genKey ty i) (nextGen (s.gen ty i)) }

def mkHandle (ty i g : Nat) : W := BitVec.ofNat 32 (ty * 2 ^ 28 + i * 2 ^ 16 + g)
def hType (h : W) : Nat := fld h 28 4
def hIndex (h : W) : Nat := fld h 16 12
def hGen (h : W) : Nat := fld h 0 16

/-- A live channel holds its terminals until its deletion completes (R56). -/
def Chan.live (c : Chan) : Bool := c.st != .free

/-- The channel answers to its handle: live and not in deleting, whose generation has advanced. -/
def Chan.armed (c : Chan) : Bool := c.st == .armed

/-- Number of terminals of a kind (R41). -/
def kindTerms (kind : Nat) : Nat := match kind with | 1 => 1 | 2 => 2 | 3 => 3 | _ => 0

def Chan.terms (c : Chan) : List Nat := (List.range (kindTerms c.adm.kind)).map (c.adm.first + ·)
def Chan.flock (c : Chan) : Nat := flockOf c.adm.first
def Chan.foldIx (c : Chan) : Nat := foldOf c.adm.first

/-- The listed channels that are live. -/
def State.liveChans (s : State) : List Nat := (tkeys s.chans).filter (fun i => (s.chan i).live)
def State.anyArmed (s : State) : Bool := s.liveChans.any (fun i => (s.chan i).armed)
def State.chansOfFold (s : State) (k : Nat) : List Nat := s.liveChans.filter (fun i => (s.chan i).foldIx == k)
def State.chansOfFlock (s : State) (f : Nat) : List Nat := s.liveChans.filter (fun i => (s.chan i).flock == f)

/-- The live channel that owns a terminal (R44, R46). -/
def State.ownerOf (s : State) (t : Nat) : Option Nat := s.liveChans.find? (fun i => (s.chan i).terms.contains t)

/-- The live bindings. -/
def State.liveBinds (s : State) : List Nat := (tkeys s.binds).filter (fun i => (s.bind i).live)
/-- The bindings of a slot that are taken, those of a channel in deleting among them (R56, R131). -/
def State.takenAtSlot (s : State) (n sl : Nat) : List Nat :=
  s.liveBinds.filter (fun i => (s.bind i).port == n && (s.bind i).slot == sl)

/-- The bindings that name a slot: CHAN.DEL deletes those of its channel at its acceptance (R56 step 3). -/
def State.bindsOfSlot (s : State) (n sl : Nat) : List Nat :=
  (s.takenAtSlot n sl).filter (fun i => (s.chan (s.bind i).chan).st != .deleting)

/-- Channels bound to a slot, and those of them that are armed, each once, in ascending index. -/
def State.boundAtSlot (s : State) (n sl : Nat) : List Nat :=
  s.liveChans.filter (fun c => (s.bindsOfSlot n sl).any (fun i => (s.bind i).chan == c))
def State.armedAtSlot (s : State) (n sl : Nat) : List Nat := (s.boundAtSlot n sl).filter (fun c => (s.chan c).armed)

/-- Channels armed and bound to a port. -/
def State.armedAtPort (s : State) (n : Nat) : List Nat :=
  s.liveChans.filter (fun c =>
    (s.chan c).armed && s.liveBinds.any (fun i => (s.bind i).port == n && (s.bind i).chan == c))

/-- The injection, motor and running capture of a channel (R241, R245, R312). -/
def State.injOf (s : State) (ch : Nat) : Option Nat :=
  (tkeys s.injs).find? (fun i => (s.inj i).live && (s.inj i).chan == ch)
def State.motorOf (s : State) (ch : Nat) : Option Nat :=
  (tkeys s.motors).find? (fun i => (s.motor i).live && (s.motor i).chan == ch)
def State.capOf (s : State) (ch : Nat) : Option Nat :=
  (tkeys s.caps).find? (fun i => (s.cap i).live && (s.cap i).chan == ch && ((s.cap i).st == 1 || (s.cap i).st == 2))

-- ---------------------------------------------------------------- completions (R289, R293 to R297)

def opcodeOf (e : CmdEntry) : Nat := fld e.word0 16 16
def opN (e : CmdEntry) (i : Nat) : W := e.ops.getD i 0

/-- A completion joins those to be written, in the order in which commands complete (R297). -/
def complete (e : CmdEntry) (status : Nat) (result : W) (check rule index : Nat) (s : State) : State :=
  s.updRing e.ring.val (fun r => { r with done := r.done ++
    [{ opcode := opcodeOf e, status, cookie := e.cookie, result, check, rule, index, irq := bitOf e.word0 9 }] })

/-- Complete every command in progress that `p` names (R295); one whose completion a host reset or a halt
took posts nothing (R503, R516). -/
def finishWhere (p : Prog → Bool) (status : Nat) (result : Prog → W) (s : State) : State :=
  let l := s.svc.inProg.filter p
  let s := s.updSvc (fun v => { v with inProg := v.inProg.filter (fun x => !p x) })
  l.foldl (fun s x => if x.silent then s else complete x.entry status (result x) 0 0 0 s) s

/-- Complete the command of an opcode in progress on an object. -/
def finishObj (op : Nat) (obj : Nat × Nat) (status : Nat) (s : State) : State :=
  finishWhere (fun x => opcodeOf x.entry == op && x.obj == some obj) status (·.result) s

-- ---------------------------------------------------------------- tally checks (R451, R458)

/-- A failed check sets its bit of TAL_STAT and TAL_EVT, and makes no report (R458). -/
def talCheck (bit : Nat) (ok : Bool) (s : State) : State :=
  if ok then s
  else
    let s := setEvt talEvt bit s
    { s with tal := { s.tal with broken := if fieldN s.tal.broken bit 1 == 1 then s.tal.broken else s.tal.broken + 2 ^ bit } }

-- ---------------------------------------------------------------- rates and times (R7, R39, R61, R109)

def State.frate (s : State) : Nat := s.regField fcRate 0 18
def State.mLog2 (s : State) : Nat := s.regField fcRatio 0 2
def State.m (s : State) : Nat := 2 ^ s.mLog2

/-- Frame period in whole cc at the nominal rate (R7). -/
def State.frameCc (s : State) : Nat := if s.frate = 0 then 0 else 800000000 / s.frate

/-- C: whole cc of a loop period at the nominal rate (R61, R111). -/
def State.loopCc (s : State) : Nat := if s.frate = 0 then 0 else 800000000 / (s.frate * s.m)

/-- Ideal time of boundary n of `cnt` in a frame in 1/256 pt, placed on the nearest pt after the last
B(j) (R39). -/
def State.place (s : State) (cnt n : Nat) : Nat :=
  if cnt = 0 then 0 else (2 * (s.bell.len256 * n + s.bell.bFrac * cnt) + 256 * cnt) / (512 * cnt)

/-- Whether the module's layer state is open (R403). -/
def State.modOpen (s : State) : Bool := (tkeys s.gates).any (fun g => (s.gate g).open_)

/-- Whether the station layer state is open (R403). -/
def State.stnOpen (s : State) : Bool := s.modOpen || !s.stn.openMods.isEmpty

/-- Channel bound to an open layer (R402). -/
def State.layerOf (s : State) (ch : Nat) : Bool :=
  (tkeys s.gates).any (fun g =>
    let x := s.gate g
    x.open_ && (x.lagChan == some ch || x.bound.contains ch))

/-- The calendar's seconds and fraction are state of the calendar family; the stamp of a report reads
them with the frame count (R438, R443). -/
def calSecA : Nat := 0x810
def calFracA : Nat := 0x814

def State.stamp (s : State) (r : Report) (delayed : Bool) : Stamped :=
  { rep := r, seconds := s.reg calSecA, frame := BitVec.ofNat 32 (s.bell.frame.toNat % 2 ^ 32)
    frac := s.regField calFracA 0 14, delayed := delayed
    ended := s.col.gone.contains r || (delayed && s.col.ended.contains r && !s.col.live.contains r) }

/-- A dispatched stop of the channel waits for its carrier boundary (R439). -/
def State.stopDue (s : State) (ch : Nat) : Bool := s.col.reacts.any (fun r => r.chan == ch)

/-- Draw the next free value counter (R475, log 1). -/
def State.draw (s : State) : Nat × State := (s.free, { s with free := s.free + 1 })

/-- Fold a state operation over a list of numbers. -/
def each (l : List Nat) (f : Nat → State → State) (s : State) : State := l.foldl (fun s i => f i s) s

-- ---------------------------------------------------------------- records and conditions (R443 to R447)

/-- A record slot that holds none. -/
def Rec.none : Rec :=
  { st := { rep := ⟨0, 0, 0, 0, 0⟩, seconds := 0, frame := 0, frac := 0, delayed := false, ended := false }
    merged := 0, cleared := false, frozen := false }

def State.recOf (s : State) (n : Nat) : Rec := tget Rec.none s.col.recs (n % 1024)
def State.setRec (s : State) (n : Nat) (x : Rec) : State :=
  s.updCol (fun c => { c with recs := tset Rec.none c.recs (n % 1024) x })

/-- Unread records and the number of the oldest (R444). -/
def State.fill (s : State) : Nat := (s.reg fltWr - s.reg fltRd).toNat
def State.unread (s : State) : List Nat := (List.range (min 1024 s.fill)).map ((s.reg fltRd).toNat + ·)

/-- A latched cause's condition ends; CLEARED is set in its unfrozen unread records, those still to be written among them
(R443, R447). -/
def condEnd (p : Report → Bool) (s : State) : State :=
  let s := dropLive p s
  let s := s.updCol (fun c => { c with
    gone := c.gone.filter (fun r => !p r) ++ c.srcQ.filter p
    intake := c.intake.map (fun x => if p x.rep then { x with ended := true } else x) })
  each s.unread (fun n s =>
    let x := s.recOf n
    if p x.st.rep && !x.frozen then s.setRec n { x with cleared := true } else s) s

/-- A cause is still present (R54, R209, R447). -/
def State.causeLive (s : State) (r : Report) : Bool := s.col.live.contains r

/-- The conditions that p names have ended, where any of them was present (R447). -/
def liveEnd (p : Report → Bool) (s : State) : State := if s.col.live.any p then condEnd p s else s

end Sys2Proof.Machine
end

