-- ==== Sys2Proof/Machine/Sources.lean ====
section
/-! DEFINITION. What the Bellwether follows: the entries of FC_PRIO, the station link, which of them qualify, and the loss of the
selected source (04 R112 to R119, 19 R489). -/

namespace Sys2Proof.Machine

open Sys2Proof

/-- A Bellwether event in its class (R126). -/
def bellEvt (bit : Nat) (s : State) : State :=
  raise fcEvt (mkRep srcBell 0 bit (if bit < 4 then 1 else 0) 0 0) s

def bellIgnored (s : State) : State := bellEvt 6 s

/-- SRC and PORT of entry e of a FC_PRIO value (R127). -/
def prioSrc (v : W) (e : Nat) : Nat := fld v (8 * e + 5) 3
def prioPort (v : W) (e : Nat) : Nat := fld v (8 * e) 4

def State.entrySrc (s : State) (e : Nat) : Nat := prioSrc (s.reg fcPrio) e
def State.entryPort (s : State) (e : Nat) : Nat := prioPort (s.reg fcPrio) e

/-- Modules at two places reach each other: no hop between them is broken, or none on the other side of a ring. Hop h lies between the
places h and h + 1, that of a ring's last module and M0 being the highest (R488, R494, R495). -/
def Stn.reach (x : Stn) (a b : Int) : Bool :=
  !x.broken.any (fun h => decide (min a b ≤ h ∧ h < max a b)) ||
    (x.ring && !x.broken.any (fun h => decide (h < min a b ∨ max a b ≤ h)))

/-- Joined, or late, and not M0 (R488, R496). -/
def State.joined (s : State) : Bool :=
  decide (3 ≤ s.stn.dstate ∧ s.stn.dstate ≤ 5) && (s.stn.late || decide (1 ≤ s.stn.pos ∧ s.stn.pos ≤ 7))

/-- Whether this module follows the station link: joined, and with a path to M0 (R489, R494). -/
def State.follows (s : State) : Bool := s.joined && s.stn.reach s.stn.place 0

/-- Lanes in use of a link port; 0 while it is not trained (R487). -/
def State.lanes (s : State) (i : Nat) : Nat := tget 0 s.stn.lanes i

/-- The station link is trained, on the port of the reference where there is one, and leads to M0 (R112). -/
def State.linkTrained (s : State) : Bool :=
  s.stn.dstate != 6 && s.stn.reach s.stn.place 0 &&
    match s.stn.refPort with
    | some i => s.lanes i != 0
    | none => s.lanes 0 != 0 || s.lanes 1 != 0

/-- SRC and PORT of the source selected: the station link stands above every entry (R489), and an entry rewritten while it was
selected leaves its old source followed until the new one is taken (log 108). -/
def State.selByte (s : State) : Nat :=
  if s.bell.onLink then 128 else s.bell.follow.getD (s.entrySrc s.bell.active * 32 + s.entryPort s.bell.active)
def State.selSrc (s : State) : Nat := s.selByte / 32
def State.selPort (s : State) : Nat := s.selByte % 16

/-- WINDOW in units of 0.01 ppm. -/
def State.window (s : State) : Nat := s.regField fcWindow 0 16

/-- Four measurements, each within WINDOW (R113). -/
def State.measOk (s : State) (l : List Int) : Bool := l.length == 4 && l.all (fun o => absI o ≤ (s.window : Int))

/-- QUAL of an entry (R113): its source is present and its last 4 measurements lie within WINDOW. TCXO is always qualified; an input
port is present while it is LOCKED (R112). -/
def State.entryQual (s : State) (e : Nat) : Bool :=
  match s.entrySrc e with
  | 0 => false
  | 1 => true
  | 3 => (s.port (s.entryPort e)).st == .locked && s.measOk (tget [] s.bell.meas e)
  | _ => s.measOk (tget [] s.bell.meas e)

/-- The station link is within WINDOW (R491), and qualifies for a decision once it has been seated. -/
def State.linkQual (s : State) : Bool := s.measOk s.bell.linkMeas
def State.linkReady (s : State) : Bool := s.follows && s.linkTrained && s.stn.seated && s.linkQual && s.bell.excl != some 4

/-- Whether entry e may be selected (R113). -/
def State.selectable (s : State) (e : Nat) : Bool := s.entryQual e && fieldN s.bell.barred e 1 == 0

/-- The entry a decision selects (R113, R118). -/
def State.pickEntry (s : State) : Option Nat := (List.range 4).find? (fun e => s.selectable e && s.bell.excl != some e)

/-- The offset of the source selected by its last measurement, in 0.01 ppm; TCXO has none (R114). -/
def State.srcOff (s : State) : Int :=
  if s.bell.onLink then s.bell.linkMeas.headD 0
  else if s.selSrc = 1 then 0
  else if s.bell.follow.isSome then s.bell.lastGood
  else (tget [] s.bell.meas s.bell.active).headD 0

/-- The selected source is left: holdover follows at the next B(j); a source left while slewing is
excluded from the next decision (R114, R115, R118). -/
def leaveSource (s : State) : State :=
  s.updBell (fun b =>
    { b with enterHold := true
             excl := if b.mode == .slewing then (if b.onLink then some 4 else if b.follow.isSome then b.excl else some b.active) else b.excl })

/-- The selected source is there by its criterion (R112): TCXO always, an input port while it is LOCKED, the station link while it is
trained. FCLK is as reported. -/
def State.selHere (s : State) : Bool :=
  match s.selSrc with
  | 1 => true
  | 3 => (s.port s.selPort).st == .locked
  | 4 => s.linkTrained
  | _ => false

/-- The selected source is lost, where its criterion says so (R112). -/
def sourceLost (s : State) : State :=
  let e := s.bell.active
  if s.bell.mode == .holdover || s.bell.lost || s.selHere then s
  else
    let s := s.updBell (fun b => if b.onLink then { b with lost := true, linkMeas := [] }
      else { b with lost := true, meas := if b.follow.isSome then b.meas else tset [] b.meas e [] })
    leaveSource (bellEvt 1 s)

/-- Port n has left LOCKED (R112). -/
def portLeft (n : Nat) (s : State) : State := if s.selSrc == 3 && s.selPort == n then sourceLost s else s

/-- The station link is lost where it is the source selected and is no longer there (R112, R494). -/
def linkCheck (s : State) : State := if s.selSrc == 4 then sourceLost s else s

/-- The value a frame clock register will hold at the next B(j) (R129). -/
def State.fcNext (s : State) (a : Nat) : W := tget (s.reg a) s.bell.pend a

def setPend (a : Nat) (v : W) (s : State) : State :=
  s.updBell (fun b => { b with pend := (b.pend.filter (fun e => e.1 != a)) ++ [(a, v)] })

/-- The loop rate that will apply at the next B(j) (R129). -/
def State.loopNext (s : State) : Nat := fld (s.fcNext fcRate) 0 18 * 2 ^ fld (s.fcNext fcRatio) 0 2

end Sys2Proof.Machine
end

