-- ==== Sys2Proof/Machine/Ports.lean ====
section
/-! DEFINITION. The biphase stream ports: reception, lock, the fate of samples, block checks, seals at the
port, the port registers (03, 18 R470 to R473, R480). -/

namespace Sys2Proof.Machine

open Sys2Proof

-- ---------------------------------------------------------------- fields of SP_CTRL (R104)

def State.spEnable (s : State) (n : Nat) : Bool := bitOf (s.reg (spCtrl n)) 0
def State.spWide (s : State) (n : Nat) : Bool := bitOf (s.reg (spCtrl n)) 1
def State.spNcode (s : State) (n : Nat) : Nat := s.regField (spCtrl n) 8 2
def State.spSeal (s : State) (n : Nat) : Nat := s.regField (spCtrl n) 10 2

/-- Subframes of a frame (R75, R80). -/
def State.spN (s : State) (n : Nat) : Nat := if s.spWide n then 4 * 2 ^ s.spNcode n else 2

/-- Power domain of a port's group (R18). -/
def portDom (n : Nat) : Nat := 40 + n / 4

/-- The kind declared for a slot; 3 is treated as 0 (R82). A standard slot counts as kind 1. -/
def State.kindOf (s : State) (n sl : Nat) : Nat :=
  if s.spWide n then
    let k := s.regField (spKindmap n (sl / 16)) (2 * (sl % 16)) 2
    if k = 3 then 0 else k
  else if sl < 2 then 1 else 0

/-- Slots whose subframes are samples (R89). -/
def State.sampleSlots (s : State) (n : Nat) : List Nat := (List.range (s.spN n)).filter (fun sl => s.kindOf n sl != 0)

/-- 1/256 pt in a second: a frame of `len` of them is received at a frame rate of `tickHz / len` (R39). -/
def tickHz : Nat := 409600000000

/-- Whether the average rate of frames of these lengths lies within `ppm` of the frame rate (R93, R96). -/
def rateWithin (lens : List Nat) (frate ppm : Nat) : Bool :=
  let got := lens.length * tickHz
  let due := frate * lens.foldl (· + ·) 0
  lens != [] && decide ((if got ≤ due then due - got else got - due) * 1000000 ≤ ppm * due)

/-- The average rate in Hz, to the nearest (R96, log 109). -/
def rateHz (lens : List Nat) : Nat :=
  let sum := lens.foldl (· + ·) 0
  if sum = 0 then 0 else (2 * lens.length * tickHz + sum) / (2 * sum)

/-- FRATE of SP_RATE: 0 in OFF and ACQUIRE (R96, R105). -/
def Port.rate (p : Port) : Nat := match p.st with | .off | .acquire => 0 | _ => rateHz p.lens

/-- The preambles of R74. -/
inductive Preamble where
  | x | y | z
  deriving DecidableEq, Repr

/-- The preamble of a subframe, by the line state before it; none where the pattern is no preamble (R74). -/
def preambleOf (f : Subframe) : Option Preamble :=
  let v := if f.before then ~~~f.pre else f.pre
  if v = 0xE2 then some .x else if v = 0xE4 then some .y else if v = 0xE8 then some .z else none

/-- The preamble of slot 0. -/
def firstPre (f : LineFrame) : Option Preamble := f.subs.head?.bind preambleOf

/-- A frame whose sequence of preambles is not that of R80, or which has not N subframes. -/
def State.framingBad (s : State) (n : Nat) (f : LineFrame) : Bool :=
  f.subs.length != s.spN n || !(firstPre f == some .x || firstPre f == some .z) || (f.subs.drop 1).any (fun x => preambleOf x != some .y)

/-- NRX of a frame: N seen on the line, coded as NCODE (R105). -/
def nrxOf (subs : Nat) : Nat := match subs with | 8 => 1 | 16 => 2 | 32 => 3 | _ => 0

/-- Whether a line rate of `ui` UI in `time` lies in the range of LEVEL (R69, R70). -/
def baudOk (level : Bool) (ui time : Nat) : Bool :=
  decide (4096000 * time ≤ ui ∧ ui ≤ (if level then 400000000 else 50000000) * time)

/-- Whether a frame's line rate lies in the range of the port's level (R70). -/
def State.lineInRange (s : State) (n : Nat) (f : LineFrame) : Bool :=
  baudOk (bitOf (s.reg (spCtrl n)) 4) (64 * f.subs.length * tickHz) f.len.toNat

-- ---------------------------------------------------------------- events (R97)

/-- An event of a port in class C0. -/
def portEvt (n bit obj : Nat) (s : State) : State := raise (spEvt n) (mkRep (srcPort n) 0 bit 0 3 obj) s

/-- An event in C1 with a binding to an armed channel and in C0 otherwise. -/
def portEvtBound (n bit : Nat) (s : State) : State :=
  raise (spEvt n) (mkRep (srcPort n) 0 bit (if (s.armedAtPort n).isEmpty then 0 else 1) 0 0) s

/-- An event in C2 on the channels named, in C0 when there is none. -/
def slotEvt (n bit sl : Nat) (chans : List Nat) (s : State) : State :=
  match chans with
  | [] => portEvt n bit sl s
  | l => each l (fun c s => raise (spEvt n) (mkRep (srcPort n) 0 bit 2 1 c) s) s

/-- The channels that KIND_MISMATCH and SLOTNUM_MISMATCH stop: each one bound to the slot, armed or not, where one of them is
armed. -/
def State.mismatchChans (s : State) (n sl : Nat) : List Nat :=
  if (s.armedAtSlot n sl).isEmpty then [] else s.boundAtSlot n sl

/-- A write was ignored (R105). -/
def portIgnored (n : Nat) (s : State) : State := raise (spEvt n) (mkRep (srcPort n) 0 8 0 0 0) s

-- ---------------------------------------------------------------- run counts (R91)

/-- A slot whose RUN count is kept (R91). -/
def State.countedSlot (s : State) (n sl : Nat) : Bool :=
  (s.spEnable n && (s.sampleSlots n).contains sl) || !(s.bindsOfSlot n sl).isEmpty

/-- Whether a report of RUN_LIMIT still has a slot above its limit (R92, R447). -/
def State.runCause (s : State) (n : Nat) (r : Report) : Bool :=
  (List.range 32).any (fun sl => (tget SlotSt.none (s.port n).slots sl).limHit &&
    (if r.okind = 1 then (s.bindsOfSlot n sl).any (fun i => (s.bind i).chan == r.object) else r.object == sl))

/-- A slot that is no longer counted reads 0 and starts from 0 when it is counted again (R91). -/
def recount (n : Nat) (s : State) : State :=
  let s := s.updPort n (fun p => { p with slots := forL (tkeys p.slots) (fun sl t =>
    if s.countedSlot n sl then t else tupd SlotSt.none t sl (fun x => { x with run := 0, limHit := false })) p.slots })
  liveEnd (fun r => r.source == srcPort n && r.cause == 5 && !s.runCause n r) s

-- ---------------------------------------------------------------- lock (R93, R95)

/-- Samples of a frame of the port that SEAL_DISC counts (R472). -/
def State.sealSamples (s : State) (n frames : Nat) : Nat := frames * (s.sampleSlots n).length

/-- Empty the seal buffer into SEAL_DISC (R472). -/
def dropSealBuf (n : Nat) (s : State) : State :=
  let p := s.port n
  let k := p.sealCur.length + p.sealOut.length + p.sealDone.length
  (s.addReg (sealCnt n 2) (s.sealSamples n k)).updPort n
    (fun p => { p with sealCur := [], sealOut := [], sealDone := [], sealBlk := none })

/-- Return to ACQUIRE: the block in progress ends with no check (R95). -/
def toAcquire (n : Nat) (s : State) : State :=
  s.updPort n (fun p =>
    { p with st := .acquire, goodPre := 0, badRun := 0, blk := 0, blkClean := false, seqExp := none, csAcc := [], usAcc := [] })

/-- A LOCKED or RATE_HOLD port loses lock (R95). -/
def loseLock (n : Nat) (s : State) : State :=
  match (s.port n).st with
  | .locked | .rateHold =>
    portLeft n (toAcquire n (dropSealBuf n (portEvtBound n 0 (s.bump (spCnt n 5)))))
  | _ => s

/-- A port in use goes off: ENABLE cleared or the group domain off (R93, R95). -/
def portOff (n : Nat) (s : State) : State :=
  let s := toAcquire n (dropSealBuf n (loseLock n s))
  s.updPort n (fun p => { p with st := .off, sclkOk := false, lens := [], nrx := 0 })

/-- What losing the line does in every state (R70, R93, R95). Of a port in FRAME or BLOCK the rules do not speak: it returns to
ACQUIRE at once, as after any loss (log 110). -/
def lineGone (n : Nat) (s : State) : State :=
  let s := s.updPort n (fun p => { p with sclkOk := false, lens := [], nrx := 0 })
  match (s.port n).st with
  | .locked | .rateHold => loseLock n s
  | .frame | .block => toAcquire n s
  | _ => s.updPort n (fun p => { p with goodPre := 0 })

-- ---------------------------------------------------------------- channel status (R75 to R83, log 20)

/-- Byte k of a slot's status or user buffer (R81). -/
def statusByte (b : BitVec 192) (k : Nat) : Nat := fieldN b.toNat (8 * k) 8

/-- The CRCC of bytes 0 to 22 (R83), sent most significant coefficient in bit 0 of byte 23. -/
def crccOf (b : BitVec 192) : Nat :=
  let r := crc 8 0x1D 0xFF (bitsOf 184 (b.toNat % 2 ^ 184))
  (List.range 8).foldl (fun v i => v + fieldN r (7 - i) 1 * 2 ^ i) 0

def crccOk (b : BitVec 192) : Bool := crccOf b == statusByte b 23

/-- Fields of the standard-mode channel status, with the codes of AES3 and IEC 60958 (log 20). -/
def csPro (b : BitVec 192) : Bool := fieldN b.toNat 0 1 == 1
def csNonAudio (b : BitVec 192) : Bool := fieldN b.toNat 1 1 == 1

/-- Status declares at most 20 bits with another use of the auxiliary bits (R77). -/
def csAuxOther (b : BitVec 192) : Bool := csPro b && fieldN (statusByte b 2) 0 3 == 2

/-- CS_FS of SP_STDINFO (R106). -/
def csFs (b : BitVec 192) : Nat :=
  if csPro b then
    match fieldN (statusByte b 0) 6 2 with
    | 1 => 2 | 2 => 3 | 3 => 1
    | _ => match fieldN (statusByte b 4) 3 4 with
      | 0 => 0 | 2 => 5 | 3 => 7 | 10 => 4 | 11 => 6 | _ => 8
  else match fieldN (statusByte b 3) 0 4 with
    | 0 => 2 | 1 => 0 | 2 => 3 | 3 => 1 | 8 => 4 | 10 => 5 | 12 => 6 | 14 => 7 | _ => 8

def fsNominal (c : Nat) : Nat :=
  match c with
  | 1 => 32000 | 2 => 44100 | 3 => 48000 | 4 => 88200 | 5 => 96000 | 6 => 176400 | 7 => 192000 | _ => 0

/-- WLEN of SP_STDINFO: both formats have one code of word length below a maximum of 24 or 20 bits (log 20). -/
def csWlen (b : BitVec 192) : Nat :=
  let wide24 := if csPro b then fieldN (statusByte b 2) 0 3 == 4 else fieldN (statusByte b 4) 0 1 == 1
  match if csPro b then fieldN (statusByte b 2) 3 3 else fieldN (statusByte b 4) 1 3 with
  | 0 => 0
  | 5 => if wide24 then 3 else 2
  | 1 => if wide24 then 2 else 1
  | _ => 4

/-- EMPH of SP_STDINFO. -/
def csEmph (b : BitVec 192) : Nat :=
  if csPro b then match fieldN (statusByte b 0) 2 3 with | 0 => 0 | 1 => 0 | 3 => 1 | 7 => 2 | _ => 3
  else match fieldN (statusByte b 0) 3 3 with | 0 => 0 | 1 => 1 | _ => 3

/-- SP_STDINFO of slot 0 (R78): the disagreement of the declared and the measured rate raises no fault. The spec gives no figure for
it: 1 %, and none where no rate is declared (log 111). -/
def stdinfo (b : BitVec 192) (rate : Nat) : W :=
  let fs := csFs b
  let nom := fsNominal fs
  let diff := nom != 0 && (if rate ≤ nom then nom - rate else rate - nom) * 100 > nom
  BitVec.ofNat 32 (b2n diff * 4096 + fs * 256 + csWlen b * 32 + csEmph b * 4 + b2n (csNonAudio b) * 2 + b2n (csPro b))

-- ---------------------------------------------------------------- the fate of subframes (R89)

/-- Time slots 4 to 31 hold an even number of ones (R73). -/
def parityOk (f : Subframe) : Bool :=
  ((bitsOf 24 f.data.toNat).foldl (fun n b => n + b2n b) 0 + b2n f.v + b2n f.u + b2n f.c + b2n f.p) % 2 == 0

/-- The sample word a subframe delivers (R72, R76, R77, R82). -/
def sampleWord (kind : Nat) (aux : Bool) (f : Subframe) : BitVec 24 :=
  if kind = 2 || aux then f.data &&& 0xFFFFF0 else f.data

/-- Put a whole frame into the alignment queue; a third frame drops the oldest at once (R23, R122). -/
def enqueue (n : Nat) (q : QFrame) (s : State) : State :=
  let s := s.addWide (spTally n 0) q.counted
  let s := s.addWide (spTally n 1) (q.counted - q.samples.length : Int)
  let p := s.port n
  match p.queue with
  | [a, b] =>
    let s := raise fcEvt (mkRep srcBell 0 4 0 0 0) ((s.bump (slipDrop n)).addWide (spTally n 2) a.samples.length)
    s.updPort n (fun p => { p with queue := [b, q], dropEv := p.dropEv ++ a.samples })
  | l => s.updPort n (fun p => { p with queue := l ++ [q] })

/-- The fate of one subframe: counters and events now, the delivered sample for the queue (R79, R89, R98). A slot of kind 0 is decoded
for parity only (R82); its failure is an event and no discarded sample. The status that decides R77 and R79 is that of the slot's last
good block (log 112). -/
def subFate (n sl : Nat) (f : Subframe) (a : State × List QSample) : State × List QSample :=
  let s := a.1
  let kind := s.kindOf n sl
  let cs := tget 0 (s.port n).cs sl
  let std := !s.spWide n
  if kind = 0 then (if parityOk f then a else (portEvt n 2 sl s, a.2))
  else if !parityOk f then (portEvt n 2 sl (s.bump (spCnt n 1)), a.2)
  else
    let nonpcm := std && csNonAudio cs
    let s := if f.v || nonpcm then s.bump (spCnt n 2) else s
    let s := if nonpcm then portEvt n 9 sl (s.bump (spCnt n 7)) else s
    let w := sampleWord kind (std && csAuxOther cs) f
    (s, a.2 ++ [{ slot := sl, sample := w, valid := !(f.v || nonpcm)
                  ev := if kind = 2 then fieldN f.data.toNat 0 4 else 0 }])

/-- The cc of the frame in progress on the Bellwether (R39). -/
def State.openCc (s : State) : Nat := s.bell.len256 / 512

/-- The fates of a frame received in LOCKED, and its place in the alignment queue, which it reaches `phase` cc after B(j) (R89). -/
def frameFate (n phase : Nat) (f : RxFrame) (s : State) : State :=
  let k := (s.sampleSlots n).length
  let arrival := s.openCc - phase
  if f.bad then
    enqueue n { samples := [], counted := k, arrival } s
  else
    let s := s.bump (spCnt n 0)
    let (s, l) := f.subs.zipIdx.foldl (fun a x => subFate n x.2 x.1 a) (s, [])
    enqueue n { samples := l, counted := k, arrival } s

/-- What a frame received in LOCKED does: at once on a port that is not sealed-delayed; through the seal
buffer, one block late, on one that is (R472): frame i of the block in progress lets frame i of the
verified block go. -/
def acceptFrame (n i phase : Nat) (f : RxFrame) (s : State) : State :=
  if s.spSeal n = 2 then
    let out := (s.port n).sealOut
    let s := s.updPort n (fun p => { p with sealCur := p.sealCur ++ [f] })
    match out with
    | g :: r =>
      if r.length + 1 + i ≥ 192 then
        let s := s.updPort n (fun p => { p with sealOut := r })
        frameFate n phase g (if g.bad then s.bump (spCnt n 4) else s)
      else s
    | [] => s
  else frameFate n phase f s

-- ---------------------------------------------------------------- blocks (R81, R85, R86, R106, R133)

/-- Gather the C and U bits of frame i of a block; frame 0 starts afresh (R81). -/
def collect (i : Nat) (f : LineFrame) (p : Port) : Port :=
  let base := if i = 0 then { p with csAcc := [], usAcc := [] } else p
  let put (t : Tab (BitVec 192)) (sl : Nat) (b : Bool) : Tab (BitVec 192) :=
    if b then tupd 0 t sl (fun v => v ||| BitVec.ofNat 192 (2 ^ i)) else t
  f.subs.zipIdx.foldl (fun p x => { p with csAcc := put p.csAcc x.2 x.1.c, usAcc := put p.usAcc x.2 x.1.u }) base

/-- A binding's declared units against the slot's status (R133). -/
def unitsCheck (i : Nat) (cs : BitVec 192) (s : State) : State :=
  let b := s.bind i
  if statusByte cs 3 = b.units ∧ statusByte cs 4 = b.exp then s
  else
    let c := s.chan b.chan
    let s := s.updChan b.chan (fun c => { c with zc := { c.zc with unitsMm := true } })
    if c.armed then raise (intEvt c.flock) (mkRep (srcFlock c.flock) 0 6 2 1 b.chan) s
    else setEvt (intEvt c.flock) 6 s

/-- The checks of one slot at the end of a block (R86, R133); the buffers are renewed (R106). -/
def slotBlockEnd (n sl : Nat) (s : State) : State :=
  let p := s.port n
  let cs := tget 0 p.csAcc sl
  let wide := s.spWide n
  let ok := if wide || csPro cs then crccOk cs else true
  let s := s.updPort n (fun p =>
    { p with us := tset 0 p.us sl (tget 0 p.usAcc sl)
             cs := if ok then tset 0 p.cs sl cs else p.cs
             slots := tupd SlotSt.none p.slots sl (fun x =>
               { x with csOk := ok, kindRx := if ok && wide then fieldN (statusByte cs 2) 0 2 else x.kindRx }) })
  if !ok then portEvt n 3 sl (s.bump (spCnt n 3))
  else if wide then
    let kindBad := statusByte cs 1 != 0xA5 || fieldN (statusByte cs 2) 6 2 != s.spNcode n ||
      fieldN (statusByte cs 2) 0 2 != s.regField (spKindmap n (sl / 16)) (2 * (sl % 16)) 2
    let s := if kindBad then slotEvt n 6 sl (s.mismatchChans n sl) s else s
    let s := if statusByte cs 5 != sl then slotEvt n 7 sl (s.mismatchChans n sl) s else s
    each (s.bindsOfSlot n sl) (fun i s => unitsCheck i cs s) s
  else s

/-- SEQ of slot 0 in its status (R83). -/
def seqOf (cs : BitVec 192) : Nat := fieldN cs.toNat 64 32

/-- The SEQ after this one. -/
def nextSeq (e : Nat) : Nat := (e + 1) % 2 ^ 32

/-- A SEQ that differs from the expected one (R85). -/
def seqErr (n : Nat) (s : State) : State := portEvt n 4 0 (s.bump (spCnt n 6))

/-- SEQ of slot 0 at the end of a block of an unsealed port (R85): compared where its CRCC passes; the expected value goes on by one
with every block. The first value is that of a block whose status has CRCC and MARKER right, as R93 has a verified block (log 158). -/
def seqCheck (n : Nat) (cs : BitVec 192) (s : State) : State :=
  match (s.port n).seqExp with
  | some e =>
    if !crccOk cs then s.updPort n (fun p => { p with seqExp := some (nextSeq e) })
    else (if e = seqOf cs then s else seqErr n s).updPort n (fun p => { p with seqExp := some (nextSeq (seqOf cs)) })
  | none =>
    if crccOk cs && statusByte cs 1 == 0xA5 then s.updPort n (fun p => { p with seqExp := some (nextSeq (seqOf cs)) }) else s

/-- The block data of one frame (R471). -/
def sealFrame (l : List Subframe) : Bytes :=
  l.flatMap (fun x => leBytes 3 x.data.toNat ++ [BitVec.ofNat 8 (b2n x.v + 2 * b2n x.c)])

/-- The block seal in the user bits of slot 0 (R87). -/
def sealInfoOf (cs us : BitVec 192) (data : Bytes) : SealInfo :=
  { epoch := fieldN us.toNat 0 16, seq := seqOf cs, streamId := fieldN cs.toNat 48 16, crcOk := crccOk cs
    tag := BitVec.ofNat 128 (beVal ((List.range 16).map (fun i => BitVec.ofNat 8 (statusByte us (8 + i))))), data }

/-- The tag of a block under a SEAL_KEY (R471). -/
def sealTag (key : BitVec 256) (b : SealInfo) : BitVec 128 :=
  gcmTag (hkdf32 (leBytes 32 key.toNat) (leBytes 48 0) (leBytes 2 b.streamId ++ leBytes 2 b.epoch)) (leBytes 4 b.seq ++ leBytes 8 0)
    b.data []

/-- The end of a block (R81 to R88, R106). `locked` is false for the block that leads to lock, which sets no expected SEQ and carries
no seal to judge. The block stays clean where slot 0 is verified: in wide mode by its CRCC and MARKER (R93). -/
def blockEnd (n : Nat) (locked : Bool) (s : State) : State :=
  let cs0 := tget 0 (s.port n).csAcc 0
  let wide := s.spWide n
  let ok0 := if wide then crccOk cs0 && statusByte cs0 1 == 0xA5 else true
  let s := each (List.range (s.spN n)) (fun sl s => slotBlockEnd n sl s) s
  let s := if wide then s else s.setReg (spStdinfo n) (stdinfo (tget 0 (s.port n).cs 0) (s.port n).rate)
  let s := s.bump (spBlkcnt n)
  let s := if locked && wide && s.spSeal n == 0 then seqCheck n cs0 s else s
  let us0 := tget 0 (s.port n).usAcc 0
  let s := s.updPort n (fun p => { p with blkClean := p.blkClean && ok0 })
  if locked && s.spSeal n != 0 then
    s.updPort n (fun p => { p with sealBlk := some (sealInfoOf cs0 us0 p.sealData), sealDone := p.sealCur, sealCur := [] })
  else s

-- ---------------------------------------------------------------- reception

/-- RATE_HOLD from LOCKED, or at the end of a verified block (R93). -/
def holdRate (n : Nat) (s : State) : State :=
  portEvtBound n 10 (s.updPort n (fun p => { p with st := .rateHold }))

/-- Enter LOCKED or RATE_HOLD at the Z that ends a verified block (R93). -/
def enterLock (n : Nat) (s : State) : State :=
  let s := s.updPort n (fun p => { p with badRun := 0, seqExp := none })
  if rateWithin (s.port n).lens s.frate 1000 then s.updPort n (fun p => { p with st := .locked, relOnce := false })
  else holdRate n s

/-- A frame has a framing error (R95, R98); `counts` where its fate is settled as it is received, and not as it leaves the seal buffer
(R472). -/
def framingErr (n : Nat) (counts : Bool) (s : State) : State := portEvt n 1 0 (if counts then s.bump (spCnt n 4) else s)

/-- Frame i of a block is received: its status and user bits, where it has no framing error (R81), and its block data (R471). -/
def blockFrame (i : Nat) (bad : Bool) (f : LineFrame) (p : Port) : Port :=
  let p := if i = 0 then { p with csAcc := [], usAcc := [], blkClean := true, sealData := [] } else p
  let p := if p.sealSet.mode = 0 then p else { p with sealData := p.sealData ++ sealFrame f.subs }
  { (if bad then { p with blkClean := false, badRun := p.badRun + 1 } else { collect i f p with badRun := 0 }) with blk := i + 1 }

/-- A frame on a LOCKED or RATE_HOLD port (R89, R93, R95, R96). `blk` counts the frames since the last Z;
192 expects the next. The frame at which a sealed-delayed port loses lock counts its framing error at once (R98, log 158). -/
def trackedFrame (n : Nat) (f : LineFrame) (s : State) : State :=
  let p := s.port n
  let due := p.blk == 192
  let wrong := firstPre f == some (if due then Preamble.x else .z)
  let bad := s.framingBad n f || wrong
  let i := if due then 0 else p.blk
  let lost := wrong || (bad && decide (1 ≤ p.badRun))
  let s := if bad then framingErr n (p.st != .locked || s.spSeal n != 2 || lost) s else s
  let s := if p.st == .locked then acceptFrame n i f.phase.toNat { bad, subs := f.subs } s else s
  let s := s.updPort n (blockFrame i bad f)
  if lost then loseLock n s
  else
    let s := if i + 1 = 192 then blockEnd n true s else s
    if p.st == .locked then
      if rateWithin (s.port n).lens s.frate 1000 then s else portLeft n (holdRate n (dropSealBuf n s))
    else if due && !bad && p.blkClean && rateWithin (s.port n).lens s.frate 500 then
      s.updPort n (fun p => { p with st := .locked, relOnce := false })
    else s

/-- The seal settings of a new fence record take effect at a block start (R469): the epoch starts afresh, and a change of mode
discards the buffered blocks. -/
def applySeal (n : Nat) (s : State) : State :=
  match (s.port n).sealPend with
  | none => s
  | some x =>
    let s := if s.spSeal n = x.mode then s else (dropSealBuf n s).setField (spCtrl n) 10 2 x.mode
    s.updPort n (fun p => { p with sealSet := x, sealPend := none, epoch := 0, lastSeq := none
                                   sealKey := (s.sec.fence.map (·.sealKey)).getD 0 })

/-- When a frame that completes now started, in 1/256 pt (R39). -/
def State.frameStart (s : State) (f : LineFrame) : Int := 256 * s.bell.bPt + s.bell.bFrac + 512 * f.phase.toNat - (f.len.toNat : Int)

/-- The frame starts a block of the port, after the settings that wait for one came in force: a record in force at the very block start
waits for the next (R478). -/
def State.sealStarts (s : State) (n : Nat) (f : LineFrame) : Bool := decide (((s.port n).sealAt : Int) < s.frameStart f)

/-- STREAM_FRAME: a port decodes a whole received frame (R89, R93). A port that is off, has no line
signal or receives a rate outside its level decodes nothing (R70). In BLOCK a Z at a wrong frame, or an X where Z is due, is a failure of the state
and no framing error (log 116). -/
def streamFrame (n : Nat) (f : LineFrame) (s : State) : State :=
  let p := s.port n
  if p.st == .off || !p.sclkOk || !s.lineInRange n f then s
  else
    let bad := s.framingBad n f
    let z := firstPre f == some .z
    let s := s.updPort n (fun p => { p with nrx := if s.spWide n then nrxOf f.subs.length else 0
                                            lens := (f.len.toNat :: p.lens).take 256 })
    let s := if z && !bad && p.st != .acquire && s.sealStarts n f then applySeal n s else s
    match p.st with
    | .off => s
    | .acquire =>
      let g := if bad then 0 else p.goodPre + 1
      s.updPort n (fun p => { p with goodPre := if g ≥ 3 then 0 else g, st := if g ≥ 3 then .frame else .acquire })
    | .frame =>
      if bad then toAcquire n (framingErr n true s)
      else if z then s.updPort n (fun p => { blockFrame 0 false f p with st := .block })
      else s
    | .block =>
      if bad then toAcquire n (framingErr n true s)
      else if z != (p.blk == 192) || (z && !p.blkClean) then toAcquire n s
      else if z then enterLock n (s.updPort n (blockFrame 0 false f))
      else
        let s := s.updPort n (blockFrame p.blk false f)
        if p.blk + 1 = 192 then blockEnd n false s else s
    | .locked | .rateHold => trackedFrame n f s

def execStreamFrame (n : Fin 16) (f : LineFrame) (s : State) : Res := .next (streamFrame n.val f s)

/-- PORT_STAY_TIMEOUT: a stay in ACQUIRE, FRAME or BLOCK reaches its longest stay (R93). -/
def execPortStayTimeout (n : Fin 16) (s : State) : Res :=
  match (s.port n.val).st with
  | .acquire | .frame | .block => .next (toAcquire n.val s)
  | _ => .next s

/-- LINE_SIGNAL_PRESENT: the port gains a line signal within the rates of R70; only a port in use sees it, and
none whose error pair is broken (R435). -/
def execLineSignalPresent (n : Fin 16) (s : State) : Res :=
  if (s.port n.val).st == .off || s.col.broken.contains (srcPort n.val) then .next s
  else .next (s.updPort n.val (fun p => { p with sclkOk := true, goodPre := 0 }))

/-- LINE_OUT_OF_RANGE: the line's rate leaves the range of its level (R70, R95). -/
def execLineOutOfRange (n : Fin 16) (s : State) : Res := .next (lineGone n.val s)

/-- SCLK_LOST: the recovered line clock is lost (R40, R95). -/
def execSclkLost (n : Fin 16) (s : State) : Res := .next (lineGone n.val s)

/-- The reports of RUN_LIMIT of a slot (R92, R97). -/
def runReps (n sl : Nat) (s : State) : List Report :=
  match s.armedAtSlot n sl with
  | [] => [mkRep (srcPort n) 0 5 0 3 sl]
  | l => l.map (fun c => mkRep (srcPort n) 0 5 2 1 c)

/-- RUN_LIMIT: RUN of a counted slot first exceeds VRUN_LIMIT, where 0 acts as 1 (R92). -/
def execRunLimit (n : Fin 16) (sl : Fin 32) (s : State) : Res :=
  let x := tget SlotSt.none (s.port n.val).slots sl.val
  let lim := max 1 (s.regField (spLimit n.val) 0 16)
  if x.run > lim && !x.limHit then
    .next (forL (runReps n.val sl.val s) holdLive (slotEvt n.val 5 sl.val (s.armedAtSlot n.val sl.val) (s.updPort n.val (fun p =>
      { p with slots := tupd SlotSt.none p.slots sl.val (fun x => { x with limHit := true }) }))))
  else .next s

-- ---------------------------------------------------------------- port registers (R105)

/-- SP_CTRL_WRITE (R105): SEAL and the reserved bits take no value from a write. -/
def execSpCtrlWrite (n : Fin 16) (v : W) (s : State) : Res :=
  let a := spCtrl n.val
  let old := s.reg a
  let new := (old &&& 0x0C00) ||| (v &&& 0x0333)
  let en := bitOf old 0
  if en && (old &&& 0x0332) != (new &&& 0x0332) then .next (portIgnored n.val s)
  else if en && !bitOf new 0 && !(s.armedAtPort n.val).isEmpty then .next (portIgnored n.val s)
  else if en && !bitOf new 0 then .next (recount n.val (portOff n.val (s.setReg a new)))
  else
    let s := recount n.val (s.setReg a new)
    if !en && bitOf new 0 then
      let s := s.setReg (spBlkcnt n.val) 0
      if s.domOn (portDom n.val) then .next (toAcquire n.val s) else .next s
    else .next s

/-- SP_KINDMAP_WRITE (R105): ignored while the port is enabled. -/
def execSpKindmapWrite (n : Fin 16) (i : Fin 2) (v : W) (s : State) : Res :=
  let a := spKindmap n.val i.val
  if s.spEnable n.val && s.reg a != v then .next (portIgnored n.val s) else .next (recount n.val (s.setReg a v))

/-- SO_CTRL_WRITE (R107): a change of NCODE, LEVEL or MODE while enabled is ignored. -/
def execSoCtrlWrite (n : Fin 4) (v : W) (s : State) : Res :=
  let a := soCtrl n.val
  let old := s.reg a
  let new := v &&& 0x0313
  if bitOf old 0 && (old &&& 0x0312) != (new &&& 0x0312) then .next s
  else
    let s := s.setReg a new
    let on := bitOf new 0 && s.domOn (40 + n.val)
    let s := if bitOf old 0 == bitOf new 0 then s else s.setReg (soStat n.val) (if s.col.broken.contains (srcOut n.val) then 2 else if on then 1 else 0)
    if !bitOf old 0 && bitOf new 0 then .next (s.setOut n.val { s.out n.val with seq := 0, sent := [] })
    else .next s

/-- SO_SLOT_WRITE (R107): takes effect at the next Bellwether boundary. -/
def execSoSlotWrite (n : Fin 4) (sl : Fin 32) (v : W) (s : State) : Res :=
  let o := s.out n.val
  .next (s.setOut n.val { o with slotPend := tset none o.slotPend sl.val (some (v &&& 0xFFFF0F00)) })

/-- OUTPUT_PORT_CLOCK_LOST: OCLKn is lost and the port stops, class C1 (R40, R107). -/
def execOutputPortClockLost (n : Fin 4) (s : State) : Res :=
  if bitOf (s.reg (soCtrl n.val)) 0 then
    .next (holdLive (mkRep srcClock 15 3 1 0 0) (raiseOwn srcClock 3 1 0 0 (s.setReg (soStat n.val) 2)))
  else .next s

-- ---------------------------------------------------------------- seals (R471 to R473, R480)

/-- A seal failure found on a port: its cause bits in one report for each class rule (R471, R473, R480). -/
def sealBits (n : Nat) (bits : List Nat) (s : State) : State := bits.foldl (fun s b => setEvt (sealEvt n) b s) s

/-- Beam gates whose command slot lies on the port go low at once (R473). -/
def gatesLowOnPort (n : Nat) (s : State) : State :=
  each (tkeys s.gates) (fun g s =>
    let x := s.gate g
    if x.live && x.port == n then s.setGate g { x with level := false, pend := [] } else s) s

/-- SEAL_VERDICT: the verdict on the last completed block (R471), whose causes a standard-mode block has none of (R88, R470). The
expected SEQ goes on with every block, and a verified one whose slot 0 CRCC passes is compared with it (R85, log 158). -/
def execSealVerdict (n : Fin 16) (s : State) : Res :=
  let p := s.port n.val
  match p.sealBlk with
  | none => .next s
  | some b =>
    let ent := p.sealSet
    let wide := s.spWide n.val
    let streamErr := wide && b.streamId != ent.streamId
    let epochErr := wide && (decide (b.epoch < p.epoch) || decide (b.epoch < ent.epochMin))
    let replay := wide && b.epoch == p.epoch && (match p.lastSeq with | some q => decide (b.seq ≤ q) | none => false)
    let delayed := s.spSeal n.val == 2
    let s := s.updPort n.val (fun p => { p with sealBlk := none, seqExp := p.seqExp.map nextSeq })
    if wide && sealTag p.sealKey b == b.tag && !streamErr && !epochErr && !replay then
      let s := s.bump (sealCnt n.val 0)
      let jump := b.crcOk && (match p.seqExp with | some e => decide (e < b.seq) | none => false)
      let s := if jump then seqErr n.val s else s
      .next (s.updPort n.val (fun p =>
        { p with epoch := b.epoch, lastSeq := some b.seq, seqExp := if b.crcOk then some (nextSeq b.seq) else p.seqExp
                 sealOut := if delayed then p.sealDone else [], sealDone := [] }))
    else
      let bits := (if streamErr then [1] else []) ++ (if epochErr then [2] else []) ++ (if replay then [3] else [])
      let s := sealBits n.val bits (s.bump (sealCnt n.val 1))
      if delayed then
        let s := s.addReg (sealCnt n.val 2) (s.sealSamples n.val p.sealDone.length)
        let s := s.updPort n.val (fun p => { p with sealDone := [], sealOut := [] })
        let cls := if (s.armedAtPort n.val).isEmpty then 0 else 1
        .next (raise (sealEvt n.val) (mkRep (srcPort n.val) 1 0 cls 0 0) s)
      else
        let s := s.updPort n.val (fun p => { p with sealDone := [] })
        let s := match s.armedAtPort n.val with
          | [] => raise (sealEvt n.val) (mkRep (srcPort n.val) 1 0 0 0 0) s
          | l => each l (fun c s => raise (sealEvt n.val) (mkRep (srcPort n.val) 1 0 2 1 c) s) s
        .next (gatesLowOnPort n.val s)

end Sys2Proof.Machine
end

