-- ==== Sys2Proof/Machine/Bellwether.lean ====
section
/-! DEFINITION. The Bellwether: sources, decisions, holdover and slewing, and the frame clock registers
(04). -/

namespace Sys2Proof.Machine

open Sys2Proof

/-- Start the phase-continuous change to an entry (R116), from the frequency of the source left, held or reached. -/
def startSlew (e : Nat) (s : State) : State :=
  let s := s.updBell (fun b =>
    { b with active := e, follow := none, onLink := false, mode := .slewing, phaseStep := false, excl := none, holdFp := 0, noSrcFp := 0
             lost := false, freq := if b.mode == .tracking then b.lastGood * s.frate else b.freq })
  s.updBell (fun b => { b with lastGood := s.srcOff })

/-- The same to the station link. -/
def startLink (s : State) : State :=
  let s := (startSlew s.bell.active s).updBell (fun b => { b with onLink := true })
  s.updBell (fun b => { b with lastGood := s.srcOff })

/-- A source decision (R113, R489): stays in holdover, or on the selected source, when it changes nothing. It ends the exclusion of
R118. -/
def decideSource (s : State) : State :=
  let s' :=
    if s.linkReady then
      if s.bell.mode != .holdover && s.bell.onLink then s else bellEvt 3 (startLink s)
    else match s.pickEntry with
    | none => s
    | some e =>
      if s.bell.mode != .holdover && !s.bell.onLink && s.bell.follow.isNone && s.bell.active == e then s
      else bellEvt 3 (startSlew e s)
  s'.updBell (fun b => { b with excl := none })

/-- The decision of a RESELECT: none can end a holdover before its 192 fp, or keep one from being entered (R115). -/
def reselectNow (s : State) : State :=
  if s.bell.enterHold || (s.bell.mode == .holdover && decide (s.bell.holdFp < 192)) then s else decideSource s

/-- Queue a deferred action where there is room (R404). -/
def deferAction (d : Deferred) (s : State) : Option State :=
  if s.svc.defer.length < 16 then some (s.updSvc (fun v => { v with defer := v.defer ++ [d] })) else none

/-- The source of entry e is there to be measured (R112, R113). -/
def State.entryHere (s : State) (present e : Nat) : Bool :=
  match s.entrySrc e with
  | 0 => false
  | 1 => true
  | 3 => fieldN present e 1 == 1 && (s.port (s.entryPort e)).st == .locked
  | 4 => fieldN present e 1 == 1 && s.linkTrained
  | _ => fieldN present e 1 == 1

/-- Entry e is the selected source, and not in holdover. -/
def State.selects (s : State) (e : Nat) : Bool :=
  s.bell.active == e && s.bell.follow.isNone && !s.bell.onLink && s.bell.mode != .holdover

/-- One entry of a drift measurement (R113, R114). An entry that is not measured keeps what FC_OFFSET shows (log 159). -/
def measureEntry (off : Nat → Int) (present : Nat) (e : Nat) (s : State) : State :=
  let o := off e
  if s.entryHere present e then
    (s.setReg (fcOffset e) (BitVec.ofNat 32 (ux 24 o))).updBell (fun b =>
      { b with meas := tset [] b.meas e ((o :: tget [] b.meas e).take 4)
               lastGood := if s.selects e && absI o ≤ (s.window : Int) then o else b.lastGood })
  else s.updBell (fun b => { b with meas := tset [] b.meas e [] })

/-- The same for the station link of a module that follows it (R491). -/
def measureLink (o : Int) (here : Bool) (s : State) : State :=
  s.updBell (fun b =>
    { b with linkMeas := if s.follows && s.linkTrained && here then (o :: b.linkMeas).take 4 else []
             lastGood := if b.onLink && b.mode != .holdover && s.linkTrained && here && absI o ≤ (s.window : Int) then o else b.lastGood })

/-- DRIFT: an entry is flagged and barred (R114). -/
def flagEntry (e : Nat) (s : State) : State :=
  bellEvt 0 (s.updBell (fun b => { b with barred := b.barred - fieldN b.barred e 1 * 2 ^ e + 2 ^ e }))

/-- An entry outside WINDOW: flagged where it is selected, which leaves it (R114), or where it was unbarred since its last
measurement (R117). -/
def flagCheck (off : Nat → Int) (present : Nat) (e : Nat) (s : State) : State :=
  if !s.entryHere present e then s
  else
    let again := fieldN s.bell.unbarred e 1 == 1
    let s := s.updBell (fun b => { b with unbarred := b.unbarred - fieldN b.unbarred e 1 * 2 ^ e })
    if absI (off e) ≤ (s.window : Int) then s
    else if s.selects e then leaveSource (flagEntry e s)
    else if again then flagEntry e s
    else s

/-- A selected station link outside WINDOW (R114). It has no bit in BARRED: it qualifies afresh. -/
def flagLink (o : Int) (s : State) : State :=
  if s.bell.onLink && s.bell.mode != .holdover && absI o > (s.window : Int) then leaveSource (bellEvt 0 s) else s

/-- A selected entry that was rewritten takes its new source once that is selectable (R119, R128, log 108). -/
def takeRewritten (s : State) : State :=
  if s.bell.follow.isSome && !s.bell.onLink && s.bell.mode != .holdover && !s.bell.enterHold && s.selectable s.bell.active then
    bellEvt 3 (startSlew s.bell.active s)
  else s

/-- A change under REVERT (R113), deferred while a layer window is open (R117). It is judged by level at each measurement (log 113); one that finds the queue full waits
for the next (log 160). -/
def revertCheck (s : State) : State :=
  match s.pickEntry with
  | some e =>
    if s.bell.revert && !s.bell.onLink && s.bell.mode != .holdover && !s.bell.enterHold && decide (e < s.bell.active) then
      if s.stnOpen then
        if s.svc.defer.contains .revert then s else (deferAction .revert s).getD s
      else decideSource s
    else s
  | none => s

/-- DRIFT_MEASUREMENT: every 256 fp the offsets of the named sources are renewed (R113, R114). The operands
are the measured offsets in 0.01 ppm of the four entries and the station link, and which sources are present; the TCXO's own is 0. -/
def execDriftMeasurement (o0 o1 o2 o3 link : BitVec 24) (present : BitVec 5) (s : State) : Res :=
  let off : Nat → Int := fun e =>
    if s.entrySrc e = 1 then 0
    else if e = 0 then o0.toInt else if e = 1 then o1.toInt else if e = 2 then o2.toInt else if e = 3 then o3.toInt else link.toInt
  let s := each [0, 1, 2, 3] (measureEntry off present.toNat) s
  let s := measureLink link.toInt (present.getLsbD 4) s
  let s := flagLink link.toInt (each [0, 1, 2, 3] (flagCheck off present.toNat) s)
  if s.bell.mode == .holdover && decide (192 ≤ s.bell.holdFp) then .next (decideSource s)
  else .next (revertCheck (takeRewritten s))

def execSourceLost (s : State) : Res := .next (sourceLost s)

/-- HOLDOVER_ENTRY: at the next B(j) after a loss or flag (R115). A source left while slewing leaves the frequency reached (R118), any
other its last measurement within WINDOW. -/
def execHoldoverEntry (s : State) : Res :=
  if s.bell.enterHold then
    .next (bellEvt 2 (s.updBell (fun b =>
      { b with mode := .holdover, enterHold := false, holdFp := 0, noSrcFp := 0, phaseStep := false, follow := none
               freq := if b.mode == .slewing then b.freq else b.lastGood * s.frate })))
  else .next s

/-- HOLDOVER_MIN_END: the least holdover of 192 fp has passed and a decision is made (R113, R115). -/
def execHoldoverMinEnd (s : State) : Res :=
  if s.bell.mode == .holdover && decide (192 ≤ s.bell.holdFp) then .next (decideSource s) else .next s

/-- HOLDOVER_NO_SOURCE: another 65,536 fp with no selectable entry (R126); the report carries the HOLDOVER cause and sets that bit
again (log 94). -/
def execHoldoverNoSource (s : State) : Res :=
  if s.bell.mode == .holdover && decide (65536 < s.bell.noSrcFp) then
    .next (bellEvt 2 (s.updBell (fun b => { b with noSrcFp := b.noSrcFp - 65536 })))
  else .next s

/-- The frequency is matched within 0.1 ppm (R116). -/
def State.freqMatched (s : State) : Bool := decide (absI (s.bell.freq - s.srcOff * s.frate) ≤ (10 * s.frate : Nat))

/-- SLEW_FREQ_MATCHED: step 1 of R116 ends; with a TCXO source the whole change ends. -/
def execSlewFreqMatched (s : State) : Res :=
  if s.bell.mode == .slewing && !s.bell.phaseStep && s.freqMatched then
    if s.selSrc == 1 then .next (s.updBell (fun b => { b with mode := .tracking }))
    else .next (s.updBell (fun b => { b with phaseStep := true }))
  else .next s

/-- SLEW_PHASE_DONE: step 2 of R116 ends. -/
def execSlewPhaseDone (s : State) : Res :=
  if s.bell.mode == .slewing && s.bell.phaseStep then
    .next (s.updBell (fun b => { b with mode := .tracking, phaseStep := false }))
  else .next s

-- ---------------------------------------------------------------- the length of a frame (R111, R115, R116)

/-- 10⁸ times the frame rate at an offset, which is in 0.01 ppm times FRATE. -/
def State.rateAt (s : State) (p : Int) : Nat := ((s.frate * 10 ^ 8 : Nat) + p).toNat

/-- The shortest, the longest and the nearest whole length in 1/256 pt of a frame at an offset. -/
def State.lenUp (s : State) (p : Int) : Nat := let d := s.rateAt p; if d = 0 then 0 else (tickHz * 10 ^ 8 + d - 1) / d
def State.lenDown (s : State) (p : Int) : Nat := let d := s.rateAt p; if d = 0 then 0 else tickHz * 10 ^ 8 / d
def State.lenNear (s : State) (p : Int) : Nat := let d := s.rateAt p; if d = 0 then 0 else (2 * tickHz * 10 ^ 8 + d) / (2 * d)

/-- An offset kept within WINDOW (R111). -/
def State.inWindow (s : State) (p : Int) : Int := max (-(s.window * s.frate : Nat)) (min (s.window * s.frate : Nat) p)

/-- A frame length kept between those of two offsets. -/
def State.lenBetween (s : State) (lo hi : Int) (len : Nat) : Nat :=
  max (s.lenUp (s.inWindow hi)) (min (s.lenDown (s.inWindow lo)) len)

/-- The frequency of a slew one frame on: FREQ_SLEW ppm per second toward the source selected (R116). -/
def State.slewFreq (s : State) : Int :=
  let to_ := s.srcOff * s.frate
  let d : Int := (100 * s.regField fcWindow 24 8 : Nat)
  s.inWindow (if s.bell.freq ≤ to_ then min to_ (s.bell.freq + d) else max to_ (s.bell.freq - d))

/-- The length in 1/256 pt of the frame that opens, of which `len` is what the timebases measured: within WINDOW while a source is
followed (R111), within ±0.5 ppm of the frequency held (R115), at the frequency of the slew, and within PULL of the new source while
the phase is matched (R116). -/
def State.frameLen (s : State) (len : Nat) : Nat :=
  let w : Int := (s.window * s.frate : Nat)
  let off := s.srcOff * s.frate
  let pull : Int := (100 * s.regField fcWindow 16 8 * s.frate : Nat)
  match s.bell.mode with
  | .tracking => s.lenBetween (-w) w len
  | .holdover => s.lenBetween (s.bell.freq - (50 * s.frate : Nat)) (s.bell.freq + (50 * s.frate : Nat)) len
  | .slewing => if s.bell.phaseStep then s.lenBetween (off - pull) (off + pull) len else s.lenNear s.slewFreq

/-- The frequency after a frame of a slew of that length. -/
def State.nextFreq (s : State) (len : Nat) : Int :=
  if s.bell.mode != .slewing then s.bell.freq
  else if !s.bell.phaseStep then s.slewFreq
  else if len = 0 then s.bell.freq
  else s.inWindow (roundDiv (((tickHz * 10 ^ 8 : Nat) : Int) - (s.frate * 10 ^ 8 * len : Nat)) len)

/-- RESELECT: a decision, deferred while a layer window is open in the station, ignored in the cycle of
another decision (R113, R117, R118). `same` says that a decision falls in this cycle. One that finds the queue full is ignored with
CFG_IGNORED (log 160). -/
def execReselect (same : Bool) (s : State) : Res :=
  if same then .next (bellIgnored s)
  else if s.stnOpen then
    match deferAction .reselect s with
    | some s => .next s
    | none => .next (bellIgnored s)
  else .next (reselectNow s)

/-- Clears the bars of the entries whose bits are 1; their next measurement may flag them again (R117). -/
def unbarEntries (bits : Nat) (s : State) : State :=
  s.updBell (fun b => { b with barred := b.barred - (b.barred &&& bits), unbarred := b.unbarred ||| (b.barred &&& bits) })

/-- UNBAR (R117). -/
def execUnbar (bits : BitVec 4) (s : State) : Res := .next (unbarEntries bits.toNat s)

-- ---------------------------------------------------------------- register writes (R110, R128, R129)

/-- The combination of FRATE and M_LOG2 that R129 admits. -/
def State.rateOk (s : State) (frate mLog2 : Nat) : Bool :=
  let loop := frate * 2 ^ mLog2
  decide (32000 ≤ frate ∧ frate ≤ 192000 ∧ loop ≤ 400000) &&
  s.liveChans.all (fun i =>
    let c := loop * 2 ^ ((s.chan i).commit.bind (·.kLog2)).getD (s.chan i).md.kLog2
    decide (100000 ≤ c ∧ c ≤ 800000))

/-- A write of FRATE or M_LOG2: ignored by a joined module other than M0 (R489), then R110, then the limits of R129. -/
def rateWrite (a : Nat) (v : W) (s : State) : State :=
  if s.joined then bellIgnored s
  else if s.fcNext a == v then s
  else if s.anyArmed then bellIgnored s
  else
    let fr := fld (if a = fcRate then v else s.fcNext fcRate) 0 18
    let m := fld (if a = fcRatio then v else s.fcNext fcRatio) 0 2
    if s.rateOk fr m then setPend a v s else bellIgnored s

/-- FC_RATE_WRITE (R110, R129). -/
def execFcRateWrite (v : W) (s : State) : Res := .next (rateWrite fcRate (v &&& 0x3FFFF) s)

/-- FC_RATIO_WRITE (R110, R129). -/
def execFcRatioWrite (v : W) (s : State) : Res := .next (rateWrite fcRatio (v &&& 3) s)

/-- FC_PRIO_WRITE (R128, R129). -/
def execFcPrioWrite (v : W) (s : State) : Res :=
  let ok := [0, 1, 2, 3].all (fun e =>
    let src := prioSrc v e
    decide (src ≤ 4) && !bitOf v (8 * e + 4) && (src == 3 || prioPort v e == 0))
  .next (if ok then setPend fcPrio v s else bellIgnored s)

/-- FC_WINDOW_WRITE (R128, R129). -/
def execFcWindowWrite (v : W) (s : State) : Res :=
  let fs := fld v 24 8
  let pull := fld v 16 8
  let win := fld v 0 16
  .next (if 1 ≤ fs ∧ fs ≤ 100 ∧ 1 ≤ pull ∧ pull ≤ 200 ∧ 100 ≤ win ∧ win ≤ 20000 then setPend fcWindow v s
    else bellIgnored s)

/-- FC_PHASE_WRITE (R128, R129): against the frame period that will apply. -/
def execFcPhaseWrite (v : W) (s : State) : Res :=
  let v := v &&& 0xFF00FFFF
  let fr := fld (s.fcNext fcRate) 0 18
  let cc := if fr = 0 then 0 else 800000000 / fr
  .next (if fld v 0 16 < cc ∧ 2 * fld v 24 8 < cc then setPend fcPhase v s else bellIgnored s)

/-- A new FC_PRIO: entries whose source changed start their measurements afresh (R113). A selected entry whose source changed keeps
the Bellwether on its old source until the new one is selectable, and the change is then that of R116 (R119, R128, log 108). -/
def applyPrio (old new : W) (s : State) : State :=
  let changed := fun e => fld old (8 * e) 8 != fld new (8 * e) 8
  let s := each [0, 1, 2, 3] (fun e s =>
    if changed e then s.updBell (fun b => { b with meas := tset [] b.meas e [] }) else s) s
  let e := s.bell.active
  if changed e && !s.bell.onLink && s.bell.mode != .holdover then
    let was := s.bell.follow.getD (fld old (8 * e) 8)
    takeRewritten (s.updBell (fun b => { b with follow := if was = fld new (8 * e) 8 then none else some was }))
  else s

/-- The pending frame clock settings take effect (R110, R128). -/
def applySettings (s : State) : State :=
  let old := s.reg fcPrio
  let oldRate := (s.frate, s.mLog2)
  let oldOff := s.regField fcPhase 0 16
  let s := s.bell.pend.foldl (fun s e => s.setReg e.1 e.2) s
  let s := s.updBell (fun b => { b with pend := [], freq := if oldRate.1 = 0 then 0 else roundDiv (b.freq * s.frate) oldRate.1 })
  let s := if old == s.reg fcPrio then s else applyPrio old (s.reg fcPrio) s
  let s :=
    if oldOff != s.regField fcPhase 0 16 && s.selSrc == 3 && s.bell.mode == .tracking then
      s.updBell (fun b => { b with mode := .slewing, phaseStep := true, freq := b.lastGood * s.frate })
    else s
  if oldRate == (s.frate, s.mLog2) then s else each (List.range 16) loseLock s

end Sys2Proof.Machine
end

