-- ==== Sys2Proof/Machine/Fixed.lean ====
section
/-! DEFINITION. Exact arithmetic for the values that the spec gives by a formula (08 R241, 11 R330 to R332): fixed-point integers of
512 fractional bits, sines, exponentials, the response of a linear system held over a period. -/

namespace Sys2Proof.Machine

open Sys2Proof

/-- 1 in fixed point. -/
def fOne : Int := 2 ^ 512

def fMul (a b : Int) : Int := a * b / fOne

/-- num / den in fixed point. -/
def fRat (num : Int) (den : Nat) : Int := num * fOne / den

-- ---------------------------------------------------------------- sines (R241)

/-- 2π × 2 ^ 60. -/
def twoPi60 : Nat := 7244019458077122842

/-- The series of the sine of an angle x × 2 ^ -60, x from 0 to π / 2. -/
def sineSeries (x : Int) : Int :=
  let x2 := x * x / 2 ^ 60
  ((List.range 14).foldl (fun (p : Int × Int) i =>
    let t := -(p.2 * x2 / 2 ^ 60) / ((2 * i + 2) * (2 * i + 3) : Nat)
    (p.1 + t, t)) (x, x)).1

/-- The sine of ph / 2 ^ 32 turns, times 2 ^ 60. -/
def sineTurns (ph : Nat) : Int :=
  let q := ph / 2 ^ 30 % 4
  let r := ph % 2 ^ 30
  let y := sineSeries ((if q % 2 = 1 then 2 ^ 30 - r else r) * twoPi60 / 2 ^ 32 : Nat)
  if 2 ≤ q then -y else y

-- ---------------------------------------------------------------- logarithm and exponential (R241)

/-- 2 atanh z. -/
def fLogSeries (z : Int) : Int :=
  let z2 := fMul z z
  2 * ((List.range 160).foldl (fun (p : Int × Int) i => (p.1 + p.2 / (2 * i + 1 : Nat), fMul p.2 z2)) (0, z)).1

/-- ln (a / b) for a, b from 1. -/
def fLog (a b : Nat) : Int :=
  if a < b then -(let e := Nat.log2 (b / a); fLogSeries (fRat ((b : Int) - a * 2 ^ e) (b + a * 2 ^ e)) + e * fLogSeries (fRat 1 3))
  else let e := Nat.log2 (a / b); fLogSeries (fRat ((a : Int) - b * 2 ^ e) (a + b * 2 ^ e)) + e * fLogSeries (fRat 1 3)

/-- e ^ x. -/
def fExp (x : Int) : Int :=
  let ln2 := fLogSeries (fRat 1 3)
  let n := x.fdiv ln2
  let r := x - n * ln2
  let y := ((List.range 100).foldl (fun (p : Int × Int) i => let t := fMul p.2 r / (i + 1 : Nat); (p.1 + t, t)) (fOne, fOne)).1
  if 0 ≤ n then y * 2 ^ n.toNat else y / 2 ^ (-n).toNat

/-- The phase of a swept sine before value k in turns / 2 ^ 32: the sum over i < k of f₀ (f₁ / f₀) ^ (i / N) / rate (R241), from
phase 0 (log 42). -/
def sweepTurns (f0 f1 n rate k : Nat) : Nat :=
  if f0 = f1 then f0 * k * 2 ^ 32 / rate % 2 ^ 32
  else
    let l := fLog f1 f0
    let d := fExp (l / n) - fOne
    ((f0 * 2 ^ 32 : Nat) * (fExp (l * k / n) - fOne) / (d * rate)).toNat % 2 ^ 32

-- ---------------------------------------------------------------- linear systems (R330, R331)

/-- Entry (i, j) of a matrix held as its rows. -/
def mAt (a : List (List Int)) (i j : Nat) : Int := (a.getD i []).getD j 0

def mMul (a b : List (List Int)) : List (List Int) :=
  (List.range 4).map (fun i => (List.range 4).map (fun j =>
    (List.range 4).foldl (fun s k => s + mAt a i k * mAt b k j) 0 / fOne))

def mAdd (a b : List (List Int)) : List (List Int) :=
  (List.range 4).map (fun i => (List.range 4).map (fun j => mAt a i j + mAt b i j))

def mOne : List (List Int) := (List.range 4).map (fun i => (List.range 4).map (fun j => if i = j then fOne else 0))

/-- e ^ (A × num / den) of a 4 × 4 matrix of fractions: a series at 2 ^ -96 of it, squared 96 times. -/
def mExp (a : List (List (Int × Nat))) (num den : Nat) : List (List Int) :=
  let m := a.map (fun r => r.map (fun x => fRat (x.1 * num) (x.2 * den * 2 ^ 96)))
  let e := ((List.range 12).foldl (fun (p : List (List Int) × List (List Int)) i =>
    let t := (mMul p.2 m).map (fun r => r.map (fun x => x / (i + 1 : Nat)))
    (mAdd p.1 t, t)) (mOne, mOne)).1
  (List.range 96).foldl (fun e _ => mMul e e) e

end Sys2Proof.Machine
end

