-- ==== Sys2Proof/Machine/Gates.lean ====
section
/-! DEFINITION. Beam gates and layer windows (14). -/

namespace Sys2Proof.Machine

open Sys2Proof

/-- A gate's report. -/
def gateRep (g bit cls : Nat) : Report := mkRep (srcFold (g / 8)) 1 bit cls 3 g

/-- A gate event in its class (R406): C1 for GATE_LOST and LAYER_TIMEOUT, C0 otherwise. -/
def gateEvent (g bit : Nat) (s : State) : State :=
  raise (gateEvt g) (gateRep g bit (if bit = 2 ∨ bit = 4 then 1 else 0)) s

/-- The lag channel and the bound channels of a gate (R402). -/
def Gate.chans (x : Gate) : List Nat := x.lagChan.toList ++ x.bound

/-- Causes of R401 that hold now; the RUN cause keeps its last judgement. -/
def State.forcedBits (s : State) (g : Nat) : Nat :=
  let x := s.gate g
  b2n (!s.foldOn (g / 8) || (s.fold (g / 8)).ftbLost) +
    2 * b2n (!x.onHeld && x.chans.any (fun c => !(s.chan c).held.isEmpty)) +
    4 * b2n (x.chans.any (fun c => !(s.chan c).armed)) + 8 * fieldN x.forced 3 1

/-- Hold a gate low while any cause of R401 holds, with its pending edges cancelled. -/
def refreshGate (g : Nat) (s : State) : State :=
  let f := s.forcedBits g
  s.updGate g (fun x => if !x.live then x
    else if f = 0 then { x with forced := 0 } else { x with forced := f, level := false, pend := [] })

/-- Judge the causes of every gate. -/
def refreshGates (s : State) : State := each (tkeys s.gates) refreshGate s

/-- A gate goes low at once and loses its pending edges. -/
def gateLow (g : Nat) (s : State) : State := s.updGate g (fun x => { x with level := false, pend := [] })

/-- LAG in effect at a boundary (R399): two loop periods in pt, rounded to nearest, plus TD. -/
def State.lagOf (s : State) (g : Nat) : Nat :=
  match (s.gate g).lagChan with
  | some _ => (2 * s.bell.len256 + 128 * s.m) / (256 * s.m) + (s.gate g).td
  | none => 0

/-- Queue an edge (R400): it cancels pending edges at or after its time, and the older of two. -/
def placeEdge (g : Nat) (e : GEdge) (s : State) : State :=
  let old := (s.gate g).pend
  let kept := old.filter (fun p => decide (p.at_ < e.at_))
  let kept' := if kept.length ≥ 2 then kept.drop 1 else kept
  let cut := old.length - kept'.length
  let s := if cut = 0 then s else gateEvent g 1 (s.addReg (gateCnt g 2) cut)
  s.updGate g (fun x => { x with pend := kept' ++ [e] })

/-- A gate command applied at B(j) (R399): counted, and placed unless the gate is forced low. -/
def gateCommand (g : Nat) (on : Bool) (s : State) : State :=
  let s := s.bump (gateCnt g (if on then 0 else 1))
  let x := s.gate g
  if x.forced != 0 || s.col.c4 then s
  else
    let d := if on then x.delayOn else x.delayOff
    placeEdge g { at_ := s.bell.bPt + 640 + (max 0 ((s.lagOf g : Int) + d)).toNat, level := on } s

/-- A running injection of a channel ends: a single 0 follows at the next boundary (R241, R243). -/
def endInj (i : Nat) (s : State) : State :=
  s.updInj i (fun x => if x.st == 1 then { x with st := 3 } else if x.st == 2 then { x with st := 3, zero := true } else x)

/-- A layer window opens (R402); a running injection of a channel bound to it ends (R243). -/
def openWindow (g : Nat) (s : State) : State :=
  if (s.gate g).open_ then gateEvent g 3 s
  else
    let s := s.updGate g (fun x => { x with open_ := true, openAt := s.bell.bPt })
    each ((s.gate g).chans.filterMap s.injOf) endInj s

/-- A close mark (R402). -/
def closeWindow (g : Nat) (s : State) : State :=
  if (s.gate g).open_ then s.updGate g (fun x => { x with open_ := false }) else gateEvent g 3 s

/-- The event bits of a released or dropped sample act on the gates of its slot (R123, R396). -/
def gateBits (port slot ev : Nat) (s : State) : State :=
  each ((tkeys s.gates).filter (fun g => (s.gate g).live && (s.gate g).port == port && (s.gate g).slot == slot))
    (fun g s =>
      let s := match ev % 4 with
        | 0 => s
        | 1 => gateCommand g true s
        | 2 => gateCommand g false s
        | _ => s
      let s := match ev / 4 % 4 with
        | 1 => openWindow g s
        | 2 => closeWindow g s
        | _ => s
      if ev % 4 = 3 ∨ ev / 4 % 4 = 3 then gateEvent g 0 s else s) s

/-- At a boundary: LAG is recomputed (R399), and a RUN count below GATE_RUN ends that cause (R401). -/
def gatesAtBoundary (s : State) : State :=
  each ((tkeys s.gates).filter (fun g => (s.gate g).live)) (fun g s =>
    let x := s.gate g
    let run := (tget SlotSt.none (s.port x.port).slots x.slot).run
    let s := if run < x.gateRun then liveEnd (fun r => r == gateRep g 2 1) s else s
    refreshGate g (s.setGate g { x with lag := s.lagOf g, forced := if run < x.gateRun then x.forced % 8 else x.forced })) s

/-- GATE_EDGE, at pt `now`: the oldest pending edge is placed on the contact, no sooner than 4 pt before its time (R399). -/
def execGateEdge (g : Fin 64) (now : Nat) (s : State) : Res :=
  .next (s.updGate g.val (fun x => match x.pend with
    | e :: r => if e.at_ ≤ now + 4 then { x with level := e.level && !s.col.c4, pend := r } else x
    | [] => x))

/-- GATE_LOST: the command slot's RUN count is at or above GATE_RUN (R401). -/
def execGateLost (g : Fin 64) (s : State) : Res :=
  let x := s.gate g.val
  let run := (tget SlotSt.none (s.port x.port).slots x.slot).run
  if x.live && decide (x.gateRun ≤ run) && fieldN x.forced 3 1 == 0 then
    .next (holdLive (gateRep g.val 2 1) (gateEvent g.val 2 (refreshGate g.val (s.setGate g.val { x with forced := x.forced + 8 }))))
  else .next s

/-- LAYER_TIMEOUT, at pt `now`: LAYER_MAX seconds have passed since the window opened (R402). -/
def execLayerTimeout (g : Fin 64) (now : Nat) (s : State) : Res :=
  let x := s.gate g.val
  if x.open_ && decide (x.openAt + 1600000000 * x.layerMax ≤ now) then .next (gateEvent g.val 4 (s.updGate g.val (fun x => { x with open_ := false })))
  else .next s

/-- LAYER_STATE_MESSAGE: a module's layer state received on the link (R403), shared from station-ready, or by a late module (R496, R497); the module is told by its
MODULE_ID, `place` its place on the station's line. -/
def execLayerStateMessage (id : BitVec 64) (place : Int) (isOpen : Bool) (s : State) : Res :=
  if s.stn.dstate != 5 && !s.stn.late then .next s
  else
    let l := s.stn.openMods.filter (fun m => m.1 != id)
    .next { s with stn := { s.stn with openMods := if isOpen then l ++ [(id, place)] else l } }

end Sys2Proof.Machine
end

