-- ==== Sys2Proof/Machine/Stop.lean ====
section
/-! DEFINITION. The accounts of a leg, the safe state, and the stop of a channel, a fold or the module
(R53 to R55, R67, R170, R171, R176, R181, R210, R440, R441). -/

namespace Sys2Proof.Machine

open Sys2Proof

-- ---------------------------------------------------------------- events of a terminal

/-- A modulator event, reported when its bit rises (R185). -/
def modEvent (t bit : Nat) (s : State) : State :=
  raiseOnce (modEvt (flockOf t)) (mkRep (srcFlock (flockOf t)) 1 bit 0 2 t) s

/-- A fold event of a terminal or of the fold. -/
def foldEvent (k bit cls okind object : Nat) (s : State) : State :=
  raise (foldEvt k) (mkRep (srcFold k) 0 bit cls okind object) s

-- ---------------------------------------------------------------- accounts (R171, R456)

/-- The volt-second equation of a leg modulo 2 ^ 48, and the bound of its residue by its channel's threshold h (R169, R451). -/
def State.vsOk (s : State) (t : Nat) : Bool :=
  let r := (s.term t).residue
  let bound := match s.ownerOf t with
    | some ch => let h : Int := (s.chan ch).md.dt + (s.chan ch).md.minp; decide (-2 * h < r ∧ r < h)
    | none => true
  bound && s.wideAt (modReg t 0x18) ==
    s.wideAt (modReg t 0x20) + BitVec.ofInt 48 r + s.wideAt (modReg t 0x28) + s.wideAt (vsUnconf t)

/-- The check of the volt-second tally at a renewal (R451, R459). -/
def vsCheck (t : Nat) (s : State) : State :=
  if s.vsOk t then s else talCheck 4 false (s.bump (vsBreak t))

/-- A period emits a pulse, whose edges the readback confirms. -/
def Period.pulses (p : Period) : Bool := p.row == 0 || p.repeated

/-- Credit delivered on-time: to VS_UNCONF where the readback did not confirm the pulse (R171, R456). -/
def creditDel (t : Nat) (p : Period) (d : Int) (s : State) : State :=
  if p.rbFail && p.pulses then (s.addWide (vsUnconf t) d).updTerm t (fun x => { x with credit := 0 })
  else (s.addWide (modReg t 0x20) d).updTerm t (fun x => { x with credit := if p.pulses then d else 0 })

/-- The accounts of the carrier period that ends are renewed (R168, R171, R181). -/
def closePeriod (t : Nat) (s : State) : State :=
  match (s.term t).cur with
  | none => s
  | some p =>
    let s := creditDel t p p.deliv ((s.addWide (modReg t 0x18) p.t).addWide (modReg t 0x28) p.drop)
    vsCheck t (s.updTerm t (fun x => { x with cur := none, residue := p.rNew }))

/-- High time given up to `now` in the period in progress (R210). -/
def Period.given (p : Period) (now : Nat) : Int :=
  clampI 0 (p.cf - p.cr : Nat) ((now : Int) - p.start - p.cr)

/-- The accounts of a leg that enters its safe state inside a carrier period (R210). -/
def closeMid (t now : Nat) (s : State) : State :=
  match (s.term t).cur with
  | none => s
  | some p =>
    let d := p.given now
    let s := creditDel t p d ((s.addWide (modReg t 0x18) p.t).addWide (modReg t 0x28) (p.drop + p.t' - d))
    vsCheck t (s.updTerm t (fun x => { x with cur := none, residue := 0 }))

/-- A leg leaves modulation: its residue is dropped (R170). -/
def dropResidue (t : Nat) (s : State) : State :=
  let r := (s.term t).residue
  if r = 0 then s else vsCheck t ((s.addWide (modReg t 0x28) r).updTerm t (fun x => { x with residue := 0 }))

-- ---------------------------------------------------------------- drive of a leg

/-- Gate events of R161: 0 low side off, 1 high side on, 2 high side off, 3 low side on. -/
def Term.switch (x : Term) (ev : Nat) : Term :=
  match ev with
  | 0 => { x with lo := false }
  | 1 => { x with hi := true }
  | 2 => { x with hi := false }
  | _ => { x with lo := true }

/-- The dead time of a terminal: that of its channel, 1.25 times as long on the fallback oscillator (R161, R212). -/
def State.deadTime (s : State) (t : Nat) : Nat :=
  let dt := match s.ownerOf t with | some ch => (s.chan ch).md.dt | none => ModSet.none.dt
  if (s.fold (foldOf t)).ftbLost then 5 * dt / 4 else dt

/-- The level a drive starts from: 0 both sides off, 1 low, 2 high. -/
def Drive.level : Drive → Nat
  | .off => 0
  | .low => 1
  | .high => 2
  | .pulse _ _ => 1
  | .inverse _ _ => 2

/-- The gate events that a drive commands after its start at pt `a` (R161, R164). -/
def Drive.events (d : Drive) (a dt : Nat) : List (Nat × Nat) :=
  match d with
  | .pulse cr cf => [(0, a + cr), (1, a + cr + dt), (2, a + cf), (3, a + cf + dt)]
  | .inverse cr cf => [(2, a + cr), (3, a + cr + dt), (0, a + cf), (1, a + cf + dt)]
  | _ => []

/-- The gate events that bring a leg to a level at pt `a`; no side turns on before the dead time has passed since a side was last on
(R166, R174). -/
def toLevel (hi lo : Bool) (offAt dt a lvl : Nat) : List (Nat × Nat) :=
  match lvl with
  | 0 => (if hi then [(2, a)] else []) ++ (if lo then [(0, a)] else [])
  | 1 => if lo then [] else if hi then [(2, a), (3, a + dt)] else [(3, max a (offAt + dt))]
  | _ => if hi then [] else if lo then [(0, a), (1, a + dt)] else [(1, max a (offAt + dt))]

/-- The gate states once every commanded event has appeared. -/
def Term.settled (x : Term) : Term := x.edges.foldl (fun y e => y.switch e.ev) x

/-- The edges of a leg that takes a drive at pt `a`: later ones of its old drive are commanded no more (R151). -/
def Term.schedule (x : Term) (d : Drive) (own : Bool) (dt a : Nat) : Term :=
  let kept := x.edges.filter (fun e => decide (e.at_ < a))
  let y := ({ x with edges := kept } : Term).settled
  let offAt := kept.foldl (fun n e => if e.ev = 0 ∨ e.ev = 2 then max n e.at_ else n) x.offAt
  let mk (own : Bool) (l : List (Nat × Nat)) : List Edge := l.map (fun p => { ev := p.1, at_ := p.2, own, per := x.periods })
  { x with edges := kept ++ mk false (toLevel y.hi y.lo offAt dt a d.level) ++ mk own (d.events a dt), offAt }

/-- A leg takes a drive at pt `a`: its gate events are scheduled, and the sides it leaves off from its start are off; a side to be turned
on follows as a gate event (R161, R166, R174). `own` says that a pulse of it is that of the leg's account. -/
def setDrive (t : Nat) (d : Drive) (own : Bool) (a : Nat) (s : State) : State :=
  let x := (s.term t).schedule d own (s.deadTime t) a
  s.setTerm t (match d with
    | .off => { x with drive := d, hi := false, lo := false, tHi := false, tLo := false }
    | .low => { x with drive := d, hi := false }
    | .high => { x with drive := d, lo := false }
    | .pulse _ _ => { x with drive := d, hi := false }
    | .inverse _ _ => { x with drive := d, lo := false })

-- ---------------------------------------------------------------- readback (R149 hop 6, R151)

/-- The terminal that keeps the account of a leg (R171). -/
def State.accountOf (s : State) (t : Nat) : Nat :=
  match s.ownerOf t with
  | some ch => let c := s.chan ch; if c.md.mode = 1 ∨ c.md.mode = 4 then c.adm.first else t
  | none => t

/-- A readback mismatch (R149 hop 6, R150). -/
def readbackMiss (t : Nat) (s : State) : State :=
  let f := flockOf t
  let s := raise (intEvt f) (mkRep (srcFlock f) 0 5 1 2 t) (s.bump (intCnt f 6))
  s.updTerm t (fun x => { x with rbHist := x.rbHist ++ [x.periods] })

/-- The readback did not confirm an edge. Where it is one of a pulse that an account counts, the on-time of that pulse is withheld: from
the renewal to come, or moved to VS_UNCONF where the renewal was made before the edge was due (R171, R456, log 123). -/
def edgeMiss (t : Nat) (e : Edge) (s : State) : State :=
  let s := readbackMiss t s
  let a := s.accountOf t
  let x := s.term a
  let per := (s.term t).periods
  if !e.own then s
  else if e.per = per ∧ x.cur.isSome then s.updTerm a (fun x => { x with cur := x.cur.map (fun q => { q with rbFail := true }) })
  else if per ≤ e.per + 1 ∧ x.credit ≠ 0 then
    vsCheck a (((s.addWide (modReg a 0x20) (-x.credit)).addWide (vsUnconf a) x.credit).updTerm a (fun y => { y with credit := 0 }))
  else s

/-- At a carrier boundary at pt `a` every edge that is 16 pt overdue has not appeared: a mismatch each (R149, R151). A terminal without
power reads nothing back. -/
def missedEdges (t a : Nat) (s : State) : State :=
  let x := s.term t
  let live := s.flockOn (flockOf t) && s.foldOn (foldOf t)
  let lost := x.edges.filter (fun e => decide (e.at_ + 112 < a))
  let s := s.setTerm t { x with edges := if live then x.edges.filter (fun e => decide (a ≤ e.at_ + 112)) else [] }
  if live then forL lost (edgeMiss t) s else s

/-- The drive of a channel's terminals in its safe state (R32, R56, R67, R68). -/
def State.safeDrive (s : State) (ch : Nat) : Drive :=
  let c := s.chan ch
  if !s.flockOn c.flock || !s.foldOn c.foldIx || c.opened then .off
  else if c.safe then .low else .off

/-- Every terminal of a channel enters the safe state inside a carrier period (R208, R210). -/
def enterSafe (ch now : Nat) (s : State) : State :=
  each (s.chan ch).terms (fun t s => setDrive t (s.safeDrive ch) false now (dropResidue t (closeMid t now s))) s

/-- FORCE is cleared on each terminal of a channel that enters its safe state by a fault or trip (R176). -/
def clearForces (ch : Nat) (s : State) : State :=
  each (s.chan ch).terms (fun t s =>
    let x := s.term t
    if x.forceEff = 0 ∧ x.forceQ.getD 0 = 0 then s.updTerm t (fun y => { y with forceQ := none })
    else modEvent t 3 (s.updTerm t (fun y => { y with forceQ := none, forceEff := 0 }))) s

-- ---------------------------------------------------------------- stopping a channel (R53, R55, R142, R238)

/-- What leaving armed does to the counts of R238. -/
def Chan.leaveArmed (c : Chan) : Chan :=
  { c with armPend := false, disarmPend := false, cmdQ := none
           loop := { c.loop with feCount := 0, ovrRun := 0, ovrRunS := 0, first := false }
           lease := { c.lease with miss := 0, ovrA := 0, ovrB := 0, sumA := none, sumB := none } }

/-- Gated changes that are pending or ramping are discarded (R142). -/
def Chan.dropZc (c : Chan) : Chan := { c with zc := { c.zc with pend := [], ramp := none, stopping := false } }

/-- A start is pending. -/
def Chan.starting (c : Chan) : Bool := c.zc.pend.any (fun x => x.kind == .start)

/-- The motor of a channel is IDLE, its commutation in progress abandoned (R386, R393). -/
def motorIdle (ch : Nat) (s : State) : State :=
  match s.motorOf ch with
  | none => s
  | some i =>
    (s.updMotor i (fun m => { m with mstate := 0, posted := false, due := none })).updChan ch
      (fun c => { c with step := 7, stepPend := [] })

/-- A fault of class C2 or higher names a channel: an idle or armed channel is stopped, one already
stopped gains a cause and changes no output (R53, R439), but for a force that would take effect at that boundary (R182). ARM in progress completes with STATE, DISARM
with OK (R55, R313). -/
def stopChannel (ch : Nat) (r : Report) (s : State) : State :=
  let c := s.chan ch
  match c.st with
  | .free | .deleting => s
  | .stopped =>
    let s := s.setChan ch { c with clearPend := false, causes := if c.causes.contains r then c.causes else c.causes ++ [r] }
    let s := s.updChan ch Chan.dropZc
    if c.terms.any (fun t => (s.term t).forceQ.isSome) then clearForces ch s else s
  | _ =>
    let s := s.setChan ch { c.leaveArmed.dropZc with st := .stopped, causes := c.causes ++ [r], held := [] }
    let s := finishObj 0x0602 (1, ch) 0 (finishObj 0x0601 (1, ch) 8 s)
    refreshGates (motorIdle ch (clearForces ch s))

/-- A trip or another stop that acts at once: the safe state inside the period of whatever still switches or is forced, then the
stop (R176, R208, R213). -/
def tripChannel (ch now : Nat) (r : Report) (s : State) : State :=
  if (s.chan ch).live then stopChannel ch r (clearForces ch (enterSafe ch now s)) else s

/-- The effective gain of a channel at rest (R139). -/
def Chan.restGain (c : Chan) : Nat := if !c.audible then 32768 else if c.zc.muted then 0 else c.zc.gain

/-- TRIP_FIRED of group g in each fold (R217): held while a stop it caused there has not been left. -/
def updFired (g : Nat) (s : State) : State :=
  let x := s.trip g
  each (List.range 8) (fun k s =>
    let on := x.firedFolds.contains k || x.fired.any (fun ch => (s.chan ch).foldIx == k)
    if on then s.updReg (tripFired k) (fun w => setBit w g)
    else if x.active then s else s.updReg (tripFired k) (fun w => clrBit w g)) s

/-- A channel has left stopped by CLEAR or deletion (R217). -/
def tripLeft (ch : Nat) (s : State) : State :=
  each (tkeys s.trips) (fun g s =>
    if (s.trip g).fired.contains ch then
      updFired g (s.setTrip g { s.trip g with fired := (s.trip g).fired.filter (fun c => c != ch) })
    else s) s

/-- A channel that CLEAR found free of causes is idle from its next carrier boundary (R54, R306). -/
def clearDone (ch : Nat) (s : State) : State :=
  let c := s.chan ch
  if c.st == .stopped && c.clearPend then
    tripLeft ch (s.setChan ch { c with st := .idle, clearPend := false, causes := [], loop := { c.loop with followErr := false }
                                       zc := { c.zc with unitsMm := false, eff := c.restGain } })
  else s

-- ---------------------------------------------------------------- timer windows (R202, R206)

/-- A blanking window that is past its end at pt `now` has closed by itself (R202, R206). -/
def Trip.blankUntil (x : Trip) (now : Nat) : Trip :=
  if x.blank && decide (x.blankTo ≤ now) then { x with blank := false, blankEnd := some x.blankTo } else x

/-- The filter's timer, of this delay and width, opens a window at pt `now`: it blanks the filter for at most 160 pt, and not where its
event fell within 4 × M pt of the last close; an open window that restarts ends no later than 160 pt after its opening (R202, R206). -/
def Trip.blankOpen (x : Trip) (delay width now : Nat) : Trip :=
  let x := x.blankUntil now
  let opened : Trip := { x with blank := true, blankAt := now, blankTo := now + min width 160 }
  if x.blank then { x with blankTo := min (x.blankAt + 160) (now + width) }
  else
    match x.blankEnd with
    | some e => if now < e + 4 * x.m + delay then x else opened
    | Option.none => opened

/-- The live trip groups that name a timer. -/
def State.tripsOf (s : State) (i : Nat) : List Nat := (tkeys s.trips).filter (fun g => (s.trip g).live && (s.trip g).timer == some i)

/-- A motor object names the timer (R375). -/
def State.motorTimer (s : State) (i : Nat) : Bool := (tkeys s.motors).any (fun m => (s.motor m).live && (s.motor m).timer == i)

/-- A window of the timer is open at pt `now` (R202). -/
def Timer.isOpen (x : Timer) (now : Nat) : Bool := x.open_ && decide (now < x.openAt + x.width)

/-- A window of a timer opens at pt `now`; inside an open window only that of a retriggering timer restarts (R202). It blanks the filters
that name the timer (R206). -/
def openTimer (i now : Nat) (s : State) : State :=
  let x := s.timer i
  if x.isOpen now && !x.retrig then s
  else each (s.tripsOf i) (fun g s => s.setTrip g ((s.trip g).blankOpen x.delay x.width now)) (s.setTimer i { s.timer i with open_ := true, openAt := now })

-- ---------------------------------------------------------------- stopping a fold (R440)

/-- FOLD_STOP is set with its cause. -/
def markFold (k : Nat) (r : Report) (s : State) : State :=
  s.updFold k (fun f => { f with stopped := true, causes := if f.causes.contains r then f.causes else f.causes ++ [r] })

/-- Every channel of a fold is tripped at once, and the fold is stopped (R204, R440). -/
def tripFold (k now : Nat) (r : Report) (s : State) : State :=
  let s := markFold k r s
  each (s.chansOfFold k) (fun ch s => tripChannel ch now r s) s

-- ---------------------------------------------------------------- stopping the module (R313, R441)

/-- A capture stops: what is formed is still written (R244, R441). -/
def haltCap (i : Nat) (s : State) : State :=
  s.updCap i (fun x => if x.st == 1 || x.st == 2 then { x with st := 3 } else x)

/-- Commands accepted and waiting as deferred actions. -/
def dropDeferred (s : State) : State :=
  let l := s.svc.defer
  let s := s.updSvc (fun v => { v with defer := [] })
  l.foldl (fun s d => match d with
    | .command e _ silent => if silent then s else complete e 8 0 0 0 0 s
    | _ => s) s

/-- The fixed C4 path: every channel safe, every gate low, captures and injections stopped, every command in
progress but a CHAN.DEL ended with STATE (R313, R441). -/
def moduleStop (st : Stamped) (now : Nat) (s : State) : State :=
  let s := s.updCol (fun c => { c with c4 := true, c4rec := if c.c4 then c.c4rec else some st })
  let s := dropDeferred (finishWhere (fun x => opcodeOf x.entry != 0x0102) 8 (fun _ => 0) s)
  let s := each s.liveChans (fun ch s => tripChannel ch now st.rep s) s
  let s := each (tkeys s.gates) gateLow s
  each (tkeys s.injs) endInj (each (tkeys s.caps) haltCap s)

end Sys2Proof.Machine
end

