-- ==== Sys2Proof/Machine/Collector.lean ====
section
/-! DEFINITION. The fault collector: intake, reactions, records (16). -/

namespace Sys2Proof.Machine

open Sys2Proof

/-- A cause whose C2 is held while its channel is bound to an open layer (R405). -/
def heldCause (r : Report) : Bool :=
  let sel := r.cause / 16
  let b := r.cause % 16
  if 0xD0 ≤ r.source ∧ r.source < 0xE0 then sel == 0 && (b == 5 || b == 6 || b == 7)
  else if 0xA0 ≤ r.source ∧ r.source < 0xC0 then
    match sel with
    | 0 => true
    | 2 => b == 2
    | 3 => b == 1 || b == 2 || b == 4
    | 5 => b == 2 || b == 3 || b == 4
    | _ => false
  else if 0xC0 ≤ r.source ∧ r.source < 0xC8 then sel == 0 && b == 14
  else false

/-- Dispatch a C2 reaction on its channel (R405, R439). -/
def dispatchC2 (r : Report) (s : State) : State :=
  let c := s.chan r.object
  match c.st with
  | .idle | .armed =>
    if s.layerOf r.object && heldCause r then
      refreshGates (s.setChan r.object { c with held := if c.held.contains r then c.held else c.held ++ [r] })
    else s.updCol (fun k => { k with reacts := k.reacts ++ [{ chan := r.object, rep := r }] })
  | .stopped => stopChannel r.object r s
  | _ => s

/-- Folds that a C3 report stops: its own, or every fold for a station report (R442). -/
def foldsOf (r : Report) : List Nat :=
  if 0xC0 ≤ r.source ∧ r.source < 0xD0 then [r.source % 8]
  else if r.source = srcStn then List.range 8
  else []

/-- Dispatch a C3 reaction: FOLD_STOP now, each channel at its carrier boundary (R439). -/
def dispatchC3 (r : Report) (s : State) : State :=
  each (foldsOf r) (fun k s =>
    let s := markFold k r s
    each (s.chansOfFold k) (fun ch s =>
      match (s.chan ch).st with
      | .idle | .armed => s.updCol (fun c => { c with reacts := c.reacts ++ [{ chan := ch, rep := r }] })
      | _ => stopChannel ch r s) s) s

/-- Latch a report at its task input with its stamp and dispatch its reaction (R437, R438). `now` is the pt at
which a C4 acts. -/
def latchReport (r : Report) (delayed : Bool) (now : Nat) (s : State) : State :=
  let st := s.stamp r delayed
  let s := s.updCol (fun c => { c with intake := c.intake ++ [st], gone := c.gone.erase r })
  match r.cls with
  | 0 | 1 => s
  | 2 => if r.okind = 1 then dispatchC2 r s else s
  | 3 => dispatchC3 r s
  | _ => moduleStop st now s

/-- The order in which causes of one source are served (R437). -/
def servedBefore (a b : Report) : Bool :=
  decide (a.cause < b.cause) || (a.cause == b.cause && decide (a.object ≤ b.object))

/-- The least of the queued reports that `p` admits. -/
def leastReport (l : List Report) (p : Report → Bool) : Option Report :=
  (l.filter p).foldl (fun m r => match m with
    | none => some r
    | some x => if servedBefore x r then some x else some r) none

/-- ERROR_REPORT: a source's error pair changes to report (R437). A source whose domain is off by command is
ignored (R436); a broken one is read only by the poll (R435). -/
def execErrorReport (source : BitVec 8) (now : Nat) (s : State) : Res :=
  let i := source.toNat
  if s.col.unwatched.contains i then
    .next (s.updCol (fun c => { c with
      srcQ := c.srcQ.filter (fun r => r.source != i), gone := c.gone.filter (fun r => r.source != i) }))
  else if s.col.broken.contains i then .next s
  else
    match leastReport s.col.srcQ (fun r => r.source == i) with
    | none => .next s
    | some r => .next (latchReport r false now (s.updCol (fun c => { c with srcQ := c.srcQ.erase r })))

/-- BROKEN_SOURCE_POLL: every 256 cc the reports of broken sources are taken from their event registers
(R435). -/
def execBrokenSourcePoll (now : Nat) (s : State) : Res :=
  let l := s.col.srcQ.filter (fun r => s.col.broken.contains r.source)
  let s := s.updCol (fun c => { c with srcQ := c.srcQ.filter (fun r => !c.broken.contains r.source) })
  .next (forL l (fun r s => latchReport r false now s) s)

/-- DEBUG.RESP completes, and the module is unlocked, when no channel's stop for it is outstanding (R310, R477). -/
def debugDone (s : State) : State :=
  if s.col.reacts.any (fun x => x.rep.cause == 0xF2) || s.svc.inProg.all (fun x => opcodeOf x.entry != 0x0905) then s
  else finishWhere (fun x => opcodeOf x.entry == 0x0905) 0 (·.result) (secEvent 4 (s.updSec (fun x => { x with unlocked := true })))

/-- FAULT_REACTION_APPLY: a dispatched stop takes effect at the channel's carrier boundary (R439). -/
def execFaultReactionApply (ch : Fin 512) (s : State) : Res :=
  let l := s.col.reacts.filter (fun x => x.chan == ch.val)
  let s := s.updCol (fun c => { c with reacts := c.reacts.filter (fun x => x.chan != ch.val) })
  .next (debugDone (forL l (fun x s => stopChannel ch.val x.rep s) s))

/-- HELD_FAULT_TAKE_EFFECT: at a carrier boundary after its window closed a channel's held faults act, unless
it is stopped by then (R405). -/
def execHeldFaultTakeEffect (ch : Fin 512) (s : State) : Res :=
  let c := s.chan ch.val
  if c.held.isEmpty || s.layerOf ch.val then .next s
  else
    let s := s.setChan ch.val { c with held := [] }
    match c.st with
    | .idle | .armed => .next (refreshGates (forL c.held (fun r s => stopChannel ch.val r s) s))
    | _ => .next (refreshGates s)

-- ---------------------------------------------------------------- records (R443 to R446)

/-- The fault report tally (R451). -/
def State.faultTallyOk (s : State) : Bool :=
  [0, 1, 2, 3, 4].all (fun c => s.reg (clsCnt c 0) == s.reg (clsCnt c 1) + s.reg (clsCnt c 2)) &&
    s.reg (clsCnt 0 1) + s.reg (clsCnt 1 1) + s.reg (clsCnt 2 1) + s.reg (clsCnt 3 1) + s.reg (clsCnt 4 1) == s.reg fltWr

/-- Merge into an equal unfrozen unread record, overflow, or write a record (R444 to R446). -/
def recordOne (x : Stamped) (s : State) : State :=
  let c := x.rep.cls
  let s := s.bump (clsCnt c 0)
  let s :=
    match s.unread.find? (fun n => (s.recOf n).st.rep == x.rep && !(s.recOf n).frozen) with
    | some n => (s.bump (clsCnt c 2)).setRec n { s.recOf n with
        merged := min 0xFFFF ((s.recOf n).merged + 1), cleared := (s.recOf n).cleared || x.ended }
    | none =>
      if s.fill ≥ 1024 then setEvt fltEvt 5 ((s.bump (clsCnt c 2)).bump (clsCnt c 3))
      else
        let n := (s.reg fltWr).toNat
        setEvt fltEvt c (((s.bump (clsCnt c 1)).setRec n { st := x, merged := 0, cleared := x.ended, frozen := false }).bump fltWr)
  talCheck 5 s.faultTallyOk s

/-- The task input served next and the report it serves (R437). -/
def State.nextIntake (s : State) : Option (Nat × Stamped) :=
  let cand (k : Nat) : Option Stamped :=
    (s.col.intake.filter (fun x => x.rep.source / 32 == k)).foldl (fun m x => match m with
      | none => some x
      | some y => if y.rep.source < x.rep.source ∨ (y.rep.source = x.rep.source ∧ servedBefore y.rep x.rep) then some y else some x) none
  ((List.range 8).map (fun i => (s.col.turn + i) % 8)).findSome? (fun k => (cand k).map (fun x => (k, x)))

/-- RECORD_WRITE: the collector serves one report (R437). -/
def execRecordWrite (s : State) : Res :=
  match s.nextIntake with
  | none => .next s
  | some (k, x) =>
    .next (recordOne x (s.updCol (fun c => { c with intake := c.intake.erase x, turn := (k + 1) % 8 })))

/-- CAUSE_CONDITION_END (R447). -/
def execCauseConditionEnd (source cause : BitVec 8) (okind : BitVec 2) (object : BitVec 11) (s : State) : Res :=
  .next (condEnd (fun r => r.source == source.toNat && r.cause == cause.toNat && r.okind == okind.toNat &&
    r.object == object.toNat) s)

/-- STATION_C4_RECEIVED: STN_C4 by STN_REACT, once for each module while it can be reached (R442, R495); the module is told by its MODULE_ID,
`place` its place on the station's line. -/
def execStationC4Received (id : BitVec 64) (place : Int) (s : State) : Res :=
  let l := s.stn.c4Mods.filter (fun m => m.1 != id)
  let s' := { s with stn := { s.stn with c4Mods := l ++ [(id, place)], stnFault := true } }
  if s.stn.c4Mods.any (fun m => m.1 == id) then .next s'
  else
    let s := s'
    .next (raiseOwn srcStn 4 (if bitOf (s.reg fltCtrl) 0 then 3 else 1) 0 0 s)

/-- FLT_RD_WRITE: releases records, or is ignored (R444). -/
def execFltRdWrite (v : W) (s : State) : Res :=
  if (v - s.reg fltRd).toNat ≤ s.fill then .next (s.setReg fltRd v) else .next (setEvt fltEvt 6 s)

/-- The words of a record (R443). -/
def Rec.word (x : Rec) (i : Nat) : W :=
  let r := x.st.rep
  match i with
  | 0 => BitVec.ofNat 32 (r.source * 2 ^ 24 + r.cause % 256 * 2 ^ 16 + r.cls % 8 * 2 ^ 13 + r.okind % 4 * 2 ^ 11 + r.object % 2048)
  | 1 => x.st.seconds
  | 2 => x.st.frame
  | _ => BitVec.ofNat 32 (x.merged % 65536 * 2 ^ 16 + b2n x.cleared * 2 ^ 15 + b2n x.st.delayed * 2 ^ 14 + x.st.frac % 2 ^ 14)

/-- RECORD_FREEZE_READ: a read of word 3 of an unread record freezes it (R444). -/
def execRecordFreezeRead (i : Fin 1024) (s : State) : Res :=
  let s' := { s with host := { s.host with readResp := some (leBytes 4 ((s.recOf i.val).word 3).toNat) } }
  if (s.unread.map (· % 1024)).contains i.val then .next (s'.setRec i.val { s.recOf i.val with frozen := true })
  else .next s'

/-- The module status word (R450). -/
def State.statusWord (s : State) : Nat :=
  let set (r : Report) := (evtRegs r.source (r.cause / 16)).any (fun a => bitOf (s.reg a) (r.cause % 16)) || r.cause / 16 == 15
  let top := s.col.latched.foldl (fun m r => if set r ∧ (m = 7 ∨ m < r.cls) then r.cls else m) 7
  b2n s.col.c4 * 2 ^ 23 + b2n s.stn.stnFault * 2 ^ 22 + top * 2 ^ 19 + b2n s.modOpen * 2 ^ 18 +
    sumL (List.range 8) (fun k => b2n (s.fold k).stopped * 2 ^ (10 + k)) +
    min 1023 (s.liveChans.filter (fun c => (s.chan c).st == .stopped)).length

end Sys2Proof.Machine
end

