-- ==== Sys2Proof/Machine/Flags.lean ====
section
/-! DEFINITION. Iatia-L arithmetic: saturation, rounding, the flags word, condition codes, and the run signature
(09 R251 to R253, R259, R264, R276; 08 R221 to R223). -/

namespace Sys2Proof.Machine

open Sys2Proof

/-- Saturate to a signed width: the value and whether it saturated. -/
def satTo (w : Nat) (x : Int) : Int × Bool :=
  let hi : Int := 2 ^ (w - 1) - 1
  let lo : Int := -(2 ^ (w - 1))
  (max lo (min hi x), decide (hi < x) || decide (x < lo))

/-- sat16 of R260. -/
def sat16 (x : Int) : Int × Bool := satTo 16 x
def sat32 (x : Int) : Int × Bool := satTo 32 x

/-- sat of R260: the limits of Q9.31 in the 40-bit register. -/
def sat40 (x : Int) : Int × Bool := satTo 40 x

/-- x / 2 ^ n to nearest, ties away from zero (R222, R264). -/
def rshift (x : Int) (n : Nat) : Int := roundDiv x (2 ^ n : Nat)

/-- Exact product of two Q1.15 values as Q9.31 (R221). -/
def mulQ (a b : Int) : Int := 2 * (a * b)

/-- The gain product xa ⊗ xb with shift xc[3:0] (R223, R264). -/
def gainProduct (m x : Int) (sh : Nat) : Int × Bool := sat40 (mulQ m x * (2 ^ (sh % 16) : Nat))

/-- ESH as it acts (R261). -/
def eshOf (n : Nat) : Nat := min 8 n

/-- The error of ERR: the word e32, the result and whether either saturation acted (R261). -/
def errOf (a b : Int) (esh : Nat) : Int × Int × Bool :=
  let (x, s1) := sat32 a
  let (y, s2) := sat32 b
  let (e32, s3) := sat32 (x - y)
  let (d, s4) := sat16 (rshift e32 (8 - eshOf esh))
  (e32, d, s1 || s2 || s3 || s4)

/-- DIV (R263): the quotient, V, and DZ. -/
def divOf (a x : Int) : Int × Bool × Bool :=
  if x = 0 then ((if 0 ≤ a then 32767 else -32768), true, true)
  else
    let (q, v) := sat16 (if x < 0 then roundDiv (-a) (-(2 * x)) else roundDiv a (2 * x))
    (q, v, false)

/-- CLPA (R264). -/
def clpaOf (a x : Int) : Int × Bool :=
  let l := absI x * 65536
  (min (max a (-l)) l, decide (a < -l) || decide (l < a))

-- ---------------------------------------------------------------- flags (R252, R253)

/-- The flags word. -/
def Run.flags (r : Run) : BitVec 16 :=
  BitVec.ofNat 16 (b2n r.dz * 16 + b2n r.sat * 8 + b2n r.v * 4 + b2n r.n * 2 + b2n r.z)

/-- A write of V: V = 1 also sets SAT. -/
def Run.setV (r : Run) (b : Bool) : Run := { r with v := b, sat := r.sat || b }

/-- A write of V by CLPA, which sets no SAT. -/
def Run.setVOnly (r : Run) (b : Bool) : Run := { r with v := b }

/-- Z and N from the exact difference. -/
def Run.compare (r : Run) (d : Int) : Run := { r with z := decide (d = 0), n := decide (d < 0) }

/-- Condition codes of R259; the reserved codes are refused at load. -/
def Run.cond (r : Run) (c : Nat) : Bool :=
  match c with
  | 0 => true
  | 1 => r.z
  | 2 => !r.z
  | 3 => r.n
  | 4 => !r.n
  | 5 => !r.n && !r.z
  | 6 => r.n || r.z
  | 7 => r.sat
  | 8 => !r.sat
  | 9 => r.v
  | 10 => r.dz
  | _ => false

-- ---------------------------------------------------------------- signature (R276)

/-- Bits of the bytes of a number, each byte least significant bit first (log 32). -/
def actBits (code addr val : Nat) : List Bool := bitsOf 8 code ++ bitsOf 16 addr ++ bitsOf 32 val

/-- One act enters the run signature. -/
def Run.act (r : Run) (code addr val : Nat) : Run :=
  { r with sig := BitVec.ofNat 32 (crc 32 0x04C11DB7 r.sig.toNat (actBits code addr val)) }

end Sys2Proof.Machine
end

