-- ==== Sys2Proof/Machine/Pens.lean ====
section
/-! DEFINITION. Pens and segments of a terminal: roles, counts, ratings, substitution (07 R186 to R201). -/

namespace Sys2Proof.Machine

open Sys2Proof

/-- Roles of PEN_ROLE (R217). -/
def inService : Nat := 0
def spare : Nat := 1
def underTest : Nat := 2
def retired : Nat := 3

def State.penRole (s : State) (t p : Nat) : Nat := s.regField (psReg t 0x08) (2 * p) 2
def setRole (t p r : Nat) (s : State) : State := s.setField (psReg t 0x08) (2 * p) 2 r
def State.healthyMap (s : State) (t p : Nat) : Nat := s.regField (segmap t p) 0 16
def State.segHealthy (s : State) (t p g : Nat) : Bool := fieldN (s.healthyMap t p) g 1 == 1

/-- Healthy segments of a pen. -/
def State.healthy (s : State) (t p : Nat) : Nat := sumL (List.range 16) (fun g => fieldN (s.healthyMap t p) g 1)

/-- PS_STAT fields (R217). -/
def State.substSt (s : State) (t : Nat) : Nat := s.regField (psReg t 0x04) 4 2
def State.penIn (s : State) (t : Nat) : Nat := s.regField (psReg t 0x04) 12 4
def State.penOut (s : State) (t : Nat) : Nat := s.regField (psReg t 0x04) 8 4
def State.nseg (s : State) (t : Nat) : Nat := s.regField (psReg t 0x04) 16 9
def setSubst (t v : Nat) (s : State) : State := s.setField (psReg t 0x04) 4 2 v

/-- Derated ratings of R188. The resistance of a terminal with no segment in service reads 0 (the model's choice, log 164). -/
def State.icont (s : State) (t : Nat) : Nat := 10000 * s.nseg t / 224
def State.ipeak (s : State) (t : Nat) : Nat := 20000 * s.nseg t / 224
def State.resUohm (s : State) (t : Nat) : Nat := if s.nseg t = 0 then 0 else (5600000 + s.nseg t - 1) / s.nseg t

/-- Segments move between two of the four counts of their fold, and the tally is checked (R187, R451). -/
def segMove (t from_ to_ n : Nat) (s : State) : State :=
  let k := foldOf t
  let s := (s.updReg (segTally k from_) (fun w => w - BitVec.ofNat 32 n)).addReg (segTally k to_) n
  talCheck 2 (s.reg (segTally k 0) + s.reg (segTally k 1) + s.reg (segTally k 2) + s.reg (segTally k 3) == 16384) s

/-- A pen takes a role, its healthy segments with it. -/
def movePen (t p r : Nat) (s : State) : State :=
  let old := s.penRole t p
  if old = r then s else segMove t old r (s.healthy t p) (setRole t p r s)

/-- A segment is isolated and retired (R194 steps 3 and 4). -/
def isolate (t p g : Nat) (s : State) : State :=
  if !s.segHealthy t p g then s
  else
    let s := s.updReg (segmap t p) (fun w => clrBit w g)
    let s := if s.penRole t p = retired then s else segMove t (s.penRole t p) retired 1 s
    s.bump (psReg t 0x24)

/-- Segments (pen, segment) of one terminal are isolated together: one ISOLATED, class C1 (R194 step 4). -/
def isolateAll (t : Nat) (l : List (Nat × Nat)) (s : State) : State :=
  let u := forL l (fun e s => isolate t e.1 e.2 s) s
  if l.any (fun e => s.segHealthy t e.1 e.2) then foldEvent (foldOf t) 1 1 2 t u else u

/-- A fold supervisor serves a fold at pt `t`: its own pair, or the neighbour that serves both and has taken over (R426). -/
def State.foldServed (s : State) (k t : Nat) : Bool :=
  let x := s.fsPair k
  x.st == 0 || x.st == 1 || ((s.fsPair (k ^^^ 1)).st == 1 && decide (x.till ≤ t))

/-- The reports of DERATED and TERM_WORN (R189). -/
def deratedRep (t : Nat) : Report := mkRep (srcFold (foldOf t)) 0 5 1 2 t
def wornRep (t ch : Nat) : Report := mkRep (srcFold (foldOf t)) 0 14 2 1 ch

/-- NSEG and what follows from it (R188, R189): the overcurrent threshold, DERATED and TERM_WORN. -/
def nsegRecompute (t : Nat) (s : State) : State :=
  let overlap := s.substSt t == 2
  let n := sumL (List.range 16) (fun p =>
    if s.penRole t p = inService ∧ ¬ (overlap ∧ s.penIn t = p) then s.healthy t p else 0)
  if n = s.nseg t then s
  else
    let s := s.setField (psReg t 0x04) 16 9 n
    let k := foldOf t
    let wornWas := bitOf (s.reg (psReg t 0x04)) 3
    let s := s.setField (psReg t 0x04) 3 1 (b2n (decide (n < 112)))
    match s.ownerOf t with
    | none => s
    | some ch =>
      let a := (s.chan ch).adm
      let s := s.setReg (psReg t 0x1C) (BitVec.ofNat 32 (min a.ipk (s.ipeak t)))
      let derWas := bitOf (s.reg (psReg t 0x04)) 2
      let der := decide (s.icont t < a.irms)
      let s := s.setField (psReg t 0x04) 2 1 (b2n der)
      let dr := deratedRep t
      let s := if !der then liveEnd (fun r => r == dr) s else if derWas then s else holdLive dr (foldEvent k 5 1 2 t s)
      let wr := wornRep t ch
      if 112 ≤ n then liveEnd (fun r => r == wr) s else if wornWas then s else holdLive wr (foldEvent k 14 2 1 ch s)

/-- Choose the incoming pen for a wanted one (R197): the first spare that passed its last self-test within 2 s and
is not under built-in self-test; a self-test in progress on it is abandoned. With none, NO_SPARE. -/
def choosePen (t wanted : Nat) (s : State) : State :=
  let x := s.term t
  let recent (p : Nat) : Bool :=
    x.passed.any (fun e => e.1 == p && decide (s.bell.frame.toNat ≤ e.2 + 2 * s.frate))
  let cand := (List.range 16).find? (fun p =>
    (s.penRole t p == spare || (s.penRole t p == underTest && x.selfTest == some p)) && recent p && !x.underBist.contains p)
  match cand with
  | some p =>
    let s := if x.selfTest = some p then movePen t p spare (s.updTerm t (fun y => { y with selfTest := none })) else s
    setSubst t 1 ((s.setField (psReg t 0x04) 12 4 p).setField (psReg t 0x04) 8 4 wanted)
  | none =>
    let s := foldEvent (foldOf t) 4 1 2 t (setSubst t 3 (s.setField (psReg t 0x04) 8 4 wanted))
    s.updTerm t (fun x => { x with retire := x.retire ++ [wanted] })

/-- A wanted pen with no spare retires at the next carrier boundary, at pt `at_`, or at the first after a takeover (R197, R198, R426). -/
def retirePending (t at_ : Nat) (s : State) : State :=
  match (s.term t).retire with
  | [] => s
  | l =>
    if !s.foldServed (foldOf t) at_ then s else nsegRecompute t (each l (fun p s => movePen t p retired s) (s.updTerm t (fun x => { x with retire := [] })))

/-- The samples of a terminal's current converter (R192): the replica's share of one segment, in 1/256 of a step, times the segments
that carry the current. -/
def State.senseScale (s : State) (t : Nat) : Nat := s.nseg t + (if s.substSt t = 2 then 16 else 0)
def State.currentSample (s : State) (t : Nat) (share : Int) : BitVec 16 :=
  BitVec.ofInt 16 (satTo 16 (roundDiv (share * s.senseScale t) 256)).1

/-- The next pen in service below 12 healthy segments is substituted, one at a time (R197, R201). -/
def nextSubst (t : Nat) (s : State) : State :=
  if s.substSt t = 1 ∨ s.substSt t = 2 then s
  else
    match (List.range 16).find? (fun p =>
      s.penRole t p == inService && decide (s.healthy t p < 12) && !(s.term t).retire.contains p) with
    | some p => choosePen t p s
    | none => s

/-- Every pen that has fallen below 12, where no spare is left each at once. -/
def substAll (t : Nat) (s : State) : State := each (List.range 16) (fun _ s => nextSubst t s) s

/-- The lead pens of a slew setting: all in service at 0, else the lowest-numbered (R190). -/
def State.leadPens (s : State) (t slew : Nat) : List Nat :=
  let l := (List.range 16).filter (fun p => s.penRole t p == inService)
  if slew = 0 then l else l.take slew

/-- At a carrier boundary the lead set is formed, but for an overlap, in which it stays (R190). -/
def formLeads (t slew : Nat) (s : State) : State :=
  if s.substSt t = 2 then s else s.updTerm t (fun x => { x with leads := s.leadPens t slew })

/-- The incoming pen in overlap takes the role, lead or trailing, of the pen it replaces (R190). -/
def leadIncoming (t : Nat) (s : State) : State :=
  s.updTerm t (fun x => { x with leads := if x.leads.contains (s.penOut t) then x.leads ++ [s.penIn t] else x.leads })

end Sys2Proof.Machine
end

