-- ==== Sys2Proof/Machine/Modulator.lean ====
section
/-! DEFINITION. The modulator: carrier boundaries, compares, accounts, staged settings, forces (06). -/

namespace Sys2Proof.Machine

open Sys2Proof

-- ---------------------------------------------------------------- carrier periods (R156, R172)

/-- Carrier periods of a loop period of a channel. -/
def Chan.k (c : Chan) : Nat := 2 ^ c.md.kLog2

/-- One step of the register of x¹⁶ + x¹⁴ + x¹³ + x¹¹ + 1, in the form that shifts right (log 21). -/
def lfsrStep (v : BitVec 16) : BitVec 16 :=
  let b := ((v.getLsbD 0 != v.getLsbD 2) != v.getLsbD 3) != v.getLsbD 5
  (v >>> 1) ||| (if b then 0x8000 else 0)

/-- Start (absolute pt) and length of carrier period n of a channel, before spread (R39, R156). -/
def State.nominalPeriod (s : State) (ch n : Nat) : Nat × Nat :=
  let cnt := s.m * (s.chan ch).k
  (s.bell.bPt + s.place cnt n, s.place cnt (n + 1) - s.place cnt n)

/-- Start and length of carrier period n with spread, and the register's new value and shift (R172). -/
def State.spreadPeriod (s : State) (ch n : Nat) : Nat × Nat × BitVec 16 × Nat :=
  let c := s.chan ch
  let (st, pn) := s.nominalPeriod ch n
  if c.md.spread = 0 ∨ c.k = 1 then (st, pn, c.lfsr, 0)
  else if n % 2 = 0 then
    let u := lfsrStep c.lfsr
    let x := u.toNat * c.md.spread * pn / 6553600
    (st, pn + x, u, x)
  else (st + c.xSpread, pn - c.xSpread, c.lfsr, c.xSpread)

-- ---------------------------------------------------------------- the command in effect (R158, R159, R27)

/-- The number of the loop period that starts at loop boundary l of the present frame (R61, R219). -/
def State.loopIndex (s : State) (l : Nat) : Nat := s.bell.frame.toNat * s.m + l

/-- Whether a channel's loop runs in loop period i (R219). -/
def Chan.dueAt (c : Chan) (i : Nat) : Bool := i % 2 ^ c.adm.divLog2 == c.adm.phase

/-- The command that a motor's state puts in place of the loop's (R388). -/
def State.motorCmd (s : State) (ch : Nat) : Option Int :=
  match s.motorOf ch with
  | none => none
  | some i =>
    let m := s.motor i
    match m.mstate with
    | 1 => some m.alignCmd
    | 2 => some m.rampCmd
    | 3 => none
    | _ => some 0

/-- The loop's OUT is discarded (R388). -/
def State.discardsOut (s : State) (ch : Nat) : Bool :=
  match s.motorOf ch with
  | none => false
  | some i => [1, 2, 4, 5].contains (s.motor i).mstate

/-- The sine of a tone of frequency num / den Hz at the k-th loop boundary of its pass, times 2 ^ 60 (R361). -/
def toneSine (rate k : Nat) (x : Nat × Nat × Nat) : Int :=
  let ph := if rate * x.2.2 = 0 then 0 else x.2.1 * k * 2 ^ 32 / (x.2.2 * rate)
  sineTurns (ph % 2 ^ 32)

/-- The excitation value of a channel (R361): each tone has AMP / (number of tones). -/
def State.excitation (s : State) (c : Chan) : Int :=
  match c.tones with
  | [] => 0
  | l => roundDiv (l.foldl (fun n x => n + (x.1 : Int) * toneSine (s.frate * s.m) c.excK x) 0) (l.length * 2 ^ 60 : Nat)

/-- COMMAND_APPLY and CLAMP_APPLY at a loop boundary: the command of the run latched one loop period ago, while the
queue holds one (R158, R220, log 31). `late` says that the queued clamp reached the queue less
than 64 cc ago and waits (R27, R182). -/
def applyCommand (ch : Nat) (late : Bool) (s : State) : State :=
  let discard := s.discardsOut ch
  s.updChan ch (fun c =>
    let clamp := if late then c.clamp else (match c.clampQ with | some q => some q | none => c.clamp)
    let clampQ := if late then c.clampQ else none
    let held := if c.armed && !discard then c.cmdQ.getD c.cmd else c.cmd
    let raw := (s.motorCmd ch).getD held + s.excitation c
    let (hi, lo) := clamp.getD (0, 0)
    let x := max lo (min hi raw)
    { c with clamp, clampQ, cmd := held, cmdQ := none, excK := if c.tones.isEmpty then 0 else c.excK + 1
             applied := x
             mon := { c.mon with acc := { c.mon.acc with cmdN := c.mon.acc.cmdN + 1, cmdSum := c.mon.acc.cmdSum + (absI x).toNat } }
             clp := b2n (decide (hi < raw)) * 2 + b2n (decide (raw < lo)) })

-- ---------------------------------------------------------------- compares (R160, R164, R168)

/-- On-time of a duty num / den over P, rounded to nearest (R164). -/
def onTime (num den p : Nat) : Int := ((2 * num * p + den) / (2 * den) : Nat)

/-- Treatment of the requested on-time (R168), and the compares of a pulse (R160). -/
def treat (start p h : Nat) (t r : Int) : Period :=
  let t' := t + r
  let pI : Int := p
  let low (row : Nat) : Period :=
    { start, p, t, t', deliv := 0, drop := 0, rNew := t', row, cr := 0, cf := 0, repeated := false, rbFail := false }
  let high (row : Nat) : Period :=
    { start, p, t, t', deliv := pI, drop := 0, rNew := t' - pI, row, cr := 0, cf := p, repeated := false, rbFail := false }
  if t' ≤ 0 then low 1
  else if pI ≤ t' then high 1
  else if t' < h then low 2
  else if pI - 2 * h < t' then high 2
  else
    let cr := ((pI - t') / 2).toNat
    { start, p, t, t', deliv := t', drop := 0, rNew := 0, row := 0, cr, cf := cr + t'.toNat, repeated := false, rbFail := false }

/-- The leg of a period was held high in it. -/
def Period.heldHigh (q : Period) : Bool := decide (q.cr = 0) && decide (q.cf = q.p) && q.row != 0

/-- What the leg held in the previous period repeated (R181, row 5): high, a pulse with its compares cut to P − 1, else low. A leg that had
both sides off in it is held low (the model's choice, log 162). -/
def repeatPeriod (prev : Drive) (start p : Nat) (t r : Int) : Period :=
  let mk (cr cf : Nat) : Period :=
    let t' : Int := (cf : Int) - cr
    { start, p, t, t', deliv := t', drop := t + r - t', rNew := 0, row := 3, cr, cf, repeated := true, rbFail := false }
  match prev with
  | .high => mk 0 p
  | .pulse cr cf => mk (min cr (p - 1)) (min cf (p - 1))
  | _ => mk 0 0

/-- Threshold h of a channel (R167). -/
def Chan.hThr (c : Chan) : Nat := c.md.dt + c.md.minp

/-- The drive that a period's outcome gives a leg. -/
def Period.drive (q : Period) : Drive :=
  if q.cf = q.cr then .low else if q.cf = q.p ∧ q.cr = 0 then .high else .pulse q.cr q.cf

/-- The drive of leg B in mode 1, the complement of leg A's duty (R164). -/
def Period.inverse (q : Period) : Drive :=
  if q.cf = q.cr then .high else if q.cf = q.p ∧ q.cr = 0 then .low else .inverse q.cr q.cf

/-- What a leg held in the previous period, with its compares cut to P − 1 (R181, row 5). -/
def Drive.again (d : Drive) (p : Nat) : Drive :=
  match d with
  | .high => .high
  | .pulse cr cf => if min cf (p - 1) = min cr (p - 1) then .low else .pulse (min cr (p - 1)) (min cf (p - 1))
  | .inverse cr cf => if min cf (p - 1) = min cr (p - 1) then .high else .inverse (min cr (p - 1)) (min cf (p - 1))
  | _ => .low

/-- A drive's compares as a leg with a duty of its own uses them: the leg is high between them (R164, R181). -/
def Drive.upright : Drive → Drive
  | .inverse cr cf => .pulse cr cf
  | d => d

/-- A drive's compares as leg B of a two-level bridge uses them: the leg is low between them (R164, R181). -/
def Drive.inverted : Drive → Drive
  | .pulse cr cf => .inverse cr cf
  | d => d

/-- The compares that a drive uses. -/
def Drive.cmp : Drive → Option (Nat × Nat)
  | .pulse cr cf => some (cr, cf)
  | .inverse cr cf => some (cr, cf)
  | _ => none

/-- A leg that switches takes its drive for a period: ROW and compares, and a suppression on it is counted (R168, R183, R185). -/
def driveLeg (t start : Nat) (d : Drive) (own : Bool) (row : Nat) (s : State) : State :=
  let s := (setDrive t d own start s).updTerm t (fun x => { x with shRow := row, shCmp := d.cmp })
  if row = 2 then modEvent t 0 (s.bump (modReg t 0x10)) else s

-- ---------------------------------------------------------------- six-step legs (R165)

def pwmLeg (step : Nat) : Option Nat :=
  match step with | 0 => some 0 | 1 => some 0 | 2 => some 1 | 3 => some 1 | 4 => some 2 | 5 => some 2 | _ => none
def lowLeg (step : Nat) : Option Nat :=
  match step with | 0 => some 1 | 1 => some 2 | 2 => some 2 | 3 => some 0 | 4 => some 0 | 5 => some 1 | _ => none
def floatLeg (step : Nat) : Option Nat :=
  match step with | 0 => some 2 | 1 => some 1 | 2 => some 0 | 3 => some 2 | 4 => some 1 | 5 => some 0 | _ => none

-- ---------------------------------------------------------------- precedence (R181)

/-- Causes of row 1 of R181: trips, the loss of FTBk, a debug halt. -/
def tripCause (r : Report) : Bool :=
  (decide (0xC0 ≤ r.source ∧ r.source < 0xC8) && (r.cause == 6 || r.cause == 7 || r.cause == 8 || r.cause == 12)) || r.cause == 0xF2

/-- A trip, the loss of FTBk or a debug halt of an engine that serves the channel holds it in its safe state (R181 row 1). -/
def State.tripped (s : State) (ch : Nat) : Bool :=
  let c := s.chan ch
  (s.fold c.foldIx).ftbLost || c.causes.any tripCause ||
    (s.hlt (4 * c.flock + c.adm.engA)).st == 3 || (s.hlt (4 * c.flock + c.adm.engB)).st == 3

/-- Rows 1 to 3 of R181 for a terminal of a channel: the drive they give, or none where it modulates. -/
def State.override (s : State) (ch t : Nat) : Option Drive :=
  let c := s.chan ch
  let x := s.term t
  if !s.flockOn c.flock || !s.foldOn c.foldIx then some .off
  else if s.tripped ch then some (s.safeDrive ch)
  else if !c.armed && x.forceEff == 0 then some (s.safeDrive ch)
  else match x.forceEff with
    | 1 => some .low
    | 2 => some .high
    | 3 => some .off
    | _ => none

/-- A leg that does not switch on a duty: held, with no compares, and no hop 5 failure in a row (R150, R183). -/
def holdLeg (t start : Nat) (d : Drive) (s : State) : State :=
  (setDrive t d false start s).updTerm t (fun x => { x with shRow := 1, shCmp := none, parRun := 0 })

/-- The hop 5 failure of a leg (R149, R150): counted, reported in C1, its run of failures kept. -/
def compareParity (t : Nat) (fail : Bool) (s : State) : State :=
  if fail then
    let f := flockOf t
    raise (intEvt f) (mkRep (srcFlock f) 0 4 1 2 t)
      ((s.bump (intCnt f 5)).updTerm t (fun x => { x with parRun := x.parRun + 1 }))
  else s.updTerm t (fun x => { x with parRun := 0 })

/-- The account of a duty opens the period. -/
def openPeriod (t : Nat) (q : Period) (s : State) : State := s.updTerm t (fun y => { y with cur := some q })

/-- A leg that modulates on a duty of its own (modes 2 and 3). -/
def ownLeg (ch t start p num den : Nat) (fail : Bool) (s : State) : State :=
  match s.override ch t with
  | some d => holdLeg t start d (dropResidue t s)
  | none =>
    let s := compareParity t fail s
    let x := s.term t
    let on := onTime num den p
    let prev := x.drive.upright
    if fail then driveLeg t start (prev.again p) true 3 (openPeriod t (repeatPeriod prev start p on x.residue) s)
    else
      let q := treat start p (s.chan ch).hThr on x.residue
      driveLeg t start q.drive true q.row (openPeriod t q s)

/-- The duty of leg A that a bridge held in the previous period, as its leg B shows it. -/
def Drive.mirror : Drive → Drive
  | .low => .high
  | .high => .low
  | .inverse cr cf => .pulse cr cf
  | d => d

/-- The legs of a two-level bridge on leg A's duty (R164, R170, R177). Under row 5 only the leg that fails repeats its compares; the
account follows leg A, or leg B where A does not switch (log 124). -/
def bridgeLegs (ch start p : Nat) (c : Int) (fail : Nat) (s : State) : State :=
  let a := (s.chan ch).adm.first
  let b := a + 1
  let oa := s.override ch a
  let ob := s.override ch b
  let fa := fieldN fail 0 1 == 1
  let fb := fieldN fail 1 1 == 1
  if oa.isSome && ob.isSome then holdLeg b start (ob.getD .off) (holdLeg a start (oa.getD .off) (dropResidue a s))
  else
    let r := (s.term a).residue
    let on := onTime (32768 + c).toNat 65536 p
    let q := treat start p (s.chan ch).hThr on r
    let da := (s.term a).drive.upright
    let db := (s.term b).drive.inverted
    let lead := if oa.isNone then fa else fb
    let s := openPeriod a (if lead then repeatPeriod (if oa.isNone then da else db.mirror) start p on r else q) s
    let s := match oa with
      | some d => holdLeg a start d s
      | none => driveLeg a start (if fa then da.again p else q.drive) true (if fa then 3 else q.row) (compareParity a fa s)
    match ob with
    | some d => holdLeg b start d s
    | none => driveLeg b start (if fb then db.again p else q.inverse) (fb == lead) (if fb then 3 else q.row) (compareParity b fb s)

/-- The legs of a six-step channel (R165, R385). The residue is dropped when no leg modulates (R170, R174). -/
def sixStepLegs (ch start p : Nat) (c : Int) (fail : Nat) (s : State) : State :=
  let a := (s.chan ch).adm.first
  let step := (s.chan ch).step
  let brake := match s.motorOf ch with | some i => (s.motor i).mstate == 5 && step == 7 | none => false
  let modulates := match pwmLeg step with | some i => (s.override ch (a + i)).isNone && !brake | none => false
  let s := if modulates then s else dropResidue a s
  each [0, 1, 2] (fun i s =>
    let t := a + i
    match s.override ch t with
    | some d => holdLeg t start d s
    | none =>
      if brake then holdLeg t start .low s
      else if lowLeg step = some i then holdLeg t start .low s
      else if pwmLeg step = some i then
        let f := fieldN fail i 1 == 1
        let s := compareParity t f s
        let d := (s.term t).drive.upright
        let r := (s.term a).residue
        let on := onTime (max c 0).toNat 32768 p
        if f then driveLeg t start (d.again p) true 3 (openPeriod a (repeatPeriod d start p on r) s)
        else
          let q := treat start p (s.chan ch).hThr on r
          driveLeg t start q.drive true q.row (openPeriod a q s)
      else holdLeg t start .off s) s

-- ---------------------------------------------------------------- the period that ends

/-- MOD_STAT.PERIOD and ROW of the last completed period, and MOD_CMP of the last one with compares (R183, log 125). -/
def showPeriod (t p : Nat) (s : State) : State :=
  let x := s.term t
  let s := (s.setField (modReg t 0x08) 16 16 p).setField (modReg t 0x08) 8 2 (if p = 0 then 0 else x.shRow)
  match x.shCmp with
  | none => s
  | some (cr, cf) => s.setReg (modReg t 0x30) (BitVec.ofNat 32 (cf % 65536 * 65536 + cr % 65536))

/-- The readback's count of periods; a mismatch counts in its own and the 63 that follow (R150). -/
def countPeriod (t : Nat) (s : State) : State :=
  s.updTerm t (fun x => { x with periods := x.periods + 1, rbHist := x.rbHist.filter (fun n => decide (x.periods + 1 < n + 64)) })

-- ---------------------------------------------------------------- samples of a floating leg (R372 to R374)

/-- Whether the expected crossing of a step is rising (R371). -/
def expectRising (step : Nat) (dir : Bool) : Bool := (step % 2 == 1) != dir

/-- A rejected run (R376). -/
def rejectRun (ch : Nat) (s : State) : State := s.bump (motReg (s.chan ch).adm.first 0x18)

/-- The blanking of a motor's floating leg is past at cc `at_`: the last window of its timer has closed and BLANK_FR / 64 of Tp has
passed since tc (R375). -/
def State.blankPast (s : State) (m : Motor) (at_ : Nat) : Bool :=
  let x := s.timer m.timer
  decide (x.openAt + x.width ≤ 2 * at_) && decide (64 * m.tc + m.tp * m.blankFr ≤ 64 * at_)

/-- The instant, in cc, of a period's sample of the floating leg, where the period gives a valid one (R372, R373): at the centre of a
pulse, or of the period where the leg is held high. -/
def Period.sampleAt (q : Period) (m : Motor) (dt : Nat) : Option Nat :=
  if q.heldHigh then some ((q.start + q.p / 2 + 96) / 2)
  else if q.cr < q.cf ∧ (m.zsMin : Int) ≤ q.t' - dt then some ((q.start + (q.cr + dt + q.cf) / 2 + 96) / 2)
  else Option.none

/-- e > 0 (R373), in 1/64 mV. -/
def floatHigh (x : FloatIn) (m : Motor) : Bool :=
  decide (0 < 100 * (x.float.toNat : Int) - 50 * x.bus.toNat - 64 * m.zcOfs)

/-- The sample of the floating leg in the period in progress enters the filter (R372 to R375). A run that the old side ends counts as
unconfirmed, or as rejected where it was confirmed before the window opened (R374, R376). In a step that began on the far side the samples of the
old side are a run in the opposite sense (log 26). -/
def motorSample (ch i : Nat) (x : FloatIn) (s : State) : State :=
  let m := s.motor i
  let c := s.chan ch
  match (s.term c.adm.first).cur.bind (fun q => q.sampleAt m c.md.dt) with
  | none => s
  | some at_ =>
    if (m.mstate != 2 && m.mstate != 3) || m.blank || !s.blankPast m at_ || m.tz.isSome || (m.mstate == 3 && m.posted) then s
    else if floatHigh x m == expectRising c.step m.dir then
      s.setMotor i { m with
        runAt := if m.runLen = 0 then at_ else m.runAt, runLen := m.runLen + 1, far := some (m.far.getD true), oppLen := 0, oppJudged := false }
    else
      let s := if m.runLen = 0 || m.judged then s
        else if m.runLen < m.confirm then s.bump (motReg c.adm.first 0x1C)
        else rejectRun ch s
      s.setMotor i { m with
        runLen := 0, judged := false, far := some (m.far.getD false), oppLen := if m.far == some true then m.oppLen + 1 else 0 }

/-- The one sample of a carrier period, where it has not been taken (R372). -/
def takeSample (ch : Nat) (x : Option FloatIn) (s : State) : State :=
  match x, s.motorOf ch with
  | some x, some i =>
    if (s.motor i).sampled || (floatLeg (s.chan ch).step).isNone then s
    else (motorSample ch i x s).updMotor i (fun m => { m with sampled := true })
  | _, _ => s

/-- The next carrier period has its own sample. -/
def nextSample (ch : Nat) (s : State) : State :=
  match s.motorOf ch with
  | some i => s.updMotor i (fun m => { m with sampled := false })
  | Option.none => s

/-- The converters of these terminals give one sample each (R192, R193); a terminal that the list leaves out reads 0. -/
def senseLegs (terms : List Nat) (legs : List LegIn) (s : State) : State :=
  each terms (fun t s =>
    if s.flockOn (flockOf t) then
      match legs.find? (fun x => x.term.val == t) with
      | some x => s.setReg (psReg t 0x18) (s.currentSample t x.share ++ x.volt)
      | none => s.setReg (psReg t 0x18) 0
    else s) s

/-- The samples a terminal's senses hold: current, voltage (R192, R193). -/
def State.curOf (s : State) (t : Nat) : BitVec 16 := BitVec.ofNat 16 (s.regField (psReg t 0x18) 16 16)
def State.voltOf (s : State) (t : Nat) : BitVec 16 := BitVec.ofNat 16 (s.regField (psReg t 0x18) 0 16)

-- ---------------------------------------------------------------- what is formed from the samples (R322, R362, R370)

/-- The coil's voltage and current in steps (R322, R359): leg A, or leg A less leg B with leg A's current. -/
def State.coilV (s : State) (c : Chan) : Int :=
  let v (t : Nat) : Int := (s.voltOf t).toNat
  v c.adm.first - (if c.adm.kind = 2 then v (c.adm.first + 1) else 0)
def State.coilI (s : State) (c : Chan) : Int := (s.curOf c.adm.first).toInt

/-- The sum of a channel's leg currents in steps. -/
def State.leakage (s : State) (c : Chan) : Int := c.terms.foldl (fun n t => n + (s.curOf t).toInt) 0

/-- A sample against a tone of num / den Hz at instant j of a rate. -/
def Corr.add (x : Corr) (rate j num den : Nat) (v i : Int) : Corr :=
  let ph := if rate * den = 0 then 0 else num * j * 2 ^ 32 / (den * rate)
  let sn := sineTurns (ph % 2 ^ 32)
  let cs := sineTurns ((ph + 2 ^ 30) % 2 ^ 32)
  { n := x.n + 1, vs := x.vs + v * sn, vc := x.vc + v * cs, is_ := x.is_ + i * sn, ic := x.ic + i * cs }

/-- The sample given at carrier boundary n enters the thermal period's sums (R322, R370). -/
def coilSample (ch n : Nat) (s : State) : State :=
  let c := s.chan ch
  let v := s.coilV c
  let i := s.coilI c
  let l := absI (s.leakage c)
  let fw := s.regField (pmReg c.adm.first 0) 0 16
  s.updChan ch (fun c =>
    let a := c.mon.acc
    { c with mon := { c.mon with acc := { a with
      n := a.n + 1, i2 := a.i2 + (i * i).toNat, vi := a.vi + v * i, leak2 := a.leak2 + (l * l).toNat
      fw := if c.armed && fw != 0 then a.fw.add (s.frate * s.m * c.k) (s.bell.frame.toNat * s.m * c.k + n) fw 1 v i else a.fw } } })

/-- The instant of carrier boundary n in a diagnosis, in carrier periods since its pass began, before the command of that boundary is applied. -/
def Chan.passJ (c : Chan) (n : Nat) : Nat := if n % c.k = 0 then c.excK * c.k else (c.excK - 1) * c.k + n % c.k

/-- The same sample enters the correlator set of a diagnosis: within the measuring span against each of its tones, and all through the run
the leakage (R362). -/
def toneSample (ch n : Nat) (s : State) : State :=
  let c := s.chan ch
  let j := c.passJ n
  if c.tones.isEmpty then s
  else
    let v := s.coilV c
    let i := s.coilI c
    let l := absI (s.leakage c)
    let x := c.cor
    let sums := if x.lo ≤ j ∧ j < x.hi then
        (x.sums.zip c.tones).map (fun p => p.1.add (s.frate * s.m * c.k) j p.2.2.1 p.2.2.2 v i)
      else x.sums
    s.setChan ch { c with cor := { x with sums, leak2 := x.leak2 + (l * l).toNat, leakN := x.leakN + 1 } }

/-- A boundary of the frame-phased carrier at 800 kHz, at pt `now`: the terminals of a fold that no live channel has are sampled, and their pens that
wait to retire do so (R192, R197, R198). -/
def idleBoundary (k now : Nat) (legs : List LegIn) (s : State) : State :=
  let free := ((List.range 64).map (64 * k + ·)).filter (fun t => (s.ownerOf t).isNone)
  each free (fun t s => retirePending t now s) (senseLegs free legs s)

/-- The boundary that opens carrier period n of the present frame for a channel (R181). The
operands say whether a queued clamp came too late, which legs fail compare parity, what the floating leg's sample in the period that
ended gave, where it was not taken before, and what the converters of the channel's terminals gave in it. -/
def carrierBoundary (ch n : Nat) (late : Bool) (fail : Nat) (sample : Option FloatIn) (legs : List LegIn) (s : State) : State :=
  let c := s.chan ch
  if !c.live || n ≥ s.m * c.k then s
  else
    let s := toneSample ch n (coilSample ch n (senseLegs c.terms legs (nextSample ch (takeSample ch sample s))))
    let (start, p, u, x) := s.spreadPeriod ch n
    let s := each c.terms (fun t s =>
      retirePending t start (closePeriod t (missedEdges t start (showPeriod t c.curP s)))) s
    let s := each c.terms (fun t s => formLeads t c.md.slew (countPeriod t s)) (clearDone ch s)
    let s := if n % c.k = 0 then applyCommand ch late s else s
    let s := s.updChan ch (fun c => { c with lfsr := u, xSpread := x, curP := p })
    let cmd := (s.chan ch).applied
    let s := each c.terms (fun t s => s.setField (modReg t 0x14) 0 16 (ux 16 cmd)) s
    let a := c.adm.first
    match c.md.mode with
    | 1 => bridgeLegs ch start p cmd fail s
    | 2 =>
      ownLeg ch (a + 1) start p (32768 - cmd).toNat 65536 (fieldN fail 1 1 == 1)
        (ownLeg ch a start p (32768 + cmd).toNat 65536 (fieldN fail 0 1 == 1) s)
    | 3 => ownLeg ch a start p (max cmd 0).toNat 32768 (fieldN fail 0 1 == 1) s
    | 4 => sixStepLegs ch start p cmd fail s
    | _ => each c.terms (fun t s => holdLeg t start (s.safeDrive ch) (dropResidue t s)) s

/-- CARRIER_BOUNDARY, of a channel's carrier or of a fold's frame-phased one. -/
def execCarrierBoundary (at_ : CarrierAt) (late : Bool) (fail : BitVec 3) (sample : Option FloatIn) (legs : List LegIn) (s : State) : Res :=
  match at_ with
  | .channel ch n => .next (carrierBoundary ch.val n.val late fail.toNat sample legs s)
  | .idle k now => .next (idleBoundary k.val now legs s)

-- ---------------------------------------------------------------- staged settings (R178, R179, R305)

/-- A write was ignored: CFG_IGNORED of the block that holds the field (R178). -/
def stIgnored (t reg : Nat) (s : State) : State :=
  if reg = 2 then foldEvent (foldOf t) 13 0 2 t s else modEvent t 1 s

/-- ST_FIELD_WRITE: a write to MOD_CFG (0), MOD_TIME (1) or PS_CFG (2) stages its fields in the open group of the
channel whose first terminal it names (R178, R183, R217). -/
def execStFieldWrite (t : Fin 512) (reg : Fin 3) (v : W) (s : State) : Res :=
  match s.ownerOf t.val with
  | none => .next (stIgnored t.val reg.val s)
  | some ch =>
    let c := s.chan ch
    match c.grp with
    | none => .next (stIgnored t.val reg.val s)
    | some g =>
      if c.adm.first != t.val then .next (stIgnored t.val reg.val s)
      else
        let g := match reg.val with
          | 0 => { g with mode := some (fld v 0 3), kLog2 := some (fld v 8 2), spread := some (fld v 12 4) }
          | 1 => { g with dt := some (fld v 16 10), minp := some (fld v 0 9) }
          | _ => { g with slew := some (fld v 0 4) }
        .next (s.setChan ch { c with grp := some g })

/-- The settings a group would leave in effect. -/
def ModSet.with (m : ModSet) (g : Group) : ModSet :=
  { mode := g.mode.getD m.mode, kLog2 := g.kLog2.getD m.kLog2, dt := g.dt.getD m.dt, minp := g.minp.getD m.minp
    spread := g.spread.getD m.spread, slew := g.slew.getD m.slew }

/-- A group holds modulator fields. -/
def Group.modulates (g : Group) : Bool :=
  g.mode.isSome || g.kLog2.isSome || g.dt.isSome || g.minp.isSome || g.spread.isSome

/-- MODE agrees with the channel's kind (R163). -/
def modeFits (mode kind : Nat) : Bool :=
  match mode with | 1 => kind == 2 | 2 => kind == 2 | 3 => kind == 1 | 4 => kind == 3 | _ => false

/-- Shortest carrier period in pt of a setting at the nominal rate, under spread reduced (R179). -/
def State.shortest (s : State) (m : ModSet) : Nat :=
  let rate := s.loopNext * 2 ^ m.kLog2
  if rate = 0 then 0 else 1600000000 * (100 - m.spread) / (rate * 100)

/-- The checks of R179 for the values that would be in effect. -/
def State.modOk (s : State) (c : Chan) (m : ModSet) (audible : Bool) : Bool :=
  let rate := s.loopNext * 2 ^ m.kLog2
  modeFits m.mode c.adm.kind && decide (m.kLog2 ≤ 2 ∧ 100000 ≤ rate ∧ rate ≤ 800000) &&
    decide (16 ≤ m.dt ∧ m.dt ≤ 640 ∧ 32 ≤ m.minp ∧ m.minp ≤ 320) &&
    decide (4 * (m.dt + m.minp) ≤ s.shortest m) &&
    (m.spread == 0 || (audible && decide (1 ≤ m.kLog2 ∧ m.spread ≤ 12)))

/-- The audible mark is cleared: a change that is pending or ramping is applied, with gain 0 where the channel is muted then (R142); with
none the effective gain is 1.0 (R139). -/
def clearAudible (c : Chan) : Chan :=
  let todo := c.zc.ramp.toList.map (fun r => (r.kind, r.target)) ++ c.zc.pend.map (fun x => (x.kind, x.target))
  let z := todo.foldl (fun (z : Zc) x => match x with
    | (.mute, _) => { z with muted := true }
    | (.unmute, _) => { z with muted := false }
    | (.gain, t) => { z with gain := t }
    | _ => z) c.zc
  let stops := c.zc.stopping || todo.any (fun x => x.1 == .stop)
  let c := if stops then { c.leaveArmed with st := .idle } else c
  ({ c with zc := { z with eff := if !todo.isEmpty && z.muted then 0 else 32768 } } : Chan).dropZc

/-- COMMIT_APPLY: staged fields take effect at their boundary; a change of mode drops every residue (R170,
R178, R305); a stop that it lands idles the motor too (R142, R393). The operand is the floating leg's
sample in the period that ends there, where it was not taken before (R372). -/
def execCommitApply (ch : Fin 512) (sample : Option FloatIn) (s : State) : Res :=
  let c := s.chan ch.val
  match c.commit with
  | none => .next s
  | some g =>
    let m := c.md.with g
    let s := each c.terms (fun t s => closePeriod t (showPeriod t c.curP s)) (takeSample ch.val sample s)
    let s := if m.mode = c.md.mode then s else each c.terms dropResidue s
    let audible := g.audible.getD c.audible
    let s := s.updChan ch.val (fun c =>
      let c := { c with md := m, commit := none, safe := g.safe.getD c.safe
                        loop := { c.loop with injPt := g.injPt.getD c.loop.injPt }
                        zc := { c.zc with ms := g.zcTimeout.getD c.zc.ms } }
      if c.audible && !audible then { clearAudible c with audible := false }
      else if !c.audible && audible then
        let c := { c with audible := true }
        { c with zc := { c.zc with eff := c.restGain } }
      else c)
    let s := if c.armed && !(s.chan ch.val).armed then motorIdle ch.val s else s
    .next (refreshGates (finishObj 0x0503 (1, ch.val) 0 s))

-- ---------------------------------------------------------------- crook forces (R174, R175)

/-- Whether the fence record in force permits forcing a terminal (R468). -/
def State.forceOk (s : State) (t : Nat) : Bool :=
  match s.sec.fence with
  | some f => fieldN (tget FenceTerm.none f.terms t).tflags 0 1 == 1
  | none => false

/-- CROOK_WRITE (R175). -/
def execCrookWrite (t : Fin 512) (v : W) (s : State) : Res :=
  let f := fld v 0 2
  if fld v 24 8 != 0xC5 || (s.ownerOf t.val).isNone then .next (modEvent t.val 1 s)
  else if (f == 1 || f == 2) && !s.forceOk t.val then .next (modEvent t.val 2 s)
  else .next (s.updTerm t.val (fun x => { x with forceQ := some f }))

-- ---------------------------------------------------------------- deletion opens the terminals (R56, R102)

/-- CHAN_DEL_OPEN: at its carrier boundary, at pt `now`, a deleting channel's terminals open, and output slots that name its
index revert to source 0 (R56 step 4, R102). -/
def execChanDelOpen (ch : Fin 512) (now : Nat) (s : State) : Res :=
  let c := s.chan ch.val
  if c.st != .deleting || c.opened then .next s
  else
    let s := s.setChan ch.val { c with opened := true }
    let s := each c.terms (fun t s =>
      setDrive t .off false now (dropResidue t (closePeriod t (s.updTerm t (fun x => { x with forceQ := none, forceEff := 0 }))))) s
    let names (v : W) : Bool := fld v 28 4 == 1 && fld v 16 12 == ch.val
    .next (each (List.range 4) (fun n s =>
      let s := s.setOut n { s.out n with slotPend := tmap none (s.out n).slotPend (fun _ x => x.map (fun v =>
        if names v then setFld v 28 4 0 else v)) }
      each (List.range 32) (fun i s => if names (s.reg (soSlot n i)) then s.setField (soSlot n i) 28 4 0 else s) s) s)

-- ---------------------------------------------------------------- escalation (R150)

/-- INTEGRITY_ESCALATION: repeated hop 3 (causes ECC2 or TAG), hop 5 or readback failures become C2 on the channel.
`kind` is 0 for ECC2 and 1 for TAG at hop 3 of channel `i`, 2 for hop 5 and 3 for the readback of terminal `i`. -/
def execIntegrityEscalation (kind : Fin 4) (i : Fin 512) (s : State) : Res :=
  let report (ch bit : Nat) (s : State) : State :=
    raise (intEvt (s.chan ch).flock) (mkRep (srcFlock (s.chan ch).flock) 0 bit 2 1 ch) s
  match kind.val with
  | 0 | 1 =>
    let c := s.chan i.val
    if c.live && c.inp.failRun.any (fun x => decide (3 ≤ x.2)) then
      .next (report i.val (if kind.val = 0 then 1 else 2)
        (s.setChan i.val { c with inp := { c.inp with failRun := [] } }))
    else .next s
  | 2 =>
    match s.ownerOf i.val with
    | some ch => if (s.term i.val).parRun ≥ 2 then
        .next (report ch 4 (s.updTerm i.val (fun x => { x with parRun := 0 }))) else .next s
    | none => .next s
  | _ =>
    match s.ownerOf i.val with
    | some ch => if (s.term i.val).rbHist.length ≥ 4 then
        .next (report ch 5 (s.updTerm i.val (fun x => { x with rbHist := [] }))) else .next s
    | none => .next s

end Sys2Proof.Machine
end

