-- ==== Sys2Proof/Machine/Power.lean ====
section
/-! DEFINITION. The power stage: gate events, segment supervision, substitution, timers, trips, budgets
(07, and R212, R482 of the fold timebase). -/

namespace Sys2Proof.Machine

open Sys2Proof

-- ---------------------------------------------------------------- gate events (R161, R162, R149 hop 6)

/-- A side turns on only while the other is off. -/
def Term.clear (x : Term) (ev : Nat) : Bool :=
  match ev with
  | 1 => !x.lo
  | 3 => !x.hi
  | _ => true

/-- The trailing pens follow a gate event of the lead pens, 32 pt later (R190). -/
def Term.trail (x : Term) (ev : Nat) : Term :=
  match ev with
  | 0 => if x.lo then x else { x with tLo := false }
  | 1 => if x.hi && !x.tLo then { x with tHi := true } else x
  | 2 => if x.hi then x else { x with tHi := false }
  | _ => if x.lo && !x.tHi then { x with tLo := true } else x

/-- The gate states of a pen of a terminal: high side, low side (R190). -/
def State.penGates (s : State) (t p : Nat) : Bool × Bool :=
  let x := s.term t
  if s.penRole t p != inService then (false, false) else if x.leads.contains p then (x.hi, x.lo) else (x.tHi, x.tLo)

/-- An edge has appeared on a terminal at pt `at_`: expected 96 pt after it was scheduled, within 16 pt (R149, R162). -/
def Edge.inTime (e : Edge) (at_ : Nat) : Bool := decide (e.at_ + 80 ≤ at_ ∧ at_ ≤ e.at_ + 112)

/-- A desaturation of a segment (R194 steps 1 and 2). -/
def desaturate (t p g : Nat) (s : State) : State :=
  let x := s.term t
  if !s.segHealthy t p g || s.penRole t p != inService || x.gateOff.contains (p, g) then s
  else
    let s := foldEvent (foldOf t) 0 0 2 t (s.bump (psReg t 0x20))
    let seg := (if x.spanOpen then x.span else []) ++ [(p, g)]
    s.updTerm t (fun y => { y with gateOff := x.gateOff ++ [(p, g)], spanOpen := true, span := seg })

/-- GATE_EVENT: a gate event appears on a terminal at pt `at_`, of its lead pens or, `trail`, of its trailing pens; `fails` are the
segments whose gates did not reach their level (R149, R161, R190, R196). An edge that nothing commands is a mismatch, and so is one out
of its time (R151). -/
def execGateEvent (t : Fin 512) (ev : Fin 4) (at_ : Nat) (trail : Bool) (fails : List (Fin 16 × Fin 16)) (s : State) : Res :=
  let x := s.term t.val
  let gates (s : State) : State := forL fails (fun f s => desaturate t.val f.1.val f.2.val s) s
  if !s.flockOn (flockOf t.val) || !s.foldOn (foldOf t.val) then .next s
  else if trail then .next (gates (s.setTerm t.val (x.trail ev.val)))
  else
    match x.edges.find? (fun e => e.ev == ev.val) with
    | none => .next (readbackMiss t.val s)
    | some e =>
      if !x.clear ev.val then .next (readbackMiss t.val s)
      else
        let s := s.setTerm t.val { x.switch ev.val with
          edges := x.edges.erase e, seenAt := at_, offAt := if ev.val % 2 = 0 then max x.offAt e.at_ else x.offAt }
        .next (gates (if e.inTime at_ then s else edgeMiss t.val e s))

-- ---------------------------------------------------------------- segment supervision (R194 to R199)

/-- DESATURATION (R194). -/
def execDesaturation (t : Fin 512) (p g : Fin 16) (s : State) : Res := .next (desaturate t.val p.val g.val s)

/-- The report of an overcurrent trip of a channel. -/
def ocRep (t ch : Nat) : Report := mkRep (srcFold (foldOf t)) 0 7 2 1 ch

/-- Trip of a terminal's channel by overcurrent (R195, R204). -/
def overcurrent (t now : Nat) (live : Bool) (s : State) : State :=
  match s.ownerOf t with
  | none => s
  | some ch =>
    let r := ocRep t ch
    let s := raise (foldEvt (foldOf t)) r (s.bump (psReg t 0x2C))
    tripChannel ch now r (if live then holdLive r s else s)

-- ---------------------------------------------------------------- timers (R202, R203)

/-- TIMER_WINDOW_OPEN, at pt `now`: opens only while the reference terminal's channel is live and out of its safe state
(R203). A motor's timer opens with its channel's step changes alone (R375). -/
def execTimerWindowOpen (i : Fin 512) (now : Nat) (s : State) : Res :=
  let x := s.timer i.val
  let ready := match s.ownerOf x.term with
    | some ch => let c := s.chan ch; c.armed || (s.term x.term).forceEff != 0
    | none => false
  if x.live && ready && !s.motorTimer i.val then .next (openTimer i.val now s) else .next s

/-- TIMER_WINDOW_CLOSE, at pt `now`: a window closes once its width has passed (R202). -/
def execTimerWindowClose (i : Fin 512) (now : Nat) (s : State) : Res :=
  let x := s.timer i.val
  if x.open_ && decide (x.openAt + x.width ≤ now) then
    .next (each (s.tripsOf i.val) (fun g s => s.setTrip g ((s.trip g).blankUntil (x.openAt + x.width)))
      (s.setTimer i.val { x with open_ := false }))
  else .next s

-- ---------------------------------------------------------------- trips (R204 to R209)

/-- The report of a trip group on a channel or a fold (R207). -/
def tripRepC (s : State) (ch : Nat) : Report := mkRep (srcFold (s.chan ch).foldIx) 0 6 2 1 ch
def tripRepF (k : Nat) : Report := mkRep (srcFold k) 0 6 3 0 0

/-- A trip group acts on one channel. -/
def tripActOn (g now ch : Nat) (s : State) : State :=
  let r := tripRepC s ch
  let was := (s.chan ch).st
  let s := tripChannel ch now r (holdLive r (raise (foldEvt (s.chan ch).foldIx) r s))
  match was with
  | .free | .deleting => s
  | _ => updFired g (s.setTrip g { s.trip g with fired := if (s.trip g).fired.contains ch then (s.trip g).fired else (s.trip g).fired ++ [ch] })

/-- The filtered input of a group becomes active (R207). -/
def tripRise (g now : Nat) (s : State) : State :=
  let x := s.trip g
  match (if x.scope = 1 ∧ x.chans = [] then 0 else x.scope) with
  | 1 => each x.chans (tripActOn g now) s
  | 2 =>
    updFired g (each ((List.range 8).filter (fun k => fieldN x.mask k 1 == 1)) (fun k s =>
      let s := tripFold k now (tripRepF k) (holdLive (tripRepF k) (raise (foldEvt k) (tripRepF k) s))
      s.setTrip g { s.trip g with firedFolds := if (s.trip g).firedFolds.contains k then (s.trip g).firedFolds else (s.trip g).firedFolds ++ [k] }) s)
  | _ => each ((List.range 8).filter (fun k => fieldN x.mask k 1 == 1)) (fun k s => foldEvent k 6 0 0 0 s) s

/-- A trip filter takes a sample: its last M samples, of which N active make its output active (R205). -/
def filtNext (hist : List Bool) (m : Nat) (sample : Bool) : List Bool := (sample :: hist).take m
def filtActive (hist : List Bool) (n : Nat) : Bool := decide (n ≤ (hist.filter (fun b => b)).length)

/-- The output of a group's filter changes (R207, R209). -/
def tripLevel (g : Nat) (active : Bool) (now : Nat) (s : State) : State :=
  let x := s.trip g
  if x.active == active then s
  else
    let s := s.setTrip g { x with active }
    let s := each (List.range 8) (fun k s => s.updReg (tripAct k) (fun w => if active then setBit w g else clrBit w g)) s
    if active then tripRise g now s
    else
      let still (r : Report) : Bool := (tkeys s.trips).any (fun h =>
        (s.trip h).active && ((s.trip h).chans.any (fun ch => tripRepC s ch == r) ||
          (s.trip h).firedFolds.any (fun k => tripRepF k == r)))
      let mine (r : Report) : Bool := x.chans.any (fun ch => tripRepC s ch == r) || x.firedFolds.any (fun k => tripRepF k == r)
      updFired g (condEnd (fun r => mine r && !still r) s)

/-- One sample of TRIPg, the level `level` at pt `at_`: inside a blanking window it does not enter the filter (R205). -/
def tripSample (g at_ : Nat) (level : Bool) (s : State) : State :=
  let x := (s.trip g).blankUntil at_
  if x.blank then s.setTrip g x
  else
    let h := filtNext x.hist x.m (level == x.high)
    tripLevel g (filtActive h x.n) at_ (s.setTrip g { x with hist := h })

/-- EXTERNAL_TRIP: samples of the TRIPg input, 4 pt apart from pt `at_` on, pass its group's filter, which may take a level (R205, R207,
R209). Without a group the input acts on nothing. -/
def execExternalTrip (g : Fin 32) (levels : List Bool) (at_ : Nat) (s : State) : Res :=
  if !(s.trip g.val).live then .next s
  else .next (forL levels.zipIdx (fun x s => tripSample g.val (at_ + 4 * x.2) x.1 s) s)

/-- A fold stop has ended (R440): its causes go, and the trips that caused it. -/
def foldFree (k : Nat) (s : State) : State :=
  let s := s.updFold k (fun f => { f with stopped := false, causes := [] })
  each (tkeys s.trips) (fun g s =>
    if (s.trip g).firedFolds.contains k then
      updFired g (s.setTrip g { s.trip g with firedFolds := (s.trip g).firedFolds.filter (fun j => j != k) })
    else s) s

/-- One sample of a terminal's replica current, its magnitude in mA at pt `at_`: blanked for 64 pt after each gate event of the
terminal, filtered by OCF_N of OCF_M (R204, R205). The condition lasts while any terminal of the channel is over (R213). -/
def ocSample (t at_ ma : Nat) (s : State) : State :=
  let x := s.term t
  match s.ownerOf t with
  | none => s
  | some ch =>
    if x.seenAt ≤ at_ ∧ at_ < x.seenAt + 64 ∧ x.seenAt ≠ 0 then s
    else
      let k := foldOf t
      let h := filtNext x.ocHist (s.regField (foldCfg k) 20 4 + 1) (decide (s.regField (psReg t 0x1C) 0 16 < ma))
      let on := filtActive h (s.regField (foldCfg k) 16 4 + 1)
      let s := s.setTerm t { x with ocHist := h, ocAct := on }
      if on && !x.ocAct then overcurrent t at_ true s
      else if x.ocAct && !(s.chan ch).terms.any (fun u => (s.term u).ocAct) then condEnd (fun r => r == ocRep t ch) s
      else s

/-- TERMINAL_OVERCURRENT: samples of a terminal's current, 4 pt apart from pt `at_` on (R204). -/
def execTerminalOvercurrent (t : Fin 512) (ma : List Nat) (at_ : Nat) (s : State) : Res :=
  .next (forL ma.zipIdx (fun x s => ocSample t.val (at_ + 4 * x.2) x.1 s) s)

/-- The fold-wide sources of R204: whether a sample is beyond the threshold, N and M of the filter. 0 bus overvoltage and 1
undervoltage in 10 mV, 2 bus overcurrent in 10 mA, 3 the gate-drive supplies (other than 0 out of tolerance), 4 the hottest stage sensor
in °C. -/
def foldSource (src : Nat) (v : Int) : Bool × Nat × Nat :=
  match src with
  | 0 => (decide (9600 < v), 8, 16)
  | 1 => (decide (v < 2000), 16, 16)
  | 2 => (decide (10000 < v), 8, 16)
  | 3 => (v != 0, 16, 16)
  | _ => (decide (125 < v), 16, 16)

/-- The report of the fold-wide trips. -/
def foldTripRep (k : Nat) : Report := mkRep (srcFold k) 0 8 3 0 0

/-- The filter of a fold-wide source takes a level: the fold trips, or, once none of its sources is active, the condition ends (R204,
R209, R213). -/
def foldLevel (k src now : Nat) (on : Bool) (s : State) : State :=
  let was := fieldN (s.fold k).act src 1 == 1
  let r := foldTripRep k
  if on == was then s
  else if on then
    tripFold k now r (holdLive r (raise (foldEvt k) r (s.updFold k (fun f => { f with act := f.act + 2 ^ src }))))
  else
    let s := s.updFold k (fun f => { f with act := f.act - 2 ^ src })
    if (s.fold k).act = 0 then condEnd (fun x => x == r) s else s

/-- One sample of a fold-wide source. -/
def foldSample (k src at_ : Nat) (v : Int) (s : State) : State :=
  let (hit, n, m) := foldSource src v
  let h := filtNext (tget [] (s.fold k).filt src) m hit
  foldLevel k src at_ (filtActive h n) (s.updFold k (fun f => { f with filt := tset [] f.filt src h }))

/-- FOLD_TRIP: samples of a fold-wide source of R204, 4 pt apart from pt `at_` on, pass its filter. A bus below 20 V arms its precharge
limiter again, and without the auxiliary supply does nothing else (R537, R538). -/
def execFoldTrip (k : Fin 8) (src : Fin 5) (vals : List Int) (at_ : Nat) (s : State) : Res :=
  let s := if src = 1 ∧ vals.any (fun v => (foldSource 1 v).1) then s.updFold k.val (fun f => { f with precharge := false }) else s
  if s.boot.down then .next s
  else .next (forL vals.zipIdx (fun x s => foldSample k.val src.val (at_ + 4 * x.2) x.1 s) s)

/-- OVERTEMP's condition ends on fold Fk when no stage sensor of it is above 110 °C and AMB_TEMP is valid (R204, R549). -/
def overtempEnd (k : Nat) (s : State) : State :=
  let r := mkRep (srcFold k) 0 9 1 0 0
  let hotStage := (List.range 4).any (fun i => decide (110 < (BitVec.ofNat 8 (fld (s.reg (foldTemp k)) (8 * i) 8)).toInt))
  if s.amb.ok && !hotStage && s.causeLive r then condEnd (fun x => x == r) s else s

/-- OVERTEMP of fold Fk: reported as its condition comes, its bit set while it lasts (R204, R549). -/
def overtempOn (k : Nat) (s : State) : State :=
  let r := mkRep (srcFold k) 0 9 1 0 0
  if s.causeLive r then setEvt (foldEvt k) 9 s else holdLive r (raise (foldEvt k) r s)

/-- STAGE_OVERTEMP_WARN: a stage sensor reads above 110 °C (R204). -/
def execStageOvertempWarn (f : Fin 32) (temp : BitVec 8) (s : State) : Res :=
  let k := f.val / 4
  let s := s.setField (foldTemp k) (8 * (f.val % 4)) 8 temp.toNat
  .next (if temp.toInt > 110 then overtempOn k s else overtempEnd k s)

-- ---------------------------------------------------------------- the fold timebase (R40, R212)

/-- FTB_LOSS: the fallback oscillator takes the fold to its safe state (R212). -/
def execFtbLoss (k : Fin 8) (now : Nat) (s : State) : Res :=
  if (s.fold k.val).ftbLost then .next s
  else
    let r := mkRep (srcFold k.val) 0 12 3 0 0
    let s := (s.bump (cntFallback k.val)).updFold k.val (fun f => { f with ftbLost := true, ftbBack := false })
    let s := tripFold k.val now r (holdLive r (raise (foldEvt k.val) r s))
    .next (refreshGates (each (List.range 8) (fun i s => gateLow (8 * k.val + i) s) s))

/-- FTB_RETURN: FTBk has run within 1 % for 1 ms; its boundaries are placed again at the next B(j) (R212). -/
def execFtbReturn (k : Fin 8) (s : State) : Res :=
  if (s.fold k.val).ftbLost then .next (s.updFold k.val (fun f => { f with ftbBack := true })) else .next s

/-- At B(j) a returned timebase ends its cause. -/
def ftbAtBoundary (s : State) : State :=
  each (tkeys s.folds) (fun k s =>
    if (s.fold k).ftbLost && (s.fold k).ftbBack then
      refreshGates (condEnd (fun r => r == mkRep (srcFold k) 0 12 3 0 0)
        (s.updFold k (fun f => { f with ftbLost := false, ftbBack := false })))
    else s) s

-- ---------------------------------------------------------------- budgets (R214, R215)

/-- A condition of an event register over a limit: reported as it comes, ended as it goes (R214, R447). -/
def limitEvt (a : Nat) (r : Report) (isOver : Bool) (s : State) : State :=
  if isOver then (if s.causeLive r then s else holdLive r (raise a r s))
  else if s.causeLive r then condEnd (fun x => x == r) s else s

/-- The same for a cause of selector 15. -/
def limitOwn (source bit cls okind obj : Nat) (isOver : Bool) (s : State) : State :=
  let r := mkRep source 15 bit cls okind obj
  if isOver then (if s.causeLive r then s else holdLive r (raiseOwn source bit cls okind obj s))
  else if s.causeLive r then condEnd (fun x => x == r) s else s

/-- Fold power limit in W: 1,000, or the fence record's if lower (R214). -/
def State.foldLimW (s : State) (k : Nat) : Nat :=
  match s.sec.fence with | some f => min 1000 (f.foldLim.getD k 1000) | none => 1000

/-- The power measures of one channel (R214). `foldOver`: the fold is over its limit, which stops every channel of it that
is over its reservation (R215). -/
def chanPower (k : Nat) (foldOver : Bool) (ch : Nat) (mw : Int) (s : State) : State :=
  let res : Int := (s.chan ch).adm.power * 1000
  let s := s.updChan ch (fun c => { c with powAvg := mw })
  let s := limitEvt (foldEvt k) (mkRep (srcFold k) 0 10 1 1 ch) (decide (res < mw)) s
  let hard := decide (5 * res < 4 * mw) || (foldOver && decide (res < mw))
  limitOwn (srcFold k) 6 2 1 ch hard s

/-- The I²t measure of one terminal, in units of 1 mA²s (R214, R217). -/
def termI2t (t : Nat) (ma : Nat) (s : State) : State :=
  let cont : Int := s.icont t
  let acc := max 0 (((s.reg (psReg t 0x14)).toNat : Int) + ((ma : Int) * ma - cont * cont) / 1000)
  s.setReg (psReg t 0x14) (BitVec.ofInt 32 (min 0xFFFFFFFF acc))

/-- The I²t measure of a terminal is over its limit (R214). -/
def State.i2tOver (s : State) (t : Nat) : Bool :=
  let cont : Int := s.icont t
  let peak : Int := s.ipeak t
  decide ((peak * peak - cont * cont) / 100 < ((s.reg (psReg t 0x14)).toNat : Int))

/-- A channel is stopped while a terminal of it is over its I²t limit (R214). -/
def chanI2t (k t : Nat) (s : State) : State :=
  match s.ownerOf t with
  | none => s
  | some ch => limitOwn (srcFold k) 7 2 1 ch ((s.chan ch).terms.any s.i2tOver) s

/-- The current of a terminal, 0 where none flows (log 147). -/
def termCurrent (l : List (Fin 512 × Nat)) (t : Nat) : Nat := ((l.find? (fun e => e.1.val == t)).map (·.2)).getD 0

/-- Dissipation of a fold in service, in µW (R216): over the terminals of its live channels, from the RMS current in mA, the measured
bus in 10 mV and the actual carrier. -/
def State.foldDiss (s : State) (k busV : Nat) (termMa : List (Fin 512 × Nat)) : Nat :=
  sumL (s.chansOfFold k) (fun ch =>
    let c := s.chan ch
    let f := s.frate * s.m * 2 ^ c.md.kLog2
    sumL c.terms (fun t =>
      let i := termCurrent termMa t
      i * i * s.resUohm t + busV * i * f / 25 + 50000000000)) / 1000000

/-- The mean of the measures of the last second, in mW (R214). -/
def dissMean (l : List Nat) : Nat := sumL l id / (1000 * max 1 l.length)

/-- The measures of R214 and R215 for fold k over a millisecond: the bus in 10 mV and 10 mA
(now, and its 1 s and 10 ms averages), fold output power and output power of each channel in mW (1 s averages), and the current of each
terminal in mA (root mean square over the millisecond); what the lists leave out is 0. The limits stop by their reports, at the next carrier boundary (R214, R439). -/
def renewBudget (k : Nat) (busV busNow : BitVec 16) (busI busI10 : BitVec 16) (pout : Int)
    (chanMw : List (Fin 512 × Int)) (termMa : List (Fin 512 × Nat)) (s : State) : State :=
  let ms := (s.foldDiss k busV.toNat termMa :: (s.fold k).dissMs).take 1000
  let pdiss := dissMean ms
  let s := s.updFold k (fun f => { f with dissMs := ms })
  let s := s.setReg (foldBus k) (BitVec.ofNat 32 (busV.toNat * 65536 + busNow.toNat))
  let s := s.setReg (foldPower k) (BitVec.ofNat 32 (ux 16 (pout / 1000) * 65536 + min 0xFFFF (pdiss / 100)))
  let foldOver := decide (pout > (s.foldLimW k : Int) * 1000)
  let mw (ch : Nat) : Int := ((chanMw.find? (fun e => e.1.val == ch)).map (·.2)).getD 0
  let excess := (s.chansOfFold k).any (fun ch => decide (((s.chan ch).adm.power : Int) * 1000 < mw ch))
  let s := each (s.chansOfFold k) (fun ch s => chanPower k foldOver ch (mw ch) s) s
  let terms := (List.range 64).map (64 * k + ·)
  let s := each terms (fun t s => termI2t t (termCurrent termMa t) s) s
  let s := each terms (chanI2t k) s
  let s := limitOwn (srcFold k) 6 3 0 0 (foldOver && !excess) s
  let s := limitEvt (foldEvt k) (mkRep (srcFold k) 0 11 1 0 0) (decide (110000 * s.amb.kt < 1280 * pdiss)) s
  let dissOver := decide (125000 * s.amb.kt < 1280 * pdiss)
  let s := s.updFold k (fun f => { f with diss := dissOver })
  let s := limitOwn (srcFold k) 9 3 0 0 (dissOver || s.amb.hot) s
  limitOwn (srcFold k) 8 3 0 0 (decide (busI.toInt > 3000) || decide (busI10.toInt > 9000)) s

-- ---------------------------------------------------------------- what the fold supervisor does to segments (R194, R196, R198, R426)

/-- The segment faults of a closed span (R194 steps 3 and 4). -/
def spanFaults (t : Nat) (segs : List (Nat × Nat)) (s : State) : State := substAll t (nsegRecompute t (isolateAll t segs s))

/-- A spare pen's self-test starts (R196). -/
def startSelfTest (t p : Nat) (s : State) : State :=
  let x := s.term t
  if s.penRole t p == spare && x.selfTest.isNone && !x.underBist.contains p && !(s.substSt t == 1 && s.penIn t == p) then
    movePen t p underTest (s.updTerm t (fun y => { y with selfTest := some p }))
  else s

/-- A spare pen's self-test ends: the segments in `fails` failed; a pen left with fewer than 12 is retired (R196). -/
def endSelfTest (t : Nat) (fails : BitVec 16) (s : State) : State :=
  let x := s.term t
  match x.selfTest with
  | none => s
  | some p =>
    let s := s.updTerm t (fun y => { y with selfTest := none, passed := x.passed.filter (fun e => e.1 != p) })
    let s := isolateAll t (((List.range 16).filter (fun g => fails.getLsbD g)).map (fun g => (p, g))) s
    if s.healthy t p < 12 then movePen t p retired s
    else (movePen t p spare s).updTerm t (fun x => { x with passed := x.passed ++ [(p, s.bell.frame.toNat)] })

/-- The incoming pen switches in parallel (R198 step 3). -/
def startOverlap (t : Nat) (s : State) : State :=
  if s.substSt t = 1 then leadIncoming t (setSubst t 2 (movePen t (s.penIn t) inService s)) else s

/-- The outcome of a substitution with incoming pen i and wanted pen w, and the next waiting pen is served (R198, R199, R201). -/
def substOutcome (t i w : Nat) (s : State) : State :=
  let k := foldOf t
  substAll t (
    if s.healthy t i ≥ 12 then foldEvent k 2 1 2 t ((nsegRecompute t (movePen t w retired s)).bump (psReg t 0x28))
    else foldEvent k 3 1 2 t (nsegRecompute t (movePen t i retired s)))

/-- An act that has waited for a takeover. -/
def runWait (k : Nat) (x : FoldWait) (s : State) : State :=
  match x with
  | .isolate t l => spanFaults t l s
  | .testStart t p => startSelfTest t p s
  | .testEnd t fails => endSelfTest t fails s
  | .overlap t => startOverlap t s
  | .outcome t i w => substOutcome t i w s
  | .budget v n i j p c m => renewBudget k v n i j p c m s

/-- What has waited in fold k is done, in order (R426, log 143). -/
def settleFold (k : Nat) (s : State) : State :=
  forL (s.fold k).waits (runWait k) (s.updFold k (fun f => { f with waits := [] }))

/-- An act of the supervisor of fold k at pt `now`: at once, after what waits, or inside a takeover once that is over (R426). -/
def onFold (k now : Nat) (x : FoldWait) (s : State) : State :=
  if s.foldServed k now then runWait k x (settleFold k s) else s.updFold k (fun f => { f with waits := f.waits ++ [x] })

/-- DESAT_SPAN_CLOSE: 64 pt after a span opened it is decided (R194, R195). The decision is the gate-drive logic's, the moves are the
supervisor's (R426). -/
def execDesatSpanClose (t : Fin 512) (now : Nat) (s : State) : Res :=
  let x := s.term t.val
  if !x.spanOpen then .next s
  else
    let s := s.updTerm t.val (fun y => { y with spanOpen := false, span := [] })
    if x.span.length ≥ 4 then .next (overcurrent t.val now false s)
    else .next (onFold (foldOf t.val) now (.isolate t.val x.span) s)

/-- SPARE_SELF_TEST_START, at pt `now` (R196). -/
def execSpareSelfTestStart (t : Fin 512) (p : Fin 16) (now : Nat) (s : State) : Res :=
  .next (onFold (foldOf t.val) now (.testStart t.val p.val) s)

/-- SPARE_SELF_TEST_END, at pt `now` (R196). -/
def execSpareSelfTestEnd (t : Fin 512) (fails : BitVec 16) (now : Nat) (s : State) : Res :=
  .next (onFold (foldOf t.val) now (.testEnd t.val fails) s)

/-- SUBST_OVERLAP_START, at pt `now` (R198 step 3). -/
def execSubstOverlapStart (t : Fin 512) (now : Nat) (s : State) : Res :=
  .next (onFold (foldOf t.val) now (.overlap t.val) s)

/-- SUBST_RELEASE, at pt `now`: the overlap ends at its fixed time, and the outcome is decided (R198, R199, R426). -/
def execSubstRelease (t : Fin 512) (now : Nat) (s : State) : Res :=
  if s.substSt t.val != 2 then .next s
  else .next (onFold (foldOf t.val) now (.outcome t.val (s.penIn t.val) (s.penOut t.val)) (setSubst t.val 0 s))

/-- FOLD_BUDGET_RENEWAL, every 1 ms, at pt `now` (R214). -/
def execFoldBudgetRenewal (k : Fin 8) (busV busNow : BitVec 16) (busI busI10 : BitVec 16) (pout : Int)
    (chanMw : List (Fin 512 × Int)) (termMa : List (Fin 512 × Nat)) (now : Nat) (s : State) : Res :=
  .next (onFold k.val now (.budget busV busNow busI busI10 pout chanMw termMa) s)

/-- The average of the readings of the last 1 s, to 1/64 °C (R548, log 134). -/
def meanOf (l : List Int) : Int := if l.isEmpty then 0 else roundDiv (l.foldl (fun n x => n + x) 0) l.length

/-- COOLANT_DERATE, every 1 ms, at pt `now`: kT from the 1 s average of AMB_TEMP, DISS_STOP from 50 °C until below 48 °C, which stops
every fold at once, and OVERTEMP while AMB_TEMP is out of range or has not been renewed for 10 ms (R548, R549). `reading` is the sensor's
renewal in that ms, in °C × 64. -/
def execCoolantDerate (reading : Option (BitVec 16)) (now : Nat) (s : State) : Res :=
  let temp := reading.getD s.amb.temp
  let stale := if reading.isSome then 0 else s.amb.stale + 1
  let inRange := decide (-20 * 64 ≤ temp.toInt ∧ temp.toInt ≤ 100 * 64)
  let valid := inRange && decide (stale < 10)
  let hist := ((if inRange then some temp.toInt else none) :: s.amb.hist).take 1000
  let x : Int := if valid then meanOf (hist.filterMap id) else 45 * 64
  let hot := decide (50 * 64 ≤ x) || (s.amb.hot && decide (48 * 64 ≤ x))
  let kt : Nat := if x ≤ 35 * 64 then 1280 else (55 * 64 - x).toNat
  let rises := hot && !s.amb.hot
  let s := { s with amb := { ok := valid, temp, hist, stale, tin := x, kt, hot } }
  .next (each (List.range 8) (fun k s =>
    let s := if valid then overtempEnd k s else overtempOn k s
    let s := limitOwn (srcFold k) 9 3 0 0 (hot || (s.fold k).diss) s
    if rises then tripFold k now (mkRep (srcFold k) 15 9 3 0 0) s else s) s)

/-- FOLD_CFG_WRITE (R205, R217). -/
def execFoldCfgWrite (k : Fin 8) (v : W) (s : State) : Res :=
  if (s.chansOfFold k.val).any (fun ch => (s.chan ch).armed) || fld v 16 4 > fld v 20 4 then
    .next (foldEvent k.val 13 0 0 0 s)
  else .next (s.setReg (foldCfg k.val) (v &&& 0x00FF007F))

/-- A fold's causes are gone: no cause of its stop is still present. -/
def State.foldCausesGone (s : State) (k : Nat) : Bool := (s.fold k).causes.all (fun r => !s.causeLive r)

/-- FOLD_STOP_END: a stopped fold with no live channel leaves its stop at B(j) (R440). -/
def execFoldStopEnd (k : Fin 8) (s : State) : Res :=
  if (s.fold k.val).stopped && (s.chansOfFold k.val).isEmpty && s.foldCausesGone k.val then .next (foldFree k.val s)
  else .next s

/-- BUS_RISE, at pt `now`: a fold bus rises from below 20 V and the precharge limiter charges its capacitance (R482, R537). The
undervoltage source of the fold is active no more, its filter empty. -/
def execBusRise (k : Fin 8) (now : Nat) (s : State) : Res :=
  .next (foldLevel k.val 1 now false (s.updFold k.val (fun f => { f with precharge := true, filt := tset [] f.filt 1 [] })))

end Sys2Proof.Machine
end

