-- ==== Sys2Proof/Machine/Commands.lean ====
section
/-! DEFINITION. Station commands: entries, the general checks, acceptance, refusal, deferral (10 R288 to
R300). -/

namespace Sys2Proof.Machine

open Sys2Proof

-- statuses of R290
def stOk : Nat := 0
def stBusy : Nat := 1
def stNoRes : Nat := 2
def stBadHandle : Nat := 3
def stStale : Nat := 4
def stOverBudget : Nat := 5
def stFence : Nat := 6
def stSize : Nat := 7
def stState : Nat := 8
def stAuth : Nat := 9
def stUnderTest : Nat := 10
def stLayer : Nat := 11

-- opcodes of R301 to R312
def opChanNew : Nat := 0x0101
def opChanDel : Nat := 0x0102
def opBind : Nat := 0x0201
def opUnbind : Nat := 0x0202
def opLoad : Nat := 0x0301
def opModelLoad : Nat := 0x0401
def opModelTable : Nat := 0x0402
def opCommit : Nat := 0x0503
def opArm : Nat := 0x0601
def opDisarm : Nat := 0x0602

/-- NOPS of each command of the tables (R301 to R312); none for a code of no table. -/
def nopsOf (op : Nat) : Option Nat :=
  match op with
  | 0x0101 => some 9 | 0x0102 => some 1 | 0x0201 => some 2 | 0x0202 => some 1
  | 0x0301 => some 3 | 0x0401 => some 3 | 0x0402 => some 3
  | 0x0501 => some 1 | 0x0502 => some 3 | 0x0503 => some 1 | 0x0504 => some 1
  | 0x0601 => some 1 | 0x0602 => some 1 | 0x0603 => some 1 | 0x0604 => some 1 | 0x0605 => some 1 | 0x0606 => some 2
  | 0x0701 => some 3 | 0x0702 => some 1 | 0x0703 => some 1 | 0x0704 => some 1
  | 0x0711 => some 6 | 0x0712 => some 1 | 0x0713 => some 1 | 0x0714 => some 1
  | 0x0801 => some 4 | 0x0802 => some 1 | 0x0803 => some 1 | 0x0804 => some 1
  | 0x0901 => some 2 | 0x0902 => some 2 | 0x0903 => some 2 | 0x0904 => some 1 | 0x0905 => some 2
  | 0x0A01 => some 1 | 0x0B01 => some 1 | 0x0B02 => some 0 | 0x0B03 => some 0
  | 0x0C01 => some 2 | 0x0C02 => some 1 | 0x0C11 => some 2 | 0x0C12 => some 2 | 0x0C13 => some 1
  | 0x0C21 => some 3 | 0x0C22 => some 1 | 0x0C31 => some 4 | 0x0C32 => some 1
  | _ => none

/-- Reserved bits of the operand words (R301 to R312). -/
def reservedOf (op : Nat) (src : Nat) : List W :=
  match op with
  | 0x0101 => [0x010FFE00, 0xFFE0F000, 0, 0, 0, 0, 0, 0xFFFFFFF0, 0]
  | 0x0201 => [0, 0x0000C0E0]
  | 0x0401 => [0xFFFFFFE0, 0, 0]
  | 0x0502 => [0, 0xFFFFFF00, 0]
  | 0x0606 => [0, 0xFFFF0000]
  | 0x0701 => [0, 3, 0]
  | 0x0711 => [0, 0x0000FC8F, 0] ++ (match src with
      | 2 => [0, 0, 0xFFFFFFFC] | 4 => [0xFFFFFFE0, 0, 0] | 5 => [0xFFFFFFE0, 0xFFFFFFE0, 0xFFFFFFFF] | _ => [0, 0, 0])
  | 0x0801 => [0, 0xFFFFFF00, 0, 0]
  | 0x0902 => [0xFFFFFE00, 0xFFFFFF00]
  | 0x0A01 => [0x00FE0000]
  | 0x0B01 => [0xFFFFFEC0]
  | 0x0C01 => [0xFFF8EE00, 0]
  | 0x0C11 => [0x00E0E00C, 0]
  | 0x0C31 => [0xFFFFFFC0, 0, 0, 0]
  | _ => []

/-- Handle operands checked at 0xF4: operand, type, and whether 0 means none (R301 to R312). Commands whose own
checks begin with the handle are left out. -/
def handlesOf (op : Nat) : List (Nat × Nat × Bool) :=
  match op with
  | 0x0102 => [(0, 1, false)] | 0x0202 => [(0, 4, false)]
  | 0x0402 => [(0, 3, false)]
  | 0x0501 => [(0, 1, false)] | 0x0502 => [(0, 1, false)] | 0x0503 => [(0, 1, false)] | 0x0504 => [(0, 1, false)]
  | 0x0601 => [(0, 1, false)] | 0x0602 => [(0, 1, false)] | 0x0603 => [(0, 1, false)] | 0x0604 => [(0, 1, false)]
  | 0x0605 => [(0, 1, false)] | 0x0606 => [(0, 1, false)]
  | 0x0701 => [(0, 1, false)] | 0x0702 => [(0, 5, false)] | 0x0703 => [(0, 5, false)] | 0x0704 => [(0, 5, false)]
  | 0x0711 => [(0, 1, false)] | 0x0712 => [(0, 6, false)] | 0x0713 => [(0, 6, false)] | 0x0714 => [(0, 6, false)]
  | 0x0801 => [(0, 1, false)] | 0x0802 => [(0, 11, false)] | 0x0803 => [(0, 11, false)] | 0x0804 => [(0, 11, false)]
  | 0x0C02 => [(0, 9, false)] | 0x0C11 => [(1, 9, true)] | 0x0C12 => [(0, 10, false), (1, 1, false)] | 0x0C13 => [(0, 10, false)]
  | 0x0C21 => [(0, 1, false)] | 0x0C22 => [(0, 7, false)] | 0x0C31 => [(1, 1, true)] | 0x0C32 => [(0, 8, false)]
  | _ => []

/-- Whether a live object of a type stands at an index (R52 check 4). -/
def State.objLive (s : State) (ty i : Nat) : Bool :=
  match ty with
  | 1 => (s.chan i).live | 2 => (s.chan i).live | 3 => (s.chan i).live
  | 4 => (s.bind i).live | 5 => (s.cap i).live | 6 => (s.inj i).live | 7 => (s.motor i).live | 8 => (s.gate i).live
  | 9 => (s.timer i).live | 10 => (s.trip i).live | 11 => (tget Diag.none s.diags i).live | _ => false

/-- The checks of a handle operand (R52); none when it passes. -/
def State.handleCheck (s : State) (ty : Nat) (h : W) : Option Nat :=
  let i := hIndex h
  if hType h != ty || i ≥ typeLimit ty then some stBadHandle
  else if hGen h != s.gen ty i then some stStale
  else if !s.objLive ty i then some stBadHandle
  else none

/-- The objects a command names, for R295: type and index; types from 16 on name a flock's model engine, a domain, a
test unit and the stored fence record. A handle operand of 0 that means none names nothing. -/
def objsOf (e : CmdEntry) : List (Nat × Nat) :=
  let op := opcodeOf e
  let o := opN e 0
  if op = 0x0401 then [(16, fld o 0 5)]
  else if op = 0x0B01 then [(17, fld o 0 6)]
  else if op = 0x0A01 then [(18, fld o 0 17 + fld o 28 4 * 2 ^ 17)]
  else if op = 0x0901 then [(19, 0)]
  else if op = 0x0201 ∨ op = 0x0301 then [(1, hIndex o)]
  else (handlesOf op).filterMap (fun x => if x.2.2 && opN e x.1 == 0 then none else some (x.2.1, hIndex (opN e x.1)))

/-- The object on which a command in progress is found again: the first that it names. -/
def objOf (e : CmdEntry) : Option (Nat × Nat) := (objsOf e).head?

/-- Commands whose own checks begin with the handle of a channel: a handle that fails names no object. -/
def State.namesNothing (s : State) (e : CmdEntry) : Bool :=
  (opcodeOf e == 0x0201 || opcodeOf e == 0x0301) && (s.handleCheck 1 (opN e 0)).isSome

/-- The channel that an object belongs to. -/
def State.objChan (s : State) (o : Nat × Nat) : Option Nat :=
  match o.1 with
  | 1 => some o.2 | 2 => some o.2 | 3 => some o.2
  | 4 => if (s.bind o.2).live then some (s.bind o.2).chan else none
  | 5 => if (s.cap o.2).live then some (s.cap o.2).chan else none
  | 6 => if (s.inj o.2).live then some (s.inj o.2).chan else none
  | 7 => if (s.motor o.2).live then some (s.motor o.2).chan else none
  | _ => none

/-- An object has a command in progress, a deferred one among them; so has every object of a channel whose CHAN_DEL is in progress
(R56, R295). -/
def State.objBusy (s : State) (o : Nat × Nat) : Bool :=
  s.svc.inProg.any (fun p => opcodeOf p.entry == opChanDel && p.obj.isSome && (s.objChan o).map (fun c => (1, c)) == p.obj) ||
  s.svc.inProg.any (fun p => p.obj == some o) ||
    s.svc.defer.any (fun d => match d with | .command e _ _ => (objsOf e).contains o | _ => false)

/-- Domains whose units are under test (R531). -/
def State.domainTesting (s : State) (d : Nat) : Bool :=
  (tkeys s.bists).any (fun c =>
    let b := s.bist c
    b.st == 2 && (match b.level with
      | 1 => b.unit / 4 == d
      | 2 => b.unit == d
      | 3 => b.unit == d
      | 4 => b.unit / 8 == d
      | 5 => b.unit / 16 / 64 + 32 == d || b.unit / 16 / 16 == d
      | 6 => d == 46
      | 7 => d == 46
      | _ => false))

/-- Check 0xF5: a unit the command would act on is under test (R291, R528, R531). -/
def State.cmdTesting (s : State) (e : CmdEntry) : Bool :=
  let op := opcodeOf e
  let o := opN e 0
  let chan (i : Nat) : Bool := (s.chan i).terms.any s.termTesting
  if op = 0x0B01 then !bitOf o 8 && s.domainTesting (fld o 0 6)
  else if op = 0x0A01 then s.testing (fld o 28 4) (fld o 0 17)
  else if op = 0x0401 then s.testing 2 (fld o 0 5) || s.testing 3 (fld o 0 5)
  else if op = 0x0801 ∨ op = 0x0402 then chan (hIndex o)
  else if op = 0x0201 then chan (hIndex o)
  else false

/-- A field of a parameter block in DRAM, little-endian. -/
def State.blk (s : State) (base off n : Nat) : Nat := s.dramVal (base + off) n

/-- The ranges of a diagnosis parameter block (R359, R360, R363). -/
def State.diagBlockOk (s : State) (b kind : Nat) : Bool :=
  let v (o : Nat) : Nat := s.blk b o 2
  decide (v 0 ≤ 1 ∧ 1 ≤ v 2 ∧ v 2 ≤ 256 ∧ 10 ≤ s.blk b 4 4 ∧ 1 ≤ v 0x0C ∧ v 0x0C ≤ 3277 ∧ 1 ≤ v 0x0E ∧ v 0x0E ≤ 255) &&
    decide (1 ≤ v 0x10 ∧ v 0x10 ≤ 1024) && (v 0 == 0 || decide (8 ≤ v 0x12 ∧ v 0x12 ≤ 16)) && (kind != 3 || v 2 == 1) &&
    s.dramZero (b + 0x1C) 36

/-- Check 0xF7: operands that no own check covers (R292); the status of the refusal. A diagnosis block that lies in the
windows is read here, its AMP among the operands (R360). -/
def State.rangeCheck (s : State) (e : CmdEntry) : Option Nat :=
  let op := opcodeOf e
  let o := opN e 0
  let o1 := opN e 1
  let bad (b : Bool) : Option Nat := if b then some stNoRes else none
  match op with
  | 0x0502 =>
    let v := (opN e 2).toNat
    bad (match fld o1 0 8 with | 1 => decide (1 < v) | 2 => decide (1 < v) | 3 => v == 0 || decide (255 < v) | _ => true)
  | 0x0606 => bad (decide (32768 < fld o1 0 16))
  | 0x0902 => bad (fld o1 0 8 == 0 || decide (8 < fld o1 0 8))
  | 0x0B01 => bad (decide (47 < fld o 0 6))
  | 0x0A01 =>
    let k := fld o 24 4
    let u := fld o 0 17
    bad (!(match fld o 28 4 with
      | 1 => decide (k ≤ 2 ∧ u < 128)
      | 2 => decide (k ≤ 2 ∧ u < 32)
      | 3 => decide (k = 1 ∧ u < 32)
      | 4 => decide (k = 0 ∧ u < 256)
      | 5 => decide (k = 0 ∧ u < 8192)
      | 6 => decide (k ≤ 2 ∧ u < 8)
      | 7 => decide (k ≤ 2 ∧ u < 8)
      | _ => false))
  | 0x0C01 => bad (decide (5 < fld o 16 3) || fld o1 16 16 == 0)
  | 0x0C11 => bad (fld o 0 2 == 3)
  | 0x0801 =>
    let k := fld o1 0 8
    let b := (opN e 2).toNat
    bad (!(1 ≤ k && k ≤ 4) || (k != 4 && inWindows b 64 && !s.diagBlockOk b k))
  | _ => none

/-- Commands that are deferred actions while a window of their scope is open (R300, R404). -/
def State.scopeOpen (s : State) (e : CmdEntry) : Bool :=
  match opcodeOf e with
  | 0x0801 => s.layerOf (hIndex (opN e 0))
  | 0x0A01 => s.modOpen
  | 0x0B01 => s.modOpen
  | 0x0B03 => s.stnOpen
  | 0x0901 => s.stnOpen
  | _ => false

/-- Check 0xF8 (R58, R300, R404). -/
def State.layerForbids (s : State) (e : CmdEntry) : Bool :=
  let op := opcodeOf e
  if op = 0x0101 ∨ op = 0x0102 then s.stnOpen
  else if op = 0x0503 then
    let c := s.chan (hIndex (opN e 0))
    s.layerOf (hIndex (opN e 0)) && (match c.grp with | some g => g.modulates || g.slew.isSome | none => false)
  else s.scopeOpen e && decide (16 ≤ s.svc.defer.length)

/-- The general checks of R291: the first that fails gives the status and CHECK. -/
def State.general (s : State) (e : CmdEntry) : Option (Nat × Nat) :=
  let op := opcodeOf e
  match nopsOf op with
  | none => some (stState, 0xF0)
  | some n =>
    let c4ok := op == 0x0B02 || op == 0x0902 || op == 0x0903
    let res := (reservedOf op (fld (opN e 1) 4 3)).zipIdx.any (fun x => (opN e x.2 &&& x.1) != 0)
    let hnd := (handlesOf op).findSome? (fun x =>
      if x.2.2 && opN e x.1 == 0 then none else s.handleCheck x.2.1 (opN e x.1))
    if fld e.word0 0 4 != n then some (stSize, 0xF1)
    else if (e.word0 &&& 0x0000FCF0) != 0 || res then some (stSize, 0xF2)
    else if s.col.c4 && !c4ok then some (stState, 0xF3)
    else match hnd with
      | some st => some (st, 0xF4)
      | none =>
        if s.cmdTesting e && !s.namesNothing e then some (stUnderTest, 0xF5)
        else if !s.namesNothing e && (objsOf e).any s.objBusy then some (stBusy, 0xF6)
        else match s.rangeCheck e with
          | some st => some (st, 0xF7)
          | none => if s.layerForbids e then some (stLayer, 0xF8) else none

/-- Refuse a command (R15, R290). -/
def refuse (e : CmdEntry) (status check : Nat) (s : State) : State := complete e status 0 check 0 0 s

/-- Accept and complete a command at once. -/
def acceptNow (e : CmdEntry) (result : W) (s : State) : State := complete e stOk result 0 0 0 s

/-- Accept a command whose completion comes later (R295). -/
def acceptLater (e : CmdEntry) (result : W) (s : State) : State :=
  s.updSvc (fun v => { v with inProg := v.inProg ++
    [{ entry := e, obj := objOf e, result, silent := false, burning := false, ready := false }] })

/-- The DRAM block that a command reads, by address and length (R509). -/
def blockOf (e : CmdEntry) : Option (Nat × Nat) :=
  let o (i : Nat) : Nat := (opN e i).toNat
  match opcodeOf e with
  | 0x0301 => some (o 1, o 2) | 0x0401 => some (o 1, o 2) | 0x0402 => some (o 1, o 2)
  | 0x0711 => if fld (opN e 1) 4 3 = 4 then some (o 4, 8 * o 5) else none
  | 0x0801 => some (o 2, 64) | 0x0901 => some (o 0, o 1) | 0x0903 => some (o 0, 48) | 0x0905 => some (o 0, o 1)
  | 0x0C21 => some (o 1, o 2) | 0x0C31 => some (o 2, o 3)
  | _ => none

/-- The block of a command as it stands, where it lies in DRAM. -/
def State.readBlock (s : State) (e : CmdEntry) : List (BitVec 8) :=
  match blockOf e with
  | some (a, n) => if a + n ≤ dramSize then s.dramBytes a n else []
  | none => []

/-- Act on the block that was read when the command was taken (R509): where the host has written to it since, those bytes stand in
its place while the command acts. -/
def withBlock (e : CmdEntry) (blk : List (BitVec 8)) (f : State → State) (s : State) : State :=
  let now := s.readBlock e
  if now.length != blk.length || now == blk then f s
  else
    let a := ((blockOf e).map (·.1)).getD 0
    (f (s.putDram a blk)).putDram a now

/-- The core of a command row: the general checks, then its own part (R291). -/
def runCommand (own : CmdEntry → State → State) (e : CmdEntry) (s : State) : State :=
  match s.general e with
  | some (st, chk) => refuse e st chk s
  | none => own e s

/-- A command row: the command taken, if it is this one, is taken no longer; its own opcode must be the row's, else
it is refused at 0xF0 (log 22). The service core takes none but in PHASE 6 (R484, R485). -/
def commandRow (op : Nat) (own : CmdEntry → State → State) (e : CmdEntry) (s : State) : State :=
  if s.boot.phase != 6 then s else
  let mine := s.svc.taken == some e
  let blk := if mine then s.svc.takenBlk else []
  let s := if mine then s.updSvc (fun v => { v with taken := none, takenBlk := [] }) else s
  if opcodeOf e = op then withBlock e blk (runCommand own e) s else refuse e stState 0xF0 s

/-- The first failing of a list of own checks. -/
def firstFail : List (Bool × Nat × Nat) → Option (Nat × Nat)
  | [] => none
  | (ok, st, chk) :: r => if ok then firstFail r else some (st, chk)

/-- Own checks, then the effect. -/
def checked (e : CmdEntry) (l : List (Bool × Nat × Nat)) (eff : State → State) (s : State) : State :=
  match firstFail l with
  | some (st, chk) => refuse e st chk s
  | none => eff s

/-- A deferred action is accepted and held while its scope is open, once its own checks have passed; they are repeated when it is
carried out (R300, R404). -/
def held (e : CmdEntry) (eff : State → State) (s : State) : State :=
  if s.scopeOpen e then s.updSvc (fun v => { v with defer := v.defer ++ [.command e (s.readBlock e) false] }) else eff s

end Sys2Proof.Machine
end

