-- ==== Sys2Proof/Machine/Channels.lean ====
section
/-! DEFINITION. Channels: admission, deletion, bindings, staging groups, disarming, clearing, gated changes (02,
05, 10 R301 to R307). -/

namespace Sys2Proof.Machine

open Sys2Proof

-- ---------------------------------------------------------------- admission (R59 to R65)

/-- The lowest free index of a type (R50). -/
def State.freeIndex (s : State) (ty : Nat) : Option Nat := firstIdx (typeLimit ty) (fun i => !s.objLive ty i)

/-- The fields of a CHAN.NEW request (R302). -/
def admOf (e : CmdEntry) : Adm :=
  let o := opN e
  let kind := fld (o 0) 30 2
  { kind, first := fld (o 0) 0 9, sense := kind == 2 || (kind == 1 && bitOf (o 0) 29), motion := fld (o 0) 25 2
    divLog2 := fld (o 0) 20 4, wcc := fld (o 1) 0 12, ipk := fld (o 2) 16 16, irms := fld (o 2) 0 16
    exc := (o 3).toNat, vel := (o 4).toNat, temp := fld (o 5) 16 16, power := fld (o 5) 0 16, rload := (o 6).toNat
    wsKib := fld (o 1) 16 5, ringJ := fld (o 7) 0 4, largest := (o 8).toNat, engA := 0, engB := 0, phase := 0, capAt := 0 }

/-- Check 2 of R60: R41, R59 and R302. -/
def admRange (a : Adm) : Bool :=
  decide (1 ≤ a.kind ∧ a.kind ≤ 3) && (a.kind != 2 || a.first % 2 == 0) && (a.kind != 3 || a.first % 4 == 0) &&
    a.motion != 3 && (a.motion != 0 || (a.exc == 0 && a.vel == 0)) && (a.kind != 3 || a.motion == 0) &&
    decide (a.divLog2 ≤ 8 ∧ 1 ≤ a.wsKib ∧ a.wsKib ≤ 16 ∧ 1 ≤ a.wcc ∧ 1 ≤ a.power ∧ a.power ≤ 1000) &&
    decide (a.ringJ ≤ 14 ∧ 1 ≤ a.largest ∧ a.largest ≤ 16777216)

def Adm.terms (a : Adm) : List Nat := (List.range (kindTerms a.kind)).map (a.first + ·)
def Adm.sns (a : Adm) : Nat := a.first / 2

/-- The channel that claims a sense port (R43). -/
def State.senseOwner (s : State) (n : Nat) : Option Nat :=
  s.liveChans.find? (fun i => (s.chan i).adm.sense && (s.chan i).adm.sns == n)

/-- Check 6 of R60 against a fence record (R468). -/
def fenceAdmits (f : Fence) (a : Adm) : Bool :=
  a.terms.all (fun t =>
    let x := tget FenceTerm.none f.terms t
    fieldN x.kinds a.kind 1 == 1 && decide (a.ipk ≤ x.ipk ∧ a.irms ≤ x.irms ∧ a.temp ≤ x.temp) &&
      (a.motion == 0 || (fieldN x.tflags 2 2 == a.motion && decide (a.exc ≤ x.exc ∧ a.vel ≤ x.vel))))

/-- Load of an engine position of a flock in period φ: the sum of R61 without the new instance. -/
def State.engLoad (s : State) (f pos φ : Nat) : Nat :=
  sumL (s.chansOfFlock f) (fun i =>
    let a := (s.chan i).adm
    if (a.engA = pos ∨ a.engB = pos) ∧ φ % 2 ^ a.divLog2 = a.phase then 24 + a.wcc else 0)

/-- The largest left side of R61 over the 256 periods. -/
def State.engMax (s : State) (f pos : Nat) : Nat :=
  (List.range 256).foldl (fun m φ => max m (104 + s.engLoad f pos φ)) 0

/-- An instance of reservation w, divider 2 ^ dl and phase p fits on an engine (R61). -/
def State.engFits (s : State) (f pos w dl p : Nat) : Bool :=
  decide (s.engMax f pos ≤ s.loopCc) &&
    (List.range (256 / 2 ^ dl)).all (fun i => decide (104 + s.engLoad f pos (p + i * 2 ^ dl) + 24 + w ≤ s.loopCc))

/-- First fit of R62: active engine, shadow engine, phase. -/
def State.placeFor (s : State) (a : Adm) : Option (Nat × Nat × Nat) :=
  let f := flockOf a.first
  (List.range 4).findSome? (fun x => (List.range 4).findSome? (fun y =>
    if x = y then none
    else ((List.range (2 ^ a.divLog2)).find? (fun p =>
      s.engFits f x a.wcc a.divLog2 p && s.engFits f y a.wcc a.divLog2 p)).map (fun p => (x, y, p))))

/-- Dissipation of a terminal at the admission estimate, in pW (R63, R216). -/
def State.termEst (s : State) (t irms : Nat) : Nat :=
  irms * irms * s.resUohm t + 3200000 * s.regField (foldCfg (foldOf t)) 0 7 * irms + 50000000000

def State.foldEst (s : State) (k : Nat) : Nat :=
  sumL (s.chansOfFold k) (fun i => sumL (s.chan i).terms (fun t => s.termEst t (s.chan i).adm.irms))

def State.foldResv (s : State) (k : Nat) : Nat := sumL (s.chansOfFold k) (fun i => (s.chan i).adm.power)

/-- The fold budgets (R63). -/
def State.foldAdmits (s : State) (a : Adm) : Bool :=
  let k := foldOf a.first
  decide (s.foldResv k + a.power ≤ s.foldLimW k) && decide (a.irms * a.irms * a.rload ≤ a.power * 1000000000) &&
    decide (s.foldEst k + sumL a.terms (fun t => s.termEst t a.irms) ≤ 110000000000000)

def Adm.ringBytes (a : Adm) : Nat := 16384 * 2 ^ a.ringJ

/-- A gap for a capture ring in the capture pool: the lowest that fits whole (R64, R144, log 23). -/
def State.ringPlace (s : State) (bytes : Nat) : Option Nat :=
  let rings := s.liveChans.map (fun i => ((s.chan i).adm.capAt, (s.chan i).adm.ringBytes))
  let starts := capBase :: rings.map (fun r => r.1 + r.2)
  (starts.filter (fun b => decide (b + bytes ≤ dramSize) &&
    rings.all (fun r => decide (b + bytes ≤ r.1) || decide (r.1 + r.2 ≤ b)))).foldl (fun m b =>
      match m with | none => some b | some x => some (min x b)) none

/-- Size of the capture pool: 768 MiB (R143). -/
def poolBytes : Nat := 0x30000000

/-- The buffer rules (R64, R144). -/
def State.buffersAdmit (s : State) (a : Adm) : Bool :=
  decide (a.largest ≤ 1024 * 2 ^ a.ringJ) &&
    decide (sumL (s.chansOfFlock (flockOf a.first)) (fun i => (s.chan i).adm.wsKib) + a.wsKib ≤ 192) &&
    decide (sumL s.liveChans (fun i => (s.chan i).adm.ringBytes) + a.ringBytes ≤ poolBytes)

/-- Put a channel into a list that is in ascending order of ring address. -/
def State.insertRing (s : State) (i : Nat) : List Nat → List Nat
  | [] => [i]
  | j :: r => if (s.chan i).adm.capAt ≤ (s.chan j).adm.capAt then i :: j :: r else j :: s.insertRing i r

/-- The live channels in ascending order of ring address. -/
def State.ringOrder (s : State) : List Nat := s.liveChans.foldr s.insertRing []

/-- The rings with the places they take side by side from the start of the pool. -/
def State.packed (s : State) : Nat → List Nat → List (Nat × Nat)
  | _, [] => []
  | b, i :: r => (i, b) :: s.packed (b + (s.chan i).adm.ringBytes) r

/-- The rings move together to the start of the pool with what they hold, so that the free part of the pool is one gap (R144,
log 23). -/
def repack (s : State) : State :=
  let moves := s.packed capBase s.ringOrder
  let cells := s.dram.filter (fun e => decide (capBase ≤ e.1))
  let s' := { s with dram := tdrop s.dram (fun a => decide (capBase ≤ a)) }
  let s' := forL cells (fun e s' =>
    match moves.find? (fun m => decide ((s.chan m.1).adm.capAt ≤ e.1 ∧ e.1 < (s.chan m.1).adm.capAt + (s.chan m.1).adm.ringBytes)) with
    | some m => s'.setDramByte (m.2 + (e.1 - (s.chan m.1).adm.capAt)) e.2
    | none => s') s'
  forL moves (fun m s' => s'.updChan m.1 (fun c => { c with adm := { c.adm with capAt := m.2 } })) s'

/-- A gap for a ring is made where the pool has room and no gap that fits. -/
def roomFor (bytes : Nat) (s : State) : State := if (s.ringPlace bytes).isSome then s else repack s

/-- The settings of a channel at creation (R180). -/
def State.createSet (s : State) (kind : Nat) : ModSet :=
  let loop := s.loopNext
  { mode := match kind with | 1 => 3 | 2 => 2 | _ => 4
    kLog2 := if loop * 4 ≤ 800000 then 2 else if loop * 2 ≤ 800000 then 1 else 0
    dt := 80, minp := 48, spread := 0, slew := 0 }

/-- The ten checks of R60 in order. A flock SRAM or a sense port that is retired is not free (R529). -/
def State.admChecks (s : State) (a : Adm) : List (Bool × Nat × Nat) :=
  let f := flockOf a.first
  let k := foldOf a.first
  [ (s.sec.fence.isSome, stAuth, 1),
    (admRange a, stNoRes, 2),
    (!(a.terms.any s.termTesting || (a.sense && s.testing 4 a.sns)), stUnderTest, 3),
    (s.flockOn f && s.foldOn k && !(s.fold k).stopped, stState, 4),
    (!s.badUnit 3 f && a.terms.all (fun t => (s.ownerOf t).isNone) &&
      (!a.sense || (s.senseOwner a.sns).isNone && !s.badUnit 4 a.sns) && (s.freeIndex 1).isSome, stNoRes, 5),
    ((s.sec.fence.map (fun fr => fenceAdmits fr a)).getD false, stFence, 6),
    (a.terms.all (fun t => decide (a.ipk ≤ s.ipeak t ∧ a.irms ≤ s.icont t)), stOverBudget, 7),
    ((s.placeFor a).isSome, stOverBudget, 8),
    (s.foldAdmits a, stOverBudget, 9),
    (s.buffersAdmit a, stSize, 10) ]

/-- The channel that an admitted request creates (R45, R180, R303). -/
def createChan (e : CmdEntry) (a : Adm) (s : State) : State :=
  let i := (s.freeIndex 1).getD 0
  let (x, y, p) := (s.placeFor a).getD (0, 1, 0)
  let s := roomFor a.ringBytes s
  let at_ := (s.ringPlace a.ringBytes).getD capBase
  let c : Chan := { Chan.free with
    st := .idle, adm := { a with engA := x, engB := y, phase := p, capAt := at_ }
    safe := bitOf (opN e 0) 28, audible := bitOf (opN e 0) 27, md := s.createSet a.kind
    lfsr := BitVec.ofNat 16 (i + 1) }
  let s := s.setChan i c
  let s := each a.terms (fun t s =>
    (s.setReg (psReg t 0x1C) (BitVec.ofNat 32 (min a.ipk (s.ipeak t)))).updTerm t (fun x => { x with ocHist := [], ocAct := false })) s
  let f := flockOf a.first
  let s := each [x, y] (fun q s => s.setField (engReg (4 * f + q) 0x04) 16 16 0) s
  acceptNow e (mkHandle 1 i (s.gen 1 i)) s

/-- CHAN_NEW (R60, R303). -/
def execChanNew (e : CmdEntry) (s : State) : Res :=
  .next (commandRow opChanNew (fun e s => checked e (s.admChecks (admOf e)) (createChan e (admOf e)) s) e s)

-- ---------------------------------------------------------------- deletion (R56)

/-- The engine of a channel's instance. -/
def Chan.engOf (c : Chan) (side : Bool) : Nat := 4 * c.flock + (if side then c.adm.engB else c.adm.engA)

/-- The token of a channel is withdrawn from the engine that holds it (R407, R454). -/
def withdrawToken (ch : Nat) (s : State) : State :=
  let c := s.chan ch
  match c.lease.holder with
  | none => s.setChan ch { c with lease := { c.lease with grant := none, yield_ := false } }
  | some b =>
    (s.bump (hltReg (c.engOf b) 0x14)).setChan ch { c with lease := { c.lease with holder := none, yield_ := false } }

/-- Both loop instances of a channel halt: a run in progress ends with nothing delivered (R56 step 2). -/
def haltRuns (ch : Nat) (s : State) : State :=
  each ((tkeys s.runs).filter (fun e => (s.run e).live && (s.run e).ch == ch && !(s.run e).model)) (fun e s => s.setRun e Run.none) s

/-- The objects of a channel (R56 step 3). -/
def State.bindsOf (s : State) (ch : Nat) : List Nat := s.liveBinds.filter (fun i => (s.bind i).chan == ch)
def State.capsOf (s : State) (ch : Nat) : List Nat := (tkeys s.caps).filter (fun i => (s.cap i).live && (s.cap i).chan == ch)

/-- Commands in progress on objects that a deletion takes: an UNBIND, CAP_STOP or INJ_STOP has its end in the deletion and completes OK,
an INJ_START or MODEL_TABLE ends with STATE (R56, R313, log 128). -/
def endObjCommands (ch : Nat) (s : State) : State :=
  let s := each (s.bindsOf ch) (fun i s => finishObj opUnbind (4, i) stOk s) s
  let s := each (s.capsOf ch) (fun i s => finishObj 0x0703 (5, i) stOk s) s
  let s := match s.injOf ch with
    | some i => finishObj 0x0713 (6, i) stOk (finishObj 0x0712 (6, i) stState s)
    | none => s
  finishObj opModelTable (3, ch) stState s

/-- Steps 1 to 3 of R56. The objects keep their indices until the completion. -/
def deleteStart (ch : Nat) (s : State) : State :=
  let s := each [1, 2, 3] (fun ty s => s.advGen ty ch) s
  let s := withdrawToken ch s
  let s := haltRuns ch s
  let s := each (s.bindsOf ch) (fun i s => if (s.bind i).ending then s else s.advGen 4 i) s
  let s := each (s.capsOf ch) (fun i s => haltCap i (s.advGen 5 i)) s
  let s := match s.injOf ch with
    | some i => (s.advGen 6 i).updInj i (fun x => { x with st := 3, zero := false, stop := false })
    | none => s
  let s := match s.motorOf ch with | some i => motorIdle ch (s.advGen 7 i) | none => s
  let s := each (tkeys s.timers) (fun i s =>
    if (s.chan ch).terms.contains (s.timer i).term then
      each (s.tripsOf i) (fun g s => s.setTrip g { s.trip g with blank := false }) (s.setTimer i { s.timer i with open_ := false })
    else s) s
  let s := each (tkeys s.trips) (fun g s => s.setTrip g { s.trip g with chans := (s.trip g).chans.filter (fun c => c != ch) }) s
  let s := debugDone (s.updCol (fun c => { c with reacts := c.reacts.filter (fun r => r.chan != ch) }))
  let s := endObjCommands ch s
  let s := { s with binds := tmap Binding.none s.binds (fun _ b => if b.chan == ch then { b with ending := false } else b) }
  let s := s.updChan ch (fun c => { c.leaveArmed.dropZc with
    st := .deleting, clearPend := false, grp := none, commit := none, held := [], opened := false })
  -- a build in progress or a table not yet swapped in is abandoned (R342)
  let s := s.updChan ch (fun c => { c with mdl := { c.mdl with building := false, swapPend := false, refitWait := false, opn := false } })
  refreshGates (tripLeft ch s)

/-- CHAN_DEL (R56): refused while armed and while a gate names the channel for lag compensation. -/
def execChanDel (e : CmdEntry) (s : State) : Res :=
  .next (commandRow opChanDel (fun e s =>
    let ch := hIndex (opN e 0)
    checked e [(!(s.chan ch).armed, stState, 1),
      ((tkeys s.gates).all (fun g => !((s.gate g).live && (s.gate g).lagChan == some ch)), stState, 2)]
      (fun s => acceptLater e 0 (deleteStart ch s)) s) e s)

/-- The register words of the channel whose first terminal is t: loop, capture, injection, model, lease, monitor and motor words
of its position, which go back to their reset values at its deletion. -/
def chanWords (t a : Nat) : Bool :=
  let within (base n : Nat) : Bool := decide (base ≤ a ∧ a < base + n)
  within (loopReg t 0x80) 0x80 || within (capReg t 0) 0x20 || within (injReg t 0) 0x10 || within (mdlReg t 0) 0x40 ||
    within (leaseReg t 0) 0x10 || within (pmReg t 0) 0x20 || (t % 4 == 0 && within (motReg t 0) 0x40)

/-- An engine has rejoined once every channel that it rejoined has had its first compared run, or has left it (R421). -/
def rejoinDone (f : Nat) (s : State) : State :=
  each [0, 1, 2, 3] (fun q s =>
    let e := 4 * f + q
    let waits := (s.chansOfFlock f).any (fun ch =>
      let c := s.chan ch
      c.lease.firstCmp && c.lease.holder.isSome && c.engOf (!c.lease.holder.getD false) == e)
    if (s.hlt e).hstate != 3 || !s.inSvc e || waits then s else s.updHlt e (fun h => { h with hstate := 0 })) s

/-- Steps 5 and 6 of R56: workspace, heft, registers and objects of the channel become free together, and the conditions
that name it end; a broken wire of its flock block stays a condition of the block (R435). -/
def deleteEnd (ch : Nat) (s : State) : State :=
  let c := s.chan ch
  let a := c.adm.first
  let s := s.zeroWs ch
  let s := each c.terms (fun t s =>
    let s := (((s.setWide (modReg t 0x18) 0).setWide (modReg t 0x20) 0).setWide (modReg t 0x28) 0).setWide (vsUnconf t) 0
    let s := s.updTerm t (fun x => { x with
      residue := 0, cur := none, credit := 0, shRow := 0, shCmp := none, parRun := 0, rbHist := [], ocHist := [], ocAct := false })
    let s := s.setField (psReg t 0x04) 2 1 0
    let s := liveEnd (fun r => r == deratedRep t) s
    each [0x08, 0x10, 0x14, 0x30] (fun o s => s.setReg (modReg t o) 0) (s.setReg (psReg t 0x1C) 0)) s
  let names (r : Report) : Bool := r.okind == 1 && r.object == ch
  let s := s.updCol (fun k => { k with live := k.live.filter (fun r => !(names r && r.cause == 0xF0)) })
  let s := liveEnd names s
  let s := signalVec 10 (s.clearRegs (chanWords a))
  let s := { s with binds := tdrop s.binds (fun i => (s.bind i).chan == ch) }
  let s := each (tkeys s.ports) recount s
  let s := { s with caps := tdrop s.caps (fun i => (s.cap i).chan == ch) }
  let s := { s with injs := tdrop s.injs (fun i => (s.inj i).chan == ch) }
  let s := { s with motors := tdrop s.motors (fun i => (s.motor i).chan == ch) }
  let s := each (tkeys s.gates) (fun g s => s.updGate g (fun x => { x with bound := x.bound.filter (fun b => b != ch) })) s
  let s := { s with chans := tset Chan.free s.chans ch Chan.free }
  let f := flockOf a
  let s := rejoinDone f (each [c.adm.engA, c.adm.engB] (fun q s => s.setField (engReg (4 * f + q) 0x04) 16 16 0) s)
  refreshGates (finishObj opChanDel (1, ch) stOk s)

-- ---------------------------------------------------------------- input words (R136, R138, R148)

/-- The tag of a sample from a source address (R148). -/
def tagOf (sample : BitVec 24) (addr : Nat) : Nat := crc 8 0x07 0xFF (bitsOf 24 sample.toNat ++ bitsOf 10 addr)

/-- What an input holds that has received no valid sample (R138). -/
def emptyWord (addr : Nat) : InWord := { tag := tagOf 0 addr, sample := 0 }

/-- Word w of a bank: 0 set-point, 1 feed-forward, 2 injection. -/
def Bank.get (b : Bank) (w : Nat) : InWord := match w with | 0 => b.spt | 1 => b.ffw | _ => b.inj

/-- Bits [23:0] of a bank's STATUS word: FRAME and the FRESH bits (R136). -/
def Bank.status (b : Bank) : BitVec 24 := BitVec.ofNat 24 (b.frame % 256 * 65536 + b.fresh % 8)

/-- The bank with the TAG of its STATUS word, over bits [23:0] with source address 0x3FF (R148). -/
def Bank.tagged (b : Bank) : Bank := { b with stTag := tagOf b.status 0x3FF }

/-- Write one word of a bank with its FRESH bit. -/
def Bank.put (b : Bank) (w : Nat) (x : InWord) (fresh : Bool) : Bank :=
  let fr := b.fresh - fieldN b.fresh w 1 * 2 ^ w + b2n fresh * 2 ^ w
  (match w with
  | 0 => { b with spt := x, fresh := fr }
  | 1 => { b with ffw := x, fresh := fr }
  | _ => { b with inj := x, fresh := fr } : Bank).tagged

-- ---------------------------------------------------------------- bindings (R130 to R132)

/-- BIND (R131). -/
def execBind (e : CmdEntry) (s : State) : Res :=
  .next (commandRow opBind (fun e s =>
    let ch := hIndex (opN e 0)
    let o := opN e 1
    let port := fld o 8 4
    let slot := fld o 0 5
    let input := fld o 12 2
    let units := fld o 16 8
    let hnd := s.handleCheck 1 (opN e 0)
    checked e [(hnd.isNone, hnd.getD 0, 1),
      (!(s.chan ch).armed, stState, 2),
      (decide (input ≤ 2 ∧ units ≤ 9) && (s.spWide port || decide (slot ≤ 1)), stNoRes, 3),
      (!s.spWide port || (s.kindOf port slot == 1 || s.kindOf port slot == 2), stState, 4),
      (!s.liveBinds.any (fun i => (s.bind i).chan == ch && (s.bind i).input == input) && (input != 2 || (s.injOf ch).isNone), stNoRes, 5),
      (decide ((s.takenAtSlot port slot).length < 4), stNoRes, 6),
      ((s.freeIndex 4).isSome, stNoRes, 7)]
      (fun s =>
        let i := (s.freeIndex 4).getD 0
        let s := s.setBind i { live := true, port, slot, chan := ch, input, units, exp := fld o 24 8, ending := false }
        let s := s.updChan ch (fun c => { c with inp := { c.inp with
          bank0 := c.inp.bank0.put input (emptyWord (32 * port + slot)) false, bank1 := c.inp.bank1.put input (emptyWord (32 * port + slot)) false } })
        acceptNow e (mkHandle 4 i (s.gen 4 i)) s) s) e s)

/-- UNBIND: removed at the next B(j) (R132). -/
def execUnbind (e : CmdEntry) (s : State) : Res :=
  .next (commandRow opUnbind (fun e s =>
    let i := hIndex (opN e 0)
    checked e [(!(s.chan (s.bind i).chan).armed, stState, 1)]
      (fun s => acceptLater e 0 ((s.setBind i { s.bind i with ending := true }).advGen 4 i)) s) e s)

/-- Bindings removed at B(j). -/
def unbindAtBoundary (s : State) : State :=
  each (s.liveBinds.filter (fun i => (s.bind i).ending)) (fun i s =>
    finishObj opUnbind (4, i) stOk (s.setBind i Binding.none)) s

-- ---------------------------------------------------------------- staging (R304, R305)

/-- STAGE: opens a group, discarding an earlier one (R13, R305). -/
def execStage (e : CmdEntry) (s : State) : Res :=
  .next (commandRow 0x0501 (fun e s =>
    let ch := hIndex (opN e 0)
    checked e [((s.chan ch).st != .deleting, stState, 1)]
      (fun s => acceptNow e 0 (s.updChan ch (fun c => { c with grp := some Group.none }))) s) e s)

/-- STAGE_SET (R305). -/
def execStageSet (e : CmdEntry) (s : State) : Res :=
  .next (commandRow 0x0502 (fun e s =>
    let ch := hIndex (opN e 0)
    let v := (opN e 2).toNat
    match (s.chan ch).grp with
    | none => refuse e stState 1 s
    | some g =>
      let g := match fld (opN e 1) 0 8 with
        | 1 => { g with safe := some (v == 1) }
        | 2 => { g with audible := some (v == 1) }
        | _ => { g with zcTimeout := some v }
      acceptNow e 0 (s.updChan ch (fun c => { c with grp := some g }))) e s)

/-- COMMIT (R179, R191, R304). -/
def execCommit (e : CmdEntry) (s : State) : Res :=
  .next (commandRow opCommit (fun e s =>
    let ch := hIndex (opN e 0)
    let c := s.chan ch
    match c.grp with
    | none => refuse e stState 1 s
    | some g =>
      let m := c.md.with g
      checked e [(!g.modulates || s.modOk c m (g.audible.getD c.audible), stState, 2),
        (decide (m.slew ≤ 13) && (m.slew == 0 || decide (64 ≤ m.dt)), stState, 3)]
        (fun s => acceptLater e 0 (s.setChan ch { c with grp := none, commit := some g })) s) e s)

/-- ABORT (R305). -/
def execAbort (e : CmdEntry) (s : State) : Res :=
  .next (commandRow 0x0504 (fun e s =>
    let ch := hIndex (opN e 0)
    checked e [((s.chan ch).grp.isSome, stState, 1)]
      (fun s => acceptNow e 0 (s.updChan ch (fun c => { c with grp := none }))) s) e s)

-- ---------------------------------------------------------------- gated changes (R139 to R142)

/-- A stop is pending or ramping (R142). -/
def Chan.stopping (c : Chan) : Bool :=
  c.zc.stopping || c.zc.pend.any (fun x => x.kind == .stop) || c.zc.ramp.any (fun r => r.kind == .stop)

/-- The effective gain a change leads to; it stays 0 while a start is pending. `g` is the new GAIN of a gain change. -/
def Chan.zcTarget (c : Chan) (k : ZcKind) (g : Nat) : Nat :=
  match k with
  | .stop => 0
  | .mute => 0
  | .unmute => if c.starting then 0 else c.zc.gain
  | .start => if c.zc.muted then 0 else c.zc.gain
  | .gain => if c.zc.muted || c.starting then 0 else g

/-- Ask for a gated change (R141, R142): a newer gain takes the place of a pending one and goes on with its wait; any other change joins
those that wait (log 24). -/
def askZc (k : ZcKind) (g : Nat) (c : Chan) : Chan :=
  let l := c.zc.pend
  let l := if k == .gain && l.any (fun x => x.kind == .gain) then
      l.map (fun x => if x.kind == .gain then { x with target := g } else x)
    else l ++ [{ kind := k, target := g, left := none }]
  { c with zc := { c.zc with pend := l } }

/-- A gated change takes effect whole: the effective gain and the marks it leaves (R139, R141). -/
def landZc (k : ZcKind) (g : Nat) (c : Chan) : Chan :=
  let c := { c with zc := { c.zc with eff := c.zcTarget k g } }
  match k with
  | .start => c
  | .stop => { c with zc := { c.zc with stopping := true } }
  | .mute => { c with zc := { c.zc with muted := true } }
  | .unmute => { c with zc := { c.zc with muted := false } }
  | .gain => { c with zc := { c.zc with gain := g } }

/-- The pending changes take effect together at a crossing, in the order in which they were accepted; those accepted since the last
boundary become pending for `t` boundaries. -/
def Chan.landAll (c : Chan) (t : Nat) : Chan :=
  let now := c.zc.pend.filter (fun x => decide (0 < x.left.getD 0))
  let rest := (c.zc.pend.filter (fun x => decide (x.left.getD 0 = 0))).map (fun x => { x with left := some (x.left.getD t) })
  now.foldl (fun c x => landZc x.kind x.target c) { c with zc := { c.zc with pend := rest } }

/-- DISARM (R306, R307, R141, R142). -/
def execDisarm (e : CmdEntry) (s : State) : Res :=
  .next (commandRow opDisarm (fun e s =>
    let ch := hIndex (opN e 0)
    let c := s.chan ch
    checked e [(c.armed, stState, 1)] (fun s =>
      if !c.audible then acceptLater e 0 (s.setChan ch { c with disarmPend := true })
      else if c.starting then acceptNow e 0 (s.setChan ch { c with zc := { c.zc with
        pend := c.zc.pend.filter (fun x => x.kind != .start), stopping := true, eff := 0 } })
      else if c.stopping then acceptNow e 0 s
      else acceptNow e 0 (s.setChan ch (askZc .stop 0 c))) s) e s)

/-- A channel becomes idle by a disarm: its motor is IDLE, its counts return to 0 (R238, R307, R393). -/
def goIdle (ch : Nat) (s : State) : State :=
  refreshGates (motorIdle ch (s.updChan ch (fun c =>
    let c := { c.leaveArmed with st := .idle }
    { c with zc := { c.zc with stopping := false, eff := c.restGain } })))

/-- DISARM_TAKE_EFFECT: at its loop boundary the channel is idle (R307). -/
def execDisarmTakeEffect (ch : Fin 512) (s : State) : Res :=
  if (s.chan ch.val).armed && (s.chan ch.val).disarmPend then
    .next (finishObj opDisarm (1, ch.val) stOk (goIdle ch.val s))
  else .next s

/-- GATED_STOP_IDLE: the last latch of the sample that carries gain 0 is past (R141). -/
def execGatedStopIdle (ch : Fin 512) (s : State) : Res :=
  if (s.chan ch.val).zc.stopping && (s.chan ch.val).armed then .next (goIdle ch.val s) else .next s

/-- ZC_TIMEOUT: T boundaries have passed without a crossing: the change ramps, and every other becomes pending afresh after the ramp
(R141, R142). -/
def execZcTimeout (ch : Fin 512) (s : State) : Res :=
  let c := s.chan ch.val
  match c.zc.pend.find? (fun x => x.left == some 0) with
  | some x =>
    let s := s.setChan ch.val { c with zc := { c.zc with
      ramp := some { kind := x.kind, target := x.target, from_ := c.zc.eff, step := 0 }
      pend := (c.zc.pend.erase x).map (fun y => { y with left := none }), timeouts := min 0xFFFF (c.zc.timeouts + 1) } }
    .next (raise (intEvt c.flock) (mkRep (srcFlock c.flock) 0 7 0 1 ch.val) s)
  | _ => .next s

/-- MUTE, UNMUTE and GAIN share their checks (R306, R142). -/
def gainRow (op : Nat) (k : ZcKind) (e : CmdEntry) (s : State) : State :=
  commandRow op (fun e s =>
    let ch := hIndex (opN e 0)
    let c := s.chan ch
    checked e [(c.audible, stState, 1), (!c.stopping, stBusy, 2)]
      (fun s => acceptNow e 0 (s.setChan ch (askZc k (fld (opN e 1) 0 16) c))) s) e s

def execMute (e : CmdEntry) (s : State) : Res := .next (gainRow 0x0604 .mute e s)
def execUnmute (e : CmdEntry) (s : State) : Res := .next (gainRow 0x0605 .unmute e s)
def execGain (e : CmdEntry) (s : State) : Res := .next (gainRow 0x0606 .gain e s)

-- ---------------------------------------------------------------- CLEAR (R54, R209, R306, R440)

/-- A cause that keeps CLEAR away (R54, R209, R417): a condition still present, an active trip that stopped the
channel, a fold stop whose causes are present, or LEASE_LOST with no allotted engine in service. -/
def State.clearBlocked (s : State) (ch : Nat) : Bool :=
  let c := s.chan ch
  c.causes.any (fun r => s.causeLive r ||
      (r.source == srcFlock c.flock && r.cause == 0x62 && !s.inSvc (4 * c.flock + c.adm.engA) && !s.inSvc (4 * c.flock + c.adm.engB))) ||
    (tkeys s.trips).any (fun g => (s.trip g).active && (s.trip g).fired.contains ch) ||
    ((s.fold c.foldIx).stopped && (!s.foldCausesGone c.foldIx ||
      (tkeys s.trips).any (fun g => (s.trip g).active && (s.trip g).firedFolds.contains c.foldIx)))

/-- CLEAR (R54, R306): the channel is idle from its next carrier boundary, and the first of a stopped fold ends the fold stop (R440). -/
def execClear (e : CmdEntry) (s : State) : Res :=
  .next (commandRow 0x0603 (fun e s =>
    let ch := hIndex (opN e 0)
    let c := s.chan ch
    checked e [(c.st == .stopped, stState, 1), (!s.clearBlocked ch, stState, 2)] (fun s =>
      let s := if (s.fold c.foldIx).stopped then foldFree c.foldIx s else s
      acceptNow e 0 (s.setChan ch { c with clearPend := true })) s) e s)

end Sys2Proof.Machine
end

