-- ==== Sys2Proof/Machine/Objects.lean ====
section
/-! DEFINITION. The commands of timers, trip groups, beam gates, motors, captures and injections, and the queries
(10 R308 to R312, with 07 R203 to R207, 08 R241 to R246, 13 R390 to R392, 14 R397, R398). -/

namespace Sys2Proof.Machine

open Sys2Proof

-- ---------------------------------------------------------------- timers (R202, R203)

/-- The lowest free timer index of a fold (R202, R312). -/
def State.freeTimer (s : State) (k : Nat) : Option Nat :=
  ((List.range 64).find? (fun i => !(s.timer (64 * k + i)).live)).map (64 * k + ·)

/-- TIMER_NEW (R202, R312). -/
def execTimerNew (e : CmdEntry) (s : State) : Res :=
  .next (commandRow 0x0C01 (fun e s =>
    let o := opN e 0
    let o1 := opN e 1
    let t := fld o 0 9
    match s.freeTimer (foldOf t) with
    | none => refuse e stNoRes 1 s
    | some i =>
      acceptNow e (mkHandle 9 i (s.gen 9 i)) (s.setTimer i
        { live := true, term := t, event := fld o 16 3, delay := fld o1 0 16, width := fld o1 16 16
          retrig := bitOf o 12, open_ := false, openAt := 0 })) e s)

/-- A timer is named by a trip group or a motor (R203, R392). -/
def State.timerNamed (s : State) (i : Nat) : Bool :=
  !(s.tripsOf i).isEmpty || s.motorTimer i

/-- TIMER_DEL (R203). -/
def execTimerDel (e : CmdEntry) (s : State) : Res :=
  .next (commandRow 0x0C02 (fun e s =>
    let i := hIndex (opN e 0)
    checked e [(!s.timerNamed i, stState, 1)]
      (fun s => acceptNow e 0 ((s.setTimer i Timer.none).advGen 9 i)) s) e s)

-- ---------------------------------------------------------------- trip groups (R206, R207)

/-- TRIP_SET (R206, R207, R312). -/
def execTripSet (e : CmdEntry) (s : State) : Res :=
  .next (commandRow 0x0C11 (fun e s =>
    let o := opN e 0
    let g := fld o 16 5
    let n := fld o 8 4 + 1
    let m := fld o 4 4 + 1
    let tm := if opN e 1 = 0 then none else some (hIndex (opN e 1))
    checked e [(!(s.trip g).live, stNoRes, 1), (decide (n ≤ m), stNoRes, 2),
      ((tm.map (fun i => decide ((s.timer i).width ≤ 160))).getD true, stSize, 3)]
      (fun s => acceptNow e (mkHandle 10 g (s.gen 10 g)) (s.setTrip g
        { live := true, mask := fld o 24 8, high := bitOf o 12, n, m, scope := fld o 0 2, timer := tm, chans := []
          active := false, fired := [], firedFolds := [], hist := [], blank := false, blankAt := 0, blankTo := 0, blankEnd := none })) s) e s)

/-- TRIP_ADD: with the filtered input active the channel is tripped at once (R207). `now` is the pt of acceptance. -/
def execTripAdd (e : CmdEntry) (now : Nat) (s : State) : Res :=
  .next (commandRow 0x0C12 (fun e s =>
    let g := hIndex (opN e 0)
    let ch := hIndex (opN e 1)
    let x := s.trip g
    checked e [(x.scope == 1, stState, 1), (decide (x.chans.length < 64), stNoRes, 2)]
      (fun s =>
        let s := s.setTrip g { x with chans := if x.chans.contains ch then x.chans else x.chans ++ [ch] }
        acceptNow e 0 (if x.active && !x.chans.contains ch then tripActOn g now ch s else s)) s) e s)

/-- TRIP_DEL: refused while its trip is latched (R312). -/
def execTripDel (e : CmdEntry) (s : State) : Res :=
  .next (commandRow 0x0C13 (fun e s =>
    let g := hIndex (opN e 0)
    let x := s.trip g
    let acts := x.active && ((x.scope == 1 && !x.chans.isEmpty) || x.scope == 2)
    checked e [(!acts && x.fired.isEmpty && x.firedFolds.isEmpty, stState, 1)]
      (fun s =>
        let s := each (List.range 8) (fun k s => s.updReg (tripAct k) (fun w => clrBit w g)) s
        acceptNow e 0 ((s.setTrip g Trip.none).advGen 10 g)) s) e s)

-- ---------------------------------------------------------------- parameter blocks

/-- A field in two's complement. -/
def State.blkI (s : State) (base off n : Nat) : Int := sx (8 * n) (s.blk base off n)

/-- Bytes of a block that must be 0. -/
def State.blkZero (s : State) (base off n : Nat) : Bool := s.dramZero (base + off) n

/-- A 64-byte block wholly in the host sample windows (R143). -/
def blockPlaced (a len : W) : Bool := len == 64 && inWindows a.toNat 64

-- ---------------------------------------------------------------- beam gates (R397, R398)

/-- The field ranges of a gate block (R397). -/
def State.gateBlockOk (s : State) (b : Nat) : Bool :=
  let d (off : Nat) : Bool := decide (-1600000 ≤ s.blkI b off 4 ∧ s.blkI b off 4 ≤ 1600000)
  s.blk b 0 2 == 1 && decide (s.blk b 2 2 ≤ 1) && decide (s.blk b 4 1 ≤ 15 ∧ s.blk b 5 1 ≤ 31) && s.blk b 6 2 != 0 &&
    d 8 && d 12 && decide (s.blk b 16 4 ≤ 1600000 ∧ 1 ≤ s.blk b 20 4 ∧ s.blk b 20 4 ≤ 604800) && s.blkZero b 0x28 24

/-- The BOUND handles of a gate block that are not 0. -/
def State.gateBound (s : State) (b : Nat) : List W :=
  ([0x18, 0x1C, 0x20, 0x24].map (fun o => BitVec.ofNat 32 (s.blk b o 4))).filter (· != 0)

/-- GATE_NEW (R312, R398). -/
def execGateNew (e : CmdEntry) (s : State) : Res :=
  .next (commandRow 0x0C31 (fun e s =>
    let g := fld (opN e 0) 0 6
    let lag := if opN e 1 = 0 then none else some (hIndex (opN e 1))
    let b := (opN e 2).toNat
    let port := s.blk b 4 1
    let slot := s.blk b 5 1
    let bnd := (s.gateBound b).findSome? (fun h => s.handleCheck 1 h)
    checked e [(!(s.gate g).live, stNoRes, 1),
      ((lag.map (fun c => (s.chan c).adm.kind == 2)).getD true, stState, 2),
      (blockPlaced (opN e 2) (opN e 3), stSize, 3),
      (s.gateBlockOk b, stNoRes, 4),
      (bnd.isNone, bnd.getD 0, 5),
      (s.spWide port && s.kindOf port slot == 2, stState, 6),
      ((lag.map (fun c => (s.chan c).adm.divLog2 == 0)).getD true, stState, 7),
      (!(tkeys s.gates).any (fun h => (s.gate h).live && (s.gate h).port == port && (s.gate h).slot == slot), stNoRes, 8)]
      (fun s =>
        let x : Gate := { Gate.none with
          live := true, lagChan := lag, onHeld := s.blk b 2 2 == 1, port, slot, gateRun := s.blk b 6 2
          delayOn := s.blkI b 8 4, delayOff := s.blkI b 12 4, td := s.blk b 16 4, layerMax := s.blk b 20 4
          bound := (s.gateBound b).map hIndex }
        acceptNow e (mkHandle 8 g (s.gen 8 g)) (refreshGate g (s.setGate g x))) s) e s)

/-- GATE_DEL: the contact is low with no gate object (R312, R406). -/
def execGateDel (e : CmdEntry) (s : State) : Res :=
  .next (commandRow 0x0C32 (fun e s =>
    let g := hIndex (opN e 0)
    checked e [(!(s.gate g).open_, stState, 1)]
      (fun s =>
        let s := each [0, 1, 2] (fun i s => s.setReg (gateCnt g i) 0) s
        acceptNow e 0 ((liveEnd (fun r => r == gateRep g 2 1) (s.setGate g Gate.none)).advGen 8 g)) s) e s)

-- ---------------------------------------------------------------- motors (R390 to R392)

/-- The field ranges of a motor block (R390). -/
def State.motorBlockOk (s : State) (b : Nat) : Bool :=
  let f := s.blk b
  let f0 := f 0x10 4
  let f1 := f 0x14 4
  let r (off lo hi : Nat) : Bool := decide (lo ≤ f off 2 ∧ f off 2 ≤ hi)
  f 0 2 == 1 && decide (f 2 2 ≤ 1) && r 0x08 0 5 && r 0x0A 1 32767 && r 0x0C 1 10000 && r 0x0E 1 32767 &&
    decide (1 ≤ f0 ∧ f0 < f1) && r 0x18 1 60000 && r 0x1A 0 60000 && decide (f0 < f 0x1C 4 ∧ f 0x1C 4 ≤ f1) &&
    r 0x20 1 15 && r 0x22 32 1024 && decide (-2000 ≤ s.blkI b 0x24 2 ∧ s.blkI b 0x24 2 ≤ 2000) && r 0x26 0 15 &&
    r 0x28 0 16 && r 0x2A 0 4 && r 0x2C 4 63 && r 0x2E 1 64 && r 0x30 6 255 && r 0x32 0 7 && r 0x34 1 10000 &&
    r 0x36 1 10000 && r 0x38 1 6 && s.blkZero b 0x3A 6

/-- The motor object of a block (R390). -/
def State.motorOfBlock (s : State) (b ch tm : Nat) : Motor :=
  let f := fun off => s.blk b off 2
  { Motor.none with
    live := true, chan := ch, timer := tm, dir := f 2 % 2 == 1, alignStep := f 0x08, alignCmd := f 0x0A
    alignMs := f 0x0C, rampCmd := f 0x0E, f0 := s.blk b 0x10 4, f1 := s.blk b 0x14 4, rampMs := f 0x18
    holdMs := f 0x1A, handF := s.blk b 0x1C 4, confirm := f 0x20, zsMin := f 0x22, zcOfs := s.blkI b 0x24 2
    blankFr := f 0x26, adv := f 0x28, obsSh := f 0x2A, jump := f 0x2C, missMax := f 0x2E, lockWin := f 0x30
    retries := f 0x32, coastMs := f 0x34, brakeMs := f 0x36, revN := f 0x38 }

/-- MOTOR_NEW (R312, R391). -/
def execMotorNew (e : CmdEntry) (s : State) : Res :=
  .next (commandRow 0x0C21 (fun e s =>
    let ch := hIndex (opN e 0)
    let c := s.chan ch
    let b := (opN e 1).toNat
    let th := BitVec.ofNat 32 (s.blk b 4 4)
    let tm := s.timer (hIndex th)
    let carrier := s.frate * s.m * c.k
    checked e [(c.adm.kind == 3, stState, 1), (c.st == .idle, stState, 2), ((s.motorOf ch).isNone, stNoRes, 3),
      (blockPlaced (opN e 1) (opN e 2), stSize, 4),
      ((s.handleCheck 9 th).isNone && c.terms.contains tm.term && tm.event == 5, stState, 5),
      (s.motorBlockOk b, stNoRes, 6),
      (decide (s.blk b 0x14 4 * 96 ≤ carrier * 10), stNoRes, 7)]
      (fun s =>
        let i := (s.freeIndex 7).getD 0
        acceptNow e (mkHandle 7 i (s.gen 7 i)) (s.setMotor i (s.motorOfBlock b ch (hIndex th)))) s) e s)

/-- MOTOR_DEL frees its timer (R312, R392). -/
def execMotorDel (e : CmdEntry) (s : State) : Res :=
  .next (commandRow 0x0C22 (fun e s =>
    let i := hIndex (opN e 0)
    let ch := (s.motor i).chan
    checked e [(!(s.chan ch).armed, stState, 1)]
      (fun s =>
        let s := each [0x10, 0x14, 0x18, 0x1C, 0x20] (fun o s => s.setReg (motReg (s.chan ch).adm.first o) 0) s
        acceptNow e 0 ((s.setMotor i Motor.none).advGen 7 i)) s) e s)

-- ---------------------------------------------------------------- captures (R244 to R246, R308)

def Cap.bytes (x : Cap) : Nat := x.sigs.length * (if x.layout = 0 then 3 else 4)

/-- CAP_NEW (R308). An entry holds its signals in ascending number (R147). -/
def execCapNew (e : CmdEntry) (s : State) : Res :=
  .next (commandRow 0x0701 (fun e s =>
    let ch := hIndex (opN e 0)
    let o := opN e 1
    let target := (opN e 2).toNat
    let named := (List.range (fld o 6 2 + 1)).map (fun i => fld o (16 + 4 * i) 4)
    let sigs := (List.range 16).flatMap (fun c => named.filter (fun x => x == c))
    let cont := bitOf o 2
    checked e [((s.freeIndex 5).isSome, stNoRes, 0xF7),
      (sigs.all (fun c => decide (c < 12)) && fld o 4 2 != 3, stNoRes, 1),
      (cont == (target == 0), stNoRes, 2),
      (decide (target ≤ (s.chan ch).adm.largest), stSize, 3)]
      (fun s =>
        let i := (s.freeIndex 5).getD 0
        acceptNow e (mkHandle 5 i (s.gen 5 i)) (s.setCap i { Cap.none with
          live := true, chan := ch, codes := BitVec.ofNat 16 (fld o 16 16), sigs, layout := fld o 4 2, decim := fld o 8 8 + 1, trig := bitOf o 3, cont, target })) s) e s)

/-- Load of a capture in bytes per second, a numerator and a denominator (R246): its runs per second times its stride. -/
def State.capLoad (s : State) (i : Nat) : Nat × Nat :=
  let x := s.cap i
  (s.frate * s.m * x.bytes, 2 ^ (s.chan x.chan).adm.divLog2 * x.decim)

/-- The exact sum of the loads is at most 2,000,000,000 bytes per second (R246). -/
def State.capsFit (s : State) (l : List Nat) : Bool :=
  let t := l.foldl (fun t i => (t.1 * (s.capLoad i).2 + (s.capLoad i).1 * t.2, t.2 * (s.capLoad i).2)) (0, 1)
  decide (t.1 ≤ 2000000000 * t.2)

/-- CAP_START (R245, R246). -/
def execCapStart (e : CmdEntry) (s : State) : Res :=
  .next (commandRow 0x0702 (fun e s =>
    let i := hIndex (opN e 0)
    let running := (tkeys s.caps).filter (fun j => (s.cap j).live && ((s.cap j).st == 1 || (s.cap j).st == 2))
    checked e [((s.capOf (s.cap i).chan).isNone, stBusy, 1),
      (s.capsFit (running ++ [i]), stOverBudget, 2)]
      (fun s => acceptNow e 0 (s.updCap i (fun x =>
        { x with st := 1, wptr := 0, wraps := 0, count := 0, skip := 0, formed := 0, queued := [], stopping := false }))) s) e s)

/-- CAP_STOP: completes when the last entry is in DRAM (R308). -/
def execCapStop (e : CmdEntry) (s : State) : Res :=
  .next (commandRow 0x0703 (fun e s =>
    let i := hIndex (opN e 0)
    let x := s.cap i
    checked e [(x.st == 1 || x.st == 2, stState, 1)]
      (fun s =>
        if x.queued.isEmpty then acceptNow e 0 (s.setCap i { x with st := 3 })
        else acceptLater e 0 (s.setCap i { x with st := 3, stopping := true })) s) e s)

/-- CAP_DEL (R308). -/
def execCapDel (e : CmdEntry) (s : State) : Res :=
  .next (commandRow 0x0704 (fun e s =>
    let i := hIndex (opN e 0)
    checked e [((s.cap i).st != 1 && (s.cap i).st != 2, stBusy, 1)]
      (fun s => acceptNow e 0 ((s.setCap i Cap.none).advGen 5 i)) s) e s)

-- ---------------------------------------------------------------- injections (R241, R308, R309)

/-- Tones of a multi-tone table: bin, amplitude, phase (R309). -/
def State.tones (s : State) (a n : Nat) : List (Nat × Int × Int) :=
  (List.range n).map (fun i => (s.blk a (8 * i) 2, s.blkI a (8 * i + 2) 2, s.blkI a (8 * i + 4) 2))

/-- Where a source's window or tone table lies: address and bytes (R145, R309). -/
def injWindow (src : Nat) (o3 o4 o5 : W) : Option (Nat × Nat) :=
  match src with
  | 2 => some (o3.toNat, o4.toNat * (if fld o5 0 2 = 0 then 3 else 4))
  | 4 => some (o4.toNat, 8 * o5.toNat)
  | _ => none

/-- The parameter ranges of a source (R241, R309). -/
def State.injOk (s : State) (src : Nat) (o3 o4 o5 : W) : Bool :=
  match src with
  | 2 => o4 != 0 && fld o5 0 2 != 3
  | 3 => decide (1 ≤ o3.toNat ∧ 2 * o3.toNat ≤ s.frate ∧ 1 ≤ o4.toNat ∧ 2 * o4.toNat ≤ s.frate) && o5 != 0
  | 4 =>
    let p := fld o3 0 5
    decide (8 ≤ p ∧ p ≤ 16 ∧ 1 ≤ o5.toNat ∧ o5.toNat ≤ 16) &&
      (!inWindows o4.toNat (8 * o5.toNat) ||
        (s.tones o4.toNat o5.toNat).zipIdx.all (fun x =>
          decide (1 ≤ x.1.1 ∧ x.1.1 < 2 ^ (p - 1)) && s.blkZero o4.toNat (8 * x.2 + 6) 2))
  | 5 => [7, 9, 11, 15, 23].contains (fld o3 0 5) && decide (1 ≤ fld o4 0 5 ∧ fld o4 0 5 ≤ 16)
  | _ => false

/-- INJ_NEW (R241, R308, R309). -/
def execInjNew (e : CmdEntry) (s : State) : Res :=
  .next (commandRow 0x0711 (fun e s =>
    let ch := hIndex (opN e 0)
    let o := opN e 1
    let src := fld o 4 3
    let point := fld o 8 2
    let o3 := opN e 3
    let o4 := opN e 4
    let o5 := opN e 5
    let bound := s.liveBinds.any (fun i => (s.bind i).chan == ch && (s.bind i).input == 2)
    checked e [(point != 0 && (s.injOf ch).isNone && !bound && s.injOk src o3 o4 o5 && (s.freeIndex 6).isSome, stNoRes, 1),
      (((injWindow src o3 o4 o5).map (fun w => inWindows w.1 w.2)).getD true, stSize, 2),
      (src != 4 || decide (((s.tones o4.toNat o5.toNat).foldl (fun a x => a + absI x.2.1) 0) ≤ 32768), stNoRes, 3)]
      (fun s =>
        let i := (s.freeIndex 6).getD 0
        acceptNow e (mkHandle 6 i (s.gen 6 i)) (s.setInj i { Inj.none with
          live := true, chan := ch, amp := sx 16 (fld o 16 16), point, src, len := (opN e 2).toNat
          tones := if src = 4 then s.tones o4.toNat o5.toNat else [], p3 := o3, p4 := o4, p5 := o5 })) s) e s)

/-- INJ_START: at B(j₀) the first value is written (R241, R243). -/
def execInjStart (e : CmdEntry) (s : State) : Res :=
  .next (commandRow 0x0712 (fun e s =>
    let i := hIndex (opN e 0)
    let x := s.inj i
    checked e [((s.chan x.chan).armed, stState, 1), (x.st != 1 && x.st != 2, stBusy, 2), (!s.layerOf x.chan, stLayer, 3)]
      (fun s => acceptLater e 0 (s.setInj i { x with
        st := 1, k := 0, pos := 0, stop := false, zero := false, chunks := [], last := 0, prbs := 2 ^ fld x.p3 0 5 - 1 })) s) e s)

/-- INJ_STOP: the single 0 follows at the next B(j) (R241). -/
def execInjStop (e : CmdEntry) (s : State) : Res :=
  .next (commandRow 0x0713 (fun e s =>
    let i := hIndex (opN e 0)
    checked e [((s.inj i).st == 1 || (s.inj i).st == 2, stState, 1)]
      (fun s => acceptLater e 0 (s.updInj i (fun x => { x with stop := true }))) s) e s)

/-- INJ_DEL (R308). -/
def execInjDel (e : CmdEntry) (s : State) : Res :=
  .next (commandRow 0x0714 (fun e s =>
    let i := hIndex (opN e 0)
    checked e [((s.inj i).st != 1 && (s.inj i).st != 2, stBusy, 1)]
      (fun s => acceptNow e 0 ((s.setInj i Inj.none).advGen 6 i)) s) e s)

-- ---------------------------------------------------------------- queries (R310 to R312)

/-- The limit of a fence entry that a field names (R311). -/
def fenceField (f : Fence) (t field : Nat) : Nat :=
  let x := tget FenceTerm.none f.terms t
  match field with
  | 1 => x.ipk | 2 => x.irms | 3 => x.exc | 4 => x.vel | 5 => x.temp | 6 => x.kinds
  | 7 => fieldN x.tflags 0 1 | _ => f.foldLim.getD (foldOf t) 0

/-- FENCE_QUERY (R310, R311). -/
def execFenceQuery (e : CmdEntry) (s : State) : Res :=
  .next (commandRow 0x0902 (fun e s =>
    match s.sec.fence with
    | none => refuse e stAuth 1 s
    | some f => acceptNow e (BitVec.ofNat 32 (fenceField f (fld (opN e 0) 0 9) (fld (opN e 1) 0 8))) s) e s)

/-- STN_INFO (R312). -/
def execStnInfo (e : CmdEntry) (s : State) : Res :=
  .next (commandRow 0x0B02 (fun e s =>
    acceptNow e (BitVec.ofNat 32 (b2n s.stn.ring * 256 + s.stn.pos % 16 * 16 + s.stn.nmod % 16)) s) e s)

end Sys2Proof.Machine
end

