-- ==== Sys2Proof/Machine/Motors.lean ====
section
/-! DEFINITION. The motor unit: starting, running, losing and stopping a six-step motor (13), and the step and force
changes at a carrier boundary (06 R166, R174). -/

namespace Sys2Proof.Machine

open Sys2Proof

/-- The step that follows in the order of DIR (R371). -/
def nextStep (dir : Bool) (step : Nat) : Nat := if dir then (step + 5) % 6 else (step + 1) % 6

/-- Commutation interval in cc of an electrical frequency in 0.1 Hz (R381, log 25). -/
def intervalCc (f : Nat) : Nat := if f = 0 then 0 else 8000000000 / (6 * f)

/-- SPEED of an interval (R377). -/
def speedOf (tp : Nat) : Nat := if tp = 0 then 0x7FFF else min 0x7FFF (40000000000 / (30 * tp))

/-- Forced frequency `t` cc after RAMP began (R381, log 25). -/
def Motor.rampFreq (m : Motor) (t : Nat) : Nat :=
  let d := m.rampMs * 800000
  if t ≥ d then m.f1 else m.f0 + (m.f1 - m.f0) * t / d

/-- A motor event of a channel in its class. -/
def motEvent (ch bit cls : Nat) (s : State) : State :=
  let c := s.chan ch
  raise (motEvt c.adm.first) (mkRep (srcFlock c.flock) 5 bit cls 1 ch) s

/-- The motor of a channel, if it has one, rewritten. -/
def onMotor (ch : Nat) (f : Nat → Motor → State → State) (s : State) : State :=
  match s.motorOf ch with
  | some i => f i (s.motor i) s
  | none => s

-- ---------------------------------------------------------------- the queue of step changes (R166, R378, R386)

/-- Replace the step changes that wait, each with the cc at which it was posted. -/
def postSteps (ch : Nat) (l : List (Nat × Nat)) (s : State) : State := s.updChan ch (fun c => { c with stepPend := l })

/-- A commutation in progress was posted before cc `now`: it was posted at the latest cc that R166 allows, 64 cc before its boundary
(R378), so a recognition at `now` comes less than 64 cc before that boundary (R386). -/
def State.tooLate (s : State) (ch : Nat) (m : Motor) (now : Nat) : Bool :=
  m.posted && (s.chan ch).stepPend.any (fun x => decide (x.2 < now))

/-- The commutation in progress is abandoned, unless it takes effect before the recognition at cc `now` acts (R386). -/
def abandon (ch i now : Nat) (l : List Nat) (s : State) : State :=
  let late := s.tooLate ch (s.motor i) now
  (s.updMotor i (fun m => { m with posted := late, runLen := 0, due := .none })).updChan ch
    (fun c => { c with stepPend := (if late then c.stepPend else []) ++ l.map (fun x => (x, now)) })

/-- ALIGN is entered (R380). -/
def enterAlign (i now : Nat) (s : State) : State :=
  s.updMotor i (fun m => { m with mstate := 1, since := now, posted := false, tz := none, runLen := 0, judged := false, far := none, oppLen := 0, oppJudged := false, plaus := 0
                                  noPlaus := 0, misses := 0, revRun := 0, revEv := false, blank := false, tp := 0, due := none, cause := 0 })

/-- SYNC_LOSS, LOCKED_ROTOR and START_FAIL (R387): a retry begins with COAST, or the channel stops. -/
def retryOrStop (ch bit now : Nat) (s : State) : State :=
  onMotor ch (fun i m s =>
    if m.left = 0 then motEvent ch bit 2 (abandon ch i now [] s)
    else (abandon ch i now [7] s).updMotor i (fun m => { m with mstate := 4, left := m.left - 1, since := now, cause := bit })) s

/-- REVERSE (R385): the motor brakes. -/
def brake (ch i now : Nat) (s : State) : State :=
  (abandon ch i now [7] s).updMotor i (fun m => { m with mstate := 5, since := now, cause := 0 })

-- ---------------------------------------------------------------- steps and forces

/-- What the step that ends leaves behind: the run of steps without a plausible crossing, of steps with reverse
evidence, and the reference of the next interval (R377, R382, R383, R385). -/
def Motor.endStep (m : Motor) (now : Nat) : Motor :=
  if m.tp = 0 then m
  else
    let rev := if m.revEv && m.tz.isNone then m.revRun + 1 else 0
    match m.mstate, m.tz with
    | 2, .none => { m with revRun := rev, plaus := 0, noPlaus := if m.handF < 2 * m.freq then m.noPlaus + 1 else 0 }
    | 2, some _ => { m with revRun := rev }
    | 3, .none => { m with revRun := rev, tzPrev := now - m.tp * (32 - m.adv) / 64 }
    | _, _ => { m with revRun := rev }

/-- The commutation that opens a step in RAMP or RUN. -/
def Motor.openStep (m : Motor) (now : Nat) : Motor :=
  let m := m.endStep now
  let f := m.rampFreq (now - m.since)
  { m with tc := now, blank := true, tz := .none, runLen := 0, judged := false, far := .none, oppLen := 0, oppJudged := false, revEv := false
           freq := if m.mstate = 2 then f else m.freq
           tp := if m.mstate = 2 then intervalCc f else m.tp
           due := if m.mstate = 2 then some (now + intervalCc f) else .none }

/-- STEP_CHANGE_APPLY: at the carrier boundary at cc `now`, the oldest waiting step change takes effect where it was posted at least 64 cc
before (R166), after the sample of the period that ends there. The window of the motor's timer opens (R375); the low sides that a brake
holds count from here (R385). -/
def execStepChangeApply (ch : Fin 512) (now : Nat) (sample : Option FloatIn) (s : State) : Res :=
  match (s.chan ch.val).stepPend with
  | [] => .next s
  | (x, at_) :: r =>
    if now < at_ + 64 then .next s
    else
      .next (onMotor ch.val (fun i m s =>
        let m := { m with posted := false, since := if m.mstate = 5 then now else m.since }
        openTimer m.timer (2 * now + (s.timer m.timer).delay)
          (s.setMotor i (if (m.mstate = 2 ∨ m.mstate = 3) ∧ x < 6 then m.openStep now else m)))
        ((takeSample ch.val sample s).updChan ch.val (fun c => { c with step := x, stepPend := r })))

/-- What a force on a terminal of an armed motor does to the motor, and what its last force's end does (R393). -/
def motorForced (ch now : Nat) (s : State) : State :=
  let c := s.chan ch
  if !c.armed then s
  else
    let forced := c.terms.any (fun t => (s.term t).forceEff != 0)
    onMotor ch (fun i m s =>
      if forced then
        if m.mstate = 6 then s
        else postSteps ch [] (s.setMotor i { m with mstate := 6, posted := false, runLen := 0, due := none })
      else if m.mstate = 6 then postSteps ch [(m.alignStep, now)] (enterAlign i now s)
      else s) s

/-- CROOK_FORCE_APPLY: a requested force takes effect at a carrier boundary (R174). `now` is the boundary in cc. -/
def execCrookForceApply (t : Fin 512) (now : Nat) (s : State) : Res :=
  let x := s.term t.val
  match x.forceQ with
  | none => .next s
  | some f =>
    let s := s.updTerm t.val (fun y => { y with forceQ := none, forceEff := f })
    match s.ownerOf t.val with
    | some ch => .next (motorForced ch now s)
    | none => .next s

-- ---------------------------------------------------------------- starting (R380 to R383)

/-- The channel of a motor is armed (R380, R387): ALIGN, its step at that boundary, which opens its timer's window (R375), its retries reloaded. A
terminal already forced holds the unit in FORCED (R393). -/
def motorArm (ch now : Nat) (s : State) : State :=
  motorForced ch now (onMotor ch (fun i m s =>
    let s := (enterAlign i now (s.setMotor i { m with left := m.retries })).updChan ch (fun c => { c with step := m.alignStep, stepPend := [] })
    if (s.chan ch).terms.any (fun t => (s.term t).forceEff != 0) then s
    else openTimer m.timer (2 * now + (s.timer m.timer).delay) s) s)

/-- cc of a time in ms. -/
def msCc (ms : Nat) : Nat := 800000 * ms

/-- ALIGN_END, at cc `now`: when ALIGN_TIME has passed, RAMP starts with the step that follows ALIGN_STEP (R380, R381). -/
def execAlignEnd (ch : Fin 512) (now : Nat) (s : State) : Res :=
  .next (onMotor ch.val (fun i m s =>
    if m.mstate != 1 ∨ now < m.since + msCc m.alignMs then s
    else postSteps ch.val [(nextStep m.dir m.alignStep, now)] (s.setMotor i
      { m with mstate := 2, since := now, posted := true, freq := m.f0, tp := 0, plaus := 0, noPlaus := 0 })) s)

/-- Post the next commutation at cc `now` (R378). -/
def postNext (ch i now : Nat) (m : Motor) (s : State) : State :=
  postSteps ch [(nextStep m.dir (s.chan ch).step, now)] (s.setMotor i { m with posted := true })

/-- A commutation that is due may be posted at cc `now`: its boundary, at least 64 cc later, is not before the due time (R166, R378). -/
def Motor.isDue (m : Motor) (now : Nat) : Bool :=
  match m.due with | some d => decide (d ≤ now + 64) | Option.none => false

/-- FORCED_STEP, at cc `now`: a forced interval ends and the next forced commutation is posted (R381). -/
def execForcedStep (ch : Fin 512) (now : Nat) (s : State) : Res :=
  .next (onMotor ch.val (fun i m s => if m.mstate = 2 ∧ ¬ m.posted ∧ m.isDue now then postNext ch.val i now m s else s) s)

/-- MOTOR_HANDOVER, at cc `now` (R382): the next commutation is due from the eighth crossing. -/
def execMotorHandover (ch : Fin 512) (now : Nat) (s : State) : Res :=
  .next (onMotor ch.val (fun i m s =>
    match m.tz with
    | some z =>
      if m.mstate = 2 ∧ m.handF ≤ m.freq ∧ 8 ≤ m.plaus then
        motEvent ch.val 0 0 (s.setMotor i { m with mstate := 3, since := now, tzPrev := z, misses := 0, due := some (z + m.tp * (32 - m.adv) / 64) })
      else s
    | none => s) s)

/-- LOCKED_ROTOR, at cc `now` (R383). -/
def execLockedRotor (ch : Fin 512) (now : Nat) (s : State) : Res :=
  .next (onMotor ch.val (fun _ m s =>
    if m.mstate = 2 ∧ m.lockWin ≤ m.noPlaus then retryOrStop ch.val 3 now s else s) s)

/-- RAMP_HOLD_END, at cc `now`: RAMP_TIME and RAMP_HOLD have passed without handover, START_FAIL (R381, R383). -/
def execRampHoldEnd (ch : Fin 512) (now : Nat) (s : State) : Res :=
  .next (onMotor ch.val (fun _ m s =>
    if m.mstate = 2 ∧ m.since + msCc (m.rampMs + m.holdMs) ≤ now then retryOrStop ch.val 4 now s else s) s)

-- ---------------------------------------------------------------- running (R374 to R379)

/-- BLANK_END, at cc `now`: the window of the motor's timer has closed and the fraction of Tp has passed (R375). -/
def execBlankEnd (ch : Fin 512) (now : Nat) (s : State) : Res :=
  .next (onMotor ch.val (fun i m s => if s.blankPast m now then s.setMotor i { m with blank := false } else s) s)

/-- The judgements of a renewal (R384): OVERSPEED, below 16 carrier periods in whole cc, then SYNC_LOSS, which yields to a REVERSE recognised with it (R393). -/
def judgeSpeed (ch old new now : Nat) (missed : Bool) (s : State) : State :=
  let carrier := s.frate * s.m * (s.chan ch).k
  onMotor ch (fun i m s =>
    if new < 12800000000 / carrier then motEvent ch 6 2 (abandon ch i now [] s)
    else if m.jump * old < 64 * (if old ≤ new then new - old else old - new) || missed then
      if m.revEv ∧ m.tz.isNone ∧ m.revN ≤ m.revRun + 1 then brake ch i now s else retryOrStop ch 2 now s
    else s) s

/-- The observer's new prediction (R377, R222). -/
def Motor.predict (m : Motor) (tm : Int) : Nat := ((m.tp : Int) + roundDiv (tm - m.tp) (2 ^ m.obsSh : Nat)).toNat

/-- Accept a crossing at tz (R376 to R378, R381). -/
def acceptCrossing (ch i z now : Nat) (s : State) : State :=
  let m := s.motor i
  let s := s.bump (motReg (s.chan ch).adm.first 0x10)
  let zf := if m.tp = 0 then 0 else min 255 ((z - m.tc) * 256 / m.tp)
  if m.mstate = 2 then
    s.setMotor i { m with tz := some z, tzPrev := z, zfrac := zf, plaus := min 8 (m.plaus + 1), noPlaus := 0 }
  else
    let tp := m.predict ((z : Int) - m.tzPrev)
    judgeSpeed ch m.tp tp now false (s.setMotor i
      { m with tz := some z, tzPrev := z, zfrac := zf, tp, speed := speedOf tp, misses := 0, due := some (z + tp * (32 - m.adv) / 64) })

/-- CROSSING_CONFIRMED at cc `now`, with the present period's sample where it completes the run (R374, R376): a confirmed run in the
expected sense is accepted, waits for its window, or is rejected as too late; one in the opposite sense (log 26) is rejected as reverse
evidence, once. -/
def execCrossingConfirmed (ch : Fin 512) (now : Nat) (sample : Option FloatIn) (s : State) : Res :=
  .next (onMotor ch.val (fun i m s =>
    if (m.mstate != 2 && m.mstate != 3) || m.tz.isSome || m.blank || (m.mstate == 3 && m.posted) then s
    else if m.confirm ≤ m.oppLen ∧ 0 < m.oppLen ∧ ¬ m.oppJudged then rejectRun ch.val (s.setMotor i { m with revEv := true, oppJudged := true })
    else if m.runLen < m.confirm || m.judged then s
    else if 4 * (m.runAt - m.tc) > 3 * m.tp then rejectRun ch.val (s.setMotor i { m with judged := true })
    else if 4 * (now - m.tc) < m.tp then s
    else acceptCrossing ch.val i (max m.runAt (m.tc + m.tp / 4)) now s) (takeSample ch.val sample s))

/-- COMMUTATION_POST, at cc `now` (R378). -/
def execCommutationPost (ch : Fin 512) (now : Nat) (s : State) : Res :=
  .next (onMotor ch.val (fun i m s =>
    if m.mstate = 3 ∧ m.tz.isSome ∧ ¬ m.posted ∧ m.isDue now then postNext ch.val i now m s else s) s)

/-- SYNTHETIC_COMMUTATION, at cc `now`, for the first boundary at or after tc + 1.5 Tp (R379). -/
def execSyntheticCommutation (ch : Fin 512) (now : Nat) (s : State) : Res :=
  .next (onMotor ch.val (fun i m s =>
    if m.mstate = 3 ∧ m.tz.isNone ∧ ¬ m.posted ∧ 2 * m.tc + 3 * m.tp ≤ 2 * (now + 64) then
      let a := (s.chan ch.val).adm.first
      let s := s.bump (motReg a 0x14)
      let s := if m.runLen ≠ 0 ∧ ¬ m.judged then s.bump (motReg a 0x1C) else s
      let tp := m.predict (3 * m.tp / 2 : Nat)
      let m' := { m with runLen := 0, judged := false, tp, speed := speedOf tp, misses := m.misses + 1 }
      judgeSpeed ch.val m.tp tp now (decide (m.missMax ≤ m.misses + 1)) (postNext ch.val i now m' s)
    else s) s)

-- ---------------------------------------------------------------- stopping and retrying (R385 to R387)

/-- REVERSE, at cc `now`: the motor brakes (R385, R386). -/
def execReverse (ch : Fin 512) (now : Nat) (s : State) : Res :=
  .next (onMotor ch.val (fun i m s =>
    if (m.mstate = 2 ∨ m.mstate = 3) ∧ m.revN ≤ m.revRun then brake ch.val i now s else s) s)

/-- BRAKE_END, at cc `now`: after BRAKE_TIME the channel is stopped with REVERSE, never retried (R385). -/
def execBrakeEnd (ch : Fin 512) (now : Nat) (s : State) : Res :=
  .next (onMotor ch.val (fun i m s =>
    if m.mstate = 5 ∧ (s.chan ch.val).stepPend = [] ∧ m.since + msCc m.brakeMs ≤ now ∧ m.cause = 0 then
      motEvent ch.val 5 2 (s.setMotor i { m with cause := 5 })
    else s) s)

/-- COAST_END, at cc `now`: after COAST_TIME the motor enters ALIGN, and the retry is reported with its cause (R387). -/
def execCoastEnd (ch : Fin 512) (now : Nat) (s : State) : Res :=
  .next (onMotor ch.val (fun i m s =>
    if m.mstate = 4 ∧ m.since + msCc m.coastMs ≤ now then
      let s := postSteps ch.val [(m.alignStep, now)] (enterAlign i now s)
      (motEvent ch.val 1 1 (motEvent ch.val m.cause 1 s)).bump (motReg (s.chan ch.val).adm.first 0x20)
    else s) s)

/-- RETRY_RELOAD, at cc `now`: a second has passed in RUN (R387). -/
def execRetryReload (ch : Fin 512) (now : Nat) (s : State) : Res :=
  .next (onMotor ch.val (fun i m s =>
    if m.mstate = 3 ∧ m.since + msCc 1000 ≤ now then s.setMotor i { m with left := m.retries, since := m.since + msCc 1000 } else s) s)

end Sys2Proof.Machine
end

