-- ==== Sys2Proof/Machine/Operands.lean ====
section
/-! DEFINITION. Iatia-L operands: the fields of an instruction word (09 R258, R260), the registers of a run (R251), the
memory view of a loop or model run (R255 to R257, R322), the latch set (R265, R270). -/

namespace Sys2Proof.Machine

open Sys2Proof

-- ---------------------------------------------------------------- fields (R258, R260)

def opField (w : W) : Nat := fld w 26 6

-- format X, I, M and S
def fD (w : W) : Nat := fld w 21 5
def fA (w : W) : Nat := fld w 16 5
def fB (w : W) : Nat := fld w 11 5
def fFn (w : W) : Nat := fld w 0 6
def fImm (w : W) : Nat := fld w 0 16
def fSimm (w : W) : Int := sx 16 (fld w 0 16)
def fP (w : W) : Nat := fld w 18 3
def fPd (w : W) : Nat := fld w 21 3
def fRac (w : W) : Nat := fld w 21 2
def fSrc (w : W) : Nat := fld w 0 8

-- format A
def fAcd (w : W) : Nat := fld w 24 2
def fAcA (w : W) : Nat := fld w 22 2
def fAcB (w : W) : Nat := fld w 20 2
def fXd (w : W) : Nat := fld w 15 5
def fXb (w : W) : Nat := fld w 10 5
def fXc (w : W) : Nat := fld w 5 5
def fMisc (w : W) : Nat := fld w 0 5

-- format K
def fN (w : W) : Nat := fld w 20 6 + 1
def fLen (w : W) : Nat := fld w 0 8
def fCond (w : W) : Nat := fld w 22 4

-- ---------------------------------------------------------------- registers of a run (R251)

def Run.xw (r : Run) (i : Nat) : BitVec 16 := tget 0 r.x i
def Run.xi (r : Run) (i : Nat) : Int := (r.xw i).toInt
def Run.setXw (r : Run) (i : Nat) (v : BitVec 16) : Run := { r with x := tset 0 r.x i v }
def Run.setX (r : Run) (i : Nat) (v : Int) : Run := r.setXw i (BitVec.ofInt 16 v)
def Run.aci (r : Run) (i : Nat) : Int := (tget (0 : BitVec 40) r.ac i).toInt
def Run.setAc (r : Run) (i : Nat) (v : Int) : Run := { r with ac := tset 0 r.ac i (BitVec.ofInt 40 v) }
def Run.pv (r : Run) (i : Nat) : Nat := (tget (0 : BitVec 16) r.p i).toNat
def Run.setP (r : Run) (i : Nat) (v : Nat) : Run := { r with p := tset 0 r.p i (BitVec.ofNat 16 v) }

/-- A saturated result in an x register with its V. -/
def Run.putX (r : Run) (i : Nat) (y : Int × Bool) : Run := (r.setX i y.1).setV y.2

/-- A saturated result in an accumulator with its V. -/
def Run.putAc (r : Run) (i : Nat) (y : Int × Bool) : Run := (r.setAc i y.1).setV y.2

-- ---------------------------------------------------------------- which instance a run is (R255, R275, R407)

/-- The instance executes as the active one: the token names its engine. -/
def State.active (s : State) (r : Run) : Bool := !r.model && (s.chan r.ch).lease.holder == some r.inst

/-- The channel that a model run's CHN selects (R270, R343): at a position of the engine's flock, or of the flock it
covers. -/
def State.selChan (s : State) (e : Nat) (r : Run) : Option Nat :=
  let f := if r.cover then (e - 128) ^^^ 1 else e - 128
  match s.ownerOf (16 * f + r.sel) with
  | some ch => if (s.chan ch).adm.first = 16 * f + r.sel then some ch else none
  | none => none

/-- The latch set that SIN, FFW, SPT, INJ and EVT read (R218, R265, R270). -/
def State.latchOf (s : State) (e : Nat) (r : Run) : Latch :=
  if r.model then
    match s.selChan e r with
    | some ch => (s.chan ch).mdl.latch
    | none => Latch.none
  else if r.inst then (s.chan r.ch).loop.latB else (s.chan r.ch).loop.latA

-- ---------------------------------------------------------------- memory view (R255, R322)

/-- What an address of the view is. -/
inductive Place where
  | coef (off : Nat)
  | state (off : Nat)
  | record (off : Nat)
  | bank (off : Nat)
  | outside
  deriving DecidableEq, Repr

/-- Bytes of the model region and of one bank (R322). -/
def bankBytes (layout : Nat) : Nat := if layout = 0 then 64 else 1408
def regionBytes (layout : Nat) : Nat := if layout = 0 then 192 else 2880

/-- Where a channel's model region begins in its workspace (R322). -/
def Chan.region (c : Chan) : Nat := c.adm.wsKib * 1024 - regionBytes c.adm.motion

/-- STATE_BYTES of a channel's image. -/
def State.stateBytes (s : State) (ch : Nat) : Nat :=
  match (s.chan ch).loop.img with | some i => (s.image i).stateBytes | none => 0

/-- An aligned address in the view of a run. -/
def State.placeOf (s : State) (r : Run) (a n : Nat) : Place :=
  if a % n != 0 then .outside
  else if r.model then
    if a + n ≤ 0x40 then .record a
    else if 0x40 ≤ a ∧ a + n ≤ 0x80 then .state (a - 0x40)
    else if 0x80 ≤ a ∧ a + n ≤ 0x80 + bankBytes (s.chan r.ch).adm.motion then .bank (a - 0x80)
    else .outside
  else if a + n ≤ 0x80 then .coef a
  else if 0x80 ≤ a ∧ a + n ≤ 0x80 + s.stateBytes r.ch then .state (a - 0x80)
  else .outside

/-- Workspace offset of a byte of the run's own state. -/
def State.stateAt (s : State) (r : Run) (off : Nat) : Nat :=
  if r.model then (s.chan r.ch).region + off
  else 128 + (if r.inst then s.stateBytes r.ch else 0) + off

/-- The address of an access (R256). -/
def Run.ea (r : Run) (w : W) : Nat := ux 16 ((r.pv (fP w) : Int) + fSimm w)

/-- A bounds fault (R256, R278). -/
def boundsFault (e a : Nat) (s : State) : State :=
  let s := s.setRun e { (s.run e).act 0x08 a 0 with bounds := (s.run e).bounds + 1 }
  let s := s.bump (engReg e (if e < 128 then 0x14 else 0x18))
  let src := if e < 128 then srcLoop e else srcModel (e - 128)
  raise (engEvt e) (mkRep src 0 0 0 0 0) s

/-- A load of n bytes; a load that faults gives 0 (R256). -/
def loadView (e n : Nat) (w : W) (s : State) : Nat × State :=
  let r := s.run e
  let a := r.ea w
  match s.placeOf r a n with
  | .coef o => (s.wsVal r.ch o n, s)
  | .state o => (s.wsVal r.ch (s.stateAt r o) n, s)
  | .record o => (leVal ((List.range n).map (fun i => r.rec_.getD (o + i) 0)), s)
  | .bank o => (s.wsVal r.ch ((s.chan r.ch).region + 64 + (if r.bank then bankBytes (s.chan r.ch).adm.motion else 0) + o) n, s)
  | .outside => (0, boundsFault e a s)

/-- A store of n bytes at a view address: to the state at once, mirrored while a resynchronisation copies it (R421); to the coefficient
block queued for the active instance (R257); elsewhere a bounds fault. -/
def storeAt (e n val a : Nat) (s : State) : State :=
  let r := s.run e
  match s.placeOf r a n with
  | .coef o =>
    let live := s.active r
    let s := s.setRun e (r.act 0x02 a val)
    if live then s.updChan r.ch (fun c => { c with loop := { c.loop with progQ := c.loop.progQ ++ [(o, n, val)] } }) else s
  | .state o =>
    let s' := (s.setRun e (r.act 0x01 a val)).putWs r.ch (s.stateAt r o) (leBytes n val)
    if (s.chan r.ch).lease.mirror && (s.chan r.ch).lease.stby == 1 && s.active r then
      s'.putWs r.ch (128 + (if r.inst then 0 else s.stateBytes r.ch) + o) (leBytes n val)
    else s'
  | _ => boundsFault e a s

/-- A store of n bytes by an instruction (R256). -/
def storeView (e n val : Nat) (w : W) (s : State) : State := storeAt e n val ((s.run e).ea w) s

end Sys2Proof.Machine
end

