-- ==== Sys2Proof/Machine/Leases.lean ====
section
/-! DEFINITION. Lease tokens, the Sheepdog's judgement, conviction and fail-over of loop and model engines (15), arming
(10 R306, R307). -/

namespace Sys2Proof.Machine

open Sys2Proof

-- ---------------------------------------------------------------- events (R429, R432)

/-- A shadow event of a flock; the report names a channel, or an engine position with OKIND 3. -/
def shdEvent (f bit cls okind object : Nat) (s : State) : State :=
  raise (shdEvt f) (mkRep (srcFlock f) 6 bit cls okind object) s

/-- A shadow event of a channel. -/
def shdChan (ch bit cls : Nat) (s : State) : State := shdEvent (s.chan ch).flock bit cls 1 ch s

-- ---------------------------------------------------------------- sides of a channel (R407, R408)

/-- The standby is the side that does not hold the token; with no holder it is the engine at ENG_B. -/
def Lease.standby (x : Lease) : Bool := !(x.holder.getD false)

def Lease.sum (x : Lease) (side : Bool) : Option RunSum := if side then x.sumB else x.sumA
def Lease.ovr (x : Lease) (side : Bool) : Nat := if side then x.ovrB else x.ovrA

def State.updLease (s : State) (ch : Nat) (f : Lease → Lease) : State := s.updChan ch (fun c => { c with lease := f c.lease })

/-- The engine of a side of a channel is in service (R408). -/
def State.sideInSvc (s : State) (ch : Nat) (side : Bool) : Bool := s.inSvc ((s.chan ch).engOf side)

/-- A channel whose standby is eligible for the token, given the engines convicted now (R416). -/
def State.eligible (s : State) (conv : List Nat) (ch : Nat) : Bool :=
  let c := s.chan ch
  let b := c.lease.standby
  s.sideInSvc ch b && !conv.contains (c.engOf b) && c.lease.stby == 0

/-- The instance of a side runs: the holder's, and the standby's while it is in step and in service (R421). -/
def State.sideRuns (s : State) (ch : Nat) (side : Bool) : Bool :=
  let x := (s.chan ch).lease
  s.sideInSvc ch side && ((x.holder == some side) || x.stby == 0)

/-- The same for the period that the last latch began: a standby that is in step only since then runs in the next (R421 step 3). -/
def State.sideRan (s : State) (ch : Nat) (side : Bool) : Bool :=
  let x := (s.chan ch).lease
  s.sideInSvc ch side && ((x.holder == some side) || x.stepped)

/-- Channels in ascending position. -/
def State.posSort (s : State) (l : List Nat) : List Nat :=
  (List.range 16).flatMap (fun q => l.filter (fun ch => posOf (s.chan ch).adm.first == q))

/-- The cc of a period at which an instance of a channel starts on an engine (R219): 24 cc change into each place. -/
def State.placeStart (s : State) (f pos ch i : Nat) : Nat :=
  let on := s.posSort ((s.chansOfFlock f).filter (fun c =>
    ((s.chan c).adm.engA == pos || (s.chan c).adm.engB == pos) && (s.chan c).dueAt i))
  64 + sumL (on.takeWhile (fun c => c != ch)) (fun c => 24 + (s.chan c).adm.wcc)

/-- Which side of a channel an engine runs. -/
def Chan.sideOn (c : Chan) (e : Nat) : Option Bool :=
  if c.engOf false = e then some false else if c.engOf true = e then some true else none

/-- The place of a side's instance in loop period l of the present frame begins no earlier than the channel was armed (R219, R236). -/
def State.placeAhead (s : State) (ch l : Nat) (side : Bool) : Bool :=
  let c := s.chan ch
  let start := s.placeStart c.flock (if side then c.adm.engB else c.adm.engA) ch (s.loopIndex l)
  decide (2 * c.loop.armedAt ≤ s.bell.bPt + s.place s.m l + 2 * start)

-- ---------------------------------------------------------------- state areas (R255, R421)

/-- Copy the state area of one side of a channel onto the other. -/
def copyArea (ch : Nat) (src : Bool) (s : State) : State :=
  let n := s.stateBytes ch
  let base (b : Bool) : Nat := 128 + (if b then n else 0)
  s.putWs ch (base (!src)) ((List.range n).map (fun i => s.wsByte ch (base src + i)))

-- ---------------------------------------------------------------- token moves (R414 to R417, R454)

/-- The token goes to a side: the field names its engine, which counts an assignment. OVR_RUN counts the side that is active now (R409). -/
def assignToken (ch : Nat) (side : Bool) (s : State) : State :=
  ((s.bump (hltReg ((s.chan ch).engOf side) 0x10)).updLease ch (fun x => { x with holder := some side, grant := none, lost := false })).updChan
    ch (fun c => { c with loop := { c.loop with ovrRun := c.lease.ovr side, ovrRunS := c.lease.ovr (!side) } })

/-- A channel has lost its standby (R420). -/
def loseStandby (ch : Nat) (s : State) : State :=
  let was := (s.chan ch).lease.unshadowed
  let s := s.updLease ch (fun x => { x with stby := 2, mirror := false, firstCmp := false, unshadowed := true })
  if was then s else shdChan ch 4 1 s

/-- Handover: the token is withdrawn and the next latch grants it to the standby; the former holder is the standby and
out of service (R416). -/
def handover (ch : Nat) (s : State) : State :=
  let b := (s.chan ch).lease.standby
  loseStandby ch ((withdrawToken ch s).updLease ch (fun x => { x with grant := some b }))

/-- LEASE_LOST (R417): no standby is left either (R420). -/
def leaseLost (ch : Nat) (s : State) : State :=
  shdChan ch 2 2 (loseStandby ch ((withdrawToken ch s).updLease ch (fun x => { x with lost := true })))

/-- That period's command is withdrawn from the queue (R415). -/
def withdrawCommand (ch : Nat) (s : State) : State :=
  s.updChan ch (fun c => { c with cmdQ := none, loop := { c.loop with delivered := false } })

-- ---------------------------------------------------------------- conviction (R412, R414, R420)

/-- Queue the automatic test of a unit: engines by number, pairs FSk from 160, module core pairs from 168. -/
def queueTest (n : Nat) (s : State) : State :=
  if s.svc.defer.contains (.autoTest n) then s else (deferAction (.autoTest n) s).getD s

/-- A unit is retired until the next power-up, which the health record counts for an engine (R420). -/
def retireEngine (e : Nat) (s : State) : State :=
  let s := s.updHlt e (fun h => { h with st := 0, hstate := 4 })
  let s := s.setRun e { s.run e with live := false }
  { s with nv := { s.nv with retired := s.nv.retired + 1 } }

/-- Halt, and quarantine or at the third conviction retire (R420). -/
def quarantine (e cause : Nat) (s : State) : State :=
  let h := s.hlt e
  let n := min 255 (h.convicts + 1)
  let s := s.updHlt e (fun h => { h with convicts := n, cause, st := 0, hstate := 1 })
  let s := s.setRun e { s.run e with live := false }
  if 3 ≤ n then retireEngine e s else queueTest e s

/-- An engine holds a token. -/
def State.holdsToken (s : State) (e : Nat) : Bool :=
  (s.chansOfFlock (e / 4)).any (fun ch =>
    match (s.chan ch).lease.holder with | some b => (s.chan ch).engOf b == e | none => false)

/-- Channels for which a loop engine is standby, or becomes it with the grant that is due (R422). -/
def State.standbysOf (s : State) (e : Nat) : List Nat :=
  (s.chansOfFlock (e / 4)).filter (fun ch =>
    let c := s.chan ch
    match c.lease.holder.or c.lease.grant with
    | some b => c.engOf (!b) == e
    | none => false)

/-- They lose it. -/
def loseStandbys (e : Nat) (s : State) : State := each (s.standbysOf e) loseStandby s

/-- A loop engine whose error pair is broken is retired once it holds no token (R435). -/
def retireBroken (s : State) : State :=
  each (s.col.broken.filter (fun e => decide (e < 128))) (fun e s =>
    if (s.hlt e).hstate = 4 ∨ s.holdsToken e then s else loseStandbys e (retireEngine e s)) s

/-- What a conviction of engines does to a channel of their flock whose judgement did not settle it (R414). -/
def convictedChan (conv : List Nat) (ch : Nat) (s : State) : State :=
  let c := s.chan ch
  match c.lease.holder with
  | none => if conv.any (fun e => e == c.engOf false || e == c.engOf true) then loseStandby ch s else s
  | some b =>
    if conv.contains (c.engOf b) then
      if s.eligible conv ch then handover ch s
      else if c.armed then leaseLost ch s
      else loseStandby ch (withdrawToken ch s)
    else if conv.contains (c.engOf (!b)) then loseStandby ch s
    else s

/-- Convict engines of a flock, each with its cause, after the channels in `settled`. -/
def convictAll (f : Nat) (conv : List (Nat × Nat)) (settled : List Nat) (s : State) : State :=
  let es := conv.map (·.1)
  let s := each ((s.chansOfFlock f).filter (fun ch => !settled.contains ch)) (convictedChan es) s
  forL conv (fun x s => shdEvent f 1 1 3 (x.1 % 4) (quarantine x.1 x.2 s)) s

-- ---------------------------------------------------------------- the judgement (R409 to R413)

/-- Steps 1 and 2 for loop period l: renewal and the consecutive overruns of each instance that should have run. A run that HLD excuses at
the cutoff is none (R237). -/
def renewCounts (ch l : Nat) (s : State) : State :=
  let a := s.sideRan ch false && s.placeAhead ch l false
  let b := s.sideRan ch true && s.placeAhead ch l true
  s.updLease ch (fun x =>
    let next (runs : Bool) (m : Option RunSum) (n : Nat) : Nat :=
      if !runs then n else if (m.map (·.ended)).getD false then 0 else if (m.map (·.hld)).getD false then n else min 3 (n + 1)
    let lse := ((x.sum (x.holder.getD false)).map (·.lse)).getD false
    { x with miss := if lse then 0 else min 3 (x.miss + 1), ovrA := next a x.sumA x.ovrA, ovrB := next b x.sumB x.ovrB })

/-- The latch set of a side. -/
def LoopPart.lat (x : LoopPart) (side : Bool) : Latch := if side then x.latB else x.latA

/-- The evidence against the engine of one side in this judgement: rows 1, 2 and 5, row 3 and row 4 for each event, row 6 (R411). `old` is
the side's overrun count before it. -/
def State.evidence (s : State) (ch : Nat) (side : Bool) (old : Nat) : List Nat :=
  let c := s.chan ch
  let x := c.lease
  let own := x.sum side
  let oth := x.sum (!side)
  let row1 := (own.map (·.evid)).getD false
  let row3 := if own.isSome then (c.loop.lat side).bad else 0
  let row4 := if (oth.map (·.bounds)).getD 0 = 0 then (own.map (·.bounds)).getD 0 else 0
  let row6 := s.sideRan ch side && x.ovr side == 3 && decide (old < 3)
  (if row1 then [1] else []) ++ List.replicate row3 3 ++ List.replicate row4 4 ++ (if row6 then [6] else [])

/-- Both runs of a channel ended at END and the standby was in step (R412). -/
def Lease.compared (x : Lease) : Bool :=
  x.stepped && x.stby == 0 && (x.sumA.map (·.ended)).getD false && (x.sumB.map (·.ended)).getD false

def Lease.agrees (x : Lease) : Bool := x.sumA.map (·.sig) == x.sumB.map (·.sig)

/-- The token is yielded at an agreement (R422). -/
def yieldToken (ch : Nat) (s : State) : State :=
  let b := (s.chan ch).lease.standby
  shdChan ch 7 0 ((withdrawToken ch s).updLease ch (fun x => { x with grant := some b, yield_ := false }))

/-- The counts of a compare (R412, R430). -/
def compareCounts (ch : Nat) (agree counted : Bool) (s : State) : State :=
  let c := s.chan ch
  let a := c.adm.first
  let s := if counted then s.bump (leaseReg a (if agree then 8 else 12)) else s
  each [c.engOf false, c.engOf true] (fun e s => s.bump (hltReg e (if agree then 8 else 12))) s

/-- The token of a convicted holder (R416, R417); the one whose lease has expired moves at its LEASE_EXPIRY (log 48). -/
def tokenOut (conv : List Nat) (exp : Bool) (ch : Nat) (s : State) : State :=
  if exp then s else if s.eligible conv ch then handover ch s else leaseLost ch s

/-- The standby is out of step and is resynchronised (R421, log 165). -/
def standbyBehind (ch : Nat) (s : State) : State := s.updLease ch (fun x => { x with stby := 1, mirror := true, firstCmp := true })

/-- The outcome of a judgement for one channel (R412), and whether it settled what a conviction does to it. `ev` are the engines
convicted by evidence, `conv` all that are convicted in this judgement (R414). The command of a holder whose lease expires with differing signatures is
withdrawn (R415); the token moves at its LEASE_EXPIRY (log 48). -/
def judgeOne (ev conv : List Nat) (ch : Nat) (s : State) : State × Bool :=
  let c := s.chan ch
  let x := c.lease
  match x.holder with
  | none => (s, false)
  | some b =>
    let exp := x.miss == 3 && !ev.contains (c.engOf b)
    let hc := conv.contains (c.engOf b)
    let sc := conv.contains (c.engOf (!b))
    let hOut := !((x.sum b).map (·.ended)).getD false
    let sOut := !((x.sum (!b)).map (·.ended)).getD false
    let row8 := x.stepped && x.stby == 0 && s.sideInSvc ch (!b) && (hOut || sOut)
    if x.compared then
      if x.agrees then
        let s := compareCounts ch true (!hc && !sc) s
        if hc then (tokenOut conv exp ch s, true)
        else if sc then (loseStandby ch s, true)
        else
          let s := s.updLease ch (fun x => { x with mirror := false })
          let s := if x.firstCmp then
              shdChan ch 6 0 (s.updLease ch (fun x => { x with firstCmp := false, unshadowed := false }))
            else s
          (if x.yield_ then yieldToken ch s else s, true)
      else
        let s := compareCounts ch false true s
        if hc && sc then (if exp then withdrawCommand ch s else leaseLost ch (withdrawCommand ch s), true)
        else if hc then (tokenOut conv exp ch (withdrawCommand ch s), true)
        else if sc then (loseStandby ch s, true)
        else (shdChan ch 3 2 (standbyBehind ch (withdrawCommand ch s)), true)
    else if row8 then
      let s := shdChan ch 5 0 s
      if hc then
        let s := if sOut then s.updLease ch (fun x => { x with stby := 1 }) else s
        (tokenOut conv exp ch s, true)
      else
        let s := if hOut then copyArea ch b s else standbyBehind ch s
        if sc then (loseStandby ch s, true) else (s, true)
    else if hc then (tokenOut conv exp ch s, true)
    else (s, false)

/-- The lease tally of a flock (R451). -/
def State.leaseOk (s : State) (f : Nat) : Bool :=
  let held := ((s.chansOfFlock f).filter (fun ch => (s.chan ch).lease.holder.isSome)).length
  BitVec.ofNat 32 held == (List.range 4).foldl (fun n q => n + s.reg (hltReg (4 * f + q) 0x10) - s.reg (hltReg (4 * f + q) 0x14)) (0 : W)

/-- cc C − 40 of loop period l of the present frame, in pt (R409). -/
def State.judgePt (s : State) (l : Nat) : Nat := s.bell.bPt + s.place s.m (l + 1) - 80

/-- The channels of flock f that are judged in loop period l: armed, with a holder, and due with the holder's place ahead when they were
armed (R219, R409). -/
def State.judged (s : State) (f l : Nat) : List Nat :=
  (s.chansOfFlock f).filter (fun ch =>
    (s.chan ch).armed && (s.chan ch).dueAt (s.loopIndex l) &&
      (match (s.chan ch).lease.holder with | some b => s.placeAhead ch l b | none => false))

/-- Each engine once, with the first cause found. -/
def firstCauses (l : List (Nat × Nat)) : List (Nat × Nat) :=
  l.foldl (fun l x => if l.any (fun y => y.1 == x.1) then l else l ++ [x]) []

/-- The engines that evidence, or a rejoining standby's disagreement, convicts (R411, R421), given each side's evidence. -/
def State.convictsByEvidence (s : State) (due : List Nat) (ev : List (Nat × Bool × List Nat)) : List (Nat × Nat) :=
  let rejoin := due.flatMap (fun ch =>
    let c := s.chan ch
    if c.lease.firstCmp && c.lease.compared && !c.lease.agrees then [(c.engOf c.lease.standby, 4)] else [])
  firstCauses (ev.flatMap (fun x => x.2.2.map (fun r => ((s.chan x.1).engOf x.2.1, if r = 6 then 2 else 1))) ++ rejoin)

/-- The engines that the leases expiring in this judgement convict (R410, R412). -/
def State.convictsByExpiry (s : State) (due : List Nat) : List (Nat × Nat) :=
  due.flatMap (fun ch =>
    let c := s.chan ch
    match c.lease.holder with
    | some b => if c.lease.miss = 3 ∧ s.inSvc (c.engOf b) then [(c.engOf b, 3)] else []
    | none => [])

/-- SHEEPDOG_JUDGEMENT: the judgement of the channels of flock f due in loop period l of the present frame (R409 to
R415). Without a serving supervisor, and inside a takeover, none is made and the signatures are discarded (R426). -/
def execSheepdogJudgement (f : Fin 32) (l : Fin 8) (s : State) : Res :=
  let due := s.judged f.val l.val
  let drop (s : State) : State := each due (fun ch s => s.updLease ch (fun x => { x with sumA := none, sumB := none })) s
  if !s.foldServed (f.val / 4) (s.judgePt l.val) then .next (drop s)
  else
    let old := due.map (fun ch => (ch, (s.chan ch).lease.ovrA, (s.chan ch).lease.ovrB))
    let s := each due (fun ch s => renewCounts ch l.val s) s
    let ev := old.flatMap (fun x => [(x.1, false, s.evidence x.1 false x.2.1), (x.1, true, s.evidence x.1 true x.2.2)])
    let s := forL ev (fun x s => each (x.2.2.filter (fun r => r == 3 || r == 4))
      (fun _ s => s.bump (hltReg ((s.chan x.1).engOf x.2.1) 0x18)) s) s
    let byEv := s.convictsByEvidence due ev
    let conv := firstCauses (byEv ++ s.convictsByExpiry due)
    let both := due.filter (fun ch =>
      decide (0 < ((s.chan ch).lease.sumA.map (·.bounds)).getD 0) && decide (0 < ((s.chan ch).lease.sumB.map (·.bounds)).getD 0))
    let (s, settled) := due.foldl (fun (p : State × List Nat) ch =>
      let (s, ok) := judgeOne (byEv.map (·.1)) (conv.map (·.1)) ch p.1
      (s, if ok then p.2 ++ [ch] else p.2)) (s, [])
    let s := convictAll f.val conv settled s
    let s := each both (fun ch s =>
      raiseOwn (srcFs (f.val / 4)) 5 2 1 ch (s.updChan ch (fun c => { c with cmdQ := none }))) s
    .next (settleFold (f.val / 4) (talCheck 1 (s.leaseOk f.val) (rejoinDone f.val (retireBroken (drop s)))))

/-- LEASE_EXPIRY: MISS has reached 3; the holder's engine is convicted with cause LEASE, where the judgement has not convicted it already, and the
token leaves it (R410, R412, R414). -/
def execLeaseExpiry (ch : Fin 512) (s : State) : Res :=
  let c := s.chan ch.val
  match c.lease.holder with
  | none => .next s
  | some b =>
    let e := c.engOf b
    if !(c.armed && c.lease.miss == 3) then .next s
    else if s.inSvc e then .next (convictAll c.flock [(e, 3)] [] s)
    else .next (convictedChan [e] ch.val s)

/-- TOKEN_GRANT: the grant is written in the latch of the next loop boundary (R416). The new holder's lease begins with MISS 0
(DEDUCED from R410, log 48). -/
def execTokenGrant (ch : Fin 512) (s : State) : Res :=
  match (s.chan ch.val).lease.grant with
  | none => .next s
  | some b => .next (shdChan ch.val 0 1
      (((assignToken ch.val b s).updLease ch.val (fun x => { x with miss := 0 })).bump (leaseReg (s.chan ch.val).adm.first 4)))

/-- The standby of a channel waits for the copy of its holder's state. -/
def State.resyncing (s : State) (ch : Nat) : Bool := (s.chan ch).lease.holder.isSome && (s.chan ch).lease.stby == 1

/-- RESYNC_COPY_DONE: the standby holds the holder's state and is in step; the channels of an engine follow each other in ascending position
(R421). While a layer window of the module is open the copy waits (R428). -/
def execResyncCopyDone (ch : Fin 512) (s : State) : Res :=
  let c := s.chan ch.val
  match c.lease.holder with
  | none => .next s
  | some b =>
    let before := (s.chansOfFlock c.flock).any (fun d =>
      s.resyncing d && (s.chan d).engOf (s.chan d).lease.standby == c.engOf (!b) && decide ((s.chan d).adm.first < c.adm.first))
    if !s.resyncing ch.val || before || s.modOpen then .next s else .next ((copyArea ch.val b s).updLease ch.val (fun x => { x with stby := 0 }))

/-- A loop engine that passed its test rejoins as standby of every channel placed on it that has a holder; a channel
with none is resynchronised from its next ARM on (R408, R421). Its instances' overruns are counted afresh. -/
def rejoinEngine (e : Nat) (s : State) : State :=
  let f := e / 4
  let mine := (s.chansOfFlock f).filter (fun ch => (s.chan ch).engOf false == e || (s.chan ch).engOf true == e)
  let on := mine.filter (fun ch => (s.chan ch).lease.holder.isNone || (s.chan ch).engOf (s.chan ch).lease.standby == e)
  let s := s.updHlt e (fun h => { h with
    st := b2n (mine.any (fun ch => (s.chan ch).loop.img.isSome)), hstate := if on.any (fun ch => (s.chan ch).lease.holder.isSome) then 3 else 0 })
  each on (fun ch s =>
    let a := (s.chan ch).engOf false == e
    (s.updChan ch (fun c => { c with loop := { c.loop with ovrRunS := 0 } })).updLease ch (fun x =>
      { x with stby := 1, mirror := true, firstCmp := true, ovrA := if a then 0 else x.ovrA, ovrB := if a then x.ovrB else 0 })) s

/-- The same once no layer window of the module is open (R428). -/
def rejoinOrWait (e : Nat) (s : State) : State :=
  if s.modOpen then (s.updHlt e (fun h => { h with st := 0, hstate := 3 })).updSvc (fun v => { v with defer := v.defer ++ [.rejoin e] })
  else rejoinEngine e s

-- ---------------------------------------------------------------- model engines (R343, R424)

/-- A field of the parameter table of a channel (R337). -/
def Mdl.pv (x : Mdl) (off n : Nat) : Nat := leVal ((x.par.drop off).take n)

/-- Nominal and measured bus of a fold in Q1.15 of 102.4 V (R218). -/
def State.vnom (s : State) (k : Nat) : Nat := s.regField (foldCfg k) 0 7 * 320
def State.vbus (s : State) (k : Nat) : Nat := (s.fold k).busS / 2

/-- The bus scale s (R335). -/
def busScale (vnom vbus : Nat) : Int := if vbus = 0 then 32767 else min 32767 (roundDiv (32768 * vnom : Nat) vbus)

/-- The last clamp of a channel and its intersection with ± HOLD × s (R320, R343). -/
def narrowClamp (ch : Nat) (s : State) : State :=
  let c := s.chan ch
  let k := c.foldIx
  let h := rshift (sx 16 (c.mdl.pv 0x36 2) * busScale (s.vnom k) (s.vbus k)) 15
  let hi := min c.mdl.upper h
  let lo := max c.mdl.lower (-h)
  s.setChan ch { c with clampQ := some (hi, lo), mdl := { c.mdl with upper := hi, lower := lo } }

/-- An event of a model engine, and one of a channel's model. -/
def meEvent (f bit cls : Nat) (s : State) : State := raise (engEvt (128 + f)) (mkRep (srcModel f) 0 bit cls 0 0) s
def mdlEvent (ch bit cls : Nat) (s : State) : State :=
  raise (mdlEvt (s.chan ch).adm.first) (mkRep (srcModel (s.chan ch).flock) 1 bit cls 1 ch) s

/-- Both model engines of a flock pair have failed (R343). -/
def modelLost (f : Nat) (s : State) : State :=
  each [f, f ^^^ 1] (fun g s =>
    each ((s.chansOfFlock g).filter (fun ch => (s.chan ch).armed && (s.chan ch).mdl.valid)) (fun ch s => mdlEvent ch 9 2 s) s) s

/-- A model engine is declared failed: quarantined and covered by its neighbour (R424, R343). -/
def declareFailed (f cause : Nat) (s : State) : State :=
  let e := 128 + f
  if (s.hlt e).hstate != 0 then s
  else
    let g := f ^^^ 1
    let s := quarantine e cause (meEvent f 6 1 s)
    let s := s.updMEng f (fun x => { x with covering := false })
    let s := each (s.chansOfFlock f) narrowClamp s
    if (s.hlt (128 + g)).hstate == 0 then
      let s := (s.updMEng f (fun x => { x with covered := true })).updMEng g (fun x => { x with covering := true })
      meEvent g 3 0 ((s.bump (hltReg (128 + g) 0x10)).bump (hltReg e 0x14))
    else modelLost f (s.updMEng g (fun x => { x with covered := false }))

-- ---------------------------------------------------------------- arming (R306, R307, R408)

/-- The engine that would hold the token at an ARM (R408): true for ENG_B. -/
def Lease.wants (x : Lease) : Bool := if !x.everArmed || x.lost then false else x.holder.getD false

/-- The token at ARM (R408, R454). -/
def armToken (ch : Nat) (s : State) : State :=
  let c := s.chan ch
  let want := c.lease.wants
  let s := if s.sideInSvc ch want then
      (if c.lease.holder == some want then s else assignToken ch want (withdrawToken ch s))
    else assignToken ch (!want) (withdrawToken ch s)
  let b := (s.chan ch).lease.standby
  let s := if s.sideInSvc ch b then s else loseStandby ch s
  s.updLease ch (fun x => { x with everArmed := true, lost := false })

/-- What arming at cc `now` sets: FIRST for the first run, no HELD, and no command of a run from before (R240). -/
def goArmed (ch now : Nat) (s : State) : State :=
  let s := each (s.chan ch).terms (fun t s => s.updTerm t (fun x => { x with gateOff := [] })) s
  refreshGates (s.updChan ch (fun c => { c with
    st := .armed, armPend := false, cmdQ := none
    loop := { c.loop with first := true, delivered := true, armedAt := now }
    lease := { c.lease with sumA := none, sumB := none } }))

/-- ARM (R306). A channel that is not audible is armed at its loop boundary, an audible one now with effective gain 0
(R141); one whose stop is on its way ends with STATE and is not armed (R55). -/
def execArm (e : CmdEntry) (now : Nat) (s : State) : Res :=
  .next (commandRow opArm (fun e s =>
    let ch := hIndex (opN e 0)
    let c := s.chan ch
    checked e [(c.st == .idle && !s.sec.unlocked, stState, 1), (c.loop.img.isSome, stState, 2),
      (c.mdl.valid && !c.mdl.rebuild, stState, 3), (c.adm.kind != 3 || (s.motorOf ch).isSome, stState, 4),
      (s.sideInSvc ch false || s.sideInSvc ch true, stState, 5)] (fun s =>
      let s := armToken ch s
      if c.audible && s.stopDue ch then complete e stState 0 0 0 0 s
      else if c.audible then
        let s := (goArmed ch now s).updChan ch (fun c => askZc .start 0 { c with zc := { c.zc with eff := 0 } })
        acceptNow e 0 (motorArm ch now s)
      else acceptLater e 0 (s.updChan ch (fun c => { c with armPend := true }))) s) e s)

/-- ARM_TAKE_EFFECT: at its loop boundary the channel is armed; a motor starts in ALIGN (R307, R380). Where a stop of the channel is on its
way the ARM has no effect (R55). -/
def execArmTakeEffect (ch : Fin 512) (now : Nat) (s : State) : Res :=
  let c := s.chan ch.val
  if c.armPend && s.stopDue ch.val then .next (finishObj opArm (1, ch.val) stState (s.setChan ch.val { c with armPend := false }))
  else if c.armPend && c.st == .idle then .next (finishObj opArm (1, ch.val) stOk (motorArm ch.val now (goArmed ch.val now s)))
  else .next s

/-- DEBUG_HALT: a loop engine's channels enter their safe state at once and are stopped (R211); a model engine's
halt takes every armed channel of its flock to its safe state (R342). -/
def execDebugHalt (e : Fin 160) (now : Nat) (s : State) : Res :=
  let s := s.updHlt e.val (fun h => { h with st := 3 })
  let s := s.setRun e.val { s.run e.val with live := false }
  let f := if e.val < 128 then e.val / 4 else e.val - 128
  let src := if e.val < 128 then srcLoop e.val else srcModel f
  let hit := (s.chansOfFlock f).filter (fun ch =>
    if e.val < 128 then (s.chan ch).engOf false == e.val || (s.chan ch).engOf true == e.val else (s.chan ch).armed)
  .next (each hit (fun ch s =>
    let r := mkRep src 15 2 2 1 ch
    raiseOwn src 2 2 1 ch (tripChannel ch now r s)) s)

end Sys2Proof.Machine
end

