-- ==== Sys2Proof/Machine/Motion.lean ====
section
/-! DEFINITION. The moving-part model (11 R330 to R332, R337, R339): its exact response over motion periods, one step of the
estimate, the rows of a working table. -/

namespace Sys2Proof.Machine

open Sys2Proof

-- ---------------------------------------------------------------- parameters (R337)

/-- A little-endian field of a parameter table. -/
def BankSrc.pv (b : BankSrc) (off n : Nat) : Nat := leVal ((b.par.drop off).take n)

/-- The layout of a table: 1 rotary, 2 linear. -/
def BankSrc.rotary (b : BankSrc) : Bool := b.pv 6 2 == 1

/-- Force factor or torque constant in 10⁻⁶, stiffness in 10⁻⁶, damping in 10⁻⁹, mass or inertia in 10⁻¹⁰ of the SI unit. -/
def BankSrc.force (b : BankSrc) : Nat := b.pv 0x4C 4 * (if b.rotary then 1 else 1000)
def BankSrc.stiff (b : BankSrc) : Nat := b.pv 0x44 4 * (if b.rotary then 1 else 1000)
def BankSrc.damp (b : BankSrc) : Nat := b.pv 0x48 4 * (if b.rotary then 1 else 1000000)
def BankSrc.inert (b : BankSrc) : Nat := b.pv 0x40 4 * (if b.rotary then 1 else 10000)

/-- The loop rate, and the loop periods of a motion period (R315), of a build. -/
def BankSrc.loopRate (b : BankSrc) : Nat := b.frate * 2 ^ b.mLog2
def BankSrc.nM (b : BankSrc) : Nat := max 1 (b.loopRate / 48000)

/-- The parameters give the formulas of R330 a meaning: no divisor of theirs is 0. Those of R331 divide by the inductance too. -/
def BankSrc.moves (b : BankSrc) : Bool := b.inert != 0 && b.xlim != 0 && b.vlim != 0 && b.loopRate != 0
def BankSrc.regular (b : BankSrc) : Bool := b.moves && b.pv 0x50 4 != 0

-- ---------------------------------------------------------------- the response (R330, R331)

/-- Rates of change, per second, of x̂ in 2 XLIM, v̂ in 2 VLIM and the current in 25.6 A by those three and the command: the
mechanics of R330, and with `coil` the electrical equation of R331 with the coil at 0 °C. -/
def BankSrc.rates (b : BankSrc) (coil : Bool) : List (List (Int × Nat)) :=
  let f : Int := b.force
  let jv := b.inert * b.vlim
  let l := b.pv 0x50 4
  let r0 : Int := b.res * (1000000 - 20 * (b.pv 0x14 2 : Int))
  [[(0, 1), (b.vlim * 1000, b.xlim), (0, 1), (0, 1)],
   [(-((b.stiff * b.xlim * 10 : Nat) : Int), jv), (-((b.damp * 10 : Nat) : Int), b.inert), (f * 128000000, jv), (0, 1)],
   if coil then [(0, 1), (-(f * b.vlim), 12800 * l), (-r0, 1000000 * l), (b.volt * 10000000, 256 * l)] else [(0, 1), (0, 1), (0, 1), (0, 1)],
   [(0, 1), (0, 1), (0, 1), (0, 1)]]

/-- The state after one motion period with the input held. -/
def BankSrc.period (b : BankSrc) (coil : Bool) : List (List Int) := mExp (b.rates coil) b.nM b.loopRate

/-- One motion period of the estimate (R330): x̂ and v̂ after it, rounded to Q1.15 and saturated, from the measured current. -/
def motionStep (b : BankSrc) (x v i : Int) : Int × Int :=
  if !b.moves then (let y := Config.motionStep b.par x v i; ((sat16 y.1).1, (sat16 y.2).1)) else
  let e := b.period false
  let row (k : Nat) : Int := (sat16 (roundDiv (mAt e k 0 * x + mAt e k 1 * v + mAt e k 2 * i) (2 ^ 512 : Nat))).1
  (row 0, row 1)

-- ---------------------------------------------------------------- rows (R331, R332)

/-- What horizon samples 1 to n are linear in: per sample, the 4 × 4 response to x̂, v̂, the current and CMD, and the response to
the candidate command, which acts from the second period on. -/
def BankSrc.horizon (b : BankSrc) (n : Nat) : List (List (List Int) × List Int) :=
  let e := b.period true
  -- the response of the state; its last row stays 0, so that CMD acts in the first period alone
  let a := (List.range 4).map (fun i => if i = 3 then [0, 0, 0, 0] else e.getD i [])
  ((List.range n).foldl (fun (p : List (List (List Int) × List Int) × List (List Int) × List Int) k =>
    let f := if k = 0 then a else mMul a p.2.1
    let g := if k = 0 then [0, 0, 0] else (List.range 3).map (fun i =>
      mAt e i 3 + (List.range 3).foldl (fun s j => s + fMul (mAt e i j) (p.2.2.getD j 0)) 0)
    (p.1 ++ [(f, g)], f, g)) ([], [], [])).1

/-- A row (R332, R339): PU and W in Q1.31 and A, B, C, D in Q1.15 of 16 full-scale commands, each rounded to the nearest value and
saturated. `lim` is the limit in 2⁻¹⁶ of the full scale of the state, `most` the largest |g|. -/
def rowBytes (f : List Int) (g most : Int) (lim : Nat) : List (BitVec 8) :=
  let least := most / 4096
  let g := if absI g < least then (if g < 0 then -least else least) else g
  let d := (absI g * 16).toNat
  let q32 (num : Int) : List (BitVec 8) := leBytes 4 (ux 32 (sat32 (roundDiv (num * 2 ^ 31) d)).1)
  let q16 (num : Int) : List (BitVec 8) := leBytes 2 (ux 16 (sat16 (roundDiv ((if g < 0 then -num else num) * 2 ^ 15) d)).1)
  q32 (fOne * lim / 2 ^ 16) ++ q32 (2 * (fOne * lim / 2 ^ 16)) ++ (List.range 4).flatMap (fun k => q16 (f.getD k 0))

/-- Rows of the samples that `keep` names, position then velocity of each, within the limits less a fraction `margin` in Q1.15 of
them; none where every |g| of a kind is 0. -/
def BankSrc.rows (b : BankSrc) (keep : Nat → Bool) (margin : Nat) : Option (List (BitVec 8)) :=
  let h := b.horizon 32
  let big (i : Nat) : Int := h.foldl (fun m y => max m (absI (y.2.getD i 0))) 0
  let lim := 32768 - min 32768 margin
  if big 0 / 4096 = 0 ∨ big 1 / 4096 = 0 then Option.none
  else some ((h.zipIdx.filter (fun y => keep (y.2 + 1))).flatMap (fun y =>
    rowBytes (y.1.1.getD 0 []) (y.1.2.getD 0 0) (big 0) lim ++ rowBytes (y.1.1.getD 1 []) (y.1.2.getD 1 0) (big 1) lim))

/-- The motion part of a bank, bytes 0x040 to 0x57F (R339). The coefficients at 0x040 have no stated layout, and parameters with
which a formula divides by 0 give no row: free values. -/
def BankSrc.motion (b : BankSrc) : List (BitVec 8) :=
  let free := Config.motionTable b.par b.res b.xlim b.vlim b.frate b.mLog2
  let part (at_ n : Nat) : List (BitVec 8) := (List.range n).map (fun i => free.getD (at_ + i) 0)
  let rows (keep : Nat → Bool) (margin at_ n : Nat) : List (BitVec 8) :=
    if b.regular then (b.rows keep margin).getD (part at_ n) else part at_ n
  part 0 64 ++ rows (fun _ => true) 0 64 1024 ++ rows (fun k => k % 4 == 0) (b.pv 0x66 2) 1088 256

end Sys2Proof.Machine
end

