-- ==== Sys2Proof/Machine/Sense.lean ====
section
/-! DEFINITION. Sense ports: configuration, conversion and events (12 R347 to R358). -/

namespace Sys2Proof.Machine

open Sys2Proof

def snsCfg (n : Nat) : Nat := snsReg n 0
def State.snsMode (s : State) (n : Nat) : Nat := s.regField (snsCfg n) 0 3

/-- The armed channel that claims a port (R356). -/
def State.snsArmed (s : State) (n : Nat) : Option Nat :=
  match s.senseOwner n with
  | some ch => if (s.chan ch).armed then some ch else none
  | none => none

/-- The report of a sense event (R356): `hi` is its class for a port that an armed channel claims. -/
def State.snsRep (s : State) (n bit hi : Nat) : Report :=
  match s.snsArmed n with
  | some ch => mkRep (srcFlock (n / 8)) 3 bit hi 1 ch
  | none => mkRep (srcFlock (n / 8)) 3 bit 0 3 (n % 8)

/-- A condition of a port that lasts is reported once while it lasts. -/
def snsCond (n bit hi : Nat) (isOver : Bool) (s : State) : State :=
  let s := if isOver then s else condEnd (fun r => r.source == srcFlock (n / 8) && r.cause == 48 + bit &&
    (r == mkRep (srcFlock (n / 8)) 3 bit 0 3 (n % 8) || (r.okind == 1 && some r.object == s.senseOwner n))) s
  if isOver then limitEvt (snsEvt n) (s.snsRep n bit hi) true s else s

/-- Settling ends no sooner than it takes; meanwhile the values are 0. A port that is off has nothing to settle (R355). -/
def startSettling (n : Nat) (s : State) : State :=
  s.updSns n (fun x => { x with settling := decide (1 ≤ s.snsMode n ∧ s.snsMode n ≤ 4) })

/-- The writes that wait take effect at a latch strobe; a change of MODE, SENSOR or EXC starts settling (R355, R358). -/
def applySns (n : Nat) (s : State) : State :=
  let p := (s.sns n).pend
  let old := s.reg (snsCfg n)
  let s := forL p (fun e s => match e.2 with | some v => s.setReg (snsReg n e.1) v | none => s) s
  let s := s.updSns n (fun x => { x with pend := [] })
  if (old &&& 0x187) != (s.reg (snsCfg n) &&& 0x187) then startSettling n s else s

/-- Primary and secondary value of a sample, the second with the events OVERRANGE, SENSOR_OPEN and SENSOR_SHORT it gives, and
DET_LOW (R347 to R352). The primary is none where the last one formed holds. -/
structure Sampled where
  primary : Option (BitVec 24)
  secondary : BitVec 24
  isOver : Bool
  open_ : Bool
  short : Bool
  low : Bool
  deriving DecidableEq, Repr

/-- GAIN × num / den + OFFSET, rounded and saturated to 24 bits (R347). -/
def State.calibrated (s : State) (n : Nat) (num den : Int) : BitVec 24 :=
  let g : Int := s.regField (snsReg n 0x08) 0 16
  let o := sx 24 (s.regField (snsReg n 0x0C) 0 24)
  BitVec.ofInt 24 (satTo 24 (roundDiv (g * num + o * (16384 * den)) (16384 * den))).1

/-- Position mode (R347, R348); 2.2 mA is 4,613,734.4 steps of 4 mA / 2 ^ 23. The ratio of a sum of 0 above a SUM_MIN of 0 is not stated: a free value. -/
def State.samplePos (s : State) (n : Nat) (a b : BitVec 32) : Sampled :=
  let lim := 4613734
  let x := min a.toNat lim
  let y := min b.toNat lim
  let sum := x + y
  let low := decide (sum < s.regField (snsReg n 0x04) 8 8 * 32768)
  let p := if low then none
    else if sum = 0 then some (Config.freeBits 24 s.free)
    else some (s.calibrated n (((x : Int) - y) * 2 ^ 23) sum)
  { primary := p, secondary := BitVec.ofInt 24 (satTo 24 sum).1
    isOver := decide (lim < a.toNat ∨ lim < b.toNat), open_ := false, short := false, low }

/-- Voltage mode (R347, R350); exactly 10.24 V is within the range. -/
def State.sampleVolt (s : State) (n : Nat) (a b : BitVec 32) : Sampled :=
  let x := a.toInt - b.toInt
  let isOver := decide (2 ^ 23 < absI x)
  let (d, _) := satTo 24 x
  { primary := some (s.calibrated n d 1)
    secondary := BitVec.ofInt 24 (satTo 24 (roundDiv (a.toInt + b.toInt) 2)).1
    isOver, open_ := false, short := false, low := false }

/-- R0 (1 + A t + B t² + C (t − 100) t³), without C from 0 °C on, of the Callendar–Van Dusen equation at t = u / 2 ^ 15 °C with the
coefficients of IEC 60751 (log 167), in units of R0 × 10 ^ -15 × 2 ^ -60. -/
def callendar (u : Int) : Int :=
  10 ^ 15 * 2 ^ 60 + 3908300000000 * u * 2 ^ 45 - 577500000 * u * u * 2 ^ 30 - (if u < 0 then 4183 * (u - 100 * 2 ^ 15) * u * u * u else 0)

/-- The largest T in 2 ^ -14 °C above `acc` whose lower half step is at most r mΩ, by bits from the top. -/
def callendarRoot (r0 r : Nat) : Nat → Int → Int
  | 0, acc => acc
  | b + 1, acc =>
    let c := acc + 2 ^ b
    callendarRoot r0 r b (if callendar (2 * c - 1) * r0 ≤ (r : Int) * 10 ^ 15 * 2 ^ 60 then c else acc)

/-- The temperature of an RTD of resistance r mΩ in °C × 2 ^ 14 (R351), which saturates at 24 bits; outside −50 °C to 600 °C the spec gives none: a
free value. -/
def rtdTemp (pt1000 : Bool) (r : Nat) : BitVec 24 :=
  let t := callendarRoot (if pt1000 then 1000000 else 100000) r 24 (-60 * 2 ^ 14)
  if t < -50 * 2 ^ 14 ∨ 600 * 2 ^ 14 < t then Config.rtdTemp pt1000 r else BitVec.ofInt 24 (satTo 24 t).1

/-- A temperature mode from its limits and its conversion (R351, R352). -/
def sampleTemp (r : Nat) (open_ short : Bool) (temp : BitVec 24) : Sampled :=
  { primary := some (if open_ then 0x7FFFFF else if short then 0x800000 else temp)
    secondary := BitVec.ofInt 24 (satTo 24 r).1, isOver := false, open_, short, low := false }

/-- The temperature of a thermistor of resistance r by the β model, RNOM in 10 Ω (R352), in °C × 2 ^ 14; outside −40 °C to 150 °C
the spec gives none: a free value. -/
def betaTemp (rnom beta r : Nat) : BitVec 24 :=
  let free := Config.thermistorTemp rnom beta r
  if rnom = 0 ∨ beta = 0 ∨ r = 0 then free
  else
    -- T = 298.15 B / (B + 298.15 ln (Rm / RNOM))
    let den := fOne * (20 * beta : Nat) + 5963 * fLog r (10 * rnom)
    if den ≤ 0 then free
    else
      let t := roundDiv ((596300 * beta * 2 ^ 14 : Nat) * fOne - 27315 * 2 ^ 14 * den) (100 * den.toNat)
      if t < -40 * 2 ^ 14 ∨ 150 * 2 ^ 14 < t then free else BitVec.ofInt 24 t

/-- A sample of a port in its mode. -/
def State.sampled (s : State) (n : Nat) (x : SenseIn) : Sampled :=
  let r := x.a.toNat
  match s.snsMode n with
  | 1 => s.samplePos n x.a x.b
  | 2 => s.sampleVolt n x.a x.b
  | 3 =>
    let pt1000 := bitOf (s.reg (snsCfg n)) 7
    let k := if pt1000 then 10 else 1
    sampleTemp r (decide (400000 * k < r)) (decide (r < 1000 * k)) (rtdTemp pt1000 r)
  | 4 =>
    let rnom := s.regField (snsReg n 0x10) 16 16
    sampleTemp r (decide (1000 * rnom < r)) (decide (100 * r < rnom)) (betaTemp rnom (s.regField (snsReg n 0x10) 0 16) r)
  | _ => { primary := some 0, secondary := 0, isOver := false, open_ := false, short := false, low := false }

/-- The values of a port at a latch. -/
def setVals (n : Nat) (p q : BitVec 24) (s : State) : State :=
  (s.setReg (snsReg n 0x14) (p.zeroExtend 32)).setReg (snsReg n 0x18) (q.zeroExtend 32)

/-- The illumination of a port is regulated: REG = 1 in a mode that ILL drives. -/
def State.regulates (s : State) (n : Nat) : Bool :=
  s.flockOn (n / 8) && bitOf (s.reg (snsReg n 0x04)) 31 && (s.snsMode n == 1 || s.snsMode n == 2)

/-- The illumination current in effect, with the 1.0 mA of a Pt100 (R349, R351); smaller excitations read 0. Regulation starts at ILL and
moves to what it asks for, but only towards SUM_TGT, in units of 2 ^ 15 steps, and never beyond ILL (log 168). -/
def State.illNow (s : State) (n : Nat) (x : SenseIn) : Nat :=
  let set := min 200 (s.regField (snsReg n 0x04) 0 8)
  if s.snsMode n = 3 then (if bitOf (s.reg (snsCfg n)) 7 then 0 else 4)
  else if s.snsMode n != 1 && s.snsMode n != 2 then 0
  else if !s.regulates n || !(s.sns n).regOn then set
  else
    let old := min (s.sns n).illNow set
    let sum := x.a.toInt + x.b.toInt
    let tgt : Int := s.regField (snsReg n 0x04) 16 8 * 32768
    if sum < tgt then min set (max old x.ill.toNat) else if tgt < sum then min old x.ill.toNat else old

/-- The sample of a port at a latch strobe: its writes take effect, then it converts (R353 to R356). -/
def latchPort (n : Nat) (x : SenseIn) (s : State) : State :=
  let s := applySns n s
  let s := s.updSns n (fun z => { z with illNow := if s.flockOn (n / 8) then s.illNow n x else 0, regOn := s.regulates n })
  if !s.flockOn (n / 8) || (s.sns n).settling then setVals n 0 0 s
  else
    let y := s.sampled n x
    let s := if s.snsMode n = 1 then s.draw.2 else s
    let s := if s.snsMode n = 1 then s.updSns n (fun z => { z with lastGood := y.primary.getD z.lastGood }) else s
    let s := setVals n (y.primary.getD (s.sns n).lastGood) y.secondary s
    let s := if y.isOver then raise (snsEvt n) (s.snsRep n 0 1) (s.bump (snsReg n 0x28)) else s
    snsCond n 1 2 y.open_ (snsCond n 2 2 y.short (snsCond n 3 2 y.low s))

/-- SNS_CONFIG_WRITE: SNS_CFG, SNS_ILL, SNS_GAIN, SNS_OFS and SNS_TCAL by `reg` (R358). -/
def execSnsConfigWrite (n : Fin 256) (reg : Fin 5) (v : W) (s : State) : Res :=
  let mask : W := match reg.val with | 0 => 0x197 | 1 => 0x80FFFFFF | 2 => 0xFFFF | 3 => 0xFFFFFF | _ => 0xFFFFFFFF
  let v := v &&& mask
  if (s.snsArmed n.val).isSome || (reg.val == 0 && decide (5 ≤ fld v 0 3)) then
    .next (raise (snsEvt n.val) (mkRep (srcFlock (n.val / 8)) 3 5 0 3 (n.val % 8)) s)
  else .next (s.updSns n.val (fun x => { x with pend := tset none x.pend (4 * reg.val) (some v) }))

/-- SENSE_SETTLED (R355). -/
def execSenseSettled (n : Fin 256) (s : State) : Res := .next (s.updSns n.val (fun x => { x with settling := false }))

/-- ILL_FAULT: the compliance limit has held for 1 ms (R349). `held` false says that the condition has ended (R447). -/
def execIllFault (n : Fin 256) (held : Bool) (s : State) : Res :=
  if (s.sns n.val).settling then .next s else .next (snsCond n.val 4 2 held s)

end Sys2Proof.Machine
end

