-- ==== Sys2Proof/Machine/Models.lean ====
section
/-! DEFINITION. Protection models: schedule, validity, tables, the law of the standard image, cover, the passive monitor (11,
12 R370). -/

namespace Sys2Proof.Machine

open Sys2Proof

-- ---------------------------------------------------------------- schedule (R315, R318, R319)

def State.loopRate (s : State) : Nat := s.frate * s.m

/-- nM. -/
def State.nM (s : State) : Nat := max 1 (s.loopRate / 48000)

/-- The flock's model image. -/
def State.mdlImage (s : State) (f : Nat) : Option Image := (s.meng f).img.map s.image

def State.updMdl (s : State) (ch : Nat) (g : Mdl → Mdl) : State := s.updChan ch (fun c => { c with mdl := g c.mdl })

/-- Live channels of a flock with a valid model, in ascending position. -/
def State.validOf (s : State) (f : Nat) : List Nat := s.posSort ((s.chansOfFlock f).filter (fun ch => (s.chan ch).mdl.valid))

/-- The left side of R318 for nv own and nc neighbouring models. -/
def State.sched (s : State) (f nv nc : Nat) : Nat := 104 + nv * (24 + ((s.mdlImage f).map (·.wcc)).getD 0) + nc * 486

def State.schedFits (s : State) (f nv nc : Nat) : Bool := decide (s.sched f nv nc ≤ s.nM * s.loopCc)

/-- The conditions of R319 other than R318. -/
def State.mdlReady (s : State) (ch : Nat) : Bool :=
  let c := s.chan ch
  (s.meng c.flock).img.isSome && c.mdl.swapped && c.st != .deleting &&
    decide (128 + 2 * s.stateBytes ch + regionBytes c.adm.motion ≤ c.adm.wsKib * 1024)

/-- Admit models one after the other while R318 holds on both engines. -/
def State.admitModels (s : State) : List Nat → List Nat → List Nat
  | [], ok => ok
  | ch :: r, ok =>
    let f := (s.chan ch).flock
    let n (g : Nat) : Nat := (ok.filter (fun i => (s.chan i).flock == g)).length
    let g := f ^^^ 1
    if s.schedFits f (n f + 1) (n g) && s.schedFits g (n g) (n f + 1) then s.admitModels r (ok ++ [ch])
    else s.admitModels r ok

/-- The model state of a channel, the first 64 bytes of its model region (R322, R344); their layout is the model's (log 150).
A channel without a valid model has none (log 93). -/
def State.mst (s : State) (ch : Nat) : MState :=
  if !(s.chan ch).mdl.valid then MState.none else
  let u (o n : Nat) : Nat := s.wsVal ch ((s.chan ch).region + o) n
  { tc := sx 32 (u 0 4), tb := sx 32 (u 4 4), msa := u 8 4, g := u 12 2, x := sx 16 (u 14 2), v := sx 16 (u 16 2)
    overN := u 18 1, warn := u 19 1 == 1 }

/-- The bytes of a model state. -/
def MState.bytes (m : MState) : List (BitVec 8) :=
  leBytes 4 (ux 32 (sat32 m.tc).1) ++ leBytes 4 (ux 32 (sat32 m.tb).1) ++ leBytes 4 m.msa ++ leBytes 2 m.g ++
    leBytes 2 (ux 16 (sat16 m.x).1) ++ leBytes 2 (ux 16 (sat16 m.v).1) ++ leBytes 1 m.overN ++ leBytes 1 (b2n m.warn)

def putMst (ch : Nat) (m : MState) (s : State) : State := s.putWs ch (s.chan ch).region m.bytes

/-- Validity is evaluated again: the models that are valid stay so in ascending position while R318 holds, then the others
are taken (R319). A model that becomes valid starts with FIRST (R329). -/
def evalModels (s : State) : State :=
  let all := (List.range 32).flatMap (fun f => s.posSort (s.chansOfFlock f)) |>.filter s.mdlReady
  let ok := s.admitModels (all.filter (fun ch => (s.chan ch).mdl.valid) ++ all.filter (fun ch => !(s.chan ch).mdl.valid)) []
  each s.liveChans (fun ch s =>
    let v := ok.contains ch
    if v = (s.chan ch).mdl.valid then s
    else if v then s.updMdl ch (fun x => { x with valid := true, first := true, got := true, without := 0 })
    else (putMst ch MState.none s).updMdl ch (fun x => { x with valid := false })) s

-- ---------------------------------------------------------------- tables (R337 to R341)

/-- Limits in effect from a parameter table (R338): the table's where it is not 0 and smaller. -/
def limitOf (tab own : Nat) : Nat := if tab = 0 then own else min tab own
def Chan.tlim (c : Chan) (p : Mdl) : Nat := limitOf (p.pv 0x28 2) c.adm.temp
def Chan.xlim (c : Chan) (p : Mdl) : Nat := limitOf (p.pv 0x58 4) c.adm.exc
def Chan.vlim (c : Chan) (p : Mdl) : Nat := limitOf (p.pv 0x5C 4) c.adm.vel

/-- A gain word for num / den: the nearest, with the SH that keeps |M| largest (R223, R339). -/
def gainWord (num den : Nat) : Nat :=
  let m (sh : Nat) : Int := if den = 0 then 32768 else roundDiv (num * 32768 : Nat) (den * 2 ^ sh : Nat)
  match (List.range 16).find? (fun sh => decide (m sh ≤ 32767)) with
  | some sh => sh * 65536 + (m sh).toNat
  | none => 15 * 65536 + 32767

/-- The value of a gain word, times 2 ^ 15. -/
def gainVal (w : Nat) : Int := sx 16 w * (2 ^ (w / 65536 % 16) : Nat)

/-- A temperature in 0.1 °C as °C × 64 in 16 bits, the nearest that they hold (R339). -/
def tenths (x : Nat) : Int := min 32767 (roundDiv (x * 64 : Nat) 10)

/-- Bytes of a bank built from parameters (R339). -/
def Chan.tableBytes (c : Chan) (b : BankSrc) : List (BitVec 8) :=
  let tt := 48 * b.nM
  let lr := b.loopRate
  let cc := b.pv 0x18 4
  let cb := b.pv 0x1C 4
  let rcb := b.pv 0x20 4
  let rba := b.pv 0x24 4
  let k64 (x : Nat) : Nat := ux 16 (tenths x)
  let sq (ma : Nat) : Nat := ux 32 (roundDiv (ma * ma * 65536 : Nat) 1000000)
  let thermal := leBytes 4 b.seq ++ leBytes 4 b.res ++
    ([gainWord (tt * 1000) (lr * cc), gainWord (tt * 1000000) (lr * cc * rcb), gainWord (tt * 1000000) (lr * cb * rcb),
      gainWord (tt * 1000000) (lr * cb * rba), gainWord b.res 1000000, gainWord (b.pv 0x14 2) 1000000]).flatMap (leBytes 4) ++
    leBytes 2 (k64 b.tlim) ++ leBytes 2 (k64 (b.pv 0x16 2)) ++ leBytes 4 (sq c.adm.irms) ++ leBytes 2 (b.pv 0x36 2) ++
    leBytes 2 (k64 (b.pv 0x2A 2)) ++ leBytes 4 (sq (b.pv 0x30 2)) ++ leBytes 2 (b.pv 0x32 2) ++ leBytes 14 0
  if c.adm.motion = 0 then thermal else thermal ++ b.motion

/-- Workspace offset of a bank. -/
def Chan.bankAt (c : Chan) (b : Bool) : Nat := c.region + 64 + (if b then bankBytes c.adm.motion else 0)

/-- What a bank was built from. -/
def Mdl.src (x : Mdl) (b : Bool) : BankSrc := if b then x.bk1 else x.bk0

/-- A build of the latest parameters starts, superseding one in progress (R341). -/
def startBuild (ch : Nat) (s : State) : State :=
  s.updChan ch (fun c =>
    let x := c.mdl
    let p : Mdl := { x with par := x.parN }
    { c with mdl := { x with
      building := true, seq := x.seq + 1
      job := { par := x.parN, res := x.resN, tlim := c.tlim p, xlim := c.xlim p, vlim := c.vlim p, frate := s.frate, mLog2 := s.mLog2
               volt := s.regField (foldCfg c.foldIx) 0 7, seq := x.seq + 1, reb := x.rebuild, own := x.opn } } })

/-- Every table of the module is rebuilt for a change of rate (R341); ARM waits for a table of the new rate (R319). -/
def rebuildAll (s : State) : State :=
  each (s.liveChans.filter (fun ch => !(s.chan ch).mdl.parN.isEmpty && (s.chan ch).st != .deleting)) (fun ch s =>
    startBuild ch (s.updMdl ch (fun x =>
      { x with rebuild := true, bk0 := { x.bk0 with reb := false }, bk1 := { x.bk1 with reb := false } }))) s

/-- TABLE_BUILD_DONE: the other bank holds the table and the swap is pending (R339, R340). -/
def execTableBuildDone (ch : Fin 512) (s : State) : Res :=
  let c := s.chan ch.val
  if !c.mdl.building || !c.live || c.st == .deleting then .next s
  else
    let s := s.putWs ch.val (c.bankAt (!c.mdl.bank)) (c.tableBytes c.mdl.job)
    .next (s.updMdl ch.val (fun x =>
      let x := { x with building := false, swapPend := true }
      if x.bank then { x with bk0 := x.job } else { x with bk1 := x.job }))

/-- TABLE_SWAP: at B(j) the new bank is active; a MODEL.TABLE that it carries completes, which no later swap does again; a re-fit that waited
builds (R304, R340, R342). -/
def execTableSwap (ch : Fin 512) (s : State) : Res :=
  let c := s.chan ch.val
  if !c.mdl.swapPend || c.st == .deleting then .next s
  else
    let b := c.mdl.src (!c.mdl.bank)
    let s := s.updMdl ch.val (fun x =>
      { x with swapPend := false, swapped := true, bank := !x.bank, par := b.par, res := b.res, opn := x.opn && !b.own
               rebuild := x.rebuild && !b.reb })
    let s := if b.own then s.updMdl ch.val (fun x =>
        { x with job := { x.job with own := false }, bk0 := { x.bk0 with own := false }, bk1 := { x.bk1 with own := false } }) else s
    let s := mdlEvent ch.val 4 0 (s.bump (mdlReg c.adm.first 0x28))
    let s := if b.own then finishObj opModelTable (3, ch.val) stOk s else s
    let s := if c.mdl.refitWait then startBuild ch.val (s.updMdl ch.val (fun x => { x with refitWait := false })) else s
    .next (evalModels s)

/-- Whether a parameter table has the form of R337 and lies where it must (R338, check 1). -/
def State.tableOk (s : State) (ch : Nat) (a len : W) : Bool :=
  let c := s.chan ch
  let n := if c.adm.motion = 0 then 64 else 128
  let b := a.toNat
  let v (o k : Nat) : Nat := s.dramVal (b + o) k
  inImages b len.toNat && len.toNat == n && v 0 4 == 0x544C444D && v 4 2 == 1 && v 6 2 == c.adm.motion && v 8 2 == n &&
    s.dramZero (b + 0x0A) 6 && s.dramZero (b + 0x38) 8 && (n == 64 || s.dramZero (b + 0x68) 24) &&
    decide (10 ≤ v 0x16 2 ∧ v 0x16 2 ≤ 500) && decide (v 0x2C 2 < 1024) && decide (0 < v 0x36 2 ∧ v 0x36 2 < 32768)

/-- Whether a table's limits stay within the fence record for a channel's terminals (R338, check 2). -/
def fenceTableOk (f : Fence) (c : Chan) (p : Mdl) : Bool :=
  c.terms.all (fun t =>
    let x := tget FenceTerm.none f.terms t
    decide (p.pv 0x28 2 ≤ x.temp) && (c.adm.motion == 0 || decide (p.pv 0x58 4 ≤ x.exc ∧ p.pv 0x5C 4 ≤ x.vel)))

/-- MODEL_TABLE (R304, R338): an accepted table starts a build and restarts the re-fit count (R342). -/
def execModelTable (e : CmdEntry) (s : State) : Res :=
  .next (commandRow opModelTable (fun e s =>
    let ch := hIndex (opN e 0)
    let bytes := s.dramBytes (opN e 1).toNat (opN e 2).toNat
    let p : Mdl := { Mdl.none with par := bytes }
    checked e [(s.tableOk ch (opN e 1) (opN e 2), stSize, 1),
      ((s.sec.fence.map (fun f => fenceTableOk f (s.chan ch) p)).getD false, stFence, 2)] (fun s =>
      acceptLater e 0 (startBuild ch (s.updMdl ch (fun x =>
        { x with parN := bytes, resN := p.pv 0x10 4, refitWait := false, opn := true, fitN := 0, fitSum := 0 })))) s) e s)

-- ---------------------------------------------------------------- ambient (R325)

/-- The ambient in °C × 64 of a channel's table, none where the named source gives no good value. -/
def State.ambient (s : State) (p : Mdl) : Option Int :=
  let src := p.pv 0x2C 2
  let good (t : Int) : Option Int := if decide (-2560 ≤ t) && decide (t ≤ 9600) then some t else none
  if src / 512 % 2 = 0 then good s.amb.temp.toInt
  else
    let n := src % 512
    let t := sx 24 (s.regField (snsReg n 0x14) 0 24)
    if n < 256 ∧ (s.snsMode n = 3 ∨ s.snsMode n = 4) ∧ t ≤ 9600 * 256 then good (floorDiv t 256) else none

-- ---------------------------------------------------------------- the law of std-model (R323 to R335)

/-- A little-endian field of a run record, and of the bank active at the run's latch. -/
def Mdl.rv (x : Mdl) (off n : Nat) : Nat := leVal ((x.rec_.drop off).take n)
def State.bv (s : State) (ch off n : Nat) : Nat :=
  let c := s.chan ch
  s.wsVal ch (c.bankAt c.mdl.latBank + off) n

/-- What the bank active at the run's latch was built from. -/
def State.bsrc (s : State) (ch : Nat) : BankSrc := let x := (s.chan ch).mdl; x.src x.latBank

/-- RES(T) times 2 ^ 46, for T in 2⁻¹⁶ °C (R324). -/
def State.resAt (s : State) (ch : Nat) (t : Int) : Int :=
  gainVal (s.bv ch 0x18 4) * (2 ^ 31 + gainVal (s.bv ch 0x1C 4) * (t - 20 * 65536))

/-- An event of a channel's model whose condition lasts. -/
def mdlCond (ch bit cls : Nat) (isOver : Bool) (s : State) : State :=
  limitEvt (mdlEvt (s.chan ch).adm.first) (mkRep (srcModel (s.chan ch).flock) 1 bit cls 1 ch) isOver s

/-- The thermal factor in Q1.15 (R328). -/
def thermalFactor (tlim tband tc : Int) : Int :=
  let t := tlim * 1024
  let b := tband * 1024
  if tc ≤ t - b then 32767 else if t ≤ tc then 0 else min 32767 (roundDiv ((t - tc) * 32768) b)

/-- The RMS factor in Q1.15 (R328). -/
def rmsFactor (ilim2 msa : Nat) : Int := if msa ≤ ilim2 then 32767 else min 32767 (roundDiv (ilim2 * 32768 : Nat) msa)

/-- TLIM, TBAND in °C × 64 and ILIM² of the bank in use. -/
def State.bTlim (s : State) (ch : Nat) : Int := sx 16 (s.bv ch 0x20 2)
def State.bTband (s : State) (ch : Nat) : Int := s.bv ch 0x22 2
def State.bIlim2 (s : State) (ch : Nat) : Nat := s.bv ch 0x24 4

/-- The measured position in Q1.15 of 2 XLIM, where the table gives one (R329, R330). -/
def State.measuredPos (s : State) (ch : Nat) : Option Int :=
  let b := s.bsrc ch
  let fs := b.pv 0x60 4
  if (s.chan ch).adm.motion = 0 ∨ fs = 0 ∨ b.xlim = 0 then none
  else some (sat16 (roundDiv ((s.chan ch).mdl.latch.pos.toInt * fs) (512 * b.xlim))).1

/-- Start of the state in a run with FIRST (R329). -/
def State.lawFirst (s : State) (ch : Nat) (m : MState) : MState :=
  let x := (s.chan ch).mdl
  let t := sx 16 (x.rv 0x0A 2) * 1024 + roundDiv ((s.bsrc ch).pv 0x34 2 * 65536 : Nat) 10
  let tlim := s.bTlim ch
  let tband := s.bTband ch
  { m with tc := t, tb := t, msa := 0, g := (thermalFactor tlim tband t).toNat, x := (s.measuredPos ch).getD 0, v := 0, overN := 0
           warn := decide ((tlim - tband) * 1024 < t) }

/-- Step 6: the estimate advances one motion period and is corrected by the measured position (R330); and the count of R333. -/
def State.lawMotion (s : State) (ch : Nat) (m : MState) : MState :=
  let c := s.chan ch
  if c.adm.motion = 0 then m
  else
    let b := s.bsrc ch
    let i : Int := ((c.mdl.latch.cur.getD 0 0) : BitVec 16).toInt
    let (x1, v1) := motionStep b m.x m.v i
    let x1 := match s.measuredPos ch with
      | some p => (sat16 (x1 + rshift (sx 16 (b.pv 0x64 2) * (p - x1)) 15)).1
      | none => x1
    let out := decide (16384 < absI x1) || decide (16384 < absI v1)
    { m with x := x1, v := v1, overN := if out then min 2 (m.overN + 1) else 0 }

/-- EXC_OVER (R333): out of bounds in two runs in a row, or at STOP. -/
def State.excOver (s : State) (ch : Nat) (m : MState) : Bool :=
  let b := s.bsrc ch
  (s.chan ch).adm.motion != 0 && (m.overN == 2 || decide ((b.pv 0x54 4 : Int) * 32768 ≤ absI m.x * (2 * b.xlim : Nat)))

/-- The thermal step (R323). -/
def State.lawNodes (s : State) (ch : Nat) (m : MState) : MState :=
  let x := (s.chan ch).mdl
  let ta : Int := sx 16 (x.rv 0x0A 2) * 1024
  let msi : Int := x.rv 0x0C 4
  let k (i : Nat) : Int := gainVal (s.bv ch (8 + 4 * i) 4)
  let flow := m.tc - m.tb
  { m with tc := m.tc + rshift (k 0 * msi * s.resAt ch m.tc - k 1 * flow * 2 ^ 46) 61
           tb := m.tb + rshift (k 2 * flow - k 3 * (m.tb - ta)) 15 }

/-- A thermal run fits the resistance (R326): not of a triple channel, and from IFIT_MIN on. -/
def State.fits (s : State) (ch : Nat) : Bool :=
  let c := s.chan ch
  let msi := c.mdl.rv 0x0C 4
  c.adm.kind != 3 && decide (s.bv ch 0x2C 4 ≤ msi) && msi != 0

/-- The fit RE in µΩ (R326). -/
def Mdl.fitRe (x : Mdl) : Int := roundDiv (sx 32 (x.rv 0x10 4) * 1000000) (x.rv 0x0C 4)

/-- The coil node after the correction by the fit (R326). Where RES20 or ALPHA rounds to a gain word of 0, TR is a free value. -/
def State.lawCorrect (s : State) (ch : Nat) (m : MState) : MState :=
  let x := (s.chan ch).mdl
  let b := s.bsrc ch
  let rg := gainVal (s.bv ch 0x18 4)
  let ag := gainVal (s.bv ch 0x1C 4)
  let kr := sx 16 (b.pv 0x2E 2)
  let msi : Int := x.rv 0x0C 4
  if !s.fits ch || b.pv 0x14 2 == 0 then m
  else if rg = 0 ∨ ag = 0 then { m with tc := m.tc + rshift (kr * ((Config.freeBits 32 s.free).toInt - m.tc)) 15 }
  else
    let tr : Int := 20 * 65536 + roundDiv ((sx 32 (x.rv 0x10 4) * 32768 - msi * rg) * 32768 * 65536) (msi * rg * ag)
    { m with tc := m.tc + rshift (kr * (tr - m.tc)) 15 }

/-- The re-fit test after the correction (R327, R336 step 9), and RES_FIT. -/
def lawRefit (ch : Nat) (m : MState) (s : State) : State :=
  let x := (s.chan ch).mdl
  if !s.fits ch then s.updMdl ch (fun x => { x with fitN := 0, fitSum := 0 })
  else
    let ta : Int := sx 16 (x.rv 0x0A 2) * 1024
    let msi : Int := x.rv 0x0C 4
    let re := x.fitRe
    let rta := s.resAt ch ta
    -- |RE − RES(Ta)| > tol / 1,000 × RES(Ta), with RE = MVI / MSI
    let far := decide (msi * rta * s.bv ch 0x30 2 < 1000 * absI (sx 32 (x.rv 0x10 4) * 2 ^ 46 - msi * rta))
    let near := decide (absI (m.tb - ta) ≤ 65536) && decide (absI (m.tc - ta) ≤ 131072)
    let d : Int := 2147483648 + gainVal (s.bv ch 0x1C 4) * (ta - 20 * 65536)
    let one := if d ≤ 0 then re.toNat else (roundDiv (re * 2147483648) d).toNat
    (s.setReg (mdlReg (s.chan ch).adm.first 0x14) (BitVec.ofInt 32 re)).updMdl ch (fun x =>
      if near && far then { x with fitN := min 64 (x.fitN + 1), fitSum := if x.fitN < 64 then x.fitSum + one else x.fitSum }
      else { x with fitN := 0, fitSum := 0 })

/-- MSA and the factors (R328). -/
def State.lawFactors (s : State) (ch : Nat) (m : MState) : MState :=
  let msi : Int := (s.chan ch).mdl.rv 0x0C 4
  let msa := (max 0 ((m.msa : Int) + roundDiv (msi - m.msa) 1024)).toNat
  let tlim := s.bTlim ch
  let tband := s.bTband ch
  { m with msa, g := (min (thermalFactor tlim tband m.tc) (rmsFactor (s.bIlim2 ch) msa)).toNat
           warn := decide ((tlim - tband) * 1024 < m.tc) }

/-- The state after steps 5, 6 and 9 of a run (R336). -/
def State.lawState (s : State) (ch : Nat) : MState :=
  let fl := (s.chan ch).mdl.rv 2 2
  let m := s.mst ch
  let m := s.lawMotion ch (if fl / 4 % 2 = 1 then s.lawFirst ch m else m)
  if fl % 2 = 1 then s.lawFactors ch (s.lawCorrect ch (s.lawNodes ch m)) else m

/-- The events of a run (R328, R333); those of a thermal run come of it alone. -/
def lawEvents (ch : Nat) (was m : MState) (s : State) : State :=
  let s := if (s.chan ch).adm.motion = 0 then s else mdlCond ch 3 2 (s.excOver ch m) s
  if (s.chan ch).mdl.rv 2 2 % 2 = 1 then
    let s := lawRefit ch m s
    let s := if m.warn && !was.warn then mdlEvent ch 0 1 s else s
    mdlCond ch 1 2 (decide (s.bTlim ch * 1024 ≤ m.tc)) (mdlCond ch 2 2 (decide (25 * s.bIlim2 ch < 16 * m.msa)) s)
  else s

/-- The bounds of the rows of R332 from a byte offset of the bank, `n` rows of 16 bytes. -/
def State.rowBounds (s : State) (ch off n : Nat) (m : MState) (i cmd : Int) : Int × Int :=
  (List.range n).foldl (fun (p : Int × Int) k =>
    let r (o w : Nat) : Int := sx (8 * w) (s.bv ch (off + 16 * k + o) w)
    let up := r 0 4 - 2 * (r 8 2 * m.x + r 10 2 * m.v + r 12 2 * i + r 14 2 * cmd)
    let lo := up - r 4 4
    (min p.1 (sat16 (rshift up 12)).1, max p.2 (sat16 (rshift lo 12)).1)) (32767, -32768)

/-- UM and LM of a run (R332): over the 64 rows, or the 16 of a cover run (R343). -/
def State.lawBounds (s : State) (ch : Nat) (cover : Bool) (m : MState) : Int × Int :=
  let x := (s.chan ch).mdl
  let i : Int := ((x.latch.cur.getD 0 0) : BitVec 16).toInt
  let cmd := sx 16 (x.rv 4 2)
  if (s.chan ch).adm.motion = 0 then (32767, -32768)
  else if cover then s.rowBounds ch 0x480 16 m i cmd else s.rowBounds ch 0x80 64 m i cmd

/-- The clamps of R334 and R335, and whether the run is infeasible. -/
def lawClamp (um lm : Int) (m : MState) (sc : Int) : Int × Int × Bool :=
  let g : Int := m.g
  if um < lm then
    let brake := rshift (sc * (if decide (0 < m.v) || (decide (m.v = 0) && decide (0 < m.x)) then -g else g)) 15
    (brake, brake, true)
  else ((sat16 (rshift (sc * min um g) 15)).1, (sat16 (rshift (sc * max lm (-g)) 15)).1, false)

/-- Steps 1 to 10 of a run of std-model or std-cover for a channel (R336, R343): events, the state that step 12 will store, INFEAS.
Answers the clamp. -/
def modelLaw (e ch : Nat) (cover : Bool) (s : State) : (Int × Int) × State :=
  let was := if (s.chan ch).mdl.rv 2 2 / 4 % 2 = 1 then s.lawFirst ch (s.mst ch) else s.mst ch
  let m := s.lawState ch
  let b := s.lawBounds ch cover m
  let x := (s.chan ch).mdl
  let y := lawClamp b.1 b.2 m (busScale (x.rv 8 2) (x.rv 6 2))
  let s := (lawEvents ch was m s).draw.2
  let s := s.updMdl ch (fun x => { x with infeas := y.2.2 })
  let s := if y.2.2 then mdlEvent ch 10 0 (s.bump (mdlReg (s.chan ch).adm.first 0x20)) else s
  ((y.1, y.2.1), s.setRun e { s.run e with mst := some m })

-- ---------------------------------------------------------------- the passive monitor (R370)

/-- ω of a frequency in 0.1 Hz, times 10 ^ 9. -/
def omegaE9 (f : Nat) : Nat := (f * 2 * 3141592653589793238 + 5000000000) / 10000000000

/-- The motional impedance Zm in µΩ at a frequency in 0.1 Hz (R362), real and imaginary part to nearest; none where it has no
value. Units of the table by layout (R337). -/
def motional (p : Mdl) (layout f : Nat) : Option (Int × Int) :=
  if layout = 0 then some (0, 0)
  else
    -- FORCE, DAMP, STIFF and INERT in units of 10 ^ -6, 10 ^ -9, 10 ^ -6 and 10 ^ -10
    let k := if layout = 1 then 1000 else 1
    let fo : Int := p.pv 0x4C 4 * k
    let da : Int := p.pv 0x48 4 * (if layout = 1 then 1000000 else 1)
    let st : Int := p.pv 0x44 4 * k
    let ine : Int := p.pv 0x40 4 * (if layout = 1 then 10000 else 1)
    let w : Int := omegaE9 f
    -- X = ωI − S / ω and D, each times w × 10 ^ 19
    let x : Int := ine * w * w - st * 10 ^ 22
    let dd : Int := da * w * 10 ^ 10
    let den := x * x + dd * dd
    if den = 0 then none
    else
      let g : Int := fo * fo * w * 10 ^ 13
      some (roundDiv (g * dd) den, roundDiv (-(g * x)) den)

/-- Z of a tone in 10 ^ -`digits` Ω to nearest, from its sums (R362): voltage steps of 1.5625 mV over current steps of 0.78125 mA; none without a
current. -/
def Corr.z (x : Corr) (digits : Nat) : Option (Int × Int) :=
  let den := x.is_ * x.is_ + x.ic * x.ic
  if den = 0 then Option.none
  else some (roundDiv (2 * 10 ^ digits * (x.vc * x.ic + x.vs * x.is_)) den.toNat, roundDiv (2 * 10 ^ digits * (x.vc * x.is_ - x.vs * x.ic)) den.toNat)

/-- The current amplitude of a tone in µA, and its voltage amplitude in µV. -/
def Corr.iamp (x : Corr) : Nat := if x.n = 0 then 0 else rootNear ((x.is_ * x.is_ + x.ic * x.ic).toNat * 4 * 6103515625) (10000 * x.n * x.n * 2 ^ 120)
def Corr.vamp (x : Corr) : Nat := if x.n = 0 then 0 else rootNear ((x.vs * x.vs + x.vc * x.vc).toNat * 4 * 244140625) (100 * x.n * x.n * 2 ^ 120)

def Corr.plus (x y : Corr) : Corr := { n := x.n + y.n, vs := x.vs + y.vs, vc := x.vc + y.vc, is_ := x.is_ + y.is_, ic := x.ic + y.ic }

/-- A root mean square in µA of n squares in steps of 0.78125 mA. -/
def rmsUa (sq n : Nat) : Nat := if n = 0 then 0 else min 0xFFFFFFFF (rootNear (sq * 6103515625) (10000 * n))

/-- RES(Tc) in µΩ to nearest (R324). -/
def State.resTc (s : State) (ch : Nat) : Int := roundDiv (s.resAt ch (s.mst ch).tc * 1000000) (2 ^ 46 : Nat)

/-- Zexp in µΩ at a frequency in 0.1 Hz, from RES(Tc) and a parameter table (R362); `free` stands where Zm has no value. -/
def expected (res : Int) (p : Mdl) (layout f : Nat) (free : Int × Int) : Int × Int :=
  let z := (motional p layout f).getD free
  (res + z.1, roundDiv ((omegaE9 f : Int) * p.pv 0x50 4) (10 ^ 9) + z.2)

/-- Two free values of 32 bits. -/
def State.freePair (s : State) : Int × Int := ((Config.freeBits 32 s.free).toInt, (Config.freeBits 32 (s.free + 1)).toInt)

/-- MSI and MVI of the thermal period that ends, in 2 ^ -16 A² and 2 ^ -16 W (R322); a period without a sample keeps those of the last. -/
def Mdl.msi (x : Mdl) (a : CoilAcc) : Nat := if a.n = 0 then x.rv 0x0C 4 else (roundDiv a.i2 (25 * a.n)).toNat
def Mdl.mvi (x : Mdl) (a : CoilAcc) : Int := if a.n = 0 then sx 32 (x.rv 0x10 4) else roundDiv (2 * a.vi) (25 * a.n)

/-- A thermal period of FW tracking ends: with at least 20 mA at FW it enters the window, and a window of 64 gives PM_Z and is judged (R370). -/
def fwWindow (ch : Nat) (s : State) : State :=
  let c := s.chan ch
  let x := c.mon
  let a := c.adm.first
  if x.acc.fw.iamp < 20000 then s
  else
    let w := x.win.plus x.acc.fw
    if x.winN + 1 < 64 then s.updChan ch (fun c => { c with mon := { c.mon with win := w, winN := c.mon.winN + 1 } })
    else
      let z := (w.z 6).getD s.freePair
      let y := expected (s.resTc ch) c.mdl c.adm.motion (10 * s.regField (pmReg a 0) 0 16) s.freePair
      let dr := z.1 - y.1
      let di := z.2 - y.2
      let tol : Int := s.regField (pmReg a 4) 0 8
      let n := if tol * tol * (y.1 * y.1 + y.2 * y.2) < 10000 * (dr * dr + di * di) then min 8 (x.drift + 1) else 0
      let mo (v : Int) : BitVec 16 := BitVec.ofInt 16 (sat16 (roundDiv v 1000)).1
      let s := (s.setReg (pmReg a 8) (mo z.1 ++ mo z.2)).updChan ch (fun c => { c with mon := { c.mon with win := Corr.none, winN := 0, drift := n } })
      (if n = 0 then limitEvt (pmEvt a) (mkRep (srcFlock c.flock) 4 3 1 1 ch) false s else s).draw.2.draw.2

/-- The monitor of a channel at the end of a thermal period (R370). -/
def monitor (ch : Nat) (s : State) : State :=
  let c := s.chan ch
  let x := c.mon.acc
  if !c.armed then s
  else
    let a := c.adm.first
    let msi := c.mdl.msi x
    let coil := c.adm.kind != 3
    let openC := coil && decide (0 < x.n ∧ 0 < x.cmdN ∧ 1638 * x.cmdN ≤ x.cmdSum) && decide (msi * 10000 < 65536)
    let short := coil && decide (s.bv ch 0x2C 4 ≤ msi) && decide (0 < msi) &&
      decide (2 * c.mdl.mvi x * 2 ^ 46 < (msi : Int) * s.resAt ch (s.mst ch).tc)
    let lim := s.regField (pmReg a 4) 16 16 * 1000
    let leak := c.adm.kind != 1 && decide (lim * lim * (10000 * x.n) < x.leak2 * 6103515625)
    let s := s.setReg (pmReg a 0x0C) (BitVec.ofNat 32 (if c.adm.kind = 1 then 0 else rmsUa x.leak2 x.n))
    let ev (bit : Nat) (isOver : Bool) (s : State) : State := limitEvt (pmEvt a) (mkRep (srcFlock c.flock) 4 bit 2 1 ch) isOver s
    let s := ev 0 openC (ev 1 short (ev 2 leak s))
    if coil && s.regField (pmReg a 0) 0 16 != 0 then fwWindow ch s else s

/-- PM_CFG_WRITE: PM_CFG and PM_LIM by `reg`, from the next thermal period (R370). -/
def execPmCfgWrite (t : Fin 512) (reg : Fin 2) (v : W) (s : State) : Res :=
  match s.ownerOf t.val with
  | none => .next s
  | some ch =>
    if (s.chan ch).adm.first != t.val then .next s
    else
      let v := v &&& (if reg.val = 0 then 0xFFFF else 0xFFFF00FF)
      .next (s.updChan ch (fun c => { c with mon := { c.mon with pend := tset none c.mon.pend (4 * reg.val) (some v) } }))

/-- IMP_DRIFT: eight windows in a row deviate from Zexp by more than PM_TOL (R370). -/
def execImpDrift (ch : Fin 512) (s : State) : Res :=
  let c := s.chan ch.val
  if c.armed && c.mon.drift == 8 then .next (limitEvt (pmEvt c.adm.first) (mkRep (srcFlock c.flock) 4 3 1 1 ch.val) true s) else .next s

-- ---------------------------------------------------------------- the motion latch (R316, R322)

/-- The sense items of a channel: position, second value, leg currents and voltages (R218). -/
def State.senseItems (s : State) (ch : Nat) (x : Latch) : Latch :=
  let c := s.chan ch
  let v (o : Nat) : BitVec 24 := if c.adm.sense then BitVec.ofNat 24 (s.regField (snsReg c.adm.sns o) 0 24) else 0
  { x with pos := v 0x14, sec := v 0x18, cur := c.terms.map s.curOf, volt := c.terms.map s.voltOf
           vbus := BitVec.ofNat 16 (s.vbus c.foldIx), vnom := BitVec.ofNat 16 (s.vnom c.foldIx) }

/-- Injection point in effect, `pt` what an injection object gave with the word (R218): of an injection object, or of a stream-bound
input (R241). -/
def State.injPoint (s : State) (ch pt : Nat) : Nat :=
  match s.injOf ch with
  | some _ => pt
  | none => if s.liveBinds.any (fun i => (s.bind i).chan == ch && (s.bind i).input == 2) then (s.chan ch).loop.injPt else 0

/-- The latch flags of a bank (R218). `fresh` is the FRESH bits after the checks of the latch. -/
def State.latchFlags (s : State) (ch : Nat) (b : Bank) (fresh : Nat) (held first : Bool) : BitVec 16 :=
  let c := s.chan ch
  BitVec.ofNat 16 (b.ev % 16 * 4096 + s.injPoint ch b.pt * 256 + b2n first * 128 + c.clp / 2 % 2 * 32 + c.clp % 2 * 16 + b2n held * 8 + fresh)

/-- The bank that a latch at loop boundary l of the present frame reads (R25, R137). -/
def State.bankAtLatch (s : State) (ch l : Nat) : Bank :=
  let j := s.bell.frame.toNat + (if l = 0 then 1 else 0)
  if j % 2 = 0 then (s.chan ch).inp.bank0 else (s.chan ch).inp.bank1

/-- The run record (R322). -/
def State.runRecord (s : State) (ch : Nat) (therm cover : Bool) (amb : Int) (msi : Nat) (mvi : Int) : List (BitVec 8) :=
  let c := s.chan ch
  let fl := b2n therm + 2 * b2n c.armed + 4 * b2n c.mdl.first + 8 * c.adm.motion + 32 * b2n cover
  leBytes 2 (posOf c.adm.first) ++ leBytes 2 fl ++ leBytes 2 (ux 16 c.applied) ++ leBytes 2 (s.vbus c.foldIx) ++
    leBytes 2 (s.vnom c.foldIx) ++ leBytes 2 (ux 16 amb) ++ leBytes 4 msi ++
    leBytes 4 (if c.adm.kind = 3 then 0 else ux 32 mvi) ++ leBytes 4 (s.wsVal ch (c.bankAt c.mdl.bank) 4) ++ leBytes 40 0

/-- The SIN items and latch flags that a motion period's model run reads, taken at its loop boundary (R316). It names no ESH: an ERR that
a model run records nothing of uses 0 (the model's choice, log 166). -/
def motionItems (ch l : Nat) (s : State) : State :=
  let c := s.chan ch
  let b := s.bankAtLatch ch l
  let lat := { s.senseItems ch Latch.none with flags := s.latchFlags ch b b.fresh (!c.loop.delivered) c.loop.first }
  s.updMdl ch (fun y => { y with latch := lat })

/-- What one channel's model latches beside `motionItems`; in a thermal period its ambient is renewed (R316, R325). -/
def motionChan (ch : Nat) (therm cover : Bool) (s : State) : State :=
  let c := s.chan ch
  let a := s.ambient c.mdl
  let lim := tenths (c.mdl.pv 0x2A 2)
  let fresh := therm || c.mdl.first
  let amb := if fresh then a.getD lim else sx 16 (c.mdl.rv 0x0A 2)
  let s := if fresh && a.isNone && !c.mdl.ambFb then mdlEvent ch 7 1 s else s
  let acc := if therm then c.mon.acc else CoilAcc.none
  let rec_ := s.runRecord ch therm cover amb (c.mdl.msi acc) (c.mdl.mvi acc)
  s.updMdl ch (fun y =>
    { y with rec_, latBank := y.bank, ran := false, ambFb := if fresh then a.isNone else y.ambFb
             without := if y.got then 0 else min 2 (y.without + 1), got := false })

/-- The monitor's writes that wait take effect at a thermal period; a new FW begins a new window. -/
def applyMon (ch : Nat) (s : State) : State :=
  let c := s.chan ch
  let s := if (tget none c.mon.pend 0).isSome then s.updChan ch (fun c => { c with mon := { c.mon with win := Corr.none, winN := 0 } }) else s
  let s := forL c.mon.pend (fun e s => match e.2 with | some v => s.setReg (pmReg c.adm.first e.1) v | none => s) s
  s.updChan ch (fun c => { c with mon := { c.mon with pend := [] } })

/-- MOTION_LATCH: a motion period of flock f begins at loop boundary l of the present frame, after the LOOP_LATCH of that boundary
(R315, R316, log 152). Where it begins a thermal period, what the sense hardware formed over the last one is judged and latched, and formed
afresh. -/
def execMotionLatch (f : Fin 32) (l : Fin 8) (s : State) : Res :=
  let i := s.loopIndex l.val
  if i % s.nM != 0 then .next s
  else
    let therm := i / s.nM % 48 == 0
    let cover := (s.meng f.val).covered
    let s := s.updMEng f.val (fun x => { x with therm, stopped := false, latchAt := i })
    let all := (s.chansOfFlock f.val).filter (fun ch => (s.chan ch).live)
    let s := if therm then each all (fun ch s => applyMon ch (monitor ch s)) s else s
    let s := each (s.validOf f.val) (motionChan · therm cover) s
    .next (if therm then each all (fun ch s => s.updChan ch (fun c => { c with mon := { c.mon with acc := CoilAcc.none } })) s else s)

/-- The cc from the latch at which a channel's model run starts: own runs first, then cover runs (R317). -/
def State.mdlStart (s : State) (e ch : Nat) : Nat :=
  let w := ((s.mdlImage e).map (·.wcc)).getD 0
  let own := s.validOf e
  let cov := s.validOf (e ^^^ 1)
  if own.contains ch then 64 + (own.takeWhile (fun i => i != ch)).length * (24 + w)
  else 64 + own.length * (24 + w) + (cov.takeWhile (fun i => i != ch)).length * 486

/-- A run is of one of Dwentora's images, whose acts the model makes (log 33). -/
def State.stdRun (s : State) (r : Run) : Bool := r.cover || (s.image r.img).std != 0

/-- The runs of a motion period on an engine, in their order: own ones, then cover runs of what was latched for them, each in ascending position (R317,
R343). -/
def State.runList (s : State) (e : Nat) : List Nat :=
  (if (s.meng e).covered then [] else s.validOf e) ++
    (if (s.meng e).covering && (s.meng (e ^^^ 1)).covered then (s.validOf (e ^^^ 1)).filter (fun ch => fieldN ((s.chan ch).mdl.rv 2 2) 5 1 == 1) else [])

/-- MODEL_RUN_START: after its change, a model run of flock e's engine starts for a channel: its own, or one of the
flock it covers (R317, R343); each channel's turn comes once in a motion period, in the order of `State.runList`. A run whose record has FIRST is
the first (R322). -/
def execModelRunStart (e : Fin 32) (ch : Fin 512) (s : State) : Res :=
  let c := s.chan ch.val
  let n := 128 + e.val
  let cover := c.flock == (e.val ^^^ 1) && (s.meng e.val).covering && (s.meng c.flock).covered
  let own := c.flock == e.val && !(s.meng e.val).covered
  if !c.live || !c.mdl.valid || (s.hlt n).hstate != 0 || (s.hlt n).st = 3 || !(own && (s.meng e.val).img.isSome || cover) ||
      (s.run n).live || (s.runList e.val).find? (fun i => !(s.chan i).mdl.ran) != some ch.val then .next s
  else .next ((s.updMdl ch.val (fun x => { x with ran := true, first := x.first && fieldN (x.rv 2 2) 2 1 == 0 })).setRun n { Run.none with
    live := true, ch := ch.val, model := true, cover, bank := c.mdl.latBank, rec_ := c.mdl.rec_
    img := (s.meng e.val).img.getD 0, start := s.mdlStart e.val ch.val })

/-- The summary handed to the fold supervisor (R277). -/
def Run.summary (r : Run) (ended : Bool) : RunSum :=
  { ended, sig := r.sig, lse := r.lse, out := r.out, hld := r.hld, bounds := r.bounds, evid := r.evid }

/-- The run is over and its engine stands between runs: the registers of a run are 0 at the next start (R250). -/
def endRun (e : Nat) (s : State) : State := s.setRun e Run.none

/-- CLAMP_HOLD_NARROW: a channel without a clamp in two consecutive motion periods (R320). -/
def execClampHoldNarrow (ch : Fin 512) (s : State) : Res :=
  let c := s.chan ch.val
  if c.live && c.mdl.valid && decide (2 ≤ c.mdl.without) then .next (narrowClamp ch.val s) else .next s

/-- MODEL_ENGINE_HEALTH_FAIL: three consecutive motion periods with a stopped run (R320, R424). -/
def execModelEngineHealthFail (e : Fin 32) (s : State) : Res :=
  if (s.meng e.val).late = 3 then .next (declareFailed e.val 2 (s.updMEng e.val (fun x => { x with late := 0 }))) else .next s

/-- COVER_END: at loop boundary l of the present frame, which opens a thermal period and is not yet latched for it, a model engine that
passed its test resumes its own runs (R344); one with no image loaded stays halted (R35). -/
def execCoverEnd (e : Fin 32) (l : Fin 8) (s : State) : Res :=
  let n := 128 + e.val
  let i := s.loopIndex l.val
  if (s.hlt n).hstate != 3 || i % (48 * s.nM) != 0 || (s.meng e.val).latchAt == i then .next s
  else
    let s := s.updHlt n (fun h => { h with hstate := 0, st := if (s.meng e.val).img.isSome then 1 else 0 })
    if (s.meng e.val).covered then
      let g := e.val ^^^ 1
      let s := (s.updMEng e.val (fun x => { x with covered := false })).updMEng g (fun x => { x with covering := false })
      .next (meEvent g 4 0 s)
    else .next s

/-- RES_REFIT: 64 qualifying thermal runs in a row; RES20 is re-fitted, or suspect where it would move by more than 10 %
(R327). -/
def execResRefit (ch : Fin 512) (s : State) : Res :=
  let c := s.chan ch.val
  let x := c.mdl
  if !c.live || x.fitN < 64 then .next s
  else
    let v := (roundDiv x.fitSum 64).toNat
    let tab := x.pv 0x10 4
    let s := s.updMdl ch.val (fun x => { x with fitN := 0, fitSum := 0 })
    if tab < 10 * absI ((v : Int) - tab) then .next (mdlEvent ch.val 6 1 s)
    else
      let s := mdlEvent ch.val 5 0 (s.bump (mdlReg c.adm.first 0x24))
      let s := s.updMdl ch.val (fun x => { x with resN := v })
      if x.swapPend then .next (s.updMdl ch.val (fun x => { x with refitWait := true })) else .next (startBuild ch.val s)

end Sys2Proof.Machine
end

