-- ==== Sys2Proof/Machine/Signals.lean ====
section
/-! DEFINITION. The signals of a channel that captures record and output slots send (08 R244, 03 R101, 11 R346), and what an output
slot takes at a boundary. -/

namespace Sys2Proof.Machine

open Sys2Proof

/-- TCOIL: Tc in °C × 64 (R345). -/
def State.tcoil (s : State) (ch : Nat) : BitVec 16 := BitVec.ofInt 16 (sat16 (rshift (s.mst ch).tc 10)).1

/-- EXC: x̂ as a fraction of XLIM, saturated (R345). -/
def State.exc (s : State) (ch : Nat) : BitVec 16 := BitVec.ofInt 16 (sat16 (2 * (s.mst ch).x)).1

/-- The latch set of the active instance. -/
def Chan.latch (c : Chan) : Latch := if c.lease.holder.getD false then c.loop.latB else c.loop.latA

/-- A 16-bit signal in a 24-bit sample (R146). -/
def left16 (x : BitVec 16) : BitVec 24 := x ++ (0 : BitVec 8)

/-- A signal of R244 as a 24-bit sample; `tc` and `exc` are the model values it takes. A reserved code has no value. -/
def Chan.signal (c : Chan) (code : Nat) (tc exc : BitVec 16) : Option (BitVec 24) :=
  let l := c.latch
  match code with
  | 0 => some l.sp
  | 1 => some l.pos
  | 2 => some (left16 (l.cur.getD 0 0))
  | 3 => some (left16 (l.cur.getD 1 0))
  | 4 => some (left16 (BitVec.ofInt 16 c.applied))
  | 5 => some (left16 (BitVec.ofNat 16 c.loop.lastE))
  | 6 => some (left16 tc)
  | 7 => some (left16 exc)
  | 8 => some l.inj
  | 9 => some (left16 c.loop.capVal)
  | 10 => some (left16 (l.volt.getD 0 0))
  | 11 => some (left16 l.vbus)
  | _ => none

/-- An output slot with SRC 1 (R101). A reserved SIGNAL gives a free value. -/
def State.signalSlot (s : State) (v : W) : OSlot :=
  let ch := fld v 16 12
  let c := s.chan ch
  let code := fld v 8 4
  if !c.live || ch ≥ 512 then { sample := 0, invalid := true, units := 9, exp := 0, model := none }
  else { sample := if code < 8 then (c.signal code (s.tcoil ch) (s.exc ch)).getD 0 else Config.freeBits 24 s.free
         invalid := false, units := 9, exp := 0
         model := if code = 6 ∨ code = 7 then some (ch, code == 7, s.loopIndex 0) else none }

/-- The value of a slot's source (R101); a reserved SRC is sent as 0. The echo of a port in standard mode, whose status has no UNITS and
no EXP, is sent with both 0 (the model's choice, log 163). -/
def State.outSlot (s : State) (v : W) : OSlot :=
  match fld v 28 4 with
  | 1 => s.signalSlot v
  | 2 =>
    let n := fld v 16 12 / 32
    let sl := fld v 16 12 % 32
    let p := s.port n
    let cs := tget 0 p.cs sl
    let wide := s.spWide n
    let units := if wide then statusByte cs 3 else 0
    let exp := if wide then statusByte cs 4 else 0
    match (tget SlotSt.none p.slots sl).relNow with
    | some q => { sample := q.sample, invalid := !q.valid, units, exp, model := none }
    | none => { sample := 0, invalid := true, units, exp, model := none }
  | 3 => { sample := BitVec.ofNat 24 s.statusWord, invalid := false, units := 0, exp := 0, model := none }
  | _ => { sample := 0, invalid := false, units := 0, exp := 0, model := none }

/-- Slots an output port sends (R107). -/
def State.soN (s : State) (n : Nat) : Nat :=
  if bitOf (s.reg (soCtrl n)) 1 then 4 * 2 ^ s.regField (soCtrl n) 8 2 else 2

/-- At B(j) a slot written since takes effect and every slot is latched; the latch before it is due (R99, R107). -/
def latchOut (n : Nat) (s : State) : State :=
  let o := s.out n
  let s := forL o.slotPend (fun e s => match e.2 with | some v => s.setReg (soSlot n e.1) v | none => s) s
  let l := (List.range 32).map (fun i => s.outSlot (s.reg (soSlot n i)))
  s.setOut n { o with slotPend := [], latched := l, due := o.latched }

/-- At the loop boundary that is B(j) the signals of a flock's channels are those latched there (R99). -/
def latchSignals (f : Nat) (s : State) : State :=
  each (List.range 4) (fun n s =>
    let o := s.out n
    let l := o.latched.zipIdx.map (fun x =>
      let v := s.reg (soSlot n x.2)
      if fld v 28 4 = 1 ∧ (s.chan (fld v 16 12)).live ∧ (s.chan (fld v 16 12)).flock = f then s.signalSlot v else x.1)
    s.setOut n { o with latched := l }) s.draw.2

/-- A model run of a channel is over: what was taken at boundaries at or after its latch, in latch sets and in slots not yet sent, has its
values (R346). -/
def lateSignals (ch : Nat) (s : State) : State :=
  let k := (s.meng (s.chan ch).flock).latchAt
  let tc := s.tcoil ch
  let exc := s.exc ch
  let lat (x : Latch) : Latch := if k ≤ x.idx then { x with tc, exc } else x
  let slot (x : OSlot) : OSlot :=
    match x.model with
    | some (c, e, i) => if c = ch ∧ k ≤ i then { x with sample := left16 (if e then exc else tc) } else x
    | none => x
  each (List.range 4) (fun n s => s.setOut n { s.out n with latched := (s.out n).latched.map slot, due := (s.out n).due.map slot })
    (s.updChan ch (fun c => { c with loop := { c.loop with latA := lat c.loop.latA, latB := lat c.loop.latB } }))

end Sys2Proof.Machine
end

