-- ==== Sys2Proof/Machine/Standard.lean ====
section
/-! DEFINITION. Dwentora's standard images: what a run of std-galvo, of the heater and focus-shifter images, of std-model and std-cover
does at each of its acts (08 R225 to R232, 11 R336, R343, 09 R551). -/

namespace Sys2Proof.Machine

open Sys2Proof

-- ---------------------------------------------------------------- recorded errors and clamps (R239, R261, R270)

/-- The recorded error of an active run: LAST_ERR, LAST.E16 and FE_COUNT, which stays 0 once the channel has left armed (R238, R239, R261). -/
def recordError (ch : Nat) (e32 : Int) (xd : BitVec 16) (s : State) : State :=
  let c := s.chan ch
  let a := c.adm.first
  let lim := s.regField (feLim a) 0 24
  let manual := !bitOf (BitVec.ofNat 32 (s.wsVal ch 24 4)) 0
  let n := if manual || !c.armed then 0 else if lim = 0 then c.loop.feCount
    else if decide ((lim : Int) < absI e32) then min 0xFFFF (c.loop.feCount + 1) else 0
  s.updChan ch (fun c => { c with loop := { c.loop with lastErr := BitVec.ofInt 32 e32, lastE := xd.toNat, feCount := n } })

/-- A clamp for the channel that CHN selected: in the queue, the last written (R27, R270); that of a deleted channel is
discarded (R342). -/
def writeClamp (e : Nat) (hi lo : Int) (s : State) : State :=
  match s.selChan e (s.run e) with
  | none => s
  | some ch =>
    if (s.chan ch).st == .deleting then s
    else s.updChan ch (fun c =>
      { c with clampQ := some (hi, lo), mdl := { c.mdl with got := true, without := 0, upper := hi, lower := lo } })

-- ---------------------------------------------------------------- the standard law (R225 to R231)

/-- A gain product of the standard images, with an SH above 8 as 8 (R223). -/
def gain (k : W) (x : Int) : Int := (gainProduct (sx 16 (fld k 0 16)) x (min 8 (fld k 16 4))).1

/-- An accumulator stored to 16 bits (R222). -/
def store16 (a : Int) : Int := (sat16 (rshift a 16)).1

/-- The sign of the saturation that CLPA to ± lim meets. -/
def clampSign (a lim : Int) : Int := if absI lim * 65536 < a then 1 else if a < -(absI lim * 65536) then -1 else 0

/-- An integrator does not advance (R226): against the sign of a saturation of the last run, or against a clamp flag. -/
def frozen (d sat : Int) (hi lo : Bool) : Bool :=
  (decide (0 < d) && (sat == 1 || hi)) || (decide (d < 0) && (sat == -1 || lo))

/-- A biquad in direct form I, coefficients in Q2.14: the output and its states after the run (R225). -/
def notch (k : Nat → Int) (st : List Int) (x : Int) : Int × List Int :=
  let g (i : Nat) : Int := st.getD i 0
  let y := (sat16 (rshift (2 * (mulQ (k 0) x + mulQ (k 1) (g 0) + mulQ (k 2) (g 1) - mulQ (k 3) (g 2) - mulQ (k 4) (g 3))) 16)).1
  (y, [x, g 0, y, g 2])

/-- The position stage of a run (R225 to R231): the recorded error, whether automatic, the stage output, and the states. -/
def pidLaw (l : Latch) (co : Nat → W) (st : LawState) : LawOut :=
  let fl (b : Nat) : Bool := l.flags.getLsbD b
  let first := fl 7
  let inj := l.inj.toInt.fdiv 256
  let pt := fieldN l.flags.toNat 8 2
  let am := co 6
  let auto := bitOf am 0
  let preset := bitOf am 1
  let ilim := sx 16 (fld (co 5) 16 16)
  let olim := sx 16 (fld (co 5) 0 16)
  let man := sx 16 (fld (co 7) 0 16)
  let fb := l.pos.toInt
  let (e32, e16, _) := errOf (if pt = 1 then (satTo 24 (l.sp.toInt + l.inj.toInt)).1 else l.sp.toInt) fb l.esh
  let e := if pt = 2 then (sat16 (e16 + inj)).1 else e16
  let x := if bitOf am 2 then -fb else e32
  let ipreset := (co 8).toInt
  let st := if first then { st with i := if auto && !preset then ipreset else 0, d := 0, xprev := x, ic := 0, n1 := [], n2 := [] } else st
  let p := gain (co 0) e
  let dI := gain (co 1) e
  let i1 := if !auto || frozen dI st.uSat (fl 5) (fl 4) then st.i else (clpaOf (sat40 (st.i + dI)).1 ilim).1
  let v := gain (co 2) (errOf x st.xprev l.esh).2.1
  let d1 := (sat32 (sat40 (st.d + mulQ (sx 16 (fld (co 3) 0 16)) (store16 (sat40 (v - st.d)).1))).1).1
  let a := gain (co 4) (l.ff.toInt.fdiv 256)
  let sum (i : Int) : Int :=
    let y := (sat40 ((sat40 ((sat40 (p + i)).1 + d1)).1 + a)).1
    if pt = 3 then (sat40 (y + inj * 65536)).1 else y
  let i2 := if auto && (st.manual || first) then (clpaOf (if preset then (sat40 (man * 65536 - (p + d1 + a))).1 else ipreset) ilim).1 else i1
  let u := if auto then store16 (clpaOf (sum i2) olim).1 else man
  { e32, e16, auto, u, c := u, iref := u
    st := { st with i := (sat32 i2).1, d := d1, xprev := x, uSat := clampSign (sum i2) olim, manual := !auto } }

/-- The later stages of std-galvo (R225, R226, R228): two notches, the current stage, bus compensation. -/
def galvoLaw (l : Latch) (co : Nat → W) (st : LawState) : LawOut :=
  let y := pidLaw l co st
  let c16 (b i : Nat) : Int := sx 16 (fld (co (b + i)) 0 16)
  let (a1, n1) := notch (c16 12) y.st.n1 y.u
  let (iref, n2) := notch (c16 17) y.st.n2 a1
  let ei := (sat16 (iref - ((l.cur.getD 0 0) : BitVec 16).toInt)).1
  let dIc := gain (co 10) ei
  let colim := sx 16 (fld (co 11) 0 16)
  let ic := if frozen dIc st.cSat (l.flags.getLsbD 5) (l.flags.getLsbD 4) then y.st.ic
    else (clpaOf (sat40 (y.st.ic + dIc)).1 (sx 16 (fld (co 11) 16 16))).1
  let sum := (sat40 (gain (co 9) ei + ic)).1
  let c := store16 (clpaOf sum colim).1
  let n := l.vnom.toInt
  let c := if bitOf (co 6) 3 then (divOf (mulQ c n) (max l.vbus.toInt (rshift n 1))).1 else c
  { y with c, iref, st := { y.st with ic := (sat32 ic).1, cSat := clampSign sum colim, n1, n2 } }

-- ---------------------------------------------------------------- the states in the state area

/-- Words of a state area that hold a law's states, in the model's own layout (log 150); the later stages' after the first four. -/
def LawState.words (x : LawState) (galvo : Bool) : List Nat :=
  let h (a b : Int) : Nat := ux 16 a + 65536 * ux 16 b
  let n (l : List Int) : List Nat := [h (l.getD 0 0) (l.getD 1 0), h (l.getD 2 0) (l.getD 3 0)]
  [ux 32 x.i, ux 32 x.d, ux 32 x.xprev, h x.uSat (b2n x.manual)] ++
    if galvo then [ux 32 x.ic, h x.cSat 0] ++ n x.n1 ++ n x.n2 else []

/-- The states that a run finds. -/
def State.lawState0 (s : State) (r : Run) (galvo : Bool) : LawState :=
  let v (o n : Nat) : Int := sx (8 * n) (s.wsVal r.ch (s.stateAt r o) n)
  let l (o : Nat) : List Int := (List.range 4).map (fun k => v (o + 2 * k) 2)
  { i := v 0 4, d := v 4 4, xprev := v 8 4, uSat := v 12 2, manual := v 14 2 == 1
    ic := if galvo then v 16 4 else 0, cSat := if galvo then v 20 2 else 0, n1 := if galvo then l 24 else [], n2 := if galvo then l 32 else [] }

/-- COEFw of a channel as its runs read it. -/
def State.coef (s : State) (ch w : Nat) : W := BitVec.ofNat 32 (s.wsVal ch (4 * w) 4)

/-- The run of an engine is of std-galvo. -/
def State.galvoRun (s : State) (r : Run) : Bool := (s.image r.img).std == 1

/-- The law of a run of a standard loop image. -/
def State.lawOf (s : State) (e : Nat) (r : Run) : LawOut :=
  let l := s.latchOf e r
  let co := s.coef r.ch
  if s.galvoRun r then galvoLaw l co (s.lawState0 r true) else pidLaw l co (s.lawState0 r false)

/-- What a run of a standard loop image reads, which fixes its flags word. -/
def State.lawInputs (s : State) (e : Nat) (r : Run) : List Int :=
  let l := s.latchOf e r
  [l.sp.toInt, l.ff.toInt, l.inj.toInt, l.flags.toInt, l.vbus.toInt, l.vnom.toInt, l.pos.toInt, ((l.cur.getD 0 0) : BitVec 16).toInt, l.esh] ++
    (List.range 32).map (fun w => (s.coef r.ch w).toInt) ++ ((s.lawState0 r (s.galvoRun r)).words true).map Int.ofNat

/-- The flags word of a run, as its last record holds it (R276). Of Dwentora's images it follows from words that the spec does not
give: a free value by what the run reads. -/
def State.runFlags (s : State) (e : Nat) (r : Run) : BitVec 16 :=
  if !s.stdRun r then r.flags
  else if r.model then Config.endFlags (r.rec_.map (fun b => (b.toNat : Int))) else Config.endFlags (s.lawInputs e r)

-- ---------------------------------------------------------------- the acts of a run (R232, R336, R551)

/-- The instructions of a standard image that act outside the registers of its run, in order: LSE, the recorded ERR, the store of
MAN_OUT, OUT, the state stores, CAP (R232); CLM and the state stores (R336). -/
def State.stdOps (s : State) (r : Run) : List Nat :=
  if r.model then [0x36, 0x0B, 0x01]
  else if s.galvoRun r then [0x32, 0x2F, 0x09, 0x3D, 0x0B, 0x34, 0x01] else [0x32, 0x2F, 0x09, 0x3D, 0x0B, 0x01]

/-- The words a run executes. Of Dwentora's images, whose words the spec does not give, those that act (log 33). -/
def State.runWords (s : State) (r : Run) : List W :=
  if s.stdRun r then (s.stdOps r).map (fun op => BitVec.ofNat 32 (op * 2 ^ 26)) else (s.image r.img).words

/-- The recorded ERR of a run (R239, R275). -/
def actErr (e : Nat) (e32 e16 : Int) (s : State) : State :=
  let r := s.run e
  let s := s.setRun e (r.act 0x07 0 (ux 32 e32))
  if s.active r then recordError r.ch e32 (BitVec.ofInt 16 e16) s else s

/-- OUT of a run (R266, R275, R407). -/
def actOut (e : Nat) (x : BitVec 16) (s : State) : State :=
  let r := s.run e
  let s := s.setRun e { r.act 0x03 0 x.toNat with out := true }
  if s.active r then
    s.updChan r.ch (fun c => { c with cmdQ := some x.toInt, loop := { c.loop with lastCmd := x.toNat, delivered := true } })
  else s

/-- CAP of a run (R269). -/
def Run.actCap (r : Run) (x : BitVec 16) : Run := { r.act 0x06 0 x.toNat with cap := x }

/-- LSE of a run (R268). -/
def Run.actLse (r : Run) : Run := { r.act 0x05 0 0 with lse := true }

/-- CLM of a run for the channel that CHN selected (R27, R270). -/
def actClm (e : Nat) (hi lo : BitVec 16) (s : State) : State :=
  let r := s.run e
  writeClamp e hi.toInt lo.toInt (s.setRun e (r.act 0x09 r.sel (hi.toNat * 65536 + lo.toNat)))

/-- The cc of an act within its run, where the spec states it (R232 and its worked example). -/
def stdCc (op cc : Nat) : Nat := match op with | 0x2F => 98 | 0x3D => 372 | _ => cc

/-- What the law of a run gives: one pass of it serves the whole run (R232). -/
def State.lawNow (s : State) (e : Nat) : LawOut := (s.run e).law.getD (s.lawOf e (s.run e))

/-- A run of a standard loop image comes to an act: its law is formed, its cc is the act's. -/
def lawRun (op e : Nat) (s : State) : State :=
  let r := s.run e
  s.setRun e { r with cc := if s.galvoRun r then stdCc op r.cc else r.cc, law := some (s.lawNow e) }

/-- Its LSE. -/
def lawLse (e : Nat) (s : State) : State :=
  let s := lawRun 0x32 e s
  s.setRun e (s.run e).actLse

/-- Its recorded ERR (R239). -/
def lawErr (e : Nat) (s : State) : State :=
  let y := s.lawNow e
  actErr e y.e32 y.e16 (lawRun 0x2F e s)

/-- Its store of MAN_OUT, in automatic only (R229). -/
def lawStore (e : Nat) (s : State) : State :=
  let y := s.lawNow e
  let s := lawRun 0x09 e s
  if y.auto then storeAt e 2 (ux 16 y.u) 28 s else s

/-- Its OUT. -/
def lawAct (e : Nat) (s : State) : State :=
  let y := s.lawNow e
  actOut e (BitVec.ofInt 16 y.c) (lawRun 0x3D e s)

/-- Its CAP. -/
def lawCap (e : Nat) (s : State) : State :=
  let y := s.lawNow e
  let s := lawRun 0x34 e s
  s.setRun e ((s.run e).actCap (BitVec.ofInt 16 y.iref))

/-- The clamp of a run of std-model or std-cover (R336, R343). -/
def modelClamp (e : Nat) (s : State) : State :=
  let r := s.run e
  let p := modelLaw e r.ch r.cover s
  let s := p.2.setRun e { p.2.run e with sel := posOf (s.chan r.ch).adm.first }
  actClm e (BitVec.ofInt 16 p.1.1) (BitVec.ofInt 16 p.1.2) s

/-- The words that a standard run stores to its state, in order. -/
def State.stdWords (s : State) (e : Nat) : List Nat :=
  let r := s.run e
  if r.model then
    match r.mst with
    | some m => (List.range 5).map (fun k => leVal ((m.bytes.drop (4 * k)).take 4))
    | none => []
  else (s.lawNow e).st.words (s.galvoRun r)

/-- The address in its view of the first of them. -/
def Run.stdBase (r : Run) : Nat := if r.model then 0x40 else 0x80

/-- The state stores of a standard run (R232, R336). -/
def stdStates (e : Nat) (s : State) : State :=
  let l := s.stdWords e
  let b := (s.run e).stdBase
  let s := if (s.run e).model then s else lawRun 0x0B e s
  forL l.zipIdx (fun x => storeAt e 4 x.1 (b + 4 * x.2)) s

-- ---------------------------------------------------------------- the end of a model run (R276, R277, R279, R320)

/-- What a model engine hands to the fold supervisor after a run (R277), and what of it the signals carry (R346). -/
def handModel (e : Nat) (ended : Bool) (r : Run) (s : State) : State :=
  lateSignals r.ch (s.updMEng (e - 128) (fun x => { x with sum := some (r.ch, r.summary ended) }))

/-- Evidence of rows 1, 2 or 5 in the run last handed over declares its model engine failed, however the run ended (R279, R424). -/
def modelEvidence (n : Nat) (s : State) : State :=
  if ((s.meng (n - 128)).sum.map (·.2.evid)).getD false then declareFailed (n - 128) 1 s else s

/-- A model run is stopped before END: its signature closes with the stop record, and it counts as late (R276, R279, R320). -/
def stopModelRun (n : Nat) (s : State) : State :=
  let r := s.run n
  let s := handModel n false (r.act 0x0F 1 (s.runFlags n r).toNat) (endRun n s)
  let again := (s.meng (n - 128)).stopped
  let s := s.updMEng (n - 128) (fun x => { x with stopped := true, late := if again then x.late else min 3 (x.late + 1) })
  let s := if again then s else s.bump (engReg n 0x20)
  modelEvidence n (meEvent (n - 128) 5 1 (setEvt (mdlEvt (s.chan r.ch).adm.first) 8 s))

/-- MODEL_DEADLINE: at cc nM × C − 64 a run still running is stopped; its channel keeps its last clamp (R320). -/
def execModelDeadline (e : Fin 32) (s : State) : Res :=
  let n := 128 + e.val
  let r := s.run n
  if r.live then .next (stopModelRun n s)
  else .next (s.updMEng e.val (fun x => { x with late := if x.stopped then x.late else 0 }))

end Sys2Proof.Machine
end

