-- ==== Sys2Proof/Machine/Iatia.lean ====
section
/-! DEFINITION. The instructions of Iatia-L (09): each acts on the run in progress of an engine when the word it has reached is
that instruction. -/

namespace Sys2Proof.Machine

open Sys2Proof

-- ---------------------------------------------------------------- the word reached (R250, R254, R272, R273, R279)

/-- Past a word: the innermost LOOP whose body ended goes round again while passes are left (R272). -/
def loopBack : List LoopFr → Nat → List LoopFr × Nat
  | [], pc => ([], pc)
  | f :: r, pc =>
    if pc = f.stop then (if f.left > 1 then ({ f with left := f.left - 1 } :: r, f.start) else loopBack r pc) else (f :: r, pc)

/-- The run goes on past a word of a given cost (R254). A span of SKP ends where it was said to (R273). -/
def Run.advance (r : Run) (cost : Nat) : Run :=
  let pc := r.pc + 1
  let (loops, pc') := loopBack r.loops pc
  { r with pc := pc', loops, cc := r.cc + cost, skip := if r.skip ≤ pc ∨ pc' != pc then 0 else r.skip }

def State.updRun (s : State) (e : Nat) (f : Run → Run) : State := s.setRun e (f (s.run e))

/-- The source of an engine's reports (R433). -/
def engSrc (e : Nat) : Nat := if e < 128 then srcLoop e else srcModel (e - 128)

/-- The flock of an engine. -/
def engFlock (e : Nat) : Nat := if e < 128 then e / 4 else e - 128

/-- A single-bit error of the word was corrected (R279). -/
def wordCorrected (e : Nat) (s : State) : State :=
  raise (engEvt e) (mkRep (engSrc e) 0 1 0 0 0) (s.bump (engReg e (if e < 128 then 0x18 else 0x1C)))

/-- Self-check evidence in the run (R411). -/
def runEvidence (e : Nat) (s : State) : State := (s.bump (hltReg e 0x18)).updRun e (fun r => { r with evid := true })

/-- What the fetch of the word and the operand parity find: 1 a corrected bit, 2 a double-bit error, 3 an operand parity
failure (R149 hop 4, R279, R411). -/
def wordFinding (e err : Nat) (s : State) : State :=
  match err with
  | 1 => wordCorrected e s
  | 2 => runEvidence e (raise (engEvt e) (mkRep (engSrc e) 0 2 0 0 0) s)
  | 3 =>
    let f := engFlock e
    runEvidence e (raise (intEvt f) (mkRep (srcFlock f) 0 3 1 3 (if e < 128 then e % 4 else 4)) (s.bump (intCnt f 4)))
  | _ => s

/-- One instruction: it acts where the run's word has its opcode, as a NOP of its own cost inside a span that is
skipped (R273), and as a NOP of 1 cc after a double-bit error (R254, R279). -/
def iaStep (op cost e err : Nat) (f : W → State → State) (s : State) : State :=
  let r := s.run e
  match (s.runWords r)[r.pc]? with
  | none => s
  | some w =>
    if !r.live || opField w != op then s
    else
      let s := wordFinding e err s
      let s := if err = 2 ∨ r.pc < r.skip then s else f w s
      s.updRun e (fun r => r.advance (if err = 2 then 1 else cost))

/-- An instruction that the words of a standard image hold too: there it acts as `g` (R232, R336, log 33). -/
def iaStd (op cost e err : Nat) (g : State → State) (f : W → State → State) (s : State) : State :=
  iaStep op cost e err (fun w s => if s.stdRun (s.run e) then g s else f w s) s

/-- An instruction that acts on the registers of its run alone. -/
def iaReg (op cost e err : Nat) (f : W → Run → Run) (s : State) : State := iaStep op cost e err (fun w s => s.updRun e (f w)) s

-- ---------------------------------------------------------------- the end of a run (R276, R277, R409)

/-- Hand over the summary of an instance's run. -/
def handOver (r : Run) (x : RunSum) (s : State) : State :=
  s.updLease r.ch (fun y => if r.inst then { y with sumB := some x } else { y with sumA := some x })

/-- An instance's run is stopped before END: its signature closes with the stop record, and the run counts as an
overrun of its instance, the consecutive ones while the channel is armed (R236, R238, R276, R279). Its stores stay. A run that executed HLD and no OUT meets the deadline at the
cutoff, `cut`, and is no overrun (R237). -/
def stopRun (e : Nat) (cut : Bool) (s : State) : State :=
  let r := (s.run e).act 0x0F 1 (s.runFlags e (s.run e)).toNat
  let c := s.chan r.ch
  let a := c.adm.first
  let held := r.hld && !r.out
  let s := handOver r { r.summary false with hld := held && cut } s
  let mine := c.lease.holder == some r.inst
  let s := if mine then s.updChan r.ch (fun c => { c with loop := { c.loop with held := held && cut, capVal := r.cap, delivered := r.out } })
    else s
  let s := if mine && held then s.bump (loopReg a 0xA0) else s
  let s := if held && cut then (if mine then s.updChan r.ch (fun c => { c with loop := { c.loop with ovr := false } }) else s)
    else
      let s := s.bump (engReg e 0x08)
      if mine then
        let s := s.updChan r.ch (fun c => { c with loop := { c.loop with ovr := true, ovrRun := if c.armed then min 3 (c.loop.ovrRun + 1) else 0 } })
        raise (loopEvt a) (mkRep (srcFlock c.flock) 2 0 1 1 r.ch) (s.bump (loopReg a 0x9C))
      else s.updChan r.ch (fun c => { c with loop := { c.loop with ovrRunS := if c.armed then min 3 (c.loop.ovrRunS + 1) else 0 } })
  endRun e s

/-- The highest cc at which a run of the engine ended (ENG_LOAD and ME_LOAD, HWM_CC). -/
def markEnd (e cc : Nat) (s : State) : State :=
  let a := engReg e 0x04
  s.setField a 16 16 (max cc (s.regField a 16 16))

/-- An instance's run reaches END (R237, R238, R276). A run that ends at another cc than its WCC gives evidence (R411 row 5). -/
def endLoopRun (e : Nat) (s : State) : State :=
  let r0 := s.run e
  let cc := if s.stdRun r0 then (s.image r0.img).wcc else r0.cc + 1
  let r := { r0.act 0x0F 0 (s.runFlags e r0).toNat with evid := r0.evid || cc != (s.image r0.img).wcc }
  let c := s.chan r.ch
  let s := markEnd e (r.start + cc) (handOver r (r.summary true) s)
  let s := if c.lease.holder == some r.inst then
      let a := c.adm.first
      let held := r.hld && !r.out
      let s := s.updChan r.ch (fun c => { c with loop :=
        { c.loop with ovr := false, ovrRun := 0, held, capVal := r.cap, delivered := r.out, runs := c.loop.runs + 1 } })
      (if held then s.bump (loopReg a 0xA0) else s).bump (loopReg a 0xA4)
    else s.updChan r.ch (fun c => { c with loop := { c.loop with ovrRunS := 0 } })
  endRun e s

/-- A model run reaches END and is handed over (R276, R277). Evidence of rows 1, 2 or 5 in it declares the engine failed
(R424). -/
def endModelRun (e : Nat) (s : State) : State :=
  let r0 := s.run e
  let r := r0.act 0x0F 0 (s.runFlags e r0).toNat
  let cost := if r.cover then 462 else (s.image r.img).wcc
  let cc := if s.stdRun r then cost else r.cc + 1
  modelEvidence e (handModel e true { r with evid := r.evid || cc != cost } (endRun e (markEnd e (r.start + cc) s)))

-- ---------------------------------------------------------------- operands of some instructions

/-- SHA (R264): a shift by a signed count. -/
def shaOf (a n : Int) : Int × Bool := if n < 0 then (rshift a (-n).toNat, false) else sat40 (a * (2 ^ n.toNat : Nat))

/-- EXT (R262). -/
def extOf (a : Int) (b : Nat) : BitVec 16 × Bool :=
  let (x, v) := satTo (b + 16) a
  (BitVec.ofInt 16 (x.fdiv (2 ^ b : Nat)), v)

/-- The destination of SIN s and FFW s (R265): accumulators for 24-bit samples, x registers for the rest. An odd voltage is halved
downwards (the model's choice, log 166). -/
def Latch.leg (l : List (BitVec 16)) (i : Nat) : BitVec 16 := l.getD i 0

def sinTo (w : W) (l : Latch) (r : Run) : Run :=
  match fSrc w with
  | 0 => r.setAc (fD w % 4) l.pos.toInt
  | 1 => r.setAc (fD w % 4) l.sec.toInt
  | 2 => r.setXw (fD w) (Latch.leg l.cur 0)
  | 3 => r.setXw (fD w) (Latch.leg l.cur 1)
  | 4 => r.setXw (fD w) (Latch.leg l.cur 2)
  | 5 => r.setXw (fD w) (Latch.leg l.volt 0 >>> 1)
  | 6 => r.setXw (fD w) (Latch.leg l.volt 1 >>> 1)
  | 7 => r.setXw (fD w) (Latch.leg l.volt 2 >>> 1)
  | _ => r

def ffwTo (w : W) (l : Latch) (r : Run) : Run :=
  match fSrc w with
  | 0 => r.setAc (fD w % 4) l.ff.toInt
  | 1 => r.setXw (fD w) l.vbus
  | 2 => r.setXw (fD w) l.vnom
  | _ => r

-- ---------------------------------------------------------------- the instructions (R260)

/-- NOP: nothing. -/
def execIaNop (e : Fin 160) (err : Fin 5) (s : State) : Res :=
  .next (iaReg 0x00 1 e.val err.val (fun _ r => r) s)

/-- END: ends the run (R260, R277). After a double-bit error in it the run ends as if stopped (R279); a sequence error gives evidence of
row 5 (R411). -/
def execIaEnd (e : Fin 160) (err : Fin 5) (s : State) : Res :=
  let r := s.run e.val
  if !r.live then .next s
  else
    match (s.runWords r)[r.pc]? with
    | none => .next s
    | some w =>
      if opField w != 1 then .next s
      else
        let s := wordFinding e.val err.val s
        let s := if err.val = 4 then s.updRun e.val (fun r => { r with evid := true }) else s
        if e.val < 128 then .next (if err.val = 2 then stopRun e.val false s else endLoopRun e.val s)
        else .next (if err.val = 2 then stopModelRun e.val s else endModelRun e.val s)

/-- MOVI: xd = imm16. -/
def execIaMovi (e : Fin 160) (err : Fin 5) (s : State) : Res :=
  .next (iaReg 0x02 1 e.val err.val (fun w r => r.setXw (fD w) (BitVec.ofNat 16 (fImm w))) s)

/-- LDP: pd = imm16. -/
def execIaLdp (e : Fin 160) (err : Fin 5) (s : State) : Res :=
  .next (iaReg 0x03 1 e.val err.val (fun w r => r.setP (fPd w) (fImm w)) s)

/-- ADDP: pd = (pd + signed imm16) mod 2 ^ 16. -/
def execIaAddp (e : Fin 160) (err : Fin 5) (s : State) : Res :=
  .next (iaReg 0x04 1 e.val err.val (fun w r => r.setP (fPd w) (ux 16 ((r.pv (fPd w) : Int) + fSimm w))) s)

/-- MOV: xd = xa. -/
def execIaMov (e : Fin 160) (err : Fin 5) (s : State) : Res :=
  .next (iaReg 0x05 1 e.val err.val (fun w r => r.setXw (fD w) (r.xw (fA w))) s)

/-- MFL: xd = flags word. -/
def execIaMfl (e : Fin 160) (err : Fin 5) (s : State) : Res :=
  .next (iaReg 0x06 1 e.val err.val (fun w r => r.setXw (fD w) r.flags) s)

/-- CLRS: SAT = 0, DZ = 0. -/
def execIaClrs (e : Fin 160) (err : Fin 5) (s : State) : Res :=
  .next (iaReg 0x07 1 e.val err.val (fun _ r => { r with sat := false, dz := false }) s)

/-- LDH: xd = halfword (R256). -/
def execIaLdh (e : Fin 160) (err : Fin 5) (s : State) : Res :=
  .next (iaStep 0x08 1 e.val err.val (fun w s => let p := loadView e.val 2 w s
    p.2.updRun e.val (fun r => r.setXw (fD w) (BitVec.ofNat 16 p.1))) s)

/-- STH: halfword = xa (R256, R257). -/
def execIaSth (e : Fin 160) (err : Fin 5) (s : State) : Res :=
  .next (iaStd 0x09 1 e.val err.val (lawStore e.val) (fun w s => storeView e.val 2 ((s.run e.val).xw (fD w)).toNat w s) s)

/-- LDW: acd = word, sign-extended (R256). -/
def execIaLdw (e : Fin 160) (err : Fin 5) (s : State) : Res :=
  .next (iaStep 0x0A 1 e.val err.val (fun w s => let p := loadView e.val 4 w s
    p.2.updRun e.val (fun r => r.setAc (fRac w) (sx 32 p.1))) s)

/-- STW: word = acA saturated to 32 bits (R222, R256, R257). -/
def execIaStw (e : Fin 160) (err : Fin 5) (s : State) : Res :=
  .next (iaStd 0x0B 1 e.val err.val (stdStates e.val) (fun w s => let y := sat32 ((s.run e.val).aci (fRac w))
    (storeView e.val 4 (ux 32 y.1) w s).updRun e.val (fun r => r.setV y.2)) s)

/-- ADD: xd = sat16(xa + xb). -/
def execIaAdd (e : Fin 160) (err : Fin 5) (s : State) : Res :=
  .next (iaReg 0x10 1 e.val err.val (fun w r => r.putX (fD w) (sat16 (r.xi (fA w) + r.xi (fB w)))) s)

/-- SUB: xd = sat16(xa − xb). -/
def execIaSub (e : Fin 160) (err : Fin 5) (s : State) : Res :=
  .next (iaReg 0x11 1 e.val err.val (fun w r => r.putX (fD w) (sat16 (r.xi (fA w) - r.xi (fB w)))) s)

/-- ADDI: xd = sat16(xa + signed imm16). -/
def execIaAddi (e : Fin 160) (err : Fin 5) (s : State) : Res :=
  .next (iaReg 0x12 1 e.val err.val (fun w r => r.putX (fD w) (sat16 (r.xi (fA w) + fSimm w))) s)

/-- NEG: xd = sat16(−xa). -/
def execIaNeg (e : Fin 160) (err : Fin 5) (s : State) : Res :=
  .next (iaReg 0x13 1 e.val err.val (fun w r => r.putX (fD w) (sat16 (-(r.xi (fA w))))) s)

/-- ABS: xd = sat16(|xa|). -/
def execIaAbs (e : Fin 160) (err : Fin 5) (s : State) : Res :=
  .next (iaReg 0x14 1 e.val err.val (fun w r => r.putX (fD w) (sat16 (absI (r.xi (fA w))))) s)

/-- MIN: xd = the smaller. -/
def execIaMin (e : Fin 160) (err : Fin 5) (s : State) : Res :=
  .next (iaReg 0x15 1 e.val err.val (fun w r => r.setX (fD w) (min (r.xi (fA w)) (r.xi (fB w)))) s)

/-- MAX: xd = the larger. -/
def execIaMax (e : Fin 160) (err : Fin 5) (s : State) : Res :=
  .next (iaReg 0x16 1 e.val err.val (fun w r => r.setX (fD w) (max (r.xi (fA w)) (r.xi (fB w)))) s)

/-- AND. -/
def execIaAnd (e : Fin 160) (err : Fin 5) (s : State) : Res :=
  .next (iaReg 0x17 1 e.val err.val (fun w r => r.setXw (fD w) (r.xw (fA w) &&& r.xw (fB w))) s)

/-- OR. -/
def execIaOr (e : Fin 160) (err : Fin 5) (s : State) : Res :=
  .next (iaReg 0x18 1 e.val err.val (fun w r => r.setXw (fD w) (r.xw (fA w) ||| r.xw (fB w))) s)

/-- XOR. -/
def execIaXor (e : Fin 160) (err : Fin 5) (s : State) : Res :=
  .next (iaReg 0x19 1 e.val err.val (fun w r => r.setXw (fD w) (r.xw (fA w) ^^^ r.xw (fB w))) s)

/-- ANDI: xd = xa AND imm16. -/
def execIaAndi (e : Fin 160) (err : Fin 5) (s : State) : Res :=
  .next (iaReg 0x1A 1 e.val err.val (fun w r => r.setXw (fD w) (r.xw (fA w) &&& BitVec.ofNat 16 (fImm w))) s)

/-- SHL: xd = sat16(xa × 2 ^ n) (R264). -/
def execIaShl (e : Fin 160) (err : Fin 5) (s : State) : Res :=
  .next (iaReg 0x1B 1 e.val err.val (fun w r => r.putX (fD w) (sat16 (r.xi (fA w) * (2 ^ (fFn w % 16) : Nat)))) s)

/-- SHR: xd = xa / 2 ^ n, rounded (R264). -/
def execIaShr (e : Fin 160) (err : Fin 5) (s : State) : Res :=
  .next (iaReg 0x1C 1 e.val err.val (fun w r => r.setX (fD w) (rshift (r.xi (fA w)) (fFn w % 16))) s)

/-- CMP: Z, N from xa − xb (R253). -/
def execIaCmp (e : Fin 160) (err : Fin 5) (s : State) : Res :=
  .next (iaReg 0x1D 1 e.val err.val (fun w r => r.compare (r.xi (fA w) - r.xi (fB w))) s)

/-- CMPI: Z, N from xa − signed imm16 (R253). -/
def execIaCmpi (e : Fin 160) (err : Fin 5) (s : State) : Res :=
  .next (iaReg 0x1E 1 e.val err.val (fun w r => r.compare (r.xi (fA w) - fSimm w)) s)

/-- SEL: xd = xa if cond, else xb (R259). -/
def execIaSel (e : Fin 160) (err : Fin 5) (s : State) : Res :=
  .next (iaReg 0x1F 1 e.val err.val (fun w r => r.setXw (fD w) (if r.cond (fFn w % 16) then r.xw (fA w) else r.xw (fB w))) s)

/-- MUL: acd = xa × xb, exact (R221). -/
def execIaMul (e : Fin 160) (err : Fin 5) (s : State) : Res :=
  .next (iaReg 0x20 1 e.val err.val (fun w r => r.setAc (fAcd w) (mulQ (r.xi (fXd w)) (r.xi (fXb w)))) s)

/-- MAC: acd = sat(acd + xa × xb). -/
def execIaMac (e : Fin 160) (err : Fin 5) (s : State) : Res :=
  .next (iaReg 0x21 1 e.val err.val (fun w r => r.putAc (fAcd w) (sat40 (r.aci (fAcd w) + mulQ (r.xi (fXd w)) (r.xi (fXb w))))) s)

/-- MSU: acd = sat(acd − xa × xb). -/
def execIaMsu (e : Fin 160) (err : Fin 5) (s : State) : Res :=
  .next (iaReg 0x22 1 e.val err.val (fun w r => r.putAc (fAcd w) (sat40 (r.aci (fAcd w) - mulQ (r.xi (fXd w)) (r.xi (fXb w))))) s)

/-- GMUL: acd = xa ⊗ xb with shift xc (R264). -/
def execIaGmul (e : Fin 160) (err : Fin 5) (s : State) : Res :=
  .next (iaReg 0x23 1 e.val err.val (fun w r => r.putAc (fAcd w) (gainProduct (r.xi (fXd w)) (r.xi (fXb w)) (r.xw (fXc w)).toNat)) s)

/-- GMAC: acd = sat(acd + xa ⊗ xb with shift xc) (R264). -/
def execIaGmac (e : Fin 160) (err : Fin 5) (s : State) : Res :=
  .next (iaReg 0x24 1 e.val err.val (fun w r =>
    let y := gainProduct (r.xi (fXd w)) (r.xi (fXb w)) (r.xw (fXc w)).toNat
    let z := sat40 (r.aci (fAcd w) + y.1)
    r.putAc (fAcd w) (z.1, y.2 || z.2)) s)

/-- ADDA: acd = sat(acA + acB). -/
def execIaAdda (e : Fin 160) (err : Fin 5) (s : State) : Res :=
  .next (iaReg 0x25 1 e.val err.val (fun w r => r.putAc (fAcd w) (sat40 (r.aci (fAcA w) + r.aci (fAcB w)))) s)

/-- SUBA: acd = sat(acA − acB). -/
def execIaSuba (e : Fin 160) (err : Fin 5) (s : State) : Res :=
  .next (iaReg 0x26 1 e.val err.val (fun w r => r.putAc (fAcd w) (sat40 (r.aci (fAcA w) - r.aci (fAcB w)))) s)

/-- XTA: acd = xa read as Q1.15, written as Q9.31. -/
def execIaXta (e : Fin 160) (err : Fin 5) (s : State) : Res :=
  .next (iaReg 0x27 1 e.val err.val (fun w r => r.setAc (fAcd w) (r.xi (fXd w) * 65536)) s)

/-- RND: xd = acA stored to 16 bits (R222). -/
def execIaRnd (e : Fin 160) (err : Fin 5) (s : State) : Res :=
  .next (iaReg 0x28 1 e.val err.val (fun w r => r.putX (fXd w) (sat16 (rshift (r.aci (fAcA w)) 16))) s)

/-- SHA: acd = acA × 2 ^ n (R264). -/
def execIaSha (e : Fin 160) (err : Fin 5) (s : State) : Res :=
  .next (iaReg 0x29 1 e.val err.val (fun w r => r.putAc (fAcd w) (shaOf (r.aci (fAcA w)) (sx 5 (fMisc w)))) s)

/-- CLPA: acd = acA limited to ±|xb| (R253, R264). -/
def execIaClpa (e : Fin 160) (err : Fin 5) (s : State) : Res :=
  .next (iaReg 0x2A 1 e.val err.val (fun w r => let y := clpaOf (r.aci (fAcA w)) (r.xi (fXb w))
    (r.setAc (fAcd w) y.1).setVOnly y.2) s)

/-- SATW: acd = acA saturated to 16, 20, 24 or 32 bits. -/
def execIaSatw (e : Fin 160) (err : Fin 5) (s : State) : Res :=
  .next (iaReg 0x2B 1 e.val err.val (fun w r => r.putAc (fAcd w) (satTo (match fMisc w % 4 with | 0 => 16 | 1 => 20 | 2 => 24 | _ => 32) (r.aci (fAcA w)))) s)

/-- CMPA: Z, N from acA − acB (R253). -/
def execIaCmpa (e : Fin 160) (err : Fin 5) (s : State) : Res :=
  .next (iaReg 0x2C 1 e.val err.val (fun w r => r.compare (r.aci (fAcA w) - r.aci (fAcB w))) s)

/-- SELA: acd = acA if cond, else acB (R259). -/
def execIaSela (e : Fin 160) (err : Fin 5) (s : State) : Res :=
  .next (iaReg 0x2D 1 e.val err.val (fun w r => r.setAc (fAcd w) (if r.cond (fMisc w % 16) then r.aci (fAcA w) else r.aci (fAcB w))) s)

/-- EXT (R262). -/
def execIaExt (e : Fin 160) (err : Fin 5) (s : State) : Res :=
  .next (iaReg 0x2E 1 e.val err.val (fun w r => let y := extOf (r.aci (fAcA w)) (fMisc w)
    (r.setXw (fXd w) y.1).setV y.2) s)

/-- ERR: the error of R261; with rec it is the run's recorded error (R239, R275). -/
def execIaErr (e : Fin 160) (err : Fin 5) (s : State) : Res :=
  .next (iaStd 0x2F 1 e.val err.val (lawErr e.val) (fun w s =>
    let r := s.run e.val
    let y := errOf (r.aci (fAcA w)) (r.aci (fAcB w)) (s.latchOf e.val r).esh
    let r' := (r.setX (fXd w) y.2.1).setV y.2.2
    let s := s.setRun e.val r'
    if fMisc w % 2 = 1 then actErr e.val y.1 y.2.1 s else s) s)

/-- DIV: the quotient of R263, in 16 cc. -/
def execIaDiv (e : Fin 160) (err : Fin 5) (s : State) : Res :=
  .next (iaReg 0x30 16 e.val err.val (fun w r =>
    let y := divOf (r.aci (fAcA w)) (r.xi (fXb w))
    let r := (r.setX (fXd w) y.1).setV y.2.1
    { r with dz := r.dz || y.2.2 }) s)

/-- CLRA: acd = 0. -/
def execIaClra (e : Fin 160) (err : Fin 5) (s : State) : Res :=
  .next (iaReg 0x31 1 e.val err.val (fun w r => r.setAc (fAcd w) 0) s)

/-- LSE: presents the renewal of the lease (R268); the Sheepdog counts only the holder's. -/
def execIaLse (e : Fin 160) (err : Fin 5) (s : State) : Res :=
  .next (iaStd 0x32 1 e.val err.val (lawLse e.val) (fun _ s => s.updRun e.val Run.actLse) s)

/-- HLD: the run ends with the held command unless it executes OUT (R267). -/
def execIaHld (e : Fin 160) (err : Fin 5) (s : State) : Res :=
  .next (iaReg 0x33 1 e.val err.val (fun _ r => { r.act 0x04 0 0 with hld := true }) s)

/-- CAP: capture signal 9 of the run (R269). -/
def execIaCap (e : Fin 160) (err : Fin 5) (s : State) : Res :=
  .next (iaStd 0x34 1 e.val err.val (lawCap e.val) (fun w s => s.updRun e.val (fun r => r.actCap (r.xw (fA w)))) s)

/-- CHN: selects a channel position (R270). -/
def execIaChn (e : Fin 160) (err : Fin 5) (s : State) : Res :=
  .next (iaReg 0x35 1 e.val err.val (fun w r => { r with sel := (r.xw (fA w)).toNat % 16 }) s)

/-- CLM: a clamp for the selected channel (R27, R270). -/
def execIaClm (e : Fin 160) (err : Fin 5) (s : State) : Res :=
  .next (iaStd 0x36 1 e.val err.val (modelClamp e.val) (fun w s =>
    let r := s.run e.val
    actClm e.val (r.xw (fA w)) (r.xw (fB w)) s) s)

/-- SPT: acd = set-point (R265). -/
def execIaSpt (e : Fin 160) (err : Fin 5) (s : State) : Res :=
  .next (iaStep 0x38 1 e.val err.val (fun w s => let l := s.latchOf e.val (s.run e.val)
    s.updRun e.val (fun r => r.setAc (fD w % 4) l.sp.toInt)) s)

/-- SIN: d = sense value s (R265). -/
def execIaSin (e : Fin 160) (err : Fin 5) (s : State) : Res :=
  .next (iaStep 0x39 1 e.val err.val (fun w s => let l := s.latchOf e.val (s.run e.val)
    s.updRun e.val (sinTo w l)) s)

/-- FFW: d = feed-forward value s (R265). -/
def execIaFfw (e : Fin 160) (err : Fin 5) (s : State) : Res :=
  .next (iaStep 0x3A 1 e.val err.val (fun w s => let l := s.latchOf e.val (s.run e.val)
    s.updRun e.val (ffwTo w l)) s)

/-- INJ: acd = injection value (R265). -/
def execIaInj (e : Fin 160) (err : Fin 5) (s : State) : Res :=
  .next (iaStep 0x3B 1 e.val err.val (fun w s => let l := s.latchOf e.val (s.run e.val)
    s.updRun e.val (fun r => r.setAc (fD w % 4) l.inj.toInt)) s)

/-- EVT: xd = latch flags (R265). -/
def execIaEvt (e : Fin 160) (err : Fin 5) (s : State) : Res :=
  .next (iaStep 0x3C 1 e.val err.val (fun w s => let l := s.latchOf e.val (s.run e.val)
    s.updRun e.val (fun r => r.setXw (fD w) l.flags)) s)

/-- OUT: the command of an active instance enters the queue (R266, R407). -/
def execIaOut (e : Fin 160) (err : Fin 5) (s : State) : Res :=
  .next (iaStd 0x3D 1 e.val err.val (lawAct e.val) (fun w s => actOut e.val ((s.run e.val).xw (fD w)) s) s)

/-- LOOP n, len: the body of len words runs n times (R272). -/
def execIaLoop (e : Fin 160) (err : Fin 5) (s : State) : Res :=
  .next (iaReg 0x3E 1 e.val err.val (fun w r => { r with loops := { start := r.pc + 1, stop := r.pc + 1 + fLen w, left := fN w } :: r.loops }) s)

/-- SKP cond, span: the span executes as NOPs where cond is true (R273). -/
def execIaSkp (e : Fin 160) (err : Fin 5) (s : State) : Res :=
  .next (iaReg 0x3F 1 e.val err.val (fun w r => if r.cond (fCond w) then { r with skip := r.pc + 1 + fLen w } else r) s)

end Sys2Proof.Machine
end

