-- ==== Sys2Proof/Machine/Loops.lean ====
section
/-! DEFINITION. Loop periods: the latch, coefficient writes, run starts, the cutoff and supervision (08). -/

namespace Sys2Proof.Machine

open Sys2Proof

-- ---------------------------------------------------------------- coefficient writes (R233, R234, R257, R389)

/-- COEF31 of a triple channel with a motor object belongs to the motor unit (R389). -/
def State.motorWord (s : State) (ch w : Nat) : Bool := w == 31 && (s.chan ch).adm.kind == 3 && (s.motorOf ch).isSome

/-- A coefficient word, or ESH as word 32, takes its value. -/
def putCoef (ch : Nat) (x : Nat × W) (s : State) : State :=
  if x.1 = 32 then s.setField (loopCfg (s.chan ch).adm.first) 0 4 x.2.toNat
  else s.putWs ch (4 * x.1) (leBytes 4 x.2.toNat)

/-- COEF_WRITE: a host write to COEFw of the channel whose first terminal is t waits in the queue (R233). -/
def execCoefWrite (t : Fin 512) (w : Fin 32) (v : W) (s : State) : Res :=
  match s.ownerOf t.val with
  | none => .next s
  | some ch =>
    if (s.chan ch).adm.first != t.val || s.motorWord ch w.val then .next s
    else .next (s.updChan ch (fun c => { c with loop := { c.loop with coefQ := c.loop.coefQ ++ [(w.val, v)] } }))

/-- LOOP_CFG_WRITE: ESH waits as a coefficient does; INJ_PT is staged in the open group, else ignored with CFG_IGNORED (R178,
R248). -/
def execLoopCfgWrite (t : Fin 512) (v : W) (s : State) : Res :=
  match s.ownerOf t.val with
  | none => .next s
  | some ch =>
    let c := s.chan ch
    if c.adm.first != t.val then .next s
    else
      let c := { c with loop := { c.loop with coefQ := c.loop.coefQ ++ [(32, v &&& 15)] } }
      match c.grp with
      | some g => .next (s.setChan ch { c with grp := some { g with injPt := some (fld v 8 2) } })
      | none => .next (raise (loopEvt t.val) (mkRep (srcFlock c.flock) 2 4 0 1 ch) (s.setChan ch c))

/-- COEF_APPLY: the oldest `ready` waiting writes of a channel are applied together at a latch; a program store to the same
word at that latch is discarded (R233, R257). -/
def execCoefApply (ch : Fin 512) (ready : BitVec 16) (s : State) : Res :=
  let c := s.chan ch.val
  if !c.live then .next s
  else
    let now := c.loop.coefQ.take ready.toNat
    let words := now.map (·.1)
    let s := s.setChan ch.val { c with loop := { c.loop with
      coefQ := c.loop.coefQ.drop ready.toNat, progQ := c.loop.progQ.filter (fun p => !words.contains (p.1 / 4)) } }
    .next (forL now (putCoef ch.val) s)

/-- The program stores of a channel take effect at the latch after the run (R257). -/
def applyProg (ch : Nat) (s : State) : State :=
  let q := (s.chan ch).loop.progQ
  let s := s.updChan ch (fun c => { c with loop := { c.loop with progQ := [] } })
  forL q (fun p s => if s.motorWord ch (p.1 / 4) then s else s.putWs ch p.1 (leBytes p.2.1 p.2.2)) s

/-- The motor unit's word (R389). -/
def motorCoef (ch : Nat) (s : State) : State :=
  match s.motorOf ch with
  | none => s
  | some i => s.putWs ch 124 (leBytes 4 ((s.motor i).mstate % 8 * 65536 + (s.motor i).speed % 65536))

-- ---------------------------------------------------------------- the latch (R218)

/-- A hop 3 finding is counted and reported (R149). -/
def latchFinding (f : Nat) (x : WordFail) (s : State) : State :=
  let ev (cnt bit cls : Nat) : State := raise (intEvt f) (mkRep (srcFlock f) 0 bit cls 1 x.chan.val) (s.bump (intCnt f cnt))
  match x.kind.val with
  | 0 => ev 1 0 0
  | 1 => ev 2 1 1
  | _ => ev 3 2 1

/-- Input words that a side of a channel fails to latch. -/
def badWords (fails : List WordFail) (ch : Nat) (side : Bool) : List Nat :=
  (fails.filter (fun x => x.chan.val == ch && x.instB == side && x.kind.val != 0)).map (·.word.val)

/-- Set-point after the effective gain (R139). -/
def gained (g : Nat) (x : BitVec 24) : BitVec 24 := BitVec.ofInt 24 (roundDiv (x.toInt * g) 32768)

/-- The latch set of one instance. A word that fails hop 3 keeps its previous value and its FRESH bit is clear (R149); so
does one not yet written (R427). With the STATUS word kept, no FRESH bit is set (log 127). -/
def State.latchSet (s : State) (ch l : Nat) (bad other : List Nat) (prev : Latch) : Latch :=
  let c := s.chan ch
  let b := s.bankAtLatch ch l
  let g := if l = 0 then c.zc.prev else c.zc.eff
  let kept (w : Nat) : Bool := bad.contains w || fieldN c.inp.late w 1 == 1
  let fresh := (List.range 3).foldl (fun n w => n + (if kept w || bad.contains 3 then 0 else fieldN b.fresh w 1 * 2 ^ w)) 0
  let x := s.senseItems ch prev
  { x with
    sp := if kept 0 then prev.sp else gained g b.spt.sample
    ff := if kept 1 then prev.ff else b.ffw.sample
    inj := if kept 2 then prev.inj else b.inj.sample
    flags := s.latchFlags ch b fresh (!c.loop.delivered) (c.loop.first || !c.armed)
    tc := s.tcoil ch, exc := s.exc ch
    esh := s.regField (loopCfg c.adm.first) 0 4
    bad := (bad.filter (fun w => !other.contains w)).length
    idx := s.loopIndex l }

/-- What a channel's inputs have seen of hop 3 in this frame, for R150. -/
def markLatch (fails : List WordFail) (ch : Nat) (sides : List Bool) (x : Inp) : Inp :=
  let bits (p : Nat → Bool) : Nat := (List.range 3).foldl (fun n w => n + b2n (p w) * 2 ^ w) 0
  let bad (w : Nat) : Bool := sides.any (fun b => (badWords fails ch b).contains w)
  let good (w : Nat) : Bool := sides.any (fun b => !(badWords fails ch b).contains w)
  { x with failed := x.failed ||| bits bad, good := x.good ||| bits good }

/-- The latch of one due channel. A failure is evidence only where the other instance latched the same word without one
(R411 row 3): where it does not run there is none. -/
def latchChan (fails : List WordFail) (ch l : Nat) (s : State) : State :=
  let c := s.chan ch
  let a := s.sideRuns ch false
  let b := s.sideRuns ch true
  let wa := badWords fails ch false
  let wb := badWords fails ch true
  let la := if a then s.latchSet ch l wa (if b then wb else wa) c.loop.latA else c.loop.latA
  let lb := if b then s.latchSet ch l wb (if a then wa else wb) c.loop.latB else c.loop.latB
  s.updChan ch (fun c =>
    let c := { c with
      inp := { markLatch fails ch ((if a then [false] else []) ++ (if b then [true] else [])) c.inp with late := 0 }
      loop := { c.loop with latA := la, latB := lb }
      lease := { c.lease with stepped := c.lease.stby == 0 } }
    -- a run follows only while the channel is armed (R219)
    if c.armed then { c with loop := { c.loop with delivered := false, capVal := 0 }
                             lease := { c.lease with sumA := none, sumB := none } }
    else c)

/-- An active run begins: a running capture of the channel counts it (R244). -/
def countRun (ch : Nat) (s : State) : State :=
  match s.capOf ch, (s.chan ch).lease.holder with
  | some i, some b => if (s.chan ch).armed && s.sideRuns ch b then s.updCap i (fun x => if x.st == 2 then { x with skip := x.skip + 1 } else x) else s
  | _, _ => s

/-- Channels of a flock with an instance due in a loop period, whether armed or not (R219), and those that are armed. -/
def State.due (s : State) (f i : Nat) : List Nat := s.posSort ((s.chansOfFlock f).filter (fun ch => (s.chan ch).dueAt i))
def State.dueArmed (s : State) (f i : Nat) : List Nat := (s.due f i).filter (fun ch => (s.chan ch).armed)

/-- LOOP_LATCH: at loop boundary l of the present frame the flock's engines latch (R218): the bus sample, the samples of
its ports, what hop 3 finds, and the latch sets of the due instances, armed or not; where a motion period begins, the
items that its model runs read (R316). Program stores take effect and the motor unit writes its word. Every port forms a sample (R353);
one that the list leaves out has inputs of 0. -/
def execLoopLatch (f : Fin 32) (l : Fin 8) (bus : BitVec 16) (sens : List SenseIn) (fails : List WordFail)
    (s : State) : Res :=
  let s := s.updFold (f.val / 4) (fun x => { x with busS := bus.toNat })
  let s := each (List.range 8) (fun i s =>
    let n := 8 * f.val + i
    latchPort n ((sens.find? (fun x => x.port.val == n)).getD ⟨0, 0, 0, 0⟩) s) s
  let on := s.flockOn f.val
  let out (s : State) : State := if l.val = 0 then latchSignals f.val s else s
  if !on then .next (out s)
  else
    let due := s.due f.val (s.loopIndex l.val)
    let fails := fails.filter (fun x => due.contains x.chan.val && s.sideRuns x.chan.val x.instB)
    let s := each (s.chansOfFlock f.val) (fun ch s => motorCoef ch (applyProg ch s)) s
    let s := forL fails (latchFinding f.val) s
    let s := if s.loopIndex l.val % s.nM = 0 then each (s.chansOfFlock f.val) (fun ch s => motionItems ch l.val s) s else s
    .next (out (each due (fun ch s => countRun ch (latchChan fails ch l.val s)) s))

-- ---------------------------------------------------------------- runs (R219, R236)

/-- INSTANCE_RUN_START: a due instance of an armed channel starts on engine e in loop period l of the present frame, with every
register 0 (R219, R250). -/
def execInstanceRunStart (e : Fin 128) (ch : Fin 512) (l : Fin 8) (s : State) : Res :=
  let c := s.chan ch.val
  let i := s.loopIndex l.val
  match c.sideOn e.val, c.loop.img with
  | some side, some im =>
    if c.armed && c.dueAt i && s.sideRan ch.val side && (s.hlt e.val).st != 3 && !(s.run e.val).live then
      .next ((s.updChan ch.val (fun c => { c with loop := { c.loop with first := false } })).setRun e.val { Run.none with
        live := true, ch := ch.val, inst := side, img := im, start := s.placeStart c.flock (e.val % 4) ch.val i })
    else .next s
  | _, _ => .next s

/-- An instance that has not begun by the cutoff is skipped: an overrun with no signature (R236, R409). -/
def skipInstance (e ch : Nat) (side : Bool) (s : State) : State :=
  let c := s.chan ch
  let s := s.bump (engReg e 0x08)
  if c.lease.holder == some side then
    let s := s.updChan ch (fun c => { c with loop := { c.loop with ovr := true, ovrRun := min 3 (c.loop.ovrRun + 1), held := false } })
    raise (loopEvt c.adm.first) (mkRep (srcFlock c.flock) 2 0 1 1 ch) (s.bump (loopReg c.adm.first 0x9C))
  else s.updChan ch (fun c => { c with loop := { c.loop with ovrRunS := min 3 (c.loop.ovrRunS + 1) } })

/-- LOOP_CUTOFF: at cc C − 64 of loop period l the engine stops the run in progress and skips the instances not begun
(R236). A channel armed after its place had begun has no run in the period (R219). -/
def execLoopCutoff (e : Fin 128) (l : Fin 8) (s : State) : Res :=
  let f := e.val / 4
  let cur := s.run e.val
  let late := (s.dueArmed f (s.loopIndex l.val)).filterMap (fun ch =>
    match (s.chan ch).sideOn e.val with
    | some b =>
      if s.sideRan ch b && s.placeAhead ch l.val b && ((s.chan ch).lease.sum b).isNone && !(cur.live && cur.ch == ch) then some (ch, b)
      else none
    | none => none)
  let s := if cur.live then stopRun e.val true s else s
  .next (forL late (fun x s => skipInstance e.val x.1 x.2 s) s)

/-- OVERRUN_HEALTH_FAILURE: a third consecutive overrun of the active instance, or of the shadow, is handed to the fold
supervisor (R238). -/
def execOverrunHealthFailure (ch : Fin 512) (shadow : Bool) (s : State) : Res :=
  let c := s.chan ch.val
  let n := if shadow then c.loop.ovrRunS else c.loop.ovrRun
  if c.armed && n = 3 then .next (raise (loopEvt c.adm.first) (mkRep (srcFlock c.flock) 2 1 1 1 ch.val) s) else .next s

/-- FOLLOW_ERROR: FE_COUNT reaches FE_TIME (R239). -/
def execFollowError (ch : Fin 512) (s : State) : Res :=
  let c := s.chan ch.val
  let a := c.adm.first
  if c.armed && s.regField (feLim a) 0 24 != 0 && decide (max 1 (s.regField (feTime a) 0 16) ≤ c.loop.feCount) then
    .next (raise (loopEvt a) (mkRep (srcFlock c.flock) 2 2 2 1 ch.val)
      (s.setChan ch.val { c with loop := { c.loop with followErr := true } }))
  else .next s

end Sys2Proof.Machine
end

