-- ==== Sys2Proof/Machine/Captures.lean ====
section
/-! DEFINITION. Captures and the host sequences of injections (08 R241 to R247, 05 R143 to R147). -/

namespace Sys2Proof.Machine

open Sys2Proof

-- ---------------------------------------------------------------- layouts (R145, R147)

/-- Bytes of a sample in a layout. -/
def layoutBytes (layout : Nat) : Nat := if layout = 0 then 3 else 4

/-- A sample in its layout. -/
def encodeSample (layout : Nat) (x : BitVec 24) : List (BitVec 8) :=
  match layout with
  | 0 => leBytes 3 x.toNat
  | 1 => leBytes 4 (ux 32 x.toInt)
  | _ => leBytes 4 (x.toNat * 256)

/-- The sample that bytes of a layout hold. -/
def decodeSample (layout : Nat) (b : List (BitVec 8)) : BitVec 24 :=
  match layout with
  | 2 => BitVec.ofNat 24 (leVal b / 256)
  | _ => BitVec.ofNat 24 (leVal b)

/-- Entries of a channel's ring (R59, R144). -/
def Adm.ringEntries (a : Adm) : Nat := 1024 * 2 ^ a.ringJ

-- ---------------------------------------------------------------- captures (R244, R245, R247)

/-- CAP_TRIGGER: a waiting capture begins at its trigger: the next boundary, or the start of its channel's injection
(R244). -/
def execCapTrigger (i : Fin 1024) (s : State) : Res :=
  let x := s.cap i.val
  let ready := !x.trig || (match s.injOf x.chan with | some j => (s.inj j).st == 2 | none => false)
  if x.live && x.st == 1 && ready then .next (s.setCap i.val { x with st := 2, skip := 0 }) else .next s

/-- The values of an entry (R244) and how many of them fail parity (R247). -/
def Chan.captured (c : Chan) (sigs : List Nat) (fails : Nat) : List (BitVec 24) :=
  sigs.zipIdx.map (fun x =>
    if fieldN fails x.2 1 == 1 then 0x800000 else (c.signal x.1 c.latch.tc c.latch.exc).getD 0)

/-- CAP_ENTRY_RECORD: after the command at L(i+1) is applied, the entry of the D-th run since the last one is formed. `fails`
names the signals whose operand parity fails, which CNT_CAPPAR counts and class C0 reports (R247). -/
def execCapEntryRecord (i : Fin 1024) (fails : BitVec 4) (s : State) : Res :=
  let x := s.cap i.val
  let c := s.chan x.chan
  if x.live && x.st == 2 && decide (x.decim ≤ x.skip) && (x.target == 0 || decide (x.formed < x.target)) then
    let n := sumL (List.range x.sigs.length) (fun k => fieldN fails.toNat k 1)
    let s := s.addReg (capReg c.adm.first 0x1C) n
    let s := if n = 0 then s else
      queueRep { source := srcFlock c.flock, cause := Config.capParityCause.toNat, cls := 0, okind := 1, object := x.chan } s
    .next (s.setCap i.val { x with skip := 0, formed := x.formed + 1, queued := x.queued ++ [c.captured x.sigs fails.toNat] })
  else .next s

/-- CAP_ENTRY_COMMIT: the oldest formed entry is written to the ring and then the position advances (R147, R245). CAP_STOP
completes with the last entry (R308). -/
def execCapEntryCommit (i : Fin 1024) (s : State) : Res :=
  let x := s.cap i.val
  match x.queued with
  | [] => .next s
  | v :: r =>
    let a := (s.chan x.chan).adm
    let s := s.putDram (a.capAt + x.wptr * x.bytes) (v.flatMap (encodeSample x.layout))
    let wrap := decide (a.ringEntries ≤ x.wptr + 1)
    let last := x.stopping && r.isEmpty
    let s := s.setCap i.val { x with
      queued := r, wptr := if wrap then 0 else x.wptr + 1, wraps := if wrap then (x.wraps + 1) % 2 ^ 32 else x.wraps
      count := (x.count + 1) % 2 ^ 32, stopping := x.stopping && !last }
    .next (if last then finishObj 0x0703 (5, i.val) stOk s else s)

/-- CAP_DONE: a one-shot capture has written its count (R244). -/
def execCapDone (i : Fin 1024) (s : State) : Res :=
  let x := s.cap i.val
  if x.live && x.st == 2 && x.target != 0 && x.count == x.target then .next (s.setCap i.val { x with st := 3 }) else .next s

-- ---------------------------------------------------------------- injections (R241, R242)

/-- INJ_END: the length is reached; a single 0 follows at the next boundary (R241). -/
def execInjEnd (i : Fin 512) (s : State) : Res :=
  let x := s.inj i.val
  if x.live && x.st == 2 && x.len != 0 && decide (x.len ≤ x.k) then
    .next (s.setInj i.val { x with st := 3, zero := true })
  else .next s

/-- Values of a chunk of 256 read from the host's window (R143, R242): value k is entry k mod L. -/
def State.chunkValues (s : State) (x : Inj) (c : Nat) : List (BitVec 24) :=
  let layout := fld x.p5 0 2
  let n := layoutBytes layout
  (List.range 256).map (fun t =>
    decodeSample layout (s.dramBytes (x.p3.toNat + (256 * c + t) % x.p4.toNat * n) n))

/-- INJ_CHUNK_FETCH: the next chunk of a host sequence is copied into staging, which holds two (R242). A chunk whose values are
all past is dropped first. -/
def execInjChunkFetch (i : Fin 512) (s : State) : Res :=
  let x := s.inj i.val
  let held := x.chunks.filter (fun c => decide (x.k < 256 * c.1 + 256))
  if x.live && x.src == 2 && (x.st == 1 || x.st == 2) && decide (held.length < 2) then
    let c := match held.getLast? with | some y => y.1 + 1 | none => x.k / 256
    .next (s.setInj i.val { x with chunks := held ++ [(c, s.chunkValues x c)] })
  else .next s

end Sys2Proof.Machine
end

