-- ==== Sys2Proof/Machine/Diag.lean ====
section
/-! DEFINITION. Load diagnosis: runs, points, results, verdicts, signatures (12 R359 to R369, 10 R310). -/

namespace Sys2Proof.Machine

open Sys2Proof

def State.diag (s : State) (d : Nat) : Diag := tget Diag.none s.diags d
def State.setDiag (s : State) (d : Nat) (x : Diag) : State := { s with diags := tset Diag.none s.diags d x }
def State.updDiag (s : State) (d : Nat) (f : Diag → Diag) : State := s.setDiag d (f (s.diag d))

/-- A field of a run's parameter block (R363), with its default where 0 stands for one. -/
def Diag.v (x : Diag) (off n : Nat) : Nat := leVal ((x.block.drop off).take n)
def Diag.dflt (x : Diag) (off d : Nat) : Nat := if x.v off 2 = 0 then d else x.v off 2
def Diag.multi (x : Diag) : Bool := x.v 0 2 == 1
def Diag.npts (x : Diag) : Nat := x.v 2 2

/-- A run that has its correlator set (R368). -/
def Diag.running (x : Diag) : Bool := x.live && decide (1 ≤ x.st ∧ x.st ≤ 3)

-- ---------------------------------------------------------------- frequencies (R361)

/-- The largest x below 2 ^ bits with (2x − 1) ^ n ≤ t, by bits from the top. -/
def rootAux (n t : Nat) : Nat → Nat → Nat
  | 0, acc => acc
  | b + 1, acc =>
    let c := acc + 2 ^ b
    rootAux n t b (if (2 * c - 1) ^ n ≤ t then c else acc)

/-- fᵢ in 0.1 Hz: F0 × (F1 / F0) ^ (i / (NPTS − 1)) to nearest, or F0 for one point. -/
def pointFreq (f0 f1 npts i : Nat) : Nat :=
  if npts ≤ 1 then f0 else rootAux (npts - 1) (2 ^ (npts - 1) * f0 ^ (npts - 1 - i) * f1 ^ i) 20 0

def Diag.nominal (x : Diag) (i : Nat) : Nat := pointFreq (x.v 4 4) (x.v 8 4) x.npts i

/-- Bin of period 2 ^ P frames nearest to a frequency. -/
def nearBin (p frate f : Nat) : Nat := if frate = 0 then 0 else (2 * f * 2 ^ p + 10 * frate) / (20 * frate)

/-- The frequency of point i as a fraction of hertz: that of its bin under multi-tone. -/
def State.pointHz (s : State) (x : Diag) (i : Nat) : Nat × Nat :=
  if x.multi then (nearBin (x.v 0x12 2) s.frate (x.nominal i) * s.frate, 2 ^ x.v 0x12 2) else (x.nominal i, 10)

/-- FREQ of a point in 0.1 Hz. -/
def State.pointShown (s : State) (x : Diag) (i : Nat) : Nat :=
  let (n, d) := s.pointHz x i
  (20 * n + d) / (2 * d)

/-- The frames that the present point, or pass, takes (R361). -/
def State.passFrames (s : State) (x : Diag) : Nat :=
  if x.multi then (1 + x.v 0x10 2) * 2 ^ x.v 0x12 2
  else
    let f := s.pointHz x x.points
    if f.1 = 0 then 0 else ((x.v 0x0E 2 + x.v 0x10 2) * s.frate * f.2 + f.1 - 1) / f.1

/-- The present point or pass has had its frames (R361). -/
def State.passDone (s : State) (x : Diag) : Bool := decide (s.passFrames x ≤ (s.bell.frame - x.passAt).toNat)

/-- Points of the pass that starts at point i. -/
def Diag.pass (x : Diag) (i : Nat) : List Nat :=
  (List.range (min (x.npts - i) (if x.multi then 16 else 1))).map (i + ·)

/-- The carrier periods of a channel within which the present point or pass is measured, of its beginning (R361, R362): MEAS cycles or periods after
SETTLE cycles or one period. -/
def State.passSpan (s : State) (x : Diag) : Nat × Nat :=
  let rate := s.m * (s.chan x.chan).k
  if x.multi then (2 ^ x.v 0x12 2 * rate, (1 + x.v 0x10 2) * 2 ^ x.v 0x12 2 * rate)
  else
    let f := s.pointHz x x.points
    let at_ (cycles : Nat) : Nat := if f.1 = 0 then 0 else (cycles * f.2 * s.frate * rate + f.1 - 1) / f.1
    (at_ (x.v 0x0E 2), at_ (x.v 0x0E 2 + x.v 0x10 2))

/-- A pass starts: its tones, the phase counted from its start, its sums. -/
def startPass (d : Nat) (s : State) : State :=
  let x := s.diag d
  let p := s.passSpan x
  let s := s.setDiag d { x with passAt := s.bell.frame }
  s.updChan x.chan (fun c => { c with
    tones := (x.pass x.points).map (fun i => (x.v 0x0C 2, (s.pointHz x i).1, (s.pointHz x i).2))
    excK := 0, cor := { c.cor with sums := (x.pass x.points).map (fun _ => Corr.none), lo := p.1, hi := p.2 } })

/-- The points that the sums of the present pass give (R362); a tone without a current gives a free Z. -/
def formPoints (d : Nat) (s : State) : State :=
  let w (x : Int) : BitVec 32 := BitVec.ofInt 32 (sat32 x).1
  forL (s.chan (s.diag d).chan).cor.sums (fun c s =>
    let z := (c.z 6).getD s.freePair
    (s.updDiag d (fun x => { x with
      pts := x.pts ++ [{ zre := w z.1, zim := w z.2, iamp := BitVec.ofNat 32 c.iamp }]
      vamp := if x.pts.isEmpty then c.vamp else x.vamp })).draw.2.draw.2) s

-- ---------------------------------------------------------------- starting (R360)

def State.enrolOf (s : State) (t : Nat) : Enrol := tget Enrol.none s.nv.sigs t
def Enrol.present (x : Enrol) : Bool := x.chanKind != 0

/-- The block a run uses: its own, or the enrolled one with its own SIG_TOL (R367). -/
def State.diagBlock (s : State) (ch kind b : Nat) : List (BitVec 8) :=
  let own := s.dramBytes b 64
  if kind = 4 then
    let l := (s.enrolOf (s.chan ch).adm.first).block
    l.take 0x1A ++ (own.drop 0x1A).take 2 ++ l.drop 0x1C
  else own

/-- The kind preconditions (R360). -/
def State.diagReady (s : State) (ch kind : Nat) (x : Diag) : Bool :=
  let c := s.chan ch
  let f := c.flock
  let g := f ^^^ 1
  let runs := ((tkeys s.diags).filter (fun d => (s.diag d).running && flockOf (s.diag d).first == f)).length
  let enr := s.enrolOf c.adm.first
  let inj := match s.injOf ch with | some i => (s.inj i).st == 1 || (s.inj i).st == 2 | none => false
  c.armed && (c.adm.kind == 1 || c.adm.kind == 2) && !inj &&
    !s.liveBinds.any (fun i => (s.bind i).chan == ch && (s.bind i).input == 2) &&
    c.mdl.valid && !(s.meng f).covered && !(s.meng f).covering && decide (runs < 4) &&
    decide (s.sched f (s.validOf f).length (s.validOf g).length + 320 * (runs + 1) ≤ s.nM * s.loopCc) &&
    (kind != 4 || (enr.present && enr.chanKind == c.adm.kind)) &&
    decide (x.v 4 4 ≤ x.v 8 4 ∧ x.v 8 4 ≤ min 500000 (10 * s.loopRate / (8 * 2 ^ c.adm.divLog2)))

/-- The run that DIAG.RUN asks for (R359, R367). -/
def State.diagAsked (s : State) (e : CmdEntry) : Diag :=
  let ch := hIndex (opN e 0)
  let kind := fld (opN e 1) 0 8
  let b := (opN e 2).toNat
  let c := s.chan ch
  { Diag.none with
    live := true, chan := ch, first := c.adm.first, ckind := c.adm.kind, kind, st := 1
    block := s.diagBlock ch kind b, addr := b }

/-- DIAG.RUN's own checks (R359, R360). -/
def diagChecks (e : CmdEntry) (s : State) : List (Bool × Nat × Nat) :=
  let x := s.diagAsked e
  let n := (opN e 3).toNat
  [((s.freeIndex 11).isSome, stNoRes, 0xF7), (s.diagReady x.chan x.kind x, stState, 1),
    (decide (0x80 + 16 * x.npts ≤ n) && inWindows x.addr n, stSize, 2)]

/-- The own part of DIAG.RUN (R359, R360, R363). -/
def diagOwn (e : CmdEntry) (s : State) : State :=
  checked e (diagChecks e s) (held e fun s =>
    let d := (s.freeIndex 11).getD 0
    acceptLater e (mkHandle 11 d (s.gen 11 d)) (s.setDiag d (s.diagAsked e))) s

/-- DIAG_RUN. -/
def execDiagRun (e : CmdEntry) (s : State) : Res := .next (commandRow 0x0801 diagOwn e s)

/-- The loop period in which the last point of a run ends is the present one, or past (R369). -/
def State.lastPeriod (s : State) (x : Diag) : Bool :=
  x.st == 2 && x.points + (x.pass x.points).length == x.npts && (s.passDone x || decide (s.passFrames x * s.m ≤ (s.chan x.chan).excK))

/-- DIAG_ABORT: excitation stops at the next loop boundary (R368); in the loop period in which the last point ends it is refused (R369). -/
def execDiagAbort (e : CmdEntry) (s : State) : Res :=
  .next (commandRow 0x0802 (fun e s =>
    let d := hIndex (opN e 0)
    checked e [(((s.diag d).st == 1 || (s.diag d).st == 2) && !s.lastPeriod (s.diag d), stState, 1)]
      (fun s => acceptLater e 0 (s.updDiag d (fun x => { x with abort := true }))) s) e s)

/-- DIAG_ENROL (R366). -/
def execDiagEnrol (e : CmdEntry) (s : State) : Res :=
  .next (commandRow 0x0803 (fun e s =>
    let x := s.diag (hIndex (opN e 0))
    let bars := match s.sec.fence with
      | some f => fieldN (tget FenceTerm.none f.terms x.first).tflags 1 1 == 1
      | none => false
    checked e [(x.st == 4 && x.verdicts == 0x8000, stState, 1),
      (!((s.enrolOf x.first).present && bars), stFence, 2)]
      (fun s =>
        let y : Enrol := { seconds := s.reg calSecA, chanKind := x.ckind, dkind := x.kind, block := x.block, result := x.result }
        acceptNow e 0 { s with nv := { s.nv with sigs := tset Enrol.none s.nv.sigs x.first y } }) s) e s)

/-- DIAG_DEL (R310). -/
def execDiagDel (e : CmdEntry) (s : State) : Res :=
  .next (commandRow 0x0804 (fun e s =>
    let d := hIndex (opN e 0)
    checked e [((s.diag d).st == 4, stBusy, 1)]
      (fun s => acceptNow e 0 ((s.setDiag d Diag.none).advGen 11 d)) s) e s)

-- ---------------------------------------------------------------- running and ending (R361, R368)

/-- Excitation starts at the first Bellwether boundary after acceptance (R361). -/
def diagStarts (s : State) : State :=
  each (tkeys s.diags) (fun d s =>
    let x := s.diag d
    if x.live && x.st == 1 && !x.abort && (s.chan x.chan).armed then
      startPass d ((s.setDiag d { x with st := 2, frame := BitVec.ofNat 32 (s.bell.frame.toNat % 2 ^ 32) }).updChan x.chan
        (fun c => { c with cor := Correl.none }))
    else s) s

/-- DIAG_POINT_END: a point or pass ends at a Bellwether boundary and the next one starts (R361). The last one ends the run. -/
def execDiagPointEnd (d : Fin 256) (s : State) : Res :=
  let x := s.diag d.val
  let n := x.points + (x.pass x.points).length
  if x.live && x.st == 2 && decide (n < x.npts) && s.passDone x then
    .next (startPass d.val ((formPoints d.val s).updDiag d.val (fun x => { x with points := n })))
  else .next s

/-- The last point of a run has been measured. -/
def State.diagDone (s : State) (x : Diag) : Bool :=
  x.st == 2 && x.points + (x.pass x.points).length == x.npts && s.passDone x

/-- Whether a run ends by a cause of R368 now: 0 its last point measured, 1 a layer window on its channel, 2 DIAG.ABORT, 3 its
channel out of armed, 4 a crook force on a terminal of it, 5 its flock covered or covering. A run whose last point is measured ends complete (R369). -/
def State.diagEnds (s : State) (x : Diag) (cause : Nat) : Bool :=
  let c := s.chan x.chan
  match cause with
  | 0 => s.diagDone x
  | 1 => s.layerOf x.chan && !s.diagDone x
  | 2 => x.abort && !s.diagDone x
  | 3 => !c.armed
  | 4 => c.terms.any (fun t => (s.term t).forceEff != 0)
  | _ => (s.meng c.flock).covered || (s.meng c.flock).covering

/-- The completions that the end of a run gives (R368). -/
def diagFinish (d : Nat) (s : State) : State :=
  let x := s.diag d
  finishObj 0x0802 (11, d) stOk (finishObj 0x0801 (1, x.chan) (if x.outcome ≤ 1 then stOk else stState) s)

/-- DIAG_RUN_END: excitation stops, and what the result takes from the thermal state and the table in effect is kept (R362, R369); a run ended
by cover writes no result (R368). -/
def execDiagRunEnd (d : Fin 256) (cause : Fin 6) (s : State) : Res :=
  let x := s.diag d.val
  if x.live && (x.st == 1 || x.st == 2) && s.diagEnds x cause.val then
    let s := if cause.val = 0 then formPoints d.val s else s
    let c := s.chan x.chan
    let s := s.updDiag d.val (fun x => { x with
      st := if cause.val = 5 then 4 else 3, points := if cause.val = 0 then x.npts else x.points, outcome := cause.val
      leak := if x.ckind = 2 ∧ x.st = 2 then rmsUa c.cor.leak2 c.cor.leakN else 0, res := s.resTc x.chan, par := c.mdl.par })
    let s := s.updChan x.chan (fun c => { c with tones := [], excK := 0, cor := Correl.none })
    if cause.val = 5 then .next (diagFinish d.val s) else .next s
  else .next s

-- ---------------------------------------------------------------- the result (R362 to R367)

/-- What the verdicts rest on: RES(Tc) in µΩ, and RMEAS in µΩ and LMEAS in nH from point 0. -/
structure Measured where
  res : Int
  r : Int
  l : Int
  deriving DecidableEq, Repr

/-- The parameter table that a run's result rests on. -/
def Diag.table (x : Diag) : Mdl := { Mdl.none with par := x.par }

/-- RMEAS and LMEAS (R362). -/
def State.measured (s : State) (x : Diag) (z : DiagPoint) : Measured :=
  let f := s.pointShown x 0
  let (mr, mi) := (motional x.table (s.chan x.chan).adm.motion f).getD s.freePair
  let w : Int := omegaE9 f
  { res := x.res, r := z.zre.toInt - mr, l := if w = 0 then 0 else roundDiv ((z.zim.toInt - mi) * 10 ^ 12) w }

/-- Verdict bits 0 to 4 (R364). -/
def Diag.verdictOf (x : Diag) (m : Measured) (z : DiagPoint) : Nat :=
  let l : Int := x.table.pv 0x50 4 * 1000
  let o := decide (z.iamp.toNat < 10000 ∧ 500000 ≤ x.vamp)
  let sh := !o && decide (2 * m.r < m.res ∧ 2 * m.l < l)
  let tu := !o && !sh && decide (1000 * m.l < (1000 - (x.dflt 0x14 100 : Int)) * l)
  let hi := !o && decide ((1000 + (x.dflt 0x16 150 : Int)) * m.res < 1000 * m.r)
  let lk := x.ckind == 2 && decide (x.dflt 0x18 20 * 1000 < x.leak)
  b2n o + 2 * b2n sh + 4 * b2n tu + 8 * b2n hi + 16 * b2n lk

/-- Points of a result held as bytes: Z of point i, and RES_TC (R363). -/
def resultInt (l : List (BitVec 8)) (off : Nat) : Int := sx 32 (leVal ((l.drop off).take 4))

/-- The squares |Z − Zs|² and |Zs|² of a point against the enrolled one (R367). -/
def sigSquares (enr : List (BitVec 8)) (res : Int) (i : Nat) (z : DiagPoint) : Nat × Nat :=
  let re := resultInt enr (0x40 + 16 * i + 4) + (res - resultInt enr 0x0C)
  let im := resultInt enr (0x40 + 16 * i + 8)
  let a := z.zre.toInt - re
  let b := z.zim.toInt - im
  ((a * a + b * b).toNat, (re * re + im * im).toNat)

/-- SIG_FAIL, SIG_DEV in 0.1 % and SIG_IDX (R367). -/
def signature (enr : List (BitVec 8)) (res : Int) (tol : Nat) (pts : List DiagPoint) : Bool × Nat × Nat :=
  let l := pts.zipIdx.map (fun x => (x.2, sigSquares enr res x.2 x.1))
  let fails := l.any (fun x => decide (tol * tol * x.2.2 < 1000000 * x.2.1))
  let worst := l.foldl (fun (m : Nat × Nat × Nat) x => if m.2.1 * x.2.2 < x.2.1 * m.2.2 then x else m) (0, 0, 1)
  let dev := if worst.2.2 = 0 then 0xFFFF else min 0xFFFF (isqrt (1000000 * worst.2.1 / worst.2.2))
  (fails, dev, worst.1)

/-- The frequency, in 0.1 Hz, at which points i and j pass the level h, by linear interpolation, in fixed point. -/
def crossing (l : List (Nat × Int)) (h : Int) (i j : Nat) : Int :=
  let p := l.getD i (0, 0)
  let q := l.getD j (0, 0)
  if p.2 = q.2 then p.1 * fOne else p.1 * fOne + (h - fOne * p.2) * ((q.1 : Int) - p.1) / (q.2 - p.2)

/-- Frequency in 0.1 Hz, Q in 0.01 and peak in mΩ of the resonance at point i (R365, log 156): the vertex of the parabola in log f through
the point and its neighbours, and the width at half the peak. Points of one frequency give no parabola: the point itself. -/
def peakFit (l : List (Nat × Int)) (i : Nat) : Nat × Nat × Nat :=
  let g (k : Nat) : Nat × Int := l.getD k (0, 0)
  let a := fLog (g i).1 (g (i - 1)).1
  let b := fLog (g (i + 1)).1 (g i).1
  let d0 := if a = 0 then 0 else ((g i).2 - (g (i - 1)).2) * fOne * fOne / a
  let d1 := if b = 0 then 0 else ((g (i + 1)).2 - (g i).2) * fOne * fOne / b
  let c := if a + b = 0 then 0 else (d1 - d0) * fOne / (a + b)
  let sl := d0 + fMul c a
  let fit := a != 0 && b != 0 && c != 0
  let f := if fit then (g i).1 * fExp (-sl * fOne / (2 * c)) else (g i).1 * fOne
  let pk := if fit then (g i).2 * fOne - fMul sl sl * fOne / (4 * c) else (g i).2 * fOne
  let h := pk / 2
  let below (k : Nat) : Bool := decide ((g k).2 * fOne ≤ h)
  let q := match ((List.range i).reverse).find? below, (List.range l.length).find? (fun k => decide (i < k) && below k) with
    | some lo, some hi =>
      let w := crossing l h hi (hi - 1) - crossing l h lo (lo + 1)
      if w ≤ 0 then 0xFFFF else min 0xFFFF (roundDiv (100 * f) w.toNat).toNat
    | _, _ => 0
  ((roundDiv f fOne.toNat).toNat, q, min 0xFFFF (max 0 (roundDiv pk (1000 * fOne.toNat))).toNat)

/-- The resonances of a kind 2 run, 8 bytes each (R365): the four highest points above both neighbours, in ascending
frequency. -/
def resonances (l : List (Nat × Int)) : List (BitVec 8) :=
  let v (i : Nat) : Int := (l.getD i (0, 0)).2
  let peaks := (List.range l.length).filter (fun i => decide (0 < i ∧ i + 1 < l.length) && decide (v (i - 1) < v i ∧ v (i + 1) < v i))
  let rank (i : Nat) : Nat := (peaks.filter (fun j => decide (v i < v j) || (v j == v i && decide (j < i)))).length
  let best := peaks.filter (fun i => decide (rank i < 4))
  let b := best.flatMap (fun i => let q := peakFit l i; leBytes 4 q.1 ++ leBytes 2 q.2.1 ++ leBytes 2 q.2.2)
  b ++ List.replicate (32 - b.length) 0

/-- The bytes of a result and its VERDICT (R363). Without a point there is nothing to judge, and RMEAS and LMEAS are 0. -/
def State.diagResult (s : State) (x : Diag) : List (BitVec 8) × Nat :=
  let m := match x.pts with | [] => { res := x.res, r := 0, l := 0 } | z :: _ => s.measured x z
  let (bad, dev, idx) := if x.kind = 4 then signature (s.enrolOf x.first).result m.res (x.dflt 0x1A 50) x.pts else (false, 0, 0)
  let judged := match x.pts with | [] => 0 | z :: _ => if x.outcome ≤ 1 then x.verdictOf m z + 32 * b2n bad else 0
  let verdict := judged + b2n (x.outcome == 1) * 2 ^ 14 + b2n (x.outcome == 0) * 2 ^ 15
  let reson := if x.kind = 2 then resonances (x.pts.zipIdx.map (fun y => (s.pointShown x y.2, y.1.zre.toInt - m.res)))
    else List.replicate 32 0
  let w (i : Int) : List (BitVec 8) := leBytes 4 (ux 32 i)
  (leBytes 2 verdict ++ leBytes 2 x.pts.length ++ w m.r ++ w m.l ++ w m.res ++ leBytes 4 x.leak ++ leBytes 4 x.frame.toNat ++
    reson ++ leBytes 2 dev ++ leBytes 2 idx ++ leBytes 4 0 ++
    x.pts.zipIdx.flatMap (fun y => leBytes 4 (s.pointShown x y.2) ++ leBytes 4 y.1.zre.toNat ++ leBytes 4 y.1.zim.toNat ++
      leBytes 4 y.1.iamp.toNat), verdict)

/-- DIAG_RESULT_WRITE: the result and verdicts are written, the correlator set is free, DIAG.RUN completes (R363 to R368). -/
def execDiagResultWrite (d : Fin 256) (s : State) : Res :=
  let x := s.diag d.val
  if x.live && x.st == 3 then
    let (bytes, verdict) := s.diagResult x
    let s := (s.draw.2).draw.2.putDram (x.addr + 0x40) bytes
    .next (diagFinish d.val (s.setDiag d.val { x with st := 4, verdicts := verdict, result := bytes }))
  else .next s

end Sys2Proof.Machine
end

