-- ==== Sys2Proof/Machine/Tallies.lean ====
section
/-! DEFINITION. Tallies: what they count that no other part keeps, the frozen view (17 R451 to R459). -/

namespace Sys2Proof.Machine

open Sys2Proof

-- ---------------------------------------------------------------- tally counters that are not kept as words

/-- TS_WAIT: samples written to the queue of a port and not released (R453). -/
def State.tsWait (s : State) (n : Nat) : Nat := sumL (s.port n).queue (fun q => q.samples.length)

/-- The stream equation of a port (R451). -/
def State.streamOk (s : State) (n : Nat) : Bool :=
  let t (i : Nat) := s.wideAt (spTally n i)
  t 0 == t 1 + t 2 + t 3 + t 4 + t 5 + t 6 + BitVec.ofNat 48 (s.tsWait n)

/-- LEASE_TALLY of a flock: live channels, those with a holder, those with none (R454, R459). -/
def State.leaseWord (s : State) (f : Nat) : W :=
  let l := s.chansOfFlock f
  let held := (l.filter (fun c => (s.chan c).lease.holder.isSome)).length
  BitVec.ofNat 32 (l.length * 2 ^ 16 + held * 2 ^ 8 + (l.length - held))

/-- RESIDUE of a leg (R183). -/
def State.residueWord (s : State) (t : Nat) : W := BitVec.ofInt 32 (s.term t).residue

/-- TS_WAIT's address. -/
def tsWaitA (n : Nat) : Nat := aPort n + 0xA40

-- ---------------------------------------------------------------- the frozen view (R452)

/-- Addresses of the tally counters that a freeze latches (R452). A 48-bit counter is named by its LO word. -/
def isTally (a : Nat) : Bool :=
  if 0x100000 ≤ a ∧ a < 0x110000 then decide (0xA00 ≤ a % 0x1000 ∧ a % 0x1000 < 0xA44)
  else if 0x400000 ≤ a ∧ a < 0x1400000 then
    let o := (a - 0x400000) % 0x80000
    (decide (0x3000 ≤ o ∧ o < 0x3400) && (o % 0x40 == 0x0C || decide (0x18 ≤ o % 0x40 ∧ o % 0x40 < 0x30))) ||
      (decide (0x6080 ≤ o ∧ o < 0x6100) && (o % 0x20 == 0x10 || o % 0x20 == 0x14)) || o == 0x6450 || o == 0x6454 ||
      decide (0x7800 ≤ o ∧ o < 0x7904) ||
      (decide (0x70040 ≤ o ∧ o < 0x70050) && (a - 0x400000) / 0x80000 % 4 == 0)
  else decide (aFc + 0x100 ≤ a ∧ a < aFc + 0x180) || decide (aTal + 0x40 ≤ a ∧ a < aTal + 0x80) ||
    decide (aCol + 0x40 ≤ a ∧ a < aCol + 0x90) || a == fltWr

/-- The terminal whose on-time account or VS_UNCONF an address is. -/
def accountTerm (a : Nat) : Option Nat :=
  let o := (a - 0x400000) % 0x80000
  let f := (a - 0x400000) / 0x80000
  if a < 0x400000 ∨ 0x1400000 ≤ a then none
  else if 0x3000 ≤ o ∧ o < 0x3400 ∧ 0x18 ≤ o % 0x40 ∧ o % 0x40 < 0x30 then some (16 * f + (o - 0x3000) / 0x40)
  else if 0x7800 ≤ o ∧ o < 0x7900 then some (16 * f + (o - 0x7800) / 0x10)
  else none

/-- In modes 1 and 4 the accounts are kept at the channel's first terminal, and those of the others read 0 (R171). -/
def State.vsHidden (s : State) (a : Nat) : Bool :=
  match accountTerm a with
  | none => false
  | some t => s.accountOf t != t

/-- A 48-bit counter as it reads. -/
def State.wideView (s : State) (a : Nat) : BitVec 48 := if s.vsHidden a then 0 else s.wideAt a

/-- Put a word into a frozen view. -/
def Frozen.put (x : Frozen) (a : Nat) (v : W) : Frozen := { x with regs := tset (regReset a) x.regs a v }

/-- Every tally counter as it stands. -/
def State.tallyView (s : State) : Frozen :=
  let x : Frozen := { regs := s.regs.filter (fun e => isTally e.1), wide := s.wide.filter (fun e => isTally e.1 && !s.vsHidden e.1) }
  let x := forL (tkeys s.terms) (fun t x => x.put (modReg t 0x0C) (s.residueWord t)) x
  let x := forL (tkeys s.ports) (fun n x => x.put (tsWaitA n) (BitVec.ofNat 32 (s.tsWait n))) x
  forL (List.range 32) (fun f x => x.put (leaseTally f) (s.leaseWord f)) x

/-- TALLY_FREEZE: writing 1 to FREEZE requests a latch at the next B(j) at least 64 cc later (R452). -/
def execTallyFreeze (s : State) : Res :=
  .next { s.setReg talCtrl 1 with tal := { s.tal with freezePend := true } }

/-- TALLY_UNFREEZE: writing 0 to FREEZE returns the live view at once (R452). -/
def execTallyUnfreeze (s : State) : Res :=
  .next { s.setReg talCtrl 0 with tal := { s.tal with freezePend := false, frozen := none } }

end Sys2Proof.Machine
end

