-- ==== Sys2Proof/Machine/Frames.lean ====
section
/-! DEFINITION. The frame boundary B(j): release and slip, fates, run counts, bank writes, gated changes, injection values, the
output frames (03 R91, R99 to R103, 04 R108, R120 to R124, R128, 05 R134 to R141, 08 R241 to R243, 17 R453). -/

namespace Sys2Proof.Machine

open Sys2Proof

-- ---------------------------------------------------------------- release and slip (R95, R122 to R124)

/-- A slip of a port, class C0 (R126). -/
def slipEvt (s : State) : State := raise fcEvt (mkRep srcBell 0 4 0 0 0) s

/-- The Bellwether tracks this port, whose frames it then holds at BW_OFFSET (R120). -/
def State.held (s : State) (n : Nat) : Bool :=
  s.bell.mode == .tracking && s.selSrc == 3 && s.selPort == n && !s.bell.enterHold

/-- The frame a port releases at this boundary (R122); frames left when lock was lost drain one by one (R95). A port that the
Bellwether tracks never slips (R120). -/
def takeFrame (n : Nat) (s : State) : State × Option QFrame :=
  let p := s.port n
  let slips := p.st == .locked && !s.held n
  match p.queue with
  | [] =>
    if slips && p.relOnce then
      (slipEvt ((s.bump (slipRepeat n)).addWide (spTally n 7) (s.sampleSlots n).length), none)
    else (s, none)
  | a :: b :: r =>
    if slips then
      let s := slipEvt ((s.bump (slipDrop n)).addWide (spTally n 2) a.samples.length)
      (s.setPort n { p with queue := r, relOnce := true, dropEv := p.dropEv ++ a.samples }, some b)
    else (s.setPort n { p with queue := b :: r, relOnce := p.relOnce || p.st == .locked }, some a)
  | [a] => (s.setPort n { p with queue := [], relOnce := p.relOnce || p.st == .locked }, some a)

/-- Frames that stay in the queue are a frame older at the next boundary (R23). -/
def QFrame.wait (cc : Nat) (q : QFrame) : QFrame := { q with arrival := q.arrival + cc }

/-- Event bits of samples in their order (R123). -/
def eventsOf (n : Nat) (l : List QSample) (s : State) : State := forL l (fun q s => gateBits n q.slot q.ev s) s

/-- A tag fails at hop 2 (R149). -/
def tagFailed (fails : List (Fin 16 × Fin 32)) (n sl : Nat) : Bool := fails.any (fun x => x.1.val == n && x.2.val == sl)

/-- The fate of a released sample (R453). -/
def sampleFate (n : Nat) (fails : List (Fin 16 × Fin 32)) (q : QSample) (s : State) : State :=
  let i := if (s.bindsOfSlot n q.slot).isEmpty then 5 else if !q.valid then 4 else if tagFailed fails n q.slot then 6 else 3
  s.addWide (spTally n i) 1

/-- The status of a slot after a boundary (R91, R92): RUN restarts at a valid release, also of a frame that drains while the port is
not LOCKED (log 114); VALID tells of the last release. -/
def SlotSt.release (x : SlotSt) (counted released : Bool) (q : Option QSample) : SlotSt :=
  let ok := (q.map (·.valid)).getD false
  { x with run := if !counted || ok then 0 else min 0xFFFF (x.run + 1), valid := if released then ok else x.valid
           limHit := x.limHit && !ok && counted, relNow := q }

/-- A locked port whose ARRIVAL_CC lies close to a boundary (R121). -/
def State.nearEdgeOf (s : State) (n : Nat) : Bool :=
  let a := s.regField (spArrival n) 0 16
  let near := s.regField fcPhase 24 8
  (s.port n).st == .locked && (decide (a < near) || decide (s.frameCc < a + near))

/-- NEAR_EDGE at a boundary at which a port is close to one; its condition lasts while any port is close (R121). -/
def nearEdge (n : Nat) (s : State) : State :=
  let r := mkRep srcBell 0 5 0 0 0
  if s.nearEdgeOf n then holdLive r (raiseOnce fcEvt r s)
  else if s.causeLive r && (List.range 16).all (fun m => !s.nearEdgeOf m) then condEnd (fun x => x == r) s else s

/-- What one port does at B(j). -/
def portBoundary (fails : List (Fin 16 × Fin 32)) (n : Nat) (s : State) : State :=
  let held := s.held n
  let (s, fr) := takeFrame n s
  let l := (fr.map (·.samples)).getD []
  let s := match fr with
    | some f => s.setReg (spArrival n) (BitVec.ofNat 32 (if held then s.regField fcPhase 0 16 else f.arrival))
    | none => s
  let drops := (s.port n).dropEv
  let s := eventsOf n l (eventsOf n drops (s.updPort n (fun p => { p with dropEv := [], queue := p.queue.map (QFrame.wait s.openCc) })))
  let s := forL l (sampleFate n fails) s
  let x := s.port n
  let slots := (List.range 32).filter (fun sl => s.countedSlot n sl || decide (tget SlotSt.none x.slots sl ≠ SlotSt.none))
  let s := s.setPort n { x with slots := forL slots (fun sl t =>
    tupd SlotSt.none t sl (fun y => y.release (s.countedSlot n sl) fr.isSome (l.find? (fun q => q.slot == sl)))) x.slots }
  let s := liveEnd (fun r => r.source == srcPort n && r.cause == 5 && !s.runCause n r) s
  talCheck 0 (s.streamOk n) (nearEdge n s)

-- ---------------------------------------------------------------- injection values (R241, R242)

/-- A value limited to a 24-bit sample. -/
def sat24 (x : Int) : BitVec 24 := BitVec.ofInt 24 (satTo 24 x).1

/-- The second tap of a PRBS of order n. -/
def prbsTap (n : Nat) : Nat := match n with | 7 => 6 | 9 => 5 | 11 => 9 | 15 => 14 | _ => 18

/-- One step of a PRBS register, whose bit n − 1 is the output (log 21). -/
def prbsStep (n v : Nat) : Nat := v * 2 % 2 ^ n + (fieldN v (n - 1) 1 + fieldN v (prbsTap n - 1) 1) % 2

/-- The n-th free value of a sine source whose exact value is num / den: a whole number at most 2 steps from it (R241). -/
def sineNear (num : Int) (den n : Nat) : Int :=
  let lo := -floorDiv (2 * (den : Int) - num) den
  let hi := floorDiv (num + 2 * (den : Int)) den
  lo + ((Config.freeBits 8 n).toNat % (hi - lo + 1).toNat : Nat)

/-- Value k of an injection, where it is at hand (R241). A product with a window's value is rounded to nearest, ties away from zero, and
the sample saturates; a sweep starts at phase 0 (the model's choices, log 42). -/
def State.injValue (s : State) (x : Inj) : Option (BitVec 24) :=
  match x.src with
  | 2 => ((x.chunks.find? (fun c => c.1 == x.k / 256)).bind (fun c => c.2[x.k % 256]?)).map (fun v =>
      sat24 (roundDiv (x.amp * v.toInt) 32768))
  | 3 =>
    let y := sineTurns (sweepTurns x.p3.toNat x.p4.toNat x.p5.toNat s.frate x.k)
    some (sat24 (sineNear (x.amp * y) (2 ^ 52) s.free))
  | 4 =>
    let per := 2 ^ fld x.p3 0 5
    let ph (t : Nat × Int × Int) : Nat := ux 32 (((t.1 * x.k % per * (2 ^ 32 / per) : Nat) : Int) + t.2.2 * 65536)
    some (sat24 (sineNear (x.amp * x.tones.foldl (fun a t => a + t.2.1 * sineTurns (ph t)) 0) (2 ^ 67) s.free))
  | _ =>
    let n := fld x.p3 0 5
    some (sat24 (if fieldN x.prbs (n - 1) 1 = 1 then x.amp * 256 else -(x.amp * 256)))

/-- The injection after value k (R241). -/
def Inj.after (x : Inj) (v : BitVec 24) : Inj :=
  let n := fld x.p3 0 5
  { x with st := 2, k := x.k + 1, pos := x.k, last := v
           prbs := if x.src = 5 ∧ (x.k + 1) % max 1 (fld x.p4 0 5) = 0 then prbsStep n x.prbs else x.prbs }

/-- What injection i writes to its channel's INJ word at this boundary, if anything (R241, R242). -/
def injStep (i : Nat) (s : State) : State × Option (BitVec 24) :=
  let x := s.inj i
  let s := if x.st = 1 ∨ x.st = 3 then finishObj 0x0712 (6, i) stOk s else s
  let s := if x.stop then finishObj 0x0713 (6, i) stOk s else s
  if (x.st = 2 && (x.stop || (x.len != 0 && decide (x.len ≤ x.k)))) || x.zero then
    (s.setInj i { x with st := 3, stop := false, zero := false, chunks := [], last := 0 }, some 0)
  else if x.st = 1 && x.stop then (s.setInj i { x with st := 3, stop := false, chunks := [], last := 0 }, some 0)
  else if x.st = 1 || x.st = 2 then
    match s.injValue x with
    | some v => (s.draw.2.setInj i (x.after v), some v)
    | none =>
      let c := s.chan x.chan
      let t := c.adm.first
      let s := (s.bump (injReg t 8)).setInj i (x.after x.last)
      (raise (loopEvt t) (mkRep (srcFlock c.flock) 2 3 1 1 x.chan) s, some x.last)
  else (s.setInj i { x with stop := false }, none)

-- ---------------------------------------------------------------- input words (R134 to R138, R149)

/-- What a bound input is released at this boundary: its word where it is valid and its tag holds. -/
def State.bindWord (s : State) (fails : List (Fin 16 × Fin 32)) (b : Binding) : Option InWord :=
  match (tget SlotSt.none (s.port b.port).slots b.slot).relNow with
  | some q =>
    if q.valid && !tagFailed fails b.port b.slot then some { tag := tagOf q.sample (32 * b.port + b.slot), sample := q.sample } else none
  | none => none

/-- The release failed its tag. -/
def State.bindTagBad (s : State) (fails : List (Fin 16 × Fin 32)) (b : Binding) : Bool :=
  match (tget SlotSt.none (s.port b.port).slots b.slot).relNow with
  | some q => q.valid && tagFailed fails b.port b.slot
  | none => false

/-- The live binding of an input of a channel. -/
def State.bindOf (s : State) (ch w : Nat) : Option Nat := s.liveBinds.find? (fun i => (s.bind i).chan == ch && (s.bind i).input == w)

/-- One input word of a channel at B(j): the word and its FRESH bit. An input with no valid sample is written with its last word
(R138). -/
def inputWord (fails : List (Fin 16 × Fin 32)) (ch w : Nat) (old : Bank) (s : State) : State × InWord × Bool :=
  let c := s.chan ch
  match s.bindOf ch w with
  | some i =>
    let b := s.bind i
    match s.bindWord fails b with
    | some x => (s, x, true)
    | none =>
      let s := s.bump (intCnt c.flock 7)
      let s := if s.bindTagBad fails b then
          raise (intEvt c.flock) (mkRep (srcFlock c.flock) 0 2 1 1 ch) (s.bump (intCnt c.flock 0))
        else s
      (s, old.get w, false)
  | none =>
    match (if w = 2 then s.injOf ch else none) with
    | some i =>
      match injStep i s with
      | (s, some v) => (s, { tag := tagOf v 0x200, sample := v }, true)
      | (s, none) => (s, old.inj, false)
    | none => (s, emptyWord 0, false)

/-- Event bits of the sample that the set-point slot released. -/
def State.setpointEv (s : State) (ch : Nat) : Nat :=
  match s.bindOf ch 0 with
  | some i => (((tget SlotSt.none (s.port (s.bind i).port).slots (s.bind i).slot).relNow).map (·.ev)).getD 0
  | none => 0

/-- Hop 3 in the frame that ends, for R150. -/
def Inp.countFails (x : Inp) : Inp :=
  { x with failed := 0, good := 0
           failRun := (List.range 3).foldl (fun t w => tupd 0 t w (fun n =>
             if fieldN x.good w 1 = 1 then 0 else if fieldN x.failed w 1 = 1 then n + 1 else n)) x.failRun }

/-- The point of the injection object whose value this boundary wrote, 0 where it wrote none but its closing 0. -/
def State.injPointNow (s : State) (ch : Nat) : Nat :=
  match s.injOf ch with
  | some i => if (s.inj i).st = 2 then (s.inj i).point else 0
  | none => 0

/-- Bank j mod 2 of one channel is written (R137). A position with neither binding nor injection is not, and its bank is empty, also once
its last binding is removed (the model's choice, log 78). -/
def writeBank (fails : List (Fin 16 × Fin 32)) (ch : Nat) (s : State) : State :=
  let c := s.chan ch
  let j := s.bell.frame.toNat
  let fed := (s.injOf ch).isSome || [0, 1, 2].any (fun w => (s.bindOf ch w).isSome)
  let s := s.updChan ch (fun c => { c with inp := c.inp.countFails })
  let put (x : Bank) (s : State) : State := s.updChan ch (fun c =>
    { c with inp := if j % 2 = 0 then { c.inp with bank0 := x } else { c.inp with bank1 := x } })
  if !fed || c.st == .deleting then put Bank.none s
  else
    let old := if j % 2 = 0 then c.inp.bank1 else c.inp.bank0
    let (s, w0, f0) := inputWord fails ch 0 old s
    let (s, w1, f1) := inputWord fails ch 1 old s
    let (s, w2, f2) := inputWord fails ch 2 old s
    put (({ spt := w0, ffw := w1, inj := w2, frame := j % 256, fresh := b2n f0 + 2 * b2n f1 + 4 * b2n f2, stTag := 0
            ev := s.setpointEv ch, pt := s.injPointNow ch } : Bank).tagged) s

-- ---------------------------------------------------------------- zero crossings (R140 to R142)

/-- A crossing of a valid sample against the last valid one (R140). -/
def crosses (x : BitVec 24) (last : Option (BitVec 24)) : Bool :=
  x == 0 || (match last with
    | some y => decide ((x.toInt < 0 ∧ 0 < y.toInt) ∨ (0 < x.toInt ∧ y.toInt < 0))
    | none => false)

/-- The gated change of a channel at a boundary; `v` is the valid set-point sample released, `t` is T (R141). -/
def Chan.zcStep (c : Chan) (v : Option (BitVec 24)) (t : Nat) : Chan :=
  let hit := match v with | some x => crosses x c.zc.lastValid | none => false
  let c := { c with zc := { c.zc with prev := c.zc.eff, lastValid := if v.isSome then v else c.zc.lastValid } }
  match c.zc.ramp with
  | some r =>
    if r.step + 1 = 64 then landZc r.kind r.target { c with zc := { c.zc with ramp := none } }
    else
      let e := ((r.from_ : Int) + floorDiv (((c.zcTarget r.kind r.target : Int) - r.from_) * (r.step + 1 : Nat)) 64).toNat
      { c with zc := { c.zc with ramp := some { r with step := r.step + 1 }, eff := if c.starting then 0 else e } }
  | none =>
    if hit then c.landAll t
    else { c with zc := { c.zc with pend := c.zc.pend.map (fun x => { x with left := some (match x.left with | some n => n - 1 | none => t) }) } }

/-- Zero-crossing gating of one channel at B(j). -/
def zcBoundary (fails : List (Fin 16 × Fin 32)) (ch : Nat) (s : State) : State :=
  let v := (s.bindOf ch 0).bind (fun i => (s.bindWord fails (s.bind i)).map (·.sample))
  s.updChan ch (fun c => if c.st == .deleting then c else c.zcStep v (c.zc.ms * s.frate / 1000))

-- ---------------------------------------------------------------- the boundary (R108, R115)

/-- B(j) on the frame clock: the frame count, the boundary's place in pt, and the length of the new frame in 1/256 pt that the
fold timebases measure (R39, R108). -/
def openFrame (len : Nat) (s : State) : State :=
  let idle := s.pickEntry.isNone && !s.linkReady
  let len := s.frameLen len
  s.updBell (fun b =>
    let t := 256 * b.bPt + b.bFrac + b.len256
    let hold := b.mode == .holdover
    { b with frame := b.frame + 1, bPt := t / 256, bFrac := t % 256, len256 := len, freq := s.nextFreq len
             holdFp := if hold then b.holdFp + 1 else b.holdFp, noSrcFp := if hold && idle then b.noSrcFp + 1 else 0 })

/-- FRAME_BOUNDARY: B(j). `len` is the period of the frame that opens in 1/256 pt; `tagFails` the released slots that fail their tag at
hop 2. -/
def frameBoundary (len : Nat) (fails : List (Fin 16 × Fin 32)) (s : State) : State :=
  let s := unbindAtBoundary (openFrame len s)
  let s := each (List.range 16) (portBoundary fails) s
  let s := each s.liveChans (writeBank fails) s
  let s := each s.liveChans (zcBoundary fails) s
  let s := each (List.range 4) latchOut s.draw.2
  diagStarts (ftbAtBoundary (gatesAtBoundary s))

def execFrameBoundary (len : BitVec 32) (tagFails : List (Fin 16 × Fin 32)) (s : State) : Res :=
  .next (frameBoundary len.toNat tagFails s)

/-- FC_SETTINGS_APPLY: pending frame clock settings take effect at B(j) (R110, R128); a change of rate builds every table again
(R341). -/
def execFcSettingsApply (s : State) : Res :=
  let s' := applySettings s
  .next (if (s.frate, s.mLog2) = (s'.frate, s'.mLog2) then s' else rebuildAll s')

-- ---------------------------------------------------------------- output frames (R99, R101, R103)

/-- The status bytes 0 to 22 of a standard-mode slot: professional, 24 bits, no emphasis, the frame rate where AES3 has a code for
it (R103, log 20). -/
def stdStatus (frate : Nat) : Nat :=
  let (f0, f4) : Nat × Nat := match frate with
    | 32000 => (3, 0) | 44100 => (1, 0) | 48000 => (2, 0) | 88200 => (0, 10) | 96000 => (0, 2) | 176400 => (0, 11) | 192000 => (0, 3)
    | _ => (0, 0)
  1 + 4 + f0 * 64 + 44 * 2 ^ 16 + f4 * 8 * 2 ^ 32

/-- The status bytes 0 to 22 of a wide-mode slot (R83, R103). -/
def wideStatus (ncode slot id seq : Nat) (x : OSlot) : Nat :=
  0x03 + 0xA5 * 2 ^ 8 + (ncode * 64 + 1) * 2 ^ 16 + x.units * 2 ^ 24 + x.exp * 2 ^ 32 + slot * 2 ^ 40 + id * 2 ^ 48 + seq % 2 ^ 32 * 2 ^ 64

/-- Status with its CRCC in byte 23. -/
def withCrcc (v : Nat) : BitVec 192 := BitVec.ofNat 192 (v + crccOf (BitVec.ofNat 192 v) * 2 ^ 184)

/-- One slot as sent. In C4 a slot with SRC 3 carries the status word of now, every other one an invalid zero (R441). -/
def State.outSub (s : State) (n i : Nat) (z : Bool) (x : OSlot) : OSub :=
  let ctl := s.reg (soCtrl n)
  let st := if bitOf ctl 1 then wideStatus (fld ctl 8 2) i (s.regField (soId n) 0 16) ((s.out n).seq - 1) x else stdStatus s.frate
  let c := (withCrcc st).getLsbD (s.bell.frame.toNat % 192)
  if !s.col.c4 then { sample := x.sample, invalid := x.invalid, u := false, c, z }
  else if fld (s.reg (soSlot n i)) 28 4 = 3 then { sample := BitVec.ofNat 24 s.statusWord, invalid := false, u := false, c, z }
  else { sample := 0, invalid := true, u := false, c, z }

/-- OUTPUT_FRAME_SEND: 0.4 µs after B(j+1) a sending port starts the frame that carries the values latched at B(j); slot 0 carries Z
where the frame count is a multiple of 192 (R99). At a line rate outside its level no frame is sent (R70, log 115). -/
def execOutputFrameSend (n : Fin 4) (s : State) : Res :=
  if s.reg (soStat n.val) != 1 || !baudOk (bitOf (s.reg (soCtrl n.val)) 4) (64 * s.soN n.val * s.frate) 1 then .next s
  else
    let z := s.bell.frame.toNat % 192 == 0
    let o := s.out n.val
    let s := s.setOut n.val { o with seq := if z then o.seq + 1 else o.seq }
    let l := (List.range (s.soN n.val)).map (fun i =>
      s.outSub n.val i (z && i == 0) (o.due.getD i { sample := 0, invalid := true, units := 0, exp := 0, model := none }))
    .next (s.setOut n.val { s.out n.val with sent := l })

end Sys2Proof.Machine
end

