-- ==== Sys2Proof/Machine/Host.lean ====
section
/-! DEFINITION. The host interface: rings, credits, completions, host reset, interrupts, BAR2 (20). -/

namespace Sys2Proof.Machine

open Sys2Proof

/-- A host event of the endpoint (R521). -/
def hostEvent (bit cls : Nat) (s : State) : State := raise hostEvt (mkRep srcPcie 0 bit cls 0 0) s

-- ---------------------------------------------------------------- rings and credits (R511, R512, R455)

def State.ringOn (s : State) (r : Nat) : Bool := bitOf (s.reg (ringCtrl r)) 0
def State.ringHalted (s : State) (r : Nat) : Bool := bitOf (s.reg (ringCtrl r)) 1

/-- S, the entries of each queue of a ring. -/
def State.ringS (s : State) (r : Nat) : Nat := 2 ^ s.regField (ringSize r) 0 4

/-- Credits the block holds, and the free credits (R512). -/
def State.heldCr (s : State) (r : Nat) : Nat := (s.reg (sqTail r) - s.reg (cqTail r)).toNat
def State.freeCr (s : State) (r : Nat) : Nat :=
  s.ringS r - s.heldCr r - (s.reg (cqTail r) - s.reg (cqHead r)).toNat

/-- The credit tally of a ring (R451): what the block holds of an enabled ring; all of a ring that was disabled has returned (R503,
R516). -/
def State.creditOk (s : State) (r : Nat) : Bool :=
  let out := s.reg (crGranted r) - s.reg (crReturned r)
  if s.ringOn r then out == s.reg (sqTail r) - s.reg (cqTail r) && decide (s.heldCr r ≤ s.ringS r) else out == 0

/-- DOORBELL: a write of v to the doorbell of a ring (R512). -/
def execDoorbell (r : Fin 8) (v : W) (s : State) : Res :=
  let n := fld v 0 13
  let ok := s.ringOn r.val && !s.ringHalted r.val && decide (1 ≤ n ∧ n ≤ s.freeCr r.val)
  let s := if ok then (s.addReg (sqTail r.val) n).addReg (crGranted r.val) n else hostEvent 2 0 s
  .next (talCheck 3 (s.creditOk r.val) s)

/-- COMMAND_FETCH: the next announced entry of its ring is fetched as host memory holds it (R513). -/
def execCommandFetch (e : CmdEntry) (s : State) : Res :=
  let r := e.ring.val
  if s.ringOn r && !s.ringHalted r && s.reg (sqFetch r) != s.reg (sqTail r) then
    .next ((s.bump (sqFetch r)).updRing r (fun x => { x with fetched := x.fetched ++ [e] }))
  else .next s

/-- Whether a command accepted before has not completed (R296). -/
def State.anyInProgress (s : State) : Bool :=
  !s.svc.inProg.isEmpty || s.svc.defer.any (fun d => match d with | .command _ _ _ => true | _ => false)

/-- COMMAND_TAKE: the service core takes the next command in ring turn, with the DRAM block it names; none before PHASE 6, none
while another is taken, and at its turn a BARRIER waits for every command accepted before (R294, R296, R485, R509). An entry whose OPCODE
is in no table is refused at once (R291). -/
def execCommandTake (s : State) : Res :=
  if s.boot.phase != 6 || s.svc.taken.isSome then .next s
  else
    match ((List.range 8).map (fun i => (s.svc.lastRing + 1 + i) % 8)).find? (fun r => !(s.ring r).fetched.isEmpty) with
    | none => .next s
    | some r =>
      match (s.ring r).fetched with
      | [] => .next s
      | e :: rest =>
        if bitOf e.word0 8 && s.anyInProgress then .next s
        else
          let s := (s.updRing r (fun x => { x with fetched := rest })).updSvc (fun v => { v with lastRing := r })
          if (nopsOf (opcodeOf e)).isNone then .next (refuse e stState 0xF0 s)
          else .next (s.updSvc (fun v => { v with taken := some e, takenBlk := s.readBlock e }))

/-- The four words of a completion entry of a ring (R289). -/
def Compl.words (c : Compl) (r : Nat) : List W :=
  [BitVec.ofNat 32 (c.opcode % 65536 * 65536 + r % 8 * 256 + c.status % 256), c.cookie, c.result,
   BitVec.ofNat 32 (c.check % 256 * 2 ^ 24 + c.rule % 256 * 65536 + c.index % 65536)]

/-- COMPLETION_WRITE: the oldest completion of a ring is written, and its credit returns; one whose queue can no longer be written is
discarded (R455, R514, R516, R518). -/
def execCompletionWrite (r : Fin 8) (s : State) : Res :=
  let x := s.ring r.val
  match x.done with
  | [] => .next s
  | c :: rest =>
    if x.lost then .next (s.setRing r.val { x with done := rest })
    else
      let n := (s.reg (cqTail r.val)).toNat % s.ringS r.val
      let s := s.setRing r.val { x with done := rest, cq := tset [] x.cq n (c.words r.val) }
      let s := (s.bump (cqTail r.val)).bump (crReturned r.val)
      let s := talCheck 3 (s.creditOk r.val) s
      .next (if c.irq then sendMsg r.val s else s)

/-- CQ_HEAD_WRITE (R514). -/
def execCqHeadWrite (r : Fin 8) (v : W) (s : State) : Res :=
  let h := s.reg (cqHead r.val)
  if (v - h).toNat ≤ (s.reg (cqTail r.val) - h).toNat then .next (s.setReg (cqHead r.val) v) else .next (hostEvent 5 0 s)

/-- RING_ENABLE: setting ENABLE clears the four counters (R515). -/
def execRingEnable (r : Fin 8) (s : State) : Res :=
  if s.ringOn r.val then .next s
  else
    let s := each [sqTail r.val, sqFetch r.val, cqTail r.val, cqHead r.val] (fun a s => s.setReg a 0) s
    .next ((s.setReg (ringCtrl r.val) 1).updRing r.val (fun x => { x with fetched := [], done := [], lost := false }))

/-- Every credit held for a ring returns, and no completion of a command of it returns one again (R503, R516). -/
def returnCredits (r : Nat) (s : State) : State :=
  let s := s.addReg (crReturned r) (s.heldCr r)
  let s := s.updRing r (fun x => { x with fetched := [], done := [] })
  s.updSvc (fun v =>
    let gone := (v.taken.map (fun e => e.ring.val == r)).getD false
    { v with
      taken := if gone then none else v.taken
      takenBlk := if gone then [] else v.takenBlk
      inProg := v.inProg.map (fun p => if p.entry.ring.val == r then { p with silent := true } else p)
      defer := v.defer.map (fun d => match d with
        | .command e b q => .command e b (q || e.ring.val == r)
        | d => d) })

/-- RING_DISABLE: clearing ENABLE; ignored while the block holds credits of a ring that is not halted (R515, R516). -/
def execRingDisable (r : Fin 8) (s : State) : Res :=
  if !s.ringOn r.val then .next s
  else if s.heldCr r.val != 0 && !s.ringHalted r.val then .next (hostEvent 5 0 s)
  else
    let s := if s.ringHalted r.val then returnCredits r.val s else s
    .next (s.setReg (ringCtrl r.val) 0)

/-- RING_DMA_FAILURE: the ring halts, one halted already reporting the further failure too; `canWrite` says whether its completion queue can still be written (R516). -/
def execRingDmaFailure (r : Fin 8) (canWrite : Bool) (s : State) : Res :=
  if !s.ringOn r.val then .next s
  else .next (hostEvent 3 1 ((s.updReg (ringCtrl r.val) (fun w => setBit w 1)).updRing r.val (fun x => { x with lost := x.lost || !canWrite })))

/-- What a host reset does (R503, R522): rings go off with their credits returned, commands not accepted are discarded, the MSI-X
table is cleared. -/
def hostReset (s : State) : State :=
  let s := each (List.range 8) (fun r s =>
    let s := if s.ringOn r then returnCredits r s else s
    s.clearRegs (fun a => decide (ringCtrl r ≤ a ∧ a < ringCtrl r + 0x18))) s
  let s := s.updSvc (fun v => { v with taken := none, takenBlk := [] })
  hostEvent 0 0 { s with host := { s.host with msixTable := [], msixPba := 0 } }

/-- HOST_RESET: a function-level reset, a hot reset, or the link or, `pclk`, PCLK lost, which is CLOCK_LOST in class C1 too (R40,
R503). -/
def execHostReset (pclk : Bool) (s : State) : Res :=
  let s := hostReset s
  .next (if pclk then holdLive (mkRep srcClock 15 3 1 0 0) (raiseOwn srcClock 3 1 0 0 s) else s)

/-- PCIE_LINK_TRAINED: the link has trained; MOD_CAP shows WIDTH 1, 2 or 4 by 2 ^ `width` and SPEED (R485, R502, R521). -/
def execPcieLinkTrained (width : Fin 3) (speed : Fin 3) (s : State) : Res :=
  .next ((s.setField modCap 8 8 (2 ^ width.val)).setField modCap 4 4 (speed.val + 1))

-- ---------------------------------------------------------------- interrupts (R518)

/-- INT_ACK_WRITE: a further message for each bit of 15 to 8 written 1 whose vector still pends. -/
def execIntAckWrite (v : W) (s : State) : Res :=
  .next (each ((List.range 8).map (· + 8)) (fun i s =>
    if bitOf v i && fieldN s.host.summary i 1 == 1 then sendMsg i s else s) s)

/-- A word of the MSI-X table: every vector is masked at reset. -/
def msixReset (i : Nat) : W := if i % 4 = 3 then 1 else 0

/-- A write to the MSI-X table; a vector that is unmasked sends its pending message. -/
def msixWrite (i : Nat) (v : W) (s : State) : State :=
  let s := { s with host := { s.host with msixTable := tset (msixReset i) s.host.msixTable i v } }
  let m := BitVec.ofNat 16 (2 ^ (i / 4))
  if i % 4 = 3 && !bitOf v 0 && (s.host.msixPba &&& m) != 0 then
    { s with host := { s.host with msixPba := s.host.msixPba &&& ~~~m, msgs := s.host.msgs ++ [i / 4] } }
  else s

-- ---------------------------------------------------------------- BAR2 (R508, R510)

/-- BAR2_READ: data of DRAM, in a poisoned TLP where the read meets an uncorrectable error. -/
def execBar2Read (addr : BitVec 30) (len : Nat) (uncorrectable : Bool) (s : State) : Res :=
  if dramSize < addr.toNat + len then .fault .outsideDram
  else
    let s' := { s with host := { s.host with bar2Resp := some (s.dramBytes addr.toNat len, uncorrectable) } }
    .next (if uncorrectable then hostEvent 4 1 s' else s')

/-- BAR2_WRITE: a write that touches the capture pool is ignored (R508). -/
def execBar2Write (addr : BitVec 30) (data : List (BitVec 8)) (s : State) : Res :=
  if dramSize < addr.toNat + data.length then .fault .outsideDram
  else if capBase < addr.toNat + data.length then .next (hostEvent 1 0 s)
  else .next (s.putDram addr.toNat data)

/-- DRAM_UNCORRECTABLE: the DRAM controller reports, whoever the reader (R510). -/
def execDramUncorrectable (s : State) : Res := .next (raiseOwn srcDram 10 1 0 0 s)

end Sys2Proof.Machine
end

