-- ==== Sys2Proof/Machine/Images.lean ====
section
/-! DEFINITION. Images: layout, structural rules, worst-case count, instruction stores, the verification of signed objects, LOAD and
MODEL.LOAD (09 R281 to R286, 18 R463 to R466, 10 R304). -/

namespace Sys2Proof.Machine

open Sys2Proof

-- ---------------------------------------------------------------- structural rules of one word (R258 to R260, R265, R271)

/-- Bits [25:0] that an opcode's fields use (R258, R260); none for a reserved opcode. -/
def opFields (op : Nat) : Option Nat :=
  match op with
  | 0x00 => some 0 | 0x01 => some 0 | 0x02 => some 0x03E0FFFF | 0x03 => some 0x00E0FFFF | 0x04 => some 0x00E0FFFF
  | 0x05 => some 0x03FF0000 | 0x06 => some 0x03E00000 | 0x07 => some 0
  | 0x08 => some 0x03FCFFFF | 0x09 => some 0x03FCFFFF | 0x0A => some 0x007CFFFF | 0x0B => some 0x007CFFFF
  | 0x10 => some 0x03FFF800 | 0x11 => some 0x03FFF800 | 0x12 => some 0x03FFFFFF | 0x13 => some 0x03FF0000 | 0x14 => some 0x03FF0000
  | 0x15 => some 0x03FFF800 | 0x16 => some 0x03FFF800 | 0x17 => some 0x03FFF800 | 0x18 => some 0x03FFF800 | 0x19 => some 0x03FFF800
  | 0x1A => some 0x03FFFFFF | 0x1B => some 0x03FF000F | 0x1C => some 0x03FF000F | 0x1D => some 0x001FF800 | 0x1E => some 0x001FFFFF
  | 0x1F => some 0x03FFF80F
  | 0x20 => some 0x030FFC00 | 0x21 => some 0x030FFC00 | 0x22 => some 0x030FFC00 | 0x23 => some 0x030FFFE0 | 0x24 => some 0x030FFFE0
  | 0x25 => some 0x03F00000 | 0x26 => some 0x03F00000 | 0x27 => some 0x030F8000 | 0x28 => some 0x00CF8000 | 0x29 => some 0x03C0001F
  | 0x2A => some 0x03C07C00 | 0x2B => some 0x03C00003 | 0x2C => some 0x00F00000 | 0x2D => some 0x03F0000F | 0x2E => some 0x00CF801F
  | 0x2F => some 0x00FF8001 | 0x30 => some 0x00CFFC00 | 0x31 => some 0x03000000
  | 0x32 => some 0 | 0x33 => some 0 | 0x34 => some 0x001F0000 | 0x35 => some 0x001F0000 | 0x36 => some 0x001FF800
  | 0x38 => some 0x00600000 | 0x39 => some 0x03E000FF | 0x3A => some 0x03E000FF | 0x3B => some 0x00600000 | 0x3C => some 0x03E00000
  | 0x3D => some 0x03E00000 | 0x3E => some 0x03F000FF | 0x3F => some 0x03C000FF
  | _ => none

/-- Rule 1: a reserved opcode, a field marked 0 or unused that is not 0, a field out of its range. -/
def breaks1 (w : W) : Bool :=
  match opFields (opField w) with
  | none => true
  | some m => (w &&& BitVec.ofNat 32 (0x03FFFFFF - m)) != 0 || (opField w == 0x2E && decide (24 < fMisc w))

/-- A recorded ERR. -/
def isRec (w : W) : Bool := opField w == 0x2F && fMisc w % 2 == 1

/-- Rule 2: an instruction outside its kind of image (R271). -/
def breaks2 (kind : Nat) (w : W) : Bool :=
  let op := opField w
  if kind = 1 then op == 0x35 || op == 0x36
  else [0x38, 0x3A, 0x3B, 0x3D, 0x33, 0x32, 0x34].contains op || isRec w

/-- Rule 9: a source of SIN or FFW that R265 does not name, or one whose destination is not what R265 requires. -/
def breaks9 (w : W) : Bool :=
  let s := fSrc w
  match opField w with
  | 0x39 => decide (7 < s) || (decide (s ≤ 1) && decide (3 < fD w))
  | 0x3A => decide (2 < s) || (s == 0 && decide (3 < fD w))
  | _ => false

/-- Rule 10: a reserved condition code (R259). -/
def breaks10 (w : W) : Bool :=
  match opField w with
  | 0x1F => decide (10 < fFn w % 16)
  | 0x2D => decide (10 < fMisc w % 16)
  | 0x3F => decide (10 < fCond w)
  | _ => false

-- ---------------------------------------------------------------- structure of an image (R272 to R274, R284)

/-- LOOPs of an image: index, first and last index of the body, passes. -/
def loopsOf (ws : List W) : List (Nat × Nat × Nat × Nat) :=
  ws.zipIdx.filterMap (fun x => if opField x.1 = 0x3E then some (x.2, x.2 + 1, x.2 + fLen x.1, fN x.1) else none)

/-- Spans of SKP: index, first and last index covered. -/
def spansOf (ws : List W) : List (Nat × Nat × Nat) :=
  ws.zipIdx.filterMap (fun x => if opField x.1 = 0x3F then some (x.2, x.2 + 1, x.2 + fLen x.1) else none)

/-- LOOPs whose body holds an index. -/
def around (ls : List (Nat × Nat × Nat × Nat)) (i : Nat) : List (Nat × Nat × Nat × Nat) :=
  ls.filter (fun l => decide (l.2.1 ≤ i ∧ i ≤ l.2.2.1))

/-- Rule 4 of one LOOP (R272). -/
def loopBad (n : Nat) (ls : List (Nat × Nat × Nat × Nat)) (l : Nat × Nat × Nat × Nat) : Bool :=
  let outer := around ls l.1
  decide (l.2.2.1 < l.2.1) || decide (n < l.2.2.1 + 2) || decide (2 ≤ outer.length) || outer.any (fun o => decide (o.2.2.1 < l.2.2.1))

/-- Rule 5 of one SKP (R273). -/
def spanBad (n : Nat) (ls : List (Nat × Nat × Nat × Nat)) (p : Nat × Nat × Nat) : Bool :=
  let a := p.2.1
  let b := p.2.2
  decide (b < a) || decide (n < b + 2) || ls.any (fun l => decide (a ≤ l.1 ∧ l.1 ≤ b)) ||
    ls.any (fun l => !(decide (b < l.2.1) || decide (l.2.2.1 < a) || decide (l.2.1 ≤ a ∧ b ≤ l.2.2.1)))

/-- An index lies in a LOOP body or a SKP span. -/
def covered (ls : List (Nat × Nat × Nat × Nat)) (sp : List (Nat × Nat × Nat)) (i : Nat) : Bool :=
  !(around ls i).isEmpty || sp.any (fun p => decide (p.2.1 ≤ i ∧ i ≤ p.2.2))

/-- Worst-case count (R274). -/
def wccOf (ws : List W) : Nat :=
  let ls := loopsOf ws
  sumL ws.zipIdx (fun x => (if opField x.1 = 0x30 then 16 else 1) * (around ls x.2).foldl (fun n l => n * l.2.2.2) 1)

def leastIdx (l : List Nat) : Option Nat :=
  l.foldl (fun m i => match m with | none => some i | some x => some (min x i)) none

def indexOf (p : W → Bool) (ws : List W) : List Nat := ws.zipIdx.filterMap (fun x => if p x.1 then some x.2 else none)

/-- What breaks rule `r` of R284: the index of the first instruction, 0xFFFF where none alone breaks it (R283). An OUT or HLD
inside a body or span breaks rule 6 where every one of the image does. -/
def ruleBreak (kind wcc : Nat) (ws : List W) (r : Nat) : Option Nat :=
  let n := ws.length
  let ls := loopsOf ws
  let sp := spansOf ws
  let inside := covered ls sp
  let first (p : W → Bool) : Option Nat := leastIdx (indexOf p ws)
  match r with
  | 1 => first breaks1
  | 2 => first (breaks2 kind)
  | 3 =>
    let ends := indexOf (fun w => opField w == 0x01) ws
    match leastIdx (ends.filter (fun i => i + 1 != n)) with
    | some i => some i
    | none => if ends.isEmpty then some 0xFFFF else none
  | 4 => leastIdx ((ls.filter (loopBad n ls)).map (·.1))
  | 5 => leastIdx ((sp.filter (spanBad n ls)).map (·.1))
  | 6 =>
    if kind != 1 then none
    else
      let lse := indexOf (fun w => opField w == 0x32) ws
      let outs := indexOf (fun w => opField w == 0x3D || opField w == 0x33) ws
      let bad := (lse.drop 1).take 1 ++ lse.filter inside ++ (if outs.all inside then outs.take 1 else [])
      match leastIdx bad with
      | some i => some i
      | none => if lse.isEmpty || outs.isEmpty then some 0xFFFF else none
  | 7 =>
    let e := indexOf isRec ws
    leastIdx ((e.drop 1).take 1 ++ e.filter inside)
  | 8 => if wccOf ws != wcc || decide (4095 < wccOf ws) then some 0xFFFF else none
  | 9 => first breaks9
  | _ => first breaks10

/-- Check 6 of R283: RULE and INDEX where the image fails it. -/
def check6 (want kind wcc : Nat) (ws : List W) : Option (Nat × Nat) :=
  if kind != want then some (0, 0)
  else (List.range 10).findSome? (fun r => (ruleBreak kind wcc ws (r + 1)).map (fun i => (r + 1, i)))

-- ---------------------------------------------------------------- layout (R281)

/-- A little-endian field of a byte string. -/
def bytesAt (b : List (BitVec 8)) (off n : Nat) : Nat := leVal ((b.drop off).take n)

def zeroAt (b : List (BitVec 8)) (off n : Nat) : Bool := ((b.drop off).take n).all (· == 0)

/-- Check 5 of R283. -/
def layoutOk (b : List (BitVec 8)) : Bool :=
  let n := bytesAt b 8 2
  bytesAt b 0 4 == 0x4C544149 && bytesAt b 4 2 == 1 && decide (2 ≤ n ∧ n ≤ 4096) && bytesAt b 0x0C 2 % 4 == 0 &&
    zeroAt b 0x0E 2 && zeroAt b 0x18 8 && b.length == 0x20 + 4 * n + 128

/-- The initial coefficient block of std-galvo: gains 0, both notches passing the signal unchanged (R248). -/
def galvoCoefs (c : Bytes) : Bool :=
  [0, 1, 2, 4, 9, 10].all (fun w => bytesAt c (4 * w) 4 == 0) &&
    (List.range 10).all (fun i => bytesAt c (4 * (12 + i)) 4 == if i % 5 = 0 then 0x4000 else 0)

/-- An image may be one of Dwentora's (R551): its WCC, STATE_BYTES and COEF_INIT are theirs, as far as the spec gives them. -/
def listingFits (b : List (BitVec 8)) (std : Fin 3) : Bool :=
  let wcc := bytesAt b 0x0A 2
  let st := bytesAt b 0x0C 2
  match bytesAt b 6 2, std.val with
  | 1, 1 => wcc == 410 && st == 96 && galvoCoefs (b.drop (0x20 + 4 * bytesAt b 8 2))
  | 1, 2 => decide (16 ≤ st)
  | 2, 1 => wcc == 1224
  | _, _ => false

/-- Bytes of a digest or key, byte 0 in the lowest bits (R479). -/
def digestOf (b : Bytes) : BitVec 384 := BitVec.ofNat 384 (leVal (sha384Bytes b))

/-- The image that a plaintext body spells. -/
def imageOf (b : List (BitVec 8)) (slot : Nat) (std : Fin 3) : Image :=
  let n := bytesAt b 8 2
  { kind := bytesAt b 6 2, id := BitVec.ofNat 32 (bytesAt b 0x10 4), version := BitVec.ofNat 32 (bytesAt b 0x14 4), slot
    wcc := bytesAt b 0x0A 2, stateBytes := bytesAt b 0x0C 2
    words := (List.range n).map (fun i => BitVec.ofNat 32 (bytesAt b (0x20 + 4 * i) 4))
    coef := (List.range 32).map (fun i => BitVec.ofNat 32 (bytesAt b (0x20 + 4 * n + 4 * i) 4))
    hash := digestOf b, std := if listingFits b std then std.val else 0 }

-- ---------------------------------------------------------------- signed objects (R460, R463 to R465)

/-- The private identity key, which nothing shows, and its public key (R460). -/
def identityPriv : Nat := Config.identityKey.toNat % (ecN - 1) + 1
def identityPublic : Bytes := ecPublic identityPriv

/-- MODULE_ID (R460). -/
def moduleId : Nat := (digestOf identityPublic).toNat % 2 ^ 64

/-- Count of a rollback slot, burns in progress at the count they raise it to (R478). -/
def State.rollbackOf (s : State) (slot : Nat) : Nat :=
  s.sec.burns.foldl (fun m b => if b.slot = slot then max m b.version else m) (tget 0 s.sec.rollback slot)

/-- Body and signature block of a signed object (R463). -/
def objBody (o : Bytes) : Bytes := o.take (o.length - 736)
def objBlock (o : Bytes) : Bytes := o.drop (o.length - 736)

/-- Fields of a signature block, and the digest of its BUILDER_KEY. -/
structure SigBlock where
  enc : Bool
  advance : Bool
  commission : Bool
  slot : Nat
  key : BitVec 384
  deriving DecidableEq, Repr

def sigBlockOf (o : Bytes) : SigBlock :=
  let k := objBlock o
  let fl := bytesAt k 8 2
  { enc := fl % 2 == 1, advance := fl / 2 % 2 == 1, commission := fl / 4 % 2 == 1, slot := bytesAt k 0x0A 1
    key := digestOf ((k.drop 0x30).take 97) }

/-- Step 1 of R465 for an object whose OBJECT is `obj`, but for where it lies. -/
def blockOk (o : Bytes) (obj : Nat) : Bool :=
  let k := objBlock o
  let enc := bytesAt k 8 2 % 2 == 1
  let nkey := bytesAt k 0x0B 1
  decide (736 ≤ o.length) && bytesAt k 0 4 == 0x57474953 && bytesAt k 4 2 == 1 && bytesAt k 6 2 == obj &&
    bytesAt k 0x0C 4 + 736 == o.length && decide (bytesAt k 8 2 < 8) && zeroAt k 0x2C 4 && zeroAt k 0xF2 14 &&
    decide (bytesAt k 0x0A 1 ≤ 15 ∧ nkey ≤ 8) && zeroAt k (0x100 + 48 * nkey) (48 * (8 - nkey)) &&
    (enc || (nkey == 0 && zeroAt k 0x10 28 && zeroAt k 0x91 97))

/-- Step 2 of R465: the key of the block, with commissioning by R462. -/
def State.builderOk (s : State) (b : SigBlock) (obj : Nat) : Bool :=
  match s.sec.builderHash with
  | some h => h == b.key && !b.commission
  | none => obj == 2 && b.commission

/-- Step 3 of R465: SIG verifies under BUILDER_KEY over the digest of bytes 0x000 to 0x27F and the body as stored (R463). -/
def sigVerifies (o : Bytes) : Bool :=
  let k := objBlock o
  ecdsaVerify ((k.drop 0x30).take 97) (sha384 (k.take 0x280 ++ objBody o)) ((k.drop 0x280).take 96)

/-- The content key of an encrypted object: an entry with this module's MODULE_ID unwraps (R464, R465 step 5). -/
def contentKey (o : Bytes) : Option Bytes :=
  let k := objBlock o
  (ecdh identityPriv ((k.drop 0x91).take 97)).bind (fun z =>
    (List.range (bytesAt k 0x0B 1)).findSome? (fun i =>
      if bytesAt k (0x100 + 48 * i) 8 = moduleId then
        keyUnwrap (hkdf32 z (leBytes 8 moduleId) []) ((k.drop (0x108 + 48 * i)).take 40)
      else none))

/-- The plaintext body; none where step 5 of R465 fails. -/
def plainBody (o : Bytes) : Option Bytes :=
  let k := objBlock o
  let iv := (k.drop 0x10).take 12
  if !(sigBlockOf o).enc then some (objBody o)
  else (contentKey o).bind (fun key =>
    if (gcmTag key iv (k.take 16) (objBody o)).toNat = beVal ((k.drop 0x1C).take 16) then some (gcmCrypt key iv (objBody o)) else none)

/-- Steps 3 to 5 of R465: the plaintext body where they pass. -/
def State.openBody (s : State) (o : Bytes) (obj : Nat) : Option Bytes :=
  let slot := (sigBlockOf o).slot
  let off := if obj = 1 then 0x14 else 0x08
  if sigVerifies o && (slot == 15) == (obj == 2) then
    (plainBody o).bind (fun b =>
      if off + 4 ≤ b.length ∧ bytesAt b off 4 ≤ 255 ∧ s.rollbackOf slot ≤ bytesAt b off 4 then some b else none)
  else none

def State.sigBlock (s : State) (a len : Nat) : SigBlock := sigBlockOf (s.dramBytes a len)

/-- Steps 1 to 5 of R465 for an object of `len` bytes at DRAM address a, its OBJECT `obj`: its plaintext body where they pass. -/
def State.verifyObject (s : State) (a len obj : Nat) : Option Bytes :=
  let o := s.dramBytes a len
  if inImages a len && blockOk o obj && s.builderOk (sigBlockOf o) obj then s.openBody o obj else none

-- ---------------------------------------------------------------- security events and burns (R461, R466, R479)

/-- A command stays in progress until its burn has ended (R466). -/
def markProg (op : Nat) (o : Nat × Nat) (f : Prog → Prog) (s : State) : State :=
  s.updSvc (fun v => { v with inProg := v.inProg.map (fun x => if opcodeOf x.entry == op && x.obj == some o then f x else x) })

/-- An object with ADVANCE raises the counter of its slot (R466): ROLLBACK_RAISED comes with the end of the burn, at once where the
counter is at VERSION and no fuse is to burn. -/
def startBurn (b : SigBlock) (ver op : Nat) (o : Nat × Nat) (s : State) : State :=
  if !b.advance then s
  else if ver ≤ tget 0 s.sec.rollback b.slot then secEvent 3 s
  else
    markProg op o (fun x => { x with burning := true })
      (s.updSec (fun x => { x with burns := x.burns ++ [{ slot := b.slot, version := ver, op, obj := o }] }))

/-- Complete a command that waits for both its own moment and its burn, when both have passed. -/
def finishReady (op : Nat) (o : Nat × Nat) (s : State) : State :=
  if s.svc.inProg.any (fun x => opcodeOf x.entry == op && x.obj == some o && x.ready && !x.burning) then finishObj op o stOk s else s

/-- ROLLBACK_BURN: the burn of a slot ends. `got` is the count read back where 3 attempts did not verify (R461). -/
def execRollbackBurn (slot : Fin 16) (got : Option (BitVec 8)) (s : State) : Res :=
  match s.sec.burns.find? (fun b => b.slot == slot.val) with
  | none => .next s
  | some b =>
    let n := match got with | some x => x.toNat | none => b.version
    let s := s.updSec (fun x => { x with burns := x.burns.erase b, rollback := tset 0 x.rollback slot.val (max (tget 0 x.rollback slot.val) n) })
    let s := secEvent 3 (if got.isSome then secEvent 5 s else s)
    .next (finishReady b.op b.obj (markProg b.op b.obj (fun x => { x with burning := false }) s))

-- ---------------------------------------------------------------- instruction stores (R285, R286)

/-- Index of a held image equal to this one, or the next index in order of first load (R474). -/
def State.imageIx (s : State) (x : Image) : Nat :=
  match (tkeys s.images).find? (fun i => s.image i == x) with
  | some i => i
  | none => (tkeys s.images).foldl (fun m i => max m (i + 1)) 1

/-- Distinct images of a loop engine, by flock and position. -/
def State.imagesOn (s : State) (f pos : Nat) : List Nat :=
  ((s.chansOfFlock f).filterMap (fun ch =>
    let c := s.chan ch
    if c.adm.engA = pos ∨ c.adm.engB = pos then c.loop.img else none)).eraseDups

def State.storeUsed (s : State) (l : List Nat) : Nat := sumL l (fun i => (s.image i).words.length)

/-- Check 9 of R283 for one engine: the image is held already, or it fits beside what the load does not free. -/
def State.storeRoom (s : State) (f pos ch : Nat) (x : Image) : Bool :=
  let held := s.imagesOn f pos
  let own := (s.chan ch).loop.img
  let others := (s.chansOfFlock f).any (fun i => i != ch && ((s.chan i).adm.engA == pos || (s.chan i).adm.engB == pos) && (s.chan i).loop.img == own)
  let kept := held.filter (fun i => some i != own || others)
  held.any (fun i => s.image i == x) || decide (s.storeUsed kept + x.words.length ≤ 16384)

/-- Images in use by a channel, a model engine or a run. -/
def State.imageUsed (s : State) (i : Nat) : Bool :=
  s.liveChans.any (fun ch => (s.chan ch).loop.img == some i) ||
    (tkeys s.mengs).any (fun f => (s.meng f).img == some i || (s.meng f).next == some i) || (tkeys s.runs).any (fun e => (s.run e).live && !(s.run e).cover && (s.run e).img == i)

/-- An image's words are freed when nothing uses it (R286). -/
def dropImages (s : State) : State := { s with images := tdrop s.images (fun i => !s.imageUsed i) }

-- ---------------------------------------------------------------- LOAD (R283, R285)

/-- A refusal of check 6 carries RULE and INDEX (R289). -/
def refuseRule (e : CmdEntry) (r : Nat × Nat) (s : State) : State := complete e stState 0 6 r.1 r.2 s

/-- An engine that holds a program and is in service runs; one that holds none is halted (R35). -/
def engineOn (e : Nat) (s : State) : State := s.updHlt e (fun h => if h.st = 0 ∧ h.hstate = 0 then { h with st := 1 } else h)

/-- What an accepted load does (R285). -/
def placeImage (ch : Nat) (x : Image) (s : State) : State :=
  let i := s.imageIx x
  let s := { s with images := tset Image.none s.images i x }
  let s := s.updChan ch (fun c => { c with loop := { c.loop with img := some i, coefQ := [], progQ := [] } })
  let c := s.chan ch
  let s := engineOn (c.engOf false) (engineOn (c.engOf true) (dropImages s))
  let s := s.putWs ch 0 (x.coef.flatMap (fun w => leBytes 4 w.toNat))
  { s with ws := tdrop s.ws (fun k => k / 0x4000 == ch && decide (128 ≤ k % 0x4000 ∧ k % 0x4000 < 128 + 2 * x.stateBytes)) }

/-- LOAD (R283, R304). `std` says whether the words are those of one of Dwentora's listings, which the spec does not hold (R551). -/
def execLoad (e : CmdEntry) (std : Fin 3) (s : State) : Res :=
  .next (commandRow opLoad (fun e s =>
    let ch := hIndex (opN e 0)
    let c := s.chan ch
    let f := c.flock
    let hnd := s.handleCheck 1 (opN e 0)
    let a := (opN e 1).toNat
    let len := (opN e 2).toNat
    let b := s.sigBlock a len
    match firstFail [(hnd.isNone, hnd.getD 0, 1), (!c.armed, stState, 2),
        (!(s.testing 1 (4 * f + c.adm.engA) || s.testing 1 (4 * f + c.adm.engB)), stUnderTest, 3)] with
    | some (st, chk) => refuse e st chk s
    | none =>
      match s.verifyObject a len 1 with
      | none => refuse e stAuth 4 (secEvent 0 s)
      | some body =>
        let x := imageOf body b.slot std
        if !layoutOk body then refuse e stSize 5 s
        else match check6 1 x.kind x.wcc x.words with
          | some r => refuseRule e r s
          | none =>
            checked e [(decide (wccOf x.words ≤ c.adm.wcc), stOverBudget, 7),
              (decide (128 + 2 * x.stateBytes ≤ c.adm.wsKib * 1024), stSize, 8),
              (s.storeRoom f c.adm.engA ch x && s.storeRoom f c.adm.engB ch x, stNoRes, 9)]
              (fun s => startBurn b x.version.toNat opLoad (1, ch) (acceptLater e 0 (placeImage ch x s))) s) e s)

/-- LOAD_COMPLETE: both engines hold the image (R304); a burn still in progress keeps the command open (R466). -/
def execLoadComplete (ch : Fin 512) (s : State) : Res :=
  .next (finishReady opLoad (1, ch.val) (markProg opLoad (1, ch.val) (fun x => { x with ready := true }) s))

-- ---------------------------------------------------------------- MODEL.LOAD (R304, R319)

/-- MODEL_LOAD (R304): checks 4, 5, 6 and 9 of R283 keep their numbers. A model engine's store holds one image, which the load
replaces. -/
def execModelLoad (e : CmdEntry) (std : Fin 3) (s : State) : Res :=
  .next (commandRow opModelLoad (fun e s =>
    let f := fld (opN e 0) 0 5
    let a := (opN e 1).toNat
    let len := (opN e 2).toNat
    let b := s.sigBlock a len
    match firstFail [(s.flockOn f, stState, 1), (!(s.chansOfFlock f).any (fun ch => (s.chan ch).armed), stState, 2)] with
    | some (st, chk) => refuse e st chk s
    | none =>
      match s.verifyObject a len 1 with
      | none => refuse e stAuth 4 (secEvent 0 s)
      | some body =>
        let x := imageOf body b.slot std
        if !layoutOk body then refuse e stSize 5 s
        else match check6 2 x.kind x.wcc x.words with
          | some r => refuseRule e r s
          | none =>
            checked e [(decide (x.words.length ≤ 16384), stNoRes, 9)] (fun s =>
              let i := s.imageIx x
              let s := { s with images := tset Image.none s.images i x }
              let s := s.updMEng f (fun m => { m with next := some i })
              startBurn b x.version.toNat opModelLoad (16, f) (acceptLater e 0 s)) s) e s)

/-- MODEL_LOAD_COMPLETE: the model engine holds the image, every model of the flock runs with FIRST next (R322) and validity is
evaluated again (R319); MODEL.LOAD completes unless its burn
is in progress. -/
def execModelLoadComplete (f : Fin 32) (s : State) : Res :=
  match (s.meng f.val).next with
  | none => .next s
  | some i =>
    let s := dropImages ((engineOn (128 + f.val) s).updMEng f.val (fun m => { m with img := some i, next := none }))
    let s := evalModels (each (s.validOf f.val) (fun ch s => s.updMdl ch (fun x => { x with first := true })) s)
    .next (finishReady opModelLoad (16, f.val) (markProg opModelLoad (16, f.val) (fun x => { x with ready := true }) s))

-- ---------------------------------------------------------------- end of a deletion (R56)

/-- CHAN_DEL_COMPLETE: once its terminals are open, workspace, heft, images and model schedule of the channel are freed and CHAN.DEL
completes (R56, R319). -/
def execChanDelComplete (ch : Fin 512) (s : State) : Res :=
  let c := s.chan ch.val
  if c.st == .deleting && c.opened then .next (retireBroken (evalModels (dropImages (deleteEnd ch.val s)))) else .next s

end Sys2Proof.Machine
end

