-- ==== Sys2Proof/Machine/Station.lean ====
section
/-! DEFINITION. Station discovery, the shared frame clock of a station, breaks and late modules, the calendar clock (19). -/

namespace Sys2Proof.Machine

open Sys2Proof

def State.updStn (s : State) (f : Stn → Stn) : State := { s with stn := f s.stn }

/-- A station event, reported by the link port on which it is seen, or by 0xE5 where it concerns none (R501). -/
def stnEvent (port : Option Nat) (bit cls : Nat) (s : State) : State :=
  raise stnEvt (mkRep (srcLink (port.getD 0)) 0 bit cls 0 0) s

/-- Discovery starts with training (1) or with its pass (2): nothing of the last one stands, and in the pass M0 sends the token out of its
KL0 (R488, R496). -/
def startDiscovery (dstate : Nat) (s : State) : State :=
  s.updStn (fun x => { x with
    nmod := 0, pos := if s.boot.head then 0 else 15, ring := false, late := false, dstate
    upstream := none, refPort := none, broken := [], place := 0, seated := false, confirmed := [], alignIn := 0, alignOut := 0
    headId := if s.boot.head then some moduleId else none
    sent := if s.boot.head && dstate == 2 && s.lanes 0 != 0 then some (0, 1) else none })

/-- The module runs standalone under its own FC_PRIO, with position 15 (R488). -/
def standalone (s : State) : State :=
  let s := s.updStn (fun x => { x with dstate := 6, pos := 15, late := false, refPort := none, upstream := none })
  linkCheck s

/-- A module other than M0 takes M0's FRATE and M_LOG2 and measures the station link (R489). -/
def followHead (rate : BitVec 18) (mLog2 : BitVec 2) (s : State) : State :=
  let s := setPend fcRatio (mLog2.zeroExtend 32) (setPend fcRate (rate.zeroExtend 32) s)
  (s.updBell (fun b => { b with linkMeas := [] })).updStn (fun x => { x with dstate := 3, seated := false })

/-- The port whose path to M0 is there and has fewer hops; in a ring a tie goes to the token's port (R490, R494). -/
def Stn.bestRef (x : Stn) : Option Nat :=
  if x.late then x.refPort
  else match x.upstream with
  | some u =>
    let inward := !x.broken.any (fun h => decide (h < x.place))
    let outward := x.ring && !x.broken.any (fun h => decide (x.place ≤ h))
    if outward && (!inward || decide (x.nmod < 2 * x.pos)) then some (1 - u) else some u
  | none => none

/-- The hop of a link port: that to the neighbour it faces. -/
def Stn.hopOf (x : Stn) (i : Nat) : Int :=
  if x.pos = 0 then (if i = 0 then 0 else if x.ring then (x.nmod : Int) - 1 else -1)
  else
    let inward := (if x.late then x.refPort else x.upstream) == some i
    if 0 ≤ x.place then (if inward then x.place - 1 else x.place) else if inward then x.place else x.place - 1

/-- A late module joins a station that is ready: it keeps position 15 (R496). Its place on the station's line is that of its hops from M0,
below 0 on the side of M0's KL1 (log 161). -/
def lateJoin (i : Nat) (x : StnJoin) (s : State) : State :=
  stnEvent (some i) 4 0 (followHead x.rate x.mLog2 (s.updStn (fun y =>
    { y with late := true, pos := 15, refPort := some i, place := x.place, broken := [], ring := false })))

/-- A port trains on 2 ^ `lanes` lanes; in the pass M0 then sends its token (R487, R488). -/
def trainPort (i : Nat) (lanes : Nat) (s : State) : State :=
  s.updStn (fun x =>
    let lanes := tset 0 x.lanes i (2 ^ lanes)
    { x with lanes, dstate := if x.dstate = 1 then 2 else x.dstate
             sent := if x.dstate ≤ 2 ∧ x.pos = 0 ∧ x.sent = none ∧ tget 0 lanes 0 ≠ 0 then some (0, 1) else x.sent })

/-- LINK_TRAINED: a port finishes training on 2 ^ `lanes` lanes (R487). `station` is that of a station that is ready already, which this
module then joins late (R496). -/
def execLinkTrained (i : Fin 2) (lanes : Fin 3) (station : Option StnJoin) (s : State) : Res :=
  if !s.domOn (44 + i.val) || s.boot.phase != 6 || s.lanes i.val != 0 || s.col.broken.contains (srcLink i.val) then .next s
  else
    let s := trainPort i.val lanes.val s
    match station with
    | some x => .next (if s.stn.pos = 15 && !s.stn.late then lateJoin i.val x s else s)
    | none => .next s

/-- The token goes on out of the other port with the count raised by 1, or where that port is not trained back to M0 (R488, log 133). -/
def forwardToken (i count : Nat) (s : State) : State :=
  s.updStn (fun x => { x with sent := some (if s.lanes (1 - i) = 0 then i else 1 - i, count + 1) })

/-- DISCOVERY_TOKEN: a token of the M0 of MODULE_ID `id` arrives with its hop count. At its own M0 it ends the pass: on KL1 the station is a
ring. A token of a head of higher MODULE_ID than one already heard counts for nothing (R488). -/
def execDiscoveryToken (i : Fin 2) (count : Fin 16) (id : BitVec 64) (s : State) : Res :=
  let beaten := match s.stn.headId with | some h => decide (h < id.toNat) | none => false
  if s.lanes i.val = 0 || count.val = 0 || beaten then .next s
  else if s.stn.pos = 0 && id.toNat == moduleId then
    .next (s.updStn (fun x => { x with nmod := min 8 count.val, ring := i.val == 1 }))
  else
    let s := if s.stn.pos = 0 then stnEvent (some i.val) 5 1 s else s
    if 8 ≤ count.val then .next (forwardToken i.val count.val (standalone (stnEvent (some i.val) 7 1 s)))
    else .next (forwardToken i.val count.val ((startDiscovery 2 s).updStn (fun x => { x with
      pos := count.val, place := count.val, upstream := some i.val, refPort := some i.val, headId := some id.toNat })))

/-- DISCOVERY_TIMEOUT: no token within 100 ms of training (R488). -/
def execDiscoveryTimeout (s : State) : Res :=
  if (s.stn.dstate = 1 ∨ s.stn.dstate = 2) ∧ s.stn.pos = 15 then .next (standalone (stnEvent none 6 1 s)) else .next s

/-- The station is ready, here (R492). -/
def stationReady (s : State) : State :=
  finishWhere (fun p => opcodeOf p.entry == 0x0B03) stOk (fun _ => 0) (stnEvent none 9 0 (s.updStn (fun x => { x with dstate := 5 })))

/-- STATION_FORM_MESSAGE: the pass ends; M0's number of modules and form, its FRATE and M_LOG2, and whether it leaves this module out
(R488, R489). At M0 itself the operands count for nothing: it takes its own finding, and one that is alone is ready at once (R493). -/
def execStationFormMessage (i : Fin 2) (nmod : Fin 9) (ring excluded : Bool) (rate : BitVec 18) (m : BitVec 2) (s : State) : Res :=
  if s.stn.pos = 0 && (s.stn.dstate == 1 || s.stn.dstate == 2) then
    let s := s.updStn (fun x => { x with nmod := max 1 x.nmod, dstate := 4, confirmed := [] })
    .next (if s.stn.nmod = 1 then stationReady s else s)
  else if s.stn.dstate != 2 then .next s
  else if excluded then .next (standalone (stnEvent (some i.val) 7 1 s))
  else if s.stn.pos ≤ 7 then
    .next (followHead rate m (s.updStn (fun x => { x with nmod := nmod.val, ring, refPort := { x with nmod := nmod.val, ring }.bestRef })))
  else .next (s.updStn (fun x => { x with nmod := nmod.val, ring }))

/-- STATION_MARKER: a marker with M0's frame count, and the phase of the last B(j) against it in ps (R490, R492). -/
def execStationMarker (i : Fin 2) (frame : BitVec 48) (err : BitVec 16) (s : State) : Res :=
  if s.follows && s.stn.refPort == some i.val && s.lanes i.val != 0 then
    let near := decide (-2000 ≤ err.toInt ∧ err.toInt ≤ 2000)
    .next ((s.updStn (fun x => { x with mark := frame, alignIn := if near && x.seated then x.alignIn + 1 else 0
                                        alignOut := if near then 0 else x.alignOut + 1 })).setReg stnAlign (err.zeroExtend 32))
  else .next s

/-- A link port leaves the trained state (R494). -/
def linkLost (i : Nat) (s : State) : State :=
  stnEvent (some i) 0 1 ((s.updStn (fun x => { x with lanes := tset 0 x.lanes i 0 })).setReg (linkDelay i) 0)

/-- What the break of a hop does beyond its port, `i` being the port on whose side it lies (R494, R495, R497): in the pass M0 starts it
again; afterwards a ring opens or the station splits, and of a split-off module nothing counts. -/
def breakHop (i : Nat) (h : Int) (s : State) : State :=
  let x := s.stn
  if 2 ≤ x.dstate ∧ x.dstate ≤ 4 ∧ !x.late then (if x.pos = 0 then startDiscovery 2 s else linkCheck s)
  else if (x.dstate != 5 && !x.late) || x.broken.contains h then linkCheck s
  else
    let y := { x with broken := x.broken ++ [h] }
    let here (m : BitVec 64 × Int) : Bool := y.reach y.place m.2
    let s := s.updStn (fun _ => { y with
      refPort := y.bestRef, openMods := y.openMods.filter here, c4Mods := y.c4Mods.filter here })
    if x.ring && x.broken.isEmpty then stnEvent (some i) 2 1 s else linkCheck (stnEvent (some i) 3 1 s)

/-- A trained link port leaves the trained state, which breaks its hop (R494). -/
def linkBreak (i : Nat) (s : State) : State :=
  if s.lanes i = 0 then s else breakHop i (s.stn.hopOf i) (linkLost i s)

/-- What the mending of a hop does (R494): a module that regains M0 qualifies and reselects the station link. -/
def healHop (i : Nat) (h : Int) (s : State) : State :=
  let away := s.joined && !s.follows
  let s := stnEvent (some i) 1 0 (s.updStn (fun x =>
    let x := { x with broken := x.broken.filter (fun k => k != h) }
    { x with refPort := x.bestRef }))
  if away && s.follows then
    (s.updBell (fun b => { b with linkMeas := [] })).updStn (fun x => { x with seated := false, alignIn := 0, alignOut := 0 })
  else s

/-- HOP_DELAY_MEASURE: half the round trip to the neighbour in ps; a hop above 1 µs is not trained (R487, R490). -/
def execHopDelayMeasure (i : Fin 2) (delay : W) (s : State) : Res :=
  if s.lanes i.val = 0 then .next s
  else if 1000000 < delay.toNat then .next (linkBreak i.val s)
  else .next (s.setReg (linkDelay i.val) delay)

/-- STATION_SEATING: at the first B(j) after the link qualifies, placed at pt `at_`. With no armed channel the Bellwether takes boundary
and frame count of the reference in one step, else it changes source (R491, R497). -/
def execStationSeating (at_ : Nat) (s : State) : Res :=
  if !s.follows || s.stn.seated || !s.linkQual then .next s
  else
    let armed := s.anyArmed
    let s := s.updStn (fun x => { x with seated := true, dstate := if x.dstate = 3 then 4 else x.dstate })
    if armed then .next (bellEvt 3 (startLink s))
    else
      let s := (startLink s).updBell (fun b => { b with
        mode := .tracking, enterHold := false, frame := s.stn.mark, bPt := at_, bFrac := 0 })
      .next (bellEvt 3 s)

/-- ALIGN_CONFIRM: 64 fp of the phase of module p within ±2 ns: this module's own, as its markers show, or at M0 that of another
(R492). -/
def execAlignConfirm (p : Fin 8) (s : State) : Res :=
  let own := s.stn.pos == p.val && s.follows && s.stn.seated && decide (64 ≤ s.stn.alignIn)
  let other := s.stn.pos == 0 && p.val != 0 && decide (p.val < s.stn.nmod)
  if s.stn.dstate = 4 && (own || other) && !s.stn.confirmed.contains p.val then
    .next (s.updStn (fun x => { x with confirmed := x.confirmed ++ [p.val] }))
  else .next s

/-- STATION_READY: M0 declares it once every module has confirmed; another module receives READY (R492, R493). -/
def execStationReady (s : State) : Res :=
  let all := s.stn.pos == 0 && ((List.range s.stn.nmod).drop 1).all s.stn.confirmed.contains
  if s.stn.dstate = 4 && (all || s.follows) then
    .next (stationReady s)
  else .next s

/-- ALIGN_ERR: a module's phase stays outside ±2 ns for 64 fp (R492). -/
def execAlignErr (s : State) : Res :=
  if s.stn.dstate = 5 && s.follows && decide (64 ≤ s.stn.alignOut) then
    .next (stnEvent s.stn.refPort 8 1 (s.updStn (fun x => { x with alignOut := 0 })))
  else .next s

/-- LINK_DOWN: a link of the station breaks: this module's own port leaves the trained state, or the hop `far` further on, on the side of
the port (R494). -/
def execLinkDown (i : Fin 2) (far : Option Int) (s : State) : Res :=
  match far with
  | none => .next (linkBreak i.val s)
  | some h => .next (breakHop i.val h s)

/-- LINK_UP: a broken link trains again on 2 ^ `lanes` lanes: this module's own port, or the hop `far` further on, on the side of the port.
`station` is the station that a module with no position then joins late (R494, R496). -/
def execLinkUp (i : Fin 2) (lanes : Fin 3) (far : Option Int) (station : Option StnJoin) (s : State) : Res :=
  match far with
  | some h => .next (if s.stn.broken.contains h then healHop i.val h s else s)
  | none =>
    if !s.domOn (44 + i.val) || s.lanes i.val != 0 || s.col.broken.contains (srcLink i.val) then .next s
    else
      let s := healHop i.val (s.stn.hopOf i.val) (trainPort i.val lanes.val s)
      match station with
      | some x => .next (if s.stn.pos = 15 && !s.stn.late then lateJoin i.val x s else s)
      | none => .next s

/-- STN.RESCAN's own checks (R312). -/
def rescanChecks (peerArmed : Bool) (s : State) : List (Bool × Nat × Nat) :=
  [(s.stn.pos == 0, stState, 1), (!s.anyArmed && !peerArmed, stState, 2)]

/-- STN.RESCAN's own checks and its effect: discovery from its pass (R312, R496). `peerArmed` says that a channel of another module is
armed. -/
def rescanOwn (peerArmed : Bool) (e : CmdEntry) (s : State) : State :=
  checked e (rescanChecks peerArmed s)
    (held e fun s => acceptLater e 0 (startDiscovery 2 s)) s

def execStnRescan (e : CmdEntry) (peerArmed : Bool) (s : State) : Res := .next (commandRow 0x0B03 (rescanOwn peerArmed) e s)

-- ---------------------------------------------------------------- the calendar (R498 to R500)

def calSetSec : Nat := 0x818

def calEvent (bit cls : Nat) (s : State) : State := raise calEvt (mkRep srcCal 0 bit cls 0 0) s

/-- The calendar is set: CAL_SET and VALID. -/
def calIsSet (s : State) : State := calEvent 1 0 (s.setField calStat 0 1 1)

/-- CALENDAR_SET: a write to CAL_CTRL. A joined module other than M0 ignores it (R499). -/
def execCalendarSet (v : W) (s : State) : Res :=
  if fld v 24 8 != 0x5E then .next s
  else if s.stn.late || decide (1 ≤ s.stn.pos ∧ s.stn.pos ≤ 7) then .next (calEvent 4 0 s)
  else .next (calIsSet { s with boot := { s.boot with calPend := some (s.reg calSetSec, fld v 0 14) } })

/-- A fraction tick: the pending setting takes effect, else the count goes on. -/
def calTick (s : State) : State :=
  if s.boot.calDead || s.col.broken.contains srcCal then s
  else
    match s.boot.calPend with
    | some (sec, f) => ({ s with boot := { s.boot with calPend := none } }.setReg calSecA sec).setReg calFracA (BitVec.ofNat 32 f)
    | none =>
      let f := s.regField calFracA 0 14 + 1
      if f = 16384 then (s.bump calSecA).setReg calFracA 0 else s.setReg calFracA (BitVec.ofNat 32 f)

/-- CALENDAR_SYNC: a module that follows takes M0's seconds and fraction; a correction above 1 ms sets CAL_SET (R499). -/
def execCalendarSync (sec : W) (frac : BitVec 14) (s : State) : Res :=
  if !s.follows || s.stn.dstate != 5 then .next s
  else
    let old : Int := (s.reg calSecA).toNat * 16384 + s.regField calFracA 0 14
    let new : Int := sec.toNat * 16384 + frac.toNat
    let s := (s.setReg calSecA sec).setReg calFracA (frac.zeroExtend 32)
    .next (if 16384 < absI (new - old) * 1000 then calIsSet s else s)

/-- SUPERCAP_LOW: less than 24 h of running (R500). -/
def execSupercapLow (s : State) : Res := .next (holdLive (mkRep srcCal 0 3 1 0 0) (calEvent 3 1 s))

/-- BACKUP_LOW: the backup contact is below 2.0 V while the auxiliary supply is present (R500). -/
def execBackupLow (s : State) : Res :=
  if s.boot.down then .next s else .next (holdLive (mkRep srcCal 0 2 0 0 0) (calEvent 2 0 s))

/-- CALENDAR_SUPPLY_CHANGE: the supply is now the auxiliary supply, the backup contact or the supercapacitor; 3: PD47 has lost every
supply and the calendar stops (R498, R500). -/
def execCalendarSupplyChange (supply : Fin 4) (s : State) : Res :=
  if supply.val = 3 then .next { s with boot := { s.boot with calDead := true } }
  else .next (s.setField calStat 1 2 supply.val)

end Sys2Proof.Machine
end

