-- ==== Sys2Proof/Machine/Pairs.lean ====
section
/-! DEFINITION. Stops of lockstep pairs (15 R425 to R427), broken wires (16 R435), power domains (01 R31 to R35, 16 R436). -/

namespace Sys2Proof.Machine

open Sys2Proof

-- ---------------------------------------------------------------- reports of the collector's own causes

/-- A report that reaches its task input in this cycle: its pair no longer shows it (R435). -/
def reportNow (r : Report) (now : Nat) (s : State) : State :=
  let s := s.updCol (fun c => { c with
    own := tupd 0 c.own r.source (fun w => setBit w (r.cause % 16))
    latched := if c.latched.contains r then c.latched else c.latched ++ [r] })
  holdLive r (latchReport r false now s)

/-- The report of a stopped pair: PAIR_STOP, or BROKEN_WIRE where its error pair broke. Its condition lasts. -/
def stopReport (wire : Bool) (source cls now : Nat) (s : State) : State :=
  if wire then reportNow (mkRep source 15 0 cls 0 0) now s
  else holdLive (mkRep source 15 1 cls 0 0) (raiseOwn source 1 cls 0 0 s)

-- ---------------------------------------------------------------- fold supervisor pairs (R425, R426)

/-- Pair FSk stops at pt `now`. Its neighbour takes over both folds within 1,600 cc; where none serves, both folds stop (R426). The first stop is tested, the
second retires the pair (R425). -/
def fsStop (wire : Bool) (k now : Nat) (s : State) : State :=
  let x := s.fsPair k
  let g := k ^^^ 1
  if 2 ≤ x.st then (if wire then stopReport true (srcFs k) 1 now s else s)
  else
    let n := min 255 (x.stops + 1)
    let s := s.setFs k { x with stops := n, st := if 2 ≤ n then 4 else 2 }
    let s := if 2 ≤ n then s else queueTest (160 + k) s
    let y := s.fsPair g
    if x.st = 0 && y.st = 0 then
      let (d, s) := s.draw
      stopReport wire (srcFs k) 1 now ((s.setFs g { y with st := 1 }).setFs k
        { s.fsPair k with till := now + 2 * min 1600 (Config.fsTakeover d) })
    else stopReport wire (srcFs k) 3 now (stopReport false (srcFs g) 3 now s)

-- ---------------------------------------------------------------- module core roles (R427, R447)

def Core.pair (c : Core) (b : Bool) : Pair := if b then c.b else c.a
def Core.put (c : Core) (b : Bool) (x : Pair) : Core := if b then { c with b := x } else { c with a := x }

/-- A report is latched: its bit of an event register, or of the collector's own causes, is set (R447). -/
def State.stillLatched (s : State) (r : Report) : Bool :=
  if r.cause / 16 = 15 then bitOf (tget 0 s.col.own r.source) (r.cause % 16)
  else (evtRegs r.source (r.cause / 16)).any (fun a => bitOf (s.reg a) (r.cause % 16))

/-- The new collector records every latched cause again, DELAYED; reports its predecessor had not taken are taken now (R447). -/
def rescan (now : Nat) (s : State) : State :=
  let todo := s.col.srcQ
  let again := s.col.latched.filter (fun r => s.stillLatched r && !todo.contains r)
  let s := s.updCol (fun c => { c with srcQ := [], intake := again.map (fun r => s.stamp r true) })
  forL todo (fun r s => latchReport r true now s) s

/-- What the takeover of a role does (R427): `unwritten` are input words of the last release that their first latch finds unwritten. -/
def takeRole (r now : Nat) (unwritten : List (Fin 512 × Fin 3)) (s : State) : State :=
  match r with
  | 0 => s.updSvc (fun v => { v with takenBlk := (v.taken.map s.readBlock).getD [] })
  | 1 => s
  | 2 => forL unwritten (fun x s =>
      let c := s.chan x.1.val
      if !c.live || fieldN c.inp.late x.2.val 1 = 1 then s
      else (s.bump (intCnt c.flock 7)).updChan x.1.val (fun c => { c with inp := { c.inp with late := c.inp.late + 2 ^ x.2.val } })) s
  | _ => rescan now s

/-- Pair b of module core role r stops: its standby takes the role, or where there is none the module stops (R427). -/
def coreStop (wire : Bool) (r : Nat) (b : Bool) (now : Nat) (unwritten : List (Fin 512 × Fin 3)) (s : State) : State :=
  let c := s.core r
  let x := c.pair b
  let y := c.pair (!b)
  let src := srcCore (2 * r + b2n b)
  if 3 ≤ x.st then (if wire then stopReport true src 1 now s else s)
  else
    let n := min 255 (x.stops + 1)
    let c := c.put b { x with stops := n, st := if 2 ≤ n then 5 else 3 }
    let s := s.setCore r c
    let s := if 2 ≤ n then s else queueTest (168 + 2 * r + b2n b) s
    if x.st != 0 then stopReport wire src 1 now s
    else if y.st = 1 then
      let s := s.setCore r { c.put (!b) { y with st := 0 } with active := !b, takeovers := c.takeovers + 1 }
      stopReport wire src 1 now (takeRole r now unwritten s)
    else stopReport wire src 4 now s

/-- PAIR_COMPARE_MISS: the halves of unit u disagree: FS0 to FS7, then pairs A and B of SVC, SEC, STM and COL (R425). -/
def execPairCompareMiss (u : Fin 16) (unwritten : List (Fin 512 × Fin 3)) (now : Nat) (s : State) : Res :=
  if u.val < 8 then
    if 2 ≤ (s.fsPair u.val).st then .next s else .next (fsStop false u.val now (s.bump (fsReg u.val 8)))
  else .next (coreStop false ((u.val - 8) / 2) (u.val % 2 == 1) now unwritten s)

/-- FS_RESUME: at the first B(j) after its test a fold supervisor pair takes its own fold back (R426, R529). -/
def execFsResume (k : Fin 8) (s : State) : Res :=
  let x := s.fsPair k.val
  let g := k.val ^^^ 1
  if x.st != 3 || s.testing 6 k.val then .next s
  else
    let s := s.setFs k.val { x with st := 0 }
    let s := if (s.fsPair g).st = 1 then s.setFs g { s.fsPair g with st := 0 } else s
    .next (condEnd (fun r => r.cause / 16 == 15 && (r.cause % 16 == 0 || r.cause % 16 == 1) &&
      (r.source == srcFs k.val || (r.source == srcFs g && (s.fsPair g).st == 0))) s)

/-- CORE_STANDBY_COPY_DONE: a tested pair is standby in step after the full copy (R427). -/
def execCoreStandbyCopyDone (r : Fin 4) (b : Bool) (s : State) : Res :=
  let c := s.core r.val
  let x := c.pair b
  if x.st != 2 then .next s
  else .next (condEnd (fun y => y.source == srcCore (2 * r.val + b2n b) && y.cause == 0xF1)
    (s.setCore r.val (c.put b { x with st := 1 })))

-- ---------------------------------------------------------------- what a domain holds (R31, R433)

/-- The sources of a domain. -/
def domSources (d : Nat) : List Nat :=
  if d < 32 then [srcLoop (4 * d), srcLoop (4 * d + 1), srcLoop (4 * d + 2), srcLoop (4 * d + 3), srcModel d, srcFlock d]
  else if d < 40 then [srcFold (d - 32)]
  else if d < 44 then [srcPort (4 * (d - 40)), srcPort (4 * (d - 40) + 1), srcPort (4 * (d - 40) + 2), srcPort (4 * (d - 40) + 3), srcOut (d - 40)]
  else if d < 46 then [srcLink (d - 44)]
  else if d = 46 then (List.range 8).map srcFs ++ [srcBell] ++ [srcPcie] ++ (List.range 8).map srcCore ++ [srcDram, srcClock, srcMnt, srcStn]
  else [srcCal]

/-- Registers of a flock that its own domain holds: those of R507 that R505 does not place in PD46. -/
def flockWord (f a : Nat) : Bool :=
  let o := a - aFlock f
  decide (aFlock f ≤ a ∧ a < aFlock f + 0x80000) && !isTally a &&
    (decide (0x2000 ≤ o ∧ o < 0x2080) || decide (0x5000 ≤ o ∧ o < 0x6080) || decide (0x6100 ≤ o ∧ o < 0x6440) ||
      decide (0x6800 ≤ o ∧ o < 0x6C00) || decide (0x7200 ≤ o ∧ o < 0x7500))

/-- Registers of the modulator, which the gate-drive domain of the fold holds (R31). -/
def foldWord (k a : Nat) : Bool :=
  (List.range 4).any (fun i =>
    let b := aFlock (4 * k + i)
    decide (b + 0x3000 ≤ a ∧ a < b + 0x3448)) && !isTally a

/-- The SRAM of a flock is clear, its instruction stores hold nothing: every live channel's workspace, input words and model state
(R35, log 129). -/
def flockClear (f : Nat) (s : State) : State :=
  let s := each (s.chansOfFlock f) (fun ch s => (s.zeroWs ch).updChan ch (fun c =>
    { c with inp := Inp.none, mdl := Mdl.none, loop := { c.loop with img := none, coefQ := [], progQ := [] } })) s
  s.updMEng f (fun x => { x with img := none, next := none })

/-- A flock domain goes off: engines halt, sense values read 0 (R355), SRAM and stores lose their contents, terminals open (R32, R35). -/
def flockOff (f now : Nat) (s : State) : State :=
  let s := s.setDom f false
  let l := s.chansOfFlock f
  let s := each l (fun ch s => enterSafe ch now s) s
  let s := each [4 * f, 4 * f + 1, 4 * f + 2, 4 * f + 3, 128 + f] (fun e s =>
    (s.updHlt e (fun h => { h with st := 0 })).setRun e Run.none) s
  let s := each (List.range 8) (fun i s => (s.setReg (snsReg (8 * f + i) 0x14) 0).setReg (snsReg (8 * f + i) 0x18) 0) s
  let s := each (List.range 16) (fun i s => s.setReg (psReg (16 * f + i) 0x18) 0) s
  evalModels (dropImages (signalVec 10 ((flockClear f s).clearRegs (flockWord f))))

/-- A gate-drive domain goes off: its gates low, its terminals open (R32). -/
def foldOff (k now : Nat) (s : State) : State :=
  let s := s.setDom (32 + k) false
  let s := each (s.chansOfFold k) (fun ch s => enterSafe ch now s) s
  let s := each ((tkeys s.terms).filter (fun t => foldOf t == k)) (fun t s => setDrive t .off false now s) s
  refreshGates (each (List.range 8) (fun i s => gateLow (8 * k + i) s) (signalVec 10 (s.clearRegs (foldWord k))))

/-- A stream group goes off: its ports are OFF and its output port stops (R93, R104). -/
def groupOff (g : Nat) (s : State) : State :=
  let s := s.setDom (40 + g) false
  let s := each [4 * g, 4 * g + 1, 4 * g + 2, 4 * g + 3] (fun n s => if s.spEnable n then portOff n s else s) s
  s.setReg (soStat g) 0

/-- A domain goes off. -/
def domainOff (d now : Nat) (s : State) : State :=
  if d < 32 then flockOff d now s
  else if d < 40 then foldOff (d - 32) now s
  else if d < 44 then groupOff (d - 40) s
  else
    let s := s.setDom d false
    linkBreak (d - 44) s

/-- A domain comes on: a flock's SRAM is cleared, its engines are halted (R35) and its sense ports settle (R355), ports in use acquire (R93), an output port in use sends. -/
def domainOn (d : Nat) (s : State) : State :=
  let s := s.setDom d true
  if 40 ≤ d ∧ d < 44 then
    let g := d - 40
    let s := each [4 * g, 4 * g + 1, 4 * g + 2, 4 * g + 3] (fun n s => if s.spEnable n then toAcquire n s else s) s
    if bitOf (s.reg (soCtrl g)) 0 then s.setReg (soStat g) 1 else s
  else refreshGates (if d < 32 then evalModels (dropImages (flockClear d (each (List.range 8) (fun i s => startSettling (8 * d + i) s) s))) else s)

-- ---------------------------------------------------------------- DOMAIN (R33, R34, R436)

/-- What keeps a domain on (R33). -/
def State.domServes (s : State) (d : Nat) : Bool :=
  if d < 32 then !(s.chansOfFlock d).isEmpty
  else if d < 40 then !(s.chansOfFold (d - 32)).isEmpty
  else if d < 44 then s.liveBinds.any (fun i => (s.bind i).port / 4 == d - 40)
  else if d < 46 then s.lanes (d - 44) != 0 && decide (1 ≤ s.stn.dstate ∧ s.stn.dstate ≤ 5)
  else true

/-- DOMAIN's own check (R33). -/
def domainChecks (e : CmdEntry) (s : State) : List (Bool × Nat × Nat) :=
  [(bitOf (opN e 0) 8 || !s.domServes (fld (opN e 0) 0 6), stState, 1)]

/-- DOMAIN's own check and its effect; the collector ignores the sources of a domain it switches off (R33, R34). -/
def domainOwn (now : Nat) (e : CmdEntry) (s : State) : State :=
  let d := fld (opN e 0) 0 6
  let on := bitOf (opN e 0) 8
  checked e (domainChecks e s) (held e fun s =>
    if on then acceptLater e 0 (if s.domOn d then s else domainOn d s)
    else
      let src := domSources d
      let s := if s.domOn d then domainOff d now s else s
      acceptLater e 0 (s.updCol (fun c => { c with
        unwatched := c.unwatched ++ src.filter (fun i => !c.unwatched.contains i)
        srcQ := c.srcQ.filter (fun r => !src.contains r.source)
        gone := c.gone.filter (fun r => !src.contains r.source) }))) s

def execDomain (e : CmdEntry) (now : Nat) (s : State) : Res := .next (commandRow 0x0B01 (domainOwn now) e s)

/-- DOMAIN_SETTLED: DOMAIN completes; from a switch-on the collector watches the sources afresh; those of
PD46 and PD47, which no command switches off, stay broken until power-up (R312, R436). -/
def execDomainSettled (d : Fin 48) (s : State) : Res :=
  let busy := s.svc.inProg.any (fun p => p.obj == some (17, d.val))
  let s := finishObj 0x0B01 (17, d.val) stOk s
  if busy && s.domOn d.val && decide (d.val < 46) then
    let src := domSources d.val
    let s := s.updCol (fun c => { c with
      unwatched := c.unwatched.filter (fun i => !src.contains i), broken := c.broken.filter (fun i => !src.contains i) })
    .next (condEnd (fun r => src.contains r.source && r.cause == 0xF0) s)
  else .next s

-- ---------------------------------------------------------------- broken wires (R435)

/-- A loop engine with a broken pair: its tokens whose standby is in step move by yield, and it is retired once it holds none. -/
def loopBroken (e : Nat) (s : State) : State :=
  let s := each ((s.chansOfFlock (e / 4)).filter (fun ch =>
      let c := s.chan ch
      (match c.lease.holder with | some b => c.engOf b == e | none => false) && s.eligible [] ch))
    (fun ch s => s.updLease ch (fun x => { x with yield_ := true })) s
  retireBroken s

/-- C2 on each channel of a flock, for one report of the flock block (R435, R436). -/
def flockReaction (f now : Nat) (s : State) : State :=
  let s := reportNow (mkRep (srcFlock f) 15 0 2 0 0) now s
  each (s.chansOfFlock f) (fun ch s =>
    let r := mkRep (srcFlock f) 15 0 2 1 ch
    dispatchC2 r (holdLive r s)) s

/-- The reaction to a broken wire of a source, with its report (R435). -/
def wireReaction (i now : Nat) (unwritten : List (Fin 512 × Fin 3)) (s : State) : State :=
  let rep (cls : Nat) (s : State) : State := reportNow (mkRep i 15 0 cls 0 0) now s
  if i < 0x80 then loopBroken i (rep 1 s)
  else if i < 0xA0 then declareFailed (i - 0x80) 1 (rep 1 s)
  else if i < 0xC0 then flockReaction (i - 0xA0) now s
  else if i < 0xC8 then rep 3 s
  else if i < 0xD0 then fsStop true (i - 0xC8) now s
  else if i < 0xE0 then lineGone (i - 0xD0) (rep 1 s)
  else if i < 0xE4 then
    let s := rep 1 s
    if bitOf (s.reg (soCtrl (i - 0xE0))) 0 then s.setReg (soStat (i - 0xE0)) 2 else s
  else if i = 0xE4 then rep 4 s
  else if i < 0xE7 then
    linkBreak (i - 0xE5) (rep 1 s)
  else if i = 0xE7 then hostReset (rep 1 s)
  else if i < 0xF0 then coreStop true ((i - 0xE8) / 2) (i % 2 == 1) now unwritten s
  else if i = 0xF1 then rep 4 s
  else if i < 0xF5 then rep 1 s
  else s

/-- BROKEN_WIRE: an error pair reads 00 or 11 for 4 cc; an unwatched source is ignored (R435, R436). -/
def execBrokenWire (source : BitVec 8) (unwritten : List (Fin 512 × Fin 3)) (now : Nat) (s : State) : Res :=
  let i := source.toNat
  if s.col.broken.contains i || s.col.unwatched.contains i || decide (0xF5 ≤ i) then .next s
  else .next (wireReaction i now unwritten (s.updCol (fun c => { c with broken := c.broken ++ [i] })))

end Sys2Proof.Machine
end

