-- ==== Sys2Proof/Machine/Security.lean ====
section
/-! DEFINITION. The security pair: fence records, attestation, debug unlock (18 R461 to R478, 10 R310). -/

namespace Sys2Proof.Machine

open Sys2Proof

-- ---------------------------------------------------------------- fence records (R465, R467, R469)

/-- Fields of a record body that must be 0, and the ranges of step 7 (R465). -/
def fenceLayoutOk (b : List (BitVec 8)) : Bool :=
  b.length == 8416 && bytesAt b 0 4 == 0x45434E46 && bytesAt b 4 2 == 1 && zeroAt b 6 2 && zeroAt b 0x0C 4 && zeroAt b 0x18 8 &&
    zeroAt b 0xD0 16 && (List.range 8).all (fun k => decide (1 ≤ bytesAt b (0x20 + 2 * k) 2 ∧ bytesAt b (0x20 + 2 * k) 2 ≤ 1000)) &&
    (List.range 16).all (fun n => zeroAt b (0x31 + 8 * n) 1 && zeroAt b (0x36 + 8 * n) 2) &&
    (List.range 512).all (fun t =>
      let k := bytesAt b (0xE0 + 16 * t + 14) 1
      let fl := bytesAt b (0xE0 + 16 * t + 15) 1
      k % 2 == 0 && decide (k < 16) && decide (fl < 16) && decide (fl / 4 ≤ 2))

/-- The record of a body (R467). -/
def fenceOf (b : List (BitVec 8)) : Fence :=
  { version := bytesAt b 8 4, target := BitVec.ofNat 64 (bytesAt b 0x10 8)
    foldLim := (List.range 8).map (fun k => bytesAt b (0x20 + 2 * k) 2)
    seals := (List.range 16).map (fun n => ⟨bytesAt b (0x30 + 8 * n) 1, bytesAt b (0x32 + 8 * n) 2, bytesAt b (0x34 + 8 * n) 2⟩)
    sealKey := BitVec.ofNat 256 (bytesAt b 0xB0 32)
    terms := forL (List.range 512) (fun t l =>
      let f (o n : Nat) : Nat := bytesAt b (0xE0 + 16 * t + o) n
      tset FenceTerm.none l t ⟨f 0 2, f 2 2, f 4 4, f 8 4, f 12 2, f 14 1, f 15 1⟩) []
    hash := digestOf b }

/-- A record that seals a port or holds a seal key (R467). -/
def Fence.seals? (f : Fence) : Bool := f.seals.any (fun x => x.mode != 0) || f.sealKey != 0

/-- Steps 6 and 7 of R465, and the encryption that R467 asks for. -/
def recordOk (o body : Bytes) : Bool :=
  let f := fenceOf body
  ((sigBlockOf o).enc || !f.seals?) && (f.target == 0 || f.target.toNat == moduleId) && fenceLayoutOk body

/-- Verification of a fence record (R465): its body where every step passes. -/
def State.verifyFence (s : State) (a len : Nat) : Option Bytes :=
  (s.verifyObject a len 2).bind (fun b => if recordOk (s.dramBytes a len) b then some b else none)

/-- The stored record verified again at power-up, steps 2 to 7 (R469). COMMISSION in it is no commissioning (log 158). -/
def State.verifyStored (s : State) (o : Bytes) : Option Bytes :=
  if s.sec.builderHash == some (sigBlockOf o).key then (s.openBody o 2).bind (fun b => if recordOk o b then some b else none) else none

/-- Check 2 of FENCE.LOAD (R469): the new record admits what runs. -/
def State.fenceFits (s : State) (f : Fence) : Bool :=
  let old := (s.sec.fence.map (fun x => x.seals)).getD []
  s.liveChans.all (fun ch =>
      let c := s.chan ch
      fenceAdmits f c.adm && fenceTableOk f c c.mdl && fenceTableOk f c { c.mdl with par := c.mdl.parN }) &&
    (List.range 8).all (fun k => decide (s.foldResv k ≤ f.foldLim.getD k 0)) &&
    (tkeys s.terms).all (fun t =>
      let x := s.term t
      let forced (n : Nat) : Bool := n == 1 || n == 2
      !(forced x.forceEff || forced (x.forceQ.getD 0)) || fieldN (tget FenceTerm.none f.terms t).tflags 0 1 == 1) &&
    (List.range 16).all (fun n => (s.armedAtPort n).isEmpty || f.seals.getD n ⟨0, 0, 0⟩ == old.getD n ⟨0, 0, 0⟩)

/-- Commissioning (R462). `got` is the digest read back where the fuses did not verify (R461). -/
def commission (b : SigBlock) (got : Option (BitVec 384)) (s : State) : State :=
  if s.sec.builderHash.isNone then
    let s := if got.isSome then secEvent 5 s else s
    secEvent 2 (s.updSec (fun x => { x with builderHash := some (got.getD b.key) }))
  else s

/-- The own part of FENCE.LOAD (R310, R469). -/
def fenceOwn (got : Option (BitVec 384)) (e : CmdEntry) (s : State) : State :=
  let a := (opN e 0).toNat
  let len := (opN e 1).toNat
  let b := s.sigBlock a len
  match s.verifyFence a len with
  | none => refuse e stAuth 1 (secEvent 0 s)
  | some body =>
    let f := fenceOf body
    checked e [(s.fenceFits f, stFence, 2)] (held e fun s =>
      let s := commission b got (acceptLater e 0 s)
      startBurn b f.version 0x0901 (19, 0) (s.updSec (fun x => { x with fencePend := some f, pendObj := s.dramBytes a len }))) s

/-- FENCE_LOAD. -/
def execFenceLoad (e : CmdEntry) (got : Option (BitVec 384)) (s : State) : Res :=
  .next (commandRow 0x0901 (fenceOwn got) e s)

/-- A record is in force: a port whose seal entry or key differs takes its settings at its next block start (R469, R470, R478). -/
def installFence (f : Fence) (s : State) : State :=
  let oldKey := (s.sec.fence.map (fun x => x.sealKey)).getD 0
  let s := each (List.range 16) (fun n s =>
    let x := f.seals.getD n ⟨0, 0, 0⟩
    let now := (s.port n).sealPend.getD (s.port n).sealSet
    if x == now && f.sealKey == oldKey then s
    else s.updPort n (fun p => { p with sealPend := some x, sealAt := 256 * s.bell.bPt + s.bell.bFrac })) s
  s.updSec (fun y => { y with fence := some f })

/-- FENCE_IN_FORCE: at the first B(j) after acceptance the new record replaces the old one whole, also in the store (R469). -/
def execFenceInForce (s : State) : Res :=
  match s.sec.fencePend with
  | none => .next s
  | some f =>
    let s := (installFence f s).updSec (fun y => { y with fenceStored := some y.pendObj, fencePend := none, pendObj := [] })
    .next (finishReady 0x0901 (19, 0) (markProg 0x0901 (19, 0) (fun x => { x with ready := true }) s))

-- ---------------------------------------------------------------- attestation (R474)

def Frozen.reg (x : Frozen) (a : Nat) : Nat := (tget (regReset a) x.regs a).toNat
def Frozen.acct (x : Frozen) (a : Nat) : Nat := (tget (0 : BitVec 48) x.wide a).toNat

/-- Channels that use an image: a model image is used by those with a valid model in a flock that holds it (log 60). -/
def State.imageUsers (s : State) (i : Nat) : Nat :=
  if (s.image i).kind = 1 then (s.liveChans.filter (fun ch => (s.chan ch).loop.img == some i)).length
  else (s.liveChans.filter (fun ch => (s.meng (s.chan ch).flock).img == some i && (s.chan ch).mdl.valid)).length

/-- Bytes 0x0000 to 0x86DF of the report. -/
def State.attestBody (s : State) (nonce : List (BitVec 8)) (x : Frozen) : List (BitVec 8) :=
  let imgs := tkeys s.images
  let w (a : Nat) : List (BitVec 8) := leBytes 4 (x.reg a)
  let flags := b2n s.col.c4 + 2 * b2n s.sec.unlocked + 4 * b2n s.sec.fence.isSome + 8 * b2n s.sec.builderHash.isSome +
    16 * b2n s.modOpen + 256 * s.tal.broken
  leBytes 4 0x54415441 ++ leBytes 2 1 ++ leBytes 2 imgs.length ++ leBytes 8 moduleId ++ nonce ++
    identityPublic ++ leBytes 15 0 ++ leBytes 48 (s.sec.builderHash.getD 0).toNat ++
    leBytes 48 ((s.sec.fence.map (fun (f : Fence) => f.hash)).getD 0).toNat ++
    (List.range 16).flatMap (fun i => leBytes 1 (tget 0 s.sec.rollback i)) ++ leBytes 4 s.sec.debugCount ++
    leBytes 4 (s.reg calSecA).toNat ++ leBytes 8 s.bell.frame.toNat ++ leBytes 4 flags ++ leBytes 12 0 ++
    (List.range 16).flatMap (fun n => (List.range 8).flatMap (fun i => leBytes 8 (x.acct (spTally n i)))) ++
    (List.range 32).flatMap (fun f => w (leaseTally f)) ++
    (List.range 8).flatMap (fun k => (List.range 4).flatMap (fun i => w (segTally k i))) ++
    (List.range 8).flatMap (fun r => w (crGranted r) ++ w (crReturned r)) ++
    (List.range 5).flatMap (fun c => (List.range 4).flatMap (fun i => w (clsCnt c i))) ++ w fltWr ++ leBytes 12 0 ++
    (List.range 512).flatMap (fun t => leBytes 6 (x.acct (modReg t 0x18)) ++ leBytes 6 (x.acct (modReg t 0x20)) ++
      leBytes 6 (x.acct (modReg t 0x28)) ++ leBytes 6 (x.acct (vsUnconf t)) ++ w (modReg t 0x0C) ++ leBytes 4 0) ++
    (imgs.take 256).flatMap (fun i =>
      let y := s.image i
      leBytes 4 y.id.toNat ++ leBytes 4 y.version.toNat ++ leBytes 2 y.kind ++ leBytes 1 y.slot ++ leBytes 1 0 ++
        leBytes 4 (s.imageUsers i) ++ leBytes 48 y.hash.toNat) ++
    leBytes (64 * (256 - imgs.length)) 0

/-- The report is signed and written (R474); the nonce of the signature is a free value. -/
def writeReport (x : Attest) (s : State) : State :=
  let b := s.attestBody x.nonce s.tallyView
  let (n, s) := s.draw
  s.putDram x.addr (b ++ ecdsaSign identityPriv (sha384 b) ((Config.freeBits 384 n).toNat % (ecN - 1) + 1))

/-- Reports that wait for their latch are written, and their commands complete. -/
def attestLatch (s : State) : State :=
  if s.attest.isEmpty then s
  else
    let s := { forL s.attest writeReport s with attest := [] }
    finishWhere (fun x => opcodeOf x.entry == 0x0903) stOk (·.result) s

/-- ATTEST (R474): the tallies are latched at the next B(j) at least 64 cc later, or at acceptance while the Bellwether is lost. -/
def execAttest (e : CmdEntry) (s : State) : Res :=
  .next (commandRow 0x0903 (fun e s =>
    let a := (opN e 0).toNat
    let r := (opN e 1).toNat
    checked e [(inWindows a 48 && inWindows r 34624, stSize, 1)] (fun s =>
      let s := { acceptLater e 0 s with attest := s.attest ++ [{ nonce := s.dramBytes a 48, addr := r }] }
      if s.bell.dead then attestLatch s else s) s) e s)

/-- TALLY_LATCH: at a B(j), after its releases and the accounts of the carrier periods it ends, every tally counter is latched for a
freeze, and FROZEN is set, and for the reports of ATTEST (R452, R474). -/
def execTallyLatch (s : State) : Res :=
  let s := if s.tal.freezePend then { s with tal := { s.tal with freezePend := false, frozen := some s.tallyView } } else s
  .next (attestLatch s)

-- ---------------------------------------------------------------- debug unlock (R475 to R477)

/-- The challenge's 80 bytes under a MODULE_ID (R475), and under this module's. -/
def Chal.bytesOf (id : Nat) (c : Chal) : List (BitVec 8) :=
  leBytes 4 0x4C484344 ++ leBytes 2 1 ++ leBytes 2 0 ++ leBytes 8 id ++ leBytes 4 c.count ++ leBytes 4 c.seconds.toNat ++
    leBytes 48 c.random.toNat ++ leBytes 8 0

def Chal.bytes (c : Chal) : List (BitVec 8) := c.bytesOf moduleId

/-- DEBUG_CHAL (R475): the 48 random bytes are a free value. -/
def execDebugChal (e : CmdEntry) (s : State) : Res :=
  .next (commandRow 0x0904 (fun e s =>
    let a := (opN e 0).toNat
    checked e [(inWindows a 80, stSize, 1)] (fun s =>
      let (n, s) := s.draw
      let c : Chal := { count := s.sec.debugCount, seconds := s.reg calSecA, random := Config.freeBits 384 n }
      acceptNow e 0 ((s.updSec (fun x => { x with chal := some c })).putDram a c.bytes)) s) e s)

/-- CHALLENGE_LAPSE: 60 s have passed (R475). -/
def execChallengeLapse (s : State) : Res := .next (s.updSec (fun x => { x with chal := none }))

/-- DEBUG_HALT on a channel by the security pair (R477). -/
def debugStop (ch : Nat) (s : State) : State :=
  let src := srcCore (if (s.core 1).active then 3 else 2)
  let r := mkRep src 15 2 2 1 ch
  let s := holdLive r (raiseOwn src 2 2 1 ch s)
  match (s.chan ch).st with
  | .idle | .armed => s.updCol (fun c => { c with reacts := c.reacts ++ [{ chan := ch, rep := r }] })
  | _ => stopChannel ch r s

/-- The signature of a response verifies over the digest of the challenge and response bytes 0x00 to 0x6F (R476). -/
def respSigned (chal r : Bytes) : Bool :=
  ecdsaVerify ((r.drop 8).take 97) (sha384 (chal ++ r.take 0x70)) ((r.drop 0x70).take 96)

def respVerifies (c : Chal) (r : Bytes) : Bool := respSigned c.bytes r

/-- DEBUG_RESP (R476, R477). `fuseOk` says that the fuse's burn verified. An access once open stays open until the next power-up. -/
def execDebugResp (e : CmdEntry) (fuseOk : Bool) (s : State) : Res :=
  .next (commandRow 0x0905 (fun e s =>
    let r := s.dramBytes (opN e 0).toNat 208
    let len := (opN e 1).toNat
    let ok := (s.sec.chal.map (fun c => respVerifies c r)).getD false
    let s := s.updSec (fun x => { x with chal := none })
    checked e [(len == 208 && s.sec.builderHash == some (digestOf ((r.drop 8).take 97)) && ok && s.sec.debugCount != 255, stAuth, 1)] (fun s =>
      let scope := bytesAt r 6 2
      let s := s.updSec (fun x => { x with debugCount := if fuseOk then x.debugCount + 1 else x.debugCount, scope := x.scope ||| scope
                                           unlockLog := x.unlockLog ++ [(scope, s.reg calSecA)] })
      let s := if fuseOk then s else secEvent 5 s
      let s := each s.liveChans debugStop (acceptLater e 0 s)
      debugDone (each (tkeys s.gates) gateLow s)) s) e s)

end Sys2Proof.Machine
end

