-- ==== Sys2Proof/Machine/Bist.lean ====
section
/-! DEFINITION. Built-in self-test, deferred actions, the IEEE 1149.1 port (14 R404, 15 R420, 21). -/

namespace Sys2Proof.Machine

open Sys2Proof

-- ---------------------------------------------------------------- units (R524, R525)

/-- The source of a unit (R433). -/
def unitSource (level unit : Nat) : Nat :=
  match level with
  | 1 => srcLoop unit
  | 2 => srcModel unit
  | 3 => srcFlock unit
  | 4 => srcFlock (unit / 8)
  | 5 => srcFold (unit / 1024)
  | 6 => srcFs unit
  | _ => srcCore unit

/-- Channels whose token a loop engine holds. -/
def State.heldBy (s : State) (e : Nat) : List Nat :=
  (s.chansOfFlock (e / 4)).filter (fun ch =>
    match (s.chan ch).lease.holder with | some b => (s.chan ch).engOf b == e | none => false)

/-- A module core pair by unit 2r + b. -/
def State.corePair (s : State) (u : Nat) : Pair := (s.core (u / 2)).pair (u % 2 == 1)
def setCorePair (u : Nat) (x : Pair) (s : State) : State := s.setCore (u / 2) ((s.core (u / 2)).put (u % 2 == 1) x)

/-- Check 1 of BIST.RUN: the unit is out of service, or its standby can take its work (R312, R422, R524, R527). -/
def State.bistFree (s : State) (level u : Nat) : Bool :=
  match level with
  | 1 => (s.heldBy u).all (fun ch => s.eligible [] ch)
  | 2 =>
    let g := u ^^^ 1
    (s.hlt (128 + u)).hstate != 0 || (s.meng u).covered ||
      ((s.hlt (128 + g)).hstate == 0 && s.schedFits g (s.validOf g).length (s.validOf u).length)
  | 3 => (s.chansOfFlock u).isEmpty
  | 4 => (s.senseOwner u).isNone && s.liveChans.all (fun ch =>
      let m := (s.chan ch).mdl
      let names (p : List (BitVec 8)) : Bool := decide (leVal ((p.drop 0x2C).take 2) = 512 + u)
      !names m.par && !names m.parN)
  | 5 =>
    let t := u / 16
    s.penRole t (u % 16) == spare && !(s.substSt t == 1 && s.penIn t == u % 16)
  | 6 =>
    let x := (s.fsPair u).st
    decide (2 ≤ x) || (x == 0 && (s.fsPair (u ^^^ 1)).st == 0)
  | _ =>
    let x := (s.corePair u).st
    x == 1 || decide (3 ≤ x)

/-- The unit carries work that must move first (R527). -/
def State.bistMoves (s : State) (level u : Nat) : Bool :=
  match level with
  | 1 => !(s.heldBy u).isEmpty
  | 2 => (s.hlt (128 + u)).hstate == 0 && !(s.meng u).covered
  | 6 => (s.fsPair u).st == 0
  | _ => false

/-- What a unit was before its test; 8 is added for a model engine that was covered. -/
def State.unitState (s : State) (level u : Nat) : Nat :=
  match level with
  | 1 => (s.hlt u).hstate
  | 2 => (s.hlt (128 + u)).hstate + (if (s.meng u).covered then 8 else 0)
  | 6 => (s.fsPair u).st
  | 7 => (s.corePair u).st
  | _ => 0

-- ---------------------------------------------------------------- start of a test (R527, R528)

/-- An engine goes under test. -/
def engineTest (e : Nat) (s : State) : State :=
  (s.updHlt e (fun h => { h with hstate := 2, st := 2 })).setRun e { s.run e with live := false }

/-- The neighbour covers a model engine in service whose test starts (R343, R527). -/
def coverForTest (f : Nat) (s : State) : State :=
  let g := f ^^^ 1
  if (s.hlt (128 + f)).hstate != 0 || (s.meng f).covered then s
  else
    let s := (s.updMEng f (fun x => { x with covered := true })).updMEng g (fun x => { x with covering := true })
    meEvent g 3 0 ((s.bump (hltReg (128 + g) 0x10)).bump (hltReg (128 + f) 0x14))

/-- The test of a controller's unit starts: the unit is under test and carries no work. -/
def bistStart (c : Nat) (s : State) : State :=
  let b := s.bist c
  let u := b.unit
  let was := if b.level = 1 then (s.standbysOf u).map (fun ch => (ch, (s.chan ch).lease)) else []
  let s := s.setBist c { b with st := 2, back := s.unitState b.level u, was }
  match b.level with
  | 1 => loseStandbys u (engineTest u s)
  | 2 => engineTest (128 + u) (coverForTest u s)
  | 5 => (movePen (u / 16) (u % 16) underTest s).updTerm (u / 16) (fun x =>
      { x with selfTest := if x.selfTest = some (u % 16) then none else x.selfTest, underBist := x.underBist ++ [u % 16] })
  | 6 =>
    let g := u ^^^ 1
    let y := s.fsPair g
    let s := if (s.fsPair u).st = 0 ∧ y.st = 0 then s.setFs g { y with st := 1 } else s
    s.setFs u { s.fsPair u with st := 3 }
  | 7 => setCorePair u { s.corePair u with st := 4 } s
  | _ => s

/-- A controller takes a unit: its work moves first, or its test starts at once. -/
def bistTake (level kind u : Nat) (auto : Bool) (s : State) : State :=
  let c := ctrlOf level u
  let s := s.setBist c { s.bist c with level, kind, unit := u, auto, st := 1 }
  if !s.bistMoves level u then bistStart c s
  else if level = 1 then each (s.heldBy u) (fun ch s => s.updLease ch (fun x => { x with yield_ := true })) s
  else s

/-- BIST.RUN's own checks: a controller that is free, and R527 (R312, R525). -/
def bistChecks (e : CmdEntry) (s : State) : List (Bool × Nat × Nat) :=
  let level := fld (opN e 0) 28 4
  let u := fld (opN e 0) 0 17
  [((s.bist (ctrlOf level u)).st == 0, stBusy, 0xF6), (s.bistFree level u, stState, 1)]

/-- BIST.RUN's own checks and its effect; a busy controller refuses it (R312, R525, R527). -/
def bistOwn (e : CmdEntry) (s : State) : State :=
  let o := opN e 0
  let level := fld o 28 4
  let u := fld o 0 17
  checked e (bistChecks e s)
    (held e fun s => acceptLater e 0 (bistTake level (fld o 24 4) u false s)) s

def execBistRun (e : CmdEntry) (s : State) : Res := .next (commandRow 0x0A01 bistOwn e s)

/-- A unit's work can have moved: the engine holds no token; the neighbour of a model engine, or of a fold supervisor pair, that is
still in service can stand in for it now (R527, log 172). -/
def State.workMoves (s : State) (level u : Nat) : Bool :=
  match level with
  | 1 => !s.holdsToken u
  | 2 => s.bistFree 2 u
  | 6 => s.bistFree 6 u
  | _ => true

/-- BIST_WORK_MOVED: the tokens have moved, the neighbour covers at its motion period, or takes over at a B(j); the test starts. It
waits while what would stand in for the unit is out of service (R527). -/
def execBistWorkMoved (c : Fin 9) (s : State) : Res :=
  let b := s.bist c.val
  if b.st != 1 || !s.workMoves b.level b.unit then .next s else .next (bistStart c.val s)

/-- Units of the automatic tests: engines 0 to 159, then FS0 to FS7, then module core pairs. -/
def autoUnit (n : Nat) : Nat × Nat :=
  if n < 128 then (1, n) else if n < 160 then (2, n - 128) else if n < 168 then (6, n - 160) else (7, n - 168)

/-- A unit waits for its automatic test: a quarantined engine, a stopped pair (R420, R425). -/
def State.awaitsTest (s : State) (level u : Nat) : Bool :=
  match level with
  | 6 => (s.fsPair u).st == 2
  | 7 => (s.corePair u).st == 3
  | _ => s.unitState level u == 1

/-- ENGINE_AUTO_TEST_START: logic and memory BIST once the controller is free and the module's windows are closed (R420, R425,
R525, R530). -/
def execEngineAutoTestStart (n : Fin 176) (s : State) : Res :=
  let (level, u) := autoUnit n.val
  if (s.bist (ctrlOf level u)).st != 0 || s.modOpen || !s.awaitsTest level u then .next s
  else
    let s := s.updSvc (fun v => { v with defer := v.defer.filter (fun d => d != .autoTest n.val) })
    .next (bistTake level 2 u true s)

-- ---------------------------------------------------------------- the verdict (R526, R529)

/-- The result of a test in the health registers of its unit. -/
def noteTest (level u : Nat) (pass : Bool) (s : State) : State :=
  let t := s.reg calSecA
  let r := if pass then 1 else 2
  match level with
  | 1 => s.updHlt u (fun h => { h with testResult := r, lastTest := t })
  | 2 => s.updHlt (128 + u) (fun h => { h with testResult := r, lastTest := t })
  | 6 => s.setFs u { s.fsPair u with testResult := r, lastTest := t }
  | 7 => setCorePair u { s.corePair u with testResult := r, lastTest := t } s
  | _ => s

/-- A unit that passed returns (R421, R426, R427, R344, R529); one that was retired stays so. -/
def unitReturns (level u back : Nat) (s : State) : State :=
  match level with
  | 1 => if back = 4 then s.updHlt u (fun h => { h with hstate := 4, st := 0 }) else rejoinOrWait u s
  | 2 => s.updHlt (128 + u) (fun h => { h with hstate := if back % 8 = 4 then 4 else 3, st := 0 })
  | 4 => startSettling u s
  | 5 => (movePen (u / 16) (u % 16) spare s).updTerm (u / 16) (fun x => { x with underBist := x.underBist.filter (fun p => p != u % 16) })
  | 6 => if back = 4 then s.setFs u { s.fsPair u with st := 4 } else s
  | 7 => setCorePair u { s.corePair u with st := if back = 5 then 5 else 2 } s
  | _ => s

/-- BIST_FAIL of a unit is reported in class C1, and the health record holds it (R529). -/
def bistFailed (level u : Nat) (s : State) : State :=
  queueRep { source := unitSource level u, cause := Config.bistFailCause.toNat, cls := 1, okind := 0, object := 0 }
    { s with nv := { s.nv with failed := s.nv.failed ++ [(level, u)] } }

/-- A flock SRAM or a sense port is retired until the next power-up (R529). -/
def retireUnit (level u : Nat) (s : State) : State :=
  let b := s.bist (ctrlOf level u)
  s.setBist (ctrlOf level u) { b with bad := if b.bad.contains (level, u) then b.bad else b.bad ++ [(level, u)] }

/-- A unit that failed is retired until the next power-up (R196, R420, R425, R529). -/
def unitFails (level u : Nat) (s : State) : State :=
  bistFailed level u (match level with
    | 1 => retireEngine u s
    | 2 => retireEngine (128 + u) s
    | 3 => retireUnit 3 u s
    | 4 => retireUnit 4 u s
    | 5 => (movePen (u / 16) (u % 16) retired s).updTerm (u / 16) (fun x => { x with underBist := x.underBist.filter (fun p => p != u % 16) })
    | 6 => s.setFs u { s.fsPair u with st := 4 }
    | 7 => setCorePair u { s.corePair u with st := 5 } s
    | _ => s)

/-- The completion of the BIST.RUN of a unit. -/
def finishBist (level u status : Nat) (result : W) (s : State) : State :=
  finishWhere (fun p => opcodeOf p.entry == 0x0A01 && p.obj == some (18, u + level * 2 ^ 17)) status (fun _ => result) s

/-- BIST_VERDICT: the test of a controller ends with its signature, which is compared with the golden value (R526, R532). -/
def execBistVerdict (c : Fin 9) (sig : BitVec 64) (s : State) : Res :=
  let b := s.bist c.val
  if b.st != 2 then .next s
  else
    let gold := Config.golden b.level b.kind
    let pass := sig == gold
    let s := s.setBist c.val { b with st := 0, sig, gold, cntRun := b.cntRun + 1, cntFail := if pass then b.cntFail else b.cntFail + 1 }
    let s := noteTest b.level b.unit pass s
    let s := if pass then unitReturns b.level b.unit b.back s else unitFails b.level b.unit s
    .next (finishBist b.level b.unit stOk (if pass then 0 else 1) s)

/-- The lease of a channel is again what it was when the test of its standby started, where that engine is still its standby. -/
def standbyBack (e : Nat) (x : Nat × Lease) (s : State) : State :=
  let c := s.chan x.1
  if !c.live || c.lease.holder != x.2.holder || c.lease.grant != x.2.grant || c.lease.lost || c.engOf (!((x.2.holder.or x.2.grant).getD false)) != e then s
  else s.updLease x.1 (fun l => { l with
    stby := x.2.stby, mirror := x.2.mirror, firstCmp := x.2.firstCmp, unshadowed := x.2.unshadowed })

/-- A loop engine is what it was before its test: its health state, its channels' standby, and its automatic test still due. -/
def loopEngBack (b : Bist) (s : State) : State :=
  let s := forL b.was (standbyBack b.unit) (s.updHlt b.unit (fun h => { h with hstate := b.back }))
  if b.back = 1 then queueTest b.unit s else s

/-- A model engine is what it was before its test: in service it runs its channels again, and its neighbour's cover ends. -/
def modelEngBack (b : Bist) (s : State) : State :=
  let f := b.unit
  let g := f ^^^ 1
  let s := s.updHlt (128 + f) (fun h => { h with hstate := b.back % 8 })
  let s := if b.back % 8 = 1 then queueTest (128 + f) s else s
  if b.back = 0 ∧ (s.meng f).covered then
    meEvent g 4 0 ((s.updMEng f (fun x => { x with covered := false })).updMEng g (fun x => { x with covering := false }))
  else s

/-- BIST_ABANDON: the unit's domain lost power; it is what it was before the test (R531). Tokens that were still to move stay. -/
def bistAbandon (c : Nat) (s : State) : State :=
  let b := s.bist c
  let s := s.setBist c { b with st := 0 }
  let s := if b.st != 2 then
      (if b.level = 1 then each (s.heldBy b.unit) (fun ch s => s.updLease ch (fun x => { x with yield_ := false })) s else s)
    else match b.level with
    | 1 => loopEngBack b s
    | 2 => modelEngBack b s
    | 5 => (movePen (b.unit / 16) (b.unit % 16) spare s).updTerm (b.unit / 16) (fun x =>
        { x with underBist := x.underBist.filter (fun p => p != b.unit % 16) })
    | _ => s
  finishBist b.level b.unit stState 0 s

-- ---------------------------------------------------------------- deferred actions (R404)

/-- Whether the scope of a deferred action has an open window. -/
def State.deferOpen (s : State) : Deferred → Bool
  | .command e _ _ => s.scopeOpen e
  | .autoTest _ => true
  | .rejoin _ => s.modOpen
  | _ => s.stnOpen

/-- The own part of a deferred command by its opcode. -/
def deferredOwn (got : Option (BitVec 384)) (peerArmed : Bool) (now : Nat) (e : CmdEntry) (s : State) : State :=
  match opcodeOf e with
  | 0x0801 => diagOwn e s
  | 0x0901 => fenceOwn got e s
  | 0x0A01 => bistOwn e s
  | 0x0B01 => domainOwn now e s
  | _ => rescanOwn peerArmed e s

/-- Run a command whose completion a host reset or a halt took: it posts none (R503, R516). -/
def silently (e : CmdEntry) (f : State → State) (s : State) : State :=
  let old := (s.ring e.ring.val).done
  let s := (f s).updRing e.ring.val (fun x => { x with done := old })
  s.updSvc (fun v => { v with inProg := v.inProg.map (fun p => if p.entry == e then { p with silent := true } else p) })

/-- One deferred action is carried out, its checks repeated. -/
def runDeferred (got : Option (BitVec 384)) (peerArmed : Bool) (now : Nat) (d : Deferred) (s : State) : State :=
  match d with
  | .command e blk quiet =>
    let go (s : State) : State := withBlock e blk (runCommand (deferredOwn got peerArmed now) e) s
    if quiet then silently e go s else go s
  | .reselect => reselectNow s
  | .revert => revertCheck s
  | .autoTest _ => s
  | .rejoin e => if (s.hlt e).hstate = 3 then rejoinEngine e s else s

/-- DEFERRED_ACTION_RUN: at a B(j) the oldest action whose scope has no open window (R404). The operands are the read-back of
a commissioning fuse that did not verify, and whether a channel of another module is armed. -/
def execDeferredActionRun (got : Option (BitVec 384)) (peerArmed : Bool) (now : Nat) (s : State) : Res :=
  match s.svc.defer.find? (fun d => !s.deferOpen d) with
  | none => .next s
  | some d => .next (runDeferred got peerArmed now d (s.updSvc (fun x => { x with defer := x.defer.erase d })))

-- ---------------------------------------------------------------- IEEE 1149.1 (R533, R534)

/-- OPEN of JTAG_STAT. -/
def State.jtagOpen (s : State) : Bool := s.sec.unlocked && fieldN s.sec.scope 1 1 == 1

/-- The bypass register captures a 0. -/
def jtagBypass (code : BitVec 8) (s : State) : State :=
  { s with jtag := { s.jtag with ir := code, captured := [false], driven := none } }

/-- The fields of IDCODE. -/
def State.idcode (s : State) : W :=
  BitVec.ofNat 32 (s.regField 0 0 4 * 2 ^ 28 + 0x0256 * 2 ^ 12 + Config.manufacturer.toNat * 2 + 1)

/-- JTAG_BYPASS: BYPASS, a code with no instruction, or any code while the port is locked. The codes of the other instructions are
their rows' while it is open: BYPASS is not what they select. -/
def execJtagBypass (code : BitVec 8) (s : State) : Res :=
  if s.jtagOpen && decide (code.toNat ≤ 2) then .next s else .next (jtagBypass code s)

/-- The levels of the beam gates as the boundary register captures them (R533, log 173). -/
def State.gatePins (s : State) : List Bool := (List.range 64).map (fun g => (s.gate g).level)

/-- JTAG_IDCODE. -/
def execJtagIdcode (s : State) : Res :=
  if s.jtagOpen then
    .next { s with jtag := { s.jtag with ir := 1, captured := bitsOf 32 s.idcode.toNat, driven := none } }
  else .next (jtagBypass 1 s)

/-- JTAG_SAMPLE_PRELOAD: the boundary register captures the contacts, `pins` the levels of those other than the beam gates, and takes
the bits shifted in. -/
def execJtagSamplePreload (pins shift : List Bool) (s : State) : Res :=
  if s.jtagOpen then
    .next { s with jtag := { ir := 2, captured := pins ++ s.gatePins, latch := shift, driven := none } }
  else .next (jtagBypass 2 s)

/-- JTAG_EXTEST: the contacts are driven from the boundary register's latches, which `shift` renews. -/
def execJtagExtest (pins : List Bool) (shift : Option (List Bool)) (s : State) : Res :=
  if s.jtagOpen then
    let l := shift.getD s.jtag.latch
    .next { s with jtag := { ir := 0, captured := pins ++ s.gatePins, latch := l, driven := some l } }
  else .next (jtagBypass 0 s)

end Sys2Proof.Machine
end

