-- ==== Sys2Proof/Machine/Startup.lean ====
section
/-! DEFINITION. Power-up and power-down, quick BIST, clock loss, loss of a domain's supply (01 R40, 16 R436, 19 R481 to R486). -/

namespace Sys2Proof.Machine

open Sys2Proof

def State.updBoot (s : State) (f : Boot → Boot) : State := { s with boot := f s.boot }

/-- The calendar registers, which PD47 holds (R501). -/
def calWord (a : Nat) : Bool := decide (0x810 ≤ a ∧ a < 0x82C)

/-- PS_STAT of a terminal. -/
def isPsStat (a : Nat) : Bool :=
  let o := (a - 0x400000) % 0x80000
  decide (0x400000 ≤ a ∧ a < 0x1400000 ∧ 0x4000 ≤ o ∧ o < 0x4400 ∧ o % 0x40 = 4)

/-- The registers that read the health record after a power-up: pen roles, segment maps, what follows from them, and the counts of
segments (R187, R217). -/
def healthWord (a : Nat) : Bool :=
  let o := (a - 0x400000) % 0x80000
  isPsStat a || decide (0x400000 ≤ a ∧ a < 0x1400000) &&
    (decide (0x4000 ≤ o ∧ o < 0x4400 ∧ o % 0x40 = 8) || decide (0x4400 ≤ o ∧ o < 0x4800) ||
      decide (0x70040 ≤ o ∧ o < 0x70050 ∧ (a - 0x400000) / 0x80000 % 4 = 0))

/-- The register words that a power-up leaves: of PS_STAT the fields NSEG and TERM_WORN. -/
def State.keptRegs (s : State) : State :=
  let k := s.clearRegs (fun a => !(calWord a || healthWord a))
  each ((tkeys k.regs).filter isPsStat) (fun a s => s.updReg a (fun w => w &&& 0x01FF0008)) k

/-- A pen whose self-test or overlap the power-down cut is a spare again (R187, R188, log 130). -/
def cutPens (s : State) : State :=
  let terms := (List.range 512).filter (fun t => s.reg (psReg t 0x08) != 0x50000000)
  each terms (fun t s =>
    let s := if s.substSt t = 2 then movePen t (s.penIn t) spare s else s
    each (List.range 16) (fun p s => if s.penRole t p = underTest then movePen t p spare s else s) s) s

/-- What is not reset by a power-up: fuses and non-volatile stores, the health record, the calendar, the precharge limiters, which the
buses power, and the commands that wait outside (R441, R461, R469, R477, R501, R537). -/
def powerUp (head : Bool) (s : State) : State :=
  let s := cutPens s
  { State.reset with
    pending := s.pending
    regs := s.keptRegs.regs
    hiLatch := s.hiLatch.filter (fun e => calWord e.1)
    folds := forL (List.range 8) (fun k t => tset Fold.none t k { Fold.none with precharge := (s.fold k).precharge }) []
    boot := { State.reset.boot with head, calPend := s.boot.calPend }
    sec := { Sec.reset with
      builderHash := s.sec.builderHash, rollback := s.sec.rollback, debugCount := s.sec.debugCount
      fenceStored := s.sec.fenceStored, unlockLog := s.sec.unlockLog }
    col := { Col.reset with lastC4 := s.col.c4rec }
    nv := s.nv
    free := s.free }

/-- AUX_SUPPLY_RISE: start-up begins at phase 0; `head` is the STATION_HEAD strap. A calendar that lost every supply restarts at 0, its
registers at their reset values, with CAL_LOST (R481, R500, R501). An event of the calendar that still pends shows in INT_SUMMARY (R521). -/
def execAuxSupplyRise (head : Bool) (s : State) : Res :=
  let dead := s.boot.calDead
  let s := powerUp head s
  if dead then
    let s := { s.clearRegs calWord with hiLatch := [] }
    .next (calEvent 0 1 (s.updBoot (fun b => { b with calPend := none })))
  else .next (signal calEvt (s.setField calStat 1 2 0))

/-- ALWAYS_ON_READY: phase 0 ends; without the auxiliary supply it does not (R486). -/
def execAlwaysOnReady (s : State) : Res :=
  if s.boot.phase = 0 ∧ !s.boot.down then .next (s.updBoot (fun b => { b with phase := 1 })) else .next s

/-- SECURITY_BOOT_DONE: the firmware verifies or the module halts in phase 7; the stored fence record is verified again (R469, R481,
R484). `fw` is the version in MOD_FW. -/
def execSecurityBootDone (fwOk : Bool) (fw : W) (s : State) : Res :=
  if s.boot.phase != 1 then .next s
  else if !fwOk then .next (s.updBoot (fun b => { b with phase := 7, bootFail := true }))
  else
    let s := ((s.updBoot (fun b => { b with phase := 2 })).setReg modFw fw).updSec (fun x => { x with idReady := true })
    match s.sec.fenceStored with
    | none => .next s
    | some o => .next (match s.verifyStored o with | some b => installFence (fenceOf b) s | none => secEvent 1 s)

/-- CORES_STARTED: phase 2 ends. -/
def execCoresStarted (s : State) : Res :=
  if s.boot.phase = 2 then .next (s.updBoot (fun b => { b with phase := 3 })) else .next s

/-- FOLD_SLOT_START: the fold's gate-drive and flock domains come on, its flock SRAM cleared; the slots follow each other (R35, R482). -/
def execFoldSlotStart (k : Fin 8) (s : State) : Res :=
  if s.boot.phase != 3 || s.boot.foldUp != 2 ^ k.val - 1 then .next s
  else .next (each ([32 + k.val] ++ (List.range 4).map (4 * k.val + ·)) (fun d s => if s.domOn d then s else domainOn d s) s)

/-- FOLD_SLOT_END: a bus below 20 V stops the fold by the undervoltage trip; after the eighth slot quick BIST starts (R482). -/
def execFoldSlotEnd (k : Fin 8) (low : Bool) (now : Nat) (s : State) : Res :=
  if s.boot.phase != 3 || !s.foldOn k.val || fieldN s.boot.foldUp k.val 1 == 1 then .next s
  else
    let s := s.updBoot (fun b =>
      { b with foldUp := b.foldUp + 2 ^ k.val, phase := if b.foldUp + 2 ^ k.val = 255 then 4 else 3 })
    .next (if low then foldLevel k.val 1 now true s else s)

-- ---------------------------------------------------------------- quick BIST (R483)

/-- Units that quick BIST tests and that have health registers. -/
def quickUnits : List (Nat × Nat) :=
  (List.range 128).map (fun u => (1, u)) ++ (List.range 32).map (fun u => (2, u)) ++ (List.range 8).map (fun u => (6, u)) ++
    [(7, 1), (7, 3), (7, 5), (7, 7)]

/-- A fold supervisor pair is retired; its neighbour serves both folds, or both folds stop (R483). -/
def quickFs (k : Nat) (s : State) : State :=
  let g := k ^^^ 1
  let s := s.setFs k { s.fsPair k with st := 4 }
  if (s.fsPair g).st = 0 then s.setFs g { s.fsPair g with st := 1 }
  else stopReport false (srcFs k) 3 0 (stopReport false (srcFs g) 3 0 s)

/-- A module core pair is retired; where the other of its role is in step it has the role, where none is left the module stops. -/
def quickCore (u : Nat) (s : State) : State :=
  let was := (s.corePair u).st
  let o := u ^^^ 1
  let s := setCorePair u { s.corePair u with st := 5 } s
  if (s.corePair o).st = 5 then stopReport false (srcCore u) 4 0 s
  else if was = 0 ∧ (s.corePair o).st = 1 then
    let s := setCorePair o { s.corePair o with st := 0 } s
    s.setCore (u / 2) { s.core (u / 2) with active := o % 2 == 1, takeovers := (s.core (u / 2)).takeovers + 1 }
  else s

/-- What quick BIST does with a unit that fails, by level and unit of R524 (R483). -/
def quickFail (level u : Nat) (s : State) : State :=
  let s := bistFailed level u (noteTest level u false (s.updBoot (fun b => { b with bistFail := true })))
  match level with
  | 1 => retireEngine u s
  | 2 => retireEngine (128 + u) s
  | 3 => retireUnit 3 u s
  | 6 => quickFs u s
  | 7 => quickCore u s
  | _ => s

/-- The self-test of R196 on the pens of a terminal: segments that fail are retired, and spare pens left with fewer than 12; the others
have passed. -/
def quickPens (t : Nat) (s : State) : State :=
  let spares := (List.range 16).filter (fun p => s.penRole t p == spare)
  let s := each spares (fun p s =>
    if s.healthy t p < 12 then movePen t p retired s
    else s.updTerm t (fun x => { x with passed := x.passed.filter (fun e => e.1 != p) ++ [(p, s.bell.frame.toNat)] })) s
  substAll t (nsegRecompute t s)

/-- Units that quick BIST tests, by level and unit of R524. -/
def quickTests (level u : Nat) : Bool :=
  match level with
  | 1 => decide (u < 128)
  | 2 | 3 => decide (u < 32)
  | 6 | 7 => decide (u < 8)
  | _ => false

/-- QUICK_BIST_DONE: every unit has been tested; `fails` are the units that failed and `segs` the segments. -/
def execQuickBistDone (fails : List (Fin 8 × Fin 131072)) (segs : List (Fin 512 × Fin 16 × Fin 16)) (s : State) : Res :=
  if s.boot.phase != 4 then .next s
  else
    let s := s.updBoot (fun b => { b with phase := 5 })
    let s := forL quickUnits (fun x s => noteTest x.1 x.2 true s) s
    let s := forL (fails.filter (fun x => quickTests x.1.val x.2.val)) (fun x s => quickFail x.1.val x.2.val s) s
    let s := forL segs (fun x s => bistFailed 5 (16 * x.1.val + x.2.1.val)
      (isolateAll x.1.val [(x.2.1.val, x.2.2.val)] (s.updBoot (fun b => { b with bistFail := true })))) s
    .next (each (List.range 512) quickPens s)

/-- FRAME_CLOCK_PHASED: phase 5 ends; port and link domains are on, the module is ready and discovery starts (R481). -/
def execFrameClockPhased (s : State) : Res :=
  if s.boot.phase != 5 then .next s
  else
    let s := each [40, 41, 42, 43, 44, 45] (fun d s => if s.domOn d then s else domainOn d s) s
    .next (startDiscovery 1 (s.updBoot (fun b => { b with phase := 6 })))

-- ---------------------------------------------------------------- power-down and loss (R436, R486)

/-- A burn cut short leaves its counter between the old value and VERSION (R466). -/
def cutBurns (s : State) : State :=
  let l := s.sec.burns
  forL l (fun b s =>
    let old := tget 0 s.sec.rollback b.slot
    let (i, s) := s.draw
    let n := old + (Config.freeBits 8 i).toNat % (b.version - old + 1)
    s.updSec (fun x => { x with rollback := tset 0 x.rollback b.slot n })) (s.updSec (fun x => { x with burns := [] }))

/-- Every terminal is off and every beam gate low. -/
def allOff (now : Nat) (s : State) : State :=
  let s := each s.liveChans (fun ch s => enterSafe ch now s) s
  let s := each (tkeys s.terms) (fun t s => setDrive t .off false now s) s
  each (tkeys s.gates) gateLow s

/-- Every domain except PD47 is off; start-up begins again at phase 0 with the next rise (R486). -/
def powerDown (now : Nat) (s : State) : State :=
  let cal := s.domOn 47
  let s := cutBurns (allOff now { s with dom := if cal then 0x800000000000 else 0 })
  s.updBoot (fun b => { b with down := true, phase := 0, foldUp := 0 })

/-- AUX_SUPPLY_FAIL: below 18.0 V for 20 µs the module powers down; the health record stands (R486). -/
def execAuxSupplyFail (now : Nat) (s : State) : Res := .next (powerDown now s)

/-- DOMAIN_POWER_LOSS: a domain loses power without a command (R34, R436, R531): tests in it are abandoned, each of its sources is a
broken wire, and the domain takes the reaction of its row. -/
def execDomainPowerLoss (d : Fin 48) (now : Nat) (s : State) : Res :=
  if !s.domOn d.val then .next s
  else if d.val = 46 then .next (powerDown now s)
  else
    let tests := (tkeys s.bists).filter (fun c =>
      let b := s.bist c
      b.st != 0 && (match b.level with
        | 1 => b.unit / 4 == d.val
        | 2 => b.unit == d.val
        | 3 => b.unit == d.val
        | 4 => b.unit / 8 == d.val
        | 5 => b.unit / 1024 + 32 == d.val
        | _ => false))
    let s := each tests bistAbandon s
    let s := if d.val = 47 then (s.setDom 47 false).updBoot (fun b => { b with calDead := true }) else domainOff d.val now s
    let src := (domSources d.val).filter (fun i => !s.col.broken.contains i && !s.col.unwatched.contains i)
    let s := s.updCol (fun c => { c with broken := c.broken ++ src })
    .next (each src (fun i s =>
      if 0xA0 ≤ i ∧ i < 0xC0 then flockReaction (i - 0xA0) now s
      else reportNow (mkRep i 15 0 (if 0xC0 ≤ i ∧ i < 0xC8 then 3 else 1) 0 0) now s) s)

-- ---------------------------------------------------------------- clocks (R40)

/-- CLOCK_RESERVE_TAKEOVER: the reserve of ECLK or ACLK has taken over, class C1. -/
def execClockReserveTakeover (s : State) : Res := .next (holdLive (mkRep srcClock 15 3 1 0 0) (raiseOwn srcClock 3 1 0 0 s))

/-- CLOCK_LOSS_MODULE_STOP: ECLK (0) or ACLK (1) with its reserve, or the TCXO (2) is lost: every output is safe, class C4. -/
def execClockLossModuleStop (clock : Fin 3) (now : Nat) (s : State) : Res :=
  let s := if clock.val = 2 then s.updBell (fun b => { b with dead := true }) else s
  .next (reportNow (mkRep srcClock 15 3 4 0 0) now s)

end Sys2Proof.Machine
end

