-- ==== Sys2Proof/Machine/Regs.lean ====
section
/-! DEFINITION. Reading and writing BAR0, and the maintenance port (00 R10 to R13, 20 R504 to R507, R519 to R522, and the register
tables of the other chapters). -/

namespace Sys2Proof.Machine

open Sys2Proof

-- ---------------------------------------------------------------- helpers

def w32 (n : Nat) : W := BitVec.ofNat 32 n

/-- Bits 31 to 0 and bits 47 to 32 of an account. -/
def lo48 (x : BitVec 48) : W := w32 (x.toNat % 2 ^ 32)
def hi48 (x : BitVec 48) : W := w32 (x.toNat / 2 ^ 32)

/-- 16-bit two's complement halves, high half first. -/
def halves (h l : Int) : W := w32 (ux 16 h * 65536 + ux 16 l)

/-- The channel whose first terminal is t. -/
def State.firstAt (s : State) (t : Nat) : Option Nat := (s.ownerOf t).filter (fun ch => (s.chan ch).adm.first == t)

/-- A tally word or account as the frozen view or the live one shows it (R452). -/
def State.shown (s : State) (a : Nat) : W :=
  match s.tal.frozen with
  | some x => if isTally a then tget (regReset a) x.regs a else s.reg a
  | none => s.reg a
def State.shownWide (s : State) (a : Nat) : BitVec 48 :=
  match s.tal.frozen with
  | some x => if isTally a then tget 0 x.wide a else s.wideView a
  | none => s.wideView a

/-- The flock block of an address and the offset in it. -/
def flockIx (a : Nat) : Nat := (a - 0x400000) / 0x80000
def inFlocks (a : Nat) : Bool := decide (0x400000 ≤ a ∧ a < 0x1400000)

/-- A register of a flock or gate-drive domain that is off reads 0 and takes no write (R505). -/
def State.offWord (s : State) (a : Nat) : Bool :=
  inFlocks a && ((!s.flockOn (flockIx a) && flockWord (flockIx a) a) || (!s.foldOn (flockIx a / 4) && foldWord (flockIx a / 4) a))

-- ---------------------------------------------------------------- pairs of which a read of LO latches HI (R127)

/-- The value that the HI word of a LO word would latch now: the pairs of R127, R183, R459, R532, and CAL_SEC with CAL_FRAC (R501). -/
def State.pairHi (s : State) (a : Nat) : Option W :=
  if a = fcCountLo then some (hi48 s.bell.frame)
  else if a = calSecA then some (s.reg calFracA)
  else if 0x100000 ≤ a ∧ a < 0x110000 ∧ 0xA00 ≤ a % 0x1000 ∧ a % 0x1000 < 0xA40 ∧ a % 8 = 0 then some (hi48 (s.shownWide a))
  else if aTest ≤ a ∧ a < aTest + 0x120 then
    let x := s.bist ((a - aTest) / 0x20)
    match (a - aTest) % 0x20 with
    | 0x04 => some (w32 (x.sig.toNat / 2 ^ 32))
    | 0x0C => some (w32 (x.gold.toNat / 2 ^ 32))
    | _ => none
  else if inFlocks a then
    let o := (a - 0x400000) % 0x80000
    if 0x3000 ≤ o ∧ o < 0x3400 ∧ (o % 0x40 = 0x18 ∨ o % 0x40 = 0x20 ∨ o % 0x40 = 0x28) then some (hi48 (s.shownWide a))
    else if 0x7800 ≤ o ∧ o < 0x7900 ∧ o % 0x10 = 0 then some (hi48 (s.shownWide a))
    else none
  else none

-- ---------------------------------------------------------------- blocks outside the flocks

/-- HOST block (R521). -/
def State.rdHost (s : State) (o : Nat) : W :=
  let byIx (v n : Nat) (ix : Nat → Nat) : W :=
    w32 (sumL (List.range n) (fun i => if (tkeys s.regs).any (fun a => vecOf a == some v && s.evtPends a && ix a == i) then 2 ^ i else 0))
  match o with
  | 0x010 => w32 s.amb.temp.toNat
  | 0x01C => w32 (s.host.summary / 256 % 256 * 256)
  | 0x020 => 0
  | 0x024 => byIx 10 32 flockIx
  | 0x028 => byIx 11 8 (fun a => flockIx a / 4)
  | _ => if o < 0x030 then s.reg o else 0

/-- Start-up and calendar block (R501). -/
def State.rdBoot (s : State) (o : Nat) : W :=
  match o with
  | 0x000 => w32 (s.boot.foldUp * 256 + b2n s.boot.bootFail * 128 + b2n s.boot.bistFail * 64 + s.boot.phase)
  | 0x010 | 0x020 | 0x024 | 0x028 => s.reg (0x800 + o)
  | _ => 0

/-- Registers of a ring (R522). -/
def State.rdRing (s : State) (r o : Nat) : W :=
  match o with
  | 0x18 => 0
  | 0x2C => w32 (s.heldCr r % 8192 * 65536 + s.freeCr r % 8192)
  | _ => if o < 0x2C then s.reg (aRing r + o) else 0

/-- Word i of a buffer of 24 bytes (R106). -/
def bufWord (b : BitVec 192) (i : Nat) : W := w32 (fieldN b.toNat (32 * i) 32)

/-- The state code of R93. -/
def PortSt.code : PortSt → Nat
  | .off => 0 | .acquire => 1 | .frame => 2 | .block => 3 | .locked => 4 | .rateHold => 5

/-- Registers of an input port (R104, R459, R479). -/
def State.rdPort (s : State) (n o : Nat) : W :=
  let p := s.port n
  if o = 0x010 then w32 (b2n p.sclkOk * 128 + b2n (rateWithin p.lens s.frate 1000) * 64 + p.nrx % 4 * 16 + p.st.code)
  else if o = 0x01C then w32 p.rate
  else if o < 0x02C then s.reg (aPort n + o)
  else if 0x040 ≤ o ∧ o < 0x060 then s.reg (aPort n + o)
  else if 0x080 ≤ o ∧ o < 0x100 then
    let x := tget SlotSt.none p.slots ((o - 0x080) / 4)
    w32 ((if s.countedSlot n ((o - 0x080) / 4) then x.run % 65536 else 0) * 65536 + x.kindRx % 4 * 64 + b2n x.csOk * 32 + b2n x.valid * 16)
  else if 0x200 ≤ o ∧ o < 0x500 then bufWord (tget 0 p.cs ((o - 0x200) / 0x18)) ((o - 0x200) % 0x18 / 4)
  else if 0x600 ≤ o ∧ o < 0x900 then bufWord (tget 0 p.us ((o - 0x600) / 0x18)) ((o - 0x600) % 0x18 / 4)
  else if 0xA00 ≤ o ∧ o < 0xA40 then lo48 (s.shownWide (aPort n + o))
  else if o = 0xA40 then (if s.tal.frozen.isSome then s.shown (aPort n + o) else w32 (s.tsWait n))
  else if o = 0xB00 then w32 (p.epoch % 65536 * 65536 + s.spSeal n)
  else if 0xB04 ≤ o ∧ o < 0xB1C then s.reg (aPort n + o)
  else 0

/-- Registers of an output port (R104). -/
def State.rdOut (s : State) (n o : Nat) : W :=
  if o < 0x00C then s.reg (aOut n + o)
  else if 0x040 ≤ o ∧ o < 0x0C0 then s.reg (soSlot n ((o - 0x040) / 4))
  else 0

/-- Frame clock (R127). -/
def State.rdFc (s : State) (o : Nat) : W :=
  let b := s.bell
  match o with
  | 0x000 => w32 (b2n b.revert * 2)
  | 0x018 => w32 (b.barred % 16 * 4096 + sumL [0, 1, 2, 3] (fun e => if s.entryQual e then 2 ^ e else 0) * 256 + b.active % 4 * 16 +
      (match b.mode with | .tracking => 1 | .holdover => 2 | .slewing => 3))
  | 0x034 => lo48 b.frame
  | _ => if o < 0x034 then s.reg (aFc + o) else if 0x100 ≤ o ∧ o < 0x180 then s.shown (aFc + o) else 0

/-- Layer state (R406). -/
def State.rdLayer (s : State) (o : Nat) : W :=
  let opened (base : Nat) : W := w32 (sumL (List.range 32) (fun g => if (s.gate (base + g)).open_ then 2 ^ g else 0))
  match o with
  | 0x000 => w32 (b2n s.stnOpen * 65536 + s.svc.defer.length % 32 * 256 + b2n s.modOpen)
  | 0x004 => opened 0
  | 0x008 => opened 32
  | _ => 0

/-- FLT_SRC of a source (R447, R449): a latched cause is one whose bit is still set. -/
def State.fltSrc (s : State) (i : Nat) : W :=
  let l := s.col.latched.filter (fun r => r.source == i && s.stillLatched r)
  let live (r : Report) : Bool := s.col.live.contains r
  let top := l.foldl (fun m r => if m = 7 ∨ m < r.cls then r.cls else m) 7
  let sels := sumL (List.range 16) (fun k =>
    if k = 15 then (if tget 0 s.col.own i = 0 then 0 else 2 ^ 15)
    else if (evtRegs i k).any (fun a => s.reg a != 0) then 2 ^ k else 0)
  w32 (b2n (s.col.broken.contains i) * 2 ^ 31 + b2n (s.col.unwatched.contains i) * 2 ^ 30 + b2n (l.any live) * 2 ^ 29 +
    b2n (l.any (fun r => !live r || s.col.ended.contains r)) * 2 ^ 28 + top % 8 * 2 ^ 24 + sels)

/-- The collector and its queue (R444, R449). -/
def State.rdCol (s : State) (o : Nat) : W :=
  if o = 0x000 then w32 (s.fill % 2048)
  else if o = 0x008 ∨ (0x040 ≤ o ∧ o < 0x090) then s.shown (aCol + o)
  else if o < 0x018 then s.reg (aCol + o)
  else if o = 0x018 then w32 s.statusWord
  else if 0x100 ≤ o ∧ o < 0x4D4 then s.fltSrc ((o - 0x100) / 4)
  else if 0x800 ≤ o ∧ o < 0x80C then
    match s.col.lastC4 with
    | some x => ({ st := x, merged := 0, cleared := false, frozen := false } : Rec).word ((o - 0x800) / 4)
    | none => 0
  else if o = 0x80C then w32 (b2n s.col.lastC4.isSome)
  else if o = 0xC00 then w32 (b2n s.tal.frozen.isSome * 2 + b2n (bitOf (s.reg talCtrl) 0))
  else if o = 0xC04 then w32 (s.tal.broken % 64)
  else if o = 0xC08 ∨ o = 0xC0C then s.reg (aCol + o)
  else if 0xC40 ≤ o ∧ o < 0xC80 then s.shown (aCol + o)
  else if 0x1000 ≤ o ∧ o < 0x5000 then (s.recOf ((o - 0x1000) / 16)).word (o % 16 / 4)
  else 0

def Pair.word (x : Pair) : Nat := x.testResult % 4 * 2 ^ 22 + x.stops % 256 * 256 + x.st % 8

/-- Health of a module core role (R431). -/
def State.rdCore (s : State) (r o : Nat) : W :=
  let c := s.core r
  match o with
  | 0 => w32 (c.b.stops % 256 * 65536 + c.a.stops % 256 * 256 + c.b.st % 8 * 16 + b2n c.active * 8 + c.a.st % 8)
  | 4 => c.a.lastTest
  | 8 => c.b.lastTest
  | 12 => c.takeovers
  | _ => 0

/-- A verification is in progress (R479): phase 1 of start-up, or a command that verifies is taken (log 58). -/
def State.verifying (s : State) : Bool :=
  s.boot.phase == 1 || (match s.svc.taken with
    | some e => [0x0301, 0x0401, 0x0901, 0x0905].contains (opcodeOf e)
    | none => false)

/-- The security pair (R479). -/
def State.rdSec (s : State) (o : Nat) : W :=
  let x := s.sec
  let part (d : Option (BitVec 384)) (i : Nat) : W := w32 (fieldN (d.getD 0).toNat (32 * i) 32)
  if o = 0x000 then w32 (x.debugCount % 256 * 2 ^ 24 + b2n x.unlocked * 16 + b2n x.fence.isSome * 8 + b2n x.builderHash.isSome * 4 +
    b2n x.idReady * 2 + b2n s.verifying)
  else if o = 0x004 then (if x.idReady then w32 (moduleId % 2 ^ 32) else 0)
  else if o = 0x008 then (if x.idReady then w32 (moduleId / 2 ^ 32) else 0)
  else if o = 0x00C then w32 ((x.fence.map (fun f => f.version)).getD 0)
  else if o = 0x010 ∨ o = 0x014 then s.reg (aSec + o)
  else if 0x020 ≤ o ∧ o < 0x030 then
    w32 (sumL (List.range 4) (fun j => tget 0 x.rollback (4 * ((o - 0x020) / 4) + j) % 256 * 2 ^ (8 * j)))
  else if 0x040 ≤ o ∧ o < 0x070 then part x.builderHash ((o - 0x040) / 4)
  else if 0x070 ≤ o ∧ o < 0x0A0 then part (x.fence.map (fun f => f.hash)) ((o - 0x070) / 4)
  else 0

/-- The station (R501). -/
def State.rdStn (s : State) (o : Nat) : W :=
  let x := s.stn
  let link (i : Nat) : W :=
    w32 (s.lanes i % 8 * 8 + b2n (x.upstream == some i) * 4 + b2n (x.refPort == some i) * 2 + b2n (s.lanes i != 0))
  match o with
  | 0x000 => w32 (x.nmod % 16 * 2 ^ 20 + x.pos % 16 * 65536 + b2n x.ring * 32768 + b2n (x.pos == 0) * 16384 + b2n x.late * 8192 + x.dstate % 8)
  | 0x010 => link 0
  | 0x020 => link 1
  | 0x008 | 0x014 | 0x024 | 0x030 | 0x034 => s.reg (aStn + o)
  | _ => 0

/-- Test access (R532). -/
def State.rdTest (s : State) (o : Nat) : W :=
  if o = 0x200 then w32 (b2n s.jtagOpen * 2)
  else if o < 0x120 then
    let x := s.bist (o / 0x20)
    match o % 0x20 with
    | 0x00 => w32 (x.level % 16 * 2 ^ 28 + x.kind % 16 * 2 ^ 24 + x.st % 4 * 2 ^ 17 + x.unit % 2 ^ 17)
    | 0x04 => w32 (x.sig.toNat % 2 ^ 32)
    | 0x0C => w32 (x.gold.toNat % 2 ^ 32)
    | 0x14 => x.cntRun
    | 0x18 => x.cntFail
    | _ => 0
  else 0

-- ---------------------------------------------------------------- flock blocks (R507)

/-- HEFT0 and HEFT1 of a terminal (R46). -/
def State.heft (s : State) (t : Nat) (second : Bool) : W :=
  match s.ownerOf t with
  | none => 0
  | some ch =>
    let c := s.chan ch
    let a := c.adm
    if second then
      let st := match c.st with | .free => 0 | .idle => 1 | .armed => 2 | .stopped => 3 | .deleting => 4
      w32 (st * 4096 + a.divLog2 % 16 * 256 + a.engA % 4 * 64 + a.engB % 4 * 16 + b2n c.audible * 8 +
        b2n (a.sense && a.sns == t / 2) * 4 + b2n c.safe)
    else w32 (a.kind % 4 * 2 ^ 30 + (t - a.first) % 4 * 2 ^ 28 + ch * 65536 + s.gen 1 ch)

/-- SMP_STAT (R154, R155). -/
def State.smpWord (s : State) (t : Nat) : W :=
  match s.firstAt t with
  | none => 0x1400
  | some ch =>
    let c := s.chan ch
    let z := c.zc
    let st := if z.ramp.isSome then 2 else if z.pend.any (fun x => x.left.isSome) then 1 else 0
    let b := if s.bell.frame.toNat % 2 = 0 then c.inp.bank0 else c.inp.bank1
    w32 (min 0xFFFF z.timeouts * 65536 + z.ms % 256 * 256 + st * 64 + b2n z.muted * 32 + b2n z.unitsMm * 16 + b.fresh % 8)

/-- The settings of the channel that owns a terminal; those of reset where none does. -/
def State.setsAt (s : State) (t : Nat) : ModSet := match s.ownerOf t with | some ch => (s.chan ch).md | none => ModSet.none

/-- Modulator registers of a terminal (R183). -/
def State.rdMod (s : State) (t o : Nat) : W :=
  let m := s.setsAt t
  let x := s.term t
  let a := modReg t o
  match o with
  | 0x00 => w32 (m.spread % 16 * 4096 + m.kLog2 % 4 * 256 + m.mode % 8)
  | 0x04 => w32 (m.dt % 1024 * 65536 + m.minp % 512)
  | 0x08 =>
    let step := match s.ownerOf t with | some ch => if m.mode = 4 then (s.chan ch).step else 7 | none => 7
    setFld (setFld (s.reg a) 10 2 x.forceEff) 0 3 step
  | 0x0C => if s.tal.frozen.isSome then s.shown a else s.residueWord t
  | 0x18 | 0x20 | 0x28 => lo48 (s.shownWide a)
  | 0x10 | 0x14 | 0x30 => s.reg a
  | _ => 0

/-- CROOK of a terminal: FORCE_EFF and FORCE (R183). -/
def State.crookWord (s : State) (t : Nat) : W :=
  let x := s.term t
  w32 (x.forceEff % 4 * 256 + x.forceQ.getD x.forceEff % 4)

/-- Power-stage registers of a terminal (R217). -/
def State.rdPs (s : State) (t o : Nat) : W :=
  match o with
  | 0x00 => w32 ((s.setsAt t).slew % 16)
  | 0x0C => w32 (s.ipeak t * 65536 + s.icont t)
  | 0x10 => w32 (s.resUohm t)
  | _ => if o < 0x30 then s.reg (psReg t o) else 0

/-- Fold registers (R217, R431). -/
def State.rdFold (s : State) (k o : Nat) : W :=
  let a := aFold k + o
  if o = 0x00C then w32 (min 0xFFFF (s.foldEst k / 100000000000) * 65536 + min 0xFFFF (s.foldResv k))
  else if o < 0x024 then s.reg a
  else if 0x040 ≤ o ∧ o < 0x054 then s.shown a
  else if o = 0x080 then w32 (s.fsPair k).word
  else if o = 0x084 then (s.fsPair k).lastTest
  else if o = 0x088 then s.reg a
  else if 0x400 ≤ o ∧ o < 0x500 then
    let g := 8 * k + (o - 0x400) / 0x20
    let x := s.gate g
    match o % 0x20 with
    | 0x00 => w32 (b2n x.level * 128 + b2n x.open_ * 64 + x.pend.length % 4 * 16 + x.forced % 16)
    | 0x04 => w32 x.lag
    | 0x1C => 0
    | _ => s.reg a
  else 0

/-- Loop registers of a position (R248). -/
def State.rdLoop (s : State) (t o : Nat) : W :=
  match s.firstAt t with
  | none => 0
  | some ch =>
    let c := s.chan ch
    let l := c.loop
    let waits (w : Nat) : Bool := l.coefQ.any (fun e => e.1 == w)
    if o < 0x80 then w32 (s.wsVal ch o 4)
    else match o with
      | 0x80 => setFld (s.reg (loopReg t o)) 8 2 l.injPt
      | 0x8C =>
        let prog := if l.img.isNone then 0 else if c.armed then 2 else 1
        w32 (min 0xFFFF l.feCount * 65536 + min 3 l.ovrRun * 256 + b2n (waits 32) * 64 + b2n l.followErr * 32 + b2n l.ovr * 16 +
          b2n l.held * 8 + prog)
      | 0x98 => w32 (sumL (List.range 32) (fun w => if waits w then 2 ^ w else 0))
      | 0xA8 => l.lastErr
      | 0xAC => w32 (l.lastE % 65536 * 65536 + l.lastCmd % 65536)
      | _ => if o < 0xB0 then s.reg (loopReg t o) else 0

/-- Images of an instruction store: their number and words (R287). -/
def State.imemWord (s : State) (l : List Nat) : W := w32 (l.length % 256 * 2 ^ 24 + s.storeUsed l % 32768)

/-- Registers of a loop engine (R35, R248, R287). It shows halted while no program is loaded into it. -/
def State.rdEng (s : State) (e o : Nat) : W :=
  let f := e / 4
  let n := ((s.chansOfFlock f).filter (fun ch => (s.chan ch).adm.engA == e % 4 || (s.chan ch).adm.engB == e % 4)).length
  match o with
  | 0x00 =>
    let st := (s.hlt e).st % 4
    w32 (n % 16 * 16 + if st == 1 && (s.imagesOn f (e % 4)).isEmpty then 0 else st)
  | 0x04 => setFld (s.reg (engReg e o)) 0 16 (if n = 0 then 0 else s.engMax f (e % 4))
  | 0x0C => s.imemWord (s.imagesOn f (e % 4))
  | _ => if o < 0x1C then s.reg (engReg e o) else 0

/-- Health registers of an engine (R430). -/
def State.rdHlt (s : State) (e o : Nat) : W :=
  let h := s.hlt e
  match o with
  | 0x00 => w32 (h.testResult % 4 * 2 ^ 22 + h.convicts % 256 * 256 + h.cause % 16 * 16 + h.hstate % 8)
  | 0x04 => h.lastTest
  | _ => if o < 0x1C then s.shown (hltReg e o) else 0

/-- The capture object whose fields a position shows: the one that runs, else the first (R245). -/
def State.capShown (s : State) (ch : Nat) : Option Nat := (s.capOf ch).orElse (fun _ => (s.capsOf ch).head?)

/-- Capture registers of a position (R248). -/
def State.rdCap (s : State) (t o : Nat) : W :=
  match s.firstAt t with
  | none => 0
  | some ch =>
    if o = 0x1C then s.reg (capReg t o)
    else match s.capShown ch with
      | none => 0
      | some i =>
        let x := s.cap i
        let a := (s.chan ch).adm
        match o with
        | 0x00 =>
          w32 (x.codes.toNat * 65536 + (x.decim - 1) % 256 * 256 + (x.sigs.length - 1) % 4 * 64 +
            x.layout % 4 * 16 + b2n x.trig * 8 + b2n x.cont * 4 + x.st % 4)
        | 0x04 => w32 a.capAt
        | 0x08 => w32 a.ringEntries
        | 0x0C => w32 x.wptr
        | 0x10 => w32 x.wraps
        | 0x14 => w32 x.count
        | 0x18 => w32 x.target
        | _ => 0

/-- Injection registers of a position (R248). -/
def State.rdInj (s : State) (t o : Nat) : W :=
  match s.firstAt t with
  | none => 0
  | some ch =>
    let i := s.injOf ch
    let x := (i.map s.inj).getD Inj.none
    match o with
    | 0x00 =>
      let stream := s.liveBinds.any (fun b => (s.bind b).chan == ch && (s.bind b).input == 2)
      let src := if i.isSome then x.src else if stream then 1 else 0
      w32 (s.injPoint ch (if x.st = 2 ∨ x.zero then x.point else 0) % 4 * 256 + src % 8 * 16 + x.st % 4)
    | 0x04 => w32 x.pos
    | 0x08 => s.reg (injReg t o)
    | _ => 0

/-- Registers of a model engine (R318, R345). With no image and no model to run or to cover its period has its reset value. -/
def State.rdMe (s : State) (f o : Nat) : W :=
  let x := s.meng f
  let e := 128 + f
  let nv := (s.validOf f).length
  let nc := (s.validOf (f ^^^ 1)).length
  match o with
  | 0x00 => w32 (nv % 32 * 65536 + (if x.covering then nc % 32 else 0) * 2048 + b2n x.covered * 8 + b2n x.covering * 4 +
      (if x.img.isNone && (s.hlt e).st == 1 then 0 else (s.hlt e).st % 4))
  | 0x04 => setFld (s.reg (engReg e o)) 0 16 (if nv + nc = 0 then 0 else s.sched f nv nc)
  | 0x08 => if x.img.isNone && nv + nc == 0 then 0x10000 else w32 (s.nM % 16 * 65536 + s.nM * s.loopCc % 65536)
  | 0x0C => s.imemWord (x.img.toList)
  | _ => if o < 0x24 then s.reg (engReg e o) else 0

/-- Model registers of a position (R345). -/
def State.rdMdl (s : State) (t o : Nat) : W :=
  match s.firstAt t with
  | none => if o = 0 then 0x180 else 0
  | some ch =>
    let c := s.chan ch
    let m := c.mdl
    match o with
    | 0x00 =>
      w32 ((s.tcoil ch).toNat * 65536 + c.adm.motion % 4 * 128 + b2n m.valid * 64 + b2n m.bank * 32 + b2n m.swapPend * 16 + b2n m.building * 8 +
        b2n m.infeas * 4 + b2n m.ambFb * 2 + b2n (s.meng c.flock).covered)
    | 0x04 => halves m.upper m.lower
    | 0x08 => halves (s.exc ch).toInt (sat16 (2 * (s.mst ch).v)).1
    | 0x0C => w32 (ux 16 (sat16 (rshift (s.mst ch).tb 10)).1 * 65536 + (s.mst ch).g % 65536)
    | 0x10 => w32 m.res
    | _ => if o < 0x2C then s.reg (mdlReg t o) else 0

/-- Lease registers of a position (R429). -/
def State.rdLease (s : State) (t o : Nat) : W :=
  match s.firstAt t with
  | none => if o = 0 then 8 else 0
  | some ch =>
    let c := s.chan ch
    let x := c.lease
    if o = 0 then
      w32 (c.engOf x.standby % 4 * 4096 + min 3 x.miss * 512 + b2n x.unshadowed * 256 + x.stby % 4 * 64 + b2n x.holder.isNone * 8 +
        (match x.holder with | some b => c.engOf b % 4 | none => 0))
    else s.reg (leaseReg t o)

/-- Registers of a sense port (R357). -/
def State.rdSns (s : State) (n o : Nat) : W :=
  let x := s.sns n
  if o = 0x1C then w32 (x.illNow % 256 * 65536 + b2n x.settling * 16 + b2n (s.senseOwner n).isSome * 8 + s.snsMode n)
  else if o < 0x2C then s.reg (snsReg n o) else 0

/-- Registers of the motor at the channel whose first terminal is t; 0 with no motor object (R394). -/
def State.rdMot (s : State) (t o : Nat) : W :=
  match (s.firstAt t).bind s.motorOf with
  | none => 0
  | some i =>
    let m := s.motor i
    let step := match s.firstAt t with | some ch => (s.chan ch).step | none => 7
    match o with
    | 0x00 => w32 (m.left % 16 * 65536 + min 8 m.plaus * 256 + b2n m.dir * 128 + m.mstate % 8 * 16 + step % 8)
    | 0x04 => w32 (m.speed % 65536)
    | 0x08 => w32 m.tp
    | 0x0C => w32 (m.zfrac % 256)
    | _ => if o < 0x2C then s.reg (motReg t o) else 0

/-- Registers of a flock block, by the offsets of R507. -/
def State.rdFlock (s : State) (f o : Nat) : W :=
  let t (base step : Nat) : Nat := 16 * f + (o - base) / step
  let a := aFlock f + o
  if 0x1000 ≤ o ∧ o < 0x1080 then s.heft (t 0x1000 8) (o % 8 == 4)
  else if 0x2000 ≤ o ∧ o < 0x2028 then s.reg a
  else if 0x2040 ≤ o ∧ o < 0x2080 then s.smpWord (t 0x2040 4)
  else if 0x3000 ≤ o ∧ o < 0x3400 then s.rdMod (t 0x3000 0x40) (o % 0x40)
  else if 0x3400 ≤ o ∧ o < 0x3440 then s.crookWord (t 0x3400 4)
  else if o = 0x3440 ∨ o = 0x3444 then s.reg a
  else if 0x4000 ≤ o ∧ o < 0x4400 then s.rdPs (t 0x4000 0x40) (o % 0x40)
  else if 0x4400 ≤ o ∧ o < 0x4800 then s.reg a
  else if 0x5000 ≤ o ∧ o < 0x6000 then s.rdLoop (t 0x5000 0x100) (o % 0x100)
  else if 0x6000 ≤ o ∧ o < 0x6080 then s.rdEng (4 * f + (o - 0x6000) / 0x20) (o % 0x20)
  else if 0x6080 ≤ o ∧ o < 0x6100 then s.rdHlt (4 * f + (o - 0x6080) / 0x20) (o % 0x20)
  else if 0x6100 ≤ o ∧ o < 0x6300 then s.rdCap (t 0x6100 0x20) (o % 0x20)
  else if 0x6300 ≤ o ∧ o < 0x6400 then s.rdInj (t 0x6300 0x10) (o % 0x10)
  else if 0x6400 ≤ o ∧ o < 0x6440 then s.rdMe f (o - 0x6400)
  else if 0x6440 ≤ o ∧ o < 0x6460 then s.rdHlt (128 + f) (o - 0x6440)
  else if 0x6800 ≤ o ∧ o < 0x6C00 then s.rdMdl (t 0x6800 0x40) (o % 0x40)
  else if 0x6C00 ≤ o ∧ o < 0x6D00 then s.rdLease (t 0x6C00 0x10) (o % 0x10)
  else if o = 0x6D00 ∨ o = 0x6D04 then s.reg a
  else if 0x7000 ≤ o ∧ o < 0x7200 then s.rdSns (8 * f + (o - 0x7000) / 0x40) (o % 0x40)
  else if 0x7200 ≤ o ∧ o < 0x7400 then (if (s.firstAt (t 0x7200 0x20)).isSome then s.reg a else 0)
  else if 0x7400 ≤ o ∧ o < 0x7500 then s.rdMot (16 * f + 4 * ((o - 0x7400) / 0x40)) (o % 0x40)
  else if 0x7800 ≤ o ∧ o < 0x7900 then
    (match o % 0x10 with | 0 => lo48 (s.shownWide a) | 8 => s.shown a | _ => 0)
  else if o = 0x7900 then (if s.tal.frozen.isSome then s.shown a else s.leaseWord f)
  else if 0x70000 ≤ o ∧ o < 0x70500 ∧ f % 4 = 0 then s.rdFold (f / 4) (o - 0x70000)
  else 0

-- ---------------------------------------------------------------- a read of one word (R504 to R507)

/-- The word at a BAR0 address, its HI words left out. -/
def State.plainWord (s : State) (a : Nat) : W :=
  if a < 0x800 then s.rdHost a
  else if a < 0x1000 then s.rdBoot (a - 0x800)
  else if a < 0x1200 then s.rdRing ((a - 0x1000) / 0x40) (a % 0x40)
  else if 0x4000 ≤ a ∧ a < 0x4100 then tget (msixReset ((a - 0x4000) / 4)) s.host.msixTable ((a - 0x4000) / 4)
  else if a = 0x5000 then s.host.msixPba.zeroExtend 32
  else if 0x100000 ≤ a ∧ a < 0x110000 then s.rdPort ((a - 0x100000) / 0x1000) (a % 0x1000)
  else if 0x110000 ≤ a ∧ a < 0x114000 then s.rdOut ((a - 0x110000) / 0x1000) (a % 0x1000)
  else if 0x180000 ≤ a ∧ a < 0x180200 then s.rdFc (a - 0x180000)
  else if 0x190000 ≤ a ∧ a < 0x190010 then s.rdLayer (a - 0x190000)
  else if 0x200000 ≤ a ∧ a < 0x205000 then s.rdCol (a - 0x200000)
  else if 0x208000 ≤ a ∧ a < 0x208040 then s.rdCore ((a - 0x208000) / 0x10) (a % 0x10)
  else if 0x300000 ≤ a ∧ a < 0x300100 then s.rdSec (a - 0x300000)
  else if inFlocks a then (if s.offWord a then 0 else s.rdFlock (flockIx a) ((a - 0x400000) % 0x80000))
  else if 0x1400000 ≤ a ∧ a < 0x1400040 then s.rdStn (a - 0x1400000)
  else if 0x1500000 ≤ a ∧ a < 0x1500300 then s.rdTest (a - 0x1500000)
  else 0

/-- An address that holds a HI word. -/
def State.isHi (s : State) (a : Nat) : Bool := decide (4 ≤ a) && (s.pairHi (a - 4)).isSome

/-- The word a read of a BAR0 address returns; a HI word as latched. -/
def State.readWord (s : State) (a : Nat) : W :=
  if s.isHi a then (if s.offWord a then 0 else tget 0 s.hiLatch (a - 4)) else s.plainWord a

/-- The side effects of a read: a LO word latches its HI word (R127), word 3 of an unread record freezes it (R444). -/
def readEffect (a : Nat) (s : State) : State :=
  match s.pairHi a with
  | some v => { s with hiLatch := tset 0 s.hiLatch a v }
  | none =>
    let n := (a - 0x201000) / 16
    if decide (0x201000 ≤ a ∧ a < 0x205000 ∧ a % 16 = 12) && (s.unread.map (· % 1024)).contains n then
      s.setRec n { s.recOf n with frozen := true }
    else s

/-- A read of the words from a on, lower address first. -/
def readWords : Nat → Nat → State → List (BitVec 8) × State
  | 0, _, s => ([], s)
  | n + 1, a, s =>
    let v := s.readWord a
    let r := readWords n (a + 4) (readEffect a s)
    (leBytes 4 v.toNat ++ r.1, r.2)

/-- LO_WORD_READ: a BAR0 read of 1, 2, 4 or 8 bytes by 2 ^ `size`. It reads the words that hold the bytes, lower address first
(R504). -/
def execLoWordRead (addr : BitVec 25) (size : Fin 4) (s : State) : Res :=
  let a := addr.toNat
  let n := 2 ^ size.val
  let r := readWords ((a % 4 + n + 3) / 4) (a - a % 4) s
  .next { r.2 with host := { r.2.host with readResp := some ((r.1.drop (a % 4)).take n) } }

-- ---------------------------------------------------------------- a write of one word

/-- Bits of an event register (R104, R127, R154, R183, R217, R248, R287, R345, R357, R370, R394, R406, R429, R449, R459, R479, R501,
R521). -/
def evtBits (a : Nat) : Nat :=
  if a = fltEvt then 7
  else if a = fcEvt then 7
  else if a = secEvt then 6
  else if a = stnEvt then 10
  else if a = calEvt then 5
  else if a = talEvt then 6
  else if a = hostEvt then 6
  else if 0x100000 ≤ a ∧ a < 0x110000 then (if a % 0x1000 = 0x014 then 11 else 4)
  else
    let o := (a - 0x400000) % 0x80000
    if o = 0x2020 then 8
    else if o = 0x3440 then 4
    else if o < 0x6000 then 5
    else if o < 0x6080 then 3
    else if o = 0x6410 then 7
    else if o = 0x6D00 then 8
    else if o < 0x7000 then 11
    else if o < 0x7200 then 6
    else if o < 0x7400 then 4
    else if o < 0x7500 then 7
    else if o = 0x70014 then 15
    else 5

/-- ENG_EVT of a loop engine, which enables no interrupt (R287). -/
def isEngEvt (a : Nat) : Bool :=
  let o := (a - 0x400000) % 0x80000
  inFlocks a && decide (0x6000 ≤ o ∧ o < 0x6080 ∧ o % 0x20 = 0x10)

def isEvt (a : Nat) : Bool := isEngEvt a || (vecOf a).isSome

/-- A register of a position with no channel, or with no motor, takes no write (R248, R345, R370, R394). -/
def State.absentWord (s : State) (a : Nat) : Bool :=
  let o := (a - 0x400000) % 0x80000
  let t (base step : Nat) : Nat := 16 * flockIx a + (o - base) / step
  inFlocks a &&
    (if 0x5000 ≤ o ∧ o < 0x6000 then (s.firstAt (t 0x5000 0x100)).isNone
    else if 0x6800 ≤ o ∧ o < 0x6C00 then (s.firstAt (t 0x6800 0x40)).isNone
    else if 0x7200 ≤ o ∧ o < 0x7400 then (s.firstAt (t 0x7200 0x20)).isNone
    else if 0x7400 ≤ o ∧ o < 0x7500 then ((s.firstAt (16 * flockIx a + 4 * ((o - 0x7400) / 0x40))).bind s.motorOf).isNone
    else false)

/-- Causes whose bits are clear are latched no longer (R447). -/
def unlatch (s : State) : State :=
  let l := s.col.latched.filter s.stillLatched
  s.updCol (fun c => { c with latched := l, ended := c.ended.filter l.contains })

/-- A 1 written to a bit of an event register clears it (R10). -/
def writeEvt (a : Nat) (v : W) (s : State) : State := unlatch (signal a (s.updReg a (fun w => w &&& ~~~v)))

/-- A write of an enable register, whose layout is that of its event register. -/
def writeEnable (a : Nat) (v : W) (s : State) : State := signal (a - 4) (s.setReg a (w32 (v.toNat % 2 ^ evtBits (a - 4))))

/-- Words of a ring (R515, R522): DOORBELL, CQ_HEAD and ENABLE as their own rows; the size and the queue addresses while disabled. -/
def writeRing (r : Fin 8) (o : Nat) (v : W) (s : State) : Res :=
  match o with
  | 0x00 => if bitOf v 0 then execRingEnable r s else execRingDisable r s
  | 0x18 => execDoorbell r v s
  | 0x28 => execCqHeadWrite r v s
  | 0x04 =>
    if s.ringOn r.val || !decide (4 ≤ fld v 0 4 ∧ fld v 0 4 ≤ 12) then .next (hostEvent 5 0 s)
    else .next (s.setReg (ringSize r.val) (w32 (fld v 0 4)))
  | 0x08 | 0x10 => if s.ringOn r.val then .next (hostEvent 5 0 s) else .next (s.setReg (aRing r.val + o) (v &&& 0xFFFFF000))
  | 0x0C | 0x14 => if s.ringOn r.val then .next (hostEvent 5 0 s) else .next (s.setReg (aRing r.val + o) v)
  | _ => .next s

/-- FC_CTRL: REVERT, then UNBAR, then RESELECT (R117, R127). -/
def writeFcCtrl (v : W) (s : State) : Res :=
  let s := unbarEntries (fld v 8 4) (s.updBell (fun b => { b with revert := bitOf v 1 }))
  if bitOf v 0 then execReselect false s else .next s

/-- Words of a flock block that a write reaches (R507). -/
def writeFlock (f : Fin 32) (o : Nat) (v : W) (s : State) : Res :=
  let t (q : Nat) : Fin 512 := Fin.ofNat _ (16 * f.val + q)
  let a := aFlock f.val + o
  if 0x3000 ≤ o ∧ o < 0x3400 then
    match o % 0x40 with
    | 0x00 => execStFieldWrite (t ((o - 0x3000) / 0x40)) 0 v s
    | 0x04 => execStFieldWrite (t ((o - 0x3000) / 0x40)) 1 v s
    | _ => .next s
  else if 0x3400 ≤ o ∧ o < 0x3440 then execCrookWrite (t ((o - 0x3400) / 4)) v s
  else if 0x4000 ≤ o ∧ o < 0x4400 ∧ o % 0x40 = 0 then execStFieldWrite (t ((o - 0x4000) / 0x40)) 2 v s
  else if 0x5000 ≤ o ∧ o < 0x6000 then
    let q := (o - 0x5000) / 0x100
    if o % 0x100 < 0x80 then execCoefWrite (t q) (Fin.ofNat _ (o % 0x100 / 4)) v s
    else match o % 0x100 with
      | 0x80 => execLoopCfgWrite (t q) v s
      | 0x84 => .next (s.setReg a (v &&& 0xFFFFFF))
      | 0x88 => .next (s.setReg a (v &&& 0xFFFF))
      | _ => .next s
  else if 0x7000 ≤ o ∧ o < 0x7200 ∧ o % 0x40 < 0x14 then
    execSnsConfigWrite (Fin.ofNat _ (8 * f.val + (o - 0x7000) / 0x40)) (Fin.ofNat _ (o % 0x40 / 4)) v s
  else if 0x7200 ≤ o ∧ o < 0x7400 ∧ o % 0x20 < 8 then
    execPmCfgWrite (t ((o - 0x7200) / 0x20)) (Fin.ofNat _ (o % 0x20 / 4)) v s
  else if o = 0x70000 ∧ f.val % 4 = 0 then execFoldCfgWrite (Fin.ofNat _ (f.val / 4)) v s
  else .next s

/-- A write of one word: by the access types of R10, and as the rows of their own have it for registers that have one. -/
def writeWord (a : Nat) (v : W) (s : State) : Res :=
  if s.offWord a || s.absentWord a then .next s
  else if isEvt a then .next (writeEvt a v s)
  else if 4 ≤ a ∧ (vecOf (a - 4)).isSome then .next (writeEnable a v s)
  else if a = scratchReg then .next (s.setReg a v)
  else if a = 0x020 then execIntAckWrite v s
  else if a = calSetSec then .next (s.setReg a v)
  else if a = 0x81C then execCalendarSet v s
  else if 0x1000 ≤ a ∧ a < 0x1200 then writeRing (Fin.ofNat _ ((a - 0x1000) / 0x40)) (a % 0x40) v s
  else if 0x4000 ≤ a ∧ a < 0x4100 then .next (msixWrite ((a - 0x4000) / 4) v s)
  else if 0x100000 ≤ a ∧ a < 0x110000 then
    let n : Fin 16 := Fin.ofNat _ ((a - 0x100000) / 0x1000)
    match a % 0x1000 with
    | 0x000 => execSpCtrlWrite n v s
    | 0x004 => .next (s.setReg a (v &&& 0xFFFF))
    | 0x008 => execSpKindmapWrite n 0 v s
    | 0x00C => execSpKindmapWrite n 1 v s
    | _ => .next s
  else if 0x110000 ≤ a ∧ a < 0x114000 then
    let n : Fin 4 := Fin.ofNat _ ((a - 0x110000) / 0x1000)
    let o := a % 0x1000
    if o = 0 then execSoCtrlWrite n v s
    else if o = 8 then .next (s.setReg a (v &&& 0xFFFF))
    else if 0x040 ≤ o ∧ o < 0x0C0 then execSoSlotWrite n (Fin.ofNat _ ((o - 0x040) / 4)) v s
    else .next s
  else if a = fcCtrl then writeFcCtrl v s
  else if a = fcRate then execFcRateWrite v s
  else if a = fcRatio then execFcRatioWrite v s
  else if a = fcPrio then execFcPrioWrite v s
  else if a = fcWindow then execFcWindowWrite v s
  else if a = fcPhase then execFcPhaseWrite v s
  else if a = fltCtrl then .next (s.setReg a (v &&& 1))
  else if a = fltRd then execFltRdWrite v s
  else if a = talCtrl then (if bitOf v 0 then execTallyFreeze s else execTallyUnfreeze s)
  else if inFlocks a then writeFlock (Fin.ofNat _ (flockIx a)) ((a - 0x400000) % 0x80000) v s
  else .next s

/-- REGISTER_WRITE: a BAR0 write of the bytes given. 4 bytes of one word, or 8 bytes as two word writes with the lower address first;
any other is ignored with BAD_ACCESS (R504). -/
def execRegisterWrite (addr : BitVec 25) (data : List (BitVec 8)) (s : State) : Res :=
  let a := addr.toNat
  if a % 4 != 0 then .next (hostEvent 1 0 s)
  else if data.length = 4 then writeWord a (w32 (leVal data)) s
  else if data.length = 8 then
    match writeWord a (w32 (leVal (data.take 4))) s with
    | .next s' => writeWord (a + 4) (w32 (leVal (data.drop 4))) s'
    | r => r
  else .next (hostEvent 1 0 s)

-- ---------------------------------------------------------------- the maintenance port (R519, R520)

/-- The CRC of the maintenance port over bytes, each most significant bit first (log 32). -/
def mntCrc (b : List (BitVec 8)) : Nat := crc 16 0x1021 0xFFFF (b.flatMap (fun x => (bitsOf 8 x.toNat).reverse))

/-- A word in a request that begins at `base`: a HI word whose LO word stands in the same request is of the same cycle (R520). -/
def State.mntWord (s : State) (base a : Nat) : W :=
  if s.isHi a && decide (base + 4 ≤ a) && !s.offWord a then (s.pairHi (a - 4)).getD 0 else s.readWord a

/-- MAINTENANCE_REQUEST: the bytes of a request. It is answered, or dropped and counted (R519). -/
def execMaintenanceRequest (req : List (BitVec 8)) (s : State) : Res :=
  let dev := bytesAt req 1 1
  let a := bytesAt req 3 4
  let n := bytesAt req 7 1
  let ok := req.length == 10 && bytesAt req 0 1 == 0xA5 && dev == s.stn.pos && bytesAt req 2 1 == 1 && a % 4 == 0 &&
    decide (1 ≤ n ∧ n ≤ 64 ∧ a + 4 * n ≤ 0x2000000) && bytesAt req 8 2 == mntCrc (req.take 8)
  if s.col.broken.contains srcMnt then .next s
  else if ok then
    let body := leBytes 3 (0x5A + dev * 256 + n * 65536) ++ (List.range n).flatMap (fun i => leBytes 4 (s.mntWord a (a + 4 * i)).toNat)
    let s := s.setField mntStat 16 16 (s.regField mntStat 16 16 + 1)
    .next { s with host := { s.host with mntResp := body ++ leBytes 2 (mntCrc body) } }
  else
    let s := s.setField mntStat 0 16 (s.regField mntStat 0 16 + 1)
    .next { s with host := { s.host with mntResp := [] } }

end Sys2Proof.Machine
end

