-- ==== Sys2Proof/Machine/Dispatch.lean ====
section
/-! DEFINITION. One arm for each command: a call of its meaning. -/

namespace Sys2Proof.Machine

open Sys2Proof

def exec (i : Instr) (s : State) : Host.Outcome State Fault Refusal :=
  match i with
  | .auxSupplyRise head => Sys2Proof.Machine.execAuxSupplyRise head s
  | .securityBootDone fwOk fw => Sys2Proof.Machine.execSecurityBootDone fwOk fw s
  | .foldSlotStart k => Sys2Proof.Machine.execFoldSlotStart k s
  | .foldSlotEnd k low now => Sys2Proof.Machine.execFoldSlotEnd k low now s
  | .quickBistDone fails segs => Sys2Proof.Machine.execQuickBistDone fails segs s
  | .auxSupplyFail now => Sys2Proof.Machine.execAuxSupplyFail now s
  | .busRise k now => Sys2Proof.Machine.execBusRise k now s
  | .clockLossModuleStop clock now => Sys2Proof.Machine.execClockLossModuleStop clock now s
  | .ftbLoss k now => Sys2Proof.Machine.execFtbLoss k now s
  | .ftbReturn k => Sys2Proof.Machine.execFtbReturn k s
  | .outputPortClockLost n => Sys2Proof.Machine.execOutputPortClockLost n s
  | .domainPowerLoss d now => Sys2Proof.Machine.execDomainPowerLoss d now s
  | .domainSettled d => Sys2Proof.Machine.execDomainSettled d s
  | .streamFrame n f => Sys2Proof.Machine.execStreamFrame n f s
  | .sealVerdict n => Sys2Proof.Machine.execSealVerdict n s
  | .portStayTimeout n => Sys2Proof.Machine.execPortStayTimeout n s
  | .lineOutOfRange n => Sys2Proof.Machine.execLineOutOfRange n s
  | .sclkLost n => Sys2Proof.Machine.execSclkLost n s
  | .spCtrlWrite n v => Sys2Proof.Machine.execSpCtrlWrite n v s
  | .spKindmapWrite n ix v => Sys2Proof.Machine.execSpKindmapWrite n ix v s
  | .soCtrlWrite n v => Sys2Proof.Machine.execSoCtrlWrite n v s
  | .soSlotWrite n sl v => Sys2Proof.Machine.execSoSlotWrite n sl v s
  | .outputFrameSend n => Sys2Proof.Machine.execOutputFrameSend n s
  | .frameBoundary len tagFails => Sys2Proof.Machine.execFrameBoundary len tagFails s
  | .runLimit n sl => Sys2Proof.Machine.execRunLimit n sl s
  | .driftMeasurement o0 o1 o2 o3 link present => Sys2Proof.Machine.execDriftMeasurement o0 o1 o2 o3 link present s
  | .reselect same => Sys2Proof.Machine.execReselect same s
  | .unbar bits => Sys2Proof.Machine.execUnbar bits s
  | .fcRateWrite v => Sys2Proof.Machine.execFcRateWrite v s
  | .fcRatioWrite v => Sys2Proof.Machine.execFcRatioWrite v s
  | .fcPrioWrite v => Sys2Proof.Machine.execFcPrioWrite v s
  | .fcWindowWrite v => Sys2Proof.Machine.execFcWindowWrite v s
  | .fcPhaseWrite v => Sys2Proof.Machine.execFcPhaseWrite v s
  | .zcTimeout ch => Sys2Proof.Machine.execZcTimeout ch s
  | .gatedStopIdle ch => Sys2Proof.Machine.execGatedStopIdle ch s
  | .loopLatch f l bus sens fails => Sys2Proof.Machine.execLoopLatch f l bus sens fails s
  | .coefApply ch ready => Sys2Proof.Machine.execCoefApply ch ready s
  | .tokenGrant ch => Sys2Proof.Machine.execTokenGrant ch s
  | .armTakeEffect ch now => Sys2Proof.Machine.execArmTakeEffect ch now s
  | .disarmTakeEffect ch => Sys2Proof.Machine.execDisarmTakeEffect ch s
  | .instanceRunStart e ch l => Sys2Proof.Machine.execInstanceRunStart e ch l s
  | .loopCutoff e l => Sys2Proof.Machine.execLoopCutoff e l s
  | .overrunHealthFailure ch shadow => Sys2Proof.Machine.execOverrunHealthFailure ch shadow s
  | .followError ch => Sys2Proof.Machine.execFollowError ch s
  | .coefWrite t w v => Sys2Proof.Machine.execCoefWrite t w v s
  | .loopCfgWrite t v => Sys2Proof.Machine.execLoopCfgWrite t v s
  | .carrierBoundary at_ late fail sample legs => Sys2Proof.Machine.execCarrierBoundary at_ late fail sample legs s
  | .gateEvent t ev at_ trail fails => Sys2Proof.Machine.execGateEvent t ev at_ trail fails s
  | .integrityEscalation kind ix => Sys2Proof.Machine.execIntegrityEscalation kind ix s
  | .crookWrite t v => Sys2Proof.Machine.execCrookWrite t v s
  | .crookForceApply t now => Sys2Proof.Machine.execCrookForceApply t now s
  | .stFieldWrite t reg v => Sys2Proof.Machine.execStFieldWrite t reg v s
  | .commitApply ch sample => Sys2Proof.Machine.execCommitApply ch sample s
  | .stepChangeApply ch now sample => Sys2Proof.Machine.execStepChangeApply ch now sample s
  | .desaturation t p g => Sys2Proof.Machine.execDesaturation t p g s
  | .desatSpanClose t now => Sys2Proof.Machine.execDesatSpanClose t now s
  | .spareSelfTestStart t p now => Sys2Proof.Machine.execSpareSelfTestStart t p now s
  | .spareSelfTestEnd t fails now => Sys2Proof.Machine.execSpareSelfTestEnd t fails now s
  | .substOverlapStart t now => Sys2Proof.Machine.execSubstOverlapStart t now s
  | .substRelease t now => Sys2Proof.Machine.execSubstRelease t now s
  | .timerWindowOpen ix now => Sys2Proof.Machine.execTimerWindowOpen ix now s
  | .timerWindowClose ix now => Sys2Proof.Machine.execTimerWindowClose ix now s
  | .externalTrip g levels at_ => Sys2Proof.Machine.execExternalTrip g levels at_ s
  | .terminalOvercurrent t ma at_ => Sys2Proof.Machine.execTerminalOvercurrent t ma at_ s
  | .foldTrip k src vals at_ => Sys2Proof.Machine.execFoldTrip k src vals at_ s
  | .stageOvertempWarn f temp => Sys2Proof.Machine.execStageOvertempWarn f temp s
  | .debugHalt e now => Sys2Proof.Machine.execDebugHalt e now s
  | .foldBudgetRenewal k busV busNow busI busI10 pout chanMw termMa now => Sys2Proof.Machine.execFoldBudgetRenewal k busV busNow busI busI10 pout chanMw termMa now s
  | .coolantDerate reading now => Sys2Proof.Machine.execCoolantDerate reading now s
  | .foldCfgWrite k v => Sys2Proof.Machine.execFoldCfgWrite k v s
  | .foldStopEnd k => Sys2Proof.Machine.execFoldStopEnd k s
  | .injEnd ix => Sys2Proof.Machine.execInjEnd ix s
  | .injChunkFetch ix => Sys2Proof.Machine.execInjChunkFetch ix s
  | .capTrigger ix => Sys2Proof.Machine.execCapTrigger ix s
  | .capEntryRecord ix fails => Sys2Proof.Machine.execCapEntryRecord ix fails s
  | .capEntryCommit ix => Sys2Proof.Machine.execCapEntryCommit ix s
  | .capDone ix => Sys2Proof.Machine.execCapDone ix s
  | .loadComplete ch => Sys2Proof.Machine.execLoadComplete ch s
  | .modelLoadComplete f => Sys2Proof.Machine.execModelLoadComplete f s
  | .motionLatch f l => Sys2Proof.Machine.execMotionLatch f l s
  | .impDrift ch => Sys2Proof.Machine.execImpDrift ch s
  | .modelRunStart e ch => Sys2Proof.Machine.execModelRunStart e ch s
  | .modelDeadline e => Sys2Proof.Machine.execModelDeadline e s
  | .clampHoldNarrow ch => Sys2Proof.Machine.execClampHoldNarrow ch s
  | .modelEngineHealthFail e => Sys2Proof.Machine.execModelEngineHealthFail e s
  | .coverEnd e l => Sys2Proof.Machine.execCoverEnd e l s
  | .tableBuildDone ch => Sys2Proof.Machine.execTableBuildDone ch s
  | .tableSwap ch => Sys2Proof.Machine.execTableSwap ch s
  | .resRefit ch => Sys2Proof.Machine.execResRefit ch s
  | .senseSettled n => Sys2Proof.Machine.execSenseSettled n s
  | .illFault n held => Sys2Proof.Machine.execIllFault n held s
  | .snsConfigWrite n reg v => Sys2Proof.Machine.execSnsConfigWrite n reg v s
  | .pmCfgWrite t reg v => Sys2Proof.Machine.execPmCfgWrite t reg v s
  | .diagPointEnd d => Sys2Proof.Machine.execDiagPointEnd d s
  | .diagRunEnd d cause => Sys2Proof.Machine.execDiagRunEnd d cause s
  | .diagResultWrite d => Sys2Proof.Machine.execDiagResultWrite d s
  | .alignEnd ch now => Sys2Proof.Machine.execAlignEnd ch now s
  | .forcedStep ch now => Sys2Proof.Machine.execForcedStep ch now s
  | .motorHandover ch now => Sys2Proof.Machine.execMotorHandover ch now s
  | .lockedRotor ch now => Sys2Proof.Machine.execLockedRotor ch now s
  | .rampHoldEnd ch now => Sys2Proof.Machine.execRampHoldEnd ch now s
  | .blankEnd ch now => Sys2Proof.Machine.execBlankEnd ch now s
  | .crossingConfirmed ch now sample => Sys2Proof.Machine.execCrossingConfirmed ch now sample s
  | .commutationPost ch now => Sys2Proof.Machine.execCommutationPost ch now s
  | .syntheticCommutation ch now => Sys2Proof.Machine.execSyntheticCommutation ch now s
  | .reverse ch now => Sys2Proof.Machine.execReverse ch now s
  | .brakeEnd ch now => Sys2Proof.Machine.execBrakeEnd ch now s
  | .coastEnd ch now => Sys2Proof.Machine.execCoastEnd ch now s
  | .retryReload ch now => Sys2Proof.Machine.execRetryReload ch now s
  | .gateEdge g now => Sys2Proof.Machine.execGateEdge g now s
  | .gateLost g => Sys2Proof.Machine.execGateLost g s
  | .layerTimeout g now => Sys2Proof.Machine.execLayerTimeout g now s
  | .layerStateMessage id place isOpen => Sys2Proof.Machine.execLayerStateMessage id place isOpen s
  | .heldFaultTakeEffect ch => Sys2Proof.Machine.execHeldFaultTakeEffect ch s
  | .deferredActionRun got peerArmed now => Sys2Proof.Machine.execDeferredActionRun got peerArmed now s
  | .sheepdogJudgement f l => Sys2Proof.Machine.execSheepdogJudgement f l s
  | .leaseExpiry ch => Sys2Proof.Machine.execLeaseExpiry ch s
  | .engineAutoTestStart n => Sys2Proof.Machine.execEngineAutoTestStart n s
  | .resyncCopyDone ch => Sys2Proof.Machine.execResyncCopyDone ch s
  | .pairCompareMiss u unwritten now => Sys2Proof.Machine.execPairCompareMiss u unwritten now s
  | .fsResume k => Sys2Proof.Machine.execFsResume k s
  | .coreStandbyCopyDone r b => Sys2Proof.Machine.execCoreStandbyCopyDone r b s
  | .errorReport source now => Sys2Proof.Machine.execErrorReport source now s
  | .faultReactionApply ch => Sys2Proof.Machine.execFaultReactionApply ch s
  | .brokenWire source unwritten now => Sys2Proof.Machine.execBrokenWire source unwritten now s
  | .brokenSourcePoll now => Sys2Proof.Machine.execBrokenSourcePoll now s
  | .causeConditionEnd source cause okind object => Sys2Proof.Machine.execCauseConditionEnd source cause okind object s
  | .stationC4Received id place => Sys2Proof.Machine.execStationC4Received id place s
  | .fltRdWrite v => Sys2Proof.Machine.execFltRdWrite v s
  | .recordFreezeRead ix => Sys2Proof.Machine.execRecordFreezeRead ix s
  | .loWordRead addr size => Sys2Proof.Machine.execLoWordRead addr size s
  | .rollbackBurn slot got => Sys2Proof.Machine.execRollbackBurn slot got s
  | .linkTrained ix lanes station => Sys2Proof.Machine.execLinkTrained ix lanes station s
  | .discoveryToken ix count id => Sys2Proof.Machine.execDiscoveryToken ix count id s
  | .stationFormMessage ix nmod ring excluded rate m => Sys2Proof.Machine.execStationFormMessage ix nmod ring excluded rate m s
  | .stationMarker ix frame err => Sys2Proof.Machine.execStationMarker ix frame err s
  | .hopDelayMeasure ix delay => Sys2Proof.Machine.execHopDelayMeasure ix delay s
  | .stationSeating at_ => Sys2Proof.Machine.execStationSeating at_ s
  | .alignConfirm p => Sys2Proof.Machine.execAlignConfirm p s
  | .linkDown ix far => Sys2Proof.Machine.execLinkDown ix far s
  | .linkUp ix lanes far station => Sys2Proof.Machine.execLinkUp ix lanes far station s
  | .calendarSet v => Sys2Proof.Machine.execCalendarSet v s
  | .calendarSync sec frac => Sys2Proof.Machine.execCalendarSync sec frac s
  | .doorbell r v => Sys2Proof.Machine.execDoorbell r v s
  | .commandFetch e => Sys2Proof.Machine.execCommandFetch e s
  | .completionWrite r => Sys2Proof.Machine.execCompletionWrite r s
  | .cqHeadWrite r v => Sys2Proof.Machine.execCqHeadWrite r v s
  | .ringEnable r => Sys2Proof.Machine.execRingEnable r s
  | .ringDisable r => Sys2Proof.Machine.execRingDisable r s
  | .ringDmaFailure r canWrite => Sys2Proof.Machine.execRingDmaFailure r canWrite s
  | .hostReset pclk => Sys2Proof.Machine.execHostReset pclk s
  | .intAckWrite v => Sys2Proof.Machine.execIntAckWrite v s
  | .registerWrite addr data => Sys2Proof.Machine.execRegisterWrite addr data s
  | .bar2Read addr len uncorrectable => Sys2Proof.Machine.execBar2Read addr len uncorrectable s
  | .bar2Write addr data => Sys2Proof.Machine.execBar2Write addr data s
  | .maintenanceRequest req => Sys2Proof.Machine.execMaintenanceRequest req s
  | .chanNew e => Sys2Proof.Machine.execChanNew e s
  | .chanDel e => Sys2Proof.Machine.execChanDel e s
  | .chanDelOpen ch now => Sys2Proof.Machine.execChanDelOpen ch now s
  | .chanDelComplete ch => Sys2Proof.Machine.execChanDelComplete ch s
  | .bind e => Sys2Proof.Machine.execBind e s
  | .unbind e => Sys2Proof.Machine.execUnbind e s
  | .load e std => Sys2Proof.Machine.execLoad e std s
  | .modelLoad e std => Sys2Proof.Machine.execModelLoad e std s
  | .modelTable e => Sys2Proof.Machine.execModelTable e s
  | .stage e => Sys2Proof.Machine.execStage e s
  | .stageSet e => Sys2Proof.Machine.execStageSet e s
  | .commit e => Sys2Proof.Machine.execCommit e s
  | .abort e => Sys2Proof.Machine.execAbort e s
  | .arm e now => Sys2Proof.Machine.execArm e now s
  | .disarm e => Sys2Proof.Machine.execDisarm e s
  | .clear e => Sys2Proof.Machine.execClear e s
  | .mute e => Sys2Proof.Machine.execMute e s
  | .unmute e => Sys2Proof.Machine.execUnmute e s
  | .gain e => Sys2Proof.Machine.execGain e s
  | .capNew e => Sys2Proof.Machine.execCapNew e s
  | .capStart e => Sys2Proof.Machine.execCapStart e s
  | .capStop e => Sys2Proof.Machine.execCapStop e s
  | .capDel e => Sys2Proof.Machine.execCapDel e s
  | .injNew e => Sys2Proof.Machine.execInjNew e s
  | .injStart e => Sys2Proof.Machine.execInjStart e s
  | .injStop e => Sys2Proof.Machine.execInjStop e s
  | .injDel e => Sys2Proof.Machine.execInjDel e s
  | .diagRun e => Sys2Proof.Machine.execDiagRun e s
  | .diagAbort e => Sys2Proof.Machine.execDiagAbort e s
  | .diagEnrol e => Sys2Proof.Machine.execDiagEnrol e s
  | .diagDel e => Sys2Proof.Machine.execDiagDel e s
  | .fenceLoad e got => Sys2Proof.Machine.execFenceLoad e got s
  | .fenceQuery e => Sys2Proof.Machine.execFenceQuery e s
  | .attest e => Sys2Proof.Machine.execAttest e s
  | .debugChal e => Sys2Proof.Machine.execDebugChal e s
  | .debugResp e fuseOk => Sys2Proof.Machine.execDebugResp e fuseOk s
  | .bistRun e => Sys2Proof.Machine.execBistRun e s
  | .bistWorkMoved c => Sys2Proof.Machine.execBistWorkMoved c s
  | .bistVerdict c sig => Sys2Proof.Machine.execBistVerdict c sig s
  | .domain e now => Sys2Proof.Machine.execDomain e now s
  | .stnInfo e => Sys2Proof.Machine.execStnInfo e s
  | .stnRescan e peerArmed => Sys2Proof.Machine.execStnRescan e peerArmed s
  | .timerNew e => Sys2Proof.Machine.execTimerNew e s
  | .timerDel e => Sys2Proof.Machine.execTimerDel e s
  | .tripSet e => Sys2Proof.Machine.execTripSet e s
  | .tripAdd e now => Sys2Proof.Machine.execTripAdd e now s
  | .tripDel e => Sys2Proof.Machine.execTripDel e s
  | .motorNew e => Sys2Proof.Machine.execMotorNew e s
  | .motorDel e => Sys2Proof.Machine.execMotorDel e s
  | .gateNew e => Sys2Proof.Machine.execGateNew e s
  | .gateDel e => Sys2Proof.Machine.execGateDel e s
  | .jtagBypass code => Sys2Proof.Machine.execJtagBypass code s
  | .jtagSamplePreload pins shift => Sys2Proof.Machine.execJtagSamplePreload pins shift s
  | .jtagExtest pins shift => Sys2Proof.Machine.execJtagExtest pins shift s
  | .lineSignalPresent n => Sys2Proof.Machine.execLineSignalPresent n s
  | .calendarSupplyChange supply => Sys2Proof.Machine.execCalendarSupplyChange supply s
  | .pcieLinkTrained width speed => Sys2Proof.Machine.execPcieLinkTrained width speed s
  | .iaNop e err => Sys2Proof.Machine.execIaNop e err s
  | .iaEnd e err => Sys2Proof.Machine.execIaEnd e err s
  | .iaMovi e err => Sys2Proof.Machine.execIaMovi e err s
  | .iaLdp e err => Sys2Proof.Machine.execIaLdp e err s
  | .iaAddp e err => Sys2Proof.Machine.execIaAddp e err s
  | .iaMov e err => Sys2Proof.Machine.execIaMov e err s
  | .iaMfl e err => Sys2Proof.Machine.execIaMfl e err s
  | .iaClrs e err => Sys2Proof.Machine.execIaClrs e err s
  | .iaLdh e err => Sys2Proof.Machine.execIaLdh e err s
  | .iaSth e err => Sys2Proof.Machine.execIaSth e err s
  | .iaLdw e err => Sys2Proof.Machine.execIaLdw e err s
  | .iaStw e err => Sys2Proof.Machine.execIaStw e err s
  | .iaAdd e err => Sys2Proof.Machine.execIaAdd e err s
  | .iaSub e err => Sys2Proof.Machine.execIaSub e err s
  | .iaAddi e err => Sys2Proof.Machine.execIaAddi e err s
  | .iaNeg e err => Sys2Proof.Machine.execIaNeg e err s
  | .iaAbs e err => Sys2Proof.Machine.execIaAbs e err s
  | .iaMin e err => Sys2Proof.Machine.execIaMin e err s
  | .iaMax e err => Sys2Proof.Machine.execIaMax e err s
  | .iaAnd e err => Sys2Proof.Machine.execIaAnd e err s
  | .iaOr e err => Sys2Proof.Machine.execIaOr e err s
  | .iaXor e err => Sys2Proof.Machine.execIaXor e err s
  | .iaAndi e err => Sys2Proof.Machine.execIaAndi e err s
  | .iaShl e err => Sys2Proof.Machine.execIaShl e err s
  | .iaShr e err => Sys2Proof.Machine.execIaShr e err s
  | .iaCmp e err => Sys2Proof.Machine.execIaCmp e err s
  | .iaCmpi e err => Sys2Proof.Machine.execIaCmpi e err s
  | .iaSel e err => Sys2Proof.Machine.execIaSel e err s
  | .iaMul e err => Sys2Proof.Machine.execIaMul e err s
  | .iaMac e err => Sys2Proof.Machine.execIaMac e err s
  | .iaMsu e err => Sys2Proof.Machine.execIaMsu e err s
  | .iaGmul e err => Sys2Proof.Machine.execIaGmul e err s
  | .iaGmac e err => Sys2Proof.Machine.execIaGmac e err s
  | .iaAdda e err => Sys2Proof.Machine.execIaAdda e err s
  | .iaSuba e err => Sys2Proof.Machine.execIaSuba e err s
  | .iaXta e err => Sys2Proof.Machine.execIaXta e err s
  | .iaRnd e err => Sys2Proof.Machine.execIaRnd e err s
  | .iaSha e err => Sys2Proof.Machine.execIaSha e err s
  | .iaClpa e err => Sys2Proof.Machine.execIaClpa e err s
  | .iaSatw e err => Sys2Proof.Machine.execIaSatw e err s
  | .iaCmpa e err => Sys2Proof.Machine.execIaCmpa e err s
  | .iaSela e err => Sys2Proof.Machine.execIaSela e err s
  | .iaExt e err => Sys2Proof.Machine.execIaExt e err s
  | .iaErr e err => Sys2Proof.Machine.execIaErr e err s
  | .iaDiv e err => Sys2Proof.Machine.execIaDiv e err s
  | .iaClra e err => Sys2Proof.Machine.execIaClra e err s
  | .iaLse e err => Sys2Proof.Machine.execIaLse e err s
  | .iaHld e err => Sys2Proof.Machine.execIaHld e err s
  | .iaCap e err => Sys2Proof.Machine.execIaCap e err s
  | .iaChn e err => Sys2Proof.Machine.execIaChn e err s
  | .iaClm e err => Sys2Proof.Machine.execIaClm e err s
  | .iaSpt e err => Sys2Proof.Machine.execIaSpt e err s
  | .iaSin e err => Sys2Proof.Machine.execIaSin e err s
  | .iaFfw e err => Sys2Proof.Machine.execIaFfw e err s
  | .iaInj e err => Sys2Proof.Machine.execIaInj e err s
  | .iaEvt e err => Sys2Proof.Machine.execIaEvt e err s
  | .iaOut e err => Sys2Proof.Machine.execIaOut e err s
  | .iaLoop e err => Sys2Proof.Machine.execIaLoop e err s
  | .iaSkp e err => Sys2Proof.Machine.execIaSkp e err s
  | .alwaysOnReady => Sys2Proof.Machine.execAlwaysOnReady s
  | .coresStarted => Sys2Proof.Machine.execCoresStarted s
  | .frameClockPhased => Sys2Proof.Machine.execFrameClockPhased s
  | .clockReserveTakeover => Sys2Proof.Machine.execClockReserveTakeover s
  | .sourceLost => Sys2Proof.Machine.execSourceLost s
  | .holdoverEntry => Sys2Proof.Machine.execHoldoverEntry s
  | .holdoverMinEnd => Sys2Proof.Machine.execHoldoverMinEnd s
  | .holdoverNoSource => Sys2Proof.Machine.execHoldoverNoSource s
  | .slewFreqMatched => Sys2Proof.Machine.execSlewFreqMatched s
  | .slewPhaseDone => Sys2Proof.Machine.execSlewPhaseDone s
  | .fcSettingsApply => Sys2Proof.Machine.execFcSettingsApply s
  | .recordWrite => Sys2Proof.Machine.execRecordWrite s
  | .tallyFreeze => Sys2Proof.Machine.execTallyFreeze s
  | .tallyLatch => Sys2Proof.Machine.execTallyLatch s
  | .tallyUnfreeze => Sys2Proof.Machine.execTallyUnfreeze s
  | .fenceInForce => Sys2Proof.Machine.execFenceInForce s
  | .challengeLapse => Sys2Proof.Machine.execChallengeLapse s
  | .discoveryTimeout => Sys2Proof.Machine.execDiscoveryTimeout s
  | .stationReady => Sys2Proof.Machine.execStationReady s
  | .alignErr => Sys2Proof.Machine.execAlignErr s
  | .supercapLow => Sys2Proof.Machine.execSupercapLow s
  | .backupLow => Sys2Proof.Machine.execBackupLow s
  | .commandTake => Sys2Proof.Machine.execCommandTake s
  | .dramUncorrectable => Sys2Proof.Machine.execDramUncorrectable s
  | .jtagIdcode => Sys2Proof.Machine.execJtagIdcode s

end Sys2Proof.Machine
end

