-- ==== Sys2Proof/Safety.lean ====
section
/-! DEFINITION. What a safe run keeps, in the terms the claims use. -/

namespace Sys2Proof.Machine

open Sys2Proof

/-- The parts of the state that a command may touch: every field but the queue of waiting commands. -/
inductive Part where
  | regs | wide | hiLatch | gens | ws | dram | dom | boot | amb | ports | outs | bell | chans | terms | folds | binds | gates
  | timers | trips | motors | caps | injs | images | health | runs | mengs | sense | fs | cores | bists | jtag | diags | rings
  | svc | col | tal | sec | attest | host | stn | nv | free
  deriving DecidableEq, Repr

/-- A part of the state stands as it was. -/
def Part.same (p : Part) (s t : State) : Prop :=
  match p with
  | .regs => t.regs = s.regs
  | .wide => t.wide = s.wide
  | .hiLatch => t.hiLatch = s.hiLatch
  | .gens => t.gens = s.gens
  | .ws => t.ws = s.ws
  | .dram => t.dram = s.dram
  | .dom => t.dom = s.dom
  | .boot => t.boot = s.boot
  | .amb => t.amb = s.amb
  | .ports => t.ports = s.ports
  | .outs => t.outs = s.outs
  | .bell => t.bell = s.bell
  | .chans => t.chans = s.chans
  | .terms => t.terms = s.terms
  | .folds => t.folds = s.folds
  | .binds => t.binds = s.binds
  | .gates => t.gates = s.gates
  | .timers => t.timers = s.timers
  | .trips => t.trips = s.trips
  | .motors => t.motors = s.motors
  | .caps => t.caps = s.caps
  | .injs => t.injs = s.injs
  | .images => t.images = s.images
  | .health => t.health = s.health
  | .runs => t.runs = s.runs
  | .mengs => t.mengs = s.mengs
  | .sense => t.sense = s.sense
  | .fs => t.fs = s.fs
  | .cores => t.cores = s.cores
  | .bists => t.bists = s.bists
  | .jtag => t.jtag = s.jtag
  | .diags => t.diags = s.diags
  | .rings => t.rings = s.rings
  | .svc => t.svc = s.svc
  | .col => t.col = s.col
  | .tal => t.tal = s.tal
  | .sec => t.sec = s.sec
  | .attest => t.attest = s.attest
  | .host => t.host = s.host
  | .stn => t.stn = s.stn
  | .nv => t.nv = s.nv
  | .free => t.free = s.free

/-- What a meaning answers satisfies `P` where it is a next state. -/
structure AllNext (P : State → Prop) (r : Res) : Prop where
  all : ∀ t, r = .next t → P t

/-- The command completes in a next state with property `P`. -/
def Does (c : Instr) (s : State) (P : State → Prop) : Prop := ∃ t, exec c s = .next t ∧ P t

/-- An act of the supervisor of fold k at pt `now` has the property P where a supervisor serves the fold and nothing waits; while none serves
it the act only joins the list of those that wait (R426). -/
def DoesOnFold (c : Instr) (k now : Nat) (s : State) (P : State → Prop) : Prop :=
  Does c s fun t => if s.foldServed k now = true then (s.fold k).waits = [] → P t
    else t.terms = s.terms ∧ t.regs = s.regs ∧ ∃ x, (t.fold k).waits = (s.fold k).waits ++ [x]

/-- A meaning answers a next state. -/
structure Completes (r : Res) : Prop where
  next : ∃ t, r = .next t

/-- Module DRAM, the workspaces and the register words are in canonical form. -/
def State.tablesOk (s : State) : Prop :=
  twf (fun _ => 0) s.dram = true ∧ twf (fun _ => 0) s.ws = true ∧ twf regReset s.regs = true

/-- Every generation is one that a handle may carry: 1 to 0xFFFF (R50). -/
def State.gensOk (s : State) : Prop := ∀ ty i, 1 ≤ s.gen ty i ∧ s.gen ty i ≤ 0xFFFF

/-- No fuse of `x` that is blown is whole again in `y`: no rollback count and no debug count is lower, a builder hash stays (R461). -/
def FuseLe (x y : Sec) : Prop :=
  (∀ slot, tget 0 x.rollback slot ≤ tget 0 y.rollback slot) ∧ x.debugCount ≤ y.debugCount ∧
    ∀ h, x.builderHash = some h → y.builderHash = some h

/-- Both sides of leg `y` on only where both sides of leg `x` were. -/
structure LegLe (x y : Term) : Prop where
  both : y.hi = true → y.lo = true → x.hi = true ∧ x.lo = true

/-- No terminal has its high side and its low side on at once (R161, R164, R165). -/
def State.legsOk (s : State) : Prop := ∀ t, ¬((s.term t).hi = true ∧ (s.term t).lo = true)
/-- The state once a command that the core has taken is taken no longer (R294). -/
def State.untake (s : State) (e : CmdEntry) : State :=
  if s.svc.taken = some e then s.updSvc (fun v => { v with taken := none, takenBlk := [] }) else s

/-- The DRAM block that a taken command read still stands as it was read (R509). -/
def State.blockKept (s : State) (e : CmdEntry) : Prop :=
  s.svc.taken = some e → s.svc.takenBlk = [] ∨ s.readBlock e = s.svc.takenBlk

/-- The service core runs, and an entry of this opcode passes the general checks and need not wait for a layer window (R291, R300,
R485). -/
def State.accepts (s : State) (e : CmdEntry) (op : Nat) : Prop :=
  s.boot.phase = 6 ∧ opcodeOf e = op ∧ s.blockKept e ∧ (s.untake e).general e = none ∧ (s.untake e).scopeOpen e = false

/-- The own check that a deferred action fails, with its status and number; a fence record that does not verify fails at 1
(R33, R310, R312, R360, R527). -/
def deferFail (c : Instr) (s : State) : Option (Nat × Nat) :=
  match c with
  | .diagRun e => firstFail (diagChecks e s)
  | .bistRun e => firstFail (bistChecks e s)
  | .domain e _ => firstFail (domainChecks e s)
  | .stnRescan _ peerArmed => firstFail (rescanChecks peerArmed s)
  | .fenceLoad e _ =>
    match s.verifyFence (opN e 0).toNat (opN e 1).toNat with
    | none => some (stAuth, 1)
    | some body => if s.fenceFits (fenceOf body) then none else some (stFence, 2)
  | _ => none

/-- Between `s` and `t` the entry's ring gained exactly this completion (R289, R297). -/
def Posted (e : CmdEntry) (status : Nat) (result : W) (check : Nat) (s t : State) : Prop :=
  (t.ring e.ring.val).done = (s.ring e.ring.val).done ++
    [{ opcode := opcodeOf e, status, cookie := e.cookie, result, check, rule := 0, index := 0, irq := bitOf e.word0 9 }]

/-- The run in progress of an engine, of an image whose words the spec gives, has reached the word `w` of this opcode, outside a span that
is skipped (R250, R273). -/
def State.atWord (s : State) (e : Fin 160) (op : Nat) (w : W) : Prop :=
  (s.run e.val).live = true ∧ s.stdRun (s.run e.val) = false ∧ (s.runWords (s.run e.val))[(s.run e.val).pc]? = some w ∧ opField w = op ∧
    (s.run e.val).skip ≤ (s.run e.val).pc

/-- From `s` to `t` nothing but the run of one engine changed, and it became `r`. -/
def RunIs (e : Fin 160) (s t : State) (r : Run) : Prop := t = s.setRun e.val r

-- ---------------------------------------------------------------- the bytes a command stores (R143, R255, R256)

/-- The workspace bytes that a store of n bytes at a view address writes: those of the run's own state, and of the other instance's
while a resynchronisation copies it (R256, R421). -/
def State.storeKeys (s : State) (r : Run) (n a : Nat) : List Nat :=
  match s.placeOf r a n with
  | .state o =>
    (List.range n).map (fun i => wsKey r.ch (s.stateAt r o + i)) ++
      (if (s.chan r.ch).lease.mirror && (s.chan r.ch).lease.stby == 1 && s.active r then
        (List.range n).map (fun i => wsKey r.ch (128 + (if r.inst then 0 else s.stateBytes r.ch) + o + i)) else [])
  | _ => []

/-- The workspace bytes that STH (`op` 0x09, two bytes) or STW (0x0B, four bytes) writes in the run of an engine. -/
def State.iaStores (s : State) (op n e err : Nat) : List Nat :=
  let r := s.run e
  match (s.runWords r)[r.pc]? with
  | none => []
  | some w =>
    if !r.live || opField w != op || err == 2 || decide (r.pc < r.skip) then []
    else if !s.stdRun r then s.storeKeys r n (r.ea w)
    else if op = 0x0B then (List.range (s.stdWords e).length).flatMap (fun i => s.storeKeys r 4 (r.stdBase + 4 * i))
    else s.storeKeys r 2 28

/-- The ranges of module DRAM, as address and length, that hold every byte a command stores. CHAN.NEW may move rings within the capture pool
(R144, log 23); a power-up starts with DRAM as at reset. -/
def dramStores (c : Instr) (s : State) : List (Nat × Nat) :=
  let reports := s.attest.map (fun x => (x.addr, 34576 + x.nonce.length))
  match c with
  | .bar2Write addr data => [(addr.toNat, data.length)]
  | .capEntryCommit i =>
    let x := s.cap i.val
    [((s.chan x.chan).adm.capAt + x.wptr * x.bytes, ((x.queued.headD []).flatMap (encodeSample x.layout)).length)]
  | .diagResultWrite d => [((s.diag d.val).addr + 0x40, (s.diagResult (s.diag d.val)).1.length)]
  | .attest e => ((opN e 1).toNat, 34624) :: (if s.bell.dead then reports else [])
  | .tallyLatch => reports
  | .debugChal e => [((opN e 0).toNat, 80)]
  | .chanNew _ => [(capBase, dramSize)]
  | .auxSupplyRise _ => [(0, dramSize)]
  | _ => []

/-- The entry joins the commands in progress and posts nothing yet (R295). -/
def InProgress (e : CmdEntry) (s t : State) : Prop :=
  t.svc.inProg = s.svc.inProg ++ [{ entry := e, obj := objOf e, result := 0, silent := false, burning := false, ready := false }] ∧
    t.rings = s.rings



end Sys2Proof.Machine

namespace Sys2Proof

open Sys2Proof.Machine

/-- The parts of the state that a command may write. It leaves every other part, and the queue, alone. -/
def Instr.touches : Instr → List Part
  | .auxSupplyRise _ =>
    [.regs, .wide, .hiLatch, .gens, .ws, .dram, .dom, .boot, .amb, .ports, .outs, .bell, .chans, .terms, .folds, .binds,
    .gates, .timers, .trips, .motors, .caps, .injs, .images, .health, .runs, .mengs, .sense, .fs, .cores, .bists, .jtag,
    .diags, .rings, .svc, .col, .tal, .sec, .attest, .host, .stn, .nv, .free]
  | .securityBootDone _ _ =>
    [.regs, .boot, .ports, .col, .sec, .host]
  | .foldSlotStart _ =>
    [.regs, .ws, .dom, .ports, .chans, .gates, .images, .mengs, .sense]
  | .foldSlotEnd _ _ _ =>
    [.regs, .wide, .boot, .chans, .terms, .folds, .gates, .motors, .rings, .svc, .col, .tal, .host]
  | .quickBistDone _ _ =>
    [.regs, .wide, .boot, .chans, .terms, .folds, .gates, .motors, .caps, .injs, .health, .runs, .fs, .cores, .bists, .rings,
    .svc, .col, .tal, .host, .nv]
  | .auxSupplyFail _ =>
    [.regs, .wide, .dom, .boot, .terms, .gates, .tal, .sec, .host, .free]
  | .busRise _ _ | .ftbLoss _ _ | .desatSpanClose _ _ | .foldTrip _ _ _ _ =>
    [.regs, .wide, .chans, .terms, .folds, .gates, .motors, .rings, .svc, .col, .tal, .host]
  | .clockLossModuleStop _ _ =>
    [.regs, .wide, .bell, .chans, .terms, .folds, .gates, .motors, .caps, .injs, .rings, .svc, .col, .tal, .host]
  | .ftbReturn _ =>
    [.folds]
  | .outputPortClockLost _ =>
    [.regs, .col]
  | .domainPowerLoss _ _ =>
    [.regs, .wide, .ws, .dom, .boot, .ports, .bell, .chans, .terms, .folds, .gates, .motors, .caps, .injs, .images, .health,
    .runs, .mengs, .bists, .rings, .svc, .col, .tal, .sec, .host, .stn, .free]
  | .domainSettled _ =>
    [.rings, .svc, .col]
  | .streamFrame _ _ =>
    [.regs, .wide, .ports, .bell, .chans, .col, .host]
  | .sealVerdict _ =>
    [.regs, .ports, .gates, .col, .host]
  | .portStayTimeout _ | .lineSignalPresent _ =>
    [.ports]
  | .lineOutOfRange _ | .sclkLost _ | .spCtrlWrite _ _ =>
    [.regs, .ports, .bell, .col, .host]
  | .spKindmapWrite _ _ _ | .runLimit _ _ =>
    [.regs, .ports, .col, .host]
  | .soCtrlWrite _ _ =>
    [.regs, .outs]
  | .soSlotWrite _ _ _ | .outputFrameSend _ =>
    [.outs]
  | .frameBoundary _ _ =>
    [.regs, .wide, .ports, .outs, .bell, .chans, .folds, .binds, .gates, .injs, .diags, .rings, .svc, .col, .tal, .host, .free]
  | .driftMeasurement _ _ _ _ _ _ | .reselect _ =>
    [.regs, .bell, .svc, .col, .host]
  | .unbar _ | .slewFreqMatched | .slewPhaseDone =>
    [.bell]
  | .fcRateWrite _ | .fcRatioWrite _ | .fcPrioWrite _ | .fcWindowWrite _ | .fcPhaseWrite _ | .sourceLost | .holdoverEntry
  | .holdoverMinEnd | .holdoverNoSource =>
    [.regs, .bell, .col, .host]
  | .zcTimeout _ | .tokenGrant _ | .followError _ | .loopCfgWrite _ _ | .stFieldWrite _ _ _ | .resRefit _ =>
    [.regs, .chans, .col, .host]
  | .gatedStopIdle _ =>
    [.chans, .gates, .motors]
  | .loopLatch _ _ _ _ _ =>
    [.regs, .ws, .outs, .chans, .folds, .caps, .sense, .col, .host, .free]
  | .coefApply _ _ =>
    [.regs, .ws, .chans]
  | .armTakeEffect _ _ =>
    [.chans, .terms, .gates, .timers, .trips, .motors, .rings, .svc]
  | .disarmTakeEffect _ =>
    [.chans, .gates, .motors, .rings, .svc]
  | .instanceRunStart _ _ _ | .modelRunStart _ _ =>
    [.chans, .runs]
  | .loopCutoff _ _ =>
    [.regs, .chans, .runs, .svc, .col, .host]
  | .overrunHealthFailure _ _ | .stageOvertempWarn _ _ | .foldCfgWrite _ _ | .impDrift _ | .calendarSync _ _ | .cqHeadWrite _ _
  | .bar2Read _ _ _ | .supercapLow | .backupLow =>
    [.regs, .col, .host]
  | .coefWrite _ _ _ | .clampHoldNarrow _ | .pmCfgWrite _ _ _ =>
    [.chans]
  | .carrierBoundary _ _ _ _ _ =>
    [.regs, .wide, .chans, .terms, .trips, .motors, .col, .tal, .host]
  | .gateEvent _ _ _ _ _ =>
    [.regs, .wide, .terms, .col, .tal, .host]
  | .integrityEscalation _ _ =>
    [.regs, .chans, .terms, .col, .host]
  | .crookWrite _ _ | .desaturation _ _ _ =>
    [.regs, .terms, .col, .host]
  | .crookForceApply _ _ =>
    [.chans, .terms, .motors]
  | .commitApply _ _ =>
    [.regs, .wide, .chans, .terms, .gates, .motors, .rings, .svc, .tal, .host]
  | .stepChangeApply _ _ _ =>
    [.regs, .chans, .timers, .trips, .motors]
  | .spareSelfTestStart _ _ _ | .spareSelfTestEnd _ _ _ | .substOverlapStart _ _ | .substRelease _ _
  | .foldBudgetRenewal _ _ _ _ _ _ _ _ _ =>
    [.regs, .chans, .terms, .folds, .col, .tal, .host]
  | .timerWindowOpen _ _ | .timerWindowClose _ _ =>
    [.timers, .trips]
  | .externalTrip _ _ _ =>
    [.regs, .wide, .chans, .terms, .folds, .gates, .trips, .motors, .rings, .svc, .col, .tal, .host]
  | .terminalOvercurrent _ _ _ =>
    [.regs, .wide, .chans, .terms, .gates, .motors, .rings, .svc, .col, .tal, .host]
  | .debugHalt _ _ =>
    [.regs, .wide, .chans, .terms, .gates, .motors, .health, .runs, .rings, .svc, .col, .tal, .host]
  | .coolantDerate _ _ =>
    [.regs, .wide, .amb, .chans, .terms, .folds, .gates, .motors, .rings, .svc, .col, .tal, .host]
  | .foldStopEnd _ =>
    [.regs, .folds, .trips]
  | .injEnd _ =>
    [.injs]
  | .injChunkFetch _ =>
    [.injs, .svc]
  | .capTrigger _ | .capDone _ =>
    [.caps]
  | .capEntryRecord _ _ =>
    [.regs, .caps, .col]
  | .capEntryCommit _ | .capNew _ | .capStart _ | .capStop _ =>
    [.dram, .caps, .rings, .svc]
  | .loadComplete _ | .commandTake =>
    [.rings, .svc]
  | .modelLoadComplete _ =>
    [.ws, .chans, .images, .health, .mengs, .rings, .svc]
  | .motionLatch _ _ =>
    [.regs, .chans, .mengs, .col, .host, .free]
  | .modelDeadline _ | .iaEnd _ _ =>
    [.regs, .outs, .chans, .health, .runs, .mengs, .svc, .col, .host, .nv]
  | .modelEngineHealthFail _ =>
    [.regs, .chans, .health, .runs, .mengs, .svc, .col, .host, .nv]
  | .coverEnd _ _ =>
    [.regs, .health, .mengs, .col, .host]
  | .tableBuildDone _ | .resyncCopyDone _ =>
    [.ws, .chans]
  | .tableSwap _ =>
    [.regs, .ws, .chans, .rings, .svc, .col, .host]
  | .senseSettled _ =>
    [.sense]
  | .illFault _ _ =>
    [.regs, .svc, .col, .host]
  | .snsConfigWrite _ _ _ =>
    [.regs, .sense, .col, .host]
  | .diagPointEnd _ =>
    [.chans, .diags, .free]
  | .diagRunEnd _ _ =>
    [.chans, .diags, .rings, .svc, .free]
  | .diagResultWrite _ =>
    [.dram, .diags, .rings, .svc, .free]
  | .alignEnd _ _ | .forcedStep _ _ | .commutationPost _ _ | .reverse _ _ =>
    [.chans, .motors]
  | .motorHandover _ _ | .brakeEnd _ _ =>
    [.regs, .motors, .col, .host]
  | .lockedRotor _ _ | .rampHoldEnd _ _ | .crossingConfirmed _ _ _ | .syntheticCommutation _ _ | .coastEnd _ _ =>
    [.regs, .chans, .motors, .col, .host]
  | .blankEnd _ _ | .retryReload _ _ =>
    [.motors]
  | .gateEdge _ _ =>
    [.gates]
  | .gateLost _ | .layerTimeout _ _ =>
    [.regs, .gates, .col, .host]
  | .layerStateMessage _ _ _ | .alignConfirm _ =>
    [.stn]
  | .heldFaultTakeEffect _ =>
    [.regs, .chans, .terms, .gates, .motors, .rings, .svc, .col, .host]
  | .deferredActionRun _ _ _ =>
    [.regs, .wide, .ws, .dram, .dom, .ports, .bell, .chans, .terms, .gates, .images, .health, .runs, .mengs, .sense, .fs,
    .cores, .bists, .diags, .rings, .svc, .col, .tal, .sec, .host, .stn]
  | .sheepdogJudgement _ _ =>
    [.regs, .ws, .chans, .terms, .folds, .health, .runs, .svc, .col, .tal, .host, .nv]
  | .leaseExpiry _ =>
    [.regs, .chans, .health, .runs, .svc, .col, .host, .nv]
  | .engineAutoTestStart _ =>
    [.regs, .chans, .terms, .health, .runs, .mengs, .fs, .cores, .bists, .svc, .col, .tal, .host]
  | .pairCompareMiss _ _ _ =>
    [.regs, .wide, .chans, .terms, .folds, .gates, .motors, .caps, .injs, .fs, .cores, .rings, .svc, .col, .tal, .host, .free]
  | .fsResume _ =>
    [.fs, .col]
  | .coreStandbyCopyDone _ _ =>
    [.cores, .col]
  | .errorReport _ _ | .brokenSourcePoll _ =>
    [.regs, .wide, .chans, .terms, .folds, .gates, .motors, .caps, .injs, .rings, .svc, .col, .tal, .host]
  | .faultReactionApply _ =>
    [.regs, .chans, .terms, .gates, .motors, .rings, .svc, .col, .sec, .host]
  | .brokenWire _ _ _ =>
    [.regs, .wide, .ports, .bell, .chans, .terms, .folds, .gates, .motors, .caps, .injs, .health, .runs, .mengs, .fs, .cores,
    .rings, .svc, .col, .tal, .host, .stn, .nv, .free]
  | .causeConditionEnd _ _ _ _ | .clockReserveTakeover | .dramUncorrectable =>
    [.col]
  | .stationC4Received _ _ =>
    [.col, .stn]
  | .fltRdWrite _ | .maintenanceRequest _ =>
    [.regs, .host]
  | .recordFreezeRead _ =>
    [.col, .host]
  | .loWordRead _ _ =>
    [.hiLatch, .col, .host]
  | .rollbackBurn _ _ =>
    [.regs, .rings, .svc, .col, .sec, .host]
  | .linkTrained _ _ _ | .discoveryToken _ _ _ | .hopDelayMeasure _ _ | .stationSeating _ | .linkDown _ _ | .linkUp _ _ _ _
  | .discoveryTimeout =>
    [.regs, .bell, .col, .host, .stn]
  | .stationFormMessage _ _ _ _ _ _ =>
    [.regs, .bell, .rings, .svc, .col, .host, .stn]
  | .stationMarker _ _ _ =>
    [.regs, .stn]
  | .calendarSet _ =>
    [.regs, .boot, .col, .host]
  | .doorbell _ _ | .recordWrite =>
    [.regs, .col, .tal, .host]
  | .commandFetch _ | .ringEnable _ =>
    [.regs, .rings]
  | .completionWrite _ =>
    [.regs, .rings, .tal, .host]
  | .ringDisable _ | .hostReset _ =>
    [.regs, .rings, .svc, .col, .host]
  | .ringDmaFailure _ _ =>
    [.regs, .rings, .col, .host]
  | .intAckWrite _ =>
    [.host]
  | .registerWrite _ _ =>
    [.regs, .boot, .ports, .outs, .bell, .chans, .terms, .sense, .rings, .svc, .col, .tal, .host]
  | .bar2Write _ _ =>
    [.regs, .dram, .col, .host]
  | .chanNew _ =>
    [.regs, .dram, .chans, .terms, .rings, .svc]
  | .chanDel _ =>
    [.regs, .gens, .dram, .chans, .binds, .gates, .timers, .trips, .motors, .caps, .injs, .runs, .rings, .svc, .col, .sec,
    .host]
  | .chanDelOpen _ _ =>
    [.regs, .wide, .outs, .chans, .terms, .tal, .host]
  | .chanDelComplete _ =>
    [.regs, .wide, .ws, .ports, .chans, .terms, .binds, .gates, .motors, .caps, .injs, .images, .health, .runs, .rings, .svc,
    .col, .host, .nv]
  | .bind _ =>
    [.dram, .chans, .binds, .rings, .svc]
  | .unbind _ =>
    [.gens, .dram, .binds, .rings, .svc]
  | .load _ _ =>
    [.regs, .ws, .dram, .chans, .images, .health, .rings, .svc, .col, .sec, .host]
  | .modelLoad _ _ =>
    [.regs, .dram, .images, .mengs, .rings, .svc, .col, .sec, .host]
  | .modelTable _ | .stage _ | .stageSet _ | .commit _ | .abort _ | .disarm _ | .mute _ | .unmute _ | .gain _ =>
    [.dram, .chans, .rings, .svc]
  | .arm _ _ =>
    [.regs, .dram, .chans, .terms, .gates, .timers, .trips, .motors, .rings, .svc, .col, .host]
  | .clear _ =>
    [.regs, .dram, .chans, .folds, .trips, .rings, .svc]
  | .capDel _ =>
    [.gens, .dram, .caps, .rings, .svc]
  | .injNew _ | .injStart _ | .injStop _ =>
    [.dram, .injs, .rings, .svc]
  | .injDel _ =>
    [.gens, .dram, .injs, .rings, .svc]
  | .diagRun _ | .diagAbort _ =>
    [.dram, .diags, .rings, .svc]
  | .diagEnrol _ =>
    [.dram, .rings, .svc, .nv]
  | .diagDel _ =>
    [.gens, .dram, .diags, .rings, .svc]
  | .fenceLoad _ _ =>
    [.regs, .dram, .rings, .svc, .col, .sec, .host]
  | .fenceQuery _ | .stnInfo _ =>
    [.dram, .rings, .svc]
  | .attest _ =>
    [.dram, .rings, .svc, .attest, .free]
  | .debugChal _ =>
    [.dram, .rings, .svc, .sec, .free]
  | .debugResp _ _ =>
    [.regs, .dram, .chans, .terms, .gates, .motors, .rings, .svc, .col, .sec, .host]
  | .bistRun _ =>
    [.regs, .dram, .chans, .terms, .health, .runs, .mengs, .fs, .cores, .bists, .rings, .svc, .col, .tal, .host]
  | .bistWorkMoved _ =>
    [.regs, .chans, .terms, .health, .runs, .mengs, .fs, .cores, .bists, .col, .tal, .host]
  | .bistVerdict _ _ =>
    [.regs, .chans, .terms, .health, .runs, .sense, .fs, .cores, .bists, .rings, .svc, .col, .tal, .host, .nv]
  | .domain _ _ =>
    [.regs, .wide, .ws, .dram, .dom, .ports, .bell, .chans, .terms, .gates, .images, .health, .runs, .mengs, .sense, .rings,
    .svc, .col, .tal, .host, .stn]
  | .stnRescan _ _ =>
    [.dram, .rings, .svc, .stn]
  | .timerNew _ =>
    [.dram, .timers, .rings, .svc]
  | .timerDel _ =>
    [.gens, .dram, .timers, .rings, .svc]
  | .tripSet _ =>
    [.dram, .trips, .rings, .svc]
  | .tripAdd _ _ =>
    [.regs, .wide, .dram, .chans, .terms, .gates, .trips, .motors, .rings, .svc, .col, .tal, .host]
  | .tripDel _ =>
    [.regs, .gens, .dram, .trips, .rings, .svc]
  | .motorNew _ =>
    [.dram, .motors, .rings, .svc]
  | .motorDel _ =>
    [.regs, .gens, .dram, .motors, .rings, .svc]
  | .gateNew _ =>
    [.dram, .gates, .rings, .svc]
  | .gateDel _ =>
    [.regs, .gens, .dram, .gates, .rings, .svc, .col]
  | .jtagBypass _ | .jtagSamplePreload _ _ | .jtagExtest _ _ | .jtagIdcode =>
    [.jtag]
  | .calendarSupplyChange _ =>
    [.regs, .boot]
  | .pcieLinkTrained _ _ =>
    [.regs]
  | .iaNop _ _ | .iaMovi _ _ | .iaLdp _ _ | .iaAddp _ _ | .iaMov _ _ | .iaMfl _ _ | .iaClrs _ _ | .iaLdh _ _ | .iaLdw _ _
  | .iaAdd _ _ | .iaSub _ _ | .iaAddi _ _ | .iaNeg _ _ | .iaAbs _ _ | .iaMin _ _ | .iaMax _ _ | .iaAnd _ _ | .iaOr _ _
  | .iaXor _ _ | .iaAndi _ _ | .iaShl _ _ | .iaShr _ _ | .iaCmp _ _ | .iaCmpi _ _ | .iaSel _ _ | .iaMul _ _ | .iaMac _ _
  | .iaMsu _ _ | .iaGmul _ _ | .iaGmac _ _ | .iaAdda _ _ | .iaSuba _ _ | .iaXta _ _ | .iaRnd _ _ | .iaSha _ _ | .iaClpa _ _
  | .iaSatw _ _ | .iaCmpa _ _ | .iaSela _ _ | .iaExt _ _ | .iaDiv _ _ | .iaClra _ _ | .iaLse _ _ | .iaHld _ _ | .iaCap _ _
  | .iaChn _ _ | .iaSpt _ _ | .iaSin _ _ | .iaFfw _ _ | .iaInj _ _ | .iaEvt _ _ | .iaLoop _ _ | .iaSkp _ _ =>
    [.regs, .runs, .col, .host]
  | .iaSth _ _ | .iaStw _ _ =>
    [.regs, .ws, .chans, .runs, .col, .host]
  | .iaErr _ _ | .iaOut _ _ =>
    [.regs, .chans, .runs, .col, .host]
  | .iaClm _ _ =>
    [.regs, .chans, .runs, .col, .host, .free]
  | .alwaysOnReady | .coresStarted =>
    [.boot]
  | .frameClockPhased =>
    [.regs, .ws, .dom, .boot, .ports, .chans, .gates, .images, .mengs, .sense, .stn]
  | .fcSettingsApply =>
    [.regs, .ports, .bell, .chans, .col, .host]
  | .tallyFreeze | .tallyUnfreeze =>
    [.regs, .tal]
  | .tallyLatch =>
    [.dram, .rings, .svc, .tal, .attest, .free]
  | .fenceInForce =>
    [.ports, .rings, .svc, .sec]
  | .challengeLapse =>
    [.sec]
  | .stationReady =>
    [.regs, .rings, .svc, .col, .host, .stn]
  | .alignErr =>
    [.regs, .col, .host, .stn]

end Sys2Proof
end

