-- ==== Sys2Proof/WellFormed.lean ====
section
/-! DEFINITION. What a well-formed command is: the bounds that the types of its operands do not carry. -/

namespace Sys2Proof

/-- The opcode that a station command's row stands for (R301 to R312); 0 for a command that is no entry of a ring. -/
def Instr.opcode : Instr → Nat
  | .chanNew _ => 0x0101 | .chanDel _ => 0x0102 | .bind _ => 0x0201 | .unbind _ => 0x0202
  | .load _ _ => 0x0301 | .modelLoad _ _ => 0x0401 | .modelTable _ => 0x0402
  | .stage _ => 0x0501 | .stageSet _ => 0x0502 | .commit _ => 0x0503 | .abort _ => 0x0504
  | .arm _ _ => 0x0601 | .disarm _ => 0x0602 | .clear _ => 0x0603 | .mute _ => 0x0604 | .unmute _ => 0x0605 | .gain _ => 0x0606
  | .capNew _ => 0x0701 | .capStart _ => 0x0702 | .capStop _ => 0x0703 | .capDel _ => 0x0704
  | .injNew _ => 0x0711 | .injStart _ => 0x0712 | .injStop _ => 0x0713 | .injDel _ => 0x0714
  | .diagRun _ => 0x0801 | .diagAbort _ => 0x0802 | .diagEnrol _ => 0x0803 | .diagDel _ => 0x0804
  | .fenceLoad _ _ => 0x0901 | .fenceQuery _ => 0x0902 | .attest _ => 0x0903 | .debugChal _ => 0x0904 | .debugResp _ _ => 0x0905
  | .bistRun _ => 0x0A01 | .domain _ _ => 0x0B01 | .stnInfo _ => 0x0B02 | .stnRescan _ _ => 0x0B03
  | .timerNew _ => 0x0C01 | .timerDel _ => 0x0C02 | .tripSet _ => 0x0C11 | .tripAdd _ _ => 0x0C12 | .tripDel _ => 0x0C13
  | .motorNew _ => 0x0C21 | .motorDel _ => 0x0C22 | .gateNew _ => 0x0C31 | .gateDel _ => 0x0C32
  | _ => 0

/-- The entry that a station command carries, or that COMMAND_FETCH brings. -/
def Instr.entry : Instr → Option CmdEntry
  | .chanNew e | .chanDel e | .bind e | .unbind e | .modelTable e | .stage e | .stageSet e | .commit e | .abort e | .disarm e | .clear e
  | .mute e | .unmute e | .gain e | .capNew e | .capStart e | .capStop e | .capDel e | .injNew e | .injStart e | .injStop e | .injDel e
  | .diagRun e | .diagAbort e | .diagEnrol e | .diagDel e | .fenceQuery e | .attest e | .debugChal e | .bistRun e | .stnInfo e
  | .timerNew e | .timerDel e | .tripSet e | .tripDel e | .motorNew e | .motorDel e | .gateNew e | .gateDel e
  | .commandFetch e => some e
  | .load e _ | .modelLoad e _ | .arm e _ | .domain e _ | .stnRescan e _ | .tripAdd e _ => some e
  | .fenceLoad e _ | .debugResp e _ => some e
  | _ => none

/-- An entry has 14 operand words (R288). -/
def CmdEntry.wf (e : CmdEntry) : Bool := e.ops.length == 14

/-- A line frame takes some time and shows at most 32 subframes (R80). -/
def LineFrame.wf (f : LineFrame) : Bool := decide (f.subs.length ≤ 32 ∧ f.len ≠ 0)

/-- No number twice. -/
def distinct (l : List Nat) : Bool := decide l.Nodup

/-- A BAR2 access lies in the 1 GiB of module DRAM (R143, R508). -/
def inDram (a n : Nat) : Bool := decide (1 ≤ n ∧ a + n ≤ 0x40000000)

/-- Well-formed commands. -/
def Instr.wf (i : Instr) : Bool :=
  (match i.entry with
    | some e => e.wf && (i.opcode == 0 || i.opcode == e.word0.toNat / 65536)
    | none => true) &&
  match i with
  | .streamFrame _ f => f.wf
  | .loopLatch f _ _ sens _ => decide (sens.map (·.port.val) = (List.range 8).map (8 * f.val + ·))
  | .carrierBoundary _ _ _ _ legs => distinct (legs.map (·.term.val))
  | .foldBudgetRenewal k _ _ _ _ _ chans terms _ =>
    terms.all (fun x => x.1.val / 64 == k.val) && distinct (chans.map (·.1.val)) && distinct (terms.map (·.1.val))
  | .registerWrite _ data => decide (1 ≤ data.length ∧ data.length ≤ 8)
  | .bar2Read addr len _ => inDram addr.toNat len
  | .bar2Write addr data => inDram addr.toNat data.length
  | .maintenanceRequest req => decide (1 ≤ req.length)
  | _ => true

end Sys2Proof
end

