-- ==== Sys2Proof/Certificates/Slice0/Obligations.lean ====
section
/-! DEFINITION. The statements for the provers. -/

open Sys2Proof Sys2Proof.Machine

/-- For every command c, every list of waiting commands and every state, the step of the state with c at the front of its queue is
exec of c on the state with the rest of the queue. With no command waiting the step answers the state after one tick of the
calendar (the model's choice, log 34). (00_scope.md, 95_what_each_step_holds.md) -/
def Obligations.StepTakesTheFrontCommand : Prop :=
  (∀ (c : Instr) (rest : List Instr) (s : State),
    step { s with pending := c :: rest } = exec c { s with pending := rest }) ∧
  (∀ s : State, step { s with pending := [] } = .next (calTick { s with pending := [] }))

/-- For every state and every well-formed command, exec answers a next state. A BAR2 access that runs past the end of the 1 GiB
faults with outsideDram, and no command whatever is refused. (R508, R510, 95_what_each_step_holds.md) -/
def Obligations.EveryCommandCompletes : Prop :=
  (∀ (c : Instr) (s : State), c.wf = true → ∃ t, exec c s = .next t) ∧
  (∀ (addr : BitVec 30) (len : Nat) (u : Bool) (s : State), 0x40000000 < addr.toNat + len →
    exec (.bar2Read addr len u) s = .fault .outsideDram) ∧
  (∀ (addr : BitVec 30) (data : List (BitVec 8)) (s : State), 0x40000000 < addr.toNat + data.length →
    exec (.bar2Write addr data) s = .fault .outsideDram) ∧
  (∀ (c : Instr) (s : State) (r : Refusal), exec c s ≠ .refused r)

/-- For every command c and every state, when exec answers a next state the queue of waiting commands is unchanged and so is every
part of the state that c.touches does not list: register words, counters, memories, ports, channels, terminals, folds, objects,
images, engines, pairs, rings, collector, security, host side and the rest. Every byte of module DRAM outside the ranges that
dramStores computes reads as before, so all of it where a command stores none. STH and STW leave every workspace byte outside
those that State.iaStores computes, and CHAN_DEL_COMPLETE every workspace but its channel's. (95_what_each_step_holds.md, R10,
R504) -/
def Obligations.CommandsTouchOnlyTheirParts : Prop :=
  (∀ (c : Instr) (s t : State), exec c s = .next t →
    t.pending = s.pending ∧ (∀ p : Part, p ∉ c.touches → p.same s t) ∧
      ∀ a, a < dramSize → (∀ r ∈ dramStores c s, ¬(r.1 ≤ a ∧ a < r.1 + r.2)) → t.dramByte a = s.dramByte a) ∧
  (∀ (e : Fin 160) (err : Fin 5) (s t : State), exec (.iaSth e err) s = .next t →
    ∀ k, k ∉ s.iaStores 0x09 2 e.val err.val → tget 0 t.ws k = tget 0 s.ws k) ∧
  (∀ (e : Fin 160) (err : Fin 5) (s t : State), exec (.iaStw e err) s = .next t →
    ∀ k, k ∉ s.iaStores 0x0B 4 e.val err.val → tget 0 t.ws k = tget 0 s.ws k) ∧
  (∀ (ch : Fin 512) (s t : State), exec (.chanDelComplete ch) s = .next t →
    ∀ k, k / 0x4000 ≠ ch.val → tget 0 t.ws k = tget 0 s.ws k)

/-- For every state whose module DRAM, workspace bytes and register words are in canonical form (numbers strictly rising, no entry
equal to what its number reads as unlisted), every next state of a step is in that form too. (R143, R135, R504) -/
def Obligations.StepsKeepTablesCanonical : Prop :=
  ∀ s t : State, s.tablesOk → step s = .next t → t.tablesOk

/-- For every state in which no terminal has both its high side and its low side on, no next state of a step has a terminal with
both on, whatever edges, faults, trips, forces and register writes the commands bring. (R161, R162, R164, R165, R174) -/
def Obligations.StepsKeepLegsApart : Prop :=
  ∀ s t : State, s.legsOk → step s = .next t → t.legsOk

/-- For every state and every next state of a step: each rollback count and the debug count is at least what it was, and a builder
hash that was burned is the same. This holds through power-up, power-down, resets and burns that are cut short. (R461,
18_security.md) -/
def Obligations.FusesStayBlown : Prop :=
  ∀ s t : State, step s = .next t → FuseLe s.sec t.sec

/-- For every state in which the generation of every object type and index lies between 1 and 0xFFFF, every next state of a step has
them in that range. (R50) -/
def Obligations.StepsKeepGenerationsInRange : Prop :=
  ∀ s t : State, s.gensOk → step s = .next t → t.gensOk

/-- State.reset has its tables in canonical form, no terminal with both sides on, every generation at 1, an empty queue, phase 0 of
start-up with only the always-on domains powered, and no channel live. (R481, R50, R461) -/
def Obligations.ResetMeetsTheInvariants : Prop :=
  State.reset.tablesOk ∧ State.reset.legsOk ∧ State.reset.gensOk ∧
    (∀ ty i, State.reset.gen ty i = 1) ∧ State.reset.pending = [] ∧ State.reset.boot.phase = 0 ∧
    (∀ d : Fin 48, State.reset.domOn d.val = (d.val == 46 || d.val == 47)) ∧ State.reset.liveChans = []

/-- For every port, value and state: a write to SP_CTRL that changes NCODE, TERM, LEVEL or MODE while ENABLE reads 1, or clears
ENABLE with a binding to an armed channel, leaves the register and sets CFG_IGNORED; any other write gives it the written
fields, SEAL kept. SP_KINDMAP takes a write unless the port is enabled and the value differs, when CFG_IGNORED is set. SO_CTRL
ignores a change of NCODE, LEVEL or MODE while enabled. A write to SO_SLOT waits for the boundary and changes no latched value.
Each of these rows answers a next state with its own effect where its conditions hold: spCtrlWrite, spKindmapWrite, soCtrlWrite,
soSlotWrite. (R105, R107) -/
def Obligations.PortRegisterWritesObeyTheLocks : Prop :=
  (∀ (n : Fin 16) (v : W) (s : State), Does (.spCtrlWrite n v) s fun t =>
    let old := s.reg (spCtrl n.val)
    let new := (old &&& 0x0C00) ||| (v &&& 0x0333)
    if bitOf old 0 = true ∧ ((old &&& 0x0332) ≠ (new &&& 0x0332) ∨ (bitOf new 0 = false ∧ s.armedAtPort n.val ≠ [])) then
      t.reg (spCtrl n.val) = old ∧ bitOf (t.reg (spEvt n.val)) 8 = true
    else t.reg (spCtrl n.val) = new) ∧
  (∀ (n : Fin 16) (i : Fin 2) (v : W) (s : State), Does (.spKindmapWrite n i v) s fun t =>
    if s.spEnable n.val = true ∧ s.reg (spKindmap n.val i.val) ≠ v then
      t.reg (spKindmap n.val i.val) = s.reg (spKindmap n.val i.val) ∧ bitOf (t.reg (spEvt n.val)) 8 = true
    else t.reg (spKindmap n.val i.val) = v) ∧
  (∀ (n : Fin 4) (v : W) (s : State), Does (.soCtrlWrite n v) s fun t =>
    t.reg (soCtrl n.val) =
      if bitOf (s.reg (soCtrl n.val)) 0 = true ∧ (s.reg (soCtrl n.val) &&& 0x0312) ≠ (v &&& 0x0313 &&& 0x0312)
      then s.reg (soCtrl n.val) else v &&& 0x0313) ∧
  (∀ (n : Fin 4) (sl : Fin 32) (v : W) (s : State), Does (.soSlotWrite n sl v) s fun t =>
    tget none (t.out n.val).slotPend sl.val = some (v &&& 0xFFFF0F00) ∧ (t.out n.val).latched = (s.out n.val).latched ∧
      (t.out n.val).sent = (s.out n.val).sent ∧ ∀ a, t.reg a = s.reg a)

/-- For every port and state. In ACQUIRE on a line within its rates the third whole frame in a row moves the port to FRAME, an
earlier one is counted and a bad one starts the count again. In FRAME a whole frame with Z moves it to BLOCK, a bad frame to
ACQUIRE with FRAMING_ERR set and counted. A LOCKED or RATE_HOLD port that loses its line or its recovered clock goes to ACQUIRE
with LOSS_OF_LOCK set and counted, SP_RATE 0; a longest stay returns ACQUIRE, FRAME and BLOCK to ACQUIRE; a port in use gains a
line signal. Each of these rows answers a next state with its own effect where its conditions hold: streamFrame, sclkLost,
lineOutOfRange, portStayTimeout, lineSignalPresent. (R89, R93, R95, R40, R70) -/
def Obligations.PortLockFollowsTheLine : Prop :=
  (∀ (n : Fin 16) (f : LineFrame) (s : State), (s.port n.val).st = .acquire → (s.port n.val).sclkOk = true →
    s.lineInRange n.val f = true → Does (.streamFrame n f) s fun t =>
      if s.framingBad n.val f = true then (t.port n.val).st = .acquire ∧ (t.port n.val).goodPre = 0
      else if (s.port n.val).goodPre + 1 ≥ 3 then (t.port n.val).st = .frame
      else (t.port n.val).st = .acquire ∧ (t.port n.val).goodPre = (s.port n.val).goodPre + 1) ∧
  (∀ (n : Fin 16) (f : LineFrame) (s : State), (s.port n.val).st = .frame → (s.port n.val).sclkOk = true →
    s.lineInRange n.val f = true → Does (.streamFrame n f) s fun t =>
      if s.framingBad n.val f = true then (t.port n.val).st = .acquire ∧ bitOf (t.reg (spEvt n.val)) 1 = true ∧
        t.reg (spCnt n.val 4) = s.reg (spCnt n.val 4) + 1
      else (t.port n.val).st = if firstPre f = some .z then .block else .frame) ∧
  (∀ (n : Fin 16) (s : State), (s.port n.val).st = .locked ∨ (s.port n.val).st = .rateHold →
    ∀ c ∈ [Instr.sclkLost n, .lineOutOfRange n], Does c s fun t =>
      (t.port n.val).st = .acquire ∧ (t.port n.val).sclkOk = false ∧ bitOf (t.reg (spEvt n.val)) 0 = true ∧
        t.reg (spCnt n.val 5) = s.reg (spCnt n.val 5) + 1 ∧ (t.port n.val).rate = 0) ∧
  (∀ (n : Fin 16) (s : State), Does (.portStayTimeout n) s fun t =>
    (t.port n.val).st = if (s.port n.val).st = .frame ∨ (s.port n.val).st = .block then .acquire else (s.port n.val).st) ∧
  (∀ (n : Fin 16) (s : State), (s.port n.val).st ≠ .off → s.col.broken.contains (srcPort n.val) = false →
    Does (.lineSignalPresent n) s fun t => (t.port n.val).sclkOk = true ∧ (t.port n.val).st = (s.port n.val).st)

/-- For every port, slot and state: when RUN exceeds VRUN_LIMIT (0 acts as 1) RUN_LIMIT is set and the slot is marked so that it
reports once. A block of a port in wide mode whose tag is the one its key gives, whose stream is the sealed one, whose epoch has
not gone back and whose SEQ is new is accepted: its epoch and SEQ are held and the accepted count rises; any other, and every
block in standard mode, raises the failed count and sets SEAL_FAIL. The loss of an output clock puts an enabled port out of
service. Each of these rows answers a next state with its own effect where its conditions hold: runLimit, sealVerdict,
outputPortClockLost. (R92, R471, R472, R473, R40, R107) -/
def Obligations.RunLimitAndSealVerdicts : Prop :=
  (∀ (n : Fin 16) (sl : Fin 32) (s : State),
    (tget SlotSt.none (s.port n.val).slots sl.val).run > max 1 (s.regField (spLimit n.val) 0 16) →
    (tget SlotSt.none (s.port n.val).slots sl.val).limHit = false → Does (.runLimit n sl) s fun t =>
      (tget SlotSt.none (t.port n.val).slots sl.val).limHit = true ∧ bitOf (t.reg (spEvt n.val)) 5 = true ∧
        exec (.runLimit n sl) t = .next t) ∧
  (∀ (n : Fin 16) (s : State) (b : SealInfo), (s.port n.val).sealBlk = some b →
    Does (.sealVerdict n) s fun t =>
      (t.port n.val).sealBlk = none ∧
      if s.spWide n.val = true ∧ sealTag (s.port n.val).sealKey b = b.tag ∧ b.streamId = (s.port n.val).sealSet.streamId ∧ (s.port n.val).epoch ≤ b.epoch ∧
          (s.port n.val).sealSet.epochMin ≤ b.epoch ∧
          (b.epoch = (s.port n.val).epoch → ∀ q, (s.port n.val).lastSeq = some q → q < b.seq) then
        (t.port n.val).epoch = b.epoch ∧ (t.port n.val).lastSeq = some b.seq ∧
          t.reg (sealCnt n.val 0) = s.reg (sealCnt n.val 0) + 1 ∧ t.reg (sealCnt n.val 1) = s.reg (sealCnt n.val 1)
      else (t.port n.val).epoch = (s.port n.val).epoch ∧ (t.port n.val).lastSeq = (s.port n.val).lastSeq ∧
        t.reg (sealCnt n.val 1) = s.reg (sealCnt n.val 1) + 1 ∧ bitOf (t.reg (sealEvt n.val)) 0 = true) ∧
  (∀ (n : Fin 4) (s : State), bitOf (s.reg (soCtrl n.val)) 0 = true → Does (.outputPortClockLost n) s fun t =>
    t.reg (soStat n.val) = 2 ∧ t.reg (soCtrl n.val) = s.reg (soCtrl n.val))

/-- For every output port that is sending, with its line rate within the range of its level, and every state with the collector not
in C4, the frame sent has one subframe for each slot; subframe i carries the sample and the validity of the i-th value due (an
invalid zero where none is due), a user bit of 0, and has Z exactly where i is 0 and the frame count is a multiple of 192. SEQ
counts one at each such frame. A port that is not sending sends nothing. Each of these rows answers a next state with its own
effect where its conditions hold: outputFrameSend. (R99, R103, R441) -/
def Obligations.OutputFramesCarryTheDueValues : Prop :=
  (∀ (n : Fin 4) (s : State), s.reg (soStat n.val) = 1 → s.col.c4 = false →
    baudOk (bitOf (s.reg (soCtrl n.val)) 4) (64 * s.soN n.val * s.frate) 1 = true → Does (.outputFrameSend n) s fun t =>
    (t.out n.val).sent.length = s.soN n.val ∧
    (t.out n.val).seq = (s.out n.val).seq + (if s.bell.frame.toNat % 192 = 0 then 1 else 0) ∧
    ∀ i x, (t.out n.val).sent[i]? = some x →
      x.sample = ((s.out n.val).due.getD i ⟨0, true, 0, 0, none⟩).sample ∧ x.invalid = ((s.out n.val).due.getD i ⟨0, true, 0, 0, none⟩).invalid ∧
        x.u = false ∧ (x.z = true ↔ i = 0 ∧ s.bell.frame.toNat % 192 = 0)) ∧
  (∀ (n : Fin 4) (s : State), s.reg (soStat n.val) ≠ 1 → exec (.outputFrameSend n) s = .next s)

/-- For every state. RESELECT in the cycle of another decision sets CFG_IGNORED and changes no selection; in an open layer window it
waits as a deferred action; before the least holdover has passed it changes nothing; otherwise, with no station link ready, it
ends an exclusion, leaves the selection where no entry or the present one would be picked, and starts the slew to the picked
entry, with CHANGE set, where another is. UNBAR clears exactly the bars named and marks them for their next measurement. A drift
measurement shows and keeps the offset of each entry whose source is there, 0 for TCXO, and forgets those of any other; TCXO
always qualifies, any other that is there with its last four within WINDOW; a selected entry outside WINDOW is barred with DRIFT
set and holdover due. Each of these rows answers a next state with its own effect where its conditions hold: reselect, unbar,
driftMeasurement. (R113, R114, R117, R118) -/
def Obligations.SourceDecisionsFollowThePriorities : Prop :=
  (∀ s : State, Does (.reselect true) s fun t => t.bell = s.bell ∧ t.svc = s.svc ∧ bitOf (t.reg fcEvt) 6 = true) ∧
  (∀ s : State, s.stnOpen = true → Does (.reselect false) s fun t => t.bell = s.bell ∧
    if s.svc.defer.length < 16 then t.svc.defer = s.svc.defer ++ [Deferred.reselect] ∧ t.regs = s.regs
    else t.svc = s.svc ∧ bitOf (t.reg fcEvt) 6 = true) ∧
  (∀ s : State, s.stnOpen = false → s.linkReady = false → Does (.reselect false) s fun t =>
    if s.bell.enterHold = true ∨ (s.bell.mode = .holdover ∧ s.bell.holdFp < 192) then t = s
    else match s.pickEntry with
    | none => t = s.updBell (fun b => { b with excl := none })
    | some e =>
      if s.bell.mode ≠ .holdover ∧ s.bell.onLink = false ∧ s.bell.follow = none ∧ s.bell.active = e then
        t = s.updBell (fun b => { b with excl := none })
      else t.bell.active = e ∧ t.bell.mode = .slewing ∧ t.bell.onLink = false ∧ t.bell.phaseStep = false ∧ t.bell.follow = none ∧
        t.bell.excl = none ∧ bitOf (t.reg fcEvt) 3 = true ∧ t.bell.frame = s.bell.frame) ∧
  (∀ (bits : BitVec 4) (s : State), Does (.unbar bits) s fun t => t.regs = s.regs ∧ t.bell.active = s.bell.active ∧
    ∀ e, fieldN t.bell.barred e 1 = (if bits.getLsbD e then 0 else fieldN s.bell.barred e 1) ∧
      fieldN t.bell.unbarred e 1 = (if bits.getLsbD e ∧ fieldN s.bell.barred e 1 = 1 then 1 else fieldN s.bell.unbarred e 1)) ∧
  (∀ (o : Fin 4 → BitVec 24) (link : BitVec 24) (present : BitVec 5) (s : State),
    Does (.driftMeasurement (o 0) (o 1) (o 2) (o 3) link present) s fun t =>
      (∀ e : Fin 4,
        let here := s.entryHere present.toNat e.val
        let off := if s.entrySrc e.val = 1 then (0 : BitVec 24) else o e
        t.reg (fcOffset e.val) = (if here = true then off.setWidth 32 else s.reg (fcOffset e.val)) ∧
        tget [] t.bell.meas e.val = (if here = true then (off.toInt :: tget [] s.bell.meas e.val).take 4 else []) ∧
        (t.entryQual e.val = true ↔ s.entrySrc e.val = 1 ∨ (here = true ∧ s.measOk (tget [] t.bell.meas e.val) = true))) ∧
      (∀ e : Fin 4, s.selects e.val = true → s.entryHere present.toNat e.val = true → s.entrySrc e.val ≠ 1 →
        (s.window : Int) < absI (o e).toInt →
          fieldN t.bell.barred e.val 1 = 1 ∧ t.bell.enterHold = true ∧ bitOf (t.reg fcEvt) 0 = true ∧ t.bell.active = s.bell.active))

/-- For every state. The loss of a selected source other than TCXO, an input port only once it is not LOCKED and the station link
once it is not trained, is reported once, sets LOST and makes holdover due; while slewing the source is excluded from the next
decision. Holdover due is entered with HOLDOVER set and its count from 0. Its least length of 192 fp ends with a decision, which
only ends the exclusion where nothing can be selected. After each further 65,536 fp without a source HOLDOVER is set again. A
frequency within 0.1 ppm of the source ends the slew to TCXO and starts the phase step of any other; the phase step done, the
mode is tracking. Each of these rows answers a next state with its own effect where its conditions hold: sourceLost,
holdoverEntry, holdoverMinEnd, holdoverNoSource, slewFreqMatched, slewPhaseDone. (R112, R115, R116, R118, R126) -/
def Obligations.HoldoverAndSlewFollowTheSource : Prop :=
  (∀ s : State, Does .sourceLost s fun t =>
    if s.bell.mode = .holdover ∨ s.selSrc = 1 ∨ s.bell.lost = true ∨ (s.selSrc = 3 ∧ (s.port s.selPort).st = .locked) ∨
      (s.selSrc = 4 ∧ s.linkTrained = true) then t = s
    else t.bell.enterHold = true ∧ t.bell.lost = true ∧ t.bell.mode = s.bell.mode ∧ bitOf (t.reg fcEvt) 1 = true ∧
      (s.bell.follow = none → (s.bell.mode = .slewing → t.bell.excl = some (if s.bell.onLink then 4 else s.bell.active)) ∧
        (s.bell.onLink = false → tget [] t.bell.meas s.bell.active = []))) ∧
  (∀ s : State, Does .holdoverEntry s fun t =>
    if s.bell.enterHold = true then t.bell.mode = .holdover ∧ t.bell.enterHold = false ∧ t.bell.holdFp = 0 ∧
      t.bell.noSrcFp = 0 ∧ t.bell.active = s.bell.active ∧ bitOf (t.reg fcEvt) 2 = true
    else t = s) ∧
  (∀ s : State, s.linkReady = false → Does .holdoverMinEnd s fun t =>
    if s.bell.mode = .holdover ∧ 192 ≤ s.bell.holdFp then match s.pickEntry with
      | some e => t.bell.active = e ∧ t.bell.mode = .slewing ∧ bitOf (t.reg fcEvt) 3 = true
      | none => t = s.updBell (fun b => { b with excl := none })
    else t = s) ∧
  (∀ s : State, Does .holdoverNoSource s fun t =>
    if s.bell.mode = .holdover ∧ 65536 < s.bell.noSrcFp then
      bitOf (t.reg fcEvt) 2 = true ∧ t.bell.noSrcFp + 65536 = s.bell.noSrcFp ∧ t.bell.mode = .holdover
    else t = s) ∧
  (∀ s : State, Does .slewFreqMatched s fun t =>
    if s.bell.mode = .slewing ∧ s.bell.phaseStep = false ∧
        absI (s.bell.freq - s.srcOff * s.frate) ≤ (10 * s.frate : Nat) then
      t.bell.mode = (if s.selSrc = 1 then .tracking else .slewing) ∧ (s.selSrc ≠ 1 → t.bell.phaseStep = true)
    else t = s) ∧
  (∀ s : State, Does .slewPhaseDone s fun t =>
    if s.bell.mode = .slewing ∧ s.bell.phaseStep = true then t.bell.mode = .tracking ∧ t.bell.phaseStep = false else t = s)

/-- For every value and state. FC_PRIO, FC_WINDOW and FC_PHASE wait where each field lies within its limit, and are ignored with
CFG_IGNORED otherwise. FC_RATE and FC_RATIO are ignored by a joined module other than M0, change nothing where the value is the
one that will apply, are ignored while a channel is armed or outside the limits of the combination that will apply, and wait
otherwise. No write changes a register at once. The boundary that applies the settings gives each of the five registers the
value last written, leaving none pending. Each of these rows answers a next state with its own effect where its conditions hold:
fcSettingsApply, fcPrioWrite, fcWindowWrite, fcPhaseWrite, fcRateWrite, fcRatioWrite. (R110, R128, R129, R489) -/
def Obligations.FrameClockWritesWaitForTheBoundary : Prop :=
  let ignored (s t : State) : Prop := t.bell = s.bell ∧ bitOf (t.reg fcEvt) 6 = true
  let waits (a : Nat) (v : W) (s t : State) : Prop := t.fcNext a = v ∧ t.regs = s.regs ∧
    Does .fcSettingsApply t fun u => u.reg a = v ∧ u.bell.pend = []
  (∀ (v : W) (s : State), Does (.fcPrioWrite v) s fun t =>
    if ∀ e : Fin 4, fld v (8 * e.val + 5) 3 ≤ 4 ∧ bitOf v (8 * e.val + 4) = false ∧
      (fld v (8 * e.val + 5) 3 = 3 ∨ fld v (8 * e.val) 4 = 0) then waits fcPrio v s t else ignored s t) ∧
  (∀ (v : W) (s : State), Does (.fcWindowWrite v) s fun t =>
    if 1 ≤ fld v 24 8 ∧ fld v 24 8 ≤ 100 ∧ 1 ≤ fld v 16 8 ∧ fld v 16 8 ≤ 200 ∧ 100 ≤ fld v 0 16 ∧ fld v 0 16 ≤ 20000
    then waits fcWindow v s t else ignored s t) ∧
  (∀ (v : W) (s : State), Does (.fcPhaseWrite v) s fun t =>
    let cc := 800000000 / fld (s.fcNext fcRate) 0 18
    if fld v 0 16 < cc ∧ 2 * fld v 24 8 < cc then waits fcPhase (v &&& 0xFF00FFFF) s t else ignored s t) ∧
  (∀ (v : W) (s : State), Does (.fcRateWrite v) s fun t =>
    let v := v &&& 0x3FFFF
    if s.joined = true then ignored s t else if s.fcNext fcRate = v then t = s
    else if s.anyArmed = true ∨ s.rateOk (fld v 0 18) (fld (s.fcNext fcRatio) 0 2) = false then ignored s t
    else waits fcRate v s t) ∧
  (∀ (v : W) (s : State), Does (.fcRatioWrite v) s fun t =>
    let v := v &&& 3
    if s.joined = true then ignored s t else if s.fcNext fcRatio = v then t = s
    else if s.anyArmed = true ∨ s.rateOk (fld (s.fcNext fcRate) 0 18) (fld v 0 2) = false then ignored s t
    else waits fcRatio v s t) ∧
  (∀ s : State, s.bell.pend = [] → s.frate ≠ 0 → Does .fcSettingsApply s fun t => t = s)

/-- For every state: FRAME_BOUNDARY raises the 48-bit frame count by one, moves the boundary on by the period that ends and opens
one of the measured length kept within the limits of the mode, keeps the mode of the Bellwether and counts the length of a
holdover. At a boundary one frame waiting is released; of two in LOCKED the newer is released and the older counted in SLIP_DROP
with its event bits kept; with none, a LOCKED port that has released counts SLIP_REPEAT; a port out of LOCKED, or one that the
Bellwether tracks, releases the oldest and counts no slip. The run count of a counted slot rises at a boundary that releases no
valid sample of it and is 0 after one that does (for a frame that drains while the port is not LOCKED the model's choice, log
114). Each of these rows answers a next state with its own effect where its conditions hold: frameBoundary. (R108, R122, R95,
R40, R91) -/
def Obligations.FrameBoundariesCountAndRelease : Prop :=
  (∀ (len : BitVec 32) (fails : List (Fin 16 × Fin 32)) (s : State), Does (.frameBoundary len fails) s fun t =>
    t.bell.frame = s.bell.frame + 1 ∧ t.bell.mode = s.bell.mode ∧ t.bell.len256 = s.frameLen len.toNat ∧
    256 * t.bell.bPt + t.bell.bFrac = 256 * s.bell.bPt + s.bell.bFrac + s.bell.len256 ∧
    t.bell.holdFp = s.bell.holdFp + (if s.bell.mode = .holdover then 1 else 0)) ∧
  (∀ (n : Fin 16) (s : State), let p := s.port n.val; let r := takeFrame n.val s
    (p.queue = [] → r.2 = none ∧ (r.1.port n.val).queue = [] ∧
      r.1.reg (slipRepeat n.val) = s.reg (slipRepeat n.val) + (if p.st = .locked ∧ s.held n.val = false ∧ p.relOnce = true then 1 else 0) ∧
      r.1.reg (slipDrop n.val) = s.reg (slipDrop n.val)) ∧
    (∀ a, p.queue = [a] → r.2 = some a ∧ (r.1.port n.val).queue = [] ∧ r.1.regs = s.regs ∧ r.1.wide = s.wide) ∧
    (∀ a b l, p.queue = a :: b :: l → p.st = .locked → s.held n.val = false → r.2 = some b ∧ (r.1.port n.val).queue = l ∧
      (r.1.port n.val).dropEv = p.dropEv ++ a.samples ∧ r.1.reg (slipDrop n.val) = s.reg (slipDrop n.val) + 1 ∧
      r.1.reg (slipRepeat n.val) = s.reg (slipRepeat n.val) ∧ bitOf (r.1.reg fcEvt) 4 = true) ∧
    (∀ a b l, p.queue = a :: b :: l → p.st ≠ .locked ∨ s.held n.val = true → r.2 = some a ∧ (r.1.port n.val).queue = b :: l ∧ r.1.regs = s.regs)) ∧
  (∀ (x : SlotSt) (rel : Bool) (q : Option QSample), (x.release true rel q).run =
    match q with
    | some y => if y.valid = true then 0 else min 0xFFFF (x.run + 1)
    | none => min 0xFFFF (x.run + 1))

/-- For every channel with no ramp in progress and every release of its set-point slot: at a boundary whose valid sample is zero or
opposite in sign to the last valid sample, every change that waits with boundaries left is carried out and waits no longer, and
a change that waits alone leaves the effective gain it leads to; at any other boundary no gain, mute or effective gain changes
and each wait goes on with one boundary less. The last valid sample is replaced by a valid sample and by nothing else. (R140) -/
def Obligations.ZeroCrossingsGateByTheLastValidSample : Prop :=
  ∀ (c : Chan) (v : Option (BitVec 24)) (k : Nat), c.zc.ramp = none →
    let hit := ∃ x, v = some x ∧ (x = 0 ∨ ∃ y, c.zc.lastValid = some y ∧ x.toInt * y.toInt < 0)
    let t := c.zcStep v k
    (¬hit → t.zc.pend = c.zc.pend.map (fun x => { x with left := some (match x.left with | some n => n - 1 | none => k) }) ∧
      t.zc.eff = c.zc.eff ∧ t.zc.muted = c.zc.muted ∧ t.zc.gain = c.zc.gain ∧ t.zc.ramp = none) ∧
    (hit → t.zc.pend.length = (c.zc.pend.filter (fun x => decide (x.left.getD 0 = 0))).length ∧
      ∀ kind g n, c.zc.pend = [{ kind, target := g, left := some (n + 1) }] → t.zc.eff = c.zcTarget kind g ∧ t.zc.pend = []) ∧
    t.zc.lastValid = (if v = none then c.zc.lastValid else v)

/-- For every command row with an entry, and every state. An entry of the row's opcode whose general checks fail completes with the
status and the number of the first that fails, result 0, and changes nothing but its ring's completions. One that passes them
while a window of its scope is open is refused at the own check that it fails, without joining the deferred queue; with none it
joins the queue with the DRAM block it names and changes nothing else. An entry of another opcode is refused with STATE at check
0xF0 (the model's choice, log 22). A command that the core had taken is taken no longer. Before PHASE 6, and in PHASE 7, the
service core carries out none. (R15, R290, R291, R300, R404, R485) -/
def Obligations.GeneralChecksDecideBeforeTheCommand : Prop :=
  (∀ (c : Instr) (e : CmdEntry) (s : State), c.opcode ≠ 0 → c.entry = some e → s.boot.phase ≠ 6 → exec c s = .next s) ∧
  ∀ (c : Instr) (e : CmdEntry) (s : State), c.opcode ≠ 0 → c.entry = some e → s.boot.phase = 6 →
    let u := s.untake e
    (∀ st chk, opcodeOf e = c.opcode → s.blockKept e → u.general e = some (st, chk) →
      Does c s fun t => Posted e st 0 chk u t ∧ ∀ p : Part, p ≠ .rings → p.same u t) ∧
    (∀ st chk, opcodeOf e = c.opcode → s.blockKept e → u.general e = none → u.scopeOpen e = true → deferFail c u = some (st, chk) →
      Does c s fun t => Posted e st 0 chk u t ∧ t.svc.defer = u.svc.defer) ∧
    (opcodeOf e = c.opcode → s.blockKept e → u.general e = none → u.scopeOpen e = true → deferFail c u = none →
      Does c s fun t => t.svc.defer = u.svc.defer ++ [Deferred.command e (u.readBlock e) false] ∧
        ∀ p : Part, p ≠ .svc → p.same u t) ∧
    (opcodeOf e ≠ c.opcode → Does c s fun t => Posted e stState 0 0xF0 u t ∧ ∀ p : Part, p ≠ .rings → p.same u t)

/-- For every accepted entry and every state. CHAN.NEW completes with the status and number of its first failing check and changes
nothing, or creates the channel at the lowest free index: idle, with the request's fields, engines, phase and ring, and its
handle as the result; other channels keep everything, but for the place of a ring that moves where no gap of the pool fits (the
model's choice, log 23). CHAN.DEL is refused while the channel is armed (1) or a gate names it (2); else it is deleting and the
generations of channel, loop and model move on. At its boundary a deleting channel opens its terminals, both sides off, and
output slots that name it go to source 0. Once open it becomes free. Each of these rows answers a next state with its own effect
where its conditions hold: chanNew, chanDel, chanDelOpen, chanDelComplete. (R45, R50, R56, R60, R65, R102, R303) -/
def Obligations.ChannelsAreAdmittedWholeAndDeletedInSteps : Prop :=
  (∀ (e : CmdEntry) (s : State), s.accepts e 0x0101 → let u := s.untake e; let a := admOf e
    Does (.chanNew e) s fun t =>
      match firstFail (u.admChecks a) with
      | some (st, chk) => Posted e st 0 chk u t ∧ ∀ p : Part, p ≠ .rings → p.same u t
      | none => ∃ i x y φ, u.freeIndex 1 = some i ∧ u.placeFor a = some (x, y, φ) ∧ (t.chan i).st = .idle ∧
          (t.chan i).adm = { a with engA := x, engB := y, phase := φ
                                    capAt := ((roomFor a.ringBytes u).ringPlace a.ringBytes).getD capBase } ∧
          (t.chan i).md = u.createSet a.kind ∧ t.gens = u.gens ∧
          (∀ j, j ≠ i → t.chan j = { u.chan j with adm := { (u.chan j).adm with capAt := (t.chan j).adm.capAt } } ∧
            ((u.ringPlace a.ringBytes).isSome = true → t.chan j = u.chan j)) ∧
          Posted e stOk (mkHandle 1 i (u.gen 1 i)) 0 u t) ∧
  (∀ (e : CmdEntry) (s : State), s.accepts e 0x0102 → let u := s.untake e; let ch := hIndex (opN e 0)
    Does (.chanDel e) s fun t =>
      if (u.chan ch).st = .armed then Posted e stState 0 1 u t ∧ ∀ p : Part, p ≠ .rings → p.same u t
      else if ∃ g ∈ tkeys u.gates, (u.gate g).live = true ∧ (u.gate g).lagChan = some ch then
        Posted e stState 0 2 u t ∧ ∀ p : Part, p ≠ .rings → p.same u t
      else (t.chan ch).st = .deleting ∧ (∀ ty ∈ [1, 2, 3], t.gen ty ch = nextGen (u.gen ty ch)) ∧
        (∀ i, t.bind i = if (u.bind i).chan = ch then { u.bind i with ending := false } else u.bind i) ∧
        ∃ p ∈ t.svc.inProg, p.entry = e ∧ p.obj = some (1, ch)) ∧
  (∀ (ch : Fin 512) (s : State), (s.chan ch.val).st = .deleting → (s.chan ch.val).opened = false →
    ∀ now, Does (.chanDelOpen ch now) s fun t => (t.chan ch.val).opened = true ∧ (t.chan ch.val).st = .deleting ∧
      (∀ q ∈ (s.chan ch.val).terms, (t.term q).hi = false ∧ (t.term q).lo = false ∧ (t.term q).drive = .off) ∧
      ∀ (n : Fin 4) (i : Fin 32), fld (s.reg (soSlot n.val i.val)) 28 4 = 1 → fld (s.reg (soSlot n.val i.val)) 16 12 = ch.val →
        fld (t.reg (soSlot n.val i.val)) 28 4 = 0) ∧
  (∀ (ch : Fin 512) (s : State), Does (.chanDelComplete ch) s fun t =>
    if (s.chan ch.val).st = .deleting ∧ (s.chan ch.val).opened = true then
      t.chan ch.val = Chan.free ∧ (∀ off, off < 0x4000 → t.wsByte ch.val off = 0) ∧
        ∀ i, (s.bind i).live = true → (s.bind i).chan = ch.val → t.bind i = Binding.none
    else t = s)

/-- For every accepted entry. BIND is refused with the status and number of the first of its seven checks that fails, changing
nothing else, or writes the binding with its handle at the lowest free index. UNBIND of a binding to a channel that is not armed
marks it to end at B(j) and moves its generation on. STAGE opens an empty group, unless the channel is being deleted. STAGE.SET
writes one field of an open group; a field or a value outside its range is refused with NO_RESOURCE at 0xF7, where no earlier
general check refuses it. COMMIT hands a group that passes to its boundary, and ABORT discards it; each is refused with STATE at
check 1 with no group. A write to an ST field stages it in the open group of a channel's first terminal, any other is ignored
with the event of its block, and at its boundary the group becomes the settings. Each of these rows answers a next state with
its own effect where its conditions hold: bind, unbind, stage, stageSet, commit, abort, stFieldWrite, commitApply. (R130, R131,
R132, R13, R178, R179, R305) -/
def Obligations.BindingsAndStagedFieldsTakeTheirTurn : Prop :=
  (∀ (e : CmdEntry) (s : State), s.accepts e 0x0201 → let u := s.untake e; let ch := hIndex (opN e 0); let o := opN e 1
    let kind := u.kindOf (fld o 8 4) (fld o 0 5); let hnd := u.handleCheck 1 (opN e 0)
    Does (.bind e) s fun t => match firstFail [(hnd.isNone, hnd.getD 0, 1),
        (decide ((u.chan ch).armed = false), stState, 2),
        (decide (fld o 12 2 ≤ 2 ∧ fld o 16 8 ≤ 9 ∧ (u.spWide (fld o 8 4) = true ∨ fld o 0 5 ≤ 1)), stNoRes, 3),
        (decide (u.spWide (fld o 8 4) = true → kind = 1 ∨ kind = 2), stState, 4),
        (decide (u.bindOf ch (fld o 12 2) = none ∧ (fld o 12 2 = 2 → u.injOf ch = none)), stNoRes, 5),
        (decide ((u.takenAtSlot (fld o 8 4) (fld o 0 5)).length < 4), stNoRes, 6),
        ((u.freeIndex 4).isSome, stNoRes, 7)] with
      | some (st, chk) => Posted e st 0 chk u t ∧ ∀ p : Part, p ≠ .rings → p.same u t
      | none => ∃ i, u.freeIndex 4 = some i ∧
          t.bind i = { live := true, port := fld o 8 4, slot := fld o 0 5, chan := ch, input := fld o 12 2, units := fld o 16 8
                       exp := fld o 24 8, ending := false } ∧ (∀ j, j ≠ i → t.bind j = u.bind j) ∧
          Posted e stOk (mkHandle 4 i (u.gen 4 i)) 0 u t) ∧
  (∀ (e : CmdEntry) (s : State), s.accepts e 0x0202 → let u := s.untake e; let i := hIndex (opN e 0)
    Does (.unbind e) s fun t =>
      if (u.chan (u.bind i).chan).armed = true then Posted e stState 0 1 u t ∧ t.binds = u.binds
      else t.bind i = { u.bind i with ending := true } ∧ t.gen 4 i = nextGen (u.gen 4 i) ∧ InProgress e u t) ∧
  (∀ (e : CmdEntry) (s : State), s.accepts e 0x0501 → let u := s.untake e; let ch := hIndex (opN e 0)
    Does (.stage e) s fun t => if (u.chan ch).st = .deleting then Posted e stState 0 1 u t ∧ t.chans = u.chans
      else (t.chan ch).grp = some Group.none ∧ Posted e stOk 0 0 u t) ∧
  (∀ (e : CmdEntry) (s : State), s.accepts e 0x0502 → let u := s.untake e; let ch := hIndex (opN e 0)
    let v := (opN e 2).toNat
    Does (.stageSet e) s fun t => match (u.chan ch).grp with
      | none => Posted e stState 0 1 u t ∧ t.chans = u.chans
      | some g => Posted e stOk 0 0 u t ∧
          ((fld (opN e 1) 0 8 = 1 ∧ v ≤ 1 ∧ (t.chan ch).grp = some { g with safe := some (v == 1) }) ∨
            (fld (opN e 1) 0 8 = 2 ∧ v ≤ 1 ∧ (t.chan ch).grp = some { g with audible := some (v == 1) }) ∨
            (fld (opN e 1) 0 8 = 3 ∧ 1 ≤ v ∧ v ≤ 255 ∧ (t.chan ch).grp = some { g with zcTimeout := some v }))) ∧
  (∀ (e : CmdEntry) (s : State), s.boot.phase = 6 → opcodeOf e = 0x0502 → let u := s.untake e; let v := (opN e 2).toNat
    let field := fld (opN e 1) 0 8
    ¬((field = 1 ∨ field = 2) ∧ v ≤ 1 ∨ field = 3 ∧ 1 ≤ v ∧ v ≤ 255) →
    ∃ st chk, u.general e = some (st, chk) ∧ (chk ≤ 0xF6 ∨ (st = stNoRes ∧ chk = 0xF7)) ∧
      Does (.stageSet e) s fun t => Posted e st 0 chk u t ∧ t.chans = u.chans) ∧
  (∀ (e : CmdEntry) (s : State), s.accepts e 0x0503 → let u := s.untake e; let ch := hIndex (opN e 0)
    Does (.commit e) s fun t => match (u.chan ch).grp with
      | none => Posted e stState 0 1 u t ∧ t.chans = u.chans
      | some g =>
        let m := (u.chan ch).md.with g
        if g.modulates = true ∧ u.modOk (u.chan ch) m (g.audible.getD (u.chan ch).audible) = false then
          Posted e stState 0 2 u t ∧ t.chans = u.chans
        else if 13 < m.slew ∨ (m.slew ≠ 0 ∧ m.dt < 64) then Posted e stState 0 3 u t ∧ t.chans = u.chans
        else (t.chan ch).grp = none ∧ (t.chan ch).commit = some g ∧ (t.chan ch).md = (u.chan ch).md ∧ InProgress e u t) ∧
  (∀ (e : CmdEntry) (s : State), s.accepts e 0x0504 → let u := s.untake e; let ch := hIndex (opN e 0)
    Does (.abort e) s fun t => if (u.chan ch).grp = none then Posted e stState 0 1 u t ∧ t.chans = u.chans
      else (t.chan ch).grp = none ∧ (t.chan ch).md = (u.chan ch).md ∧ Posted e stOk 0 0 u t) ∧
  (∀ (t0 : Fin 512) (reg : Fin 3) (v : W) (s : State) (ch : Nat) (g : Group), s.ownerOf t0.val = some ch → (s.chan ch).grp = some g →
    (s.chan ch).adm.first = t0.val → Does (.stFieldWrite t0 reg v) s fun t => t.regs = s.regs ∧ (t.chan ch).md = (s.chan ch).md ∧
      (t.chan ch).grp = some (match reg with
        | 0 => { g with mode := some (fld v 0 3), kLog2 := some (fld v 8 2), spread := some (fld v 12 4) }
        | 1 => { g with dt := some (fld v 16 10), minp := some (fld v 0 9) }
        | _ => { g with slew := some (fld v 0 4) })) ∧
  (∀ (t0 : Fin 512) (reg : Fin 3) (v : W) (s : State),
    (∀ ch, s.ownerOf t0.val = some ch → (s.chan ch).grp = none ∨ (s.chan ch).adm.first ≠ t0.val) →
    Does (.stFieldWrite t0 reg v) s fun t => t.chans = s.chans ∧
      (reg.val ≠ 2 → bitOf (t.reg (modEvt (flockOf t0.val))) 1 = true) ∧ (reg.val = 2 → bitOf (t.reg (foldEvt (foldOf t0.val))) 13 = true)) ∧
  (∀ (ch : Fin 512) (smp : Option FloatIn) (s : State) (g : Group), (s.chan ch.val).commit = some g → Does (.commitApply ch smp) s fun t =>
    (t.chan ch.val).commit = none ∧ (t.chan ch.val).md = (s.chan ch.val).md.with g ∧
      (t.chan ch.val).safe = g.safe.getD (s.chan ch.val).safe ∧ (t.chan ch.val).audible = g.audible.getD (s.chan ch.val).audible)

/-- For every accepted entry and every state. ARM of a channel that is not idle, or with debug unlocked, is refused with STATE at
check 1; with image, valid model, motor where it needs one and an engine in service, it places the lease token and waits for its
boundary, or arms an audible channel at gain 0; with a stop of the channel on its way it is armed neither way (R55). DISARM of a
channel that is not armed is refused; it waits for its boundary, and on an audible channel asks for a gated stop. At the
boundary the channel is armed with FIRST set, or idle with its counts back to 0 and no command queued. CLEAR is refused unless
the channel is stopped (1) and no cause is present (2); then its fold is no longer stopped, and from its next carrier boundary
it is idle with no cause. Each of these rows answers a next state with its own effect where its conditions hold: arm,
armTakeEffect, disarm, disarmTakeEffect, clear. (R53, R54, R55, R306, R307, R408, R440) -/
def Obligations.ArmingAndDisarmingTakeTheirBoundary : Prop :=
  (∀ (e : CmdEntry) (now : Nat) (s : State), s.accepts e 0x0601 → let u := s.untake e; let ch := hIndex (opN e 0); let c := u.chan ch
    (c.st ≠ .idle ∨ u.sec.unlocked = true → Does (.arm e now) s fun t => Posted e stState 0 1 u t ∧ t.chans = u.chans) ∧
    (c.st = .idle → u.sec.unlocked = false → c.loop.img.isSome = true → c.mdl.valid = true → c.mdl.rebuild = false →
      (c.adm.kind = 3 → (u.motorOf ch).isSome = true) → u.sideInSvc ch false = true ∨ u.sideInSvc ch true = true →
      Does (.arm e now) s fun t =>
        (t.chan ch).lease.holder = some (if u.sideInSvc ch c.lease.wants = true then c.lease.wants else !c.lease.wants) ∧
        if c.audible = true ∧ u.stopDue ch = true then (t.chan ch).st = .idle ∧ (t.chan ch).armPend = c.armPend ∧ Posted e stState 0 0 u t
        else if c.audible = true then (t.chan ch).st = .armed ∧ (t.chan ch).starting = true ∧ (t.chan ch).zc.eff = 0 ∧
          Posted e stOk 0 0 u t
        else (t.chan ch).st = .idle ∧ (t.chan ch).armPend = true ∧ InProgress e u t)) ∧
  (∀ (ch : Fin 512) (now : Nat) (s : State), Does (.armTakeEffect ch now) s fun t =>
    if (s.chan ch.val).armPend = true ∧ s.stopDue ch.val = true then
      (t.chan ch.val).st = (s.chan ch.val).st ∧ (t.chan ch.val).armPend = false ∧ t.regs = s.regs ∧ t.terms = s.terms
    else if (s.chan ch.val).armPend = true ∧ (s.chan ch.val).st = .idle then
      (t.chan ch.val).st = .armed ∧ (t.chan ch.val).armPend = false ∧ (t.chan ch.val).loop.first = true
    else t = s) ∧
  (∀ (e : CmdEntry) (s : State), s.accepts e 0x0602 → let u := s.untake e; let ch := hIndex (opN e 0); let c := u.chan ch
    Does (.disarm e) s fun t =>
      if c.st ≠ .armed then Posted e stState 0 1 u t ∧ t.chans = u.chans
      else if c.audible = false then (t.chan ch).disarmPend = true ∧ (t.chan ch).st = .armed ∧ InProgress e u t
      else (t.chan ch).stopping = true ∧ (t.chan ch).st = .armed ∧ Posted e stOk 0 0 u t) ∧
  (∀ (ch : Fin 512) (s : State), Does (.disarmTakeEffect ch) s fun t =>
    if (s.chan ch.val).st = .armed ∧ (s.chan ch.val).disarmPend = true then
      (t.chan ch.val).st = .idle ∧ (t.chan ch.val).disarmPend = false ∧ (t.chan ch.val).cmdQ = none ∧
        (t.chan ch.val).loop.feCount = 0 ∧ (t.chan ch.val).lease.holder = (s.chan ch.val).lease.holder
    else t = s) ∧
  (∀ (e : CmdEntry) (s : State), s.accepts e 0x0603 → let u := s.untake e; let ch := hIndex (opN e 0); let c := u.chan ch
    Does (.clear e) s fun t =>
      if c.st ≠ .stopped then Posted e stState 0 1 u t ∧ t.chans = u.chans
      else if u.clearBlocked ch = true then Posted e stState 0 2 u t ∧ t.chans = u.chans
      else t.chan ch = { c with clearPend := true } ∧ ((clearDone ch t).chan ch).st = .idle ∧ ((clearDone ch t).chan ch).causes = [] ∧
        (t.fold c.foldIx).stopped = false ∧ Posted e stOk 0 0 u t)

/-- For every accepted entry and state: MUTE, UNMUTE and GAIN are refused with STATE (1) on a channel that is not audible and with
BUSY (2) while it stops, and otherwise ask for their change on that channel alone. A wait whose boundaries have run out starts a
ramp from the effective gain, counted and shown in its event bit, and every other change becomes pending afresh; any other state
is left alone. A ramp moves in steps of a 64th, rounded down, and its last step lands on the target. A gated stop whose last
latch has passed leaves the armed channel idle. Each of these rows answers a next state with its own effect where its conditions
hold: mute, unmute, gain, zcTimeout, gatedStopIdle. (R139, R141, R142, R306) -/
def Obligations.GatedChangesStartWaitRampAndLand : Prop :=
  (∀ (e : CmdEntry) (s : State) (op : Nat) (row : Instr) (k : ZcKind),
    (op, row, k) ∈ [(0x0604, Instr.mute e, ZcKind.mute), (0x0605, .unmute e, .unmute), (0x0606, .gain e, .gain)] → s.accepts e op →
    let u := s.untake e; let ch := hIndex (opN e 0); let c := u.chan ch
    Does row s fun t =>
      if c.audible = false then Posted e stState 0 1 u t ∧ t.chans = u.chans
      else if c.stopping = true then Posted e stBusy 0 2 u t ∧ t.chans = u.chans
      else Posted e stOk 0 0 u t ∧ t.chan ch = askZc k (fld (opN e 1) 0 16) c ∧ ∀ j, j ≠ ch → t.chan j = u.chan j) ∧
  (∀ (ch : Fin 512) (s : State), Does (.zcTimeout ch) s fun t =>
    match (s.chan ch.val).zc.pend.find? (fun x => x.left == some 0) with
    | some x => (t.chan ch.val).zc.ramp = some { kind := x.kind, target := x.target, from_ := (s.chan ch.val).zc.eff, step := 0 } ∧
        (t.chan ch.val).zc.pend = ((s.chan ch.val).zc.pend.erase x).map (fun y => { y with left := none }) ∧
        (t.chan ch.val).zc.timeouts = min 0xFFFF ((s.chan ch.val).zc.timeouts + 1) ∧
        bitOf (t.reg (intEvt (s.chan ch.val).flock)) 7 = true
    | none => t = s) ∧
  (∀ (c : Chan) (v : Option (BitVec 24)) (n : Nat) (r : ZcRamp), c.zc.ramp = some r →
    let t := c.zcStep v n
    if r.step = 63 then t.zc.eff = c.zcTarget r.kind r.target ∧ t.zc.ramp = none ∧ t.zc.pend = c.zc.pend
    else t.zc.ramp = some { r with step := r.step + 1 } ∧ (t.zc.eff : Int) = if c.starting = true then 0
      else max 0 (r.from_ + floorDiv (((c.zcTarget r.kind r.target : Int) - r.from_) * (r.step + 1)) 64)) ∧
  (∀ (ch : Fin 512) (s : State), Does (.gatedStopIdle ch) s fun t =>
    if (s.chan ch.val).zc.stopping = true ∧ (s.chan ch.val).st = .armed then
      (t.chan ch.val).st = .idle ∧ (t.chan ch.val).zc.stopping = false ∧ (t.chan ch.val).cmdQ = none
    else t = s)

/-- For every accepted entry and every state. GATE.NEW of a free gate whose channels, block, slot and handles pass its checks
creates it low with the fields of its block. GATE.DEL is refused while its window is open, and else leaves no gate, its counts 0
and its generation moved on. A gate command counts and, unless the gate is forced low or the module is in C4, queues an edge 640
pt and the lag and delay after B(j). A due edge gives the contact its level, low in C4, no sooner than 4 pt before its time. A
command slot whose run of missing samples reaches GATE_RUN forces the gate low. A layer that lasts too long is closed with its
event. From station-ready on, and in a late module, a module's message sets its layer state. Each of these rows answers a next
state with its own effect where its conditions hold: gateNew, gateDel, gateEdge, gateLost, layerTimeout, layerStateMessage.
(R397, R398, R399, R401, R402, R403, R406, R441) -/
def Obligations.BeamGatesPlaceEdgesAndHoldLow : Prop :=
  (∀ (e : CmdEntry) (s : State), s.accepts e 0x0C31 → let u := s.untake e; let g := fld (opN e 0) 0 6; let b := (opN e 2).toNat
    let lag := if opN e 1 = 0 then none else some (hIndex (opN e 1))
    (u.gate g).live = false → (∀ c, lag = some c → (u.chan c).adm.kind = 2 ∧ (u.chan c).adm.divLog2 = 0) →
    blockPlaced (opN e 2) (opN e 3) = true → u.gateBlockOk b = true → (∀ h ∈ u.gateBound b, u.handleCheck 1 h = none) →
    u.spWide (u.blk b 4 1) = true → u.kindOf (u.blk b 4 1) (u.blk b 5 1) = 2 →
    (∀ h ∈ tkeys u.gates, (u.gate h).live = true → ¬((u.gate h).port = u.blk b 4 1 ∧ (u.gate h).slot = u.blk b 5 1)) →
    Does (.gateNew e) s fun t => Posted e stOk (mkHandle 8 g (u.gen 8 g)) 0 u t ∧ (t.gate g).live = true ∧ (t.gate g).level = false ∧
      (t.gate g).lagChan = lag ∧ (t.gate g).port = u.blk b 4 1 ∧ (t.gate g).slot = u.blk b 5 1 ∧ (t.gate g).gateRun = u.blk b 6 2 ∧
      (t.gate g).delayOn = u.blkI b 8 4 ∧ (t.gate g).delayOff = u.blkI b 12 4 ∧ (t.gate g).td = u.blk b 16 4 ∧
      (t.gate g).layerMax = u.blk b 20 4 ∧ (t.gate g).bound = (u.gateBound b).map hIndex ∧ ∀ h, h ≠ g → t.gate h = u.gate h) ∧
  (∀ (e : CmdEntry) (s : State), s.accepts e 0x0C32 → let u := s.untake e; let g := hIndex (opN e 0)
    Does (.gateDel e) s fun t =>
      if (u.gate g).open_ = true then Posted e stState 0 1 u t ∧ t.gates = u.gates
      else t.gate g = Gate.none ∧ t.gen 8 g = nextGen (u.gen 8 g) ∧ (∀ i < 3, t.reg (gateCnt g i) = 0) ∧ Posted e stOk 0 0 u t) ∧
  (∀ (g : Nat) (on : Bool) (s : State), let t := gateCommand g on s
    t.reg (gateCnt g (if on then 0 else 1)) = s.reg (gateCnt g (if on then 0 else 1)) + 1 ∧
    if (s.gate g).forced ≠ 0 ∨ s.col.c4 = true then t.gate g = s.gate g
    else (t.gate g).pend.getLast? = some { level := on, at_ := s.bell.bPt + 640 +
      (max 0 ((s.lagOf g : Int) + (if on then (s.gate g).delayOn else (s.gate g).delayOff))).toNat }) ∧
  (∀ (g : Fin 64) (now : Nat) (s : State), Does (.gateEdge g now) s fun t => t.regs = s.regs ∧
    match (s.gate g.val).pend with
    | e :: r => if e.at_ ≤ now + 4 then (t.gate g.val).level = (e.level && !s.col.c4) ∧ (t.gate g.val).pend = r else t.gate g.val = s.gate g.val
    | [] => t.gate g.val = s.gate g.val) ∧
  (∀ (g : Fin 64) (s : State), Does (.gateLost g) s fun t =>
    let x := s.gate g.val
    if x.live = true ∧ x.gateRun ≤ (tget SlotSt.none (s.port x.port).slots x.slot).run ∧ fieldN x.forced 3 1 = 0 then
      (t.gate g.val).level = false ∧ (t.gate g.val).pend = [] ∧ fieldN (t.gate g.val).forced 3 1 = 1 ∧
        bitOf (t.reg (gateEvt g.val)) 2 = true
    else t = s) ∧
  (∀ (g : Fin 64) (now : Nat) (s : State), Does (.layerTimeout g now) s fun t =>
    if (s.gate g.val).open_ = true ∧ (s.gate g.val).openAt + 1600000000 * (s.gate g.val).layerMax ≤ now then (t.gate g.val).open_ = false ∧ bitOf (t.reg (gateEvt g.val)) 4 = true else t = s) ∧
  (∀ (id : BitVec 64) (place : Int) (o : Bool) (s : State), Does (.layerStateMessage id place o) s fun t =>
    if s.stn.dstate ≠ 5 ∧ s.stn.late = false then t = s
    else t.gates = s.gates ∧ ∀ m, (m ∈ t.stn.openMods ↔ if m.1 = id then o = true ∧ m.2 = place else m ∈ s.stn.openMods))

/-- For every state. ERROR_REPORT of a watched, unbroken source takes its first report by cause and object and latches it with its
stamp: C0 and C1 do no more; C2 on an idle or armed channel that no layer holds queues its stop for the carrier boundary; C3
stops its fold; C4 stops every channel of the module; only a stop of these two adds reports of what it does. An unwatched source
loses its reports and a broken one keeps them; the poll takes those of every broken source. A module's first C4 message is kept
and reported in C3 or C1 by STN_REACT. Each of these rows answers a next state with its own effect where its conditions hold:
errorReport, brokenSourcePoll, stationC4Received. (R433, R435, R436, R437, R438, R439, R441, R442) -/
def Obligations.ReportsAreLatchedStampedAndDispatched : Prop :=
  (∀ (src : BitVec 8) (now : Nat) (s : State), src.toNat ∈ s.col.unwatched → Does (.errorReport src now) s fun t =>
    t.col.srcQ = s.col.srcQ.filter (fun r => r.source != src.toNat) ∧ t.col.intake = s.col.intake ∧ t.chans = s.chans) ∧
  (∀ (src : BitVec 8) (now : Nat) (s : State), src.toNat ∉ s.col.unwatched → src.toNat ∈ s.col.broken →
    exec (.errorReport src now) s = .next s) ∧
  (∀ (src : BitVec 8) (now : Nat) (s : State) (r : Report), src.toNat ∉ s.col.unwatched → src.toNat ∉ s.col.broken →
    leastReport s.col.srcQ (fun x => x.source == src.toNat) = some r → Does (.errorReport src now) s fun t =>
      (∃ l, t.col.srcQ = s.col.srcQ.erase r ++ l ∧ (r.cls ≤ 2 → l = [])) ∧ t.col.intake = s.col.intake ++ [s.stamp r false] ∧
      (r.cls ≤ 1 → t.chans = s.chans ∧ t.folds = s.folds ∧ t.terms = s.terms ∧ t.col.reacts = s.col.reacts) ∧
      (r.cls = 2 → r.okind = 1 → (s.chan r.object).st = .idle ∨ (s.chan r.object).st = .armed →
        (s.layerOf r.object = false ∨ heldCause r = false) →
        t.col.reacts = s.col.reacts ++ [{ chan := r.object, rep := r }] ∧ t.chans = s.chans) ∧
      (r.cls = 3 → ∀ k < 8, r.source = srcFold k → (t.fold k).stopped = true) ∧
      (4 ≤ r.cls → t.col.c4 = true ∧ ∀ ch, (t.chan ch).st ≠ .armed)) ∧
  (∀ (now : Nat) (s : State), (∀ r ∈ s.col.srcQ, r.source ∈ s.col.broken → r.cls ≤ 1) → Does (.brokenSourcePoll now) s fun t =>
    t.col.srcQ = s.col.srcQ.filter (fun r => !s.col.broken.contains r.source) ∧
    t.col.intake.map (fun x => { x with ended := false }) = s.col.intake.map (fun x => { x with ended := false }) ++
      (s.col.srcQ.filter (fun r => s.col.broken.contains r.source)).map (fun r => { s.stamp r false with ended := false }) ∧
    t.chans = s.chans) ∧
  (∀ (id : BitVec 64) (place : Int) (s : State), Does (.stationC4Received id place) s fun t =>
    t.stn.c4Mods = s.stn.c4Mods.filter (fun m => m.1 != id) ++ [(id, place)] ∧ t.stn.stnFault = true ∧
      t.col.srcQ = s.col.srcQ ++ (if ∃ m ∈ s.stn.c4Mods, m.1 = id then []
        else [mkRep srcStn 15 4 (if bitOf (s.reg fltCtrl) 0 then 3 else 1) 0 0]))

/-- For every state. The report served next leaves the intake. Where an unread, unfrozen record equals it, that record's MERGED
rises; with 1,024 unread records the overflow is set and counted; else it becomes the record at FLT_WR, CLEARED where its
condition has ended already, its class shown in FLT_EVT. FLT_RD moves on where the write lies in the unread records, and sets
its ignored bit otherwise. A read of word 3 answers it and freezes an unread record. The end of a condition marks its unread,
unfrozen records CLEARED and no frozen one, and the reports of it that wait for their record. Each of these rows answers a next
state with its own effect where its conditions hold: recordWrite, fltRdWrite, recordFreezeRead, causeConditionEnd. (R443, R444,
R445, R446, R447) -/
def Obligations.RecordsAreWrittenMergedFrozenAndReleased : Prop :=
  (∀ (s : State) (k : Nat) (x : Stamped), s.nextIntake = some (k, x) → x.rep.cls ≤ 4 → Does .recordWrite s fun t =>
    let c := x.rep.cls
    t.col.intake = s.col.intake.erase x ∧ t.reg (clsCnt c 0) = s.reg (clsCnt c 0) + 1 ∧
    match s.unread.find? (fun n => (s.recOf n).st.rep == x.rep && !(s.recOf n).frozen) with
    | some n => t.reg fltWr = s.reg fltWr ∧ t.reg (clsCnt c 2) = s.reg (clsCnt c 2) + 1 ∧ (t.recOf n).st = (s.recOf n).st ∧
        (t.recOf n).merged = min 0xFFFF ((s.recOf n).merged + 1) ∧ (t.recOf n).cleared = ((s.recOf n).cleared || x.ended)
    | none =>
      if 1024 ≤ s.fill then t.reg fltWr = s.reg fltWr ∧ t.col.recs = s.col.recs ∧ bitOf (t.reg fltEvt) 5 = true ∧
        t.reg (clsCnt c 2) = s.reg (clsCnt c 2) + 1 ∧ t.reg (clsCnt c 3) = s.reg (clsCnt c 3) + 1
      else t.reg fltWr = s.reg fltWr + 1 ∧ t.reg (clsCnt c 1) = s.reg (clsCnt c 1) + 1 ∧ bitOf (t.reg fltEvt) c = true ∧
        t.recOf (s.reg fltWr).toNat = { st := x, merged := 0, cleared := x.ended, frozen := false }) ∧
  (∀ (v : W) (s : State), Does (.fltRdWrite v) s fun t => t.col = s.col ∧
    if (v - s.reg fltRd).toNat ≤ s.fill then t.reg fltRd = v
    else t.reg fltRd = s.reg fltRd ∧ bitOf (t.reg fltEvt) 6 = true) ∧
  (∀ (i : Fin 1024) (s : State), Does (.recordFreezeRead i) s fun t =>
    t.host.readResp = some (leBytes 4 ((s.recOf i.val).word 3).toNat) ∧ t.regs = s.regs ∧
    t.recOf i.val = if i.val ∈ s.unread.map (· % 1024) then { s.recOf i.val with frozen := true } else s.recOf i.val) ∧
  (∀ (src cause : BitVec 8) (okind : BitVec 2) (obj : BitVec 11) (s : State), Does (.causeConditionEnd src cause okind obj) s fun t =>
    let hit (r : Report) : Prop := r.source = src.toNat ∧ r.cause = cause.toNat ∧ r.okind = okind.toNat ∧ r.object = obj.toNat
    t.regs = s.regs ∧ (∀ r, r ∈ t.col.live ↔ r ∈ s.col.live ∧ ¬hit r) ∧ (∀ r ∈ s.col.live, hit r → r ∈ t.col.ended) ∧
    (∀ x ∈ t.col.intake, hit x.rep → x.ended = true) ∧ t.col.intake.map (·.rep) = s.col.intake.map (·.rep) ∧
    ∀ n ∈ s.unread, t.recOf n = if hit (s.recOf n).st.rep ∧ (s.recOf n).frozen = false then { s.recOf n with cleared := true } else s.recOf n)

/-- For every state. FAULT_REACTION_APPLY stops an idle or armed channel with a dispatched stop, with its cause, forces cleared and
no stop left. Held faults act once no window holds the channel, and wait until then. A debug halt halts the engine and stops its
channels at once. A broken wire of an ignored source does nothing; any other is marked broken; a port loses its line, a fold is
stopped, the Bellwether or the clock reports C4. A stopped fold with no channel whose causes are gone leaves its stop. Each of
these rows answers a next state with its own effect where its conditions hold: faultReactionApply, heldFaultTakeEffect,
debugHalt, brokenWire, foldStopEnd. (R53, R176, R211, R405, R435, R439, R440, R441) -/
def Obligations.StopsActAtTheirBoundaryOrAtOnce : Prop :=
  (∀ (ch : Fin 512) (s : State) (r : Report), { chan := ch.val, rep := r } ∈ s.col.reacts →
    (s.chan ch.val).st = .idle ∨ (s.chan ch.val).st = .armed → Does (.faultReactionApply ch) s fun t =>
      (t.chan ch.val).st = .stopped ∧ r ∈ (t.chan ch.val).causes ∧ (∀ x ∈ t.col.reacts, x.chan ≠ ch.val) ∧
        (∀ q ∈ (s.chan ch.val).terms, (t.term q).forceEff = 0 ∧ (t.term q).forceQ = none)) ∧
  (∀ (ch : Fin 512) (s : State), Does (.heldFaultTakeEffect ch) s fun t =>
    if (s.chan ch.val).held = [] ∨ s.layerOf ch.val = true then t = s
    else (t.chan ch.val).held = [] ∧ ((s.chan ch.val).st = .idle ∨ (s.chan ch.val).st = .armed → (t.chan ch.val).st = .stopped)) ∧
  (∀ (e : Fin 160) (now : Nat) (s : State), Does (.debugHalt e now) s fun t =>
    (t.hlt e.val).st = 3 ∧ (t.run e.val).live = false ∧
    ∀ ch ∈ s.liveChans, (if e.val < 128 then (s.chan ch).flock = e.val / 4 ∧ ((s.chan ch).engOf false = e.val ∨ (s.chan ch).engOf true = e.val)
        else (s.chan ch).flock = e.val - 128) → (t.chan ch).st ≠ .armed) ∧
  (∀ (src : BitVec 8) (un : List (Fin 512 × Fin 3)) (now : Nat) (s : State), Does (.brokenWire src un now) s fun t =>
    if src.toNat ∈ s.col.broken ∨ src.toNat ∈ s.col.unwatched ∨ 0xF5 ≤ src.toNat then t = s
    else src.toNat ∈ t.col.broken ∧
      (∀ n < 16, src.toNat = srcPort n → (t.port n).sclkOk = false ∧
        s.stamp (mkRep (srcPort n) 15 0 1 0 0) false ∈ t.col.intake) ∧
      (∀ k < 8, src.toNat = srcFold k → (t.fold k).stopped = true) ∧
      (src.toNat = srcBell ∨ src.toNat = srcClock → t.col.c4 = true ∧ ∀ ch, (t.chan ch).st ≠ .armed)) ∧
  (∀ (k : Fin 8) (s : State), Does (.foldStopEnd k) s fun t =>
    if (s.fold k.val).stopped = true ∧ s.chansOfFold k.val = [] ∧ s.foldCausesGone k.val = true then
      (t.fold k.val).stopped = false ∧ (t.fold k.val).causes = [] ∧ t.chans = s.chans
    else t = s)

/-- For every state. A terminal current sample outside a blanking window enters its filter; when the filter becomes active the
overcurrent counts on its terminal and stops the channel that owns it. Samples act in their order. When the filter of a
fold-wide source becomes active, or the fold timebase is lost, the fold is stopped and none of its channels stays armed; any
other sample stops nothing. The timebase returns at a B(j). A bus rise marks the precharge, a bus below 20 V takes the mark
away, and with the auxiliary supply off a sample does nothing more. A stage above 110 °C is shown and warned of only. FOLD_CFG
is written where no channel of the fold is armed and its limits are in order. Coolant that reaches 50 °C reports a C3 stop of
every fold and stops its channels at once. A renewal waits for a takeover of the fold; else it shows the bus, renews the I²t
measure of every terminal, and reports the stop of a channel above 125 % of its reservation, and of the fold where its
dissipation or bus current is over. Each of these rows answers a next state with its own effect where its conditions hold:
terminalOvercurrent, foldTrip, ftbLoss, ftbReturn, busRise, stageOvertempWarn, foldCfgWrite, coolantDerate, foldBudgetRenewal.
(R204, R212, R214, R215, R217, R440, R548, R549) -/
def Obligations.FoldTripsStopEveryChannelOfTheFold : Prop :=
  let stops (r : Report) (s t : State) : Prop := t.causeLive r = true ∧ (s.causeLive r = false → r ∈ t.col.srcQ)
  (∀ (q : Fin 512) (ma at_ : Nat) (s : State), Does (.terminalOvercurrent q [ma] at_) s fun t =>
    match s.ownerOf q.val with
    | none => t = s
    | some ch => let x := s.term q.val; let k := foldOf q.val
      let h := filtNext x.ocHist (s.regField (foldCfg k) 20 4 + 1) (decide (s.regField (psReg q.val 0x1C) 0 16 < ma))
      if x.seenAt ≠ 0 ∧ x.seenAt ≤ at_ ∧ at_ < x.seenAt + 64 then t = s
      else if filtActive h (s.regField (foldCfg k) 16 4 + 1) = true ∧ x.ocAct = false then
        (t.chan ch).st ≠ .armed ∧ t.reg (psReg q.val 0x2C) = s.reg (psReg q.val 0x2C) + 1 ∧ bitOf (t.reg (foldEvt k)) 7 = true
      else t.chans = s.chans ∧ t.regs = s.regs ∧ (t.term q.val).ocHist = h) ∧
  (∀ (q : Fin 512) (l : List Nat) (x at_ : Nat) (s : State), Does (.terminalOvercurrent q (l ++ [x]) at_) s fun t =>
    Does (.terminalOvercurrent q l at_) s fun u => exec (.terminalOvercurrent q [x] (at_ + 4 * l.length)) u = .next t) ∧
  (∀ (k : Fin 8) (src : Fin 5) (l : List Int) (at_ : Nat) (s : State), Does (.foldTrip k src l at_) s fun t =>
    (src.val = 1 → (∃ v ∈ l, v < 2000) → (t.fold k.val).precharge = false) ∧
    (s.boot.down = true → t.chans = s.chans ∧ t.regs = s.regs ∧ (t.fold k.val).stopped = (s.fold k.val).stopped)) ∧
  (∀ (k : Fin 8) (src : Fin 5) (v : Int) (at_ : Nat) (s : State), s.boot.down = false → Does (.foldTrip k src [v] at_) s fun t =>
    let f := foldSource src.val v
    let h := filtNext (tget [] (s.fold k.val).filt src.val) f.2.2 f.1
    tget [] (t.fold k.val).filt src.val = h ∧
    if filtActive h f.2.1 = true ∧ fieldN (s.fold k.val).act src.val 1 = 0 then
      (t.fold k.val).stopped = true ∧ bitOf (t.reg (foldEvt k.val)) 8 = true ∧ ∀ ch ∈ s.chansOfFold k.val, (t.chan ch).st ≠ .armed
    else t.chans = s.chans ∧ t.regs = s.regs ∧ (t.fold k.val).stopped = (s.fold k.val).stopped) ∧
  (∀ (k : Fin 8) (now : Nat) (s : State), Does (.ftbLoss k now) s fun t =>
    if (s.fold k.val).ftbLost = true then t = s
    else (t.fold k.val).ftbLost = true ∧ (t.fold k.val).stopped = true ∧ t.reg (cntFallback k.val) = s.reg (cntFallback k.val) + 1 ∧
      (∀ ch ∈ s.chansOfFold k.val, (t.chan ch).st ≠ .armed) ∧ ∀ i < 8, (t.gate (8 * k.val + i)).level = false) ∧
  (∀ (k : Fin 8) (s : State), Does (.ftbReturn k) s fun t => (t.fold k.val).ftbLost = (s.fold k.val).ftbLost ∧
    ((s.fold k.val).ftbLost = true → (t.fold k.val).ftbBack = true)) ∧
  (∀ (k : Fin 8) (now : Nat) (s : State), Does (.busRise k now) s fun t => (t.fold k.val).precharge = true ∧
    fieldN (t.fold k.val).act 1 1 = 0 ∧ t.regs = s.regs ∧ t.chans = s.chans) ∧
  (∀ (f : Fin 32) (temp : BitVec 8) (s : State), Does (.stageOvertempWarn f temp) s fun t => t.chans = s.chans ∧ t.folds = s.folds ∧
    fld (t.reg (foldTemp (f.val / 4))) (8 * (f.val % 4)) 8 = temp.toNat ∧
    (110 < temp.toInt → bitOf (t.reg (foldEvt (f.val / 4))) 9 = true)) ∧
  (∀ (k : Fin 8) (v : W) (s : State), Does (.foldCfgWrite k v) s fun t =>
    if (∃ ch ∈ s.chansOfFold k.val, (s.chan ch).st = .armed) ∨ fld v 20 4 < fld v 16 4 then
      t.reg (foldCfg k.val) = s.reg (foldCfg k.val) ∧ bitOf (t.reg (foldEvt k.val)) 13 = true
    else t.reg (foldCfg k.val) = v &&& 0x00FF007F ∧ t.col = s.col) ∧
  (∀ (reading : Option (BitVec 16)) (now : Nat) (s : State), Does (.coolantDerate reading now) s fun t =>
    let temp := (reading.getD s.amb.temp).toInt
    let x := if t.amb.ok = true then meanOf (t.amb.hist.filterMap id) else 2880
    t.amb.temp = reading.getD s.amb.temp ∧
    (t.amb.ok = true ↔ -1280 ≤ temp ∧ temp ≤ 6400 ∧ (reading ≠ none ∨ s.amb.stale < 9)) ∧
    t.amb.hist = ((if -1280 ≤ temp ∧ temp ≤ 6400 then some temp else none) :: s.amb.hist).take 1000 ∧
    t.amb.tin = x ∧ t.amb.kt = (if x ≤ 2240 then 1280 else (3520 - x).toNat) ∧
    (t.amb.hot = true ↔ 3200 ≤ x ∨ (s.amb.hot = true ∧ 3072 ≤ x)) ∧
    (t.amb.hot = true → ∀ k < 8, stops (mkRep (srcFold k) 15 9 3 0 0) s t) ∧
    if t.amb.hot = true ∧ s.amb.hot = false then ∀ k < 8, (t.fold k).stopped = true ∧ ∀ ch ∈ s.chansOfFold k, (t.chan ch).st ≠ .armed
    else t.chans = s.chans) ∧
  (∀ (k : Fin 8) (busV busNow busI busI10 : BitVec 16) (pout : Int) (mw : List (Fin 512 × Int)) (ma : List (Fin 512 × Nat)) (now : Nat)
      (s : State), (Instr.foldBudgetRenewal k busV busNow busI busI10 pout mw ma now).wf = true →
    Does (.foldBudgetRenewal k busV busNow busI busI10 pout mw ma now) s fun t =>
      if s.foldServed k.val now = false then (t.fold k.val).waits = (s.fold k.val).waits ++ [.budget busV busNow busI busI10 pout mw ma] ∧
        t.regs = s.regs ∧ t.chans = s.chans ∧ t.col = s.col
      else (s.fold k.val).waits = [] →
      let pdiss := dissMean ((s.foldDiss k.val busV.toNat ma :: (s.fold k.val).dissMs).take 1000)
      t.reg (foldBus k.val) = BitVec.ofNat 32 (busV.toNat * 65536 + busNow.toNat) ∧ (∀ ch, (t.chan ch).st = (s.chan ch).st) ∧
      (∀ x ∈ mw, (s.chan x.1.val).live = true → (s.chan x.1.val).foldIx = k.val → 5000 * ((s.chan x.1.val).adm.power : Int) < 4 * x.2 →
        stops (mkRep (srcFold k.val) 15 6 2 1 x.1.val) s t) ∧
      (∀ q < 512, q / 64 = k.val → t.reg (psReg q 0x14) = BitVec.ofInt 32 (min 0xFFFFFFFF (max 0 (((s.reg (psReg q 0x14)).toNat : Int) +
        ((termCurrent ma q : Int) * termCurrent ma q - (s.icont q : Int) * s.icont q) / 1000)))) ∧
      (125000 * s.amb.kt < 1280 * pdiss ∨ s.amb.hot = true → stops (mkRep (srcFold k.val) 15 9 3 0 0) s t) ∧
      (3000 < busI.toInt ∨ 9000 < busI10.toInt → stops (mkRep (srcFold k.val) 15 8 3 0 0) s t))

/-- For every start, period p, threshold h, on-time t and residue r: the requested on-time t + r equals what the period delivers,
drops and carries on, also where what the leg held before is repeated after a parity failure. A pulse is formed exactly where t
+ r lies between h and p − 2h inside the period; its compares lie t + r apart within the period, centred to one pt. Where t + r
is at most 0, or below h inside the period, the leg is low and carries all on; in every other case it is high and carries on t +
r − p. A repeated leg that was high is high, one that was low is low, and a pulse keeps its compares cut to p − 1, on either leg
of a bridge. (R160, R164, R167, R168, R171, R181) -/
def Obligations.OnTimeIsDeliveredDroppedOrCarried : Prop :=
  (∀ (start p h : Nat) (t r : Int), let q := treat start p h t r
    q.t + r = q.deliv + q.drop + q.rNew ∧ q.start = start ∧ q.p = p ∧
    (q.row = 0 ↔ 0 < t + r ∧ t + r < p ∧ (h : Int) ≤ t + r ∧ t + r ≤ (p : Int) - 2 * h) ∧
    (q.row = 0 → (q.cf : Int) = q.cr + (t + r) ∧ q.cf ≤ p ∧ 2 * (q.cr : Int) + (t + r) ≤ p ∧ (p : Int) ≤ 2 * q.cr + (t + r) + 1 ∧
      q.deliv = t + r ∧ q.rNew = 0) ∧
    (q.row ≠ 0 → if t + r ≤ 0 ∨ t + r < p ∧ t + r < h then q.deliv = 0 ∧ q.cr = 0 ∧ q.cf = 0 ∧ q.rNew = t + r ∧ q.drive = .low
      else q.deliv = p ∧ q.cr = 0 ∧ q.cf = p ∧ q.rNew = t + r - p ∧ (0 < p → q.drive = .high)) ∧
    (q.row = 2 ↔ 0 < t + r ∧ t + r < p ∧ (t + r < h ∨ (p : Int) - 2 * h < t + r))) ∧
  (∀ (prev : Drive) (start p : Nat) (t r : Int), let q := repeatPeriod prev start p t r
    q.t + r = q.deliv + q.drop + q.rNew ∧ q.rNew = 0 ∧ q.repeated = true ∧ q.deliv = (q.cf : Int) - q.cr ∧
    (prev = .high → q.deliv = p) ∧ (prev = .low → q.deliv = 0) ∧
    (∀ cr cf, prev = .pulse cr cf → q.cr = min cr (p - 1) ∧ q.cf = min cf (p - 1))) ∧
  (∀ cr cf p : Nat, min cf (p - 1) ≠ min cr (p - 1) →
    (Drive.pulse cr cf).again p = .pulse (min cr (p - 1)) (min cf (p - 1)) ∧
    (Drive.inverse cr cf).again p = .inverse (min cr (p - 1)) (min cf (p - 1)))

/-- For every channel and state. A boundary past the frame's last, or of a free channel, does nothing. Otherwise the period is that
of R156 with spread; at the first of a loop period an armed channel whose motor does not discard it takes its queued command,
once, and what is applied lies within the clamp that was in time. With sound compares each leg takes the drive that rows 1 to 3
of R181 give it and otherwise its own: leg B of mode 1 is the inverse of leg A, in mode 2 each has its own account, mode 3 has
one leg, and a six-step channel has a leg that switches, one low and one off. The account opens with the residue carried over,
in mode 1 while either leg switches; a leg that does not switch drops it. A boundary of a fold's frame-phased carrier samples
the terminals that no channel has and retires their waiting pens. Each of these rows answers a next state with its own effect
where its conditions hold: carrierBoundary. (R156, R158, R159, R164, R165, R168, R171, R181, R192, R197, R198, R220) -/
def Obligations.CarrierBoundariesFormTheNextPeriod : Prop :=
  (∀ (ch : Fin 512) (n : Fin 64) (late : Bool) (sample : Option FloatIn) (legs : List LegIn) (s : State),
    let c := s.chan ch.val; let a := c.adm.first
    ((c.st = .free ∨ s.m * c.k ≤ n.val) → ∀ fail, exec (.carrierBoundary (.channel ch n) late fail sample legs) s = .next s) ∧
    (c.st ≠ .free → n.val < s.m * c.k → Does (.carrierBoundary (.channel ch n) late 0 sample legs) s fun t =>
      let x := t.chan ch.val
      let per := s.spreadPeriod ch.val n.val
      let ov (q : Nat) := (clearDone ch.val s).override ch.val q
      let res (q : Nat) := match (s.term q).cur with | some p => p.rNew | none => (s.term q).residue
      let duty (q num den : Nat) := treat per.1 per.2.1 c.hThr (onTime num den per.2.1) (res q)
      let leg (q num den : Nat) : Prop := match ov q with
        | none => (t.term q).cur = some (duty q num den) ∧ (t.term q).drive = (duty q num den).drive
        | some d => (t.term q).cur = none ∧ (t.term q).residue = 0 ∧ (t.term q).drive = d
      x.curP = per.2.1 ∧ x.lfsr = per.2.2.1 ∧ x.xSpread = per.2.2.2 ∧
      (n.val % c.k = 0 → x.cmdQ = none ∧ 
          x.cmd = (if c.st = .armed ∧ s.discardsOut ch.val = false then c.cmdQ.getD c.cmd else c.cmd) ∧
        (∀ hi lo, (if late = true then c.clamp else if c.clampQ.isSome then c.clampQ else c.clamp) = some (hi, lo) → lo ≤ hi →
          lo ≤ x.applied ∧ x.applied ≤ hi)) ∧
      (n.val % c.k ≠ 0 → x.applied = c.applied ∧ x.cmdQ = c.cmdQ) ∧
      (c.adm.kind = 2 → c.md.mode = 1 → let q := duty a (32768 + x.applied).toNat 65536
        (ov a = none ∨ ov (a + 1) = none → (t.term a).cur = some q) ∧
        (ov a ≠ none → ov (a + 1) ≠ none → (t.term a).cur = none ∧ (t.term a).residue = 0) ∧
        (t.term a).drive = (ov a).getD q.drive ∧ (t.term (a + 1)).drive = (ov (a + 1)).getD q.inverse) ∧
      (c.adm.kind = 2 → c.md.mode = 2 → leg a (32768 + x.applied).toNat 65536 ∧ leg (a + 1) (32768 - x.applied).toNat 65536) ∧
      (c.adm.kind = 1 → c.md.mode = 3 → leg a (max x.applied 0).toNat 32768) ∧
      (c.adm.kind = 3 → c.md.mode = 4 →
        (∀ i, pwmLeg c.step = some i → ov (a + i) = none → let q := duty a (max x.applied 0).toNat 32768
          (t.term a).cur = some q ∧ (t.term (a + i)).drive = q.drive) ∧
        (∀ i, lowLeg c.step = some i → ov (a + i) = none → (t.term (a + i)).drive = .low) ∧
        (∀ i, floatLeg c.step = some i → ov (a + i) = none → (t.term (a + i)).drive = .off)))) ∧
  (∀ (k : Fin 8) (now : Nat) (late : Bool) (fail : BitVec 3) (sample : Option FloatIn) (legs : List LegIn) (s : State),
    Does (.carrierBoundary (.idle k now) late fail sample legs) s fun t => t.chans = s.chans ∧
      ∀ q, q < 512 → foldOf q = k.val → s.ownerOf q = none →
        (s.flockOn (flockOf q) = true → t.reg (psReg q 0x18) = match legs.find? (fun x => x.term.val == q) with
          | some x => s.currentSample q x.share ++ x.volt
          | none => 0) ∧
        (s.foldServed k.val now = true → (t.term q).retire = [] ∧
          ∀ p < 16, p ∈ (s.term q).retire → t.penRole q p = retired))

/-- For every state. With flock or fold off a gate event is nothing; one of the trailing pens moves their gates alone; an edge that
nothing commands, or that would turn a side on beside the other, is a mismatch, counted and shown, that switches nothing; a
commanded edge switches exactly its side and is a mismatch too where it is out of its time. CROOK takes a force with its key, an
owner and, for low and high, the fence's leave, and shows CFG_IGNORED or the denial otherwise. At its boundary the request
becomes the force. The oldest waiting step change becomes the step, no sooner than 64 cc after its posting, and opens the window
of the motor's timer, unless it is open and does not retrigger. Repeated failures of hop 3, hop 5 or the readback are reported
once in class C2 and start afresh. Each of these rows answers a next state with its own effect where its conditions hold:
gateEvent, crookWrite, crookForceApply, stepChangeApply, integrityEscalation. (R149, R150, R161, R166, R174, R175, R176) -/
def Obligations.GateEventsForcesAndEscalationsActOnTheLeg : Prop :=
  (∀ (q : Fin 512) (ev : Fin 4) (at_ : Nat) (trail : Bool) (s : State), Does (.gateEvent q ev at_ trail []) s fun t =>
    let x := s.term q.val; let y := t.term q.val
    let miss : Prop := t.reg (intCnt (flockOf q.val) 6) = s.reg (intCnt (flockOf q.val) 6) + 1 ∧ bitOf (t.reg (intEvt (flockOf q.val))) 5 = true
    if s.flockOn (flockOf q.val) = false ∨ s.foldOn (foldOf q.val) = false then t = s
    else if trail = true then y = x.trail ev.val ∧ y.hi = x.hi ∧ y.lo = x.lo ∧ t.regs = s.regs
    else match x.edges.find? (fun e => e.ev == ev.val) with
      | none => y.hi = x.hi ∧ y.lo = x.lo ∧ miss
      | some e =>
        if x.clear ev.val = false then y.hi = x.hi ∧ y.lo = x.lo ∧ miss
        else y.hi = (x.switch ev.val).hi ∧ y.lo = (x.switch ev.val).lo ∧ y.edges = x.edges.erase e ∧ y.seenAt = at_ ∧
          if e.inTime at_ = true then t.regs = s.regs else miss) ∧
  (∀ (q : Fin 512) (v : W) (s : State), Does (.crookWrite q v) s fun t =>
    if fld v 24 8 ≠ 0xC5 ∨ s.ownerOf q.val = none then t.terms = s.terms ∧ bitOf (t.reg (modEvt (flockOf q.val))) 1 = true
    else if (fld v 0 2 = 1 ∨ fld v 0 2 = 2) ∧ s.forceOk q.val = false then
      t.terms = s.terms ∧ bitOf (t.reg (modEvt (flockOf q.val))) 2 = true
    else (t.term q.val).forceQ = some (fld v 0 2) ∧ (t.term q.val).forceEff = (s.term q.val).forceEff ∧ t.regs = s.regs) ∧
  (∀ (q : Fin 512) (now : Nat) (s : State), Does (.crookForceApply q now) s fun t =>
    match (s.term q.val).forceQ with
    | none => t = s
    | some f => (t.term q.val).forceEff = f ∧ (t.term q.val).forceQ = none) ∧
  (∀ (ch : Fin 512) (now : Nat) (sample : Option FloatIn) (s : State), Does (.stepChangeApply ch now sample) s fun t =>
    match (s.chan ch.val).stepPend with
    | [] => t = s
    | (x, at_) :: r => if now < at_ + 64 then t = s
      else (t.chan ch.val).step = x ∧ (t.chan ch.val).stepPend = r ∧
        ∀ i, s.motorOf ch.val = some i → let tm := s.timer (s.motor i).timer
          (t.motor i).posted = false ∧ t.timer (s.motor i).timer =
            if tm.isOpen (2 * now + tm.delay) = true ∧ tm.retrig = false then tm
            else { tm with open_ := true, openAt := 2 * now + tm.delay }) ∧
  (∀ (kind : Fin 4) (i : Fin 512) (s : State), Does (.integrityEscalation kind i) s fun t =>
    let f := (s.chan i.val).flock
    (kind.val ≤ 1 → if (s.chan i.val).live = true ∧ ∃ x ∈ (s.chan i.val).inp.failRun, 3 ≤ x.2 then
        (t.chan i.val).inp.failRun = [] ∧ bitOf (t.reg (intEvt f)) (kind.val + 1) = true ∧
          t.col.srcQ = s.col.srcQ ++ [mkRep (srcFlock f) 0 (kind.val + 1) 2 1 i.val] else t = s) ∧
    (kind.val = 2 → ∀ ch, s.ownerOf i.val = some ch → 2 ≤ (s.term i.val).parRun → (t.term i.val).parRun = 0 ∧
      t.col.srcQ = s.col.srcQ ++ [mkRep (srcFlock (s.chan ch).flock) 0 4 2 1 ch]) ∧
    (kind.val = 3 → ∀ ch, s.ownerOf i.val = some ch → 4 ≤ (s.term i.val).rbHist.length → (t.term i.val).rbHist = [] ∧
      t.col.srcQ = s.col.srcQ ++ [mkRep (srcFlock (s.chan ch).flock) 0 5 2 1 ch]))

/-- For every state. A desaturation of a healthy segment of a pen in service that is not already off counts, opens its span and
turns the segment off; any other is nothing. A span of fewer than four segments isolates each of them; one of four or more is an
overcurrent of the terminal. A spare under no other test starts its self-test, and its end isolates the failed segments and
returns it as a spare, or retires it below 12 healthy. A substitution that waits puts its pen in service, and its end retires
the pen replaced and counts, or retires the incoming pen where it has fallen below 12. While no supervisor serves the fold each
such act waits in the fold's list and moves nothing. Each of these rows answers a next state with its own effect where its
conditions hold: desaturation, desatSpanClose, spareSelfTestStart, spareSelfTestEnd, substOverlapStart, substRelease. (R186,
R187, R194, R195, R196, R197, R198, R199, R426) -/
def Obligations.PensAreIsolatedTestedAndSubstituted : Prop :=
  (∀ (q : Fin 512) (p g : Fin 16) (s : State), Does (.desaturation q p g) s fun t =>
    if s.segHealthy q.val p.val g.val = true ∧ s.penRole q.val p.val = inService ∧ (p.val, g.val) ∉ (s.term q.val).gateOff then
      t.reg (psReg q.val 0x20) = s.reg (psReg q.val 0x20) + 1 ∧ (p.val, g.val) ∈ (t.term q.val).gateOff ∧
        (t.term q.val).spanOpen = true ∧ (p.val, g.val) ∈ (t.term q.val).span ∧ bitOf (t.reg (foldEvt (foldOf q.val))) 0 = true
    else t = s) ∧
  (∀ (q : Fin 512) (now : Nat) (s : State), (s.term q.val).spanOpen = true → Does (.desatSpanClose q now) s fun t =>
    (t.term q.val).spanOpen = false ∧
    if (s.term q.val).span.length < 4 then
      if s.foldServed (foldOf q.val) now = true then
        (s.fold (foldOf q.val)).waits = [] → ∀ p < 16, ∀ g < 16, (p, g) ∈ (s.term q.val).span → t.segHealthy q.val p g = false
      else t.regs = s.regs ∧ (t.fold (foldOf q.val)).waits =
        (s.fold (foldOf q.val)).waits ++ [.isolate q.val (s.term q.val).span]
    else ∀ ch, s.ownerOf q.val = some ch → (t.chan ch).st ≠ .armed ∧ t.reg (psReg q.val 0x2C) = s.reg (psReg q.val 0x2C) + 1) ∧
  (∀ (q : Fin 512) (now : Nat) (s : State), (s.term q.val).spanOpen = false → exec (.desatSpanClose q now) s = .next s) ∧
  (∀ (q : Fin 512) (p : Fin 16) (now : Nat) (s : State), DoesOnFold (.spareSelfTestStart q p now) (foldOf q.val) now s fun t =>
    if s.penRole q.val p.val = spare ∧ (s.term q.val).selfTest = none ∧ p.val ∉ (s.term q.val).underBist ∧
        ¬(s.substSt q.val = 1 ∧ s.penIn q.val = p.val) then
      t.penRole q.val p.val = underTest ∧ (t.term q.val).selfTest = some p.val
    else t.terms = s.terms ∧ t.regs = s.regs) ∧
  (∀ (q : Fin 512) (fails : BitVec 16) (p : Fin 16) (now : Nat) (s : State), (s.term q.val).selfTest = some p.val →
    DoesOnFold (.spareSelfTestEnd q fails now) (foldOf q.val) now s fun t => (t.term q.val).selfTest = none ∧
      (∀ g < 16, fails.getLsbD g = true → t.segHealthy q.val p.val g = false) ∧
      t.penRole q.val p.val = (if t.healthy q.val p.val < 12 then retired else spare)) ∧
  (∀ (q : Fin 512) (now : Nat) (s : State), DoesOnFold (.substOverlapStart q now) (foldOf q.val) now s fun t =>
    if s.substSt q.val = 1 then t.substSt q.val = 2 ∧ t.penRole q.val (s.penIn q.val) = inService ∧ t.penOut q.val = s.penOut q.val
    else t.terms = s.terms ∧ t.regs = s.regs) ∧
  (∀ (q : Fin 512) (now : Nat) (s : State), s.substSt q.val ≠ 2 → exec (.substRelease q now) s = .next s) ∧
  (∀ (q : Fin 512) (now : Nat) (s : State), s.substSt q.val = 2 → Does (.substRelease q now) s fun t =>
    if s.foldServed (foldOf q.val) now = true then (s.fold (foldOf q.val)).waits = [] →
      if 12 ≤ s.healthy q.val (s.penIn q.val) then t.penRole q.val (s.penOut q.val) = retired ∧
        t.reg (psReg q.val 0x28) = s.reg (psReg q.val 0x28) + 1 ∧ bitOf (t.reg (foldEvt (foldOf q.val))) 2 = true
      else t.penRole q.val (s.penIn q.val) = retired ∧ bitOf (t.reg (foldEvt (foldOf q.val))) 3 = true
    else t.substSt q.val = 0 ∧ t.terms = s.terms ∧ (t.fold (foldOf q.val)).waits =
      (s.fold (foldOf q.val)).waits ++ [.outcome q.val (s.penIn q.val) (s.penOut q.val)])

/-- For every accepted entry and every state. TIMER.NEW takes the lowest free timer of its terminal's fold with its fields, or is
refused for want of one. A window opens for a live timer, of no motor, whose channel is out of its safe state, an open one only
where it retriggers, closes once its width has passed, and blanks the filters that name it. TRIP.SET of a free group within its
limits writes it; TRIP.ADD needs a group of channels (1) with room (2) and adds the channel, which an active trip stops at once;
TRIP.DEL of a group whose trip is active or latched is refused with STATE (1), of any other frees it. Samples of a trip input
act in their order; one inside a blanking window enters no filter; the one that makes the filter active stops the group's
channels, or its folds, or is only shown; any other stops and restarts nothing. Each of these rows answers a next state with its
own effect where its conditions hold: timerNew, timerWindowOpen, timerWindowClose, tripSet, tripAdd, tripDel, externalTrip.
(R202, R203, R205, R206, R207, R209, R312) -/
def Obligations.TimersAndTripGroupsOpenFireAndRelease : Prop :=
  (∀ (e : CmdEntry) (s : State), s.accepts e 0x0C01 → let u := s.untake e; let o := opN e 0
    Does (.timerNew e) s fun t => match u.freeTimer (foldOf (fld o 0 9)) with
      | none => Posted e stNoRes 0 1 u t ∧ t.timers = u.timers
      | some i => Posted e stOk (mkHandle 9 i (u.gen 9 i)) 0 u t ∧ i / 64 = foldOf (fld o 0 9) ∧ (u.timer i).live = false ∧
          t.timer i = { live := true, term := fld o 0 9, event := fld o 16 3, delay := fld (opN e 1) 0 16
                        width := fld (opN e 1) 16 16, retrig := bitOf o 12, open_ := false, openAt := 0 }) ∧
  (∀ (i : Fin 512) (now : Nat) (s : State), Does (.timerWindowOpen i now) s fun t =>
    let x := s.timer i.val
    if x.live = true ∧ (∃ ch, s.ownerOf x.term = some ch ∧ ((s.chan ch).st = .armed ∨ (s.term x.term).forceEff ≠ 0)) ∧
      s.motorTimer i.val = false ∧ (x.isOpen now = false ∨ x.retrig = true) then
      t.timer i.val = { x with open_ := true, openAt := now } ∧
        ((s.tripsOf i.val).Nodup → ∀ g ∈ s.tripsOf i.val, t.trip g = (s.trip g).blankOpen x.delay x.width now)
    else t = s) ∧
  (∀ (i : Fin 512) (now : Nat) (s : State), Does (.timerWindowClose i now) s fun t =>
    let x := s.timer i.val
    if x.open_ = true ∧ x.openAt + x.width ≤ now then
      t.timer i.val = { x with open_ := false } ∧ ∀ g ∈ s.tripsOf i.val, t.trip g = (s.trip g).blankUntil (x.openAt + x.width)
    else t = s) ∧
  (∀ (e : CmdEntry) (s : State), s.accepts e 0x0C11 → let u := s.untake e; let o := opN e 0; let g := fld o 16 5
    let tm := if opN e 1 = 0 then none else some (hIndex (opN e 1))
    Does (.tripSet e) s fun t =>
      if (u.trip g).live = true then Posted e stNoRes 0 1 u t ∧ t.trips = u.trips
      else if fld o 4 4 < fld o 8 4 then Posted e stNoRes 0 2 u t ∧ t.trips = u.trips
      else if ∃ i, tm = some i ∧ 160 < (u.timer i).width then Posted e stSize 0 3 u t ∧ t.trips = u.trips
      else Posted e stOk (mkHandle 10 g (u.gen 10 g)) 0 u t ∧ t.trip g =
        { live := true, mask := fld o 24 8, high := bitOf o 12, n := fld o 8 4 + 1, m := fld o 4 4 + 1, scope := fld o 0 2
          timer := tm, chans := [], active := false, fired := [], firedFolds := [], hist := [], blank := false, blankAt := 0, blankTo := 0
          blankEnd := none }) ∧
  (∀ (e : CmdEntry) (now : Nat) (s : State), s.accepts e 0x0C12 → let u := s.untake e; let g := hIndex (opN e 0)
    let ch := hIndex (opN e 1)
    Does (.tripAdd e now) s fun t =>
      if (u.trip g).scope ≠ 1 then Posted e stState 0 1 u t ∧ t.trips = u.trips
      else if 64 ≤ (u.trip g).chans.length then Posted e stNoRes 0 2 u t ∧ t.trips = u.trips
      else ch ∈ (t.trip g).chans ∧ ((u.trip g).active = true → ch ∉ (u.trip g).chans → (t.chan ch).st ≠ .armed) ∧
        ((u.trip g).active = false → t.chans = u.chans ∧ Posted e stOk 0 0 u t)) ∧
  (∀ (e : CmdEntry) (s : State), s.accepts e 0x0C13 → let u := s.untake e; let g := hIndex (opN e 0)
    let x := u.trip g
    Does (.tripDel e) s fun t =>
      if x.fired ≠ [] ∨ x.firedFolds ≠ [] ∨ x.active = true ∧ (x.scope = 1 ∧ x.chans ≠ [] ∨ x.scope = 2) then
        Posted e stState 0 1 u t ∧ t.trips = u.trips ∧ t.gens = u.gens
      else t.trip g = Trip.none ∧ t.gen 10 g = nextGen (u.gen 10 g) ∧ Posted e stOk 0 0 u t) ∧
  (∀ (g : Fin 32) (lvl : Bool) (at_ : Nat) (s : State), Does (.externalTrip g [lvl] at_) s fun t =>
    let x := (s.trip g.val).blankUntil at_
    let h := filtNext x.hist x.m (lvl == x.high)
    if x.live = false then t = s
    else if x.blank = true then (t.trip g.val).hist = (s.trip g.val).hist ∧ t.chans = s.chans ∧ t.folds = s.folds
    else (t.trip g.val).active = filtActive h x.n ∧ (t.trip g.val).hist = h ∧
      (filtActive h x.n = false ∨ x.active = true → t.chans = s.chans ∧ t.folds = s.folds) ∧
      (filtActive h x.n = true → x.active = false →
        (x.scope = 1 → ∀ ch ∈ x.chans, (t.chan ch).st ≠ .armed) ∧
        (x.scope = 2 → ∀ k < 8, fieldN x.mask k 1 = 1 → (t.fold k).stopped = true) ∧
        ((x.scope = 1 → x.chans = []) → x.scope ≠ 2 → t.chans = s.chans ∧
          ∀ k < 8, fieldN x.mask k 1 = 1 → bitOf (t.reg (foldEvt k)) 6 = true))) ∧
  (∀ (g : Fin 32) (l : List Bool) (x : Bool) (at_ : Nat) (s : State), Does (.externalTrip g (l ++ [x]) at_) s fun t =>
    Does (.externalTrip g l at_) s fun u => exec (.externalTrip g [x] (at_ + 4 * l.length)) u = .next t)

/-- For every accepted entry and every state: TIMER.DEL of a timer that a live motor object names is refused with STATE at check 1
and changes no timer; TIMER.DEL of one that nothing names frees it and moves its generation on. MOTOR.DEL of a motor whose
channel is not armed frees the motor, so that no entry of it names the timer any longer. MOTOR.NEW of a block that passes its
checks creates the motor with the timer it names. Each of these rows answers a next state with its own effect where its
conditions hold: timerDel, motorDel, motorNew. (R392) -/
def Obligations.MotorsHoldTheirTimerUntilTheyGo : Prop :=
  (∀ (e : CmdEntry) (s : State), s.accepts e 0x0C02 → let u := s.untake e; let i := hIndex (opN e 0)
    Does (.timerDel e) s fun t =>
      ((∃ m ∈ tkeys u.motors, (u.motor m).live = true ∧ (u.motor m).timer = i) → Posted e stState 0 1 u t ∧ t.timers = u.timers) ∧
      (u.timerNamed i = false → t.timer i = Timer.none ∧ t.gen 9 i = nextGen (u.gen 9 i) ∧ Posted e stOk 0 0 u t)) ∧
  (∀ (e : CmdEntry) (s : State), s.accepts e 0x0C22 → let u := s.untake e; let i := hIndex (opN e 0)
    Does (.motorDel e) s fun t =>
      if (u.chan (u.motor i).chan).st = .armed then Posted e stState 0 1 u t ∧ t.motors = u.motors
      else t.motor i = Motor.none ∧ (∀ m, m ≠ i → t.motor m = u.motor m) ∧ t.timers = u.timers ∧
        t.gen 7 i = nextGen (u.gen 7 i) ∧ Posted e stOk 0 0 u t ∧
        ((∀ m ∈ tkeys u.motors, m ≠ i → (u.motor m).live = true → (u.motor m).timer ≠ (u.motor i).timer) →
          (∀ g ∈ tkeys u.trips, (u.trip g).live = true → (u.trip g).timer ≠ some (u.motor i).timer) →
          t.timerNamed (u.motor i).timer = false)) ∧
  (∀ (e : CmdEntry) (s : State), s.accepts e 0x0C21 → let u := s.untake e; let ch := hIndex (opN e 0); let c := u.chan ch
    let b := (opN e 1).toNat; let th := BitVec.ofNat 32 (u.blk b 4 4); let tm := u.timer (hIndex th)
    c.adm.kind = 3 → c.st = .idle → u.motorOf ch = none → blockPlaced (opN e 1) (opN e 2) = true → u.handleCheck 9 th = none →
    tm.term ∈ c.terms → tm.event = 5 → u.motorBlockOk b = true → u.blk b 0x14 4 * 96 ≤ u.frate * u.m * c.k * 10 →
    ∀ i, u.freeIndex 7 = some i → Does (.motorNew e) s fun t =>
      t.motor i = u.motorOfBlock b ch (hIndex th) ∧ (t.motor i).timer = hIndex th ∧ (t.motor i).live = true ∧
        Posted e stOk (mkHandle 7 i (u.gen 7 i)) 0 u t)

/-- For every accepted entry and every state. CAP.NEW takes the lowest free index and the fields of its operands, its signals in
ascending number, or is refused: no index (0xF7), a signal or layout that does not exist (1), continuous with a count or
one-shot without (2), more entries than the largest ring admitted (3). CAP.START is refused where the channel has a running
capture (1) or the load is past the budget (2) and else waits with all positions 0. CAP.STOP of one that does not run is
refused; it completes at once unless entries wait. CAP.DEL is refused while it runs. A capture begins at its trigger; an entry
formed at the D-th run joins the queue with a failing operand's value marked, counted and reported in class C0; the oldest entry
is written to its place in the ring, no other byte of DRAM changes, and then the position advances; a one-shot capture that has
written its count is done. Each of these rows answers a next state with its own effect where its conditions hold: capNew,
capStart, capStop, capDel, capTrigger, capEntryRecord, capEntryCommit, capDone. (R244, R245, R246, R247, R308) -/
def Obligations.CapturesAreCheckedFormedWrittenAndEnded : Prop :=
  (∀ (e : CmdEntry) (s : State), s.accepts e 0x0701 → let u := s.untake e; let o := opN e 1
    let named := (List.range (fld o 6 2 + 1)).map (fun i => fld o (16 + 4 * i) 4)
    Does (.capNew e) s fun t =>
      match u.freeIndex 5 with
      | none => Posted e stNoRes 0 0xF7 u t ∧ t.caps = u.caps
      | some i =>
        if ¬((∀ c ∈ named, c < 12) ∧ fld o 4 2 ≠ 3) then Posted e stNoRes 0 1 u t ∧ t.caps = u.caps
        else if ¬(bitOf o 2 = true ↔ opN e 2 = 0) then Posted e stNoRes 0 2 u t ∧ t.caps = u.caps
        else if (u.chan (hIndex (opN e 0))).adm.largest < (opN e 2).toNat then Posted e stSize 0 3 u t ∧ t.caps = u.caps
        else Posted e stOk (mkHandle 5 i (u.gen 5 i)) 0 u t ∧ (∀ j, j ≠ i → t.cap j = u.cap j) ∧ let x := t.cap i
          x.live = true ∧ x.chan = hIndex (opN e 0) ∧ x.codes = BitVec.ofNat 16 (fld o 16 16) ∧
            x.sigs = (List.range 16).flatMap (fun c => named.filter (fun y => y == c)) ∧ x.layout = fld o 4 2 ∧ x.decim = fld o 8 8 + 1 ∧
            x.trig = bitOf o 3 ∧ x.cont = bitOf o 2 ∧ x.target = (opN e 2).toNat ∧ x.st = 0 ∧ x.queued = []) ∧
  (∀ (e : CmdEntry) (s : State), s.accepts e 0x0702 → let u := s.untake e; let i := hIndex (opN e 0)
    let running := (tkeys u.caps).filter (fun j => (u.cap j).live && ((u.cap j).st == 1 || (u.cap j).st == 2))
    Does (.capStart e) s fun t =>
      if (u.capOf (u.cap i).chan).isSome = true then Posted e stBusy 0 1 u t ∧ t.caps = u.caps
      else if u.capsFit (running ++ [i]) = false then Posted e stOverBudget 0 2 u t ∧ t.caps = u.caps
      else Posted e stOk 0 0 u t ∧ (t.cap i).st = 1 ∧ (t.cap i).wptr = 0 ∧ (t.cap i).wraps = 0 ∧ (t.cap i).count = 0 ∧
        (t.cap i).queued = [] ∧ (t.cap i).sigs = (u.cap i).sigs ∧ ∀ j, j ≠ i → t.cap j = u.cap j) ∧
  (∀ (e : CmdEntry) (s : State), s.accepts e 0x0703 → let u := s.untake e; let i := hIndex (opN e 0)
    Does (.capStop e) s fun t =>
      if (u.cap i).st ≠ 1 ∧ (u.cap i).st ≠ 2 then Posted e stState 0 1 u t ∧ t.caps = u.caps
      else (t.cap i).st = 3 ∧ (t.cap i).queued = (u.cap i).queued ∧
        if (u.cap i).queued = [] then Posted e stOk 0 0 u t else InProgress e u t ∧ (t.cap i).stopping = true) ∧
  (∀ (e : CmdEntry) (s : State), s.accepts e 0x0704 → let u := s.untake e; let i := hIndex (opN e 0)
    Does (.capDel e) s fun t =>
      if (u.cap i).st = 1 ∨ (u.cap i).st = 2 then Posted e stBusy 0 1 u t ∧ t.caps = u.caps
      else Posted e stOk 0 0 u t ∧ t.cap i = Cap.none ∧ t.gen 5 i = nextGen (u.gen 5 i) ∧ ∀ j, j ≠ i → t.cap j = u.cap j) ∧
  (∀ (i : Fin 1024) (s : State), Does (.capTrigger i) s fun t => let x := s.cap i.val
    if x.live = true ∧ x.st = 1 ∧ (x.trig = true → (s.injOf x.chan).any (fun j => (s.inj j).st == 2) = true) then
      (t.cap i.val).st = 2 ∧ (t.cap i.val).skip = 0 ∧ ∀ j, j ≠ i.val → t.cap j = s.cap j
    else t = s) ∧
  (∀ (i : Fin 1024) (fails : BitVec 4) (s : State), Does (.capEntryRecord i fails) s fun t => let x := s.cap i.val; let c := s.chan x.chan
    if x.live = true ∧ x.st = 2 ∧ x.decim ≤ x.skip ∧ (x.target = 0 ∨ x.formed < x.target) then
      (t.cap i.val).queued = x.queued ++ [c.captured x.sigs fails.toNat] ∧ (t.cap i.val).formed = x.formed + 1 ∧ (t.cap i.val).skip = 0 ∧
        (∀ a, t.reg a = if a = capReg c.adm.first 0x1C then
          s.reg a + BitVec.ofNat 32 ((List.range x.sigs.length).countP (fun k => fails.getLsbD k)) else s.reg a) ∧
        (if (List.range x.sigs.length).countP (fun k => fails.getLsbD k) = 0 then t.col = s.col
          else ∃ r, r.cls = 0 ∧ r.object = x.chan ∧ t.col.srcQ = s.col.srcQ ++ [r])
    else t = s) ∧
  (∀ (c : Chan) (sigs : List Nat) (fails : BitVec 4) (k : Nat), k < sigs.length →
    (c.captured sigs fails.toNat)[k]? = some (if fails.getLsbD k = true then 0x800000
      else (c.signal (sigs.getD k 0) c.latch.tc c.latch.exc).getD 0)) ∧
  (∀ (i : Fin 1024) (s : State), Does (.capEntryCommit i) s fun t => let x := s.cap i.val; let a := (s.chan x.chan).adm
    match x.queued with
    | [] => t = s
    | v :: r => let b := v.flatMap (encodeSample x.layout); let at_ := a.capAt + x.wptr * x.bytes
      t.dramBytes at_ b.length = b ∧ (∀ y, y < at_ ∨ at_ + b.length ≤ y → t.dramByte y = s.dramByte y) ∧
        (t.cap i.val).queued = r ∧ (t.cap i.val).count = (x.count + 1) % 2 ^ 32 ∧
        (t.cap i.val).wptr = (if a.ringEntries ≤ x.wptr + 1 then 0 else x.wptr + 1) ∧
        (t.cap i.val).wraps = (if a.ringEntries ≤ x.wptr + 1 then (x.wraps + 1) % 2 ^ 32 else x.wraps)) ∧
  (∀ (i : Fin 1024) (s : State), Does (.capDone i) s fun t => let x := s.cap i.val
    if x.live = true ∧ x.st = 2 ∧ x.target ≠ 0 ∧ x.count = x.target then (t.cap i.val).st = 3 ∧ (t.cap i.val).queued = x.queued
    else t = s)

/-- For every accepted entry and every state. INJ.NEW takes the lowest free index and the fields of its operands, or is refused at
its first failing check. INJ.START is refused on a channel not armed (1), while it runs (2) or in an open layer (3), and else
waits for B(j) from value 0 with its chunks empty. INJ.STOP of one that does not run is refused; else it asks for its end and
completes later. INJ.DEL is refused while it runs and else frees the index, its generation moved on. An injection whose length
is reached ends and owes a single 0. A host sequence fetches the next chunk of 256 values from its window, wrapping at its
length, while fewer than two hold values still to come. Each of these rows answers a next state with its own effect where its
conditions hold: injNew, injStart, injStop, injDel, injEnd, injChunkFetch. (R241, R242, R243, R308, R309) -/
def Obligations.InjectionsAreCheckedRunAndFetchTheirChunks : Prop :=
  (∀ (e : CmdEntry) (s : State), s.accepts e 0x0711 → let u := s.untake e; let ch := hIndex (opN e 0); let o := opN e 1
    let src := fld o 4 3; let o3 := opN e 3; let o4 := opN e 4; let o5 := opN e 5
    let bound := u.liveBinds.any (fun i => (u.bind i).chan == ch && (u.bind i).input == 2)
    Does (.injNew e) s fun t =>
      match u.freeIndex 6 with
      | none => Posted e stNoRes 0 1 u t ∧ t.injs = u.injs
      | some i =>
        if fld o 8 2 = 0 ∨ (u.injOf ch).isSome = true ∨ bound = true ∨ u.injOk src o3 o4 o5 = false then
          Posted e stNoRes 0 1 u t ∧ t.injs = u.injs
        else if (injWindow src o3 o4 o5).any (fun w => !inWindows w.1 w.2) = true then Posted e stSize 0 2 u t ∧ t.injs = u.injs
        else if src = 4 ∧ 32768 < (u.tones o4.toNat o5.toNat).foldl (fun a x => a + absI x.2.1) 0 then
          Posted e stNoRes 0 3 u t ∧ t.injs = u.injs
        else Posted e stOk (mkHandle 6 i (u.gen 6 i)) 0 u t ∧ (∀ j, j ≠ i → t.inj j = u.inj j) ∧ let x := t.inj i
          x.live = true ∧ x.chan = ch ∧ x.point = fld o 8 2 ∧ x.src = src ∧ x.amp = sx 16 (fld o 16 16) ∧ x.len = (opN e 2).toNat ∧
            x.st = 0 ∧ x.p3 = o3 ∧ x.p4 = o4 ∧ x.p5 = o5 ∧ x.tones = (if src = 4 then u.tones o4.toNat o5.toNat else [])) ∧
  (∀ (e : CmdEntry) (s : State), s.accepts e 0x0712 → let u := s.untake e; let i := hIndex (opN e 0); let x := u.inj i
    Does (.injStart e) s fun t =>
      if (u.chan x.chan).armed = false then Posted e stState 0 1 u t ∧ t.injs = u.injs
      else if x.st = 1 ∨ x.st = 2 then Posted e stBusy 0 2 u t ∧ t.injs = u.injs
      else if u.layerOf x.chan = true then Posted e stLayer 0 3 u t ∧ t.injs = u.injs
      else InProgress e u t ∧ (t.inj i).st = 1 ∧ (t.inj i).k = 0 ∧ (t.inj i).chunks = [] ∧ (t.inj i).stop = false ∧
        (t.inj i).zero = false ∧ (t.inj i).last = 0 ∧ (t.inj i).prbs = 2 ^ fld x.p3 0 5 - 1 ∧ ∀ j, j ≠ i → t.inj j = u.inj j) ∧
  (∀ (e : CmdEntry) (s : State), s.accepts e 0x0713 → let u := s.untake e; let i := hIndex (opN e 0)
    Does (.injStop e) s fun t =>
      if (u.inj i).st ≠ 1 ∧ (u.inj i).st ≠ 2 then Posted e stState 0 1 u t ∧ t.injs = u.injs
      else InProgress e u t ∧ t.inj i = { u.inj i with stop := true } ∧ ∀ j, j ≠ i → t.inj j = u.inj j) ∧
  (∀ (e : CmdEntry) (s : State), s.accepts e 0x0714 → let u := s.untake e; let i := hIndex (opN e 0)
    Does (.injDel e) s fun t =>
      if (u.inj i).st = 1 ∨ (u.inj i).st = 2 then Posted e stBusy 0 1 u t ∧ t.injs = u.injs
      else Posted e stOk 0 0 u t ∧ t.inj i = Inj.none ∧ t.gen 6 i = nextGen (u.gen 6 i) ∧ ∀ j, j ≠ i → t.inj j = u.inj j) ∧
  (∀ (i : Fin 512) (s : State), Does (.injEnd i) s fun t => let x := s.inj i.val
    if x.live = true ∧ x.st = 2 ∧ x.len ≠ 0 ∧ x.len ≤ x.k then
      (t.inj i.val).st = 3 ∧ (t.inj i.val).zero = true ∧ ∀ j, j ≠ i.val → t.inj j = s.inj j
    else t = s) ∧
  (∀ (i : Fin 512) (s : State), Does (.injChunkFetch i) s fun t => let x := s.inj i.val
    let held := x.chunks.filter (fun c => decide (x.k < 256 * c.1 + 256))
    if x.live = true ∧ x.src = 2 ∧ (x.st = 1 ∨ x.st = 2) ∧ held.length < 2 then
      let c := (held.getLast?.map (fun y => y.1 + 1)).getD (x.k / 256); let n := layoutBytes (fld x.p5 0 2)
      (t.inj i.val).chunks.length = held.length + 1 ∧ (∀ y ∈ held, y ∈ (t.inj i.val).chunks) ∧
        ∃ vs, (c, vs) ∈ (t.inj i.val).chunks ∧ vs.length = 256 ∧ ∀ k < 256, vs[k]? =
          some (decodeSample (fld x.p5 0 2) (s.dramBytes (x.p3.toNat + (256 * c + k) % x.p4.toNat * n) n))
    else t = s)

/-- For every accepted entry and every state. DIAG.RUN takes the lowest free index, waiting, with its block and the handle as
result, or is refused: no index (0xF7), its preconditions (1), its result area (2). DIAG.ABORT of a run that is neither waiting
nor running, or that is in the loop period in which its last point ends, DIAG.DEL of one that has not ended, and DIAG.ENROL of
one without a passing verdict or barred by the fence are refused; else they ask for the end, free the index, or store the result
as the signature of its terminal. A point that is not the last, once it has had its frames, joins the points measured, one for
each tone's sums, and moves the run on to the next pass, which starts at this boundary with empty sums; a cause that holds ends
it, with all points where the last was measured, the resistance and the table in effect kept, the channel without excitation,
and by cover at once; any other point end or cause changes nothing. The result of an ended excitation is written after the
block, no other byte changes, and the command is no longer in progress. Each of these rows answers a next state with its own
effect where its conditions hold: diagRun, diagAbort, diagEnrol, diagDel, diagPointEnd, diagRunEnd, diagResultWrite. (R359,
R360, R361, R362, R363, R366, R368, R369) -/
def Obligations.DiagnosisRunsStartStepEndAndWriteTheirResult : Prop :=
  (∀ (e : CmdEntry) (s : State), s.accepts e 0x0801 → let u := s.untake e; let ch := hIndex (opN e 0); let kind := fld (opN e 1) 0 8
    let b := (opN e 2).toNat; let n := (opN e 3).toNat; let c := u.chan ch
    let x : Diag := { Diag.none with live := true, chan := ch, first := c.adm.first, ckind := c.adm.kind, kind, st := 1
                                     block := u.diagBlock ch kind b, addr := b }
    Does (.diagRun e) s fun t =>
      match u.freeIndex 11 with
      | none => Posted e stNoRes 0 0xF7 u t ∧ t.diags = u.diags
      | some d =>
        if u.diagReady ch kind x = false then Posted e stState 0 1 u t ∧ t.diags = u.diags
        else if n < 0x80 + 16 * x.npts ∨ inWindows b n = false then Posted e stSize 0 2 u t ∧ t.diags = u.diags
        else t.rings = u.rings ∧ t.diag d = x ∧ (∀ j, j ≠ d → t.diag j = u.diag j) ∧
          ∃ p, t.svc.inProg = u.svc.inProg ++ [p] ∧ p.entry = e ∧ p.result = mkHandle 11 d (u.gen 11 d)) ∧
  (∀ (e : CmdEntry) (s : State), s.accepts e 0x0802 → let u := s.untake e; let d := hIndex (opN e 0)
    Does (.diagAbort e) s fun t =>
      if (u.diag d).st ≠ 1 ∧ (u.diag d).st ≠ 2 ∨ u.lastPeriod (u.diag d) = true then Posted e stState 0 1 u t ∧ t.diags = u.diags
      else InProgress e u t ∧ t.diag d = { u.diag d with abort := true }) ∧
  (∀ (e : CmdEntry) (s : State), s.accepts e 0x0803 → let u := s.untake e; let x := u.diag (hIndex (opN e 0))
    let bars := u.sec.fence.any (fun f => fieldN (tget FenceTerm.none f.terms x.first).tflags 1 1 == 1)
    Does (.diagEnrol e) s fun t =>
      if x.st ≠ 4 ∨ x.verdicts ≠ 0x8000 then Posted e stState 0 1 u t ∧ t.nv = u.nv
      else if (u.enrolOf x.first).present = true ∧ bars = true then Posted e stFence 0 2 u t ∧ t.nv = u.nv
      else Posted e stOk 0 0 u t ∧ t.enrolOf x.first = { seconds := u.reg calSecA, chanKind := x.ckind, dkind := x.kind
                                                         block := x.block, result := x.result } ∧
        ∀ j, j ≠ x.first → t.enrolOf j = u.enrolOf j) ∧
  (∀ (e : CmdEntry) (s : State), s.accepts e 0x0804 → let u := s.untake e; let d := hIndex (opN e 0)
    Does (.diagDel e) s fun t =>
      if (u.diag d).st ≠ 4 then Posted e stBusy 0 1 u t ∧ t.diags = u.diags
      else Posted e stOk 0 0 u t ∧ t.diag d = Diag.none ∧ t.gen 11 d = nextGen (u.gen 11 d)) ∧
  (∀ (d : Fin 256) (s : State), Does (.diagPointEnd d) s fun t => let x := s.diag d.val
    let n := x.points + (x.pass x.points).length
    if x.live = true ∧ x.st = 2 ∧ n < x.npts ∧ s.passDone x = true then
      let sums := (s.chan x.chan).cor.sums
      (∃ pts v, t.diag d.val = { x with points := n, passAt := s.bell.frame, pts := x.pts ++ pts, vamp := v } ∧
        pts.map (·.iamp) = sums.map (fun c => BitVec.ofNat 32 c.iamp) ∧ (x.pts ≠ [] → v = x.vamp)) ∧
      (t.chan x.chan).excK = 0 ∧ (∀ c ∈ (t.chan x.chan).cor.sums, c = Corr.none) ∧ (t.chan x.chan).tones = (x.pass n).map (fun i =>
        (x.v 0x0C 2, (s.pointHz x i).1, (s.pointHz x i).2)) ∧ ∀ j, j ≠ x.chan → t.chan j = s.chan j
    else t = s) ∧
  (∀ (d : Fin 256) (cause : Fin 6) (s : State), Does (.diagRunEnd d cause) s fun t => let x := s.diag d.val
    if x.live = true ∧ (x.st = 1 ∨ x.st = 2) ∧ s.diagEnds x cause.val = true then
      let y := t.diag d.val
      y.st = (if cause.val = 5 then 4 else 3) ∧ y.outcome = cause.val ∧ y.points = (if cause.val = 0 then x.npts else x.points) ∧
        y.pts.length = x.pts.length + (if cause.val = 0 then (s.chan x.chan).cor.sums.length else 0) ∧ y.res = s.resTc x.chan ∧
        y.par = (s.chan x.chan).mdl.par ∧ y.block = x.block ∧ y.addr = x.addr ∧
        (t.chan x.chan).tones = [] ∧ (t.chan x.chan).cor = Correl.none ∧ (cause.val ≠ 5 → t.svc = s.svc ∧ t.rings = s.rings) ∧
        (cause.val = 5 → ∀ p ∈ t.svc.inProg, ¬(opcodeOf p.entry = 0x0801 ∧ p.obj = some (1, x.chan)))
    else t = s) ∧
  (∀ (d : Fin 256) (s : State), Does (.diagResultWrite d) s fun t => let x := s.diag d.val
    if x.live = true ∧ x.st = 3 then
      let r := s.diagResult x
      t.diag d.val = { x with st := 4, verdicts := r.2, result := r.1 } ∧ t.dramBytes (x.addr + 0x40) r.1.length = r.1 ∧
        (∀ a, a < x.addr + 0x40 ∨ x.addr + 0x40 + r.1.length ≤ a → t.dramByte a = s.dramByte a) ∧
        ∀ p ∈ t.svc.inProg, ¬(opcodeOf p.entry = 0x0801 ∧ p.obj = some (1, x.chan))
    else t = s)

/-- For every accepted entry and every state. FENCE.LOAD of a record that does not verify is refused with AUTH and its event, of one
that what runs does not fit with FENCE; else the record waits, commissioning a module without a builder hash, and raising its
counter where it advances to a higher one. In force it replaces the record whole, and each port takes its seal entry.
FENCE.QUERY answers the field, or AUTH without a record. ATTEST needs its areas and waits for the latch, at once where the
Bellwether is lost; the latch freezes the tallies where asked and writes each report. DEBUG.CHAL writes a challenge of the count
and the time; it lapses. DEBUG.RESP uses the challenge up, and with everything right adds its scope, counts, stops every live
channel and drives every gate low, and unlocks with its event once no such stop is outstanding; else AUTH. A burn that ends
raises its slot alone. Each of these rows answers a next state with its own effect where its conditions hold: fenceLoad,
fenceInForce, fenceQuery, attest, tallyLatch, debugChal, debugResp, challengeLapse, rollbackBurn. (R310, R311, R461, R462, R466,
R469, R474, R475, R476, R477) -/
def Obligations.SecurityCommandsVerifyBurnAttestAndUnlock : Prop :=
  (∀ (e : CmdEntry) (got : Option (BitVec 384)) (s : State), s.accepts e 0x0901 → let u := s.untake e
    let a := (opN e 0).toNat; let n := (opN e 1).toNat; let b := u.sigBlock a n
    Does (.fenceLoad e got) s fun t => t.sec.fence = u.sec.fence ∧
      match u.verifyFence a n with
      | none => Posted e stAuth 0 1 u t ∧ t.sec = u.sec ∧ bitOf (t.reg secEvt) 0 = true
      | some body =>
        if u.fenceFits (fenceOf body) = false then Posted e stFence 0 2 u t ∧ t.sec = u.sec
        else t.rings = u.rings ∧ t.sec.fencePend = some (fenceOf body) ∧ t.sec.pendObj = u.dramBytes a n ∧
          t.sec.builderHash = some (u.sec.builderHash.getD (got.getD b.key)) ∧
          t.sec.burns = u.sec.burns ++ (if b.advance = true ∧ tget 0 u.sec.rollback b.slot < (fenceOf body).version then
            [{ slot := b.slot, version := (fenceOf body).version, op := 0x0901, obj := (19, 0) }] else []) ∧
          (b.advance = true → (fenceOf body).version ≤ tget 0 u.sec.rollback b.slot → bitOf (t.reg secEvt) 3 = true) ∧
          t.svc.inProg.map (·.entry) = u.svc.inProg.map (·.entry) ++ [e]) ∧
  (∀ (s : State), Does .fenceInForce s fun t =>
    match s.sec.fencePend with
    | none => t = s
    | some f => t.sec.fence = some f ∧ t.sec.fenceStored = some s.sec.pendObj ∧ t.sec.fencePend = none ∧
        ∀ n < 16, (t.port n).sealPend.getD (t.port n).sealSet = f.seals.getD n ⟨0, 0, 0⟩) ∧
  (∀ (e : CmdEntry) (s : State), s.accepts e 0x0902 → let u := s.untake e
    Does (.fenceQuery e) s fun t => t.sec = u.sec ∧
      match u.sec.fence with
      | none => Posted e stAuth 0 1 u t
      | some f => Posted e stOk (BitVec.ofNat 32 (fenceField f (fld (opN e 0) 0 9) (fld (opN e 1) 0 8))) 0 u t) ∧
  (∀ (e : CmdEntry) (s : State), s.accepts e 0x0903 → let u := s.untake e; let a := (opN e 0).toNat; let r := (opN e 1).toNat
    Does (.attest e) s fun t =>
      if (inWindows a 48 && inWindows r 34624) = false then Posted e stSize 0 1 u t ∧ t.attest = u.attest
      else if u.bell.dead = false then InProgress e u t ∧ t.attest = u.attest ++ [{ nonce := u.dramBytes a 48, addr := r }]
      else t.attest = [] ∧ ∀ p ∈ t.svc.inProg, opcodeOf p.entry ≠ 0x0903) ∧
  (∀ (s : State), Does .tallyLatch s fun t => t.attest = [] ∧ t.tal.freezePend = false ∧
    t.tal.frozen = (if s.tal.freezePend = true then some s.tallyView else s.tal.frozen) ∧ (s.attest = [] → t.dram = s.dram ∧ t.svc = s.svc) ∧
    ∀ x, s.attest = [x] → let b := s.attestBody x.nonce s.tallyView; t.dramBytes x.addr b.length = b ∧
      ∃ k, t.dramBytes (x.addr + b.length) 96 = ecdsaSign identityPriv (sha384 b) k) ∧
  (∀ (e : CmdEntry) (s : State), s.accepts e 0x0904 → let u := s.untake e; let a := (opN e 0).toNat
    Does (.debugChal e) s fun t =>
      if inWindows a 80 = false then Posted e stSize 0 1 u t ∧ t.sec = u.sec
      else Posted e stOk 0 0 u t ∧ ∃ r, let c : Chal := { count := u.sec.debugCount, seconds := u.reg calSecA, random := r }
        t.sec = { u.sec with chal := some c } ∧ t.dramBytes a 80 = c.bytes) ∧
  (∀ (e : CmdEntry) (fuseOk : Bool) (s : State), s.accepts e 0x0905 → let u := s.untake e
    let r := u.dramBytes (opN e 0).toNat 208
    let ok : Prop := opN e 1 = 208 ∧ u.sec.builderHash = some (digestOf ((r.drop 8).take 97)) ∧ u.sec.debugCount ≠ 255 ∧
      ∃ c, u.sec.chal = some c ∧ respVerifies c r = true
    Does (.debugResp e fuseOk) s fun t => t.sec.chal = none ∧
      (¬ok → Posted e stAuth 0 1 u t ∧ t.sec = { u.sec with chal := none } ∧ t.chans = u.chans) ∧
      (ok → t.sec.scope = u.sec.scope ||| bytesAt r 6 2 ∧ t.sec.debugCount = u.sec.debugCount + (if fuseOk = true then 1 else 0) ∧
        (fuseOk = false → bitOf (t.reg secEvt) 5 = true) ∧ (∀ g, (t.gate g).level = false) ∧
        (∀ ch ∈ u.liveChans, (u.chan ch).st = .idle ∨ (u.chan ch).st = .armed → ∃ x ∈ t.col.reacts, x.chan = ch) ∧
        if t.col.reacts.any (fun x => x.rep.cause == 0xF2) = true then t.sec.unlocked = u.sec.unlocked ∧ ∃ p ∈ t.svc.inProg, p.entry = e
        else t.sec.unlocked = true ∧ bitOf (t.reg secEvt) 4 = true)) ∧
  (∀ (s : State), Does .challengeLapse s fun t => t = { s with sec := { s.sec with chal := none } }) ∧
  (∀ (slot : Fin 16) (got : Option (BitVec 8)) (s : State), Does (.rollbackBurn slot got) s fun t =>
    match s.sec.burns.find? (fun b => b.slot == slot.val) with
    | none => t = s
    | some b => tget 0 t.sec.rollback slot.val = max (tget 0 s.sec.rollback slot.val) ((got.map (·.toNat)).getD b.version) ∧
        (∀ j, j ≠ slot.val → tget 0 t.sec.rollback j = tget 0 s.sec.rollback j) ∧ t.sec.burns = s.sec.burns.erase b ∧
        bitOf (t.reg secEvt) 3 = true ∧ (got.isSome = true → bitOf (t.reg secEvt) 5 = true))

/-- For every accepted entry and every state. BIST.RUN is refused while the controller serves a unit (0xF6) or the unit is not free
(1); else the controller moves its work or, where it has none, tests it. The test starts once the work can have moved: a loop
engine holds no token, a neighbour in service stands in for a model engine or a fold supervisor pair; until then nothing
changes. A verdict ends the test: the counts, the two signatures, the unit back in service or, where they differ, retired and in
the health record, and its command no longer in progress. An automatic test starts only with its controller free, no layer open
and its unit waiting. The oldest deferred action whose scope is closed is taken from the queue, a command with its general
checks repeated. Each of these rows answers a next state with its own effect where its conditions hold: bistRun, bistWorkMoved,
bistVerdict, engineAutoTestStart, deferredActionRun. (R312, R404, R420, R425, R524, R525, R526, R527, R529, R530) -/
def Obligations.TestControllersTakeMoveTestAndJudge : Prop :=
  (∀ (e : CmdEntry) (s : State), s.accepts e 0x0A01 → let u := s.untake e; let level := fld (opN e 0) 28 4; let n := fld (opN e 0) 0 17
    let c := ctrlOf level n
    Does (.bistRun e) s fun t =>
      if (u.bist c).st ≠ 0 then Posted e stBusy 0 0xF6 u t ∧ t.bists = u.bists
      else if u.bistFree level n = false then Posted e stState 0 1 u t ∧ t.bists = u.bists
      else InProgress e u t ∧ (t.bist c).level = level ∧ (t.bist c).kind = fld (opN e 0) 24 4 ∧ (t.bist c).unit = n ∧
        (t.bist c).auto = false ∧ (t.bist c).st = (if u.bistMoves level n = true then 1 else 2) ∧ ∀ d, d ≠ c → t.bist d = u.bist d) ∧
  (∀ (c : Fin 9) (s : State), Does (.bistWorkMoved c) s fun t => let b := s.bist c.val
    if b.st ≠ 1 ∨ s.workMoves b.level b.unit = false then t = s
    else (∃ w, t.bist c.val = { b with st := 2, back := s.unitState b.level b.unit, was := w }) ∧ (∀ d, d ≠ c.val → t.bist d = s.bist d) ∧
      (b.level = 1 → (t.hlt b.unit).hstate = 2 ∧ (t.run b.unit).live = false) ∧
      (b.level = 2 → (t.hlt (128 + b.unit)).hstate = 2 ∧ ((s.hlt (128 + b.unit)).hstate = 0 → (s.meng b.unit).covered = false →
        (t.meng b.unit).covered = true ∧ (t.meng (b.unit ^^^ 1)).covering = true)) ∧
      (b.level = 6 → (t.fsPair b.unit).st = 3 ∧ ((s.fsPair b.unit).st = 0 → (t.fsPair (b.unit ^^^ 1)).st = 1)))  ∧
  (∀ (c : Fin 9) (sig : BitVec 64) (s : State), Does (.bistVerdict c sig) s fun t => let b := s.bist c.val; let gold := Config.golden b.level b.kind
    if b.st ≠ 2 then t = s
    else (∃ l, t.bist c.val = { b with st := 0, sig, gold, cntRun := b.cntRun + 1, cntFail := if sig = gold then b.cntFail else b.cntFail + 1
                                       bad := l } ∧ (b.level ≠ 3 → b.level ≠ 4 → l = b.bad)) ∧
      (∀ p ∈ t.svc.inProg, ¬(opcodeOf p.entry = 0x0A01 ∧ p.obj = some (18, b.unit + b.level * 2 ^ 17))) ∧
      (if sig = gold then t.nv = s.nv ∧ (b.level = 1 → b.back ≠ 4 → (t.hlt b.unit).hstate = 0 ∨ (t.hlt b.unit).hstate = 3) ∧
          (b.level = 2 → b.back % 8 ≠ 4 → (t.hlt (128 + b.unit)).hstate = 3) ∧ (b.level = 7 → b.back ≠ 5 → (t.corePair b.unit).st = 2)
        else t.nv.failed = s.nv.failed ++ [(b.level, b.unit)] ∧ (b.level = 1 ∨ b.level = 6 → t.unitState b.level b.unit = 4) ∧
          (b.level = 2 → (t.hlt (128 + b.unit)).hstate = 4) ∧ (b.level = 3 ∨ b.level = 4 → t.badUnit b.level b.unit = true) ∧
          (b.level = 7 → (t.corePair b.unit).st = 5))) ∧
  (∀ (n : Fin 176) (s : State), Does (.engineAutoTestStart n) s fun t => let x := autoUnit n.val; let c := ctrlOf x.1 x.2
    if (s.bist c).st ≠ 0 ∨ s.modOpen = true ∨ s.awaitsTest x.1 x.2 = false then t = s
    else (t.bist c).level = x.1 ∧ (t.bist c).unit = x.2 ∧ (t.bist c).kind = 2 ∧ (t.bist c).auto = true ∧
      (t.bist c).st = (if s.bistMoves x.1 x.2 = true then 1 else 2) ∧ .autoTest n.val ∉ t.svc.defer) ∧
  (∀ (got : Option (BitVec 384)) (peer : Bool) (now : Nat) (s : State), Does (.deferredActionRun got peer now) s fun t =>
    match s.svc.defer.find? (fun d => !s.deferOpen d) with
    | none => t = s
    | some d => let r := s.updSvc (fun x => { x with defer := x.defer.erase d })
      (d = .reselect → t = reselectNow r) ∧ (d = .revert → t = revertCheck r) ∧
      (∀ n, d = .rejoin n → t = if (s.hlt n).hstate = 3 then rejoinEngine n r else r) ∧
      ∀ e blk, d = .command e blk false → blk = [] ∨ s.readBlock e = blk →
        match r.general e with
        | some (st, chk) => Posted e st 0 chk r t
        | none => t = deferredOwn got peer now e r)

/-- For every accepted entry and every state. DOMAIN is refused with STATE when it would switch off a domain that something needs;
else the named domain takes the state asked for, no other changes, the command stays in progress, and the collector ignores the
sources of a domain switched off. Once it has settled the command is no longer in progress, and a domain that is on, but PD46
and PD47, has its sources watched afresh. A domain that loses power without a command is off, its sources are broken, a
gate-drive or flock domain leaves no terminal of it driven; one that is off already changes nothing. Each of these rows answers
a next state with its own effect where its conditions hold: domain, domainSettled, domainPowerLoss. (R31, R32, R33, R34, R35,
R312, R435, R436) -/
def Obligations.DomainsSwitchAndSettleAsCommandedOrLost : Prop :=
  (∀ (e : CmdEntry) (now : Nat) (s : State), s.accepts e 0x0B01 → let u := s.untake e; let d := fld (opN e 0) 0 6; let on := bitOf (opN e 0) 8
    Does (.domain e now) s fun t =>
      if on = false ∧ u.domServes d = true then Posted e stState 0 1 u t ∧ t.dom = u.dom
      else t.domOn d = on ∧ (∀ j < 48, j ≠ d → t.domOn j = u.domOn j) ∧ InProgress e u t ∧
        (on = false → ∀ i ∈ domSources d, i ∈ t.col.unwatched)) ∧
  (∀ (d : Fin 48) (s : State), Does (.domainSettled d) s fun t => t.dom = s.dom ∧
    (∀ p ∈ t.svc.inProg, ¬(opcodeOf p.entry = 0x0B01 ∧ p.obj = some (17, d.val))) ∧
    if s.svc.inProg.any (fun p => p.obj == some (17, d.val)) = true ∧ s.domOn d.val = true ∧ d.val < 46 then
      (∀ i ∈ domSources d.val, i ∉ t.col.unwatched ∧ i ∉ t.col.broken)
    else t.col = s.col) ∧
  (∀ (d : Fin 48) (now : Nat) (s : State), Does (.domainPowerLoss d now) s fun t =>
    if s.domOn d.val = false then t = s
    else t.domOn d.val = false ∧ (d.val ≠ 46 → ∀ i ∈ domSources d.val, i ∈ t.col.broken ∨ i ∈ t.col.unwatched) ∧
      (32 ≤ d.val → d.val < 40 → ∀ n ∈ tkeys s.terms, foldOf n = d.val - 32 → (t.term n).hi = false ∧ (t.term n).lo = false) ∧
      (d.val = 47 → t.boot.calDead = true))

/-- For every state. A latch takes the bus sample, touches no channel of another flock and with its flock off none at all; each due
channel, armed or not, has its program stores applied, an armed one the delivered command taken and the summaries of the last
period gone, and each instance that runs and whose words pass hop 3, A and B alike, holds the set-point after the effective
gain, the feed-forward and the injection; where a motion period begins, the models of the flock latch the bus. Host writes of a
coefficient wait in order, but for a word of the motor unit; LOOP_CFG queues ESH and stages INJ_PT, or is reported without a
group. The oldest ready writes are applied together, a word taking the last of its values, and a program store to the same word
is discarded. A due instance of an armed channel starts with every register 0, and FIRST is gone, and only then. The cutoff
stops the run; an active instance not begun, whose place lay ahead when its channel was armed, is an overrun. A third overrun
and a full FE_COUNT are reported, and nothing else is. In manual the law of the standard images gives MAN_OUT and holds its
integrator; the first automatic run after it starts from IPRESET within ILIM where COEF6 says so. Each of these rows answers a
next state with its own effect where its conditions hold: loopLatch, coefWrite, loopCfgWrite, coefApply, instanceRunStart,
loopCutoff, overrunHealthFailure, followError. (R178, R218, R219, R229, R230, R233, R236, R238, R239, R248, R257, R389) -/
def Obligations.LoopPeriodsLatchStartCutAndSupervise : Prop :=
  (∀ (f : Fin 32) (l : Fin 8) (bus : BitVec 16) (sens : List SenseIn) (fails : List WordFail) (s : State),
    Does (.loopLatch f l bus sens fails) s fun t => (t.fold (f.val / 4)).busS = bus.toNat ∧
      (∀ ch, ch ∉ s.chansOfFlock f.val → t.chan ch = s.chan ch) ∧ (s.flockOn f.val = false → t.chans = s.chans) ∧
      (s.flockOn f.val = true → s.loopIndex l.val % s.nM = 0 → ∀ ch ∈ s.chansOfFlock f.val,
        (t.chan ch).mdl.latch.vbus = BitVec.ofNat 16 (bus.toNat / 2)) ∧
      (s.flockOn f.val = true → ∀ ch ∈ s.due f.val (s.loopIndex l.val), let c := s.chan ch; let d := t.chan ch
        (c.armed = true → d.loop.delivered = false ∧ d.lease.sumA = none ∧ d.lease.sumB = none) ∧
        d.loop.progQ = [] ∧ d.inp.late = 0 ∧ d.loop.first = c.loop.first ∧
        ∀ side, let la := if side = true then d.loop.latB else d.loop.latA
          (s.sideRuns ch side = false → la = if side = true then c.loop.latB else c.loop.latA) ∧
          (fails = [] → c.inp.late = 0 → s.sideRuns ch side = true → let b := s.bankAtLatch ch l.val
            la.sp = gained (if l.val = 0 then c.zc.prev else c.zc.eff) b.spt.sample ∧ la.ff = b.ffw.sample ∧ la.inj = b.inj.sample ∧
              la.bad = 0 ∧ la.idx = s.loopIndex l.val))) ∧
  (∀ (n : Fin 512) (w : Fin 32) (v : W) (s : State), Does (.coefWrite n w v) s fun t =>
    match s.ownerOf n.val with
    | some ch =>
      if (s.chan ch).adm.first ≠ n.val ∨ s.motorWord ch w.val = true then t = s
      else (t.chan ch).loop.coefQ = (s.chan ch).loop.coefQ ++ [(w.val, v)] ∧ t.ws = s.ws ∧ ∀ j, j ≠ ch → t.chan j = s.chan j
    | none => t = s) ∧
  (∀ (n : Fin 512) (v : W) (s : State), Does (.loopCfgWrite n v) s fun t =>
    match s.ownerOf n.val with
    | some ch => let c := s.chan ch
      if c.adm.first ≠ n.val then t = s
      else (t.chan ch).loop.coefQ = c.loop.coefQ ++ [(32, v &&& 15)] ∧ (∀ j, j ≠ ch → t.chan j = s.chan j) ∧
        (match c.grp with
          | some g => (t.chan ch).grp = some { g with injPt := some (fld v 8 2) } ∧ t.regs = s.regs
          | none => (t.chan ch).grp = none ∧ bitOf (t.reg (loopEvt n.val)) 4 = true)
    | none => t = s) ∧
  (∀ (ch : Fin 512) (n : BitVec 16) (s : State), Does (.coefApply ch n) s fun t => let x := (s.chan ch.val).loop; let y := (t.chan ch.val).loop
    if (s.chan ch.val).live = true then
      let now := x.coefQ.take n.toNat
      y.coefQ = x.coefQ.drop n.toNat ∧ (∀ p, p ∈ y.progQ ↔ p ∈ x.progQ ∧ ∀ q ∈ now, q.1 ≠ p.1 / 4) ∧
        ∀ w < 32, t.wsVal ch.val (4 * w) 4 = (match (now.filter (fun q => q.1 == w)).getLast? with
          | some q => q.2.toNat
          | none => s.wsVal ch.val (4 * w) 4)
    else t = s) ∧
  (∀ (e : Fin 128) (ch : Fin 512) (l : Fin 8) (s : State), Does (.instanceRunStart e ch l) s fun t => let c := s.chan ch.val; let i := s.loopIndex l.val
    match c.sideOn e.val, c.loop.img with
    | some side, some im =>
      if c.armed = true ∧ c.dueAt i = true ∧ s.sideRan ch.val side = true ∧ (s.hlt e.val).st ≠ 3 ∧ (s.run e.val).live = false then
        t.run e.val = { Run.none with live := true, ch := ch.val, inst := side, img := im
                                      start := s.placeStart c.flock (e.val % 4) ch.val i } ∧ (∀ j, j ≠ e.val → t.run j = s.run j) ∧
          t.chan ch.val = { c with loop := { c.loop with first := false } } ∧ ∀ j, j ≠ ch.val → t.chan j = s.chan j
      else t = s
    | _, _ => t = s) ∧
  (∀ (e : Fin 128) (l : Fin 8) (s : State), Does (.loopCutoff e l) s fun t => (t.run e.val).live = false ∧ (∀ j, j ≠ e.val → t.run j = s.run j) ∧
    ((s.run e.val).live = true → ((t.chan (s.run e.val).ch).lease.sum (s.run e.val).inst).any (fun x => !x.ended) = true) ∧
    ((s.run e.val).live = false → s.dueArmed (e.val / 4) (s.loopIndex l.val) = [] → t = s) ∧
    ((s.run e.val).live = false → ∀ ch, s.dueArmed (e.val / 4) (s.loopIndex l.val) = [ch] → let c := s.chan ch
      ∀ b, c.sideOn e.val = some b → (c.lease.sum b).isNone = true → c.lease.holder = some b →
        if s.sideRan ch b = true ∧ s.placeAhead ch l.val b = true then
          t.reg (engReg e.val 8) = s.reg (engReg e.val 8) + 1 ∧ (t.chan ch).loop.ovr = true ∧
            (t.chan ch).loop.ovrRun = min 3 (c.loop.ovrRun + 1) ∧ bitOf (t.reg (loopEvt c.adm.first)) 0 = true
        else t = s)) ∧
  (∀ (ch : Fin 512) (sh : Bool) (s : State), Does (.overrunHealthFailure ch sh) s fun t => let c := s.chan ch.val
    if c.armed = true ∧ (if sh = true then c.loop.ovrRunS else c.loop.ovrRun) = 3 then
      bitOf (t.reg (loopEvt c.adm.first)) 1 = true ∧ t.chans = s.chans
    else t = s) ∧
  (∀ (ch : Fin 512) (s : State), Does (.followError ch) s fun t => let c := s.chan ch.val; let a := c.adm.first
    if c.armed = true ∧ s.regField (feLim a) 0 24 ≠ 0 ∧ max 1 (s.regField (feTime a) 0 16) ≤ c.loop.feCount then
      bitOf (t.reg (loopEvt a)) 2 = true ∧ (t.chan ch.val).loop.followErr = true ∧ (t.chan ch.val).st = c.st
    else t = s) ∧
  (∀ (l : Latch) (co : Nat → W) (x : LawState), let y := pidLaw l co x
    (bitOf (co 6) 0 = false → y.u = sx 16 (fld (co 7) 0 16) ∧ y.auto = false ∧ y.st.manual = true ∧
      (l.flags.getLsbD 7 = false → y.st.i = (sat32 x.i).1)) ∧
    (bitOf (co 6) 0 = true → bitOf (co 6) 1 = false → x.manual = true →
      y.st.i = (sat32 (clpaOf (co 8).toInt (sx 16 (fld (co 5) 16 16))).1).1))

/-- For every state. A grant that waits names its side as holder, with MISS 0 (the model's choice, log 48) and the assignment and
handover counted; without one nothing changes. A judgement of a flock whose fold no supervisor serves at its cc only discards
the signatures; else every channel judged (armed, due, its holder's place ahead when it was armed), in a channel table without
repeats, has MISS 0 where the holder renewed and one more, up to 3, where not, and its summaries gone; a channel of another
flock is left alone. An expired lease leaves the channel with no holder and convicts the engine, where it is still in service,
retiring it at the third conviction. A finished resynchronisation, with no layer window open and the channels of one engine in
ascending position, copies the holder's state area onto the standby's, which is then in step. Each of these rows answers a next
state with its own effect where its conditions hold: tokenGrant, sheepdogJudgement, leaseExpiry, resyncCopyDone. (R409, R410,
R412, R416, R420, R421, R426, R428) -/
def Obligations.LeasesAreGrantedJudgedExpiredAndResynchronised : Prop :=
  (∀ (ch : Fin 512) (s : State), Does (.tokenGrant ch) s fun t => let c := s.chan ch.val
    match c.lease.grant with
    | none => t = s
    | some b => (t.chan ch.val).lease.holder = some b ∧ (t.chan ch.val).lease.grant = none ∧ (t.chan ch.val).lease.miss = 0 ∧
        (∀ j, j ≠ ch.val → t.chan j = s.chan j) ∧ (c.adm.first < 512 → c.adm.engA < 4 → c.adm.engB < 4 →
          t.reg (hltReg (c.engOf b) 0x10) = s.reg (hltReg (c.engOf b) 0x10) + 1 ∧
          t.reg (leaseReg c.adm.first 4) = s.reg (leaseReg c.adm.first 4) + 1 ∧ bitOf (t.reg (shdEvt c.flock)) 0 = true)) ∧
  (∀ (f : Fin 32) (l : Fin 8) (s : State), Does (.sheepdogJudgement f l) s fun t =>
    (∀ ch, ch ∉ s.chansOfFlock f.val → (t.chan ch).st = (s.chan ch).st ∧ (t.chan ch).lease.miss = (s.chan ch).lease.miss) ∧
    ∀ ch ∈ s.judged f.val l.val, let c := s.chan ch; ∀ b, c.lease.holder = some b →
      (t.chan ch).lease.sumA = none ∧ (t.chan ch).lease.sumB = none ∧
      (s.foldServed (f.val / 4) (s.judgePt l.val) = false → t.regs = s.regs ∧ (t.chan ch).lease.miss = c.lease.miss) ∧
      (s.foldServed (f.val / 4) (s.judgePt l.val) = true → (tkeys s.chans).Nodup →
        (t.chan ch).lease.miss = (if (c.lease.sum b).any (·.lse) = true then 0 else min 3 (c.lease.miss + 1)))) ∧
  (∀ (ch : Fin 512) (s : State), Does (.leaseExpiry ch) s fun t => let c := s.chan ch.val
    match c.lease.holder with
    | none => t = s
    | some b =>
      if c.armed = true ∧ c.lease.miss = 3 then
        let n := min 255 ((s.hlt (c.engOf b)).convicts + 1); let h := t.hlt (c.engOf b)
        (t.chan ch.val).lease.holder = none ∧
          if s.inSvc (c.engOf b) = true then h.convicts = n ∧ h.cause = 3 ∧ h.st = 0 ∧ h.hstate = (if 3 ≤ n then 4 else 1) ∧
            (t.run (c.engOf b)).live = false
          else h = s.hlt (c.engOf b)
      else t = s) ∧
  (∀ (ch : Fin 512) (s : State), Does (.resyncCopyDone ch) s fun t => let c := s.chan ch.val; let n := s.stateBytes ch.val
    match c.lease.holder with
    | none => t = s
    | some b =>
      let before := (s.chansOfFlock c.flock).any (fun d => s.resyncing d &&
        (s.chan d).engOf (s.chan d).lease.standby == c.engOf (!b) && decide ((s.chan d).adm.first < c.adm.first))
      if c.lease.stby = 1 ∧ before = false ∧ s.modOpen = false then (t.chan ch.val).lease.stby = 0 ∧ t.regs = s.regs ∧ ∀ i < n,
        t.wsByte ch.val (128 + (if b = true then 0 else n) + i) = s.wsByte ch.val (128 + (if b = true then n else 0) + i)
      else t = s)

/-- For every state. A compare miss of a fold supervisor pair already out of service changes nothing. Else it is counted, the pair
is stopped at the first and retired at the second, and a neighbour serving its own fold alone serves both. A module core pair
already out changes nothing; one that stops while active hands its role to a standby in step, which counts a takeover; a standby
that stops leaves the role where it is; with no standby the module stops. A tested supervisor pair takes its own fold back from
a neighbour that served both; a tested core pair whose copy is done is standby. Each of these rows answers a next state with its
own effect where its conditions hold: pairCompareMiss, fsResume, coreStandbyCopyDone. (R425, R426, R427, R529) -/
def Obligations.PairsThatStopAreReplacedOrStopWhatTheyServe : Prop :=
  (∀ (k : Fin 8) (x : List (Fin 512 × Fin 3)) (now : Nat) (s : State), let p := s.fsPair k.val; let g := s.fsPair (k.val ^^^ 1)
    Does (.pairCompareMiss (k.castLE (by decide)) x now) s fun t =>
      if 2 ≤ p.st then t = s
      else (t.fsPair k.val).stops = min 255 (p.stops + 1) ∧ (t.fsPair k.val).st = (if 1 ≤ p.stops then 4 else 2) ∧
        t.reg (fsReg k.val 8) = s.reg (fsReg k.val 8) + 1 ∧
        (t.fsPair (k.val ^^^ 1)).st = (if p.st = 0 ∧ g.st = 0 then 1 else g.st)) ∧
  (∀ (r : Fin 4) (b : Bool) (x : List (Fin 512 × Fin 3)) (now : Nat) (s : State), let c := s.core r.val; let p := c.pair b
    ∀ u : Fin 16, u.val = 8 + 2 * r.val + b2n b → Does (.pairCompareMiss u x now) s fun t =>
      if 3 ≤ p.st then t = s
      else ((t.core r.val).pair b).stops = min 255 (p.stops + 1) ∧ ((t.core r.val).pair b).st = (if 1 ≤ p.stops then 5 else 3) ∧
        (∀ j, j ≠ r.val → t.core j = s.core j) ∧
        if p.st ≠ 0 then (t.core r.val).active = c.active ∧ (t.core r.val).takeovers = c.takeovers
        else if (c.pair (!b)).st = 1 then
          (t.core r.val).active = !b ∧ ((t.core r.val).pair (!b)).st = 0 ∧ (t.core r.val).takeovers = c.takeovers + 1
        else ∃ q ∈ t.col.latched, q.source = srcCore (2 * r.val + b2n b) ∧ q.cls = 4) ∧
  (∀ (k : Fin 8) (s : State), let p := s.fsPair k.val; let g := s.fsPair (k.val ^^^ 1)
    Does (.fsResume k) s fun t =>
      if p.st ≠ 3 ∨ s.testing 6 k.val = true then t = s
      else (t.fsPair k.val) = { p with st := 0 } ∧ (t.fsPair (k.val ^^^ 1)).st = (if g.st = 1 then 0 else g.st) ∧ t.regs = s.regs) ∧
  (∀ (r : Fin 4) (b : Bool) (s : State), let c := s.core r.val
    Does (.coreStandbyCopyDone r b) s fun t =>
      if (c.pair b).st ≠ 2 then t = s
      else ((t.core r.val).pair b).st = 1 ∧ (t.core r.val).pair (!b) = c.pair (!b) ∧ (t.core r.val).active = c.active)

/-- For every state. A loop boundary that begins no motion period changes nothing; one that does latches the bank of every channel
with a valid model, and touches no channel of another flock. A run starts for a live channel of a valid model whose turn it is
on an engine in service with no run in progress, that runs its own flock or covers its neighbour's, with its record, FIRST kept
for the next where the record lacks it, and never otherwise. A run still going at the deadline is stopped and handed over, its
period counted once, up to 3, and with evidence in it the engine is declared failed; an engine with 3 late periods in a row is
declared failed with its count cleared: quarantined or retired, its neighbour in service covering it. A channel two motion
periods without a clamp has the intersection of its last clamp with the hold limits in the queue. A tested engine resumes its
own runs, halted where it has no image, where a thermal period opens, and its neighbour covers no more. Each of these rows
answers a next state with its own effect where its conditions hold: motionLatch, modelRunStart, modelDeadline, clampHoldNarrow,
modelEngineHealthFail, coverEnd. (R315, R316, R317, R320, R342, R343, R344, R424) -/
def Obligations.ModelRunsLatchStartStopAndAreCovered : Prop :=
  (∀ (f : Fin 32) (l : Fin 8) (s : State), Does (.motionLatch f l) s fun t =>
    if s.loopIndex l.val % s.nM ≠ 0 then t = s
    else (t.meng f.val).therm = (s.loopIndex l.val / s.nM % 48 == 0) ∧ (t.meng f.val).stopped = false ∧
      (∀ ch, ch ∉ s.chansOfFlock f.val → t.chan ch = s.chan ch) ∧
      ∀ ch ∈ s.validOf f.val, let x := (s.chan ch).mdl; let y := (t.chan ch).mdl
        y.latBank = x.bank ∧ y.got = false ∧ y.rec_.length = 64 ∧ y.valid = true ∧ y.ran = false ∧ y.latch = x.latch) ∧
  (∀ (e : Fin 32) (ch : Fin 512) (s : State), Does (.modelRunStart e ch) s fun t => let c := s.chan ch.val; let n := 128 + e.val
    let cover := c.flock == (e.val ^^^ 1) && (s.meng e.val).covering && (s.meng c.flock).covered
    let own := c.flock == e.val && !(s.meng e.val).covered
    if c.live = true ∧ c.mdl.valid = true ∧ (s.hlt n).hstate = 0 ∧ (s.hlt n).st ≠ 3 ∧ (own = true ∧ (s.meng e.val).img.isSome = true ∨ cover = true) ∧
        (s.run n).live = false ∧ (s.runList e.val).find? (fun i => !(s.chan i).mdl.ran) = some ch.val then
      t.run n = { Run.none with live := true, ch := ch.val, model := true, cover, bank := c.mdl.latBank, rec_ := c.mdl.rec_
                                img := (s.meng e.val).img.getD 0, start := s.mdlStart e.val ch.val } ∧ (∀ j, j ≠ n → t.run j = s.run j) ∧
        (t.chan ch.val).mdl = { c.mdl with ran := true, first := c.mdl.first && fieldN (c.mdl.rv 2 2) 2 1 == 0 } ∧ ∀ j, j ≠ ch.val → t.chan j = s.chan j
    else t = s) ∧
  (∀ (e : Fin 32) (s : State), Does (.modelDeadline e) s fun t => let n := 128 + e.val; let m := s.meng e.val
    (t.run n).live = false ∧
    if (s.run n).live = true then
      (if ((t.meng e.val).sum.map (·.2.evid)).getD false = true then (s.hlt n).hstate = 0 → (t.hlt n).hstate = 1 ∨ (t.hlt n).hstate = 4
        else t.chans = s.chans ∧ t.health = s.health) ∧
      (t.meng e.val).late = (if m.stopped = true then m.late else min 3 (m.late + 1)) ∧ (t.meng e.val).stopped = true ∧
        (t.meng e.val).sum.map (·.1) = some (s.run n).ch ∧ bitOf (t.reg (engEvt n)) 5 = true
    else (t.meng e.val).late = (if m.stopped = true then m.late else 0) ∧ t.regs = s.regs ∧ t.chans = s.chans) ∧
  (∀ (ch : Fin 512) (s : State), Does (.clampHoldNarrow ch) s fun t => let c := s.chan ch.val; let k := c.foldIx
    let h := rshift (sx 16 (c.mdl.pv 0x36 2) * busScale (s.vnom k) (s.vbus k)) 15
    if c.live = true ∧ c.mdl.valid = true ∧ 2 ≤ c.mdl.without then
      (t.chan ch.val).clampQ = some (min c.mdl.upper h, max c.mdl.lower (-h)) ∧ ∀ j, j ≠ ch.val → t.chan j = s.chan j
    else t = s) ∧
  (∀ (e : Fin 32) (s : State), Does (.modelEngineHealthFail e) s fun t => let n := 128 + e.val; let g := e.val ^^^ 1
    if (s.meng e.val).late ≠ 3 then t = s
    else (t.meng e.val).late = 0 ∧ ((s.hlt n).hstate = 0 → (t.hlt n).convicts = min 255 ((s.hlt n).convicts + 1) ∧ (t.hlt n).cause = 2 ∧
      (t.hlt n).hstate = (if 2 ≤ (s.hlt n).convicts then 4 else 1) ∧ (t.run n).live = false ∧
      ((s.hlt (128 + g)).hstate = 0 → (t.meng e.val).covered = true ∧ (t.meng g).covering = true))) ∧
  (∀ (e : Fin 32) (l : Fin 8) (s : State), Does (.coverEnd e l) s fun t => let n := 128 + e.val; let g := e.val ^^^ 1; let i := s.loopIndex l.val
    if (s.hlt n).hstate ≠ 3 ∨ i % (48 * s.nM) ≠ 0 ∨ (s.meng e.val).latchAt = i then t = s
    else (t.hlt n).hstate = 0 ∧ (t.hlt n).st = (if (s.meng e.val).img.isSome = true then 1 else 0) ∧ (t.meng e.val).covered = false ∧
      ((s.meng e.val).covered = true → (t.meng g).covering = false ∧ bitOf (t.reg (engEvt (128 + g))) 4 = true))

/-- For every state. A build that ends on a live channel not being deleted leaves the bank in the one not active and the swap
pending; a pending swap makes the other bank and the parameters and resistance it was built from active, is counted and ends the
MODEL.TABLE that it carries, once, and no other; without one nothing changes. With 64 fits the count starts again, and the mean
is either suspect or the new resistance, which builds at once or after the pending swap. A write to a monitor's settings waits,
on its own channel alone. A thermal period with 20 mA at FW joins the drift window; the 64th shows the impedance, and counts in
a row up to 8 the windows that leave the expected value by more than PM_TOL; the eighth is reported once. MODEL.TABLE of a bad
table is refused with SIZE, of one past the fence with FENCE, and an accepted one starts a build. Each of these rows answers a
next state with its own effect where its conditions hold: tableBuildDone, tableSwap, resRefit, pmCfgWrite, impDrift, modelTable.
(R327, R338, R339, R340, R341, R342, R370) -/
def Obligations.ModelTablesAreBuiltSwappedAndRefitted : Prop :=
  (∀ (ch : Fin 512) (s : State), Does (.tableBuildDone ch) s fun t => let c := s.chan ch.val; let b := c.tableBytes c.mdl.job
    if c.mdl.building = true ∧ c.live = true ∧ c.st ≠ .deleting then
      (t.chan ch.val).mdl = (if c.mdl.bank = true then { c.mdl with building := false, swapPend := true, bk0 := c.mdl.job }
        else { c.mdl with building := false, swapPend := true, bk1 := c.mdl.job }) ∧
        ∀ i, (h : i < b.length) → t.wsByte ch.val (c.bankAt (!c.mdl.bank) + i) = b[i]
    else t = s) ∧
  (∀ (ch : Fin 512) (s : State), Does (.tableSwap ch) s fun t => let c := s.chan ch.val; let y := (t.chan ch.val).mdl; let b := c.mdl.src (!c.mdl.bank)
    if c.mdl.swapPend = true ∧ c.st ≠ .deleting then
      y.swapPend = false ∧ y.swapped = true ∧ y.bank = !c.mdl.bank ∧ y.par = b.par ∧ y.res = b.res ∧
        (c.mdl.refitWait = true → y.building = true ∧ y.refitWait = false) ∧
        t.reg (mdlReg c.adm.first 0x28) = s.reg (mdlReg c.adm.first 0x28) + 1 ∧
        (b.own = true → y.bk0.own = false ∧ y.bk1.own = false ∧ (c.mdl.refitWait = false → y.job.own = false)) ∧
        (b.own = true → ∀ p ∈ t.svc.inProg, ¬(opcodeOf p.entry = 0x0402 ∧ p.obj = some (3, ch.val))) ∧
        (b.own = false → t.svc = s.svc ∧ t.rings = s.rings)
    else t = s) ∧
  (∀ (ch : Fin 512) (s : State), Does (.resRefit ch) s fun t => let c := s.chan ch.val; let x := c.mdl; let y := (t.chan ch.val).mdl
    let v := (roundDiv x.fitSum 64).toNat; let tab := x.pv 0x10 4
    if c.live = true ∧ 64 ≤ x.fitN then
      y.fitN = 0 ∧ y.fitSum = 0 ∧ y.par = x.par ∧
      if tab < 10 * absI ((v : Int) - tab) then y.resN = x.resN ∧ y.building = x.building ∧ bitOf (t.reg (mdlEvt c.adm.first)) 6 = true
      else y.resN = v ∧ t.reg (mdlReg c.adm.first 0x24) = s.reg (mdlReg c.adm.first 0x24) + 1 ∧
        (if x.swapPend = true then y.refitWait = true else y.building = true)
    else t = s) ∧
  (∀ (n : Fin 512) (reg : Fin 2) (v : W) (s : State), Does (.pmCfgWrite n reg v) s fun t => t.regs = s.regs ∧
    match s.ownerOf n.val with
    | some ch =>
      if (s.chan ch).adm.first ≠ n.val then t = s
      else (∀ j, j ≠ ch → t.chan j = s.chan j) ∧
        tget none (t.chan ch).mon.pend (4 * reg.val) = some (v &&& (if reg.val = 0 then 0xFFFF else 0xFFFF00FF))
    | none => t = s) ∧
  (∀ (ch : Fin 512) (s : State), Does (.impDrift ch) s fun t => let c := s.chan ch.val
    let rep := mkRep (srcFlock c.flock) 4 3 1 1 ch.val
    if c.armed = true ∧ c.mon.drift = 8 then
      t.chans = s.chans ∧ (s.causeLive rep = true → t = s) ∧ (s.causeLive rep = false → bitOf (t.reg (pmEvt c.adm.first)) 3 = true)
    else t = s) ∧
  (∀ (ch : Nat) (s : State), let c := s.chan ch; let x := c.mon; let a := c.adm.first; let t := fwWindow ch s
    if x.acc.fw.iamp < 20000 then t = s
    else (∀ j, j ≠ ch → t.chan j = s.chan j) ∧
      if x.winN + 1 < 64 then t.chan ch = { c with mon := { x with win := x.win.plus x.acc.fw, winN := x.winN + 1 } } ∧ t.regs = s.regs
      else
        let z := ((x.win.plus x.acc.fw).z 6).getD s.freePair
        let y := expected (s.resTc ch) c.mdl c.adm.motion (10 * s.regField (pmReg a 0) 0 16) s.freePair
        let tol : Int := s.regField (pmReg a 4) 0 8
        (t.chan ch).mon = { x with win := Corr.none, winN := 0, drift :=
          if tol * tol * (y.1 * y.1 + y.2 * y.2) < 10000 * ((z.1 - y.1) * (z.1 - y.1) + (z.2 - y.2) * (z.2 - y.2)) then min 8 (x.drift + 1)
          else 0 } ∧
        t.reg (pmReg a 8) = BitVec.ofInt 16 (sat16 (roundDiv z.1 1000)).1 ++ BitVec.ofInt 16 (sat16 (roundDiv z.2 1000)).1) ∧
  (∀ (e : CmdEntry) (s : State), s.accepts e 0x0402 → let u := s.untake e; let ch := hIndex (opN e 0)
    let b := u.dramBytes (opN e 1).toNat (opN e 2).toNat; let p : Mdl := { Mdl.none with par := b }
    Does (.modelTable e) s fun t =>
      if u.tableOk ch (opN e 1) (opN e 2) = false then Posted e stSize 0 1 u t ∧ t.chans = u.chans
      else if u.sec.fence.any (fun f => fenceTableOk f (u.chan ch) p) = false then Posted e stFence 0 2 u t ∧ t.chans = u.chans
      else InProgress e u t ∧ (t.chan ch).mdl.building = true ∧ (t.chan ch).mdl.parN = b ∧ (t.chan ch).mdl.resN = p.pv 0x10 4 ∧
        (t.chan ch).mdl.fitN = 0 ∧ (t.chan ch).mdl.par = (u.chan ch).mdl.par ∧ ∀ j, j ≠ ch → t.chan j = u.chan j)

/-- For every state. A port that is off or settling reads 0 on both values. In voltage mode a difference saturates to 24 bits before
the calibration; one beyond ± 2^23 steps adds 1 to the count and sets OVERRANGE, one within leaves the count. In position mode a
sum below the minimum shows the last primary value formed and an input past full scale is counted with its event. A write to the
settings of a port that an armed channel claims, or of a mode that does not exist, changes no setting and sets CFG_IGNORED; any
other waits masked for the next latch strobe. Settling ends where it is said to. An illumination fault shows its event bit
unless the port settles. Each of these rows answers a next state with its own effect where its conditions hold: snsConfigWrite,
senseSettled, illFault. (R347, R348, R350, R351, R353, R355, R358) -/
def Obligations.SensePortsConvertSaturateAndKeepTheirSettings : Prop :=
  (∀ (x : SenseIn) (s : State), let n := x.port.val; (s.sns n).pend = [] → let t := latchPort n x s
    (s.flockOn (n / 8) = false ∨ (s.sns n).settling = true → t.reg (snsReg n 0x14) = 0 ∧ t.reg (snsReg n 0x18) = 0) ∧
    (s.flockOn (n / 8) = true → (s.sns n).settling = false →
      (s.snsMode n = 2 → let d := x.a.toInt - x.b.toInt
        let out := decide (d < -8388608 ∨ 8388608 < d)
        t.reg (snsReg n 0x14) = (s.calibrated n (max (-8388608) (min 8388607 d)) 1).zeroExtend 32 ∧
        t.reg (snsReg n 0x28) = s.reg (snsReg n 0x28) + (if out = true then 1 else 0) ∧ (out = true → bitOf (t.reg (snsEvt n)) 0 = true)) ∧
      (s.snsMode n = 1 → let sum := min x.a.toNat 4613734 + min x.b.toNat 4613734
        let out := decide (4613734 < x.a.toNat ∨ 4613734 < x.b.toNat)
        (sum < s.regField (snsReg n 0x04) 8 8 * 32768 → t.reg (snsReg n 0x14) = (s.sns n).lastGood.zeroExtend 32 ∧ (s.causeLive (s.snsRep n 3 2) = false → bitOf (t.reg (snsEvt n)) 3 = true)) ∧
        (¬sum < s.regField (snsReg n 0x04) 8 8 * 32768 → sum ≠ 0 → t.reg (snsReg n 0x14) =
          (s.calibrated n (((min x.a.toNat 4613734 : Nat) - (min x.b.toNat 4613734 : Nat) : Int) * 2 ^ 23) sum).zeroExtend 32) ∧
        t.reg (snsReg n 0x28) = s.reg (snsReg n 0x28) + (if out = true then 1 else 0) ∧ (out = true → bitOf (t.reg (snsEvt n)) 0 = true)))) ∧
  (∀ (n : Fin 256) (reg : Fin 5) (v : W) (s : State), Does (.snsConfigWrite n reg v) s fun t =>
    let m : W := if reg.val = 0 then 0x197 else if reg.val = 1 then 0x80FFFFFF else if reg.val = 2 then 0xFFFF else if reg.val = 3 then 0xFFFFFF else 0xFFFFFFFF
    if (s.snsArmed n.val).isSome = true ∨ (reg.val = 0 ∧ 5 ≤ fld v 0 3) then t.sense = s.sense ∧ bitOf (t.reg (snsEvt n.val)) 5 = true
    else t.regs = s.regs ∧ tget none (t.sns n.val).pend (4 * reg.val) = some (v &&& m) ∧ ∀ j, j ≠ n.val → t.sns j = s.sns j) ∧
  (∀ (n : Fin 256) (s : State), Does (.senseSettled n) s fun t =>
    t.sns n.val = { s.sns n.val with settling := false } ∧ (∀ j, j ≠ n.val → t.sns j = s.sns j) ∧ t.regs = s.regs) ∧
  (∀ (n : Fin 256) (held : Bool) (s : State), Does (.illFault n held) s fun t =>
    if (s.sns n.val).settling = true then t = s
    else t.sense = s.sense ∧ (held = true → s.causeLive (s.snsRep n.val 4 2) = false → bitOf (t.reg (snsEvt n.val)) 4 = true) ∧
      (held = false → t.regs = s.regs))

/-- For every channel and state; without a motor object nothing changes. The end of ALIGN_TIME starts RAMP at F0 with the step that
follows ALIGN_STEP posted. A forced step that is due posts the next step where none is posted. Eight plausible crossings at the
handover frequency put the motor in RUN from the last one. A locked rotor, or the end of RAMP_TIME and RAMP_HOLD, stops by its
cause where no retry is left, and else goes to COAST with one retry less. Blanking ends once the timer's window and its share of
the interval are past. A confirmed crossing, after the present period's sample where that is given, is judged once: outside RAMP
and RUN, in blanking or after a posted step nothing changes; CONFIRM samples in the opposite sense are reverse evidence, once;
too late it is rejected and the run judged; too early it waits; else it is taken at its time, but not before a quarter of the
interval. Each of these rows answers a next state with its own effect where its conditions hold: alignEnd, forcedStep,
motorHandover, lockedRotor, rampHoldEnd, blankEnd, crossingConfirmed. (R374, R376, R380, R381, R382, R383, R387) -/
def Obligations.MotorsAlignRampAndAcceptTheirCrossings : Prop :=
  (∀ (ch : Fin 512) (now : Nat) (s : State), Does (.alignEnd ch now) s fun t =>
    match s.motorOf ch.val with
    | none => t = s
    | some i => let m := s.motor i
      if m.mstate = 1 ∧ m.since + msCc m.alignMs ≤ now then (t.motor i).mstate = 2 ∧ (t.motor i).since = now ∧ (t.motor i).freq = m.f0 ∧ (t.motor i).posted = true ∧
        (t.motor i).plaus = 0 ∧ (t.chan ch.val).stepPend = [(nextStep m.dir m.alignStep, now)]
      else t = s) ∧
  (∀ (ch : Fin 512) (now : Nat) (s : State), Does (.forcedStep ch now) s fun t =>
    match s.motorOf ch.val with
    | none => t = s
    | some i => let m := s.motor i
      if m.mstate = 2 ∧ m.posted = false ∧ m.isDue now = true then t.motor i = { m with posted := true } ∧
        (t.chan ch.val).stepPend = [(nextStep m.dir (s.chan ch.val).step, now)]
      else t = s) ∧
  (∀ (ch : Fin 512) (now : Nat) (s : State), Does (.motorHandover ch now) s fun t =>
    match s.motorOf ch.val with
    | none => t = s
    | some i => let m := s.motor i
      match m.tz with
      | none => t = s
      | some z =>
        if m.mstate = 2 ∧ m.handF ≤ m.freq ∧ 8 ≤ m.plaus then
          (t.motor i).mstate = 3 ∧ (t.motor i).since = now ∧ (t.motor i).tzPrev = z ∧ (t.motor i).misses = 0 ∧
            (t.motor i).due = some (z + m.tp * (32 - m.adv) / 64) ∧ bitOf (t.reg (motEvt (s.chan ch.val).adm.first)) 0 = true
        else t = s) ∧
  (∀ (ch : Fin 512) (now : Nat) (s : State) (row : Instr) (bit : Nat),
    (row, bit) ∈ [(Instr.lockedRotor ch now, 3), (.rampHoldEnd ch now, 4)] → Does row s fun t =>
    match s.motorOf ch.val with
    | none => t = s
    | some i => let m := s.motor i; let p := if s.tooLate ch.val m now = true then (s.chan ch.val).stepPend else []
      if m.mstate = 2 ∧ (bit = 3 → m.lockWin ≤ m.noPlaus) ∧ (bit = 4 → m.since + msCc (m.rampMs + m.holdMs) ≤ now) then
        if m.left = 0 then (t.motor i).mstate = 2 ∧ (t.chan ch.val).stepPend = p ∧ bitOf (t.reg (motEvt (s.chan ch.val).adm.first)) bit = true
        else (t.motor i).mstate = 4 ∧ (t.motor i).left = m.left - 1 ∧ (t.motor i).cause = bit ∧ (t.motor i).since = now ∧
          (t.chan ch.val).stepPend = p ++ [(7, now)] ∧ t.regs = s.regs
      else t = s) ∧
  (∀ (ch : Fin 512) (now : Nat) (s : State), Does (.blankEnd ch now) s fun t =>
    match s.motorOf ch.val with
    | none => t = s
    | some i =>
      if s.blankPast (s.motor i) now = true then
        t.motor i = { s.motor i with blank := false } ∧ (∀ j, j ≠ i → t.motor j = s.motor j) ∧ t.chans = s.chans
      else t = s) ∧
  (∀ (ch : Fin 512) (now : Nat) (x : Option FloatIn) (r : State), Does (.crossingConfirmed ch now x) r fun t =>
    let s := takeSample ch.val x r
    match s.motorOf ch.val with
    | none => t = r
    | some i => let m := s.motor i; let a := (s.chan ch.val).adm.first
      if (m.mstate ≠ 2 ∧ m.mstate ≠ 3) ∨ m.tz.isSome = true ∨ m.blank = true ∨ (m.mstate = 3 ∧ m.posted = true) then t = s
      else if m.confirm ≤ m.oppLen ∧ 0 < m.oppLen ∧ m.oppJudged = false then
        t.motor i = { m with revEv := true, oppJudged := true } ∧ t.reg (motReg a 0x18) = s.reg (motReg a 0x18) + 1
      else if m.runLen < m.confirm ∨ m.judged = true then t = s
      else if 3 * m.tp < 4 * (m.runAt - m.tc) then t.motor i = { m with judged := true } ∧ t.reg (motReg a 0x18) = s.reg (motReg a 0x18) + 1
      else if 4 * (now - m.tc) < m.tp then t = s
      else (t.motor i).tz = some (max m.runAt (m.tc + m.tp / 4)) ∧ t.reg (motReg a 0x10) = s.reg (motReg a 0x10) + 1 ∧
        (m.mstate = 2 → (t.motor i).plaus = min 8 (m.plaus + 1) ∧ (t.motor i).noPlaus = 0))

/-- For every channel and state; without a motor object nothing changes. In RUN a crossing posts the next step once; without one a
synthetic commutation posts it, counting the miss and as unconfirmed a run not yet judged, unless the interval so renewed is an
overspeed or a loss of synchronism, or the misses are too many. Reversal seen often enough in RAMP or RUN brakes: step 7 is
posted after what is still to take effect. In BRAKE step 7 turns on the low side of every leg that no row 1 to 3 of R181 holds,
in any other state it leaves each off. The end of BRAKE_TIME is the event REVERSE of class C2, once; the end of COAST_TIME
enters ALIGN with its step posted, its cause and RETRY shown and the retry counted. A second in RUN gives the retries back. In
any other state, or before its time, each of them changes nothing. Each of these rows answers a next state with its own effect
where its conditions hold: commutationPost, syntheticCommutation, reverse, brakeEnd, coastEnd, retryReload, carrierBoundary.
(R165, R378, R379, R384, R385, R386, R387, R388) -/
def Obligations.MotorsRunBrakeCoastAndRetry : Prop :=
  (∀ (ch : Fin 512) (now : Nat) (s : State), Does (.commutationPost ch now) s fun t =>
    match s.motorOf ch.val with
    | none => t = s
    | some i => let m := s.motor i
      if m.mstate = 3 ∧ m.tz.isSome = true ∧ m.posted = false ∧ m.isDue now = true then
        t.motor i = { m with posted := true } ∧ (t.chan ch.val).stepPend = [(nextStep m.dir (s.chan ch.val).step, now)]
      else t = s) ∧
  (∀ (ch : Fin 512) (now : Nat) (s : State), Does (.syntheticCommutation ch now) s fun t =>
    match s.motorOf ch.val with
    | none => t = s
    | some i => let m := s.motor i; let a := (s.chan ch.val).adm.first
      if m.mstate = 3 ∧ m.tz = none ∧ m.posted = false ∧ 2 * m.tc + 3 * m.tp ≤ 2 * (now + 64) then
        let tp := m.predict (3 * m.tp / 2 : Nat); let w := (t.chan ch.val).stepPend; let evt := t.reg (motEvt a)
        (t.motor i).misses = m.misses + 1 ∧ (t.motor i).tp = tp ∧
          (if tp < 12800000000 / (s.frate * s.m * (s.chan ch.val).k) then w = [] ∧ bitOf evt 6 = true
           else if m.jump * m.tp < 64 * (if m.tp ≤ tp then tp - m.tp else m.tp - tp) ∨ m.missMax ≤ m.misses + 1 then
             if m.revEv = true ∧ m.revN ≤ m.revRun + 1 then (t.motor i).mstate = 5 ∧ w = [(7, now)]
             else if m.left = 0 then w = [] ∧ bitOf evt 2 = true
             else (t.motor i).mstate = 4 ∧ (t.motor i).left = m.left - 1 ∧ w = [(7, now)]
           else w = [(nextStep m.dir (s.chan ch.val).step, now)] ∧ (t.motor i).posted = true ∧ (t.motor i).mstate = 3) ∧
          t.reg (motReg a 0x14) = s.reg (motReg a 0x14) + 1 ∧
          t.reg (motReg a 0x1C) = s.reg (motReg a 0x1C) + (if m.runLen ≠ 0 ∧ m.judged = false then 1 else 0)
      else t = s) ∧
  (∀ (ch : Fin 512) (now : Nat) (s : State), Does (.reverse ch now) s fun t =>
    match s.motorOf ch.val with
    | none => t = s
    | some i => let m := s.motor i
      if (m.mstate = 2 ∨ m.mstate = 3) ∧ m.revN ≤ m.revRun then
        (t.motor i).mstate = 5 ∧ (t.motor i).left = m.left ∧ (t.motor i).due = none ∧ (t.motor i).since = now ∧ (t.motor i).cause = 0 ∧ t.regs = s.regs ∧
          (t.chan ch.val).stepPend = (if s.tooLate ch.val m now = true then (s.chan ch.val).stepPend else []) ++ [(7, now)]
      else t = s) ∧
  (∀ (ch : Fin 512) (now : Nat) (s : State), Does (.brakeEnd ch now) s fun t =>
    match s.motorOf ch.val with
    | none => t = s
    | some i => let m := s.motor i
      if m.mstate = 5 ∧ (s.chan ch.val).stepPend = [] ∧ m.since + msCc m.brakeMs ≤ now ∧ m.cause = 0 then
        bitOf (t.reg (motEvt (s.chan ch.val).adm.first)) 5 = true ∧ t.motor i = { m with cause := 5 } ∧ ∃ q ∈ t.col.srcQ, q.cls = 2 ∧ q.okind = 1 ∧ q.object = ch.val
      else t = s) ∧
  (∀ (ch : Fin 512) (now : Nat) (s : State), Does (.coastEnd ch now) s fun t =>
    match s.motorOf ch.val with
    | none => t = s
    | some i => let m := s.motor i; let a := (s.chan ch.val).adm.first
      if m.mstate = 4 ∧ m.since + msCc m.coastMs ≤ now then
        (t.motor i).mstate = 1 ∧ (t.motor i).since = now ∧ (t.motor i).left = m.left ∧ (t.motor i).due = none ∧
          (t.chan ch.val).stepPend = [(m.alignStep, now)] ∧ bitOf (t.reg (motEvt a)) 1 = true ∧
          t.reg (motReg a 0x20) = s.reg (motReg a 0x20) + 1
      else t = s) ∧
  (∀ (ch : Fin 512) (now : Nat) (s : State), Does (.retryReload ch now) s fun t =>
    match s.motorOf ch.val with
    | none => t = s
    | some i => let m := s.motor i
      if m.mstate = 3 ∧ m.since + msCc 1000 ≤ now then
        t.motor i = { m with left := m.retries, since := m.since + msCc 1000 } ∧ t.chans = s.chans
      else t = s) ∧
  (∀ (ch : Fin 512) (n : Fin 64) (late : Bool) (legs : List LegIn) (i : Nat) (s : State), let c := s.chan ch.val; let a := c.adm.first
    s.motorOf ch.val = some i → c.adm.kind = 3 → c.md.mode = 4 → c.st ≠ .free → c.step = 7 → n.val < s.m * c.k →
    Does (.carrierBoundary (.channel ch n) late 0 none legs) s fun t => ∀ j < 3, (clearDone ch.val s).override ch.val (a + j) = none →
      (t.term (a + j)).drive = if (s.motor i).mstate = 5 then .low else .off)

/-- For every ring and state. A doorbell of 1 up to the free credits on a ring enabled and not halted announces that many and grants
their credits; any other announces none and sets BAD_DOORBELL. Announced entries are fetched one by one. The next command is
taken in ring turn only in phase 6 with none taken, a barrier waits for every command in progress, and an opcode of no table is
refused at once. The four words of the oldest completion are written at its place and returns its credit, with a message for a
command that asked; a ring whose queue cannot be written loses it. A head within what is written is taken, any other ignored. A
freeze asks for a latch of the tallies, an unfreeze shows the live ones. Each of these rows answers a next state with its own
effect where its conditions hold: doorbell, commandFetch, commandTake, completionWrite, cqHeadWrite, tallyFreeze, tallyUnfreeze.
(R291, R294, R296, R452, R455, R511, R512, R513, R514, R516, R518) -/
def Obligations.RingsAnnounceFetchTakeAndComplete : Prop :=
  (∀ (r : Fin 8) (v : W) (s : State), let n := fld v 0 13
    Does (.doorbell r v) s fun t => t.rings = s.rings ∧ t.reg (sqFetch r.val) = s.reg (sqFetch r.val) ∧
      if s.ringOn r.val = true ∧ s.ringHalted r.val = false ∧ 1 ≤ n ∧ n ≤ s.freeCr r.val then
        t.reg (sqTail r.val) = s.reg (sqTail r.val) + BitVec.ofNat 32 n ∧ t.reg (crGranted r.val) = s.reg (crGranted r.val) + BitVec.ofNat 32 n
      else t.reg (sqTail r.val) = s.reg (sqTail r.val) ∧ t.reg (crGranted r.val) = s.reg (crGranted r.val) ∧ bitOf (t.reg hostEvt) 2 = true) ∧
  (∀ (e : CmdEntry) (s : State), let r := e.ring.val
    Does (.commandFetch e) s fun t =>
      if s.ringOn r = true ∧ s.ringHalted r = false ∧ s.reg (sqFetch r) ≠ s.reg (sqTail r) then
        t.reg (sqFetch r) = s.reg (sqFetch r) + 1 ∧ t.ring r = { s.ring r with fetched := (s.ring r).fetched ++ [e] } ∧ t.svc = s.svc
      else t = s) ∧
  (∀ (s : State), Does .commandTake s fun t => t.regs = s.regs ∧
    if s.boot.phase ≠ 6 ∨ s.svc.taken.isSome = true then t = s
    else match ((List.range 8).map (fun i => (s.svc.lastRing + 1 + i) % 8)).find? (fun r => !(s.ring r).fetched.isEmpty) with
      | none => t = s
      | some r => ∀ e l, (s.ring r).fetched = e :: l →
        if bitOf e.word0 8 = true ∧ s.anyInProgress = true then t = s
        else if (nopsOf (opcodeOf e)).isNone = true then t.svc.taken = none ∧ t.svc.lastRing = r ∧ (t.ring r).fetched = l ∧ Posted e stState 0 0xF0 s t
        else t.svc.taken = some e ∧ t.svc.takenBlk = s.readBlock e ∧ t.svc.lastRing = r ∧ (t.ring r).fetched = l ∧
          (t.ring r).done = (s.ring r).done ∧ ∀ j, j ≠ r → t.ring j = s.ring j) ∧
  (∀ (r : Fin 8) (s : State), let x := s.ring r.val
    Does (.completionWrite r) s fun t =>
      match x.done with
      | [] => t = s
      | c :: l => (t.ring r.val).done = l ∧ (∀ j, j ≠ r.val → t.ring j = s.ring j) ∧
        if x.lost = true then t.regs = s.regs ∧ (t.ring r.val).cq = x.cq
        else tget [] (t.ring r.val).cq ((s.reg (cqTail r.val)).toNat % s.ringS r.val) = c.words r.val ∧
          t.reg (cqTail r.val) = s.reg (cqTail r.val) + 1 ∧ t.reg (crReturned r.val) = s.reg (crReturned r.val) + 1 ∧
          (c.irq = true → bitOf (tget 1 s.host.msixTable (4 * r.val + 3)) 0 = false → t.host.msgs.getLast? = some r.val)) ∧
  (∀ (r : Fin 8) (v : W) (s : State), let h := s.reg (cqHead r.val)
    Does (.cqHeadWrite r v) s fun t =>
      if (v - h).toNat ≤ (s.reg (cqTail r.val) - h).toNat then t = s.setReg (cqHead r.val) v
      else t.reg (cqHead r.val) = h ∧ t.rings = s.rings ∧ bitOf (t.reg hostEvt) 5 = true) ∧
  (∀ s : State, Does .tallyFreeze s fun t => t.tal = { s.tal with freezePend := true } ∧ t.reg talCtrl = 1 ∧ t.wide = s.wide) ∧
  (∀ s : State, Does .tallyUnfreeze s fun t => t.tal = { s.tal with freezePend := false, frozen := none } ∧ t.reg talCtrl = 0 ∧ t.wide = s.wide)

/-- For every ring and state. RING_ENABLE on a ring that is off leaves its four counters 0 and the ring on. While ENABLE is 1 a
register write of 4 bytes to RING_SIZE, SQ_BASE or CQ_BASE (low or high word) changes no register but HOST_EVT, where
CFG_IGNORED is set. So does RING_DISABLE while the ring holds credits and is not halted; on a ring that holds none, or is
halted, it clears ENABLE. Each of these rows answers a next state with its own effect where its conditions hold: ringEnable,
registerWrite, ringDisable. (R515) -/
def Obligations.RingEnableClearsAndGuardsTheRingRegisters : Prop :=
  (∀ (r : Fin 8) (s : State), s.ringOn r.val = false → Does (.ringEnable r) s fun t => t.ringOn r.val = true ∧
    t.reg (sqTail r.val) = 0 ∧ t.reg (sqFetch r.val) = 0 ∧ t.reg (cqTail r.val) = 0 ∧ t.reg (cqHead r.val) = 0) ∧
  (∀ (r : Fin 8) (o : Nat) (v : W) (s : State), o ∈ [0x04, 0x08, 0x0C, 0x10, 0x14] → s.ringOn r.val = true →
    Does (.registerWrite (BitVec.ofNat 25 (aRing r.val + o)) (leBytes 4 v.toNat)) s fun t =>
      t.rings = s.rings ∧ (∀ a, a ≠ hostEvt → t.reg a = s.reg a) ∧ bitOf (t.reg hostEvt) 5 = true) ∧
  (∀ (r : Fin 8) (s : State), s.ringOn r.val = true → Does (.ringDisable r) s fun t =>
    if s.heldCr r.val ≠ 0 ∧ s.ringHalted r.val = false then
      t.rings = s.rings ∧ (∀ a, a ≠ hostEvt → t.reg a = s.reg a) ∧ bitOf (t.reg hostEvt) 5 = true
    else t.ringOn r.val = false)

/-- For every state. An aligned read of 4 or 8 bytes answers the words, the lower first, latches the HI word of a LO word and
changes no register. A write not aligned, or not of 4 or 8 bytes, only sets BAD_ACCESS; a 1 written to a bit of an event
register clears it. A DMA failure halts an enabled ring, is reported in class C1 each time, and loses the queue where it can no
longer be written. A host reset turns every ring off with its credits returned and its commands silent, takes no command and
clears the message table; the loss of PCLK is reported in class C1 beside it. An acknowledge sends one message again for each
named vector that pends and is not masked. A trained link shows its width and speed alone. An uncorrectable DRAM error is
reported in class C1. A maintenance request is answered and counted, or counted as dropped. Each of these rows answers a next
state with its own effect where its conditions hold: loWordRead, registerWrite, ringDmaFailure, hostReset, intAckWrite,
pcieLinkTrained, dramUncorrectable, maintenanceRequest. (R10, R127, R503, R504, R510, R516, R518, R519, R521, R522) -/
def Obligations.TheHostSideReadsWritesResetsAndAcknowledges : Prop :=
  (∀ (a : BitVec 25) (s : State), a.toNat % 4 = 0 →
    Does (.loWordRead a 2) s (fun t => t.host.readResp = some (leBytes 4 (s.readWord a.toNat).toNat) ∧ t.regs = s.regs ∧
      ∀ v, s.pairHi a.toNat = some v → tget 0 t.hiLatch a.toNat = v) ∧
    Does (.loWordRead a 3) s (fun t => t.host.readResp = some (leBytes 4 (s.readWord a.toNat).toNat ++
      leBytes 4 ((readEffect a.toNat s).readWord (a.toNat + 4)).toNat) ∧ t.regs = s.regs)) ∧
  (∀ (a : BitVec 25) (d : List (BitVec 8)) (s : State),
    (a.toNat % 4 ≠ 0 ∨ d.length ≠ 4 ∧ d.length ≠ 8 → Does (.registerWrite a d) s fun t =>
      (∀ b, b ≠ hostEvt → t.reg b = s.reg b) ∧ bitOf (t.reg hostEvt) 1 = true) ∧
    (a.toNat % 4 = 0 → d.length = 4 → isEvt a.toNat = true → s.offWord a.toNat = false → s.absentWord a.toNat = false →
      Does (.registerWrite a d) s fun t => t.reg a.toNat = s.reg a.toNat &&& ~~~(BitVec.ofNat 32 (leVal d)) ∧
        ∀ b, b ≠ a.toNat → t.reg b = s.reg b)) ∧
  (∀ (r : Fin 8) (w : Bool) (s : State), Does (.ringDmaFailure r w) s fun t =>
    if s.ringOn r.val = true then
      t.ringHalted r.val = true ∧ t.ring r.val = { s.ring r.val with lost := (s.ring r.val).lost || !w } ∧ bitOf (t.reg hostEvt) 3 = true ∧
        t.col.srcQ = s.col.srcQ ++ [mkRep srcPcie 0 3 1 0 0]
    else t = s) ∧
  (∀ (pclk : Bool) (s : State), Does (.hostReset pclk) s fun t => (pclk = true → ∃ q ∈ t.col.srcQ, q.source = srcClock ∧ q.cls = 1) ∧ t.svc.taken = none ∧ t.host.msixTable = [] ∧ bitOf (t.reg hostEvt) 0 = true ∧
    (∀ r < 8, t.ringOn r = false ∧ (s.ringOn r = true → (t.ring r).fetched = [] ∧ (t.ring r).done = [] ∧
      t.reg (crReturned r) = s.reg (crReturned r) + BitVec.ofNat 32 (s.heldCr r))) ∧
    ∀ p ∈ t.svc.inProg, s.ringOn p.entry.ring.val = true → p.silent = true) ∧
  (∀ (v : W) (s : State), Does (.intAckWrite v) s fun t => t.regs = s.regs ∧ t.host.summary = s.host.summary ∧
    t.host.msgs = s.host.msgs ++ (((List.range 8).map (· + 8)).filter (fun i =>
      bitOf v i && fieldN s.host.summary i 1 == 1 && !bitOf (tget 1 s.host.msixTable (4 * i + 3)) 0))) ∧
  (∀ (w sp : Fin 3) (s : State), Does (.pcieLinkTrained w sp) s fun t => t.regField modCap 8 8 = 2 ^ w.val ∧
    t.regField modCap 4 4 = sp.val + 1 ∧ t.regField modCap 0 4 = s.regField modCap 0 4 ∧ ∀ b, b ≠ modCap → t.reg b = s.reg b) ∧
  (∀ (s : State), Does .dramUncorrectable s fun t => t.regs = s.regs ∧ ∃ q ∈ t.col.srcQ, q.source = srcDram ∧ q.cls = 1) ∧
  (∀ (q : List (BitVec 8)) (s : State), Does (.maintenanceRequest q) s fun t => t.col = s.col ∧ (∀ b, b ≠ mntStat → t.reg b = s.reg b) ∧
    (q.length ≠ 10 → s.col.broken.contains srcMnt = false → t.host.mntResp = [] ∧
      t.regField mntStat 0 16 = (s.regField mntStat 0 16 + 1) % 65536 ∧ t.regField mntStat 16 16 = s.regField mntStat 16 16)) ∧
  (∀ (q : List (BitVec 8)) (s : State), let d := bytesAt q 1 1; let a := bytesAt q 3 4; let n := bytesAt q 7 1
    s.col.broken.contains srcMnt = false → q.length = 10 → bytesAt q 0 1 = 0xA5 → d = s.stn.pos → bytesAt q 2 1 = 1 → a % 4 = 0 →
    1 ≤ n ∧ n ≤ 64 ∧ a + 4 * n ≤ 0x2000000 → bytesAt q 8 2 = mntCrc (q.take 8) → Does (.maintenanceRequest q) s fun t =>
      t.host.mntResp.length = 5 + 4 * n ∧ bytesAt t.host.mntResp 0 1 = 0x5A ∧ bytesAt t.host.mntResp 1 1 = d ∧ bytesAt t.host.mntResp 2 1 = n ∧
      (∀ i < n, bytesAt t.host.mntResp (3 + 4 * i) 4 = (s.mntWord a (a + 4 * i)).toNat) ∧
      t.regField mntStat 16 16 = (s.regField mntStat 16 16 + 1) % 65536 ∧ t.regField mntStat 0 16 = s.regField mntStat 0 16)

/-- For every state, address and length. An access past the end of DRAM stops by its own name (the spec gives no such byte). A read
within it answers the bytes from its address with the mark of an uncorrectable error, and changes no byte. A write that touches
the capture pool changes no byte and sets BAD_ACCESS; any other leaves its bytes at its address and every other byte as it was.
Each of these rows answers a next state with its own effect where its conditions hold: bar2Read, bar2Write. (R508, R510) -/
def Obligations.Bar2ReadsWritesAndGuardsModuleDram : Prop :=
  (∀ (a : BitVec 30) (n : Nat) (bad : Bool) (s : State),
    (dramSize < a.toNat + n → exec (.bar2Read a n bad) s = .fault .outsideDram) ∧
    (¬dramSize < a.toNat + n → Does (.bar2Read a n bad) s fun t => t.host.bar2Resp = some (s.dramBytes a.toNat n, bad) ∧ t.dram = s.dram ∧
      (bad = true → bitOf (t.reg hostEvt) 4 = true) ∧ (bad = false → t.regs = s.regs))) ∧
  (∀ (a : BitVec 30) (d : List (BitVec 8)) (s : State),
    (dramSize < a.toNat + d.length → exec (.bar2Write a d) s = .fault .outsideDram) ∧
    (¬dramSize < a.toNat + d.length → Does (.bar2Write a d) s fun t =>
      if capBase < a.toNat + d.length then t.dram = s.dram ∧ bitOf (t.reg hostEvt) 1 = true
      else t.dramBytes a.toNat d.length = d ∧ (∀ x, x < a.toNat ∨ a.toNat + d.length ≤ x → t.dramByte x = s.dramByte x) ∧ t.regs = s.regs))

/-- For every state. The rise of the supply starts phase 0 with every channel, binding and byte of DRAM gone; the fuses, the stored
fence record, the non-volatile stores, the precharge of each fold, the waiting commands and the last C4 record stand, with no
record in force and debug locked. A phase ends only from its own, and none without the supply: bad firmware halts in phase 7;
the stored record is in force again where it verifies; a fold slot, each in its turn, brings up its domains; a bus that stays
low stops its fold; a loop engine that fails quick BIST is retired; the frame clock's phase makes the module ready with its port
and link domains on and discovery begun. The supply's fall leaves every gate of every terminal off, every beam gate low and
every domain off but the calendar's. Each of these rows answers a next state with its own effect where its conditions hold:
auxSupplyRise, alwaysOnReady, securityBootDone, coresStarted, foldSlotStart, foldSlotEnd, quickBistDone, frameClockPhased,
auxSupplyFail. (R441, R461, R466, R469, R481, R482, R483, R484, R486) -/
def Obligations.StartUpGoesThroughItsPhasesAndPowerDownIsSafe : Prop :=
  (∀ (h : Bool) (s : State), Does (.auxSupplyRise h) s fun t => t.boot.phase = 0 ∧ t.boot.head = h ∧ t.boot.down = false ∧
    t.chans = [] ∧ t.binds = [] ∧ t.dram = [] ∧ t.rings = [] ∧ t.pending = s.pending ∧ t.nv = s.nv ∧ t.col.c4 = false ∧ t.col.lastC4 = s.col.c4rec ∧
    t.sec.builderHash = s.sec.builderHash ∧ t.sec.rollback = s.sec.rollback ∧ t.sec.debugCount = s.sec.debugCount ∧
    t.sec.fenceStored = s.sec.fenceStored ∧ t.sec.fence = none ∧ t.sec.unlocked = false ∧ (∀ k < 8, (t.fold k).precharge = (s.fold k).precharge)) ∧
  (∀ s : State, Does .alwaysOnReady s fun t => if s.boot.phase = 0 ∧ s.boot.down = false then t = { s with boot := { s.boot with phase := 1 } } else t = s) ∧
  (∀ (ok : Bool) (fw : W) (s : State), Does (.securityBootDone ok fw) s fun t =>
    if s.boot.phase ≠ 1 then t = s
    else if ok = false then t.boot.phase = 7 ∧ t.boot.bootFail = true ∧ t.sec = s.sec
    else t.boot.phase = 2 ∧ t.sec.idReady = true ∧ t.reg modFw = fw ∧
      match s.sec.fenceStored with
      | none => t.sec.fence = s.sec.fence
      | some o => match s.verifyStored o with
        | some b => t.sec.fence = some (fenceOf b)
        | none => t.sec.fence = s.sec.fence ∧ bitOf (t.reg secEvt) 1 = true) ∧
  (∀ s : State, Does .coresStarted s fun t => if s.boot.phase = 2 then t = { s with boot := { s.boot with phase := 3 } } else t = s) ∧
  (∀ (k : Fin 8) (s : State), Does (.foldSlotStart k) s fun t =>
    if s.boot.phase ≠ 3 ∨ s.boot.foldUp ≠ 2 ^ k.val - 1 then t = s
    else t.foldOn k.val = true ∧ (∀ i < 4, t.flockOn (4 * k.val + i) = true) ∧ t.boot = s.boot) ∧
  (∀ (k : Fin 8) (low : Bool) (now : Nat) (s : State), Does (.foldSlotEnd k low now) s fun t =>
    if s.boot.phase ≠ 3 ∨ s.foldOn k.val = false ∨ fieldN s.boot.foldUp k.val 1 = 1 then t = s
    else t.boot.foldUp = s.boot.foldUp + 2 ^ k.val ∧ t.boot.phase = (if s.boot.foldUp + 2 ^ k.val = 255 then 4 else 3) ∧
      (low = true → fieldN (s.fold k.val).act 1 1 = 0 → (t.fold k.val).stopped = true) ∧ (low = false → t.folds = s.folds ∧ t.regs = s.regs)) ∧
  (∀ (fails : List (Fin 8 × Fin 131072)) (segs : List (Fin 512 × Fin 16 × Fin 16)) (s : State), Does (.quickBistDone fails segs) s fun t =>
    if s.boot.phase ≠ 4 then t = s
    else t.boot.phase = 5 ∧ t.boot.bistFail = (s.boot.bistFail || fails.any (fun x => quickTests x.1.val x.2.val) || !segs.isEmpty) ∧
      ∀ x ∈ fails, x.1.val = 1 → x.2.val < 128 → (t.hlt x.2.val).hstate = 4 ∧ (t.run x.2.val).live = false) ∧
  (∀ s : State, Does .frameClockPhased s fun t =>
    if s.boot.phase ≠ 5 then t = s
    else t.boot.phase = 6 ∧ t.stn.dstate = 1 ∧ t.stn.nmod = 0 ∧ ∀ d ∈ [40, 41, 42, 43, 44, 45], t.domOn d = true) ∧
  (∀ (now : Nat) (s : State), Does (.auxSupplyFail now) s fun t => t.boot.down = true ∧ t.boot.phase = 0 ∧ t.nv = s.nv ∧ t.sec.burns = [] ∧
    (∀ d < 48, t.domOn d = (d == 47 && s.domOn 47)) ∧ (∀ n, (t.term n).hi = false ∧ (t.term n).lo = false) ∧ ∀ g, (t.gate g).level = false)

/-- For every state. A reserve that takes over is reported in class C1 and changes no register and no channel. A clock lost with its
reserve sets C4 with every live idle or armed channel stopped and every beam gate low, and the loss of the crystal oscillator
leaves the Bellwether lost. With the test port locked every instruction is a bypass that captures one 0 and drives nothing; with
it open a code of no instruction is, IDCODE captures its 32 bits, SAMPLE/PRELOAD the contacts with the levels of the beam gates
(their place is the model's choice, log 173) and takes the bits shifted in, and EXTEST drives the latches. Each of these rows
answers a next state with its own effect where its conditions hold: clockReserveTakeover, clockLossModuleStop, jtagBypass,
jtagIdcode, jtagSamplePreload, jtagExtest. (R40, R441, R476, R533, R534) -/
def Obligations.ClockLossStopsTheModuleAndTheTestPortIsGuarded : Prop :=
  (∀ s : State, Does .clockReserveTakeover s fun t => t.regs = s.regs ∧ t.chans = s.chans ∧ t.col.c4 = s.col.c4 ∧
    ∃ q ∈ t.col.srcQ, q.source = srcClock ∧ q.cls = 1) ∧
  (∀ (c : Fin 3) (now : Nat) (s : State), Does (.clockLossModuleStop c now) s fun t => t.col.c4 = true ∧
    t.bell.dead = (s.bell.dead || c.val == 2) ∧ (∀ g, (t.gate g).level = false) ∧
    ∀ ch ∈ s.liveChans, (s.chan ch).st = .idle ∨ (s.chan ch).st = .armed → (t.chan ch).st = .stopped) ∧
  (∀ (s : State) (row : Instr) (code : BitVec 8) (pins sh : List Bool) (o : Option (List Bool)),
    (row = .jtagBypass code ∧ (s.jtagOpen = false ∨ 2 < code.toNat) ∨ s.jtagOpen = false ∧
      (row, code) ∈ [(.jtagIdcode, 1), (.jtagSamplePreload pins sh, 2), (.jtagExtest pins o, 0)]) →
    Does row s fun t => t = { s with jtag := { s.jtag with ir := code, captured := [false], driven := none } }) ∧
  (∀ (s : State) (pins sh : List Bool) (o : Option (List Bool)), s.jtagOpen = true → let got := pins ++ (List.range 64).map (fun g => (s.gate g).level)
    (∀ code : BitVec 8, code.toNat ≤ 2 → exec (.jtagBypass code) s = .next s) ∧
    Does .jtagIdcode s (fun t => t.jtag.captured.length = 32 ∧ t.jtag.captured[0]? = some true ∧ t.jtag.driven = none ∧ t.jtag.latch = s.jtag.latch) ∧
    Does (.jtagSamplePreload pins sh) s (fun t => t.jtag = { ir := 2, captured := got, latch := sh, driven := none }) ∧
    Does (.jtagExtest pins o) s (fun t => t.jtag = { ir := 0, captured := got, latch := o.getD s.jtag.latch, driven := some (o.getD s.jtag.latch) }))

/-- For every accepted entry and state. LOAD is refused, no channel changed, at its first failing check: the handle (1), an armed
channel (2), an engine under test (3), a signed object that does not verify (4, with its event), the layout (5), a structural
rule with its number and instruction (6), the cycles (7), the workspace (8), the store (9). Else the channel names the image,
its 32 coefficients stand in its workspace, the state of both instances is 0, and the command is in progress. MODEL.LOAD does
the same by its own checks for the engine's next image. Once the engines hold the image the command that waits for no burn is in
progress no longer, and the model engine has its next image in place. Each of these rows answers a next state with its own
effect where its conditions hold: load, modelLoad, loadComplete, modelLoadComplete. (R283, R284, R285, R286, R287, R304, R319,
R466) -/
def Obligations.ImagesAreVerifiedPlacedAndHeld : Prop :=
  (∀ (e : CmdEntry) (std : Fin 3) (s : State), s.accepts e 0x0301 → let u := s.untake e; let ch := hIndex (opN e 0); let c := u.chan ch
    let a := (opN e 1).toNat; let n := (opN e 2).toNat; let refused := fun (st chk : Nat) (t : State) => Posted e st 0 chk u t ∧ t.chans = u.chans
    Does (.load e std) s fun t =>
      match u.handleCheck 1 (opN e 0) with
      | some st => refused st 1 t
      | none =>
        if c.st = .armed then refused stState 2 t
        else if (u.testing 1 (4 * c.flock + c.adm.engA) || u.testing 1 (4 * c.flock + c.adm.engB)) = true then refused stUnderTest 3 t
        else match u.verifyObject a n 1 with
          | none => refused stAuth 4 t ∧ bitOf (t.reg secEvt) 0 = true
          | some b => let x := imageOf b (u.sigBlock a n).slot std
            if layoutOk b = false then refused stSize 5 t
            else match check6 1 x.kind x.wcc x.words with
              | some r => t.chans = u.chans ∧ (t.ring e.ring.val).done = (u.ring e.ring.val).done ++ [{
                  opcode := opcodeOf e, status := stState, cookie := e.cookie, result := 0, check := 6, rule := r.1, index := r.2, irq := bitOf e.word0 9 }]
              | none =>
                if c.adm.wcc < wccOf x.words then refused stOverBudget 7 t
                else if c.adm.wsKib * 1024 < 128 + 2 * x.stateBytes then refused stSize 8 t
                else if (u.storeRoom c.flock c.adm.engA ch x && u.storeRoom c.flock c.adm.engB ch x) = false then refused stNoRes 9 t
                else (t.chan ch).loop.img = some (u.imageIx x) ∧ t.image (u.imageIx x) = x ∧ (t.chan ch).loop.coefQ = [] ∧ t.rings = u.rings ∧
                  (∀ w < 32, t.wsVal ch (4 * w) 4 = (x.coef.getD w 0).toNat) ∧
                  (∀ i, i < 2 * x.stateBytes → 128 + i < 0x4000 → t.wsByte ch (128 + i) = 0) ∧
                  t.svc.inProg.map (·.entry) = u.svc.inProg.map (·.entry) ++ [e]) ∧
  (∀ (e : CmdEntry) (std : Fin 3) (s : State), s.accepts e 0x0401 → let u := s.untake e; let f := fld (opN e 0) 0 5
    let a := (opN e 1).toNat; let n := (opN e 2).toNat; let refused := fun (st chk : Nat) (t : State) => Posted e st 0 chk u t ∧ t.mengs = u.mengs
    Does (.modelLoad e std) s fun t =>
      if u.flockOn f = false then refused stState 1 t
      else if (u.chansOfFlock f).any (fun ch => (u.chan ch).armed) = true then refused stState 2 t
      else match u.verifyObject a n 1 with
        | none => refused stAuth 4 t ∧ bitOf (t.reg secEvt) 0 = true
        | some b => let x := imageOf b (u.sigBlock a n).slot std
          if layoutOk b = false then refused stSize 5 t
          else match check6 2 x.kind x.wcc x.words with
            | some r => t.mengs = u.mengs ∧ (t.ring e.ring.val).done = (u.ring e.ring.val).done ++ [{
                  opcode := opcodeOf e, status := stState, cookie := e.cookie, result := 0, check := 6, rule := r.1, index := r.2, irq := bitOf e.word0 9 }]
            | none =>
              if 16384 < x.words.length then refused stNoRes 9 t
              else (t.meng f).next = some (u.imageIx x) ∧ (t.meng f).img = (u.meng f).img ∧ t.image (u.imageIx x) = x ∧ t.rings = u.rings ∧
                t.svc.inProg.map (·.entry) = u.svc.inProg.map (·.entry) ++ [e]) ∧
  (∀ (ch : Fin 512) (s : State), let mine := fun (p : Prog) => opcodeOf p.entry = 0x0301 ∧ p.obj = some (1, ch.val)
    Does (.loadComplete ch) s fun t => ((∃ p ∈ s.svc.inProg, mine p ∧ p.burning = false) → ∀ p ∈ t.svc.inProg, ¬mine p) ∧
      ((∀ p ∈ s.svc.inProg, mine p → p.burning = true) → t.rings = s.rings ∧ ∀ p ∈ t.svc.inProg, mine p → p.ready = true)) ∧
  (∀ (f : Fin 32) (s : State), Does (.modelLoadComplete f) s fun t =>
    match (s.meng f.val).next with
    | none => t = s
    | some i => (t.meng f.val).img = some i ∧ (t.meng f.val).next = none ∧ t.image i = s.image i ∧
        ∀ p ∈ t.svc.inProg, opcodeOf p.entry = 0x0401 → p.obj = some (16, f.val) → p.burning = true ∧ p.ready = true)

/-- For every state. A port trains only where its domain is on, the module ready and the port untrained and whole; it has its lanes,
discovery begins, M0 sends the first token out of KL0, and with a station ready a module without a place joins late. A token on
an untrained port, without hops, or of a head with a higher MODULE_ID than one heard changes nothing; at its own M0 it ends the
pass with the number and the form; any other goes on with the count raised by 1 (log 133: back where the chain ends), and with 8
hops the module is standalone with its event, else it takes its position and upstream port. Without a token in time the module
is standalone. The end of the pass makes M0 align, or ready at once where it is alone; the form message gives another module the
number and form and makes it follow, or leaves it out. STN.INFO posts ring, position and number; STN.RESCAN is refused off M0
(1) or while a channel is armed (2). Each of these rows answers a next state with its own effect where its conditions hold:
linkTrained, discoveryToken, discoveryTimeout, stationFormMessage, stnInfo, stnRescan. (R312, R487, R488, R489, R493, R496) -/
def Obligations.TheStationIsDiscoveredFormedAndReported : Prop :=
  (∀ (i : Fin 2) (n : Fin 3) (o : Option StnJoin) (s : State), Does (.linkTrained i n o) s fun t =>
    if s.domOn (44 + i.val) = false ∨ s.boot.phase ≠ 6 ∨ s.lanes i.val ≠ 0 ∨ srcLink i.val ∈ s.col.broken then t = s
    else t.lanes i.val = 2 ^ n.val ∧ t.lanes (1 - i.val) = s.lanes (1 - i.val) ∧
      match (if s.stn.pos = 15 ∧ s.stn.late = false then o else none) with
      | some x => t.stn.late = true ∧ t.stn.pos = 15 ∧ t.stn.refPort = some i.val ∧ t.stn.place = x.place ∧ t.stn.dstate = 3 ∧
          bitOf (t.reg stnEvt) 4 = true
      | none => t.stn.dstate = (if s.stn.dstate = 1 then 2 else s.stn.dstate) ∧ t.stn.pos = s.stn.pos ∧ t.regs = s.regs ∧
          (s.stn.dstate ≤ 2 → s.stn.pos = 0 → s.stn.sent = none → t.lanes 0 ≠ 0 → t.stn.sent = some (0, 1))) ∧
  (∀ (i : Fin 2) (n : Fin 16) (id : BitVec 64) (s : State), Does (.discoveryToken i n id) s fun t =>
    if s.lanes i.val = 0 ∨ n.val = 0 ∨ (∃ h, s.stn.headId = some h ∧ h < id.toNat) then t = s
    else if s.stn.pos = 0 ∧ id.toNat = moduleId then t = { s with stn := { s.stn with nmod := min 8 n.val, ring := i.val == 1 } }
    else (s.stn.pos = 0 → bitOf (t.reg stnEvt) 5 = true) ∧
      t.stn.sent = some (if s.lanes (1 - i.val) = 0 then i.val else 1 - i.val, n.val + 1) ∧
      if 8 ≤ n.val then t.stn.dstate = 6 ∧ t.stn.pos = 15 ∧ t.stn.refPort = none ∧ bitOf (t.reg stnEvt) 7 = true
      else t.stn.dstate = 2 ∧ t.stn.pos = n.val ∧ t.stn.upstream = some i.val ∧ t.stn.refPort = some i.val ∧ t.stn.nmod = 0 ∧
        t.stn.headId = some id.toNat) ∧
  (∀ s : State, Does .discoveryTimeout s fun t =>
    if (s.stn.dstate = 1 ∨ s.stn.dstate = 2) ∧ s.stn.pos = 15 then t.stn.dstate = 6 ∧ t.stn.pos = 15 ∧ bitOf (t.reg stnEvt) 6 = true
    else t = s) ∧
  (∀ (i : Fin 2) (n : Fin 9) (ring ex : Bool) (r : BitVec 18) (m : BitVec 2) (s : State), Does (.stationFormMessage i n ring ex r m) s fun t =>
    if s.stn.pos = 0 ∧ (s.stn.dstate = 1 ∨ s.stn.dstate = 2) then
      t.stn.nmod = max 1 s.stn.nmod ∧ t.stn.ring = s.stn.ring ∧ t.stn.confirmed = [] ∧
        if s.stn.nmod ≤ 1 then t.stn.dstate = 5 ∧ bitOf (t.reg stnEvt) 9 = true ∧ ∀ q ∈ t.svc.inProg, opcodeOf q.entry ≠ 0x0B03
        else t.stn.dstate = 4 ∧ t.regs = s.regs
    else if s.stn.dstate ≠ 2 then t = s
    else if ex = true then t.stn.dstate = 6 ∧ t.stn.pos = 15 ∧ bitOf (t.reg stnEvt) 7 = true
    else t.stn.nmod = n.val ∧ t.stn.ring = ring ∧ t.stn.pos = s.stn.pos ∧ t.regs = s.regs ∧
      t.stn.dstate = (if s.stn.pos ≤ 7 then 3 else 2) ∧ (s.stn.pos ≤ 7 → t.stn.seated = false ∧ t.bell.linkMeas = [])) ∧
  (∀ (e : CmdEntry) (s : State), s.accepts e 0x0B02 → let x := s.stn
    Does (.stnInfo e) s fun t => t.stn = x ∧
      Posted e stOk (BitVec.ofNat 32 (b2n x.ring * 256 + x.pos % 16 * 16 + x.nmod % 16)) 0 (s.untake e) t) ∧
  (∀ (e : CmdEntry) (peer : Bool) (s : State), s.accepts e 0x0B03 → let u := s.untake e
    Does (.stnRescan e peer) s fun t =>
      if u.stn.pos ≠ 0 then Posted e stState 0 1 u t ∧ t.stn = u.stn
      else if u.anyArmed = true ∨ peer = true then Posted e stState 0 2 u t ∧ t.stn = u.stn
      else InProgress e u t ∧ t.stn.dstate = 2 ∧ t.stn.nmod = 0 ∧ t.stn.ring = false ∧ t.stn.pos = (if u.boot.head = true then 0 else 15))

/-- For every state. A marker from the reference port of a following module gives frame count and phase and is counted as within or
outside 2 ns, any other nothing. A hop above 1 us breaks the port and its hop, another is kept. A qualified link seats the
module once: it selects the link, and with no armed channel takes the reference's boundary and count at once. Each confirmation,
the module's own after 64 fp within, counts once, and the station is ready, its rescan ended, when all have confirmed or READY
is received. 64 fp outside while ready are reported. A link that breaks leaves an own port untrained; before ready M0 starts
discovery again; after it the hop is noted as broken, a ring that was whole opens and anything else splits, the reference is the
better path that is left, and modules no longer reached count no more. A hop that returns is broken no longer: its port has its
lanes, a module that regains M0 seats anew, one without a place joins late. Each of these rows answers a next state with its own
effect where its conditions hold: stationMarker, hopDelayMeasure, stationSeating, alignConfirm, stationReady, alignErr,
linkDown, linkUp. (R487, R490, R491, R492, R493, R494, R495, R496) -/
def Obligations.TheStationAlignsBreaksAndHeals : Prop :=
  (∀ (i : Fin 2) (fr : BitVec 48) (er : BitVec 16) (s : State), Does (.stationMarker i fr er) s fun t =>
    if s.follows = true ∧ s.stn.refPort = some i.val ∧ s.lanes i.val ≠ 0 then
      let near := decide (-2000 ≤ er.toInt ∧ er.toInt ≤ 2000)
      t = ({ s with stn := { s.stn with mark := fr, alignIn := if near = true ∧ s.stn.seated = true then s.stn.alignIn + 1 else 0
                                        alignOut := if near = true then 0 else s.stn.alignOut + 1 } } : State).setReg stnAlign (er.zeroExtend 32)
    else t = s) ∧
  (∀ (i : Fin 2) (d : W) (s : State), Does (.hopDelayMeasure i d) s fun t =>
    if s.lanes i.val = 0 then t = s
    else if 1000000 < d.toNat then t.lanes i.val = 0 ∧ t.reg (linkDelay i.val) = 0 ∧ bitOf (t.reg stnEvt) 0 = true ∧
      (s.stn.dstate = 5 → s.stn.hopOf i.val ∉ s.stn.broken →
        bitOf (t.reg stnEvt) (if s.stn.ring = true ∧ s.stn.broken = [] then 2 else 3) = true)
    else t = s.setReg (linkDelay i.val) d) ∧
  (∀ (p : Nat) (s : State), Does (.stationSeating p) s fun t =>
    if s.follows = false ∨ s.stn.seated = true ∨ s.linkQual = false then t = s
    else t.stn.seated = true ∧ t.stn.dstate = (if s.stn.dstate = 3 then 4 else s.stn.dstate) ∧ t.bell.onLink = true ∧ bitOf (t.reg fcEvt) 3 = true ∧
      (s.anyArmed = false → t.bell.frame = s.stn.mark ∧ t.bell.bPt = p ∧ t.bell.bFrac = 0 ∧ t.bell.mode = .tracking)) ∧
  (∀ (p : Fin 8) (s : State), Does (.alignConfirm p) s fun t =>
    let own := s.stn.pos == p.val && s.follows && s.stn.seated && decide (64 ≤ s.stn.alignIn)
    let other := s.stn.pos == 0 && p.val != 0 && decide (p.val < s.stn.nmod)
    if s.stn.dstate = 4 ∧ (own = true ∨ other = true) ∧ p.val ∉ s.stn.confirmed then
      t = { s with stn := { s.stn with confirmed := s.stn.confirmed ++ [p.val] } }
    else t = s) ∧
  (∀ s : State, Does .stationReady s fun t =>
    if s.stn.dstate = 4 ∧ (s.follows = true ∨ s.stn.pos = 0 ∧ ∀ p < s.stn.nmod, 1 ≤ p → p ∈ s.stn.confirmed) then
      t.stn = { s.stn with dstate := 5 } ∧ bitOf (t.reg stnEvt) 9 = true ∧ ∀ q ∈ t.svc.inProg, opcodeOf q.entry ≠ 0x0B03
    else t = s) ∧
  (∀ s : State, Does .alignErr s fun t =>
    if s.stn.dstate = 5 ∧ s.follows = true ∧ 64 ≤ s.stn.alignOut then
      t.stn = { s.stn with alignOut := 0 } ∧ bitOf (t.reg stnEvt) 8 = true
    else t = s) ∧
  (∀ (i : Fin 2) (far : Option Int) (s : State), let h := far.getD (s.stn.hopOf i.val); Does (.linkDown i far) s fun t =>
    if far = none ∧ s.lanes i.val = 0 then t = s
    else (far = none → t.lanes i.val = 0 ∧ t.reg (linkDelay i.val) = 0 ∧ bitOf (t.reg stnEvt) 0 = true) ∧
      (2 ≤ s.stn.dstate → s.stn.dstate ≤ 4 → s.stn.late = false → t.stn.dstate = (if s.stn.pos = 0 then 2 else s.stn.dstate) ∧
        (s.stn.pos = 0 → t.stn.nmod = 0 ∧ t.stn.confirmed = [])) ∧
      (s.stn.dstate = 5 ∨ s.stn.late = true → h ∉ s.stn.broken →
        t.stn.dstate = s.stn.dstate ∧ t.stn.broken = s.stn.broken ++ [h] ∧ t.stn.refPort = t.stn.bestRef ∧
          (∀ m ∈ t.stn.openMods ++ t.stn.c4Mods, t.stn.reach t.stn.place m.2 = true) ∧
          bitOf (t.reg stnEvt) (if s.stn.ring = true ∧ s.stn.broken = [] then 2 else 3) = true)) ∧
  (∀ (i : Fin 2) (n : Fin 3) (far : Option Int) (o : Option StnJoin) (s : State), let h := far.getD (s.stn.hopOf i.val)
    Does (.linkUp i n far o) s fun t =>
      if far = none ∧ (s.domOn (44 + i.val) = false ∨ s.lanes i.val ≠ 0 ∨ srcLink i.val ∈ s.col.broken) ∨ far ≠ none ∧ h ∉ s.stn.broken then
        t = s
      else (far = none → t.lanes i.val = 2 ^ n.val) ∧ bitOf (t.reg stnEvt) 1 = true ∧
        match (if far = none ∧ s.stn.pos = 15 ∧ s.stn.late = false then o else none) with
        | some x => t.stn.late = true ∧ t.stn.dstate = 3 ∧ t.stn.place = x.place ∧ t.stn.broken = [] ∧ bitOf (t.reg stnEvt) 4 = true
        | none => t.stn.broken = s.stn.broken.filter (fun k => k != h) ∧ t.stn.refPort = t.stn.bestRef ∧
            (s.joined = true → s.follows = false → t.follows = true → t.stn.seated = false ∧ t.bell.linkMeas = []))

/-- For every state. A write without the key changes nothing; a joined module other than M0 ignores a setting with its event; else
the setting waits for its tick, the calendar valid. A module that follows in a ready station takes M0's time, and a correction
above 1 ms sets CAL_SET. A change of supply shows in its field alone; without any the calendar stops. A supercapacitor that runs
low, and a backup that does while the supply is present, set their events. The tick on an empty queue (log 34, the model's
choice) takes a waiting setting, else counts the fraction and, where it wraps, the seconds; a calendar that is dead or whose
error pair is broken does not count. Each of these rows answers a next state with its own effect where its conditions hold:
calendarSet, calendarSync, calendarSupplyChange, supercapLow, backupLow. (R498, R499, R500) -/
def Obligations.TheCalendarIsSetSyncedAndSupplied : Prop :=
  (∀ (v : W) (s : State), Does (.calendarSet v) s fun t =>
    if fld v 24 8 ≠ 0x5E then t = s
    else if s.stn.late = true ∨ (1 ≤ s.stn.pos ∧ s.stn.pos ≤ 7) then t.boot = s.boot ∧ bitOf (t.reg calEvt) 4 = true ∧ t.reg calSecA = s.reg calSecA
    else t.boot.calPend = some (s.reg calSetSec, fld v 0 14) ∧ t.regField calStat 0 1 = 1 ∧ bitOf (t.reg calEvt) 1 = true) ∧
  (∀ (sec : W) (fr : BitVec 14) (s : State), Does (.calendarSync sec fr) s fun t =>
    if s.follows = false ∨ s.stn.dstate ≠ 5 then t = s
    else t.reg calSecA = sec ∧ t.reg calFracA = fr.zeroExtend 32 ∧
      if 16384 < absI (((sec.toNat * 16384 + fr.toNat : Nat) : Int) - ((s.reg calSecA).toNat * 16384 + s.regField calFracA 0 14 : Nat)) * 1000 then
        t.regField calStat 0 1 = 1 ∧ bitOf (t.reg calEvt) 1 = true
      else ∀ a, a ≠ calSecA → a ≠ calFracA → t.reg a = s.reg a) ∧
  (∀ (n : Fin 4) (s : State), Does (.calendarSupplyChange n) s fun t =>
    if n.val = 3 then t = { s with boot := { s.boot with calDead := true } }
    else t.regField calStat 1 2 = n.val ∧ t.regField calStat 0 1 = s.regField calStat 0 1 ∧ t.boot = s.boot ∧ ∀ a, a ≠ calStat → t.reg a = s.reg a) ∧
  (∀ s : State, Does .supercapLow s fun t => bitOf (t.reg calEvt) 3 = true ∧ ∃ q ∈ t.col.live, q.source = srcCal ∧ q.cls = 1) ∧
  (∀ s : State, Does .backupLow s fun t =>
    if s.boot.down = true then t = s else bitOf (t.reg calEvt) 2 = true ∧ ∃ q ∈ t.col.live, q.source = srcCal ∧ q.cls = 0) ∧
  (∀ s : State, s.pending = [] → ∃ t, step s = .next t ∧
    if s.boot.calDead = true ∨ srcCal ∈ s.col.broken then t = s
    else match s.boot.calPend with
      | some (sec, f) => t.reg calSecA = sec ∧ t.reg calFracA = BitVec.ofNat 32 f ∧ t.boot.calPend = none
      | none => let f := s.regField calFracA 0 14 + 1
        if f = 16384 then t.reg calSecA = s.reg calSecA + 1 ∧ t.reg calFracA = 0
        else t.reg calSecA = s.reg calSecA ∧ t.reg calFracA = BitVec.ofNat 32 f)

/-- For every engine and state whose run in progress has reached a word of the opcode outside a skipped span, with no error found.
ADD, SUB, ADDI, NEG, ABS, SHL and RND write the exact result saturated to 16 bits, V says whether it saturated and SAT keeps it.
MOVI, MOV, MFL, MIN, MAX, AND, OR, XOR, ANDI, SHR, SEL and EVT write their result plain. CMP, CMPI and CMPA set Z and N from the
exact difference. LDP, ADDP, CLRS, CHN, NOP and DIV do as their rules say, DIV in 16 cycles whatever its operands and each other
in 1. In every case nothing but that run changes: no other register or flag of it, no other part of the state. Each of these
rows answers a next state with its own effect where its conditions hold: iaAdd, iaSub, iaAddi, iaNeg, iaAbs, iaShl, iaRnd,
iaMovi, iaMov, iaMfl, iaMin, iaMax, iaAnd, iaOr, iaXor, iaAndi, iaShr, iaSel, iaEvt, iaCmp, iaCmpi, iaCmpa, iaNop, iaLdp,
iaAddp, iaClrs, iaChn, iaDiv. (R222, R251, R252, R253, R254, R258, R259, R260, R263, R264) -/
def Obligations.IatiaWordsWriteTheirRegisterAndFlags : Prop :=
  ∀ (e : Fin 160) (w : W) (s : State), let r := s.run e.val
    (∀ (row : Instr) (op d : Nat) (y : Int),
      (row, op, d, y) ∈ [(Instr.iaAdd e 0, 0x10, fD w, r.xi (fA w) + r.xi (fB w)), (.iaSub e 0, 0x11, fD w, r.xi (fA w) - r.xi (fB w)),
        (.iaAddi e 0, 0x12, fD w, r.xi (fA w) + fSimm w), (.iaNeg e 0, 0x13, fD w, -r.xi (fA w)), (.iaAbs e 0, 0x14, fD w, absI (r.xi (fA w))),
        (.iaShl e 0, 0x1B, fD w, r.xi (fA w) * (2 ^ (fFn w % 16) : Nat)),
        (.iaRnd e 0, 0x28, fXd w, roundDiv (r.aci (fAcA w)) (65536 : Nat))] → s.atWord e op w →
      Does row s fun t => let o := decide (y < -32768 ∨ 32767 < y)
        RunIs e s t { r.advance 1 with x := tset 0 r.x d (BitVec.ofInt 16 (max (-32768) (min 32767 y))), v := o, sat := r.sat || o }) ∧
    (∀ (row : Instr) (op : Nat) (y : BitVec 16),
      (row, op, y) ∈ [(Instr.iaMovi e 0, 0x02, BitVec.ofNat 16 (fImm w)), (.iaMov e 0, 0x05, r.xw (fA w)), (.iaMfl e 0, 0x06, r.flags),
        (.iaMin e 0, 0x15, if r.xi (fA w) ≤ r.xi (fB w) then r.xw (fA w) else r.xw (fB w)),
        (.iaMax e 0, 0x16, if r.xi (fA w) ≤ r.xi (fB w) then r.xw (fB w) else r.xw (fA w)),
        (.iaAnd e 0, 0x17, r.xw (fA w) &&& r.xw (fB w)), (.iaOr e 0, 0x18, r.xw (fA w) ||| r.xw (fB w)),
        (.iaXor e 0, 0x19, r.xw (fA w) ^^^ r.xw (fB w)), (.iaAndi e 0, 0x1A, r.xw (fA w) &&& BitVec.ofNat 16 (fImm w)),
        (.iaShr e 0, 0x1C, BitVec.ofInt 16 (roundDiv (r.xi (fA w)) (2 ^ (fFn w % 16) : Nat))),
        (.iaSel e 0, 0x1F, if r.cond (fFn w % 16) = true then r.xw (fA w) else r.xw (fB w)),
        (.iaEvt e 0, 0x3C, (s.latchOf e.val r).flags)] → s.atWord e op w →
      Does row s fun t => RunIs e s t { r.advance 1 with x := tset 0 r.x (fD w) y }) ∧
    (∀ (row : Instr) (op : Nat) (y : Int),
      (row, op, y) ∈ [(Instr.iaCmp e 0, 0x1D, r.xi (fA w) - r.xi (fB w)), (.iaCmpi e 0, 0x1E, r.xi (fA w) - fSimm w),
        (.iaCmpa e 0, 0x2C, r.aci (fAcA w) - r.aci (fAcB w))] → s.atWord e op w →
      Does row s fun t => RunIs e s t { r.advance 1 with z := decide (y = 0), n := decide (y < 0) }) ∧
    (s.atWord e 0x00 w → Does (.iaNop e 0) s fun t => RunIs e s t (r.advance 1)) ∧
    (s.atWord e 0x03 w → Does (.iaLdp e 0) s fun t => RunIs e s t { r.advance 1 with p := tset 0 r.p (fPd w) (BitVec.ofNat 16 (fImm w)) }) ∧
    (s.atWord e 0x04 w → Does (.iaAddp e 0) s fun t =>
      RunIs e s t { r.advance 1 with p := tset 0 r.p (fPd w) (BitVec.ofInt 16 (r.pv (fPd w) + fSimm w)) }) ∧
    (s.atWord e 0x07 w → Does (.iaClrs e 0) s fun t => RunIs e s t { r.advance 1 with sat := false, dz := false }) ∧
    (s.atWord e 0x35 w → Does (.iaChn e 0) s fun t => RunIs e s t { r.advance 1 with sel := (r.xw (fA w)).toNat % 16 }) ∧
    (s.atWord e 0x30 w → Does (.iaDiv e 0) s fun t => let a := r.aci (fAcA w); let b := r.xi (fXb w)
      if b = 0 then RunIs e s t { r.advance 16 with
        x := tset 0 r.x (fXd w) (BitVec.ofInt 16 (if 0 ≤ a then 32767 else -32768)), v := true, sat := true, dz := true }
      else ∃ q : Int, (2 * absI (a - q * (2 * b)) ≤ absI (2 * b)) ∧ (2 * absI (a - q * (2 * b)) = absI (2 * b) → absI a ≤ absI (q * (2 * b))) ∧
        RunIs e s t { r.advance 16 with x := tset 0 r.x (fXd w) (BitVec.ofInt 16 (max (-32768) (min 32767 q)))
                                        v := decide (q < -32768 ∨ 32767 < q), sat := r.sat || decide (q < -32768 ∨ 32767 < q) })

/-- For every engine and state whose run in progress has reached a word of the opcode outside a skipped span, with no error found.
MAC, MSU, ADDA, SUBA and SHA write the exact result saturated to 40 bits, V says so and SAT keeps it. MUL, XTA, CLRA, SELA, SPT
and INJ write their result plain. GMUL and GMAC saturate the gain product and the sum. CLPA limits to the magnitude, its V
without SAT; SATW saturates to its width; EXT saturates the reading to b + 16 bits and writes bits b + 15 to b. ERR without rec
writes the error and its V. SIN and FFW write the named value of the latch set to an accumulator or x register. In every case
nothing but that run changes. Each of these rows answers a next state with its own effect where its conditions hold: iaMac,
iaMsu, iaAdda, iaSuba, iaSha, iaMul, iaXta, iaClra, iaSela, iaSpt, iaInj, iaGmul, iaGmac, iaClpa, iaSatw, iaExt, iaErr, iaSin,
iaFfw. (R221, R222, R223, R253, R256, R260, R261, R262, R264, R265) -/
def Obligations.IatiaWordsWriteTheirAccumulator : Prop :=
  ∀ (e : Fin 160) (w : W) (s : State), let r := s.run e.val; let m := r.xi (fXd w) * r.xi (fXb w) * 2; let l := s.latchOf e.val r
    let lim := (549755813887 : Int); let cut := fun (y : Int) => max (-549755813888) (min lim y)
    let out := fun (y : Int) => decide (y < -549755813888 ∨ lim < y); let acc := fun (i : Nat) (y : Int) => tset 0 r.ac i (BitVec.ofInt 40 y)
    (∀ (row : Instr) (op : Nat) (y : Int),
      (row, op, y) ∈ [(Instr.iaMac e 0, 0x21, r.aci (fAcd w) + m), (.iaMsu e 0, 0x22, r.aci (fAcd w) - m),
        (.iaAdda e 0, 0x25, r.aci (fAcA w) + r.aci (fAcB w)), (.iaSuba e 0, 0x26, r.aci (fAcA w) - r.aci (fAcB w)),
        (.iaSha e 0, 0x29, let n := sx 5 (fMisc w)
          if n < 0 then roundDiv (r.aci (fAcA w)) (2 ^ (-n).toNat : Nat) else r.aci (fAcA w) * (2 ^ n.toNat : Nat))] → s.atWord e op w →
      Does row s fun t => RunIs e s t { r.advance 1 with ac := acc (fAcd w) (cut y), v := out y, sat := r.sat || out y }) ∧
    (∀ (row : Instr) (op i : Nat) (y : Int),
      (row, op, i, y) ∈ [(Instr.iaMul e 0, 0x20, fAcd w, m), (.iaXta e 0, 0x27, fAcd w, r.xi (fXd w) * 65536), (.iaClra e 0, 0x31, fAcd w, 0),
        (.iaSela e 0, 0x2D, fAcd w, if r.cond (fMisc w % 16) = true then r.aci (fAcA w) else r.aci (fAcB w)),
        (.iaSpt e 0, 0x38, fD w % 4, l.sp.toInt), (.iaInj e 0, 0x3B, fD w % 4, l.inj.toInt)] → s.atWord e op w →
      Does row s fun t => RunIs e s t { r.advance 1 with ac := acc i y }) ∧
    (s.atWord e 0x23 w → Does (.iaGmul e 0) s fun t => let y := m * (2 ^ ((r.xw (fXc w)).toNat % 16) : Nat)
      RunIs e s t { r.advance 1 with ac := acc (fAcd w) (cut y), v := out y, sat := r.sat || out y }) ∧
    (s.atWord e 0x24 w → Does (.iaGmac e 0) s fun t => let y := m * (2 ^ ((r.xw (fXc w)).toNat % 16) : Nat); let z := r.aci (fAcd w) + cut y
      RunIs e s t { r.advance 1 with ac := acc (fAcd w) (cut z), v := out y || out z, sat := r.sat || (out y || out z) }) ∧
    (s.atWord e 0x2A w → Does (.iaClpa e 0) s fun t => let a := r.aci (fAcA w); let b := absI (r.xi (fXb w)) * 65536
      RunIs e s t { r.advance 1 with ac := acc (fAcd w) (if a < -b then -b else if b < a then b else a), v := decide (a < -b ∨ b < a) }) ∧
    (s.atWord e 0x2B w → Does (.iaSatw e 0) s fun t => let a := r.aci (fAcA w)
      let k : Nat := if fMisc w % 4 = 0 then 16 else if fMisc w % 4 = 1 then 20 else if fMisc w % 4 = 2 then 24 else 32
      let h : Int := 2 ^ (k - 1); let o := decide (a < -h ∨ h - 1 < a)
      RunIs e s t { r.advance 1 with ac := acc (fAcd w) (max (-h) (min (h - 1) a)), v := o, sat := r.sat || o }) ∧
    (s.atWord e 0x2E w → Does (.iaExt e 0) s fun t => let a := r.aci (fAcA w); let b := fMisc w; let h : Int := 2 ^ (b + 15)
      let y := max (-h) (min (h - 1) a); let o := decide (a < -h ∨ h - 1 < a)
      RunIs e s t { r.advance 1 with x := tset 0 r.x (fXd w) (BitVec.ofInt 16 (y / (2 ^ b : Nat))), v := o, sat := r.sat || o }) ∧
    (s.atWord e 0x2F w → fMisc w % 2 = 0 → Does (.iaErr e 0) s fun t =>
      let c32 := fun (y : Int) => max (-2147483648) (min 2147483647 y); let o32 := fun (y : Int) => decide (y < -2147483648 ∨ 2147483647 < y)
      let a := r.aci (fAcA w); let b := r.aci (fAcB w); let d := c32 a - c32 b
      let q := roundDiv (c32 d) (2 ^ (8 - min 8 l.esh) : Nat); let o := o32 a || o32 b || o32 d || decide (q < -32768 ∨ 32767 < q)
      RunIs e s t { r.advance 1 with x := tset 0 r.x (fXd w) (BitVec.ofInt 16 (max (-32768) (min 32767 q))), v := o, sat := r.sat || o }) ∧
    (s.atWord e 0x39 w → Does (.iaSin e 0) s fun t => RunIs e s t (match fSrc w with
      | 0 => { r.advance 1 with ac := acc (fD w % 4) l.pos.toInt }
      | 1 => { r.advance 1 with ac := acc (fD w % 4) l.sec.toInt }
      | k + 2 => if k < 3 then { r.advance 1 with x := tset 0 r.x (fD w) (l.cur.getD k 0) }
        else if k < 6 then { r.advance 1 with x := tset 0 r.x (fD w) ((l.volt.getD (k - 3) 0) >>> 1) } else r.advance 1)) ∧
    (s.atWord e 0x3A w → Does (.iaFfw e 0) s fun t => RunIs e s t (match fSrc w with
      | 0 => { r.advance 1 with ac := acc (fD w % 4) l.ff.toInt }
      | 1 => { r.advance 1 with x := tset 0 r.x (fD w) l.vbus }
      | 2 => { r.advance 1 with x := tset 0 r.x (fD w) l.vnom }
      | _ => r.advance 1))

/-- For every engine and state whose run in progress has reached a word of the opcode outside a skipped span, with no error found.
LDH, LDW, STH and STW read and write the place that their address names, a load outside the view gives 0 and the bounds fault.
LSE, HLD, CAP and OUT mark the run and its signature, and the OUT of the active instance puts the command in the channel's
queue. CLM puts its clamp in the queue of the selected channel. ERR with rec records the error of the active instance. LOOP and
SKP note their body and span. A word in a skipped span acts as a NOP of its own cost, one with a double-bit error as a NOP of 1
cc with evidence. The END of an instance's run hands over its summary and leaves the engine between runs; that of a model run
hands it to its engine and leaves it so too. A run of one of Dwentora's images, whose words the spec does not give, takes its
acts in their order in place of words (log 33), each from the one pass of the law that the run's first act formed: its OUT gives
the command, its CAP the current reference of that pass. Each of these rows answers a next state with its own effect where its
conditions hold: iaLdh, iaLdw, iaSth, iaStw, iaLse, iaHld, iaCap, iaOut, iaClm, iaErr, iaLoop, iaSkp, iaAdd, iaMov, iaMac,
iaDiv, iaEnd. (R239, R256, R257, R266, R267, R268, R269, R270, R272, R273, R279) -/
def Obligations.IatiaRunsLoadStoreCommandLoopAndEnd : Prop :=
  (∀ (e : Fin 160) (w : W) (s : State), let r := s.run e.val; let live := s.active r
    (s.atWord e 0x08 w → Does (.iaLdh e 0) s fun t => let p := loadView e.val 2 w s
      t.run e.val = { (p.2.run e.val).advance 1 with x := tset 0 r.x (fD w) (BitVec.ofNat 16 p.1) } ∧ t.ws = s.ws) ∧
    (s.atWord e 0x0A w → Does (.iaLdw e 0) s fun t => let p := loadView e.val 4 w s
      t.run e.val = { (p.2.run e.val).advance 1 with ac := tset 0 r.ac (fRac w) (BitVec.ofInt 40 (sx 32 p.1)) } ∧ t.ws = s.ws) ∧
    (∀ n o, (s.atWord e 0x08 w ∧ n = 2 ∨ s.atWord e 0x0A w ∧ n = 4) → s.placeOf r (r.ea w) n = .state o →
      (loadView e.val n w s).1 = s.wsVal r.ch (s.stateAt r o) n ∧ (loadView e.val n w s).2 = s) ∧
    (∀ n, s.placeOf r (r.ea w) n = .outside → (loadView e.val n w s).1 = 0 ∧ ((loadView e.val n w s).2.run e.val).bounds = r.bounds + 1) ∧
    (s.atWord e 0x09 w → Does (.iaSth e 0) s fun t => ∀ o, s.placeOf r (r.ea w) 2 = .state o →
      t.wsVal r.ch (s.stateAt r o) 2 = (r.xw (fD w)).toNat ∧ (t.run e.val).x = r.x ∧ t.chans = s.chans) ∧
    (s.atWord e 0x0B w → Does (.iaStw e 0) s fun t => let a := r.aci (fRac w); let o := decide (a < -2147483648 ∨ 2147483647 < a)
      (t.run e.val).v = o ∧ (t.run e.val).sat = (r.sat || o) ∧ ∀ p, s.placeOf r (r.ea w) 4 = .state p →
        t.wsVal r.ch (s.stateAt r p) 4 = (BitVec.ofInt 32 (max (-2147483648) (min 2147483647 a))).toNat) ∧
    (s.atWord e 0x32 w → Does (.iaLse e 0) s fun t => RunIs e s t { r.advance 1 with sig := (r.act 5 0 0).sig, lse := true }) ∧
    (s.atWord e 0x33 w → Does (.iaHld e 0) s fun t => RunIs e s t { r.advance 1 with sig := (r.act 4 0 0).sig, hld := true }) ∧
    (s.atWord e 0x34 w → Does (.iaCap e 0) s fun t =>
      RunIs e s t { r.advance 1 with sig := (r.act 6 0 (r.xw (fA w)).toNat).sig, cap := r.xw (fA w) }) ∧
    (s.atWord e 0x3D w → Does (.iaOut e 0) s fun t =>
      t.run e.val = { r.advance 1 with sig := (r.act 3 0 (r.xw (fD w)).toNat).sig, out := true } ∧
      (live = true → (t.chan r.ch).cmdQ = some (r.xi (fD w)) ∧ (t.chan r.ch).loop.delivered = true) ∧ (live = false → t.chans = s.chans) ∧
      ∀ j, j ≠ r.ch → t.chan j = s.chan j) ∧
    (s.atWord e 0x36 w → Does (.iaClm e 0) s fun t => (t.run e.val).x = r.x ∧ (t.run e.val).pc = (r.advance 1).pc ∧
      match s.selChan e.val r with
      | some ch => if (s.chan ch).st = .deleting then t.chans = s.chans else (t.chan ch).clampQ = some (r.xi (fA w), r.xi (fB w)) ∧ (t.chan ch).mdl.without = 0 ∧ ∀ j, j ≠ ch → t.chan j = s.chan j
      | none => t.chans = s.chans) ∧
    (s.atWord e 0x2F w → fMisc w % 2 = 1 → Does (.iaErr e 0) s fun t => let y := errOf (r.aci (fAcA w)) (r.aci (fAcB w)) (s.latchOf e.val r).esh
      (t.run e.val).xw (fXd w) = BitVec.ofInt 16 y.2.1 ∧ (t.run e.val).v = y.2.2 ∧ (live = false → t.chans = s.chans) ∧
      (live = true → (t.chan r.ch).loop.lastErr = BitVec.ofInt 32 y.1 ∧ ∀ j, j ≠ r.ch → t.chan j = s.chan j)) ∧
    (s.atWord e 0x3E w → Does (.iaLoop e 0) s fun t =>
      RunIs e s t (({ r with loops := { start := r.pc + 1, stop := r.pc + 1 + fLen w, left := fN w } :: r.loops } : Run).advance 1)) ∧
    (s.atWord e 0x3F w → Does (.iaSkp e 0) s fun t =>
      RunIs e s t (({ r with skip := if r.cond (fCond w) = true then r.pc + 1 + fLen w else r.skip } : Run).advance 1))) ∧
  (∀ (e : Fin 160) (w : W) (s : State) (row : Fin 5 → Instr) (op cost : Nat),
    (row, op, cost) ∈ [(Instr.iaAdd e, 0x10, 1), (.iaMov e, 0x05, 1), (.iaMac e, 0x21, 1), (.iaDiv e, 0x30, 16), (.iaSth e, 0x09, 1),
      (.iaStw e, 0x0B, 1), (.iaOut e, 0x3D, 1), (.iaLse e, 0x32, 1), (.iaHld e, 0x33, 1), (.iaClm e, 0x36, 1), (.iaErr e, 0x2F, 1)] →
    (s.run e.val).live = true → (s.runWords (s.run e.val))[(s.run e.val).pc]? = some w → opField w = op →
    ((s.run e.val).pc < (s.run e.val).skip → Does (row 0) s fun t => RunIs e s t ((s.run e.val).advance cost)) ∧
    Does (row 2) s fun t => t.run e.val = { (s.run e.val).advance 1 with evid := true } ∧ t.ws = s.ws ∧ t.chans = s.chans) ∧
  (∀ (e : Fin 160) (w : W) (s : State), let r := s.run e.val
    s.atWord e 0x01 w → e.val < 128 → Does (.iaEnd e 0) s fun t => (t.run e.val).live = false ∧ (∀ j, j ≠ e.val → t.run j = s.run j) ∧
      (∀ j, j ≠ r.ch → t.chan j = s.chan j) ∧ (t.chan r.ch).lease.sum (!r.inst) = (s.chan r.ch).lease.sum (!r.inst) ∧
      ∃ x, (t.chan r.ch).lease.sum r.inst = some x ∧ x.ended = true ∧ x.lse = r.lse ∧ x.out = r.out ∧ x.hld = r.hld ∧ x.bounds = r.bounds ∧
        x.sig = (r.act 0x0F 0 r.flags.toNat).sig) ∧
  (∀ (e : Fin 160) (err : Fin 5) (s : State), (s.run e.val).live = false → Does (.iaEnd e err) s fun t => t = s) ∧
  (∀ (e : Fin 160) (err : Fin 5) (w : W) (s : State), 128 ≤ e.val → (s.run e.val).live = true →
    (s.runWords (s.run e.val))[(s.run e.val).pc]? = some w → opField w = 0x01 → Does (.iaEnd e err) s fun t =>
      (t.run e.val).live = false ∧ (∀ j, j ≠ e.val → t.run j = s.run j) ∧
      (t.meng (e.val - 128)).sum.map (·.1) = some (s.run e.val).ch) ∧
  (∀ (e : Fin 160) (w : W) (s : State) (row : Fin 5 → Instr) (op : Nat) (f : State → State), let r := s.run e.val
    (row, op, f) ∈ [(Instr.iaLse e, 0x32, lawLse e.val), (.iaErr e, 0x2F, lawErr e.val), (.iaSth e, 0x09, lawStore e.val),
      (.iaOut e, 0x3D, lawAct e.val), (.iaStw e, 0x0B, stdStates e.val), (.iaCap e, 0x34, lawCap e.val), (.iaClm e, 0x36, modelClamp e.val)] →
    r.live = true → s.stdRun r = true → (s.runWords r)[r.pc]? = some w → opField w = op → r.skip ≤ r.pc →
    Does (row 0) s fun t => t = (f s).updRun e.val (fun x => x.advance 1) ∧
      (op = 0x3D → r.model = false → s.active r = true → (t.chan r.ch).cmdQ = some (BitVec.ofInt 16 (s.lawNow e.val).c).toInt) ∧
      (op = 0x34 → (t.run e.val).cap = BitVec.ofInt 16 (s.lawNow e.val).iref) ∧
      (op ∈ [0x32, 0x2F, 0x3D, 0x34] → ∀ o, r.law = some o → (t.run e.val).law = some o)) ∧
  (∀ (e : Nat) (s : State), s.lawNow e = (s.run e).law.getD (s.lawOf e (s.run e)))
end

