-- ==== Sys2Proof/Laws/Tab.lean ====
section
/-! SUPPORT. Laws of the sparse tables: reading after a write, and that every table operation keeps the canonical form. -/

namespace Sys2Proof.Machine

/-- The canonical form as a proposition: numbers strictly rising, no entry equal to what its number reads as unlisted. -/
theorem twf_iff {α : Type} [DecidableEq α] (d : Nat → α) (t : Tab α) :
    twf d t = true ↔ (∀ e ∈ t, e.2 ≠ d e.1) ∧ t.Pairwise (fun a b => a.1 < b.1) := by
  simp [twf, List.all_eq_true]

theorem twf_nil {α : Type} [DecidableEq α] (d : Nat → α) : twf d ([] : Tab α) = true := by simp [twf]

/-- Dropping entries keeps the canonical form. -/
theorem twf_filter {α : Type} [DecidableEq α] (d : Nat → α) (t : Tab α) (p : Nat × α → Bool) (h : twf d t = true) :
    twf d (t.filter p) = true := by
  rw [twf_iff] at h ⊢
  exact ⟨fun e he => h.1 e (List.mem_filter.1 he).1, h.2.filter p⟩

theorem twf_tdrop {α : Type} [DecidableEq α] (d : Nat → α) (t : Tab α) (p : Nat → Bool) (h : twf d t = true) :
    twf d (tdrop t p) = true := twf_filter d t _ h

theorem mem_tins {α : Type} (k : Nat) (v : α) (t : Tab α) (e : Nat × α) (h : e ∈ tins k v t) : e = (k, v) ∨ e ∈ t := by
  induction t with
  | nil => simpa [tins] using h
  | cons a r ih =>
    obtain ⟨i, w⟩ := a
    simp only [tins] at h
    split at h
    · simpa using h
    · rcases List.mem_cons.1 h with h | h
      · exact .inr (by simp [h])
      · rcases ih h with h | h
        · exact .inl h
        · exact .inr (List.mem_cons_of_mem _ h)

/-- Writing one number keeps the canonical form. -/
theorem twf_tset {α : Type} [DecidableEq α] (d : Nat → α) (t : Tab α) (k : Nat) (v : α) (h : twf d t = true) :
    twf d (tset (d k) t k v) = true := by
  have hf := twf_filter d t (fun e => e.1 != k) h
  have hk : ∀ e ∈ t.filter (fun e => e.1 != k), e.1 ≠ k := by
    intro e he; simpa using (List.mem_filter.1 he).2
  unfold tset
  generalize t.filter (fun e => e.1 != k) = u at hf hk
  split
  · exact hf
  · rename_i hv
    rw [twf_iff] at hf ⊢
    obtain ⟨h1, h2⟩ := hf
    refine ⟨?_, ?_⟩
    · intro e he
      rcases mem_tins k v u e he with rfl | he
      · exact hv
      · exact h1 e he
    · clear h1
      induction u with
      | nil => simp [tins]
      | cons a r ih =>
        obtain ⟨i, w⟩ := a
        rw [List.pairwise_cons] at h2
        simp only [tins]
        have hik : i ≠ k := hk (i, w) (by simp)
        split
        · rename_i hlt
          refine List.pairwise_cons.2 ⟨?_, List.pairwise_cons.2 h2⟩
          intro b hb
          rcases List.mem_cons.1 hb with rfl | hb
          · exact hlt
          · exact lt_trans hlt (h2.1 b hb)
        · rename_i hlt
          refine List.pairwise_cons.2 ⟨?_, ih (fun e he => hk e (List.mem_cons_of_mem _ he)) h2.2⟩
          intro b hb
          rcases mem_tins k v r b hb with rfl | hb
          · show i < k; omega
          · exact h2.1 b hb

theorem tget_tins_self {α : Type} (d v : α) (k : Nat) (t : Tab α) (h : ∀ e ∈ t, e.1 ≠ k) : tget d (tins k v t) k = v := by
  induction t with
  | nil => simp [tins, tget]
  | cons a r ih =>
    obtain ⟨i, w⟩ := a
    have hi : i ≠ k := h (i, w) (by simp)
    simp only [tins]
    split
    · simp [tget]
    · simp [tget, hi, ih (fun e he => h e (List.mem_cons_of_mem _ he))]

theorem tget_tins_ne {α : Type} (d v : α) (k j : Nat) (t : Tab α) (h : j ≠ k) : tget d (tins k v t) j = tget d t j := by
  induction t with
  | nil => simp [tins, tget, Ne.symm h]
  | cons a r ih =>
    obtain ⟨i, w⟩ := a
    simp only [tins]
    split <;> simp [tget, Ne.symm h, ih]

theorem tget_filter {α : Type} (d : α) (t : Tab α) (p : Nat → Bool) (j : Nat) :
    tget d (t.filter (fun e => p e.1)) j = if p j then tget d t j else d := by
  induction t with
  | nil => simp [tget]
  | cons a r ih =>
    obtain ⟨i, w⟩ := a
    by_cases hp : p i = true
    · by_cases hij : i = j
      · subst hij; simp [tget, hp]
      · simp [tget, hp, hij, ih]
    · by_cases hij : i = j
      · subst hij; simp [hp, ih]
      · simp [tget, hp, hij, ih]

/-- Reading the number written gives the value written. -/
@[simp] theorem tget_tset_self {α : Type} [DecidableEq α] (d v : α) (t : Tab α) (k : Nat) : tget d (tset d t k v) k = v := by
  unfold tset
  split
  · rename_i h; rw [tget_filter d t (fun i => i != k) k]; simp [h]
  · exact tget_tins_self d v k _ (by intro e he; simpa using (List.mem_filter.1 he).2)

/-- A write leaves every other number alone, whatever the two numbers read as unlisted. -/
theorem tget_tset_ne {α : Type} [DecidableEq α] (d d' v : α) (t : Tab α) (k j : Nat) (h : j ≠ k) :
    tget d' (tset d t k v) j = tget d' t j := by
  have hf := tget_filter d' t (fun i => i != k) j
  simp only [bne_iff_ne, ne_eq, h, not_false_eq_true, if_true] at hf
  unfold tset
  split
  · exact hf
  · rw [tget_tins_ne d' v k j _ h]; exact hf

theorem tget_tset {α : Type} [DecidableEq α] (d v : α) (t : Tab α) (k j : Nat) :
    tget d (tset d t k v) j = if j = k then v else tget d t j := by
  split
  · rename_i h; subst h; simp
  · rename_i h; exact tget_tset_ne d d v t k j h

/-- A dropped number reads as unlisted, the others as before. -/
theorem tget_tdrop {α : Type} (d : α) (t : Tab α) (p : Nat → Bool) (j : Nat) :
    tget d (tdrop t p) j = if p j then d else tget d t j := by
  have := tget_filter d t (fun i => !p i) j
  unfold tdrop
  rw [this]
  cases p j <;> simp

/-- A property of every value a fold of operations reaches. -/
theorem foldl_keep {α β : Type} (P : β → Prop) (f : β → α → β) (hf : ∀ b a, P b → P (f b a)) (l : List α) (b : β)
    (h : P b) : P (l.foldl f b) := by
  induction l generalizing b with
  | nil => exact h
  | cons a r ih => exact ih _ (hf b a h)

/-- A view that every operation leaves alone is left alone by a fold of them. -/
theorem foldl_same {α β γ : Type} (g : β → γ) (f : β → α → β) (hf : ∀ b a, g (f b a) = g b) (l : List α) (b : β) :
    g (l.foldl f b) = g b := by
  induction l generalizing b with
  | nil => rfl
  | cons a r ih => rw [List.foldl_cons, ih, hf]

end Sys2Proof.Machine
end

