-- ==== Sys2Proof/Laws/State.lean ====
section
/-! SUPPORT. One lemma for each field and each primitive operation: what it leaves alone, and what a read after a write gives. -/

namespace Sys2Proof.Machine

open Sys2Proof

@[simp] theorem State.setReg_pending (s : State) (a : Nat) (v : W) : (s.setReg a v).pending = s.pending := rfl
@[simp] theorem State.setReg_wide (s : State) (a : Nat) (v : W) : (s.setReg a v).wide = s.wide := rfl
@[simp] theorem State.setReg_hiLatch (s : State) (a : Nat) (v : W) : (s.setReg a v).hiLatch = s.hiLatch := rfl
@[simp] theorem State.setReg_gens (s : State) (a : Nat) (v : W) : (s.setReg a v).gens = s.gens := rfl
@[simp] theorem State.setReg_ws (s : State) (a : Nat) (v : W) : (s.setReg a v).ws = s.ws := rfl
@[simp] theorem State.setReg_dram (s : State) (a : Nat) (v : W) : (s.setReg a v).dram = s.dram := rfl
@[simp] theorem State.setReg_dom (s : State) (a : Nat) (v : W) : (s.setReg a v).dom = s.dom := rfl
@[simp] theorem State.setReg_boot (s : State) (a : Nat) (v : W) : (s.setReg a v).boot = s.boot := rfl
@[simp] theorem State.setReg_amb (s : State) (a : Nat) (v : W) : (s.setReg a v).amb = s.amb := rfl
@[simp] theorem State.setReg_ports (s : State) (a : Nat) (v : W) : (s.setReg a v).ports = s.ports := rfl
@[simp] theorem State.setReg_outs (s : State) (a : Nat) (v : W) : (s.setReg a v).outs = s.outs := rfl
@[simp] theorem State.setReg_bell (s : State) (a : Nat) (v : W) : (s.setReg a v).bell = s.bell := rfl
@[simp] theorem State.setReg_chans (s : State) (a : Nat) (v : W) : (s.setReg a v).chans = s.chans := rfl
@[simp] theorem State.setReg_terms (s : State) (a : Nat) (v : W) : (s.setReg a v).terms = s.terms := rfl
@[simp] theorem State.setReg_folds (s : State) (a : Nat) (v : W) : (s.setReg a v).folds = s.folds := rfl
@[simp] theorem State.setReg_binds (s : State) (a : Nat) (v : W) : (s.setReg a v).binds = s.binds := rfl
@[simp] theorem State.setReg_gates (s : State) (a : Nat) (v : W) : (s.setReg a v).gates = s.gates := rfl
@[simp] theorem State.setReg_timers (s : State) (a : Nat) (v : W) : (s.setReg a v).timers = s.timers := rfl
@[simp] theorem State.setReg_trips (s : State) (a : Nat) (v : W) : (s.setReg a v).trips = s.trips := rfl
@[simp] theorem State.setReg_motors (s : State) (a : Nat) (v : W) : (s.setReg a v).motors = s.motors := rfl
@[simp] theorem State.setReg_caps (s : State) (a : Nat) (v : W) : (s.setReg a v).caps = s.caps := rfl
@[simp] theorem State.setReg_injs (s : State) (a : Nat) (v : W) : (s.setReg a v).injs = s.injs := rfl
@[simp] theorem State.setReg_images (s : State) (a : Nat) (v : W) : (s.setReg a v).images = s.images := rfl
@[simp] theorem State.setReg_health (s : State) (a : Nat) (v : W) : (s.setReg a v).health = s.health := rfl
@[simp] theorem State.setReg_runs (s : State) (a : Nat) (v : W) : (s.setReg a v).runs = s.runs := rfl
@[simp] theorem State.setReg_mengs (s : State) (a : Nat) (v : W) : (s.setReg a v).mengs = s.mengs := rfl
@[simp] theorem State.setReg_sense (s : State) (a : Nat) (v : W) : (s.setReg a v).sense = s.sense := rfl
@[simp] theorem State.setReg_fs (s : State) (a : Nat) (v : W) : (s.setReg a v).fs = s.fs := rfl
@[simp] theorem State.setReg_cores (s : State) (a : Nat) (v : W) : (s.setReg a v).cores = s.cores := rfl
@[simp] theorem State.setReg_bists (s : State) (a : Nat) (v : W) : (s.setReg a v).bists = s.bists := rfl
@[simp] theorem State.setReg_jtag (s : State) (a : Nat) (v : W) : (s.setReg a v).jtag = s.jtag := rfl
@[simp] theorem State.setReg_diags (s : State) (a : Nat) (v : W) : (s.setReg a v).diags = s.diags := rfl
@[simp] theorem State.setReg_rings (s : State) (a : Nat) (v : W) : (s.setReg a v).rings = s.rings := rfl
@[simp] theorem State.setReg_svc (s : State) (a : Nat) (v : W) : (s.setReg a v).svc = s.svc := rfl
@[simp] theorem State.setReg_col (s : State) (a : Nat) (v : W) : (s.setReg a v).col = s.col := rfl
@[simp] theorem State.setReg_tal (s : State) (a : Nat) (v : W) : (s.setReg a v).tal = s.tal := rfl
@[simp] theorem State.setReg_sec (s : State) (a : Nat) (v : W) : (s.setReg a v).sec = s.sec := rfl
@[simp] theorem State.setReg_attest (s : State) (a : Nat) (v : W) : (s.setReg a v).attest = s.attest := rfl
@[simp] theorem State.setReg_host (s : State) (a : Nat) (v : W) : (s.setReg a v).host = s.host := rfl
@[simp] theorem State.setReg_stn (s : State) (a : Nat) (v : W) : (s.setReg a v).stn = s.stn := rfl
@[simp] theorem State.setReg_nv (s : State) (a : Nat) (v : W) : (s.setReg a v).nv = s.nv := rfl
@[simp] theorem State.setReg_free (s : State) (a : Nat) (v : W) : (s.setReg a v).free = s.free := rfl
@[simp] theorem State.setReg_at_wideAt (s : State) (a : Nat) (v : W) (j : Nat) : (s.setReg a v).wideAt j = s.wideAt j := rfl
@[simp] theorem State.setReg_at_port (s : State) (a : Nat) (v : W) (j : Nat) : (s.setReg a v).port j = s.port j := rfl
@[simp] theorem State.setReg_at_out (s : State) (a : Nat) (v : W) (j : Nat) : (s.setReg a v).out j = s.out j := rfl
@[simp] theorem State.setReg_at_chan (s : State) (a : Nat) (v : W) (j : Nat) : (s.setReg a v).chan j = s.chan j := rfl
@[simp] theorem State.setReg_at_term (s : State) (a : Nat) (v : W) (j : Nat) : (s.setReg a v).term j = s.term j := rfl
@[simp] theorem State.setReg_at_fold (s : State) (a : Nat) (v : W) (j : Nat) : (s.setReg a v).fold j = s.fold j := rfl
@[simp] theorem State.setReg_at_bind (s : State) (a : Nat) (v : W) (j : Nat) : (s.setReg a v).bind j = s.bind j := rfl
@[simp] theorem State.setReg_at_gate (s : State) (a : Nat) (v : W) (j : Nat) : (s.setReg a v).gate j = s.gate j := rfl
@[simp] theorem State.setReg_at_timer (s : State) (a : Nat) (v : W) (j : Nat) : (s.setReg a v).timer j = s.timer j := rfl
@[simp] theorem State.setReg_at_trip (s : State) (a : Nat) (v : W) (j : Nat) : (s.setReg a v).trip j = s.trip j := rfl
@[simp] theorem State.setReg_at_ring (s : State) (a : Nat) (v : W) (j : Nat) : (s.setReg a v).ring j = s.ring j := rfl
@[simp] theorem State.setReg_at_inj (s : State) (a : Nat) (v : W) (j : Nat) : (s.setReg a v).inj j = s.inj j := rfl
@[simp] theorem State.setReg_at_cap (s : State) (a : Nat) (v : W) (j : Nat) : (s.setReg a v).cap j = s.cap j := rfl
@[simp] theorem State.setReg_at_motor (s : State) (a : Nat) (v : W) (j : Nat) : (s.setReg a v).motor j = s.motor j := rfl
@[simp] theorem State.setReg_at_hlt (s : State) (a : Nat) (v : W) (j : Nat) : (s.setReg a v).hlt j = s.hlt j := rfl
@[simp] theorem State.setReg_at_run (s : State) (a : Nat) (v : W) (j : Nat) : (s.setReg a v).run j = s.run j := rfl
@[simp] theorem State.setReg_at_meng (s : State) (a : Nat) (v : W) (j : Nat) : (s.setReg a v).meng j = s.meng j := rfl
@[simp] theorem State.setReg_at_sns (s : State) (a : Nat) (v : W) (j : Nat) : (s.setReg a v).sns j = s.sns j := rfl
@[simp] theorem State.setReg_at_image (s : State) (a : Nat) (v : W) (j : Nat) : (s.setReg a v).image j = s.image j := rfl
@[simp] theorem State.setReg_at_fsPair (s : State) (a : Nat) (v : W) (j : Nat) : (s.setReg a v).fsPair j = s.fsPair j := rfl
@[simp] theorem State.setReg_at_core (s : State) (a : Nat) (v : W) (j : Nat) : (s.setReg a v).core j = s.core j := rfl
@[simp] theorem State.setReg_at_bist (s : State) (a : Nat) (v : W) (j : Nat) : (s.setReg a v).bist j = s.bist j := rfl
@[simp] theorem State.setReg_at_dramByte (s : State) (a : Nat) (v : W) (j : Nat) : (s.setReg a v).dramByte j = s.dramByte j := rfl
@[simp] theorem State.setReg_at_diag (s : State) (a : Nat) (v : W) (j : Nat) : (s.setReg a v).diag j = s.diag j := rfl

@[simp] theorem State.updReg_eq (s : State) (a : Nat) (f : W → W) : s.updReg a f = s.setReg a (f (s.reg a)) := rfl
@[simp] theorem State.bump_eq (s : State) (a : Nat) : s.bump a = s.updReg a (· + 1) := rfl
@[simp] theorem State.addReg_eq (s : State) (a n : Nat) : s.addReg a n = s.updReg a (· + BitVec.ofNat 32 n) := rfl
@[simp] theorem State.setField_eq (s : State) (a lo w v : Nat) : s.setField a lo w v = s.updReg a (fun r => setFld r lo w v) := rfl
@[simp] theorem State.clearRegs_pending (s : State) (p : Nat → Bool) : (s.clearRegs p).pending = s.pending := rfl
@[simp] theorem State.clearRegs_wide (s : State) (p : Nat → Bool) : (s.clearRegs p).wide = s.wide := rfl
@[simp] theorem State.clearRegs_hiLatch (s : State) (p : Nat → Bool) : (s.clearRegs p).hiLatch = s.hiLatch := rfl
@[simp] theorem State.clearRegs_gens (s : State) (p : Nat → Bool) : (s.clearRegs p).gens = s.gens := rfl
@[simp] theorem State.clearRegs_ws (s : State) (p : Nat → Bool) : (s.clearRegs p).ws = s.ws := rfl
@[simp] theorem State.clearRegs_dram (s : State) (p : Nat → Bool) : (s.clearRegs p).dram = s.dram := rfl
@[simp] theorem State.clearRegs_dom (s : State) (p : Nat → Bool) : (s.clearRegs p).dom = s.dom := rfl
@[simp] theorem State.clearRegs_boot (s : State) (p : Nat → Bool) : (s.clearRegs p).boot = s.boot := rfl
@[simp] theorem State.clearRegs_amb (s : State) (p : Nat → Bool) : (s.clearRegs p).amb = s.amb := rfl
@[simp] theorem State.clearRegs_ports (s : State) (p : Nat → Bool) : (s.clearRegs p).ports = s.ports := rfl
@[simp] theorem State.clearRegs_outs (s : State) (p : Nat → Bool) : (s.clearRegs p).outs = s.outs := rfl
@[simp] theorem State.clearRegs_bell (s : State) (p : Nat → Bool) : (s.clearRegs p).bell = s.bell := rfl
@[simp] theorem State.clearRegs_chans (s : State) (p : Nat → Bool) : (s.clearRegs p).chans = s.chans := rfl
@[simp] theorem State.clearRegs_terms (s : State) (p : Nat → Bool) : (s.clearRegs p).terms = s.terms := rfl
@[simp] theorem State.clearRegs_folds (s : State) (p : Nat → Bool) : (s.clearRegs p).folds = s.folds := rfl
@[simp] theorem State.clearRegs_binds (s : State) (p : Nat → Bool) : (s.clearRegs p).binds = s.binds := rfl
@[simp] theorem State.clearRegs_gates (s : State) (p : Nat → Bool) : (s.clearRegs p).gates = s.gates := rfl
@[simp] theorem State.clearRegs_timers (s : State) (p : Nat → Bool) : (s.clearRegs p).timers = s.timers := rfl
@[simp] theorem State.clearRegs_trips (s : State) (p : Nat → Bool) : (s.clearRegs p).trips = s.trips := rfl
@[simp] theorem State.clearRegs_motors (s : State) (p : Nat → Bool) : (s.clearRegs p).motors = s.motors := rfl
@[simp] theorem State.clearRegs_caps (s : State) (p : Nat → Bool) : (s.clearRegs p).caps = s.caps := rfl
@[simp] theorem State.clearRegs_injs (s : State) (p : Nat → Bool) : (s.clearRegs p).injs = s.injs := rfl
@[simp] theorem State.clearRegs_images (s : State) (p : Nat → Bool) : (s.clearRegs p).images = s.images := rfl
@[simp] theorem State.clearRegs_health (s : State) (p : Nat → Bool) : (s.clearRegs p).health = s.health := rfl
@[simp] theorem State.clearRegs_runs (s : State) (p : Nat → Bool) : (s.clearRegs p).runs = s.runs := rfl
@[simp] theorem State.clearRegs_mengs (s : State) (p : Nat → Bool) : (s.clearRegs p).mengs = s.mengs := rfl
@[simp] theorem State.clearRegs_sense (s : State) (p : Nat → Bool) : (s.clearRegs p).sense = s.sense := rfl
@[simp] theorem State.clearRegs_fs (s : State) (p : Nat → Bool) : (s.clearRegs p).fs = s.fs := rfl
@[simp] theorem State.clearRegs_cores (s : State) (p : Nat → Bool) : (s.clearRegs p).cores = s.cores := rfl
@[simp] theorem State.clearRegs_bists (s : State) (p : Nat → Bool) : (s.clearRegs p).bists = s.bists := rfl
@[simp] theorem State.clearRegs_jtag (s : State) (p : Nat → Bool) : (s.clearRegs p).jtag = s.jtag := rfl
@[simp] theorem State.clearRegs_diags (s : State) (p : Nat → Bool) : (s.clearRegs p).diags = s.diags := rfl
@[simp] theorem State.clearRegs_rings (s : State) (p : Nat → Bool) : (s.clearRegs p).rings = s.rings := rfl
@[simp] theorem State.clearRegs_svc (s : State) (p : Nat → Bool) : (s.clearRegs p).svc = s.svc := rfl
@[simp] theorem State.clearRegs_col (s : State) (p : Nat → Bool) : (s.clearRegs p).col = s.col := rfl
@[simp] theorem State.clearRegs_tal (s : State) (p : Nat → Bool) : (s.clearRegs p).tal = s.tal := rfl
@[simp] theorem State.clearRegs_sec (s : State) (p : Nat → Bool) : (s.clearRegs p).sec = s.sec := rfl
@[simp] theorem State.clearRegs_attest (s : State) (p : Nat → Bool) : (s.clearRegs p).attest = s.attest := rfl
@[simp] theorem State.clearRegs_host (s : State) (p : Nat → Bool) : (s.clearRegs p).host = s.host := rfl
@[simp] theorem State.clearRegs_stn (s : State) (p : Nat → Bool) : (s.clearRegs p).stn = s.stn := rfl
@[simp] theorem State.clearRegs_nv (s : State) (p : Nat → Bool) : (s.clearRegs p).nv = s.nv := rfl
@[simp] theorem State.clearRegs_free (s : State) (p : Nat → Bool) : (s.clearRegs p).free = s.free := rfl
@[simp] theorem State.clearRegs_at_wideAt (s : State) (p : Nat → Bool) (j : Nat) : (s.clearRegs p).wideAt j = s.wideAt j := rfl
@[simp] theorem State.clearRegs_at_port (s : State) (p : Nat → Bool) (j : Nat) : (s.clearRegs p).port j = s.port j := rfl
@[simp] theorem State.clearRegs_at_out (s : State) (p : Nat → Bool) (j : Nat) : (s.clearRegs p).out j = s.out j := rfl
@[simp] theorem State.clearRegs_at_chan (s : State) (p : Nat → Bool) (j : Nat) : (s.clearRegs p).chan j = s.chan j := rfl
@[simp] theorem State.clearRegs_at_term (s : State) (p : Nat → Bool) (j : Nat) : (s.clearRegs p).term j = s.term j := rfl
@[simp] theorem State.clearRegs_at_fold (s : State) (p : Nat → Bool) (j : Nat) : (s.clearRegs p).fold j = s.fold j := rfl
@[simp] theorem State.clearRegs_at_bind (s : State) (p : Nat → Bool) (j : Nat) : (s.clearRegs p).bind j = s.bind j := rfl
@[simp] theorem State.clearRegs_at_gate (s : State) (p : Nat → Bool) (j : Nat) : (s.clearRegs p).gate j = s.gate j := rfl
@[simp] theorem State.clearRegs_at_timer (s : State) (p : Nat → Bool) (j : Nat) : (s.clearRegs p).timer j = s.timer j := rfl
@[simp] theorem State.clearRegs_at_trip (s : State) (p : Nat → Bool) (j : Nat) : (s.clearRegs p).trip j = s.trip j := rfl
@[simp] theorem State.clearRegs_at_ring (s : State) (p : Nat → Bool) (j : Nat) : (s.clearRegs p).ring j = s.ring j := rfl
@[simp] theorem State.clearRegs_at_inj (s : State) (p : Nat → Bool) (j : Nat) : (s.clearRegs p).inj j = s.inj j := rfl
@[simp] theorem State.clearRegs_at_cap (s : State) (p : Nat → Bool) (j : Nat) : (s.clearRegs p).cap j = s.cap j := rfl
@[simp] theorem State.clearRegs_at_motor (s : State) (p : Nat → Bool) (j : Nat) : (s.clearRegs p).motor j = s.motor j := rfl
@[simp] theorem State.clearRegs_at_hlt (s : State) (p : Nat → Bool) (j : Nat) : (s.clearRegs p).hlt j = s.hlt j := rfl
@[simp] theorem State.clearRegs_at_run (s : State) (p : Nat → Bool) (j : Nat) : (s.clearRegs p).run j = s.run j := rfl
@[simp] theorem State.clearRegs_at_meng (s : State) (p : Nat → Bool) (j : Nat) : (s.clearRegs p).meng j = s.meng j := rfl
@[simp] theorem State.clearRegs_at_sns (s : State) (p : Nat → Bool) (j : Nat) : (s.clearRegs p).sns j = s.sns j := rfl
@[simp] theorem State.clearRegs_at_image (s : State) (p : Nat → Bool) (j : Nat) : (s.clearRegs p).image j = s.image j := rfl
@[simp] theorem State.clearRegs_at_fsPair (s : State) (p : Nat → Bool) (j : Nat) : (s.clearRegs p).fsPair j = s.fsPair j := rfl
@[simp] theorem State.clearRegs_at_core (s : State) (p : Nat → Bool) (j : Nat) : (s.clearRegs p).core j = s.core j := rfl
@[simp] theorem State.clearRegs_at_bist (s : State) (p : Nat → Bool) (j : Nat) : (s.clearRegs p).bist j = s.bist j := rfl
@[simp] theorem State.clearRegs_at_dramByte (s : State) (p : Nat → Bool) (j : Nat) : (s.clearRegs p).dramByte j = s.dramByte j := rfl
@[simp] theorem State.clearRegs_at_diag (s : State) (p : Nat → Bool) (j : Nat) : (s.clearRegs p).diag j = s.diag j := rfl

@[simp] theorem State.addWide_pending (s : State) (a : Nat) (n : Int) : (s.addWide a n).pending = s.pending := rfl
@[simp] theorem State.addWide_regs (s : State) (a : Nat) (n : Int) : (s.addWide a n).regs = s.regs := rfl
@[simp] theorem State.addWide_hiLatch (s : State) (a : Nat) (n : Int) : (s.addWide a n).hiLatch = s.hiLatch := rfl
@[simp] theorem State.addWide_gens (s : State) (a : Nat) (n : Int) : (s.addWide a n).gens = s.gens := rfl
@[simp] theorem State.addWide_ws (s : State) (a : Nat) (n : Int) : (s.addWide a n).ws = s.ws := rfl
@[simp] theorem State.addWide_dram (s : State) (a : Nat) (n : Int) : (s.addWide a n).dram = s.dram := rfl
@[simp] theorem State.addWide_dom (s : State) (a : Nat) (n : Int) : (s.addWide a n).dom = s.dom := rfl
@[simp] theorem State.addWide_boot (s : State) (a : Nat) (n : Int) : (s.addWide a n).boot = s.boot := rfl
@[simp] theorem State.addWide_amb (s : State) (a : Nat) (n : Int) : (s.addWide a n).amb = s.amb := rfl
@[simp] theorem State.addWide_ports (s : State) (a : Nat) (n : Int) : (s.addWide a n).ports = s.ports := rfl
@[simp] theorem State.addWide_outs (s : State) (a : Nat) (n : Int) : (s.addWide a n).outs = s.outs := rfl
@[simp] theorem State.addWide_bell (s : State) (a : Nat) (n : Int) : (s.addWide a n).bell = s.bell := rfl
@[simp] theorem State.addWide_chans (s : State) (a : Nat) (n : Int) : (s.addWide a n).chans = s.chans := rfl
@[simp] theorem State.addWide_terms (s : State) (a : Nat) (n : Int) : (s.addWide a n).terms = s.terms := rfl
@[simp] theorem State.addWide_folds (s : State) (a : Nat) (n : Int) : (s.addWide a n).folds = s.folds := rfl
@[simp] theorem State.addWide_binds (s : State) (a : Nat) (n : Int) : (s.addWide a n).binds = s.binds := rfl
@[simp] theorem State.addWide_gates (s : State) (a : Nat) (n : Int) : (s.addWide a n).gates = s.gates := rfl
@[simp] theorem State.addWide_timers (s : State) (a : Nat) (n : Int) : (s.addWide a n).timers = s.timers := rfl
@[simp] theorem State.addWide_trips (s : State) (a : Nat) (n : Int) : (s.addWide a n).trips = s.trips := rfl
@[simp] theorem State.addWide_motors (s : State) (a : Nat) (n : Int) : (s.addWide a n).motors = s.motors := rfl
@[simp] theorem State.addWide_caps (s : State) (a : Nat) (n : Int) : (s.addWide a n).caps = s.caps := rfl
@[simp] theorem State.addWide_injs (s : State) (a : Nat) (n : Int) : (s.addWide a n).injs = s.injs := rfl
@[simp] theorem State.addWide_images (s : State) (a : Nat) (n : Int) : (s.addWide a n).images = s.images := rfl
@[simp] theorem State.addWide_health (s : State) (a : Nat) (n : Int) : (s.addWide a n).health = s.health := rfl
@[simp] theorem State.addWide_runs (s : State) (a : Nat) (n : Int) : (s.addWide a n).runs = s.runs := rfl
@[simp] theorem State.addWide_mengs (s : State) (a : Nat) (n : Int) : (s.addWide a n).mengs = s.mengs := rfl
@[simp] theorem State.addWide_sense (s : State) (a : Nat) (n : Int) : (s.addWide a n).sense = s.sense := rfl
@[simp] theorem State.addWide_fs (s : State) (a : Nat) (n : Int) : (s.addWide a n).fs = s.fs := rfl
@[simp] theorem State.addWide_cores (s : State) (a : Nat) (n : Int) : (s.addWide a n).cores = s.cores := rfl
@[simp] theorem State.addWide_bists (s : State) (a : Nat) (n : Int) : (s.addWide a n).bists = s.bists := rfl
@[simp] theorem State.addWide_jtag (s : State) (a : Nat) (n : Int) : (s.addWide a n).jtag = s.jtag := rfl
@[simp] theorem State.addWide_diags (s : State) (a : Nat) (n : Int) : (s.addWide a n).diags = s.diags := rfl
@[simp] theorem State.addWide_rings (s : State) (a : Nat) (n : Int) : (s.addWide a n).rings = s.rings := rfl
@[simp] theorem State.addWide_svc (s : State) (a : Nat) (n : Int) : (s.addWide a n).svc = s.svc := rfl
@[simp] theorem State.addWide_col (s : State) (a : Nat) (n : Int) : (s.addWide a n).col = s.col := rfl
@[simp] theorem State.addWide_tal (s : State) (a : Nat) (n : Int) : (s.addWide a n).tal = s.tal := rfl
@[simp] theorem State.addWide_sec (s : State) (a : Nat) (n : Int) : (s.addWide a n).sec = s.sec := rfl
@[simp] theorem State.addWide_attest (s : State) (a : Nat) (n : Int) : (s.addWide a n).attest = s.attest := rfl
@[simp] theorem State.addWide_host (s : State) (a : Nat) (n : Int) : (s.addWide a n).host = s.host := rfl
@[simp] theorem State.addWide_stn (s : State) (a : Nat) (n : Int) : (s.addWide a n).stn = s.stn := rfl
@[simp] theorem State.addWide_nv (s : State) (a : Nat) (n : Int) : (s.addWide a n).nv = s.nv := rfl
@[simp] theorem State.addWide_free (s : State) (a : Nat) (n : Int) : (s.addWide a n).free = s.free := rfl
@[simp] theorem State.addWide_at_reg (s : State) (a : Nat) (n : Int) (j : Nat) : (s.addWide a n).reg j = s.reg j := rfl
@[simp] theorem State.addWide_at_port (s : State) (a : Nat) (n : Int) (j : Nat) : (s.addWide a n).port j = s.port j := rfl
@[simp] theorem State.addWide_at_out (s : State) (a : Nat) (n : Int) (j : Nat) : (s.addWide a n).out j = s.out j := rfl
@[simp] theorem State.addWide_at_chan (s : State) (a : Nat) (n : Int) (j : Nat) : (s.addWide a n).chan j = s.chan j := rfl
@[simp] theorem State.addWide_at_term (s : State) (a : Nat) (n : Int) (j : Nat) : (s.addWide a n).term j = s.term j := rfl
@[simp] theorem State.addWide_at_fold (s : State) (a : Nat) (n : Int) (j : Nat) : (s.addWide a n).fold j = s.fold j := rfl
@[simp] theorem State.addWide_at_bind (s : State) (a : Nat) (n : Int) (j : Nat) : (s.addWide a n).bind j = s.bind j := rfl
@[simp] theorem State.addWide_at_gate (s : State) (a : Nat) (n : Int) (j : Nat) : (s.addWide a n).gate j = s.gate j := rfl
@[simp] theorem State.addWide_at_timer (s : State) (a : Nat) (n : Int) (j : Nat) : (s.addWide a n).timer j = s.timer j := rfl
@[simp] theorem State.addWide_at_trip (s : State) (a : Nat) (n : Int) (j : Nat) : (s.addWide a n).trip j = s.trip j := rfl
@[simp] theorem State.addWide_at_ring (s : State) (a : Nat) (n : Int) (j : Nat) : (s.addWide a n).ring j = s.ring j := rfl
@[simp] theorem State.addWide_at_inj (s : State) (a : Nat) (n : Int) (j : Nat) : (s.addWide a n).inj j = s.inj j := rfl
@[simp] theorem State.addWide_at_cap (s : State) (a : Nat) (n : Int) (j : Nat) : (s.addWide a n).cap j = s.cap j := rfl
@[simp] theorem State.addWide_at_motor (s : State) (a : Nat) (n : Int) (j : Nat) : (s.addWide a n).motor j = s.motor j := rfl
@[simp] theorem State.addWide_at_hlt (s : State) (a : Nat) (n : Int) (j : Nat) : (s.addWide a n).hlt j = s.hlt j := rfl
@[simp] theorem State.addWide_at_run (s : State) (a : Nat) (n : Int) (j : Nat) : (s.addWide a n).run j = s.run j := rfl
@[simp] theorem State.addWide_at_meng (s : State) (a : Nat) (n : Int) (j : Nat) : (s.addWide a n).meng j = s.meng j := rfl
@[simp] theorem State.addWide_at_sns (s : State) (a : Nat) (n : Int) (j : Nat) : (s.addWide a n).sns j = s.sns j := rfl
@[simp] theorem State.addWide_at_image (s : State) (a : Nat) (n : Int) (j : Nat) : (s.addWide a n).image j = s.image j := rfl
@[simp] theorem State.addWide_at_fsPair (s : State) (a : Nat) (n : Int) (j : Nat) : (s.addWide a n).fsPair j = s.fsPair j := rfl
@[simp] theorem State.addWide_at_core (s : State) (a : Nat) (n : Int) (j : Nat) : (s.addWide a n).core j = s.core j := rfl
@[simp] theorem State.addWide_at_bist (s : State) (a : Nat) (n : Int) (j : Nat) : (s.addWide a n).bist j = s.bist j := rfl
@[simp] theorem State.addWide_at_dramByte (s : State) (a : Nat) (n : Int) (j : Nat) : (s.addWide a n).dramByte j = s.dramByte j := rfl
@[simp] theorem State.addWide_at_diag (s : State) (a : Nat) (n : Int) (j : Nat) : (s.addWide a n).diag j = s.diag j := rfl

@[simp] theorem State.setWide_pending (s : State) (a : Nat) (v : BitVec 48) : (s.setWide a v).pending = s.pending := rfl
@[simp] theorem State.setWide_regs (s : State) (a : Nat) (v : BitVec 48) : (s.setWide a v).regs = s.regs := rfl
@[simp] theorem State.setWide_hiLatch (s : State) (a : Nat) (v : BitVec 48) : (s.setWide a v).hiLatch = s.hiLatch := rfl
@[simp] theorem State.setWide_gens (s : State) (a : Nat) (v : BitVec 48) : (s.setWide a v).gens = s.gens := rfl
@[simp] theorem State.setWide_ws (s : State) (a : Nat) (v : BitVec 48) : (s.setWide a v).ws = s.ws := rfl
@[simp] theorem State.setWide_dram (s : State) (a : Nat) (v : BitVec 48) : (s.setWide a v).dram = s.dram := rfl
@[simp] theorem State.setWide_dom (s : State) (a : Nat) (v : BitVec 48) : (s.setWide a v).dom = s.dom := rfl
@[simp] theorem State.setWide_boot (s : State) (a : Nat) (v : BitVec 48) : (s.setWide a v).boot = s.boot := rfl
@[simp] theorem State.setWide_amb (s : State) (a : Nat) (v : BitVec 48) : (s.setWide a v).amb = s.amb := rfl
@[simp] theorem State.setWide_ports (s : State) (a : Nat) (v : BitVec 48) : (s.setWide a v).ports = s.ports := rfl
@[simp] theorem State.setWide_outs (s : State) (a : Nat) (v : BitVec 48) : (s.setWide a v).outs = s.outs := rfl
@[simp] theorem State.setWide_bell (s : State) (a : Nat) (v : BitVec 48) : (s.setWide a v).bell = s.bell := rfl
@[simp] theorem State.setWide_chans (s : State) (a : Nat) (v : BitVec 48) : (s.setWide a v).chans = s.chans := rfl
@[simp] theorem State.setWide_terms (s : State) (a : Nat) (v : BitVec 48) : (s.setWide a v).terms = s.terms := rfl
@[simp] theorem State.setWide_folds (s : State) (a : Nat) (v : BitVec 48) : (s.setWide a v).folds = s.folds := rfl
@[simp] theorem State.setWide_binds (s : State) (a : Nat) (v : BitVec 48) : (s.setWide a v).binds = s.binds := rfl
@[simp] theorem State.setWide_gates (s : State) (a : Nat) (v : BitVec 48) : (s.setWide a v).gates = s.gates := rfl
@[simp] theorem State.setWide_timers (s : State) (a : Nat) (v : BitVec 48) : (s.setWide a v).timers = s.timers := rfl
@[simp] theorem State.setWide_trips (s : State) (a : Nat) (v : BitVec 48) : (s.setWide a v).trips = s.trips := rfl
@[simp] theorem State.setWide_motors (s : State) (a : Nat) (v : BitVec 48) : (s.setWide a v).motors = s.motors := rfl
@[simp] theorem State.setWide_caps (s : State) (a : Nat) (v : BitVec 48) : (s.setWide a v).caps = s.caps := rfl
@[simp] theorem State.setWide_injs (s : State) (a : Nat) (v : BitVec 48) : (s.setWide a v).injs = s.injs := rfl
@[simp] theorem State.setWide_images (s : State) (a : Nat) (v : BitVec 48) : (s.setWide a v).images = s.images := rfl
@[simp] theorem State.setWide_health (s : State) (a : Nat) (v : BitVec 48) : (s.setWide a v).health = s.health := rfl
@[simp] theorem State.setWide_runs (s : State) (a : Nat) (v : BitVec 48) : (s.setWide a v).runs = s.runs := rfl
@[simp] theorem State.setWide_mengs (s : State) (a : Nat) (v : BitVec 48) : (s.setWide a v).mengs = s.mengs := rfl
@[simp] theorem State.setWide_sense (s : State) (a : Nat) (v : BitVec 48) : (s.setWide a v).sense = s.sense := rfl
@[simp] theorem State.setWide_fs (s : State) (a : Nat) (v : BitVec 48) : (s.setWide a v).fs = s.fs := rfl
@[simp] theorem State.setWide_cores (s : State) (a : Nat) (v : BitVec 48) : (s.setWide a v).cores = s.cores := rfl
@[simp] theorem State.setWide_bists (s : State) (a : Nat) (v : BitVec 48) : (s.setWide a v).bists = s.bists := rfl
@[simp] theorem State.setWide_jtag (s : State) (a : Nat) (v : BitVec 48) : (s.setWide a v).jtag = s.jtag := rfl
@[simp] theorem State.setWide_diags (s : State) (a : Nat) (v : BitVec 48) : (s.setWide a v).diags = s.diags := rfl
@[simp] theorem State.setWide_rings (s : State) (a : Nat) (v : BitVec 48) : (s.setWide a v).rings = s.rings := rfl
@[simp] theorem State.setWide_svc (s : State) (a : Nat) (v : BitVec 48) : (s.setWide a v).svc = s.svc := rfl
@[simp] theorem State.setWide_col (s : State) (a : Nat) (v : BitVec 48) : (s.setWide a v).col = s.col := rfl
@[simp] theorem State.setWide_tal (s : State) (a : Nat) (v : BitVec 48) : (s.setWide a v).tal = s.tal := rfl
@[simp] theorem State.setWide_sec (s : State) (a : Nat) (v : BitVec 48) : (s.setWide a v).sec = s.sec := rfl
@[simp] theorem State.setWide_attest (s : State) (a : Nat) (v : BitVec 48) : (s.setWide a v).attest = s.attest := rfl
@[simp] theorem State.setWide_host (s : State) (a : Nat) (v : BitVec 48) : (s.setWide a v).host = s.host := rfl
@[simp] theorem State.setWide_stn (s : State) (a : Nat) (v : BitVec 48) : (s.setWide a v).stn = s.stn := rfl
@[simp] theorem State.setWide_nv (s : State) (a : Nat) (v : BitVec 48) : (s.setWide a v).nv = s.nv := rfl
@[simp] theorem State.setWide_free (s : State) (a : Nat) (v : BitVec 48) : (s.setWide a v).free = s.free := rfl
@[simp] theorem State.setWide_at_reg (s : State) (a : Nat) (v : BitVec 48) (j : Nat) : (s.setWide a v).reg j = s.reg j := rfl
@[simp] theorem State.setWide_at_port (s : State) (a : Nat) (v : BitVec 48) (j : Nat) : (s.setWide a v).port j = s.port j := rfl
@[simp] theorem State.setWide_at_out (s : State) (a : Nat) (v : BitVec 48) (j : Nat) : (s.setWide a v).out j = s.out j := rfl
@[simp] theorem State.setWide_at_chan (s : State) (a : Nat) (v : BitVec 48) (j : Nat) : (s.setWide a v).chan j = s.chan j := rfl
@[simp] theorem State.setWide_at_term (s : State) (a : Nat) (v : BitVec 48) (j : Nat) : (s.setWide a v).term j = s.term j := rfl
@[simp] theorem State.setWide_at_fold (s : State) (a : Nat) (v : BitVec 48) (j : Nat) : (s.setWide a v).fold j = s.fold j := rfl
@[simp] theorem State.setWide_at_bind (s : State) (a : Nat) (v : BitVec 48) (j : Nat) : (s.setWide a v).bind j = s.bind j := rfl
@[simp] theorem State.setWide_at_gate (s : State) (a : Nat) (v : BitVec 48) (j : Nat) : (s.setWide a v).gate j = s.gate j := rfl
@[simp] theorem State.setWide_at_timer (s : State) (a : Nat) (v : BitVec 48) (j : Nat) : (s.setWide a v).timer j = s.timer j := rfl
@[simp] theorem State.setWide_at_trip (s : State) (a : Nat) (v : BitVec 48) (j : Nat) : (s.setWide a v).trip j = s.trip j := rfl
@[simp] theorem State.setWide_at_ring (s : State) (a : Nat) (v : BitVec 48) (j : Nat) : (s.setWide a v).ring j = s.ring j := rfl
@[simp] theorem State.setWide_at_inj (s : State) (a : Nat) (v : BitVec 48) (j : Nat) : (s.setWide a v).inj j = s.inj j := rfl
@[simp] theorem State.setWide_at_cap (s : State) (a : Nat) (v : BitVec 48) (j : Nat) : (s.setWide a v).cap j = s.cap j := rfl
@[simp] theorem State.setWide_at_motor (s : State) (a : Nat) (v : BitVec 48) (j : Nat) : (s.setWide a v).motor j = s.motor j := rfl
@[simp] theorem State.setWide_at_hlt (s : State) (a : Nat) (v : BitVec 48) (j : Nat) : (s.setWide a v).hlt j = s.hlt j := rfl
@[simp] theorem State.setWide_at_run (s : State) (a : Nat) (v : BitVec 48) (j : Nat) : (s.setWide a v).run j = s.run j := rfl
@[simp] theorem State.setWide_at_meng (s : State) (a : Nat) (v : BitVec 48) (j : Nat) : (s.setWide a v).meng j = s.meng j := rfl
@[simp] theorem State.setWide_at_sns (s : State) (a : Nat) (v : BitVec 48) (j : Nat) : (s.setWide a v).sns j = s.sns j := rfl
@[simp] theorem State.setWide_at_image (s : State) (a : Nat) (v : BitVec 48) (j : Nat) : (s.setWide a v).image j = s.image j := rfl
@[simp] theorem State.setWide_at_fsPair (s : State) (a : Nat) (v : BitVec 48) (j : Nat) : (s.setWide a v).fsPair j = s.fsPair j := rfl
@[simp] theorem State.setWide_at_core (s : State) (a : Nat) (v : BitVec 48) (j : Nat) : (s.setWide a v).core j = s.core j := rfl
@[simp] theorem State.setWide_at_bist (s : State) (a : Nat) (v : BitVec 48) (j : Nat) : (s.setWide a v).bist j = s.bist j := rfl
@[simp] theorem State.setWide_at_dramByte (s : State) (a : Nat) (v : BitVec 48) (j : Nat) : (s.setWide a v).dramByte j = s.dramByte j := rfl
@[simp] theorem State.setWide_at_diag (s : State) (a : Nat) (v : BitVec 48) (j : Nat) : (s.setWide a v).diag j = s.diag j := rfl

@[simp] theorem State.setPort_pending (s : State) (n : Nat) (p : Port) : (s.setPort n p).pending = s.pending := rfl
@[simp] theorem State.setPort_regs (s : State) (n : Nat) (p : Port) : (s.setPort n p).regs = s.regs := rfl
@[simp] theorem State.setPort_wide (s : State) (n : Nat) (p : Port) : (s.setPort n p).wide = s.wide := rfl
@[simp] theorem State.setPort_hiLatch (s : State) (n : Nat) (p : Port) : (s.setPort n p).hiLatch = s.hiLatch := rfl
@[simp] theorem State.setPort_gens (s : State) (n : Nat) (p : Port) : (s.setPort n p).gens = s.gens := rfl
@[simp] theorem State.setPort_ws (s : State) (n : Nat) (p : Port) : (s.setPort n p).ws = s.ws := rfl
@[simp] theorem State.setPort_dram (s : State) (n : Nat) (p : Port) : (s.setPort n p).dram = s.dram := rfl
@[simp] theorem State.setPort_dom (s : State) (n : Nat) (p : Port) : (s.setPort n p).dom = s.dom := rfl
@[simp] theorem State.setPort_boot (s : State) (n : Nat) (p : Port) : (s.setPort n p).boot = s.boot := rfl
@[simp] theorem State.setPort_amb (s : State) (n : Nat) (p : Port) : (s.setPort n p).amb = s.amb := rfl
@[simp] theorem State.setPort_outs (s : State) (n : Nat) (p : Port) : (s.setPort n p).outs = s.outs := rfl
@[simp] theorem State.setPort_bell (s : State) (n : Nat) (p : Port) : (s.setPort n p).bell = s.bell := rfl
@[simp] theorem State.setPort_chans (s : State) (n : Nat) (p : Port) : (s.setPort n p).chans = s.chans := rfl
@[simp] theorem State.setPort_terms (s : State) (n : Nat) (p : Port) : (s.setPort n p).terms = s.terms := rfl
@[simp] theorem State.setPort_folds (s : State) (n : Nat) (p : Port) : (s.setPort n p).folds = s.folds := rfl
@[simp] theorem State.setPort_binds (s : State) (n : Nat) (p : Port) : (s.setPort n p).binds = s.binds := rfl
@[simp] theorem State.setPort_gates (s : State) (n : Nat) (p : Port) : (s.setPort n p).gates = s.gates := rfl
@[simp] theorem State.setPort_timers (s : State) (n : Nat) (p : Port) : (s.setPort n p).timers = s.timers := rfl
@[simp] theorem State.setPort_trips (s : State) (n : Nat) (p : Port) : (s.setPort n p).trips = s.trips := rfl
@[simp] theorem State.setPort_motors (s : State) (n : Nat) (p : Port) : (s.setPort n p).motors = s.motors := rfl
@[simp] theorem State.setPort_caps (s : State) (n : Nat) (p : Port) : (s.setPort n p).caps = s.caps := rfl
@[simp] theorem State.setPort_injs (s : State) (n : Nat) (p : Port) : (s.setPort n p).injs = s.injs := rfl
@[simp] theorem State.setPort_images (s : State) (n : Nat) (p : Port) : (s.setPort n p).images = s.images := rfl
@[simp] theorem State.setPort_health (s : State) (n : Nat) (p : Port) : (s.setPort n p).health = s.health := rfl
@[simp] theorem State.setPort_runs (s : State) (n : Nat) (p : Port) : (s.setPort n p).runs = s.runs := rfl
@[simp] theorem State.setPort_mengs (s : State) (n : Nat) (p : Port) : (s.setPort n p).mengs = s.mengs := rfl
@[simp] theorem State.setPort_sense (s : State) (n : Nat) (p : Port) : (s.setPort n p).sense = s.sense := rfl
@[simp] theorem State.setPort_fs (s : State) (n : Nat) (p : Port) : (s.setPort n p).fs = s.fs := rfl
@[simp] theorem State.setPort_cores (s : State) (n : Nat) (p : Port) : (s.setPort n p).cores = s.cores := rfl
@[simp] theorem State.setPort_bists (s : State) (n : Nat) (p : Port) : (s.setPort n p).bists = s.bists := rfl
@[simp] theorem State.setPort_jtag (s : State) (n : Nat) (p : Port) : (s.setPort n p).jtag = s.jtag := rfl
@[simp] theorem State.setPort_diags (s : State) (n : Nat) (p : Port) : (s.setPort n p).diags = s.diags := rfl
@[simp] theorem State.setPort_rings (s : State) (n : Nat) (p : Port) : (s.setPort n p).rings = s.rings := rfl
@[simp] theorem State.setPort_svc (s : State) (n : Nat) (p : Port) : (s.setPort n p).svc = s.svc := rfl
@[simp] theorem State.setPort_col (s : State) (n : Nat) (p : Port) : (s.setPort n p).col = s.col := rfl
@[simp] theorem State.setPort_tal (s : State) (n : Nat) (p : Port) : (s.setPort n p).tal = s.tal := rfl
@[simp] theorem State.setPort_sec (s : State) (n : Nat) (p : Port) : (s.setPort n p).sec = s.sec := rfl
@[simp] theorem State.setPort_attest (s : State) (n : Nat) (p : Port) : (s.setPort n p).attest = s.attest := rfl
@[simp] theorem State.setPort_host (s : State) (n : Nat) (p : Port) : (s.setPort n p).host = s.host := rfl
@[simp] theorem State.setPort_stn (s : State) (n : Nat) (p : Port) : (s.setPort n p).stn = s.stn := rfl
@[simp] theorem State.setPort_nv (s : State) (n : Nat) (p : Port) : (s.setPort n p).nv = s.nv := rfl
@[simp] theorem State.setPort_free (s : State) (n : Nat) (p : Port) : (s.setPort n p).free = s.free := rfl
@[simp] theorem State.setPort_at_reg (s : State) (n : Nat) (p : Port) (j : Nat) : (s.setPort n p).reg j = s.reg j := rfl
@[simp] theorem State.setPort_at_wideAt (s : State) (n : Nat) (p : Port) (j : Nat) : (s.setPort n p).wideAt j = s.wideAt j := rfl
@[simp] theorem State.setPort_at_out (s : State) (n : Nat) (p : Port) (j : Nat) : (s.setPort n p).out j = s.out j := rfl
@[simp] theorem State.setPort_at_chan (s : State) (n : Nat) (p : Port) (j : Nat) : (s.setPort n p).chan j = s.chan j := rfl
@[simp] theorem State.setPort_at_term (s : State) (n : Nat) (p : Port) (j : Nat) : (s.setPort n p).term j = s.term j := rfl
@[simp] theorem State.setPort_at_fold (s : State) (n : Nat) (p : Port) (j : Nat) : (s.setPort n p).fold j = s.fold j := rfl
@[simp] theorem State.setPort_at_bind (s : State) (n : Nat) (p : Port) (j : Nat) : (s.setPort n p).bind j = s.bind j := rfl
@[simp] theorem State.setPort_at_gate (s : State) (n : Nat) (p : Port) (j : Nat) : (s.setPort n p).gate j = s.gate j := rfl
@[simp] theorem State.setPort_at_timer (s : State) (n : Nat) (p : Port) (j : Nat) : (s.setPort n p).timer j = s.timer j := rfl
@[simp] theorem State.setPort_at_trip (s : State) (n : Nat) (p : Port) (j : Nat) : (s.setPort n p).trip j = s.trip j := rfl
@[simp] theorem State.setPort_at_ring (s : State) (n : Nat) (p : Port) (j : Nat) : (s.setPort n p).ring j = s.ring j := rfl
@[simp] theorem State.setPort_at_inj (s : State) (n : Nat) (p : Port) (j : Nat) : (s.setPort n p).inj j = s.inj j := rfl
@[simp] theorem State.setPort_at_cap (s : State) (n : Nat) (p : Port) (j : Nat) : (s.setPort n p).cap j = s.cap j := rfl
@[simp] theorem State.setPort_at_motor (s : State) (n : Nat) (p : Port) (j : Nat) : (s.setPort n p).motor j = s.motor j := rfl
@[simp] theorem State.setPort_at_hlt (s : State) (n : Nat) (p : Port) (j : Nat) : (s.setPort n p).hlt j = s.hlt j := rfl
@[simp] theorem State.setPort_at_run (s : State) (n : Nat) (p : Port) (j : Nat) : (s.setPort n p).run j = s.run j := rfl
@[simp] theorem State.setPort_at_meng (s : State) (n : Nat) (p : Port) (j : Nat) : (s.setPort n p).meng j = s.meng j := rfl
@[simp] theorem State.setPort_at_sns (s : State) (n : Nat) (p : Port) (j : Nat) : (s.setPort n p).sns j = s.sns j := rfl
@[simp] theorem State.setPort_at_image (s : State) (n : Nat) (p : Port) (j : Nat) : (s.setPort n p).image j = s.image j := rfl
@[simp] theorem State.setPort_at_fsPair (s : State) (n : Nat) (p : Port) (j : Nat) : (s.setPort n p).fsPair j = s.fsPair j := rfl
@[simp] theorem State.setPort_at_core (s : State) (n : Nat) (p : Port) (j : Nat) : (s.setPort n p).core j = s.core j := rfl
@[simp] theorem State.setPort_at_bist (s : State) (n : Nat) (p : Port) (j : Nat) : (s.setPort n p).bist j = s.bist j := rfl
@[simp] theorem State.setPort_at_dramByte (s : State) (n : Nat) (p : Port) (j : Nat) : (s.setPort n p).dramByte j = s.dramByte j := rfl
@[simp] theorem State.setPort_at_diag (s : State) (n : Nat) (p : Port) (j : Nat) : (s.setPort n p).diag j = s.diag j := rfl

@[simp] theorem State.updPort_eq (s : State) (n : Nat) (f : Port → Port) : s.updPort n f = s.setPort n (f (s.port n)) := rfl
@[simp] theorem State.setOut_pending (s : State) (n : Nat) (p : OutPort) : (s.setOut n p).pending = s.pending := rfl
@[simp] theorem State.setOut_regs (s : State) (n : Nat) (p : OutPort) : (s.setOut n p).regs = s.regs := rfl
@[simp] theorem State.setOut_wide (s : State) (n : Nat) (p : OutPort) : (s.setOut n p).wide = s.wide := rfl
@[simp] theorem State.setOut_hiLatch (s : State) (n : Nat) (p : OutPort) : (s.setOut n p).hiLatch = s.hiLatch := rfl
@[simp] theorem State.setOut_gens (s : State) (n : Nat) (p : OutPort) : (s.setOut n p).gens = s.gens := rfl
@[simp] theorem State.setOut_ws (s : State) (n : Nat) (p : OutPort) : (s.setOut n p).ws = s.ws := rfl
@[simp] theorem State.setOut_dram (s : State) (n : Nat) (p : OutPort) : (s.setOut n p).dram = s.dram := rfl
@[simp] theorem State.setOut_dom (s : State) (n : Nat) (p : OutPort) : (s.setOut n p).dom = s.dom := rfl
@[simp] theorem State.setOut_boot (s : State) (n : Nat) (p : OutPort) : (s.setOut n p).boot = s.boot := rfl
@[simp] theorem State.setOut_amb (s : State) (n : Nat) (p : OutPort) : (s.setOut n p).amb = s.amb := rfl
@[simp] theorem State.setOut_ports (s : State) (n : Nat) (p : OutPort) : (s.setOut n p).ports = s.ports := rfl
@[simp] theorem State.setOut_bell (s : State) (n : Nat) (p : OutPort) : (s.setOut n p).bell = s.bell := rfl
@[simp] theorem State.setOut_chans (s : State) (n : Nat) (p : OutPort) : (s.setOut n p).chans = s.chans := rfl
@[simp] theorem State.setOut_terms (s : State) (n : Nat) (p : OutPort) : (s.setOut n p).terms = s.terms := rfl
@[simp] theorem State.setOut_folds (s : State) (n : Nat) (p : OutPort) : (s.setOut n p).folds = s.folds := rfl
@[simp] theorem State.setOut_binds (s : State) (n : Nat) (p : OutPort) : (s.setOut n p).binds = s.binds := rfl
@[simp] theorem State.setOut_gates (s : State) (n : Nat) (p : OutPort) : (s.setOut n p).gates = s.gates := rfl
@[simp] theorem State.setOut_timers (s : State) (n : Nat) (p : OutPort) : (s.setOut n p).timers = s.timers := rfl
@[simp] theorem State.setOut_trips (s : State) (n : Nat) (p : OutPort) : (s.setOut n p).trips = s.trips := rfl
@[simp] theorem State.setOut_motors (s : State) (n : Nat) (p : OutPort) : (s.setOut n p).motors = s.motors := rfl
@[simp] theorem State.setOut_caps (s : State) (n : Nat) (p : OutPort) : (s.setOut n p).caps = s.caps := rfl
@[simp] theorem State.setOut_injs (s : State) (n : Nat) (p : OutPort) : (s.setOut n p).injs = s.injs := rfl
@[simp] theorem State.setOut_images (s : State) (n : Nat) (p : OutPort) : (s.setOut n p).images = s.images := rfl
@[simp] theorem State.setOut_health (s : State) (n : Nat) (p : OutPort) : (s.setOut n p).health = s.health := rfl
@[simp] theorem State.setOut_runs (s : State) (n : Nat) (p : OutPort) : (s.setOut n p).runs = s.runs := rfl
@[simp] theorem State.setOut_mengs (s : State) (n : Nat) (p : OutPort) : (s.setOut n p).mengs = s.mengs := rfl
@[simp] theorem State.setOut_sense (s : State) (n : Nat) (p : OutPort) : (s.setOut n p).sense = s.sense := rfl
@[simp] theorem State.setOut_fs (s : State) (n : Nat) (p : OutPort) : (s.setOut n p).fs = s.fs := rfl
@[simp] theorem State.setOut_cores (s : State) (n : Nat) (p : OutPort) : (s.setOut n p).cores = s.cores := rfl
@[simp] theorem State.setOut_bists (s : State) (n : Nat) (p : OutPort) : (s.setOut n p).bists = s.bists := rfl
@[simp] theorem State.setOut_jtag (s : State) (n : Nat) (p : OutPort) : (s.setOut n p).jtag = s.jtag := rfl
@[simp] theorem State.setOut_diags (s : State) (n : Nat) (p : OutPort) : (s.setOut n p).diags = s.diags := rfl
@[simp] theorem State.setOut_rings (s : State) (n : Nat) (p : OutPort) : (s.setOut n p).rings = s.rings := rfl
@[simp] theorem State.setOut_svc (s : State) (n : Nat) (p : OutPort) : (s.setOut n p).svc = s.svc := rfl
@[simp] theorem State.setOut_col (s : State) (n : Nat) (p : OutPort) : (s.setOut n p).col = s.col := rfl
@[simp] theorem State.setOut_tal (s : State) (n : Nat) (p : OutPort) : (s.setOut n p).tal = s.tal := rfl
@[simp] theorem State.setOut_sec (s : State) (n : Nat) (p : OutPort) : (s.setOut n p).sec = s.sec := rfl
@[simp] theorem State.setOut_attest (s : State) (n : Nat) (p : OutPort) : (s.setOut n p).attest = s.attest := rfl
@[simp] theorem State.setOut_host (s : State) (n : Nat) (p : OutPort) : (s.setOut n p).host = s.host := rfl
@[simp] theorem State.setOut_stn (s : State) (n : Nat) (p : OutPort) : (s.setOut n p).stn = s.stn := rfl
@[simp] theorem State.setOut_nv (s : State) (n : Nat) (p : OutPort) : (s.setOut n p).nv = s.nv := rfl
@[simp] theorem State.setOut_free (s : State) (n : Nat) (p : OutPort) : (s.setOut n p).free = s.free := rfl
@[simp] theorem State.setOut_at_reg (s : State) (n : Nat) (p : OutPort) (j : Nat) : (s.setOut n p).reg j = s.reg j := rfl
@[simp] theorem State.setOut_at_wideAt (s : State) (n : Nat) (p : OutPort) (j : Nat) : (s.setOut n p).wideAt j = s.wideAt j := rfl
@[simp] theorem State.setOut_at_port (s : State) (n : Nat) (p : OutPort) (j : Nat) : (s.setOut n p).port j = s.port j := rfl
@[simp] theorem State.setOut_at_chan (s : State) (n : Nat) (p : OutPort) (j : Nat) : (s.setOut n p).chan j = s.chan j := rfl
@[simp] theorem State.setOut_at_term (s : State) (n : Nat) (p : OutPort) (j : Nat) : (s.setOut n p).term j = s.term j := rfl
@[simp] theorem State.setOut_at_fold (s : State) (n : Nat) (p : OutPort) (j : Nat) : (s.setOut n p).fold j = s.fold j := rfl
@[simp] theorem State.setOut_at_bind (s : State) (n : Nat) (p : OutPort) (j : Nat) : (s.setOut n p).bind j = s.bind j := rfl
@[simp] theorem State.setOut_at_gate (s : State) (n : Nat) (p : OutPort) (j : Nat) : (s.setOut n p).gate j = s.gate j := rfl
@[simp] theorem State.setOut_at_timer (s : State) (n : Nat) (p : OutPort) (j : Nat) : (s.setOut n p).timer j = s.timer j := rfl
@[simp] theorem State.setOut_at_trip (s : State) (n : Nat) (p : OutPort) (j : Nat) : (s.setOut n p).trip j = s.trip j := rfl
@[simp] theorem State.setOut_at_ring (s : State) (n : Nat) (p : OutPort) (j : Nat) : (s.setOut n p).ring j = s.ring j := rfl
@[simp] theorem State.setOut_at_inj (s : State) (n : Nat) (p : OutPort) (j : Nat) : (s.setOut n p).inj j = s.inj j := rfl
@[simp] theorem State.setOut_at_cap (s : State) (n : Nat) (p : OutPort) (j : Nat) : (s.setOut n p).cap j = s.cap j := rfl
@[simp] theorem State.setOut_at_motor (s : State) (n : Nat) (p : OutPort) (j : Nat) : (s.setOut n p).motor j = s.motor j := rfl
@[simp] theorem State.setOut_at_hlt (s : State) (n : Nat) (p : OutPort) (j : Nat) : (s.setOut n p).hlt j = s.hlt j := rfl
@[simp] theorem State.setOut_at_run (s : State) (n : Nat) (p : OutPort) (j : Nat) : (s.setOut n p).run j = s.run j := rfl
@[simp] theorem State.setOut_at_meng (s : State) (n : Nat) (p : OutPort) (j : Nat) : (s.setOut n p).meng j = s.meng j := rfl
@[simp] theorem State.setOut_at_sns (s : State) (n : Nat) (p : OutPort) (j : Nat) : (s.setOut n p).sns j = s.sns j := rfl
@[simp] theorem State.setOut_at_image (s : State) (n : Nat) (p : OutPort) (j : Nat) : (s.setOut n p).image j = s.image j := rfl
@[simp] theorem State.setOut_at_fsPair (s : State) (n : Nat) (p : OutPort) (j : Nat) : (s.setOut n p).fsPair j = s.fsPair j := rfl
@[simp] theorem State.setOut_at_core (s : State) (n : Nat) (p : OutPort) (j : Nat) : (s.setOut n p).core j = s.core j := rfl
@[simp] theorem State.setOut_at_bist (s : State) (n : Nat) (p : OutPort) (j : Nat) : (s.setOut n p).bist j = s.bist j := rfl
@[simp] theorem State.setOut_at_dramByte (s : State) (n : Nat) (p : OutPort) (j : Nat) : (s.setOut n p).dramByte j = s.dramByte j := rfl
@[simp] theorem State.setOut_at_diag (s : State) (n : Nat) (p : OutPort) (j : Nat) : (s.setOut n p).diag j = s.diag j := rfl

@[simp] theorem State.setChan_pending (s : State) (i : Nat) (c : Chan) : (s.setChan i c).pending = s.pending := rfl
@[simp] theorem State.setChan_regs (s : State) (i : Nat) (c : Chan) : (s.setChan i c).regs = s.regs := rfl
@[simp] theorem State.setChan_wide (s : State) (i : Nat) (c : Chan) : (s.setChan i c).wide = s.wide := rfl
@[simp] theorem State.setChan_hiLatch (s : State) (i : Nat) (c : Chan) : (s.setChan i c).hiLatch = s.hiLatch := rfl
@[simp] theorem State.setChan_gens (s : State) (i : Nat) (c : Chan) : (s.setChan i c).gens = s.gens := rfl
@[simp] theorem State.setChan_ws (s : State) (i : Nat) (c : Chan) : (s.setChan i c).ws = s.ws := rfl
@[simp] theorem State.setChan_dram (s : State) (i : Nat) (c : Chan) : (s.setChan i c).dram = s.dram := rfl
@[simp] theorem State.setChan_dom (s : State) (i : Nat) (c : Chan) : (s.setChan i c).dom = s.dom := rfl
@[simp] theorem State.setChan_boot (s : State) (i : Nat) (c : Chan) : (s.setChan i c).boot = s.boot := rfl
@[simp] theorem State.setChan_amb (s : State) (i : Nat) (c : Chan) : (s.setChan i c).amb = s.amb := rfl
@[simp] theorem State.setChan_ports (s : State) (i : Nat) (c : Chan) : (s.setChan i c).ports = s.ports := rfl
@[simp] theorem State.setChan_outs (s : State) (i : Nat) (c : Chan) : (s.setChan i c).outs = s.outs := rfl
@[simp] theorem State.setChan_bell (s : State) (i : Nat) (c : Chan) : (s.setChan i c).bell = s.bell := rfl
@[simp] theorem State.setChan_terms (s : State) (i : Nat) (c : Chan) : (s.setChan i c).terms = s.terms := rfl
@[simp] theorem State.setChan_folds (s : State) (i : Nat) (c : Chan) : (s.setChan i c).folds = s.folds := rfl
@[simp] theorem State.setChan_binds (s : State) (i : Nat) (c : Chan) : (s.setChan i c).binds = s.binds := rfl
@[simp] theorem State.setChan_gates (s : State) (i : Nat) (c : Chan) : (s.setChan i c).gates = s.gates := rfl
@[simp] theorem State.setChan_timers (s : State) (i : Nat) (c : Chan) : (s.setChan i c).timers = s.timers := rfl
@[simp] theorem State.setChan_trips (s : State) (i : Nat) (c : Chan) : (s.setChan i c).trips = s.trips := rfl
@[simp] theorem State.setChan_motors (s : State) (i : Nat) (c : Chan) : (s.setChan i c).motors = s.motors := rfl
@[simp] theorem State.setChan_caps (s : State) (i : Nat) (c : Chan) : (s.setChan i c).caps = s.caps := rfl
@[simp] theorem State.setChan_injs (s : State) (i : Nat) (c : Chan) : (s.setChan i c).injs = s.injs := rfl
@[simp] theorem State.setChan_images (s : State) (i : Nat) (c : Chan) : (s.setChan i c).images = s.images := rfl
@[simp] theorem State.setChan_health (s : State) (i : Nat) (c : Chan) : (s.setChan i c).health = s.health := rfl
@[simp] theorem State.setChan_runs (s : State) (i : Nat) (c : Chan) : (s.setChan i c).runs = s.runs := rfl
@[simp] theorem State.setChan_mengs (s : State) (i : Nat) (c : Chan) : (s.setChan i c).mengs = s.mengs := rfl
@[simp] theorem State.setChan_sense (s : State) (i : Nat) (c : Chan) : (s.setChan i c).sense = s.sense := rfl
@[simp] theorem State.setChan_fs (s : State) (i : Nat) (c : Chan) : (s.setChan i c).fs = s.fs := rfl
@[simp] theorem State.setChan_cores (s : State) (i : Nat) (c : Chan) : (s.setChan i c).cores = s.cores := rfl
@[simp] theorem State.setChan_bists (s : State) (i : Nat) (c : Chan) : (s.setChan i c).bists = s.bists := rfl
@[simp] theorem State.setChan_jtag (s : State) (i : Nat) (c : Chan) : (s.setChan i c).jtag = s.jtag := rfl
@[simp] theorem State.setChan_diags (s : State) (i : Nat) (c : Chan) : (s.setChan i c).diags = s.diags := rfl
@[simp] theorem State.setChan_rings (s : State) (i : Nat) (c : Chan) : (s.setChan i c).rings = s.rings := rfl
@[simp] theorem State.setChan_svc (s : State) (i : Nat) (c : Chan) : (s.setChan i c).svc = s.svc := rfl
@[simp] theorem State.setChan_col (s : State) (i : Nat) (c : Chan) : (s.setChan i c).col = s.col := rfl
@[simp] theorem State.setChan_tal (s : State) (i : Nat) (c : Chan) : (s.setChan i c).tal = s.tal := rfl
@[simp] theorem State.setChan_sec (s : State) (i : Nat) (c : Chan) : (s.setChan i c).sec = s.sec := rfl
@[simp] theorem State.setChan_attest (s : State) (i : Nat) (c : Chan) : (s.setChan i c).attest = s.attest := rfl
@[simp] theorem State.setChan_host (s : State) (i : Nat) (c : Chan) : (s.setChan i c).host = s.host := rfl
@[simp] theorem State.setChan_stn (s : State) (i : Nat) (c : Chan) : (s.setChan i c).stn = s.stn := rfl
@[simp] theorem State.setChan_nv (s : State) (i : Nat) (c : Chan) : (s.setChan i c).nv = s.nv := rfl
@[simp] theorem State.setChan_free (s : State) (i : Nat) (c : Chan) : (s.setChan i c).free = s.free := rfl
@[simp] theorem State.setChan_at_reg (s : State) (i : Nat) (c : Chan) (j : Nat) : (s.setChan i c).reg j = s.reg j := rfl
@[simp] theorem State.setChan_at_wideAt (s : State) (i : Nat) (c : Chan) (j : Nat) : (s.setChan i c).wideAt j = s.wideAt j := rfl
@[simp] theorem State.setChan_at_port (s : State) (i : Nat) (c : Chan) (j : Nat) : (s.setChan i c).port j = s.port j := rfl
@[simp] theorem State.setChan_at_out (s : State) (i : Nat) (c : Chan) (j : Nat) : (s.setChan i c).out j = s.out j := rfl
@[simp] theorem State.setChan_at_term (s : State) (i : Nat) (c : Chan) (j : Nat) : (s.setChan i c).term j = s.term j := rfl
@[simp] theorem State.setChan_at_fold (s : State) (i : Nat) (c : Chan) (j : Nat) : (s.setChan i c).fold j = s.fold j := rfl
@[simp] theorem State.setChan_at_bind (s : State) (i : Nat) (c : Chan) (j : Nat) : (s.setChan i c).bind j = s.bind j := rfl
@[simp] theorem State.setChan_at_gate (s : State) (i : Nat) (c : Chan) (j : Nat) : (s.setChan i c).gate j = s.gate j := rfl
@[simp] theorem State.setChan_at_timer (s : State) (i : Nat) (c : Chan) (j : Nat) : (s.setChan i c).timer j = s.timer j := rfl
@[simp] theorem State.setChan_at_trip (s : State) (i : Nat) (c : Chan) (j : Nat) : (s.setChan i c).trip j = s.trip j := rfl
@[simp] theorem State.setChan_at_ring (s : State) (i : Nat) (c : Chan) (j : Nat) : (s.setChan i c).ring j = s.ring j := rfl
@[simp] theorem State.setChan_at_inj (s : State) (i : Nat) (c : Chan) (j : Nat) : (s.setChan i c).inj j = s.inj j := rfl
@[simp] theorem State.setChan_at_cap (s : State) (i : Nat) (c : Chan) (j : Nat) : (s.setChan i c).cap j = s.cap j := rfl
@[simp] theorem State.setChan_at_motor (s : State) (i : Nat) (c : Chan) (j : Nat) : (s.setChan i c).motor j = s.motor j := rfl
@[simp] theorem State.setChan_at_hlt (s : State) (i : Nat) (c : Chan) (j : Nat) : (s.setChan i c).hlt j = s.hlt j := rfl
@[simp] theorem State.setChan_at_run (s : State) (i : Nat) (c : Chan) (j : Nat) : (s.setChan i c).run j = s.run j := rfl
@[simp] theorem State.setChan_at_meng (s : State) (i : Nat) (c : Chan) (j : Nat) : (s.setChan i c).meng j = s.meng j := rfl
@[simp] theorem State.setChan_at_sns (s : State) (i : Nat) (c : Chan) (j : Nat) : (s.setChan i c).sns j = s.sns j := rfl
@[simp] theorem State.setChan_at_image (s : State) (i : Nat) (c : Chan) (j : Nat) : (s.setChan i c).image j = s.image j := rfl
@[simp] theorem State.setChan_at_fsPair (s : State) (i : Nat) (c : Chan) (j : Nat) : (s.setChan i c).fsPair j = s.fsPair j := rfl
@[simp] theorem State.setChan_at_core (s : State) (i : Nat) (c : Chan) (j : Nat) : (s.setChan i c).core j = s.core j := rfl
@[simp] theorem State.setChan_at_bist (s : State) (i : Nat) (c : Chan) (j : Nat) : (s.setChan i c).bist j = s.bist j := rfl
@[simp] theorem State.setChan_at_dramByte (s : State) (i : Nat) (c : Chan) (j : Nat) : (s.setChan i c).dramByte j = s.dramByte j := rfl
@[simp] theorem State.setChan_at_diag (s : State) (i : Nat) (c : Chan) (j : Nat) : (s.setChan i c).diag j = s.diag j := rfl

@[simp] theorem State.updChan_eq (s : State) (i : Nat) (f : Chan → Chan) : s.updChan i f = s.setChan i (f (s.chan i)) := rfl
@[simp] theorem State.setTerm_pending (s : State) (t : Nat) (x : Term) : (s.setTerm t x).pending = s.pending := rfl
@[simp] theorem State.setTerm_regs (s : State) (t : Nat) (x : Term) : (s.setTerm t x).regs = s.regs := rfl
@[simp] theorem State.setTerm_wide (s : State) (t : Nat) (x : Term) : (s.setTerm t x).wide = s.wide := rfl
@[simp] theorem State.setTerm_hiLatch (s : State) (t : Nat) (x : Term) : (s.setTerm t x).hiLatch = s.hiLatch := rfl
@[simp] theorem State.setTerm_gens (s : State) (t : Nat) (x : Term) : (s.setTerm t x).gens = s.gens := rfl
@[simp] theorem State.setTerm_ws (s : State) (t : Nat) (x : Term) : (s.setTerm t x).ws = s.ws := rfl
@[simp] theorem State.setTerm_dram (s : State) (t : Nat) (x : Term) : (s.setTerm t x).dram = s.dram := rfl
@[simp] theorem State.setTerm_dom (s : State) (t : Nat) (x : Term) : (s.setTerm t x).dom = s.dom := rfl
@[simp] theorem State.setTerm_boot (s : State) (t : Nat) (x : Term) : (s.setTerm t x).boot = s.boot := rfl
@[simp] theorem State.setTerm_amb (s : State) (t : Nat) (x : Term) : (s.setTerm t x).amb = s.amb := rfl
@[simp] theorem State.setTerm_ports (s : State) (t : Nat) (x : Term) : (s.setTerm t x).ports = s.ports := rfl
@[simp] theorem State.setTerm_outs (s : State) (t : Nat) (x : Term) : (s.setTerm t x).outs = s.outs := rfl
@[simp] theorem State.setTerm_bell (s : State) (t : Nat) (x : Term) : (s.setTerm t x).bell = s.bell := rfl
@[simp] theorem State.setTerm_chans (s : State) (t : Nat) (x : Term) : (s.setTerm t x).chans = s.chans := rfl
@[simp] theorem State.setTerm_folds (s : State) (t : Nat) (x : Term) : (s.setTerm t x).folds = s.folds := rfl
@[simp] theorem State.setTerm_binds (s : State) (t : Nat) (x : Term) : (s.setTerm t x).binds = s.binds := rfl
@[simp] theorem State.setTerm_gates (s : State) (t : Nat) (x : Term) : (s.setTerm t x).gates = s.gates := rfl
@[simp] theorem State.setTerm_timers (s : State) (t : Nat) (x : Term) : (s.setTerm t x).timers = s.timers := rfl
@[simp] theorem State.setTerm_trips (s : State) (t : Nat) (x : Term) : (s.setTerm t x).trips = s.trips := rfl
@[simp] theorem State.setTerm_motors (s : State) (t : Nat) (x : Term) : (s.setTerm t x).motors = s.motors := rfl
@[simp] theorem State.setTerm_caps (s : State) (t : Nat) (x : Term) : (s.setTerm t x).caps = s.caps := rfl
@[simp] theorem State.setTerm_injs (s : State) (t : Nat) (x : Term) : (s.setTerm t x).injs = s.injs := rfl
@[simp] theorem State.setTerm_images (s : State) (t : Nat) (x : Term) : (s.setTerm t x).images = s.images := rfl
@[simp] theorem State.setTerm_health (s : State) (t : Nat) (x : Term) : (s.setTerm t x).health = s.health := rfl
@[simp] theorem State.setTerm_runs (s : State) (t : Nat) (x : Term) : (s.setTerm t x).runs = s.runs := rfl
@[simp] theorem State.setTerm_mengs (s : State) (t : Nat) (x : Term) : (s.setTerm t x).mengs = s.mengs := rfl
@[simp] theorem State.setTerm_sense (s : State) (t : Nat) (x : Term) : (s.setTerm t x).sense = s.sense := rfl
@[simp] theorem State.setTerm_fs (s : State) (t : Nat) (x : Term) : (s.setTerm t x).fs = s.fs := rfl
@[simp] theorem State.setTerm_cores (s : State) (t : Nat) (x : Term) : (s.setTerm t x).cores = s.cores := rfl
@[simp] theorem State.setTerm_bists (s : State) (t : Nat) (x : Term) : (s.setTerm t x).bists = s.bists := rfl
@[simp] theorem State.setTerm_jtag (s : State) (t : Nat) (x : Term) : (s.setTerm t x).jtag = s.jtag := rfl
@[simp] theorem State.setTerm_diags (s : State) (t : Nat) (x : Term) : (s.setTerm t x).diags = s.diags := rfl
@[simp] theorem State.setTerm_rings (s : State) (t : Nat) (x : Term) : (s.setTerm t x).rings = s.rings := rfl
@[simp] theorem State.setTerm_svc (s : State) (t : Nat) (x : Term) : (s.setTerm t x).svc = s.svc := rfl
@[simp] theorem State.setTerm_col (s : State) (t : Nat) (x : Term) : (s.setTerm t x).col = s.col := rfl
@[simp] theorem State.setTerm_tal (s : State) (t : Nat) (x : Term) : (s.setTerm t x).tal = s.tal := rfl
@[simp] theorem State.setTerm_sec (s : State) (t : Nat) (x : Term) : (s.setTerm t x).sec = s.sec := rfl
@[simp] theorem State.setTerm_attest (s : State) (t : Nat) (x : Term) : (s.setTerm t x).attest = s.attest := rfl
@[simp] theorem State.setTerm_host (s : State) (t : Nat) (x : Term) : (s.setTerm t x).host = s.host := rfl
@[simp] theorem State.setTerm_stn (s : State) (t : Nat) (x : Term) : (s.setTerm t x).stn = s.stn := rfl
@[simp] theorem State.setTerm_nv (s : State) (t : Nat) (x : Term) : (s.setTerm t x).nv = s.nv := rfl
@[simp] theorem State.setTerm_free (s : State) (t : Nat) (x : Term) : (s.setTerm t x).free = s.free := rfl
@[simp] theorem State.setTerm_at_reg (s : State) (t : Nat) (x : Term) (j : Nat) : (s.setTerm t x).reg j = s.reg j := rfl
@[simp] theorem State.setTerm_at_wideAt (s : State) (t : Nat) (x : Term) (j : Nat) : (s.setTerm t x).wideAt j = s.wideAt j := rfl
@[simp] theorem State.setTerm_at_port (s : State) (t : Nat) (x : Term) (j : Nat) : (s.setTerm t x).port j = s.port j := rfl
@[simp] theorem State.setTerm_at_out (s : State) (t : Nat) (x : Term) (j : Nat) : (s.setTerm t x).out j = s.out j := rfl
@[simp] theorem State.setTerm_at_chan (s : State) (t : Nat) (x : Term) (j : Nat) : (s.setTerm t x).chan j = s.chan j := rfl
@[simp] theorem State.setTerm_at_fold (s : State) (t : Nat) (x : Term) (j : Nat) : (s.setTerm t x).fold j = s.fold j := rfl
@[simp] theorem State.setTerm_at_bind (s : State) (t : Nat) (x : Term) (j : Nat) : (s.setTerm t x).bind j = s.bind j := rfl
@[simp] theorem State.setTerm_at_gate (s : State) (t : Nat) (x : Term) (j : Nat) : (s.setTerm t x).gate j = s.gate j := rfl
@[simp] theorem State.setTerm_at_timer (s : State) (t : Nat) (x : Term) (j : Nat) : (s.setTerm t x).timer j = s.timer j := rfl
@[simp] theorem State.setTerm_at_trip (s : State) (t : Nat) (x : Term) (j : Nat) : (s.setTerm t x).trip j = s.trip j := rfl
@[simp] theorem State.setTerm_at_ring (s : State) (t : Nat) (x : Term) (j : Nat) : (s.setTerm t x).ring j = s.ring j := rfl
@[simp] theorem State.setTerm_at_inj (s : State) (t : Nat) (x : Term) (j : Nat) : (s.setTerm t x).inj j = s.inj j := rfl
@[simp] theorem State.setTerm_at_cap (s : State) (t : Nat) (x : Term) (j : Nat) : (s.setTerm t x).cap j = s.cap j := rfl
@[simp] theorem State.setTerm_at_motor (s : State) (t : Nat) (x : Term) (j : Nat) : (s.setTerm t x).motor j = s.motor j := rfl
@[simp] theorem State.setTerm_at_hlt (s : State) (t : Nat) (x : Term) (j : Nat) : (s.setTerm t x).hlt j = s.hlt j := rfl
@[simp] theorem State.setTerm_at_run (s : State) (t : Nat) (x : Term) (j : Nat) : (s.setTerm t x).run j = s.run j := rfl
@[simp] theorem State.setTerm_at_meng (s : State) (t : Nat) (x : Term) (j : Nat) : (s.setTerm t x).meng j = s.meng j := rfl
@[simp] theorem State.setTerm_at_sns (s : State) (t : Nat) (x : Term) (j : Nat) : (s.setTerm t x).sns j = s.sns j := rfl
@[simp] theorem State.setTerm_at_image (s : State) (t : Nat) (x : Term) (j : Nat) : (s.setTerm t x).image j = s.image j := rfl
@[simp] theorem State.setTerm_at_fsPair (s : State) (t : Nat) (x : Term) (j : Nat) : (s.setTerm t x).fsPair j = s.fsPair j := rfl
@[simp] theorem State.setTerm_at_core (s : State) (t : Nat) (x : Term) (j : Nat) : (s.setTerm t x).core j = s.core j := rfl
@[simp] theorem State.setTerm_at_bist (s : State) (t : Nat) (x : Term) (j : Nat) : (s.setTerm t x).bist j = s.bist j := rfl
@[simp] theorem State.setTerm_at_dramByte (s : State) (t : Nat) (x : Term) (j : Nat) : (s.setTerm t x).dramByte j = s.dramByte j := rfl
@[simp] theorem State.setTerm_at_diag (s : State) (t : Nat) (x : Term) (j : Nat) : (s.setTerm t x).diag j = s.diag j := rfl

@[simp] theorem State.updTerm_eq (s : State) (t : Nat) (f : Term → Term) : s.updTerm t f = s.setTerm t (f (s.term t)) := rfl
@[simp] theorem State.setFold_pending (s : State) (k : Nat) (x : Fold) : (s.setFold k x).pending = s.pending := rfl
@[simp] theorem State.setFold_regs (s : State) (k : Nat) (x : Fold) : (s.setFold k x).regs = s.regs := rfl
@[simp] theorem State.setFold_wide (s : State) (k : Nat) (x : Fold) : (s.setFold k x).wide = s.wide := rfl
@[simp] theorem State.setFold_hiLatch (s : State) (k : Nat) (x : Fold) : (s.setFold k x).hiLatch = s.hiLatch := rfl
@[simp] theorem State.setFold_gens (s : State) (k : Nat) (x : Fold) : (s.setFold k x).gens = s.gens := rfl
@[simp] theorem State.setFold_ws (s : State) (k : Nat) (x : Fold) : (s.setFold k x).ws = s.ws := rfl
@[simp] theorem State.setFold_dram (s : State) (k : Nat) (x : Fold) : (s.setFold k x).dram = s.dram := rfl
@[simp] theorem State.setFold_dom (s : State) (k : Nat) (x : Fold) : (s.setFold k x).dom = s.dom := rfl
@[simp] theorem State.setFold_boot (s : State) (k : Nat) (x : Fold) : (s.setFold k x).boot = s.boot := rfl
@[simp] theorem State.setFold_amb (s : State) (k : Nat) (x : Fold) : (s.setFold k x).amb = s.amb := rfl
@[simp] theorem State.setFold_ports (s : State) (k : Nat) (x : Fold) : (s.setFold k x).ports = s.ports := rfl
@[simp] theorem State.setFold_outs (s : State) (k : Nat) (x : Fold) : (s.setFold k x).outs = s.outs := rfl
@[simp] theorem State.setFold_bell (s : State) (k : Nat) (x : Fold) : (s.setFold k x).bell = s.bell := rfl
@[simp] theorem State.setFold_chans (s : State) (k : Nat) (x : Fold) : (s.setFold k x).chans = s.chans := rfl
@[simp] theorem State.setFold_terms (s : State) (k : Nat) (x : Fold) : (s.setFold k x).terms = s.terms := rfl
@[simp] theorem State.setFold_binds (s : State) (k : Nat) (x : Fold) : (s.setFold k x).binds = s.binds := rfl
@[simp] theorem State.setFold_gates (s : State) (k : Nat) (x : Fold) : (s.setFold k x).gates = s.gates := rfl
@[simp] theorem State.setFold_timers (s : State) (k : Nat) (x : Fold) : (s.setFold k x).timers = s.timers := rfl
@[simp] theorem State.setFold_trips (s : State) (k : Nat) (x : Fold) : (s.setFold k x).trips = s.trips := rfl
@[simp] theorem State.setFold_motors (s : State) (k : Nat) (x : Fold) : (s.setFold k x).motors = s.motors := rfl
@[simp] theorem State.setFold_caps (s : State) (k : Nat) (x : Fold) : (s.setFold k x).caps = s.caps := rfl
@[simp] theorem State.setFold_injs (s : State) (k : Nat) (x : Fold) : (s.setFold k x).injs = s.injs := rfl
@[simp] theorem State.setFold_images (s : State) (k : Nat) (x : Fold) : (s.setFold k x).images = s.images := rfl
@[simp] theorem State.setFold_health (s : State) (k : Nat) (x : Fold) : (s.setFold k x).health = s.health := rfl
@[simp] theorem State.setFold_runs (s : State) (k : Nat) (x : Fold) : (s.setFold k x).runs = s.runs := rfl
@[simp] theorem State.setFold_mengs (s : State) (k : Nat) (x : Fold) : (s.setFold k x).mengs = s.mengs := rfl
@[simp] theorem State.setFold_sense (s : State) (k : Nat) (x : Fold) : (s.setFold k x).sense = s.sense := rfl
@[simp] theorem State.setFold_fs (s : State) (k : Nat) (x : Fold) : (s.setFold k x).fs = s.fs := rfl
@[simp] theorem State.setFold_cores (s : State) (k : Nat) (x : Fold) : (s.setFold k x).cores = s.cores := rfl
@[simp] theorem State.setFold_bists (s : State) (k : Nat) (x : Fold) : (s.setFold k x).bists = s.bists := rfl
@[simp] theorem State.setFold_jtag (s : State) (k : Nat) (x : Fold) : (s.setFold k x).jtag = s.jtag := rfl
@[simp] theorem State.setFold_diags (s : State) (k : Nat) (x : Fold) : (s.setFold k x).diags = s.diags := rfl
@[simp] theorem State.setFold_rings (s : State) (k : Nat) (x : Fold) : (s.setFold k x).rings = s.rings := rfl
@[simp] theorem State.setFold_svc (s : State) (k : Nat) (x : Fold) : (s.setFold k x).svc = s.svc := rfl
@[simp] theorem State.setFold_col (s : State) (k : Nat) (x : Fold) : (s.setFold k x).col = s.col := rfl
@[simp] theorem State.setFold_tal (s : State) (k : Nat) (x : Fold) : (s.setFold k x).tal = s.tal := rfl
@[simp] theorem State.setFold_sec (s : State) (k : Nat) (x : Fold) : (s.setFold k x).sec = s.sec := rfl
@[simp] theorem State.setFold_attest (s : State) (k : Nat) (x : Fold) : (s.setFold k x).attest = s.attest := rfl
@[simp] theorem State.setFold_host (s : State) (k : Nat) (x : Fold) : (s.setFold k x).host = s.host := rfl
@[simp] theorem State.setFold_stn (s : State) (k : Nat) (x : Fold) : (s.setFold k x).stn = s.stn := rfl
@[simp] theorem State.setFold_nv (s : State) (k : Nat) (x : Fold) : (s.setFold k x).nv = s.nv := rfl
@[simp] theorem State.setFold_free (s : State) (k : Nat) (x : Fold) : (s.setFold k x).free = s.free := rfl
@[simp] theorem State.setFold_at_reg (s : State) (k : Nat) (x : Fold) (j : Nat) : (s.setFold k x).reg j = s.reg j := rfl
@[simp] theorem State.setFold_at_wideAt (s : State) (k : Nat) (x : Fold) (j : Nat) : (s.setFold k x).wideAt j = s.wideAt j := rfl
@[simp] theorem State.setFold_at_port (s : State) (k : Nat) (x : Fold) (j : Nat) : (s.setFold k x).port j = s.port j := rfl
@[simp] theorem State.setFold_at_out (s : State) (k : Nat) (x : Fold) (j : Nat) : (s.setFold k x).out j = s.out j := rfl
@[simp] theorem State.setFold_at_chan (s : State) (k : Nat) (x : Fold) (j : Nat) : (s.setFold k x).chan j = s.chan j := rfl
@[simp] theorem State.setFold_at_term (s : State) (k : Nat) (x : Fold) (j : Nat) : (s.setFold k x).term j = s.term j := rfl
@[simp] theorem State.setFold_at_bind (s : State) (k : Nat) (x : Fold) (j : Nat) : (s.setFold k x).bind j = s.bind j := rfl
@[simp] theorem State.setFold_at_gate (s : State) (k : Nat) (x : Fold) (j : Nat) : (s.setFold k x).gate j = s.gate j := rfl
@[simp] theorem State.setFold_at_timer (s : State) (k : Nat) (x : Fold) (j : Nat) : (s.setFold k x).timer j = s.timer j := rfl
@[simp] theorem State.setFold_at_trip (s : State) (k : Nat) (x : Fold) (j : Nat) : (s.setFold k x).trip j = s.trip j := rfl
@[simp] theorem State.setFold_at_ring (s : State) (k : Nat) (x : Fold) (j : Nat) : (s.setFold k x).ring j = s.ring j := rfl
@[simp] theorem State.setFold_at_inj (s : State) (k : Nat) (x : Fold) (j : Nat) : (s.setFold k x).inj j = s.inj j := rfl
@[simp] theorem State.setFold_at_cap (s : State) (k : Nat) (x : Fold) (j : Nat) : (s.setFold k x).cap j = s.cap j := rfl
@[simp] theorem State.setFold_at_motor (s : State) (k : Nat) (x : Fold) (j : Nat) : (s.setFold k x).motor j = s.motor j := rfl
@[simp] theorem State.setFold_at_hlt (s : State) (k : Nat) (x : Fold) (j : Nat) : (s.setFold k x).hlt j = s.hlt j := rfl
@[simp] theorem State.setFold_at_run (s : State) (k : Nat) (x : Fold) (j : Nat) : (s.setFold k x).run j = s.run j := rfl
@[simp] theorem State.setFold_at_meng (s : State) (k : Nat) (x : Fold) (j : Nat) : (s.setFold k x).meng j = s.meng j := rfl
@[simp] theorem State.setFold_at_sns (s : State) (k : Nat) (x : Fold) (j : Nat) : (s.setFold k x).sns j = s.sns j := rfl
@[simp] theorem State.setFold_at_image (s : State) (k : Nat) (x : Fold) (j : Nat) : (s.setFold k x).image j = s.image j := rfl
@[simp] theorem State.setFold_at_fsPair (s : State) (k : Nat) (x : Fold) (j : Nat) : (s.setFold k x).fsPair j = s.fsPair j := rfl
@[simp] theorem State.setFold_at_core (s : State) (k : Nat) (x : Fold) (j : Nat) : (s.setFold k x).core j = s.core j := rfl
@[simp] theorem State.setFold_at_bist (s : State) (k : Nat) (x : Fold) (j : Nat) : (s.setFold k x).bist j = s.bist j := rfl
@[simp] theorem State.setFold_at_dramByte (s : State) (k : Nat) (x : Fold) (j : Nat) : (s.setFold k x).dramByte j = s.dramByte j := rfl
@[simp] theorem State.setFold_at_diag (s : State) (k : Nat) (x : Fold) (j : Nat) : (s.setFold k x).diag j = s.diag j := rfl

@[simp] theorem State.updFold_eq (s : State) (k : Nat) (f : Fold → Fold) : s.updFold k f = s.setFold k (f (s.fold k)) := rfl
@[simp] theorem State.setBind_pending (s : State) (i : Nat) (x : Binding) : (s.setBind i x).pending = s.pending := rfl
@[simp] theorem State.setBind_regs (s : State) (i : Nat) (x : Binding) : (s.setBind i x).regs = s.regs := rfl
@[simp] theorem State.setBind_wide (s : State) (i : Nat) (x : Binding) : (s.setBind i x).wide = s.wide := rfl
@[simp] theorem State.setBind_hiLatch (s : State) (i : Nat) (x : Binding) : (s.setBind i x).hiLatch = s.hiLatch := rfl
@[simp] theorem State.setBind_gens (s : State) (i : Nat) (x : Binding) : (s.setBind i x).gens = s.gens := rfl
@[simp] theorem State.setBind_ws (s : State) (i : Nat) (x : Binding) : (s.setBind i x).ws = s.ws := rfl
@[simp] theorem State.setBind_dram (s : State) (i : Nat) (x : Binding) : (s.setBind i x).dram = s.dram := rfl
@[simp] theorem State.setBind_dom (s : State) (i : Nat) (x : Binding) : (s.setBind i x).dom = s.dom := rfl
@[simp] theorem State.setBind_boot (s : State) (i : Nat) (x : Binding) : (s.setBind i x).boot = s.boot := rfl
@[simp] theorem State.setBind_amb (s : State) (i : Nat) (x : Binding) : (s.setBind i x).amb = s.amb := rfl
@[simp] theorem State.setBind_ports (s : State) (i : Nat) (x : Binding) : (s.setBind i x).ports = s.ports := rfl
@[simp] theorem State.setBind_outs (s : State) (i : Nat) (x : Binding) : (s.setBind i x).outs = s.outs := rfl
@[simp] theorem State.setBind_bell (s : State) (i : Nat) (x : Binding) : (s.setBind i x).bell = s.bell := rfl
@[simp] theorem State.setBind_chans (s : State) (i : Nat) (x : Binding) : (s.setBind i x).chans = s.chans := rfl
@[simp] theorem State.setBind_terms (s : State) (i : Nat) (x : Binding) : (s.setBind i x).terms = s.terms := rfl
@[simp] theorem State.setBind_folds (s : State) (i : Nat) (x : Binding) : (s.setBind i x).folds = s.folds := rfl
@[simp] theorem State.setBind_gates (s : State) (i : Nat) (x : Binding) : (s.setBind i x).gates = s.gates := rfl
@[simp] theorem State.setBind_timers (s : State) (i : Nat) (x : Binding) : (s.setBind i x).timers = s.timers := rfl
@[simp] theorem State.setBind_trips (s : State) (i : Nat) (x : Binding) : (s.setBind i x).trips = s.trips := rfl
@[simp] theorem State.setBind_motors (s : State) (i : Nat) (x : Binding) : (s.setBind i x).motors = s.motors := rfl
@[simp] theorem State.setBind_caps (s : State) (i : Nat) (x : Binding) : (s.setBind i x).caps = s.caps := rfl
@[simp] theorem State.setBind_injs (s : State) (i : Nat) (x : Binding) : (s.setBind i x).injs = s.injs := rfl
@[simp] theorem State.setBind_images (s : State) (i : Nat) (x : Binding) : (s.setBind i x).images = s.images := rfl
@[simp] theorem State.setBind_health (s : State) (i : Nat) (x : Binding) : (s.setBind i x).health = s.health := rfl
@[simp] theorem State.setBind_runs (s : State) (i : Nat) (x : Binding) : (s.setBind i x).runs = s.runs := rfl
@[simp] theorem State.setBind_mengs (s : State) (i : Nat) (x : Binding) : (s.setBind i x).mengs = s.mengs := rfl
@[simp] theorem State.setBind_sense (s : State) (i : Nat) (x : Binding) : (s.setBind i x).sense = s.sense := rfl
@[simp] theorem State.setBind_fs (s : State) (i : Nat) (x : Binding) : (s.setBind i x).fs = s.fs := rfl
@[simp] theorem State.setBind_cores (s : State) (i : Nat) (x : Binding) : (s.setBind i x).cores = s.cores := rfl
@[simp] theorem State.setBind_bists (s : State) (i : Nat) (x : Binding) : (s.setBind i x).bists = s.bists := rfl
@[simp] theorem State.setBind_jtag (s : State) (i : Nat) (x : Binding) : (s.setBind i x).jtag = s.jtag := rfl
@[simp] theorem State.setBind_diags (s : State) (i : Nat) (x : Binding) : (s.setBind i x).diags = s.diags := rfl
@[simp] theorem State.setBind_rings (s : State) (i : Nat) (x : Binding) : (s.setBind i x).rings = s.rings := rfl
@[simp] theorem State.setBind_svc (s : State) (i : Nat) (x : Binding) : (s.setBind i x).svc = s.svc := rfl
@[simp] theorem State.setBind_col (s : State) (i : Nat) (x : Binding) : (s.setBind i x).col = s.col := rfl
@[simp] theorem State.setBind_tal (s : State) (i : Nat) (x : Binding) : (s.setBind i x).tal = s.tal := rfl
@[simp] theorem State.setBind_sec (s : State) (i : Nat) (x : Binding) : (s.setBind i x).sec = s.sec := rfl
@[simp] theorem State.setBind_attest (s : State) (i : Nat) (x : Binding) : (s.setBind i x).attest = s.attest := rfl
@[simp] theorem State.setBind_host (s : State) (i : Nat) (x : Binding) : (s.setBind i x).host = s.host := rfl
@[simp] theorem State.setBind_stn (s : State) (i : Nat) (x : Binding) : (s.setBind i x).stn = s.stn := rfl
@[simp] theorem State.setBind_nv (s : State) (i : Nat) (x : Binding) : (s.setBind i x).nv = s.nv := rfl
@[simp] theorem State.setBind_free (s : State) (i : Nat) (x : Binding) : (s.setBind i x).free = s.free := rfl
@[simp] theorem State.setBind_at_reg (s : State) (i : Nat) (x : Binding) (j : Nat) : (s.setBind i x).reg j = s.reg j := rfl
@[simp] theorem State.setBind_at_wideAt (s : State) (i : Nat) (x : Binding) (j : Nat) : (s.setBind i x).wideAt j = s.wideAt j := rfl
@[simp] theorem State.setBind_at_port (s : State) (i : Nat) (x : Binding) (j : Nat) : (s.setBind i x).port j = s.port j := rfl
@[simp] theorem State.setBind_at_out (s : State) (i : Nat) (x : Binding) (j : Nat) : (s.setBind i x).out j = s.out j := rfl
@[simp] theorem State.setBind_at_chan (s : State) (i : Nat) (x : Binding) (j : Nat) : (s.setBind i x).chan j = s.chan j := rfl
@[simp] theorem State.setBind_at_term (s : State) (i : Nat) (x : Binding) (j : Nat) : (s.setBind i x).term j = s.term j := rfl
@[simp] theorem State.setBind_at_fold (s : State) (i : Nat) (x : Binding) (j : Nat) : (s.setBind i x).fold j = s.fold j := rfl
@[simp] theorem State.setBind_at_gate (s : State) (i : Nat) (x : Binding) (j : Nat) : (s.setBind i x).gate j = s.gate j := rfl
@[simp] theorem State.setBind_at_timer (s : State) (i : Nat) (x : Binding) (j : Nat) : (s.setBind i x).timer j = s.timer j := rfl
@[simp] theorem State.setBind_at_trip (s : State) (i : Nat) (x : Binding) (j : Nat) : (s.setBind i x).trip j = s.trip j := rfl
@[simp] theorem State.setBind_at_ring (s : State) (i : Nat) (x : Binding) (j : Nat) : (s.setBind i x).ring j = s.ring j := rfl
@[simp] theorem State.setBind_at_inj (s : State) (i : Nat) (x : Binding) (j : Nat) : (s.setBind i x).inj j = s.inj j := rfl
@[simp] theorem State.setBind_at_cap (s : State) (i : Nat) (x : Binding) (j : Nat) : (s.setBind i x).cap j = s.cap j := rfl
@[simp] theorem State.setBind_at_motor (s : State) (i : Nat) (x : Binding) (j : Nat) : (s.setBind i x).motor j = s.motor j := rfl
@[simp] theorem State.setBind_at_hlt (s : State) (i : Nat) (x : Binding) (j : Nat) : (s.setBind i x).hlt j = s.hlt j := rfl
@[simp] theorem State.setBind_at_run (s : State) (i : Nat) (x : Binding) (j : Nat) : (s.setBind i x).run j = s.run j := rfl
@[simp] theorem State.setBind_at_meng (s : State) (i : Nat) (x : Binding) (j : Nat) : (s.setBind i x).meng j = s.meng j := rfl
@[simp] theorem State.setBind_at_sns (s : State) (i : Nat) (x : Binding) (j : Nat) : (s.setBind i x).sns j = s.sns j := rfl
@[simp] theorem State.setBind_at_image (s : State) (i : Nat) (x : Binding) (j : Nat) : (s.setBind i x).image j = s.image j := rfl
@[simp] theorem State.setBind_at_fsPair (s : State) (i : Nat) (x : Binding) (j : Nat) : (s.setBind i x).fsPair j = s.fsPair j := rfl
@[simp] theorem State.setBind_at_core (s : State) (i : Nat) (x : Binding) (j : Nat) : (s.setBind i x).core j = s.core j := rfl
@[simp] theorem State.setBind_at_bist (s : State) (i : Nat) (x : Binding) (j : Nat) : (s.setBind i x).bist j = s.bist j := rfl
@[simp] theorem State.setBind_at_dramByte (s : State) (i : Nat) (x : Binding) (j : Nat) : (s.setBind i x).dramByte j = s.dramByte j := rfl
@[simp] theorem State.setBind_at_diag (s : State) (i : Nat) (x : Binding) (j : Nat) : (s.setBind i x).diag j = s.diag j := rfl

@[simp] theorem State.setGate_pending (s : State) (g : Nat) (x : Gate) : (s.setGate g x).pending = s.pending := rfl
@[simp] theorem State.setGate_regs (s : State) (g : Nat) (x : Gate) : (s.setGate g x).regs = s.regs := rfl
@[simp] theorem State.setGate_wide (s : State) (g : Nat) (x : Gate) : (s.setGate g x).wide = s.wide := rfl
@[simp] theorem State.setGate_hiLatch (s : State) (g : Nat) (x : Gate) : (s.setGate g x).hiLatch = s.hiLatch := rfl
@[simp] theorem State.setGate_gens (s : State) (g : Nat) (x : Gate) : (s.setGate g x).gens = s.gens := rfl
@[simp] theorem State.setGate_ws (s : State) (g : Nat) (x : Gate) : (s.setGate g x).ws = s.ws := rfl
@[simp] theorem State.setGate_dram (s : State) (g : Nat) (x : Gate) : (s.setGate g x).dram = s.dram := rfl
@[simp] theorem State.setGate_dom (s : State) (g : Nat) (x : Gate) : (s.setGate g x).dom = s.dom := rfl
@[simp] theorem State.setGate_boot (s : State) (g : Nat) (x : Gate) : (s.setGate g x).boot = s.boot := rfl
@[simp] theorem State.setGate_amb (s : State) (g : Nat) (x : Gate) : (s.setGate g x).amb = s.amb := rfl
@[simp] theorem State.setGate_ports (s : State) (g : Nat) (x : Gate) : (s.setGate g x).ports = s.ports := rfl
@[simp] theorem State.setGate_outs (s : State) (g : Nat) (x : Gate) : (s.setGate g x).outs = s.outs := rfl
@[simp] theorem State.setGate_bell (s : State) (g : Nat) (x : Gate) : (s.setGate g x).bell = s.bell := rfl
@[simp] theorem State.setGate_chans (s : State) (g : Nat) (x : Gate) : (s.setGate g x).chans = s.chans := rfl
@[simp] theorem State.setGate_terms (s : State) (g : Nat) (x : Gate) : (s.setGate g x).terms = s.terms := rfl
@[simp] theorem State.setGate_folds (s : State) (g : Nat) (x : Gate) : (s.setGate g x).folds = s.folds := rfl
@[simp] theorem State.setGate_binds (s : State) (g : Nat) (x : Gate) : (s.setGate g x).binds = s.binds := rfl
@[simp] theorem State.setGate_timers (s : State) (g : Nat) (x : Gate) : (s.setGate g x).timers = s.timers := rfl
@[simp] theorem State.setGate_trips (s : State) (g : Nat) (x : Gate) : (s.setGate g x).trips = s.trips := rfl
@[simp] theorem State.setGate_motors (s : State) (g : Nat) (x : Gate) : (s.setGate g x).motors = s.motors := rfl
@[simp] theorem State.setGate_caps (s : State) (g : Nat) (x : Gate) : (s.setGate g x).caps = s.caps := rfl
@[simp] theorem State.setGate_injs (s : State) (g : Nat) (x : Gate) : (s.setGate g x).injs = s.injs := rfl
@[simp] theorem State.setGate_images (s : State) (g : Nat) (x : Gate) : (s.setGate g x).images = s.images := rfl
@[simp] theorem State.setGate_health (s : State) (g : Nat) (x : Gate) : (s.setGate g x).health = s.health := rfl
@[simp] theorem State.setGate_runs (s : State) (g : Nat) (x : Gate) : (s.setGate g x).runs = s.runs := rfl
@[simp] theorem State.setGate_mengs (s : State) (g : Nat) (x : Gate) : (s.setGate g x).mengs = s.mengs := rfl
@[simp] theorem State.setGate_sense (s : State) (g : Nat) (x : Gate) : (s.setGate g x).sense = s.sense := rfl
@[simp] theorem State.setGate_fs (s : State) (g : Nat) (x : Gate) : (s.setGate g x).fs = s.fs := rfl
@[simp] theorem State.setGate_cores (s : State) (g : Nat) (x : Gate) : (s.setGate g x).cores = s.cores := rfl
@[simp] theorem State.setGate_bists (s : State) (g : Nat) (x : Gate) : (s.setGate g x).bists = s.bists := rfl
@[simp] theorem State.setGate_jtag (s : State) (g : Nat) (x : Gate) : (s.setGate g x).jtag = s.jtag := rfl
@[simp] theorem State.setGate_diags (s : State) (g : Nat) (x : Gate) : (s.setGate g x).diags = s.diags := rfl
@[simp] theorem State.setGate_rings (s : State) (g : Nat) (x : Gate) : (s.setGate g x).rings = s.rings := rfl
@[simp] theorem State.setGate_svc (s : State) (g : Nat) (x : Gate) : (s.setGate g x).svc = s.svc := rfl
@[simp] theorem State.setGate_col (s : State) (g : Nat) (x : Gate) : (s.setGate g x).col = s.col := rfl
@[simp] theorem State.setGate_tal (s : State) (g : Nat) (x : Gate) : (s.setGate g x).tal = s.tal := rfl
@[simp] theorem State.setGate_sec (s : State) (g : Nat) (x : Gate) : (s.setGate g x).sec = s.sec := rfl
@[simp] theorem State.setGate_attest (s : State) (g : Nat) (x : Gate) : (s.setGate g x).attest = s.attest := rfl
@[simp] theorem State.setGate_host (s : State) (g : Nat) (x : Gate) : (s.setGate g x).host = s.host := rfl
@[simp] theorem State.setGate_stn (s : State) (g : Nat) (x : Gate) : (s.setGate g x).stn = s.stn := rfl
@[simp] theorem State.setGate_nv (s : State) (g : Nat) (x : Gate) : (s.setGate g x).nv = s.nv := rfl
@[simp] theorem State.setGate_free (s : State) (g : Nat) (x : Gate) : (s.setGate g x).free = s.free := rfl
@[simp] theorem State.setGate_at_reg (s : State) (g : Nat) (x : Gate) (j : Nat) : (s.setGate g x).reg j = s.reg j := rfl
@[simp] theorem State.setGate_at_wideAt (s : State) (g : Nat) (x : Gate) (j : Nat) : (s.setGate g x).wideAt j = s.wideAt j := rfl
@[simp] theorem State.setGate_at_port (s : State) (g : Nat) (x : Gate) (j : Nat) : (s.setGate g x).port j = s.port j := rfl
@[simp] theorem State.setGate_at_out (s : State) (g : Nat) (x : Gate) (j : Nat) : (s.setGate g x).out j = s.out j := rfl
@[simp] theorem State.setGate_at_chan (s : State) (g : Nat) (x : Gate) (j : Nat) : (s.setGate g x).chan j = s.chan j := rfl
@[simp] theorem State.setGate_at_term (s : State) (g : Nat) (x : Gate) (j : Nat) : (s.setGate g x).term j = s.term j := rfl
@[simp] theorem State.setGate_at_fold (s : State) (g : Nat) (x : Gate) (j : Nat) : (s.setGate g x).fold j = s.fold j := rfl
@[simp] theorem State.setGate_at_bind (s : State) (g : Nat) (x : Gate) (j : Nat) : (s.setGate g x).bind j = s.bind j := rfl
@[simp] theorem State.setGate_at_timer (s : State) (g : Nat) (x : Gate) (j : Nat) : (s.setGate g x).timer j = s.timer j := rfl
@[simp] theorem State.setGate_at_trip (s : State) (g : Nat) (x : Gate) (j : Nat) : (s.setGate g x).trip j = s.trip j := rfl
@[simp] theorem State.setGate_at_ring (s : State) (g : Nat) (x : Gate) (j : Nat) : (s.setGate g x).ring j = s.ring j := rfl
@[simp] theorem State.setGate_at_inj (s : State) (g : Nat) (x : Gate) (j : Nat) : (s.setGate g x).inj j = s.inj j := rfl
@[simp] theorem State.setGate_at_cap (s : State) (g : Nat) (x : Gate) (j : Nat) : (s.setGate g x).cap j = s.cap j := rfl
@[simp] theorem State.setGate_at_motor (s : State) (g : Nat) (x : Gate) (j : Nat) : (s.setGate g x).motor j = s.motor j := rfl
@[simp] theorem State.setGate_at_hlt (s : State) (g : Nat) (x : Gate) (j : Nat) : (s.setGate g x).hlt j = s.hlt j := rfl
@[simp] theorem State.setGate_at_run (s : State) (g : Nat) (x : Gate) (j : Nat) : (s.setGate g x).run j = s.run j := rfl
@[simp] theorem State.setGate_at_meng (s : State) (g : Nat) (x : Gate) (j : Nat) : (s.setGate g x).meng j = s.meng j := rfl
@[simp] theorem State.setGate_at_sns (s : State) (g : Nat) (x : Gate) (j : Nat) : (s.setGate g x).sns j = s.sns j := rfl
@[simp] theorem State.setGate_at_image (s : State) (g : Nat) (x : Gate) (j : Nat) : (s.setGate g x).image j = s.image j := rfl
@[simp] theorem State.setGate_at_fsPair (s : State) (g : Nat) (x : Gate) (j : Nat) : (s.setGate g x).fsPair j = s.fsPair j := rfl
@[simp] theorem State.setGate_at_core (s : State) (g : Nat) (x : Gate) (j : Nat) : (s.setGate g x).core j = s.core j := rfl
@[simp] theorem State.setGate_at_bist (s : State) (g : Nat) (x : Gate) (j : Nat) : (s.setGate g x).bist j = s.bist j := rfl
@[simp] theorem State.setGate_at_dramByte (s : State) (g : Nat) (x : Gate) (j : Nat) : (s.setGate g x).dramByte j = s.dramByte j := rfl
@[simp] theorem State.setGate_at_diag (s : State) (g : Nat) (x : Gate) (j : Nat) : (s.setGate g x).diag j = s.diag j := rfl

@[simp] theorem State.updGate_eq (s : State) (g : Nat) (f : Gate → Gate) : s.updGate g f = s.setGate g (f (s.gate g)) := rfl
@[simp] theorem State.setTimer_pending (s : State) (i : Nat) (x : Timer) : (s.setTimer i x).pending = s.pending := rfl
@[simp] theorem State.setTimer_regs (s : State) (i : Nat) (x : Timer) : (s.setTimer i x).regs = s.regs := rfl
@[simp] theorem State.setTimer_wide (s : State) (i : Nat) (x : Timer) : (s.setTimer i x).wide = s.wide := rfl
@[simp] theorem State.setTimer_hiLatch (s : State) (i : Nat) (x : Timer) : (s.setTimer i x).hiLatch = s.hiLatch := rfl
@[simp] theorem State.setTimer_gens (s : State) (i : Nat) (x : Timer) : (s.setTimer i x).gens = s.gens := rfl
@[simp] theorem State.setTimer_ws (s : State) (i : Nat) (x : Timer) : (s.setTimer i x).ws = s.ws := rfl
@[simp] theorem State.setTimer_dram (s : State) (i : Nat) (x : Timer) : (s.setTimer i x).dram = s.dram := rfl
@[simp] theorem State.setTimer_dom (s : State) (i : Nat) (x : Timer) : (s.setTimer i x).dom = s.dom := rfl
@[simp] theorem State.setTimer_boot (s : State) (i : Nat) (x : Timer) : (s.setTimer i x).boot = s.boot := rfl
@[simp] theorem State.setTimer_amb (s : State) (i : Nat) (x : Timer) : (s.setTimer i x).amb = s.amb := rfl
@[simp] theorem State.setTimer_ports (s : State) (i : Nat) (x : Timer) : (s.setTimer i x).ports = s.ports := rfl
@[simp] theorem State.setTimer_outs (s : State) (i : Nat) (x : Timer) : (s.setTimer i x).outs = s.outs := rfl
@[simp] theorem State.setTimer_bell (s : State) (i : Nat) (x : Timer) : (s.setTimer i x).bell = s.bell := rfl
@[simp] theorem State.setTimer_chans (s : State) (i : Nat) (x : Timer) : (s.setTimer i x).chans = s.chans := rfl
@[simp] theorem State.setTimer_terms (s : State) (i : Nat) (x : Timer) : (s.setTimer i x).terms = s.terms := rfl
@[simp] theorem State.setTimer_folds (s : State) (i : Nat) (x : Timer) : (s.setTimer i x).folds = s.folds := rfl
@[simp] theorem State.setTimer_binds (s : State) (i : Nat) (x : Timer) : (s.setTimer i x).binds = s.binds := rfl
@[simp] theorem State.setTimer_gates (s : State) (i : Nat) (x : Timer) : (s.setTimer i x).gates = s.gates := rfl
@[simp] theorem State.setTimer_trips (s : State) (i : Nat) (x : Timer) : (s.setTimer i x).trips = s.trips := rfl
@[simp] theorem State.setTimer_motors (s : State) (i : Nat) (x : Timer) : (s.setTimer i x).motors = s.motors := rfl
@[simp] theorem State.setTimer_caps (s : State) (i : Nat) (x : Timer) : (s.setTimer i x).caps = s.caps := rfl
@[simp] theorem State.setTimer_injs (s : State) (i : Nat) (x : Timer) : (s.setTimer i x).injs = s.injs := rfl
@[simp] theorem State.setTimer_images (s : State) (i : Nat) (x : Timer) : (s.setTimer i x).images = s.images := rfl
@[simp] theorem State.setTimer_health (s : State) (i : Nat) (x : Timer) : (s.setTimer i x).health = s.health := rfl
@[simp] theorem State.setTimer_runs (s : State) (i : Nat) (x : Timer) : (s.setTimer i x).runs = s.runs := rfl
@[simp] theorem State.setTimer_mengs (s : State) (i : Nat) (x : Timer) : (s.setTimer i x).mengs = s.mengs := rfl
@[simp] theorem State.setTimer_sense (s : State) (i : Nat) (x : Timer) : (s.setTimer i x).sense = s.sense := rfl
@[simp] theorem State.setTimer_fs (s : State) (i : Nat) (x : Timer) : (s.setTimer i x).fs = s.fs := rfl
@[simp] theorem State.setTimer_cores (s : State) (i : Nat) (x : Timer) : (s.setTimer i x).cores = s.cores := rfl
@[simp] theorem State.setTimer_bists (s : State) (i : Nat) (x : Timer) : (s.setTimer i x).bists = s.bists := rfl
@[simp] theorem State.setTimer_jtag (s : State) (i : Nat) (x : Timer) : (s.setTimer i x).jtag = s.jtag := rfl
@[simp] theorem State.setTimer_diags (s : State) (i : Nat) (x : Timer) : (s.setTimer i x).diags = s.diags := rfl
@[simp] theorem State.setTimer_rings (s : State) (i : Nat) (x : Timer) : (s.setTimer i x).rings = s.rings := rfl
@[simp] theorem State.setTimer_svc (s : State) (i : Nat) (x : Timer) : (s.setTimer i x).svc = s.svc := rfl
@[simp] theorem State.setTimer_col (s : State) (i : Nat) (x : Timer) : (s.setTimer i x).col = s.col := rfl
@[simp] theorem State.setTimer_tal (s : State) (i : Nat) (x : Timer) : (s.setTimer i x).tal = s.tal := rfl
@[simp] theorem State.setTimer_sec (s : State) (i : Nat) (x : Timer) : (s.setTimer i x).sec = s.sec := rfl
@[simp] theorem State.setTimer_attest (s : State) (i : Nat) (x : Timer) : (s.setTimer i x).attest = s.attest := rfl
@[simp] theorem State.setTimer_host (s : State) (i : Nat) (x : Timer) : (s.setTimer i x).host = s.host := rfl
@[simp] theorem State.setTimer_stn (s : State) (i : Nat) (x : Timer) : (s.setTimer i x).stn = s.stn := rfl
@[simp] theorem State.setTimer_nv (s : State) (i : Nat) (x : Timer) : (s.setTimer i x).nv = s.nv := rfl
@[simp] theorem State.setTimer_free (s : State) (i : Nat) (x : Timer) : (s.setTimer i x).free = s.free := rfl
@[simp] theorem State.setTimer_at_reg (s : State) (i : Nat) (x : Timer) (j : Nat) : (s.setTimer i x).reg j = s.reg j := rfl
@[simp] theorem State.setTimer_at_wideAt (s : State) (i : Nat) (x : Timer) (j : Nat) : (s.setTimer i x).wideAt j = s.wideAt j := rfl
@[simp] theorem State.setTimer_at_port (s : State) (i : Nat) (x : Timer) (j : Nat) : (s.setTimer i x).port j = s.port j := rfl
@[simp] theorem State.setTimer_at_out (s : State) (i : Nat) (x : Timer) (j : Nat) : (s.setTimer i x).out j = s.out j := rfl
@[simp] theorem State.setTimer_at_chan (s : State) (i : Nat) (x : Timer) (j : Nat) : (s.setTimer i x).chan j = s.chan j := rfl
@[simp] theorem State.setTimer_at_term (s : State) (i : Nat) (x : Timer) (j : Nat) : (s.setTimer i x).term j = s.term j := rfl
@[simp] theorem State.setTimer_at_fold (s : State) (i : Nat) (x : Timer) (j : Nat) : (s.setTimer i x).fold j = s.fold j := rfl
@[simp] theorem State.setTimer_at_bind (s : State) (i : Nat) (x : Timer) (j : Nat) : (s.setTimer i x).bind j = s.bind j := rfl
@[simp] theorem State.setTimer_at_gate (s : State) (i : Nat) (x : Timer) (j : Nat) : (s.setTimer i x).gate j = s.gate j := rfl
@[simp] theorem State.setTimer_at_trip (s : State) (i : Nat) (x : Timer) (j : Nat) : (s.setTimer i x).trip j = s.trip j := rfl
@[simp] theorem State.setTimer_at_ring (s : State) (i : Nat) (x : Timer) (j : Nat) : (s.setTimer i x).ring j = s.ring j := rfl
@[simp] theorem State.setTimer_at_inj (s : State) (i : Nat) (x : Timer) (j : Nat) : (s.setTimer i x).inj j = s.inj j := rfl
@[simp] theorem State.setTimer_at_cap (s : State) (i : Nat) (x : Timer) (j : Nat) : (s.setTimer i x).cap j = s.cap j := rfl
@[simp] theorem State.setTimer_at_motor (s : State) (i : Nat) (x : Timer) (j : Nat) : (s.setTimer i x).motor j = s.motor j := rfl
@[simp] theorem State.setTimer_at_hlt (s : State) (i : Nat) (x : Timer) (j : Nat) : (s.setTimer i x).hlt j = s.hlt j := rfl
@[simp] theorem State.setTimer_at_run (s : State) (i : Nat) (x : Timer) (j : Nat) : (s.setTimer i x).run j = s.run j := rfl
@[simp] theorem State.setTimer_at_meng (s : State) (i : Nat) (x : Timer) (j : Nat) : (s.setTimer i x).meng j = s.meng j := rfl
@[simp] theorem State.setTimer_at_sns (s : State) (i : Nat) (x : Timer) (j : Nat) : (s.setTimer i x).sns j = s.sns j := rfl
@[simp] theorem State.setTimer_at_image (s : State) (i : Nat) (x : Timer) (j : Nat) : (s.setTimer i x).image j = s.image j := rfl
@[simp] theorem State.setTimer_at_fsPair (s : State) (i : Nat) (x : Timer) (j : Nat) : (s.setTimer i x).fsPair j = s.fsPair j := rfl
@[simp] theorem State.setTimer_at_core (s : State) (i : Nat) (x : Timer) (j : Nat) : (s.setTimer i x).core j = s.core j := rfl
@[simp] theorem State.setTimer_at_bist (s : State) (i : Nat) (x : Timer) (j : Nat) : (s.setTimer i x).bist j = s.bist j := rfl
@[simp] theorem State.setTimer_at_dramByte (s : State) (i : Nat) (x : Timer) (j : Nat) : (s.setTimer i x).dramByte j = s.dramByte j := rfl
@[simp] theorem State.setTimer_at_diag (s : State) (i : Nat) (x : Timer) (j : Nat) : (s.setTimer i x).diag j = s.diag j := rfl

@[simp] theorem State.setTrip_pending (s : State) (g : Nat) (x : Trip) : (s.setTrip g x).pending = s.pending := rfl
@[simp] theorem State.setTrip_regs (s : State) (g : Nat) (x : Trip) : (s.setTrip g x).regs = s.regs := rfl
@[simp] theorem State.setTrip_wide (s : State) (g : Nat) (x : Trip) : (s.setTrip g x).wide = s.wide := rfl
@[simp] theorem State.setTrip_hiLatch (s : State) (g : Nat) (x : Trip) : (s.setTrip g x).hiLatch = s.hiLatch := rfl
@[simp] theorem State.setTrip_gens (s : State) (g : Nat) (x : Trip) : (s.setTrip g x).gens = s.gens := rfl
@[simp] theorem State.setTrip_ws (s : State) (g : Nat) (x : Trip) : (s.setTrip g x).ws = s.ws := rfl
@[simp] theorem State.setTrip_dram (s : State) (g : Nat) (x : Trip) : (s.setTrip g x).dram = s.dram := rfl
@[simp] theorem State.setTrip_dom (s : State) (g : Nat) (x : Trip) : (s.setTrip g x).dom = s.dom := rfl
@[simp] theorem State.setTrip_boot (s : State) (g : Nat) (x : Trip) : (s.setTrip g x).boot = s.boot := rfl
@[simp] theorem State.setTrip_amb (s : State) (g : Nat) (x : Trip) : (s.setTrip g x).amb = s.amb := rfl
@[simp] theorem State.setTrip_ports (s : State) (g : Nat) (x : Trip) : (s.setTrip g x).ports = s.ports := rfl
@[simp] theorem State.setTrip_outs (s : State) (g : Nat) (x : Trip) : (s.setTrip g x).outs = s.outs := rfl
@[simp] theorem State.setTrip_bell (s : State) (g : Nat) (x : Trip) : (s.setTrip g x).bell = s.bell := rfl
@[simp] theorem State.setTrip_chans (s : State) (g : Nat) (x : Trip) : (s.setTrip g x).chans = s.chans := rfl
@[simp] theorem State.setTrip_terms (s : State) (g : Nat) (x : Trip) : (s.setTrip g x).terms = s.terms := rfl
@[simp] theorem State.setTrip_folds (s : State) (g : Nat) (x : Trip) : (s.setTrip g x).folds = s.folds := rfl
@[simp] theorem State.setTrip_binds (s : State) (g : Nat) (x : Trip) : (s.setTrip g x).binds = s.binds := rfl
@[simp] theorem State.setTrip_gates (s : State) (g : Nat) (x : Trip) : (s.setTrip g x).gates = s.gates := rfl
@[simp] theorem State.setTrip_timers (s : State) (g : Nat) (x : Trip) : (s.setTrip g x).timers = s.timers := rfl
@[simp] theorem State.setTrip_motors (s : State) (g : Nat) (x : Trip) : (s.setTrip g x).motors = s.motors := rfl
@[simp] theorem State.setTrip_caps (s : State) (g : Nat) (x : Trip) : (s.setTrip g x).caps = s.caps := rfl
@[simp] theorem State.setTrip_injs (s : State) (g : Nat) (x : Trip) : (s.setTrip g x).injs = s.injs := rfl
@[simp] theorem State.setTrip_images (s : State) (g : Nat) (x : Trip) : (s.setTrip g x).images = s.images := rfl
@[simp] theorem State.setTrip_health (s : State) (g : Nat) (x : Trip) : (s.setTrip g x).health = s.health := rfl
@[simp] theorem State.setTrip_runs (s : State) (g : Nat) (x : Trip) : (s.setTrip g x).runs = s.runs := rfl
@[simp] theorem State.setTrip_mengs (s : State) (g : Nat) (x : Trip) : (s.setTrip g x).mengs = s.mengs := rfl
@[simp] theorem State.setTrip_sense (s : State) (g : Nat) (x : Trip) : (s.setTrip g x).sense = s.sense := rfl
@[simp] theorem State.setTrip_fs (s : State) (g : Nat) (x : Trip) : (s.setTrip g x).fs = s.fs := rfl
@[simp] theorem State.setTrip_cores (s : State) (g : Nat) (x : Trip) : (s.setTrip g x).cores = s.cores := rfl
@[simp] theorem State.setTrip_bists (s : State) (g : Nat) (x : Trip) : (s.setTrip g x).bists = s.bists := rfl
@[simp] theorem State.setTrip_jtag (s : State) (g : Nat) (x : Trip) : (s.setTrip g x).jtag = s.jtag := rfl
@[simp] theorem State.setTrip_diags (s : State) (g : Nat) (x : Trip) : (s.setTrip g x).diags = s.diags := rfl
@[simp] theorem State.setTrip_rings (s : State) (g : Nat) (x : Trip) : (s.setTrip g x).rings = s.rings := rfl
@[simp] theorem State.setTrip_svc (s : State) (g : Nat) (x : Trip) : (s.setTrip g x).svc = s.svc := rfl
@[simp] theorem State.setTrip_col (s : State) (g : Nat) (x : Trip) : (s.setTrip g x).col = s.col := rfl
@[simp] theorem State.setTrip_tal (s : State) (g : Nat) (x : Trip) : (s.setTrip g x).tal = s.tal := rfl
@[simp] theorem State.setTrip_sec (s : State) (g : Nat) (x : Trip) : (s.setTrip g x).sec = s.sec := rfl
@[simp] theorem State.setTrip_attest (s : State) (g : Nat) (x : Trip) : (s.setTrip g x).attest = s.attest := rfl
@[simp] theorem State.setTrip_host (s : State) (g : Nat) (x : Trip) : (s.setTrip g x).host = s.host := rfl
@[simp] theorem State.setTrip_stn (s : State) (g : Nat) (x : Trip) : (s.setTrip g x).stn = s.stn := rfl
@[simp] theorem State.setTrip_nv (s : State) (g : Nat) (x : Trip) : (s.setTrip g x).nv = s.nv := rfl
@[simp] theorem State.setTrip_free (s : State) (g : Nat) (x : Trip) : (s.setTrip g x).free = s.free := rfl
@[simp] theorem State.setTrip_at_reg (s : State) (g : Nat) (x : Trip) (j : Nat) : (s.setTrip g x).reg j = s.reg j := rfl
@[simp] theorem State.setTrip_at_wideAt (s : State) (g : Nat) (x : Trip) (j : Nat) : (s.setTrip g x).wideAt j = s.wideAt j := rfl
@[simp] theorem State.setTrip_at_port (s : State) (g : Nat) (x : Trip) (j : Nat) : (s.setTrip g x).port j = s.port j := rfl
@[simp] theorem State.setTrip_at_out (s : State) (g : Nat) (x : Trip) (j : Nat) : (s.setTrip g x).out j = s.out j := rfl
@[simp] theorem State.setTrip_at_chan (s : State) (g : Nat) (x : Trip) (j : Nat) : (s.setTrip g x).chan j = s.chan j := rfl
@[simp] theorem State.setTrip_at_term (s : State) (g : Nat) (x : Trip) (j : Nat) : (s.setTrip g x).term j = s.term j := rfl
@[simp] theorem State.setTrip_at_fold (s : State) (g : Nat) (x : Trip) (j : Nat) : (s.setTrip g x).fold j = s.fold j := rfl
@[simp] theorem State.setTrip_at_bind (s : State) (g : Nat) (x : Trip) (j : Nat) : (s.setTrip g x).bind j = s.bind j := rfl
@[simp] theorem State.setTrip_at_gate (s : State) (g : Nat) (x : Trip) (j : Nat) : (s.setTrip g x).gate j = s.gate j := rfl
@[simp] theorem State.setTrip_at_timer (s : State) (g : Nat) (x : Trip) (j : Nat) : (s.setTrip g x).timer j = s.timer j := rfl
@[simp] theorem State.setTrip_at_ring (s : State) (g : Nat) (x : Trip) (j : Nat) : (s.setTrip g x).ring j = s.ring j := rfl
@[simp] theorem State.setTrip_at_inj (s : State) (g : Nat) (x : Trip) (j : Nat) : (s.setTrip g x).inj j = s.inj j := rfl
@[simp] theorem State.setTrip_at_cap (s : State) (g : Nat) (x : Trip) (j : Nat) : (s.setTrip g x).cap j = s.cap j := rfl
@[simp] theorem State.setTrip_at_motor (s : State) (g : Nat) (x : Trip) (j : Nat) : (s.setTrip g x).motor j = s.motor j := rfl
@[simp] theorem State.setTrip_at_hlt (s : State) (g : Nat) (x : Trip) (j : Nat) : (s.setTrip g x).hlt j = s.hlt j := rfl
@[simp] theorem State.setTrip_at_run (s : State) (g : Nat) (x : Trip) (j : Nat) : (s.setTrip g x).run j = s.run j := rfl
@[simp] theorem State.setTrip_at_meng (s : State) (g : Nat) (x : Trip) (j : Nat) : (s.setTrip g x).meng j = s.meng j := rfl
@[simp] theorem State.setTrip_at_sns (s : State) (g : Nat) (x : Trip) (j : Nat) : (s.setTrip g x).sns j = s.sns j := rfl
@[simp] theorem State.setTrip_at_image (s : State) (g : Nat) (x : Trip) (j : Nat) : (s.setTrip g x).image j = s.image j := rfl
@[simp] theorem State.setTrip_at_fsPair (s : State) (g : Nat) (x : Trip) (j : Nat) : (s.setTrip g x).fsPair j = s.fsPair j := rfl
@[simp] theorem State.setTrip_at_core (s : State) (g : Nat) (x : Trip) (j : Nat) : (s.setTrip g x).core j = s.core j := rfl
@[simp] theorem State.setTrip_at_bist (s : State) (g : Nat) (x : Trip) (j : Nat) : (s.setTrip g x).bist j = s.bist j := rfl
@[simp] theorem State.setTrip_at_dramByte (s : State) (g : Nat) (x : Trip) (j : Nat) : (s.setTrip g x).dramByte j = s.dramByte j := rfl
@[simp] theorem State.setTrip_at_diag (s : State) (g : Nat) (x : Trip) (j : Nat) : (s.setTrip g x).diag j = s.diag j := rfl

@[simp] theorem State.setRing_pending (s : State) (r : Nat) (x : Ring) : (s.setRing r x).pending = s.pending := rfl
@[simp] theorem State.setRing_regs (s : State) (r : Nat) (x : Ring) : (s.setRing r x).regs = s.regs := rfl
@[simp] theorem State.setRing_wide (s : State) (r : Nat) (x : Ring) : (s.setRing r x).wide = s.wide := rfl
@[simp] theorem State.setRing_hiLatch (s : State) (r : Nat) (x : Ring) : (s.setRing r x).hiLatch = s.hiLatch := rfl
@[simp] theorem State.setRing_gens (s : State) (r : Nat) (x : Ring) : (s.setRing r x).gens = s.gens := rfl
@[simp] theorem State.setRing_ws (s : State) (r : Nat) (x : Ring) : (s.setRing r x).ws = s.ws := rfl
@[simp] theorem State.setRing_dram (s : State) (r : Nat) (x : Ring) : (s.setRing r x).dram = s.dram := rfl
@[simp] theorem State.setRing_dom (s : State) (r : Nat) (x : Ring) : (s.setRing r x).dom = s.dom := rfl
@[simp] theorem State.setRing_boot (s : State) (r : Nat) (x : Ring) : (s.setRing r x).boot = s.boot := rfl
@[simp] theorem State.setRing_amb (s : State) (r : Nat) (x : Ring) : (s.setRing r x).amb = s.amb := rfl
@[simp] theorem State.setRing_ports (s : State) (r : Nat) (x : Ring) : (s.setRing r x).ports = s.ports := rfl
@[simp] theorem State.setRing_outs (s : State) (r : Nat) (x : Ring) : (s.setRing r x).outs = s.outs := rfl
@[simp] theorem State.setRing_bell (s : State) (r : Nat) (x : Ring) : (s.setRing r x).bell = s.bell := rfl
@[simp] theorem State.setRing_chans (s : State) (r : Nat) (x : Ring) : (s.setRing r x).chans = s.chans := rfl
@[simp] theorem State.setRing_terms (s : State) (r : Nat) (x : Ring) : (s.setRing r x).terms = s.terms := rfl
@[simp] theorem State.setRing_folds (s : State) (r : Nat) (x : Ring) : (s.setRing r x).folds = s.folds := rfl
@[simp] theorem State.setRing_binds (s : State) (r : Nat) (x : Ring) : (s.setRing r x).binds = s.binds := rfl
@[simp] theorem State.setRing_gates (s : State) (r : Nat) (x : Ring) : (s.setRing r x).gates = s.gates := rfl
@[simp] theorem State.setRing_timers (s : State) (r : Nat) (x : Ring) : (s.setRing r x).timers = s.timers := rfl
@[simp] theorem State.setRing_trips (s : State) (r : Nat) (x : Ring) : (s.setRing r x).trips = s.trips := rfl
@[simp] theorem State.setRing_motors (s : State) (r : Nat) (x : Ring) : (s.setRing r x).motors = s.motors := rfl
@[simp] theorem State.setRing_caps (s : State) (r : Nat) (x : Ring) : (s.setRing r x).caps = s.caps := rfl
@[simp] theorem State.setRing_injs (s : State) (r : Nat) (x : Ring) : (s.setRing r x).injs = s.injs := rfl
@[simp] theorem State.setRing_images (s : State) (r : Nat) (x : Ring) : (s.setRing r x).images = s.images := rfl
@[simp] theorem State.setRing_health (s : State) (r : Nat) (x : Ring) : (s.setRing r x).health = s.health := rfl
@[simp] theorem State.setRing_runs (s : State) (r : Nat) (x : Ring) : (s.setRing r x).runs = s.runs := rfl
@[simp] theorem State.setRing_mengs (s : State) (r : Nat) (x : Ring) : (s.setRing r x).mengs = s.mengs := rfl
@[simp] theorem State.setRing_sense (s : State) (r : Nat) (x : Ring) : (s.setRing r x).sense = s.sense := rfl
@[simp] theorem State.setRing_fs (s : State) (r : Nat) (x : Ring) : (s.setRing r x).fs = s.fs := rfl
@[simp] theorem State.setRing_cores (s : State) (r : Nat) (x : Ring) : (s.setRing r x).cores = s.cores := rfl
@[simp] theorem State.setRing_bists (s : State) (r : Nat) (x : Ring) : (s.setRing r x).bists = s.bists := rfl
@[simp] theorem State.setRing_jtag (s : State) (r : Nat) (x : Ring) : (s.setRing r x).jtag = s.jtag := rfl
@[simp] theorem State.setRing_diags (s : State) (r : Nat) (x : Ring) : (s.setRing r x).diags = s.diags := rfl
@[simp] theorem State.setRing_svc (s : State) (r : Nat) (x : Ring) : (s.setRing r x).svc = s.svc := rfl
@[simp] theorem State.setRing_col (s : State) (r : Nat) (x : Ring) : (s.setRing r x).col = s.col := rfl
@[simp] theorem State.setRing_tal (s : State) (r : Nat) (x : Ring) : (s.setRing r x).tal = s.tal := rfl
@[simp] theorem State.setRing_sec (s : State) (r : Nat) (x : Ring) : (s.setRing r x).sec = s.sec := rfl
@[simp] theorem State.setRing_attest (s : State) (r : Nat) (x : Ring) : (s.setRing r x).attest = s.attest := rfl
@[simp] theorem State.setRing_host (s : State) (r : Nat) (x : Ring) : (s.setRing r x).host = s.host := rfl
@[simp] theorem State.setRing_stn (s : State) (r : Nat) (x : Ring) : (s.setRing r x).stn = s.stn := rfl
@[simp] theorem State.setRing_nv (s : State) (r : Nat) (x : Ring) : (s.setRing r x).nv = s.nv := rfl
@[simp] theorem State.setRing_free (s : State) (r : Nat) (x : Ring) : (s.setRing r x).free = s.free := rfl
@[simp] theorem State.setRing_at_reg (s : State) (r : Nat) (x : Ring) (j : Nat) : (s.setRing r x).reg j = s.reg j := rfl
@[simp] theorem State.setRing_at_wideAt (s : State) (r : Nat) (x : Ring) (j : Nat) : (s.setRing r x).wideAt j = s.wideAt j := rfl
@[simp] theorem State.setRing_at_port (s : State) (r : Nat) (x : Ring) (j : Nat) : (s.setRing r x).port j = s.port j := rfl
@[simp] theorem State.setRing_at_out (s : State) (r : Nat) (x : Ring) (j : Nat) : (s.setRing r x).out j = s.out j := rfl
@[simp] theorem State.setRing_at_chan (s : State) (r : Nat) (x : Ring) (j : Nat) : (s.setRing r x).chan j = s.chan j := rfl
@[simp] theorem State.setRing_at_term (s : State) (r : Nat) (x : Ring) (j : Nat) : (s.setRing r x).term j = s.term j := rfl
@[simp] theorem State.setRing_at_fold (s : State) (r : Nat) (x : Ring) (j : Nat) : (s.setRing r x).fold j = s.fold j := rfl
@[simp] theorem State.setRing_at_bind (s : State) (r : Nat) (x : Ring) (j : Nat) : (s.setRing r x).bind j = s.bind j := rfl
@[simp] theorem State.setRing_at_gate (s : State) (r : Nat) (x : Ring) (j : Nat) : (s.setRing r x).gate j = s.gate j := rfl
@[simp] theorem State.setRing_at_timer (s : State) (r : Nat) (x : Ring) (j : Nat) : (s.setRing r x).timer j = s.timer j := rfl
@[simp] theorem State.setRing_at_trip (s : State) (r : Nat) (x : Ring) (j : Nat) : (s.setRing r x).trip j = s.trip j := rfl
@[simp] theorem State.setRing_at_inj (s : State) (r : Nat) (x : Ring) (j : Nat) : (s.setRing r x).inj j = s.inj j := rfl
@[simp] theorem State.setRing_at_cap (s : State) (r : Nat) (x : Ring) (j : Nat) : (s.setRing r x).cap j = s.cap j := rfl
@[simp] theorem State.setRing_at_motor (s : State) (r : Nat) (x : Ring) (j : Nat) : (s.setRing r x).motor j = s.motor j := rfl
@[simp] theorem State.setRing_at_hlt (s : State) (r : Nat) (x : Ring) (j : Nat) : (s.setRing r x).hlt j = s.hlt j := rfl
@[simp] theorem State.setRing_at_run (s : State) (r : Nat) (x : Ring) (j : Nat) : (s.setRing r x).run j = s.run j := rfl
@[simp] theorem State.setRing_at_meng (s : State) (r : Nat) (x : Ring) (j : Nat) : (s.setRing r x).meng j = s.meng j := rfl
@[simp] theorem State.setRing_at_sns (s : State) (r : Nat) (x : Ring) (j : Nat) : (s.setRing r x).sns j = s.sns j := rfl
@[simp] theorem State.setRing_at_image (s : State) (r : Nat) (x : Ring) (j : Nat) : (s.setRing r x).image j = s.image j := rfl
@[simp] theorem State.setRing_at_fsPair (s : State) (r : Nat) (x : Ring) (j : Nat) : (s.setRing r x).fsPair j = s.fsPair j := rfl
@[simp] theorem State.setRing_at_core (s : State) (r : Nat) (x : Ring) (j : Nat) : (s.setRing r x).core j = s.core j := rfl
@[simp] theorem State.setRing_at_bist (s : State) (r : Nat) (x : Ring) (j : Nat) : (s.setRing r x).bist j = s.bist j := rfl
@[simp] theorem State.setRing_at_dramByte (s : State) (r : Nat) (x : Ring) (j : Nat) : (s.setRing r x).dramByte j = s.dramByte j := rfl
@[simp] theorem State.setRing_at_diag (s : State) (r : Nat) (x : Ring) (j : Nat) : (s.setRing r x).diag j = s.diag j := rfl

@[simp] theorem State.updRing_eq (s : State) (r : Nat) (f : Ring → Ring) : s.updRing r f = s.setRing r (f (s.ring r)) := rfl
@[simp] theorem State.setInj_pending (s : State) (i : Nat) (x : Inj) : (s.setInj i x).pending = s.pending := rfl
@[simp] theorem State.setInj_regs (s : State) (i : Nat) (x : Inj) : (s.setInj i x).regs = s.regs := rfl
@[simp] theorem State.setInj_wide (s : State) (i : Nat) (x : Inj) : (s.setInj i x).wide = s.wide := rfl
@[simp] theorem State.setInj_hiLatch (s : State) (i : Nat) (x : Inj) : (s.setInj i x).hiLatch = s.hiLatch := rfl
@[simp] theorem State.setInj_gens (s : State) (i : Nat) (x : Inj) : (s.setInj i x).gens = s.gens := rfl
@[simp] theorem State.setInj_ws (s : State) (i : Nat) (x : Inj) : (s.setInj i x).ws = s.ws := rfl
@[simp] theorem State.setInj_dram (s : State) (i : Nat) (x : Inj) : (s.setInj i x).dram = s.dram := rfl
@[simp] theorem State.setInj_dom (s : State) (i : Nat) (x : Inj) : (s.setInj i x).dom = s.dom := rfl
@[simp] theorem State.setInj_boot (s : State) (i : Nat) (x : Inj) : (s.setInj i x).boot = s.boot := rfl
@[simp] theorem State.setInj_amb (s : State) (i : Nat) (x : Inj) : (s.setInj i x).amb = s.amb := rfl
@[simp] theorem State.setInj_ports (s : State) (i : Nat) (x : Inj) : (s.setInj i x).ports = s.ports := rfl
@[simp] theorem State.setInj_outs (s : State) (i : Nat) (x : Inj) : (s.setInj i x).outs = s.outs := rfl
@[simp] theorem State.setInj_bell (s : State) (i : Nat) (x : Inj) : (s.setInj i x).bell = s.bell := rfl
@[simp] theorem State.setInj_chans (s : State) (i : Nat) (x : Inj) : (s.setInj i x).chans = s.chans := rfl
@[simp] theorem State.setInj_terms (s : State) (i : Nat) (x : Inj) : (s.setInj i x).terms = s.terms := rfl
@[simp] theorem State.setInj_folds (s : State) (i : Nat) (x : Inj) : (s.setInj i x).folds = s.folds := rfl
@[simp] theorem State.setInj_binds (s : State) (i : Nat) (x : Inj) : (s.setInj i x).binds = s.binds := rfl
@[simp] theorem State.setInj_gates (s : State) (i : Nat) (x : Inj) : (s.setInj i x).gates = s.gates := rfl
@[simp] theorem State.setInj_timers (s : State) (i : Nat) (x : Inj) : (s.setInj i x).timers = s.timers := rfl
@[simp] theorem State.setInj_trips (s : State) (i : Nat) (x : Inj) : (s.setInj i x).trips = s.trips := rfl
@[simp] theorem State.setInj_motors (s : State) (i : Nat) (x : Inj) : (s.setInj i x).motors = s.motors := rfl
@[simp] theorem State.setInj_caps (s : State) (i : Nat) (x : Inj) : (s.setInj i x).caps = s.caps := rfl
@[simp] theorem State.setInj_images (s : State) (i : Nat) (x : Inj) : (s.setInj i x).images = s.images := rfl
@[simp] theorem State.setInj_health (s : State) (i : Nat) (x : Inj) : (s.setInj i x).health = s.health := rfl
@[simp] theorem State.setInj_runs (s : State) (i : Nat) (x : Inj) : (s.setInj i x).runs = s.runs := rfl
@[simp] theorem State.setInj_mengs (s : State) (i : Nat) (x : Inj) : (s.setInj i x).mengs = s.mengs := rfl
@[simp] theorem State.setInj_sense (s : State) (i : Nat) (x : Inj) : (s.setInj i x).sense = s.sense := rfl
@[simp] theorem State.setInj_fs (s : State) (i : Nat) (x : Inj) : (s.setInj i x).fs = s.fs := rfl
@[simp] theorem State.setInj_cores (s : State) (i : Nat) (x : Inj) : (s.setInj i x).cores = s.cores := rfl
@[simp] theorem State.setInj_bists (s : State) (i : Nat) (x : Inj) : (s.setInj i x).bists = s.bists := rfl
@[simp] theorem State.setInj_jtag (s : State) (i : Nat) (x : Inj) : (s.setInj i x).jtag = s.jtag := rfl
@[simp] theorem State.setInj_diags (s : State) (i : Nat) (x : Inj) : (s.setInj i x).diags = s.diags := rfl
@[simp] theorem State.setInj_rings (s : State) (i : Nat) (x : Inj) : (s.setInj i x).rings = s.rings := rfl
@[simp] theorem State.setInj_svc (s : State) (i : Nat) (x : Inj) : (s.setInj i x).svc = s.svc := rfl
@[simp] theorem State.setInj_col (s : State) (i : Nat) (x : Inj) : (s.setInj i x).col = s.col := rfl
@[simp] theorem State.setInj_tal (s : State) (i : Nat) (x : Inj) : (s.setInj i x).tal = s.tal := rfl
@[simp] theorem State.setInj_sec (s : State) (i : Nat) (x : Inj) : (s.setInj i x).sec = s.sec := rfl
@[simp] theorem State.setInj_attest (s : State) (i : Nat) (x : Inj) : (s.setInj i x).attest = s.attest := rfl
@[simp] theorem State.setInj_host (s : State) (i : Nat) (x : Inj) : (s.setInj i x).host = s.host := rfl
@[simp] theorem State.setInj_stn (s : State) (i : Nat) (x : Inj) : (s.setInj i x).stn = s.stn := rfl
@[simp] theorem State.setInj_nv (s : State) (i : Nat) (x : Inj) : (s.setInj i x).nv = s.nv := rfl
@[simp] theorem State.setInj_free (s : State) (i : Nat) (x : Inj) : (s.setInj i x).free = s.free := rfl
@[simp] theorem State.setInj_at_reg (s : State) (i : Nat) (x : Inj) (j : Nat) : (s.setInj i x).reg j = s.reg j := rfl
@[simp] theorem State.setInj_at_wideAt (s : State) (i : Nat) (x : Inj) (j : Nat) : (s.setInj i x).wideAt j = s.wideAt j := rfl
@[simp] theorem State.setInj_at_port (s : State) (i : Nat) (x : Inj) (j : Nat) : (s.setInj i x).port j = s.port j := rfl
@[simp] theorem State.setInj_at_out (s : State) (i : Nat) (x : Inj) (j : Nat) : (s.setInj i x).out j = s.out j := rfl
@[simp] theorem State.setInj_at_chan (s : State) (i : Nat) (x : Inj) (j : Nat) : (s.setInj i x).chan j = s.chan j := rfl
@[simp] theorem State.setInj_at_term (s : State) (i : Nat) (x : Inj) (j : Nat) : (s.setInj i x).term j = s.term j := rfl
@[simp] theorem State.setInj_at_fold (s : State) (i : Nat) (x : Inj) (j : Nat) : (s.setInj i x).fold j = s.fold j := rfl
@[simp] theorem State.setInj_at_bind (s : State) (i : Nat) (x : Inj) (j : Nat) : (s.setInj i x).bind j = s.bind j := rfl
@[simp] theorem State.setInj_at_gate (s : State) (i : Nat) (x : Inj) (j : Nat) : (s.setInj i x).gate j = s.gate j := rfl
@[simp] theorem State.setInj_at_timer (s : State) (i : Nat) (x : Inj) (j : Nat) : (s.setInj i x).timer j = s.timer j := rfl
@[simp] theorem State.setInj_at_trip (s : State) (i : Nat) (x : Inj) (j : Nat) : (s.setInj i x).trip j = s.trip j := rfl
@[simp] theorem State.setInj_at_ring (s : State) (i : Nat) (x : Inj) (j : Nat) : (s.setInj i x).ring j = s.ring j := rfl
@[simp] theorem State.setInj_at_cap (s : State) (i : Nat) (x : Inj) (j : Nat) : (s.setInj i x).cap j = s.cap j := rfl
@[simp] theorem State.setInj_at_motor (s : State) (i : Nat) (x : Inj) (j : Nat) : (s.setInj i x).motor j = s.motor j := rfl
@[simp] theorem State.setInj_at_hlt (s : State) (i : Nat) (x : Inj) (j : Nat) : (s.setInj i x).hlt j = s.hlt j := rfl
@[simp] theorem State.setInj_at_run (s : State) (i : Nat) (x : Inj) (j : Nat) : (s.setInj i x).run j = s.run j := rfl
@[simp] theorem State.setInj_at_meng (s : State) (i : Nat) (x : Inj) (j : Nat) : (s.setInj i x).meng j = s.meng j := rfl
@[simp] theorem State.setInj_at_sns (s : State) (i : Nat) (x : Inj) (j : Nat) : (s.setInj i x).sns j = s.sns j := rfl
@[simp] theorem State.setInj_at_image (s : State) (i : Nat) (x : Inj) (j : Nat) : (s.setInj i x).image j = s.image j := rfl
@[simp] theorem State.setInj_at_fsPair (s : State) (i : Nat) (x : Inj) (j : Nat) : (s.setInj i x).fsPair j = s.fsPair j := rfl
@[simp] theorem State.setInj_at_core (s : State) (i : Nat) (x : Inj) (j : Nat) : (s.setInj i x).core j = s.core j := rfl
@[simp] theorem State.setInj_at_bist (s : State) (i : Nat) (x : Inj) (j : Nat) : (s.setInj i x).bist j = s.bist j := rfl
@[simp] theorem State.setInj_at_dramByte (s : State) (i : Nat) (x : Inj) (j : Nat) : (s.setInj i x).dramByte j = s.dramByte j := rfl
@[simp] theorem State.setInj_at_diag (s : State) (i : Nat) (x : Inj) (j : Nat) : (s.setInj i x).diag j = s.diag j := rfl

@[simp] theorem State.updInj_eq (s : State) (i : Nat) (f : Inj → Inj) : s.updInj i f = s.setInj i (f (s.inj i)) := rfl
@[simp] theorem State.setCap_pending (s : State) (i : Nat) (x : Cap) : (s.setCap i x).pending = s.pending := rfl
@[simp] theorem State.setCap_regs (s : State) (i : Nat) (x : Cap) : (s.setCap i x).regs = s.regs := rfl
@[simp] theorem State.setCap_wide (s : State) (i : Nat) (x : Cap) : (s.setCap i x).wide = s.wide := rfl
@[simp] theorem State.setCap_hiLatch (s : State) (i : Nat) (x : Cap) : (s.setCap i x).hiLatch = s.hiLatch := rfl
@[simp] theorem State.setCap_gens (s : State) (i : Nat) (x : Cap) : (s.setCap i x).gens = s.gens := rfl
@[simp] theorem State.setCap_ws (s : State) (i : Nat) (x : Cap) : (s.setCap i x).ws = s.ws := rfl
@[simp] theorem State.setCap_dram (s : State) (i : Nat) (x : Cap) : (s.setCap i x).dram = s.dram := rfl
@[simp] theorem State.setCap_dom (s : State) (i : Nat) (x : Cap) : (s.setCap i x).dom = s.dom := rfl
@[simp] theorem State.setCap_boot (s : State) (i : Nat) (x : Cap) : (s.setCap i x).boot = s.boot := rfl
@[simp] theorem State.setCap_amb (s : State) (i : Nat) (x : Cap) : (s.setCap i x).amb = s.amb := rfl
@[simp] theorem State.setCap_ports (s : State) (i : Nat) (x : Cap) : (s.setCap i x).ports = s.ports := rfl
@[simp] theorem State.setCap_outs (s : State) (i : Nat) (x : Cap) : (s.setCap i x).outs = s.outs := rfl
@[simp] theorem State.setCap_bell (s : State) (i : Nat) (x : Cap) : (s.setCap i x).bell = s.bell := rfl
@[simp] theorem State.setCap_chans (s : State) (i : Nat) (x : Cap) : (s.setCap i x).chans = s.chans := rfl
@[simp] theorem State.setCap_terms (s : State) (i : Nat) (x : Cap) : (s.setCap i x).terms = s.terms := rfl
@[simp] theorem State.setCap_folds (s : State) (i : Nat) (x : Cap) : (s.setCap i x).folds = s.folds := rfl
@[simp] theorem State.setCap_binds (s : State) (i : Nat) (x : Cap) : (s.setCap i x).binds = s.binds := rfl
@[simp] theorem State.setCap_gates (s : State) (i : Nat) (x : Cap) : (s.setCap i x).gates = s.gates := rfl
@[simp] theorem State.setCap_timers (s : State) (i : Nat) (x : Cap) : (s.setCap i x).timers = s.timers := rfl
@[simp] theorem State.setCap_trips (s : State) (i : Nat) (x : Cap) : (s.setCap i x).trips = s.trips := rfl
@[simp] theorem State.setCap_motors (s : State) (i : Nat) (x : Cap) : (s.setCap i x).motors = s.motors := rfl
@[simp] theorem State.setCap_injs (s : State) (i : Nat) (x : Cap) : (s.setCap i x).injs = s.injs := rfl
@[simp] theorem State.setCap_images (s : State) (i : Nat) (x : Cap) : (s.setCap i x).images = s.images := rfl
@[simp] theorem State.setCap_health (s : State) (i : Nat) (x : Cap) : (s.setCap i x).health = s.health := rfl
@[simp] theorem State.setCap_runs (s : State) (i : Nat) (x : Cap) : (s.setCap i x).runs = s.runs := rfl
@[simp] theorem State.setCap_mengs (s : State) (i : Nat) (x : Cap) : (s.setCap i x).mengs = s.mengs := rfl
@[simp] theorem State.setCap_sense (s : State) (i : Nat) (x : Cap) : (s.setCap i x).sense = s.sense := rfl
@[simp] theorem State.setCap_fs (s : State) (i : Nat) (x : Cap) : (s.setCap i x).fs = s.fs := rfl
@[simp] theorem State.setCap_cores (s : State) (i : Nat) (x : Cap) : (s.setCap i x).cores = s.cores := rfl
@[simp] theorem State.setCap_bists (s : State) (i : Nat) (x : Cap) : (s.setCap i x).bists = s.bists := rfl
@[simp] theorem State.setCap_jtag (s : State) (i : Nat) (x : Cap) : (s.setCap i x).jtag = s.jtag := rfl
@[simp] theorem State.setCap_diags (s : State) (i : Nat) (x : Cap) : (s.setCap i x).diags = s.diags := rfl
@[simp] theorem State.setCap_rings (s : State) (i : Nat) (x : Cap) : (s.setCap i x).rings = s.rings := rfl
@[simp] theorem State.setCap_svc (s : State) (i : Nat) (x : Cap) : (s.setCap i x).svc = s.svc := rfl
@[simp] theorem State.setCap_col (s : State) (i : Nat) (x : Cap) : (s.setCap i x).col = s.col := rfl
@[simp] theorem State.setCap_tal (s : State) (i : Nat) (x : Cap) : (s.setCap i x).tal = s.tal := rfl
@[simp] theorem State.setCap_sec (s : State) (i : Nat) (x : Cap) : (s.setCap i x).sec = s.sec := rfl
@[simp] theorem State.setCap_attest (s : State) (i : Nat) (x : Cap) : (s.setCap i x).attest = s.attest := rfl
@[simp] theorem State.setCap_host (s : State) (i : Nat) (x : Cap) : (s.setCap i x).host = s.host := rfl
@[simp] theorem State.setCap_stn (s : State) (i : Nat) (x : Cap) : (s.setCap i x).stn = s.stn := rfl
@[simp] theorem State.setCap_nv (s : State) (i : Nat) (x : Cap) : (s.setCap i x).nv = s.nv := rfl
@[simp] theorem State.setCap_free (s : State) (i : Nat) (x : Cap) : (s.setCap i x).free = s.free := rfl
@[simp] theorem State.setCap_at_reg (s : State) (i : Nat) (x : Cap) (j : Nat) : (s.setCap i x).reg j = s.reg j := rfl
@[simp] theorem State.setCap_at_wideAt (s : State) (i : Nat) (x : Cap) (j : Nat) : (s.setCap i x).wideAt j = s.wideAt j := rfl
@[simp] theorem State.setCap_at_port (s : State) (i : Nat) (x : Cap) (j : Nat) : (s.setCap i x).port j = s.port j := rfl
@[simp] theorem State.setCap_at_out (s : State) (i : Nat) (x : Cap) (j : Nat) : (s.setCap i x).out j = s.out j := rfl
@[simp] theorem State.setCap_at_chan (s : State) (i : Nat) (x : Cap) (j : Nat) : (s.setCap i x).chan j = s.chan j := rfl
@[simp] theorem State.setCap_at_term (s : State) (i : Nat) (x : Cap) (j : Nat) : (s.setCap i x).term j = s.term j := rfl
@[simp] theorem State.setCap_at_fold (s : State) (i : Nat) (x : Cap) (j : Nat) : (s.setCap i x).fold j = s.fold j := rfl
@[simp] theorem State.setCap_at_bind (s : State) (i : Nat) (x : Cap) (j : Nat) : (s.setCap i x).bind j = s.bind j := rfl
@[simp] theorem State.setCap_at_gate (s : State) (i : Nat) (x : Cap) (j : Nat) : (s.setCap i x).gate j = s.gate j := rfl
@[simp] theorem State.setCap_at_timer (s : State) (i : Nat) (x : Cap) (j : Nat) : (s.setCap i x).timer j = s.timer j := rfl
@[simp] theorem State.setCap_at_trip (s : State) (i : Nat) (x : Cap) (j : Nat) : (s.setCap i x).trip j = s.trip j := rfl
@[simp] theorem State.setCap_at_ring (s : State) (i : Nat) (x : Cap) (j : Nat) : (s.setCap i x).ring j = s.ring j := rfl
@[simp] theorem State.setCap_at_inj (s : State) (i : Nat) (x : Cap) (j : Nat) : (s.setCap i x).inj j = s.inj j := rfl
@[simp] theorem State.setCap_at_motor (s : State) (i : Nat) (x : Cap) (j : Nat) : (s.setCap i x).motor j = s.motor j := rfl
@[simp] theorem State.setCap_at_hlt (s : State) (i : Nat) (x : Cap) (j : Nat) : (s.setCap i x).hlt j = s.hlt j := rfl
@[simp] theorem State.setCap_at_run (s : State) (i : Nat) (x : Cap) (j : Nat) : (s.setCap i x).run j = s.run j := rfl
@[simp] theorem State.setCap_at_meng (s : State) (i : Nat) (x : Cap) (j : Nat) : (s.setCap i x).meng j = s.meng j := rfl
@[simp] theorem State.setCap_at_sns (s : State) (i : Nat) (x : Cap) (j : Nat) : (s.setCap i x).sns j = s.sns j := rfl
@[simp] theorem State.setCap_at_image (s : State) (i : Nat) (x : Cap) (j : Nat) : (s.setCap i x).image j = s.image j := rfl
@[simp] theorem State.setCap_at_fsPair (s : State) (i : Nat) (x : Cap) (j : Nat) : (s.setCap i x).fsPair j = s.fsPair j := rfl
@[simp] theorem State.setCap_at_core (s : State) (i : Nat) (x : Cap) (j : Nat) : (s.setCap i x).core j = s.core j := rfl
@[simp] theorem State.setCap_at_bist (s : State) (i : Nat) (x : Cap) (j : Nat) : (s.setCap i x).bist j = s.bist j := rfl
@[simp] theorem State.setCap_at_dramByte (s : State) (i : Nat) (x : Cap) (j : Nat) : (s.setCap i x).dramByte j = s.dramByte j := rfl
@[simp] theorem State.setCap_at_diag (s : State) (i : Nat) (x : Cap) (j : Nat) : (s.setCap i x).diag j = s.diag j := rfl

@[simp] theorem State.updCap_eq (s : State) (i : Nat) (f : Cap → Cap) : s.updCap i f = s.setCap i (f (s.cap i)) := rfl
@[simp] theorem State.setMotor_pending (s : State) (i : Nat) (x : Motor) : (s.setMotor i x).pending = s.pending := rfl
@[simp] theorem State.setMotor_regs (s : State) (i : Nat) (x : Motor) : (s.setMotor i x).regs = s.regs := rfl
@[simp] theorem State.setMotor_wide (s : State) (i : Nat) (x : Motor) : (s.setMotor i x).wide = s.wide := rfl
@[simp] theorem State.setMotor_hiLatch (s : State) (i : Nat) (x : Motor) : (s.setMotor i x).hiLatch = s.hiLatch := rfl
@[simp] theorem State.setMotor_gens (s : State) (i : Nat) (x : Motor) : (s.setMotor i x).gens = s.gens := rfl
@[simp] theorem State.setMotor_ws (s : State) (i : Nat) (x : Motor) : (s.setMotor i x).ws = s.ws := rfl
@[simp] theorem State.setMotor_dram (s : State) (i : Nat) (x : Motor) : (s.setMotor i x).dram = s.dram := rfl
@[simp] theorem State.setMotor_dom (s : State) (i : Nat) (x : Motor) : (s.setMotor i x).dom = s.dom := rfl
@[simp] theorem State.setMotor_boot (s : State) (i : Nat) (x : Motor) : (s.setMotor i x).boot = s.boot := rfl
@[simp] theorem State.setMotor_amb (s : State) (i : Nat) (x : Motor) : (s.setMotor i x).amb = s.amb := rfl
@[simp] theorem State.setMotor_ports (s : State) (i : Nat) (x : Motor) : (s.setMotor i x).ports = s.ports := rfl
@[simp] theorem State.setMotor_outs (s : State) (i : Nat) (x : Motor) : (s.setMotor i x).outs = s.outs := rfl
@[simp] theorem State.setMotor_bell (s : State) (i : Nat) (x : Motor) : (s.setMotor i x).bell = s.bell := rfl
@[simp] theorem State.setMotor_chans (s : State) (i : Nat) (x : Motor) : (s.setMotor i x).chans = s.chans := rfl
@[simp] theorem State.setMotor_terms (s : State) (i : Nat) (x : Motor) : (s.setMotor i x).terms = s.terms := rfl
@[simp] theorem State.setMotor_folds (s : State) (i : Nat) (x : Motor) : (s.setMotor i x).folds = s.folds := rfl
@[simp] theorem State.setMotor_binds (s : State) (i : Nat) (x : Motor) : (s.setMotor i x).binds = s.binds := rfl
@[simp] theorem State.setMotor_gates (s : State) (i : Nat) (x : Motor) : (s.setMotor i x).gates = s.gates := rfl
@[simp] theorem State.setMotor_timers (s : State) (i : Nat) (x : Motor) : (s.setMotor i x).timers = s.timers := rfl
@[simp] theorem State.setMotor_trips (s : State) (i : Nat) (x : Motor) : (s.setMotor i x).trips = s.trips := rfl
@[simp] theorem State.setMotor_caps (s : State) (i : Nat) (x : Motor) : (s.setMotor i x).caps = s.caps := rfl
@[simp] theorem State.setMotor_injs (s : State) (i : Nat) (x : Motor) : (s.setMotor i x).injs = s.injs := rfl
@[simp] theorem State.setMotor_images (s : State) (i : Nat) (x : Motor) : (s.setMotor i x).images = s.images := rfl
@[simp] theorem State.setMotor_health (s : State) (i : Nat) (x : Motor) : (s.setMotor i x).health = s.health := rfl
@[simp] theorem State.setMotor_runs (s : State) (i : Nat) (x : Motor) : (s.setMotor i x).runs = s.runs := rfl
@[simp] theorem State.setMotor_mengs (s : State) (i : Nat) (x : Motor) : (s.setMotor i x).mengs = s.mengs := rfl
@[simp] theorem State.setMotor_sense (s : State) (i : Nat) (x : Motor) : (s.setMotor i x).sense = s.sense := rfl
@[simp] theorem State.setMotor_fs (s : State) (i : Nat) (x : Motor) : (s.setMotor i x).fs = s.fs := rfl
@[simp] theorem State.setMotor_cores (s : State) (i : Nat) (x : Motor) : (s.setMotor i x).cores = s.cores := rfl
@[simp] theorem State.setMotor_bists (s : State) (i : Nat) (x : Motor) : (s.setMotor i x).bists = s.bists := rfl
@[simp] theorem State.setMotor_jtag (s : State) (i : Nat) (x : Motor) : (s.setMotor i x).jtag = s.jtag := rfl
@[simp] theorem State.setMotor_diags (s : State) (i : Nat) (x : Motor) : (s.setMotor i x).diags = s.diags := rfl
@[simp] theorem State.setMotor_rings (s : State) (i : Nat) (x : Motor) : (s.setMotor i x).rings = s.rings := rfl
@[simp] theorem State.setMotor_svc (s : State) (i : Nat) (x : Motor) : (s.setMotor i x).svc = s.svc := rfl
@[simp] theorem State.setMotor_col (s : State) (i : Nat) (x : Motor) : (s.setMotor i x).col = s.col := rfl
@[simp] theorem State.setMotor_tal (s : State) (i : Nat) (x : Motor) : (s.setMotor i x).tal = s.tal := rfl
@[simp] theorem State.setMotor_sec (s : State) (i : Nat) (x : Motor) : (s.setMotor i x).sec = s.sec := rfl
@[simp] theorem State.setMotor_attest (s : State) (i : Nat) (x : Motor) : (s.setMotor i x).attest = s.attest := rfl
@[simp] theorem State.setMotor_host (s : State) (i : Nat) (x : Motor) : (s.setMotor i x).host = s.host := rfl
@[simp] theorem State.setMotor_stn (s : State) (i : Nat) (x : Motor) : (s.setMotor i x).stn = s.stn := rfl
@[simp] theorem State.setMotor_nv (s : State) (i : Nat) (x : Motor) : (s.setMotor i x).nv = s.nv := rfl
@[simp] theorem State.setMotor_free (s : State) (i : Nat) (x : Motor) : (s.setMotor i x).free = s.free := rfl
@[simp] theorem State.setMotor_at_reg (s : State) (i : Nat) (x : Motor) (j : Nat) : (s.setMotor i x).reg j = s.reg j := rfl
@[simp] theorem State.setMotor_at_wideAt (s : State) (i : Nat) (x : Motor) (j : Nat) : (s.setMotor i x).wideAt j = s.wideAt j := rfl
@[simp] theorem State.setMotor_at_port (s : State) (i : Nat) (x : Motor) (j : Nat) : (s.setMotor i x).port j = s.port j := rfl
@[simp] theorem State.setMotor_at_out (s : State) (i : Nat) (x : Motor) (j : Nat) : (s.setMotor i x).out j = s.out j := rfl
@[simp] theorem State.setMotor_at_chan (s : State) (i : Nat) (x : Motor) (j : Nat) : (s.setMotor i x).chan j = s.chan j := rfl
@[simp] theorem State.setMotor_at_term (s : State) (i : Nat) (x : Motor) (j : Nat) : (s.setMotor i x).term j = s.term j := rfl
@[simp] theorem State.setMotor_at_fold (s : State) (i : Nat) (x : Motor) (j : Nat) : (s.setMotor i x).fold j = s.fold j := rfl
@[simp] theorem State.setMotor_at_bind (s : State) (i : Nat) (x : Motor) (j : Nat) : (s.setMotor i x).bind j = s.bind j := rfl
@[simp] theorem State.setMotor_at_gate (s : State) (i : Nat) (x : Motor) (j : Nat) : (s.setMotor i x).gate j = s.gate j := rfl
@[simp] theorem State.setMotor_at_timer (s : State) (i : Nat) (x : Motor) (j : Nat) : (s.setMotor i x).timer j = s.timer j := rfl
@[simp] theorem State.setMotor_at_trip (s : State) (i : Nat) (x : Motor) (j : Nat) : (s.setMotor i x).trip j = s.trip j := rfl
@[simp] theorem State.setMotor_at_ring (s : State) (i : Nat) (x : Motor) (j : Nat) : (s.setMotor i x).ring j = s.ring j := rfl
@[simp] theorem State.setMotor_at_inj (s : State) (i : Nat) (x : Motor) (j : Nat) : (s.setMotor i x).inj j = s.inj j := rfl
@[simp] theorem State.setMotor_at_cap (s : State) (i : Nat) (x : Motor) (j : Nat) : (s.setMotor i x).cap j = s.cap j := rfl
@[simp] theorem State.setMotor_at_hlt (s : State) (i : Nat) (x : Motor) (j : Nat) : (s.setMotor i x).hlt j = s.hlt j := rfl
@[simp] theorem State.setMotor_at_run (s : State) (i : Nat) (x : Motor) (j : Nat) : (s.setMotor i x).run j = s.run j := rfl
@[simp] theorem State.setMotor_at_meng (s : State) (i : Nat) (x : Motor) (j : Nat) : (s.setMotor i x).meng j = s.meng j := rfl
@[simp] theorem State.setMotor_at_sns (s : State) (i : Nat) (x : Motor) (j : Nat) : (s.setMotor i x).sns j = s.sns j := rfl
@[simp] theorem State.setMotor_at_image (s : State) (i : Nat) (x : Motor) (j : Nat) : (s.setMotor i x).image j = s.image j := rfl
@[simp] theorem State.setMotor_at_fsPair (s : State) (i : Nat) (x : Motor) (j : Nat) : (s.setMotor i x).fsPair j = s.fsPair j := rfl
@[simp] theorem State.setMotor_at_core (s : State) (i : Nat) (x : Motor) (j : Nat) : (s.setMotor i x).core j = s.core j := rfl
@[simp] theorem State.setMotor_at_bist (s : State) (i : Nat) (x : Motor) (j : Nat) : (s.setMotor i x).bist j = s.bist j := rfl
@[simp] theorem State.setMotor_at_dramByte (s : State) (i : Nat) (x : Motor) (j : Nat) : (s.setMotor i x).dramByte j = s.dramByte j := rfl
@[simp] theorem State.setMotor_at_diag (s : State) (i : Nat) (x : Motor) (j : Nat) : (s.setMotor i x).diag j = s.diag j := rfl

@[simp] theorem State.updMotor_eq (s : State) (i : Nat) (f : Motor → Motor) : s.updMotor i f = s.setMotor i (f (s.motor i)) := rfl
@[simp] theorem State.updHlt_pending (s : State) (e : Nat) (f : Health → Health) : (s.updHlt e f).pending = s.pending := rfl
@[simp] theorem State.updHlt_regs (s : State) (e : Nat) (f : Health → Health) : (s.updHlt e f).regs = s.regs := rfl
@[simp] theorem State.updHlt_wide (s : State) (e : Nat) (f : Health → Health) : (s.updHlt e f).wide = s.wide := rfl
@[simp] theorem State.updHlt_hiLatch (s : State) (e : Nat) (f : Health → Health) : (s.updHlt e f).hiLatch = s.hiLatch := rfl
@[simp] theorem State.updHlt_gens (s : State) (e : Nat) (f : Health → Health) : (s.updHlt e f).gens = s.gens := rfl
@[simp] theorem State.updHlt_ws (s : State) (e : Nat) (f : Health → Health) : (s.updHlt e f).ws = s.ws := rfl
@[simp] theorem State.updHlt_dram (s : State) (e : Nat) (f : Health → Health) : (s.updHlt e f).dram = s.dram := rfl
@[simp] theorem State.updHlt_dom (s : State) (e : Nat) (f : Health → Health) : (s.updHlt e f).dom = s.dom := rfl
@[simp] theorem State.updHlt_boot (s : State) (e : Nat) (f : Health → Health) : (s.updHlt e f).boot = s.boot := rfl
@[simp] theorem State.updHlt_amb (s : State) (e : Nat) (f : Health → Health) : (s.updHlt e f).amb = s.amb := rfl
@[simp] theorem State.updHlt_ports (s : State) (e : Nat) (f : Health → Health) : (s.updHlt e f).ports = s.ports := rfl
@[simp] theorem State.updHlt_outs (s : State) (e : Nat) (f : Health → Health) : (s.updHlt e f).outs = s.outs := rfl
@[simp] theorem State.updHlt_bell (s : State) (e : Nat) (f : Health → Health) : (s.updHlt e f).bell = s.bell := rfl
@[simp] theorem State.updHlt_chans (s : State) (e : Nat) (f : Health → Health) : (s.updHlt e f).chans = s.chans := rfl
@[simp] theorem State.updHlt_terms (s : State) (e : Nat) (f : Health → Health) : (s.updHlt e f).terms = s.terms := rfl
@[simp] theorem State.updHlt_folds (s : State) (e : Nat) (f : Health → Health) : (s.updHlt e f).folds = s.folds := rfl
@[simp] theorem State.updHlt_binds (s : State) (e : Nat) (f : Health → Health) : (s.updHlt e f).binds = s.binds := rfl
@[simp] theorem State.updHlt_gates (s : State) (e : Nat) (f : Health → Health) : (s.updHlt e f).gates = s.gates := rfl
@[simp] theorem State.updHlt_timers (s : State) (e : Nat) (f : Health → Health) : (s.updHlt e f).timers = s.timers := rfl
@[simp] theorem State.updHlt_trips (s : State) (e : Nat) (f : Health → Health) : (s.updHlt e f).trips = s.trips := rfl
@[simp] theorem State.updHlt_motors (s : State) (e : Nat) (f : Health → Health) : (s.updHlt e f).motors = s.motors := rfl
@[simp] theorem State.updHlt_caps (s : State) (e : Nat) (f : Health → Health) : (s.updHlt e f).caps = s.caps := rfl
@[simp] theorem State.updHlt_injs (s : State) (e : Nat) (f : Health → Health) : (s.updHlt e f).injs = s.injs := rfl
@[simp] theorem State.updHlt_images (s : State) (e : Nat) (f : Health → Health) : (s.updHlt e f).images = s.images := rfl
@[simp] theorem State.updHlt_runs (s : State) (e : Nat) (f : Health → Health) : (s.updHlt e f).runs = s.runs := rfl
@[simp] theorem State.updHlt_mengs (s : State) (e : Nat) (f : Health → Health) : (s.updHlt e f).mengs = s.mengs := rfl
@[simp] theorem State.updHlt_sense (s : State) (e : Nat) (f : Health → Health) : (s.updHlt e f).sense = s.sense := rfl
@[simp] theorem State.updHlt_fs (s : State) (e : Nat) (f : Health → Health) : (s.updHlt e f).fs = s.fs := rfl
@[simp] theorem State.updHlt_cores (s : State) (e : Nat) (f : Health → Health) : (s.updHlt e f).cores = s.cores := rfl
@[simp] theorem State.updHlt_bists (s : State) (e : Nat) (f : Health → Health) : (s.updHlt e f).bists = s.bists := rfl
@[simp] theorem State.updHlt_jtag (s : State) (e : Nat) (f : Health → Health) : (s.updHlt e f).jtag = s.jtag := rfl
@[simp] theorem State.updHlt_diags (s : State) (e : Nat) (f : Health → Health) : (s.updHlt e f).diags = s.diags := rfl
@[simp] theorem State.updHlt_rings (s : State) (e : Nat) (f : Health → Health) : (s.updHlt e f).rings = s.rings := rfl
@[simp] theorem State.updHlt_svc (s : State) (e : Nat) (f : Health → Health) : (s.updHlt e f).svc = s.svc := rfl
@[simp] theorem State.updHlt_col (s : State) (e : Nat) (f : Health → Health) : (s.updHlt e f).col = s.col := rfl
@[simp] theorem State.updHlt_tal (s : State) (e : Nat) (f : Health → Health) : (s.updHlt e f).tal = s.tal := rfl
@[simp] theorem State.updHlt_sec (s : State) (e : Nat) (f : Health → Health) : (s.updHlt e f).sec = s.sec := rfl
@[simp] theorem State.updHlt_attest (s : State) (e : Nat) (f : Health → Health) : (s.updHlt e f).attest = s.attest := rfl
@[simp] theorem State.updHlt_host (s : State) (e : Nat) (f : Health → Health) : (s.updHlt e f).host = s.host := rfl
@[simp] theorem State.updHlt_stn (s : State) (e : Nat) (f : Health → Health) : (s.updHlt e f).stn = s.stn := rfl
@[simp] theorem State.updHlt_nv (s : State) (e : Nat) (f : Health → Health) : (s.updHlt e f).nv = s.nv := rfl
@[simp] theorem State.updHlt_free (s : State) (e : Nat) (f : Health → Health) : (s.updHlt e f).free = s.free := rfl
@[simp] theorem State.updHlt_at_reg (s : State) (e : Nat) (f : Health → Health) (j : Nat) : (s.updHlt e f).reg j = s.reg j := rfl
@[simp] theorem State.updHlt_at_wideAt (s : State) (e : Nat) (f : Health → Health) (j : Nat) : (s.updHlt e f).wideAt j = s.wideAt j := rfl
@[simp] theorem State.updHlt_at_port (s : State) (e : Nat) (f : Health → Health) (j : Nat) : (s.updHlt e f).port j = s.port j := rfl
@[simp] theorem State.updHlt_at_out (s : State) (e : Nat) (f : Health → Health) (j : Nat) : (s.updHlt e f).out j = s.out j := rfl
@[simp] theorem State.updHlt_at_chan (s : State) (e : Nat) (f : Health → Health) (j : Nat) : (s.updHlt e f).chan j = s.chan j := rfl
@[simp] theorem State.updHlt_at_term (s : State) (e : Nat) (f : Health → Health) (j : Nat) : (s.updHlt e f).term j = s.term j := rfl
@[simp] theorem State.updHlt_at_fold (s : State) (e : Nat) (f : Health → Health) (j : Nat) : (s.updHlt e f).fold j = s.fold j := rfl
@[simp] theorem State.updHlt_at_bind (s : State) (e : Nat) (f : Health → Health) (j : Nat) : (s.updHlt e f).bind j = s.bind j := rfl
@[simp] theorem State.updHlt_at_gate (s : State) (e : Nat) (f : Health → Health) (j : Nat) : (s.updHlt e f).gate j = s.gate j := rfl
@[simp] theorem State.updHlt_at_timer (s : State) (e : Nat) (f : Health → Health) (j : Nat) : (s.updHlt e f).timer j = s.timer j := rfl
@[simp] theorem State.updHlt_at_trip (s : State) (e : Nat) (f : Health → Health) (j : Nat) : (s.updHlt e f).trip j = s.trip j := rfl
@[simp] theorem State.updHlt_at_ring (s : State) (e : Nat) (f : Health → Health) (j : Nat) : (s.updHlt e f).ring j = s.ring j := rfl
@[simp] theorem State.updHlt_at_inj (s : State) (e : Nat) (f : Health → Health) (j : Nat) : (s.updHlt e f).inj j = s.inj j := rfl
@[simp] theorem State.updHlt_at_cap (s : State) (e : Nat) (f : Health → Health) (j : Nat) : (s.updHlt e f).cap j = s.cap j := rfl
@[simp] theorem State.updHlt_at_motor (s : State) (e : Nat) (f : Health → Health) (j : Nat) : (s.updHlt e f).motor j = s.motor j := rfl
@[simp] theorem State.updHlt_at_run (s : State) (e : Nat) (f : Health → Health) (j : Nat) : (s.updHlt e f).run j = s.run j := rfl
@[simp] theorem State.updHlt_at_meng (s : State) (e : Nat) (f : Health → Health) (j : Nat) : (s.updHlt e f).meng j = s.meng j := rfl
@[simp] theorem State.updHlt_at_sns (s : State) (e : Nat) (f : Health → Health) (j : Nat) : (s.updHlt e f).sns j = s.sns j := rfl
@[simp] theorem State.updHlt_at_image (s : State) (e : Nat) (f : Health → Health) (j : Nat) : (s.updHlt e f).image j = s.image j := rfl
@[simp] theorem State.updHlt_at_fsPair (s : State) (e : Nat) (f : Health → Health) (j : Nat) : (s.updHlt e f).fsPair j = s.fsPair j := rfl
@[simp] theorem State.updHlt_at_core (s : State) (e : Nat) (f : Health → Health) (j : Nat) : (s.updHlt e f).core j = s.core j := rfl
@[simp] theorem State.updHlt_at_bist (s : State) (e : Nat) (f : Health → Health) (j : Nat) : (s.updHlt e f).bist j = s.bist j := rfl
@[simp] theorem State.updHlt_at_dramByte (s : State) (e : Nat) (f : Health → Health) (j : Nat) : (s.updHlt e f).dramByte j = s.dramByte j := rfl
@[simp] theorem State.updHlt_at_diag (s : State) (e : Nat) (f : Health → Health) (j : Nat) : (s.updHlt e f).diag j = s.diag j := rfl

@[simp] theorem State.setRun_pending (s : State) (e : Nat) (x : Run) : (s.setRun e x).pending = s.pending := rfl
@[simp] theorem State.setRun_regs (s : State) (e : Nat) (x : Run) : (s.setRun e x).regs = s.regs := rfl
@[simp] theorem State.setRun_wide (s : State) (e : Nat) (x : Run) : (s.setRun e x).wide = s.wide := rfl
@[simp] theorem State.setRun_hiLatch (s : State) (e : Nat) (x : Run) : (s.setRun e x).hiLatch = s.hiLatch := rfl
@[simp] theorem State.setRun_gens (s : State) (e : Nat) (x : Run) : (s.setRun e x).gens = s.gens := rfl
@[simp] theorem State.setRun_ws (s : State) (e : Nat) (x : Run) : (s.setRun e x).ws = s.ws := rfl
@[simp] theorem State.setRun_dram (s : State) (e : Nat) (x : Run) : (s.setRun e x).dram = s.dram := rfl
@[simp] theorem State.setRun_dom (s : State) (e : Nat) (x : Run) : (s.setRun e x).dom = s.dom := rfl
@[simp] theorem State.setRun_boot (s : State) (e : Nat) (x : Run) : (s.setRun e x).boot = s.boot := rfl
@[simp] theorem State.setRun_amb (s : State) (e : Nat) (x : Run) : (s.setRun e x).amb = s.amb := rfl
@[simp] theorem State.setRun_ports (s : State) (e : Nat) (x : Run) : (s.setRun e x).ports = s.ports := rfl
@[simp] theorem State.setRun_outs (s : State) (e : Nat) (x : Run) : (s.setRun e x).outs = s.outs := rfl
@[simp] theorem State.setRun_bell (s : State) (e : Nat) (x : Run) : (s.setRun e x).bell = s.bell := rfl
@[simp] theorem State.setRun_chans (s : State) (e : Nat) (x : Run) : (s.setRun e x).chans = s.chans := rfl
@[simp] theorem State.setRun_terms (s : State) (e : Nat) (x : Run) : (s.setRun e x).terms = s.terms := rfl
@[simp] theorem State.setRun_folds (s : State) (e : Nat) (x : Run) : (s.setRun e x).folds = s.folds := rfl
@[simp] theorem State.setRun_binds (s : State) (e : Nat) (x : Run) : (s.setRun e x).binds = s.binds := rfl
@[simp] theorem State.setRun_gates (s : State) (e : Nat) (x : Run) : (s.setRun e x).gates = s.gates := rfl
@[simp] theorem State.setRun_timers (s : State) (e : Nat) (x : Run) : (s.setRun e x).timers = s.timers := rfl
@[simp] theorem State.setRun_trips (s : State) (e : Nat) (x : Run) : (s.setRun e x).trips = s.trips := rfl
@[simp] theorem State.setRun_motors (s : State) (e : Nat) (x : Run) : (s.setRun e x).motors = s.motors := rfl
@[simp] theorem State.setRun_caps (s : State) (e : Nat) (x : Run) : (s.setRun e x).caps = s.caps := rfl
@[simp] theorem State.setRun_injs (s : State) (e : Nat) (x : Run) : (s.setRun e x).injs = s.injs := rfl
@[simp] theorem State.setRun_images (s : State) (e : Nat) (x : Run) : (s.setRun e x).images = s.images := rfl
@[simp] theorem State.setRun_health (s : State) (e : Nat) (x : Run) : (s.setRun e x).health = s.health := rfl
@[simp] theorem State.setRun_mengs (s : State) (e : Nat) (x : Run) : (s.setRun e x).mengs = s.mengs := rfl
@[simp] theorem State.setRun_sense (s : State) (e : Nat) (x : Run) : (s.setRun e x).sense = s.sense := rfl
@[simp] theorem State.setRun_fs (s : State) (e : Nat) (x : Run) : (s.setRun e x).fs = s.fs := rfl
@[simp] theorem State.setRun_cores (s : State) (e : Nat) (x : Run) : (s.setRun e x).cores = s.cores := rfl
@[simp] theorem State.setRun_bists (s : State) (e : Nat) (x : Run) : (s.setRun e x).bists = s.bists := rfl
@[simp] theorem State.setRun_jtag (s : State) (e : Nat) (x : Run) : (s.setRun e x).jtag = s.jtag := rfl
@[simp] theorem State.setRun_diags (s : State) (e : Nat) (x : Run) : (s.setRun e x).diags = s.diags := rfl
@[simp] theorem State.setRun_rings (s : State) (e : Nat) (x : Run) : (s.setRun e x).rings = s.rings := rfl
@[simp] theorem State.setRun_svc (s : State) (e : Nat) (x : Run) : (s.setRun e x).svc = s.svc := rfl
@[simp] theorem State.setRun_col (s : State) (e : Nat) (x : Run) : (s.setRun e x).col = s.col := rfl
@[simp] theorem State.setRun_tal (s : State) (e : Nat) (x : Run) : (s.setRun e x).tal = s.tal := rfl
@[simp] theorem State.setRun_sec (s : State) (e : Nat) (x : Run) : (s.setRun e x).sec = s.sec := rfl
@[simp] theorem State.setRun_attest (s : State) (e : Nat) (x : Run) : (s.setRun e x).attest = s.attest := rfl
@[simp] theorem State.setRun_host (s : State) (e : Nat) (x : Run) : (s.setRun e x).host = s.host := rfl
@[simp] theorem State.setRun_stn (s : State) (e : Nat) (x : Run) : (s.setRun e x).stn = s.stn := rfl
@[simp] theorem State.setRun_nv (s : State) (e : Nat) (x : Run) : (s.setRun e x).nv = s.nv := rfl
@[simp] theorem State.setRun_free (s : State) (e : Nat) (x : Run) : (s.setRun e x).free = s.free := rfl
@[simp] theorem State.setRun_at_reg (s : State) (e : Nat) (x : Run) (j : Nat) : (s.setRun e x).reg j = s.reg j := rfl
@[simp] theorem State.setRun_at_wideAt (s : State) (e : Nat) (x : Run) (j : Nat) : (s.setRun e x).wideAt j = s.wideAt j := rfl
@[simp] theorem State.setRun_at_port (s : State) (e : Nat) (x : Run) (j : Nat) : (s.setRun e x).port j = s.port j := rfl
@[simp] theorem State.setRun_at_out (s : State) (e : Nat) (x : Run) (j : Nat) : (s.setRun e x).out j = s.out j := rfl
@[simp] theorem State.setRun_at_chan (s : State) (e : Nat) (x : Run) (j : Nat) : (s.setRun e x).chan j = s.chan j := rfl
@[simp] theorem State.setRun_at_term (s : State) (e : Nat) (x : Run) (j : Nat) : (s.setRun e x).term j = s.term j := rfl
@[simp] theorem State.setRun_at_fold (s : State) (e : Nat) (x : Run) (j : Nat) : (s.setRun e x).fold j = s.fold j := rfl
@[simp] theorem State.setRun_at_bind (s : State) (e : Nat) (x : Run) (j : Nat) : (s.setRun e x).bind j = s.bind j := rfl
@[simp] theorem State.setRun_at_gate (s : State) (e : Nat) (x : Run) (j : Nat) : (s.setRun e x).gate j = s.gate j := rfl
@[simp] theorem State.setRun_at_timer (s : State) (e : Nat) (x : Run) (j : Nat) : (s.setRun e x).timer j = s.timer j := rfl
@[simp] theorem State.setRun_at_trip (s : State) (e : Nat) (x : Run) (j : Nat) : (s.setRun e x).trip j = s.trip j := rfl
@[simp] theorem State.setRun_at_ring (s : State) (e : Nat) (x : Run) (j : Nat) : (s.setRun e x).ring j = s.ring j := rfl
@[simp] theorem State.setRun_at_inj (s : State) (e : Nat) (x : Run) (j : Nat) : (s.setRun e x).inj j = s.inj j := rfl
@[simp] theorem State.setRun_at_cap (s : State) (e : Nat) (x : Run) (j : Nat) : (s.setRun e x).cap j = s.cap j := rfl
@[simp] theorem State.setRun_at_motor (s : State) (e : Nat) (x : Run) (j : Nat) : (s.setRun e x).motor j = s.motor j := rfl
@[simp] theorem State.setRun_at_hlt (s : State) (e : Nat) (x : Run) (j : Nat) : (s.setRun e x).hlt j = s.hlt j := rfl
@[simp] theorem State.setRun_at_meng (s : State) (e : Nat) (x : Run) (j : Nat) : (s.setRun e x).meng j = s.meng j := rfl
@[simp] theorem State.setRun_at_sns (s : State) (e : Nat) (x : Run) (j : Nat) : (s.setRun e x).sns j = s.sns j := rfl
@[simp] theorem State.setRun_at_image (s : State) (e : Nat) (x : Run) (j : Nat) : (s.setRun e x).image j = s.image j := rfl
@[simp] theorem State.setRun_at_fsPair (s : State) (e : Nat) (x : Run) (j : Nat) : (s.setRun e x).fsPair j = s.fsPair j := rfl
@[simp] theorem State.setRun_at_core (s : State) (e : Nat) (x : Run) (j : Nat) : (s.setRun e x).core j = s.core j := rfl
@[simp] theorem State.setRun_at_bist (s : State) (e : Nat) (x : Run) (j : Nat) : (s.setRun e x).bist j = s.bist j := rfl
@[simp] theorem State.setRun_at_dramByte (s : State) (e : Nat) (x : Run) (j : Nat) : (s.setRun e x).dramByte j = s.dramByte j := rfl
@[simp] theorem State.setRun_at_diag (s : State) (e : Nat) (x : Run) (j : Nat) : (s.setRun e x).diag j = s.diag j := rfl

@[simp] theorem State.updMEng_pending (s : State) (f : Nat) (g : MEng → MEng) : (s.updMEng f g).pending = s.pending := rfl
@[simp] theorem State.updMEng_regs (s : State) (f : Nat) (g : MEng → MEng) : (s.updMEng f g).regs = s.regs := rfl
@[simp] theorem State.updMEng_wide (s : State) (f : Nat) (g : MEng → MEng) : (s.updMEng f g).wide = s.wide := rfl
@[simp] theorem State.updMEng_hiLatch (s : State) (f : Nat) (g : MEng → MEng) : (s.updMEng f g).hiLatch = s.hiLatch := rfl
@[simp] theorem State.updMEng_gens (s : State) (f : Nat) (g : MEng → MEng) : (s.updMEng f g).gens = s.gens := rfl
@[simp] theorem State.updMEng_ws (s : State) (f : Nat) (g : MEng → MEng) : (s.updMEng f g).ws = s.ws := rfl
@[simp] theorem State.updMEng_dram (s : State) (f : Nat) (g : MEng → MEng) : (s.updMEng f g).dram = s.dram := rfl
@[simp] theorem State.updMEng_dom (s : State) (f : Nat) (g : MEng → MEng) : (s.updMEng f g).dom = s.dom := rfl
@[simp] theorem State.updMEng_boot (s : State) (f : Nat) (g : MEng → MEng) : (s.updMEng f g).boot = s.boot := rfl
@[simp] theorem State.updMEng_amb (s : State) (f : Nat) (g : MEng → MEng) : (s.updMEng f g).amb = s.amb := rfl
@[simp] theorem State.updMEng_ports (s : State) (f : Nat) (g : MEng → MEng) : (s.updMEng f g).ports = s.ports := rfl
@[simp] theorem State.updMEng_outs (s : State) (f : Nat) (g : MEng → MEng) : (s.updMEng f g).outs = s.outs := rfl
@[simp] theorem State.updMEng_bell (s : State) (f : Nat) (g : MEng → MEng) : (s.updMEng f g).bell = s.bell := rfl
@[simp] theorem State.updMEng_chans (s : State) (f : Nat) (g : MEng → MEng) : (s.updMEng f g).chans = s.chans := rfl
@[simp] theorem State.updMEng_terms (s : State) (f : Nat) (g : MEng → MEng) : (s.updMEng f g).terms = s.terms := rfl
@[simp] theorem State.updMEng_folds (s : State) (f : Nat) (g : MEng → MEng) : (s.updMEng f g).folds = s.folds := rfl
@[simp] theorem State.updMEng_binds (s : State) (f : Nat) (g : MEng → MEng) : (s.updMEng f g).binds = s.binds := rfl
@[simp] theorem State.updMEng_gates (s : State) (f : Nat) (g : MEng → MEng) : (s.updMEng f g).gates = s.gates := rfl
@[simp] theorem State.updMEng_timers (s : State) (f : Nat) (g : MEng → MEng) : (s.updMEng f g).timers = s.timers := rfl
@[simp] theorem State.updMEng_trips (s : State) (f : Nat) (g : MEng → MEng) : (s.updMEng f g).trips = s.trips := rfl
@[simp] theorem State.updMEng_motors (s : State) (f : Nat) (g : MEng → MEng) : (s.updMEng f g).motors = s.motors := rfl
@[simp] theorem State.updMEng_caps (s : State) (f : Nat) (g : MEng → MEng) : (s.updMEng f g).caps = s.caps := rfl
@[simp] theorem State.updMEng_injs (s : State) (f : Nat) (g : MEng → MEng) : (s.updMEng f g).injs = s.injs := rfl
@[simp] theorem State.updMEng_images (s : State) (f : Nat) (g : MEng → MEng) : (s.updMEng f g).images = s.images := rfl
@[simp] theorem State.updMEng_health (s : State) (f : Nat) (g : MEng → MEng) : (s.updMEng f g).health = s.health := rfl
@[simp] theorem State.updMEng_runs (s : State) (f : Nat) (g : MEng → MEng) : (s.updMEng f g).runs = s.runs := rfl
@[simp] theorem State.updMEng_sense (s : State) (f : Nat) (g : MEng → MEng) : (s.updMEng f g).sense = s.sense := rfl
@[simp] theorem State.updMEng_fs (s : State) (f : Nat) (g : MEng → MEng) : (s.updMEng f g).fs = s.fs := rfl
@[simp] theorem State.updMEng_cores (s : State) (f : Nat) (g : MEng → MEng) : (s.updMEng f g).cores = s.cores := rfl
@[simp] theorem State.updMEng_bists (s : State) (f : Nat) (g : MEng → MEng) : (s.updMEng f g).bists = s.bists := rfl
@[simp] theorem State.updMEng_jtag (s : State) (f : Nat) (g : MEng → MEng) : (s.updMEng f g).jtag = s.jtag := rfl
@[simp] theorem State.updMEng_diags (s : State) (f : Nat) (g : MEng → MEng) : (s.updMEng f g).diags = s.diags := rfl
@[simp] theorem State.updMEng_rings (s : State) (f : Nat) (g : MEng → MEng) : (s.updMEng f g).rings = s.rings := rfl
@[simp] theorem State.updMEng_svc (s : State) (f : Nat) (g : MEng → MEng) : (s.updMEng f g).svc = s.svc := rfl
@[simp] theorem State.updMEng_col (s : State) (f : Nat) (g : MEng → MEng) : (s.updMEng f g).col = s.col := rfl
@[simp] theorem State.updMEng_tal (s : State) (f : Nat) (g : MEng → MEng) : (s.updMEng f g).tal = s.tal := rfl
@[simp] theorem State.updMEng_sec (s : State) (f : Nat) (g : MEng → MEng) : (s.updMEng f g).sec = s.sec := rfl
@[simp] theorem State.updMEng_attest (s : State) (f : Nat) (g : MEng → MEng) : (s.updMEng f g).attest = s.attest := rfl
@[simp] theorem State.updMEng_host (s : State) (f : Nat) (g : MEng → MEng) : (s.updMEng f g).host = s.host := rfl
@[simp] theorem State.updMEng_stn (s : State) (f : Nat) (g : MEng → MEng) : (s.updMEng f g).stn = s.stn := rfl
@[simp] theorem State.updMEng_nv (s : State) (f : Nat) (g : MEng → MEng) : (s.updMEng f g).nv = s.nv := rfl
@[simp] theorem State.updMEng_free (s : State) (f : Nat) (g : MEng → MEng) : (s.updMEng f g).free = s.free := rfl
@[simp] theorem State.updMEng_at_reg (s : State) (f : Nat) (g : MEng → MEng) (j : Nat) : (s.updMEng f g).reg j = s.reg j := rfl
@[simp] theorem State.updMEng_at_wideAt (s : State) (f : Nat) (g : MEng → MEng) (j : Nat) : (s.updMEng f g).wideAt j = s.wideAt j := rfl
@[simp] theorem State.updMEng_at_port (s : State) (f : Nat) (g : MEng → MEng) (j : Nat) : (s.updMEng f g).port j = s.port j := rfl
@[simp] theorem State.updMEng_at_out (s : State) (f : Nat) (g : MEng → MEng) (j : Nat) : (s.updMEng f g).out j = s.out j := rfl
@[simp] theorem State.updMEng_at_chan (s : State) (f : Nat) (g : MEng → MEng) (j : Nat) : (s.updMEng f g).chan j = s.chan j := rfl
@[simp] theorem State.updMEng_at_term (s : State) (f : Nat) (g : MEng → MEng) (j : Nat) : (s.updMEng f g).term j = s.term j := rfl
@[simp] theorem State.updMEng_at_fold (s : State) (f : Nat) (g : MEng → MEng) (j : Nat) : (s.updMEng f g).fold j = s.fold j := rfl
@[simp] theorem State.updMEng_at_bind (s : State) (f : Nat) (g : MEng → MEng) (j : Nat) : (s.updMEng f g).bind j = s.bind j := rfl
@[simp] theorem State.updMEng_at_gate (s : State) (f : Nat) (g : MEng → MEng) (j : Nat) : (s.updMEng f g).gate j = s.gate j := rfl
@[simp] theorem State.updMEng_at_timer (s : State) (f : Nat) (g : MEng → MEng) (j : Nat) : (s.updMEng f g).timer j = s.timer j := rfl
@[simp] theorem State.updMEng_at_trip (s : State) (f : Nat) (g : MEng → MEng) (j : Nat) : (s.updMEng f g).trip j = s.trip j := rfl
@[simp] theorem State.updMEng_at_ring (s : State) (f : Nat) (g : MEng → MEng) (j : Nat) : (s.updMEng f g).ring j = s.ring j := rfl
@[simp] theorem State.updMEng_at_inj (s : State) (f : Nat) (g : MEng → MEng) (j : Nat) : (s.updMEng f g).inj j = s.inj j := rfl
@[simp] theorem State.updMEng_at_cap (s : State) (f : Nat) (g : MEng → MEng) (j : Nat) : (s.updMEng f g).cap j = s.cap j := rfl
@[simp] theorem State.updMEng_at_motor (s : State) (f : Nat) (g : MEng → MEng) (j : Nat) : (s.updMEng f g).motor j = s.motor j := rfl
@[simp] theorem State.updMEng_at_hlt (s : State) (f : Nat) (g : MEng → MEng) (j : Nat) : (s.updMEng f g).hlt j = s.hlt j := rfl
@[simp] theorem State.updMEng_at_run (s : State) (f : Nat) (g : MEng → MEng) (j : Nat) : (s.updMEng f g).run j = s.run j := rfl
@[simp] theorem State.updMEng_at_sns (s : State) (f : Nat) (g : MEng → MEng) (j : Nat) : (s.updMEng f g).sns j = s.sns j := rfl
@[simp] theorem State.updMEng_at_image (s : State) (f : Nat) (g : MEng → MEng) (j : Nat) : (s.updMEng f g).image j = s.image j := rfl
@[simp] theorem State.updMEng_at_fsPair (s : State) (f : Nat) (g : MEng → MEng) (j : Nat) : (s.updMEng f g).fsPair j = s.fsPair j := rfl
@[simp] theorem State.updMEng_at_core (s : State) (f : Nat) (g : MEng → MEng) (j : Nat) : (s.updMEng f g).core j = s.core j := rfl
@[simp] theorem State.updMEng_at_bist (s : State) (f : Nat) (g : MEng → MEng) (j : Nat) : (s.updMEng f g).bist j = s.bist j := rfl
@[simp] theorem State.updMEng_at_dramByte (s : State) (f : Nat) (g : MEng → MEng) (j : Nat) : (s.updMEng f g).dramByte j = s.dramByte j := rfl
@[simp] theorem State.updMEng_at_diag (s : State) (f : Nat) (g : MEng → MEng) (j : Nat) : (s.updMEng f g).diag j = s.diag j := rfl

@[simp] theorem State.updSns_pending (s : State) (n : Nat) (g : Sense → Sense) : (s.updSns n g).pending = s.pending := rfl
@[simp] theorem State.updSns_regs (s : State) (n : Nat) (g : Sense → Sense) : (s.updSns n g).regs = s.regs := rfl
@[simp] theorem State.updSns_wide (s : State) (n : Nat) (g : Sense → Sense) : (s.updSns n g).wide = s.wide := rfl
@[simp] theorem State.updSns_hiLatch (s : State) (n : Nat) (g : Sense → Sense) : (s.updSns n g).hiLatch = s.hiLatch := rfl
@[simp] theorem State.updSns_gens (s : State) (n : Nat) (g : Sense → Sense) : (s.updSns n g).gens = s.gens := rfl
@[simp] theorem State.updSns_ws (s : State) (n : Nat) (g : Sense → Sense) : (s.updSns n g).ws = s.ws := rfl
@[simp] theorem State.updSns_dram (s : State) (n : Nat) (g : Sense → Sense) : (s.updSns n g).dram = s.dram := rfl
@[simp] theorem State.updSns_dom (s : State) (n : Nat) (g : Sense → Sense) : (s.updSns n g).dom = s.dom := rfl
@[simp] theorem State.updSns_boot (s : State) (n : Nat) (g : Sense → Sense) : (s.updSns n g).boot = s.boot := rfl
@[simp] theorem State.updSns_amb (s : State) (n : Nat) (g : Sense → Sense) : (s.updSns n g).amb = s.amb := rfl
@[simp] theorem State.updSns_ports (s : State) (n : Nat) (g : Sense → Sense) : (s.updSns n g).ports = s.ports := rfl
@[simp] theorem State.updSns_outs (s : State) (n : Nat) (g : Sense → Sense) : (s.updSns n g).outs = s.outs := rfl
@[simp] theorem State.updSns_bell (s : State) (n : Nat) (g : Sense → Sense) : (s.updSns n g).bell = s.bell := rfl
@[simp] theorem State.updSns_chans (s : State) (n : Nat) (g : Sense → Sense) : (s.updSns n g).chans = s.chans := rfl
@[simp] theorem State.updSns_terms (s : State) (n : Nat) (g : Sense → Sense) : (s.updSns n g).terms = s.terms := rfl
@[simp] theorem State.updSns_folds (s : State) (n : Nat) (g : Sense → Sense) : (s.updSns n g).folds = s.folds := rfl
@[simp] theorem State.updSns_binds (s : State) (n : Nat) (g : Sense → Sense) : (s.updSns n g).binds = s.binds := rfl
@[simp] theorem State.updSns_gates (s : State) (n : Nat) (g : Sense → Sense) : (s.updSns n g).gates = s.gates := rfl
@[simp] theorem State.updSns_timers (s : State) (n : Nat) (g : Sense → Sense) : (s.updSns n g).timers = s.timers := rfl
@[simp] theorem State.updSns_trips (s : State) (n : Nat) (g : Sense → Sense) : (s.updSns n g).trips = s.trips := rfl
@[simp] theorem State.updSns_motors (s : State) (n : Nat) (g : Sense → Sense) : (s.updSns n g).motors = s.motors := rfl
@[simp] theorem State.updSns_caps (s : State) (n : Nat) (g : Sense → Sense) : (s.updSns n g).caps = s.caps := rfl
@[simp] theorem State.updSns_injs (s : State) (n : Nat) (g : Sense → Sense) : (s.updSns n g).injs = s.injs := rfl
@[simp] theorem State.updSns_images (s : State) (n : Nat) (g : Sense → Sense) : (s.updSns n g).images = s.images := rfl
@[simp] theorem State.updSns_health (s : State) (n : Nat) (g : Sense → Sense) : (s.updSns n g).health = s.health := rfl
@[simp] theorem State.updSns_runs (s : State) (n : Nat) (g : Sense → Sense) : (s.updSns n g).runs = s.runs := rfl
@[simp] theorem State.updSns_mengs (s : State) (n : Nat) (g : Sense → Sense) : (s.updSns n g).mengs = s.mengs := rfl
@[simp] theorem State.updSns_fs (s : State) (n : Nat) (g : Sense → Sense) : (s.updSns n g).fs = s.fs := rfl
@[simp] theorem State.updSns_cores (s : State) (n : Nat) (g : Sense → Sense) : (s.updSns n g).cores = s.cores := rfl
@[simp] theorem State.updSns_bists (s : State) (n : Nat) (g : Sense → Sense) : (s.updSns n g).bists = s.bists := rfl
@[simp] theorem State.updSns_jtag (s : State) (n : Nat) (g : Sense → Sense) : (s.updSns n g).jtag = s.jtag := rfl
@[simp] theorem State.updSns_diags (s : State) (n : Nat) (g : Sense → Sense) : (s.updSns n g).diags = s.diags := rfl
@[simp] theorem State.updSns_rings (s : State) (n : Nat) (g : Sense → Sense) : (s.updSns n g).rings = s.rings := rfl
@[simp] theorem State.updSns_svc (s : State) (n : Nat) (g : Sense → Sense) : (s.updSns n g).svc = s.svc := rfl
@[simp] theorem State.updSns_col (s : State) (n : Nat) (g : Sense → Sense) : (s.updSns n g).col = s.col := rfl
@[simp] theorem State.updSns_tal (s : State) (n : Nat) (g : Sense → Sense) : (s.updSns n g).tal = s.tal := rfl
@[simp] theorem State.updSns_sec (s : State) (n : Nat) (g : Sense → Sense) : (s.updSns n g).sec = s.sec := rfl
@[simp] theorem State.updSns_attest (s : State) (n : Nat) (g : Sense → Sense) : (s.updSns n g).attest = s.attest := rfl
@[simp] theorem State.updSns_host (s : State) (n : Nat) (g : Sense → Sense) : (s.updSns n g).host = s.host := rfl
@[simp] theorem State.updSns_stn (s : State) (n : Nat) (g : Sense → Sense) : (s.updSns n g).stn = s.stn := rfl
@[simp] theorem State.updSns_nv (s : State) (n : Nat) (g : Sense → Sense) : (s.updSns n g).nv = s.nv := rfl
@[simp] theorem State.updSns_free (s : State) (n : Nat) (g : Sense → Sense) : (s.updSns n g).free = s.free := rfl
@[simp] theorem State.updSns_at_reg (s : State) (n : Nat) (g : Sense → Sense) (j : Nat) : (s.updSns n g).reg j = s.reg j := rfl
@[simp] theorem State.updSns_at_wideAt (s : State) (n : Nat) (g : Sense → Sense) (j : Nat) : (s.updSns n g).wideAt j = s.wideAt j := rfl
@[simp] theorem State.updSns_at_port (s : State) (n : Nat) (g : Sense → Sense) (j : Nat) : (s.updSns n g).port j = s.port j := rfl
@[simp] theorem State.updSns_at_out (s : State) (n : Nat) (g : Sense → Sense) (j : Nat) : (s.updSns n g).out j = s.out j := rfl
@[simp] theorem State.updSns_at_chan (s : State) (n : Nat) (g : Sense → Sense) (j : Nat) : (s.updSns n g).chan j = s.chan j := rfl
@[simp] theorem State.updSns_at_term (s : State) (n : Nat) (g : Sense → Sense) (j : Nat) : (s.updSns n g).term j = s.term j := rfl
@[simp] theorem State.updSns_at_fold (s : State) (n : Nat) (g : Sense → Sense) (j : Nat) : (s.updSns n g).fold j = s.fold j := rfl
@[simp] theorem State.updSns_at_bind (s : State) (n : Nat) (g : Sense → Sense) (j : Nat) : (s.updSns n g).bind j = s.bind j := rfl
@[simp] theorem State.updSns_at_gate (s : State) (n : Nat) (g : Sense → Sense) (j : Nat) : (s.updSns n g).gate j = s.gate j := rfl
@[simp] theorem State.updSns_at_timer (s : State) (n : Nat) (g : Sense → Sense) (j : Nat) : (s.updSns n g).timer j = s.timer j := rfl
@[simp] theorem State.updSns_at_trip (s : State) (n : Nat) (g : Sense → Sense) (j : Nat) : (s.updSns n g).trip j = s.trip j := rfl
@[simp] theorem State.updSns_at_ring (s : State) (n : Nat) (g : Sense → Sense) (j : Nat) : (s.updSns n g).ring j = s.ring j := rfl
@[simp] theorem State.updSns_at_inj (s : State) (n : Nat) (g : Sense → Sense) (j : Nat) : (s.updSns n g).inj j = s.inj j := rfl
@[simp] theorem State.updSns_at_cap (s : State) (n : Nat) (g : Sense → Sense) (j : Nat) : (s.updSns n g).cap j = s.cap j := rfl
@[simp] theorem State.updSns_at_motor (s : State) (n : Nat) (g : Sense → Sense) (j : Nat) : (s.updSns n g).motor j = s.motor j := rfl
@[simp] theorem State.updSns_at_hlt (s : State) (n : Nat) (g : Sense → Sense) (j : Nat) : (s.updSns n g).hlt j = s.hlt j := rfl
@[simp] theorem State.updSns_at_run (s : State) (n : Nat) (g : Sense → Sense) (j : Nat) : (s.updSns n g).run j = s.run j := rfl
@[simp] theorem State.updSns_at_meng (s : State) (n : Nat) (g : Sense → Sense) (j : Nat) : (s.updSns n g).meng j = s.meng j := rfl
@[simp] theorem State.updSns_at_image (s : State) (n : Nat) (g : Sense → Sense) (j : Nat) : (s.updSns n g).image j = s.image j := rfl
@[simp] theorem State.updSns_at_fsPair (s : State) (n : Nat) (g : Sense → Sense) (j : Nat) : (s.updSns n g).fsPair j = s.fsPair j := rfl
@[simp] theorem State.updSns_at_core (s : State) (n : Nat) (g : Sense → Sense) (j : Nat) : (s.updSns n g).core j = s.core j := rfl
@[simp] theorem State.updSns_at_bist (s : State) (n : Nat) (g : Sense → Sense) (j : Nat) : (s.updSns n g).bist j = s.bist j := rfl
@[simp] theorem State.updSns_at_dramByte (s : State) (n : Nat) (g : Sense → Sense) (j : Nat) : (s.updSns n g).dramByte j = s.dramByte j := rfl
@[simp] theorem State.updSns_at_diag (s : State) (n : Nat) (g : Sense → Sense) (j : Nat) : (s.updSns n g).diag j = s.diag j := rfl

@[simp] theorem State.setFs_pending (s : State) (k : Nat) (x : Pair) : (s.setFs k x).pending = s.pending := rfl
@[simp] theorem State.setFs_regs (s : State) (k : Nat) (x : Pair) : (s.setFs k x).regs = s.regs := rfl
@[simp] theorem State.setFs_wide (s : State) (k : Nat) (x : Pair) : (s.setFs k x).wide = s.wide := rfl
@[simp] theorem State.setFs_hiLatch (s : State) (k : Nat) (x : Pair) : (s.setFs k x).hiLatch = s.hiLatch := rfl
@[simp] theorem State.setFs_gens (s : State) (k : Nat) (x : Pair) : (s.setFs k x).gens = s.gens := rfl
@[simp] theorem State.setFs_ws (s : State) (k : Nat) (x : Pair) : (s.setFs k x).ws = s.ws := rfl
@[simp] theorem State.setFs_dram (s : State) (k : Nat) (x : Pair) : (s.setFs k x).dram = s.dram := rfl
@[simp] theorem State.setFs_dom (s : State) (k : Nat) (x : Pair) : (s.setFs k x).dom = s.dom := rfl
@[simp] theorem State.setFs_boot (s : State) (k : Nat) (x : Pair) : (s.setFs k x).boot = s.boot := rfl
@[simp] theorem State.setFs_amb (s : State) (k : Nat) (x : Pair) : (s.setFs k x).amb = s.amb := rfl
@[simp] theorem State.setFs_ports (s : State) (k : Nat) (x : Pair) : (s.setFs k x).ports = s.ports := rfl
@[simp] theorem State.setFs_outs (s : State) (k : Nat) (x : Pair) : (s.setFs k x).outs = s.outs := rfl
@[simp] theorem State.setFs_bell (s : State) (k : Nat) (x : Pair) : (s.setFs k x).bell = s.bell := rfl
@[simp] theorem State.setFs_chans (s : State) (k : Nat) (x : Pair) : (s.setFs k x).chans = s.chans := rfl
@[simp] theorem State.setFs_terms (s : State) (k : Nat) (x : Pair) : (s.setFs k x).terms = s.terms := rfl
@[simp] theorem State.setFs_folds (s : State) (k : Nat) (x : Pair) : (s.setFs k x).folds = s.folds := rfl
@[simp] theorem State.setFs_binds (s : State) (k : Nat) (x : Pair) : (s.setFs k x).binds = s.binds := rfl
@[simp] theorem State.setFs_gates (s : State) (k : Nat) (x : Pair) : (s.setFs k x).gates = s.gates := rfl
@[simp] theorem State.setFs_timers (s : State) (k : Nat) (x : Pair) : (s.setFs k x).timers = s.timers := rfl
@[simp] theorem State.setFs_trips (s : State) (k : Nat) (x : Pair) : (s.setFs k x).trips = s.trips := rfl
@[simp] theorem State.setFs_motors (s : State) (k : Nat) (x : Pair) : (s.setFs k x).motors = s.motors := rfl
@[simp] theorem State.setFs_caps (s : State) (k : Nat) (x : Pair) : (s.setFs k x).caps = s.caps := rfl
@[simp] theorem State.setFs_injs (s : State) (k : Nat) (x : Pair) : (s.setFs k x).injs = s.injs := rfl
@[simp] theorem State.setFs_images (s : State) (k : Nat) (x : Pair) : (s.setFs k x).images = s.images := rfl
@[simp] theorem State.setFs_health (s : State) (k : Nat) (x : Pair) : (s.setFs k x).health = s.health := rfl
@[simp] theorem State.setFs_runs (s : State) (k : Nat) (x : Pair) : (s.setFs k x).runs = s.runs := rfl
@[simp] theorem State.setFs_mengs (s : State) (k : Nat) (x : Pair) : (s.setFs k x).mengs = s.mengs := rfl
@[simp] theorem State.setFs_sense (s : State) (k : Nat) (x : Pair) : (s.setFs k x).sense = s.sense := rfl
@[simp] theorem State.setFs_cores (s : State) (k : Nat) (x : Pair) : (s.setFs k x).cores = s.cores := rfl
@[simp] theorem State.setFs_bists (s : State) (k : Nat) (x : Pair) : (s.setFs k x).bists = s.bists := rfl
@[simp] theorem State.setFs_jtag (s : State) (k : Nat) (x : Pair) : (s.setFs k x).jtag = s.jtag := rfl
@[simp] theorem State.setFs_diags (s : State) (k : Nat) (x : Pair) : (s.setFs k x).diags = s.diags := rfl
@[simp] theorem State.setFs_rings (s : State) (k : Nat) (x : Pair) : (s.setFs k x).rings = s.rings := rfl
@[simp] theorem State.setFs_svc (s : State) (k : Nat) (x : Pair) : (s.setFs k x).svc = s.svc := rfl
@[simp] theorem State.setFs_col (s : State) (k : Nat) (x : Pair) : (s.setFs k x).col = s.col := rfl
@[simp] theorem State.setFs_tal (s : State) (k : Nat) (x : Pair) : (s.setFs k x).tal = s.tal := rfl
@[simp] theorem State.setFs_sec (s : State) (k : Nat) (x : Pair) : (s.setFs k x).sec = s.sec := rfl
@[simp] theorem State.setFs_attest (s : State) (k : Nat) (x : Pair) : (s.setFs k x).attest = s.attest := rfl
@[simp] theorem State.setFs_host (s : State) (k : Nat) (x : Pair) : (s.setFs k x).host = s.host := rfl
@[simp] theorem State.setFs_stn (s : State) (k : Nat) (x : Pair) : (s.setFs k x).stn = s.stn := rfl
@[simp] theorem State.setFs_nv (s : State) (k : Nat) (x : Pair) : (s.setFs k x).nv = s.nv := rfl
@[simp] theorem State.setFs_free (s : State) (k : Nat) (x : Pair) : (s.setFs k x).free = s.free := rfl
@[simp] theorem State.setFs_at_reg (s : State) (k : Nat) (x : Pair) (j : Nat) : (s.setFs k x).reg j = s.reg j := rfl
@[simp] theorem State.setFs_at_wideAt (s : State) (k : Nat) (x : Pair) (j : Nat) : (s.setFs k x).wideAt j = s.wideAt j := rfl
@[simp] theorem State.setFs_at_port (s : State) (k : Nat) (x : Pair) (j : Nat) : (s.setFs k x).port j = s.port j := rfl
@[simp] theorem State.setFs_at_out (s : State) (k : Nat) (x : Pair) (j : Nat) : (s.setFs k x).out j = s.out j := rfl
@[simp] theorem State.setFs_at_chan (s : State) (k : Nat) (x : Pair) (j : Nat) : (s.setFs k x).chan j = s.chan j := rfl
@[simp] theorem State.setFs_at_term (s : State) (k : Nat) (x : Pair) (j : Nat) : (s.setFs k x).term j = s.term j := rfl
@[simp] theorem State.setFs_at_fold (s : State) (k : Nat) (x : Pair) (j : Nat) : (s.setFs k x).fold j = s.fold j := rfl
@[simp] theorem State.setFs_at_bind (s : State) (k : Nat) (x : Pair) (j : Nat) : (s.setFs k x).bind j = s.bind j := rfl
@[simp] theorem State.setFs_at_gate (s : State) (k : Nat) (x : Pair) (j : Nat) : (s.setFs k x).gate j = s.gate j := rfl
@[simp] theorem State.setFs_at_timer (s : State) (k : Nat) (x : Pair) (j : Nat) : (s.setFs k x).timer j = s.timer j := rfl
@[simp] theorem State.setFs_at_trip (s : State) (k : Nat) (x : Pair) (j : Nat) : (s.setFs k x).trip j = s.trip j := rfl
@[simp] theorem State.setFs_at_ring (s : State) (k : Nat) (x : Pair) (j : Nat) : (s.setFs k x).ring j = s.ring j := rfl
@[simp] theorem State.setFs_at_inj (s : State) (k : Nat) (x : Pair) (j : Nat) : (s.setFs k x).inj j = s.inj j := rfl
@[simp] theorem State.setFs_at_cap (s : State) (k : Nat) (x : Pair) (j : Nat) : (s.setFs k x).cap j = s.cap j := rfl
@[simp] theorem State.setFs_at_motor (s : State) (k : Nat) (x : Pair) (j : Nat) : (s.setFs k x).motor j = s.motor j := rfl
@[simp] theorem State.setFs_at_hlt (s : State) (k : Nat) (x : Pair) (j : Nat) : (s.setFs k x).hlt j = s.hlt j := rfl
@[simp] theorem State.setFs_at_run (s : State) (k : Nat) (x : Pair) (j : Nat) : (s.setFs k x).run j = s.run j := rfl
@[simp] theorem State.setFs_at_meng (s : State) (k : Nat) (x : Pair) (j : Nat) : (s.setFs k x).meng j = s.meng j := rfl
@[simp] theorem State.setFs_at_sns (s : State) (k : Nat) (x : Pair) (j : Nat) : (s.setFs k x).sns j = s.sns j := rfl
@[simp] theorem State.setFs_at_image (s : State) (k : Nat) (x : Pair) (j : Nat) : (s.setFs k x).image j = s.image j := rfl
@[simp] theorem State.setFs_at_core (s : State) (k : Nat) (x : Pair) (j : Nat) : (s.setFs k x).core j = s.core j := rfl
@[simp] theorem State.setFs_at_bist (s : State) (k : Nat) (x : Pair) (j : Nat) : (s.setFs k x).bist j = s.bist j := rfl
@[simp] theorem State.setFs_at_dramByte (s : State) (k : Nat) (x : Pair) (j : Nat) : (s.setFs k x).dramByte j = s.dramByte j := rfl
@[simp] theorem State.setFs_at_diag (s : State) (k : Nat) (x : Pair) (j : Nat) : (s.setFs k x).diag j = s.diag j := rfl

@[simp] theorem State.setCore_pending (s : State) (r : Nat) (x : Core) : (s.setCore r x).pending = s.pending := rfl
@[simp] theorem State.setCore_regs (s : State) (r : Nat) (x : Core) : (s.setCore r x).regs = s.regs := rfl
@[simp] theorem State.setCore_wide (s : State) (r : Nat) (x : Core) : (s.setCore r x).wide = s.wide := rfl
@[simp] theorem State.setCore_hiLatch (s : State) (r : Nat) (x : Core) : (s.setCore r x).hiLatch = s.hiLatch := rfl
@[simp] theorem State.setCore_gens (s : State) (r : Nat) (x : Core) : (s.setCore r x).gens = s.gens := rfl
@[simp] theorem State.setCore_ws (s : State) (r : Nat) (x : Core) : (s.setCore r x).ws = s.ws := rfl
@[simp] theorem State.setCore_dram (s : State) (r : Nat) (x : Core) : (s.setCore r x).dram = s.dram := rfl
@[simp] theorem State.setCore_dom (s : State) (r : Nat) (x : Core) : (s.setCore r x).dom = s.dom := rfl
@[simp] theorem State.setCore_boot (s : State) (r : Nat) (x : Core) : (s.setCore r x).boot = s.boot := rfl
@[simp] theorem State.setCore_amb (s : State) (r : Nat) (x : Core) : (s.setCore r x).amb = s.amb := rfl
@[simp] theorem State.setCore_ports (s : State) (r : Nat) (x : Core) : (s.setCore r x).ports = s.ports := rfl
@[simp] theorem State.setCore_outs (s : State) (r : Nat) (x : Core) : (s.setCore r x).outs = s.outs := rfl
@[simp] theorem State.setCore_bell (s : State) (r : Nat) (x : Core) : (s.setCore r x).bell = s.bell := rfl
@[simp] theorem State.setCore_chans (s : State) (r : Nat) (x : Core) : (s.setCore r x).chans = s.chans := rfl
@[simp] theorem State.setCore_terms (s : State) (r : Nat) (x : Core) : (s.setCore r x).terms = s.terms := rfl
@[simp] theorem State.setCore_folds (s : State) (r : Nat) (x : Core) : (s.setCore r x).folds = s.folds := rfl
@[simp] theorem State.setCore_binds (s : State) (r : Nat) (x : Core) : (s.setCore r x).binds = s.binds := rfl
@[simp] theorem State.setCore_gates (s : State) (r : Nat) (x : Core) : (s.setCore r x).gates = s.gates := rfl
@[simp] theorem State.setCore_timers (s : State) (r : Nat) (x : Core) : (s.setCore r x).timers = s.timers := rfl
@[simp] theorem State.setCore_trips (s : State) (r : Nat) (x : Core) : (s.setCore r x).trips = s.trips := rfl
@[simp] theorem State.setCore_motors (s : State) (r : Nat) (x : Core) : (s.setCore r x).motors = s.motors := rfl
@[simp] theorem State.setCore_caps (s : State) (r : Nat) (x : Core) : (s.setCore r x).caps = s.caps := rfl
@[simp] theorem State.setCore_injs (s : State) (r : Nat) (x : Core) : (s.setCore r x).injs = s.injs := rfl
@[simp] theorem State.setCore_images (s : State) (r : Nat) (x : Core) : (s.setCore r x).images = s.images := rfl
@[simp] theorem State.setCore_health (s : State) (r : Nat) (x : Core) : (s.setCore r x).health = s.health := rfl
@[simp] theorem State.setCore_runs (s : State) (r : Nat) (x : Core) : (s.setCore r x).runs = s.runs := rfl
@[simp] theorem State.setCore_mengs (s : State) (r : Nat) (x : Core) : (s.setCore r x).mengs = s.mengs := rfl
@[simp] theorem State.setCore_sense (s : State) (r : Nat) (x : Core) : (s.setCore r x).sense = s.sense := rfl
@[simp] theorem State.setCore_fs (s : State) (r : Nat) (x : Core) : (s.setCore r x).fs = s.fs := rfl
@[simp] theorem State.setCore_bists (s : State) (r : Nat) (x : Core) : (s.setCore r x).bists = s.bists := rfl
@[simp] theorem State.setCore_jtag (s : State) (r : Nat) (x : Core) : (s.setCore r x).jtag = s.jtag := rfl
@[simp] theorem State.setCore_diags (s : State) (r : Nat) (x : Core) : (s.setCore r x).diags = s.diags := rfl
@[simp] theorem State.setCore_rings (s : State) (r : Nat) (x : Core) : (s.setCore r x).rings = s.rings := rfl
@[simp] theorem State.setCore_svc (s : State) (r : Nat) (x : Core) : (s.setCore r x).svc = s.svc := rfl
@[simp] theorem State.setCore_col (s : State) (r : Nat) (x : Core) : (s.setCore r x).col = s.col := rfl
@[simp] theorem State.setCore_tal (s : State) (r : Nat) (x : Core) : (s.setCore r x).tal = s.tal := rfl
@[simp] theorem State.setCore_sec (s : State) (r : Nat) (x : Core) : (s.setCore r x).sec = s.sec := rfl
@[simp] theorem State.setCore_attest (s : State) (r : Nat) (x : Core) : (s.setCore r x).attest = s.attest := rfl
@[simp] theorem State.setCore_host (s : State) (r : Nat) (x : Core) : (s.setCore r x).host = s.host := rfl
@[simp] theorem State.setCore_stn (s : State) (r : Nat) (x : Core) : (s.setCore r x).stn = s.stn := rfl
@[simp] theorem State.setCore_nv (s : State) (r : Nat) (x : Core) : (s.setCore r x).nv = s.nv := rfl
@[simp] theorem State.setCore_free (s : State) (r : Nat) (x : Core) : (s.setCore r x).free = s.free := rfl
@[simp] theorem State.setCore_at_reg (s : State) (r : Nat) (x : Core) (j : Nat) : (s.setCore r x).reg j = s.reg j := rfl
@[simp] theorem State.setCore_at_wideAt (s : State) (r : Nat) (x : Core) (j : Nat) : (s.setCore r x).wideAt j = s.wideAt j := rfl
@[simp] theorem State.setCore_at_port (s : State) (r : Nat) (x : Core) (j : Nat) : (s.setCore r x).port j = s.port j := rfl
@[simp] theorem State.setCore_at_out (s : State) (r : Nat) (x : Core) (j : Nat) : (s.setCore r x).out j = s.out j := rfl
@[simp] theorem State.setCore_at_chan (s : State) (r : Nat) (x : Core) (j : Nat) : (s.setCore r x).chan j = s.chan j := rfl
@[simp] theorem State.setCore_at_term (s : State) (r : Nat) (x : Core) (j : Nat) : (s.setCore r x).term j = s.term j := rfl
@[simp] theorem State.setCore_at_fold (s : State) (r : Nat) (x : Core) (j : Nat) : (s.setCore r x).fold j = s.fold j := rfl
@[simp] theorem State.setCore_at_bind (s : State) (r : Nat) (x : Core) (j : Nat) : (s.setCore r x).bind j = s.bind j := rfl
@[simp] theorem State.setCore_at_gate (s : State) (r : Nat) (x : Core) (j : Nat) : (s.setCore r x).gate j = s.gate j := rfl
@[simp] theorem State.setCore_at_timer (s : State) (r : Nat) (x : Core) (j : Nat) : (s.setCore r x).timer j = s.timer j := rfl
@[simp] theorem State.setCore_at_trip (s : State) (r : Nat) (x : Core) (j : Nat) : (s.setCore r x).trip j = s.trip j := rfl
@[simp] theorem State.setCore_at_ring (s : State) (r : Nat) (x : Core) (j : Nat) : (s.setCore r x).ring j = s.ring j := rfl
@[simp] theorem State.setCore_at_inj (s : State) (r : Nat) (x : Core) (j : Nat) : (s.setCore r x).inj j = s.inj j := rfl
@[simp] theorem State.setCore_at_cap (s : State) (r : Nat) (x : Core) (j : Nat) : (s.setCore r x).cap j = s.cap j := rfl
@[simp] theorem State.setCore_at_motor (s : State) (r : Nat) (x : Core) (j : Nat) : (s.setCore r x).motor j = s.motor j := rfl
@[simp] theorem State.setCore_at_hlt (s : State) (r : Nat) (x : Core) (j : Nat) : (s.setCore r x).hlt j = s.hlt j := rfl
@[simp] theorem State.setCore_at_run (s : State) (r : Nat) (x : Core) (j : Nat) : (s.setCore r x).run j = s.run j := rfl
@[simp] theorem State.setCore_at_meng (s : State) (r : Nat) (x : Core) (j : Nat) : (s.setCore r x).meng j = s.meng j := rfl
@[simp] theorem State.setCore_at_sns (s : State) (r : Nat) (x : Core) (j : Nat) : (s.setCore r x).sns j = s.sns j := rfl
@[simp] theorem State.setCore_at_image (s : State) (r : Nat) (x : Core) (j : Nat) : (s.setCore r x).image j = s.image j := rfl
@[simp] theorem State.setCore_at_fsPair (s : State) (r : Nat) (x : Core) (j : Nat) : (s.setCore r x).fsPair j = s.fsPair j := rfl
@[simp] theorem State.setCore_at_bist (s : State) (r : Nat) (x : Core) (j : Nat) : (s.setCore r x).bist j = s.bist j := rfl
@[simp] theorem State.setCore_at_dramByte (s : State) (r : Nat) (x : Core) (j : Nat) : (s.setCore r x).dramByte j = s.dramByte j := rfl
@[simp] theorem State.setCore_at_diag (s : State) (r : Nat) (x : Core) (j : Nat) : (s.setCore r x).diag j = s.diag j := rfl

@[simp] theorem State.setBist_pending (s : State) (c : Nat) (x : Bist) : (s.setBist c x).pending = s.pending := rfl
@[simp] theorem State.setBist_regs (s : State) (c : Nat) (x : Bist) : (s.setBist c x).regs = s.regs := rfl
@[simp] theorem State.setBist_wide (s : State) (c : Nat) (x : Bist) : (s.setBist c x).wide = s.wide := rfl
@[simp] theorem State.setBist_hiLatch (s : State) (c : Nat) (x : Bist) : (s.setBist c x).hiLatch = s.hiLatch := rfl
@[simp] theorem State.setBist_gens (s : State) (c : Nat) (x : Bist) : (s.setBist c x).gens = s.gens := rfl
@[simp] theorem State.setBist_ws (s : State) (c : Nat) (x : Bist) : (s.setBist c x).ws = s.ws := rfl
@[simp] theorem State.setBist_dram (s : State) (c : Nat) (x : Bist) : (s.setBist c x).dram = s.dram := rfl
@[simp] theorem State.setBist_dom (s : State) (c : Nat) (x : Bist) : (s.setBist c x).dom = s.dom := rfl
@[simp] theorem State.setBist_boot (s : State) (c : Nat) (x : Bist) : (s.setBist c x).boot = s.boot := rfl
@[simp] theorem State.setBist_amb (s : State) (c : Nat) (x : Bist) : (s.setBist c x).amb = s.amb := rfl
@[simp] theorem State.setBist_ports (s : State) (c : Nat) (x : Bist) : (s.setBist c x).ports = s.ports := rfl
@[simp] theorem State.setBist_outs (s : State) (c : Nat) (x : Bist) : (s.setBist c x).outs = s.outs := rfl
@[simp] theorem State.setBist_bell (s : State) (c : Nat) (x : Bist) : (s.setBist c x).bell = s.bell := rfl
@[simp] theorem State.setBist_chans (s : State) (c : Nat) (x : Bist) : (s.setBist c x).chans = s.chans := rfl
@[simp] theorem State.setBist_terms (s : State) (c : Nat) (x : Bist) : (s.setBist c x).terms = s.terms := rfl
@[simp] theorem State.setBist_folds (s : State) (c : Nat) (x : Bist) : (s.setBist c x).folds = s.folds := rfl
@[simp] theorem State.setBist_binds (s : State) (c : Nat) (x : Bist) : (s.setBist c x).binds = s.binds := rfl
@[simp] theorem State.setBist_gates (s : State) (c : Nat) (x : Bist) : (s.setBist c x).gates = s.gates := rfl
@[simp] theorem State.setBist_timers (s : State) (c : Nat) (x : Bist) : (s.setBist c x).timers = s.timers := rfl
@[simp] theorem State.setBist_trips (s : State) (c : Nat) (x : Bist) : (s.setBist c x).trips = s.trips := rfl
@[simp] theorem State.setBist_motors (s : State) (c : Nat) (x : Bist) : (s.setBist c x).motors = s.motors := rfl
@[simp] theorem State.setBist_caps (s : State) (c : Nat) (x : Bist) : (s.setBist c x).caps = s.caps := rfl
@[simp] theorem State.setBist_injs (s : State) (c : Nat) (x : Bist) : (s.setBist c x).injs = s.injs := rfl
@[simp] theorem State.setBist_images (s : State) (c : Nat) (x : Bist) : (s.setBist c x).images = s.images := rfl
@[simp] theorem State.setBist_health (s : State) (c : Nat) (x : Bist) : (s.setBist c x).health = s.health := rfl
@[simp] theorem State.setBist_runs (s : State) (c : Nat) (x : Bist) : (s.setBist c x).runs = s.runs := rfl
@[simp] theorem State.setBist_mengs (s : State) (c : Nat) (x : Bist) : (s.setBist c x).mengs = s.mengs := rfl
@[simp] theorem State.setBist_sense (s : State) (c : Nat) (x : Bist) : (s.setBist c x).sense = s.sense := rfl
@[simp] theorem State.setBist_fs (s : State) (c : Nat) (x : Bist) : (s.setBist c x).fs = s.fs := rfl
@[simp] theorem State.setBist_cores (s : State) (c : Nat) (x : Bist) : (s.setBist c x).cores = s.cores := rfl
@[simp] theorem State.setBist_jtag (s : State) (c : Nat) (x : Bist) : (s.setBist c x).jtag = s.jtag := rfl
@[simp] theorem State.setBist_diags (s : State) (c : Nat) (x : Bist) : (s.setBist c x).diags = s.diags := rfl
@[simp] theorem State.setBist_rings (s : State) (c : Nat) (x : Bist) : (s.setBist c x).rings = s.rings := rfl
@[simp] theorem State.setBist_svc (s : State) (c : Nat) (x : Bist) : (s.setBist c x).svc = s.svc := rfl
@[simp] theorem State.setBist_col (s : State) (c : Nat) (x : Bist) : (s.setBist c x).col = s.col := rfl
@[simp] theorem State.setBist_tal (s : State) (c : Nat) (x : Bist) : (s.setBist c x).tal = s.tal := rfl
@[simp] theorem State.setBist_sec (s : State) (c : Nat) (x : Bist) : (s.setBist c x).sec = s.sec := rfl
@[simp] theorem State.setBist_attest (s : State) (c : Nat) (x : Bist) : (s.setBist c x).attest = s.attest := rfl
@[simp] theorem State.setBist_host (s : State) (c : Nat) (x : Bist) : (s.setBist c x).host = s.host := rfl
@[simp] theorem State.setBist_stn (s : State) (c : Nat) (x : Bist) : (s.setBist c x).stn = s.stn := rfl
@[simp] theorem State.setBist_nv (s : State) (c : Nat) (x : Bist) : (s.setBist c x).nv = s.nv := rfl
@[simp] theorem State.setBist_free (s : State) (c : Nat) (x : Bist) : (s.setBist c x).free = s.free := rfl
@[simp] theorem State.setBist_at_reg (s : State) (c : Nat) (x : Bist) (j : Nat) : (s.setBist c x).reg j = s.reg j := rfl
@[simp] theorem State.setBist_at_wideAt (s : State) (c : Nat) (x : Bist) (j : Nat) : (s.setBist c x).wideAt j = s.wideAt j := rfl
@[simp] theorem State.setBist_at_port (s : State) (c : Nat) (x : Bist) (j : Nat) : (s.setBist c x).port j = s.port j := rfl
@[simp] theorem State.setBist_at_out (s : State) (c : Nat) (x : Bist) (j : Nat) : (s.setBist c x).out j = s.out j := rfl
@[simp] theorem State.setBist_at_chan (s : State) (c : Nat) (x : Bist) (j : Nat) : (s.setBist c x).chan j = s.chan j := rfl
@[simp] theorem State.setBist_at_term (s : State) (c : Nat) (x : Bist) (j : Nat) : (s.setBist c x).term j = s.term j := rfl
@[simp] theorem State.setBist_at_fold (s : State) (c : Nat) (x : Bist) (j : Nat) : (s.setBist c x).fold j = s.fold j := rfl
@[simp] theorem State.setBist_at_bind (s : State) (c : Nat) (x : Bist) (j : Nat) : (s.setBist c x).bind j = s.bind j := rfl
@[simp] theorem State.setBist_at_gate (s : State) (c : Nat) (x : Bist) (j : Nat) : (s.setBist c x).gate j = s.gate j := rfl
@[simp] theorem State.setBist_at_timer (s : State) (c : Nat) (x : Bist) (j : Nat) : (s.setBist c x).timer j = s.timer j := rfl
@[simp] theorem State.setBist_at_trip (s : State) (c : Nat) (x : Bist) (j : Nat) : (s.setBist c x).trip j = s.trip j := rfl
@[simp] theorem State.setBist_at_ring (s : State) (c : Nat) (x : Bist) (j : Nat) : (s.setBist c x).ring j = s.ring j := rfl
@[simp] theorem State.setBist_at_inj (s : State) (c : Nat) (x : Bist) (j : Nat) : (s.setBist c x).inj j = s.inj j := rfl
@[simp] theorem State.setBist_at_cap (s : State) (c : Nat) (x : Bist) (j : Nat) : (s.setBist c x).cap j = s.cap j := rfl
@[simp] theorem State.setBist_at_motor (s : State) (c : Nat) (x : Bist) (j : Nat) : (s.setBist c x).motor j = s.motor j := rfl
@[simp] theorem State.setBist_at_hlt (s : State) (c : Nat) (x : Bist) (j : Nat) : (s.setBist c x).hlt j = s.hlt j := rfl
@[simp] theorem State.setBist_at_run (s : State) (c : Nat) (x : Bist) (j : Nat) : (s.setBist c x).run j = s.run j := rfl
@[simp] theorem State.setBist_at_meng (s : State) (c : Nat) (x : Bist) (j : Nat) : (s.setBist c x).meng j = s.meng j := rfl
@[simp] theorem State.setBist_at_sns (s : State) (c : Nat) (x : Bist) (j : Nat) : (s.setBist c x).sns j = s.sns j := rfl
@[simp] theorem State.setBist_at_image (s : State) (c : Nat) (x : Bist) (j : Nat) : (s.setBist c x).image j = s.image j := rfl
@[simp] theorem State.setBist_at_fsPair (s : State) (c : Nat) (x : Bist) (j : Nat) : (s.setBist c x).fsPair j = s.fsPair j := rfl
@[simp] theorem State.setBist_at_core (s : State) (c : Nat) (x : Bist) (j : Nat) : (s.setBist c x).core j = s.core j := rfl
@[simp] theorem State.setBist_at_dramByte (s : State) (c : Nat) (x : Bist) (j : Nat) : (s.setBist c x).dramByte j = s.dramByte j := rfl
@[simp] theorem State.setBist_at_diag (s : State) (c : Nat) (x : Bist) (j : Nat) : (s.setBist c x).diag j = s.diag j := rfl

@[simp] theorem State.updCol_pending (s : State) (f : Col → Col) : (s.updCol f).pending = s.pending := rfl
@[simp] theorem State.updCol_regs (s : State) (f : Col → Col) : (s.updCol f).regs = s.regs := rfl
@[simp] theorem State.updCol_wide (s : State) (f : Col → Col) : (s.updCol f).wide = s.wide := rfl
@[simp] theorem State.updCol_hiLatch (s : State) (f : Col → Col) : (s.updCol f).hiLatch = s.hiLatch := rfl
@[simp] theorem State.updCol_gens (s : State) (f : Col → Col) : (s.updCol f).gens = s.gens := rfl
@[simp] theorem State.updCol_ws (s : State) (f : Col → Col) : (s.updCol f).ws = s.ws := rfl
@[simp] theorem State.updCol_dram (s : State) (f : Col → Col) : (s.updCol f).dram = s.dram := rfl
@[simp] theorem State.updCol_dom (s : State) (f : Col → Col) : (s.updCol f).dom = s.dom := rfl
@[simp] theorem State.updCol_boot (s : State) (f : Col → Col) : (s.updCol f).boot = s.boot := rfl
@[simp] theorem State.updCol_amb (s : State) (f : Col → Col) : (s.updCol f).amb = s.amb := rfl
@[simp] theorem State.updCol_ports (s : State) (f : Col → Col) : (s.updCol f).ports = s.ports := rfl
@[simp] theorem State.updCol_outs (s : State) (f : Col → Col) : (s.updCol f).outs = s.outs := rfl
@[simp] theorem State.updCol_bell (s : State) (f : Col → Col) : (s.updCol f).bell = s.bell := rfl
@[simp] theorem State.updCol_chans (s : State) (f : Col → Col) : (s.updCol f).chans = s.chans := rfl
@[simp] theorem State.updCol_terms (s : State) (f : Col → Col) : (s.updCol f).terms = s.terms := rfl
@[simp] theorem State.updCol_folds (s : State) (f : Col → Col) : (s.updCol f).folds = s.folds := rfl
@[simp] theorem State.updCol_binds (s : State) (f : Col → Col) : (s.updCol f).binds = s.binds := rfl
@[simp] theorem State.updCol_gates (s : State) (f : Col → Col) : (s.updCol f).gates = s.gates := rfl
@[simp] theorem State.updCol_timers (s : State) (f : Col → Col) : (s.updCol f).timers = s.timers := rfl
@[simp] theorem State.updCol_trips (s : State) (f : Col → Col) : (s.updCol f).trips = s.trips := rfl
@[simp] theorem State.updCol_motors (s : State) (f : Col → Col) : (s.updCol f).motors = s.motors := rfl
@[simp] theorem State.updCol_caps (s : State) (f : Col → Col) : (s.updCol f).caps = s.caps := rfl
@[simp] theorem State.updCol_injs (s : State) (f : Col → Col) : (s.updCol f).injs = s.injs := rfl
@[simp] theorem State.updCol_images (s : State) (f : Col → Col) : (s.updCol f).images = s.images := rfl
@[simp] theorem State.updCol_health (s : State) (f : Col → Col) : (s.updCol f).health = s.health := rfl
@[simp] theorem State.updCol_runs (s : State) (f : Col → Col) : (s.updCol f).runs = s.runs := rfl
@[simp] theorem State.updCol_mengs (s : State) (f : Col → Col) : (s.updCol f).mengs = s.mengs := rfl
@[simp] theorem State.updCol_sense (s : State) (f : Col → Col) : (s.updCol f).sense = s.sense := rfl
@[simp] theorem State.updCol_fs (s : State) (f : Col → Col) : (s.updCol f).fs = s.fs := rfl
@[simp] theorem State.updCol_cores (s : State) (f : Col → Col) : (s.updCol f).cores = s.cores := rfl
@[simp] theorem State.updCol_bists (s : State) (f : Col → Col) : (s.updCol f).bists = s.bists := rfl
@[simp] theorem State.updCol_jtag (s : State) (f : Col → Col) : (s.updCol f).jtag = s.jtag := rfl
@[simp] theorem State.updCol_diags (s : State) (f : Col → Col) : (s.updCol f).diags = s.diags := rfl
@[simp] theorem State.updCol_rings (s : State) (f : Col → Col) : (s.updCol f).rings = s.rings := rfl
@[simp] theorem State.updCol_svc (s : State) (f : Col → Col) : (s.updCol f).svc = s.svc := rfl
@[simp] theorem State.updCol_tal (s : State) (f : Col → Col) : (s.updCol f).tal = s.tal := rfl
@[simp] theorem State.updCol_sec (s : State) (f : Col → Col) : (s.updCol f).sec = s.sec := rfl
@[simp] theorem State.updCol_attest (s : State) (f : Col → Col) : (s.updCol f).attest = s.attest := rfl
@[simp] theorem State.updCol_host (s : State) (f : Col → Col) : (s.updCol f).host = s.host := rfl
@[simp] theorem State.updCol_stn (s : State) (f : Col → Col) : (s.updCol f).stn = s.stn := rfl
@[simp] theorem State.updCol_nv (s : State) (f : Col → Col) : (s.updCol f).nv = s.nv := rfl
@[simp] theorem State.updCol_free (s : State) (f : Col → Col) : (s.updCol f).free = s.free := rfl
@[simp] theorem State.updCol_at_reg (s : State) (f : Col → Col) (j : Nat) : (s.updCol f).reg j = s.reg j := rfl
@[simp] theorem State.updCol_at_wideAt (s : State) (f : Col → Col) (j : Nat) : (s.updCol f).wideAt j = s.wideAt j := rfl
@[simp] theorem State.updCol_at_port (s : State) (f : Col → Col) (j : Nat) : (s.updCol f).port j = s.port j := rfl
@[simp] theorem State.updCol_at_out (s : State) (f : Col → Col) (j : Nat) : (s.updCol f).out j = s.out j := rfl
@[simp] theorem State.updCol_at_chan (s : State) (f : Col → Col) (j : Nat) : (s.updCol f).chan j = s.chan j := rfl
@[simp] theorem State.updCol_at_term (s : State) (f : Col → Col) (j : Nat) : (s.updCol f).term j = s.term j := rfl
@[simp] theorem State.updCol_at_fold (s : State) (f : Col → Col) (j : Nat) : (s.updCol f).fold j = s.fold j := rfl
@[simp] theorem State.updCol_at_bind (s : State) (f : Col → Col) (j : Nat) : (s.updCol f).bind j = s.bind j := rfl
@[simp] theorem State.updCol_at_gate (s : State) (f : Col → Col) (j : Nat) : (s.updCol f).gate j = s.gate j := rfl
@[simp] theorem State.updCol_at_timer (s : State) (f : Col → Col) (j : Nat) : (s.updCol f).timer j = s.timer j := rfl
@[simp] theorem State.updCol_at_trip (s : State) (f : Col → Col) (j : Nat) : (s.updCol f).trip j = s.trip j := rfl
@[simp] theorem State.updCol_at_ring (s : State) (f : Col → Col) (j : Nat) : (s.updCol f).ring j = s.ring j := rfl
@[simp] theorem State.updCol_at_inj (s : State) (f : Col → Col) (j : Nat) : (s.updCol f).inj j = s.inj j := rfl
@[simp] theorem State.updCol_at_cap (s : State) (f : Col → Col) (j : Nat) : (s.updCol f).cap j = s.cap j := rfl
@[simp] theorem State.updCol_at_motor (s : State) (f : Col → Col) (j : Nat) : (s.updCol f).motor j = s.motor j := rfl
@[simp] theorem State.updCol_at_hlt (s : State) (f : Col → Col) (j : Nat) : (s.updCol f).hlt j = s.hlt j := rfl
@[simp] theorem State.updCol_at_run (s : State) (f : Col → Col) (j : Nat) : (s.updCol f).run j = s.run j := rfl
@[simp] theorem State.updCol_at_meng (s : State) (f : Col → Col) (j : Nat) : (s.updCol f).meng j = s.meng j := rfl
@[simp] theorem State.updCol_at_sns (s : State) (f : Col → Col) (j : Nat) : (s.updCol f).sns j = s.sns j := rfl
@[simp] theorem State.updCol_at_image (s : State) (f : Col → Col) (j : Nat) : (s.updCol f).image j = s.image j := rfl
@[simp] theorem State.updCol_at_fsPair (s : State) (f : Col → Col) (j : Nat) : (s.updCol f).fsPair j = s.fsPair j := rfl
@[simp] theorem State.updCol_at_core (s : State) (f : Col → Col) (j : Nat) : (s.updCol f).core j = s.core j := rfl
@[simp] theorem State.updCol_at_bist (s : State) (f : Col → Col) (j : Nat) : (s.updCol f).bist j = s.bist j := rfl
@[simp] theorem State.updCol_at_dramByte (s : State) (f : Col → Col) (j : Nat) : (s.updCol f).dramByte j = s.dramByte j := rfl
@[simp] theorem State.updCol_at_diag (s : State) (f : Col → Col) (j : Nat) : (s.updCol f).diag j = s.diag j := rfl
@[simp] theorem State.updCol_col (s : State) (f : Col → Col) : (s.updCol f).col = f s.col := rfl

@[simp] theorem State.updBell_pending (s : State) (f : Bell → Bell) : (s.updBell f).pending = s.pending := rfl
@[simp] theorem State.updBell_regs (s : State) (f : Bell → Bell) : (s.updBell f).regs = s.regs := rfl
@[simp] theorem State.updBell_wide (s : State) (f : Bell → Bell) : (s.updBell f).wide = s.wide := rfl
@[simp] theorem State.updBell_hiLatch (s : State) (f : Bell → Bell) : (s.updBell f).hiLatch = s.hiLatch := rfl
@[simp] theorem State.updBell_gens (s : State) (f : Bell → Bell) : (s.updBell f).gens = s.gens := rfl
@[simp] theorem State.updBell_ws (s : State) (f : Bell → Bell) : (s.updBell f).ws = s.ws := rfl
@[simp] theorem State.updBell_dram (s : State) (f : Bell → Bell) : (s.updBell f).dram = s.dram := rfl
@[simp] theorem State.updBell_dom (s : State) (f : Bell → Bell) : (s.updBell f).dom = s.dom := rfl
@[simp] theorem State.updBell_boot (s : State) (f : Bell → Bell) : (s.updBell f).boot = s.boot := rfl
@[simp] theorem State.updBell_amb (s : State) (f : Bell → Bell) : (s.updBell f).amb = s.amb := rfl
@[simp] theorem State.updBell_ports (s : State) (f : Bell → Bell) : (s.updBell f).ports = s.ports := rfl
@[simp] theorem State.updBell_outs (s : State) (f : Bell → Bell) : (s.updBell f).outs = s.outs := rfl
@[simp] theorem State.updBell_chans (s : State) (f : Bell → Bell) : (s.updBell f).chans = s.chans := rfl
@[simp] theorem State.updBell_terms (s : State) (f : Bell → Bell) : (s.updBell f).terms = s.terms := rfl
@[simp] theorem State.updBell_folds (s : State) (f : Bell → Bell) : (s.updBell f).folds = s.folds := rfl
@[simp] theorem State.updBell_binds (s : State) (f : Bell → Bell) : (s.updBell f).binds = s.binds := rfl
@[simp] theorem State.updBell_gates (s : State) (f : Bell → Bell) : (s.updBell f).gates = s.gates := rfl
@[simp] theorem State.updBell_timers (s : State) (f : Bell → Bell) : (s.updBell f).timers = s.timers := rfl
@[simp] theorem State.updBell_trips (s : State) (f : Bell → Bell) : (s.updBell f).trips = s.trips := rfl
@[simp] theorem State.updBell_motors (s : State) (f : Bell → Bell) : (s.updBell f).motors = s.motors := rfl
@[simp] theorem State.updBell_caps (s : State) (f : Bell → Bell) : (s.updBell f).caps = s.caps := rfl
@[simp] theorem State.updBell_injs (s : State) (f : Bell → Bell) : (s.updBell f).injs = s.injs := rfl
@[simp] theorem State.updBell_images (s : State) (f : Bell → Bell) : (s.updBell f).images = s.images := rfl
@[simp] theorem State.updBell_health (s : State) (f : Bell → Bell) : (s.updBell f).health = s.health := rfl
@[simp] theorem State.updBell_runs (s : State) (f : Bell → Bell) : (s.updBell f).runs = s.runs := rfl
@[simp] theorem State.updBell_mengs (s : State) (f : Bell → Bell) : (s.updBell f).mengs = s.mengs := rfl
@[simp] theorem State.updBell_sense (s : State) (f : Bell → Bell) : (s.updBell f).sense = s.sense := rfl
@[simp] theorem State.updBell_fs (s : State) (f : Bell → Bell) : (s.updBell f).fs = s.fs := rfl
@[simp] theorem State.updBell_cores (s : State) (f : Bell → Bell) : (s.updBell f).cores = s.cores := rfl
@[simp] theorem State.updBell_bists (s : State) (f : Bell → Bell) : (s.updBell f).bists = s.bists := rfl
@[simp] theorem State.updBell_jtag (s : State) (f : Bell → Bell) : (s.updBell f).jtag = s.jtag := rfl
@[simp] theorem State.updBell_diags (s : State) (f : Bell → Bell) : (s.updBell f).diags = s.diags := rfl
@[simp] theorem State.updBell_rings (s : State) (f : Bell → Bell) : (s.updBell f).rings = s.rings := rfl
@[simp] theorem State.updBell_svc (s : State) (f : Bell → Bell) : (s.updBell f).svc = s.svc := rfl
@[simp] theorem State.updBell_col (s : State) (f : Bell → Bell) : (s.updBell f).col = s.col := rfl
@[simp] theorem State.updBell_tal (s : State) (f : Bell → Bell) : (s.updBell f).tal = s.tal := rfl
@[simp] theorem State.updBell_sec (s : State) (f : Bell → Bell) : (s.updBell f).sec = s.sec := rfl
@[simp] theorem State.updBell_attest (s : State) (f : Bell → Bell) : (s.updBell f).attest = s.attest := rfl
@[simp] theorem State.updBell_host (s : State) (f : Bell → Bell) : (s.updBell f).host = s.host := rfl
@[simp] theorem State.updBell_stn (s : State) (f : Bell → Bell) : (s.updBell f).stn = s.stn := rfl
@[simp] theorem State.updBell_nv (s : State) (f : Bell → Bell) : (s.updBell f).nv = s.nv := rfl
@[simp] theorem State.updBell_free (s : State) (f : Bell → Bell) : (s.updBell f).free = s.free := rfl
@[simp] theorem State.updBell_at_reg (s : State) (f : Bell → Bell) (j : Nat) : (s.updBell f).reg j = s.reg j := rfl
@[simp] theorem State.updBell_at_wideAt (s : State) (f : Bell → Bell) (j : Nat) : (s.updBell f).wideAt j = s.wideAt j := rfl
@[simp] theorem State.updBell_at_port (s : State) (f : Bell → Bell) (j : Nat) : (s.updBell f).port j = s.port j := rfl
@[simp] theorem State.updBell_at_out (s : State) (f : Bell → Bell) (j : Nat) : (s.updBell f).out j = s.out j := rfl
@[simp] theorem State.updBell_at_chan (s : State) (f : Bell → Bell) (j : Nat) : (s.updBell f).chan j = s.chan j := rfl
@[simp] theorem State.updBell_at_term (s : State) (f : Bell → Bell) (j : Nat) : (s.updBell f).term j = s.term j := rfl
@[simp] theorem State.updBell_at_fold (s : State) (f : Bell → Bell) (j : Nat) : (s.updBell f).fold j = s.fold j := rfl
@[simp] theorem State.updBell_at_bind (s : State) (f : Bell → Bell) (j : Nat) : (s.updBell f).bind j = s.bind j := rfl
@[simp] theorem State.updBell_at_gate (s : State) (f : Bell → Bell) (j : Nat) : (s.updBell f).gate j = s.gate j := rfl
@[simp] theorem State.updBell_at_timer (s : State) (f : Bell → Bell) (j : Nat) : (s.updBell f).timer j = s.timer j := rfl
@[simp] theorem State.updBell_at_trip (s : State) (f : Bell → Bell) (j : Nat) : (s.updBell f).trip j = s.trip j := rfl
@[simp] theorem State.updBell_at_ring (s : State) (f : Bell → Bell) (j : Nat) : (s.updBell f).ring j = s.ring j := rfl
@[simp] theorem State.updBell_at_inj (s : State) (f : Bell → Bell) (j : Nat) : (s.updBell f).inj j = s.inj j := rfl
@[simp] theorem State.updBell_at_cap (s : State) (f : Bell → Bell) (j : Nat) : (s.updBell f).cap j = s.cap j := rfl
@[simp] theorem State.updBell_at_motor (s : State) (f : Bell → Bell) (j : Nat) : (s.updBell f).motor j = s.motor j := rfl
@[simp] theorem State.updBell_at_hlt (s : State) (f : Bell → Bell) (j : Nat) : (s.updBell f).hlt j = s.hlt j := rfl
@[simp] theorem State.updBell_at_run (s : State) (f : Bell → Bell) (j : Nat) : (s.updBell f).run j = s.run j := rfl
@[simp] theorem State.updBell_at_meng (s : State) (f : Bell → Bell) (j : Nat) : (s.updBell f).meng j = s.meng j := rfl
@[simp] theorem State.updBell_at_sns (s : State) (f : Bell → Bell) (j : Nat) : (s.updBell f).sns j = s.sns j := rfl
@[simp] theorem State.updBell_at_image (s : State) (f : Bell → Bell) (j : Nat) : (s.updBell f).image j = s.image j := rfl
@[simp] theorem State.updBell_at_fsPair (s : State) (f : Bell → Bell) (j : Nat) : (s.updBell f).fsPair j = s.fsPair j := rfl
@[simp] theorem State.updBell_at_core (s : State) (f : Bell → Bell) (j : Nat) : (s.updBell f).core j = s.core j := rfl
@[simp] theorem State.updBell_at_bist (s : State) (f : Bell → Bell) (j : Nat) : (s.updBell f).bist j = s.bist j := rfl
@[simp] theorem State.updBell_at_dramByte (s : State) (f : Bell → Bell) (j : Nat) : (s.updBell f).dramByte j = s.dramByte j := rfl
@[simp] theorem State.updBell_at_diag (s : State) (f : Bell → Bell) (j : Nat) : (s.updBell f).diag j = s.diag j := rfl
@[simp] theorem State.updBell_bell (s : State) (f : Bell → Bell) : (s.updBell f).bell = f s.bell := rfl

@[simp] theorem State.updSvc_pending (s : State) (f : Svc → Svc) : (s.updSvc f).pending = s.pending := rfl
@[simp] theorem State.updSvc_regs (s : State) (f : Svc → Svc) : (s.updSvc f).regs = s.regs := rfl
@[simp] theorem State.updSvc_wide (s : State) (f : Svc → Svc) : (s.updSvc f).wide = s.wide := rfl
@[simp] theorem State.updSvc_hiLatch (s : State) (f : Svc → Svc) : (s.updSvc f).hiLatch = s.hiLatch := rfl
@[simp] theorem State.updSvc_gens (s : State) (f : Svc → Svc) : (s.updSvc f).gens = s.gens := rfl
@[simp] theorem State.updSvc_ws (s : State) (f : Svc → Svc) : (s.updSvc f).ws = s.ws := rfl
@[simp] theorem State.updSvc_dram (s : State) (f : Svc → Svc) : (s.updSvc f).dram = s.dram := rfl
@[simp] theorem State.updSvc_dom (s : State) (f : Svc → Svc) : (s.updSvc f).dom = s.dom := rfl
@[simp] theorem State.updSvc_boot (s : State) (f : Svc → Svc) : (s.updSvc f).boot = s.boot := rfl
@[simp] theorem State.updSvc_amb (s : State) (f : Svc → Svc) : (s.updSvc f).amb = s.amb := rfl
@[simp] theorem State.updSvc_ports (s : State) (f : Svc → Svc) : (s.updSvc f).ports = s.ports := rfl
@[simp] theorem State.updSvc_outs (s : State) (f : Svc → Svc) : (s.updSvc f).outs = s.outs := rfl
@[simp] theorem State.updSvc_bell (s : State) (f : Svc → Svc) : (s.updSvc f).bell = s.bell := rfl
@[simp] theorem State.updSvc_chans (s : State) (f : Svc → Svc) : (s.updSvc f).chans = s.chans := rfl
@[simp] theorem State.updSvc_terms (s : State) (f : Svc → Svc) : (s.updSvc f).terms = s.terms := rfl
@[simp] theorem State.updSvc_folds (s : State) (f : Svc → Svc) : (s.updSvc f).folds = s.folds := rfl
@[simp] theorem State.updSvc_binds (s : State) (f : Svc → Svc) : (s.updSvc f).binds = s.binds := rfl
@[simp] theorem State.updSvc_gates (s : State) (f : Svc → Svc) : (s.updSvc f).gates = s.gates := rfl
@[simp] theorem State.updSvc_timers (s : State) (f : Svc → Svc) : (s.updSvc f).timers = s.timers := rfl
@[simp] theorem State.updSvc_trips (s : State) (f : Svc → Svc) : (s.updSvc f).trips = s.trips := rfl
@[simp] theorem State.updSvc_motors (s : State) (f : Svc → Svc) : (s.updSvc f).motors = s.motors := rfl
@[simp] theorem State.updSvc_caps (s : State) (f : Svc → Svc) : (s.updSvc f).caps = s.caps := rfl
@[simp] theorem State.updSvc_injs (s : State) (f : Svc → Svc) : (s.updSvc f).injs = s.injs := rfl
@[simp] theorem State.updSvc_images (s : State) (f : Svc → Svc) : (s.updSvc f).images = s.images := rfl
@[simp] theorem State.updSvc_health (s : State) (f : Svc → Svc) : (s.updSvc f).health = s.health := rfl
@[simp] theorem State.updSvc_runs (s : State) (f : Svc → Svc) : (s.updSvc f).runs = s.runs := rfl
@[simp] theorem State.updSvc_mengs (s : State) (f : Svc → Svc) : (s.updSvc f).mengs = s.mengs := rfl
@[simp] theorem State.updSvc_sense (s : State) (f : Svc → Svc) : (s.updSvc f).sense = s.sense := rfl
@[simp] theorem State.updSvc_fs (s : State) (f : Svc → Svc) : (s.updSvc f).fs = s.fs := rfl
@[simp] theorem State.updSvc_cores (s : State) (f : Svc → Svc) : (s.updSvc f).cores = s.cores := rfl
@[simp] theorem State.updSvc_bists (s : State) (f : Svc → Svc) : (s.updSvc f).bists = s.bists := rfl
@[simp] theorem State.updSvc_jtag (s : State) (f : Svc → Svc) : (s.updSvc f).jtag = s.jtag := rfl
@[simp] theorem State.updSvc_diags (s : State) (f : Svc → Svc) : (s.updSvc f).diags = s.diags := rfl
@[simp] theorem State.updSvc_rings (s : State) (f : Svc → Svc) : (s.updSvc f).rings = s.rings := rfl
@[simp] theorem State.updSvc_col (s : State) (f : Svc → Svc) : (s.updSvc f).col = s.col := rfl
@[simp] theorem State.updSvc_tal (s : State) (f : Svc → Svc) : (s.updSvc f).tal = s.tal := rfl
@[simp] theorem State.updSvc_sec (s : State) (f : Svc → Svc) : (s.updSvc f).sec = s.sec := rfl
@[simp] theorem State.updSvc_attest (s : State) (f : Svc → Svc) : (s.updSvc f).attest = s.attest := rfl
@[simp] theorem State.updSvc_host (s : State) (f : Svc → Svc) : (s.updSvc f).host = s.host := rfl
@[simp] theorem State.updSvc_stn (s : State) (f : Svc → Svc) : (s.updSvc f).stn = s.stn := rfl
@[simp] theorem State.updSvc_nv (s : State) (f : Svc → Svc) : (s.updSvc f).nv = s.nv := rfl
@[simp] theorem State.updSvc_free (s : State) (f : Svc → Svc) : (s.updSvc f).free = s.free := rfl
@[simp] theorem State.updSvc_at_reg (s : State) (f : Svc → Svc) (j : Nat) : (s.updSvc f).reg j = s.reg j := rfl
@[simp] theorem State.updSvc_at_wideAt (s : State) (f : Svc → Svc) (j : Nat) : (s.updSvc f).wideAt j = s.wideAt j := rfl
@[simp] theorem State.updSvc_at_port (s : State) (f : Svc → Svc) (j : Nat) : (s.updSvc f).port j = s.port j := rfl
@[simp] theorem State.updSvc_at_out (s : State) (f : Svc → Svc) (j : Nat) : (s.updSvc f).out j = s.out j := rfl
@[simp] theorem State.updSvc_at_chan (s : State) (f : Svc → Svc) (j : Nat) : (s.updSvc f).chan j = s.chan j := rfl
@[simp] theorem State.updSvc_at_term (s : State) (f : Svc → Svc) (j : Nat) : (s.updSvc f).term j = s.term j := rfl
@[simp] theorem State.updSvc_at_fold (s : State) (f : Svc → Svc) (j : Nat) : (s.updSvc f).fold j = s.fold j := rfl
@[simp] theorem State.updSvc_at_bind (s : State) (f : Svc → Svc) (j : Nat) : (s.updSvc f).bind j = s.bind j := rfl
@[simp] theorem State.updSvc_at_gate (s : State) (f : Svc → Svc) (j : Nat) : (s.updSvc f).gate j = s.gate j := rfl
@[simp] theorem State.updSvc_at_timer (s : State) (f : Svc → Svc) (j : Nat) : (s.updSvc f).timer j = s.timer j := rfl
@[simp] theorem State.updSvc_at_trip (s : State) (f : Svc → Svc) (j : Nat) : (s.updSvc f).trip j = s.trip j := rfl
@[simp] theorem State.updSvc_at_ring (s : State) (f : Svc → Svc) (j : Nat) : (s.updSvc f).ring j = s.ring j := rfl
@[simp] theorem State.updSvc_at_inj (s : State) (f : Svc → Svc) (j : Nat) : (s.updSvc f).inj j = s.inj j := rfl
@[simp] theorem State.updSvc_at_cap (s : State) (f : Svc → Svc) (j : Nat) : (s.updSvc f).cap j = s.cap j := rfl
@[simp] theorem State.updSvc_at_motor (s : State) (f : Svc → Svc) (j : Nat) : (s.updSvc f).motor j = s.motor j := rfl
@[simp] theorem State.updSvc_at_hlt (s : State) (f : Svc → Svc) (j : Nat) : (s.updSvc f).hlt j = s.hlt j := rfl
@[simp] theorem State.updSvc_at_run (s : State) (f : Svc → Svc) (j : Nat) : (s.updSvc f).run j = s.run j := rfl
@[simp] theorem State.updSvc_at_meng (s : State) (f : Svc → Svc) (j : Nat) : (s.updSvc f).meng j = s.meng j := rfl
@[simp] theorem State.updSvc_at_sns (s : State) (f : Svc → Svc) (j : Nat) : (s.updSvc f).sns j = s.sns j := rfl
@[simp] theorem State.updSvc_at_image (s : State) (f : Svc → Svc) (j : Nat) : (s.updSvc f).image j = s.image j := rfl
@[simp] theorem State.updSvc_at_fsPair (s : State) (f : Svc → Svc) (j : Nat) : (s.updSvc f).fsPair j = s.fsPair j := rfl
@[simp] theorem State.updSvc_at_core (s : State) (f : Svc → Svc) (j : Nat) : (s.updSvc f).core j = s.core j := rfl
@[simp] theorem State.updSvc_at_bist (s : State) (f : Svc → Svc) (j : Nat) : (s.updSvc f).bist j = s.bist j := rfl
@[simp] theorem State.updSvc_at_dramByte (s : State) (f : Svc → Svc) (j : Nat) : (s.updSvc f).dramByte j = s.dramByte j := rfl
@[simp] theorem State.updSvc_at_diag (s : State) (f : Svc → Svc) (j : Nat) : (s.updSvc f).diag j = s.diag j := rfl
@[simp] theorem State.updSvc_svc (s : State) (f : Svc → Svc) : (s.updSvc f).svc = f s.svc := rfl

@[simp] theorem State.updSec_pending (s : State) (f : Sec → Sec) : (s.updSec f).pending = s.pending := rfl
@[simp] theorem State.updSec_regs (s : State) (f : Sec → Sec) : (s.updSec f).regs = s.regs := rfl
@[simp] theorem State.updSec_wide (s : State) (f : Sec → Sec) : (s.updSec f).wide = s.wide := rfl
@[simp] theorem State.updSec_hiLatch (s : State) (f : Sec → Sec) : (s.updSec f).hiLatch = s.hiLatch := rfl
@[simp] theorem State.updSec_gens (s : State) (f : Sec → Sec) : (s.updSec f).gens = s.gens := rfl
@[simp] theorem State.updSec_ws (s : State) (f : Sec → Sec) : (s.updSec f).ws = s.ws := rfl
@[simp] theorem State.updSec_dram (s : State) (f : Sec → Sec) : (s.updSec f).dram = s.dram := rfl
@[simp] theorem State.updSec_dom (s : State) (f : Sec → Sec) : (s.updSec f).dom = s.dom := rfl
@[simp] theorem State.updSec_boot (s : State) (f : Sec → Sec) : (s.updSec f).boot = s.boot := rfl
@[simp] theorem State.updSec_amb (s : State) (f : Sec → Sec) : (s.updSec f).amb = s.amb := rfl
@[simp] theorem State.updSec_ports (s : State) (f : Sec → Sec) : (s.updSec f).ports = s.ports := rfl
@[simp] theorem State.updSec_outs (s : State) (f : Sec → Sec) : (s.updSec f).outs = s.outs := rfl
@[simp] theorem State.updSec_bell (s : State) (f : Sec → Sec) : (s.updSec f).bell = s.bell := rfl
@[simp] theorem State.updSec_chans (s : State) (f : Sec → Sec) : (s.updSec f).chans = s.chans := rfl
@[simp] theorem State.updSec_terms (s : State) (f : Sec → Sec) : (s.updSec f).terms = s.terms := rfl
@[simp] theorem State.updSec_folds (s : State) (f : Sec → Sec) : (s.updSec f).folds = s.folds := rfl
@[simp] theorem State.updSec_binds (s : State) (f : Sec → Sec) : (s.updSec f).binds = s.binds := rfl
@[simp] theorem State.updSec_gates (s : State) (f : Sec → Sec) : (s.updSec f).gates = s.gates := rfl
@[simp] theorem State.updSec_timers (s : State) (f : Sec → Sec) : (s.updSec f).timers = s.timers := rfl
@[simp] theorem State.updSec_trips (s : State) (f : Sec → Sec) : (s.updSec f).trips = s.trips := rfl
@[simp] theorem State.updSec_motors (s : State) (f : Sec → Sec) : (s.updSec f).motors = s.motors := rfl
@[simp] theorem State.updSec_caps (s : State) (f : Sec → Sec) : (s.updSec f).caps = s.caps := rfl
@[simp] theorem State.updSec_injs (s : State) (f : Sec → Sec) : (s.updSec f).injs = s.injs := rfl
@[simp] theorem State.updSec_images (s : State) (f : Sec → Sec) : (s.updSec f).images = s.images := rfl
@[simp] theorem State.updSec_health (s : State) (f : Sec → Sec) : (s.updSec f).health = s.health := rfl
@[simp] theorem State.updSec_runs (s : State) (f : Sec → Sec) : (s.updSec f).runs = s.runs := rfl
@[simp] theorem State.updSec_mengs (s : State) (f : Sec → Sec) : (s.updSec f).mengs = s.mengs := rfl
@[simp] theorem State.updSec_sense (s : State) (f : Sec → Sec) : (s.updSec f).sense = s.sense := rfl
@[simp] theorem State.updSec_fs (s : State) (f : Sec → Sec) : (s.updSec f).fs = s.fs := rfl
@[simp] theorem State.updSec_cores (s : State) (f : Sec → Sec) : (s.updSec f).cores = s.cores := rfl
@[simp] theorem State.updSec_bists (s : State) (f : Sec → Sec) : (s.updSec f).bists = s.bists := rfl
@[simp] theorem State.updSec_jtag (s : State) (f : Sec → Sec) : (s.updSec f).jtag = s.jtag := rfl
@[simp] theorem State.updSec_diags (s : State) (f : Sec → Sec) : (s.updSec f).diags = s.diags := rfl
@[simp] theorem State.updSec_rings (s : State) (f : Sec → Sec) : (s.updSec f).rings = s.rings := rfl
@[simp] theorem State.updSec_svc (s : State) (f : Sec → Sec) : (s.updSec f).svc = s.svc := rfl
@[simp] theorem State.updSec_col (s : State) (f : Sec → Sec) : (s.updSec f).col = s.col := rfl
@[simp] theorem State.updSec_tal (s : State) (f : Sec → Sec) : (s.updSec f).tal = s.tal := rfl
@[simp] theorem State.updSec_attest (s : State) (f : Sec → Sec) : (s.updSec f).attest = s.attest := rfl
@[simp] theorem State.updSec_host (s : State) (f : Sec → Sec) : (s.updSec f).host = s.host := rfl
@[simp] theorem State.updSec_stn (s : State) (f : Sec → Sec) : (s.updSec f).stn = s.stn := rfl
@[simp] theorem State.updSec_nv (s : State) (f : Sec → Sec) : (s.updSec f).nv = s.nv := rfl
@[simp] theorem State.updSec_free (s : State) (f : Sec → Sec) : (s.updSec f).free = s.free := rfl
@[simp] theorem State.updSec_at_reg (s : State) (f : Sec → Sec) (j : Nat) : (s.updSec f).reg j = s.reg j := rfl
@[simp] theorem State.updSec_at_wideAt (s : State) (f : Sec → Sec) (j : Nat) : (s.updSec f).wideAt j = s.wideAt j := rfl
@[simp] theorem State.updSec_at_port (s : State) (f : Sec → Sec) (j : Nat) : (s.updSec f).port j = s.port j := rfl
@[simp] theorem State.updSec_at_out (s : State) (f : Sec → Sec) (j : Nat) : (s.updSec f).out j = s.out j := rfl
@[simp] theorem State.updSec_at_chan (s : State) (f : Sec → Sec) (j : Nat) : (s.updSec f).chan j = s.chan j := rfl
@[simp] theorem State.updSec_at_term (s : State) (f : Sec → Sec) (j : Nat) : (s.updSec f).term j = s.term j := rfl
@[simp] theorem State.updSec_at_fold (s : State) (f : Sec → Sec) (j : Nat) : (s.updSec f).fold j = s.fold j := rfl
@[simp] theorem State.updSec_at_bind (s : State) (f : Sec → Sec) (j : Nat) : (s.updSec f).bind j = s.bind j := rfl
@[simp] theorem State.updSec_at_gate (s : State) (f : Sec → Sec) (j : Nat) : (s.updSec f).gate j = s.gate j := rfl
@[simp] theorem State.updSec_at_timer (s : State) (f : Sec → Sec) (j : Nat) : (s.updSec f).timer j = s.timer j := rfl
@[simp] theorem State.updSec_at_trip (s : State) (f : Sec → Sec) (j : Nat) : (s.updSec f).trip j = s.trip j := rfl
@[simp] theorem State.updSec_at_ring (s : State) (f : Sec → Sec) (j : Nat) : (s.updSec f).ring j = s.ring j := rfl
@[simp] theorem State.updSec_at_inj (s : State) (f : Sec → Sec) (j : Nat) : (s.updSec f).inj j = s.inj j := rfl
@[simp] theorem State.updSec_at_cap (s : State) (f : Sec → Sec) (j : Nat) : (s.updSec f).cap j = s.cap j := rfl
@[simp] theorem State.updSec_at_motor (s : State) (f : Sec → Sec) (j : Nat) : (s.updSec f).motor j = s.motor j := rfl
@[simp] theorem State.updSec_at_hlt (s : State) (f : Sec → Sec) (j : Nat) : (s.updSec f).hlt j = s.hlt j := rfl
@[simp] theorem State.updSec_at_run (s : State) (f : Sec → Sec) (j : Nat) : (s.updSec f).run j = s.run j := rfl
@[simp] theorem State.updSec_at_meng (s : State) (f : Sec → Sec) (j : Nat) : (s.updSec f).meng j = s.meng j := rfl
@[simp] theorem State.updSec_at_sns (s : State) (f : Sec → Sec) (j : Nat) : (s.updSec f).sns j = s.sns j := rfl
@[simp] theorem State.updSec_at_image (s : State) (f : Sec → Sec) (j : Nat) : (s.updSec f).image j = s.image j := rfl
@[simp] theorem State.updSec_at_fsPair (s : State) (f : Sec → Sec) (j : Nat) : (s.updSec f).fsPair j = s.fsPair j := rfl
@[simp] theorem State.updSec_at_core (s : State) (f : Sec → Sec) (j : Nat) : (s.updSec f).core j = s.core j := rfl
@[simp] theorem State.updSec_at_bist (s : State) (f : Sec → Sec) (j : Nat) : (s.updSec f).bist j = s.bist j := rfl
@[simp] theorem State.updSec_at_dramByte (s : State) (f : Sec → Sec) (j : Nat) : (s.updSec f).dramByte j = s.dramByte j := rfl
@[simp] theorem State.updSec_at_diag (s : State) (f : Sec → Sec) (j : Nat) : (s.updSec f).diag j = s.diag j := rfl
@[simp] theorem State.updSec_sec (s : State) (f : Sec → Sec) : (s.updSec f).sec = f s.sec := rfl

@[simp] theorem State.setDramByte_pending (s : State) (a : Nat) (b : BitVec 8) : (s.setDramByte a b).pending = s.pending := rfl
@[simp] theorem State.setDramByte_regs (s : State) (a : Nat) (b : BitVec 8) : (s.setDramByte a b).regs = s.regs := rfl
@[simp] theorem State.setDramByte_wide (s : State) (a : Nat) (b : BitVec 8) : (s.setDramByte a b).wide = s.wide := rfl
@[simp] theorem State.setDramByte_hiLatch (s : State) (a : Nat) (b : BitVec 8) : (s.setDramByte a b).hiLatch = s.hiLatch := rfl
@[simp] theorem State.setDramByte_gens (s : State) (a : Nat) (b : BitVec 8) : (s.setDramByte a b).gens = s.gens := rfl
@[simp] theorem State.setDramByte_ws (s : State) (a : Nat) (b : BitVec 8) : (s.setDramByte a b).ws = s.ws := rfl
@[simp] theorem State.setDramByte_dom (s : State) (a : Nat) (b : BitVec 8) : (s.setDramByte a b).dom = s.dom := rfl
@[simp] theorem State.setDramByte_boot (s : State) (a : Nat) (b : BitVec 8) : (s.setDramByte a b).boot = s.boot := rfl
@[simp] theorem State.setDramByte_amb (s : State) (a : Nat) (b : BitVec 8) : (s.setDramByte a b).amb = s.amb := rfl
@[simp] theorem State.setDramByte_ports (s : State) (a : Nat) (b : BitVec 8) : (s.setDramByte a b).ports = s.ports := rfl
@[simp] theorem State.setDramByte_outs (s : State) (a : Nat) (b : BitVec 8) : (s.setDramByte a b).outs = s.outs := rfl
@[simp] theorem State.setDramByte_bell (s : State) (a : Nat) (b : BitVec 8) : (s.setDramByte a b).bell = s.bell := rfl
@[simp] theorem State.setDramByte_chans (s : State) (a : Nat) (b : BitVec 8) : (s.setDramByte a b).chans = s.chans := rfl
@[simp] theorem State.setDramByte_terms (s : State) (a : Nat) (b : BitVec 8) : (s.setDramByte a b).terms = s.terms := rfl
@[simp] theorem State.setDramByte_folds (s : State) (a : Nat) (b : BitVec 8) : (s.setDramByte a b).folds = s.folds := rfl
@[simp] theorem State.setDramByte_binds (s : State) (a : Nat) (b : BitVec 8) : (s.setDramByte a b).binds = s.binds := rfl
@[simp] theorem State.setDramByte_gates (s : State) (a : Nat) (b : BitVec 8) : (s.setDramByte a b).gates = s.gates := rfl
@[simp] theorem State.setDramByte_timers (s : State) (a : Nat) (b : BitVec 8) : (s.setDramByte a b).timers = s.timers := rfl
@[simp] theorem State.setDramByte_trips (s : State) (a : Nat) (b : BitVec 8) : (s.setDramByte a b).trips = s.trips := rfl
@[simp] theorem State.setDramByte_motors (s : State) (a : Nat) (b : BitVec 8) : (s.setDramByte a b).motors = s.motors := rfl
@[simp] theorem State.setDramByte_caps (s : State) (a : Nat) (b : BitVec 8) : (s.setDramByte a b).caps = s.caps := rfl
@[simp] theorem State.setDramByte_injs (s : State) (a : Nat) (b : BitVec 8) : (s.setDramByte a b).injs = s.injs := rfl
@[simp] theorem State.setDramByte_images (s : State) (a : Nat) (b : BitVec 8) : (s.setDramByte a b).images = s.images := rfl
@[simp] theorem State.setDramByte_health (s : State) (a : Nat) (b : BitVec 8) : (s.setDramByte a b).health = s.health := rfl
@[simp] theorem State.setDramByte_runs (s : State) (a : Nat) (b : BitVec 8) : (s.setDramByte a b).runs = s.runs := rfl
@[simp] theorem State.setDramByte_mengs (s : State) (a : Nat) (b : BitVec 8) : (s.setDramByte a b).mengs = s.mengs := rfl
@[simp] theorem State.setDramByte_sense (s : State) (a : Nat) (b : BitVec 8) : (s.setDramByte a b).sense = s.sense := rfl
@[simp] theorem State.setDramByte_fs (s : State) (a : Nat) (b : BitVec 8) : (s.setDramByte a b).fs = s.fs := rfl
@[simp] theorem State.setDramByte_cores (s : State) (a : Nat) (b : BitVec 8) : (s.setDramByte a b).cores = s.cores := rfl
@[simp] theorem State.setDramByte_bists (s : State) (a : Nat) (b : BitVec 8) : (s.setDramByte a b).bists = s.bists := rfl
@[simp] theorem State.setDramByte_jtag (s : State) (a : Nat) (b : BitVec 8) : (s.setDramByte a b).jtag = s.jtag := rfl
@[simp] theorem State.setDramByte_diags (s : State) (a : Nat) (b : BitVec 8) : (s.setDramByte a b).diags = s.diags := rfl
@[simp] theorem State.setDramByte_rings (s : State) (a : Nat) (b : BitVec 8) : (s.setDramByte a b).rings = s.rings := rfl
@[simp] theorem State.setDramByte_svc (s : State) (a : Nat) (b : BitVec 8) : (s.setDramByte a b).svc = s.svc := rfl
@[simp] theorem State.setDramByte_col (s : State) (a : Nat) (b : BitVec 8) : (s.setDramByte a b).col = s.col := rfl
@[simp] theorem State.setDramByte_tal (s : State) (a : Nat) (b : BitVec 8) : (s.setDramByte a b).tal = s.tal := rfl
@[simp] theorem State.setDramByte_sec (s : State) (a : Nat) (b : BitVec 8) : (s.setDramByte a b).sec = s.sec := rfl
@[simp] theorem State.setDramByte_attest (s : State) (a : Nat) (b : BitVec 8) : (s.setDramByte a b).attest = s.attest := rfl
@[simp] theorem State.setDramByte_host (s : State) (a : Nat) (b : BitVec 8) : (s.setDramByte a b).host = s.host := rfl
@[simp] theorem State.setDramByte_stn (s : State) (a : Nat) (b : BitVec 8) : (s.setDramByte a b).stn = s.stn := rfl
@[simp] theorem State.setDramByte_nv (s : State) (a : Nat) (b : BitVec 8) : (s.setDramByte a b).nv = s.nv := rfl
@[simp] theorem State.setDramByte_free (s : State) (a : Nat) (b : BitVec 8) : (s.setDramByte a b).free = s.free := rfl
@[simp] theorem State.setDramByte_at_reg (s : State) (a : Nat) (b : BitVec 8) (j : Nat) : (s.setDramByte a b).reg j = s.reg j := rfl
@[simp] theorem State.setDramByte_at_wideAt (s : State) (a : Nat) (b : BitVec 8) (j : Nat) : (s.setDramByte a b).wideAt j = s.wideAt j := rfl
@[simp] theorem State.setDramByte_at_port (s : State) (a : Nat) (b : BitVec 8) (j : Nat) : (s.setDramByte a b).port j = s.port j := rfl
@[simp] theorem State.setDramByte_at_out (s : State) (a : Nat) (b : BitVec 8) (j : Nat) : (s.setDramByte a b).out j = s.out j := rfl
@[simp] theorem State.setDramByte_at_chan (s : State) (a : Nat) (b : BitVec 8) (j : Nat) : (s.setDramByte a b).chan j = s.chan j := rfl
@[simp] theorem State.setDramByte_at_term (s : State) (a : Nat) (b : BitVec 8) (j : Nat) : (s.setDramByte a b).term j = s.term j := rfl
@[simp] theorem State.setDramByte_at_fold (s : State) (a : Nat) (b : BitVec 8) (j : Nat) : (s.setDramByte a b).fold j = s.fold j := rfl
@[simp] theorem State.setDramByte_at_bind (s : State) (a : Nat) (b : BitVec 8) (j : Nat) : (s.setDramByte a b).bind j = s.bind j := rfl
@[simp] theorem State.setDramByte_at_gate (s : State) (a : Nat) (b : BitVec 8) (j : Nat) : (s.setDramByte a b).gate j = s.gate j := rfl
@[simp] theorem State.setDramByte_at_timer (s : State) (a : Nat) (b : BitVec 8) (j : Nat) : (s.setDramByte a b).timer j = s.timer j := rfl
@[simp] theorem State.setDramByte_at_trip (s : State) (a : Nat) (b : BitVec 8) (j : Nat) : (s.setDramByte a b).trip j = s.trip j := rfl
@[simp] theorem State.setDramByte_at_ring (s : State) (a : Nat) (b : BitVec 8) (j : Nat) : (s.setDramByte a b).ring j = s.ring j := rfl
@[simp] theorem State.setDramByte_at_inj (s : State) (a : Nat) (b : BitVec 8) (j : Nat) : (s.setDramByte a b).inj j = s.inj j := rfl
@[simp] theorem State.setDramByte_at_cap (s : State) (a : Nat) (b : BitVec 8) (j : Nat) : (s.setDramByte a b).cap j = s.cap j := rfl
@[simp] theorem State.setDramByte_at_motor (s : State) (a : Nat) (b : BitVec 8) (j : Nat) : (s.setDramByte a b).motor j = s.motor j := rfl
@[simp] theorem State.setDramByte_at_hlt (s : State) (a : Nat) (b : BitVec 8) (j : Nat) : (s.setDramByte a b).hlt j = s.hlt j := rfl
@[simp] theorem State.setDramByte_at_run (s : State) (a : Nat) (b : BitVec 8) (j : Nat) : (s.setDramByte a b).run j = s.run j := rfl
@[simp] theorem State.setDramByte_at_meng (s : State) (a : Nat) (b : BitVec 8) (j : Nat) : (s.setDramByte a b).meng j = s.meng j := rfl
@[simp] theorem State.setDramByte_at_sns (s : State) (a : Nat) (b : BitVec 8) (j : Nat) : (s.setDramByte a b).sns j = s.sns j := rfl
@[simp] theorem State.setDramByte_at_image (s : State) (a : Nat) (b : BitVec 8) (j : Nat) : (s.setDramByte a b).image j = s.image j := rfl
@[simp] theorem State.setDramByte_at_fsPair (s : State) (a : Nat) (b : BitVec 8) (j : Nat) : (s.setDramByte a b).fsPair j = s.fsPair j := rfl
@[simp] theorem State.setDramByte_at_core (s : State) (a : Nat) (b : BitVec 8) (j : Nat) : (s.setDramByte a b).core j = s.core j := rfl
@[simp] theorem State.setDramByte_at_bist (s : State) (a : Nat) (b : BitVec 8) (j : Nat) : (s.setDramByte a b).bist j = s.bist j := rfl
@[simp] theorem State.setDramByte_at_diag (s : State) (a : Nat) (b : BitVec 8) (j : Nat) : (s.setDramByte a b).diag j = s.diag j := rfl

@[simp] theorem State.setWsByte_pending (s : State) (ch off : Nat) (b : BitVec 8) : (s.setWsByte ch off b).pending = s.pending := rfl
@[simp] theorem State.setWsByte_regs (s : State) (ch off : Nat) (b : BitVec 8) : (s.setWsByte ch off b).regs = s.regs := rfl
@[simp] theorem State.setWsByte_wide (s : State) (ch off : Nat) (b : BitVec 8) : (s.setWsByte ch off b).wide = s.wide := rfl
@[simp] theorem State.setWsByte_hiLatch (s : State) (ch off : Nat) (b : BitVec 8) : (s.setWsByte ch off b).hiLatch = s.hiLatch := rfl
@[simp] theorem State.setWsByte_gens (s : State) (ch off : Nat) (b : BitVec 8) : (s.setWsByte ch off b).gens = s.gens := rfl
@[simp] theorem State.setWsByte_dram (s : State) (ch off : Nat) (b : BitVec 8) : (s.setWsByte ch off b).dram = s.dram := rfl
@[simp] theorem State.setWsByte_dom (s : State) (ch off : Nat) (b : BitVec 8) : (s.setWsByte ch off b).dom = s.dom := rfl
@[simp] theorem State.setWsByte_boot (s : State) (ch off : Nat) (b : BitVec 8) : (s.setWsByte ch off b).boot = s.boot := rfl
@[simp] theorem State.setWsByte_amb (s : State) (ch off : Nat) (b : BitVec 8) : (s.setWsByte ch off b).amb = s.amb := rfl
@[simp] theorem State.setWsByte_ports (s : State) (ch off : Nat) (b : BitVec 8) : (s.setWsByte ch off b).ports = s.ports := rfl
@[simp] theorem State.setWsByte_outs (s : State) (ch off : Nat) (b : BitVec 8) : (s.setWsByte ch off b).outs = s.outs := rfl
@[simp] theorem State.setWsByte_bell (s : State) (ch off : Nat) (b : BitVec 8) : (s.setWsByte ch off b).bell = s.bell := rfl
@[simp] theorem State.setWsByte_chans (s : State) (ch off : Nat) (b : BitVec 8) : (s.setWsByte ch off b).chans = s.chans := rfl
@[simp] theorem State.setWsByte_terms (s : State) (ch off : Nat) (b : BitVec 8) : (s.setWsByte ch off b).terms = s.terms := rfl
@[simp] theorem State.setWsByte_folds (s : State) (ch off : Nat) (b : BitVec 8) : (s.setWsByte ch off b).folds = s.folds := rfl
@[simp] theorem State.setWsByte_binds (s : State) (ch off : Nat) (b : BitVec 8) : (s.setWsByte ch off b).binds = s.binds := rfl
@[simp] theorem State.setWsByte_gates (s : State) (ch off : Nat) (b : BitVec 8) : (s.setWsByte ch off b).gates = s.gates := rfl
@[simp] theorem State.setWsByte_timers (s : State) (ch off : Nat) (b : BitVec 8) : (s.setWsByte ch off b).timers = s.timers := rfl
@[simp] theorem State.setWsByte_trips (s : State) (ch off : Nat) (b : BitVec 8) : (s.setWsByte ch off b).trips = s.trips := rfl
@[simp] theorem State.setWsByte_motors (s : State) (ch off : Nat) (b : BitVec 8) : (s.setWsByte ch off b).motors = s.motors := rfl
@[simp] theorem State.setWsByte_caps (s : State) (ch off : Nat) (b : BitVec 8) : (s.setWsByte ch off b).caps = s.caps := rfl
@[simp] theorem State.setWsByte_injs (s : State) (ch off : Nat) (b : BitVec 8) : (s.setWsByte ch off b).injs = s.injs := rfl
@[simp] theorem State.setWsByte_images (s : State) (ch off : Nat) (b : BitVec 8) : (s.setWsByte ch off b).images = s.images := rfl
@[simp] theorem State.setWsByte_health (s : State) (ch off : Nat) (b : BitVec 8) : (s.setWsByte ch off b).health = s.health := rfl
@[simp] theorem State.setWsByte_runs (s : State) (ch off : Nat) (b : BitVec 8) : (s.setWsByte ch off b).runs = s.runs := rfl
@[simp] theorem State.setWsByte_mengs (s : State) (ch off : Nat) (b : BitVec 8) : (s.setWsByte ch off b).mengs = s.mengs := rfl
@[simp] theorem State.setWsByte_sense (s : State) (ch off : Nat) (b : BitVec 8) : (s.setWsByte ch off b).sense = s.sense := rfl
@[simp] theorem State.setWsByte_fs (s : State) (ch off : Nat) (b : BitVec 8) : (s.setWsByte ch off b).fs = s.fs := rfl
@[simp] theorem State.setWsByte_cores (s : State) (ch off : Nat) (b : BitVec 8) : (s.setWsByte ch off b).cores = s.cores := rfl
@[simp] theorem State.setWsByte_bists (s : State) (ch off : Nat) (b : BitVec 8) : (s.setWsByte ch off b).bists = s.bists := rfl
@[simp] theorem State.setWsByte_jtag (s : State) (ch off : Nat) (b : BitVec 8) : (s.setWsByte ch off b).jtag = s.jtag := rfl
@[simp] theorem State.setWsByte_diags (s : State) (ch off : Nat) (b : BitVec 8) : (s.setWsByte ch off b).diags = s.diags := rfl
@[simp] theorem State.setWsByte_rings (s : State) (ch off : Nat) (b : BitVec 8) : (s.setWsByte ch off b).rings = s.rings := rfl
@[simp] theorem State.setWsByte_svc (s : State) (ch off : Nat) (b : BitVec 8) : (s.setWsByte ch off b).svc = s.svc := rfl
@[simp] theorem State.setWsByte_col (s : State) (ch off : Nat) (b : BitVec 8) : (s.setWsByte ch off b).col = s.col := rfl
@[simp] theorem State.setWsByte_tal (s : State) (ch off : Nat) (b : BitVec 8) : (s.setWsByte ch off b).tal = s.tal := rfl
@[simp] theorem State.setWsByte_sec (s : State) (ch off : Nat) (b : BitVec 8) : (s.setWsByte ch off b).sec = s.sec := rfl
@[simp] theorem State.setWsByte_attest (s : State) (ch off : Nat) (b : BitVec 8) : (s.setWsByte ch off b).attest = s.attest := rfl
@[simp] theorem State.setWsByte_host (s : State) (ch off : Nat) (b : BitVec 8) : (s.setWsByte ch off b).host = s.host := rfl
@[simp] theorem State.setWsByte_stn (s : State) (ch off : Nat) (b : BitVec 8) : (s.setWsByte ch off b).stn = s.stn := rfl
@[simp] theorem State.setWsByte_nv (s : State) (ch off : Nat) (b : BitVec 8) : (s.setWsByte ch off b).nv = s.nv := rfl
@[simp] theorem State.setWsByte_free (s : State) (ch off : Nat) (b : BitVec 8) : (s.setWsByte ch off b).free = s.free := rfl
@[simp] theorem State.setWsByte_at_reg (s : State) (ch off : Nat) (b : BitVec 8) (j : Nat) : (s.setWsByte ch off b).reg j = s.reg j := rfl
@[simp] theorem State.setWsByte_at_wideAt (s : State) (ch off : Nat) (b : BitVec 8) (j : Nat) : (s.setWsByte ch off b).wideAt j = s.wideAt j := rfl
@[simp] theorem State.setWsByte_at_port (s : State) (ch off : Nat) (b : BitVec 8) (j : Nat) : (s.setWsByte ch off b).port j = s.port j := rfl
@[simp] theorem State.setWsByte_at_out (s : State) (ch off : Nat) (b : BitVec 8) (j : Nat) : (s.setWsByte ch off b).out j = s.out j := rfl
@[simp] theorem State.setWsByte_at_chan (s : State) (ch off : Nat) (b : BitVec 8) (j : Nat) : (s.setWsByte ch off b).chan j = s.chan j := rfl
@[simp] theorem State.setWsByte_at_term (s : State) (ch off : Nat) (b : BitVec 8) (j : Nat) : (s.setWsByte ch off b).term j = s.term j := rfl
@[simp] theorem State.setWsByte_at_fold (s : State) (ch off : Nat) (b : BitVec 8) (j : Nat) : (s.setWsByte ch off b).fold j = s.fold j := rfl
@[simp] theorem State.setWsByte_at_bind (s : State) (ch off : Nat) (b : BitVec 8) (j : Nat) : (s.setWsByte ch off b).bind j = s.bind j := rfl
@[simp] theorem State.setWsByte_at_gate (s : State) (ch off : Nat) (b : BitVec 8) (j : Nat) : (s.setWsByte ch off b).gate j = s.gate j := rfl
@[simp] theorem State.setWsByte_at_timer (s : State) (ch off : Nat) (b : BitVec 8) (j : Nat) : (s.setWsByte ch off b).timer j = s.timer j := rfl
@[simp] theorem State.setWsByte_at_trip (s : State) (ch off : Nat) (b : BitVec 8) (j : Nat) : (s.setWsByte ch off b).trip j = s.trip j := rfl
@[simp] theorem State.setWsByte_at_ring (s : State) (ch off : Nat) (b : BitVec 8) (j : Nat) : (s.setWsByte ch off b).ring j = s.ring j := rfl
@[simp] theorem State.setWsByte_at_inj (s : State) (ch off : Nat) (b : BitVec 8) (j : Nat) : (s.setWsByte ch off b).inj j = s.inj j := rfl
@[simp] theorem State.setWsByte_at_cap (s : State) (ch off : Nat) (b : BitVec 8) (j : Nat) : (s.setWsByte ch off b).cap j = s.cap j := rfl
@[simp] theorem State.setWsByte_at_motor (s : State) (ch off : Nat) (b : BitVec 8) (j : Nat) : (s.setWsByte ch off b).motor j = s.motor j := rfl
@[simp] theorem State.setWsByte_at_hlt (s : State) (ch off : Nat) (b : BitVec 8) (j : Nat) : (s.setWsByte ch off b).hlt j = s.hlt j := rfl
@[simp] theorem State.setWsByte_at_run (s : State) (ch off : Nat) (b : BitVec 8) (j : Nat) : (s.setWsByte ch off b).run j = s.run j := rfl
@[simp] theorem State.setWsByte_at_meng (s : State) (ch off : Nat) (b : BitVec 8) (j : Nat) : (s.setWsByte ch off b).meng j = s.meng j := rfl
@[simp] theorem State.setWsByte_at_sns (s : State) (ch off : Nat) (b : BitVec 8) (j : Nat) : (s.setWsByte ch off b).sns j = s.sns j := rfl
@[simp] theorem State.setWsByte_at_image (s : State) (ch off : Nat) (b : BitVec 8) (j : Nat) : (s.setWsByte ch off b).image j = s.image j := rfl
@[simp] theorem State.setWsByte_at_fsPair (s : State) (ch off : Nat) (b : BitVec 8) (j : Nat) : (s.setWsByte ch off b).fsPair j = s.fsPair j := rfl
@[simp] theorem State.setWsByte_at_core (s : State) (ch off : Nat) (b : BitVec 8) (j : Nat) : (s.setWsByte ch off b).core j = s.core j := rfl
@[simp] theorem State.setWsByte_at_bist (s : State) (ch off : Nat) (b : BitVec 8) (j : Nat) : (s.setWsByte ch off b).bist j = s.bist j := rfl
@[simp] theorem State.setWsByte_at_dramByte (s : State) (ch off : Nat) (b : BitVec 8) (j : Nat) : (s.setWsByte ch off b).dramByte j = s.dramByte j := rfl
@[simp] theorem State.setWsByte_at_diag (s : State) (ch off : Nat) (b : BitVec 8) (j : Nat) : (s.setWsByte ch off b).diag j = s.diag j := rfl

@[simp] theorem State.zeroWs_pending (s : State) (ch : Nat) : (s.zeroWs ch).pending = s.pending := rfl
@[simp] theorem State.zeroWs_regs (s : State) (ch : Nat) : (s.zeroWs ch).regs = s.regs := rfl
@[simp] theorem State.zeroWs_wide (s : State) (ch : Nat) : (s.zeroWs ch).wide = s.wide := rfl
@[simp] theorem State.zeroWs_hiLatch (s : State) (ch : Nat) : (s.zeroWs ch).hiLatch = s.hiLatch := rfl
@[simp] theorem State.zeroWs_gens (s : State) (ch : Nat) : (s.zeroWs ch).gens = s.gens := rfl
@[simp] theorem State.zeroWs_dram (s : State) (ch : Nat) : (s.zeroWs ch).dram = s.dram := rfl
@[simp] theorem State.zeroWs_dom (s : State) (ch : Nat) : (s.zeroWs ch).dom = s.dom := rfl
@[simp] theorem State.zeroWs_boot (s : State) (ch : Nat) : (s.zeroWs ch).boot = s.boot := rfl
@[simp] theorem State.zeroWs_amb (s : State) (ch : Nat) : (s.zeroWs ch).amb = s.amb := rfl
@[simp] theorem State.zeroWs_ports (s : State) (ch : Nat) : (s.zeroWs ch).ports = s.ports := rfl
@[simp] theorem State.zeroWs_outs (s : State) (ch : Nat) : (s.zeroWs ch).outs = s.outs := rfl
@[simp] theorem State.zeroWs_bell (s : State) (ch : Nat) : (s.zeroWs ch).bell = s.bell := rfl
@[simp] theorem State.zeroWs_chans (s : State) (ch : Nat) : (s.zeroWs ch).chans = s.chans := rfl
@[simp] theorem State.zeroWs_terms (s : State) (ch : Nat) : (s.zeroWs ch).terms = s.terms := rfl
@[simp] theorem State.zeroWs_folds (s : State) (ch : Nat) : (s.zeroWs ch).folds = s.folds := rfl
@[simp] theorem State.zeroWs_binds (s : State) (ch : Nat) : (s.zeroWs ch).binds = s.binds := rfl
@[simp] theorem State.zeroWs_gates (s : State) (ch : Nat) : (s.zeroWs ch).gates = s.gates := rfl
@[simp] theorem State.zeroWs_timers (s : State) (ch : Nat) : (s.zeroWs ch).timers = s.timers := rfl
@[simp] theorem State.zeroWs_trips (s : State) (ch : Nat) : (s.zeroWs ch).trips = s.trips := rfl
@[simp] theorem State.zeroWs_motors (s : State) (ch : Nat) : (s.zeroWs ch).motors = s.motors := rfl
@[simp] theorem State.zeroWs_caps (s : State) (ch : Nat) : (s.zeroWs ch).caps = s.caps := rfl
@[simp] theorem State.zeroWs_injs (s : State) (ch : Nat) : (s.zeroWs ch).injs = s.injs := rfl
@[simp] theorem State.zeroWs_images (s : State) (ch : Nat) : (s.zeroWs ch).images = s.images := rfl
@[simp] theorem State.zeroWs_health (s : State) (ch : Nat) : (s.zeroWs ch).health = s.health := rfl
@[simp] theorem State.zeroWs_runs (s : State) (ch : Nat) : (s.zeroWs ch).runs = s.runs := rfl
@[simp] theorem State.zeroWs_mengs (s : State) (ch : Nat) : (s.zeroWs ch).mengs = s.mengs := rfl
@[simp] theorem State.zeroWs_sense (s : State) (ch : Nat) : (s.zeroWs ch).sense = s.sense := rfl
@[simp] theorem State.zeroWs_fs (s : State) (ch : Nat) : (s.zeroWs ch).fs = s.fs := rfl
@[simp] theorem State.zeroWs_cores (s : State) (ch : Nat) : (s.zeroWs ch).cores = s.cores := rfl
@[simp] theorem State.zeroWs_bists (s : State) (ch : Nat) : (s.zeroWs ch).bists = s.bists := rfl
@[simp] theorem State.zeroWs_jtag (s : State) (ch : Nat) : (s.zeroWs ch).jtag = s.jtag := rfl
@[simp] theorem State.zeroWs_diags (s : State) (ch : Nat) : (s.zeroWs ch).diags = s.diags := rfl
@[simp] theorem State.zeroWs_rings (s : State) (ch : Nat) : (s.zeroWs ch).rings = s.rings := rfl
@[simp] theorem State.zeroWs_svc (s : State) (ch : Nat) : (s.zeroWs ch).svc = s.svc := rfl
@[simp] theorem State.zeroWs_col (s : State) (ch : Nat) : (s.zeroWs ch).col = s.col := rfl
@[simp] theorem State.zeroWs_tal (s : State) (ch : Nat) : (s.zeroWs ch).tal = s.tal := rfl
@[simp] theorem State.zeroWs_sec (s : State) (ch : Nat) : (s.zeroWs ch).sec = s.sec := rfl
@[simp] theorem State.zeroWs_attest (s : State) (ch : Nat) : (s.zeroWs ch).attest = s.attest := rfl
@[simp] theorem State.zeroWs_host (s : State) (ch : Nat) : (s.zeroWs ch).host = s.host := rfl
@[simp] theorem State.zeroWs_stn (s : State) (ch : Nat) : (s.zeroWs ch).stn = s.stn := rfl
@[simp] theorem State.zeroWs_nv (s : State) (ch : Nat) : (s.zeroWs ch).nv = s.nv := rfl
@[simp] theorem State.zeroWs_free (s : State) (ch : Nat) : (s.zeroWs ch).free = s.free := rfl
@[simp] theorem State.zeroWs_at_reg (s : State) (ch : Nat) (j : Nat) : (s.zeroWs ch).reg j = s.reg j := rfl
@[simp] theorem State.zeroWs_at_wideAt (s : State) (ch : Nat) (j : Nat) : (s.zeroWs ch).wideAt j = s.wideAt j := rfl
@[simp] theorem State.zeroWs_at_port (s : State) (ch : Nat) (j : Nat) : (s.zeroWs ch).port j = s.port j := rfl
@[simp] theorem State.zeroWs_at_out (s : State) (ch : Nat) (j : Nat) : (s.zeroWs ch).out j = s.out j := rfl
@[simp] theorem State.zeroWs_at_chan (s : State) (ch : Nat) (j : Nat) : (s.zeroWs ch).chan j = s.chan j := rfl
@[simp] theorem State.zeroWs_at_term (s : State) (ch : Nat) (j : Nat) : (s.zeroWs ch).term j = s.term j := rfl
@[simp] theorem State.zeroWs_at_fold (s : State) (ch : Nat) (j : Nat) : (s.zeroWs ch).fold j = s.fold j := rfl
@[simp] theorem State.zeroWs_at_bind (s : State) (ch : Nat) (j : Nat) : (s.zeroWs ch).bind j = s.bind j := rfl
@[simp] theorem State.zeroWs_at_gate (s : State) (ch : Nat) (j : Nat) : (s.zeroWs ch).gate j = s.gate j := rfl
@[simp] theorem State.zeroWs_at_timer (s : State) (ch : Nat) (j : Nat) : (s.zeroWs ch).timer j = s.timer j := rfl
@[simp] theorem State.zeroWs_at_trip (s : State) (ch : Nat) (j : Nat) : (s.zeroWs ch).trip j = s.trip j := rfl
@[simp] theorem State.zeroWs_at_ring (s : State) (ch : Nat) (j : Nat) : (s.zeroWs ch).ring j = s.ring j := rfl
@[simp] theorem State.zeroWs_at_inj (s : State) (ch : Nat) (j : Nat) : (s.zeroWs ch).inj j = s.inj j := rfl
@[simp] theorem State.zeroWs_at_cap (s : State) (ch : Nat) (j : Nat) : (s.zeroWs ch).cap j = s.cap j := rfl
@[simp] theorem State.zeroWs_at_motor (s : State) (ch : Nat) (j : Nat) : (s.zeroWs ch).motor j = s.motor j := rfl
@[simp] theorem State.zeroWs_at_hlt (s : State) (ch : Nat) (j : Nat) : (s.zeroWs ch).hlt j = s.hlt j := rfl
@[simp] theorem State.zeroWs_at_run (s : State) (ch : Nat) (j : Nat) : (s.zeroWs ch).run j = s.run j := rfl
@[simp] theorem State.zeroWs_at_meng (s : State) (ch : Nat) (j : Nat) : (s.zeroWs ch).meng j = s.meng j := rfl
@[simp] theorem State.zeroWs_at_sns (s : State) (ch : Nat) (j : Nat) : (s.zeroWs ch).sns j = s.sns j := rfl
@[simp] theorem State.zeroWs_at_image (s : State) (ch : Nat) (j : Nat) : (s.zeroWs ch).image j = s.image j := rfl
@[simp] theorem State.zeroWs_at_fsPair (s : State) (ch : Nat) (j : Nat) : (s.zeroWs ch).fsPair j = s.fsPair j := rfl
@[simp] theorem State.zeroWs_at_core (s : State) (ch : Nat) (j : Nat) : (s.zeroWs ch).core j = s.core j := rfl
@[simp] theorem State.zeroWs_at_bist (s : State) (ch : Nat) (j : Nat) : (s.zeroWs ch).bist j = s.bist j := rfl
@[simp] theorem State.zeroWs_at_dramByte (s : State) (ch : Nat) (j : Nat) : (s.zeroWs ch).dramByte j = s.dramByte j := rfl
@[simp] theorem State.zeroWs_at_diag (s : State) (ch : Nat) (j : Nat) : (s.zeroWs ch).diag j = s.diag j := rfl

@[simp] theorem State.setDom_pending (s : State) (d : Nat) (on : Bool) : (s.setDom d on).pending = s.pending := rfl
@[simp] theorem State.setDom_regs (s : State) (d : Nat) (on : Bool) : (s.setDom d on).regs = s.regs := rfl
@[simp] theorem State.setDom_wide (s : State) (d : Nat) (on : Bool) : (s.setDom d on).wide = s.wide := rfl
@[simp] theorem State.setDom_hiLatch (s : State) (d : Nat) (on : Bool) : (s.setDom d on).hiLatch = s.hiLatch := rfl
@[simp] theorem State.setDom_gens (s : State) (d : Nat) (on : Bool) : (s.setDom d on).gens = s.gens := rfl
@[simp] theorem State.setDom_ws (s : State) (d : Nat) (on : Bool) : (s.setDom d on).ws = s.ws := rfl
@[simp] theorem State.setDom_dram (s : State) (d : Nat) (on : Bool) : (s.setDom d on).dram = s.dram := rfl
@[simp] theorem State.setDom_boot (s : State) (d : Nat) (on : Bool) : (s.setDom d on).boot = s.boot := rfl
@[simp] theorem State.setDom_amb (s : State) (d : Nat) (on : Bool) : (s.setDom d on).amb = s.amb := rfl
@[simp] theorem State.setDom_ports (s : State) (d : Nat) (on : Bool) : (s.setDom d on).ports = s.ports := rfl
@[simp] theorem State.setDom_outs (s : State) (d : Nat) (on : Bool) : (s.setDom d on).outs = s.outs := rfl
@[simp] theorem State.setDom_bell (s : State) (d : Nat) (on : Bool) : (s.setDom d on).bell = s.bell := rfl
@[simp] theorem State.setDom_chans (s : State) (d : Nat) (on : Bool) : (s.setDom d on).chans = s.chans := rfl
@[simp] theorem State.setDom_terms (s : State) (d : Nat) (on : Bool) : (s.setDom d on).terms = s.terms := rfl
@[simp] theorem State.setDom_folds (s : State) (d : Nat) (on : Bool) : (s.setDom d on).folds = s.folds := rfl
@[simp] theorem State.setDom_binds (s : State) (d : Nat) (on : Bool) : (s.setDom d on).binds = s.binds := rfl
@[simp] theorem State.setDom_gates (s : State) (d : Nat) (on : Bool) : (s.setDom d on).gates = s.gates := rfl
@[simp] theorem State.setDom_timers (s : State) (d : Nat) (on : Bool) : (s.setDom d on).timers = s.timers := rfl
@[simp] theorem State.setDom_trips (s : State) (d : Nat) (on : Bool) : (s.setDom d on).trips = s.trips := rfl
@[simp] theorem State.setDom_motors (s : State) (d : Nat) (on : Bool) : (s.setDom d on).motors = s.motors := rfl
@[simp] theorem State.setDom_caps (s : State) (d : Nat) (on : Bool) : (s.setDom d on).caps = s.caps := rfl
@[simp] theorem State.setDom_injs (s : State) (d : Nat) (on : Bool) : (s.setDom d on).injs = s.injs := rfl
@[simp] theorem State.setDom_images (s : State) (d : Nat) (on : Bool) : (s.setDom d on).images = s.images := rfl
@[simp] theorem State.setDom_health (s : State) (d : Nat) (on : Bool) : (s.setDom d on).health = s.health := rfl
@[simp] theorem State.setDom_runs (s : State) (d : Nat) (on : Bool) : (s.setDom d on).runs = s.runs := rfl
@[simp] theorem State.setDom_mengs (s : State) (d : Nat) (on : Bool) : (s.setDom d on).mengs = s.mengs := rfl
@[simp] theorem State.setDom_sense (s : State) (d : Nat) (on : Bool) : (s.setDom d on).sense = s.sense := rfl
@[simp] theorem State.setDom_fs (s : State) (d : Nat) (on : Bool) : (s.setDom d on).fs = s.fs := rfl
@[simp] theorem State.setDom_cores (s : State) (d : Nat) (on : Bool) : (s.setDom d on).cores = s.cores := rfl
@[simp] theorem State.setDom_bists (s : State) (d : Nat) (on : Bool) : (s.setDom d on).bists = s.bists := rfl
@[simp] theorem State.setDom_jtag (s : State) (d : Nat) (on : Bool) : (s.setDom d on).jtag = s.jtag := rfl
@[simp] theorem State.setDom_diags (s : State) (d : Nat) (on : Bool) : (s.setDom d on).diags = s.diags := rfl
@[simp] theorem State.setDom_rings (s : State) (d : Nat) (on : Bool) : (s.setDom d on).rings = s.rings := rfl
@[simp] theorem State.setDom_svc (s : State) (d : Nat) (on : Bool) : (s.setDom d on).svc = s.svc := rfl
@[simp] theorem State.setDom_col (s : State) (d : Nat) (on : Bool) : (s.setDom d on).col = s.col := rfl
@[simp] theorem State.setDom_tal (s : State) (d : Nat) (on : Bool) : (s.setDom d on).tal = s.tal := rfl
@[simp] theorem State.setDom_sec (s : State) (d : Nat) (on : Bool) : (s.setDom d on).sec = s.sec := rfl
@[simp] theorem State.setDom_attest (s : State) (d : Nat) (on : Bool) : (s.setDom d on).attest = s.attest := rfl
@[simp] theorem State.setDom_host (s : State) (d : Nat) (on : Bool) : (s.setDom d on).host = s.host := rfl
@[simp] theorem State.setDom_stn (s : State) (d : Nat) (on : Bool) : (s.setDom d on).stn = s.stn := rfl
@[simp] theorem State.setDom_nv (s : State) (d : Nat) (on : Bool) : (s.setDom d on).nv = s.nv := rfl
@[simp] theorem State.setDom_free (s : State) (d : Nat) (on : Bool) : (s.setDom d on).free = s.free := rfl
@[simp] theorem State.setDom_at_reg (s : State) (d : Nat) (on : Bool) (j : Nat) : (s.setDom d on).reg j = s.reg j := rfl
@[simp] theorem State.setDom_at_wideAt (s : State) (d : Nat) (on : Bool) (j : Nat) : (s.setDom d on).wideAt j = s.wideAt j := rfl
@[simp] theorem State.setDom_at_port (s : State) (d : Nat) (on : Bool) (j : Nat) : (s.setDom d on).port j = s.port j := rfl
@[simp] theorem State.setDom_at_out (s : State) (d : Nat) (on : Bool) (j : Nat) : (s.setDom d on).out j = s.out j := rfl
@[simp] theorem State.setDom_at_chan (s : State) (d : Nat) (on : Bool) (j : Nat) : (s.setDom d on).chan j = s.chan j := rfl
@[simp] theorem State.setDom_at_term (s : State) (d : Nat) (on : Bool) (j : Nat) : (s.setDom d on).term j = s.term j := rfl
@[simp] theorem State.setDom_at_fold (s : State) (d : Nat) (on : Bool) (j : Nat) : (s.setDom d on).fold j = s.fold j := rfl
@[simp] theorem State.setDom_at_bind (s : State) (d : Nat) (on : Bool) (j : Nat) : (s.setDom d on).bind j = s.bind j := rfl
@[simp] theorem State.setDom_at_gate (s : State) (d : Nat) (on : Bool) (j : Nat) : (s.setDom d on).gate j = s.gate j := rfl
@[simp] theorem State.setDom_at_timer (s : State) (d : Nat) (on : Bool) (j : Nat) : (s.setDom d on).timer j = s.timer j := rfl
@[simp] theorem State.setDom_at_trip (s : State) (d : Nat) (on : Bool) (j : Nat) : (s.setDom d on).trip j = s.trip j := rfl
@[simp] theorem State.setDom_at_ring (s : State) (d : Nat) (on : Bool) (j : Nat) : (s.setDom d on).ring j = s.ring j := rfl
@[simp] theorem State.setDom_at_inj (s : State) (d : Nat) (on : Bool) (j : Nat) : (s.setDom d on).inj j = s.inj j := rfl
@[simp] theorem State.setDom_at_cap (s : State) (d : Nat) (on : Bool) (j : Nat) : (s.setDom d on).cap j = s.cap j := rfl
@[simp] theorem State.setDom_at_motor (s : State) (d : Nat) (on : Bool) (j : Nat) : (s.setDom d on).motor j = s.motor j := rfl
@[simp] theorem State.setDom_at_hlt (s : State) (d : Nat) (on : Bool) (j : Nat) : (s.setDom d on).hlt j = s.hlt j := rfl
@[simp] theorem State.setDom_at_run (s : State) (d : Nat) (on : Bool) (j : Nat) : (s.setDom d on).run j = s.run j := rfl
@[simp] theorem State.setDom_at_meng (s : State) (d : Nat) (on : Bool) (j : Nat) : (s.setDom d on).meng j = s.meng j := rfl
@[simp] theorem State.setDom_at_sns (s : State) (d : Nat) (on : Bool) (j : Nat) : (s.setDom d on).sns j = s.sns j := rfl
@[simp] theorem State.setDom_at_image (s : State) (d : Nat) (on : Bool) (j : Nat) : (s.setDom d on).image j = s.image j := rfl
@[simp] theorem State.setDom_at_fsPair (s : State) (d : Nat) (on : Bool) (j : Nat) : (s.setDom d on).fsPair j = s.fsPair j := rfl
@[simp] theorem State.setDom_at_core (s : State) (d : Nat) (on : Bool) (j : Nat) : (s.setDom d on).core j = s.core j := rfl
@[simp] theorem State.setDom_at_bist (s : State) (d : Nat) (on : Bool) (j : Nat) : (s.setDom d on).bist j = s.bist j := rfl
@[simp] theorem State.setDom_at_dramByte (s : State) (d : Nat) (on : Bool) (j : Nat) : (s.setDom d on).dramByte j = s.dramByte j := rfl
@[simp] theorem State.setDom_at_diag (s : State) (d : Nat) (on : Bool) (j : Nat) : (s.setDom d on).diag j = s.diag j := rfl

@[simp] theorem State.advGen_pending (s : State) (ty i : Nat) : (s.advGen ty i).pending = s.pending := rfl
@[simp] theorem State.advGen_regs (s : State) (ty i : Nat) : (s.advGen ty i).regs = s.regs := rfl
@[simp] theorem State.advGen_wide (s : State) (ty i : Nat) : (s.advGen ty i).wide = s.wide := rfl
@[simp] theorem State.advGen_hiLatch (s : State) (ty i : Nat) : (s.advGen ty i).hiLatch = s.hiLatch := rfl
@[simp] theorem State.advGen_ws (s : State) (ty i : Nat) : (s.advGen ty i).ws = s.ws := rfl
@[simp] theorem State.advGen_dram (s : State) (ty i : Nat) : (s.advGen ty i).dram = s.dram := rfl
@[simp] theorem State.advGen_dom (s : State) (ty i : Nat) : (s.advGen ty i).dom = s.dom := rfl
@[simp] theorem State.advGen_boot (s : State) (ty i : Nat) : (s.advGen ty i).boot = s.boot := rfl
@[simp] theorem State.advGen_amb (s : State) (ty i : Nat) : (s.advGen ty i).amb = s.amb := rfl
@[simp] theorem State.advGen_ports (s : State) (ty i : Nat) : (s.advGen ty i).ports = s.ports := rfl
@[simp] theorem State.advGen_outs (s : State) (ty i : Nat) : (s.advGen ty i).outs = s.outs := rfl
@[simp] theorem State.advGen_bell (s : State) (ty i : Nat) : (s.advGen ty i).bell = s.bell := rfl
@[simp] theorem State.advGen_chans (s : State) (ty i : Nat) : (s.advGen ty i).chans = s.chans := rfl
@[simp] theorem State.advGen_terms (s : State) (ty i : Nat) : (s.advGen ty i).terms = s.terms := rfl
@[simp] theorem State.advGen_folds (s : State) (ty i : Nat) : (s.advGen ty i).folds = s.folds := rfl
@[simp] theorem State.advGen_binds (s : State) (ty i : Nat) : (s.advGen ty i).binds = s.binds := rfl
@[simp] theorem State.advGen_gates (s : State) (ty i : Nat) : (s.advGen ty i).gates = s.gates := rfl
@[simp] theorem State.advGen_timers (s : State) (ty i : Nat) : (s.advGen ty i).timers = s.timers := rfl
@[simp] theorem State.advGen_trips (s : State) (ty i : Nat) : (s.advGen ty i).trips = s.trips := rfl
@[simp] theorem State.advGen_motors (s : State) (ty i : Nat) : (s.advGen ty i).motors = s.motors := rfl
@[simp] theorem State.advGen_caps (s : State) (ty i : Nat) : (s.advGen ty i).caps = s.caps := rfl
@[simp] theorem State.advGen_injs (s : State) (ty i : Nat) : (s.advGen ty i).injs = s.injs := rfl
@[simp] theorem State.advGen_images (s : State) (ty i : Nat) : (s.advGen ty i).images = s.images := rfl
@[simp] theorem State.advGen_health (s : State) (ty i : Nat) : (s.advGen ty i).health = s.health := rfl
@[simp] theorem State.advGen_runs (s : State) (ty i : Nat) : (s.advGen ty i).runs = s.runs := rfl
@[simp] theorem State.advGen_mengs (s : State) (ty i : Nat) : (s.advGen ty i).mengs = s.mengs := rfl
@[simp] theorem State.advGen_sense (s : State) (ty i : Nat) : (s.advGen ty i).sense = s.sense := rfl
@[simp] theorem State.advGen_fs (s : State) (ty i : Nat) : (s.advGen ty i).fs = s.fs := rfl
@[simp] theorem State.advGen_cores (s : State) (ty i : Nat) : (s.advGen ty i).cores = s.cores := rfl
@[simp] theorem State.advGen_bists (s : State) (ty i : Nat) : (s.advGen ty i).bists = s.bists := rfl
@[simp] theorem State.advGen_jtag (s : State) (ty i : Nat) : (s.advGen ty i).jtag = s.jtag := rfl
@[simp] theorem State.advGen_diags (s : State) (ty i : Nat) : (s.advGen ty i).diags = s.diags := rfl
@[simp] theorem State.advGen_rings (s : State) (ty i : Nat) : (s.advGen ty i).rings = s.rings := rfl
@[simp] theorem State.advGen_svc (s : State) (ty i : Nat) : (s.advGen ty i).svc = s.svc := rfl
@[simp] theorem State.advGen_col (s : State) (ty i : Nat) : (s.advGen ty i).col = s.col := rfl
@[simp] theorem State.advGen_tal (s : State) (ty i : Nat) : (s.advGen ty i).tal = s.tal := rfl
@[simp] theorem State.advGen_sec (s : State) (ty i : Nat) : (s.advGen ty i).sec = s.sec := rfl
@[simp] theorem State.advGen_attest (s : State) (ty i : Nat) : (s.advGen ty i).attest = s.attest := rfl
@[simp] theorem State.advGen_host (s : State) (ty i : Nat) : (s.advGen ty i).host = s.host := rfl
@[simp] theorem State.advGen_stn (s : State) (ty i : Nat) : (s.advGen ty i).stn = s.stn := rfl
@[simp] theorem State.advGen_nv (s : State) (ty i : Nat) : (s.advGen ty i).nv = s.nv := rfl
@[simp] theorem State.advGen_free (s : State) (ty i : Nat) : (s.advGen ty i).free = s.free := rfl
@[simp] theorem State.advGen_at_reg (s : State) (ty i : Nat) (j : Nat) : (s.advGen ty i).reg j = s.reg j := rfl
@[simp] theorem State.advGen_at_wideAt (s : State) (ty i : Nat) (j : Nat) : (s.advGen ty i).wideAt j = s.wideAt j := rfl
@[simp] theorem State.advGen_at_port (s : State) (ty i : Nat) (j : Nat) : (s.advGen ty i).port j = s.port j := rfl
@[simp] theorem State.advGen_at_out (s : State) (ty i : Nat) (j : Nat) : (s.advGen ty i).out j = s.out j := rfl
@[simp] theorem State.advGen_at_chan (s : State) (ty i : Nat) (j : Nat) : (s.advGen ty i).chan j = s.chan j := rfl
@[simp] theorem State.advGen_at_term (s : State) (ty i : Nat) (j : Nat) : (s.advGen ty i).term j = s.term j := rfl
@[simp] theorem State.advGen_at_fold (s : State) (ty i : Nat) (j : Nat) : (s.advGen ty i).fold j = s.fold j := rfl
@[simp] theorem State.advGen_at_bind (s : State) (ty i : Nat) (j : Nat) : (s.advGen ty i).bind j = s.bind j := rfl
@[simp] theorem State.advGen_at_gate (s : State) (ty i : Nat) (j : Nat) : (s.advGen ty i).gate j = s.gate j := rfl
@[simp] theorem State.advGen_at_timer (s : State) (ty i : Nat) (j : Nat) : (s.advGen ty i).timer j = s.timer j := rfl
@[simp] theorem State.advGen_at_trip (s : State) (ty i : Nat) (j : Nat) : (s.advGen ty i).trip j = s.trip j := rfl
@[simp] theorem State.advGen_at_ring (s : State) (ty i : Nat) (j : Nat) : (s.advGen ty i).ring j = s.ring j := rfl
@[simp] theorem State.advGen_at_inj (s : State) (ty i : Nat) (j : Nat) : (s.advGen ty i).inj j = s.inj j := rfl
@[simp] theorem State.advGen_at_cap (s : State) (ty i : Nat) (j : Nat) : (s.advGen ty i).cap j = s.cap j := rfl
@[simp] theorem State.advGen_at_motor (s : State) (ty i : Nat) (j : Nat) : (s.advGen ty i).motor j = s.motor j := rfl
@[simp] theorem State.advGen_at_hlt (s : State) (ty i : Nat) (j : Nat) : (s.advGen ty i).hlt j = s.hlt j := rfl
@[simp] theorem State.advGen_at_run (s : State) (ty i : Nat) (j : Nat) : (s.advGen ty i).run j = s.run j := rfl
@[simp] theorem State.advGen_at_meng (s : State) (ty i : Nat) (j : Nat) : (s.advGen ty i).meng j = s.meng j := rfl
@[simp] theorem State.advGen_at_sns (s : State) (ty i : Nat) (j : Nat) : (s.advGen ty i).sns j = s.sns j := rfl
@[simp] theorem State.advGen_at_image (s : State) (ty i : Nat) (j : Nat) : (s.advGen ty i).image j = s.image j := rfl
@[simp] theorem State.advGen_at_fsPair (s : State) (ty i : Nat) (j : Nat) : (s.advGen ty i).fsPair j = s.fsPair j := rfl
@[simp] theorem State.advGen_at_core (s : State) (ty i : Nat) (j : Nat) : (s.advGen ty i).core j = s.core j := rfl
@[simp] theorem State.advGen_at_bist (s : State) (ty i : Nat) (j : Nat) : (s.advGen ty i).bist j = s.bist j := rfl
@[simp] theorem State.advGen_at_dramByte (s : State) (ty i : Nat) (j : Nat) : (s.advGen ty i).dramByte j = s.dramByte j := rfl
@[simp] theorem State.advGen_at_diag (s : State) (ty i : Nat) (j : Nat) : (s.advGen ty i).diag j = s.diag j := rfl

@[simp] theorem State.setDiag_pending (s : State) (d : Nat) (x : Diag) : (s.setDiag d x).pending = s.pending := rfl
@[simp] theorem State.setDiag_regs (s : State) (d : Nat) (x : Diag) : (s.setDiag d x).regs = s.regs := rfl
@[simp] theorem State.setDiag_wide (s : State) (d : Nat) (x : Diag) : (s.setDiag d x).wide = s.wide := rfl
@[simp] theorem State.setDiag_hiLatch (s : State) (d : Nat) (x : Diag) : (s.setDiag d x).hiLatch = s.hiLatch := rfl
@[simp] theorem State.setDiag_gens (s : State) (d : Nat) (x : Diag) : (s.setDiag d x).gens = s.gens := rfl
@[simp] theorem State.setDiag_ws (s : State) (d : Nat) (x : Diag) : (s.setDiag d x).ws = s.ws := rfl
@[simp] theorem State.setDiag_dram (s : State) (d : Nat) (x : Diag) : (s.setDiag d x).dram = s.dram := rfl
@[simp] theorem State.setDiag_dom (s : State) (d : Nat) (x : Diag) : (s.setDiag d x).dom = s.dom := rfl
@[simp] theorem State.setDiag_boot (s : State) (d : Nat) (x : Diag) : (s.setDiag d x).boot = s.boot := rfl
@[simp] theorem State.setDiag_amb (s : State) (d : Nat) (x : Diag) : (s.setDiag d x).amb = s.amb := rfl
@[simp] theorem State.setDiag_ports (s : State) (d : Nat) (x : Diag) : (s.setDiag d x).ports = s.ports := rfl
@[simp] theorem State.setDiag_outs (s : State) (d : Nat) (x : Diag) : (s.setDiag d x).outs = s.outs := rfl
@[simp] theorem State.setDiag_bell (s : State) (d : Nat) (x : Diag) : (s.setDiag d x).bell = s.bell := rfl
@[simp] theorem State.setDiag_chans (s : State) (d : Nat) (x : Diag) : (s.setDiag d x).chans = s.chans := rfl
@[simp] theorem State.setDiag_terms (s : State) (d : Nat) (x : Diag) : (s.setDiag d x).terms = s.terms := rfl
@[simp] theorem State.setDiag_folds (s : State) (d : Nat) (x : Diag) : (s.setDiag d x).folds = s.folds := rfl
@[simp] theorem State.setDiag_binds (s : State) (d : Nat) (x : Diag) : (s.setDiag d x).binds = s.binds := rfl
@[simp] theorem State.setDiag_gates (s : State) (d : Nat) (x : Diag) : (s.setDiag d x).gates = s.gates := rfl
@[simp] theorem State.setDiag_timers (s : State) (d : Nat) (x : Diag) : (s.setDiag d x).timers = s.timers := rfl
@[simp] theorem State.setDiag_trips (s : State) (d : Nat) (x : Diag) : (s.setDiag d x).trips = s.trips := rfl
@[simp] theorem State.setDiag_motors (s : State) (d : Nat) (x : Diag) : (s.setDiag d x).motors = s.motors := rfl
@[simp] theorem State.setDiag_caps (s : State) (d : Nat) (x : Diag) : (s.setDiag d x).caps = s.caps := rfl
@[simp] theorem State.setDiag_injs (s : State) (d : Nat) (x : Diag) : (s.setDiag d x).injs = s.injs := rfl
@[simp] theorem State.setDiag_images (s : State) (d : Nat) (x : Diag) : (s.setDiag d x).images = s.images := rfl
@[simp] theorem State.setDiag_health (s : State) (d : Nat) (x : Diag) : (s.setDiag d x).health = s.health := rfl
@[simp] theorem State.setDiag_runs (s : State) (d : Nat) (x : Diag) : (s.setDiag d x).runs = s.runs := rfl
@[simp] theorem State.setDiag_mengs (s : State) (d : Nat) (x : Diag) : (s.setDiag d x).mengs = s.mengs := rfl
@[simp] theorem State.setDiag_sense (s : State) (d : Nat) (x : Diag) : (s.setDiag d x).sense = s.sense := rfl
@[simp] theorem State.setDiag_fs (s : State) (d : Nat) (x : Diag) : (s.setDiag d x).fs = s.fs := rfl
@[simp] theorem State.setDiag_cores (s : State) (d : Nat) (x : Diag) : (s.setDiag d x).cores = s.cores := rfl
@[simp] theorem State.setDiag_bists (s : State) (d : Nat) (x : Diag) : (s.setDiag d x).bists = s.bists := rfl
@[simp] theorem State.setDiag_jtag (s : State) (d : Nat) (x : Diag) : (s.setDiag d x).jtag = s.jtag := rfl
@[simp] theorem State.setDiag_rings (s : State) (d : Nat) (x : Diag) : (s.setDiag d x).rings = s.rings := rfl
@[simp] theorem State.setDiag_svc (s : State) (d : Nat) (x : Diag) : (s.setDiag d x).svc = s.svc := rfl
@[simp] theorem State.setDiag_col (s : State) (d : Nat) (x : Diag) : (s.setDiag d x).col = s.col := rfl
@[simp] theorem State.setDiag_tal (s : State) (d : Nat) (x : Diag) : (s.setDiag d x).tal = s.tal := rfl
@[simp] theorem State.setDiag_sec (s : State) (d : Nat) (x : Diag) : (s.setDiag d x).sec = s.sec := rfl
@[simp] theorem State.setDiag_attest (s : State) (d : Nat) (x : Diag) : (s.setDiag d x).attest = s.attest := rfl
@[simp] theorem State.setDiag_host (s : State) (d : Nat) (x : Diag) : (s.setDiag d x).host = s.host := rfl
@[simp] theorem State.setDiag_stn (s : State) (d : Nat) (x : Diag) : (s.setDiag d x).stn = s.stn := rfl
@[simp] theorem State.setDiag_nv (s : State) (d : Nat) (x : Diag) : (s.setDiag d x).nv = s.nv := rfl
@[simp] theorem State.setDiag_free (s : State) (d : Nat) (x : Diag) : (s.setDiag d x).free = s.free := rfl
@[simp] theorem State.setDiag_at_reg (s : State) (d : Nat) (x : Diag) (j : Nat) : (s.setDiag d x).reg j = s.reg j := rfl
@[simp] theorem State.setDiag_at_wideAt (s : State) (d : Nat) (x : Diag) (j : Nat) : (s.setDiag d x).wideAt j = s.wideAt j := rfl
@[simp] theorem State.setDiag_at_port (s : State) (d : Nat) (x : Diag) (j : Nat) : (s.setDiag d x).port j = s.port j := rfl
@[simp] theorem State.setDiag_at_out (s : State) (d : Nat) (x : Diag) (j : Nat) : (s.setDiag d x).out j = s.out j := rfl
@[simp] theorem State.setDiag_at_chan (s : State) (d : Nat) (x : Diag) (j : Nat) : (s.setDiag d x).chan j = s.chan j := rfl
@[simp] theorem State.setDiag_at_term (s : State) (d : Nat) (x : Diag) (j : Nat) : (s.setDiag d x).term j = s.term j := rfl
@[simp] theorem State.setDiag_at_fold (s : State) (d : Nat) (x : Diag) (j : Nat) : (s.setDiag d x).fold j = s.fold j := rfl
@[simp] theorem State.setDiag_at_bind (s : State) (d : Nat) (x : Diag) (j : Nat) : (s.setDiag d x).bind j = s.bind j := rfl
@[simp] theorem State.setDiag_at_gate (s : State) (d : Nat) (x : Diag) (j : Nat) : (s.setDiag d x).gate j = s.gate j := rfl
@[simp] theorem State.setDiag_at_timer (s : State) (d : Nat) (x : Diag) (j : Nat) : (s.setDiag d x).timer j = s.timer j := rfl
@[simp] theorem State.setDiag_at_trip (s : State) (d : Nat) (x : Diag) (j : Nat) : (s.setDiag d x).trip j = s.trip j := rfl
@[simp] theorem State.setDiag_at_ring (s : State) (d : Nat) (x : Diag) (j : Nat) : (s.setDiag d x).ring j = s.ring j := rfl
@[simp] theorem State.setDiag_at_inj (s : State) (d : Nat) (x : Diag) (j : Nat) : (s.setDiag d x).inj j = s.inj j := rfl
@[simp] theorem State.setDiag_at_cap (s : State) (d : Nat) (x : Diag) (j : Nat) : (s.setDiag d x).cap j = s.cap j := rfl
@[simp] theorem State.setDiag_at_motor (s : State) (d : Nat) (x : Diag) (j : Nat) : (s.setDiag d x).motor j = s.motor j := rfl
@[simp] theorem State.setDiag_at_hlt (s : State) (d : Nat) (x : Diag) (j : Nat) : (s.setDiag d x).hlt j = s.hlt j := rfl
@[simp] theorem State.setDiag_at_run (s : State) (d : Nat) (x : Diag) (j : Nat) : (s.setDiag d x).run j = s.run j := rfl
@[simp] theorem State.setDiag_at_meng (s : State) (d : Nat) (x : Diag) (j : Nat) : (s.setDiag d x).meng j = s.meng j := rfl
@[simp] theorem State.setDiag_at_sns (s : State) (d : Nat) (x : Diag) (j : Nat) : (s.setDiag d x).sns j = s.sns j := rfl
@[simp] theorem State.setDiag_at_image (s : State) (d : Nat) (x : Diag) (j : Nat) : (s.setDiag d x).image j = s.image j := rfl
@[simp] theorem State.setDiag_at_fsPair (s : State) (d : Nat) (x : Diag) (j : Nat) : (s.setDiag d x).fsPair j = s.fsPair j := rfl
@[simp] theorem State.setDiag_at_core (s : State) (d : Nat) (x : Diag) (j : Nat) : (s.setDiag d x).core j = s.core j := rfl
@[simp] theorem State.setDiag_at_bist (s : State) (d : Nat) (x : Diag) (j : Nat) : (s.setDiag d x).bist j = s.bist j := rfl
@[simp] theorem State.setDiag_at_dramByte (s : State) (d : Nat) (x : Diag) (j : Nat) : (s.setDiag d x).dramByte j = s.dramByte j := rfl

@[simp] theorem State.updDiag_eq (s : State) (d : Nat) (f : Diag → Diag) : s.updDiag d f = s.setDiag d (f (s.diag d)) := rfl
@[simp] theorem State.updBoot_pending (s : State) (f : Boot → Boot) : (s.updBoot f).pending = s.pending := rfl
@[simp] theorem State.updBoot_regs (s : State) (f : Boot → Boot) : (s.updBoot f).regs = s.regs := rfl
@[simp] theorem State.updBoot_wide (s : State) (f : Boot → Boot) : (s.updBoot f).wide = s.wide := rfl
@[simp] theorem State.updBoot_hiLatch (s : State) (f : Boot → Boot) : (s.updBoot f).hiLatch = s.hiLatch := rfl
@[simp] theorem State.updBoot_gens (s : State) (f : Boot → Boot) : (s.updBoot f).gens = s.gens := rfl
@[simp] theorem State.updBoot_ws (s : State) (f : Boot → Boot) : (s.updBoot f).ws = s.ws := rfl
@[simp] theorem State.updBoot_dram (s : State) (f : Boot → Boot) : (s.updBoot f).dram = s.dram := rfl
@[simp] theorem State.updBoot_dom (s : State) (f : Boot → Boot) : (s.updBoot f).dom = s.dom := rfl
@[simp] theorem State.updBoot_amb (s : State) (f : Boot → Boot) : (s.updBoot f).amb = s.amb := rfl
@[simp] theorem State.updBoot_ports (s : State) (f : Boot → Boot) : (s.updBoot f).ports = s.ports := rfl
@[simp] theorem State.updBoot_outs (s : State) (f : Boot → Boot) : (s.updBoot f).outs = s.outs := rfl
@[simp] theorem State.updBoot_bell (s : State) (f : Boot → Boot) : (s.updBoot f).bell = s.bell := rfl
@[simp] theorem State.updBoot_chans (s : State) (f : Boot → Boot) : (s.updBoot f).chans = s.chans := rfl
@[simp] theorem State.updBoot_terms (s : State) (f : Boot → Boot) : (s.updBoot f).terms = s.terms := rfl
@[simp] theorem State.updBoot_folds (s : State) (f : Boot → Boot) : (s.updBoot f).folds = s.folds := rfl
@[simp] theorem State.updBoot_binds (s : State) (f : Boot → Boot) : (s.updBoot f).binds = s.binds := rfl
@[simp] theorem State.updBoot_gates (s : State) (f : Boot → Boot) : (s.updBoot f).gates = s.gates := rfl
@[simp] theorem State.updBoot_timers (s : State) (f : Boot → Boot) : (s.updBoot f).timers = s.timers := rfl
@[simp] theorem State.updBoot_trips (s : State) (f : Boot → Boot) : (s.updBoot f).trips = s.trips := rfl
@[simp] theorem State.updBoot_motors (s : State) (f : Boot → Boot) : (s.updBoot f).motors = s.motors := rfl
@[simp] theorem State.updBoot_caps (s : State) (f : Boot → Boot) : (s.updBoot f).caps = s.caps := rfl
@[simp] theorem State.updBoot_injs (s : State) (f : Boot → Boot) : (s.updBoot f).injs = s.injs := rfl
@[simp] theorem State.updBoot_images (s : State) (f : Boot → Boot) : (s.updBoot f).images = s.images := rfl
@[simp] theorem State.updBoot_health (s : State) (f : Boot → Boot) : (s.updBoot f).health = s.health := rfl
@[simp] theorem State.updBoot_runs (s : State) (f : Boot → Boot) : (s.updBoot f).runs = s.runs := rfl
@[simp] theorem State.updBoot_mengs (s : State) (f : Boot → Boot) : (s.updBoot f).mengs = s.mengs := rfl
@[simp] theorem State.updBoot_sense (s : State) (f : Boot → Boot) : (s.updBoot f).sense = s.sense := rfl
@[simp] theorem State.updBoot_fs (s : State) (f : Boot → Boot) : (s.updBoot f).fs = s.fs := rfl
@[simp] theorem State.updBoot_cores (s : State) (f : Boot → Boot) : (s.updBoot f).cores = s.cores := rfl
@[simp] theorem State.updBoot_bists (s : State) (f : Boot → Boot) : (s.updBoot f).bists = s.bists := rfl
@[simp] theorem State.updBoot_jtag (s : State) (f : Boot → Boot) : (s.updBoot f).jtag = s.jtag := rfl
@[simp] theorem State.updBoot_diags (s : State) (f : Boot → Boot) : (s.updBoot f).diags = s.diags := rfl
@[simp] theorem State.updBoot_rings (s : State) (f : Boot → Boot) : (s.updBoot f).rings = s.rings := rfl
@[simp] theorem State.updBoot_svc (s : State) (f : Boot → Boot) : (s.updBoot f).svc = s.svc := rfl
@[simp] theorem State.updBoot_col (s : State) (f : Boot → Boot) : (s.updBoot f).col = s.col := rfl
@[simp] theorem State.updBoot_tal (s : State) (f : Boot → Boot) : (s.updBoot f).tal = s.tal := rfl
@[simp] theorem State.updBoot_sec (s : State) (f : Boot → Boot) : (s.updBoot f).sec = s.sec := rfl
@[simp] theorem State.updBoot_attest (s : State) (f : Boot → Boot) : (s.updBoot f).attest = s.attest := rfl
@[simp] theorem State.updBoot_host (s : State) (f : Boot → Boot) : (s.updBoot f).host = s.host := rfl
@[simp] theorem State.updBoot_stn (s : State) (f : Boot → Boot) : (s.updBoot f).stn = s.stn := rfl
@[simp] theorem State.updBoot_nv (s : State) (f : Boot → Boot) : (s.updBoot f).nv = s.nv := rfl
@[simp] theorem State.updBoot_free (s : State) (f : Boot → Boot) : (s.updBoot f).free = s.free := rfl
@[simp] theorem State.updBoot_at_reg (s : State) (f : Boot → Boot) (j : Nat) : (s.updBoot f).reg j = s.reg j := rfl
@[simp] theorem State.updBoot_at_wideAt (s : State) (f : Boot → Boot) (j : Nat) : (s.updBoot f).wideAt j = s.wideAt j := rfl
@[simp] theorem State.updBoot_at_port (s : State) (f : Boot → Boot) (j : Nat) : (s.updBoot f).port j = s.port j := rfl
@[simp] theorem State.updBoot_at_out (s : State) (f : Boot → Boot) (j : Nat) : (s.updBoot f).out j = s.out j := rfl
@[simp] theorem State.updBoot_at_chan (s : State) (f : Boot → Boot) (j : Nat) : (s.updBoot f).chan j = s.chan j := rfl
@[simp] theorem State.updBoot_at_term (s : State) (f : Boot → Boot) (j : Nat) : (s.updBoot f).term j = s.term j := rfl
@[simp] theorem State.updBoot_at_fold (s : State) (f : Boot → Boot) (j : Nat) : (s.updBoot f).fold j = s.fold j := rfl
@[simp] theorem State.updBoot_at_bind (s : State) (f : Boot → Boot) (j : Nat) : (s.updBoot f).bind j = s.bind j := rfl
@[simp] theorem State.updBoot_at_gate (s : State) (f : Boot → Boot) (j : Nat) : (s.updBoot f).gate j = s.gate j := rfl
@[simp] theorem State.updBoot_at_timer (s : State) (f : Boot → Boot) (j : Nat) : (s.updBoot f).timer j = s.timer j := rfl
@[simp] theorem State.updBoot_at_trip (s : State) (f : Boot → Boot) (j : Nat) : (s.updBoot f).trip j = s.trip j := rfl
@[simp] theorem State.updBoot_at_ring (s : State) (f : Boot → Boot) (j : Nat) : (s.updBoot f).ring j = s.ring j := rfl
@[simp] theorem State.updBoot_at_inj (s : State) (f : Boot → Boot) (j : Nat) : (s.updBoot f).inj j = s.inj j := rfl
@[simp] theorem State.updBoot_at_cap (s : State) (f : Boot → Boot) (j : Nat) : (s.updBoot f).cap j = s.cap j := rfl
@[simp] theorem State.updBoot_at_motor (s : State) (f : Boot → Boot) (j : Nat) : (s.updBoot f).motor j = s.motor j := rfl
@[simp] theorem State.updBoot_at_hlt (s : State) (f : Boot → Boot) (j : Nat) : (s.updBoot f).hlt j = s.hlt j := rfl
@[simp] theorem State.updBoot_at_run (s : State) (f : Boot → Boot) (j : Nat) : (s.updBoot f).run j = s.run j := rfl
@[simp] theorem State.updBoot_at_meng (s : State) (f : Boot → Boot) (j : Nat) : (s.updBoot f).meng j = s.meng j := rfl
@[simp] theorem State.updBoot_at_sns (s : State) (f : Boot → Boot) (j : Nat) : (s.updBoot f).sns j = s.sns j := rfl
@[simp] theorem State.updBoot_at_image (s : State) (f : Boot → Boot) (j : Nat) : (s.updBoot f).image j = s.image j := rfl
@[simp] theorem State.updBoot_at_fsPair (s : State) (f : Boot → Boot) (j : Nat) : (s.updBoot f).fsPair j = s.fsPair j := rfl
@[simp] theorem State.updBoot_at_core (s : State) (f : Boot → Boot) (j : Nat) : (s.updBoot f).core j = s.core j := rfl
@[simp] theorem State.updBoot_at_bist (s : State) (f : Boot → Boot) (j : Nat) : (s.updBoot f).bist j = s.bist j := rfl
@[simp] theorem State.updBoot_at_dramByte (s : State) (f : Boot → Boot) (j : Nat) : (s.updBoot f).dramByte j = s.dramByte j := rfl
@[simp] theorem State.updBoot_at_diag (s : State) (f : Boot → Boot) (j : Nat) : (s.updBoot f).diag j = s.diag j := rfl
@[simp] theorem State.updBoot_boot (s : State) (f : Boot → Boot) : (s.updBoot f).boot = f s.boot := rfl

@[simp] theorem State.updStn_pending (s : State) (f : Stn → Stn) : (s.updStn f).pending = s.pending := rfl
@[simp] theorem State.updStn_regs (s : State) (f : Stn → Stn) : (s.updStn f).regs = s.regs := rfl
@[simp] theorem State.updStn_wide (s : State) (f : Stn → Stn) : (s.updStn f).wide = s.wide := rfl
@[simp] theorem State.updStn_hiLatch (s : State) (f : Stn → Stn) : (s.updStn f).hiLatch = s.hiLatch := rfl
@[simp] theorem State.updStn_gens (s : State) (f : Stn → Stn) : (s.updStn f).gens = s.gens := rfl
@[simp] theorem State.updStn_ws (s : State) (f : Stn → Stn) : (s.updStn f).ws = s.ws := rfl
@[simp] theorem State.updStn_dram (s : State) (f : Stn → Stn) : (s.updStn f).dram = s.dram := rfl
@[simp] theorem State.updStn_dom (s : State) (f : Stn → Stn) : (s.updStn f).dom = s.dom := rfl
@[simp] theorem State.updStn_boot (s : State) (f : Stn → Stn) : (s.updStn f).boot = s.boot := rfl
@[simp] theorem State.updStn_amb (s : State) (f : Stn → Stn) : (s.updStn f).amb = s.amb := rfl
@[simp] theorem State.updStn_ports (s : State) (f : Stn → Stn) : (s.updStn f).ports = s.ports := rfl
@[simp] theorem State.updStn_outs (s : State) (f : Stn → Stn) : (s.updStn f).outs = s.outs := rfl
@[simp] theorem State.updStn_bell (s : State) (f : Stn → Stn) : (s.updStn f).bell = s.bell := rfl
@[simp] theorem State.updStn_chans (s : State) (f : Stn → Stn) : (s.updStn f).chans = s.chans := rfl
@[simp] theorem State.updStn_terms (s : State) (f : Stn → Stn) : (s.updStn f).terms = s.terms := rfl
@[simp] theorem State.updStn_folds (s : State) (f : Stn → Stn) : (s.updStn f).folds = s.folds := rfl
@[simp] theorem State.updStn_binds (s : State) (f : Stn → Stn) : (s.updStn f).binds = s.binds := rfl
@[simp] theorem State.updStn_gates (s : State) (f : Stn → Stn) : (s.updStn f).gates = s.gates := rfl
@[simp] theorem State.updStn_timers (s : State) (f : Stn → Stn) : (s.updStn f).timers = s.timers := rfl
@[simp] theorem State.updStn_trips (s : State) (f : Stn → Stn) : (s.updStn f).trips = s.trips := rfl
@[simp] theorem State.updStn_motors (s : State) (f : Stn → Stn) : (s.updStn f).motors = s.motors := rfl
@[simp] theorem State.updStn_caps (s : State) (f : Stn → Stn) : (s.updStn f).caps = s.caps := rfl
@[simp] theorem State.updStn_injs (s : State) (f : Stn → Stn) : (s.updStn f).injs = s.injs := rfl
@[simp] theorem State.updStn_images (s : State) (f : Stn → Stn) : (s.updStn f).images = s.images := rfl
@[simp] theorem State.updStn_health (s : State) (f : Stn → Stn) : (s.updStn f).health = s.health := rfl
@[simp] theorem State.updStn_runs (s : State) (f : Stn → Stn) : (s.updStn f).runs = s.runs := rfl
@[simp] theorem State.updStn_mengs (s : State) (f : Stn → Stn) : (s.updStn f).mengs = s.mengs := rfl
@[simp] theorem State.updStn_sense (s : State) (f : Stn → Stn) : (s.updStn f).sense = s.sense := rfl
@[simp] theorem State.updStn_fs (s : State) (f : Stn → Stn) : (s.updStn f).fs = s.fs := rfl
@[simp] theorem State.updStn_cores (s : State) (f : Stn → Stn) : (s.updStn f).cores = s.cores := rfl
@[simp] theorem State.updStn_bists (s : State) (f : Stn → Stn) : (s.updStn f).bists = s.bists := rfl
@[simp] theorem State.updStn_jtag (s : State) (f : Stn → Stn) : (s.updStn f).jtag = s.jtag := rfl
@[simp] theorem State.updStn_diags (s : State) (f : Stn → Stn) : (s.updStn f).diags = s.diags := rfl
@[simp] theorem State.updStn_rings (s : State) (f : Stn → Stn) : (s.updStn f).rings = s.rings := rfl
@[simp] theorem State.updStn_svc (s : State) (f : Stn → Stn) : (s.updStn f).svc = s.svc := rfl
@[simp] theorem State.updStn_col (s : State) (f : Stn → Stn) : (s.updStn f).col = s.col := rfl
@[simp] theorem State.updStn_tal (s : State) (f : Stn → Stn) : (s.updStn f).tal = s.tal := rfl
@[simp] theorem State.updStn_sec (s : State) (f : Stn → Stn) : (s.updStn f).sec = s.sec := rfl
@[simp] theorem State.updStn_attest (s : State) (f : Stn → Stn) : (s.updStn f).attest = s.attest := rfl
@[simp] theorem State.updStn_host (s : State) (f : Stn → Stn) : (s.updStn f).host = s.host := rfl
@[simp] theorem State.updStn_nv (s : State) (f : Stn → Stn) : (s.updStn f).nv = s.nv := rfl
@[simp] theorem State.updStn_free (s : State) (f : Stn → Stn) : (s.updStn f).free = s.free := rfl
@[simp] theorem State.updStn_at_reg (s : State) (f : Stn → Stn) (j : Nat) : (s.updStn f).reg j = s.reg j := rfl
@[simp] theorem State.updStn_at_wideAt (s : State) (f : Stn → Stn) (j : Nat) : (s.updStn f).wideAt j = s.wideAt j := rfl
@[simp] theorem State.updStn_at_port (s : State) (f : Stn → Stn) (j : Nat) : (s.updStn f).port j = s.port j := rfl
@[simp] theorem State.updStn_at_out (s : State) (f : Stn → Stn) (j : Nat) : (s.updStn f).out j = s.out j := rfl
@[simp] theorem State.updStn_at_chan (s : State) (f : Stn → Stn) (j : Nat) : (s.updStn f).chan j = s.chan j := rfl
@[simp] theorem State.updStn_at_term (s : State) (f : Stn → Stn) (j : Nat) : (s.updStn f).term j = s.term j := rfl
@[simp] theorem State.updStn_at_fold (s : State) (f : Stn → Stn) (j : Nat) : (s.updStn f).fold j = s.fold j := rfl
@[simp] theorem State.updStn_at_bind (s : State) (f : Stn → Stn) (j : Nat) : (s.updStn f).bind j = s.bind j := rfl
@[simp] theorem State.updStn_at_gate (s : State) (f : Stn → Stn) (j : Nat) : (s.updStn f).gate j = s.gate j := rfl
@[simp] theorem State.updStn_at_timer (s : State) (f : Stn → Stn) (j : Nat) : (s.updStn f).timer j = s.timer j := rfl
@[simp] theorem State.updStn_at_trip (s : State) (f : Stn → Stn) (j : Nat) : (s.updStn f).trip j = s.trip j := rfl
@[simp] theorem State.updStn_at_ring (s : State) (f : Stn → Stn) (j : Nat) : (s.updStn f).ring j = s.ring j := rfl
@[simp] theorem State.updStn_at_inj (s : State) (f : Stn → Stn) (j : Nat) : (s.updStn f).inj j = s.inj j := rfl
@[simp] theorem State.updStn_at_cap (s : State) (f : Stn → Stn) (j : Nat) : (s.updStn f).cap j = s.cap j := rfl
@[simp] theorem State.updStn_at_motor (s : State) (f : Stn → Stn) (j : Nat) : (s.updStn f).motor j = s.motor j := rfl
@[simp] theorem State.updStn_at_hlt (s : State) (f : Stn → Stn) (j : Nat) : (s.updStn f).hlt j = s.hlt j := rfl
@[simp] theorem State.updStn_at_run (s : State) (f : Stn → Stn) (j : Nat) : (s.updStn f).run j = s.run j := rfl
@[simp] theorem State.updStn_at_meng (s : State) (f : Stn → Stn) (j : Nat) : (s.updStn f).meng j = s.meng j := rfl
@[simp] theorem State.updStn_at_sns (s : State) (f : Stn → Stn) (j : Nat) : (s.updStn f).sns j = s.sns j := rfl
@[simp] theorem State.updStn_at_image (s : State) (f : Stn → Stn) (j : Nat) : (s.updStn f).image j = s.image j := rfl
@[simp] theorem State.updStn_at_fsPair (s : State) (f : Stn → Stn) (j : Nat) : (s.updStn f).fsPair j = s.fsPair j := rfl
@[simp] theorem State.updStn_at_core (s : State) (f : Stn → Stn) (j : Nat) : (s.updStn f).core j = s.core j := rfl
@[simp] theorem State.updStn_at_bist (s : State) (f : Stn → Stn) (j : Nat) : (s.updStn f).bist j = s.bist j := rfl
@[simp] theorem State.updStn_at_dramByte (s : State) (f : Stn → Stn) (j : Nat) : (s.updStn f).dramByte j = s.dramByte j := rfl
@[simp] theorem State.updStn_at_diag (s : State) (f : Stn → Stn) (j : Nat) : (s.updStn f).diag j = s.diag j := rfl
@[simp] theorem State.updStn_stn (s : State) (f : Stn → Stn) : (s.updStn f).stn = f s.stn := rfl

@[simp] theorem State.setReg_reg (s : State) (a : Nat) (v : W) (b : Nat) : (s.setReg a v).reg b = if b = a then v else s.reg b := by
  unfold State.reg State.setReg
  by_cases h : b = a
  · subst h; simp
  · rw [if_neg h]; exact tget_tset_ne _ _ _ _ _ _ h

@[simp] theorem State.setWide_read (s : State) (a : Nat) (v : BitVec 48) (j : Nat) : (s.setWide a v).wideAt j = if j = a then v else s.wideAt j :=
  tget_tset _ _ _ _ _
@[simp] theorem State.setPort_read (s : State) (n : Nat) (p : Port) (j : Nat) : (s.setPort n p).port j = if j = n then p else s.port j :=
  tget_tset _ _ _ _ _
@[simp] theorem State.setOut_read (s : State) (n : Nat) (p : OutPort) (j : Nat) : (s.setOut n p).out j = if j = n then p else s.out j :=
  tget_tset _ _ _ _ _
@[simp] theorem State.setChan_read (s : State) (i : Nat) (c : Chan) (j : Nat) : (s.setChan i c).chan j = if j = i then c else s.chan j :=
  tget_tset _ _ _ _ _
@[simp] theorem State.setTerm_read (s : State) (t : Nat) (x : Term) (j : Nat) : (s.setTerm t x).term j = if j = t then x else s.term j :=
  tget_tset _ _ _ _ _
@[simp] theorem State.setFold_read (s : State) (k : Nat) (x : Fold) (j : Nat) : (s.setFold k x).fold j = if j = k then x else s.fold j :=
  tget_tset _ _ _ _ _
@[simp] theorem State.setBind_read (s : State) (i : Nat) (x : Binding) (j : Nat) : (s.setBind i x).bind j = if j = i then x else s.bind j :=
  tget_tset _ _ _ _ _
@[simp] theorem State.setGate_read (s : State) (g : Nat) (x : Gate) (j : Nat) : (s.setGate g x).gate j = if j = g then x else s.gate j :=
  tget_tset _ _ _ _ _
@[simp] theorem State.setTimer_read (s : State) (i : Nat) (x : Timer) (j : Nat) : (s.setTimer i x).timer j = if j = i then x else s.timer j :=
  tget_tset _ _ _ _ _
@[simp] theorem State.setTrip_read (s : State) (g : Nat) (x : Trip) (j : Nat) : (s.setTrip g x).trip j = if j = g then x else s.trip j :=
  tget_tset _ _ _ _ _
@[simp] theorem State.setRing_read (s : State) (r : Nat) (x : Ring) (j : Nat) : (s.setRing r x).ring j = if j = r then x else s.ring j :=
  tget_tset _ _ _ _ _
@[simp] theorem State.setInj_read (s : State) (i : Nat) (x : Inj) (j : Nat) : (s.setInj i x).inj j = if j = i then x else s.inj j :=
  tget_tset _ _ _ _ _
@[simp] theorem State.setCap_read (s : State) (i : Nat) (x : Cap) (j : Nat) : (s.setCap i x).cap j = if j = i then x else s.cap j :=
  tget_tset _ _ _ _ _
@[simp] theorem State.setMotor_read (s : State) (i : Nat) (x : Motor) (j : Nat) : (s.setMotor i x).motor j = if j = i then x else s.motor j :=
  tget_tset _ _ _ _ _
@[simp] theorem State.updHlt_read (s : State) (e : Nat) (f : Health → Health) (j : Nat) : (s.updHlt e f).hlt j = if j = e then (f (s.hlt e)) else s.hlt j :=
  tget_tset _ _ _ _ _
@[simp] theorem State.setRun_read (s : State) (e : Nat) (x : Run) (j : Nat) : (s.setRun e x).run j = if j = e then x else s.run j :=
  tget_tset _ _ _ _ _
@[simp] theorem State.updMEng_read (s : State) (f : Nat) (g : MEng → MEng) (j : Nat) : (s.updMEng f g).meng j = if j = f then (g (s.meng f)) else s.meng j :=
  tget_tset _ _ _ _ _
@[simp] theorem State.updSns_read (s : State) (n : Nat) (g : Sense → Sense) (j : Nat) : (s.updSns n g).sns j = if j = n then (g (s.sns n)) else s.sns j :=
  tget_tset _ _ _ _ _
@[simp] theorem State.setFs_read (s : State) (k : Nat) (x : Pair) (j : Nat) : (s.setFs k x).fsPair j = if j = k then x else s.fsPair j :=
  tget_tset _ _ _ _ _
@[simp] theorem State.setCore_read (s : State) (r : Nat) (x : Core) (j : Nat) : (s.setCore r x).core j = if j = r then x else s.core j :=
  tget_tset _ _ _ _ _
@[simp] theorem State.setBist_read (s : State) (c : Nat) (x : Bist) (j : Nat) : (s.setBist c x).bist j = if j = c then x else s.bist j :=
  tget_tset _ _ _ _ _
@[simp] theorem State.setDramByte_read (s : State) (a : Nat) (b : BitVec 8) (j : Nat) : (s.setDramByte a b).dramByte j = if j = a then b else s.dramByte j :=
  tget_tset _ _ _ _ _
@[simp] theorem State.setDiag_read (s : State) (d : Nat) (x : Diag) (j : Nat) : (s.setDiag d x).diag j = if j = d then x else s.diag j :=
  tget_tset _ _ _ _ _
/-- Writing a whole list of bytes: each address in its range reads its byte, every other as before. -/
theorem State.putDram_read (l : List (BitVec 8)) : ∀ (s : State) (a j : Nat),
    (s.putDram a l).dramByte j = if h : a ≤ j ∧ j - a < l.length then l[j - a]'h.2 else s.dramByte j := by
  induction l with
  | nil => intro s a j; simp [State.putDram]
  | cons b r ih =>
    intro s a j
    simp only [State.putDram]
    rw [ih]
    by_cases h1 : a = j
    · subst h1; simp
    · by_cases h2 : a + 1 ≤ j ∧ j - (a + 1) < r.length
      · have h3 : a ≤ j ∧ j - a < (b :: r).length := by simp only [List.length_cons]; omega
        rw [dif_pos h2, dif_pos h3]
        have e : j - a = j - (a + 1) + 1 := by omega
        simp [e]
      · have h3 : ¬(a ≤ j ∧ j - a < (b :: r).length) := by simp only [List.length_cons]; omega
        rw [dif_neg h2, dif_neg h3]
        simp [Ne.symm h1]

theorem bit_one (i j : Nat) : (BitVec.ofNat 32 (2 ^ i)).getLsbD j = (decide (j < 32) && decide (i = j)) := by
  rw [BitVec.getLsbD_ofNat, Nat.testBit_two_pow]

/-- Setting a bit sets that bit and no other. -/
@[simp] theorem bitOf_setBit (w : W) (i j : Nat) : bitOf (setBit w i) j = (bitOf w j || (decide (j < 32) && decide (i = j))) := by
  unfold bitOf setBit
  rw [BitVec.getLsbD_or, bit_one]

/-- Clearing a bit clears that bit and no other. -/
@[simp] theorem bitOf_clrBit (w : W) (i j : Nat) : bitOf (clrBit w i) j = (bitOf w j && (decide (j < 32) && !decide (i = j))) := by
  unfold bitOf clrBit
  rw [BitVec.getLsbD_and, BitVec.getLsbD_not, bit_one]
  by_cases h : j < 32 <;> simp [h]

-- ---------------------------------------------------------------- interrupts, events, reports

/-- A message changes the host side only. -/
theorem sendMsg_host (v : Nat) (s : State) : ∃ h, sendMsg v s = { s with host := h } := by
  unfold sendMsg
  split
  · exact ⟨_, rfl⟩
  · exact ⟨_, rfl⟩

theorem signalVec_host (v : Nat) (s : State) : ∃ h, signalVec v s = { s with host := h } := by
  unfold signalVec
  dsimp only
  split
  · exact ⟨s.host, rfl⟩
  · split
    · obtain ⟨h, e⟩ := sendMsg_host v { s with host := { s.host with summary := s.host.summary + 2 ^ v } }
      exact ⟨h, e⟩
    · exact ⟨_, rfl⟩

/-- Bringing an interrupt up to date changes the host side only. -/
theorem signal_host (a : Nat) (s : State) : ∃ h, signal a s = { s with host := h } := by
  unfold signal
  split
  · exact signalVec_host _ s
  · exact ⟨s.host, rfl⟩

@[simp] theorem signalVec_pending (v : Nat) (s : State) : (signalVec v s).pending = s.pending := by
  obtain ⟨h, e⟩ := signalVec_host v s; rw [e]
@[simp] theorem signalVec_regs (v : Nat) (s : State) : (signalVec v s).regs = s.regs := by
  obtain ⟨h, e⟩ := signalVec_host v s; rw [e]
@[simp] theorem signalVec_wide (v : Nat) (s : State) : (signalVec v s).wide = s.wide := by
  obtain ⟨h, e⟩ := signalVec_host v s; rw [e]
@[simp] theorem signalVec_hiLatch (v : Nat) (s : State) : (signalVec v s).hiLatch = s.hiLatch := by
  obtain ⟨h, e⟩ := signalVec_host v s; rw [e]
@[simp] theorem signalVec_gens (v : Nat) (s : State) : (signalVec v s).gens = s.gens := by
  obtain ⟨h, e⟩ := signalVec_host v s; rw [e]
@[simp] theorem signalVec_ws (v : Nat) (s : State) : (signalVec v s).ws = s.ws := by
  obtain ⟨h, e⟩ := signalVec_host v s; rw [e]
@[simp] theorem signalVec_dram (v : Nat) (s : State) : (signalVec v s).dram = s.dram := by
  obtain ⟨h, e⟩ := signalVec_host v s; rw [e]
@[simp] theorem signalVec_dom (v : Nat) (s : State) : (signalVec v s).dom = s.dom := by
  obtain ⟨h, e⟩ := signalVec_host v s; rw [e]
@[simp] theorem signalVec_boot (v : Nat) (s : State) : (signalVec v s).boot = s.boot := by
  obtain ⟨h, e⟩ := signalVec_host v s; rw [e]
@[simp] theorem signalVec_amb (v : Nat) (s : State) : (signalVec v s).amb = s.amb := by
  obtain ⟨h, e⟩ := signalVec_host v s; rw [e]
@[simp] theorem signalVec_ports (v : Nat) (s : State) : (signalVec v s).ports = s.ports := by
  obtain ⟨h, e⟩ := signalVec_host v s; rw [e]
@[simp] theorem signalVec_outs (v : Nat) (s : State) : (signalVec v s).outs = s.outs := by
  obtain ⟨h, e⟩ := signalVec_host v s; rw [e]
@[simp] theorem signalVec_bell (v : Nat) (s : State) : (signalVec v s).bell = s.bell := by
  obtain ⟨h, e⟩ := signalVec_host v s; rw [e]
@[simp] theorem signalVec_chans (v : Nat) (s : State) : (signalVec v s).chans = s.chans := by
  obtain ⟨h, e⟩ := signalVec_host v s; rw [e]
@[simp] theorem signalVec_terms (v : Nat) (s : State) : (signalVec v s).terms = s.terms := by
  obtain ⟨h, e⟩ := signalVec_host v s; rw [e]
@[simp] theorem signalVec_folds (v : Nat) (s : State) : (signalVec v s).folds = s.folds := by
  obtain ⟨h, e⟩ := signalVec_host v s; rw [e]
@[simp] theorem signalVec_binds (v : Nat) (s : State) : (signalVec v s).binds = s.binds := by
  obtain ⟨h, e⟩ := signalVec_host v s; rw [e]
@[simp] theorem signalVec_gates (v : Nat) (s : State) : (signalVec v s).gates = s.gates := by
  obtain ⟨h, e⟩ := signalVec_host v s; rw [e]
@[simp] theorem signalVec_timers (v : Nat) (s : State) : (signalVec v s).timers = s.timers := by
  obtain ⟨h, e⟩ := signalVec_host v s; rw [e]
@[simp] theorem signalVec_trips (v : Nat) (s : State) : (signalVec v s).trips = s.trips := by
  obtain ⟨h, e⟩ := signalVec_host v s; rw [e]
@[simp] theorem signalVec_motors (v : Nat) (s : State) : (signalVec v s).motors = s.motors := by
  obtain ⟨h, e⟩ := signalVec_host v s; rw [e]
@[simp] theorem signalVec_caps (v : Nat) (s : State) : (signalVec v s).caps = s.caps := by
  obtain ⟨h, e⟩ := signalVec_host v s; rw [e]
@[simp] theorem signalVec_injs (v : Nat) (s : State) : (signalVec v s).injs = s.injs := by
  obtain ⟨h, e⟩ := signalVec_host v s; rw [e]
@[simp] theorem signalVec_images (v : Nat) (s : State) : (signalVec v s).images = s.images := by
  obtain ⟨h, e⟩ := signalVec_host v s; rw [e]
@[simp] theorem signalVec_health (v : Nat) (s : State) : (signalVec v s).health = s.health := by
  obtain ⟨h, e⟩ := signalVec_host v s; rw [e]
@[simp] theorem signalVec_runs (v : Nat) (s : State) : (signalVec v s).runs = s.runs := by
  obtain ⟨h, e⟩ := signalVec_host v s; rw [e]
@[simp] theorem signalVec_mengs (v : Nat) (s : State) : (signalVec v s).mengs = s.mengs := by
  obtain ⟨h, e⟩ := signalVec_host v s; rw [e]
@[simp] theorem signalVec_sense (v : Nat) (s : State) : (signalVec v s).sense = s.sense := by
  obtain ⟨h, e⟩ := signalVec_host v s; rw [e]
@[simp] theorem signalVec_fs (v : Nat) (s : State) : (signalVec v s).fs = s.fs := by
  obtain ⟨h, e⟩ := signalVec_host v s; rw [e]
@[simp] theorem signalVec_cores (v : Nat) (s : State) : (signalVec v s).cores = s.cores := by
  obtain ⟨h, e⟩ := signalVec_host v s; rw [e]
@[simp] theorem signalVec_bists (v : Nat) (s : State) : (signalVec v s).bists = s.bists := by
  obtain ⟨h, e⟩ := signalVec_host v s; rw [e]
@[simp] theorem signalVec_jtag (v : Nat) (s : State) : (signalVec v s).jtag = s.jtag := by
  obtain ⟨h, e⟩ := signalVec_host v s; rw [e]
@[simp] theorem signalVec_diags (v : Nat) (s : State) : (signalVec v s).diags = s.diags := by
  obtain ⟨h, e⟩ := signalVec_host v s; rw [e]
@[simp] theorem signalVec_rings (v : Nat) (s : State) : (signalVec v s).rings = s.rings := by
  obtain ⟨h, e⟩ := signalVec_host v s; rw [e]
@[simp] theorem signalVec_svc (v : Nat) (s : State) : (signalVec v s).svc = s.svc := by
  obtain ⟨h, e⟩ := signalVec_host v s; rw [e]
@[simp] theorem signalVec_col (v : Nat) (s : State) : (signalVec v s).col = s.col := by
  obtain ⟨h, e⟩ := signalVec_host v s; rw [e]
@[simp] theorem signalVec_tal (v : Nat) (s : State) : (signalVec v s).tal = s.tal := by
  obtain ⟨h, e⟩ := signalVec_host v s; rw [e]
@[simp] theorem signalVec_sec (v : Nat) (s : State) : (signalVec v s).sec = s.sec := by
  obtain ⟨h, e⟩ := signalVec_host v s; rw [e]
@[simp] theorem signalVec_attest (v : Nat) (s : State) : (signalVec v s).attest = s.attest := by
  obtain ⟨h, e⟩ := signalVec_host v s; rw [e]
@[simp] theorem signalVec_stn (v : Nat) (s : State) : (signalVec v s).stn = s.stn := by
  obtain ⟨h, e⟩ := signalVec_host v s; rw [e]
@[simp] theorem signalVec_nv (v : Nat) (s : State) : (signalVec v s).nv = s.nv := by
  obtain ⟨h, e⟩ := signalVec_host v s; rw [e]
@[simp] theorem signalVec_free (v : Nat) (s : State) : (signalVec v s).free = s.free := by
  obtain ⟨h, e⟩ := signalVec_host v s; rw [e]
@[simp] theorem signalVec_at_reg (v : Nat) (s : State) (j : Nat) : (signalVec v s).reg j = s.reg j := by
  obtain ⟨h, e⟩ := signalVec_host v s; rw [e]; rfl
@[simp] theorem signalVec_at_wideAt (v : Nat) (s : State) (j : Nat) : (signalVec v s).wideAt j = s.wideAt j := by
  obtain ⟨h, e⟩ := signalVec_host v s; rw [e]; rfl
@[simp] theorem signalVec_at_port (v : Nat) (s : State) (j : Nat) : (signalVec v s).port j = s.port j := by
  obtain ⟨h, e⟩ := signalVec_host v s; rw [e]; rfl
@[simp] theorem signalVec_at_out (v : Nat) (s : State) (j : Nat) : (signalVec v s).out j = s.out j := by
  obtain ⟨h, e⟩ := signalVec_host v s; rw [e]; rfl
@[simp] theorem signalVec_at_chan (v : Nat) (s : State) (j : Nat) : (signalVec v s).chan j = s.chan j := by
  obtain ⟨h, e⟩ := signalVec_host v s; rw [e]; rfl
@[simp] theorem signalVec_at_term (v : Nat) (s : State) (j : Nat) : (signalVec v s).term j = s.term j := by
  obtain ⟨h, e⟩ := signalVec_host v s; rw [e]; rfl
@[simp] theorem signalVec_at_fold (v : Nat) (s : State) (j : Nat) : (signalVec v s).fold j = s.fold j := by
  obtain ⟨h, e⟩ := signalVec_host v s; rw [e]; rfl
@[simp] theorem signalVec_at_bind (v : Nat) (s : State) (j : Nat) : (signalVec v s).bind j = s.bind j := by
  obtain ⟨h, e⟩ := signalVec_host v s; rw [e]; rfl
@[simp] theorem signalVec_at_gate (v : Nat) (s : State) (j : Nat) : (signalVec v s).gate j = s.gate j := by
  obtain ⟨h, e⟩ := signalVec_host v s; rw [e]; rfl
@[simp] theorem signalVec_at_timer (v : Nat) (s : State) (j : Nat) : (signalVec v s).timer j = s.timer j := by
  obtain ⟨h, e⟩ := signalVec_host v s; rw [e]; rfl
@[simp] theorem signalVec_at_trip (v : Nat) (s : State) (j : Nat) : (signalVec v s).trip j = s.trip j := by
  obtain ⟨h, e⟩ := signalVec_host v s; rw [e]; rfl
@[simp] theorem signalVec_at_ring (v : Nat) (s : State) (j : Nat) : (signalVec v s).ring j = s.ring j := by
  obtain ⟨h, e⟩ := signalVec_host v s; rw [e]; rfl
@[simp] theorem signalVec_at_inj (v : Nat) (s : State) (j : Nat) : (signalVec v s).inj j = s.inj j := by
  obtain ⟨h, e⟩ := signalVec_host v s; rw [e]; rfl
@[simp] theorem signalVec_at_cap (v : Nat) (s : State) (j : Nat) : (signalVec v s).cap j = s.cap j := by
  obtain ⟨h, e⟩ := signalVec_host v s; rw [e]; rfl
@[simp] theorem signalVec_at_motor (v : Nat) (s : State) (j : Nat) : (signalVec v s).motor j = s.motor j := by
  obtain ⟨h, e⟩ := signalVec_host v s; rw [e]; rfl
@[simp] theorem signalVec_at_hlt (v : Nat) (s : State) (j : Nat) : (signalVec v s).hlt j = s.hlt j := by
  obtain ⟨h, e⟩ := signalVec_host v s; rw [e]; rfl
@[simp] theorem signalVec_at_run (v : Nat) (s : State) (j : Nat) : (signalVec v s).run j = s.run j := by
  obtain ⟨h, e⟩ := signalVec_host v s; rw [e]; rfl
@[simp] theorem signalVec_at_meng (v : Nat) (s : State) (j : Nat) : (signalVec v s).meng j = s.meng j := by
  obtain ⟨h, e⟩ := signalVec_host v s; rw [e]; rfl
@[simp] theorem signalVec_at_sns (v : Nat) (s : State) (j : Nat) : (signalVec v s).sns j = s.sns j := by
  obtain ⟨h, e⟩ := signalVec_host v s; rw [e]; rfl
@[simp] theorem signalVec_at_image (v : Nat) (s : State) (j : Nat) : (signalVec v s).image j = s.image j := by
  obtain ⟨h, e⟩ := signalVec_host v s; rw [e]; rfl
@[simp] theorem signalVec_at_fsPair (v : Nat) (s : State) (j : Nat) : (signalVec v s).fsPair j = s.fsPair j := by
  obtain ⟨h, e⟩ := signalVec_host v s; rw [e]; rfl
@[simp] theorem signalVec_at_core (v : Nat) (s : State) (j : Nat) : (signalVec v s).core j = s.core j := by
  obtain ⟨h, e⟩ := signalVec_host v s; rw [e]; rfl
@[simp] theorem signalVec_at_bist (v : Nat) (s : State) (j : Nat) : (signalVec v s).bist j = s.bist j := by
  obtain ⟨h, e⟩ := signalVec_host v s; rw [e]; rfl
@[simp] theorem signalVec_at_dramByte (v : Nat) (s : State) (j : Nat) : (signalVec v s).dramByte j = s.dramByte j := by
  obtain ⟨h, e⟩ := signalVec_host v s; rw [e]; rfl
@[simp] theorem signalVec_at_diag (v : Nat) (s : State) (j : Nat) : (signalVec v s).diag j = s.diag j := by
  obtain ⟨h, e⟩ := signalVec_host v s; rw [e]; rfl

@[simp] theorem signal_pending (a : Nat) (s : State) : (signal a s).pending = s.pending := by
  obtain ⟨h, e⟩ := signal_host a s; rw [e]
@[simp] theorem signal_regs (a : Nat) (s : State) : (signal a s).regs = s.regs := by
  obtain ⟨h, e⟩ := signal_host a s; rw [e]
@[simp] theorem signal_wide (a : Nat) (s : State) : (signal a s).wide = s.wide := by
  obtain ⟨h, e⟩ := signal_host a s; rw [e]
@[simp] theorem signal_hiLatch (a : Nat) (s : State) : (signal a s).hiLatch = s.hiLatch := by
  obtain ⟨h, e⟩ := signal_host a s; rw [e]
@[simp] theorem signal_gens (a : Nat) (s : State) : (signal a s).gens = s.gens := by
  obtain ⟨h, e⟩ := signal_host a s; rw [e]
@[simp] theorem signal_ws (a : Nat) (s : State) : (signal a s).ws = s.ws := by
  obtain ⟨h, e⟩ := signal_host a s; rw [e]
@[simp] theorem signal_dram (a : Nat) (s : State) : (signal a s).dram = s.dram := by
  obtain ⟨h, e⟩ := signal_host a s; rw [e]
@[simp] theorem signal_dom (a : Nat) (s : State) : (signal a s).dom = s.dom := by
  obtain ⟨h, e⟩ := signal_host a s; rw [e]
@[simp] theorem signal_boot (a : Nat) (s : State) : (signal a s).boot = s.boot := by
  obtain ⟨h, e⟩ := signal_host a s; rw [e]
@[simp] theorem signal_amb (a : Nat) (s : State) : (signal a s).amb = s.amb := by
  obtain ⟨h, e⟩ := signal_host a s; rw [e]
@[simp] theorem signal_ports (a : Nat) (s : State) : (signal a s).ports = s.ports := by
  obtain ⟨h, e⟩ := signal_host a s; rw [e]
@[simp] theorem signal_outs (a : Nat) (s : State) : (signal a s).outs = s.outs := by
  obtain ⟨h, e⟩ := signal_host a s; rw [e]
@[simp] theorem signal_bell (a : Nat) (s : State) : (signal a s).bell = s.bell := by
  obtain ⟨h, e⟩ := signal_host a s; rw [e]
@[simp] theorem signal_chans (a : Nat) (s : State) : (signal a s).chans = s.chans := by
  obtain ⟨h, e⟩ := signal_host a s; rw [e]
@[simp] theorem signal_terms (a : Nat) (s : State) : (signal a s).terms = s.terms := by
  obtain ⟨h, e⟩ := signal_host a s; rw [e]
@[simp] theorem signal_folds (a : Nat) (s : State) : (signal a s).folds = s.folds := by
  obtain ⟨h, e⟩ := signal_host a s; rw [e]
@[simp] theorem signal_binds (a : Nat) (s : State) : (signal a s).binds = s.binds := by
  obtain ⟨h, e⟩ := signal_host a s; rw [e]
@[simp] theorem signal_gates (a : Nat) (s : State) : (signal a s).gates = s.gates := by
  obtain ⟨h, e⟩ := signal_host a s; rw [e]
@[simp] theorem signal_timers (a : Nat) (s : State) : (signal a s).timers = s.timers := by
  obtain ⟨h, e⟩ := signal_host a s; rw [e]
@[simp] theorem signal_trips (a : Nat) (s : State) : (signal a s).trips = s.trips := by
  obtain ⟨h, e⟩ := signal_host a s; rw [e]
@[simp] theorem signal_motors (a : Nat) (s : State) : (signal a s).motors = s.motors := by
  obtain ⟨h, e⟩ := signal_host a s; rw [e]
@[simp] theorem signal_caps (a : Nat) (s : State) : (signal a s).caps = s.caps := by
  obtain ⟨h, e⟩ := signal_host a s; rw [e]
@[simp] theorem signal_injs (a : Nat) (s : State) : (signal a s).injs = s.injs := by
  obtain ⟨h, e⟩ := signal_host a s; rw [e]
@[simp] theorem signal_images (a : Nat) (s : State) : (signal a s).images = s.images := by
  obtain ⟨h, e⟩ := signal_host a s; rw [e]
@[simp] theorem signal_health (a : Nat) (s : State) : (signal a s).health = s.health := by
  obtain ⟨h, e⟩ := signal_host a s; rw [e]
@[simp] theorem signal_runs (a : Nat) (s : State) : (signal a s).runs = s.runs := by
  obtain ⟨h, e⟩ := signal_host a s; rw [e]
@[simp] theorem signal_mengs (a : Nat) (s : State) : (signal a s).mengs = s.mengs := by
  obtain ⟨h, e⟩ := signal_host a s; rw [e]
@[simp] theorem signal_sense (a : Nat) (s : State) : (signal a s).sense = s.sense := by
  obtain ⟨h, e⟩ := signal_host a s; rw [e]
@[simp] theorem signal_fs (a : Nat) (s : State) : (signal a s).fs = s.fs := by
  obtain ⟨h, e⟩ := signal_host a s; rw [e]
@[simp] theorem signal_cores (a : Nat) (s : State) : (signal a s).cores = s.cores := by
  obtain ⟨h, e⟩ := signal_host a s; rw [e]
@[simp] theorem signal_bists (a : Nat) (s : State) : (signal a s).bists = s.bists := by
  obtain ⟨h, e⟩ := signal_host a s; rw [e]
@[simp] theorem signal_jtag (a : Nat) (s : State) : (signal a s).jtag = s.jtag := by
  obtain ⟨h, e⟩ := signal_host a s; rw [e]
@[simp] theorem signal_diags (a : Nat) (s : State) : (signal a s).diags = s.diags := by
  obtain ⟨h, e⟩ := signal_host a s; rw [e]
@[simp] theorem signal_rings (a : Nat) (s : State) : (signal a s).rings = s.rings := by
  obtain ⟨h, e⟩ := signal_host a s; rw [e]
@[simp] theorem signal_svc (a : Nat) (s : State) : (signal a s).svc = s.svc := by
  obtain ⟨h, e⟩ := signal_host a s; rw [e]
@[simp] theorem signal_col (a : Nat) (s : State) : (signal a s).col = s.col := by
  obtain ⟨h, e⟩ := signal_host a s; rw [e]
@[simp] theorem signal_tal (a : Nat) (s : State) : (signal a s).tal = s.tal := by
  obtain ⟨h, e⟩ := signal_host a s; rw [e]
@[simp] theorem signal_sec (a : Nat) (s : State) : (signal a s).sec = s.sec := by
  obtain ⟨h, e⟩ := signal_host a s; rw [e]
@[simp] theorem signal_attest (a : Nat) (s : State) : (signal a s).attest = s.attest := by
  obtain ⟨h, e⟩ := signal_host a s; rw [e]
@[simp] theorem signal_stn (a : Nat) (s : State) : (signal a s).stn = s.stn := by
  obtain ⟨h, e⟩ := signal_host a s; rw [e]
@[simp] theorem signal_nv (a : Nat) (s : State) : (signal a s).nv = s.nv := by
  obtain ⟨h, e⟩ := signal_host a s; rw [e]
@[simp] theorem signal_free (a : Nat) (s : State) : (signal a s).free = s.free := by
  obtain ⟨h, e⟩ := signal_host a s; rw [e]
@[simp] theorem signal_at_reg (a : Nat) (s : State) (j : Nat) : (signal a s).reg j = s.reg j := by
  obtain ⟨h, e⟩ := signal_host a s; rw [e]; rfl
@[simp] theorem signal_at_wideAt (a : Nat) (s : State) (j : Nat) : (signal a s).wideAt j = s.wideAt j := by
  obtain ⟨h, e⟩ := signal_host a s; rw [e]; rfl
@[simp] theorem signal_at_port (a : Nat) (s : State) (j : Nat) : (signal a s).port j = s.port j := by
  obtain ⟨h, e⟩ := signal_host a s; rw [e]; rfl
@[simp] theorem signal_at_out (a : Nat) (s : State) (j : Nat) : (signal a s).out j = s.out j := by
  obtain ⟨h, e⟩ := signal_host a s; rw [e]; rfl
@[simp] theorem signal_at_chan (a : Nat) (s : State) (j : Nat) : (signal a s).chan j = s.chan j := by
  obtain ⟨h, e⟩ := signal_host a s; rw [e]; rfl
@[simp] theorem signal_at_term (a : Nat) (s : State) (j : Nat) : (signal a s).term j = s.term j := by
  obtain ⟨h, e⟩ := signal_host a s; rw [e]; rfl
@[simp] theorem signal_at_fold (a : Nat) (s : State) (j : Nat) : (signal a s).fold j = s.fold j := by
  obtain ⟨h, e⟩ := signal_host a s; rw [e]; rfl
@[simp] theorem signal_at_bind (a : Nat) (s : State) (j : Nat) : (signal a s).bind j = s.bind j := by
  obtain ⟨h, e⟩ := signal_host a s; rw [e]; rfl
@[simp] theorem signal_at_gate (a : Nat) (s : State) (j : Nat) : (signal a s).gate j = s.gate j := by
  obtain ⟨h, e⟩ := signal_host a s; rw [e]; rfl
@[simp] theorem signal_at_timer (a : Nat) (s : State) (j : Nat) : (signal a s).timer j = s.timer j := by
  obtain ⟨h, e⟩ := signal_host a s; rw [e]; rfl
@[simp] theorem signal_at_trip (a : Nat) (s : State) (j : Nat) : (signal a s).trip j = s.trip j := by
  obtain ⟨h, e⟩ := signal_host a s; rw [e]; rfl
@[simp] theorem signal_at_ring (a : Nat) (s : State) (j : Nat) : (signal a s).ring j = s.ring j := by
  obtain ⟨h, e⟩ := signal_host a s; rw [e]; rfl
@[simp] theorem signal_at_inj (a : Nat) (s : State) (j : Nat) : (signal a s).inj j = s.inj j := by
  obtain ⟨h, e⟩ := signal_host a s; rw [e]; rfl
@[simp] theorem signal_at_cap (a : Nat) (s : State) (j : Nat) : (signal a s).cap j = s.cap j := by
  obtain ⟨h, e⟩ := signal_host a s; rw [e]; rfl
@[simp] theorem signal_at_motor (a : Nat) (s : State) (j : Nat) : (signal a s).motor j = s.motor j := by
  obtain ⟨h, e⟩ := signal_host a s; rw [e]; rfl
@[simp] theorem signal_at_hlt (a : Nat) (s : State) (j : Nat) : (signal a s).hlt j = s.hlt j := by
  obtain ⟨h, e⟩ := signal_host a s; rw [e]; rfl
@[simp] theorem signal_at_run (a : Nat) (s : State) (j : Nat) : (signal a s).run j = s.run j := by
  obtain ⟨h, e⟩ := signal_host a s; rw [e]; rfl
@[simp] theorem signal_at_meng (a : Nat) (s : State) (j : Nat) : (signal a s).meng j = s.meng j := by
  obtain ⟨h, e⟩ := signal_host a s; rw [e]; rfl
@[simp] theorem signal_at_sns (a : Nat) (s : State) (j : Nat) : (signal a s).sns j = s.sns j := by
  obtain ⟨h, e⟩ := signal_host a s; rw [e]; rfl
@[simp] theorem signal_at_image (a : Nat) (s : State) (j : Nat) : (signal a s).image j = s.image j := by
  obtain ⟨h, e⟩ := signal_host a s; rw [e]; rfl
@[simp] theorem signal_at_fsPair (a : Nat) (s : State) (j : Nat) : (signal a s).fsPair j = s.fsPair j := by
  obtain ⟨h, e⟩ := signal_host a s; rw [e]; rfl
@[simp] theorem signal_at_core (a : Nat) (s : State) (j : Nat) : (signal a s).core j = s.core j := by
  obtain ⟨h, e⟩ := signal_host a s; rw [e]; rfl
@[simp] theorem signal_at_bist (a : Nat) (s : State) (j : Nat) : (signal a s).bist j = s.bist j := by
  obtain ⟨h, e⟩ := signal_host a s; rw [e]; rfl
@[simp] theorem signal_at_dramByte (a : Nat) (s : State) (j : Nat) : (signal a s).dramByte j = s.dramByte j := by
  obtain ⟨h, e⟩ := signal_host a s; rw [e]; rfl
@[simp] theorem signal_at_diag (a : Nat) (s : State) (j : Nat) : (signal a s).diag j = s.diag j := by
  obtain ⟨h, e⟩ := signal_host a s; rw [e]; rfl

@[simp] theorem setEvt_pending (a bit : Nat) (s : State) : (setEvt a bit s).pending = s.pending := by simp [setEvt]
@[simp] theorem setEvt_wide (a bit : Nat) (s : State) : (setEvt a bit s).wide = s.wide := by simp [setEvt]
@[simp] theorem setEvt_hiLatch (a bit : Nat) (s : State) : (setEvt a bit s).hiLatch = s.hiLatch := by simp [setEvt]
@[simp] theorem setEvt_gens (a bit : Nat) (s : State) : (setEvt a bit s).gens = s.gens := by simp [setEvt]
@[simp] theorem setEvt_ws (a bit : Nat) (s : State) : (setEvt a bit s).ws = s.ws := by simp [setEvt]
@[simp] theorem setEvt_dram (a bit : Nat) (s : State) : (setEvt a bit s).dram = s.dram := by simp [setEvt]
@[simp] theorem setEvt_dom (a bit : Nat) (s : State) : (setEvt a bit s).dom = s.dom := by simp [setEvt]
@[simp] theorem setEvt_boot (a bit : Nat) (s : State) : (setEvt a bit s).boot = s.boot := by simp [setEvt]
@[simp] theorem setEvt_amb (a bit : Nat) (s : State) : (setEvt a bit s).amb = s.amb := by simp [setEvt]
@[simp] theorem setEvt_ports (a bit : Nat) (s : State) : (setEvt a bit s).ports = s.ports := by simp [setEvt]
@[simp] theorem setEvt_outs (a bit : Nat) (s : State) : (setEvt a bit s).outs = s.outs := by simp [setEvt]
@[simp] theorem setEvt_bell (a bit : Nat) (s : State) : (setEvt a bit s).bell = s.bell := by simp [setEvt]
@[simp] theorem setEvt_chans (a bit : Nat) (s : State) : (setEvt a bit s).chans = s.chans := by simp [setEvt]
@[simp] theorem setEvt_terms (a bit : Nat) (s : State) : (setEvt a bit s).terms = s.terms := by simp [setEvt]
@[simp] theorem setEvt_folds (a bit : Nat) (s : State) : (setEvt a bit s).folds = s.folds := by simp [setEvt]
@[simp] theorem setEvt_binds (a bit : Nat) (s : State) : (setEvt a bit s).binds = s.binds := by simp [setEvt]
@[simp] theorem setEvt_gates (a bit : Nat) (s : State) : (setEvt a bit s).gates = s.gates := by simp [setEvt]
@[simp] theorem setEvt_timers (a bit : Nat) (s : State) : (setEvt a bit s).timers = s.timers := by simp [setEvt]
@[simp] theorem setEvt_trips (a bit : Nat) (s : State) : (setEvt a bit s).trips = s.trips := by simp [setEvt]
@[simp] theorem setEvt_motors (a bit : Nat) (s : State) : (setEvt a bit s).motors = s.motors := by simp [setEvt]
@[simp] theorem setEvt_caps (a bit : Nat) (s : State) : (setEvt a bit s).caps = s.caps := by simp [setEvt]
@[simp] theorem setEvt_injs (a bit : Nat) (s : State) : (setEvt a bit s).injs = s.injs := by simp [setEvt]
@[simp] theorem setEvt_images (a bit : Nat) (s : State) : (setEvt a bit s).images = s.images := by simp [setEvt]
@[simp] theorem setEvt_health (a bit : Nat) (s : State) : (setEvt a bit s).health = s.health := by simp [setEvt]
@[simp] theorem setEvt_runs (a bit : Nat) (s : State) : (setEvt a bit s).runs = s.runs := by simp [setEvt]
@[simp] theorem setEvt_mengs (a bit : Nat) (s : State) : (setEvt a bit s).mengs = s.mengs := by simp [setEvt]
@[simp] theorem setEvt_sense (a bit : Nat) (s : State) : (setEvt a bit s).sense = s.sense := by simp [setEvt]
@[simp] theorem setEvt_fs (a bit : Nat) (s : State) : (setEvt a bit s).fs = s.fs := by simp [setEvt]
@[simp] theorem setEvt_cores (a bit : Nat) (s : State) : (setEvt a bit s).cores = s.cores := by simp [setEvt]
@[simp] theorem setEvt_bists (a bit : Nat) (s : State) : (setEvt a bit s).bists = s.bists := by simp [setEvt]
@[simp] theorem setEvt_jtag (a bit : Nat) (s : State) : (setEvt a bit s).jtag = s.jtag := by simp [setEvt]
@[simp] theorem setEvt_diags (a bit : Nat) (s : State) : (setEvt a bit s).diags = s.diags := by simp [setEvt]
@[simp] theorem setEvt_rings (a bit : Nat) (s : State) : (setEvt a bit s).rings = s.rings := by simp [setEvt]
@[simp] theorem setEvt_svc (a bit : Nat) (s : State) : (setEvt a bit s).svc = s.svc := by simp [setEvt]
@[simp] theorem setEvt_col (a bit : Nat) (s : State) : (setEvt a bit s).col = s.col := by simp [setEvt]
@[simp] theorem setEvt_tal (a bit : Nat) (s : State) : (setEvt a bit s).tal = s.tal := by simp [setEvt]
@[simp] theorem setEvt_sec (a bit : Nat) (s : State) : (setEvt a bit s).sec = s.sec := by simp [setEvt]
@[simp] theorem setEvt_attest (a bit : Nat) (s : State) : (setEvt a bit s).attest = s.attest := by simp [setEvt]
@[simp] theorem setEvt_stn (a bit : Nat) (s : State) : (setEvt a bit s).stn = s.stn := by simp [setEvt]
@[simp] theorem setEvt_nv (a bit : Nat) (s : State) : (setEvt a bit s).nv = s.nv := by simp [setEvt]
@[simp] theorem setEvt_free (a bit : Nat) (s : State) : (setEvt a bit s).free = s.free := by simp [setEvt]
@[simp] theorem setEvt_at_wideAt (a bit : Nat) (s : State) (j : Nat) : (setEvt a bit s).wideAt j = s.wideAt j := by simp [setEvt]
@[simp] theorem setEvt_at_port (a bit : Nat) (s : State) (j : Nat) : (setEvt a bit s).port j = s.port j := by simp [setEvt]
@[simp] theorem setEvt_at_out (a bit : Nat) (s : State) (j : Nat) : (setEvt a bit s).out j = s.out j := by simp [setEvt]
@[simp] theorem setEvt_at_chan (a bit : Nat) (s : State) (j : Nat) : (setEvt a bit s).chan j = s.chan j := by simp [setEvt]
@[simp] theorem setEvt_at_term (a bit : Nat) (s : State) (j : Nat) : (setEvt a bit s).term j = s.term j := by simp [setEvt]
@[simp] theorem setEvt_at_fold (a bit : Nat) (s : State) (j : Nat) : (setEvt a bit s).fold j = s.fold j := by simp [setEvt]
@[simp] theorem setEvt_at_bind (a bit : Nat) (s : State) (j : Nat) : (setEvt a bit s).bind j = s.bind j := by simp [setEvt]
@[simp] theorem setEvt_at_gate (a bit : Nat) (s : State) (j : Nat) : (setEvt a bit s).gate j = s.gate j := by simp [setEvt]
@[simp] theorem setEvt_at_timer (a bit : Nat) (s : State) (j : Nat) : (setEvt a bit s).timer j = s.timer j := by simp [setEvt]
@[simp] theorem setEvt_at_trip (a bit : Nat) (s : State) (j : Nat) : (setEvt a bit s).trip j = s.trip j := by simp [setEvt]
@[simp] theorem setEvt_at_ring (a bit : Nat) (s : State) (j : Nat) : (setEvt a bit s).ring j = s.ring j := by simp [setEvt]
@[simp] theorem setEvt_at_inj (a bit : Nat) (s : State) (j : Nat) : (setEvt a bit s).inj j = s.inj j := by simp [setEvt]
@[simp] theorem setEvt_at_cap (a bit : Nat) (s : State) (j : Nat) : (setEvt a bit s).cap j = s.cap j := by simp [setEvt]
@[simp] theorem setEvt_at_motor (a bit : Nat) (s : State) (j : Nat) : (setEvt a bit s).motor j = s.motor j := by simp [setEvt]
@[simp] theorem setEvt_at_hlt (a bit : Nat) (s : State) (j : Nat) : (setEvt a bit s).hlt j = s.hlt j := by simp [setEvt]
@[simp] theorem setEvt_at_run (a bit : Nat) (s : State) (j : Nat) : (setEvt a bit s).run j = s.run j := by simp [setEvt]
@[simp] theorem setEvt_at_meng (a bit : Nat) (s : State) (j : Nat) : (setEvt a bit s).meng j = s.meng j := by simp [setEvt]
@[simp] theorem setEvt_at_sns (a bit : Nat) (s : State) (j : Nat) : (setEvt a bit s).sns j = s.sns j := by simp [setEvt]
@[simp] theorem setEvt_at_image (a bit : Nat) (s : State) (j : Nat) : (setEvt a bit s).image j = s.image j := by simp [setEvt]
@[simp] theorem setEvt_at_fsPair (a bit : Nat) (s : State) (j : Nat) : (setEvt a bit s).fsPair j = s.fsPair j := by simp [setEvt]
@[simp] theorem setEvt_at_core (a bit : Nat) (s : State) (j : Nat) : (setEvt a bit s).core j = s.core j := by simp [setEvt]
@[simp] theorem setEvt_at_bist (a bit : Nat) (s : State) (j : Nat) : (setEvt a bit s).bist j = s.bist j := by simp [setEvt]
@[simp] theorem setEvt_at_dramByte (a bit : Nat) (s : State) (j : Nat) : (setEvt a bit s).dramByte j = s.dramByte j := by simp [setEvt]
@[simp] theorem setEvt_at_diag (a bit : Nat) (s : State) (j : Nat) : (setEvt a bit s).diag j = s.diag j := by simp [setEvt]

@[simp] theorem queueRep_pending (r : Report) (s : State) : (queueRep r s).pending = s.pending := rfl
@[simp] theorem queueRep_regs (r : Report) (s : State) : (queueRep r s).regs = s.regs := rfl
@[simp] theorem queueRep_wide (r : Report) (s : State) : (queueRep r s).wide = s.wide := rfl
@[simp] theorem queueRep_hiLatch (r : Report) (s : State) : (queueRep r s).hiLatch = s.hiLatch := rfl
@[simp] theorem queueRep_gens (r : Report) (s : State) : (queueRep r s).gens = s.gens := rfl
@[simp] theorem queueRep_ws (r : Report) (s : State) : (queueRep r s).ws = s.ws := rfl
@[simp] theorem queueRep_dram (r : Report) (s : State) : (queueRep r s).dram = s.dram := rfl
@[simp] theorem queueRep_dom (r : Report) (s : State) : (queueRep r s).dom = s.dom := rfl
@[simp] theorem queueRep_boot (r : Report) (s : State) : (queueRep r s).boot = s.boot := rfl
@[simp] theorem queueRep_amb (r : Report) (s : State) : (queueRep r s).amb = s.amb := rfl
@[simp] theorem queueRep_ports (r : Report) (s : State) : (queueRep r s).ports = s.ports := rfl
@[simp] theorem queueRep_outs (r : Report) (s : State) : (queueRep r s).outs = s.outs := rfl
@[simp] theorem queueRep_bell (r : Report) (s : State) : (queueRep r s).bell = s.bell := rfl
@[simp] theorem queueRep_chans (r : Report) (s : State) : (queueRep r s).chans = s.chans := rfl
@[simp] theorem queueRep_terms (r : Report) (s : State) : (queueRep r s).terms = s.terms := rfl
@[simp] theorem queueRep_folds (r : Report) (s : State) : (queueRep r s).folds = s.folds := rfl
@[simp] theorem queueRep_binds (r : Report) (s : State) : (queueRep r s).binds = s.binds := rfl
@[simp] theorem queueRep_gates (r : Report) (s : State) : (queueRep r s).gates = s.gates := rfl
@[simp] theorem queueRep_timers (r : Report) (s : State) : (queueRep r s).timers = s.timers := rfl
@[simp] theorem queueRep_trips (r : Report) (s : State) : (queueRep r s).trips = s.trips := rfl
@[simp] theorem queueRep_motors (r : Report) (s : State) : (queueRep r s).motors = s.motors := rfl
@[simp] theorem queueRep_caps (r : Report) (s : State) : (queueRep r s).caps = s.caps := rfl
@[simp] theorem queueRep_injs (r : Report) (s : State) : (queueRep r s).injs = s.injs := rfl
@[simp] theorem queueRep_images (r : Report) (s : State) : (queueRep r s).images = s.images := rfl
@[simp] theorem queueRep_health (r : Report) (s : State) : (queueRep r s).health = s.health := rfl
@[simp] theorem queueRep_runs (r : Report) (s : State) : (queueRep r s).runs = s.runs := rfl
@[simp] theorem queueRep_mengs (r : Report) (s : State) : (queueRep r s).mengs = s.mengs := rfl
@[simp] theorem queueRep_sense (r : Report) (s : State) : (queueRep r s).sense = s.sense := rfl
@[simp] theorem queueRep_fs (r : Report) (s : State) : (queueRep r s).fs = s.fs := rfl
@[simp] theorem queueRep_cores (r : Report) (s : State) : (queueRep r s).cores = s.cores := rfl
@[simp] theorem queueRep_bists (r : Report) (s : State) : (queueRep r s).bists = s.bists := rfl
@[simp] theorem queueRep_jtag (r : Report) (s : State) : (queueRep r s).jtag = s.jtag := rfl
@[simp] theorem queueRep_diags (r : Report) (s : State) : (queueRep r s).diags = s.diags := rfl
@[simp] theorem queueRep_rings (r : Report) (s : State) : (queueRep r s).rings = s.rings := rfl
@[simp] theorem queueRep_svc (r : Report) (s : State) : (queueRep r s).svc = s.svc := rfl
@[simp] theorem queueRep_tal (r : Report) (s : State) : (queueRep r s).tal = s.tal := rfl
@[simp] theorem queueRep_sec (r : Report) (s : State) : (queueRep r s).sec = s.sec := rfl
@[simp] theorem queueRep_attest (r : Report) (s : State) : (queueRep r s).attest = s.attest := rfl
@[simp] theorem queueRep_host (r : Report) (s : State) : (queueRep r s).host = s.host := rfl
@[simp] theorem queueRep_stn (r : Report) (s : State) : (queueRep r s).stn = s.stn := rfl
@[simp] theorem queueRep_nv (r : Report) (s : State) : (queueRep r s).nv = s.nv := rfl
@[simp] theorem queueRep_free (r : Report) (s : State) : (queueRep r s).free = s.free := rfl
@[simp] theorem queueRep_at_reg (r : Report) (s : State) (j : Nat) : (queueRep r s).reg j = s.reg j := rfl
@[simp] theorem queueRep_at_wideAt (r : Report) (s : State) (j : Nat) : (queueRep r s).wideAt j = s.wideAt j := rfl
@[simp] theorem queueRep_at_port (r : Report) (s : State) (j : Nat) : (queueRep r s).port j = s.port j := rfl
@[simp] theorem queueRep_at_out (r : Report) (s : State) (j : Nat) : (queueRep r s).out j = s.out j := rfl
@[simp] theorem queueRep_at_chan (r : Report) (s : State) (j : Nat) : (queueRep r s).chan j = s.chan j := rfl
@[simp] theorem queueRep_at_term (r : Report) (s : State) (j : Nat) : (queueRep r s).term j = s.term j := rfl
@[simp] theorem queueRep_at_fold (r : Report) (s : State) (j : Nat) : (queueRep r s).fold j = s.fold j := rfl
@[simp] theorem queueRep_at_bind (r : Report) (s : State) (j : Nat) : (queueRep r s).bind j = s.bind j := rfl
@[simp] theorem queueRep_at_gate (r : Report) (s : State) (j : Nat) : (queueRep r s).gate j = s.gate j := rfl
@[simp] theorem queueRep_at_timer (r : Report) (s : State) (j : Nat) : (queueRep r s).timer j = s.timer j := rfl
@[simp] theorem queueRep_at_trip (r : Report) (s : State) (j : Nat) : (queueRep r s).trip j = s.trip j := rfl
@[simp] theorem queueRep_at_ring (r : Report) (s : State) (j : Nat) : (queueRep r s).ring j = s.ring j := rfl
@[simp] theorem queueRep_at_inj (r : Report) (s : State) (j : Nat) : (queueRep r s).inj j = s.inj j := rfl
@[simp] theorem queueRep_at_cap (r : Report) (s : State) (j : Nat) : (queueRep r s).cap j = s.cap j := rfl
@[simp] theorem queueRep_at_motor (r : Report) (s : State) (j : Nat) : (queueRep r s).motor j = s.motor j := rfl
@[simp] theorem queueRep_at_hlt (r : Report) (s : State) (j : Nat) : (queueRep r s).hlt j = s.hlt j := rfl
@[simp] theorem queueRep_at_run (r : Report) (s : State) (j : Nat) : (queueRep r s).run j = s.run j := rfl
@[simp] theorem queueRep_at_meng (r : Report) (s : State) (j : Nat) : (queueRep r s).meng j = s.meng j := rfl
@[simp] theorem queueRep_at_sns (r : Report) (s : State) (j : Nat) : (queueRep r s).sns j = s.sns j := rfl
@[simp] theorem queueRep_at_image (r : Report) (s : State) (j : Nat) : (queueRep r s).image j = s.image j := rfl
@[simp] theorem queueRep_at_fsPair (r : Report) (s : State) (j : Nat) : (queueRep r s).fsPair j = s.fsPair j := rfl
@[simp] theorem queueRep_at_core (r : Report) (s : State) (j : Nat) : (queueRep r s).core j = s.core j := rfl
@[simp] theorem queueRep_at_bist (r : Report) (s : State) (j : Nat) : (queueRep r s).bist j = s.bist j := rfl
@[simp] theorem queueRep_at_dramByte (r : Report) (s : State) (j : Nat) : (queueRep r s).dramByte j = s.dramByte j := rfl
@[simp] theorem queueRep_at_diag (r : Report) (s : State) (j : Nat) : (queueRep r s).diag j = s.diag j := rfl

@[simp] theorem raise_pending (a : Nat) (r : Report) (s : State) : (raise a r s).pending = s.pending := by simp [raise]
@[simp] theorem raise_wide (a : Nat) (r : Report) (s : State) : (raise a r s).wide = s.wide := by simp [raise]
@[simp] theorem raise_hiLatch (a : Nat) (r : Report) (s : State) : (raise a r s).hiLatch = s.hiLatch := by simp [raise]
@[simp] theorem raise_gens (a : Nat) (r : Report) (s : State) : (raise a r s).gens = s.gens := by simp [raise]
@[simp] theorem raise_ws (a : Nat) (r : Report) (s : State) : (raise a r s).ws = s.ws := by simp [raise]
@[simp] theorem raise_dram (a : Nat) (r : Report) (s : State) : (raise a r s).dram = s.dram := by simp [raise]
@[simp] theorem raise_dom (a : Nat) (r : Report) (s : State) : (raise a r s).dom = s.dom := by simp [raise]
@[simp] theorem raise_boot (a : Nat) (r : Report) (s : State) : (raise a r s).boot = s.boot := by simp [raise]
@[simp] theorem raise_amb (a : Nat) (r : Report) (s : State) : (raise a r s).amb = s.amb := by simp [raise]
@[simp] theorem raise_ports (a : Nat) (r : Report) (s : State) : (raise a r s).ports = s.ports := by simp [raise]
@[simp] theorem raise_outs (a : Nat) (r : Report) (s : State) : (raise a r s).outs = s.outs := by simp [raise]
@[simp] theorem raise_bell (a : Nat) (r : Report) (s : State) : (raise a r s).bell = s.bell := by simp [raise]
@[simp] theorem raise_chans (a : Nat) (r : Report) (s : State) : (raise a r s).chans = s.chans := by simp [raise]
@[simp] theorem raise_terms (a : Nat) (r : Report) (s : State) : (raise a r s).terms = s.terms := by simp [raise]
@[simp] theorem raise_folds (a : Nat) (r : Report) (s : State) : (raise a r s).folds = s.folds := by simp [raise]
@[simp] theorem raise_binds (a : Nat) (r : Report) (s : State) : (raise a r s).binds = s.binds := by simp [raise]
@[simp] theorem raise_gates (a : Nat) (r : Report) (s : State) : (raise a r s).gates = s.gates := by simp [raise]
@[simp] theorem raise_timers (a : Nat) (r : Report) (s : State) : (raise a r s).timers = s.timers := by simp [raise]
@[simp] theorem raise_trips (a : Nat) (r : Report) (s : State) : (raise a r s).trips = s.trips := by simp [raise]
@[simp] theorem raise_motors (a : Nat) (r : Report) (s : State) : (raise a r s).motors = s.motors := by simp [raise]
@[simp] theorem raise_caps (a : Nat) (r : Report) (s : State) : (raise a r s).caps = s.caps := by simp [raise]
@[simp] theorem raise_injs (a : Nat) (r : Report) (s : State) : (raise a r s).injs = s.injs := by simp [raise]
@[simp] theorem raise_images (a : Nat) (r : Report) (s : State) : (raise a r s).images = s.images := by simp [raise]
@[simp] theorem raise_health (a : Nat) (r : Report) (s : State) : (raise a r s).health = s.health := by simp [raise]
@[simp] theorem raise_runs (a : Nat) (r : Report) (s : State) : (raise a r s).runs = s.runs := by simp [raise]
@[simp] theorem raise_mengs (a : Nat) (r : Report) (s : State) : (raise a r s).mengs = s.mengs := by simp [raise]
@[simp] theorem raise_sense (a : Nat) (r : Report) (s : State) : (raise a r s).sense = s.sense := by simp [raise]
@[simp] theorem raise_fs (a : Nat) (r : Report) (s : State) : (raise a r s).fs = s.fs := by simp [raise]
@[simp] theorem raise_cores (a : Nat) (r : Report) (s : State) : (raise a r s).cores = s.cores := by simp [raise]
@[simp] theorem raise_bists (a : Nat) (r : Report) (s : State) : (raise a r s).bists = s.bists := by simp [raise]
@[simp] theorem raise_jtag (a : Nat) (r : Report) (s : State) : (raise a r s).jtag = s.jtag := by simp [raise]
@[simp] theorem raise_diags (a : Nat) (r : Report) (s : State) : (raise a r s).diags = s.diags := by simp [raise]
@[simp] theorem raise_rings (a : Nat) (r : Report) (s : State) : (raise a r s).rings = s.rings := by simp [raise]
@[simp] theorem raise_svc (a : Nat) (r : Report) (s : State) : (raise a r s).svc = s.svc := by simp [raise]
@[simp] theorem raise_tal (a : Nat) (r : Report) (s : State) : (raise a r s).tal = s.tal := by simp [raise]
@[simp] theorem raise_sec (a : Nat) (r : Report) (s : State) : (raise a r s).sec = s.sec := by simp [raise]
@[simp] theorem raise_attest (a : Nat) (r : Report) (s : State) : (raise a r s).attest = s.attest := by simp [raise]
@[simp] theorem raise_stn (a : Nat) (r : Report) (s : State) : (raise a r s).stn = s.stn := by simp [raise]
@[simp] theorem raise_nv (a : Nat) (r : Report) (s : State) : (raise a r s).nv = s.nv := by simp [raise]
@[simp] theorem raise_free (a : Nat) (r : Report) (s : State) : (raise a r s).free = s.free := by simp [raise]
@[simp] theorem raise_at_wideAt (a : Nat) (r : Report) (s : State) (j : Nat) : (raise a r s).wideAt j = s.wideAt j := by simp [raise]
@[simp] theorem raise_at_port (a : Nat) (r : Report) (s : State) (j : Nat) : (raise a r s).port j = s.port j := by simp [raise]
@[simp] theorem raise_at_out (a : Nat) (r : Report) (s : State) (j : Nat) : (raise a r s).out j = s.out j := by simp [raise]
@[simp] theorem raise_at_chan (a : Nat) (r : Report) (s : State) (j : Nat) : (raise a r s).chan j = s.chan j := by simp [raise]
@[simp] theorem raise_at_term (a : Nat) (r : Report) (s : State) (j : Nat) : (raise a r s).term j = s.term j := by simp [raise]
@[simp] theorem raise_at_fold (a : Nat) (r : Report) (s : State) (j : Nat) : (raise a r s).fold j = s.fold j := by simp [raise]
@[simp] theorem raise_at_bind (a : Nat) (r : Report) (s : State) (j : Nat) : (raise a r s).bind j = s.bind j := by simp [raise]
@[simp] theorem raise_at_gate (a : Nat) (r : Report) (s : State) (j : Nat) : (raise a r s).gate j = s.gate j := by simp [raise]
@[simp] theorem raise_at_timer (a : Nat) (r : Report) (s : State) (j : Nat) : (raise a r s).timer j = s.timer j := by simp [raise]
@[simp] theorem raise_at_trip (a : Nat) (r : Report) (s : State) (j : Nat) : (raise a r s).trip j = s.trip j := by simp [raise]
@[simp] theorem raise_at_ring (a : Nat) (r : Report) (s : State) (j : Nat) : (raise a r s).ring j = s.ring j := by simp [raise]
@[simp] theorem raise_at_inj (a : Nat) (r : Report) (s : State) (j : Nat) : (raise a r s).inj j = s.inj j := by simp [raise]
@[simp] theorem raise_at_cap (a : Nat) (r : Report) (s : State) (j : Nat) : (raise a r s).cap j = s.cap j := by simp [raise]
@[simp] theorem raise_at_motor (a : Nat) (r : Report) (s : State) (j : Nat) : (raise a r s).motor j = s.motor j := by simp [raise]
@[simp] theorem raise_at_hlt (a : Nat) (r : Report) (s : State) (j : Nat) : (raise a r s).hlt j = s.hlt j := by simp [raise]
@[simp] theorem raise_at_run (a : Nat) (r : Report) (s : State) (j : Nat) : (raise a r s).run j = s.run j := by simp [raise]
@[simp] theorem raise_at_meng (a : Nat) (r : Report) (s : State) (j : Nat) : (raise a r s).meng j = s.meng j := by simp [raise]
@[simp] theorem raise_at_sns (a : Nat) (r : Report) (s : State) (j : Nat) : (raise a r s).sns j = s.sns j := by simp [raise]
@[simp] theorem raise_at_image (a : Nat) (r : Report) (s : State) (j : Nat) : (raise a r s).image j = s.image j := by simp [raise]
@[simp] theorem raise_at_fsPair (a : Nat) (r : Report) (s : State) (j : Nat) : (raise a r s).fsPair j = s.fsPair j := by simp [raise]
@[simp] theorem raise_at_core (a : Nat) (r : Report) (s : State) (j : Nat) : (raise a r s).core j = s.core j := by simp [raise]
@[simp] theorem raise_at_bist (a : Nat) (r : Report) (s : State) (j : Nat) : (raise a r s).bist j = s.bist j := by simp [raise]
@[simp] theorem raise_at_dramByte (a : Nat) (r : Report) (s : State) (j : Nat) : (raise a r s).dramByte j = s.dramByte j := by simp [raise]
@[simp] theorem raise_at_diag (a : Nat) (r : Report) (s : State) (j : Nat) : (raise a r s).diag j = s.diag j := by simp [raise]

@[simp] theorem raiseOwn_pending (source bit cls okind object : Nat) (s : State) : (raiseOwn source bit cls okind object s).pending = s.pending := rfl
@[simp] theorem raiseOwn_regs (source bit cls okind object : Nat) (s : State) : (raiseOwn source bit cls okind object s).regs = s.regs := rfl
@[simp] theorem raiseOwn_wide (source bit cls okind object : Nat) (s : State) : (raiseOwn source bit cls okind object s).wide = s.wide := rfl
@[simp] theorem raiseOwn_hiLatch (source bit cls okind object : Nat) (s : State) : (raiseOwn source bit cls okind object s).hiLatch = s.hiLatch := rfl
@[simp] theorem raiseOwn_gens (source bit cls okind object : Nat) (s : State) : (raiseOwn source bit cls okind object s).gens = s.gens := rfl
@[simp] theorem raiseOwn_ws (source bit cls okind object : Nat) (s : State) : (raiseOwn source bit cls okind object s).ws = s.ws := rfl
@[simp] theorem raiseOwn_dram (source bit cls okind object : Nat) (s : State) : (raiseOwn source bit cls okind object s).dram = s.dram := rfl
@[simp] theorem raiseOwn_dom (source bit cls okind object : Nat) (s : State) : (raiseOwn source bit cls okind object s).dom = s.dom := rfl
@[simp] theorem raiseOwn_boot (source bit cls okind object : Nat) (s : State) : (raiseOwn source bit cls okind object s).boot = s.boot := rfl
@[simp] theorem raiseOwn_amb (source bit cls okind object : Nat) (s : State) : (raiseOwn source bit cls okind object s).amb = s.amb := rfl
@[simp] theorem raiseOwn_ports (source bit cls okind object : Nat) (s : State) : (raiseOwn source bit cls okind object s).ports = s.ports := rfl
@[simp] theorem raiseOwn_outs (source bit cls okind object : Nat) (s : State) : (raiseOwn source bit cls okind object s).outs = s.outs := rfl
@[simp] theorem raiseOwn_bell (source bit cls okind object : Nat) (s : State) : (raiseOwn source bit cls okind object s).bell = s.bell := rfl
@[simp] theorem raiseOwn_chans (source bit cls okind object : Nat) (s : State) : (raiseOwn source bit cls okind object s).chans = s.chans := rfl
@[simp] theorem raiseOwn_terms (source bit cls okind object : Nat) (s : State) : (raiseOwn source bit cls okind object s).terms = s.terms := rfl
@[simp] theorem raiseOwn_folds (source bit cls okind object : Nat) (s : State) : (raiseOwn source bit cls okind object s).folds = s.folds := rfl
@[simp] theorem raiseOwn_binds (source bit cls okind object : Nat) (s : State) : (raiseOwn source bit cls okind object s).binds = s.binds := rfl
@[simp] theorem raiseOwn_gates (source bit cls okind object : Nat) (s : State) : (raiseOwn source bit cls okind object s).gates = s.gates := rfl
@[simp] theorem raiseOwn_timers (source bit cls okind object : Nat) (s : State) : (raiseOwn source bit cls okind object s).timers = s.timers := rfl
@[simp] theorem raiseOwn_trips (source bit cls okind object : Nat) (s : State) : (raiseOwn source bit cls okind object s).trips = s.trips := rfl
@[simp] theorem raiseOwn_motors (source bit cls okind object : Nat) (s : State) : (raiseOwn source bit cls okind object s).motors = s.motors := rfl
@[simp] theorem raiseOwn_caps (source bit cls okind object : Nat) (s : State) : (raiseOwn source bit cls okind object s).caps = s.caps := rfl
@[simp] theorem raiseOwn_injs (source bit cls okind object : Nat) (s : State) : (raiseOwn source bit cls okind object s).injs = s.injs := rfl
@[simp] theorem raiseOwn_images (source bit cls okind object : Nat) (s : State) : (raiseOwn source bit cls okind object s).images = s.images := rfl
@[simp] theorem raiseOwn_health (source bit cls okind object : Nat) (s : State) : (raiseOwn source bit cls okind object s).health = s.health := rfl
@[simp] theorem raiseOwn_runs (source bit cls okind object : Nat) (s : State) : (raiseOwn source bit cls okind object s).runs = s.runs := rfl
@[simp] theorem raiseOwn_mengs (source bit cls okind object : Nat) (s : State) : (raiseOwn source bit cls okind object s).mengs = s.mengs := rfl
@[simp] theorem raiseOwn_sense (source bit cls okind object : Nat) (s : State) : (raiseOwn source bit cls okind object s).sense = s.sense := rfl
@[simp] theorem raiseOwn_fs (source bit cls okind object : Nat) (s : State) : (raiseOwn source bit cls okind object s).fs = s.fs := rfl
@[simp] theorem raiseOwn_cores (source bit cls okind object : Nat) (s : State) : (raiseOwn source bit cls okind object s).cores = s.cores := rfl
@[simp] theorem raiseOwn_bists (source bit cls okind object : Nat) (s : State) : (raiseOwn source bit cls okind object s).bists = s.bists := rfl
@[simp] theorem raiseOwn_jtag (source bit cls okind object : Nat) (s : State) : (raiseOwn source bit cls okind object s).jtag = s.jtag := rfl
@[simp] theorem raiseOwn_diags (source bit cls okind object : Nat) (s : State) : (raiseOwn source bit cls okind object s).diags = s.diags := rfl
@[simp] theorem raiseOwn_rings (source bit cls okind object : Nat) (s : State) : (raiseOwn source bit cls okind object s).rings = s.rings := rfl
@[simp] theorem raiseOwn_svc (source bit cls okind object : Nat) (s : State) : (raiseOwn source bit cls okind object s).svc = s.svc := rfl
@[simp] theorem raiseOwn_tal (source bit cls okind object : Nat) (s : State) : (raiseOwn source bit cls okind object s).tal = s.tal := rfl
@[simp] theorem raiseOwn_sec (source bit cls okind object : Nat) (s : State) : (raiseOwn source bit cls okind object s).sec = s.sec := rfl
@[simp] theorem raiseOwn_attest (source bit cls okind object : Nat) (s : State) : (raiseOwn source bit cls okind object s).attest = s.attest := rfl
@[simp] theorem raiseOwn_host (source bit cls okind object : Nat) (s : State) : (raiseOwn source bit cls okind object s).host = s.host := rfl
@[simp] theorem raiseOwn_stn (source bit cls okind object : Nat) (s : State) : (raiseOwn source bit cls okind object s).stn = s.stn := rfl
@[simp] theorem raiseOwn_nv (source bit cls okind object : Nat) (s : State) : (raiseOwn source bit cls okind object s).nv = s.nv := rfl
@[simp] theorem raiseOwn_free (source bit cls okind object : Nat) (s : State) : (raiseOwn source bit cls okind object s).free = s.free := rfl
@[simp] theorem raiseOwn_at_reg (source bit cls okind object : Nat) (s : State) (j : Nat) : (raiseOwn source bit cls okind object s).reg j = s.reg j := rfl
@[simp] theorem raiseOwn_at_wideAt (source bit cls okind object : Nat) (s : State) (j : Nat) : (raiseOwn source bit cls okind object s).wideAt j = s.wideAt j := rfl
@[simp] theorem raiseOwn_at_port (source bit cls okind object : Nat) (s : State) (j : Nat) : (raiseOwn source bit cls okind object s).port j = s.port j := rfl
@[simp] theorem raiseOwn_at_out (source bit cls okind object : Nat) (s : State) (j : Nat) : (raiseOwn source bit cls okind object s).out j = s.out j := rfl
@[simp] theorem raiseOwn_at_chan (source bit cls okind object : Nat) (s : State) (j : Nat) : (raiseOwn source bit cls okind object s).chan j = s.chan j := rfl
@[simp] theorem raiseOwn_at_term (source bit cls okind object : Nat) (s : State) (j : Nat) : (raiseOwn source bit cls okind object s).term j = s.term j := rfl
@[simp] theorem raiseOwn_at_fold (source bit cls okind object : Nat) (s : State) (j : Nat) : (raiseOwn source bit cls okind object s).fold j = s.fold j := rfl
@[simp] theorem raiseOwn_at_bind (source bit cls okind object : Nat) (s : State) (j : Nat) : (raiseOwn source bit cls okind object s).bind j = s.bind j := rfl
@[simp] theorem raiseOwn_at_gate (source bit cls okind object : Nat) (s : State) (j : Nat) : (raiseOwn source bit cls okind object s).gate j = s.gate j := rfl
@[simp] theorem raiseOwn_at_timer (source bit cls okind object : Nat) (s : State) (j : Nat) : (raiseOwn source bit cls okind object s).timer j = s.timer j := rfl
@[simp] theorem raiseOwn_at_trip (source bit cls okind object : Nat) (s : State) (j : Nat) : (raiseOwn source bit cls okind object s).trip j = s.trip j := rfl
@[simp] theorem raiseOwn_at_ring (source bit cls okind object : Nat) (s : State) (j : Nat) : (raiseOwn source bit cls okind object s).ring j = s.ring j := rfl
@[simp] theorem raiseOwn_at_inj (source bit cls okind object : Nat) (s : State) (j : Nat) : (raiseOwn source bit cls okind object s).inj j = s.inj j := rfl
@[simp] theorem raiseOwn_at_cap (source bit cls okind object : Nat) (s : State) (j : Nat) : (raiseOwn source bit cls okind object s).cap j = s.cap j := rfl
@[simp] theorem raiseOwn_at_motor (source bit cls okind object : Nat) (s : State) (j : Nat) : (raiseOwn source bit cls okind object s).motor j = s.motor j := rfl
@[simp] theorem raiseOwn_at_hlt (source bit cls okind object : Nat) (s : State) (j : Nat) : (raiseOwn source bit cls okind object s).hlt j = s.hlt j := rfl
@[simp] theorem raiseOwn_at_run (source bit cls okind object : Nat) (s : State) (j : Nat) : (raiseOwn source bit cls okind object s).run j = s.run j := rfl
@[simp] theorem raiseOwn_at_meng (source bit cls okind object : Nat) (s : State) (j : Nat) : (raiseOwn source bit cls okind object s).meng j = s.meng j := rfl
@[simp] theorem raiseOwn_at_sns (source bit cls okind object : Nat) (s : State) (j : Nat) : (raiseOwn source bit cls okind object s).sns j = s.sns j := rfl
@[simp] theorem raiseOwn_at_image (source bit cls okind object : Nat) (s : State) (j : Nat) : (raiseOwn source bit cls okind object s).image j = s.image j := rfl
@[simp] theorem raiseOwn_at_fsPair (source bit cls okind object : Nat) (s : State) (j : Nat) : (raiseOwn source bit cls okind object s).fsPair j = s.fsPair j := rfl
@[simp] theorem raiseOwn_at_core (source bit cls okind object : Nat) (s : State) (j : Nat) : (raiseOwn source bit cls okind object s).core j = s.core j := rfl
@[simp] theorem raiseOwn_at_bist (source bit cls okind object : Nat) (s : State) (j : Nat) : (raiseOwn source bit cls okind object s).bist j = s.bist j := rfl
@[simp] theorem raiseOwn_at_dramByte (source bit cls okind object : Nat) (s : State) (j : Nat) : (raiseOwn source bit cls okind object s).dramByte j = s.dramByte j := rfl
@[simp] theorem raiseOwn_at_diag (source bit cls okind object : Nat) (s : State) (j : Nat) : (raiseOwn source bit cls okind object s).diag j = s.diag j := rfl

@[simp] theorem complete_pending (e : CmdEntry) (status : Nat) (result : W) (check rule index : Nat) (s : State) : (complete e status result check rule index s).pending = s.pending := rfl
@[simp] theorem complete_regs (e : CmdEntry) (status : Nat) (result : W) (check rule index : Nat) (s : State) : (complete e status result check rule index s).regs = s.regs := rfl
@[simp] theorem complete_wide (e : CmdEntry) (status : Nat) (result : W) (check rule index : Nat) (s : State) : (complete e status result check rule index s).wide = s.wide := rfl
@[simp] theorem complete_hiLatch (e : CmdEntry) (status : Nat) (result : W) (check rule index : Nat) (s : State) : (complete e status result check rule index s).hiLatch = s.hiLatch := rfl
@[simp] theorem complete_gens (e : CmdEntry) (status : Nat) (result : W) (check rule index : Nat) (s : State) : (complete e status result check rule index s).gens = s.gens := rfl
@[simp] theorem complete_ws (e : CmdEntry) (status : Nat) (result : W) (check rule index : Nat) (s : State) : (complete e status result check rule index s).ws = s.ws := rfl
@[simp] theorem complete_dram (e : CmdEntry) (status : Nat) (result : W) (check rule index : Nat) (s : State) : (complete e status result check rule index s).dram = s.dram := rfl
@[simp] theorem complete_dom (e : CmdEntry) (status : Nat) (result : W) (check rule index : Nat) (s : State) : (complete e status result check rule index s).dom = s.dom := rfl
@[simp] theorem complete_boot (e : CmdEntry) (status : Nat) (result : W) (check rule index : Nat) (s : State) : (complete e status result check rule index s).boot = s.boot := rfl
@[simp] theorem complete_amb (e : CmdEntry) (status : Nat) (result : W) (check rule index : Nat) (s : State) : (complete e status result check rule index s).amb = s.amb := rfl
@[simp] theorem complete_ports (e : CmdEntry) (status : Nat) (result : W) (check rule index : Nat) (s : State) : (complete e status result check rule index s).ports = s.ports := rfl
@[simp] theorem complete_outs (e : CmdEntry) (status : Nat) (result : W) (check rule index : Nat) (s : State) : (complete e status result check rule index s).outs = s.outs := rfl
@[simp] theorem complete_bell (e : CmdEntry) (status : Nat) (result : W) (check rule index : Nat) (s : State) : (complete e status result check rule index s).bell = s.bell := rfl
@[simp] theorem complete_chans (e : CmdEntry) (status : Nat) (result : W) (check rule index : Nat) (s : State) : (complete e status result check rule index s).chans = s.chans := rfl
@[simp] theorem complete_terms (e : CmdEntry) (status : Nat) (result : W) (check rule index : Nat) (s : State) : (complete e status result check rule index s).terms = s.terms := rfl
@[simp] theorem complete_folds (e : CmdEntry) (status : Nat) (result : W) (check rule index : Nat) (s : State) : (complete e status result check rule index s).folds = s.folds := rfl
@[simp] theorem complete_binds (e : CmdEntry) (status : Nat) (result : W) (check rule index : Nat) (s : State) : (complete e status result check rule index s).binds = s.binds := rfl
@[simp] theorem complete_gates (e : CmdEntry) (status : Nat) (result : W) (check rule index : Nat) (s : State) : (complete e status result check rule index s).gates = s.gates := rfl
@[simp] theorem complete_timers (e : CmdEntry) (status : Nat) (result : W) (check rule index : Nat) (s : State) : (complete e status result check rule index s).timers = s.timers := rfl
@[simp] theorem complete_trips (e : CmdEntry) (status : Nat) (result : W) (check rule index : Nat) (s : State) : (complete e status result check rule index s).trips = s.trips := rfl
@[simp] theorem complete_motors (e : CmdEntry) (status : Nat) (result : W) (check rule index : Nat) (s : State) : (complete e status result check rule index s).motors = s.motors := rfl
@[simp] theorem complete_caps (e : CmdEntry) (status : Nat) (result : W) (check rule index : Nat) (s : State) : (complete e status result check rule index s).caps = s.caps := rfl
@[simp] theorem complete_injs (e : CmdEntry) (status : Nat) (result : W) (check rule index : Nat) (s : State) : (complete e status result check rule index s).injs = s.injs := rfl
@[simp] theorem complete_images (e : CmdEntry) (status : Nat) (result : W) (check rule index : Nat) (s : State) : (complete e status result check rule index s).images = s.images := rfl
@[simp] theorem complete_health (e : CmdEntry) (status : Nat) (result : W) (check rule index : Nat) (s : State) : (complete e status result check rule index s).health = s.health := rfl
@[simp] theorem complete_runs (e : CmdEntry) (status : Nat) (result : W) (check rule index : Nat) (s : State) : (complete e status result check rule index s).runs = s.runs := rfl
@[simp] theorem complete_mengs (e : CmdEntry) (status : Nat) (result : W) (check rule index : Nat) (s : State) : (complete e status result check rule index s).mengs = s.mengs := rfl
@[simp] theorem complete_sense (e : CmdEntry) (status : Nat) (result : W) (check rule index : Nat) (s : State) : (complete e status result check rule index s).sense = s.sense := rfl
@[simp] theorem complete_fs (e : CmdEntry) (status : Nat) (result : W) (check rule index : Nat) (s : State) : (complete e status result check rule index s).fs = s.fs := rfl
@[simp] theorem complete_cores (e : CmdEntry) (status : Nat) (result : W) (check rule index : Nat) (s : State) : (complete e status result check rule index s).cores = s.cores := rfl
@[simp] theorem complete_bists (e : CmdEntry) (status : Nat) (result : W) (check rule index : Nat) (s : State) : (complete e status result check rule index s).bists = s.bists := rfl
@[simp] theorem complete_jtag (e : CmdEntry) (status : Nat) (result : W) (check rule index : Nat) (s : State) : (complete e status result check rule index s).jtag = s.jtag := rfl
@[simp] theorem complete_diags (e : CmdEntry) (status : Nat) (result : W) (check rule index : Nat) (s : State) : (complete e status result check rule index s).diags = s.diags := rfl
@[simp] theorem complete_svc (e : CmdEntry) (status : Nat) (result : W) (check rule index : Nat) (s : State) : (complete e status result check rule index s).svc = s.svc := rfl
@[simp] theorem complete_col (e : CmdEntry) (status : Nat) (result : W) (check rule index : Nat) (s : State) : (complete e status result check rule index s).col = s.col := rfl
@[simp] theorem complete_tal (e : CmdEntry) (status : Nat) (result : W) (check rule index : Nat) (s : State) : (complete e status result check rule index s).tal = s.tal := rfl
@[simp] theorem complete_sec (e : CmdEntry) (status : Nat) (result : W) (check rule index : Nat) (s : State) : (complete e status result check rule index s).sec = s.sec := rfl
@[simp] theorem complete_attest (e : CmdEntry) (status : Nat) (result : W) (check rule index : Nat) (s : State) : (complete e status result check rule index s).attest = s.attest := rfl
@[simp] theorem complete_host (e : CmdEntry) (status : Nat) (result : W) (check rule index : Nat) (s : State) : (complete e status result check rule index s).host = s.host := rfl
@[simp] theorem complete_stn (e : CmdEntry) (status : Nat) (result : W) (check rule index : Nat) (s : State) : (complete e status result check rule index s).stn = s.stn := rfl
@[simp] theorem complete_nv (e : CmdEntry) (status : Nat) (result : W) (check rule index : Nat) (s : State) : (complete e status result check rule index s).nv = s.nv := rfl
@[simp] theorem complete_free (e : CmdEntry) (status : Nat) (result : W) (check rule index : Nat) (s : State) : (complete e status result check rule index s).free = s.free := rfl
@[simp] theorem complete_at_reg (e : CmdEntry) (status : Nat) (result : W) (check rule index : Nat) (s : State) (j : Nat) : (complete e status result check rule index s).reg j = s.reg j := rfl
@[simp] theorem complete_at_wideAt (e : CmdEntry) (status : Nat) (result : W) (check rule index : Nat) (s : State) (j : Nat) : (complete e status result check rule index s).wideAt j = s.wideAt j := rfl
@[simp] theorem complete_at_port (e : CmdEntry) (status : Nat) (result : W) (check rule index : Nat) (s : State) (j : Nat) : (complete e status result check rule index s).port j = s.port j := rfl
@[simp] theorem complete_at_out (e : CmdEntry) (status : Nat) (result : W) (check rule index : Nat) (s : State) (j : Nat) : (complete e status result check rule index s).out j = s.out j := rfl
@[simp] theorem complete_at_chan (e : CmdEntry) (status : Nat) (result : W) (check rule index : Nat) (s : State) (j : Nat) : (complete e status result check rule index s).chan j = s.chan j := rfl
@[simp] theorem complete_at_term (e : CmdEntry) (status : Nat) (result : W) (check rule index : Nat) (s : State) (j : Nat) : (complete e status result check rule index s).term j = s.term j := rfl
@[simp] theorem complete_at_fold (e : CmdEntry) (status : Nat) (result : W) (check rule index : Nat) (s : State) (j : Nat) : (complete e status result check rule index s).fold j = s.fold j := rfl
@[simp] theorem complete_at_bind (e : CmdEntry) (status : Nat) (result : W) (check rule index : Nat) (s : State) (j : Nat) : (complete e status result check rule index s).bind j = s.bind j := rfl
@[simp] theorem complete_at_gate (e : CmdEntry) (status : Nat) (result : W) (check rule index : Nat) (s : State) (j : Nat) : (complete e status result check rule index s).gate j = s.gate j := rfl
@[simp] theorem complete_at_timer (e : CmdEntry) (status : Nat) (result : W) (check rule index : Nat) (s : State) (j : Nat) : (complete e status result check rule index s).timer j = s.timer j := rfl
@[simp] theorem complete_at_trip (e : CmdEntry) (status : Nat) (result : W) (check rule index : Nat) (s : State) (j : Nat) : (complete e status result check rule index s).trip j = s.trip j := rfl
@[simp] theorem complete_at_inj (e : CmdEntry) (status : Nat) (result : W) (check rule index : Nat) (s : State) (j : Nat) : (complete e status result check rule index s).inj j = s.inj j := rfl
@[simp] theorem complete_at_cap (e : CmdEntry) (status : Nat) (result : W) (check rule index : Nat) (s : State) (j : Nat) : (complete e status result check rule index s).cap j = s.cap j := rfl
@[simp] theorem complete_at_motor (e : CmdEntry) (status : Nat) (result : W) (check rule index : Nat) (s : State) (j : Nat) : (complete e status result check rule index s).motor j = s.motor j := rfl
@[simp] theorem complete_at_hlt (e : CmdEntry) (status : Nat) (result : W) (check rule index : Nat) (s : State) (j : Nat) : (complete e status result check rule index s).hlt j = s.hlt j := rfl
@[simp] theorem complete_at_run (e : CmdEntry) (status : Nat) (result : W) (check rule index : Nat) (s : State) (j : Nat) : (complete e status result check rule index s).run j = s.run j := rfl
@[simp] theorem complete_at_meng (e : CmdEntry) (status : Nat) (result : W) (check rule index : Nat) (s : State) (j : Nat) : (complete e status result check rule index s).meng j = s.meng j := rfl
@[simp] theorem complete_at_sns (e : CmdEntry) (status : Nat) (result : W) (check rule index : Nat) (s : State) (j : Nat) : (complete e status result check rule index s).sns j = s.sns j := rfl
@[simp] theorem complete_at_image (e : CmdEntry) (status : Nat) (result : W) (check rule index : Nat) (s : State) (j : Nat) : (complete e status result check rule index s).image j = s.image j := rfl
@[simp] theorem complete_at_fsPair (e : CmdEntry) (status : Nat) (result : W) (check rule index : Nat) (s : State) (j : Nat) : (complete e status result check rule index s).fsPair j = s.fsPair j := rfl
@[simp] theorem complete_at_core (e : CmdEntry) (status : Nat) (result : W) (check rule index : Nat) (s : State) (j : Nat) : (complete e status result check rule index s).core j = s.core j := rfl
@[simp] theorem complete_at_bist (e : CmdEntry) (status : Nat) (result : W) (check rule index : Nat) (s : State) (j : Nat) : (complete e status result check rule index s).bist j = s.bist j := rfl
@[simp] theorem complete_at_dramByte (e : CmdEntry) (status : Nat) (result : W) (check rule index : Nat) (s : State) (j : Nat) : (complete e status result check rule index s).dramByte j = s.dramByte j := rfl
@[simp] theorem complete_at_diag (e : CmdEntry) (status : Nat) (result : W) (check rule index : Nat) (s : State) (j : Nat) : (complete e status result check rule index s).diag j = s.diag j := rfl


/-- Latching an event sets its bit and no other word. -/
@[simp] theorem setEvt_reg (a bit : Nat) (s : State) (b : Nat) : (setEvt a bit s).reg b = if b = a then setBit (s.reg a) bit else s.reg b := by
  simp [setEvt]

@[simp] theorem raise_reg (a : Nat) (r : Report) (s : State) (b : Nat) :
    (raise a r s).reg b = if b = a then setBit (s.reg a) (r.cause % 16) else s.reg b := by
  simp [raise]

/-- A report joins the intake once, its cause the latched ones. -/
theorem queueRep_col (r : Report) (s : State) : (queueRep r s).col =
    { s.col with srcQ := s.col.srcQ ++ [r], latched := if s.col.latched.contains r then s.col.latched else s.col.latched ++ [r] } := rfl

@[simp] theorem raise_col (a : Nat) (r : Report) (s : State) : (raise a r s).col = (queueRep r s).col := by
  simp [raise, queueRep_col]

end Sys2Proof.Machine
end

