-- ==== Sys2Proof/Laws/Completes.lean ====
section
/-! SUPPORT. Every meaning but a BAR2 access past the module DRAM answers a next state. -/

set_option linter.all false

namespace Sys2Proof.Machine

open Sys2Proof

theorem ite_next {c : Prop} [Decidable c] {a b : Res} (ha : Completes a) (hb : Completes b) : Completes (if c then a else b) := by
  split <;> assumption

theorem plain_next (s : State) : Completes (.next s) := ⟨⟨s, rfl⟩⟩

theorem execStreamFrame_next (n : Fin 16) (f : LineFrame) (s : State) : Completes (execStreamFrame n f s) := by
  unfold execStreamFrame
  exact plain_next _

theorem execPortStayTimeout_next (n : Fin 16) (s : State) : Completes (execPortStayTimeout n s) := by
  unfold execPortStayTimeout
  repeat' first
    | with_reducible apply ite_next
    | with_reducible exact plain_next _
    | split
    | dsimp only

theorem execLineSignalPresent_next (n : Fin 16) (s : State) : Completes (execLineSignalPresent n s) := by
  unfold execLineSignalPresent
  repeat' first
    | with_reducible apply ite_next
    | with_reducible exact plain_next _
    | split
    | dsimp only

theorem execLineOutOfRange_next (n : Fin 16) (s : State) : Completes (execLineOutOfRange n s) := by
  unfold execLineOutOfRange
  exact plain_next _

theorem execSclkLost_next (n : Fin 16) (s : State) : Completes (execSclkLost n s) := by
  unfold execSclkLost
  exact plain_next _

theorem execRunLimit_next (n : Fin 16) (sl : Fin 32) (s : State) : Completes (execRunLimit n sl s) := by
  unfold execRunLimit
  repeat' first
    | with_reducible apply ite_next
    | with_reducible exact plain_next _
    | split
    | dsimp only

theorem execSpCtrlWrite_next (n : Fin 16) (v : W) (s : State) : Completes (execSpCtrlWrite n v s) := by
  unfold execSpCtrlWrite
  repeat' first
    | with_reducible apply ite_next
    | with_reducible exact plain_next _
    | split
    | dsimp only

theorem execSpKindmapWrite_next (n : Fin 16) (i : Fin 2) (v : W) (s : State) : Completes (execSpKindmapWrite n i v s) := by
  unfold execSpKindmapWrite
  repeat' first
    | with_reducible apply ite_next
    | with_reducible exact plain_next _
    | split
    | dsimp only

theorem execSoCtrlWrite_next (n : Fin 4) (v : W) (s : State) : Completes (execSoCtrlWrite n v s) := by
  unfold execSoCtrlWrite
  repeat' first
    | with_reducible apply ite_next
    | with_reducible exact plain_next _
    | split
    | dsimp only

theorem execSoSlotWrite_next (n : Fin 4) (sl : Fin 32) (v : W) (s : State) : Completes (execSoSlotWrite n sl v s) := by
  unfold execSoSlotWrite
  repeat' first
    | with_reducible apply ite_next
    | with_reducible exact plain_next _
    | split
    | dsimp only

theorem execOutputPortClockLost_next (n : Fin 4) (s : State) : Completes (execOutputPortClockLost n s) := by
  unfold execOutputPortClockLost
  repeat' first
    | with_reducible apply ite_next
    | with_reducible exact plain_next _
    | split
    | dsimp only

theorem execSealVerdict_next (n : Fin 16) (s : State) : Completes (execSealVerdict n s) := by
  unfold execSealVerdict
  repeat' first
    | with_reducible apply ite_next
    | with_reducible exact plain_next _
    | split
    | dsimp only

theorem execDriftMeasurement_next (o0 : BitVec 24) (o1 : BitVec 24) (o2 : BitVec 24) (o3 : BitVec 24) (link : BitVec 24) (present : BitVec 5) (s : State) : Completes (execDriftMeasurement o0 o1 o2 o3 link present s) := by
  unfold execDriftMeasurement
  repeat' first
    | with_reducible apply ite_next
    | with_reducible exact plain_next _
    | split
    | dsimp only

theorem execSourceLost_next (s : State) : Completes (execSourceLost s) := by
  unfold execSourceLost
  exact plain_next _

theorem execHoldoverEntry_next (s : State) : Completes (execHoldoverEntry s) := by
  unfold execHoldoverEntry
  repeat' first
    | with_reducible apply ite_next
    | with_reducible exact plain_next _
    | split
    | dsimp only

theorem execHoldoverMinEnd_next (s : State) : Completes (execHoldoverMinEnd s) := by
  unfold execHoldoverMinEnd
  repeat' first
    | with_reducible apply ite_next
    | with_reducible exact plain_next _
    | split
    | dsimp only

theorem execHoldoverNoSource_next (s : State) : Completes (execHoldoverNoSource s) := by
  unfold execHoldoverNoSource
  repeat' first
    | with_reducible apply ite_next
    | with_reducible exact plain_next _
    | split
    | dsimp only

theorem execSlewFreqMatched_next (s : State) : Completes (execSlewFreqMatched s) := by
  unfold execSlewFreqMatched
  repeat' first
    | with_reducible apply ite_next
    | with_reducible exact plain_next _
    | split
    | dsimp only

theorem execSlewPhaseDone_next (s : State) : Completes (execSlewPhaseDone s) := by
  unfold execSlewPhaseDone
  repeat' first
    | with_reducible apply ite_next
    | with_reducible exact plain_next _
    | split
    | dsimp only

theorem execReselect_next (same : Bool) (s : State) : Completes (execReselect same s) := by
  unfold execReselect
  repeat' first
    | with_reducible apply ite_next
    | with_reducible exact plain_next _
    | split
    | dsimp only

theorem execUnbar_next (bits : BitVec 4) (s : State) : Completes (execUnbar bits s) := by
  unfold execUnbar
  exact plain_next _

theorem execFcRateWrite_next (v : W) (s : State) : Completes (execFcRateWrite v s) := by
  unfold execFcRateWrite
  exact plain_next _

theorem execFcRatioWrite_next (v : W) (s : State) : Completes (execFcRatioWrite v s) := by
  unfold execFcRatioWrite
  exact plain_next _

theorem execFcPrioWrite_next (v : W) (s : State) : Completes (execFcPrioWrite v s) := by
  unfold execFcPrioWrite
  repeat' first
    | with_reducible apply ite_next
    | with_reducible exact plain_next _
    | split
    | dsimp only

theorem execFcWindowWrite_next (v : W) (s : State) : Completes (execFcWindowWrite v s) := by
  unfold execFcWindowWrite
  repeat' first
    | with_reducible apply ite_next
    | with_reducible exact plain_next _
    | split
    | dsimp only

theorem execFcPhaseWrite_next (v : W) (s : State) : Completes (execFcPhaseWrite v s) := by
  unfold execFcPhaseWrite
  repeat' first
    | with_reducible apply ite_next
    | with_reducible exact plain_next _
    | split
    | dsimp only

theorem execGateEdge_next (g : Fin 64) (now : Nat) (s : State) : Completes (execGateEdge g now s) := by
  unfold execGateEdge
  repeat' first
    | with_reducible apply ite_next
    | with_reducible exact plain_next _
    | split
    | dsimp only

theorem execGateLost_next (g : Fin 64) (s : State) : Completes (execGateLost g s) := by
  unfold execGateLost
  repeat' first
    | with_reducible apply ite_next
    | with_reducible exact plain_next _
    | split
    | dsimp only

theorem execLayerTimeout_next (g : Fin 64) (now : Nat) (s : State) : Completes (execLayerTimeout g now s) := by
  unfold execLayerTimeout
  repeat' first
    | with_reducible apply ite_next
    | with_reducible exact plain_next _
    | split
    | dsimp only

theorem execLayerStateMessage_next (id : BitVec 64) (place : Int) (isOpen : Bool) (s : State) : Completes (execLayerStateMessage id place isOpen s) := by
  unfold execLayerStateMessage
  repeat' first
    | with_reducible apply ite_next
    | with_reducible exact plain_next _
    | split
    | dsimp only

theorem execErrorReport_next (source : BitVec 8) (now : Nat) (s : State) : Completes (execErrorReport source now s) := by
  unfold execErrorReport
  repeat' first
    | with_reducible apply ite_next
    | with_reducible exact plain_next _
    | split
    | dsimp only

theorem execBrokenSourcePoll_next (now : Nat) (s : State) : Completes (execBrokenSourcePoll now s) := by
  unfold execBrokenSourcePoll
  repeat' first
    | with_reducible apply ite_next
    | with_reducible exact plain_next _
    | split
    | dsimp only

theorem execFaultReactionApply_next (ch : Fin 512) (s : State) : Completes (execFaultReactionApply ch s) := by
  unfold execFaultReactionApply
  repeat' first
    | with_reducible apply ite_next
    | with_reducible exact plain_next _
    | split
    | dsimp only

theorem execHeldFaultTakeEffect_next (ch : Fin 512) (s : State) : Completes (execHeldFaultTakeEffect ch s) := by
  unfold execHeldFaultTakeEffect
  repeat' first
    | with_reducible apply ite_next
    | with_reducible exact plain_next _
    | split
    | dsimp only

theorem execRecordWrite_next (s : State) : Completes (execRecordWrite s) := by
  unfold execRecordWrite
  repeat' first
    | with_reducible apply ite_next
    | with_reducible exact plain_next _
    | split
    | dsimp only

theorem execCauseConditionEnd_next (source : BitVec 8) (cause : BitVec 8) (okind : BitVec 2) (object : BitVec 11) (s : State) : Completes (execCauseConditionEnd source cause okind object s) := by
  unfold execCauseConditionEnd
  exact plain_next _

theorem execStationC4Received_next (id : BitVec 64) (place : Int) (s : State) : Completes (execStationC4Received id place s) := by
  unfold execStationC4Received
  repeat' first
    | with_reducible apply ite_next
    | with_reducible exact plain_next _
    | split
    | dsimp only

theorem execFltRdWrite_next (v : W) (s : State) : Completes (execFltRdWrite v s) := by
  unfold execFltRdWrite
  repeat' first
    | with_reducible apply ite_next
    | with_reducible exact plain_next _
    | split
    | dsimp only

theorem execRecordFreezeRead_next (i : Fin 1024) (s : State) : Completes (execRecordFreezeRead i s) := by
  unfold execRecordFreezeRead
  repeat' first
    | with_reducible apply ite_next
    | with_reducible exact plain_next _
    | split
    | dsimp only

theorem execCarrierBoundary_next (at_ : CarrierAt) (late : Bool) (fail : BitVec 3) (sample : Option FloatIn) (legs : List LegIn) (s : State) : Completes (execCarrierBoundary at_ late fail sample legs s) := by
  unfold execCarrierBoundary
  repeat' first
    | with_reducible apply ite_next
    | with_reducible exact plain_next _
    | split
    | dsimp only

theorem execStFieldWrite_next (t : Fin 512) (reg : Fin 3) (v : W) (s : State) : Completes (execStFieldWrite t reg v s) := by
  unfold execStFieldWrite
  repeat' first
    | with_reducible apply ite_next
    | with_reducible exact plain_next _
    | split
    | dsimp only

theorem execCommitApply_next (ch : Fin 512) (sample : Option FloatIn) (s : State) : Completes (execCommitApply ch sample s) := by
  unfold execCommitApply
  repeat' first
    | with_reducible apply ite_next
    | with_reducible exact plain_next _
    | split
    | dsimp only

theorem execCrookWrite_next (t : Fin 512) (v : W) (s : State) : Completes (execCrookWrite t v s) := by
  unfold execCrookWrite
  repeat' first
    | with_reducible apply ite_next
    | with_reducible exact plain_next _
    | split
    | dsimp only

theorem execChanDelOpen_next (ch : Fin 512) (now : Nat) (s : State) : Completes (execChanDelOpen ch now s) := by
  unfold execChanDelOpen
  repeat' first
    | with_reducible apply ite_next
    | with_reducible exact plain_next _
    | split
    | dsimp only

theorem execIntegrityEscalation_next (kind : Fin 4) (i : Fin 512) (s : State) : Completes (execIntegrityEscalation kind i s) := by
  unfold execIntegrityEscalation
  repeat' first
    | with_reducible apply ite_next
    | with_reducible exact plain_next _
    | split
    | dsimp only

theorem execGateEvent_next (t : Fin 512) (ev : Fin 4) (at_ : Nat) (trail : Bool) (fails : List (Fin 16 × Fin 16)) (s : State) : Completes (execGateEvent t ev at_ trail fails s) := by
  unfold execGateEvent
  repeat' first
    | with_reducible apply ite_next
    | with_reducible exact plain_next _
    | split
    | dsimp only

theorem execDesaturation_next (t : Fin 512) (p : Fin 16) (g : Fin 16) (s : State) : Completes (execDesaturation t p g s) := by
  unfold execDesaturation
  exact plain_next _

theorem execTimerWindowOpen_next (i : Fin 512) (now : Nat) (s : State) : Completes (execTimerWindowOpen i now s) := by
  unfold execTimerWindowOpen
  repeat' first
    | with_reducible apply ite_next
    | with_reducible exact plain_next _
    | split
    | dsimp only

theorem execTimerWindowClose_next (i : Fin 512) (now : Nat) (s : State) : Completes (execTimerWindowClose i now s) := by
  unfold execTimerWindowClose
  repeat' first
    | with_reducible apply ite_next
    | with_reducible exact plain_next _
    | split
    | dsimp only

theorem execExternalTrip_next (g : Fin 32) (levels : List Bool) (at_ : Nat) (s : State) : Completes (execExternalTrip g levels at_ s) := by
  unfold execExternalTrip
  repeat' first
    | with_reducible apply ite_next
    | with_reducible exact plain_next _
    | split
    | dsimp only

theorem execTerminalOvercurrent_next (t : Fin 512) (ma : List Nat) (at_ : Nat) (s : State) : Completes (execTerminalOvercurrent t ma at_ s) := by
  unfold execTerminalOvercurrent
  exact plain_next _

theorem execFoldTrip_next (k : Fin 8) (src : Fin 5) (vals : List Int) (at_ : Nat) (s : State) : Completes (execFoldTrip k src vals at_ s) := by
  unfold execFoldTrip
  repeat' first
    | with_reducible apply ite_next
    | with_reducible exact plain_next _
    | split
    | dsimp only

theorem execStageOvertempWarn_next (f : Fin 32) (temp : BitVec 8) (s : State) : Completes (execStageOvertempWarn f temp s) := by
  unfold execStageOvertempWarn
  repeat' first
    | with_reducible apply ite_next
    | with_reducible exact plain_next _
    | split
    | dsimp only

theorem execFtbLoss_next (k : Fin 8) (now : Nat) (s : State) : Completes (execFtbLoss k now s) := by
  unfold execFtbLoss
  repeat' first
    | with_reducible apply ite_next
    | with_reducible exact plain_next _
    | split
    | dsimp only

theorem execFtbReturn_next (k : Fin 8) (s : State) : Completes (execFtbReturn k s) := by
  unfold execFtbReturn
  repeat' first
    | with_reducible apply ite_next
    | with_reducible exact plain_next _
    | split
    | dsimp only

theorem execDesatSpanClose_next (t : Fin 512) (now : Nat) (s : State) : Completes (execDesatSpanClose t now s) := by
  unfold execDesatSpanClose
  repeat' first
    | with_reducible apply ite_next
    | with_reducible exact plain_next _
    | split
    | dsimp only

theorem execSpareSelfTestStart_next (t : Fin 512) (p : Fin 16) (now : Nat) (s : State) : Completes (execSpareSelfTestStart t p now s) := by
  unfold execSpareSelfTestStart
  exact plain_next _

theorem execSpareSelfTestEnd_next (t : Fin 512) (fails : BitVec 16) (now : Nat) (s : State) : Completes (execSpareSelfTestEnd t fails now s) := by
  unfold execSpareSelfTestEnd
  exact plain_next _

theorem execSubstOverlapStart_next (t : Fin 512) (now : Nat) (s : State) : Completes (execSubstOverlapStart t now s) := by
  unfold execSubstOverlapStart
  exact plain_next _

theorem execSubstRelease_next (t : Fin 512) (now : Nat) (s : State) : Completes (execSubstRelease t now s) := by
  unfold execSubstRelease
  repeat' first
    | with_reducible apply ite_next
    | with_reducible exact plain_next _
    | split
    | dsimp only

theorem execFoldBudgetRenewal_next (k : Fin 8) (busV : BitVec 16) (busNow : BitVec 16) (busI : BitVec 16) (busI10 : BitVec 16) (pout : Int) (chanMw : List (Fin 512 × Int)) (termMa : List (Fin 512 × Nat)) (now : Nat) (s : State) : Completes (execFoldBudgetRenewal k busV busNow busI busI10 pout chanMw termMa now s) := by
  unfold execFoldBudgetRenewal
  exact plain_next _

theorem execCoolantDerate_next (reading : Option (BitVec 16)) (now : Nat) (s : State) : Completes (execCoolantDerate reading now s) := by
  unfold execCoolantDerate
  repeat' first
    | with_reducible apply ite_next
    | with_reducible exact plain_next _
    | split
    | dsimp only

theorem execFoldCfgWrite_next (k : Fin 8) (v : W) (s : State) : Completes (execFoldCfgWrite k v s) := by
  unfold execFoldCfgWrite
  repeat' first
    | with_reducible apply ite_next
    | with_reducible exact plain_next _
    | split
    | dsimp only

theorem execFoldStopEnd_next (k : Fin 8) (s : State) : Completes (execFoldStopEnd k s) := by
  unfold execFoldStopEnd
  repeat' first
    | with_reducible apply ite_next
    | with_reducible exact plain_next _
    | split
    | dsimp only

theorem execBusRise_next (k : Fin 8) (now : Nat) (s : State) : Completes (execBusRise k now s) := by
  unfold execBusRise
  exact plain_next _

theorem execChanNew_next (e : CmdEntry) (s : State) : Completes (execChanNew e s) := by
  unfold execChanNew
  exact plain_next _

theorem execChanDel_next (e : CmdEntry) (s : State) : Completes (execChanDel e s) := by
  unfold execChanDel
  exact plain_next _

theorem execBind_next (e : CmdEntry) (s : State) : Completes (execBind e s) := by
  unfold execBind
  exact plain_next _

theorem execUnbind_next (e : CmdEntry) (s : State) : Completes (execUnbind e s) := by
  unfold execUnbind
  exact plain_next _

theorem execStage_next (e : CmdEntry) (s : State) : Completes (execStage e s) := by
  unfold execStage
  exact plain_next _

theorem execStageSet_next (e : CmdEntry) (s : State) : Completes (execStageSet e s) := by
  unfold execStageSet
  repeat' first
    | with_reducible apply ite_next
    | with_reducible exact plain_next _
    | split
    | dsimp only

theorem execCommit_next (e : CmdEntry) (s : State) : Completes (execCommit e s) := by
  unfold execCommit
  repeat' first
    | with_reducible apply ite_next
    | with_reducible exact plain_next _
    | split
    | dsimp only

theorem execAbort_next (e : CmdEntry) (s : State) : Completes (execAbort e s) := by
  unfold execAbort
  exact plain_next _

theorem execDisarm_next (e : CmdEntry) (s : State) : Completes (execDisarm e s) := by
  unfold execDisarm
  repeat' first
    | with_reducible apply ite_next
    | with_reducible exact plain_next _
    | split
    | dsimp only

theorem execDisarmTakeEffect_next (ch : Fin 512) (s : State) : Completes (execDisarmTakeEffect ch s) := by
  unfold execDisarmTakeEffect
  repeat' first
    | with_reducible apply ite_next
    | with_reducible exact plain_next _
    | split
    | dsimp only

theorem execGatedStopIdle_next (ch : Fin 512) (s : State) : Completes (execGatedStopIdle ch s) := by
  unfold execGatedStopIdle
  repeat' first
    | with_reducible apply ite_next
    | with_reducible exact plain_next _
    | split
    | dsimp only

theorem execZcTimeout_next (ch : Fin 512) (s : State) : Completes (execZcTimeout ch s) := by
  unfold execZcTimeout
  repeat' first
    | with_reducible apply ite_next
    | with_reducible exact plain_next _
    | split
    | dsimp only

theorem execMute_next (e : CmdEntry) (s : State) : Completes (execMute e s) := by
  unfold execMute
  exact plain_next _

theorem execUnmute_next (e : CmdEntry) (s : State) : Completes (execUnmute e s) := by
  unfold execUnmute
  exact plain_next _

theorem execGain_next (e : CmdEntry) (s : State) : Completes (execGain e s) := by
  unfold execGain
  exact plain_next _

theorem execClear_next (e : CmdEntry) (s : State) : Completes (execClear e s) := by
  unfold execClear
  repeat' first
    | with_reducible apply ite_next
    | with_reducible exact plain_next _
    | split
    | dsimp only

theorem execSnsConfigWrite_next (n : Fin 256) (reg : Fin 5) (v : W) (s : State) : Completes (execSnsConfigWrite n reg v s) := by
  unfold execSnsConfigWrite
  repeat' first
    | with_reducible apply ite_next
    | with_reducible exact plain_next _
    | split
    | dsimp only

theorem execSenseSettled_next (n : Fin 256) (s : State) : Completes (execSenseSettled n s) := by
  unfold execSenseSettled
  exact plain_next _

theorem execIllFault_next (n : Fin 256) (held : Bool) (s : State) : Completes (execIllFault n held s) := by
  unfold execIllFault
  repeat' first
    | with_reducible apply ite_next
    | with_reducible exact plain_next _
    | split
    | dsimp only

theorem execTimerNew_next (e : CmdEntry) (s : State) : Completes (execTimerNew e s) := by
  unfold execTimerNew
  repeat' first
    | with_reducible apply ite_next
    | with_reducible exact plain_next _
    | split
    | dsimp only

theorem execTimerDel_next (e : CmdEntry) (s : State) : Completes (execTimerDel e s) := by
  unfold execTimerDel
  exact plain_next _

theorem execTripSet_next (e : CmdEntry) (s : State) : Completes (execTripSet e s) := by
  unfold execTripSet
  repeat' first
    | with_reducible apply ite_next
    | with_reducible exact plain_next _
    | split
    | dsimp only

theorem execTripAdd_next (e : CmdEntry) (now : Nat) (s : State) : Completes (execTripAdd e now s) := by
  unfold execTripAdd
  repeat' first
    | with_reducible apply ite_next
    | with_reducible exact plain_next _
    | split
    | dsimp only

theorem execTripDel_next (e : CmdEntry) (s : State) : Completes (execTripDel e s) := by
  unfold execTripDel
  exact plain_next _

theorem execGateNew_next (e : CmdEntry) (s : State) : Completes (execGateNew e s) := by
  unfold execGateNew
  repeat' first
    | with_reducible apply ite_next
    | with_reducible exact plain_next _
    | split
    | dsimp only

theorem execGateDel_next (e : CmdEntry) (s : State) : Completes (execGateDel e s) := by
  unfold execGateDel
  exact plain_next _

theorem execMotorNew_next (e : CmdEntry) (s : State) : Completes (execMotorNew e s) := by
  unfold execMotorNew
  exact plain_next _

theorem execMotorDel_next (e : CmdEntry) (s : State) : Completes (execMotorDel e s) := by
  unfold execMotorDel
  exact plain_next _

theorem execCapNew_next (e : CmdEntry) (s : State) : Completes (execCapNew e s) := by
  unfold execCapNew
  exact plain_next _

theorem execCapStart_next (e : CmdEntry) (s : State) : Completes (execCapStart e s) := by
  unfold execCapStart
  exact plain_next _

theorem execCapStop_next (e : CmdEntry) (s : State) : Completes (execCapStop e s) := by
  unfold execCapStop
  repeat' first
    | with_reducible apply ite_next
    | with_reducible exact plain_next _
    | split
    | dsimp only

theorem execCapDel_next (e : CmdEntry) (s : State) : Completes (execCapDel e s) := by
  unfold execCapDel
  exact plain_next _

theorem execInjNew_next (e : CmdEntry) (s : State) : Completes (execInjNew e s) := by
  unfold execInjNew
  repeat' first
    | with_reducible apply ite_next
    | with_reducible exact plain_next _
    | split
    | dsimp only

theorem execInjStart_next (e : CmdEntry) (s : State) : Completes (execInjStart e s) := by
  unfold execInjStart
  exact plain_next _

theorem execInjStop_next (e : CmdEntry) (s : State) : Completes (execInjStop e s) := by
  unfold execInjStop
  exact plain_next _

theorem execInjDel_next (e : CmdEntry) (s : State) : Completes (execInjDel e s) := by
  unfold execInjDel
  exact plain_next _

theorem execFenceQuery_next (e : CmdEntry) (s : State) : Completes (execFenceQuery e s) := by
  unfold execFenceQuery
  repeat' first
    | with_reducible apply ite_next
    | with_reducible exact plain_next _
    | split
    | dsimp only

theorem execStnInfo_next (e : CmdEntry) (s : State) : Completes (execStnInfo e s) := by
  unfold execStnInfo
  exact plain_next _

theorem execStepChangeApply_next (ch : Fin 512) (now : Nat) (sample : Option FloatIn) (s : State) : Completes (execStepChangeApply ch now sample s) := by
  unfold execStepChangeApply
  repeat' first
    | with_reducible apply ite_next
    | with_reducible exact plain_next _
    | split
    | dsimp only

theorem execCrookForceApply_next (t : Fin 512) (now : Nat) (s : State) : Completes (execCrookForceApply t now s) := by
  unfold execCrookForceApply
  repeat' first
    | with_reducible apply ite_next
    | with_reducible exact plain_next _
    | split
    | dsimp only

theorem execAlignEnd_next (ch : Fin 512) (now : Nat) (s : State) : Completes (execAlignEnd ch now s) := by
  unfold execAlignEnd
  repeat' first
    | with_reducible apply ite_next
    | with_reducible exact plain_next _
    | split
    | dsimp only

theorem execForcedStep_next (ch : Fin 512) (now : Nat) (s : State) : Completes (execForcedStep ch now s) := by
  unfold execForcedStep
  repeat' first
    | with_reducible apply ite_next
    | with_reducible exact plain_next _
    | split
    | dsimp only

theorem execMotorHandover_next (ch : Fin 512) (now : Nat) (s : State) : Completes (execMotorHandover ch now s) := by
  unfold execMotorHandover
  repeat' first
    | with_reducible apply ite_next
    | with_reducible exact plain_next _
    | split
    | dsimp only

theorem execLockedRotor_next (ch : Fin 512) (now : Nat) (s : State) : Completes (execLockedRotor ch now s) := by
  unfold execLockedRotor
  repeat' first
    | with_reducible apply ite_next
    | with_reducible exact plain_next _
    | split
    | dsimp only

theorem execRampHoldEnd_next (ch : Fin 512) (now : Nat) (s : State) : Completes (execRampHoldEnd ch now s) := by
  unfold execRampHoldEnd
  repeat' first
    | with_reducible apply ite_next
    | with_reducible exact plain_next _
    | split
    | dsimp only

theorem execBlankEnd_next (ch : Fin 512) (now : Nat) (s : State) : Completes (execBlankEnd ch now s) := by
  unfold execBlankEnd
  repeat' first
    | with_reducible apply ite_next
    | with_reducible exact plain_next _
    | split
    | dsimp only

theorem execCrossingConfirmed_next (ch : Fin 512) (now : Nat) (sample : Option FloatIn) (s : State) : Completes (execCrossingConfirmed ch now sample s) := by
  unfold execCrossingConfirmed
  repeat' first
    | with_reducible apply ite_next
    | with_reducible exact plain_next _
    | split
    | dsimp only

theorem execCommutationPost_next (ch : Fin 512) (now : Nat) (s : State) : Completes (execCommutationPost ch now s) := by
  unfold execCommutationPost
  repeat' first
    | with_reducible apply ite_next
    | with_reducible exact plain_next _
    | split
    | dsimp only

theorem execSyntheticCommutation_next (ch : Fin 512) (now : Nat) (s : State) : Completes (execSyntheticCommutation ch now s) := by
  unfold execSyntheticCommutation
  repeat' first
    | with_reducible apply ite_next
    | with_reducible exact plain_next _
    | split
    | dsimp only

theorem execReverse_next (ch : Fin 512) (now : Nat) (s : State) : Completes (execReverse ch now s) := by
  unfold execReverse
  repeat' first
    | with_reducible apply ite_next
    | with_reducible exact plain_next _
    | split
    | dsimp only

theorem execBrakeEnd_next (ch : Fin 512) (now : Nat) (s : State) : Completes (execBrakeEnd ch now s) := by
  unfold execBrakeEnd
  repeat' first
    | with_reducible apply ite_next
    | with_reducible exact plain_next _
    | split
    | dsimp only

theorem execCoastEnd_next (ch : Fin 512) (now : Nat) (s : State) : Completes (execCoastEnd ch now s) := by
  unfold execCoastEnd
  repeat' first
    | with_reducible apply ite_next
    | with_reducible exact plain_next _
    | split
    | dsimp only

theorem execRetryReload_next (ch : Fin 512) (now : Nat) (s : State) : Completes (execRetryReload ch now s) := by
  unfold execRetryReload
  repeat' first
    | with_reducible apply ite_next
    | with_reducible exact plain_next _
    | split
    | dsimp only

theorem execSheepdogJudgement_next (f : Fin 32) (l : Fin 8) (s : State) : Completes (execSheepdogJudgement f l s) := by
  unfold execSheepdogJudgement
  repeat' first
    | with_reducible apply ite_next
    | with_reducible exact plain_next _
    | split
    | dsimp only

theorem execLeaseExpiry_next (ch : Fin 512) (s : State) : Completes (execLeaseExpiry ch s) := by
  unfold execLeaseExpiry
  repeat' first
    | with_reducible apply ite_next
    | with_reducible exact plain_next _
    | split
    | dsimp only

theorem execTokenGrant_next (ch : Fin 512) (s : State) : Completes (execTokenGrant ch s) := by
  unfold execTokenGrant
  repeat' first
    | with_reducible apply ite_next
    | with_reducible exact plain_next _
    | split
    | dsimp only

theorem execResyncCopyDone_next (ch : Fin 512) (s : State) : Completes (execResyncCopyDone ch s) := by
  unfold execResyncCopyDone
  repeat' first
    | with_reducible apply ite_next
    | with_reducible exact plain_next _
    | split
    | dsimp only

theorem execArm_next (e : CmdEntry) (now : Nat) (s : State) : Completes (execArm e now s) := by
  unfold execArm
  repeat' first
    | with_reducible apply ite_next
    | with_reducible exact plain_next _
    | split
    | dsimp only

theorem execArmTakeEffect_next (ch : Fin 512) (now : Nat) (s : State) : Completes (execArmTakeEffect ch now s) := by
  unfold execArmTakeEffect
  repeat' first
    | with_reducible apply ite_next
    | with_reducible exact plain_next _
    | split
    | dsimp only

theorem execDebugHalt_next (e : Fin 160) (now : Nat) (s : State) : Completes (execDebugHalt e now s) := by
  unfold execDebugHalt
  repeat' first
    | with_reducible apply ite_next
    | with_reducible exact plain_next _
    | split
    | dsimp only

theorem execTableBuildDone_next (ch : Fin 512) (s : State) : Completes (execTableBuildDone ch s) := by
  unfold execTableBuildDone
  repeat' first
    | with_reducible apply ite_next
    | with_reducible exact plain_next _
    | split
    | dsimp only

theorem execTableSwap_next (ch : Fin 512) (s : State) : Completes (execTableSwap ch s) := by
  unfold execTableSwap
  repeat' first
    | with_reducible apply ite_next
    | with_reducible exact plain_next _
    | split
    | dsimp only

theorem execModelTable_next (e : CmdEntry) (s : State) : Completes (execModelTable e s) := by
  unfold execModelTable
  exact plain_next _

theorem execPmCfgWrite_next (t : Fin 512) (reg : Fin 2) (v : W) (s : State) : Completes (execPmCfgWrite t reg v s) := by
  unfold execPmCfgWrite
  repeat' first
    | with_reducible apply ite_next
    | with_reducible exact plain_next _
    | split
    | dsimp only

theorem execImpDrift_next (ch : Fin 512) (s : State) : Completes (execImpDrift ch s) := by
  unfold execImpDrift
  repeat' first
    | with_reducible apply ite_next
    | with_reducible exact plain_next _
    | split
    | dsimp only

theorem execMotionLatch_next (f : Fin 32) (l : Fin 8) (s : State) : Completes (execMotionLatch f l s) := by
  unfold execMotionLatch
  repeat' first
    | with_reducible apply ite_next
    | with_reducible exact plain_next _
    | split
    | dsimp only

theorem execModelRunStart_next (e : Fin 32) (ch : Fin 512) (s : State) : Completes (execModelRunStart e ch s) := by
  unfold execModelRunStart
  repeat' first
    | with_reducible apply ite_next
    | with_reducible exact plain_next _
    | split
    | dsimp only

theorem execClampHoldNarrow_next (ch : Fin 512) (s : State) : Completes (execClampHoldNarrow ch s) := by
  unfold execClampHoldNarrow
  repeat' first
    | with_reducible apply ite_next
    | with_reducible exact plain_next _
    | split
    | dsimp only

theorem execModelEngineHealthFail_next (e : Fin 32) (s : State) : Completes (execModelEngineHealthFail e s) := by
  unfold execModelEngineHealthFail
  repeat' first
    | with_reducible apply ite_next
    | with_reducible exact plain_next _
    | split
    | dsimp only

theorem execCoverEnd_next (e : Fin 32) (l : Fin 8) (s : State) : Completes (execCoverEnd e l s) := by
  unfold execCoverEnd
  repeat' first
    | with_reducible apply ite_next
    | with_reducible exact plain_next _
    | split
    | dsimp only

theorem execResRefit_next (ch : Fin 512) (s : State) : Completes (execResRefit ch s) := by
  unfold execResRefit
  repeat' first
    | with_reducible apply ite_next
    | with_reducible exact plain_next _
    | split
    | dsimp only

theorem execModelDeadline_next (e : Fin 32) (s : State) : Completes (execModelDeadline e s) := by
  unfold execModelDeadline
  repeat' first
    | with_reducible apply ite_next
    | with_reducible exact plain_next _
    | split
    | dsimp only

theorem execIaNop_next (e : Fin 160) (err : Fin 5) (s : State) : Completes (execIaNop e err s) := by
  unfold execIaNop
  exact plain_next _

theorem execIaEnd_next (e : Fin 160) (err : Fin 5) (s : State) : Completes (execIaEnd e err s) := by
  unfold execIaEnd
  repeat' first
    | with_reducible apply ite_next
    | with_reducible exact plain_next _
    | split
    | dsimp only

theorem execIaMovi_next (e : Fin 160) (err : Fin 5) (s : State) : Completes (execIaMovi e err s) := by
  unfold execIaMovi
  exact plain_next _

theorem execIaLdp_next (e : Fin 160) (err : Fin 5) (s : State) : Completes (execIaLdp e err s) := by
  unfold execIaLdp
  exact plain_next _

theorem execIaAddp_next (e : Fin 160) (err : Fin 5) (s : State) : Completes (execIaAddp e err s) := by
  unfold execIaAddp
  exact plain_next _

theorem execIaMov_next (e : Fin 160) (err : Fin 5) (s : State) : Completes (execIaMov e err s) := by
  unfold execIaMov
  exact plain_next _

theorem execIaMfl_next (e : Fin 160) (err : Fin 5) (s : State) : Completes (execIaMfl e err s) := by
  unfold execIaMfl
  exact plain_next _

theorem execIaClrs_next (e : Fin 160) (err : Fin 5) (s : State) : Completes (execIaClrs e err s) := by
  unfold execIaClrs
  exact plain_next _

theorem execIaLdh_next (e : Fin 160) (err : Fin 5) (s : State) : Completes (execIaLdh e err s) := by
  unfold execIaLdh
  exact plain_next _

theorem execIaSth_next (e : Fin 160) (err : Fin 5) (s : State) : Completes (execIaSth e err s) := by
  unfold execIaSth
  exact plain_next _

theorem execIaLdw_next (e : Fin 160) (err : Fin 5) (s : State) : Completes (execIaLdw e err s) := by
  unfold execIaLdw
  exact plain_next _

theorem execIaStw_next (e : Fin 160) (err : Fin 5) (s : State) : Completes (execIaStw e err s) := by
  unfold execIaStw
  exact plain_next _

theorem execIaAdd_next (e : Fin 160) (err : Fin 5) (s : State) : Completes (execIaAdd e err s) := by
  unfold execIaAdd
  exact plain_next _

theorem execIaSub_next (e : Fin 160) (err : Fin 5) (s : State) : Completes (execIaSub e err s) := by
  unfold execIaSub
  exact plain_next _

theorem execIaAddi_next (e : Fin 160) (err : Fin 5) (s : State) : Completes (execIaAddi e err s) := by
  unfold execIaAddi
  exact plain_next _

theorem execIaNeg_next (e : Fin 160) (err : Fin 5) (s : State) : Completes (execIaNeg e err s) := by
  unfold execIaNeg
  exact plain_next _

theorem execIaAbs_next (e : Fin 160) (err : Fin 5) (s : State) : Completes (execIaAbs e err s) := by
  unfold execIaAbs
  exact plain_next _

theorem execIaMin_next (e : Fin 160) (err : Fin 5) (s : State) : Completes (execIaMin e err s) := by
  unfold execIaMin
  exact plain_next _

theorem execIaMax_next (e : Fin 160) (err : Fin 5) (s : State) : Completes (execIaMax e err s) := by
  unfold execIaMax
  exact plain_next _

theorem execIaAnd_next (e : Fin 160) (err : Fin 5) (s : State) : Completes (execIaAnd e err s) := by
  unfold execIaAnd
  exact plain_next _

theorem execIaOr_next (e : Fin 160) (err : Fin 5) (s : State) : Completes (execIaOr e err s) := by
  unfold execIaOr
  exact plain_next _

theorem execIaXor_next (e : Fin 160) (err : Fin 5) (s : State) : Completes (execIaXor e err s) := by
  unfold execIaXor
  exact plain_next _

theorem execIaAndi_next (e : Fin 160) (err : Fin 5) (s : State) : Completes (execIaAndi e err s) := by
  unfold execIaAndi
  exact plain_next _

theorem execIaShl_next (e : Fin 160) (err : Fin 5) (s : State) : Completes (execIaShl e err s) := by
  unfold execIaShl
  exact plain_next _

theorem execIaShr_next (e : Fin 160) (err : Fin 5) (s : State) : Completes (execIaShr e err s) := by
  unfold execIaShr
  exact plain_next _

theorem execIaCmp_next (e : Fin 160) (err : Fin 5) (s : State) : Completes (execIaCmp e err s) := by
  unfold execIaCmp
  exact plain_next _

theorem execIaCmpi_next (e : Fin 160) (err : Fin 5) (s : State) : Completes (execIaCmpi e err s) := by
  unfold execIaCmpi
  exact plain_next _

theorem execIaSel_next (e : Fin 160) (err : Fin 5) (s : State) : Completes (execIaSel e err s) := by
  unfold execIaSel
  repeat' first
    | with_reducible apply ite_next
    | with_reducible exact plain_next _
    | split
    | dsimp only

theorem execIaMul_next (e : Fin 160) (err : Fin 5) (s : State) : Completes (execIaMul e err s) := by
  unfold execIaMul
  exact plain_next _

theorem execIaMac_next (e : Fin 160) (err : Fin 5) (s : State) : Completes (execIaMac e err s) := by
  unfold execIaMac
  exact plain_next _

theorem execIaMsu_next (e : Fin 160) (err : Fin 5) (s : State) : Completes (execIaMsu e err s) := by
  unfold execIaMsu
  exact plain_next _

theorem execIaGmul_next (e : Fin 160) (err : Fin 5) (s : State) : Completes (execIaGmul e err s) := by
  unfold execIaGmul
  exact plain_next _

theorem execIaGmac_next (e : Fin 160) (err : Fin 5) (s : State) : Completes (execIaGmac e err s) := by
  unfold execIaGmac
  exact plain_next _

theorem execIaAdda_next (e : Fin 160) (err : Fin 5) (s : State) : Completes (execIaAdda e err s) := by
  unfold execIaAdda
  exact plain_next _

theorem execIaSuba_next (e : Fin 160) (err : Fin 5) (s : State) : Completes (execIaSuba e err s) := by
  unfold execIaSuba
  exact plain_next _

theorem execIaXta_next (e : Fin 160) (err : Fin 5) (s : State) : Completes (execIaXta e err s) := by
  unfold execIaXta
  exact plain_next _

theorem execIaRnd_next (e : Fin 160) (err : Fin 5) (s : State) : Completes (execIaRnd e err s) := by
  unfold execIaRnd
  exact plain_next _

theorem execIaSha_next (e : Fin 160) (err : Fin 5) (s : State) : Completes (execIaSha e err s) := by
  unfold execIaSha
  exact plain_next _

theorem execIaClpa_next (e : Fin 160) (err : Fin 5) (s : State) : Completes (execIaClpa e err s) := by
  unfold execIaClpa
  exact plain_next _

theorem execIaSatw_next (e : Fin 160) (err : Fin 5) (s : State) : Completes (execIaSatw e err s) := by
  unfold execIaSatw
  repeat' first
    | with_reducible apply ite_next
    | with_reducible exact plain_next _
    | split
    | dsimp only

theorem execIaCmpa_next (e : Fin 160) (err : Fin 5) (s : State) : Completes (execIaCmpa e err s) := by
  unfold execIaCmpa
  exact plain_next _

theorem execIaSela_next (e : Fin 160) (err : Fin 5) (s : State) : Completes (execIaSela e err s) := by
  unfold execIaSela
  repeat' first
    | with_reducible apply ite_next
    | with_reducible exact plain_next _
    | split
    | dsimp only

theorem execIaExt_next (e : Fin 160) (err : Fin 5) (s : State) : Completes (execIaExt e err s) := by
  unfold execIaExt
  exact plain_next _

theorem execIaErr_next (e : Fin 160) (err : Fin 5) (s : State) : Completes (execIaErr e err s) := by
  unfold execIaErr
  repeat' first
    | with_reducible apply ite_next
    | with_reducible exact plain_next _
    | split
    | dsimp only

theorem execIaDiv_next (e : Fin 160) (err : Fin 5) (s : State) : Completes (execIaDiv e err s) := by
  unfold execIaDiv
  exact plain_next _

theorem execIaClra_next (e : Fin 160) (err : Fin 5) (s : State) : Completes (execIaClra e err s) := by
  unfold execIaClra
  exact plain_next _

theorem execIaLse_next (e : Fin 160) (err : Fin 5) (s : State) : Completes (execIaLse e err s) := by
  unfold execIaLse
  exact plain_next _

theorem execIaHld_next (e : Fin 160) (err : Fin 5) (s : State) : Completes (execIaHld e err s) := by
  unfold execIaHld
  exact plain_next _

theorem execIaCap_next (e : Fin 160) (err : Fin 5) (s : State) : Completes (execIaCap e err s) := by
  unfold execIaCap
  exact plain_next _

theorem execIaChn_next (e : Fin 160) (err : Fin 5) (s : State) : Completes (execIaChn e err s) := by
  unfold execIaChn
  exact plain_next _

theorem execIaClm_next (e : Fin 160) (err : Fin 5) (s : State) : Completes (execIaClm e err s) := by
  unfold execIaClm
  exact plain_next _

theorem execIaSpt_next (e : Fin 160) (err : Fin 5) (s : State) : Completes (execIaSpt e err s) := by
  unfold execIaSpt
  exact plain_next _

theorem execIaSin_next (e : Fin 160) (err : Fin 5) (s : State) : Completes (execIaSin e err s) := by
  unfold execIaSin
  exact plain_next _

theorem execIaFfw_next (e : Fin 160) (err : Fin 5) (s : State) : Completes (execIaFfw e err s) := by
  unfold execIaFfw
  exact plain_next _

theorem execIaInj_next (e : Fin 160) (err : Fin 5) (s : State) : Completes (execIaInj e err s) := by
  unfold execIaInj
  exact plain_next _

theorem execIaEvt_next (e : Fin 160) (err : Fin 5) (s : State) : Completes (execIaEvt e err s) := by
  unfold execIaEvt
  exact plain_next _

theorem execIaOut_next (e : Fin 160) (err : Fin 5) (s : State) : Completes (execIaOut e err s) := by
  unfold execIaOut
  exact plain_next _

theorem execIaLoop_next (e : Fin 160) (err : Fin 5) (s : State) : Completes (execIaLoop e err s) := by
  unfold execIaLoop
  exact plain_next _

theorem execIaSkp_next (e : Fin 160) (err : Fin 5) (s : State) : Completes (execIaSkp e err s) := by
  unfold execIaSkp
  repeat' first
    | with_reducible apply ite_next
    | with_reducible exact plain_next _
    | split
    | dsimp only

theorem execCoefWrite_next (t : Fin 512) (w : Fin 32) (v : W) (s : State) : Completes (execCoefWrite t w v s) := by
  unfold execCoefWrite
  repeat' first
    | with_reducible apply ite_next
    | with_reducible exact plain_next _
    | split
    | dsimp only

theorem execLoopCfgWrite_next (t : Fin 512) (v : W) (s : State) : Completes (execLoopCfgWrite t v s) := by
  unfold execLoopCfgWrite
  repeat' first
    | with_reducible apply ite_next
    | with_reducible exact plain_next _
    | split
    | dsimp only

theorem execCoefApply_next (ch : Fin 512) (ready : BitVec 16) (s : State) : Completes (execCoefApply ch ready s) := by
  unfold execCoefApply
  repeat' first
    | with_reducible apply ite_next
    | with_reducible exact plain_next _
    | split
    | dsimp only

theorem execLoopLatch_next (f : Fin 32) (l : Fin 8) (bus : BitVec 16) (sens : List SenseIn) (fails : List WordFail) (s : State) : Completes (execLoopLatch f l bus sens fails s) := by
  unfold execLoopLatch
  repeat' first
    | with_reducible apply ite_next
    | with_reducible exact plain_next _
    | split
    | dsimp only

theorem execInstanceRunStart_next (e : Fin 128) (ch : Fin 512) (l : Fin 8) (s : State) : Completes (execInstanceRunStart e ch l s) := by
  unfold execInstanceRunStart
  repeat' first
    | with_reducible apply ite_next
    | with_reducible exact plain_next _
    | split
    | dsimp only

theorem execLoopCutoff_next (e : Fin 128) (l : Fin 8) (s : State) : Completes (execLoopCutoff e l s) := by
  unfold execLoopCutoff
  repeat' first
    | with_reducible apply ite_next
    | with_reducible exact plain_next _
    | split
    | dsimp only

theorem execOverrunHealthFailure_next (ch : Fin 512) (shadow : Bool) (s : State) : Completes (execOverrunHealthFailure ch shadow s) := by
  unfold execOverrunHealthFailure
  repeat' first
    | with_reducible apply ite_next
    | with_reducible exact plain_next _
    | split
    | dsimp only

theorem execFollowError_next (ch : Fin 512) (s : State) : Completes (execFollowError ch s) := by
  unfold execFollowError
  repeat' first
    | with_reducible apply ite_next
    | with_reducible exact plain_next _
    | split
    | dsimp only

theorem execRollbackBurn_next (slot : Fin 16) (got : Option (BitVec 8)) (s : State) : Completes (execRollbackBurn slot got s) := by
  unfold execRollbackBurn
  repeat' first
    | with_reducible apply ite_next
    | with_reducible exact plain_next _
    | split
    | dsimp only

theorem execLoad_next (e : CmdEntry) (std : Fin 3) (s : State) : Completes (execLoad e std s) := by
  unfold execLoad
  repeat' first
    | with_reducible apply ite_next
    | with_reducible exact plain_next _
    | split
    | dsimp only

theorem execLoadComplete_next (ch : Fin 512) (s : State) : Completes (execLoadComplete ch s) := by
  unfold execLoadComplete
  exact plain_next _

theorem execModelLoad_next (e : CmdEntry) (std : Fin 3) (s : State) : Completes (execModelLoad e std s) := by
  unfold execModelLoad
  repeat' first
    | with_reducible apply ite_next
    | with_reducible exact plain_next _
    | split
    | dsimp only

theorem execModelLoadComplete_next (f : Fin 32) (s : State) : Completes (execModelLoadComplete f s) := by
  unfold execModelLoadComplete
  repeat' first
    | with_reducible apply ite_next
    | with_reducible exact plain_next _
    | split
    | dsimp only

theorem execChanDelComplete_next (ch : Fin 512) (s : State) : Completes (execChanDelComplete ch s) := by
  unfold execChanDelComplete
  repeat' first
    | with_reducible apply ite_next
    | with_reducible exact plain_next _
    | split
    | dsimp only

theorem execLinkTrained_next (i : Fin 2) (lanes : Fin 3) (station : Option StnJoin) (s : State) : Completes (execLinkTrained i lanes station s) := by
  unfold execLinkTrained
  repeat' first
    | with_reducible apply ite_next
    | with_reducible exact plain_next _
    | split
    | dsimp only

theorem execDiscoveryToken_next (i : Fin 2) (count : Fin 16) (id : BitVec 64) (s : State) : Completes (execDiscoveryToken i count id s) := by
  unfold execDiscoveryToken
  repeat' first
    | with_reducible apply ite_next
    | with_reducible exact plain_next _
    | split
    | dsimp only

theorem execDiscoveryTimeout_next (s : State) : Completes (execDiscoveryTimeout s) := by
  unfold execDiscoveryTimeout
  repeat' first
    | with_reducible apply ite_next
    | with_reducible exact plain_next _
    | split
    | dsimp only

theorem execStationFormMessage_next (i : Fin 2) (nmod : Fin 9) (ring : Bool) (excluded : Bool) (rate : BitVec 18) (m : BitVec 2) (s : State) : Completes (execStationFormMessage i nmod ring excluded rate m s) := by
  unfold execStationFormMessage
  repeat' first
    | with_reducible apply ite_next
    | with_reducible exact plain_next _
    | split
    | dsimp only

theorem execStationMarker_next (i : Fin 2) (frame : BitVec 48) (err : BitVec 16) (s : State) : Completes (execStationMarker i frame err s) := by
  unfold execStationMarker
  repeat' first
    | with_reducible apply ite_next
    | with_reducible exact plain_next _
    | split
    | dsimp only

theorem execHopDelayMeasure_next (i : Fin 2) (delay : W) (s : State) : Completes (execHopDelayMeasure i delay s) := by
  unfold execHopDelayMeasure
  repeat' first
    | with_reducible apply ite_next
    | with_reducible exact plain_next _
    | split
    | dsimp only

theorem execStationSeating_next (at_ : Nat) (s : State) : Completes (execStationSeating at_ s) := by
  unfold execStationSeating
  repeat' first
    | with_reducible apply ite_next
    | with_reducible exact plain_next _
    | split
    | dsimp only

theorem execAlignConfirm_next (p : Fin 8) (s : State) : Completes (execAlignConfirm p s) := by
  unfold execAlignConfirm
  repeat' first
    | with_reducible apply ite_next
    | with_reducible exact plain_next _
    | split
    | dsimp only

theorem execStationReady_next (s : State) : Completes (execStationReady s) := by
  unfold execStationReady
  repeat' first
    | with_reducible apply ite_next
    | with_reducible exact plain_next _
    | split
    | dsimp only

theorem execAlignErr_next (s : State) : Completes (execAlignErr s) := by
  unfold execAlignErr
  repeat' first
    | with_reducible apply ite_next
    | with_reducible exact plain_next _
    | split
    | dsimp only

theorem execLinkDown_next (i : Fin 2) (far : Option Int) (s : State) : Completes (execLinkDown i far s) := by
  unfold execLinkDown
  repeat' first
    | with_reducible apply ite_next
    | with_reducible exact plain_next _
    | split
    | dsimp only

theorem execLinkUp_next (i : Fin 2) (lanes : Fin 3) (far : Option Int) (station : Option StnJoin) (s : State) : Completes (execLinkUp i lanes far station s) := by
  unfold execLinkUp
  repeat' first
    | with_reducible apply ite_next
    | with_reducible exact plain_next _
    | split
    | dsimp only

theorem execStnRescan_next (e : CmdEntry) (peerArmed : Bool) (s : State) : Completes (execStnRescan e peerArmed s) := by
  unfold execStnRescan
  exact plain_next _

theorem execCalendarSet_next (v : W) (s : State) : Completes (execCalendarSet v s) := by
  unfold execCalendarSet
  repeat' first
    | with_reducible apply ite_next
    | with_reducible exact plain_next _
    | split
    | dsimp only

theorem execCalendarSync_next (sec : W) (frac : BitVec 14) (s : State) : Completes (execCalendarSync sec frac s) := by
  unfold execCalendarSync
  repeat' first
    | with_reducible apply ite_next
    | with_reducible exact plain_next _
    | split
    | dsimp only

theorem execSupercapLow_next (s : State) : Completes (execSupercapLow s) := by
  unfold execSupercapLow
  exact plain_next _

theorem execBackupLow_next (s : State) : Completes (execBackupLow s) := by
  unfold execBackupLow
  repeat' first
    | with_reducible apply ite_next
    | with_reducible exact plain_next _
    | split
    | dsimp only

theorem execCalendarSupplyChange_next (supply : Fin 4) (s : State) : Completes (execCalendarSupplyChange supply s) := by
  unfold execCalendarSupplyChange
  repeat' first
    | with_reducible apply ite_next
    | with_reducible exact plain_next _
    | split
    | dsimp only

theorem execDoorbell_next (r : Fin 8) (v : W) (s : State) : Completes (execDoorbell r v s) := by
  unfold execDoorbell
  repeat' first
    | with_reducible apply ite_next
    | with_reducible exact plain_next _
    | split
    | dsimp only

theorem execCommandFetch_next (e : CmdEntry) (s : State) : Completes (execCommandFetch e s) := by
  unfold execCommandFetch
  repeat' first
    | with_reducible apply ite_next
    | with_reducible exact plain_next _
    | split
    | dsimp only

theorem execCommandTake_next (s : State) : Completes (execCommandTake s) := by
  unfold execCommandTake
  repeat' first
    | with_reducible apply ite_next
    | with_reducible exact plain_next _
    | split
    | dsimp only

theorem execCompletionWrite_next (r : Fin 8) (s : State) : Completes (execCompletionWrite r s) := by
  unfold execCompletionWrite
  repeat' first
    | with_reducible apply ite_next
    | with_reducible exact plain_next _
    | split
    | dsimp only

theorem execCqHeadWrite_next (r : Fin 8) (v : W) (s : State) : Completes (execCqHeadWrite r v s) := by
  unfold execCqHeadWrite
  repeat' first
    | with_reducible apply ite_next
    | with_reducible exact plain_next _
    | split
    | dsimp only

theorem execRingEnable_next (r : Fin 8) (s : State) : Completes (execRingEnable r s) := by
  unfold execRingEnable
  repeat' first
    | with_reducible apply ite_next
    | with_reducible exact plain_next _
    | split
    | dsimp only

theorem execRingDisable_next (r : Fin 8) (s : State) : Completes (execRingDisable r s) := by
  unfold execRingDisable
  repeat' first
    | with_reducible apply ite_next
    | with_reducible exact plain_next _
    | split
    | dsimp only

theorem execRingDmaFailure_next (r : Fin 8) (canWrite : Bool) (s : State) : Completes (execRingDmaFailure r canWrite s) := by
  unfold execRingDmaFailure
  repeat' first
    | with_reducible apply ite_next
    | with_reducible exact plain_next _
    | split
    | dsimp only

theorem execHostReset_next (pclk : Bool) (s : State) : Completes (execHostReset pclk s) := by
  unfold execHostReset
  repeat' first
    | with_reducible apply ite_next
    | with_reducible exact plain_next _
    | split
    | dsimp only

theorem execPcieLinkTrained_next (width : Fin 3) (speed : Fin 3) (s : State) : Completes (execPcieLinkTrained width speed s) := by
  unfold execPcieLinkTrained
  exact plain_next _

theorem execIntAckWrite_next (v : W) (s : State) : Completes (execIntAckWrite v s) := by
  unfold execIntAckWrite
  repeat' first
    | with_reducible apply ite_next
    | with_reducible exact plain_next _
    | split
    | dsimp only

theorem execDramUncorrectable_next (s : State) : Completes (execDramUncorrectable s) := by
  unfold execDramUncorrectable
  exact plain_next _

theorem execTallyFreeze_next (s : State) : Completes (execTallyFreeze s) := by
  unfold execTallyFreeze
  exact plain_next _

theorem execTallyUnfreeze_next (s : State) : Completes (execTallyUnfreeze s) := by
  unfold execTallyUnfreeze
  exact plain_next _

theorem execPairCompareMiss_next (u : Fin 16) (unwritten : List (Fin 512 × Fin 3)) (now : Nat) (s : State) : Completes (execPairCompareMiss u unwritten now s) := by
  unfold execPairCompareMiss
  repeat' first
    | with_reducible apply ite_next
    | with_reducible exact plain_next _
    | split
    | dsimp only

theorem execFsResume_next (k : Fin 8) (s : State) : Completes (execFsResume k s) := by
  unfold execFsResume
  repeat' first
    | with_reducible apply ite_next
    | with_reducible exact plain_next _
    | split
    | dsimp only

theorem execCoreStandbyCopyDone_next (r : Fin 4) (b : Bool) (s : State) : Completes (execCoreStandbyCopyDone r b s) := by
  unfold execCoreStandbyCopyDone
  repeat' first
    | with_reducible apply ite_next
    | with_reducible exact plain_next _
    | split
    | dsimp only

theorem execDomain_next (e : CmdEntry) (now : Nat) (s : State) : Completes (execDomain e now s) := by
  unfold execDomain
  exact plain_next _

theorem execDomainSettled_next (d : Fin 48) (s : State) : Completes (execDomainSettled d s) := by
  unfold execDomainSettled
  repeat' first
    | with_reducible apply ite_next
    | with_reducible exact plain_next _
    | split
    | dsimp only

theorem execBrokenWire_next (source : BitVec 8) (unwritten : List (Fin 512 × Fin 3)) (now : Nat) (s : State) : Completes (execBrokenWire source unwritten now s) := by
  unfold execBrokenWire
  repeat' first
    | with_reducible apply ite_next
    | with_reducible exact plain_next _
    | split
    | dsimp only

theorem execFenceLoad_next (e : CmdEntry) (got : Option (BitVec 384)) (s : State) : Completes (execFenceLoad e got s) := by
  unfold execFenceLoad
  exact plain_next _

theorem execFenceInForce_next (s : State) : Completes (execFenceInForce s) := by
  unfold execFenceInForce
  repeat' first
    | with_reducible apply ite_next
    | with_reducible exact plain_next _
    | split
    | dsimp only

theorem execAttest_next (e : CmdEntry) (s : State) : Completes (execAttest e s) := by
  unfold execAttest
  repeat' first
    | with_reducible apply ite_next
    | with_reducible exact plain_next _
    | split
    | dsimp only

theorem execTallyLatch_next (s : State) : Completes (execTallyLatch s) := by
  unfold execTallyLatch
  repeat' first
    | with_reducible apply ite_next
    | with_reducible exact plain_next _
    | split
    | dsimp only

theorem execDebugChal_next (e : CmdEntry) (s : State) : Completes (execDebugChal e s) := by
  unfold execDebugChal
  exact plain_next _

theorem execChallengeLapse_next (s : State) : Completes (execChallengeLapse s) := by
  unfold execChallengeLapse
  exact plain_next _

theorem execDebugResp_next (e : CmdEntry) (fuseOk : Bool) (s : State) : Completes (execDebugResp e fuseOk s) := by
  unfold execDebugResp
  repeat' first
    | with_reducible apply ite_next
    | with_reducible exact plain_next _
    | split
    | dsimp only

theorem execDiagRun_next (e : CmdEntry) (s : State) : Completes (execDiagRun e s) := by
  unfold execDiagRun
  exact plain_next _

theorem execDiagAbort_next (e : CmdEntry) (s : State) : Completes (execDiagAbort e s) := by
  unfold execDiagAbort
  exact plain_next _

theorem execDiagEnrol_next (e : CmdEntry) (s : State) : Completes (execDiagEnrol e s) := by
  unfold execDiagEnrol
  repeat' first
    | with_reducible apply ite_next
    | with_reducible exact plain_next _
    | split
    | dsimp only

theorem execDiagDel_next (e : CmdEntry) (s : State) : Completes (execDiagDel e s) := by
  unfold execDiagDel
  exact plain_next _

theorem execDiagPointEnd_next (d : Fin 256) (s : State) : Completes (execDiagPointEnd d s) := by
  unfold execDiagPointEnd
  repeat' first
    | with_reducible apply ite_next
    | with_reducible exact plain_next _
    | split
    | dsimp only

theorem execDiagRunEnd_next (d : Fin 256) (cause : Fin 6) (s : State) : Completes (execDiagRunEnd d cause s) := by
  unfold execDiagRunEnd
  repeat' first
    | with_reducible apply ite_next
    | with_reducible exact plain_next _
    | split
    | dsimp only

theorem execDiagResultWrite_next (d : Fin 256) (s : State) : Completes (execDiagResultWrite d s) := by
  unfold execDiagResultWrite
  repeat' first
    | with_reducible apply ite_next
    | with_reducible exact plain_next _
    | split
    | dsimp only

theorem execBistRun_next (e : CmdEntry) (s : State) : Completes (execBistRun e s) := by
  unfold execBistRun
  exact plain_next _

theorem execBistWorkMoved_next (c : Fin 9) (s : State) : Completes (execBistWorkMoved c s) := by
  unfold execBistWorkMoved
  repeat' first
    | with_reducible apply ite_next
    | with_reducible exact plain_next _
    | split
    | dsimp only

theorem execEngineAutoTestStart_next (n : Fin 176) (s : State) : Completes (execEngineAutoTestStart n s) := by
  unfold execEngineAutoTestStart
  repeat' first
    | with_reducible apply ite_next
    | with_reducible exact plain_next _
    | split
    | dsimp only

theorem execBistVerdict_next (c : Fin 9) (sig : BitVec 64) (s : State) : Completes (execBistVerdict c sig s) := by
  unfold execBistVerdict
  repeat' first
    | with_reducible apply ite_next
    | with_reducible exact plain_next _
    | split
    | dsimp only

theorem execDeferredActionRun_next (got : Option (BitVec 384)) (peerArmed : Bool) (now : Nat) (s : State) : Completes (execDeferredActionRun got peerArmed now s) := by
  unfold execDeferredActionRun
  repeat' first
    | with_reducible apply ite_next
    | with_reducible exact plain_next _
    | split
    | dsimp only

theorem execJtagBypass_next (code : BitVec 8) (s : State) : Completes (execJtagBypass code s) := by
  unfold execJtagBypass
  repeat' first
    | with_reducible apply ite_next
    | with_reducible exact plain_next _
    | split
    | dsimp only

theorem execJtagIdcode_next (s : State) : Completes (execJtagIdcode s) := by
  unfold execJtagIdcode
  repeat' first
    | with_reducible apply ite_next
    | with_reducible exact plain_next _
    | split
    | dsimp only

theorem execJtagSamplePreload_next (pins : List Bool) (shift : List Bool) (s : State) : Completes (execJtagSamplePreload pins shift s) := by
  unfold execJtagSamplePreload
  repeat' first
    | with_reducible apply ite_next
    | with_reducible exact plain_next _
    | split
    | dsimp only

theorem execJtagExtest_next (pins : List Bool) (shift : Option (List Bool)) (s : State) : Completes (execJtagExtest pins shift s) := by
  unfold execJtagExtest
  repeat' first
    | with_reducible apply ite_next
    | with_reducible exact plain_next _
    | split
    | dsimp only

theorem execCapTrigger_next (i : Fin 1024) (s : State) : Completes (execCapTrigger i s) := by
  unfold execCapTrigger
  repeat' first
    | with_reducible apply ite_next
    | with_reducible exact plain_next _
    | split
    | dsimp only

theorem execCapEntryRecord_next (i : Fin 1024) (fails : BitVec 4) (s : State) : Completes (execCapEntryRecord i fails s) := by
  unfold execCapEntryRecord
  repeat' first
    | with_reducible apply ite_next
    | with_reducible exact plain_next _
    | split
    | dsimp only

theorem execCapEntryCommit_next (i : Fin 1024) (s : State) : Completes (execCapEntryCommit i s) := by
  unfold execCapEntryCommit
  repeat' first
    | with_reducible apply ite_next
    | with_reducible exact plain_next _
    | split
    | dsimp only

theorem execCapDone_next (i : Fin 1024) (s : State) : Completes (execCapDone i s) := by
  unfold execCapDone
  repeat' first
    | with_reducible apply ite_next
    | with_reducible exact plain_next _
    | split
    | dsimp only

theorem execInjEnd_next (i : Fin 512) (s : State) : Completes (execInjEnd i s) := by
  unfold execInjEnd
  repeat' first
    | with_reducible apply ite_next
    | with_reducible exact plain_next _
    | split
    | dsimp only

theorem execInjChunkFetch_next (i : Fin 512) (s : State) : Completes (execInjChunkFetch i s) := by
  unfold execInjChunkFetch
  repeat' first
    | with_reducible apply ite_next
    | with_reducible exact plain_next _
    | split
    | dsimp only

theorem execAuxSupplyRise_next (head : Bool) (s : State) : Completes (execAuxSupplyRise head s) := by
  unfold execAuxSupplyRise
  repeat' first
    | with_reducible apply ite_next
    | with_reducible exact plain_next _
    | split
    | dsimp only

theorem execAlwaysOnReady_next (s : State) : Completes (execAlwaysOnReady s) := by
  unfold execAlwaysOnReady
  repeat' first
    | with_reducible apply ite_next
    | with_reducible exact plain_next _
    | split
    | dsimp only

theorem execSecurityBootDone_next (fwOk : Bool) (fw : W) (s : State) : Completes (execSecurityBootDone fwOk fw s) := by
  unfold execSecurityBootDone
  repeat' first
    | with_reducible apply ite_next
    | with_reducible exact plain_next _
    | split
    | dsimp only

theorem execCoresStarted_next (s : State) : Completes (execCoresStarted s) := by
  unfold execCoresStarted
  repeat' first
    | with_reducible apply ite_next
    | with_reducible exact plain_next _
    | split
    | dsimp only

theorem execFoldSlotStart_next (k : Fin 8) (s : State) : Completes (execFoldSlotStart k s) := by
  unfold execFoldSlotStart
  repeat' first
    | with_reducible apply ite_next
    | with_reducible exact plain_next _
    | split
    | dsimp only

theorem execFoldSlotEnd_next (k : Fin 8) (low : Bool) (now : Nat) (s : State) : Completes (execFoldSlotEnd k low now s) := by
  unfold execFoldSlotEnd
  repeat' first
    | with_reducible apply ite_next
    | with_reducible exact plain_next _
    | split
    | dsimp only

theorem execQuickBistDone_next (fails : List (Fin 8 × Fin 131072)) (segs : List (Fin 512 × Fin 16 × Fin 16)) (s : State) : Completes (execQuickBistDone fails segs s) := by
  unfold execQuickBistDone
  repeat' first
    | with_reducible apply ite_next
    | with_reducible exact plain_next _
    | split
    | dsimp only

theorem execFrameClockPhased_next (s : State) : Completes (execFrameClockPhased s) := by
  unfold execFrameClockPhased
  repeat' first
    | with_reducible apply ite_next
    | with_reducible exact plain_next _
    | split
    | dsimp only

theorem execAuxSupplyFail_next (now : Nat) (s : State) : Completes (execAuxSupplyFail now s) := by
  unfold execAuxSupplyFail
  exact plain_next _

theorem execDomainPowerLoss_next (d : Fin 48) (now : Nat) (s : State) : Completes (execDomainPowerLoss d now s) := by
  unfold execDomainPowerLoss
  repeat' first
    | with_reducible apply ite_next
    | with_reducible exact plain_next _
    | split
    | dsimp only

theorem execClockReserveTakeover_next (s : State) : Completes (execClockReserveTakeover s) := by
  unfold execClockReserveTakeover
  exact plain_next _

theorem execClockLossModuleStop_next (clock : Fin 3) (now : Nat) (s : State) : Completes (execClockLossModuleStop clock now s) := by
  unfold execClockLossModuleStop
  repeat' first
    | with_reducible apply ite_next
    | with_reducible exact plain_next _
    | split
    | dsimp only

theorem execFrameBoundary_next (len : BitVec 32) (tagFails : List (Fin 16 × Fin 32)) (s : State) : Completes (execFrameBoundary len tagFails s) := by
  unfold execFrameBoundary
  exact plain_next _

theorem execFcSettingsApply_next (s : State) : Completes (execFcSettingsApply s) := by
  unfold execFcSettingsApply
  repeat' first
    | with_reducible apply ite_next
    | with_reducible exact plain_next _
    | split
    | dsimp only

theorem execOutputFrameSend_next (n : Fin 4) (s : State) : Completes (execOutputFrameSend n s) := by
  unfold execOutputFrameSend
  repeat' first
    | with_reducible apply ite_next
    | with_reducible exact plain_next _
    | split
    | dsimp only

theorem execLoWordRead_next (addr : BitVec 25) (size : Fin 4) (s : State) : Completes (execLoWordRead addr size s) := by
  unfold execLoWordRead
  repeat' first
    | with_reducible apply ite_next
    | with_reducible exact plain_next _
    | split
    | dsimp only

theorem writeRing_next (r : Fin 8) (o : Nat) (v : W) (s : State) : Completes (writeRing r o v s) := by
  unfold writeRing
  repeat' first
    | with_reducible apply ite_next
    | with_reducible exact plain_next _
    | with_reducible apply execDoorbell_next
    | with_reducible apply execCqHeadWrite_next
    | with_reducible apply execRingEnable_next
    | with_reducible apply execRingDisable_next
    | split
    | dsimp only

theorem writeFcCtrl_next (v : W) (s : State) : Completes (writeFcCtrl v s) := by
  unfold writeFcCtrl
  repeat' first
    | with_reducible apply ite_next
    | with_reducible exact plain_next _
    | with_reducible apply execReselect_next
    | split
    | dsimp only

theorem writeFlock_next (f : Fin 32) (o : Nat) (v : W) (s : State) : Completes (writeFlock f o v s) := by
  unfold writeFlock
  repeat' first
    | with_reducible apply ite_next
    | with_reducible exact plain_next _
    | with_reducible apply execStFieldWrite_next
    | with_reducible apply execCrookWrite_next
    | with_reducible apply execFoldCfgWrite_next
    | with_reducible apply execSnsConfigWrite_next
    | with_reducible apply execPmCfgWrite_next
    | with_reducible apply execCoefWrite_next
    | with_reducible apply execLoopCfgWrite_next
    | split
    | dsimp only

theorem writeWord_next (a : Nat) (v : W) (s : State) : Completes (writeWord a v s) := by
  unfold writeWord
  repeat' first
    | with_reducible apply ite_next
    | with_reducible exact plain_next _
    | with_reducible apply execSpCtrlWrite_next
    | with_reducible apply execSpKindmapWrite_next
    | with_reducible apply execSoCtrlWrite_next
    | with_reducible apply execSoSlotWrite_next
    | with_reducible apply execFcRateWrite_next
    | with_reducible apply execFcRatioWrite_next
    | with_reducible apply execFcPrioWrite_next
    | with_reducible apply execFcWindowWrite_next
    | with_reducible apply execFcPhaseWrite_next
    | with_reducible apply execFltRdWrite_next
    | with_reducible apply execCalendarSet_next
    | with_reducible apply execIntAckWrite_next
    | with_reducible apply execTallyFreeze_next
    | with_reducible apply execTallyUnfreeze_next
    | with_reducible apply writeRing_next
    | with_reducible apply writeFcCtrl_next
    | with_reducible apply writeFlock_next
    | split
    | dsimp only

theorem execRegisterWrite_next (addr : BitVec 25) (data : List (BitVec 8)) (s : State) : Completes (execRegisterWrite addr data s) := by
  unfold execRegisterWrite
  repeat' first
    | with_reducible apply ite_next
    | with_reducible exact plain_next _
    | with_reducible apply writeWord_next
    | split
    | dsimp only

theorem execMaintenanceRequest_next (req : List (BitVec 8)) (s : State) : Completes (execMaintenanceRequest req s) := by
  unfold execMaintenanceRequest
  repeat' first
    | with_reducible apply ite_next
    | with_reducible exact plain_next _
    | split
    | dsimp only

end Sys2Proof.Machine
end

