-- ==== Sys2Proof/Laws/Keep.lean ====
section
/-! SUPPORT. What every meaning keeps, in one frame. A property that each primitive operation on the parts in a list keeps is kept by
every operation that touches no other part; no operation touches the queue. -/

namespace Sys2Proof.Machine

open Sys2Proof

/-- A property that the primitive operations on the parts of `L` keep. -/
structure Keeps (L : List Part) (P : State → Prop) : Prop where
  setReg : L.contains .regs = true → ∀ {s} a v, P s → P (State.setReg s a v)
  dropRegs : L.contains .regs = true → ∀ {s} p, P s → P (State.clearRegs s p)
  setWide : L.contains .wide = true → ∀ {s} a v, P s → P (State.setWide s a v)
  advGen : L.contains .gens = true → ∀ {s} ty i, P s → P (State.advGen s ty i)
  setWs : L.contains .ws = true → ∀ {s} ch o b, P s → P (State.setWsByte s ch o b)
  dropWs : L.contains .ws = true → ∀ {s} p, P s → P { s with ws := tdrop s.ws p }
  setDram : L.contains .dram = true → ∀ {s} a b, P s → P (State.setDramByte s a b)
  dropDram : L.contains .dram = true → ∀ {s} p, P s → P { s with dram := tdrop s.dram p }
  setTerm : L.contains .terms = true → ∀ {s} i x, LegLe (State.term s i) x → P s → P (State.setTerm s i x)
  setSec : L.contains .sec = true → ∀ {s} x, FuseLe s.sec x → P s → P { s with sec := x }
  power : (∀ p, L.contains p = true) → ∀ {s} head, P s → P (powerUp head s)
  hiLatch : L.contains .hiLatch = true → ∀ {s} x, P s → P { s with hiLatch := x }
  dom : L.contains .dom = true → ∀ {s} x, P s → P { s with dom := x }
  boot : L.contains .boot = true → ∀ {s} x, P s → P { s with boot := x }
  amb : L.contains .amb = true → ∀ {s} x, P s → P { s with amb := x }
  ports : L.contains .ports = true → ∀ {s} x, P s → P { s with ports := x }
  outs : L.contains .outs = true → ∀ {s} x, P s → P { s with outs := x }
  bell : L.contains .bell = true → ∀ {s} x, P s → P { s with bell := x }
  chans : L.contains .chans = true → ∀ {s} x, P s → P { s with chans := x }
  folds : L.contains .folds = true → ∀ {s} x, P s → P { s with folds := x }
  binds : L.contains .binds = true → ∀ {s} x, P s → P { s with binds := x }
  gates : L.contains .gates = true → ∀ {s} x, P s → P { s with gates := x }
  timers : L.contains .timers = true → ∀ {s} x, P s → P { s with timers := x }
  trips : L.contains .trips = true → ∀ {s} x, P s → P { s with trips := x }
  motors : L.contains .motors = true → ∀ {s} x, P s → P { s with motors := x }
  caps : L.contains .caps = true → ∀ {s} x, P s → P { s with caps := x }
  injs : L.contains .injs = true → ∀ {s} x, P s → P { s with injs := x }
  images : L.contains .images = true → ∀ {s} x, P s → P { s with images := x }
  health : L.contains .health = true → ∀ {s} x, P s → P { s with health := x }
  runs : L.contains .runs = true → ∀ {s} x, P s → P { s with runs := x }
  mengs : L.contains .mengs = true → ∀ {s} x, P s → P { s with mengs := x }
  sense : L.contains .sense = true → ∀ {s} x, P s → P { s with sense := x }
  fs : L.contains .fs = true → ∀ {s} x, P s → P { s with fs := x }
  cores : L.contains .cores = true → ∀ {s} x, P s → P { s with cores := x }
  bists : L.contains .bists = true → ∀ {s} x, P s → P { s with bists := x }
  jtag : L.contains .jtag = true → ∀ {s} x, P s → P { s with jtag := x }
  diags : L.contains .diags = true → ∀ {s} x, P s → P { s with diags := x }
  rings : L.contains .rings = true → ∀ {s} x, P s → P { s with rings := x }
  svc : L.contains .svc = true → ∀ {s} x, P s → P { s with svc := x }
  col : L.contains .col = true → ∀ {s} x, P s → P { s with col := x }
  tal : L.contains .tal = true → ∀ {s} x, P s → P { s with tal := x }
  attest : L.contains .attest = true → ∀ {s} x, P s → P { s with attest := x }
  host : L.contains .host = true → ∀ {s} x, P s → P { s with host := x }
  stn : L.contains .stn = true → ∀ {s} x, P s → P { s with stn := x }
  nv : L.contains .nv = true → ∀ {s} x, P s → P { s with nv := x }
  free : L.contains .free = true → ∀ {s} x, P s → P { s with free := x }

theorem FuseLe.refl (x : Sec) : FuseLe x x := ⟨fun _ => Nat.le_refl _, Nat.le_refl _, fun _ h => h⟩

theorem FuseLe.same {x y : Sec} (h1 : y.rollback = x.rollback) (h2 : y.debugCount = x.debugCount)
    (h3 : y.builderHash = x.builderHash) : FuseLe x y := by
  refine ⟨fun i => ?_, ?_, fun h hh => ?_⟩
  · rw [h1]
  · rw [h2]
  · rw [h3]; exact hh

theorem FuseLe.count {x y : Sec} (h1 : y.rollback = x.rollback) (h2 : x.debugCount ≤ y.debugCount)
    (h3 : y.builderHash = x.builderHash) : FuseLe x y :=
  ⟨fun i => by rw [h1], h2, fun h hh => by rw [h3]; exact hh⟩

/-- A rollback count that is written no lower. -/
theorem FuseLe.raise {x y : Sec} (k n : Nat) (h : tget 0 x.rollback k ≤ n) (h1 : y.rollback = tset 0 x.rollback k n)
    (h2 : y.debugCount = x.debugCount) (h3 : y.builderHash = x.builderHash) : FuseLe x y := by
  refine ⟨fun i => ?_, by rw [h2], fun h hh => by rw [h3]; exact hh⟩
  rw [h1, tget_tset]
  split
  · rename_i e; rw [e]; exact h
  · exact Nat.le_refl _

theorem FuseLe.trans {x y z : Sec} (h1 : FuseLe x y) (h2 : FuseLe y z) : FuseLe x z :=
  ⟨fun i => Nat.le_trans (h1.1 i) (h2.1 i), Nat.le_trans h1.2.1 h2.2.1, fun h hh => h2.2.2 h (h1.2.2 h hh)⟩

theorem next_keep {P : State → Prop} {s : State} (h : P s) : AllNext P (.next s) := by
  constructor; intro t ht; cases ht; exact h

theorem fault_keep {P : State → Prop} {f : Fault} : AllNext P (.fault f) := by
  constructor; intro t ht; cases ht

theorem ite_keep {α : Type} {Q : α → Prop} {c : Prop} [Decidable c] {a b : α} (ha : Q a) (hb : Q b) : Q (if c then a else b) := by
  split <;> assumption

theorem eq_keep {P : State → Prop} {α : Type} {p : State × α} {s : State} {x : α} (e : p = (s, x)) (h : P p.1) : P s := by
  subst e; exact h

theorem eq_keep2 {P : State → Prop} {α : Type} {p : α × State} {s : State} {x : α} (e : p = (x, s)) (h : P p.2) : P s := by
  subst e; exact h

theorem foldl_pair_keep {P : State → Prop} {α β : Type} {f : State × β → α → State × β} (l : List α) (hf : ∀ p a, P p.1 → P (f p a).1)
    (p : State × β) (h : P p.1) : P (l.foldl f p).1 := foldl_keep (fun p => P p.1) f hf l p h

theorem contains_mono {L M : List Part} (h : M.all L.contains = true) {p : Part} (hp : M.contains p = true) : L.contains p = true := by
  rw [List.all_eq_true] at h
  exact h p (by simpa using hp)

/-- What is kept with more parts touched is kept with fewer. -/
theorem Keeps.mono {L M : List Part} {P : State → Prop} (hP : Keeps L P) (h : M.all L.contains = true) : Keeps M P where
  setReg := fun hp => hP.setReg (contains_mono h hp)
  dropRegs := fun hp => hP.dropRegs (contains_mono h hp)
  setWide := fun hp => hP.setWide (contains_mono h hp)
  advGen := fun hp => hP.advGen (contains_mono h hp)
  setWs := fun hp => hP.setWs (contains_mono h hp)
  dropWs := fun hp => hP.dropWs (contains_mono h hp)
  setDram := fun hp => hP.setDram (contains_mono h hp)
  dropDram := fun hp => hP.dropDram (contains_mono h hp)
  setTerm := fun hp => hP.setTerm (contains_mono h hp)
  setSec := fun hp => hP.setSec (contains_mono h hp)
  power := fun hp => hP.power (fun p => contains_mono h (hp p))
  hiLatch := fun hp => hP.hiLatch (contains_mono h hp)
  dom := fun hp => hP.dom (contains_mono h hp)
  boot := fun hp => hP.boot (contains_mono h hp)
  amb := fun hp => hP.amb (contains_mono h hp)
  ports := fun hp => hP.ports (contains_mono h hp)
  outs := fun hp => hP.outs (contains_mono h hp)
  bell := fun hp => hP.bell (contains_mono h hp)
  chans := fun hp => hP.chans (contains_mono h hp)
  folds := fun hp => hP.folds (contains_mono h hp)
  binds := fun hp => hP.binds (contains_mono h hp)
  gates := fun hp => hP.gates (contains_mono h hp)
  timers := fun hp => hP.timers (contains_mono h hp)
  trips := fun hp => hP.trips (contains_mono h hp)
  motors := fun hp => hP.motors (contains_mono h hp)
  caps := fun hp => hP.caps (contains_mono h hp)
  injs := fun hp => hP.injs (contains_mono h hp)
  images := fun hp => hP.images (contains_mono h hp)
  health := fun hp => hP.health (contains_mono h hp)
  runs := fun hp => hP.runs (contains_mono h hp)
  mengs := fun hp => hP.mengs (contains_mono h hp)
  sense := fun hp => hP.sense (contains_mono h hp)
  fs := fun hp => hP.fs (contains_mono h hp)
  cores := fun hp => hP.cores (contains_mono h hp)
  bists := fun hp => hP.bists (contains_mono h hp)
  jtag := fun hp => hP.jtag (contains_mono h hp)
  diags := fun hp => hP.diags (contains_mono h hp)
  rings := fun hp => hP.rings (contains_mono h hp)
  svc := fun hp => hP.svc (contains_mono h hp)
  col := fun hp => hP.col (contains_mono h hp)
  tal := fun hp => hP.tal (contains_mono h hp)
  attest := fun hp => hP.attest (contains_mono h hp)
  host := fun hp => hP.host (contains_mono h hp)
  stn := fun hp => hP.stn (contains_mono h hp)
  nv := fun hp => hP.nv (contains_mono h hp)
  free := fun hp => hP.free (contains_mono h hp)

section
variable {P : State → Prop}

theorem setReg_keep (hP : Keeps [.regs] P) {s : State} (a : Nat) (v : W) (h : P s) : P (s.setReg a v) := hP.setReg rfl a v h
theorem clearRegs_keep (hP : Keeps [.regs] P) {s : State} (p : Nat → Bool) (h : P s) : P (s.clearRegs p) := hP.dropRegs rfl p h
theorem addWide_keep (hP : Keeps [.wide] P) {s : State} (a : Nat) (n : Int) (h : P s) : P (s.addWide a n) := hP.setWide rfl a _ h
theorem setWide_keep (hP : Keeps [.wide] P) {s : State} (a : Nat) (v : BitVec 48) (h : P s) : P (s.setWide a v) := hP.setWide rfl a v h
theorem advGen_keep (hP : Keeps [.gens] P) {s : State} (ty i : Nat) (h : P s) : P (s.advGen ty i) := hP.advGen rfl ty i h
theorem setDramByte_keep (hP : Keeps [.dram] P) {s : State} (a : Nat) (b : BitVec 8) (h : P s) : P (s.setDramByte a b) :=
  hP.setDram rfl a b h
theorem dropDram_keep (hP : Keeps [.dram] P) {s : State} (p : Nat → Bool) (h : P s) : P { s with dram := tdrop s.dram p } := hP.dropDram rfl p h
theorem setWsByte_keep (hP : Keeps [.ws] P) {s : State} (ch o : Nat) (b : BitVec 8) (h : P s) : P (s.setWsByte ch o b) :=
  hP.setWs rfl ch o b h
theorem zeroWs_keep (hP : Keeps [.ws] P) {s : State} (ch : Nat) (h : P s) : P (s.zeroWs ch) := hP.dropWs rfl _ h
theorem dropWs_keep (hP : Keeps [.ws] P) {s : State} (p : Nat → Bool) (h : P s) : P { s with ws := tdrop s.ws p } := hP.dropWs rfl p h
theorem setTerm_keep (hP : Keeps [.terms] P) {s : State} (i : Nat) (x : Term) (hx : LegLe (s.term i) x) (h : P s) : P (s.setTerm i x) :=
  hP.setTerm rfl i x hx h
theorem updTerm_keep (hP : Keeps [.terms] P) {s : State} (i : Nat) (f : Term → Term) (hf : ∀ x, LegLe x (f x)) (h : P s) :
    P (s.updTerm i f) := hP.setTerm rfl i _ (hf _) h
theorem updSec_keep (hP : Keeps [.sec] P) {s : State} (f : Sec → Sec) (hf : ∀ x, FuseLe x (f x)) (h : P s) : P (s.updSec f) :=
  hP.setSec rfl _ (hf _) h
theorem burn_keep (hP : Keeps [.sec] P) {s : State} (f : Sec → Sec) (hf : FuseLe s.sec (f s.sec)) (h : P s) : P (s.updSec f) :=
  hP.setSec rfl _ hf h

theorem putDram_keep (hP : Keeps [.dram] P) (l : List (BitVec 8)) : ∀ {s : State} (a : Nat), P s → P (s.putDram a l) := by
  induction l with
  | nil => intro s a h; exact h
  | cons b r ih => intro s a h; exact ih (a + 1) (hP.setDram rfl a b h)

theorem putWs_keep (hP : Keeps [.ws] P) (l : List (BitVec 8)) : ∀ {s : State} (ch o : Nat), P s → P (s.putWs ch o l) := by
  induction l with
  | nil => intro s ch o h; exact h
  | cons b r ih => intro s ch o h; exact ih ch (o + 1) (hP.setWs rfl ch o b h)

theorem draw_keep (hP : Keeps [.free] P) {s : State} (h : P s) : P s.draw.2 := hP.free rfl _ h

theorem each_keep (l : List Nat) (f : Nat → State → State) (hf : ∀ i s, P s → P (f i s)) {s : State} (h : P s) :
    P (each l f s) := foldl_keep P _ (fun _ _ hb => hf _ _ hb) _ _ h

theorem forL_keep {α : Type} (l : List α) (f : α → State → State) (hf : ∀ i s, P s → P (f i s)) {s : State} (h : P s) :
    P (forL l f s) := foldl_keep P _ (fun _ _ hb => hf _ _ hb) _ _ h

theorem updReg_keep (hP : Keeps [.regs] P) {s : State} (a : Nat) (f : W → W) (h : P s) : P (s.updReg a f) := hP.setReg rfl _ _ h
theorem setField_keep (hP : Keeps [.regs] P) {s : State} (a lo w v : Nat) (h : P s) : P (s.setField a lo w v) := hP.setReg rfl _ _ h
theorem setPort_keep (hP : Keeps [.ports] P) {s : State} (n : Nat) (p : Port) (h : P s) : P (s.setPort n p) := hP.ports rfl _ h
theorem updPort_keep (hP : Keeps [.ports] P) {s : State} (n : Nat) (f : Port → Port) (h : P s) : P (s.updPort n f) := hP.ports rfl _ h
theorem setOut_keep (hP : Keeps [.outs] P) {s : State} (n : Nat) (p : OutPort) (h : P s) : P (s.setOut n p) := hP.outs rfl _ h
theorem setChan_keep (hP : Keeps [.chans] P) {s : State} (i : Nat) (c : Chan) (h : P s) : P (s.setChan i c) := hP.chans rfl _ h
theorem updChan_keep (hP : Keeps [.chans] P) {s : State} (i : Nat) (f : Chan → Chan) (h : P s) : P (s.updChan i f) := hP.chans rfl _ h
theorem setFold_keep (hP : Keeps [.folds] P) {s : State} (k : Nat) (x : Fold) (h : P s) : P (s.setFold k x) := hP.folds rfl _ h
theorem updFold_keep (hP : Keeps [.folds] P) {s : State} (k : Nat) (f : Fold → Fold) (h : P s) : P (s.updFold k f) := hP.folds rfl _ h
theorem setBind_keep (hP : Keeps [.binds] P) {s : State} (i : Nat) (x : Binding) (h : P s) : P (s.setBind i x) := hP.binds rfl _ h
theorem setGate_keep (hP : Keeps [.gates] P) {s : State} (g : Nat) (x : Gate) (h : P s) : P (s.setGate g x) := hP.gates rfl _ h
theorem updGate_keep (hP : Keeps [.gates] P) {s : State} (g : Nat) (f : Gate → Gate) (h : P s) : P (s.updGate g f) := hP.gates rfl _ h
theorem setTimer_keep (hP : Keeps [.timers] P) {s : State} (i : Nat) (x : Timer) (h : P s) : P (s.setTimer i x) := hP.timers rfl _ h
theorem setTrip_keep (hP : Keeps [.trips] P) {s : State} (g : Nat) (x : Trip) (h : P s) : P (s.setTrip g x) := hP.trips rfl _ h
theorem setRing_keep (hP : Keeps [.rings] P) {s : State} (r : Nat) (x : Ring) (h : P s) : P (s.setRing r x) := hP.rings rfl _ h
theorem updRing_keep (hP : Keeps [.rings] P) {s : State} (r : Nat) (f : Ring → Ring) (h : P s) : P (s.updRing r f) := hP.rings rfl _ h
theorem setInj_keep (hP : Keeps [.injs] P) {s : State} (i : Nat) (x : Inj) (h : P s) : P (s.setInj i x) := hP.injs rfl _ h
theorem updInj_keep (hP : Keeps [.injs] P) {s : State} (i : Nat) (f : Inj → Inj) (h : P s) : P (s.updInj i f) := hP.injs rfl _ h
theorem setCap_keep (hP : Keeps [.caps] P) {s : State} (i : Nat) (x : Cap) (h : P s) : P (s.setCap i x) := hP.caps rfl _ h
theorem updCap_keep (hP : Keeps [.caps] P) {s : State} (i : Nat) (f : Cap → Cap) (h : P s) : P (s.updCap i f) := hP.caps rfl _ h
theorem setMotor_keep (hP : Keeps [.motors] P) {s : State} (i : Nat) (x : Motor) (h : P s) : P (s.setMotor i x) := hP.motors rfl _ h
theorem updMotor_keep (hP : Keeps [.motors] P) {s : State} (i : Nat) (f : Motor → Motor) (h : P s) : P (s.updMotor i f) := hP.motors rfl _ h
theorem updHlt_keep (hP : Keeps [.health] P) {s : State} (e : Nat) (f : Health → Health) (h : P s) : P (s.updHlt e f) := hP.health rfl _ h
theorem setRun_keep (hP : Keeps [.runs] P) {s : State} (e : Nat) (x : Run) (h : P s) : P (s.setRun e x) := hP.runs rfl _ h
theorem updMEng_keep (hP : Keeps [.mengs] P) {s : State} (f : Nat) (g : MEng → MEng) (h : P s) : P (s.updMEng f g) := hP.mengs rfl _ h
theorem updSns_keep (hP : Keeps [.sense] P) {s : State} (n : Nat) (g : Sense → Sense) (h : P s) : P (s.updSns n g) := hP.sense rfl _ h
theorem setFs_keep (hP : Keeps [.fs] P) {s : State} (k : Nat) (x : Pair) (h : P s) : P (s.setFs k x) := hP.fs rfl _ h
theorem setCore_keep (hP : Keeps [.cores] P) {s : State} (r : Nat) (x : Core) (h : P s) : P (s.setCore r x) := hP.cores rfl _ h
theorem setBist_keep (hP : Keeps [.bists] P) {s : State} (c : Nat) (x : Bist) (h : P s) : P (s.setBist c x) := hP.bists rfl _ h
theorem updCol_keep (hP : Keeps [.col] P) {s : State} (f : Col → Col) (h : P s) : P (s.updCol f) := hP.col rfl _ h
theorem updBell_keep (hP : Keeps [.bell] P) {s : State} (f : Bell → Bell) (h : P s) : P (s.updBell f) := hP.bell rfl _ h
theorem updSvc_keep (hP : Keeps [.svc] P) {s : State} (f : Svc → Svc) (h : P s) : P (s.updSvc f) := hP.svc rfl _ h
theorem setDom_keep (hP : Keeps [.dom] P) {s : State} (d : Nat) (on : Bool) (h : P s) : P (s.setDom d on) := hP.dom rfl _ h
theorem setDiag_keep (hP : Keeps [.diags] P) {s : State} (d : Nat) (x : Diag) (h : P s) : P (s.setDiag d x) := hP.diags rfl _ h
theorem updDiag_keep (hP : Keeps [.diags] P) {s : State} (d : Nat) (f : Diag → Diag) (h : P s) : P (s.updDiag d f) := hP.diags rfl _ h
theorem updBoot_keep (hP : Keeps [.boot] P) {s : State} (f : Boot → Boot) (h : P s) : P (s.updBoot f) := hP.boot rfl _ h
theorem updStn_keep (hP : Keeps [.stn] P) {s : State} (f : Stn → Stn) (h : P s) : P (s.updStn f) := hP.stn rfl _ h
theorem upd_binds (hP : Keeps [.binds] P) {s : State} {x : Tab Binding} (h : P s) : P { s with binds := x } := hP.binds rfl x h
theorem upd_caps (hP : Keeps [.caps] P) {s : State} {x : Tab Cap} (h : P s) : P { s with caps := x } := hP.caps rfl x h
theorem upd_injs (hP : Keeps [.injs] P) {s : State} {x : Tab Inj} (h : P s) : P { s with injs := x } := hP.injs rfl x h
theorem upd_motors (hP : Keeps [.motors] P) {s : State} {x : Tab Motor} (h : P s) : P { s with motors := x } := hP.motors rfl x h
theorem upd_host (hP : Keeps [.host] P) {s : State} {x : HostIf} (h : P s) : P { s with host := x } := hP.host rfl x h
theorem upd_stn (hP : Keeps [.stn] P) {s : State} {x : Stn} (h : P s) : P { s with stn := x } := hP.stn rfl x h
theorem upd_nv (hP : Keeps [.nv] P) {s : State} {x : Nv} (h : P s) : P { s with nv := x } := hP.nv rfl x h
theorem upd_jtag (hP : Keeps [.jtag] P) {s : State} {x : Jtag} (h : P s) : P { s with jtag := x } := hP.jtag rfl x h
theorem upd_images (hP : Keeps [.images] P) {s : State} {x : Tab Image} (h : P s) : P { s with images := x } := hP.images rfl x h
theorem upd_boot (hP : Keeps [.boot] P) {s : State} {x : Boot} (h : P s) : P { s with boot := x } := hP.boot rfl x h
theorem upd_amb (hP : Keeps [.amb] P) {s : State} {x : Amb} (h : P s) : P { s with amb := x } := hP.amb rfl x h
theorem upd_tal (hP : Keeps [.tal] P) {s : State} {x : Tal} (h : P s) : P { s with tal := x } := hP.tal rfl x h
theorem upd_dom (hP : Keeps [.dom] P) {s : State} {x : BitVec 48} (h : P s) : P { s with dom := x } := hP.dom rfl x h
theorem upd_free (hP : Keeps [.free] P) {s : State} {x : Nat} (h : P s) : P { s with free := x } := hP.free rfl x h
theorem upd_hiLatch (hP : Keeps [.hiLatch] P) {s : State} {x : Tab W} (h : P s) : P { s with hiLatch := x } := hP.hiLatch rfl x h
theorem upd_chans (hP : Keeps [.chans] P) {s : State} {x : Tab Chan} (h : P s) : P { s with chans := x } := hP.chans rfl x h
theorem upd_attest (hP : Keeps [.attest] P) {s : State} {x : List Attest} (h : P s) : P { s with attest := x } := hP.attest rfl x h

/-- Every part. -/
abbrev allParts : List Part :=
  [.regs, .wide, .hiLatch, .gens, .ws, .dram, .dom, .boot, .amb, .ports, .outs, .bell, .chans, .terms, .folds, .binds, .gates,
  .timers, .trips, .motors, .caps, .injs, .images, .health, .runs, .mengs, .sense, .fs, .cores, .bists, .jtag, .diags, .rings,
  .svc, .col, .tal, .sec, .attest, .host, .stn, .nv, .free]

theorem powerUp_keep (hP : Keeps allParts P) {s : State} (head : Bool) (h : P s) : P (powerUp head s) := hP.power (fun p => by cases p <;> rfl) head h

end

end Sys2Proof.Machine
end

