-- ==== Sys2Proof/Laws/KeepPorts.lean ====
section
/-! SUPPORT. Every operation and meaning of the input ports, the Bellwether, the gates, the stops, the collector, the modulator and the power stages keeps what the primitives on the parts it touches keep. -/

set_option linter.all false

namespace Sys2Proof.Machine

open Sys2Proof

-- Ops

theorem bump_keep {P : State → Prop} (hP : Keeps [.regs] P) (s : State) (a : Nat) (hst : P s) :
    P (State.bump s a) := by
  unfold State.bump
  repeat' first
    | with_reducible assumption
    | with_reducible apply updReg_keep (hP.mono (by decide))

theorem addReg_keep {P : State → Prop} (hP : Keeps [.regs] P) (s : State) (a : Nat) (n : Nat) (hst : P s) :
    P (State.addReg s a n) := by
  unfold State.addReg
  repeat' first
    | with_reducible assumption
    | with_reducible apply updReg_keep (hP.mono (by decide))

theorem sendMsg_keep {P : State → Prop} (hP : Keeps [.host] P) (v : Nat) (s : State) (hst : P s) :
    P (sendMsg v s) := by
  unfold sendMsg
  repeat' first
    | with_reducible assumption
    | with_reducible apply ite_keep
    | split
    | with_reducible apply upd_host (hP.mono (by decide))

theorem signalVec_keep {P : State → Prop} (hP : Keeps [.host] P) (v : Nat) (s : State) (hst : P s) :
    P (signalVec v s) := by
  unfold signalVec
  repeat' first
    | with_reducible assumption
    | (first | intro x | (lift_lets -underBinder; intro x)
       first
       | (with_reducible refine (fun hx => ?_) (?_ : P x)
          on_goal 1 => clear_value x
          on_goal 2 => (unfold x; clear x))
       | clear_value x
       | skip)
    | with_reducible apply ite_keep
    | split
    | with_reducible apply sendMsg_keep (hP.mono (by decide))
    | with_reducible apply upd_host (hP.mono (by decide))

theorem signal_keep {P : State → Prop} (hP : Keeps [.host] P) (a : Nat) (s : State) (hst : P s) :
    P (signal a s) := by
  unfold signal
  repeat' first
    | with_reducible assumption
    | with_reducible apply ite_keep
    | split
    | with_reducible apply signalVec_keep (hP.mono (by decide))
    | with_reducible refine eq_keep (by assumption) ?_

theorem setEvt_keep {P : State → Prop} (hP : Keeps [.regs, .host] P) (a : Nat) (bit : Nat) (s : State) (hst : P s) :
    P (setEvt a bit s) := by
  unfold setEvt
  repeat' first
    | with_reducible assumption
    | intro x
    | with_reducible apply updReg_keep (hP.mono (by decide))
    | with_reducible apply signal_keep (hP.mono (by decide))

theorem queueRep_keep {P : State → Prop} (hP : Keeps [.col] P) (r : Report) (s : State) (hst : P s) :
    P (queueRep r s) := by
  unfold queueRep
  repeat' first
    | with_reducible assumption
    | intro x
    | with_reducible apply ite_keep
    | split
    | with_reducible apply updCol_keep (hP.mono (by decide))

theorem raise_keep {P : State → Prop} (hP : Keeps [.regs, .col, .host] P) (a : Nat) (r : Report) (s : State) (hst : P s) :
    P (raise a r s) := by
  unfold raise
  repeat' first
    | with_reducible assumption
    | with_reducible apply queueRep_keep (hP.mono (by decide))
    | with_reducible apply setEvt_keep (hP.mono (by decide))

theorem raiseOnce_keep {P : State → Prop} (hP : Keeps [.regs, .col, .host] P) (a : Nat) (r : Report) (s : State) (hst : P s) :
    P (raiseOnce a r s) := by
  unfold raiseOnce
  repeat' first
    | with_reducible assumption
    | with_reducible apply ite_keep
    | split
    | with_reducible apply raise_keep (hP.mono (by decide))

theorem secEvent_keep {P : State → Prop} (hP : Keeps [.regs, .col, .host] P) (bit : Nat) (s : State) (hst : P s) :
    P (secEvent bit s) := by
  unfold secEvent
  repeat' first
    | with_reducible assumption
    | (first | intro x | (lift_lets -underBinder; intro x)
       first
       | (with_reducible refine (fun hx => ?_) (?_ : P x)
          on_goal 1 => clear_value x
          on_goal 2 => (unfold x; clear x))
       | clear_value x
       | skip)
    | with_reducible apply ite_keep
    | split
    | with_reducible apply raise_keep (hP.mono (by decide))

theorem raiseOwn_keep {P : State → Prop} (hP : Keeps [.col] P) (source : Nat) (bit : Nat) (cls : Nat) (okind : Nat) (object : Nat) (s : State) (hst : P s) :
    P (raiseOwn source bit cls okind object s) := by
  unfold raiseOwn
  repeat' first
    | with_reducible assumption
    | intro x
    | with_reducible apply updCol_keep (hP.mono (by decide))
    | with_reducible apply queueRep_keep (hP.mono (by decide))

theorem holdLive_keep {P : State → Prop} (hP : Keeps [.col] P) (r : Report) (s : State) (hst : P s) :
    P (holdLive r s) := by
  unfold holdLive
  repeat' first
    | with_reducible assumption
    | intro x
    | with_reducible apply ite_keep
    | split
    | with_reducible apply updCol_keep (hP.mono (by decide))

theorem dropLive_keep {P : State → Prop} (hP : Keeps [.col] P) (p : Report → Bool) (s : State) (hst : P s) :
    P (dropLive p s) := by
  unfold dropLive
  repeat' first
    | with_reducible assumption
    | intro x
    | with_reducible apply updCol_keep (hP.mono (by decide))

theorem complete_keep {P : State → Prop} (hP : Keeps [.rings] P) (e : CmdEntry) (status : Nat) (result : W) (check : Nat) (rule : Nat) (index : Nat) (s : State) (hst : P s) :
    P (complete e status result check rule index s) := by
  unfold complete
  repeat' first
    | with_reducible assumption
    | intro x
    | with_reducible apply updRing_keep (hP.mono (by decide))

theorem finishWhere_keep {P : State → Prop} (hP : Keeps [.rings, .svc] P) (p : Prog → Bool) (status : Nat) (result : Prog → W) (s : State) (hst : P s) :
    P (finishWhere p status result s) := by
  unfold finishWhere
  repeat' first
    | with_reducible assumption
    | (first | intro x | (lift_lets -underBinder; intro x)
       first
       | (with_reducible refine (fun hx => ?_) (?_ : P x)
          on_goal 1 => clear_value x
          on_goal 2 => (unfold x; clear x))
       | clear_value x
       | skip)
    | with_reducible apply ite_keep
    | split
    | with_reducible apply updSvc_keep (hP.mono (by decide))
    | with_reducible apply complete_keep (hP.mono (by decide))
    | with_reducible refine foldl_keep P _ ?_ _ _ ?_
    | with_reducible refine eq_keep (by assumption) ?_
    | with_reducible refine foldl_pair_keep _ ?_ _ ?_
    | dsimp only

theorem finishObj_keep {P : State → Prop} (hP : Keeps [.rings, .svc] P) (op : Nat) (obj : Nat × Nat) (status : Nat) (s : State) (hst : P s) :
    P (finishObj op obj status s) := by
  unfold finishObj
  repeat' first
    | with_reducible assumption
    | intro x
    | with_reducible apply finishWhere_keep (hP.mono (by decide))

theorem talCheck_keep {P : State → Prop} (hP : Keeps [.regs, .tal, .host] P) (bit : Nat) (ok : Bool) (s : State) (hst : P s) :
    P (talCheck bit ok s) := by
  unfold talCheck
  repeat' first
    | with_reducible assumption
    | (first | intro x | (lift_lets -underBinder; intro x)
       first
       | (with_reducible refine (fun hx => ?_) (?_ : P x)
          on_goal 1 => clear_value x
          on_goal 2 => (unfold x; clear x))
       | clear_value x
       | skip)
    | with_reducible apply ite_keep
    | split
    | with_reducible apply setEvt_keep (hP.mono (by decide))
    | with_reducible apply upd_tal (hP.mono (by decide))

theorem setRec_keep {P : State → Prop} (hP : Keeps [.col] P) (s : State) (n : Nat) (x : Rec) (hst : P s) :
    P (State.setRec s n x) := by
  unfold State.setRec
  repeat' first
    | with_reducible assumption
    | intro x
    | with_reducible apply updCol_keep (hP.mono (by decide))

theorem condEnd_keep {P : State → Prop} (hP : Keeps [.col] P) (p : Report → Bool) (s : State) (hst : P s) :
    P (condEnd p s) := by
  unfold condEnd
  repeat' first
    | with_reducible assumption
    | (first | intro x | (lift_lets -underBinder; intro x)
       first
       | (with_reducible refine (fun hx => ?_) (?_ : P x)
          on_goal 1 => clear_value x
          on_goal 2 => (unfold x; clear x))
       | clear_value x
       | skip)
    | with_reducible apply ite_keep
    | split
    | with_reducible apply updCol_keep (hP.mono (by decide))
    | with_reducible apply setRec_keep (hP.mono (by decide))
    | with_reducible apply dropLive_keep (hP.mono (by decide))
    | with_reducible apply each_keep

theorem liveEnd_keep {P : State → Prop} (hP : Keeps [.col] P) (p : Report → Bool) (s : State) (hst : P s) :
    P (liveEnd p s) := by
  unfold liveEnd
  repeat' first
    | with_reducible assumption
    | with_reducible apply ite_keep
    | split
    | with_reducible apply condEnd_keep (hP.mono (by decide))

-- Sources

theorem bellEvt_keep {P : State → Prop} (hP : Keeps [.regs, .col, .host] P) (bit : Nat) (s : State) (hst : P s) :
    P (bellEvt bit s) := by
  unfold bellEvt
  repeat' first
    | with_reducible assumption
    | with_reducible apply ite_keep
    | split
    | with_reducible apply raise_keep (hP.mono (by decide))

theorem bellIgnored_keep {P : State → Prop} (hP : Keeps [.regs, .col, .host] P) (s : State) (hst : P s) :
    P (bellIgnored s) := by
  unfold bellIgnored
  repeat' first
    | with_reducible assumption
    | with_reducible apply bellEvt_keep (hP.mono (by decide))

theorem leaveSource_keep {P : State → Prop} (hP : Keeps [.bell] P) (s : State) (hst : P s) :
    P (leaveSource s) := by
  unfold leaveSource
  repeat' first
    | with_reducible assumption
    | intro x
    | with_reducible apply ite_keep
    | split
    | with_reducible apply updBell_keep (hP.mono (by decide))

theorem sourceLost_keep {P : State → Prop} (hP : Keeps [.regs, .bell, .col, .host] P) (s : State) (hst : P s) :
    P (sourceLost s) := by
  unfold sourceLost
  repeat' first
    | with_reducible assumption
    | (first | intro x | (lift_lets -underBinder; intro x)
       first
       | (with_reducible refine (fun hx => ?_) (?_ : P x)
          on_goal 1 => clear_value x
          on_goal 2 => (unfold x; clear x))
       | clear_value x
       | skip)
    | with_reducible apply ite_keep
    | split
    | with_reducible apply updBell_keep (hP.mono (by decide))
    | with_reducible apply leaveSource_keep (hP.mono (by decide))
    | with_reducible apply bellEvt_keep (hP.mono (by decide))

theorem portLeft_keep {P : State → Prop} (hP : Keeps [.regs, .bell, .col, .host] P) (n : Nat) (s : State) (hst : P s) :
    P (portLeft n s) := by
  unfold portLeft
  repeat' first
    | with_reducible assumption
    | with_reducible apply ite_keep
    | split
    | with_reducible apply sourceLost_keep (hP.mono (by decide))

theorem linkCheck_keep {P : State → Prop} (hP : Keeps [.regs, .bell, .col, .host] P) (s : State) (hst : P s) :
    P (linkCheck s) := by
  unfold linkCheck
  repeat' first
    | with_reducible assumption
    | with_reducible apply ite_keep
    | split
    | with_reducible apply sourceLost_keep (hP.mono (by decide))

theorem setPend_keep {P : State → Prop} (hP : Keeps [.bell] P) (a : Nat) (v : W) (s : State) (hst : P s) :
    P (setPend a v s) := by
  unfold setPend
  repeat' first
    | with_reducible assumption
    | intro x
    | with_reducible apply updBell_keep (hP.mono (by decide))

-- Ports

theorem portEvt_keep {P : State → Prop} (hP : Keeps [.regs, .col, .host] P) (n : Nat) (bit : Nat) (obj : Nat) (s : State) (hst : P s) :
    P (portEvt n bit obj s) := by
  unfold portEvt
  repeat' first
    | with_reducible assumption
    | with_reducible apply raise_keep (hP.mono (by decide))

theorem portEvtBound_keep {P : State → Prop} (hP : Keeps [.regs, .col, .host] P) (n : Nat) (bit : Nat) (s : State) (hst : P s) :
    P (portEvtBound n bit s) := by
  unfold portEvtBound
  repeat' first
    | with_reducible assumption
    | with_reducible apply ite_keep
    | split
    | with_reducible apply raise_keep (hP.mono (by decide))

theorem slotEvt_keep {P : State → Prop} (hP : Keeps [.regs, .col, .host] P) (n : Nat) (bit : Nat) (sl : Nat) (chans : List Nat) (s : State) (hst : P s) :
    P (slotEvt n bit sl chans s) := by
  unfold slotEvt
  repeat' first
    | with_reducible assumption
    | intro x
    | with_reducible apply ite_keep
    | split
    | with_reducible apply portEvt_keep (hP.mono (by decide))
    | with_reducible apply raise_keep (hP.mono (by decide))
    | with_reducible apply each_keep
    | with_reducible refine eq_keep (by assumption) ?_

theorem portIgnored_keep {P : State → Prop} (hP : Keeps [.regs, .col, .host] P) (n : Nat) (s : State) (hst : P s) :
    P (portIgnored n s) := by
  unfold portIgnored
  repeat' first
    | with_reducible assumption
    | with_reducible apply raise_keep (hP.mono (by decide))

theorem recount_keep {P : State → Prop} (hP : Keeps [.ports, .col] P) (n : Nat) (s : State) (hst : P s) :
    P (recount n s) := by
  unfold recount
  repeat' first
    | with_reducible assumption
    | (first | intro x | (lift_lets -underBinder; intro x)
       first
       | (with_reducible refine (fun hx => ?_) (?_ : P x)
          on_goal 1 => clear_value x
          on_goal 2 => (unfold x; clear x))
       | clear_value x
       | skip)
    | with_reducible apply ite_keep
    | split
    | with_reducible apply updPort_keep (hP.mono (by decide))
    | with_reducible apply liveEnd_keep (hP.mono (by decide))
    | with_reducible apply forL_keep

theorem dropSealBuf_keep {P : State → Prop} (hP : Keeps [.regs, .ports] P) (n : Nat) (s : State) (hst : P s) :
    P (dropSealBuf n s) := by
  unfold dropSealBuf
  repeat' first
    | with_reducible assumption
    | (first | intro x | (lift_lets -underBinder; intro x)
       first
       | (with_reducible refine (fun hx => ?_) (?_ : P x)
          on_goal 1 => clear_value x
          on_goal 2 => (unfold x; clear x))
       | clear_value x
       | skip)
    | with_reducible apply updPort_keep (hP.mono (by decide))
    | with_reducible apply addReg_keep (hP.mono (by decide))

theorem toAcquire_keep {P : State → Prop} (hP : Keeps [.ports] P) (n : Nat) (s : State) (hst : P s) :
    P (toAcquire n s) := by
  unfold toAcquire
  repeat' first
    | with_reducible assumption
    | intro x
    | with_reducible apply updPort_keep (hP.mono (by decide))

theorem loseLock_keep {P : State → Prop} (hP : Keeps [.regs, .ports, .bell, .col, .host] P) (n : Nat) (s : State) (hst : P s) :
    P (loseLock n s) := by
  unfold loseLock
  repeat' first
    | with_reducible assumption
    | with_reducible apply ite_keep
    | split
    | with_reducible apply portEvtBound_keep (hP.mono (by decide))
    | with_reducible apply dropSealBuf_keep (hP.mono (by decide))
    | with_reducible apply bump_keep (hP.mono (by decide))
    | with_reducible apply toAcquire_keep (hP.mono (by decide))
    | with_reducible apply portLeft_keep (hP.mono (by decide))
    | with_reducible refine eq_keep (by assumption) ?_

theorem portOff_keep {P : State → Prop} (hP : Keeps [.regs, .ports, .bell, .col, .host] P) (n : Nat) (s : State) (hst : P s) :
    P (portOff n s) := by
  unfold portOff
  repeat' first
    | with_reducible assumption
    | (first | intro x | (lift_lets -underBinder; intro x)
       first
       | (with_reducible refine (fun hx => ?_) (?_ : P x)
          on_goal 1 => clear_value x
          on_goal 2 => (unfold x; clear x))
       | clear_value x
       | skip)
    | with_reducible apply updPort_keep (hP.mono (by decide))
    | with_reducible apply dropSealBuf_keep (hP.mono (by decide))
    | with_reducible apply toAcquire_keep (hP.mono (by decide))
    | with_reducible apply loseLock_keep (hP.mono (by decide))

theorem lineGone_keep {P : State → Prop} (hP : Keeps [.regs, .ports, .bell, .col, .host] P) (n : Nat) (s : State) (hst : P s) :
    P (lineGone n s) := by
  unfold lineGone
  repeat' first
    | with_reducible assumption
    | (first | intro x | (lift_lets -underBinder; intro x)
       first
       | (with_reducible refine (fun hx => ?_) (?_ : P x)
          on_goal 1 => clear_value x
          on_goal 2 => (unfold x; clear x))
       | clear_value x
       | skip)
    | with_reducible apply ite_keep
    | split
    | with_reducible apply updPort_keep (hP.mono (by decide))
    | with_reducible apply toAcquire_keep (hP.mono (by decide))
    | with_reducible apply loseLock_keep (hP.mono (by decide))
    | with_reducible refine eq_keep (by assumption) ?_

theorem enqueue_keep {P : State → Prop} (hP : Keeps [.regs, .wide, .ports, .col, .host] P) (n : Nat) (q : QFrame) (s : State) (hst : P s) :
    P (enqueue n q s) := by
  unfold enqueue
  repeat' first
    | with_reducible assumption
    | (first | intro x | (lift_lets -underBinder; intro x)
       first
       | (with_reducible refine (fun hx => ?_) (?_ : P x)
          on_goal 1 => clear_value x
          on_goal 2 => (unfold x; clear x))
       | clear_value x
       | skip)
    | with_reducible apply ite_keep
    | split
    | with_reducible apply addWide_keep (hP.mono (by decide))
    | with_reducible apply updPort_keep (hP.mono (by decide))
    | with_reducible apply bump_keep (hP.mono (by decide))
    | with_reducible apply raise_keep (hP.mono (by decide))
    | with_reducible refine eq_keep (by assumption) ?_

theorem subFate_keep {P : State → Prop} (hP : Keeps [.regs, .col, .host] P) (n sl : Nat) (f : Subframe) (a : State × List QSample) (hst : P a.1) :
    P (subFate n sl f a).1 := by
  unfold subFate
  repeat' first
    | with_reducible assumption
    | (first | intro x | (lift_lets -underBinder; intro x)
       first
       | (with_reducible refine (fun hx => ?_) (?_ : P x)
          on_goal 1 => clear_value x
          on_goal 2 => (unfold x; clear x))
       | clear_value x)
    | split
    | with_reducible apply ite_keep
    | with_reducible apply portEvt_keep (hP.mono (by decide))
    | with_reducible apply bump_keep (hP.mono (by decide))

theorem frameFate_keep {P : State → Prop} (hP : Keeps [.regs, .wide, .ports, .col, .host] P) (n : Nat) (phase : Nat) (f : RxFrame) (s : State) (hst : P s) :
    P (frameFate n phase f s) := by
  unfold frameFate
  repeat' first
    | with_reducible assumption
    | (first | intro x | (lift_lets -underBinder; intro x)
       first
       | (with_reducible refine (fun hx => ?_) (?_ : P x)
          on_goal 1 => clear_value x
          on_goal 2 => (unfold x; clear x))
       | clear_value x
       | skip)
    | with_reducible apply ite_keep
    | split
    | with_reducible apply bump_keep (hP.mono (by decide))
    | with_reducible apply enqueue_keep (hP.mono (by decide))
    | with_reducible apply subFate_keep (hP.mono (by decide))
    | with_reducible refine foldl_keep P _ ?_ _ _ ?_
    | with_reducible refine eq_keep (by assumption) ?_
    | with_reducible refine foldl_pair_keep _ ?_ _ ?_
    | dsimp only

theorem acceptFrame_keep {P : State → Prop} (hP : Keeps [.regs, .wide, .ports, .col, .host] P) (n : Nat) (i : Nat) (phase : Nat) (f : RxFrame) (s : State) (hst : P s) :
    P (acceptFrame n i phase f s) := by
  unfold acceptFrame
  repeat' first
    | with_reducible assumption
    | (first | intro x | (lift_lets -underBinder; intro x)
       first
       | (with_reducible refine (fun hx => ?_) (?_ : P x)
          on_goal 1 => clear_value x
          on_goal 2 => (unfold x; clear x))
       | clear_value x
       | skip)
    | with_reducible apply ite_keep
    | split
    | with_reducible apply updPort_keep (hP.mono (by decide))
    | with_reducible apply bump_keep (hP.mono (by decide))
    | with_reducible apply frameFate_keep (hP.mono (by decide))
    | with_reducible refine eq_keep (by assumption) ?_

theorem unitsCheck_keep {P : State → Prop} (hP : Keeps [.regs, .chans, .col, .host] P) (i : Nat) (cs : BitVec 192) (s : State) (hst : P s) :
    P (unitsCheck i cs s) := by
  unfold unitsCheck
  repeat' first
    | with_reducible assumption
    | (first | intro x | (lift_lets -underBinder; intro x)
       first
       | (with_reducible refine (fun hx => ?_) (?_ : P x)
          on_goal 1 => clear_value x
          on_goal 2 => (unfold x; clear x))
       | clear_value x
       | skip)
    | with_reducible apply ite_keep
    | split
    | with_reducible apply updChan_keep (hP.mono (by decide))
    | with_reducible apply setEvt_keep (hP.mono (by decide))
    | with_reducible apply raise_keep (hP.mono (by decide))

theorem slotBlockEnd_keep {P : State → Prop} (hP : Keeps [.regs, .ports, .chans, .col, .host] P) (n : Nat) (sl : Nat) (s : State) (hst : P s) :
    P (slotBlockEnd n sl s) := by
  unfold slotBlockEnd
  repeat' first
    | with_reducible assumption
    | (first | intro x | (lift_lets -underBinder; intro x)
       first
       | (with_reducible refine (fun hx => ?_) (?_ : P x)
          on_goal 1 => clear_value x
          on_goal 2 => (unfold x; clear x))
       | clear_value x
       | skip)
    | with_reducible apply ite_keep
    | split
    | with_reducible apply updPort_keep (hP.mono (by decide))
    | with_reducible apply bump_keep (hP.mono (by decide))
    | with_reducible apply unitsCheck_keep (hP.mono (by decide))
    | with_reducible apply portEvt_keep (hP.mono (by decide))
    | with_reducible apply slotEvt_keep (hP.mono (by decide))
    | with_reducible apply each_keep

theorem seqErr_keep {P : State → Prop} (hP : Keeps [.regs, .col, .host] P) (n : Nat) (s : State) (hst : P s) :
    P (seqErr n s) := by
  unfold seqErr
  repeat' first
    | with_reducible assumption
    | with_reducible apply bump_keep (hP.mono (by decide))
    | with_reducible apply portEvt_keep (hP.mono (by decide))

theorem seqCheck_keep {P : State → Prop} (hP : Keeps [.regs, .ports, .col, .host] P) (n : Nat) (cs : BitVec 192) (s : State) (hst : P s) :
    P (seqCheck n cs s) := by
  unfold seqCheck
  repeat' first
    | with_reducible assumption
    | intro x
    | with_reducible apply ite_keep
    | split
    | with_reducible apply updPort_keep (hP.mono (by decide))
    | with_reducible apply seqErr_keep (hP.mono (by decide))
    | with_reducible refine eq_keep (by assumption) ?_

theorem blockEnd_keep {P : State → Prop} (hP : Keeps [.regs, .ports, .chans, .col, .host] P) (n : Nat) (locked : Bool) (s : State) (hst : P s) :
    P (blockEnd n locked s) := by
  unfold blockEnd
  repeat' first
    | with_reducible assumption
    | (first | intro x | (lift_lets -underBinder; intro x)
       first
       | (with_reducible refine (fun hx => ?_) (?_ : P x)
          on_goal 1 => clear_value x
          on_goal 2 => (unfold x; clear x))
       | clear_value x
       | skip)
    | with_reducible apply ite_keep
    | split
    | with_reducible apply updPort_keep (hP.mono (by decide))
    | with_reducible apply setReg_keep (hP.mono (by decide))
    | with_reducible apply slotBlockEnd_keep (hP.mono (by decide))
    | with_reducible apply bump_keep (hP.mono (by decide))
    | with_reducible apply seqCheck_keep (hP.mono (by decide))
    | with_reducible apply each_keep

theorem holdRate_keep {P : State → Prop} (hP : Keeps [.regs, .ports, .col, .host] P) (n : Nat) (s : State) (hst : P s) :
    P (holdRate n s) := by
  unfold holdRate
  repeat' first
    | with_reducible assumption
    | intro x
    | with_reducible apply updPort_keep (hP.mono (by decide))
    | with_reducible apply portEvtBound_keep (hP.mono (by decide))

theorem enterLock_keep {P : State → Prop} (hP : Keeps [.regs, .ports, .col, .host] P) (n : Nat) (s : State) (hst : P s) :
    P (enterLock n s) := by
  unfold enterLock
  repeat' first
    | with_reducible assumption
    | (first | intro x | (lift_lets -underBinder; intro x)
       first
       | (with_reducible refine (fun hx => ?_) (?_ : P x)
          on_goal 1 => clear_value x
          on_goal 2 => (unfold x; clear x))
       | clear_value x
       | skip)
    | with_reducible apply ite_keep
    | split
    | with_reducible apply updPort_keep (hP.mono (by decide))
    | with_reducible apply holdRate_keep (hP.mono (by decide))

theorem framingErr_keep {P : State → Prop} (hP : Keeps [.regs, .col, .host] P) (n : Nat) (counts : Bool) (s : State) (hst : P s) :
    P (framingErr n counts s) := by
  unfold framingErr
  repeat' first
    | with_reducible assumption
    | with_reducible apply ite_keep
    | split
    | with_reducible apply bump_keep (hP.mono (by decide))
    | with_reducible apply portEvt_keep (hP.mono (by decide))

theorem trackedFrame_keep {P : State → Prop} (hP : Keeps [.regs, .wide, .ports, .bell, .chans, .col, .host] P) (n : Nat) (f : LineFrame) (s : State) (hst : P s) :
    P (trackedFrame n f s) := by
  unfold trackedFrame
  repeat' first
    | with_reducible assumption
    | (first | intro x | (lift_lets -underBinder; intro x)
       first
       | (with_reducible refine (fun hx => ?_) (?_ : P x)
          on_goal 1 => clear_value x
          on_goal 2 => (unfold x; clear x))
       | clear_value x
       | skip)
    | with_reducible apply ite_keep
    | split
    | with_reducible apply updPort_keep (hP.mono (by decide))
    | with_reducible apply dropSealBuf_keep (hP.mono (by decide))
    | with_reducible apply acceptFrame_keep (hP.mono (by decide))
    | with_reducible apply framingErr_keep (hP.mono (by decide))
    | with_reducible apply portLeft_keep (hP.mono (by decide))
    | with_reducible apply loseLock_keep (hP.mono (by decide))
    | with_reducible apply blockEnd_keep (hP.mono (by decide))
    | with_reducible apply holdRate_keep (hP.mono (by decide))

theorem applySeal_keep {P : State → Prop} (hP : Keeps [.regs, .ports] P) (n : Nat) (s : State) (hst : P s) :
    P (applySeal n s) := by
  unfold applySeal
  repeat' first
    | with_reducible assumption
    | (first | intro x | (lift_lets -underBinder; intro x)
       first
       | (with_reducible refine (fun hx => ?_) (?_ : P x)
          on_goal 1 => clear_value x
          on_goal 2 => (unfold x; clear x))
       | clear_value x
       | skip)
    | with_reducible apply ite_keep
    | split
    | with_reducible apply setField_keep (hP.mono (by decide))
    | with_reducible apply updPort_keep (hP.mono (by decide))
    | with_reducible apply dropSealBuf_keep (hP.mono (by decide))
    | with_reducible refine eq_keep (by assumption) ?_

theorem streamFrame_keep {P : State → Prop} (hP : Keeps [.regs, .wide, .ports, .bell, .chans, .col, .host] P) (n : Nat) (f : LineFrame) (s : State) (hst : P s) :
    P (streamFrame n f s) := by
  unfold streamFrame
  repeat' first
    | with_reducible assumption
    | (first | intro x | (lift_lets -underBinder; intro x)
       first
       | (with_reducible refine (fun hx => ?_) (?_ : P x)
          on_goal 1 => clear_value x
          on_goal 2 => (unfold x; clear x))
       | clear_value x
       | skip)
    | with_reducible apply ite_keep
    | split
    | with_reducible apply updPort_keep (hP.mono (by decide))
    | with_reducible apply trackedFrame_keep (hP.mono (by decide))
    | with_reducible apply framingErr_keep (hP.mono (by decide))
    | with_reducible apply toAcquire_keep (hP.mono (by decide))
    | with_reducible apply enterLock_keep (hP.mono (by decide))
    | with_reducible apply applySeal_keep (hP.mono (by decide))
    | with_reducible apply blockEnd_keep (hP.mono (by decide))
    | with_reducible refine eq_keep (by assumption) ?_

theorem execStreamFrame_keep {P : State → Prop} (hP : Keeps [.regs, .wide, .ports, .bell, .chans, .col, .host] P) (n : Fin 16) (f : LineFrame) (s : State) (hst : P s) :
    AllNext P (execStreamFrame n f s) := by
  unfold execStreamFrame
  repeat' first
    | with_reducible assumption
    | with_reducible apply next_keep
    | with_reducible apply streamFrame_keep (hP.mono (by decide))

theorem execPortStayTimeout_keep {P : State → Prop} (hP : Keeps [.ports] P) (n : Fin 16) (s : State) (hst : P s) :
    AllNext P (execPortStayTimeout n s) := by
  unfold execPortStayTimeout
  repeat' first
    | with_reducible assumption
    | with_reducible apply ite_keep
    | split
    | with_reducible apply next_keep
    | with_reducible apply toAcquire_keep (hP.mono (by decide))
    | with_reducible refine eq_keep (by assumption) ?_

theorem execLineSignalPresent_keep {P : State → Prop} (hP : Keeps [.ports] P) (n : Fin 16) (s : State) (hst : P s) :
    AllNext P (execLineSignalPresent n s) := by
  unfold execLineSignalPresent
  repeat' first
    | with_reducible assumption
    | intro x
    | with_reducible apply ite_keep
    | split
    | with_reducible apply next_keep
    | with_reducible apply updPort_keep (hP.mono (by decide))

theorem execLineOutOfRange_keep {P : State → Prop} (hP : Keeps [.regs, .ports, .bell, .col, .host] P) (n : Fin 16) (s : State) (hst : P s) :
    AllNext P (execLineOutOfRange n s) := by
  unfold execLineOutOfRange
  repeat' first
    | with_reducible assumption
    | with_reducible apply next_keep
    | with_reducible apply lineGone_keep (hP.mono (by decide))

theorem execSclkLost_keep {P : State → Prop} (hP : Keeps [.regs, .ports, .bell, .col, .host] P) (n : Fin 16) (s : State) (hst : P s) :
    AllNext P (execSclkLost n s) := by
  unfold execSclkLost
  repeat' first
    | with_reducible assumption
    | with_reducible apply next_keep
    | with_reducible apply lineGone_keep (hP.mono (by decide))

theorem execRunLimit_keep {P : State → Prop} (hP : Keeps [.regs, .ports, .col, .host] P) (n : Fin 16) (sl : Fin 32) (s : State) (hst : P s) :
    AllNext P (execRunLimit n sl s) := by
  unfold execRunLimit
  repeat' first
    | with_reducible assumption
    | (first | intro x | (lift_lets -underBinder; intro x)
       first
       | (with_reducible refine (fun hx => ?_) (?_ : P x)
          on_goal 1 => clear_value x
          on_goal 2 => (unfold x; clear x))
       | clear_value x
       | skip)
    | with_reducible apply ite_keep
    | split
    | with_reducible apply next_keep
    | with_reducible apply updPort_keep (hP.mono (by decide))
    | with_reducible apply holdLive_keep (hP.mono (by decide))
    | with_reducible apply slotEvt_keep (hP.mono (by decide))
    | with_reducible apply forL_keep

theorem execSpCtrlWrite_keep {P : State → Prop} (hP : Keeps [.regs, .ports, .bell, .col, .host] P) (n : Fin 16) (v : W) (s : State) (hst : P s) :
    AllNext P (execSpCtrlWrite n v s) := by
  unfold execSpCtrlWrite
  repeat' first
    | with_reducible assumption
    | (first | intro x | (lift_lets -underBinder; intro x)
       first
       | (with_reducible refine (fun hx => ?_) (?_ : P x)
          on_goal 1 => clear_value x
          on_goal 2 => (unfold x; clear x))
       | clear_value x
       | skip)
    | with_reducible apply ite_keep
    | split
    | with_reducible apply next_keep
    | with_reducible apply setReg_keep (hP.mono (by decide))
    | with_reducible apply portIgnored_keep (hP.mono (by decide))
    | with_reducible apply toAcquire_keep (hP.mono (by decide))
    | with_reducible apply recount_keep (hP.mono (by decide))
    | with_reducible apply portOff_keep (hP.mono (by decide))

theorem execSpKindmapWrite_keep {P : State → Prop} (hP : Keeps [.regs, .ports, .col, .host] P) (n : Fin 16) (i : Fin 2) (v : W) (s : State) (hst : P s) :
    AllNext P (execSpKindmapWrite n i v s) := by
  unfold execSpKindmapWrite
  repeat' first
    | with_reducible assumption
    | (first | intro x | (lift_lets -underBinder; intro x)
       first
       | (with_reducible refine (fun hx => ?_) (?_ : P x)
          on_goal 1 => clear_value x
          on_goal 2 => (unfold x; clear x))
       | clear_value x
       | skip)
    | with_reducible apply ite_keep
    | split
    | with_reducible apply next_keep
    | with_reducible apply setReg_keep (hP.mono (by decide))
    | with_reducible apply portIgnored_keep (hP.mono (by decide))
    | with_reducible apply recount_keep (hP.mono (by decide))

theorem execSoCtrlWrite_keep {P : State → Prop} (hP : Keeps [.regs, .outs] P) (n : Fin 4) (v : W) (s : State) (hst : P s) :
    AllNext P (execSoCtrlWrite n v s) := by
  unfold execSoCtrlWrite
  repeat' first
    | with_reducible assumption
    | (first | intro x | (lift_lets -underBinder; intro x)
       first
       | (with_reducible refine (fun hx => ?_) (?_ : P x)
          on_goal 1 => clear_value x
          on_goal 2 => (unfold x; clear x))
       | clear_value x
       | skip)
    | with_reducible apply ite_keep
    | split
    | with_reducible apply next_keep
    | with_reducible apply setReg_keep (hP.mono (by decide))
    | with_reducible apply setOut_keep (hP.mono (by decide))

theorem execSoSlotWrite_keep {P : State → Prop} (hP : Keeps [.outs] P) (n : Fin 4) (sl : Fin 32) (v : W) (s : State) (hst : P s) :
    AllNext P (execSoSlotWrite n sl v s) := by
  unfold execSoSlotWrite
  repeat' first
    | with_reducible assumption
    | (first | intro x | (lift_lets -underBinder; intro x)
       first
       | (with_reducible refine (fun hx => ?_) (?_ : P x)
          on_goal 1 => clear_value x
          on_goal 2 => (unfold x; clear x))
       | clear_value x
       | skip)
    | with_reducible apply next_keep
    | with_reducible apply setOut_keep (hP.mono (by decide))

theorem execOutputPortClockLost_keep {P : State → Prop} (hP : Keeps [.regs, .col] P) (n : Fin 4) (s : State) (hst : P s) :
    AllNext P (execOutputPortClockLost n s) := by
  unfold execOutputPortClockLost
  repeat' first
    | with_reducible assumption
    | with_reducible apply ite_keep
    | split
    | with_reducible apply next_keep
    | with_reducible apply setReg_keep (hP.mono (by decide))
    | with_reducible apply raiseOwn_keep (hP.mono (by decide))
    | with_reducible apply holdLive_keep (hP.mono (by decide))

theorem sealBits_keep {P : State → Prop} (hP : Keeps [.regs, .host] P) (n : Nat) (bits : List Nat) (s : State) (hst : P s) :
    P (sealBits n bits s) := by
  unfold sealBits
  repeat' first
    | with_reducible assumption
    | intro x
    | with_reducible apply setEvt_keep (hP.mono (by decide))
    | with_reducible refine foldl_keep P _ ?_ _ _ ?_
    | with_reducible refine eq_keep (by assumption) ?_
    | with_reducible refine foldl_pair_keep _ ?_ _ ?_
    | dsimp only

theorem gatesLowOnPort_keep {P : State → Prop} (hP : Keeps [.gates] P) (n : Nat) (s : State) (hst : P s) :
    P (gatesLowOnPort n s) := by
  unfold gatesLowOnPort
  repeat' first
    | with_reducible assumption
    | (first | intro x | (lift_lets -underBinder; intro x)
       first
       | (with_reducible refine (fun hx => ?_) (?_ : P x)
          on_goal 1 => clear_value x
          on_goal 2 => (unfold x; clear x))
       | clear_value x
       | skip)
    | with_reducible apply ite_keep
    | split
    | with_reducible apply setGate_keep (hP.mono (by decide))
    | with_reducible apply each_keep

theorem execSealVerdict_keep {P : State → Prop} (hP : Keeps [.regs, .ports, .gates, .col, .host] P) (n : Fin 16) (s : State) (hst : P s) :
    AllNext P (execSealVerdict n s) := by
  unfold execSealVerdict
  repeat' first
    | with_reducible assumption
    | (first | intro x | (lift_lets -underBinder; intro x)
       first
       | (with_reducible refine (fun hx => ?_) (?_ : P x)
          on_goal 1 => clear_value x
          on_goal 2 => (unfold x; clear x))
       | clear_value x
       | skip)
    | with_reducible apply ite_keep
    | split
    | with_reducible apply next_keep
    | with_reducible apply gatesLowOnPort_keep (hP.mono (by decide))
    | with_reducible apply updPort_keep (hP.mono (by decide))
    | with_reducible apply addReg_keep (hP.mono (by decide))
    | with_reducible apply bump_keep (hP.mono (by decide))
    | with_reducible apply sealBits_keep (hP.mono (by decide))
    | with_reducible apply seqErr_keep (hP.mono (by decide))
    | with_reducible apply raise_keep (hP.mono (by decide))
    | with_reducible apply each_keep
    | with_reducible refine eq_keep (by assumption) ?_

-- Bellwether

theorem startSlew_keep {P : State → Prop} (hP : Keeps [.bell] P) (e : Nat) (s : State) (hst : P s) :
    P (startSlew e s) := by
  unfold startSlew
  repeat' first
    | with_reducible assumption
    | (first | intro x | (lift_lets -underBinder; intro x)
       first
       | (with_reducible refine (fun hx => ?_) (?_ : P x)
          on_goal 1 => clear_value x
          on_goal 2 => (unfold x; clear x))
       | clear_value x
       | skip)
    | with_reducible apply ite_keep
    | split
    | with_reducible apply updBell_keep (hP.mono (by decide))

theorem startLink_keep {P : State → Prop} (hP : Keeps [.bell] P) (s : State) (hst : P s) :
    P (startLink s) := by
  unfold startLink
  repeat' first
    | with_reducible assumption
    | (first | intro x | (lift_lets -underBinder; intro x)
       first
       | (with_reducible refine (fun hx => ?_) (?_ : P x)
          on_goal 1 => clear_value x
          on_goal 2 => (unfold x; clear x))
       | clear_value x
       | skip)
    | with_reducible apply updBell_keep (hP.mono (by decide))
    | with_reducible apply startSlew_keep (hP.mono (by decide))

theorem decideSource_keep {P : State → Prop} (hP : Keeps [.regs, .bell, .col, .host] P) (s : State) (hst : P s) :
    P (decideSource s) := by
  unfold decideSource
  repeat' first
    | with_reducible assumption
    | (first | intro x | (lift_lets -underBinder; intro x)
       first
       | (with_reducible refine (fun hx => ?_) (?_ : P x)
          on_goal 1 => clear_value x
          on_goal 2 => (unfold x; clear x))
       | clear_value x
       | skip)
    | with_reducible apply ite_keep
    | split
    | with_reducible apply updBell_keep (hP.mono (by decide))
    | with_reducible apply startSlew_keep (hP.mono (by decide))
    | with_reducible apply startLink_keep (hP.mono (by decide))
    | with_reducible apply bellEvt_keep (hP.mono (by decide))
    | with_reducible refine eq_keep (by assumption) ?_

theorem reselectNow_keep {P : State → Prop} (hP : Keeps [.regs, .bell, .col, .host] P) (s : State) (hst : P s) :
    P (reselectNow s) := by
  unfold reselectNow
  repeat' first
    | with_reducible assumption
    | with_reducible apply ite_keep
    | split
    | with_reducible apply decideSource_keep (hP.mono (by decide))

theorem defer_keep {P : State → Prop} (hP : Keeps [.svc] P) {d : Deferred} {s t : State} (h : P s) (e : deferAction d s = some t) : P t := by
  unfold deferAction at e
  split at e
  · cases e; exact updSvc_keep (hP.mono (by decide)) _ h
  · cases e

theorem deferGetD_keep {P : State → Prop} (hP : Keeps [.svc] P) {s : State} (d : Deferred) (h : P s) : P ((deferAction d s).getD s) := by
  cases e : deferAction d s with
  | none => exact h
  | some t => exact defer_keep (hP.mono (by decide)) h e

theorem measureEntry_keep {P : State → Prop} (hP : Keeps [.regs, .bell] P) (off : Nat → Int) (present : Nat) (e : Nat) (s : State) (hst : P s) :
    P (measureEntry off present e s) := by
  unfold measureEntry
  repeat' first
    | with_reducible assumption
    | (first | intro x | (lift_lets -underBinder; intro x)
       first
       | (with_reducible refine (fun hx => ?_) (?_ : P x)
          on_goal 1 => clear_value x
          on_goal 2 => (unfold x; clear x))
       | clear_value x
       | skip)
    | with_reducible apply ite_keep
    | split
    | with_reducible apply updBell_keep (hP.mono (by decide))
    | with_reducible apply setReg_keep (hP.mono (by decide))

theorem measureLink_keep {P : State → Prop} (hP : Keeps [.bell] P) (o : Int) (here : Bool) (s : State) (hst : P s) :
    P (measureLink o here s) := by
  unfold measureLink
  repeat' first
    | with_reducible assumption
    | intro x
    | with_reducible apply ite_keep
    | split
    | with_reducible apply updBell_keep (hP.mono (by decide))

theorem flagEntry_keep {P : State → Prop} (hP : Keeps [.regs, .bell, .col, .host] P) (e : Nat) (s : State) (hst : P s) :
    P (flagEntry e s) := by
  unfold flagEntry
  repeat' first
    | with_reducible assumption
    | intro x
    | with_reducible apply updBell_keep (hP.mono (by decide))
    | with_reducible apply bellEvt_keep (hP.mono (by decide))

theorem flagCheck_keep {P : State → Prop} (hP : Keeps [.regs, .bell, .col, .host] P) (off : Nat → Int) (present : Nat) (e : Nat) (s : State) (hst : P s) :
    P (flagCheck off present e s) := by
  unfold flagCheck
  repeat' first
    | with_reducible assumption
    | (first | intro x | (lift_lets -underBinder; intro x)
       first
       | (with_reducible refine (fun hx => ?_) (?_ : P x)
          on_goal 1 => clear_value x
          on_goal 2 => (unfold x; clear x))
       | clear_value x
       | skip)
    | with_reducible apply ite_keep
    | split
    | with_reducible apply updBell_keep (hP.mono (by decide))
    | with_reducible apply leaveSource_keep (hP.mono (by decide))
    | with_reducible apply flagEntry_keep (hP.mono (by decide))

theorem flagLink_keep {P : State → Prop} (hP : Keeps [.regs, .bell, .col, .host] P) (o : Int) (s : State) (hst : P s) :
    P (flagLink o s) := by
  unfold flagLink
  repeat' first
    | with_reducible assumption
    | with_reducible apply ite_keep
    | split
    | with_reducible apply leaveSource_keep (hP.mono (by decide))
    | with_reducible apply bellEvt_keep (hP.mono (by decide))

theorem takeRewritten_keep {P : State → Prop} (hP : Keeps [.regs, .bell, .col, .host] P) (s : State) (hst : P s) :
    P (takeRewritten s) := by
  unfold takeRewritten
  repeat' first
    | with_reducible assumption
    | with_reducible apply ite_keep
    | split
    | with_reducible apply startSlew_keep (hP.mono (by decide))
    | with_reducible apply bellEvt_keep (hP.mono (by decide))

theorem revertCheck_keep {P : State → Prop} (hP : Keeps [.regs, .bell, .svc, .col, .host] P) (s : State) (hst : P s) :
    P (revertCheck s) := by
  unfold revertCheck
  repeat' first
    | with_reducible assumption
    | with_reducible apply ite_keep
    | split
    | with_reducible apply decideSource_keep (hP.mono (by decide))
    | with_reducible refine eq_keep (by assumption) ?_
    | with_reducible refine deferGetD_keep (hP.mono (by decide)) _ ?_
    | with_reducible refine defer_keep (hP.mono (by decide)) ?_ (by assumption)

theorem execDriftMeasurement_keep {P : State → Prop} (hP : Keeps [.regs, .bell, .svc, .col, .host] P) (o0 : BitVec 24) (o1 : BitVec 24) (o2 : BitVec 24) (o3 : BitVec 24) (link : BitVec 24) (present : BitVec 5) (s : State) (hst : P s) :
    AllNext P (execDriftMeasurement o0 o1 o2 o3 link present s) := by
  unfold execDriftMeasurement
  repeat' first
    | with_reducible assumption
    | (first | intro x | (lift_lets -underBinder; intro x)
       first
       | (with_reducible refine (fun hx => ?_) (?_ : P x)
          on_goal 1 => clear_value x
          on_goal 2 => (unfold x; clear x))
       | (with_reducible refine (fun hfun => ?_) (?_ : ∀ a, P a → P (x a))
          on_goal 1 => clear_value x
          on_goal 2 => (unfold x; clear x))
       | (with_reducible refine (fun hfun => ?_) (?_ : ∀ a b, P b → P (x a b))
          on_goal 1 => clear_value x
          on_goal 2 => (unfold x; clear x))
       | (with_reducible refine (fun hfun => ?_) (?_ : ∀ a b c, P c → P (x a b c))
          on_goal 1 => clear_value x
          on_goal 2 => (unfold x; clear x))
       | (with_reducible refine (fun hfun => ?_) (?_ : ∀ a b c d, P d → P (x a b c d))
          on_goal 1 => clear_value x
          on_goal 2 => (unfold x; clear x))
       | (with_reducible refine (fun hx => ?_) (?_ : P x.2)
          on_goal 1 => clear_value x
          on_goal 2 => (unfold x; clear x))
       | (with_reducible refine (fun hfun => ?_) (?_ : ∀ a, P (x a))
          on_goal 1 => clear_value x
          on_goal 2 => (unfold x; clear x))
       | (with_reducible refine (fun hfun => ?_) (?_ : ∀ a b c, P (x a b c))
          on_goal 1 => clear_value x
          on_goal 2 => (unfold x; clear x))
       | clear_value x
       | skip)
    | with_reducible apply hfun
    | with_reducible apply ite_keep
    | split
    | with_reducible apply next_keep
    | with_reducible apply takeRewritten_keep (hP.mono (by decide))
    | with_reducible apply decideSource_keep (hP.mono (by decide))
    | with_reducible apply measureEntry_keep (hP.mono (by decide))
    | with_reducible apply measureLink_keep (hP.mono (by decide))
    | with_reducible apply revertCheck_keep (hP.mono (by decide))
    | with_reducible apply flagCheck_keep (hP.mono (by decide))
    | with_reducible apply flagLink_keep (hP.mono (by decide))
    | with_reducible apply each_keep

theorem execSourceLost_keep {P : State → Prop} (hP : Keeps [.regs, .bell, .col, .host] P) (s : State) (hst : P s) :
    AllNext P (execSourceLost s) := by
  unfold execSourceLost
  repeat' first
    | with_reducible assumption
    | with_reducible apply next_keep
    | with_reducible apply sourceLost_keep (hP.mono (by decide))

theorem execHoldoverEntry_keep {P : State → Prop} (hP : Keeps [.regs, .bell, .col, .host] P) (s : State) (hst : P s) :
    AllNext P (execHoldoverEntry s) := by
  unfold execHoldoverEntry
  repeat' first
    | with_reducible assumption
    | intro x
    | with_reducible apply ite_keep
    | split
    | with_reducible apply next_keep
    | with_reducible apply updBell_keep (hP.mono (by decide))
    | with_reducible apply bellEvt_keep (hP.mono (by decide))

theorem execHoldoverMinEnd_keep {P : State → Prop} (hP : Keeps [.regs, .bell, .col, .host] P) (s : State) (hst : P s) :
    AllNext P (execHoldoverMinEnd s) := by
  unfold execHoldoverMinEnd
  repeat' first
    | with_reducible assumption
    | with_reducible apply ite_keep
    | split
    | with_reducible apply next_keep
    | with_reducible apply decideSource_keep (hP.mono (by decide))

theorem execHoldoverNoSource_keep {P : State → Prop} (hP : Keeps [.regs, .bell, .col, .host] P) (s : State) (hst : P s) :
    AllNext P (execHoldoverNoSource s) := by
  unfold execHoldoverNoSource
  repeat' first
    | with_reducible assumption
    | intro x
    | with_reducible apply ite_keep
    | split
    | with_reducible apply next_keep
    | with_reducible apply updBell_keep (hP.mono (by decide))
    | with_reducible apply bellEvt_keep (hP.mono (by decide))

theorem execSlewFreqMatched_keep {P : State → Prop} (hP : Keeps [.bell] P) (s : State) (hst : P s) :
    AllNext P (execSlewFreqMatched s) := by
  unfold execSlewFreqMatched
  repeat' first
    | with_reducible assumption
    | intro x
    | with_reducible apply ite_keep
    | split
    | with_reducible apply next_keep
    | with_reducible apply updBell_keep (hP.mono (by decide))

theorem execSlewPhaseDone_keep {P : State → Prop} (hP : Keeps [.bell] P) (s : State) (hst : P s) :
    AllNext P (execSlewPhaseDone s) := by
  unfold execSlewPhaseDone
  repeat' first
    | with_reducible assumption
    | intro x
    | with_reducible apply ite_keep
    | split
    | with_reducible apply next_keep
    | with_reducible apply updBell_keep (hP.mono (by decide))

theorem execReselect_keep {P : State → Prop} (hP : Keeps [.regs, .bell, .svc, .col, .host] P) (same : Bool) (s : State) (hst : P s) :
    AllNext P (execReselect same s) := by
  unfold execReselect
  repeat' first
    | with_reducible assumption
    | with_reducible apply ite_keep
    | split
    | with_reducible apply next_keep
    | with_reducible apply bellIgnored_keep (hP.mono (by decide))
    | with_reducible apply reselectNow_keep (hP.mono (by decide))
    | with_reducible refine eq_keep (by assumption) ?_
    | with_reducible refine deferGetD_keep (hP.mono (by decide)) _ ?_
    | with_reducible refine defer_keep (hP.mono (by decide)) ?_ (by assumption)

theorem unbarEntries_keep {P : State → Prop} (hP : Keeps [.bell] P) (bits : Nat) (s : State) (hst : P s) :
    P (unbarEntries bits s) := by
  unfold unbarEntries
  repeat' first
    | with_reducible assumption
    | intro x
    | with_reducible apply updBell_keep (hP.mono (by decide))

theorem execUnbar_keep {P : State → Prop} (hP : Keeps [.bell] P) (bits : BitVec 4) (s : State) (hst : P s) :
    AllNext P (execUnbar bits s) := by
  unfold execUnbar
  repeat' first
    | with_reducible assumption
    | with_reducible apply next_keep
    | with_reducible apply unbarEntries_keep (hP.mono (by decide))

theorem rateWrite_keep {P : State → Prop} (hP : Keeps [.regs, .bell, .col, .host] P) (a : Nat) (v : W) (s : State) (hst : P s) :
    P (rateWrite a v s) := by
  unfold rateWrite
  repeat' first
    | with_reducible assumption
    | (first | intro x | (lift_lets -underBinder; intro x)
       first
       | (with_reducible refine (fun hx => ?_) (?_ : P x)
          on_goal 1 => clear_value x
          on_goal 2 => (unfold x; clear x))
       | clear_value x
       | skip)
    | with_reducible apply ite_keep
    | split
    | with_reducible apply bellIgnored_keep (hP.mono (by decide))
    | with_reducible apply setPend_keep (hP.mono (by decide))

theorem execFcRateWrite_keep {P : State → Prop} (hP : Keeps [.regs, .bell, .col, .host] P) (v : W) (s : State) (hst : P s) :
    AllNext P (execFcRateWrite v s) := by
  unfold execFcRateWrite
  repeat' first
    | with_reducible assumption
    | with_reducible apply next_keep
    | with_reducible apply rateWrite_keep (hP.mono (by decide))

theorem execFcRatioWrite_keep {P : State → Prop} (hP : Keeps [.regs, .bell, .col, .host] P) (v : W) (s : State) (hst : P s) :
    AllNext P (execFcRatioWrite v s) := by
  unfold execFcRatioWrite
  repeat' first
    | with_reducible assumption
    | with_reducible apply next_keep
    | with_reducible apply rateWrite_keep (hP.mono (by decide))

theorem execFcPrioWrite_keep {P : State → Prop} (hP : Keeps [.regs, .bell, .col, .host] P) (v : W) (s : State) (hst : P s) :
    AllNext P (execFcPrioWrite v s) := by
  unfold execFcPrioWrite
  repeat' first
    | with_reducible assumption
    | (first | intro x | (lift_lets -underBinder; intro x)
       first
       | (with_reducible refine (fun hx => ?_) (?_ : P x)
          on_goal 1 => clear_value x
          on_goal 2 => (unfold x; clear x))
       | clear_value x
       | skip)
    | with_reducible apply ite_keep
    | split
    | with_reducible apply next_keep
    | with_reducible apply bellIgnored_keep (hP.mono (by decide))
    | with_reducible apply setPend_keep (hP.mono (by decide))

theorem execFcWindowWrite_keep {P : State → Prop} (hP : Keeps [.regs, .bell, .col, .host] P) (v : W) (s : State) (hst : P s) :
    AllNext P (execFcWindowWrite v s) := by
  unfold execFcWindowWrite
  repeat' first
    | with_reducible assumption
    | (first | intro x | (lift_lets -underBinder; intro x)
       first
       | (with_reducible refine (fun hx => ?_) (?_ : P x)
          on_goal 1 => clear_value x
          on_goal 2 => (unfold x; clear x))
       | clear_value x
       | skip)
    | with_reducible apply ite_keep
    | split
    | with_reducible apply next_keep
    | with_reducible apply bellIgnored_keep (hP.mono (by decide))
    | with_reducible apply setPend_keep (hP.mono (by decide))

theorem execFcPhaseWrite_keep {P : State → Prop} (hP : Keeps [.regs, .bell, .col, .host] P) (v : W) (s : State) (hst : P s) :
    AllNext P (execFcPhaseWrite v s) := by
  unfold execFcPhaseWrite
  repeat' first
    | with_reducible assumption
    | (first | intro x | (lift_lets -underBinder; intro x)
       first
       | (with_reducible refine (fun hx => ?_) (?_ : P x)
          on_goal 1 => clear_value x
          on_goal 2 => (unfold x; clear x))
       | clear_value x
       | skip)
    | with_reducible apply ite_keep
    | split
    | with_reducible apply next_keep
    | with_reducible apply bellIgnored_keep (hP.mono (by decide))
    | with_reducible apply setPend_keep (hP.mono (by decide))

theorem applyPrio_keep {P : State → Prop} (hP : Keeps [.regs, .bell, .col, .host] P) (old : W) (new : W) (s : State) (hst : P s) :
    P (applyPrio old new s) := by
  unfold applyPrio
  repeat' first
    | with_reducible assumption
    | (first | intro x | (lift_lets -underBinder; intro x)
       first
       | (with_reducible refine (fun hx => ?_) (?_ : P x)
          on_goal 1 => clear_value x
          on_goal 2 => (unfold x; clear x))
       | clear_value x
       | skip)
    | with_reducible apply ite_keep
    | split
    | with_reducible apply updBell_keep (hP.mono (by decide))
    | with_reducible apply takeRewritten_keep (hP.mono (by decide))
    | with_reducible apply each_keep

theorem applySettings_keep {P : State → Prop} (hP : Keeps [.regs, .ports, .bell, .col, .host] P) (s : State) (hst : P s) :
    P (applySettings s) := by
  unfold applySettings
  repeat' first
    | with_reducible assumption
    | (first | intro x | (lift_lets -underBinder; intro x)
       first
       | (with_reducible refine (fun hx => ?_) (?_ : P x)
          on_goal 1 => clear_value x
          on_goal 2 => (unfold x; clear x))
       | clear_value x
       | skip)
    | with_reducible apply ite_keep
    | split
    | with_reducible apply updBell_keep (hP.mono (by decide))
    | with_reducible apply setReg_keep (hP.mono (by decide))
    | with_reducible apply applyPrio_keep (hP.mono (by decide))
    | with_reducible apply loseLock_keep (hP.mono (by decide))
    | with_reducible apply each_keep
    | with_reducible refine foldl_keep P _ ?_ _ _ ?_
    | with_reducible refine eq_keep (by assumption) ?_
    | with_reducible refine foldl_pair_keep _ ?_ _ ?_
    | dsimp only

-- Gates

theorem gateEvent_keep {P : State → Prop} (hP : Keeps [.regs, .col, .host] P) (g : Nat) (bit : Nat) (s : State) (hst : P s) :
    P (gateEvent g bit s) := by
  unfold gateEvent
  repeat' first
    | with_reducible assumption
    | with_reducible apply ite_keep
    | split
    | with_reducible apply raise_keep (hP.mono (by decide))

theorem refreshGate_keep {P : State → Prop} (hP : Keeps [.gates] P) (g : Nat) (s : State) (hst : P s) :
    P (refreshGate g s) := by
  unfold refreshGate
  repeat' first
    | with_reducible assumption
    | (first | intro x | (lift_lets -underBinder; intro x)
       first
       | (with_reducible refine (fun hx => ?_) (?_ : P x)
          on_goal 1 => clear_value x
          on_goal 2 => (unfold x; clear x))
       | clear_value x
       | skip)
    | with_reducible apply ite_keep
    | split
    | with_reducible apply updGate_keep (hP.mono (by decide))

theorem refreshGates_keep {P : State → Prop} (hP : Keeps [.gates] P) (s : State) (hst : P s) :
    P (refreshGates s) := by
  unfold refreshGates
  repeat' first
    | with_reducible assumption
    | intro x
    | with_reducible apply refreshGate_keep (hP.mono (by decide))
    | with_reducible apply each_keep

theorem gateLow_keep {P : State → Prop} (hP : Keeps [.gates] P) (g : Nat) (s : State) (hst : P s) :
    P (gateLow g s) := by
  unfold gateLow
  repeat' first
    | with_reducible assumption
    | intro x
    | with_reducible apply updGate_keep (hP.mono (by decide))

theorem placeEdge_keep {P : State → Prop} (hP : Keeps [.regs, .gates, .col, .host] P) (g : Nat) (e : GEdge) (s : State) (hst : P s) :
    P (placeEdge g e s) := by
  unfold placeEdge
  repeat' first
    | with_reducible assumption
    | (first | intro x | (lift_lets -underBinder; intro x)
       first
       | (with_reducible refine (fun hx => ?_) (?_ : P x)
          on_goal 1 => clear_value x
          on_goal 2 => (unfold x; clear x))
       | clear_value x
       | skip)
    | with_reducible apply ite_keep
    | split
    | with_reducible apply updGate_keep (hP.mono (by decide))
    | with_reducible apply addReg_keep (hP.mono (by decide))
    | with_reducible apply gateEvent_keep (hP.mono (by decide))

theorem gateCommand_keep {P : State → Prop} (hP : Keeps [.regs, .gates, .col, .host] P) (g : Nat) (on : Bool) (s : State) (hst : P s) :
    P (gateCommand g on s) := by
  unfold gateCommand
  repeat' first
    | with_reducible assumption
    | (first | intro x | (lift_lets -underBinder; intro x)
       first
       | (with_reducible refine (fun hx => ?_) (?_ : P x)
          on_goal 1 => clear_value x
          on_goal 2 => (unfold x; clear x))
       | clear_value x
       | skip)
    | with_reducible apply ite_keep
    | split
    | with_reducible apply bump_keep (hP.mono (by decide))
    | with_reducible apply placeEdge_keep (hP.mono (by decide))

theorem endInj_keep {P : State → Prop} (hP : Keeps [.injs] P) (i : Nat) (s : State) (hst : P s) :
    P (endInj i s) := by
  unfold endInj
  repeat' first
    | with_reducible assumption
    | intro x
    | with_reducible apply ite_keep
    | split
    | with_reducible apply updInj_keep (hP.mono (by decide))

theorem openWindow_keep {P : State → Prop} (hP : Keeps [.regs, .gates, .injs, .col, .host] P) (g : Nat) (s : State) (hst : P s) :
    P (openWindow g s) := by
  unfold openWindow
  repeat' first
    | with_reducible assumption
    | (first | intro x | (lift_lets -underBinder; intro x)
       first
       | (with_reducible refine (fun hx => ?_) (?_ : P x)
          on_goal 1 => clear_value x
          on_goal 2 => (unfold x; clear x))
       | clear_value x
       | skip)
    | with_reducible apply ite_keep
    | split
    | with_reducible apply updGate_keep (hP.mono (by decide))
    | with_reducible apply gateEvent_keep (hP.mono (by decide))
    | with_reducible apply endInj_keep (hP.mono (by decide))
    | with_reducible apply each_keep

theorem closeWindow_keep {P : State → Prop} (hP : Keeps [.regs, .gates, .col, .host] P) (g : Nat) (s : State) (hst : P s) :
    P (closeWindow g s) := by
  unfold closeWindow
  repeat' first
    | with_reducible assumption
    | intro x
    | with_reducible apply ite_keep
    | split
    | with_reducible apply updGate_keep (hP.mono (by decide))
    | with_reducible apply gateEvent_keep (hP.mono (by decide))

theorem gateBits_keep {P : State → Prop} (hP : Keeps [.regs, .gates, .injs, .col, .host] P) (port : Nat) (slot : Nat) (ev : Nat) (s : State) (hst : P s) :
    P (gateBits port slot ev s) := by
  unfold gateBits
  repeat' first
    | with_reducible assumption
    | (first | intro x | (lift_lets -underBinder; intro x)
       first
       | (with_reducible refine (fun hx => ?_) (?_ : P x)
          on_goal 1 => clear_value x
          on_goal 2 => (unfold x; clear x))
       | clear_value x
       | skip)
    | with_reducible apply ite_keep
    | split
    | with_reducible apply gateCommand_keep (hP.mono (by decide))
    | with_reducible apply closeWindow_keep (hP.mono (by decide))
    | with_reducible apply openWindow_keep (hP.mono (by decide))
    | with_reducible apply gateEvent_keep (hP.mono (by decide))
    | with_reducible apply each_keep
    | with_reducible refine eq_keep (by assumption) ?_

theorem gatesAtBoundary_keep {P : State → Prop} (hP : Keeps [.gates, .col] P) (s : State) (hst : P s) :
    P (gatesAtBoundary s) := by
  unfold gatesAtBoundary
  repeat' first
    | with_reducible assumption
    | (first | intro x | (lift_lets -underBinder; intro x)
       first
       | (with_reducible refine (fun hx => ?_) (?_ : P x)
          on_goal 1 => clear_value x
          on_goal 2 => (unfold x; clear x))
       | clear_value x
       | skip)
    | with_reducible apply ite_keep
    | split
    | with_reducible apply setGate_keep (hP.mono (by decide))
    | with_reducible apply refreshGate_keep (hP.mono (by decide))
    | with_reducible apply liveEnd_keep (hP.mono (by decide))
    | with_reducible apply each_keep

theorem execGateEdge_keep {P : State → Prop} (hP : Keeps [.gates] P) (g : Fin 64) (now : Nat) (s : State) (hst : P s) :
    AllNext P (execGateEdge g now s) := by
  unfold execGateEdge
  repeat' first
    | with_reducible assumption
    | intro x
    | with_reducible apply ite_keep
    | split
    | with_reducible apply next_keep
    | with_reducible apply updGate_keep (hP.mono (by decide))
    | with_reducible refine eq_keep (by assumption) ?_

theorem execGateLost_keep {P : State → Prop} (hP : Keeps [.regs, .gates, .col, .host] P) (g : Fin 64) (s : State) (hst : P s) :
    AllNext P (execGateLost g s) := by
  unfold execGateLost
  repeat' first
    | with_reducible assumption
    | (first | intro x | (lift_lets -underBinder; intro x)
       first
       | (with_reducible refine (fun hx => ?_) (?_ : P x)
          on_goal 1 => clear_value x
          on_goal 2 => (unfold x; clear x))
       | clear_value x
       | skip)
    | with_reducible apply ite_keep
    | split
    | with_reducible apply next_keep
    | with_reducible apply setGate_keep (hP.mono (by decide))
    | with_reducible apply refreshGate_keep (hP.mono (by decide))
    | with_reducible apply gateEvent_keep (hP.mono (by decide))
    | with_reducible apply holdLive_keep (hP.mono (by decide))

theorem execLayerTimeout_keep {P : State → Prop} (hP : Keeps [.regs, .gates, .col, .host] P) (g : Fin 64) (now : Nat) (s : State) (hst : P s) :
    AllNext P (execLayerTimeout g now s) := by
  unfold execLayerTimeout
  repeat' first
    | with_reducible assumption
    | (first | intro x | (lift_lets -underBinder; intro x)
       first
       | (with_reducible refine (fun hx => ?_) (?_ : P x)
          on_goal 1 => clear_value x
          on_goal 2 => (unfold x; clear x))
       | clear_value x
       | skip)
    | with_reducible apply ite_keep
    | split
    | with_reducible apply next_keep
    | with_reducible apply updGate_keep (hP.mono (by decide))
    | with_reducible apply gateEvent_keep (hP.mono (by decide))

theorem execLayerStateMessage_keep {P : State → Prop} (hP : Keeps [.stn] P) (id : BitVec 64) (place : Int) (isOpen : Bool) (s : State) (hst : P s) :
    AllNext P (execLayerStateMessage id place isOpen s) := by
  unfold execLayerStateMessage
  repeat' first
    | with_reducible assumption
    | (first | intro x | (lift_lets -underBinder; intro x)
       first
       | (with_reducible refine (fun hx => ?_) (?_ : P x)
          on_goal 1 => clear_value x
          on_goal 2 => (unfold x; clear x))
       | clear_value x
       | skip)
    | with_reducible apply ite_keep
    | split
    | with_reducible apply next_keep
    | with_reducible apply upd_stn (hP.mono (by decide))

-- Stop

theorem modEvent_keep {P : State → Prop} (hP : Keeps [.regs, .col, .host] P) (t : Nat) (bit : Nat) (s : State) (hst : P s) :
    P (modEvent t bit s) := by
  unfold modEvent
  repeat' first
    | with_reducible assumption
    | with_reducible apply raiseOnce_keep (hP.mono (by decide))

theorem foldEvent_keep {P : State → Prop} (hP : Keeps [.regs, .col, .host] P) (k : Nat) (bit : Nat) (cls : Nat) (okind : Nat) (object : Nat) (s : State) (hst : P s) :
    P (foldEvent k bit cls okind object s) := by
  unfold foldEvent
  repeat' first
    | with_reducible assumption
    | with_reducible apply raise_keep (hP.mono (by decide))

theorem vsCheck_keep {P : State → Prop} (hP : Keeps [.regs, .tal, .host] P) (t : Nat) (s : State) (hst : P s) :
    P (vsCheck t s) := by
  unfold vsCheck
  repeat' first
    | with_reducible assumption
    | with_reducible apply ite_keep
    | split
    | with_reducible apply bump_keep (hP.mono (by decide))
    | with_reducible apply talCheck_keep (hP.mono (by decide))

theorem creditDel_keep {P : State → Prop} (hP : Keeps [.wide, .terms] P) (t : Nat) (p : Period) (d : Int) (s : State) (hst : P s) :
    P (creditDel t p d s) := by
  unfold creditDel
  repeat' first
    | with_reducible assumption
    | intro x
    | with_reducible apply ite_keep
    | split
    | exact ⟨fun h1 h2 => ⟨h1, h2⟩⟩
    | with_reducible apply addWide_keep (hP.mono (by decide))
    | with_reducible apply updTerm_keep (hP.mono (by decide))

theorem closePeriod_keep {P : State → Prop} (hP : Keeps [.regs, .wide, .terms, .tal, .host] P) (t : Nat) (s : State) (hst : P s) :
    P (closePeriod t s) := by
  unfold closePeriod
  repeat' first
    | with_reducible assumption
    | (first | intro x | (lift_lets -underBinder; intro x)
       first
       | (with_reducible refine (fun hx => ?_) (?_ : P x)
          on_goal 1 => clear_value x
          on_goal 2 => (unfold x; clear x))
       | clear_value x
       | skip)
    | with_reducible apply ite_keep
    | split
    | exact ⟨fun h1 h2 => ⟨h1, h2⟩⟩
    | with_reducible apply addWide_keep (hP.mono (by decide))
    | with_reducible apply updTerm_keep (hP.mono (by decide))
    | with_reducible apply creditDel_keep (hP.mono (by decide))
    | with_reducible apply vsCheck_keep (hP.mono (by decide))
    | with_reducible refine eq_keep (by assumption) ?_

theorem closeMid_keep {P : State → Prop} (hP : Keeps [.regs, .wide, .terms, .tal, .host] P) (t : Nat) (now : Nat) (s : State) (hst : P s) :
    P (closeMid t now s) := by
  unfold closeMid
  repeat' first
    | with_reducible assumption
    | (first | intro x | (lift_lets -underBinder; intro x)
       first
       | (with_reducible refine (fun hx => ?_) (?_ : P x)
          on_goal 1 => clear_value x
          on_goal 2 => (unfold x; clear x))
       | clear_value x
       | skip)
    | with_reducible apply ite_keep
    | split
    | exact ⟨fun h1 h2 => ⟨h1, h2⟩⟩
    | with_reducible apply addWide_keep (hP.mono (by decide))
    | with_reducible apply updTerm_keep (hP.mono (by decide))
    | with_reducible apply creditDel_keep (hP.mono (by decide))
    | with_reducible apply vsCheck_keep (hP.mono (by decide))
    | with_reducible refine eq_keep (by assumption) ?_

theorem dropResidue_keep {P : State → Prop} (hP : Keeps [.regs, .wide, .terms, .tal, .host] P) (t : Nat) (s : State) (hst : P s) :
    P (dropResidue t s) := by
  unfold dropResidue
  repeat' first
    | with_reducible assumption
    | (first | intro x | (lift_lets -underBinder; intro x)
       first
       | (with_reducible refine (fun hx => ?_) (?_ : P x)
          on_goal 1 => clear_value x
          on_goal 2 => (unfold x; clear x))
       | clear_value x
       | skip)
    | with_reducible apply ite_keep
    | split
    | exact ⟨fun h1 h2 => ⟨h1, h2⟩⟩
    | with_reducible apply addWide_keep (hP.mono (by decide))
    | with_reducible apply updTerm_keep (hP.mono (by decide))
    | with_reducible apply vsCheck_keep (hP.mono (by decide))

/-- Scheduling edges leaves the sides as they are. -/
theorem schedule_sides (x : Term) (d : Drive) (own : Bool) (dt a : Nat) : LegLe x (x.schedule d own dt a) :=
  ⟨fun h1 h2 => ⟨h1, h2⟩⟩

theorem setDrive_keep {P : State → Prop} (hP : Keeps [.terms] P) (t : Nat) (d : Drive) (own : Bool) (a : Nat) (s : State) (hst : P s) :
    P (setDrive t d own a s) := by
  unfold setDrive
  refine setTerm_keep (hP.mono (by decide)) _ _ ?_ hst
  have h := (schedule_sides (s.term t) d own (s.deadTime t) a).both
  constructor
  cases d <;> intro h1 h2 <;> simp_all

theorem readbackMiss_keep {P : State → Prop} (hP : Keeps [.regs, .terms, .col, .host] P) (t : Nat) (s : State) (hst : P s) :
    P (readbackMiss t s) := by
  unfold readbackMiss
  repeat' first
    | with_reducible assumption
    | (first | intro x | (lift_lets -underBinder; intro x)
       first
       | (with_reducible refine (fun hx => ?_) (?_ : P x)
          on_goal 1 => clear_value x
          on_goal 2 => (unfold x; clear x))
       | clear_value x
       | skip)
    | exact ⟨fun h1 h2 => ⟨h1, h2⟩⟩
    | with_reducible apply updTerm_keep (hP.mono (by decide))
    | with_reducible apply bump_keep (hP.mono (by decide))
    | with_reducible apply raise_keep (hP.mono (by decide))

theorem edgeMiss_keep {P : State → Prop} (hP : Keeps [.regs, .wide, .terms, .col, .tal, .host] P) (t : Nat) (e : Edge) (s : State) (hst : P s) :
    P (edgeMiss t e s) := by
  unfold edgeMiss
  repeat' first
    | with_reducible assumption
    | (first | intro x | (lift_lets -underBinder; intro x)
       first
       | (with_reducible refine (fun hx => ?_) (?_ : P x)
          on_goal 1 => clear_value x
          on_goal 2 => (unfold x; clear x))
       | clear_value x
       | skip)
    | with_reducible apply ite_keep
    | split
    | exact ⟨fun h1 h2 => ⟨h1, h2⟩⟩
    | with_reducible apply addWide_keep (hP.mono (by decide))
    | with_reducible apply updTerm_keep (hP.mono (by decide))
    | with_reducible apply readbackMiss_keep (hP.mono (by decide))
    | with_reducible apply vsCheck_keep (hP.mono (by decide))

theorem missedEdges_keep {P : State → Prop} (hP : Keeps [.regs, .wide, .terms, .col, .tal, .host] P) (t a : Nat) (s : State) (hst : P s) : P (missedEdges t a s) := by
  unfold missedEdges
  dsimp only
  have h := fun l => setTerm_keep (hP.mono (by decide)) t { s.term t with edges := l } ⟨fun h1 h2 => ⟨h1, h2⟩⟩ hst
  split
  · exact forL_keep _ _ (fun _ _ hb => edgeMiss_keep (hP.mono (by decide)) _ _ _ hb) (h _)
  · exact h _

theorem enterSafe_keep {P : State → Prop} (hP : Keeps [.regs, .wide, .terms, .tal, .host] P) (ch : Nat) (now : Nat) (s : State) (hst : P s) :
    P (enterSafe ch now s) := by
  unfold enterSafe
  repeat' first
    | with_reducible assumption
    | intro x
    | with_reducible apply dropResidue_keep (hP.mono (by decide))
    | with_reducible apply closeMid_keep (hP.mono (by decide))
    | with_reducible apply setDrive_keep (hP.mono (by decide))
    | with_reducible apply each_keep

theorem clearForces_keep {P : State → Prop} (hP : Keeps [.regs, .terms, .col, .host] P) (ch : Nat) (s : State) (hst : P s) :
    P (clearForces ch s) := by
  unfold clearForces
  repeat' first
    | with_reducible assumption
    | (first | intro x | (lift_lets -underBinder; intro x)
       first
       | (with_reducible refine (fun hx => ?_) (?_ : P x)
          on_goal 1 => clear_value x
          on_goal 2 => (unfold x; clear x))
       | clear_value x
       | skip)
    | with_reducible apply ite_keep
    | split
    | exact ⟨fun h1 h2 => ⟨h1, h2⟩⟩
    | with_reducible apply updTerm_keep (hP.mono (by decide))
    | with_reducible apply modEvent_keep (hP.mono (by decide))
    | with_reducible apply each_keep

theorem motorIdle_keep {P : State → Prop} (hP : Keeps [.chans, .motors] P) (ch : Nat) (s : State) (hst : P s) :
    P (motorIdle ch s) := by
  unfold motorIdle
  repeat' first
    | with_reducible assumption
    | intro x
    | with_reducible apply ite_keep
    | split
    | with_reducible apply updMotor_keep (hP.mono (by decide))
    | with_reducible apply updChan_keep (hP.mono (by decide))
    | with_reducible refine eq_keep (by assumption) ?_

theorem stopChannel_keep {P : State → Prop} (hP : Keeps [.regs, .chans, .terms, .gates, .motors, .rings, .svc, .col, .host] P) (ch : Nat) (r : Report) (s : State) (hst : P s) :
    P (stopChannel ch r s) := by
  unfold stopChannel
  repeat' first
    | with_reducible assumption
    | (first | intro x | (lift_lets -underBinder; intro x)
       first
       | (with_reducible refine (fun hx => ?_) (?_ : P x)
          on_goal 1 => clear_value x
          on_goal 2 => (unfold x; clear x))
       | clear_value x
       | skip)
    | with_reducible apply ite_keep
    | split
    | with_reducible apply setChan_keep (hP.mono (by decide))
    | with_reducible apply updChan_keep (hP.mono (by decide))
    | with_reducible apply refreshGates_keep (hP.mono (by decide))
    | with_reducible apply clearForces_keep (hP.mono (by decide))
    | with_reducible apply finishObj_keep (hP.mono (by decide))
    | with_reducible apply motorIdle_keep (hP.mono (by decide))
    | with_reducible refine eq_keep (by assumption) ?_

theorem tripChannel_keep {P : State → Prop} (hP : Keeps [.regs, .wide, .chans, .terms, .gates, .motors, .rings, .svc, .col, .tal, .host] P) (ch : Nat) (now : Nat) (r : Report) (s : State) (hst : P s) :
    P (tripChannel ch now r s) := by
  unfold tripChannel
  repeat' first
    | with_reducible assumption
    | with_reducible apply ite_keep
    | split
    | with_reducible apply clearForces_keep (hP.mono (by decide))
    | with_reducible apply stopChannel_keep (hP.mono (by decide))
    | with_reducible apply enterSafe_keep (hP.mono (by decide))

theorem updFired_keep {P : State → Prop} (hP : Keeps [.regs] P) (g : Nat) (s : State) (hst : P s) :
    P (updFired g s) := by
  unfold updFired
  repeat' first
    | with_reducible assumption
    | (first | intro x | (lift_lets -underBinder; intro x)
       first
       | (with_reducible refine (fun hx => ?_) (?_ : P x)
          on_goal 1 => clear_value x
          on_goal 2 => (unfold x; clear x))
       | clear_value x
       | skip)
    | with_reducible apply ite_keep
    | split
    | with_reducible apply updReg_keep (hP.mono (by decide))
    | with_reducible apply each_keep

theorem tripLeft_keep {P : State → Prop} (hP : Keeps [.regs, .trips] P) (ch : Nat) (s : State) (hst : P s) :
    P (tripLeft ch s) := by
  unfold tripLeft
  repeat' first
    | with_reducible assumption
    | intro x
    | with_reducible apply ite_keep
    | split
    | with_reducible apply setTrip_keep (hP.mono (by decide))
    | with_reducible apply updFired_keep (hP.mono (by decide))
    | with_reducible apply each_keep

theorem clearDone_keep {P : State → Prop} (hP : Keeps [.regs, .chans, .trips] P) (ch : Nat) (s : State) (hst : P s) :
    P (clearDone ch s) := by
  unfold clearDone
  repeat' first
    | with_reducible assumption
    | (first | intro x | (lift_lets -underBinder; intro x)
       first
       | (with_reducible refine (fun hx => ?_) (?_ : P x)
          on_goal 1 => clear_value x
          on_goal 2 => (unfold x; clear x))
       | clear_value x
       | skip)
    | with_reducible apply ite_keep
    | split
    | with_reducible apply setChan_keep (hP.mono (by decide))
    | with_reducible apply tripLeft_keep (hP.mono (by decide))

theorem openTimer_keep {P : State → Prop} (hP : Keeps [.timers, .trips] P) (i : Nat) (now : Nat) (s : State) (hst : P s) :
    P (openTimer i now s) := by
  unfold openTimer
  repeat' first
    | with_reducible assumption
    | (first | intro x | (lift_lets -underBinder; intro x)
       first
       | (with_reducible refine (fun hx => ?_) (?_ : P x)
          on_goal 1 => clear_value x
          on_goal 2 => (unfold x; clear x))
       | clear_value x
       | skip)
    | with_reducible apply ite_keep
    | split
    | with_reducible apply setTimer_keep (hP.mono (by decide))
    | with_reducible apply setTrip_keep (hP.mono (by decide))
    | with_reducible apply each_keep

theorem markFold_keep {P : State → Prop} (hP : Keeps [.folds] P) (k : Nat) (r : Report) (s : State) (hst : P s) :
    P (markFold k r s) := by
  unfold markFold
  repeat' first
    | with_reducible assumption
    | intro x
    | with_reducible apply ite_keep
    | split
    | with_reducible apply updFold_keep (hP.mono (by decide))

theorem tripFold_keep {P : State → Prop} (hP : Keeps [.regs, .wide, .chans, .terms, .folds, .gates, .motors, .rings, .svc, .col, .tal, .host] P) (k : Nat) (now : Nat) (r : Report) (s : State) (hst : P s) :
    P (tripFold k now r s) := by
  unfold tripFold
  repeat' first
    | with_reducible assumption
    | (first | intro x | (lift_lets -underBinder; intro x)
       first
       | (with_reducible refine (fun hx => ?_) (?_ : P x)
          on_goal 1 => clear_value x
          on_goal 2 => (unfold x; clear x))
       | clear_value x
       | skip)
    | with_reducible apply tripChannel_keep (hP.mono (by decide))
    | with_reducible apply markFold_keep (hP.mono (by decide))
    | with_reducible apply each_keep

theorem haltCap_keep {P : State → Prop} (hP : Keeps [.caps] P) (i : Nat) (s : State) (hst : P s) :
    P (haltCap i s) := by
  unfold haltCap
  repeat' first
    | with_reducible assumption
    | intro x
    | with_reducible apply ite_keep
    | split
    | with_reducible apply updCap_keep (hP.mono (by decide))

theorem dropDeferred_keep {P : State → Prop} (hP : Keeps [.rings, .svc] P) (s : State) (hst : P s) :
    P (dropDeferred s) := by
  unfold dropDeferred
  repeat' first
    | with_reducible assumption
    | (first | intro x | (lift_lets -underBinder; intro x)
       first
       | (with_reducible refine (fun hx => ?_) (?_ : P x)
          on_goal 1 => clear_value x
          on_goal 2 => (unfold x; clear x))
       | clear_value x
       | skip)
    | with_reducible apply ite_keep
    | split
    | with_reducible apply updSvc_keep (hP.mono (by decide))
    | with_reducible apply complete_keep (hP.mono (by decide))
    | with_reducible refine foldl_keep P _ ?_ _ _ ?_
    | with_reducible refine eq_keep (by assumption) ?_
    | with_reducible refine foldl_pair_keep _ ?_ _ ?_
    | dsimp only

theorem moduleStop_keep {P : State → Prop} (hP : Keeps [.regs, .wide, .chans, .terms, .gates, .motors, .caps, .injs, .rings, .svc, .col, .tal, .host] P) (st : Stamped) (now : Nat) (s : State) (hst : P s) :
    P (moduleStop st now s) := by
  unfold moduleStop
  repeat' first
    | with_reducible assumption
    | (first | intro x | (lift_lets -underBinder; intro x)
       first
       | (with_reducible refine (fun hx => ?_) (?_ : P x)
          on_goal 1 => clear_value x
          on_goal 2 => (unfold x; clear x))
       | clear_value x
       | skip)
    | with_reducible apply ite_keep
    | split
    | with_reducible apply updCol_keep (hP.mono (by decide))
    | with_reducible apply dropDeferred_keep (hP.mono (by decide))
    | with_reducible apply finishWhere_keep (hP.mono (by decide))
    | with_reducible apply tripChannel_keep (hP.mono (by decide))
    | with_reducible apply gateLow_keep (hP.mono (by decide))
    | with_reducible apply haltCap_keep (hP.mono (by decide))
    | with_reducible apply endInj_keep (hP.mono (by decide))
    | with_reducible apply each_keep

-- Collector

theorem dispatchC2_keep {P : State → Prop} (hP : Keeps [.regs, .chans, .terms, .gates, .motors, .rings, .svc, .col, .host] P) (r : Report) (s : State) (hst : P s) :
    P (dispatchC2 r s) := by
  unfold dispatchC2
  repeat' first
    | with_reducible assumption
    | (first | intro x | (lift_lets -underBinder; intro x)
       first
       | (with_reducible refine (fun hx => ?_) (?_ : P x)
          on_goal 1 => clear_value x
          on_goal 2 => (unfold x; clear x))
       | clear_value x
       | skip)
    | with_reducible apply ite_keep
    | split
    | with_reducible apply setChan_keep (hP.mono (by decide))
    | with_reducible apply updCol_keep (hP.mono (by decide))
    | with_reducible apply refreshGates_keep (hP.mono (by decide))
    | with_reducible apply stopChannel_keep (hP.mono (by decide))
    | with_reducible refine eq_keep (by assumption) ?_

theorem dispatchC3_keep {P : State → Prop} (hP : Keeps [.regs, .chans, .terms, .folds, .gates, .motors, .rings, .svc, .col, .host] P) (r : Report) (s : State) (hst : P s) :
    P (dispatchC3 r s) := by
  unfold dispatchC3
  repeat' first
    | with_reducible assumption
    | (first | intro x | (lift_lets -underBinder; intro x)
       first
       | (with_reducible refine (fun hx => ?_) (?_ : P x)
          on_goal 1 => clear_value x
          on_goal 2 => (unfold x; clear x))
       | clear_value x
       | skip)
    | with_reducible apply ite_keep
    | split
    | with_reducible apply updCol_keep (hP.mono (by decide))
    | with_reducible apply stopChannel_keep (hP.mono (by decide))
    | with_reducible apply markFold_keep (hP.mono (by decide))
    | with_reducible apply each_keep
    | with_reducible refine eq_keep (by assumption) ?_

theorem latchReport_keep {P : State → Prop} (hP : Keeps [.regs, .wide, .chans, .terms, .folds, .gates, .motors, .caps, .injs, .rings, .svc, .col, .tal, .host] P) (r : Report) (delayed : Bool) (now : Nat) (s : State) (hst : P s) :
    P (latchReport r delayed now s) := by
  unfold latchReport
  repeat' first
    | with_reducible assumption
    | (first | intro x | (lift_lets -underBinder; intro x)
       first
       | (with_reducible refine (fun hx => ?_) (?_ : P x)
          on_goal 1 => clear_value x
          on_goal 2 => (unfold x; clear x))
       | clear_value x
       | skip)
    | with_reducible apply ite_keep
    | split
    | with_reducible apply updCol_keep (hP.mono (by decide))
    | with_reducible apply moduleStop_keep (hP.mono (by decide))
    | with_reducible apply dispatchC2_keep (hP.mono (by decide))
    | with_reducible apply dispatchC3_keep (hP.mono (by decide))
    | with_reducible refine eq_keep (by assumption) ?_

theorem execErrorReport_keep {P : State → Prop} (hP : Keeps [.regs, .wide, .chans, .terms, .folds, .gates, .motors, .caps, .injs, .rings, .svc, .col, .tal, .host] P) (source : BitVec 8) (now : Nat) (s : State) (hst : P s) :
    AllNext P (execErrorReport source now s) := by
  unfold execErrorReport
  repeat' first
    | with_reducible assumption
    | (first | intro x | (lift_lets -underBinder; intro x)
       first
       | (with_reducible refine (fun hx => ?_) (?_ : P x)
          on_goal 1 => clear_value x
          on_goal 2 => (unfold x; clear x))
       | clear_value x
       | skip)
    | with_reducible apply ite_keep
    | split
    | with_reducible apply next_keep
    | with_reducible apply updCol_keep (hP.mono (by decide))
    | with_reducible apply latchReport_keep (hP.mono (by decide))
    | with_reducible refine eq_keep (by assumption) ?_

theorem execBrokenSourcePoll_keep {P : State → Prop} (hP : Keeps [.regs, .wide, .chans, .terms, .folds, .gates, .motors, .caps, .injs, .rings, .svc, .col, .tal, .host] P) (now : Nat) (s : State) (hst : P s) :
    AllNext P (execBrokenSourcePoll now s) := by
  unfold execBrokenSourcePoll
  repeat' first
    | with_reducible assumption
    | (first | intro x | (lift_lets -underBinder; intro x)
       first
       | (with_reducible refine (fun hx => ?_) (?_ : P x)
          on_goal 1 => clear_value x
          on_goal 2 => (unfold x; clear x))
       | clear_value x
       | skip)
    | with_reducible apply next_keep
    | with_reducible apply updCol_keep (hP.mono (by decide))
    | with_reducible apply latchReport_keep (hP.mono (by decide))
    | with_reducible apply forL_keep

theorem debugDone_keep {P : State → Prop} (hP : Keeps [.regs, .rings, .svc, .col, .sec, .host] P) (s : State) (hst : P s) :
    P (debugDone s) := by
  unfold debugDone
  repeat' first
    | with_reducible assumption
    | intro x
    | with_reducible apply ite_keep
    | split
    | exact FuseLe.same rfl rfl rfl
    | exact fun _ => FuseLe.same rfl rfl rfl
    | exact FuseLe.count rfl (Nat.le_succ _) rfl
    | with_reducible apply updSec_keep (hP.mono (by decide))
    | with_reducible apply finishWhere_keep (hP.mono (by decide))
    | with_reducible apply secEvent_keep (hP.mono (by decide))

theorem execFaultReactionApply_keep {P : State → Prop} (hP : Keeps [.regs, .chans, .terms, .gates, .motors, .rings, .svc, .col, .sec, .host] P) (ch : Fin 512) (s : State) (hst : P s) :
    AllNext P (execFaultReactionApply ch s) := by
  unfold execFaultReactionApply
  repeat' first
    | with_reducible assumption
    | (first | intro x | (lift_lets -underBinder; intro x)
       first
       | (with_reducible refine (fun hx => ?_) (?_ : P x)
          on_goal 1 => clear_value x
          on_goal 2 => (unfold x; clear x))
       | clear_value x
       | skip)
    | with_reducible apply next_keep
    | with_reducible apply updCol_keep (hP.mono (by decide))
    | with_reducible apply stopChannel_keep (hP.mono (by decide))
    | with_reducible apply debugDone_keep (hP.mono (by decide))
    | with_reducible apply forL_keep

theorem execHeldFaultTakeEffect_keep {P : State → Prop} (hP : Keeps [.regs, .chans, .terms, .gates, .motors, .rings, .svc, .col, .host] P) (ch : Fin 512) (s : State) (hst : P s) :
    AllNext P (execHeldFaultTakeEffect ch s) := by
  unfold execHeldFaultTakeEffect
  repeat' first
    | with_reducible assumption
    | (first | intro x | (lift_lets -underBinder; intro x)
       first
       | (with_reducible refine (fun hx => ?_) (?_ : P x)
          on_goal 1 => clear_value x
          on_goal 2 => (unfold x; clear x))
       | clear_value x
       | skip)
    | with_reducible apply ite_keep
    | split
    | with_reducible apply next_keep
    | with_reducible apply setChan_keep (hP.mono (by decide))
    | with_reducible apply refreshGates_keep (hP.mono (by decide))
    | with_reducible apply stopChannel_keep (hP.mono (by decide))
    | with_reducible apply forL_keep
    | with_reducible refine eq_keep (by assumption) ?_

theorem recordOne_keep {P : State → Prop} (hP : Keeps [.regs, .col, .tal, .host] P) (x : Stamped) (s : State) (hst : P s) :
    P (recordOne x s) := by
  unfold recordOne
  repeat' first
    | with_reducible assumption
    | (first | intro x | (lift_lets -underBinder; intro x)
       first
       | (with_reducible refine (fun hx => ?_) (?_ : P x)
          on_goal 1 => clear_value x
          on_goal 2 => (unfold x; clear x))
       | clear_value x
       | skip)
    | with_reducible apply ite_keep
    | split
    | with_reducible apply setRec_keep (hP.mono (by decide))
    | with_reducible apply bump_keep (hP.mono (by decide))
    | with_reducible apply talCheck_keep (hP.mono (by decide))
    | with_reducible apply setEvt_keep (hP.mono (by decide))
    | with_reducible refine eq_keep (by assumption) ?_

theorem execRecordWrite_keep {P : State → Prop} (hP : Keeps [.regs, .col, .tal, .host] P) (s : State) (hst : P s) :
    AllNext P (execRecordWrite s) := by
  unfold execRecordWrite
  repeat' first
    | with_reducible assumption
    | intro x
    | with_reducible apply ite_keep
    | split
    | with_reducible apply next_keep
    | with_reducible apply updCol_keep (hP.mono (by decide))
    | with_reducible apply recordOne_keep (hP.mono (by decide))
    | with_reducible refine eq_keep (by assumption) ?_

theorem execCauseConditionEnd_keep {P : State → Prop} (hP : Keeps [.col] P) (source : BitVec 8) (cause : BitVec 8) (okind : BitVec 2) (object : BitVec 11) (s : State) (hst : P s) :
    AllNext P (execCauseConditionEnd source cause okind object s) := by
  unfold execCauseConditionEnd
  repeat' first
    | with_reducible assumption
    | intro x
    | with_reducible apply next_keep
    | with_reducible apply condEnd_keep (hP.mono (by decide))

theorem execStationC4Received_keep {P : State → Prop} (hP : Keeps [.col, .stn] P) (id : BitVec 64) (place : Int) (s : State) (hst : P s) :
    AllNext P (execStationC4Received id place s) := by
  unfold execStationC4Received
  repeat' first
    | with_reducible assumption
    | (first | intro x | (lift_lets -underBinder; intro x)
       first
       | (with_reducible refine (fun hx => ?_) (?_ : P x)
          on_goal 1 => clear_value x
          on_goal 2 => (unfold x; clear x))
       | clear_value x
       | skip)
    | with_reducible apply ite_keep
    | split
    | with_reducible apply next_keep
    | with_reducible apply raiseOwn_keep (hP.mono (by decide))
    | with_reducible apply upd_stn (hP.mono (by decide))

theorem execFltRdWrite_keep {P : State → Prop} (hP : Keeps [.regs, .host] P) (v : W) (s : State) (hst : P s) :
    AllNext P (execFltRdWrite v s) := by
  unfold execFltRdWrite
  repeat' first
    | with_reducible assumption
    | with_reducible apply ite_keep
    | split
    | with_reducible apply next_keep
    | with_reducible apply setReg_keep (hP.mono (by decide))
    | with_reducible apply setEvt_keep (hP.mono (by decide))

theorem execRecordFreezeRead_keep {P : State → Prop} (hP : Keeps [.col, .host] P) (i : Fin 1024) (s : State) (hst : P s) :
    AllNext P (execRecordFreezeRead i s) := by
  unfold execRecordFreezeRead
  repeat' first
    | with_reducible assumption
    | (first | intro x | (lift_lets -underBinder; intro x)
       first
       | (with_reducible refine (fun hx => ?_) (?_ : P x)
          on_goal 1 => clear_value x
          on_goal 2 => (unfold x; clear x))
       | clear_value x
       | skip)
    | with_reducible apply ite_keep
    | split
    | with_reducible apply next_keep
    | with_reducible apply setRec_keep (hP.mono (by decide))
    | with_reducible apply upd_host (hP.mono (by decide))

-- Pens

theorem setRole_keep {P : State → Prop} (hP : Keeps [.regs] P) (t : Nat) (p : Nat) (r : Nat) (s : State) (hst : P s) :
    P (setRole t p r s) := by
  unfold setRole
  repeat' first
    | with_reducible assumption
    | with_reducible apply setField_keep (hP.mono (by decide))

theorem setSubst_keep {P : State → Prop} (hP : Keeps [.regs] P) (t : Nat) (v : Nat) (s : State) (hst : P s) :
    P (setSubst t v s) := by
  unfold setSubst
  repeat' first
    | with_reducible assumption
    | with_reducible apply setField_keep (hP.mono (by decide))

theorem segMove_keep {P : State → Prop} (hP : Keeps [.regs, .tal, .host] P) (t : Nat) (from_ : Nat) (to_ : Nat) (n : Nat) (s : State) (hst : P s) :
    P (segMove t from_ to_ n s) := by
  unfold segMove
  repeat' first
    | with_reducible assumption
    | (first | intro x | (lift_lets -underBinder; intro x)
       first
       | (with_reducible refine (fun hx => ?_) (?_ : P x)
          on_goal 1 => clear_value x
          on_goal 2 => (unfold x; clear x))
       | clear_value x
       | skip)
    | with_reducible apply updReg_keep (hP.mono (by decide))
    | with_reducible apply addReg_keep (hP.mono (by decide))
    | with_reducible apply talCheck_keep (hP.mono (by decide))

theorem movePen_keep {P : State → Prop} (hP : Keeps [.regs, .tal, .host] P) (t : Nat) (p : Nat) (r : Nat) (s : State) (hst : P s) :
    P (movePen t p r s) := by
  unfold movePen
  repeat' first
    | with_reducible assumption
    | (first | intro x | (lift_lets -underBinder; intro x)
       first
       | (with_reducible refine (fun hx => ?_) (?_ : P x)
          on_goal 1 => clear_value x
          on_goal 2 => (unfold x; clear x))
       | clear_value x
       | skip)
    | with_reducible apply ite_keep
    | split
    | with_reducible apply setRole_keep (hP.mono (by decide))
    | with_reducible apply segMove_keep (hP.mono (by decide))

theorem isolate_keep {P : State → Prop} (hP : Keeps [.regs, .tal, .host] P) (t : Nat) (p : Nat) (g : Nat) (s : State) (hst : P s) :
    P (isolate t p g s) := by
  unfold isolate
  repeat' first
    | with_reducible assumption
    | (first | intro x | (lift_lets -underBinder; intro x)
       first
       | (with_reducible refine (fun hx => ?_) (?_ : P x)
          on_goal 1 => clear_value x
          on_goal 2 => (unfold x; clear x))
       | clear_value x
       | skip)
    | with_reducible apply ite_keep
    | split
    | with_reducible apply updReg_keep (hP.mono (by decide))
    | with_reducible apply bump_keep (hP.mono (by decide))
    | with_reducible apply segMove_keep (hP.mono (by decide))

theorem isolateAll_keep {P : State → Prop} (hP : Keeps [.regs, .col, .tal, .host] P) (t : Nat) (l : List (Nat × Nat)) (s : State) (hst : P s) :
    P (isolateAll t l s) := by
  unfold isolateAll
  repeat' first
    | with_reducible assumption
    | (first | intro x | (lift_lets -underBinder; intro x)
       first
       | (with_reducible refine (fun hx => ?_) (?_ : P x)
          on_goal 1 => clear_value x
          on_goal 2 => (unfold x; clear x))
       | clear_value x
       | skip)
    | with_reducible apply ite_keep
    | split
    | with_reducible apply foldEvent_keep (hP.mono (by decide))
    | with_reducible apply isolate_keep (hP.mono (by decide))
    | with_reducible apply forL_keep

theorem nsegRecompute_keep {P : State → Prop} (hP : Keeps [.regs, .col, .host] P) (t : Nat) (s : State) (hst : P s) :
    P (nsegRecompute t s) := by
  unfold nsegRecompute
  repeat' first
    | with_reducible assumption
    | (first | intro x | (lift_lets -underBinder; intro x)
       first
       | (with_reducible refine (fun hx => ?_) (?_ : P x)
          on_goal 1 => clear_value x
          on_goal 2 => (unfold x; clear x))
       | clear_value x
       | skip)
    | with_reducible apply ite_keep
    | split
    | with_reducible apply setField_keep (hP.mono (by decide))
    | with_reducible apply setReg_keep (hP.mono (by decide))
    | with_reducible apply foldEvent_keep (hP.mono (by decide))
    | with_reducible apply holdLive_keep (hP.mono (by decide))
    | with_reducible apply liveEnd_keep (hP.mono (by decide))
    | with_reducible refine eq_keep (by assumption) ?_

theorem choosePen_keep {P : State → Prop} (hP : Keeps [.regs, .terms, .col, .tal, .host] P) (t : Nat) (wanted : Nat) (s : State) (hst : P s) :
    P (choosePen t wanted s) := by
  unfold choosePen
  repeat' first
    | with_reducible assumption
    | (first | intro x | (lift_lets -underBinder; intro x)
       first
       | (with_reducible refine (fun hx => ?_) (?_ : P x)
          on_goal 1 => clear_value x
          on_goal 2 => (unfold x; clear x))
       | (with_reducible refine (fun hfun => ?_) (?_ : ∀ a, P a → P (x a))
          on_goal 1 => clear_value x
          on_goal 2 => (unfold x; clear x))
       | (with_reducible refine (fun hfun => ?_) (?_ : ∀ a b, P b → P (x a b))
          on_goal 1 => clear_value x
          on_goal 2 => (unfold x; clear x))
       | (with_reducible refine (fun hfun => ?_) (?_ : ∀ a b c, P c → P (x a b c))
          on_goal 1 => clear_value x
          on_goal 2 => (unfold x; clear x))
       | (with_reducible refine (fun hfun => ?_) (?_ : ∀ a b c d, P d → P (x a b c d))
          on_goal 1 => clear_value x
          on_goal 2 => (unfold x; clear x))
       | (with_reducible refine (fun hx => ?_) (?_ : P x.2)
          on_goal 1 => clear_value x
          on_goal 2 => (unfold x; clear x))
       | (with_reducible refine (fun hfun => ?_) (?_ : ∀ a, P (x a))
          on_goal 1 => clear_value x
          on_goal 2 => (unfold x; clear x))
       | (with_reducible refine (fun hfun => ?_) (?_ : ∀ a b c, P (x a b c))
          on_goal 1 => clear_value x
          on_goal 2 => (unfold x; clear x))
       | clear_value x
       | skip)
    | with_reducible apply hfun
    | with_reducible apply ite_keep
    | split
    | exact ⟨fun h1 h2 => ⟨h1, h2⟩⟩
    | with_reducible apply setField_keep (hP.mono (by decide))
    | with_reducible apply updTerm_keep (hP.mono (by decide))
    | with_reducible apply foldEvent_keep (hP.mono (by decide))
    | with_reducible apply setSubst_keep (hP.mono (by decide))
    | with_reducible apply movePen_keep (hP.mono (by decide))
    | with_reducible refine eq_keep (by assumption) ?_

theorem retirePending_keep {P : State → Prop} (hP : Keeps [.regs, .terms, .col, .tal, .host] P) (t : Nat) (at_ : Nat) (s : State) (hst : P s) :
    P (retirePending t at_ s) := by
  unfold retirePending
  repeat' first
    | with_reducible assumption
    | intro x
    | with_reducible apply ite_keep
    | split
    | exact ⟨fun h1 h2 => ⟨h1, h2⟩⟩
    | with_reducible apply updTerm_keep (hP.mono (by decide))
    | with_reducible apply nsegRecompute_keep (hP.mono (by decide))
    | with_reducible apply movePen_keep (hP.mono (by decide))
    | with_reducible apply each_keep
    | with_reducible refine eq_keep (by assumption) ?_

theorem nextSubst_keep {P : State → Prop} (hP : Keeps [.regs, .terms, .col, .tal, .host] P) (t : Nat) (s : State) (hst : P s) :
    P (nextSubst t s) := by
  unfold nextSubst
  repeat' first
    | with_reducible assumption
    | intro x
    | with_reducible apply ite_keep
    | split
    | with_reducible apply choosePen_keep (hP.mono (by decide))
    | with_reducible refine eq_keep (by assumption) ?_

theorem substAll_keep {P : State → Prop} (hP : Keeps [.regs, .terms, .col, .tal, .host] P) (t : Nat) (s : State) (hst : P s) :
    P (substAll t s) := by
  unfold substAll
  repeat' first
    | with_reducible assumption
    | intro x
    | with_reducible apply nextSubst_keep (hP.mono (by decide))
    | with_reducible apply each_keep

theorem formLeads_keep {P : State → Prop} (hP : Keeps [.terms] P) (t : Nat) (slew : Nat) (s : State) (hst : P s) :
    P (formLeads t slew s) := by
  unfold formLeads
  repeat' first
    | with_reducible assumption
    | intro x
    | with_reducible apply ite_keep
    | split
    | exact ⟨fun h1 h2 => ⟨h1, h2⟩⟩
    | with_reducible apply updTerm_keep (hP.mono (by decide))

theorem leadIncoming_keep {P : State → Prop} (hP : Keeps [.terms] P) (t : Nat) (s : State) (hst : P s) :
    P (leadIncoming t s) := by
  unfold leadIncoming
  repeat' first
    | with_reducible assumption
    | intro x
    | with_reducible apply ite_keep
    | split
    | exact ⟨fun h1 h2 => ⟨h1, h2⟩⟩
    | with_reducible apply updTerm_keep (hP.mono (by decide))

-- Modulator

theorem applyCommand_keep {P : State → Prop} (hP : Keeps [.chans] P) (ch : Nat) (late : Bool) (s : State) (hst : P s) :
    P (applyCommand ch late s) := by
  unfold applyCommand
  repeat' first
    | with_reducible assumption
    | (first | intro x | (lift_lets -underBinder; intro x)
       first
       | (with_reducible refine (fun hx => ?_) (?_ : P x)
          on_goal 1 => clear_value x
          on_goal 2 => (unfold x; clear x))
       | clear_value x
       | skip)
    | with_reducible apply ite_keep
    | split
    | with_reducible apply updChan_keep (hP.mono (by decide))
    | with_reducible refine eq_keep (by assumption) ?_

theorem driveLeg_keep {P : State → Prop} (hP : Keeps [.regs, .terms, .col, .host] P) (t : Nat) (start : Nat) (d : Drive) (own : Bool) (row : Nat) (s : State) (hst : P s) :
    P (driveLeg t start d own row s) := by
  unfold driveLeg
  repeat' first
    | with_reducible assumption
    | (first | intro x | (lift_lets -underBinder; intro x)
       first
       | (with_reducible refine (fun hx => ?_) (?_ : P x)
          on_goal 1 => clear_value x
          on_goal 2 => (unfold x; clear x))
       | clear_value x
       | skip)
    | with_reducible apply ite_keep
    | split
    | exact ⟨fun h1 h2 => ⟨h1, h2⟩⟩
    | with_reducible apply updTerm_keep (hP.mono (by decide))
    | with_reducible apply bump_keep (hP.mono (by decide))
    | with_reducible apply modEvent_keep (hP.mono (by decide))
    | with_reducible apply setDrive_keep (hP.mono (by decide))

theorem holdLeg_keep {P : State → Prop} (hP : Keeps [.terms] P) (t : Nat) (start : Nat) (d : Drive) (s : State) (hst : P s) :
    P (holdLeg t start d s) := by
  unfold holdLeg
  repeat' first
    | with_reducible assumption
    | intro x
    | exact ⟨fun h1 h2 => ⟨h1, h2⟩⟩
    | with_reducible apply updTerm_keep (hP.mono (by decide))
    | with_reducible apply setDrive_keep (hP.mono (by decide))

theorem compareParity_keep {P : State → Prop} (hP : Keeps [.regs, .terms, .col, .host] P) (t : Nat) (fail : Bool) (s : State) (hst : P s) :
    P (compareParity t fail s) := by
  unfold compareParity
  repeat' first
    | with_reducible assumption
    | (first | intro x | (lift_lets -underBinder; intro x)
       first
       | (with_reducible refine (fun hx => ?_) (?_ : P x)
          on_goal 1 => clear_value x
          on_goal 2 => (unfold x; clear x))
       | clear_value x
       | skip)
    | with_reducible apply ite_keep
    | split
    | exact ⟨fun h1 h2 => ⟨h1, h2⟩⟩
    | with_reducible apply updTerm_keep (hP.mono (by decide))
    | with_reducible apply bump_keep (hP.mono (by decide))
    | with_reducible apply raise_keep (hP.mono (by decide))

theorem openPeriod_keep {P : State → Prop} (hP : Keeps [.terms] P) (t : Nat) (q : Period) (s : State) (hst : P s) :
    P (openPeriod t q s) := by
  unfold openPeriod
  repeat' first
    | with_reducible assumption
    | intro x
    | exact ⟨fun h1 h2 => ⟨h1, h2⟩⟩
    | with_reducible apply updTerm_keep (hP.mono (by decide))

theorem ownLeg_keep {P : State → Prop} (hP : Keeps [.regs, .wide, .terms, .col, .tal, .host] P) (ch : Nat) (t : Nat) (start : Nat) (p : Nat) (num : Nat) (den : Nat) (fail : Bool) (s : State) (hst : P s) :
    P (ownLeg ch t start p num den fail s) := by
  unfold ownLeg
  repeat' first
    | with_reducible assumption
    | (first | intro x | (lift_lets -underBinder; intro x)
       first
       | (with_reducible refine (fun hx => ?_) (?_ : P x)
          on_goal 1 => clear_value x
          on_goal 2 => (unfold x; clear x))
       | clear_value x
       | skip)
    | with_reducible apply ite_keep
    | split
    | with_reducible apply compareParity_keep (hP.mono (by decide))
    | with_reducible apply dropResidue_keep (hP.mono (by decide))
    | with_reducible apply openPeriod_keep (hP.mono (by decide))
    | with_reducible apply driveLeg_keep (hP.mono (by decide))
    | with_reducible apply holdLeg_keep (hP.mono (by decide))
    | with_reducible refine eq_keep (by assumption) ?_

theorem bridgeLegs_keep {P : State → Prop} (hP : Keeps [.regs, .wide, .terms, .col, .tal, .host] P) (ch : Nat) (start : Nat) (p : Nat) (c : Int) (fail : Nat) (s : State) (hst : P s) :
    P (bridgeLegs ch start p c fail s) := by
  unfold bridgeLegs
  repeat' first
    | with_reducible assumption
    | (first | intro x | (lift_lets -underBinder; intro x)
       first
       | (with_reducible refine (fun hx => ?_) (?_ : P x)
          on_goal 1 => clear_value x
          on_goal 2 => (unfold x; clear x))
       | clear_value x
       | skip)
    | with_reducible apply ite_keep
    | split
    | with_reducible apply compareParity_keep (hP.mono (by decide))
    | with_reducible apply dropResidue_keep (hP.mono (by decide))
    | with_reducible apply openPeriod_keep (hP.mono (by decide))
    | with_reducible apply driveLeg_keep (hP.mono (by decide))
    | with_reducible apply holdLeg_keep (hP.mono (by decide))
    | with_reducible refine eq_keep (by assumption) ?_

theorem sixStepLegs_keep {P : State → Prop} (hP : Keeps [.regs, .wide, .terms, .col, .tal, .host] P) (ch : Nat) (start : Nat) (p : Nat) (c : Int) (fail : Nat) (s : State) (hst : P s) :
    P (sixStepLegs ch start p c fail s) := by
  unfold sixStepLegs
  repeat' first
    | with_reducible assumption
    | (first | intro x | (lift_lets -underBinder; intro x)
       first
       | (with_reducible refine (fun hx => ?_) (?_ : P x)
          on_goal 1 => clear_value x
          on_goal 2 => (unfold x; clear x))
       | clear_value x
       | skip)
    | with_reducible apply ite_keep
    | split
    | with_reducible apply compareParity_keep (hP.mono (by decide))
    | with_reducible apply dropResidue_keep (hP.mono (by decide))
    | with_reducible apply openPeriod_keep (hP.mono (by decide))
    | with_reducible apply driveLeg_keep (hP.mono (by decide))
    | with_reducible apply holdLeg_keep (hP.mono (by decide))
    | with_reducible apply each_keep
    | with_reducible refine eq_keep (by assumption) ?_

theorem showPeriod_keep {P : State → Prop} (hP : Keeps [.regs] P) (t : Nat) (p : Nat) (s : State) (hst : P s) :
    P (showPeriod t p s) := by
  unfold showPeriod
  repeat' first
    | with_reducible assumption
    | (first | intro x | (lift_lets -underBinder; intro x)
       first
       | (with_reducible refine (fun hx => ?_) (?_ : P x)
          on_goal 1 => clear_value x
          on_goal 2 => (unfold x; clear x))
       | clear_value x
       | skip)
    | with_reducible apply ite_keep
    | split
    | with_reducible apply setField_keep (hP.mono (by decide))
    | with_reducible apply setReg_keep (hP.mono (by decide))
    | with_reducible refine eq_keep (by assumption) ?_

theorem countPeriod_keep {P : State → Prop} (hP : Keeps [.terms] P) (t : Nat) (s : State) (hst : P s) :
    P (countPeriod t s) := by
  unfold countPeriod
  repeat' first
    | with_reducible assumption
    | intro x
    | exact ⟨fun h1 h2 => ⟨h1, h2⟩⟩
    | with_reducible apply updTerm_keep (hP.mono (by decide))

theorem rejectRun_keep {P : State → Prop} (hP : Keeps [.regs] P) (ch : Nat) (s : State) (hst : P s) :
    P (rejectRun ch s) := by
  unfold rejectRun
  repeat' first
    | with_reducible assumption
    | with_reducible apply bump_keep (hP.mono (by decide))

theorem motorSample_keep {P : State → Prop} (hP : Keeps [.regs, .motors] P) (ch : Nat) (i : Nat) (x : FloatIn) (s : State) (hst : P s) :
    P (motorSample ch i x s) := by
  unfold motorSample
  repeat' first
    | with_reducible assumption
    | (first | intro x | (lift_lets -underBinder; intro x)
       first
       | (with_reducible refine (fun hx => ?_) (?_ : P x)
          on_goal 1 => clear_value x
          on_goal 2 => (unfold x; clear x))
       | clear_value x
       | skip)
    | with_reducible apply ite_keep
    | split
    | with_reducible apply setMotor_keep (hP.mono (by decide))
    | with_reducible apply bump_keep (hP.mono (by decide))
    | with_reducible apply rejectRun_keep (hP.mono (by decide))
    | with_reducible refine eq_keep (by assumption) ?_

theorem takeSample_keep {P : State → Prop} (hP : Keeps [.regs, .motors] P) (ch : Nat) (x : Option FloatIn) (s : State) (hst : P s) :
    P (takeSample ch x s) := by
  unfold takeSample
  repeat' first
    | with_reducible assumption
    | intro x
    | with_reducible apply ite_keep
    | split
    | with_reducible apply updMotor_keep (hP.mono (by decide))
    | with_reducible apply motorSample_keep (hP.mono (by decide))
    | with_reducible refine eq_keep (by assumption) ?_

theorem nextSample_keep {P : State → Prop} (hP : Keeps [.motors] P) (ch : Nat) (s : State) (hst : P s) :
    P (nextSample ch s) := by
  unfold nextSample
  repeat' first
    | with_reducible assumption
    | intro x
    | with_reducible apply ite_keep
    | split
    | with_reducible apply updMotor_keep (hP.mono (by decide))
    | with_reducible refine eq_keep (by assumption) ?_

theorem senseLegs_keep {P : State → Prop} (hP : Keeps [.regs] P) (terms : List Nat) (legs : List LegIn) (s : State) (hst : P s) :
    P (senseLegs terms legs s) := by
  unfold senseLegs
  repeat' first
    | with_reducible assumption
    | intro x
    | with_reducible apply ite_keep
    | split
    | with_reducible apply setReg_keep (hP.mono (by decide))
    | with_reducible apply each_keep
    | with_reducible refine eq_keep (by assumption) ?_

theorem coilSample_keep {P : State → Prop} (hP : Keeps [.chans] P) (ch : Nat) (n : Nat) (s : State) (hst : P s) :
    P (coilSample ch n s) := by
  unfold coilSample
  repeat' first
    | with_reducible assumption
    | (first | intro x | (lift_lets -underBinder; intro x)
       first
       | (with_reducible refine (fun hx => ?_) (?_ : P x)
          on_goal 1 => clear_value x
          on_goal 2 => (unfold x; clear x))
       | clear_value x
       | skip)
    | with_reducible apply ite_keep
    | split
    | with_reducible apply updChan_keep (hP.mono (by decide))

theorem toneSample_keep {P : State → Prop} (hP : Keeps [.chans] P) (ch : Nat) (n : Nat) (s : State) (hst : P s) :
    P (toneSample ch n s) := by
  unfold toneSample
  repeat' first
    | with_reducible assumption
    | (first | intro x | (lift_lets -underBinder; intro x)
       first
       | (with_reducible refine (fun hx => ?_) (?_ : P x)
          on_goal 1 => clear_value x
          on_goal 2 => (unfold x; clear x))
       | clear_value x
       | skip)
    | with_reducible apply ite_keep
    | split
    | with_reducible apply setChan_keep (hP.mono (by decide))

theorem idleBoundary_keep {P : State → Prop} (hP : Keeps [.regs, .terms, .col, .tal, .host] P) (k : Nat) (now : Nat) (legs : List LegIn) (s : State) (hst : P s) :
    P (idleBoundary k now legs s) := by
  unfold idleBoundary
  repeat' first
    | with_reducible assumption
    | (first | intro x | (lift_lets -underBinder; intro x)
       first
       | (with_reducible refine (fun hx => ?_) (?_ : P x)
          on_goal 1 => clear_value x
          on_goal 2 => (unfold x; clear x))
       | clear_value x
       | skip)
    | with_reducible apply retirePending_keep (hP.mono (by decide))
    | with_reducible apply senseLegs_keep (hP.mono (by decide))
    | with_reducible apply each_keep

theorem carrierBoundary_keep {P : State → Prop} (hP : Keeps [.regs, .wide, .chans, .terms, .trips, .motors, .col, .tal, .host] P) (ch : Nat) (n : Nat) (late : Bool) (fail : Nat) (sample : Option FloatIn) (legs : List LegIn) (s : State) (hst : P s) :
    P (carrierBoundary ch n late fail sample legs s) := by
  unfold carrierBoundary
  repeat' first
    | with_reducible assumption
    | (first | intro x | (lift_lets -underBinder; intro x)
       first
       | (with_reducible refine (fun hx => ?_) (?_ : P x)
          on_goal 1 => clear_value x
          on_goal 2 => (unfold x; clear x))
       | clear_value x
       | skip)
    | with_reducible apply ite_keep
    | split
    | with_reducible apply setField_keep (hP.mono (by decide))
    | with_reducible apply updChan_keep (hP.mono (by decide))
    | with_reducible apply retirePending_keep (hP.mono (by decide))
    | with_reducible apply applyCommand_keep (hP.mono (by decide))
    | with_reducible apply closePeriod_keep (hP.mono (by decide))
    | with_reducible apply dropResidue_keep (hP.mono (by decide))
    | with_reducible apply missedEdges_keep (hP.mono (by decide))
    | with_reducible apply sixStepLegs_keep (hP.mono (by decide))
    | with_reducible apply countPeriod_keep (hP.mono (by decide))
    | with_reducible apply bridgeLegs_keep (hP.mono (by decide))
    | with_reducible apply showPeriod_keep (hP.mono (by decide))
    | with_reducible apply takeSample_keep (hP.mono (by decide))
    | with_reducible apply nextSample_keep (hP.mono (by decide))
    | with_reducible apply coilSample_keep (hP.mono (by decide))
    | with_reducible apply toneSample_keep (hP.mono (by decide))
    | with_reducible apply clearDone_keep (hP.mono (by decide))
    | with_reducible apply formLeads_keep (hP.mono (by decide))
    | with_reducible apply senseLegs_keep (hP.mono (by decide))
    | with_reducible apply holdLeg_keep (hP.mono (by decide))
    | with_reducible apply ownLeg_keep (hP.mono (by decide))
    | with_reducible apply each_keep
    | with_reducible refine eq_keep (by assumption) ?_

theorem execCarrierBoundary_keep {P : State → Prop} (hP : Keeps [.regs, .wide, .chans, .terms, .trips, .motors, .col, .tal, .host] P) (at_ : CarrierAt) (late : Bool) (fail : BitVec 3) (sample : Option FloatIn) (legs : List LegIn) (s : State) (hst : P s) :
    AllNext P (execCarrierBoundary at_ late fail sample legs s) := by
  unfold execCarrierBoundary
  repeat' first
    | with_reducible assumption
    | with_reducible apply ite_keep
    | split
    | with_reducible apply next_keep
    | with_reducible apply carrierBoundary_keep (hP.mono (by decide))
    | with_reducible apply idleBoundary_keep (hP.mono (by decide))
    | with_reducible refine eq_keep (by assumption) ?_

theorem stIgnored_keep {P : State → Prop} (hP : Keeps [.regs, .col, .host] P) (t : Nat) (reg : Nat) (s : State) (hst : P s) :
    P (stIgnored t reg s) := by
  unfold stIgnored
  repeat' first
    | with_reducible assumption
    | with_reducible apply ite_keep
    | split
    | with_reducible apply foldEvent_keep (hP.mono (by decide))
    | with_reducible apply modEvent_keep (hP.mono (by decide))

theorem execStFieldWrite_keep {P : State → Prop} (hP : Keeps [.regs, .chans, .col, .host] P) (t : Fin 512) (reg : Fin 3) (v : W) (s : State) (hst : P s) :
    AllNext P (execStFieldWrite t reg v s) := by
  unfold execStFieldWrite
  repeat' first
    | with_reducible assumption
    | (first | intro x | (lift_lets -underBinder; intro x)
       first
       | (with_reducible refine (fun hx => ?_) (?_ : P x)
          on_goal 1 => clear_value x
          on_goal 2 => (unfold x; clear x))
       | clear_value x
       | skip)
    | with_reducible apply ite_keep
    | split
    | with_reducible apply next_keep
    | with_reducible apply setChan_keep (hP.mono (by decide))
    | with_reducible apply stIgnored_keep (hP.mono (by decide))
    | with_reducible refine eq_keep (by assumption) ?_

theorem execCommitApply_keep {P : State → Prop} (hP : Keeps [.regs, .wide, .chans, .terms, .gates, .motors, .rings, .svc, .tal, .host] P) (ch : Fin 512) (sample : Option FloatIn) (s : State) (hst : P s) :
    AllNext P (execCommitApply ch sample s) := by
  unfold execCommitApply
  repeat' first
    | with_reducible assumption
    | (first | intro x | (lift_lets -underBinder; intro x)
       first
       | (with_reducible refine (fun hx => ?_) (?_ : P x)
          on_goal 1 => clear_value x
          on_goal 2 => (unfold x; clear x))
       | clear_value x
       | skip)
    | with_reducible apply ite_keep
    | split
    | with_reducible apply next_keep
    | with_reducible apply updChan_keep (hP.mono (by decide))
    | with_reducible apply refreshGates_keep (hP.mono (by decide))
    | with_reducible apply closePeriod_keep (hP.mono (by decide))
    | with_reducible apply dropResidue_keep (hP.mono (by decide))
    | with_reducible apply showPeriod_keep (hP.mono (by decide))
    | with_reducible apply takeSample_keep (hP.mono (by decide))
    | with_reducible apply finishObj_keep (hP.mono (by decide))
    | with_reducible apply motorIdle_keep (hP.mono (by decide))
    | with_reducible apply each_keep
    | with_reducible refine eq_keep (by assumption) ?_

theorem execCrookWrite_keep {P : State → Prop} (hP : Keeps [.regs, .terms, .col, .host] P) (t : Fin 512) (v : W) (s : State) (hst : P s) :
    AllNext P (execCrookWrite t v s) := by
  unfold execCrookWrite
  repeat' first
    | with_reducible assumption
    | (first | intro x | (lift_lets -underBinder; intro x)
       first
       | (with_reducible refine (fun hx => ?_) (?_ : P x)
          on_goal 1 => clear_value x
          on_goal 2 => (unfold x; clear x))
       | clear_value x
       | skip)
    | with_reducible apply ite_keep
    | split
    | exact ⟨fun h1 h2 => ⟨h1, h2⟩⟩
    | with_reducible apply next_keep
    | with_reducible apply updTerm_keep (hP.mono (by decide))
    | with_reducible apply modEvent_keep (hP.mono (by decide))

theorem execChanDelOpen_keep {P : State → Prop} (hP : Keeps [.regs, .wide, .outs, .chans, .terms, .tal, .host] P) (ch : Fin 512) (now : Nat) (s : State) (hst : P s) :
    AllNext P (execChanDelOpen ch now s) := by
  unfold execChanDelOpen
  repeat' first
    | with_reducible assumption
    | (first | intro x | (lift_lets -underBinder; intro x)
       first
       | (with_reducible refine (fun hx => ?_) (?_ : P x)
          on_goal 1 => clear_value x
          on_goal 2 => (unfold x; clear x))
       | (with_reducible refine (fun hfun => ?_) (?_ : ∀ a, P a → P (x a))
          on_goal 1 => clear_value x
          on_goal 2 => (unfold x; clear x))
       | (with_reducible refine (fun hfun => ?_) (?_ : ∀ a b, P b → P (x a b))
          on_goal 1 => clear_value x
          on_goal 2 => (unfold x; clear x))
       | (with_reducible refine (fun hfun => ?_) (?_ : ∀ a b c, P c → P (x a b c))
          on_goal 1 => clear_value x
          on_goal 2 => (unfold x; clear x))
       | (with_reducible refine (fun hfun => ?_) (?_ : ∀ a b c d, P d → P (x a b c d))
          on_goal 1 => clear_value x
          on_goal 2 => (unfold x; clear x))
       | (with_reducible refine (fun hx => ?_) (?_ : P x.2)
          on_goal 1 => clear_value x
          on_goal 2 => (unfold x; clear x))
       | (with_reducible refine (fun hfun => ?_) (?_ : ∀ a, P (x a))
          on_goal 1 => clear_value x
          on_goal 2 => (unfold x; clear x))
       | (with_reducible refine (fun hfun => ?_) (?_ : ∀ a b c, P (x a b c))
          on_goal 1 => clear_value x
          on_goal 2 => (unfold x; clear x))
       | clear_value x
       | skip)
    | with_reducible apply hfun
    | with_reducible apply ite_keep
    | split
    | exact ⟨fun h1 h2 => ⟨h1, h2⟩⟩
    | with_reducible apply next_keep
    | with_reducible apply setField_keep (hP.mono (by decide))
    | with_reducible apply updTerm_keep (hP.mono (by decide))
    | with_reducible apply setChan_keep (hP.mono (by decide))
    | with_reducible apply setOut_keep (hP.mono (by decide))
    | with_reducible apply closePeriod_keep (hP.mono (by decide))
    | with_reducible apply dropResidue_keep (hP.mono (by decide))
    | with_reducible apply setDrive_keep (hP.mono (by decide))
    | with_reducible apply each_keep

theorem execIntegrityEscalation_keep {P : State → Prop} (hP : Keeps [.regs, .chans, .terms, .col, .host] P) (kind : Fin 4) (i : Fin 512) (s : State) (hst : P s) :
    AllNext P (execIntegrityEscalation kind i s) := by
  unfold execIntegrityEscalation
  repeat' first
    | with_reducible assumption
    | (first | intro x | (lift_lets -underBinder; intro x)
       first
       | (with_reducible refine (fun hx => ?_) (?_ : P x)
          on_goal 1 => clear_value x
          on_goal 2 => (unfold x; clear x))
       | (with_reducible refine (fun hfun => ?_) (?_ : ∀ a, P a → P (x a))
          on_goal 1 => clear_value x
          on_goal 2 => (unfold x; clear x))
       | (with_reducible refine (fun hfun => ?_) (?_ : ∀ a b, P b → P (x a b))
          on_goal 1 => clear_value x
          on_goal 2 => (unfold x; clear x))
       | (with_reducible refine (fun hfun => ?_) (?_ : ∀ a b c, P c → P (x a b c))
          on_goal 1 => clear_value x
          on_goal 2 => (unfold x; clear x))
       | (with_reducible refine (fun hfun => ?_) (?_ : ∀ a b c d, P d → P (x a b c d))
          on_goal 1 => clear_value x
          on_goal 2 => (unfold x; clear x))
       | (with_reducible refine (fun hx => ?_) (?_ : P x.2)
          on_goal 1 => clear_value x
          on_goal 2 => (unfold x; clear x))
       | (with_reducible refine (fun hfun => ?_) (?_ : ∀ a, P (x a))
          on_goal 1 => clear_value x
          on_goal 2 => (unfold x; clear x))
       | (with_reducible refine (fun hfun => ?_) (?_ : ∀ a b c, P (x a b c))
          on_goal 1 => clear_value x
          on_goal 2 => (unfold x; clear x))
       | clear_value x
       | skip)
    | with_reducible apply hfun
    | with_reducible apply ite_keep
    | split
    | exact ⟨fun h1 h2 => ⟨h1, h2⟩⟩
    | with_reducible apply next_keep
    | with_reducible apply updTerm_keep (hP.mono (by decide))
    | with_reducible apply setChan_keep (hP.mono (by decide))
    | with_reducible apply raise_keep (hP.mono (by decide))
    | with_reducible refine eq_keep (by assumption) ?_

-- Power

theorem desaturate_keep {P : State → Prop} (hP : Keeps [.regs, .terms, .col, .host] P) (t : Nat) (p : Nat) (g : Nat) (s : State) (hst : P s) :
    P (desaturate t p g s) := by
  unfold desaturate
  repeat' first
    | with_reducible assumption
    | (first | intro x | (lift_lets -underBinder; intro x)
       first
       | (with_reducible refine (fun hx => ?_) (?_ : P x)
          on_goal 1 => clear_value x
          on_goal 2 => (unfold x; clear x))
       | clear_value x
       | skip)
    | with_reducible apply ite_keep
    | split
    | exact ⟨fun h1 h2 => ⟨h1, h2⟩⟩
    | with_reducible apply updTerm_keep (hP.mono (by decide))
    | with_reducible apply bump_keep (hP.mono (by decide))
    | with_reducible apply foldEvent_keep (hP.mono (by decide))

/-- An edge turns a side on only where both are off. -/
theorem clear_edge (x y : Term) (ev : Fin 4) (h : x.clear ev.val = true) (h1 : y.hi = (x.switch ev.val).hi)
    (h2 : y.lo = (x.switch ev.val).lo) : LegLe x y := by
  constructor
  rw [h1, h2]
  fin_cases ev <;> simp_all [Term.clear, Term.switch]

/-- The trailing pens' edges leave the lead pens' sides as they are. -/
theorem trail_sides (x : Term) (ev : Nat) : LegLe x (x.trail ev) := by
  constructor
  unfold Term.trail
  intro h1 h2
  split at h1 <;> split at h2 <;> (try split at h1) <;> (try split at h2) <;> simp_all

theorem execGateEvent_keep {P : State → Prop} (hP : Keeps [.regs, .wide, .terms, .col, .tal, .host] P) (t : Fin 512) (ev : Fin 4) (at_ : Nat) (trail : Bool)
    (fails : List (Fin 16 × Fin 16)) (s : State) (hst : P s) : AllNext P (execGateEvent t ev at_ trail fails s) := by
  unfold execGateEvent
  dsimp only
  have hg : ∀ a, P a → P (forL fails (fun f s => desaturate t.val f.1.val f.2.val s) a) := fun _ ha =>
    forL_keep _ _ (fun _ _ hb => desaturate_keep (hP.mono (by decide)) _ _ _ _ hb) ha
  split
  · exact next_keep hst
  · split
    · exact next_keep (hg _ (setTerm_keep (hP.mono (by decide)) _ _ (trail_sides _ _) hst))
    · split
      · exact next_keep (readbackMiss_keep (hP.mono (by decide)) _ _ hst)
      · split
        · exact next_keep (readbackMiss_keep (hP.mono (by decide)) _ _ hst)
        · rename_i hc
          refine next_keep (hg _ ?_)
          have h := fun y h1 h2 => setTerm_keep (hP.mono (by decide)) t.val y (clear_edge (s.term t.val) y ev (by simpa using hc) h1 h2) hst
          split
          · exact h _ rfl rfl
          · exact edgeMiss_keep (hP.mono (by decide)) _ _ _ (h _ rfl rfl)

theorem execDesaturation_keep {P : State → Prop} (hP : Keeps [.regs, .terms, .col, .host] P) (t : Fin 512) (p : Fin 16) (g : Fin 16) (s : State) (hst : P s) :
    AllNext P (execDesaturation t p g s) := by
  unfold execDesaturation
  repeat' first
    | with_reducible assumption
    | with_reducible apply next_keep
    | with_reducible apply desaturate_keep (hP.mono (by decide))

theorem overcurrent_keep {P : State → Prop} (hP : Keeps [.regs, .wide, .chans, .terms, .gates, .motors, .rings, .svc, .col, .tal, .host] P) (t : Nat) (now : Nat) (live : Bool) (s : State) (hst : P s) :
    P (overcurrent t now live s) := by
  unfold overcurrent
  repeat' first
    | with_reducible assumption
    | (first | intro x | (lift_lets -underBinder; intro x)
       first
       | (with_reducible refine (fun hx => ?_) (?_ : P x)
          on_goal 1 => clear_value x
          on_goal 2 => (unfold x; clear x))
       | clear_value x
       | skip)
    | with_reducible apply ite_keep
    | split
    | with_reducible apply tripChannel_keep (hP.mono (by decide))
    | with_reducible apply bump_keep (hP.mono (by decide))
    | with_reducible apply holdLive_keep (hP.mono (by decide))
    | with_reducible apply raise_keep (hP.mono (by decide))
    | with_reducible refine eq_keep (by assumption) ?_

theorem execTimerWindowOpen_keep {P : State → Prop} (hP : Keeps [.timers, .trips] P) (i : Fin 512) (now : Nat) (s : State) (hst : P s) :
    AllNext P (execTimerWindowOpen i now s) := by
  unfold execTimerWindowOpen
  repeat' first
    | with_reducible assumption
    | (first | intro x | (lift_lets -underBinder; intro x)
       first
       | (with_reducible refine (fun hx => ?_) (?_ : P x)
          on_goal 1 => clear_value x
          on_goal 2 => (unfold x; clear x))
       | clear_value x
       | skip)
    | with_reducible apply ite_keep
    | split
    | with_reducible apply next_keep
    | with_reducible apply openTimer_keep (hP.mono (by decide))
    | with_reducible refine eq_keep (by assumption) ?_

theorem execTimerWindowClose_keep {P : State → Prop} (hP : Keeps [.timers, .trips] P) (i : Fin 512) (now : Nat) (s : State) (hst : P s) :
    AllNext P (execTimerWindowClose i now s) := by
  unfold execTimerWindowClose
  repeat' first
    | with_reducible assumption
    | (first | intro x | (lift_lets -underBinder; intro x)
       first
       | (with_reducible refine (fun hx => ?_) (?_ : P x)
          on_goal 1 => clear_value x
          on_goal 2 => (unfold x; clear x))
       | clear_value x
       | skip)
    | with_reducible apply ite_keep
    | split
    | with_reducible apply next_keep
    | with_reducible apply setTimer_keep (hP.mono (by decide))
    | with_reducible apply setTrip_keep (hP.mono (by decide))
    | with_reducible apply each_keep

theorem tripActOn_keep {P : State → Prop} (hP : Keeps [.regs, .wide, .chans, .terms, .gates, .trips, .motors, .rings, .svc, .col, .tal, .host] P) (g : Nat) (now : Nat) (ch : Nat) (s : State) (hst : P s) :
    P (tripActOn g now ch s) := by
  unfold tripActOn
  repeat' first
    | with_reducible assumption
    | (first | intro x | (lift_lets -underBinder; intro x)
       first
       | (with_reducible refine (fun hx => ?_) (?_ : P x)
          on_goal 1 => clear_value x
          on_goal 2 => (unfold x; clear x))
       | clear_value x
       | skip)
    | with_reducible apply ite_keep
    | split
    | with_reducible apply setTrip_keep (hP.mono (by decide))
    | with_reducible apply tripChannel_keep (hP.mono (by decide))
    | with_reducible apply holdLive_keep (hP.mono (by decide))
    | with_reducible apply updFired_keep (hP.mono (by decide))
    | with_reducible apply raise_keep (hP.mono (by decide))
    | with_reducible refine eq_keep (by assumption) ?_

theorem tripRise_keep {P : State → Prop} (hP : Keeps [.regs, .wide, .chans, .terms, .folds, .gates, .trips, .motors, .rings, .svc, .col, .tal, .host] P) (g : Nat) (now : Nat) (s : State) (hst : P s) :
    P (tripRise g now s) := by
  unfold tripRise
  repeat' first
    | with_reducible assumption
    | (first | intro x | (lift_lets -underBinder; intro x)
       first
       | (with_reducible refine (fun hx => ?_) (?_ : P x)
          on_goal 1 => clear_value x
          on_goal 2 => (unfold x; clear x))
       | clear_value x
       | skip)
    | with_reducible apply ite_keep
    | split
    | with_reducible apply setTrip_keep (hP.mono (by decide))
    | with_reducible apply foldEvent_keep (hP.mono (by decide))
    | with_reducible apply tripActOn_keep (hP.mono (by decide))
    | with_reducible apply holdLive_keep (hP.mono (by decide))
    | with_reducible apply updFired_keep (hP.mono (by decide))
    | with_reducible apply tripFold_keep (hP.mono (by decide))
    | with_reducible apply raise_keep (hP.mono (by decide))
    | with_reducible apply each_keep
    | with_reducible refine eq_keep (by assumption) ?_

theorem tripLevel_keep {P : State → Prop} (hP : Keeps [.regs, .wide, .chans, .terms, .folds, .gates, .trips, .motors, .rings, .svc, .col, .tal, .host] P) (g : Nat) (active : Bool) (now : Nat) (s : State) (hst : P s) :
    P (tripLevel g active now s) := by
  unfold tripLevel
  repeat' first
    | with_reducible assumption
    | (first | intro x | (lift_lets -underBinder; intro x)
       first
       | (with_reducible refine (fun hx => ?_) (?_ : P x)
          on_goal 1 => clear_value x
          on_goal 2 => (unfold x; clear x))
       | (with_reducible refine (fun hfun => ?_) (?_ : ∀ a, P a → P (x a))
          on_goal 1 => clear_value x
          on_goal 2 => (unfold x; clear x))
       | (with_reducible refine (fun hfun => ?_) (?_ : ∀ a b, P b → P (x a b))
          on_goal 1 => clear_value x
          on_goal 2 => (unfold x; clear x))
       | (with_reducible refine (fun hfun => ?_) (?_ : ∀ a b c, P c → P (x a b c))
          on_goal 1 => clear_value x
          on_goal 2 => (unfold x; clear x))
       | (with_reducible refine (fun hfun => ?_) (?_ : ∀ a b c d, P d → P (x a b c d))
          on_goal 1 => clear_value x
          on_goal 2 => (unfold x; clear x))
       | (with_reducible refine (fun hx => ?_) (?_ : P x.2)
          on_goal 1 => clear_value x
          on_goal 2 => (unfold x; clear x))
       | (with_reducible refine (fun hfun => ?_) (?_ : ∀ a, P (x a))
          on_goal 1 => clear_value x
          on_goal 2 => (unfold x; clear x))
       | (with_reducible refine (fun hfun => ?_) (?_ : ∀ a b c, P (x a b c))
          on_goal 1 => clear_value x
          on_goal 2 => (unfold x; clear x))
       | clear_value x
       | skip)
    | with_reducible apply hfun
    | with_reducible apply ite_keep
    | split
    | with_reducible apply setTrip_keep (hP.mono (by decide))
    | with_reducible apply updReg_keep (hP.mono (by decide))
    | with_reducible apply updFired_keep (hP.mono (by decide))
    | with_reducible apply tripRise_keep (hP.mono (by decide))
    | with_reducible apply condEnd_keep (hP.mono (by decide))
    | with_reducible apply each_keep

theorem tripSample_keep {P : State → Prop} (hP : Keeps [.regs, .wide, .chans, .terms, .folds, .gates, .trips, .motors, .rings, .svc, .col, .tal, .host] P) (g : Nat) (at_ : Nat) (level : Bool) (s : State) (hst : P s) :
    P (tripSample g at_ level s) := by
  unfold tripSample
  repeat' first
    | with_reducible assumption
    | (first | intro x | (lift_lets -underBinder; intro x)
       first
       | (with_reducible refine (fun hx => ?_) (?_ : P x)
          on_goal 1 => clear_value x
          on_goal 2 => (unfold x; clear x))
       | clear_value x
       | skip)
    | with_reducible apply ite_keep
    | split
    | with_reducible apply setTrip_keep (hP.mono (by decide))
    | with_reducible apply tripLevel_keep (hP.mono (by decide))

theorem execExternalTrip_keep {P : State → Prop} (hP : Keeps [.regs, .wide, .chans, .terms, .folds, .gates, .trips, .motors, .rings, .svc, .col, .tal, .host] P) (g : Fin 32) (levels : List Bool) (at_ : Nat) (s : State) (hst : P s) :
    AllNext P (execExternalTrip g levels at_ s) := by
  unfold execExternalTrip
  repeat' first
    | with_reducible assumption
    | intro x
    | with_reducible apply ite_keep
    | split
    | with_reducible apply next_keep
    | with_reducible apply tripSample_keep (hP.mono (by decide))
    | with_reducible apply forL_keep

theorem foldFree_keep {P : State → Prop} (hP : Keeps [.regs, .folds, .trips] P) (k : Nat) (s : State) (hst : P s) :
    P (foldFree k s) := by
  unfold foldFree
  repeat' first
    | with_reducible assumption
    | (first | intro x | (lift_lets -underBinder; intro x)
       first
       | (with_reducible refine (fun hx => ?_) (?_ : P x)
          on_goal 1 => clear_value x
          on_goal 2 => (unfold x; clear x))
       | clear_value x
       | skip)
    | with_reducible apply ite_keep
    | split
    | with_reducible apply updFold_keep (hP.mono (by decide))
    | with_reducible apply setTrip_keep (hP.mono (by decide))
    | with_reducible apply updFired_keep (hP.mono (by decide))
    | with_reducible apply each_keep

theorem ocSample_keep {P : State → Prop} (hP : Keeps [.regs, .wide, .chans, .terms, .gates, .motors, .rings, .svc, .col, .tal, .host] P) (t at_ ma : Nat) (s : State) (hst : P s) : P (ocSample t at_ ma s) := by
  unfold ocSample
  dsimp only
  split
  · exact hst
  · split
    · exact hst
    · have h := fun h' on => setTerm_keep (hP.mono (by decide)) t { s.term t with ocHist := h', ocAct := on } ⟨fun h1 h2 => ⟨h1, h2⟩⟩ hst
      split
      · exact overcurrent_keep (hP.mono (by decide)) _ _ _ _ (h _ _)
      · split
        · exact condEnd_keep (hP.mono (by decide)) _ _ (h _ _)
        · exact h _ _

theorem execTerminalOvercurrent_keep {P : State → Prop} (hP : Keeps [.regs, .wide, .chans, .terms, .gates, .motors, .rings, .svc, .col, .tal, .host] P) (t : Fin 512) (ma : List Nat) (at_ : Nat) (s : State) (hst : P s) :
    AllNext P (execTerminalOvercurrent t ma at_ s) := by
  unfold execTerminalOvercurrent
  repeat' first
    | with_reducible assumption
    | intro x
    | with_reducible apply next_keep
    | with_reducible apply ocSample_keep (hP.mono (by decide))
    | with_reducible apply forL_keep

theorem foldLevel_keep {P : State → Prop} (hP : Keeps [.regs, .wide, .chans, .terms, .folds, .gates, .motors, .rings, .svc, .col, .tal, .host] P) (k : Nat) (src : Nat) (now : Nat) (on : Bool) (s : State) (hst : P s) :
    P (foldLevel k src now on s) := by
  unfold foldLevel
  repeat' first
    | with_reducible assumption
    | (first | intro x | (lift_lets -underBinder; intro x)
       first
       | (with_reducible refine (fun hx => ?_) (?_ : P x)
          on_goal 1 => clear_value x
          on_goal 2 => (unfold x; clear x))
       | clear_value x
       | skip)
    | with_reducible apply ite_keep
    | split
    | with_reducible apply updFold_keep (hP.mono (by decide))
    | with_reducible apply holdLive_keep (hP.mono (by decide))
    | with_reducible apply tripFold_keep (hP.mono (by decide))
    | with_reducible apply condEnd_keep (hP.mono (by decide))
    | with_reducible apply raise_keep (hP.mono (by decide))

theorem foldSample_keep {P : State → Prop} (hP : Keeps [.regs, .wide, .chans, .terms, .folds, .gates, .motors, .rings, .svc, .col, .tal, .host] P) (k : Nat) (src : Nat) (at_ : Nat) (v : Int) (s : State) (hst : P s) :
    P (foldSample k src at_ v s) := by
  unfold foldSample
  repeat' first
    | with_reducible assumption
    | (first | intro x | (lift_lets -underBinder; intro x)
       first
       | (with_reducible refine (fun hx => ?_) (?_ : P x)
          on_goal 1 => clear_value x
          on_goal 2 => (unfold x; clear x))
       | clear_value x
       | skip)
    | with_reducible apply ite_keep
    | split
    | with_reducible apply updFold_keep (hP.mono (by decide))
    | with_reducible apply foldLevel_keep (hP.mono (by decide))
    | with_reducible refine eq_keep (by assumption) ?_

theorem execFoldTrip_keep {P : State → Prop} (hP : Keeps [.regs, .wide, .chans, .terms, .folds, .gates, .motors, .rings, .svc, .col, .tal, .host] P) (k : Fin 8) (src : Fin 5) (vals : List Int) (at_ : Nat) (s : State) (hst : P s) :
    AllNext P (execFoldTrip k src vals at_ s) := by
  unfold execFoldTrip
  repeat' first
    | with_reducible assumption
    | (first | intro x | (lift_lets -underBinder; intro x)
       first
       | (with_reducible refine (fun hx => ?_) (?_ : P x)
          on_goal 1 => clear_value x
          on_goal 2 => (unfold x; clear x))
       | clear_value x
       | skip)
    | with_reducible apply ite_keep
    | split
    | with_reducible apply next_keep
    | with_reducible apply updFold_keep (hP.mono (by decide))
    | with_reducible apply foldSample_keep (hP.mono (by decide))
    | with_reducible apply forL_keep

theorem overtempEnd_keep {P : State → Prop} (hP : Keeps [.col] P) (k : Nat) (s : State) (hst : P s) :
    P (overtempEnd k s) := by
  unfold overtempEnd
  repeat' first
    | with_reducible assumption
    | (first | intro x | (lift_lets -underBinder; intro x)
       first
       | (with_reducible refine (fun hx => ?_) (?_ : P x)
          on_goal 1 => clear_value x
          on_goal 2 => (unfold x; clear x))
       | clear_value x
       | skip)
    | with_reducible apply ite_keep
    | split
    | with_reducible apply condEnd_keep (hP.mono (by decide))

theorem overtempOn_keep {P : State → Prop} (hP : Keeps [.regs, .col, .host] P) (k : Nat) (s : State) (hst : P s) :
    P (overtempOn k s) := by
  unfold overtempOn
  repeat' first
    | with_reducible assumption
    | (first | intro x | (lift_lets -underBinder; intro x)
       first
       | (with_reducible refine (fun hx => ?_) (?_ : P x)
          on_goal 1 => clear_value x
          on_goal 2 => (unfold x; clear x))
       | clear_value x
       | skip)
    | with_reducible apply ite_keep
    | split
    | with_reducible apply holdLive_keep (hP.mono (by decide))
    | with_reducible apply setEvt_keep (hP.mono (by decide))
    | with_reducible apply raise_keep (hP.mono (by decide))

theorem execStageOvertempWarn_keep {P : State → Prop} (hP : Keeps [.regs, .col, .host] P) (f : Fin 32) (temp : BitVec 8) (s : State) (hst : P s) :
    AllNext P (execStageOvertempWarn f temp s) := by
  unfold execStageOvertempWarn
  repeat' first
    | with_reducible assumption
    | (first | intro x | (lift_lets -underBinder; intro x)
       first
       | (with_reducible refine (fun hx => ?_) (?_ : P x)
          on_goal 1 => clear_value x
          on_goal 2 => (unfold x; clear x))
       | clear_value x
       | skip)
    | with_reducible apply ite_keep
    | split
    | with_reducible apply next_keep
    | with_reducible apply setField_keep (hP.mono (by decide))
    | with_reducible apply overtempEnd_keep (hP.mono (by decide))
    | with_reducible apply overtempOn_keep (hP.mono (by decide))

theorem execFtbLoss_keep {P : State → Prop} (hP : Keeps [.regs, .wide, .chans, .terms, .folds, .gates, .motors, .rings, .svc, .col, .tal, .host] P) (k : Fin 8) (now : Nat) (s : State) (hst : P s) :
    AllNext P (execFtbLoss k now s) := by
  unfold execFtbLoss
  repeat' first
    | with_reducible assumption
    | (first | intro x | (lift_lets -underBinder; intro x)
       first
       | (with_reducible refine (fun hx => ?_) (?_ : P x)
          on_goal 1 => clear_value x
          on_goal 2 => (unfold x; clear x))
       | clear_value x
       | skip)
    | with_reducible apply ite_keep
    | split
    | with_reducible apply next_keep
    | with_reducible apply updFold_keep (hP.mono (by decide))
    | with_reducible apply refreshGates_keep (hP.mono (by decide))
    | with_reducible apply bump_keep (hP.mono (by decide))
    | with_reducible apply holdLive_keep (hP.mono (by decide))
    | with_reducible apply tripFold_keep (hP.mono (by decide))
    | with_reducible apply gateLow_keep (hP.mono (by decide))
    | with_reducible apply raise_keep (hP.mono (by decide))
    | with_reducible apply each_keep

theorem execFtbReturn_keep {P : State → Prop} (hP : Keeps [.folds] P) (k : Fin 8) (s : State) (hst : P s) :
    AllNext P (execFtbReturn k s) := by
  unfold execFtbReturn
  repeat' first
    | with_reducible assumption
    | intro x
    | with_reducible apply ite_keep
    | split
    | with_reducible apply next_keep
    | with_reducible apply updFold_keep (hP.mono (by decide))

theorem ftbAtBoundary_keep {P : State → Prop} (hP : Keeps [.folds, .gates, .col] P) (s : State) (hst : P s) :
    P (ftbAtBoundary s) := by
  unfold ftbAtBoundary
  repeat' first
    | with_reducible assumption
    | intro x
    | with_reducible apply ite_keep
    | split
    | with_reducible apply updFold_keep (hP.mono (by decide))
    | with_reducible apply refreshGates_keep (hP.mono (by decide))
    | with_reducible apply condEnd_keep (hP.mono (by decide))
    | with_reducible apply each_keep

theorem limitEvt_keep {P : State → Prop} (hP : Keeps [.regs, .col, .host] P) (a : Nat) (r : Report) (isOver : Bool) (s : State) (hst : P s) :
    P (limitEvt a r isOver s) := by
  unfold limitEvt
  repeat' first
    | with_reducible assumption
    | intro x
    | with_reducible apply ite_keep
    | split
    | with_reducible apply holdLive_keep (hP.mono (by decide))
    | with_reducible apply condEnd_keep (hP.mono (by decide))
    | with_reducible apply raise_keep (hP.mono (by decide))

theorem limitOwn_keep {P : State → Prop} (hP : Keeps [.col] P) (source : Nat) (bit : Nat) (cls : Nat) (okind : Nat) (obj : Nat) (isOver : Bool) (s : State) (hst : P s) :
    P (limitOwn source bit cls okind obj isOver s) := by
  unfold limitOwn
  repeat' first
    | with_reducible assumption
    | (first | intro x | (lift_lets -underBinder; intro x)
       first
       | (with_reducible refine (fun hx => ?_) (?_ : P x)
          on_goal 1 => clear_value x
          on_goal 2 => (unfold x; clear x))
       | clear_value x
       | skip)
    | with_reducible apply ite_keep
    | split
    | with_reducible apply raiseOwn_keep (hP.mono (by decide))
    | with_reducible apply holdLive_keep (hP.mono (by decide))
    | with_reducible apply condEnd_keep (hP.mono (by decide))

theorem chanPower_keep {P : State → Prop} (hP : Keeps [.regs, .chans, .col, .host] P) (k : Nat) (foldOver : Bool) (ch : Nat) (mw : Int) (s : State) (hst : P s) :
    P (chanPower k foldOver ch mw s) := by
  unfold chanPower
  repeat' first
    | with_reducible assumption
    | (first | intro x | (lift_lets -underBinder; intro x)
       first
       | (with_reducible refine (fun hx => ?_) (?_ : P x)
          on_goal 1 => clear_value x
          on_goal 2 => (unfold x; clear x))
       | clear_value x
       | skip)
    | with_reducible apply updChan_keep (hP.mono (by decide))
    | with_reducible apply limitEvt_keep (hP.mono (by decide))
    | with_reducible apply limitOwn_keep (hP.mono (by decide))

theorem termI2t_keep {P : State → Prop} (hP : Keeps [.regs] P) (t : Nat) (ma : Nat) (s : State) (hst : P s) :
    P (termI2t t ma s) := by
  unfold termI2t
  repeat' first
    | with_reducible assumption
    | (first | intro x | (lift_lets -underBinder; intro x)
       first
       | (with_reducible refine (fun hx => ?_) (?_ : P x)
          on_goal 1 => clear_value x
          on_goal 2 => (unfold x; clear x))
       | clear_value x
       | skip)
    | with_reducible apply setReg_keep (hP.mono (by decide))

theorem chanI2t_keep {P : State → Prop} (hP : Keeps [.col] P) (k : Nat) (t : Nat) (s : State) (hst : P s) :
    P (chanI2t k t s) := by
  unfold chanI2t
  repeat' first
    | with_reducible assumption
    | with_reducible apply ite_keep
    | split
    | with_reducible apply limitOwn_keep (hP.mono (by decide))
    | with_reducible refine eq_keep (by assumption) ?_

theorem renewBudget_keep {P : State → Prop} (hP : Keeps [.regs, .chans, .folds, .col, .host] P) (k : Nat) (busV : BitVec 16) (busNow : BitVec 16) (busI : BitVec 16) (busI10 : BitVec 16) (pout : Int) (chanMw : List (Fin 512 × Int)) (termMa : List (Fin 512 × Nat)) (s : State) (hst : P s) :
    P (renewBudget k busV busNow busI busI10 pout chanMw termMa s) := by
  unfold renewBudget
  repeat' first
    | with_reducible assumption
    | (first | intro x | (lift_lets -underBinder; intro x)
       first
       | (with_reducible refine (fun hx => ?_) (?_ : P x)
          on_goal 1 => clear_value x
          on_goal 2 => (unfold x; clear x))
       | (with_reducible refine (fun hfun => ?_) (?_ : ∀ a, P a → P (x a))
          on_goal 1 => clear_value x
          on_goal 2 => (unfold x; clear x))
       | (with_reducible refine (fun hfun => ?_) (?_ : ∀ a b, P b → P (x a b))
          on_goal 1 => clear_value x
          on_goal 2 => (unfold x; clear x))
       | (with_reducible refine (fun hfun => ?_) (?_ : ∀ a b c, P c → P (x a b c))
          on_goal 1 => clear_value x
          on_goal 2 => (unfold x; clear x))
       | (with_reducible refine (fun hfun => ?_) (?_ : ∀ a b c d, P d → P (x a b c d))
          on_goal 1 => clear_value x
          on_goal 2 => (unfold x; clear x))
       | (with_reducible refine (fun hx => ?_) (?_ : P x.2)
          on_goal 1 => clear_value x
          on_goal 2 => (unfold x; clear x))
       | (with_reducible refine (fun hfun => ?_) (?_ : ∀ a, P (x a))
          on_goal 1 => clear_value x
          on_goal 2 => (unfold x; clear x))
       | (with_reducible refine (fun hfun => ?_) (?_ : ∀ a b c, P (x a b c))
          on_goal 1 => clear_value x
          on_goal 2 => (unfold x; clear x))
       | clear_value x
       | skip)
    | with_reducible apply hfun
    | with_reducible apply updFold_keep (hP.mono (by decide))
    | with_reducible apply setReg_keep (hP.mono (by decide))
    | with_reducible apply chanPower_keep (hP.mono (by decide))
    | with_reducible apply limitEvt_keep (hP.mono (by decide))
    | with_reducible apply limitOwn_keep (hP.mono (by decide))
    | with_reducible apply termI2t_keep (hP.mono (by decide))
    | with_reducible apply chanI2t_keep (hP.mono (by decide))
    | with_reducible apply each_keep

theorem spanFaults_keep {P : State → Prop} (hP : Keeps [.regs, .terms, .col, .tal, .host] P) (t : Nat) (segs : List (Nat × Nat)) (s : State) (hst : P s) :
    P (spanFaults t segs s) := by
  unfold spanFaults
  repeat' first
    | with_reducible assumption
    | with_reducible apply nsegRecompute_keep (hP.mono (by decide))
    | with_reducible apply isolateAll_keep (hP.mono (by decide))
    | with_reducible apply substAll_keep (hP.mono (by decide))

theorem startSelfTest_keep {P : State → Prop} (hP : Keeps [.regs, .terms, .tal, .host] P) (t : Nat) (p : Nat) (s : State) (hst : P s) :
    P (startSelfTest t p s) := by
  unfold startSelfTest
  repeat' first
    | with_reducible assumption
    | (first | intro x | (lift_lets -underBinder; intro x)
       first
       | (with_reducible refine (fun hx => ?_) (?_ : P x)
          on_goal 1 => clear_value x
          on_goal 2 => (unfold x; clear x))
       | clear_value x
       | skip)
    | with_reducible apply ite_keep
    | split
    | exact ⟨fun h1 h2 => ⟨h1, h2⟩⟩
    | with_reducible apply updTerm_keep (hP.mono (by decide))
    | with_reducible apply movePen_keep (hP.mono (by decide))

theorem endSelfTest_keep {P : State → Prop} (hP : Keeps [.regs, .terms, .col, .tal, .host] P) (t : Nat) (fails : BitVec 16) (s : State) (hst : P s) :
    P (endSelfTest t fails s) := by
  unfold endSelfTest
  repeat' first
    | with_reducible assumption
    | (first | intro x | (lift_lets -underBinder; intro x)
       first
       | (with_reducible refine (fun hx => ?_) (?_ : P x)
          on_goal 1 => clear_value x
          on_goal 2 => (unfold x; clear x))
       | clear_value x
       | skip)
    | with_reducible apply ite_keep
    | split
    | exact ⟨fun h1 h2 => ⟨h1, h2⟩⟩
    | with_reducible apply updTerm_keep (hP.mono (by decide))
    | with_reducible apply isolateAll_keep (hP.mono (by decide))
    | with_reducible apply movePen_keep (hP.mono (by decide))
    | with_reducible refine eq_keep (by assumption) ?_

theorem startOverlap_keep {P : State → Prop} (hP : Keeps [.regs, .terms, .tal, .host] P) (t : Nat) (s : State) (hst : P s) :
    P (startOverlap t s) := by
  unfold startOverlap
  repeat' first
    | with_reducible assumption
    | with_reducible apply ite_keep
    | split
    | with_reducible apply leadIncoming_keep (hP.mono (by decide))
    | with_reducible apply setSubst_keep (hP.mono (by decide))
    | with_reducible apply movePen_keep (hP.mono (by decide))

theorem substOutcome_keep {P : State → Prop} (hP : Keeps [.regs, .terms, .col, .tal, .host] P) (t : Nat) (i : Nat) (w : Nat) (s : State) (hst : P s) :
    P (substOutcome t i w s) := by
  unfold substOutcome
  repeat' first
    | with_reducible assumption
    | (first | intro x | (lift_lets -underBinder; intro x)
       first
       | (with_reducible refine (fun hx => ?_) (?_ : P x)
          on_goal 1 => clear_value x
          on_goal 2 => (unfold x; clear x))
       | clear_value x
       | skip)
    | with_reducible apply ite_keep
    | split
    | with_reducible apply nsegRecompute_keep (hP.mono (by decide))
    | with_reducible apply bump_keep (hP.mono (by decide))
    | with_reducible apply foldEvent_keep (hP.mono (by decide))
    | with_reducible apply substAll_keep (hP.mono (by decide))
    | with_reducible apply movePen_keep (hP.mono (by decide))

theorem runWait_keep {P : State → Prop} (hP : Keeps [.regs, .chans, .terms, .folds, .col, .tal, .host] P) (k : Nat) (x : FoldWait) (s : State) (hst : P s) :
    P (runWait k x s) := by
  unfold runWait
  repeat' first
    | with_reducible assumption
    | with_reducible apply ite_keep
    | split
    | with_reducible apply startSelfTest_keep (hP.mono (by decide))
    | with_reducible apply startOverlap_keep (hP.mono (by decide))
    | with_reducible apply substOutcome_keep (hP.mono (by decide))
    | with_reducible apply renewBudget_keep (hP.mono (by decide))
    | with_reducible apply endSelfTest_keep (hP.mono (by decide))
    | with_reducible apply spanFaults_keep (hP.mono (by decide))
    | with_reducible apply isolate_keep (hP.mono (by decide))
    | with_reducible refine eq_keep (by assumption) ?_

theorem settleFold_keep {P : State → Prop} (hP : Keeps [.regs, .chans, .terms, .folds, .col, .tal, .host] P) (k : Nat) (s : State) (hst : P s) :
    P (settleFold k s) := by
  unfold settleFold
  repeat' first
    | with_reducible assumption
    | intro x
    | with_reducible apply updFold_keep (hP.mono (by decide))
    | with_reducible apply runWait_keep (hP.mono (by decide))
    | with_reducible apply forL_keep

theorem onFold_keep {P : State → Prop} (hP : Keeps [.regs, .chans, .terms, .folds, .col, .tal, .host] P) (k : Nat) (now : Nat) (x : FoldWait) (s : State) (hst : P s) :
    P (onFold k now x s) := by
  unfold onFold
  repeat' first
    | with_reducible assumption
    | intro x
    | with_reducible apply ite_keep
    | split
    | with_reducible apply updFold_keep (hP.mono (by decide))
    | with_reducible apply settleFold_keep (hP.mono (by decide))
    | with_reducible apply runWait_keep (hP.mono (by decide))

theorem execDesatSpanClose_keep {P : State → Prop} (hP : Keeps [.regs, .wide, .chans, .terms, .folds, .gates, .motors, .rings, .svc, .col, .tal, .host] P) (t : Fin 512) (now : Nat) (s : State) (hst : P s) :
    AllNext P (execDesatSpanClose t now s) := by
  unfold execDesatSpanClose
  repeat' first
    | with_reducible assumption
    | (first | intro x | (lift_lets -underBinder; intro x)
       first
       | (with_reducible refine (fun hx => ?_) (?_ : P x)
          on_goal 1 => clear_value x
          on_goal 2 => (unfold x; clear x))
       | clear_value x
       | skip)
    | with_reducible apply ite_keep
    | split
    | exact ⟨fun h1 h2 => ⟨h1, h2⟩⟩
    | with_reducible apply next_keep
    | with_reducible apply updTerm_keep (hP.mono (by decide))
    | with_reducible apply overcurrent_keep (hP.mono (by decide))
    | with_reducible apply isolate_keep (hP.mono (by decide))
    | with_reducible apply onFold_keep (hP.mono (by decide))

theorem execSpareSelfTestStart_keep {P : State → Prop} (hP : Keeps [.regs, .chans, .terms, .folds, .col, .tal, .host] P) (t : Fin 512) (p : Fin 16) (now : Nat) (s : State) (hst : P s) :
    AllNext P (execSpareSelfTestStart t p now s) := by
  unfold execSpareSelfTestStart
  repeat' first
    | with_reducible assumption
    | with_reducible apply next_keep
    | with_reducible apply onFold_keep (hP.mono (by decide))

theorem execSpareSelfTestEnd_keep {P : State → Prop} (hP : Keeps [.regs, .chans, .terms, .folds, .col, .tal, .host] P) (t : Fin 512) (fails : BitVec 16) (now : Nat) (s : State) (hst : P s) :
    AllNext P (execSpareSelfTestEnd t fails now s) := by
  unfold execSpareSelfTestEnd
  repeat' first
    | with_reducible assumption
    | with_reducible apply next_keep
    | with_reducible apply onFold_keep (hP.mono (by decide))

theorem execSubstOverlapStart_keep {P : State → Prop} (hP : Keeps [.regs, .chans, .terms, .folds, .col, .tal, .host] P) (t : Fin 512) (now : Nat) (s : State) (hst : P s) :
    AllNext P (execSubstOverlapStart t now s) := by
  unfold execSubstOverlapStart
  repeat' first
    | with_reducible assumption
    | with_reducible apply next_keep
    | with_reducible apply onFold_keep (hP.mono (by decide))

theorem execSubstRelease_keep {P : State → Prop} (hP : Keeps [.regs, .chans, .terms, .folds, .col, .tal, .host] P) (t : Fin 512) (now : Nat) (s : State) (hst : P s) :
    AllNext P (execSubstRelease t now s) := by
  unfold execSubstRelease
  repeat' first
    | with_reducible assumption
    | with_reducible apply ite_keep
    | split
    | with_reducible apply next_keep
    | with_reducible apply setSubst_keep (hP.mono (by decide))
    | with_reducible apply onFold_keep (hP.mono (by decide))

theorem execFoldBudgetRenewal_keep {P : State → Prop} (hP : Keeps [.regs, .chans, .terms, .folds, .col, .tal, .host] P) (k : Fin 8) (busV : BitVec 16) (busNow : BitVec 16) (busI : BitVec 16) (busI10 : BitVec 16) (pout : Int) (chanMw : List (Fin 512 × Int)) (termMa : List (Fin 512 × Nat)) (now : Nat) (s : State) (hst : P s) :
    AllNext P (execFoldBudgetRenewal k busV busNow busI busI10 pout chanMw termMa now s) := by
  unfold execFoldBudgetRenewal
  repeat' first
    | with_reducible assumption
    | with_reducible apply next_keep
    | with_reducible apply onFold_keep (hP.mono (by decide))

theorem execCoolantDerate_keep {P : State → Prop} (hP : Keeps [.regs, .wide, .amb, .chans, .terms, .folds, .gates, .motors, .rings, .svc, .col, .tal, .host] P) (reading : Option (BitVec 16)) (now : Nat) (s : State) (hst : P s) :
    AllNext P (execCoolantDerate reading now s) := by
  unfold execCoolantDerate
  repeat' first
    | with_reducible assumption
    | (first | intro x | (lift_lets -underBinder; intro x)
       first
       | (with_reducible refine (fun hx => ?_) (?_ : P x)
          on_goal 1 => clear_value x
          on_goal 2 => (unfold x; clear x))
       | clear_value x
       | skip)
    | with_reducible apply ite_keep
    | split
    | with_reducible apply next_keep
    | with_reducible apply overtempEnd_keep (hP.mono (by decide))
    | with_reducible apply overtempOn_keep (hP.mono (by decide))
    | with_reducible apply tripFold_keep (hP.mono (by decide))
    | with_reducible apply limitOwn_keep (hP.mono (by decide))
    | with_reducible apply each_keep
    | with_reducible apply upd_amb (hP.mono (by decide))

theorem execFoldCfgWrite_keep {P : State → Prop} (hP : Keeps [.regs, .col, .host] P) (k : Fin 8) (v : W) (s : State) (hst : P s) :
    AllNext P (execFoldCfgWrite k v s) := by
  unfold execFoldCfgWrite
  repeat' first
    | with_reducible assumption
    | intro x
    | with_reducible apply ite_keep
    | split
    | with_reducible apply next_keep
    | with_reducible apply setReg_keep (hP.mono (by decide))
    | with_reducible apply foldEvent_keep (hP.mono (by decide))

theorem execFoldStopEnd_keep {P : State → Prop} (hP : Keeps [.regs, .folds, .trips] P) (k : Fin 8) (s : State) (hst : P s) :
    AllNext P (execFoldStopEnd k s) := by
  unfold execFoldStopEnd
  repeat' first
    | with_reducible assumption
    | with_reducible apply ite_keep
    | split
    | with_reducible apply next_keep
    | with_reducible apply foldFree_keep (hP.mono (by decide))

theorem execBusRise_keep {P : State → Prop} (hP : Keeps [.regs, .wide, .chans, .terms, .folds, .gates, .motors, .rings, .svc, .col, .tal, .host] P) (k : Fin 8) (now : Nat) (s : State) (hst : P s) :
    AllNext P (execBusRise k now s) := by
  unfold execBusRise
  repeat' first
    | with_reducible assumption
    | intro x
    | with_reducible apply next_keep
    | with_reducible apply updFold_keep (hP.mono (by decide))
    | with_reducible apply foldLevel_keep (hP.mono (by decide))

end Sys2Proof.Machine
end

