-- ==== Sys2Proof/Laws/KeepCommands.lean ====
section
/-! SUPPORT. Every operation and meaning of the command rows, the channels and objects, the motors, the leases and the sense ports keeps what the primitives on the parts it touches keep. -/

set_option linter.all false

namespace Sys2Proof.Machine

open Sys2Proof

-- Commands

theorem refuse_keep {P : State → Prop} (hP : Keeps [.rings] P) (e : CmdEntry) (status : Nat) (check : Nat) (s : State) (hst : P s) :
    P (refuse e status check s) := by
  unfold refuse
  repeat' first
    | with_reducible assumption
    | with_reducible apply complete_keep (hP.mono (by decide))

theorem acceptNow_keep {P : State → Prop} (hP : Keeps [.rings] P) (e : CmdEntry) (result : W) (s : State) (hst : P s) :
    P (acceptNow e result s) := by
  unfold acceptNow
  repeat' first
    | with_reducible assumption
    | with_reducible apply complete_keep (hP.mono (by decide))

theorem acceptLater_keep {P : State → Prop} (hP : Keeps [.svc] P) (e : CmdEntry) (result : W) (s : State) (hst : P s) :
    P (acceptLater e result s) := by
  unfold acceptLater
  repeat' first
    | with_reducible assumption
    | intro x
    | with_reducible apply updSvc_keep (hP.mono (by decide))

theorem withBlock_keep {P : State → Prop} (hP : Keeps [.dram] P) (e : CmdEntry) (blk : List (BitVec 8)) (f : State → State) (s : State)
    (hf : ∀ a, P a → P (f a)) (hst : P s) : P (withBlock e blk f s) := by
  unfold withBlock
  dsimp only
  split
  · exact hf _ hst
  · exact putDram_keep (hP.mono (by decide)) _ _ (hf _ (putDram_keep (hP.mono (by decide)) _ _ hst))

theorem runCommand_keep {P : State → Prop} (hP : Keeps [.rings] P) (own : CmdEntry → State → State) (e : CmdEntry) (s : State) (hown : ∀ a0 a1, P a1 → P (own a0 a1)) (hst : P s) :
    P (runCommand own e s) := by
  unfold runCommand
  repeat' first
    | with_reducible assumption
    | with_reducible apply ite_keep
    | split
    | with_reducible apply hown
    | with_reducible apply refuse_keep (hP.mono (by decide))
    | with_reducible refine eq_keep (by assumption) ?_

theorem commandRow_keep {P : State → Prop} (hP : Keeps [.dram, .rings, .svc] P) (op : Nat) (own : CmdEntry → State → State) (e : CmdEntry) (s : State) (hown : ∀ a0 a1, P a1 → P (own a0 a1)) (hst : P s) :
    P (commandRow op own e s) := by
  unfold commandRow
  repeat' first
    | with_reducible assumption
    | (first | intro x | (lift_lets -underBinder; intro x)
       first
       | (with_reducible refine (fun hx => ?_) (?_ : P x)
          on_goal 1 => clear_value x
          on_goal 2 => (unfold x; clear x))
       | clear_value x
       | skip)
    | with_reducible apply ite_keep
    | split
    | with_reducible apply hown
    | with_reducible apply updSvc_keep (hP.mono (by decide))
    | with_reducible apply runCommand_keep (hP.mono (by decide))
    | with_reducible apply withBlock_keep (hP.mono (by decide))
    | with_reducible apply refuse_keep (hP.mono (by decide))

theorem checked_keep {P : State → Prop} (hP : Keeps [.rings] P) (e : CmdEntry) (l : List (Bool × Nat × Nat)) (eff : State → State) (s : State) (heff : ∀ a0, P a0 → P (eff a0)) (hst : P s) :
    P (checked e l eff s) := by
  unfold checked
  repeat' first
    | with_reducible assumption
    | with_reducible apply ite_keep
    | split
    | with_reducible apply heff
    | with_reducible apply refuse_keep (hP.mono (by decide))
    | with_reducible refine eq_keep (by assumption) ?_

theorem held_keep {P : State → Prop} (hP : Keeps [.svc] P) (e : CmdEntry) (eff : State → State) (s : State) (heff : ∀ a0, P a0 → P (eff a0)) (hst : P s) :
    P (held e eff s) := by
  unfold held
  repeat' first
    | with_reducible assumption
    | intro x
    | with_reducible apply ite_keep
    | split
    | with_reducible apply heff
    | with_reducible apply updSvc_keep (hP.mono (by decide))

-- Channels

theorem repack_keep {P : State → Prop} (hP : Keeps [.dram, .chans] P) (s : State) (hst : P s) : P (repack s) := by
  unfold repack
  dsimp only
  refine forL_keep _ _ (fun _ _ h => updChan_keep (hP.mono (by decide)) _ _ h) (forL_keep _ _ (fun _ _ h => ?_) (dropDram_keep (hP.mono (by decide)) _ hst))
  split
  · exact setDramByte_keep (hP.mono (by decide)) _ _ h
  · exact h

theorem roomFor_keep {P : State → Prop} (hP : Keeps [.dram, .chans] P) (bytes : Nat) (s : State) (hst : P s) :
    P (roomFor bytes s) := by
  unfold roomFor
  repeat' first
    | with_reducible assumption
    | with_reducible apply ite_keep
    | split
    | with_reducible apply repack_keep (hP.mono (by decide))

theorem createChan_keep {P : State → Prop} (hP : Keeps [.regs, .dram, .chans, .terms, .rings] P) (e : CmdEntry) (a : Adm) (s : State) (hst : P s) :
    P (createChan e a s) := by
  unfold createChan
  repeat' first
    | with_reducible assumption
    | (first | intro x | (lift_lets -underBinder; intro x)
       first
       | (with_reducible refine (fun hx => ?_) (?_ : P x)
          on_goal 1 => clear_value x
          on_goal 2 => (unfold x; clear x))
       | clear_value x
       | skip)
    | with_reducible apply ite_keep
    | split
    | exact ⟨fun h1 h2 => ⟨h1, h2⟩⟩
    | with_reducible apply setField_keep (hP.mono (by decide))
    | with_reducible apply updTerm_keep (hP.mono (by decide))
    | with_reducible apply setChan_keep (hP.mono (by decide))
    | with_reducible apply setReg_keep (hP.mono (by decide))
    | with_reducible apply acceptNow_keep (hP.mono (by decide))
    | with_reducible apply roomFor_keep (hP.mono (by decide))
    | with_reducible apply each_keep
    | with_reducible refine eq_keep (by assumption) ?_

theorem execChanNew_keep {P : State → Prop} (hP : Keeps [.regs, .dram, .chans, .terms, .rings, .svc] P) (e : CmdEntry) (s : State) (hst : P s) :
    AllNext P (execChanNew e s) := by
  unfold execChanNew
  repeat' first
    | with_reducible assumption
    | intro x
    | with_reducible apply next_keep
    | with_reducible apply commandRow_keep (hP.mono (by decide))
    | with_reducible apply createChan_keep (hP.mono (by decide))
    | with_reducible apply checked_keep (hP.mono (by decide))

theorem withdrawToken_keep {P : State → Prop} (hP : Keeps [.regs, .chans] P) (ch : Nat) (s : State) (hst : P s) :
    P (withdrawToken ch s) := by
  unfold withdrawToken
  repeat' first
    | with_reducible assumption
    | (first | intro x | (lift_lets -underBinder; intro x)
       first
       | (with_reducible refine (fun hx => ?_) (?_ : P x)
          on_goal 1 => clear_value x
          on_goal 2 => (unfold x; clear x))
       | clear_value x
       | skip)
    | with_reducible apply ite_keep
    | split
    | with_reducible apply setChan_keep (hP.mono (by decide))
    | with_reducible apply bump_keep (hP.mono (by decide))
    | with_reducible refine eq_keep (by assumption) ?_

theorem haltRuns_keep {P : State → Prop} (hP : Keeps [.runs] P) (ch : Nat) (s : State) (hst : P s) :
    P (haltRuns ch s) := by
  unfold haltRuns
  repeat' first
    | with_reducible assumption
    | intro x
    | with_reducible apply setRun_keep (hP.mono (by decide))
    | with_reducible apply each_keep

theorem endObjCommands_keep {P : State → Prop} (hP : Keeps [.rings, .svc] P) (ch : Nat) (s : State) (hst : P s) :
    P (endObjCommands ch s) := by
  unfold endObjCommands
  repeat' first
    | with_reducible assumption
    | (first | intro x | (lift_lets -underBinder; intro x)
       first
       | (with_reducible refine (fun hx => ?_) (?_ : P x)
          on_goal 1 => clear_value x
          on_goal 2 => (unfold x; clear x))
       | clear_value x
       | skip)
    | with_reducible apply ite_keep
    | split
    | with_reducible apply finishObj_keep (hP.mono (by decide))
    | with_reducible apply each_keep
    | with_reducible refine eq_keep (by assumption) ?_

theorem deleteStart_keep {P : State → Prop} (hP : Keeps [.regs, .gens, .chans, .binds, .gates, .timers, .trips, .motors, .caps, .injs, .runs, .rings, .svc, .col, .sec, .host] P) (ch : Nat) (s : State) (hst : P s) :
    P (deleteStart ch s) := by
  unfold deleteStart
  repeat' first
    | with_reducible assumption
    | (first | intro x | (lift_lets -underBinder; intro x)
       first
       | (with_reducible refine (fun hx => ?_) (?_ : P x)
          on_goal 1 => clear_value x
          on_goal 2 => (unfold x; clear x))
       | (with_reducible refine (fun hfun => ?_) (?_ : ∀ a, P a → P (x a))
          on_goal 1 => clear_value x
          on_goal 2 => (unfold x; clear x))
       | (with_reducible refine (fun hfun => ?_) (?_ : ∀ a b, P b → P (x a b))
          on_goal 1 => clear_value x
          on_goal 2 => (unfold x; clear x))
       | (with_reducible refine (fun hfun => ?_) (?_ : ∀ a b c, P c → P (x a b c))
          on_goal 1 => clear_value x
          on_goal 2 => (unfold x; clear x))
       | (with_reducible refine (fun hfun => ?_) (?_ : ∀ a b c d, P d → P (x a b c d))
          on_goal 1 => clear_value x
          on_goal 2 => (unfold x; clear x))
       | (with_reducible refine (fun hx => ?_) (?_ : P x.2)
          on_goal 1 => clear_value x
          on_goal 2 => (unfold x; clear x))
       | (with_reducible refine (fun hfun => ?_) (?_ : ∀ a, P (x a))
          on_goal 1 => clear_value x
          on_goal 2 => (unfold x; clear x))
       | (with_reducible refine (fun hfun => ?_) (?_ : ∀ a b c, P (x a b c))
          on_goal 1 => clear_value x
          on_goal 2 => (unfold x; clear x))
       | clear_value x
       | skip)
    | with_reducible apply hfun
    | with_reducible apply ite_keep
    | split
    | with_reducible apply setTimer_keep (hP.mono (by decide))
    | with_reducible apply endObjCommands_keep (hP.mono (by decide))
    | with_reducible apply updChan_keep (hP.mono (by decide))
    | with_reducible apply setTrip_keep (hP.mono (by decide))
    | with_reducible apply withdrawToken_keep (hP.mono (by decide))
    | with_reducible apply advGen_keep (hP.mono (by decide))
    | with_reducible apply updInj_keep (hP.mono (by decide))
    | with_reducible apply updCol_keep (hP.mono (by decide))
    | with_reducible apply refreshGates_keep (hP.mono (by decide))
    | with_reducible apply motorIdle_keep (hP.mono (by decide))
    | with_reducible apply debugDone_keep (hP.mono (by decide))
    | with_reducible apply tripLeft_keep (hP.mono (by decide))
    | with_reducible apply haltRuns_keep (hP.mono (by decide))
    | with_reducible apply haltCap_keep (hP.mono (by decide))
    | with_reducible apply each_keep
    | with_reducible apply held_keep (hP.mono (by decide))
    | with_reducible apply upd_binds (hP.mono (by decide))
    | with_reducible apply upd_chans (hP.mono (by decide))
    | with_reducible refine eq_keep (by assumption) ?_
    | with_reducible refine eq_keep2 (by assumption) ?_

theorem execChanDel_keep {P : State → Prop} (hP : Keeps [.regs, .gens, .dram, .chans, .binds, .gates, .timers, .trips, .motors, .caps, .injs, .runs, .rings, .svc, .col, .sec, .host] P) (e : CmdEntry) (s : State) (hst : P s) :
    AllNext P (execChanDel e s) := by
  unfold execChanDel
  repeat' first
    | with_reducible assumption
    | (first | intro x | (lift_lets -underBinder; intro x)
       first
       | (with_reducible refine (fun hx => ?_) (?_ : P x)
          on_goal 1 => clear_value x
          on_goal 2 => (unfold x; clear x))
       | clear_value x
       | skip)
    | with_reducible apply next_keep
    | with_reducible apply acceptLater_keep (hP.mono (by decide))
    | with_reducible apply deleteStart_keep (hP.mono (by decide))
    | with_reducible apply commandRow_keep (hP.mono (by decide))
    | with_reducible apply checked_keep (hP.mono (by decide))

theorem rejoinDone_keep {P : State → Prop} (hP : Keeps [.health] P) (f : Nat) (s : State) (hst : P s) :
    P (rejoinDone f s) := by
  unfold rejoinDone
  repeat' first
    | with_reducible assumption
    | (first | intro x | (lift_lets -underBinder; intro x)
       first
       | (with_reducible refine (fun hx => ?_) (?_ : P x)
          on_goal 1 => clear_value x
          on_goal 2 => (unfold x; clear x))
       | clear_value x
       | skip)
    | with_reducible apply ite_keep
    | split
    | with_reducible apply updHlt_keep (hP.mono (by decide))
    | with_reducible apply each_keep

theorem deleteEnd_keep {P : State → Prop} (hP : Keeps [.regs, .wide, .ws, .ports, .chans, .terms, .binds, .gates, .motors, .caps, .injs, .health, .rings, .svc, .col, .host] P) (ch : Nat) (s : State) (hst : P s) :
    P (deleteEnd ch s) := by
  unfold deleteEnd
  repeat' first
    | with_reducible assumption
    | (first | intro x | (lift_lets -underBinder; intro x)
       first
       | (with_reducible refine (fun hx => ?_) (?_ : P x)
          on_goal 1 => clear_value x
          on_goal 2 => (unfold x; clear x))
       | (with_reducible refine (fun hfun => ?_) (?_ : ∀ a, P a → P (x a))
          on_goal 1 => clear_value x
          on_goal 2 => (unfold x; clear x))
       | (with_reducible refine (fun hfun => ?_) (?_ : ∀ a b, P b → P (x a b))
          on_goal 1 => clear_value x
          on_goal 2 => (unfold x; clear x))
       | (with_reducible refine (fun hfun => ?_) (?_ : ∀ a b c, P c → P (x a b c))
          on_goal 1 => clear_value x
          on_goal 2 => (unfold x; clear x))
       | (with_reducible refine (fun hfun => ?_) (?_ : ∀ a b c d, P d → P (x a b c d))
          on_goal 1 => clear_value x
          on_goal 2 => (unfold x; clear x))
       | (with_reducible refine (fun hx => ?_) (?_ : P x.2)
          on_goal 1 => clear_value x
          on_goal 2 => (unfold x; clear x))
       | (with_reducible refine (fun hfun => ?_) (?_ : ∀ a, P (x a))
          on_goal 1 => clear_value x
          on_goal 2 => (unfold x; clear x))
       | (with_reducible refine (fun hfun => ?_) (?_ : ∀ a b c, P (x a b c))
          on_goal 1 => clear_value x
          on_goal 2 => (unfold x; clear x))
       | clear_value x
       | skip)
    | with_reducible apply hfun
    | exact ⟨fun h1 h2 => ⟨h1, h2⟩⟩
    | with_reducible apply clearRegs_keep (hP.mono (by decide))
    | with_reducible apply setField_keep (hP.mono (by decide))
    | with_reducible apply setWide_keep (hP.mono (by decide))
    | with_reducible apply updTerm_keep (hP.mono (by decide))
    | with_reducible apply updGate_keep (hP.mono (by decide))
    | with_reducible apply setReg_keep (hP.mono (by decide))
    | with_reducible apply zeroWs_keep (hP.mono (by decide))
    | with_reducible apply updCol_keep (hP.mono (by decide))
    | with_reducible apply refreshGates_keep (hP.mono (by decide))
    | with_reducible apply rejoinDone_keep (hP.mono (by decide))
    | with_reducible apply signalVec_keep (hP.mono (by decide))
    | with_reducible apply finishObj_keep (hP.mono (by decide))
    | with_reducible apply liveEnd_keep (hP.mono (by decide))
    | with_reducible apply recount_keep (hP.mono (by decide))
    | with_reducible apply each_keep
    | with_reducible apply upd_binds (hP.mono (by decide))
    | with_reducible apply upd_caps (hP.mono (by decide))
    | with_reducible apply upd_injs (hP.mono (by decide))
    | with_reducible apply upd_motors (hP.mono (by decide))
    | with_reducible apply upd_chans (hP.mono (by decide))

theorem execBind_keep {P : State → Prop} (hP : Keeps [.dram, .chans, .binds, .rings, .svc] P) (e : CmdEntry) (s : State) (hst : P s) :
    AllNext P (execBind e s) := by
  unfold execBind
  repeat' first
    | with_reducible assumption
    | (first | intro x | (lift_lets -underBinder; intro x)
       first
       | (with_reducible refine (fun hx => ?_) (?_ : P x)
          on_goal 1 => clear_value x
          on_goal 2 => (unfold x; clear x))
       | clear_value x
       | skip)
    | with_reducible apply next_keep
    | with_reducible apply updChan_keep (hP.mono (by decide))
    | with_reducible apply setBind_keep (hP.mono (by decide))
    | with_reducible apply commandRow_keep (hP.mono (by decide))
    | with_reducible apply acceptNow_keep (hP.mono (by decide))
    | with_reducible apply checked_keep (hP.mono (by decide))

theorem execUnbind_keep {P : State → Prop} (hP : Keeps [.gens, .dram, .binds, .rings, .svc] P) (e : CmdEntry) (s : State) (hst : P s) :
    AllNext P (execUnbind e s) := by
  unfold execUnbind
  repeat' first
    | with_reducible assumption
    | (first | intro x | (lift_lets -underBinder; intro x)
       first
       | (with_reducible refine (fun hx => ?_) (?_ : P x)
          on_goal 1 => clear_value x
          on_goal 2 => (unfold x; clear x))
       | clear_value x
       | skip)
    | with_reducible apply next_keep
    | with_reducible apply setBind_keep (hP.mono (by decide))
    | with_reducible apply advGen_keep (hP.mono (by decide))
    | with_reducible apply acceptLater_keep (hP.mono (by decide))
    | with_reducible apply commandRow_keep (hP.mono (by decide))
    | with_reducible apply checked_keep (hP.mono (by decide))

theorem unbindAtBoundary_keep {P : State → Prop} (hP : Keeps [.binds, .rings, .svc] P) (s : State) (hst : P s) :
    P (unbindAtBoundary s) := by
  unfold unbindAtBoundary
  repeat' first
    | with_reducible assumption
    | intro x
    | with_reducible apply setBind_keep (hP.mono (by decide))
    | with_reducible apply finishObj_keep (hP.mono (by decide))
    | with_reducible apply each_keep

theorem execStage_keep {P : State → Prop} (hP : Keeps [.dram, .chans, .rings, .svc] P) (e : CmdEntry) (s : State) (hst : P s) :
    AllNext P (execStage e s) := by
  unfold execStage
  repeat' first
    | with_reducible assumption
    | (first | intro x | (lift_lets -underBinder; intro x)
       first
       | (with_reducible refine (fun hx => ?_) (?_ : P x)
          on_goal 1 => clear_value x
          on_goal 2 => (unfold x; clear x))
       | clear_value x
       | skip)
    | with_reducible apply next_keep
    | with_reducible apply updChan_keep (hP.mono (by decide))
    | with_reducible apply commandRow_keep (hP.mono (by decide))
    | with_reducible apply acceptNow_keep (hP.mono (by decide))
    | with_reducible apply checked_keep (hP.mono (by decide))

theorem execStageSet_keep {P : State → Prop} (hP : Keeps [.dram, .chans, .rings, .svc] P) (e : CmdEntry) (s : State) (hst : P s) :
    AllNext P (execStageSet e s) := by
  unfold execStageSet
  repeat' first
    | with_reducible assumption
    | (first | intro x | (lift_lets -underBinder; intro x)
       first
       | (with_reducible refine (fun hx => ?_) (?_ : P x)
          on_goal 1 => clear_value x
          on_goal 2 => (unfold x; clear x))
       | clear_value x
       | skip)
    | with_reducible apply ite_keep
    | split
    | with_reducible apply next_keep
    | with_reducible apply updChan_keep (hP.mono (by decide))
    | with_reducible apply commandRow_keep (hP.mono (by decide))
    | with_reducible apply acceptNow_keep (hP.mono (by decide))
    | with_reducible apply refuse_keep (hP.mono (by decide))
    | with_reducible refine eq_keep (by assumption) ?_

theorem execCommit_keep {P : State → Prop} (hP : Keeps [.dram, .chans, .rings, .svc] P) (e : CmdEntry) (s : State) (hst : P s) :
    AllNext P (execCommit e s) := by
  unfold execCommit
  repeat' first
    | with_reducible assumption
    | (first | intro x | (lift_lets -underBinder; intro x)
       first
       | (with_reducible refine (fun hx => ?_) (?_ : P x)
          on_goal 1 => clear_value x
          on_goal 2 => (unfold x; clear x))
       | clear_value x
       | skip)
    | with_reducible apply ite_keep
    | split
    | with_reducible apply next_keep
    | with_reducible apply setChan_keep (hP.mono (by decide))
    | with_reducible apply acceptLater_keep (hP.mono (by decide))
    | with_reducible apply commandRow_keep (hP.mono (by decide))
    | with_reducible apply checked_keep (hP.mono (by decide))
    | with_reducible apply refuse_keep (hP.mono (by decide))
    | with_reducible refine eq_keep (by assumption) ?_

theorem execAbort_keep {P : State → Prop} (hP : Keeps [.dram, .chans, .rings, .svc] P) (e : CmdEntry) (s : State) (hst : P s) :
    AllNext P (execAbort e s) := by
  unfold execAbort
  repeat' first
    | with_reducible assumption
    | (first | intro x | (lift_lets -underBinder; intro x)
       first
       | (with_reducible refine (fun hx => ?_) (?_ : P x)
          on_goal 1 => clear_value x
          on_goal 2 => (unfold x; clear x))
       | clear_value x
       | skip)
    | with_reducible apply next_keep
    | with_reducible apply updChan_keep (hP.mono (by decide))
    | with_reducible apply commandRow_keep (hP.mono (by decide))
    | with_reducible apply acceptNow_keep (hP.mono (by decide))
    | with_reducible apply checked_keep (hP.mono (by decide))

theorem execDisarm_keep {P : State → Prop} (hP : Keeps [.dram, .chans, .rings, .svc] P) (e : CmdEntry) (s : State) (hst : P s) :
    AllNext P (execDisarm e s) := by
  unfold execDisarm
  repeat' first
    | with_reducible assumption
    | (first | intro x | (lift_lets -underBinder; intro x)
       first
       | (with_reducible refine (fun hx => ?_) (?_ : P x)
          on_goal 1 => clear_value x
          on_goal 2 => (unfold x; clear x))
       | clear_value x
       | skip)
    | with_reducible apply ite_keep
    | split
    | with_reducible apply next_keep
    | with_reducible apply setChan_keep (hP.mono (by decide))
    | with_reducible apply acceptLater_keep (hP.mono (by decide))
    | with_reducible apply commandRow_keep (hP.mono (by decide))
    | with_reducible apply acceptNow_keep (hP.mono (by decide))
    | with_reducible apply checked_keep (hP.mono (by decide))

theorem goIdle_keep {P : State → Prop} (hP : Keeps [.chans, .gates, .motors] P) (ch : Nat) (s : State) (hst : P s) :
    P (goIdle ch s) := by
  unfold goIdle
  repeat' first
    | with_reducible assumption
    | (first | intro x | (lift_lets -underBinder; intro x)
       first
       | (with_reducible refine (fun hx => ?_) (?_ : P x)
          on_goal 1 => clear_value x
          on_goal 2 => (unfold x; clear x))
       | clear_value x
       | skip)
    | with_reducible apply updChan_keep (hP.mono (by decide))
    | with_reducible apply refreshGates_keep (hP.mono (by decide))
    | with_reducible apply motorIdle_keep (hP.mono (by decide))

theorem execDisarmTakeEffect_keep {P : State → Prop} (hP : Keeps [.chans, .gates, .motors, .rings, .svc] P) (ch : Fin 512) (s : State) (hst : P s) :
    AllNext P (execDisarmTakeEffect ch s) := by
  unfold execDisarmTakeEffect
  repeat' first
    | with_reducible assumption
    | with_reducible apply ite_keep
    | split
    | with_reducible apply next_keep
    | with_reducible apply finishObj_keep (hP.mono (by decide))
    | with_reducible apply goIdle_keep (hP.mono (by decide))

theorem execGatedStopIdle_keep {P : State → Prop} (hP : Keeps [.chans, .gates, .motors] P) (ch : Fin 512) (s : State) (hst : P s) :
    AllNext P (execGatedStopIdle ch s) := by
  unfold execGatedStopIdle
  repeat' first
    | with_reducible assumption
    | with_reducible apply ite_keep
    | split
    | with_reducible apply next_keep
    | with_reducible apply goIdle_keep (hP.mono (by decide))

theorem execZcTimeout_keep {P : State → Prop} (hP : Keeps [.regs, .chans, .col, .host] P) (ch : Fin 512) (s : State) (hst : P s) :
    AllNext P (execZcTimeout ch s) := by
  unfold execZcTimeout
  repeat' first
    | with_reducible assumption
    | (first | intro x | (lift_lets -underBinder; intro x)
       first
       | (with_reducible refine (fun hx => ?_) (?_ : P x)
          on_goal 1 => clear_value x
          on_goal 2 => (unfold x; clear x))
       | clear_value x
       | skip)
    | with_reducible apply ite_keep
    | split
    | with_reducible apply next_keep
    | with_reducible apply setChan_keep (hP.mono (by decide))
    | with_reducible apply raise_keep (hP.mono (by decide))
    | with_reducible refine eq_keep (by assumption) ?_

theorem gainRow_keep {P : State → Prop} (hP : Keeps [.dram, .chans, .rings, .svc] P) (op : Nat) (k : ZcKind) (e : CmdEntry) (s : State) (hst : P s) :
    P (gainRow op k e s) := by
  unfold gainRow
  repeat' first
    | with_reducible assumption
    | (first | intro x | (lift_lets -underBinder; intro x)
       first
       | (with_reducible refine (fun hx => ?_) (?_ : P x)
          on_goal 1 => clear_value x
          on_goal 2 => (unfold x; clear x))
       | clear_value x
       | skip)
    | with_reducible apply setChan_keep (hP.mono (by decide))
    | with_reducible apply commandRow_keep (hP.mono (by decide))
    | with_reducible apply acceptNow_keep (hP.mono (by decide))
    | with_reducible apply checked_keep (hP.mono (by decide))

theorem execMute_keep {P : State → Prop} (hP : Keeps [.dram, .chans, .rings, .svc] P) (e : CmdEntry) (s : State) (hst : P s) :
    AllNext P (execMute e s) := by
  unfold execMute
  repeat' first
    | with_reducible assumption
    | with_reducible apply next_keep
    | with_reducible apply gainRow_keep (hP.mono (by decide))

theorem execUnmute_keep {P : State → Prop} (hP : Keeps [.dram, .chans, .rings, .svc] P) (e : CmdEntry) (s : State) (hst : P s) :
    AllNext P (execUnmute e s) := by
  unfold execUnmute
  repeat' first
    | with_reducible assumption
    | with_reducible apply next_keep
    | with_reducible apply gainRow_keep (hP.mono (by decide))

theorem execGain_keep {P : State → Prop} (hP : Keeps [.dram, .chans, .rings, .svc] P) (e : CmdEntry) (s : State) (hst : P s) :
    AllNext P (execGain e s) := by
  unfold execGain
  repeat' first
    | with_reducible assumption
    | with_reducible apply next_keep
    | with_reducible apply gainRow_keep (hP.mono (by decide))

theorem execClear_keep {P : State → Prop} (hP : Keeps [.regs, .dram, .chans, .folds, .trips, .rings, .svc] P) (e : CmdEntry) (s : State) (hst : P s) :
    AllNext P (execClear e s) := by
  unfold execClear
  repeat' first
    | with_reducible assumption
    | (first | intro x | (lift_lets -underBinder; intro x)
       first
       | (with_reducible refine (fun hx => ?_) (?_ : P x)
          on_goal 1 => clear_value x
          on_goal 2 => (unfold x; clear x))
       | clear_value x
       | skip)
    | with_reducible apply ite_keep
    | split
    | with_reducible apply next_keep
    | with_reducible apply setChan_keep (hP.mono (by decide))
    | with_reducible apply commandRow_keep (hP.mono (by decide))
    | with_reducible apply acceptNow_keep (hP.mono (by decide))
    | with_reducible apply foldFree_keep (hP.mono (by decide))
    | with_reducible apply checked_keep (hP.mono (by decide))

-- Sense

theorem snsCond_keep {P : State → Prop} (hP : Keeps [.regs, .col, .host] P) (n : Nat) (bit : Nat) (hi : Nat) (isOver : Bool) (s : State) (hst : P s) :
    P (snsCond n bit hi isOver s) := by
  unfold snsCond
  repeat' first
    | with_reducible assumption
    | (first | intro x | (lift_lets -underBinder; intro x)
       first
       | (with_reducible refine (fun hx => ?_) (?_ : P x)
          on_goal 1 => clear_value x
          on_goal 2 => (unfold x; clear x))
       | clear_value x
       | skip)
    | with_reducible apply ite_keep
    | split
    | with_reducible apply limitEvt_keep (hP.mono (by decide))
    | with_reducible apply condEnd_keep (hP.mono (by decide))

theorem startSettling_keep {P : State → Prop} (hP : Keeps [.sense] P) (n : Nat) (s : State) (hst : P s) :
    P (startSettling n s) := by
  unfold startSettling
  repeat' first
    | with_reducible assumption
    | intro x
    | with_reducible apply updSns_keep (hP.mono (by decide))

theorem applySns_keep {P : State → Prop} (hP : Keeps [.regs, .sense] P) (n : Nat) (s : State) (hst : P s) :
    P (applySns n s) := by
  unfold applySns
  repeat' first
    | with_reducible assumption
    | (first | intro x | (lift_lets -underBinder; intro x)
       first
       | (with_reducible refine (fun hx => ?_) (?_ : P x)
          on_goal 1 => clear_value x
          on_goal 2 => (unfold x; clear x))
       | clear_value x
       | skip)
    | with_reducible apply ite_keep
    | split
    | with_reducible apply startSettling_keep (hP.mono (by decide))
    | with_reducible apply setReg_keep (hP.mono (by decide))
    | with_reducible apply updSns_keep (hP.mono (by decide))
    | with_reducible apply forL_keep
    | with_reducible refine eq_keep (by assumption) ?_

theorem setVals_keep {P : State → Prop} (hP : Keeps [.regs] P) (n : Nat) (p : BitVec 24) (q : BitVec 24) (s : State) (hst : P s) :
    P (setVals n p q s) := by
  unfold setVals
  repeat' first
    | with_reducible assumption
    | with_reducible apply setReg_keep (hP.mono (by decide))

theorem latchPort_keep {P : State → Prop} (hP : Keeps [.regs, .sense, .col, .host, .free] P) (n : Nat) (x : SenseIn) (s : State) (hst : P s) :
    P (latchPort n x s) := by
  unfold latchPort
  repeat' first
    | with_reducible assumption
    | (first | intro x | (lift_lets -underBinder; intro x)
       first
       | (with_reducible refine (fun hx => ?_) (?_ : P x)
          on_goal 1 => clear_value x
          on_goal 2 => (unfold x; clear x))
       | (with_reducible refine (fun hfun => ?_) (?_ : ∀ a, P a → P (x a))
          on_goal 1 => clear_value x
          on_goal 2 => (unfold x; clear x))
       | (with_reducible refine (fun hfun => ?_) (?_ : ∀ a b, P b → P (x a b))
          on_goal 1 => clear_value x
          on_goal 2 => (unfold x; clear x))
       | (with_reducible refine (fun hfun => ?_) (?_ : ∀ a b c, P c → P (x a b c))
          on_goal 1 => clear_value x
          on_goal 2 => (unfold x; clear x))
       | (with_reducible refine (fun hfun => ?_) (?_ : ∀ a b c d, P d → P (x a b c d))
          on_goal 1 => clear_value x
          on_goal 2 => (unfold x; clear x))
       | (with_reducible refine (fun hx => ?_) (?_ : P x.2)
          on_goal 1 => clear_value x
          on_goal 2 => (unfold x; clear x))
       | (with_reducible refine (fun hfun => ?_) (?_ : ∀ a, P (x a))
          on_goal 1 => clear_value x
          on_goal 2 => (unfold x; clear x))
       | (with_reducible refine (fun hfun => ?_) (?_ : ∀ a b c, P (x a b c))
          on_goal 1 => clear_value x
          on_goal 2 => (unfold x; clear x))
       | clear_value x
       | skip)
    | with_reducible apply hfun
    | with_reducible apply ite_keep
    | split
    | with_reducible apply updSns_keep (hP.mono (by decide))
    | with_reducible apply draw_keep (hP.mono (by decide))
    | with_reducible apply bump_keep (hP.mono (by decide))
    | with_reducible apply applySns_keep (hP.mono (by decide))
    | with_reducible apply snsCond_keep (hP.mono (by decide))
    | with_reducible apply setVals_keep (hP.mono (by decide))
    | with_reducible apply raise_keep (hP.mono (by decide))

theorem execSnsConfigWrite_keep {P : State → Prop} (hP : Keeps [.regs, .sense, .col, .host] P) (n : Fin 256) (reg : Fin 5) (v : W) (s : State) (hst : P s) :
    AllNext P (execSnsConfigWrite n reg v s) := by
  unfold execSnsConfigWrite
  repeat' first
    | with_reducible assumption
    | (first | intro x | (lift_lets -underBinder; intro x)
       first
       | (with_reducible refine (fun hx => ?_) (?_ : P x)
          on_goal 1 => clear_value x
          on_goal 2 => (unfold x; clear x))
       | clear_value x
       | skip)
    | with_reducible apply ite_keep
    | split
    | with_reducible apply next_keep
    | with_reducible apply updSns_keep (hP.mono (by decide))
    | with_reducible apply raise_keep (hP.mono (by decide))
    | with_reducible refine eq_keep (by assumption) ?_

theorem execSenseSettled_keep {P : State → Prop} (hP : Keeps [.sense] P) (n : Fin 256) (s : State) (hst : P s) :
    AllNext P (execSenseSettled n s) := by
  unfold execSenseSettled
  repeat' first
    | with_reducible assumption
    | intro x
    | with_reducible apply next_keep
    | with_reducible apply updSns_keep (hP.mono (by decide))

theorem execIllFault_keep {P : State → Prop} (hP : Keeps [.regs, .svc, .col, .host] P) (n : Fin 256) (held : Bool) (s : State) (hst : P s) :
    AllNext P (execIllFault n held s) := by
  unfold execIllFault
  repeat' first
    | with_reducible assumption
    | with_reducible apply ite_keep
    | split
    | with_reducible apply next_keep
    | with_reducible apply snsCond_keep (hP.mono (by decide))
    | with_reducible apply held_keep (hP.mono (by decide))

-- Objects

theorem execTimerNew_keep {P : State → Prop} (hP : Keeps [.dram, .timers, .rings, .svc] P) (e : CmdEntry) (s : State) (hst : P s) :
    AllNext P (execTimerNew e s) := by
  unfold execTimerNew
  repeat' first
    | with_reducible assumption
    | (first | intro x | (lift_lets -underBinder; intro x)
       first
       | (with_reducible refine (fun hx => ?_) (?_ : P x)
          on_goal 1 => clear_value x
          on_goal 2 => (unfold x; clear x))
       | clear_value x
       | skip)
    | with_reducible apply ite_keep
    | split
    | with_reducible apply next_keep
    | with_reducible apply setTimer_keep (hP.mono (by decide))
    | with_reducible apply commandRow_keep (hP.mono (by decide))
    | with_reducible apply acceptNow_keep (hP.mono (by decide))
    | with_reducible apply refuse_keep (hP.mono (by decide))
    | with_reducible refine eq_keep (by assumption) ?_

theorem execTimerDel_keep {P : State → Prop} (hP : Keeps [.gens, .dram, .timers, .rings, .svc] P) (e : CmdEntry) (s : State) (hst : P s) :
    AllNext P (execTimerDel e s) := by
  unfold execTimerDel
  repeat' first
    | with_reducible assumption
    | (first | intro x | (lift_lets -underBinder; intro x)
       first
       | (with_reducible refine (fun hx => ?_) (?_ : P x)
          on_goal 1 => clear_value x
          on_goal 2 => (unfold x; clear x))
       | clear_value x
       | skip)
    | with_reducible apply next_keep
    | with_reducible apply setTimer_keep (hP.mono (by decide))
    | with_reducible apply advGen_keep (hP.mono (by decide))
    | with_reducible apply commandRow_keep (hP.mono (by decide))
    | with_reducible apply acceptNow_keep (hP.mono (by decide))
    | with_reducible apply checked_keep (hP.mono (by decide))

theorem execTripSet_keep {P : State → Prop} (hP : Keeps [.dram, .trips, .rings, .svc] P) (e : CmdEntry) (s : State) (hst : P s) :
    AllNext P (execTripSet e s) := by
  unfold execTripSet
  repeat' first
    | with_reducible assumption
    | (first | intro x | (lift_lets -underBinder; intro x)
       first
       | (with_reducible refine (fun hx => ?_) (?_ : P x)
          on_goal 1 => clear_value x
          on_goal 2 => (unfold x; clear x))
       | clear_value x
       | skip)
    | with_reducible apply ite_keep
    | split
    | with_reducible apply next_keep
    | with_reducible apply setTrip_keep (hP.mono (by decide))
    | with_reducible apply commandRow_keep (hP.mono (by decide))
    | with_reducible apply acceptNow_keep (hP.mono (by decide))
    | with_reducible apply checked_keep (hP.mono (by decide))

theorem execTripAdd_keep {P : State → Prop} (hP : Keeps [.regs, .wide, .dram, .chans, .terms, .gates, .trips, .motors, .rings, .svc, .col, .tal, .host] P) (e : CmdEntry) (now : Nat) (s : State) (hst : P s) :
    AllNext P (execTripAdd e now s) := by
  unfold execTripAdd
  repeat' first
    | with_reducible assumption
    | (first | intro x | (lift_lets -underBinder; intro x)
       first
       | (with_reducible refine (fun hx => ?_) (?_ : P x)
          on_goal 1 => clear_value x
          on_goal 2 => (unfold x; clear x))
       | clear_value x
       | skip)
    | with_reducible apply ite_keep
    | split
    | with_reducible apply next_keep
    | with_reducible apply setTrip_keep (hP.mono (by decide))
    | with_reducible apply commandRow_keep (hP.mono (by decide))
    | with_reducible apply tripActOn_keep (hP.mono (by decide))
    | with_reducible apply acceptNow_keep (hP.mono (by decide))
    | with_reducible apply checked_keep (hP.mono (by decide))
    | with_reducible apply upd_chans (hP.mono (by decide))

theorem execTripDel_keep {P : State → Prop} (hP : Keeps [.regs, .gens, .dram, .trips, .rings, .svc] P) (e : CmdEntry) (s : State) (hst : P s) :
    AllNext P (execTripDel e s) := by
  unfold execTripDel
  repeat' first
    | with_reducible assumption
    | (first | intro x | (lift_lets -underBinder; intro x)
       first
       | (with_reducible refine (fun hx => ?_) (?_ : P x)
          on_goal 1 => clear_value x
          on_goal 2 => (unfold x; clear x))
       | clear_value x
       | skip)
    | with_reducible apply next_keep
    | with_reducible apply setTrip_keep (hP.mono (by decide))
    | with_reducible apply advGen_keep (hP.mono (by decide))
    | with_reducible apply updReg_keep (hP.mono (by decide))
    | with_reducible apply commandRow_keep (hP.mono (by decide))
    | with_reducible apply acceptNow_keep (hP.mono (by decide))
    | with_reducible apply checked_keep (hP.mono (by decide))
    | with_reducible apply each_keep

theorem execGateNew_keep {P : State → Prop} (hP : Keeps [.dram, .gates, .rings, .svc] P) (e : CmdEntry) (s : State) (hst : P s) :
    AllNext P (execGateNew e s) := by
  unfold execGateNew
  repeat' first
    | with_reducible assumption
    | (first | intro x | (lift_lets -underBinder; intro x)
       first
       | (with_reducible refine (fun hx => ?_) (?_ : P x)
          on_goal 1 => clear_value x
          on_goal 2 => (unfold x; clear x))
       | clear_value x
       | skip)
    | with_reducible apply ite_keep
    | split
    | with_reducible apply next_keep
    | with_reducible apply setGate_keep (hP.mono (by decide))
    | with_reducible apply refreshGate_keep (hP.mono (by decide))
    | with_reducible apply commandRow_keep (hP.mono (by decide))
    | with_reducible apply acceptNow_keep (hP.mono (by decide))
    | with_reducible apply checked_keep (hP.mono (by decide))

theorem execGateDel_keep {P : State → Prop} (hP : Keeps [.regs, .gens, .dram, .gates, .rings, .svc, .col] P) (e : CmdEntry) (s : State) (hst : P s) :
    AllNext P (execGateDel e s) := by
  unfold execGateDel
  repeat' first
    | with_reducible assumption
    | (first | intro x | (lift_lets -underBinder; intro x)
       first
       | (with_reducible refine (fun hx => ?_) (?_ : P x)
          on_goal 1 => clear_value x
          on_goal 2 => (unfold x; clear x))
       | clear_value x
       | skip)
    | with_reducible apply next_keep
    | with_reducible apply setGate_keep (hP.mono (by decide))
    | with_reducible apply setReg_keep (hP.mono (by decide))
    | with_reducible apply advGen_keep (hP.mono (by decide))
    | with_reducible apply commandRow_keep (hP.mono (by decide))
    | with_reducible apply acceptNow_keep (hP.mono (by decide))
    | with_reducible apply liveEnd_keep (hP.mono (by decide))
    | with_reducible apply checked_keep (hP.mono (by decide))
    | with_reducible apply each_keep

theorem execMotorNew_keep {P : State → Prop} (hP : Keeps [.dram, .motors, .rings, .svc] P) (e : CmdEntry) (s : State) (hst : P s) :
    AllNext P (execMotorNew e s) := by
  unfold execMotorNew
  repeat' first
    | with_reducible assumption
    | (first | intro x | (lift_lets -underBinder; intro x)
       first
       | (with_reducible refine (fun hx => ?_) (?_ : P x)
          on_goal 1 => clear_value x
          on_goal 2 => (unfold x; clear x))
       | clear_value x
       | skip)
    | with_reducible apply next_keep
    | with_reducible apply setMotor_keep (hP.mono (by decide))
    | with_reducible apply commandRow_keep (hP.mono (by decide))
    | with_reducible apply acceptNow_keep (hP.mono (by decide))
    | with_reducible apply checked_keep (hP.mono (by decide))

theorem execMotorDel_keep {P : State → Prop} (hP : Keeps [.regs, .gens, .dram, .motors, .rings, .svc] P) (e : CmdEntry) (s : State) (hst : P s) :
    AllNext P (execMotorDel e s) := by
  unfold execMotorDel
  repeat' first
    | with_reducible assumption
    | (first | intro x | (lift_lets -underBinder; intro x)
       first
       | (with_reducible refine (fun hx => ?_) (?_ : P x)
          on_goal 1 => clear_value x
          on_goal 2 => (unfold x; clear x))
       | clear_value x
       | skip)
    | with_reducible apply next_keep
    | with_reducible apply setMotor_keep (hP.mono (by decide))
    | with_reducible apply setReg_keep (hP.mono (by decide))
    | with_reducible apply advGen_keep (hP.mono (by decide))
    | with_reducible apply commandRow_keep (hP.mono (by decide))
    | with_reducible apply acceptNow_keep (hP.mono (by decide))
    | with_reducible apply checked_keep (hP.mono (by decide))
    | with_reducible apply each_keep

theorem execCapNew_keep {P : State → Prop} (hP : Keeps [.dram, .caps, .rings, .svc] P) (e : CmdEntry) (s : State) (hst : P s) :
    AllNext P (execCapNew e s) := by
  unfold execCapNew
  repeat' first
    | with_reducible assumption
    | (first | intro x | (lift_lets -underBinder; intro x)
       first
       | (with_reducible refine (fun hx => ?_) (?_ : P x)
          on_goal 1 => clear_value x
          on_goal 2 => (unfold x; clear x))
       | clear_value x
       | skip)
    | with_reducible apply next_keep
    | with_reducible apply setCap_keep (hP.mono (by decide))
    | with_reducible apply commandRow_keep (hP.mono (by decide))
    | with_reducible apply acceptNow_keep (hP.mono (by decide))
    | with_reducible apply checked_keep (hP.mono (by decide))

theorem execCapStart_keep {P : State → Prop} (hP : Keeps [.dram, .caps, .rings, .svc] P) (e : CmdEntry) (s : State) (hst : P s) :
    AllNext P (execCapStart e s) := by
  unfold execCapStart
  repeat' first
    | with_reducible assumption
    | (first | intro x | (lift_lets -underBinder; intro x)
       first
       | (with_reducible refine (fun hx => ?_) (?_ : P x)
          on_goal 1 => clear_value x
          on_goal 2 => (unfold x; clear x))
       | clear_value x
       | skip)
    | with_reducible apply next_keep
    | with_reducible apply updCap_keep (hP.mono (by decide))
    | with_reducible apply commandRow_keep (hP.mono (by decide))
    | with_reducible apply acceptNow_keep (hP.mono (by decide))
    | with_reducible apply checked_keep (hP.mono (by decide))

theorem execCapStop_keep {P : State → Prop} (hP : Keeps [.dram, .caps, .rings, .svc] P) (e : CmdEntry) (s : State) (hst : P s) :
    AllNext P (execCapStop e s) := by
  unfold execCapStop
  repeat' first
    | with_reducible assumption
    | (first | intro x | (lift_lets -underBinder; intro x)
       first
       | (with_reducible refine (fun hx => ?_) (?_ : P x)
          on_goal 1 => clear_value x
          on_goal 2 => (unfold x; clear x))
       | clear_value x
       | skip)
    | with_reducible apply ite_keep
    | split
    | with_reducible apply next_keep
    | with_reducible apply setCap_keep (hP.mono (by decide))
    | with_reducible apply acceptLater_keep (hP.mono (by decide))
    | with_reducible apply commandRow_keep (hP.mono (by decide))
    | with_reducible apply acceptNow_keep (hP.mono (by decide))
    | with_reducible apply checked_keep (hP.mono (by decide))

theorem execCapDel_keep {P : State → Prop} (hP : Keeps [.gens, .dram, .caps, .rings, .svc] P) (e : CmdEntry) (s : State) (hst : P s) :
    AllNext P (execCapDel e s) := by
  unfold execCapDel
  repeat' first
    | with_reducible assumption
    | (first | intro x | (lift_lets -underBinder; intro x)
       first
       | (with_reducible refine (fun hx => ?_) (?_ : P x)
          on_goal 1 => clear_value x
          on_goal 2 => (unfold x; clear x))
       | clear_value x
       | skip)
    | with_reducible apply next_keep
    | with_reducible apply advGen_keep (hP.mono (by decide))
    | with_reducible apply setCap_keep (hP.mono (by decide))
    | with_reducible apply commandRow_keep (hP.mono (by decide))
    | with_reducible apply acceptNow_keep (hP.mono (by decide))
    | with_reducible apply checked_keep (hP.mono (by decide))

theorem execInjNew_keep {P : State → Prop} (hP : Keeps [.dram, .injs, .rings, .svc] P) (e : CmdEntry) (s : State) (hst : P s) :
    AllNext P (execInjNew e s) := by
  unfold execInjNew
  repeat' first
    | with_reducible assumption
    | (first | intro x | (lift_lets -underBinder; intro x)
       first
       | (with_reducible refine (fun hx => ?_) (?_ : P x)
          on_goal 1 => clear_value x
          on_goal 2 => (unfold x; clear x))
       | clear_value x
       | skip)
    | with_reducible apply ite_keep
    | split
    | with_reducible apply next_keep
    | with_reducible apply setInj_keep (hP.mono (by decide))
    | with_reducible apply commandRow_keep (hP.mono (by decide))
    | with_reducible apply acceptNow_keep (hP.mono (by decide))
    | with_reducible apply checked_keep (hP.mono (by decide))
    | with_reducible refine foldl_keep P _ ?_ _ _ ?_
    | with_reducible refine eq_keep (by assumption) ?_
    | with_reducible refine foldl_pair_keep _ ?_ _ ?_
    | dsimp only

theorem execInjStart_keep {P : State → Prop} (hP : Keeps [.dram, .injs, .rings, .svc] P) (e : CmdEntry) (s : State) (hst : P s) :
    AllNext P (execInjStart e s) := by
  unfold execInjStart
  repeat' first
    | with_reducible assumption
    | (first | intro x | (lift_lets -underBinder; intro x)
       first
       | (with_reducible refine (fun hx => ?_) (?_ : P x)
          on_goal 1 => clear_value x
          on_goal 2 => (unfold x; clear x))
       | clear_value x
       | skip)
    | with_reducible apply next_keep
    | with_reducible apply setInj_keep (hP.mono (by decide))
    | with_reducible apply acceptLater_keep (hP.mono (by decide))
    | with_reducible apply commandRow_keep (hP.mono (by decide))
    | with_reducible apply checked_keep (hP.mono (by decide))

theorem execInjStop_keep {P : State → Prop} (hP : Keeps [.dram, .injs, .rings, .svc] P) (e : CmdEntry) (s : State) (hst : P s) :
    AllNext P (execInjStop e s) := by
  unfold execInjStop
  repeat' first
    | with_reducible assumption
    | (first | intro x | (lift_lets -underBinder; intro x)
       first
       | (with_reducible refine (fun hx => ?_) (?_ : P x)
          on_goal 1 => clear_value x
          on_goal 2 => (unfold x; clear x))
       | clear_value x
       | skip)
    | with_reducible apply next_keep
    | with_reducible apply updInj_keep (hP.mono (by decide))
    | with_reducible apply acceptLater_keep (hP.mono (by decide))
    | with_reducible apply commandRow_keep (hP.mono (by decide))
    | with_reducible apply checked_keep (hP.mono (by decide))

theorem execInjDel_keep {P : State → Prop} (hP : Keeps [.gens, .dram, .injs, .rings, .svc] P) (e : CmdEntry) (s : State) (hst : P s) :
    AllNext P (execInjDel e s) := by
  unfold execInjDel
  repeat' first
    | with_reducible assumption
    | (first | intro x | (lift_lets -underBinder; intro x)
       first
       | (with_reducible refine (fun hx => ?_) (?_ : P x)
          on_goal 1 => clear_value x
          on_goal 2 => (unfold x; clear x))
       | clear_value x
       | skip)
    | with_reducible apply next_keep
    | with_reducible apply advGen_keep (hP.mono (by decide))
    | with_reducible apply setInj_keep (hP.mono (by decide))
    | with_reducible apply commandRow_keep (hP.mono (by decide))
    | with_reducible apply acceptNow_keep (hP.mono (by decide))
    | with_reducible apply checked_keep (hP.mono (by decide))

theorem execFenceQuery_keep {P : State → Prop} (hP : Keeps [.dram, .rings, .svc] P) (e : CmdEntry) (s : State) (hst : P s) :
    AllNext P (execFenceQuery e s) := by
  unfold execFenceQuery
  repeat' first
    | with_reducible assumption
    | intro x
    | with_reducible apply ite_keep
    | split
    | with_reducible apply next_keep
    | with_reducible apply commandRow_keep (hP.mono (by decide))
    | with_reducible apply acceptNow_keep (hP.mono (by decide))
    | with_reducible apply refuse_keep (hP.mono (by decide))
    | with_reducible refine eq_keep (by assumption) ?_

theorem execStnInfo_keep {P : State → Prop} (hP : Keeps [.dram, .rings, .svc] P) (e : CmdEntry) (s : State) (hst : P s) :
    AllNext P (execStnInfo e s) := by
  unfold execStnInfo
  repeat' first
    | with_reducible assumption
    | intro x
    | with_reducible apply next_keep
    | with_reducible apply commandRow_keep (hP.mono (by decide))
    | with_reducible apply acceptNow_keep (hP.mono (by decide))

-- Motors

theorem motEvent_keep {P : State → Prop} (hP : Keeps [.regs, .col, .host] P) (ch : Nat) (bit : Nat) (cls : Nat) (s : State) (hst : P s) :
    P (motEvent ch bit cls s) := by
  unfold motEvent
  repeat' first
    | with_reducible assumption
    | (first | intro x | (lift_lets -underBinder; intro x)
       first
       | (with_reducible refine (fun hx => ?_) (?_ : P x)
          on_goal 1 => clear_value x
          on_goal 2 => (unfold x; clear x))
       | clear_value x
       | skip)
    | with_reducible apply raise_keep (hP.mono (by decide))

theorem onMotor_keep {P : State → Prop} (hP : Keeps [] P) (ch : Nat) (f : Nat → Motor → State → State) (s : State) (hf : ∀ a0 a1 a2, P a2 → P (f a0 a1 a2)) (hst : P s) :
    P (onMotor ch f s) := by
  unfold onMotor
  repeat' first
    | with_reducible assumption
    | with_reducible apply ite_keep
    | split
    | with_reducible apply hf
    | with_reducible refine eq_keep (by assumption) ?_

theorem postSteps_keep {P : State → Prop} (hP : Keeps [.chans] P) (ch : Nat) (l : List (Nat × Nat)) (s : State) (hst : P s) :
    P (postSteps ch l s) := by
  unfold postSteps
  repeat' first
    | with_reducible assumption
    | intro x
    | with_reducible apply updChan_keep (hP.mono (by decide))

theorem abandon_keep {P : State → Prop} (hP : Keeps [.chans, .motors] P) (ch : Nat) (i : Nat) (now : Nat) (l : List Nat) (s : State) (hst : P s) :
    P (abandon ch i now l s) := by
  unfold abandon
  repeat' first
    | with_reducible assumption
    | (first | intro x | (lift_lets -underBinder; intro x)
       first
       | (with_reducible refine (fun hx => ?_) (?_ : P x)
          on_goal 1 => clear_value x
          on_goal 2 => (unfold x; clear x))
       | clear_value x
       | skip)
    | with_reducible apply ite_keep
    | split
    | with_reducible apply updMotor_keep (hP.mono (by decide))
    | with_reducible apply updChan_keep (hP.mono (by decide))

theorem enterAlign_keep {P : State → Prop} (hP : Keeps [.motors] P) (i : Nat) (now : Nat) (s : State) (hst : P s) :
    P (enterAlign i now s) := by
  unfold enterAlign
  repeat' first
    | with_reducible assumption
    | intro x
    | with_reducible apply updMotor_keep (hP.mono (by decide))

theorem retryOrStop_keep {P : State → Prop} (hP : Keeps [.regs, .chans, .motors, .col, .host] P) (ch : Nat) (bit : Nat) (now : Nat) (s : State) (hst : P s) :
    P (retryOrStop ch bit now s) := by
  unfold retryOrStop
  repeat' first
    | with_reducible assumption
    | intro x
    | with_reducible apply ite_keep
    | split
    | with_reducible apply updMotor_keep (hP.mono (by decide))
    | with_reducible apply motEvent_keep (hP.mono (by decide))
    | with_reducible apply onMotor_keep (hP.mono (by decide))
    | with_reducible apply abandon_keep (hP.mono (by decide))

theorem brake_keep {P : State → Prop} (hP : Keeps [.chans, .motors] P) (ch : Nat) (i : Nat) (now : Nat) (s : State) (hst : P s) :
    P (brake ch i now s) := by
  unfold brake
  repeat' first
    | with_reducible assumption
    | intro x
    | with_reducible apply updMotor_keep (hP.mono (by decide))
    | with_reducible apply abandon_keep (hP.mono (by decide))

theorem execStepChangeApply_keep {P : State → Prop} (hP : Keeps [.regs, .chans, .timers, .trips, .motors] P) (ch : Fin 512) (now : Nat) (sample : Option FloatIn) (s : State) (hst : P s) :
    AllNext P (execStepChangeApply ch now sample s) := by
  unfold execStepChangeApply
  repeat' first
    | with_reducible assumption
    | (first | intro x | (lift_lets -underBinder; intro x)
       first
       | (with_reducible refine (fun hx => ?_) (?_ : P x)
          on_goal 1 => clear_value x
          on_goal 2 => (unfold x; clear x))
       | clear_value x
       | skip)
    | with_reducible apply ite_keep
    | split
    | with_reducible apply next_keep
    | with_reducible apply setMotor_keep (hP.mono (by decide))
    | with_reducible apply updChan_keep (hP.mono (by decide))
    | with_reducible apply takeSample_keep (hP.mono (by decide))
    | with_reducible apply openTimer_keep (hP.mono (by decide))
    | with_reducible apply onMotor_keep (hP.mono (by decide))
    | with_reducible refine eq_keep (by assumption) ?_

theorem motorForced_keep {P : State → Prop} (hP : Keeps [.chans, .motors] P) (ch : Nat) (now : Nat) (s : State) (hst : P s) :
    P (motorForced ch now s) := by
  unfold motorForced
  repeat' first
    | with_reducible assumption
    | (first | intro x | (lift_lets -underBinder; intro x)
       first
       | (with_reducible refine (fun hx => ?_) (?_ : P x)
          on_goal 1 => clear_value x
          on_goal 2 => (unfold x; clear x))
       | clear_value x
       | skip)
    | with_reducible apply ite_keep
    | split
    | with_reducible apply setMotor_keep (hP.mono (by decide))
    | with_reducible apply enterAlign_keep (hP.mono (by decide))
    | with_reducible apply postSteps_keep (hP.mono (by decide))
    | with_reducible apply onMotor_keep (hP.mono (by decide))

theorem execCrookForceApply_keep {P : State → Prop} (hP : Keeps [.chans, .terms, .motors] P) (t : Fin 512) (now : Nat) (s : State) (hst : P s) :
    AllNext P (execCrookForceApply t now s) := by
  unfold execCrookForceApply
  repeat' first
    | with_reducible assumption
    | (first | intro x | (lift_lets -underBinder; intro x)
       first
       | (with_reducible refine (fun hx => ?_) (?_ : P x)
          on_goal 1 => clear_value x
          on_goal 2 => (unfold x; clear x))
       | clear_value x
       | skip)
    | with_reducible apply ite_keep
    | split
    | exact ⟨fun h1 h2 => ⟨h1, h2⟩⟩
    | with_reducible apply next_keep
    | with_reducible apply updTerm_keep (hP.mono (by decide))
    | with_reducible apply motorForced_keep (hP.mono (by decide))
    | with_reducible refine eq_keep (by assumption) ?_

theorem motorArm_keep {P : State → Prop} (hP : Keeps [.chans, .timers, .trips, .motors] P) (ch : Nat) (now : Nat) (s : State) (hst : P s) :
    P (motorArm ch now s) := by
  unfold motorArm
  repeat' first
    | with_reducible assumption
    | (first | intro x | (lift_lets -underBinder; intro x)
       first
       | (with_reducible refine (fun hx => ?_) (?_ : P x)
          on_goal 1 => clear_value x
          on_goal 2 => (unfold x; clear x))
       | clear_value x
       | skip)
    | with_reducible apply ite_keep
    | split
    | with_reducible apply setMotor_keep (hP.mono (by decide))
    | with_reducible apply updChan_keep (hP.mono (by decide))
    | with_reducible apply motorForced_keep (hP.mono (by decide))
    | with_reducible apply enterAlign_keep (hP.mono (by decide))
    | with_reducible apply openTimer_keep (hP.mono (by decide))
    | with_reducible apply onMotor_keep (hP.mono (by decide))

theorem execAlignEnd_keep {P : State → Prop} (hP : Keeps [.chans, .motors] P) (ch : Fin 512) (now : Nat) (s : State) (hst : P s) :
    AllNext P (execAlignEnd ch now s) := by
  unfold execAlignEnd
  repeat' first
    | with_reducible assumption
    | intro x
    | with_reducible apply ite_keep
    | split
    | with_reducible apply next_keep
    | with_reducible apply setMotor_keep (hP.mono (by decide))
    | with_reducible apply postSteps_keep (hP.mono (by decide))
    | with_reducible apply onMotor_keep (hP.mono (by decide))

theorem postNext_keep {P : State → Prop} (hP : Keeps [.chans, .motors] P) (ch : Nat) (i : Nat) (now : Nat) (m : Motor) (s : State) (hst : P s) :
    P (postNext ch i now m s) := by
  unfold postNext
  repeat' first
    | with_reducible assumption
    | with_reducible apply setMotor_keep (hP.mono (by decide))
    | with_reducible apply postSteps_keep (hP.mono (by decide))

theorem execForcedStep_keep {P : State → Prop} (hP : Keeps [.chans, .motors] P) (ch : Fin 512) (now : Nat) (s : State) (hst : P s) :
    AllNext P (execForcedStep ch now s) := by
  unfold execForcedStep
  repeat' first
    | with_reducible assumption
    | intro x
    | with_reducible apply ite_keep
    | split
    | with_reducible apply next_keep
    | with_reducible apply postNext_keep (hP.mono (by decide))
    | with_reducible apply onMotor_keep (hP.mono (by decide))

theorem execMotorHandover_keep {P : State → Prop} (hP : Keeps [.regs, .motors, .col, .host] P) (ch : Fin 512) (now : Nat) (s : State) (hst : P s) :
    AllNext P (execMotorHandover ch now s) := by
  unfold execMotorHandover
  repeat' first
    | with_reducible assumption
    | intro x
    | with_reducible apply ite_keep
    | split
    | with_reducible apply next_keep
    | with_reducible apply setMotor_keep (hP.mono (by decide))
    | with_reducible apply motEvent_keep (hP.mono (by decide))
    | with_reducible apply onMotor_keep (hP.mono (by decide))
    | with_reducible refine eq_keep (by assumption) ?_

theorem execLockedRotor_keep {P : State → Prop} (hP : Keeps [.regs, .chans, .motors, .col, .host] P) (ch : Fin 512) (now : Nat) (s : State) (hst : P s) :
    AllNext P (execLockedRotor ch now s) := by
  unfold execLockedRotor
  repeat' first
    | with_reducible assumption
    | intro x
    | with_reducible apply ite_keep
    | split
    | with_reducible apply next_keep
    | with_reducible apply retryOrStop_keep (hP.mono (by decide))
    | with_reducible apply onMotor_keep (hP.mono (by decide))

theorem execRampHoldEnd_keep {P : State → Prop} (hP : Keeps [.regs, .chans, .motors, .col, .host] P) (ch : Fin 512) (now : Nat) (s : State) (hst : P s) :
    AllNext P (execRampHoldEnd ch now s) := by
  unfold execRampHoldEnd
  repeat' first
    | with_reducible assumption
    | intro x
    | with_reducible apply ite_keep
    | split
    | with_reducible apply next_keep
    | with_reducible apply retryOrStop_keep (hP.mono (by decide))
    | with_reducible apply onMotor_keep (hP.mono (by decide))

theorem execBlankEnd_keep {P : State → Prop} (hP : Keeps [.motors] P) (ch : Fin 512) (now : Nat) (s : State) (hst : P s) :
    AllNext P (execBlankEnd ch now s) := by
  unfold execBlankEnd
  repeat' first
    | with_reducible assumption
    | intro x
    | with_reducible apply ite_keep
    | split
    | with_reducible apply next_keep
    | with_reducible apply setMotor_keep (hP.mono (by decide))
    | with_reducible apply onMotor_keep (hP.mono (by decide))

theorem judgeSpeed_keep {P : State → Prop} (hP : Keeps [.regs, .chans, .motors, .col, .host] P) (ch : Nat) (old : Nat) (new : Nat) (now : Nat) (missed : Bool) (s : State) (hst : P s) :
    P (judgeSpeed ch old new now missed s) := by
  unfold judgeSpeed
  repeat' first
    | with_reducible assumption
    | (first | intro x | (lift_lets -underBinder; intro x)
       first
       | (with_reducible refine (fun hx => ?_) (?_ : P x)
          on_goal 1 => clear_value x
          on_goal 2 => (unfold x; clear x))
       | clear_value x
       | skip)
    | with_reducible apply ite_keep
    | split
    | with_reducible apply retryOrStop_keep (hP.mono (by decide))
    | with_reducible apply motEvent_keep (hP.mono (by decide))
    | with_reducible apply onMotor_keep (hP.mono (by decide))
    | with_reducible apply abandon_keep (hP.mono (by decide))
    | with_reducible apply brake_keep (hP.mono (by decide))

theorem acceptCrossing_keep {P : State → Prop} (hP : Keeps [.regs, .chans, .motors, .col, .host] P) (ch : Nat) (i : Nat) (z : Nat) (now : Nat) (s : State) (hst : P s) :
    P (acceptCrossing ch i z now s) := by
  unfold acceptCrossing
  repeat' first
    | with_reducible assumption
    | (first | intro x | (lift_lets -underBinder; intro x)
       first
       | (with_reducible refine (fun hx => ?_) (?_ : P x)
          on_goal 1 => clear_value x
          on_goal 2 => (unfold x; clear x))
       | clear_value x
       | skip)
    | with_reducible apply ite_keep
    | split
    | with_reducible apply setMotor_keep (hP.mono (by decide))
    | with_reducible apply bump_keep (hP.mono (by decide))
    | with_reducible apply judgeSpeed_keep (hP.mono (by decide))

theorem execCrossingConfirmed_keep {P : State → Prop} (hP : Keeps [.regs, .chans, .motors, .col, .host] P) (ch : Fin 512) (now : Nat) (sample : Option FloatIn) (s : State) (hst : P s) :
    AllNext P (execCrossingConfirmed ch now sample s) := by
  unfold execCrossingConfirmed
  repeat' first
    | with_reducible assumption
    | intro x
    | with_reducible apply ite_keep
    | split
    | with_reducible apply next_keep
    | with_reducible apply setMotor_keep (hP.mono (by decide))
    | with_reducible apply acceptCrossing_keep (hP.mono (by decide))
    | with_reducible apply takeSample_keep (hP.mono (by decide))
    | with_reducible apply rejectRun_keep (hP.mono (by decide))
    | with_reducible apply onMotor_keep (hP.mono (by decide))

theorem execCommutationPost_keep {P : State → Prop} (hP : Keeps [.chans, .motors] P) (ch : Fin 512) (now : Nat) (s : State) (hst : P s) :
    AllNext P (execCommutationPost ch now s) := by
  unfold execCommutationPost
  repeat' first
    | with_reducible assumption
    | intro x
    | with_reducible apply ite_keep
    | split
    | with_reducible apply next_keep
    | with_reducible apply postNext_keep (hP.mono (by decide))
    | with_reducible apply onMotor_keep (hP.mono (by decide))

theorem execSyntheticCommutation_keep {P : State → Prop} (hP : Keeps [.regs, .chans, .motors, .col, .host] P) (ch : Fin 512) (now : Nat) (s : State) (hst : P s) :
    AllNext P (execSyntheticCommutation ch now s) := by
  unfold execSyntheticCommutation
  repeat' first
    | with_reducible assumption
    | (first | intro x | (lift_lets -underBinder; intro x)
       first
       | (with_reducible refine (fun hx => ?_) (?_ : P x)
          on_goal 1 => clear_value x
          on_goal 2 => (unfold x; clear x))
       | clear_value x
       | skip)
    | with_reducible apply ite_keep
    | split
    | with_reducible apply next_keep
    | with_reducible apply bump_keep (hP.mono (by decide))
    | with_reducible apply judgeSpeed_keep (hP.mono (by decide))
    | with_reducible apply postNext_keep (hP.mono (by decide))
    | with_reducible apply onMotor_keep (hP.mono (by decide))

theorem execReverse_keep {P : State → Prop} (hP : Keeps [.chans, .motors] P) (ch : Fin 512) (now : Nat) (s : State) (hst : P s) :
    AllNext P (execReverse ch now s) := by
  unfold execReverse
  repeat' first
    | with_reducible assumption
    | intro x
    | with_reducible apply ite_keep
    | split
    | with_reducible apply next_keep
    | with_reducible apply onMotor_keep (hP.mono (by decide))
    | with_reducible apply brake_keep (hP.mono (by decide))

theorem execBrakeEnd_keep {P : State → Prop} (hP : Keeps [.regs, .motors, .col, .host] P) (ch : Fin 512) (now : Nat) (s : State) (hst : P s) :
    AllNext P (execBrakeEnd ch now s) := by
  unfold execBrakeEnd
  repeat' first
    | with_reducible assumption
    | intro x
    | with_reducible apply ite_keep
    | split
    | with_reducible apply next_keep
    | with_reducible apply setMotor_keep (hP.mono (by decide))
    | with_reducible apply motEvent_keep (hP.mono (by decide))
    | with_reducible apply onMotor_keep (hP.mono (by decide))

theorem execCoastEnd_keep {P : State → Prop} (hP : Keeps [.regs, .chans, .motors, .col, .host] P) (ch : Fin 512) (now : Nat) (s : State) (hst : P s) :
    AllNext P (execCoastEnd ch now s) := by
  unfold execCoastEnd
  repeat' first
    | with_reducible assumption
    | (first | intro x | (lift_lets -underBinder; intro x)
       first
       | (with_reducible refine (fun hx => ?_) (?_ : P x)
          on_goal 1 => clear_value x
          on_goal 2 => (unfold x; clear x))
       | clear_value x
       | skip)
    | with_reducible apply ite_keep
    | split
    | with_reducible apply next_keep
    | with_reducible apply bump_keep (hP.mono (by decide))
    | with_reducible apply enterAlign_keep (hP.mono (by decide))
    | with_reducible apply postSteps_keep (hP.mono (by decide))
    | with_reducible apply motEvent_keep (hP.mono (by decide))
    | with_reducible apply onMotor_keep (hP.mono (by decide))

theorem execRetryReload_keep {P : State → Prop} (hP : Keeps [.motors] P) (ch : Fin 512) (now : Nat) (s : State) (hst : P s) :
    AllNext P (execRetryReload ch now s) := by
  unfold execRetryReload
  repeat' first
    | with_reducible assumption
    | intro x
    | with_reducible apply ite_keep
    | split
    | with_reducible apply next_keep
    | with_reducible apply setMotor_keep (hP.mono (by decide))
    | with_reducible apply onMotor_keep (hP.mono (by decide))

-- Operands

theorem boundsFault_keep {P : State → Prop} (hP : Keeps [.regs, .runs, .col, .host] P) (e : Nat) (a : Nat) (s : State) (hst : P s) :
    P (boundsFault e a s) := by
  unfold boundsFault
  repeat' first
    | with_reducible assumption
    | (first | intro x | (lift_lets -underBinder; intro x)
       first
       | (with_reducible refine (fun hx => ?_) (?_ : P x)
          on_goal 1 => clear_value x
          on_goal 2 => (unfold x; clear x))
       | clear_value x
       | skip)
    | with_reducible apply ite_keep
    | split
    | with_reducible apply setRun_keep (hP.mono (by decide))
    | with_reducible apply bump_keep (hP.mono (by decide))
    | with_reducible apply raise_keep (hP.mono (by decide))

theorem loadView_keep {P : State → Prop} (hP : Keeps [.regs, .runs, .col, .host] P) (e : Nat) (n : Nat) (w : W) (s : State) (hst : P s) :
    P (loadView e n w s).2 := by
  unfold loadView
  repeat' first
    | with_reducible assumption
    | (first | intro x | (lift_lets -underBinder; intro x)
       first
       | (with_reducible refine (fun hx => ?_) (?_ : P x)
          on_goal 1 => clear_value x
          on_goal 2 => (unfold x; clear x))
       | clear_value x
       | skip)
    | with_reducible apply ite_keep
    | split
    | with_reducible apply boundsFault_keep (hP.mono (by decide))
    | with_reducible refine eq_keep (by assumption) ?_
    | dsimp only

theorem storeAt_keep {P : State → Prop} (hP : Keeps [.regs, .ws, .chans, .runs, .col, .host] P) (e : Nat) (n : Nat) (val : Nat) (a : Nat) (s : State) (hst : P s) :
    P (storeAt e n val a s) := by
  unfold storeAt
  repeat' first
    | with_reducible assumption
    | (first | intro x | (lift_lets -underBinder; intro x)
       first
       | (with_reducible refine (fun hx => ?_) (?_ : P x)
          on_goal 1 => clear_value x
          on_goal 2 => (unfold x; clear x))
       | clear_value x
       | skip)
    | with_reducible apply ite_keep
    | split
    | with_reducible apply updChan_keep (hP.mono (by decide))
    | with_reducible apply setRun_keep (hP.mono (by decide))
    | with_reducible apply putWs_keep (hP.mono (by decide))
    | with_reducible apply boundsFault_keep (hP.mono (by decide))
    | with_reducible refine eq_keep (by assumption) ?_

theorem storeView_keep {P : State → Prop} (hP : Keeps [.regs, .ws, .chans, .runs, .col, .host] P) (e : Nat) (n : Nat) (val : Nat) (w : W) (s : State) (hst : P s) :
    P (storeView e n val w s) := by
  unfold storeView
  repeat' first
    | with_reducible assumption
    | with_reducible apply storeAt_keep (hP.mono (by decide))

-- Leases

theorem shdEvent_keep {P : State → Prop} (hP : Keeps [.regs, .col, .host] P) (f : Nat) (bit : Nat) (cls : Nat) (okind : Nat) (object : Nat) (s : State) (hst : P s) :
    P (shdEvent f bit cls okind object s) := by
  unfold shdEvent
  repeat' first
    | with_reducible assumption
    | with_reducible apply raise_keep (hP.mono (by decide))

theorem shdChan_keep {P : State → Prop} (hP : Keeps [.regs, .col, .host] P) (ch : Nat) (bit : Nat) (cls : Nat) (s : State) (hst : P s) :
    P (shdChan ch bit cls s) := by
  unfold shdChan
  repeat' first
    | with_reducible assumption
    | with_reducible apply shdEvent_keep (hP.mono (by decide))

theorem updLease_keep {P : State → Prop} (hP : Keeps [.chans] P) (s : State) (ch : Nat) (f : Lease → Lease) (hst : P s) :
    P (State.updLease s ch f) := by
  unfold State.updLease
  repeat' first
    | with_reducible assumption
    | intro x
    | with_reducible apply updChan_keep (hP.mono (by decide))

theorem copyArea_keep {P : State → Prop} (hP : Keeps [.ws] P) (ch : Nat) (src : Bool) (s : State) (hst : P s) :
    P (copyArea ch src s) := by
  unfold copyArea
  repeat' first
    | with_reducible assumption
    | (first | intro x | (lift_lets -underBinder; intro x)
       first
       | (with_reducible refine (fun hx => ?_) (?_ : P x)
          on_goal 1 => clear_value x
          on_goal 2 => (unfold x; clear x))
       | (with_reducible refine (fun hfun => ?_) (?_ : ∀ a, P a → P (x a))
          on_goal 1 => clear_value x
          on_goal 2 => (unfold x; clear x))
       | (with_reducible refine (fun hfun => ?_) (?_ : ∀ a b, P b → P (x a b))
          on_goal 1 => clear_value x
          on_goal 2 => (unfold x; clear x))
       | (with_reducible refine (fun hfun => ?_) (?_ : ∀ a b c, P c → P (x a b c))
          on_goal 1 => clear_value x
          on_goal 2 => (unfold x; clear x))
       | (with_reducible refine (fun hfun => ?_) (?_ : ∀ a b c d, P d → P (x a b c d))
          on_goal 1 => clear_value x
          on_goal 2 => (unfold x; clear x))
       | (with_reducible refine (fun hx => ?_) (?_ : P x.2)
          on_goal 1 => clear_value x
          on_goal 2 => (unfold x; clear x))
       | (with_reducible refine (fun hfun => ?_) (?_ : ∀ a, P (x a))
          on_goal 1 => clear_value x
          on_goal 2 => (unfold x; clear x))
       | (with_reducible refine (fun hfun => ?_) (?_ : ∀ a b c, P (x a b c))
          on_goal 1 => clear_value x
          on_goal 2 => (unfold x; clear x))
       | clear_value x
       | skip)
    | with_reducible apply hfun
    | with_reducible apply ite_keep
    | split
    | with_reducible apply putWs_keep (hP.mono (by decide))

theorem assignToken_keep {P : State → Prop} (hP : Keeps [.regs, .chans] P) (ch : Nat) (side : Bool) (s : State) (hst : P s) :
    P (assignToken ch side s) := by
  unfold assignToken
  repeat' first
    | with_reducible assumption
    | intro x
    | with_reducible apply updLease_keep (hP.mono (by decide))
    | with_reducible apply updChan_keep (hP.mono (by decide))
    | with_reducible apply bump_keep (hP.mono (by decide))

theorem loseStandby_keep {P : State → Prop} (hP : Keeps [.regs, .chans, .col, .host] P) (ch : Nat) (s : State) (hst : P s) :
    P (loseStandby ch s) := by
  unfold loseStandby
  repeat' first
    | with_reducible assumption
    | (first | intro x | (lift_lets -underBinder; intro x)
       first
       | (with_reducible refine (fun hx => ?_) (?_ : P x)
          on_goal 1 => clear_value x
          on_goal 2 => (unfold x; clear x))
       | clear_value x
       | skip)
    | with_reducible apply ite_keep
    | split
    | with_reducible apply updLease_keep (hP.mono (by decide))
    | with_reducible apply shdChan_keep (hP.mono (by decide))

theorem handover_keep {P : State → Prop} (hP : Keeps [.regs, .chans, .col, .host] P) (ch : Nat) (s : State) (hst : P s) :
    P (handover ch s) := by
  unfold handover
  repeat' first
    | with_reducible assumption
    | (first | intro x | (lift_lets -underBinder; intro x)
       first
       | (with_reducible refine (fun hx => ?_) (?_ : P x)
          on_goal 1 => clear_value x
          on_goal 2 => (unfold x; clear x))
       | (with_reducible refine (fun hfun => ?_) (?_ : ∀ a, P a → P (x a))
          on_goal 1 => clear_value x
          on_goal 2 => (unfold x; clear x))
       | (with_reducible refine (fun hfun => ?_) (?_ : ∀ a b, P b → P (x a b))
          on_goal 1 => clear_value x
          on_goal 2 => (unfold x; clear x))
       | (with_reducible refine (fun hfun => ?_) (?_ : ∀ a b c, P c → P (x a b c))
          on_goal 1 => clear_value x
          on_goal 2 => (unfold x; clear x))
       | (with_reducible refine (fun hfun => ?_) (?_ : ∀ a b c d, P d → P (x a b c d))
          on_goal 1 => clear_value x
          on_goal 2 => (unfold x; clear x))
       | (with_reducible refine (fun hx => ?_) (?_ : P x.2)
          on_goal 1 => clear_value x
          on_goal 2 => (unfold x; clear x))
       | (with_reducible refine (fun hfun => ?_) (?_ : ∀ a, P (x a))
          on_goal 1 => clear_value x
          on_goal 2 => (unfold x; clear x))
       | (with_reducible refine (fun hfun => ?_) (?_ : ∀ a b c, P (x a b c))
          on_goal 1 => clear_value x
          on_goal 2 => (unfold x; clear x))
       | clear_value x
       | skip)
    | with_reducible apply hfun
    | with_reducible apply updLease_keep (hP.mono (by decide))
    | with_reducible apply withdrawToken_keep (hP.mono (by decide))
    | with_reducible apply loseStandby_keep (hP.mono (by decide))

theorem leaseLost_keep {P : State → Prop} (hP : Keeps [.regs, .chans, .col, .host] P) (ch : Nat) (s : State) (hst : P s) :
    P (leaseLost ch s) := by
  unfold leaseLost
  repeat' first
    | with_reducible assumption
    | intro x
    | with_reducible apply updLease_keep (hP.mono (by decide))
    | with_reducible apply withdrawToken_keep (hP.mono (by decide))
    | with_reducible apply loseStandby_keep (hP.mono (by decide))
    | with_reducible apply shdChan_keep (hP.mono (by decide))

theorem withdrawCommand_keep {P : State → Prop} (hP : Keeps [.chans] P) (ch : Nat) (s : State) (hst : P s) :
    P (withdrawCommand ch s) := by
  unfold withdrawCommand
  repeat' first
    | with_reducible assumption
    | intro x
    | with_reducible apply updChan_keep (hP.mono (by decide))

theorem queueTest_keep {P : State → Prop} (hP : Keeps [.svc] P) (n : Nat) (s : State) (hst : P s) :
    P (queueTest n s) := by
  unfold queueTest
  repeat' first
    | with_reducible assumption
    | with_reducible apply ite_keep
    | split
    | with_reducible refine deferGetD_keep (hP.mono (by decide)) _ ?_
    | with_reducible refine defer_keep (hP.mono (by decide)) ?_ (by assumption)

theorem retireEngine_keep {P : State → Prop} (hP : Keeps [.health, .runs, .nv] P) (e : Nat) (s : State) (hst : P s) :
    P (retireEngine e s) := by
  unfold retireEngine
  repeat' first
    | with_reducible assumption
    | (first | intro x | (lift_lets -underBinder; intro x)
       first
       | (with_reducible refine (fun hx => ?_) (?_ : P x)
          on_goal 1 => clear_value x
          on_goal 2 => (unfold x; clear x))
       | clear_value x
       | skip)
    | with_reducible apply updHlt_keep (hP.mono (by decide))
    | with_reducible apply setRun_keep (hP.mono (by decide))
    | with_reducible apply upd_nv (hP.mono (by decide))

theorem quarantine_keep {P : State → Prop} (hP : Keeps [.health, .runs, .svc, .nv] P) (e : Nat) (cause : Nat) (s : State) (hst : P s) :
    P (quarantine e cause s) := by
  unfold quarantine
  repeat' first
    | with_reducible assumption
    | (first | intro x | (lift_lets -underBinder; intro x)
       first
       | (with_reducible refine (fun hx => ?_) (?_ : P x)
          on_goal 1 => clear_value x
          on_goal 2 => (unfold x; clear x))
       | clear_value x
       | skip)
    | with_reducible apply ite_keep
    | split
    | with_reducible apply updHlt_keep (hP.mono (by decide))
    | with_reducible apply setRun_keep (hP.mono (by decide))
    | with_reducible apply retireEngine_keep (hP.mono (by decide))
    | with_reducible apply queueTest_keep (hP.mono (by decide))

theorem loseStandbys_keep {P : State → Prop} (hP : Keeps [.regs, .chans, .col, .host] P) (e : Nat) (s : State) (hst : P s) :
    P (loseStandbys e s) := by
  unfold loseStandbys
  repeat' first
    | with_reducible assumption
    | intro x
    | with_reducible apply loseStandby_keep (hP.mono (by decide))
    | with_reducible apply each_keep

theorem retireBroken_keep {P : State → Prop} (hP : Keeps [.regs, .chans, .health, .runs, .col, .host, .nv] P) (s : State) (hst : P s) :
    P (retireBroken s) := by
  unfold retireBroken
  repeat' first
    | with_reducible assumption
    | intro x
    | with_reducible apply ite_keep
    | split
    | with_reducible apply retireEngine_keep (hP.mono (by decide))
    | with_reducible apply loseStandbys_keep (hP.mono (by decide))
    | with_reducible apply each_keep

theorem convictedChan_keep {P : State → Prop} (hP : Keeps [.regs, .chans, .col, .host] P) (conv : List Nat) (ch : Nat) (s : State) (hst : P s) :
    P (convictedChan conv ch s) := by
  unfold convictedChan
  repeat' first
    | with_reducible assumption
    | (first | intro x | (lift_lets -underBinder; intro x)
       first
       | (with_reducible refine (fun hx => ?_) (?_ : P x)
          on_goal 1 => clear_value x
          on_goal 2 => (unfold x; clear x))
       | (with_reducible refine (fun hfun => ?_) (?_ : ∀ a, P a → P (x a))
          on_goal 1 => clear_value x
          on_goal 2 => (unfold x; clear x))
       | (with_reducible refine (fun hfun => ?_) (?_ : ∀ a b, P b → P (x a b))
          on_goal 1 => clear_value x
          on_goal 2 => (unfold x; clear x))
       | (with_reducible refine (fun hfun => ?_) (?_ : ∀ a b c, P c → P (x a b c))
          on_goal 1 => clear_value x
          on_goal 2 => (unfold x; clear x))
       | (with_reducible refine (fun hfun => ?_) (?_ : ∀ a b c d, P d → P (x a b c d))
          on_goal 1 => clear_value x
          on_goal 2 => (unfold x; clear x))
       | (with_reducible refine (fun hx => ?_) (?_ : P x.2)
          on_goal 1 => clear_value x
          on_goal 2 => (unfold x; clear x))
       | (with_reducible refine (fun hfun => ?_) (?_ : ∀ a, P (x a))
          on_goal 1 => clear_value x
          on_goal 2 => (unfold x; clear x))
       | (with_reducible refine (fun hfun => ?_) (?_ : ∀ a b c, P (x a b c))
          on_goal 1 => clear_value x
          on_goal 2 => (unfold x; clear x))
       | clear_value x
       | skip)
    | with_reducible apply hfun
    | with_reducible apply ite_keep
    | split
    | with_reducible apply withdrawToken_keep (hP.mono (by decide))
    | with_reducible apply loseStandby_keep (hP.mono (by decide))
    | with_reducible apply leaseLost_keep (hP.mono (by decide))
    | with_reducible apply handover_keep (hP.mono (by decide))
    | with_reducible refine eq_keep (by assumption) ?_
    | with_reducible refine eq_keep2 (by assumption) ?_

theorem convictAll_keep {P : State → Prop} (hP : Keeps [.regs, .chans, .health, .runs, .svc, .col, .host, .nv] P) (f : Nat) (conv : List (Nat × Nat)) (settled : List Nat) (s : State) (hst : P s) :
    P (convictAll f conv settled s) := by
  unfold convictAll
  repeat' first
    | with_reducible assumption
    | (first | intro x | (lift_lets -underBinder; intro x)
       first
       | (with_reducible refine (fun hx => ?_) (?_ : P x)
          on_goal 1 => clear_value x
          on_goal 2 => (unfold x; clear x))
       | clear_value x
       | skip)
    | with_reducible apply convictedChan_keep (hP.mono (by decide))
    | with_reducible apply quarantine_keep (hP.mono (by decide))
    | with_reducible apply shdEvent_keep (hP.mono (by decide))
    | with_reducible apply each_keep
    | with_reducible apply forL_keep

theorem renewCounts_keep {P : State → Prop} (hP : Keeps [.chans] P) (ch : Nat) (l : Nat) (s : State) (hst : P s) :
    P (renewCounts ch l s) := by
  unfold renewCounts
  repeat' first
    | with_reducible assumption
    | (first | intro x | (lift_lets -underBinder; intro x)
       first
       | (with_reducible refine (fun hx => ?_) (?_ : P x)
          on_goal 1 => clear_value x
          on_goal 2 => (unfold x; clear x))
       | (with_reducible refine (fun hfun => ?_) (?_ : ∀ a, P a → P (x a))
          on_goal 1 => clear_value x
          on_goal 2 => (unfold x; clear x))
       | (with_reducible refine (fun hfun => ?_) (?_ : ∀ a b, P b → P (x a b))
          on_goal 1 => clear_value x
          on_goal 2 => (unfold x; clear x))
       | (with_reducible refine (fun hfun => ?_) (?_ : ∀ a b c, P c → P (x a b c))
          on_goal 1 => clear_value x
          on_goal 2 => (unfold x; clear x))
       | (with_reducible refine (fun hfun => ?_) (?_ : ∀ a b c d, P d → P (x a b c d))
          on_goal 1 => clear_value x
          on_goal 2 => (unfold x; clear x))
       | (with_reducible refine (fun hx => ?_) (?_ : P x.2)
          on_goal 1 => clear_value x
          on_goal 2 => (unfold x; clear x))
       | (with_reducible refine (fun hfun => ?_) (?_ : ∀ a, P (x a))
          on_goal 1 => clear_value x
          on_goal 2 => (unfold x; clear x))
       | (with_reducible refine (fun hfun => ?_) (?_ : ∀ a b c, P (x a b c))
          on_goal 1 => clear_value x
          on_goal 2 => (unfold x; clear x))
       | clear_value x
       | skip)
    | with_reducible apply hfun
    | with_reducible apply ite_keep
    | split
    | with_reducible apply updLease_keep (hP.mono (by decide))

theorem yieldToken_keep {P : State → Prop} (hP : Keeps [.regs, .chans, .col, .host] P) (ch : Nat) (s : State) (hst : P s) :
    P (yieldToken ch s) := by
  unfold yieldToken
  repeat' first
    | with_reducible assumption
    | (first | intro x | (lift_lets -underBinder; intro x)
       first
       | (with_reducible refine (fun hx => ?_) (?_ : P x)
          on_goal 1 => clear_value x
          on_goal 2 => (unfold x; clear x))
       | (with_reducible refine (fun hfun => ?_) (?_ : ∀ a, P a → P (x a))
          on_goal 1 => clear_value x
          on_goal 2 => (unfold x; clear x))
       | (with_reducible refine (fun hfun => ?_) (?_ : ∀ a b, P b → P (x a b))
          on_goal 1 => clear_value x
          on_goal 2 => (unfold x; clear x))
       | (with_reducible refine (fun hfun => ?_) (?_ : ∀ a b c, P c → P (x a b c))
          on_goal 1 => clear_value x
          on_goal 2 => (unfold x; clear x))
       | (with_reducible refine (fun hfun => ?_) (?_ : ∀ a b c d, P d → P (x a b c d))
          on_goal 1 => clear_value x
          on_goal 2 => (unfold x; clear x))
       | (with_reducible refine (fun hx => ?_) (?_ : P x.2)
          on_goal 1 => clear_value x
          on_goal 2 => (unfold x; clear x))
       | (with_reducible refine (fun hfun => ?_) (?_ : ∀ a, P (x a))
          on_goal 1 => clear_value x
          on_goal 2 => (unfold x; clear x))
       | (with_reducible refine (fun hfun => ?_) (?_ : ∀ a b c, P (x a b c))
          on_goal 1 => clear_value x
          on_goal 2 => (unfold x; clear x))
       | clear_value x
       | skip)
    | with_reducible apply hfun
    | with_reducible apply updLease_keep (hP.mono (by decide))
    | with_reducible apply withdrawToken_keep (hP.mono (by decide))
    | with_reducible apply shdChan_keep (hP.mono (by decide))

theorem compareCounts_keep {P : State → Prop} (hP : Keeps [.regs] P) (ch : Nat) (agree : Bool) (counted : Bool) (s : State) (hst : P s) :
    P (compareCounts ch agree counted s) := by
  unfold compareCounts
  repeat' first
    | with_reducible assumption
    | (first | intro x | (lift_lets -underBinder; intro x)
       first
       | (with_reducible refine (fun hx => ?_) (?_ : P x)
          on_goal 1 => clear_value x
          on_goal 2 => (unfold x; clear x))
       | clear_value x
       | skip)
    | with_reducible apply ite_keep
    | split
    | with_reducible apply bump_keep (hP.mono (by decide))
    | with_reducible apply each_keep

theorem tokenOut_keep {P : State → Prop} (hP : Keeps [.regs, .chans, .col, .host] P) (conv : List Nat) (exp : Bool) (ch : Nat) (s : State) (hst : P s) :
    P (tokenOut conv exp ch s) := by
  unfold tokenOut
  repeat' first
    | with_reducible assumption
    | with_reducible apply ite_keep
    | split
    | with_reducible apply leaseLost_keep (hP.mono (by decide))
    | with_reducible apply handover_keep (hP.mono (by decide))

theorem standbyBehind_keep {P : State → Prop} (hP : Keeps [.chans] P) (ch : Nat) (s : State) (hst : P s) :
    P (standbyBehind ch s) := by
  unfold standbyBehind
  repeat' first
    | with_reducible assumption
    | intro x
    | with_reducible apply updLease_keep (hP.mono (by decide))

theorem judgeOne_keep {P : State → Prop} (hP : Keeps [.regs, .ws, .chans, .col, .host] P) (ev : List Nat) (conv : List Nat) (ch : Nat) (s : State) (hst : P s) :
    P (judgeOne ev conv ch s).1 := by
  unfold judgeOne
  repeat' first
    | with_reducible assumption
    | (first | intro x | (lift_lets -underBinder; intro x)
       first
       | (with_reducible refine (fun hx => ?_) (?_ : P x)
          on_goal 1 => clear_value x
          on_goal 2 => (unfold x; clear x))
       | (with_reducible refine (fun hfun => ?_) (?_ : ∀ a, P a → P (x a))
          on_goal 1 => clear_value x
          on_goal 2 => (unfold x; clear x))
       | (with_reducible refine (fun hfun => ?_) (?_ : ∀ a b, P b → P (x a b))
          on_goal 1 => clear_value x
          on_goal 2 => (unfold x; clear x))
       | (with_reducible refine (fun hfun => ?_) (?_ : ∀ a b c, P c → P (x a b c))
          on_goal 1 => clear_value x
          on_goal 2 => (unfold x; clear x))
       | (with_reducible refine (fun hfun => ?_) (?_ : ∀ a b c d, P d → P (x a b c d))
          on_goal 1 => clear_value x
          on_goal 2 => (unfold x; clear x))
       | (with_reducible refine (fun hx => ?_) (?_ : P x.2)
          on_goal 1 => clear_value x
          on_goal 2 => (unfold x; clear x))
       | (with_reducible refine (fun hfun => ?_) (?_ : ∀ a, P (x a))
          on_goal 1 => clear_value x
          on_goal 2 => (unfold x; clear x))
       | (with_reducible refine (fun hfun => ?_) (?_ : ∀ a b c, P (x a b c))
          on_goal 1 => clear_value x
          on_goal 2 => (unfold x; clear x))
       | clear_value x
       | skip)
    | with_reducible apply hfun
    | with_reducible apply ite_keep
    | split
    | with_reducible apply withdrawCommand_keep (hP.mono (by decide))
    | with_reducible apply updLease_keep (hP.mono (by decide))
    | with_reducible apply compareCounts_keep (hP.mono (by decide))
    | with_reducible apply standbyBehind_keep (hP.mono (by decide))
    | with_reducible apply loseStandby_keep (hP.mono (by decide))
    | with_reducible apply yieldToken_keep (hP.mono (by decide))
    | with_reducible apply leaseLost_keep (hP.mono (by decide))
    | with_reducible apply copyArea_keep (hP.mono (by decide))
    | with_reducible apply tokenOut_keep (hP.mono (by decide))
    | with_reducible apply shdChan_keep (hP.mono (by decide))
    | with_reducible refine eq_keep (by assumption) ?_
    | with_reducible refine eq_keep2 (by assumption) ?_
    | dsimp only

theorem execSheepdogJudgement_keep {P : State → Prop} (hP : Keeps [.regs, .ws, .chans, .terms, .folds, .health, .runs, .svc, .col, .tal, .host, .nv] P) (f : Fin 32) (l : Fin 8) (s : State) (hst : P s) :
    AllNext P (execSheepdogJudgement f l s) := by
  unfold execSheepdogJudgement
  repeat' first
    | with_reducible assumption
    | (first | intro x | (lift_lets -underBinder; intro x)
       first
       | (with_reducible refine (fun hx => ?_) (?_ : P x)
          on_goal 1 => clear_value x
          on_goal 2 => (unfold x; clear x))
       | (with_reducible refine (fun hfun => ?_) (?_ : ∀ a, P a → P (x a))
          on_goal 1 => clear_value x
          on_goal 2 => (unfold x; clear x))
       | (with_reducible refine (fun hfun => ?_) (?_ : ∀ a b, P b → P (x a b))
          on_goal 1 => clear_value x
          on_goal 2 => (unfold x; clear x))
       | (with_reducible refine (fun hfun => ?_) (?_ : ∀ a b c, P c → P (x a b c))
          on_goal 1 => clear_value x
          on_goal 2 => (unfold x; clear x))
       | (with_reducible refine (fun hfun => ?_) (?_ : ∀ a b c d, P d → P (x a b c d))
          on_goal 1 => clear_value x
          on_goal 2 => (unfold x; clear x))
       | (with_reducible refine (fun hx => ?_) (?_ : P x.2)
          on_goal 1 => clear_value x
          on_goal 2 => (unfold x; clear x))
       | (with_reducible refine (fun hfun => ?_) (?_ : ∀ a, P (x a))
          on_goal 1 => clear_value x
          on_goal 2 => (unfold x; clear x))
       | (with_reducible refine (fun hfun => ?_) (?_ : ∀ a b c, P (x a b c))
          on_goal 1 => clear_value x
          on_goal 2 => (unfold x; clear x))
       | clear_value x
       | skip)
    | with_reducible apply hfun
    | with_reducible apply ite_keep
    | split
    | with_reducible apply next_keep
    | with_reducible apply updLease_keep (hP.mono (by decide))
    | with_reducible apply updChan_keep (hP.mono (by decide))
    | with_reducible apply retireBroken_keep (hP.mono (by decide))
    | with_reducible apply renewCounts_keep (hP.mono (by decide))
    | with_reducible apply bump_keep (hP.mono (by decide))
    | with_reducible apply settleFold_keep (hP.mono (by decide))
    | with_reducible apply rejoinDone_keep (hP.mono (by decide))
    | with_reducible apply convictAll_keep (hP.mono (by decide))
    | with_reducible apply raiseOwn_keep (hP.mono (by decide))
    | with_reducible apply talCheck_keep (hP.mono (by decide))
    | with_reducible apply judgeOne_keep (hP.mono (by decide))
    | with_reducible apply each_keep
    | with_reducible apply forL_keep
    | with_reducible refine foldl_keep P _ ?_ _ _ ?_
    | with_reducible refine eq_keep (by assumption) ?_
    | with_reducible refine foldl_pair_keep _ ?_ _ ?_
    | dsimp only

theorem execLeaseExpiry_keep {P : State → Prop} (hP : Keeps [.regs, .chans, .health, .runs, .svc, .col, .host, .nv] P) (ch : Fin 512) (s : State) (hst : P s) :
    AllNext P (execLeaseExpiry ch s) := by
  unfold execLeaseExpiry
  repeat' first
    | with_reducible assumption
    | (first | intro x | (lift_lets -underBinder; intro x)
       first
       | (with_reducible refine (fun hx => ?_) (?_ : P x)
          on_goal 1 => clear_value x
          on_goal 2 => (unfold x; clear x))
       | clear_value x
       | skip)
    | with_reducible apply ite_keep
    | split
    | with_reducible apply next_keep
    | with_reducible apply convictedChan_keep (hP.mono (by decide))
    | with_reducible apply convictAll_keep (hP.mono (by decide))
    | with_reducible refine eq_keep (by assumption) ?_

theorem execTokenGrant_keep {P : State → Prop} (hP : Keeps [.regs, .chans, .col, .host] P) (ch : Fin 512) (s : State) (hst : P s) :
    AllNext P (execTokenGrant ch s) := by
  unfold execTokenGrant
  repeat' first
    | with_reducible assumption
    | intro x
    | with_reducible apply ite_keep
    | split
    | with_reducible apply next_keep
    | with_reducible apply updLease_keep (hP.mono (by decide))
    | with_reducible apply assignToken_keep (hP.mono (by decide))
    | with_reducible apply bump_keep (hP.mono (by decide))
    | with_reducible apply shdChan_keep (hP.mono (by decide))
    | with_reducible refine eq_keep (by assumption) ?_

theorem execResyncCopyDone_keep {P : State → Prop} (hP : Keeps [.ws, .chans] P) (ch : Fin 512) (s : State) (hst : P s) :
    AllNext P (execResyncCopyDone ch s) := by
  unfold execResyncCopyDone
  repeat' first
    | with_reducible assumption
    | (first | intro x | (lift_lets -underBinder; intro x)
       first
       | (with_reducible refine (fun hx => ?_) (?_ : P x)
          on_goal 1 => clear_value x
          on_goal 2 => (unfold x; clear x))
       | clear_value x
       | skip)
    | with_reducible apply ite_keep
    | split
    | with_reducible apply next_keep
    | with_reducible apply updLease_keep (hP.mono (by decide))
    | with_reducible apply copyArea_keep (hP.mono (by decide))
    | with_reducible refine eq_keep (by assumption) ?_

theorem rejoinEngine_keep {P : State → Prop} (hP : Keeps [.chans, .health] P) (e : Nat) (s : State) (hst : P s) :
    P (rejoinEngine e s) := by
  unfold rejoinEngine
  repeat' first
    | with_reducible assumption
    | (first | intro x | (lift_lets -underBinder; intro x)
       first
       | (with_reducible refine (fun hx => ?_) (?_ : P x)
          on_goal 1 => clear_value x
          on_goal 2 => (unfold x; clear x))
       | clear_value x
       | skip)
    | with_reducible apply ite_keep
    | split
    | with_reducible apply updLease_keep (hP.mono (by decide))
    | with_reducible apply updChan_keep (hP.mono (by decide))
    | with_reducible apply updHlt_keep (hP.mono (by decide))
    | with_reducible apply each_keep

theorem rejoinOrWait_keep {P : State → Prop} (hP : Keeps [.chans, .health, .svc] P) (e : Nat) (s : State) (hst : P s) :
    P (rejoinOrWait e s) := by
  unfold rejoinOrWait
  repeat' first
    | with_reducible assumption
    | intro x
    | with_reducible apply ite_keep
    | split
    | with_reducible apply updHlt_keep (hP.mono (by decide))
    | with_reducible apply updSvc_keep (hP.mono (by decide))
    | with_reducible apply rejoinEngine_keep (hP.mono (by decide))

theorem narrowClamp_keep {P : State → Prop} (hP : Keeps [.chans] P) (ch : Nat) (s : State) (hst : P s) :
    P (narrowClamp ch s) := by
  unfold narrowClamp
  repeat' first
    | with_reducible assumption
    | (first | intro x | (lift_lets -underBinder; intro x)
       first
       | (with_reducible refine (fun hx => ?_) (?_ : P x)
          on_goal 1 => clear_value x
          on_goal 2 => (unfold x; clear x))
       | clear_value x
       | skip)
    | with_reducible apply setChan_keep (hP.mono (by decide))

theorem meEvent_keep {P : State → Prop} (hP : Keeps [.regs, .col, .host] P) (f : Nat) (bit : Nat) (cls : Nat) (s : State) (hst : P s) :
    P (meEvent f bit cls s) := by
  unfold meEvent
  repeat' first
    | with_reducible assumption
    | with_reducible apply raise_keep (hP.mono (by decide))

theorem mdlEvent_keep {P : State → Prop} (hP : Keeps [.regs, .col, .host] P) (ch : Nat) (bit : Nat) (cls : Nat) (s : State) (hst : P s) :
    P (mdlEvent ch bit cls s) := by
  unfold mdlEvent
  repeat' first
    | with_reducible assumption
    | with_reducible apply raise_keep (hP.mono (by decide))

theorem modelLost_keep {P : State → Prop} (hP : Keeps [.regs, .col, .host] P) (f : Nat) (s : State) (hst : P s) :
    P (modelLost f s) := by
  unfold modelLost
  repeat' first
    | with_reducible assumption
    | intro x
    | with_reducible apply mdlEvent_keep (hP.mono (by decide))
    | with_reducible apply each_keep

theorem declareFailed_keep {P : State → Prop} (hP : Keeps [.regs, .chans, .health, .runs, .mengs, .svc, .col, .host, .nv] P) (f : Nat) (cause : Nat) (s : State) (hst : P s) :
    P (declareFailed f cause s) := by
  unfold declareFailed
  repeat' first
    | with_reducible assumption
    | (first | intro x | (lift_lets -underBinder; intro x)
       first
       | (with_reducible refine (fun hx => ?_) (?_ : P x)
          on_goal 1 => clear_value x
          on_goal 2 => (unfold x; clear x))
       | clear_value x
       | skip)
    | with_reducible apply ite_keep
    | split
    | with_reducible apply updMEng_keep (hP.mono (by decide))
    | with_reducible apply narrowClamp_keep (hP.mono (by decide))
    | with_reducible apply bump_keep (hP.mono (by decide))
    | with_reducible apply quarantine_keep (hP.mono (by decide))
    | with_reducible apply modelLost_keep (hP.mono (by decide))
    | with_reducible apply meEvent_keep (hP.mono (by decide))
    | with_reducible apply each_keep

theorem armToken_keep {P : State → Prop} (hP : Keeps [.regs, .chans, .col, .host] P) (ch : Nat) (s : State) (hst : P s) :
    P (armToken ch s) := by
  unfold armToken
  repeat' first
    | with_reducible assumption
    | (first | intro x | (lift_lets -underBinder; intro x)
       first
       | (with_reducible refine (fun hx => ?_) (?_ : P x)
          on_goal 1 => clear_value x
          on_goal 2 => (unfold x; clear x))
       | (with_reducible refine (fun hfun => ?_) (?_ : ∀ a, P a → P (x a))
          on_goal 1 => clear_value x
          on_goal 2 => (unfold x; clear x))
       | (with_reducible refine (fun hfun => ?_) (?_ : ∀ a b, P b → P (x a b))
          on_goal 1 => clear_value x
          on_goal 2 => (unfold x; clear x))
       | (with_reducible refine (fun hfun => ?_) (?_ : ∀ a b c, P c → P (x a b c))
          on_goal 1 => clear_value x
          on_goal 2 => (unfold x; clear x))
       | (with_reducible refine (fun hfun => ?_) (?_ : ∀ a b c d, P d → P (x a b c d))
          on_goal 1 => clear_value x
          on_goal 2 => (unfold x; clear x))
       | (with_reducible refine (fun hx => ?_) (?_ : P x.2)
          on_goal 1 => clear_value x
          on_goal 2 => (unfold x; clear x))
       | (with_reducible refine (fun hfun => ?_) (?_ : ∀ a, P (x a))
          on_goal 1 => clear_value x
          on_goal 2 => (unfold x; clear x))
       | (with_reducible refine (fun hfun => ?_) (?_ : ∀ a b c, P (x a b c))
          on_goal 1 => clear_value x
          on_goal 2 => (unfold x; clear x))
       | clear_value x
       | skip)
    | with_reducible apply hfun
    | with_reducible apply ite_keep
    | split
    | with_reducible apply updLease_keep (hP.mono (by decide))
    | with_reducible apply withdrawToken_keep (hP.mono (by decide))
    | with_reducible apply assignToken_keep (hP.mono (by decide))
    | with_reducible apply loseStandby_keep (hP.mono (by decide))

theorem goArmed_keep {P : State → Prop} (hP : Keeps [.chans, .terms, .gates] P) (ch : Nat) (now : Nat) (s : State) (hst : P s) :
    P (goArmed ch now s) := by
  unfold goArmed
  repeat' first
    | with_reducible assumption
    | (first | intro x | (lift_lets -underBinder; intro x)
       first
       | (with_reducible refine (fun hx => ?_) (?_ : P x)
          on_goal 1 => clear_value x
          on_goal 2 => (unfold x; clear x))
       | clear_value x
       | skip)
    | exact ⟨fun h1 h2 => ⟨h1, h2⟩⟩
    | with_reducible apply updTerm_keep (hP.mono (by decide))
    | with_reducible apply updChan_keep (hP.mono (by decide))
    | with_reducible apply refreshGates_keep (hP.mono (by decide))
    | with_reducible apply each_keep

theorem execArm_keep {P : State → Prop} (hP : Keeps [.regs, .dram, .chans, .terms, .gates, .timers, .trips, .motors, .rings, .svc, .col, .host] P) (e : CmdEntry) (now : Nat) (s : State) (hst : P s) :
    AllNext P (execArm e now s) := by
  unfold execArm
  repeat' first
    | with_reducible assumption
    | (first | intro x | (lift_lets -underBinder; intro x)
       first
       | (with_reducible refine (fun hx => ?_) (?_ : P x)
          on_goal 1 => clear_value x
          on_goal 2 => (unfold x; clear x))
       | clear_value x
       | skip)
    | with_reducible apply ite_keep
    | split
    | with_reducible apply next_keep
    | with_reducible apply updChan_keep (hP.mono (by decide))
    | with_reducible apply acceptLater_keep (hP.mono (by decide))
    | with_reducible apply commandRow_keep (hP.mono (by decide))
    | with_reducible apply acceptNow_keep (hP.mono (by decide))
    | with_reducible apply complete_keep (hP.mono (by decide))
    | with_reducible apply motorArm_keep (hP.mono (by decide))
    | with_reducible apply armToken_keep (hP.mono (by decide))
    | with_reducible apply checked_keep (hP.mono (by decide))
    | with_reducible apply goArmed_keep (hP.mono (by decide))

theorem execArmTakeEffect_keep {P : State → Prop} (hP : Keeps [.chans, .terms, .gates, .timers, .trips, .motors, .rings, .svc] P) (ch : Fin 512) (now : Nat) (s : State) (hst : P s) :
    AllNext P (execArmTakeEffect ch now s) := by
  unfold execArmTakeEffect
  repeat' first
    | with_reducible assumption
    | (first | intro x | (lift_lets -underBinder; intro x)
       first
       | (with_reducible refine (fun hx => ?_) (?_ : P x)
          on_goal 1 => clear_value x
          on_goal 2 => (unfold x; clear x))
       | clear_value x
       | skip)
    | with_reducible apply ite_keep
    | split
    | with_reducible apply next_keep
    | with_reducible apply setChan_keep (hP.mono (by decide))
    | with_reducible apply finishObj_keep (hP.mono (by decide))
    | with_reducible apply motorArm_keep (hP.mono (by decide))
    | with_reducible apply goArmed_keep (hP.mono (by decide))

theorem execDebugHalt_keep {P : State → Prop} (hP : Keeps [.regs, .wide, .chans, .terms, .gates, .motors, .health, .runs, .rings, .svc, .col, .tal, .host] P) (e : Fin 160) (now : Nat) (s : State) (hst : P s) :
    AllNext P (execDebugHalt e now s) := by
  unfold execDebugHalt
  repeat' first
    | with_reducible assumption
    | (first | intro x | (lift_lets -underBinder; intro x)
       first
       | (with_reducible refine (fun hx => ?_) (?_ : P x)
          on_goal 1 => clear_value x
          on_goal 2 => (unfold x; clear x))
       | clear_value x
       | skip)
    | with_reducible apply ite_keep
    | split
    | with_reducible apply next_keep
    | with_reducible apply updHlt_keep (hP.mono (by decide))
    | with_reducible apply setRun_keep (hP.mono (by decide))
    | with_reducible apply tripChannel_keep (hP.mono (by decide))
    | with_reducible apply raiseOwn_keep (hP.mono (by decide))
    | with_reducible apply each_keep

end Sys2Proof.Machine
end

