-- ==== Sys2Proof/Laws/KeepEngines.lean ====
section
/-! SUPPORT. Every operation and meaning of the models, the instructions, the loops, the images, the station and the host side keeps what the primitives on the parts it touches keep. -/

set_option linter.all false

namespace Sys2Proof.Machine

open Sys2Proof

-- Models

theorem updMdl_keep {P : State → Prop} (hP : Keeps [.chans] P) (s : State) (ch : Nat) (g : Mdl → Mdl) (hst : P s) :
    P (State.updMdl s ch g) := by
  unfold State.updMdl
  repeat' first
    | with_reducible assumption
    | intro x
    | with_reducible apply updChan_keep (hP.mono (by decide))

theorem putMst_keep {P : State → Prop} (hP : Keeps [.ws] P) (ch : Nat) (m : MState) (s : State) (hst : P s) :
    P (putMst ch m s) := by
  unfold putMst
  repeat' first
    | with_reducible assumption
    | with_reducible apply putWs_keep (hP.mono (by decide))

theorem evalModels_keep {P : State → Prop} (hP : Keeps [.ws, .chans] P) (s : State) (hst : P s) :
    P (evalModels s) := by
  unfold evalModels
  repeat' first
    | with_reducible assumption
    | (first | intro x | (lift_lets -underBinder; intro x)
       first
       | (with_reducible refine (fun hx => ?_) (?_ : P x)
          on_goal 1 => clear_value x
          on_goal 2 => (unfold x; clear x))
       | clear_value x
       | skip)
    | with_reducible apply ite_keep
    | split
    | with_reducible apply updMdl_keep (hP.mono (by decide))
    | with_reducible apply putMst_keep (hP.mono (by decide))
    | with_reducible apply each_keep

theorem startBuild_keep {P : State → Prop} (hP : Keeps [.chans] P) (ch : Nat) (s : State) (hst : P s) :
    P (startBuild ch s) := by
  unfold startBuild
  repeat' first
    | with_reducible assumption
    | (first | intro x | (lift_lets -underBinder; intro x)
       first
       | (with_reducible refine (fun hx => ?_) (?_ : P x)
          on_goal 1 => clear_value x
          on_goal 2 => (unfold x; clear x))
       | clear_value x
       | skip)
    | with_reducible apply updChan_keep (hP.mono (by decide))

theorem rebuildAll_keep {P : State → Prop} (hP : Keeps [.chans] P) (s : State) (hst : P s) :
    P (rebuildAll s) := by
  unfold rebuildAll
  repeat' first
    | with_reducible assumption
    | intro x
    | with_reducible apply updMdl_keep (hP.mono (by decide))
    | with_reducible apply startBuild_keep (hP.mono (by decide))
    | with_reducible apply each_keep

theorem execTableBuildDone_keep {P : State → Prop} (hP : Keeps [.ws, .chans] P) (ch : Fin 512) (s : State) (hst : P s) :
    AllNext P (execTableBuildDone ch s) := by
  unfold execTableBuildDone
  repeat' first
    | with_reducible assumption
    | (first | intro x | (lift_lets -underBinder; intro x)
       first
       | (with_reducible refine (fun hx => ?_) (?_ : P x)
          on_goal 1 => clear_value x
          on_goal 2 => (unfold x; clear x))
       | clear_value x
       | skip)
    | with_reducible apply ite_keep
    | split
    | with_reducible apply next_keep
    | with_reducible apply updMdl_keep (hP.mono (by decide))
    | with_reducible apply putWs_keep (hP.mono (by decide))

theorem execTableSwap_keep {P : State → Prop} (hP : Keeps [.regs, .ws, .chans, .rings, .svc, .col, .host] P) (ch : Fin 512) (s : State) (hst : P s) :
    AllNext P (execTableSwap ch s) := by
  unfold execTableSwap
  repeat' first
    | with_reducible assumption
    | (first | intro x | (lift_lets -underBinder; intro x)
       first
       | (with_reducible refine (fun hx => ?_) (?_ : P x)
          on_goal 1 => clear_value x
          on_goal 2 => (unfold x; clear x))
       | clear_value x
       | skip)
    | with_reducible apply ite_keep
    | split
    | with_reducible apply next_keep
    | with_reducible apply updMdl_keep (hP.mono (by decide))
    | with_reducible apply bump_keep (hP.mono (by decide))
    | with_reducible apply evalModels_keep (hP.mono (by decide))
    | with_reducible apply startBuild_keep (hP.mono (by decide))
    | with_reducible apply finishObj_keep (hP.mono (by decide))
    | with_reducible apply mdlEvent_keep (hP.mono (by decide))

theorem execModelTable_keep {P : State → Prop} (hP : Keeps [.dram, .chans, .rings, .svc] P) (e : CmdEntry) (s : State) (hst : P s) :
    AllNext P (execModelTable e s) := by
  unfold execModelTable
  repeat' first
    | with_reducible assumption
    | (first | intro x | (lift_lets -underBinder; intro x)
       first
       | (with_reducible refine (fun hx => ?_) (?_ : P x)
          on_goal 1 => clear_value x
          on_goal 2 => (unfold x; clear x))
       | clear_value x
       | skip)
    | with_reducible apply next_keep
    | with_reducible apply updMdl_keep (hP.mono (by decide))
    | with_reducible apply acceptLater_keep (hP.mono (by decide))
    | with_reducible apply commandRow_keep (hP.mono (by decide))
    | with_reducible apply startBuild_keep (hP.mono (by decide))
    | with_reducible apply checked_keep (hP.mono (by decide))

theorem mdlCond_keep {P : State → Prop} (hP : Keeps [.regs, .col, .host] P) (ch : Nat) (bit : Nat) (cls : Nat) (isOver : Bool) (s : State) (hst : P s) :
    P (mdlCond ch bit cls isOver s) := by
  unfold mdlCond
  repeat' first
    | with_reducible assumption
    | with_reducible apply limitEvt_keep (hP.mono (by decide))

theorem lawRefit_keep {P : State → Prop} (hP : Keeps [.regs, .chans] P) (ch : Nat) (m : MState) (s : State) (hst : P s) :
    P (lawRefit ch m s) := by
  unfold lawRefit
  repeat' first
    | with_reducible assumption
    | (first | intro x | (lift_lets -underBinder; intro x)
       first
       | (with_reducible refine (fun hx => ?_) (?_ : P x)
          on_goal 1 => clear_value x
          on_goal 2 => (unfold x; clear x))
       | clear_value x
       | skip)
    | with_reducible apply ite_keep
    | split
    | with_reducible apply setReg_keep (hP.mono (by decide))
    | with_reducible apply updMdl_keep (hP.mono (by decide))

theorem lawEvents_keep {P : State → Prop} (hP : Keeps [.regs, .chans, .col, .host] P) (ch : Nat) (was : MState) (m : MState) (s : State) (hst : P s) :
    P (lawEvents ch was m s) := by
  unfold lawEvents
  repeat' first
    | with_reducible assumption
    | (first | intro x | (lift_lets -underBinder; intro x)
       first
       | (with_reducible refine (fun hx => ?_) (?_ : P x)
          on_goal 1 => clear_value x
          on_goal 2 => (unfold x; clear x))
       | clear_value x
       | skip)
    | with_reducible apply ite_keep
    | split
    | with_reducible apply mdlEvent_keep (hP.mono (by decide))
    | with_reducible apply lawRefit_keep (hP.mono (by decide))
    | with_reducible apply mdlCond_keep (hP.mono (by decide))

theorem modelLaw_keep {P : State → Prop} (hP : Keeps [.regs, .chans, .runs, .col, .host, .free] P) (e : Nat) (ch : Nat) (cover : Bool) (s : State) (hst : P s) :
    P (modelLaw e ch cover s).2 := by
  unfold modelLaw
  repeat' first
    | with_reducible assumption
    | (first | intro x | (lift_lets -underBinder; intro x)
       first
       | (with_reducible refine (fun hx => ?_) (?_ : P x)
          on_goal 1 => clear_value x
          on_goal 2 => (unfold x; clear x))
       | (with_reducible refine (fun hfun => ?_) (?_ : ∀ a, P a → P (x a))
          on_goal 1 => clear_value x
          on_goal 2 => (unfold x; clear x))
       | (with_reducible refine (fun hfun => ?_) (?_ : ∀ a b, P b → P (x a b))
          on_goal 1 => clear_value x
          on_goal 2 => (unfold x; clear x))
       | (with_reducible refine (fun hfun => ?_) (?_ : ∀ a b c, P c → P (x a b c))
          on_goal 1 => clear_value x
          on_goal 2 => (unfold x; clear x))
       | (with_reducible refine (fun hfun => ?_) (?_ : ∀ a b c d, P d → P (x a b c d))
          on_goal 1 => clear_value x
          on_goal 2 => (unfold x; clear x))
       | (with_reducible refine (fun hx => ?_) (?_ : P x.2)
          on_goal 1 => clear_value x
          on_goal 2 => (unfold x; clear x))
       | (with_reducible refine (fun hfun => ?_) (?_ : ∀ a, P (x a))
          on_goal 1 => clear_value x
          on_goal 2 => (unfold x; clear x))
       | (with_reducible refine (fun hfun => ?_) (?_ : ∀ a b c, P (x a b c))
          on_goal 1 => clear_value x
          on_goal 2 => (unfold x; clear x))
       | clear_value x
       | skip)
    | with_reducible apply hfun
    | with_reducible apply ite_keep
    | split
    | with_reducible apply setRun_keep (hP.mono (by decide))
    | with_reducible apply updMdl_keep (hP.mono (by decide))
    | with_reducible apply draw_keep (hP.mono (by decide))
    | with_reducible apply bump_keep (hP.mono (by decide))
    | with_reducible apply lawEvents_keep (hP.mono (by decide))
    | with_reducible apply mdlEvent_keep (hP.mono (by decide))
    | dsimp only

theorem fwWindow_keep {P : State → Prop} (hP : Keeps [.regs, .chans, .col, .host, .free] P) (ch : Nat) (s : State) (hst : P s) :
    P (fwWindow ch s) := by
  unfold fwWindow
  repeat' first
    | with_reducible assumption
    | (first | intro x | (lift_lets -underBinder; intro x)
       first
       | (with_reducible refine (fun hx => ?_) (?_ : P x)
          on_goal 1 => clear_value x
          on_goal 2 => (unfold x; clear x))
       | (with_reducible refine (fun hfun => ?_) (?_ : ∀ a, P a → P (x a))
          on_goal 1 => clear_value x
          on_goal 2 => (unfold x; clear x))
       | (with_reducible refine (fun hfun => ?_) (?_ : ∀ a b, P b → P (x a b))
          on_goal 1 => clear_value x
          on_goal 2 => (unfold x; clear x))
       | (with_reducible refine (fun hfun => ?_) (?_ : ∀ a b c, P c → P (x a b c))
          on_goal 1 => clear_value x
          on_goal 2 => (unfold x; clear x))
       | (with_reducible refine (fun hfun => ?_) (?_ : ∀ a b c d, P d → P (x a b c d))
          on_goal 1 => clear_value x
          on_goal 2 => (unfold x; clear x))
       | (with_reducible refine (fun hx => ?_) (?_ : P x.2)
          on_goal 1 => clear_value x
          on_goal 2 => (unfold x; clear x))
       | (with_reducible refine (fun hfun => ?_) (?_ : ∀ a, P (x a))
          on_goal 1 => clear_value x
          on_goal 2 => (unfold x; clear x))
       | (with_reducible refine (fun hfun => ?_) (?_ : ∀ a b c, P (x a b c))
          on_goal 1 => clear_value x
          on_goal 2 => (unfold x; clear x))
       | clear_value x
       | skip)
    | with_reducible apply hfun
    | with_reducible apply ite_keep
    | split
    | with_reducible apply updChan_keep (hP.mono (by decide))
    | with_reducible apply setReg_keep (hP.mono (by decide))
    | with_reducible apply draw_keep (hP.mono (by decide))
    | with_reducible apply limitEvt_keep (hP.mono (by decide))

theorem monitor_keep {P : State → Prop} (hP : Keeps [.regs, .chans, .col, .host, .free] P) (ch : Nat) (s : State) (hst : P s) :
    P (monitor ch s) := by
  unfold monitor
  repeat' first
    | with_reducible assumption
    | (first | intro x | (lift_lets -underBinder; intro x)
       first
       | (with_reducible refine (fun hx => ?_) (?_ : P x)
          on_goal 1 => clear_value x
          on_goal 2 => (unfold x; clear x))
       | (with_reducible refine (fun hfun => ?_) (?_ : ∀ a, P a → P (x a))
          on_goal 1 => clear_value x
          on_goal 2 => (unfold x; clear x))
       | (with_reducible refine (fun hfun => ?_) (?_ : ∀ a b, P b → P (x a b))
          on_goal 1 => clear_value x
          on_goal 2 => (unfold x; clear x))
       | (with_reducible refine (fun hfun => ?_) (?_ : ∀ a b c, P c → P (x a b c))
          on_goal 1 => clear_value x
          on_goal 2 => (unfold x; clear x))
       | (with_reducible refine (fun hfun => ?_) (?_ : ∀ a b c d, P d → P (x a b c d))
          on_goal 1 => clear_value x
          on_goal 2 => (unfold x; clear x))
       | (with_reducible refine (fun hx => ?_) (?_ : P x.2)
          on_goal 1 => clear_value x
          on_goal 2 => (unfold x; clear x))
       | (with_reducible refine (fun hfun => ?_) (?_ : ∀ a, P (x a))
          on_goal 1 => clear_value x
          on_goal 2 => (unfold x; clear x))
       | (with_reducible refine (fun hfun => ?_) (?_ : ∀ a b c, P (x a b c))
          on_goal 1 => clear_value x
          on_goal 2 => (unfold x; clear x))
       | clear_value x
       | skip)
    | with_reducible apply hfun
    | with_reducible apply ite_keep
    | split
    | with_reducible apply setReg_keep (hP.mono (by decide))
    | with_reducible apply limitEvt_keep (hP.mono (by decide))
    | with_reducible apply fwWindow_keep (hP.mono (by decide))

theorem execPmCfgWrite_keep {P : State → Prop} (hP : Keeps [.chans] P) (t : Fin 512) (reg : Fin 2) (v : W) (s : State) (hst : P s) :
    AllNext P (execPmCfgWrite t reg v s) := by
  unfold execPmCfgWrite
  repeat' first
    | with_reducible assumption
    | (first | intro x | (lift_lets -underBinder; intro x)
       first
       | (with_reducible refine (fun hx => ?_) (?_ : P x)
          on_goal 1 => clear_value x
          on_goal 2 => (unfold x; clear x))
       | clear_value x
       | skip)
    | with_reducible apply ite_keep
    | split
    | with_reducible apply next_keep
    | with_reducible apply updChan_keep (hP.mono (by decide))
    | with_reducible refine eq_keep (by assumption) ?_

theorem execImpDrift_keep {P : State → Prop} (hP : Keeps [.regs, .col, .host] P) (ch : Fin 512) (s : State) (hst : P s) :
    AllNext P (execImpDrift ch s) := by
  unfold execImpDrift
  repeat' first
    | with_reducible assumption
    | (first | intro x | (lift_lets -underBinder; intro x)
       first
       | (with_reducible refine (fun hx => ?_) (?_ : P x)
          on_goal 1 => clear_value x
          on_goal 2 => (unfold x; clear x))
       | clear_value x
       | skip)
    | with_reducible apply ite_keep
    | split
    | with_reducible apply next_keep
    | with_reducible apply limitEvt_keep (hP.mono (by decide))

theorem motionItems_keep {P : State → Prop} (hP : Keeps [.chans] P) (ch : Nat) (l : Nat) (s : State) (hst : P s) :
    P (motionItems ch l s) := by
  unfold motionItems
  repeat' first
    | with_reducible assumption
    | (first | intro x | (lift_lets -underBinder; intro x)
       first
       | (with_reducible refine (fun hx => ?_) (?_ : P x)
          on_goal 1 => clear_value x
          on_goal 2 => (unfold x; clear x))
       | clear_value x
       | skip)
    | with_reducible apply updMdl_keep (hP.mono (by decide))

theorem motionChan_keep {P : State → Prop} (hP : Keeps [.regs, .chans, .col, .host] P) (ch : Nat) (therm : Bool) (cover : Bool) (s : State) (hst : P s) :
    P (motionChan ch therm cover s) := by
  unfold motionChan
  repeat' first
    | with_reducible assumption
    | (first | intro x | (lift_lets -underBinder; intro x)
       first
       | (with_reducible refine (fun hx => ?_) (?_ : P x)
          on_goal 1 => clear_value x
          on_goal 2 => (unfold x; clear x))
       | clear_value x
       | skip)
    | with_reducible apply ite_keep
    | split
    | with_reducible apply updMdl_keep (hP.mono (by decide))
    | with_reducible apply mdlEvent_keep (hP.mono (by decide))

theorem applyMon_keep {P : State → Prop} (hP : Keeps [.regs, .chans] P) (ch : Nat) (s : State) (hst : P s) :
    P (applyMon ch s) := by
  unfold applyMon
  repeat' first
    | with_reducible assumption
    | (first | intro x | (lift_lets -underBinder; intro x)
       first
       | (with_reducible refine (fun hx => ?_) (?_ : P x)
          on_goal 1 => clear_value x
          on_goal 2 => (unfold x; clear x))
       | clear_value x
       | skip)
    | with_reducible apply ite_keep
    | split
    | with_reducible apply updChan_keep (hP.mono (by decide))
    | with_reducible apply setReg_keep (hP.mono (by decide))
    | with_reducible apply forL_keep
    | with_reducible refine eq_keep (by assumption) ?_

theorem execMotionLatch_keep {P : State → Prop} (hP : Keeps [.regs, .chans, .mengs, .col, .host, .free] P) (f : Fin 32) (l : Fin 8) (s : State) (hst : P s) :
    AllNext P (execMotionLatch f l s) := by
  unfold execMotionLatch
  repeat' first
    | with_reducible assumption
    | (first | intro x | (lift_lets -underBinder; intro x)
       first
       | (with_reducible refine (fun hx => ?_) (?_ : P x)
          on_goal 1 => clear_value x
          on_goal 2 => (unfold x; clear x))
       | clear_value x
       | skip)
    | with_reducible apply ite_keep
    | split
    | with_reducible apply next_keep
    | with_reducible apply updChan_keep (hP.mono (by decide))
    | with_reducible apply updMEng_keep (hP.mono (by decide))
    | with_reducible apply motionChan_keep (hP.mono (by decide))
    | with_reducible apply applyMon_keep (hP.mono (by decide))
    | with_reducible apply monitor_keep (hP.mono (by decide))
    | with_reducible apply each_keep

theorem execModelRunStart_keep {P : State → Prop} (hP : Keeps [.chans, .runs] P) (e : Fin 32) (ch : Fin 512) (s : State) (hst : P s) :
    AllNext P (execModelRunStart e ch s) := by
  unfold execModelRunStart
  repeat' first
    | with_reducible assumption
    | (first | intro x | (lift_lets -underBinder; intro x)
       first
       | (with_reducible refine (fun hx => ?_) (?_ : P x)
          on_goal 1 => clear_value x
          on_goal 2 => (unfold x; clear x))
       | clear_value x
       | skip)
    | with_reducible apply ite_keep
    | split
    | with_reducible apply next_keep
    | with_reducible apply setRun_keep (hP.mono (by decide))
    | with_reducible apply updMdl_keep (hP.mono (by decide))

theorem endRun_keep {P : State → Prop} (hP : Keeps [.runs] P) (e : Nat) (s : State) (hst : P s) :
    P (endRun e s) := by
  unfold endRun
  repeat' first
    | with_reducible assumption
    | with_reducible apply setRun_keep (hP.mono (by decide))

theorem execClampHoldNarrow_keep {P : State → Prop} (hP : Keeps [.chans] P) (ch : Fin 512) (s : State) (hst : P s) :
    AllNext P (execClampHoldNarrow ch s) := by
  unfold execClampHoldNarrow
  repeat' first
    | with_reducible assumption
    | (first | intro x | (lift_lets -underBinder; intro x)
       first
       | (with_reducible refine (fun hx => ?_) (?_ : P x)
          on_goal 1 => clear_value x
          on_goal 2 => (unfold x; clear x))
       | clear_value x
       | skip)
    | with_reducible apply ite_keep
    | split
    | with_reducible apply next_keep
    | with_reducible apply narrowClamp_keep (hP.mono (by decide))

theorem execModelEngineHealthFail_keep {P : State → Prop} (hP : Keeps [.regs, .chans, .health, .runs, .mengs, .svc, .col, .host, .nv] P) (e : Fin 32) (s : State) (hst : P s) :
    AllNext P (execModelEngineHealthFail e s) := by
  unfold execModelEngineHealthFail
  repeat' first
    | with_reducible assumption
    | intro x
    | with_reducible apply ite_keep
    | split
    | with_reducible apply next_keep
    | with_reducible apply updMEng_keep (hP.mono (by decide))
    | with_reducible apply declareFailed_keep (hP.mono (by decide))

theorem execCoverEnd_keep {P : State → Prop} (hP : Keeps [.regs, .health, .mengs, .col, .host] P) (e : Fin 32) (l : Fin 8) (s : State) (hst : P s) :
    AllNext P (execCoverEnd e l s) := by
  unfold execCoverEnd
  repeat' first
    | with_reducible assumption
    | (first | intro x | (lift_lets -underBinder; intro x)
       first
       | (with_reducible refine (fun hx => ?_) (?_ : P x)
          on_goal 1 => clear_value x
          on_goal 2 => (unfold x; clear x))
       | clear_value x
       | skip)
    | with_reducible apply ite_keep
    | split
    | with_reducible apply next_keep
    | with_reducible apply updMEng_keep (hP.mono (by decide))
    | with_reducible apply updHlt_keep (hP.mono (by decide))
    | with_reducible apply meEvent_keep (hP.mono (by decide))

theorem execResRefit_keep {P : State → Prop} (hP : Keeps [.regs, .chans, .col, .host] P) (ch : Fin 512) (s : State) (hst : P s) :
    AllNext P (execResRefit ch s) := by
  unfold execResRefit
  repeat' first
    | with_reducible assumption
    | (first | intro x | (lift_lets -underBinder; intro x)
       first
       | (with_reducible refine (fun hx => ?_) (?_ : P x)
          on_goal 1 => clear_value x
          on_goal 2 => (unfold x; clear x))
       | clear_value x
       | skip)
    | with_reducible apply ite_keep
    | split
    | with_reducible apply next_keep
    | with_reducible apply updMdl_keep (hP.mono (by decide))
    | with_reducible apply bump_keep (hP.mono (by decide))
    | with_reducible apply startBuild_keep (hP.mono (by decide))
    | with_reducible apply mdlEvent_keep (hP.mono (by decide))

-- Signals

theorem latchOut_keep {P : State → Prop} (hP : Keeps [.regs, .outs] P) (n : Nat) (s : State) (hst : P s) :
    P (latchOut n s) := by
  unfold latchOut
  repeat' first
    | with_reducible assumption
    | (first | intro x | (lift_lets -underBinder; intro x)
       first
       | (with_reducible refine (fun hx => ?_) (?_ : P x)
          on_goal 1 => clear_value x
          on_goal 2 => (unfold x; clear x))
       | clear_value x
       | skip)
    | with_reducible apply ite_keep
    | split
    | with_reducible apply setReg_keep (hP.mono (by decide))
    | with_reducible apply setOut_keep (hP.mono (by decide))
    | with_reducible apply forL_keep
    | with_reducible refine eq_keep (by assumption) ?_

theorem latchSignals_keep {P : State → Prop} (hP : Keeps [.outs, .free] P) (f : Nat) (s : State) (hst : P s) :
    P (latchSignals f s) := by
  unfold latchSignals
  repeat' first
    | with_reducible assumption
    | (first | intro x | (lift_lets -underBinder; intro x)
       first
       | (with_reducible refine (fun hx => ?_) (?_ : P x)
          on_goal 1 => clear_value x
          on_goal 2 => (unfold x; clear x))
       | (with_reducible refine (fun hfun => ?_) (?_ : ∀ a, P a → P (x a))
          on_goal 1 => clear_value x
          on_goal 2 => (unfold x; clear x))
       | (with_reducible refine (fun hfun => ?_) (?_ : ∀ a b, P b → P (x a b))
          on_goal 1 => clear_value x
          on_goal 2 => (unfold x; clear x))
       | (with_reducible refine (fun hfun => ?_) (?_ : ∀ a b c, P c → P (x a b c))
          on_goal 1 => clear_value x
          on_goal 2 => (unfold x; clear x))
       | (with_reducible refine (fun hfun => ?_) (?_ : ∀ a b c d, P d → P (x a b c d))
          on_goal 1 => clear_value x
          on_goal 2 => (unfold x; clear x))
       | (with_reducible refine (fun hx => ?_) (?_ : P x.2)
          on_goal 1 => clear_value x
          on_goal 2 => (unfold x; clear x))
       | (with_reducible refine (fun hfun => ?_) (?_ : ∀ a, P (x a))
          on_goal 1 => clear_value x
          on_goal 2 => (unfold x; clear x))
       | (with_reducible refine (fun hfun => ?_) (?_ : ∀ a b c, P (x a b c))
          on_goal 1 => clear_value x
          on_goal 2 => (unfold x; clear x))
       | clear_value x
       | skip)
    | with_reducible apply hfun
    | with_reducible apply ite_keep
    | split
    | with_reducible apply setOut_keep (hP.mono (by decide))
    | with_reducible apply draw_keep (hP.mono (by decide))
    | with_reducible apply each_keep

theorem lateSignals_keep {P : State → Prop} (hP : Keeps [.outs, .chans] P) (ch : Nat) (s : State) (hst : P s) :
    P (lateSignals ch s) := by
  unfold lateSignals
  repeat' first
    | with_reducible assumption
    | (first | intro x | (lift_lets -underBinder; intro x)
       first
       | (with_reducible refine (fun hx => ?_) (?_ : P x)
          on_goal 1 => clear_value x
          on_goal 2 => (unfold x; clear x))
       | (with_reducible refine (fun hfun => ?_) (?_ : ∀ a, P a → P (x a))
          on_goal 1 => clear_value x
          on_goal 2 => (unfold x; clear x))
       | (with_reducible refine (fun hfun => ?_) (?_ : ∀ a b, P b → P (x a b))
          on_goal 1 => clear_value x
          on_goal 2 => (unfold x; clear x))
       | (with_reducible refine (fun hfun => ?_) (?_ : ∀ a b c, P c → P (x a b c))
          on_goal 1 => clear_value x
          on_goal 2 => (unfold x; clear x))
       | (with_reducible refine (fun hfun => ?_) (?_ : ∀ a b c d, P d → P (x a b c d))
          on_goal 1 => clear_value x
          on_goal 2 => (unfold x; clear x))
       | (with_reducible refine (fun hx => ?_) (?_ : P x.2)
          on_goal 1 => clear_value x
          on_goal 2 => (unfold x; clear x))
       | (with_reducible refine (fun hfun => ?_) (?_ : ∀ a, P (x a))
          on_goal 1 => clear_value x
          on_goal 2 => (unfold x; clear x))
       | (with_reducible refine (fun hfun => ?_) (?_ : ∀ a b c, P (x a b c))
          on_goal 1 => clear_value x
          on_goal 2 => (unfold x; clear x))
       | clear_value x
       | skip)
    | with_reducible apply hfun
    | with_reducible apply ite_keep
    | split
    | with_reducible apply updChan_keep (hP.mono (by decide))
    | with_reducible apply setOut_keep (hP.mono (by decide))
    | with_reducible apply each_keep
    | with_reducible refine eq_keep (by assumption) ?_

-- Standard

theorem recordError_keep {P : State → Prop} (hP : Keeps [.chans] P) (ch : Nat) (e32 : Int) (xd : BitVec 16) (s : State) (hst : P s) :
    P (recordError ch e32 xd s) := by
  unfold recordError
  repeat' first
    | with_reducible assumption
    | (first | intro x | (lift_lets -underBinder; intro x)
       first
       | (with_reducible refine (fun hx => ?_) (?_ : P x)
          on_goal 1 => clear_value x
          on_goal 2 => (unfold x; clear x))
       | clear_value x
       | skip)
    | with_reducible apply ite_keep
    | split
    | with_reducible apply updChan_keep (hP.mono (by decide))

theorem writeClamp_keep {P : State → Prop} (hP : Keeps [.chans] P) (e : Nat) (hi : Int) (lo : Int) (s : State) (hst : P s) :
    P (writeClamp e hi lo s) := by
  unfold writeClamp
  repeat' first
    | with_reducible assumption
    | intro x
    | with_reducible apply ite_keep
    | split
    | with_reducible apply updChan_keep (hP.mono (by decide))
    | with_reducible refine eq_keep (by assumption) ?_

theorem actErr_keep {P : State → Prop} (hP : Keeps [.chans, .runs] P) (e : Nat) (e32 : Int) (e16 : Int) (s : State) (hst : P s) :
    P (actErr e e32 e16 s) := by
  unfold actErr
  repeat' first
    | with_reducible assumption
    | (first | intro x | (lift_lets -underBinder; intro x)
       first
       | (with_reducible refine (fun hx => ?_) (?_ : P x)
          on_goal 1 => clear_value x
          on_goal 2 => (unfold x; clear x))
       | clear_value x
       | skip)
    | with_reducible apply ite_keep
    | split
    | with_reducible apply setRun_keep (hP.mono (by decide))
    | with_reducible apply recordError_keep (hP.mono (by decide))

theorem actOut_keep {P : State → Prop} (hP : Keeps [.chans, .runs] P) (e : Nat) (x : BitVec 16) (s : State) (hst : P s) :
    P (actOut e x s) := by
  unfold actOut
  repeat' first
    | with_reducible assumption
    | (first | intro x | (lift_lets -underBinder; intro x)
       first
       | (with_reducible refine (fun hx => ?_) (?_ : P x)
          on_goal 1 => clear_value x
          on_goal 2 => (unfold x; clear x))
       | clear_value x
       | skip)
    | with_reducible apply ite_keep
    | split
    | with_reducible apply updChan_keep (hP.mono (by decide))
    | with_reducible apply setRun_keep (hP.mono (by decide))

theorem actClm_keep {P : State → Prop} (hP : Keeps [.chans, .runs] P) (e : Nat) (hi : BitVec 16) (lo : BitVec 16) (s : State) (hst : P s) :
    P (actClm e hi lo s) := by
  unfold actClm
  repeat' first
    | with_reducible assumption
    | (first | intro x | (lift_lets -underBinder; intro x)
       first
       | (with_reducible refine (fun hx => ?_) (?_ : P x)
          on_goal 1 => clear_value x
          on_goal 2 => (unfold x; clear x))
       | clear_value x
       | skip)
    | with_reducible apply setRun_keep (hP.mono (by decide))
    | with_reducible apply writeClamp_keep (hP.mono (by decide))

theorem lawRun_keep {P : State → Prop} (hP : Keeps [.runs] P) (op : Nat) (e : Nat) (s : State) (hst : P s) :
    P (lawRun op e s) := by
  unfold lawRun
  repeat' first
    | with_reducible assumption
    | (first | intro x | (lift_lets -underBinder; intro x)
       first
       | (with_reducible refine (fun hx => ?_) (?_ : P x)
          on_goal 1 => clear_value x
          on_goal 2 => (unfold x; clear x))
       | clear_value x
       | skip)
    | with_reducible apply ite_keep
    | split
    | with_reducible apply setRun_keep (hP.mono (by decide))

theorem lawLse_keep {P : State → Prop} (hP : Keeps [.runs] P) (e : Nat) (s : State) (hst : P s) :
    P (lawLse e s) := by
  unfold lawLse
  repeat' first
    | with_reducible assumption
    | (first | intro x | (lift_lets -underBinder; intro x)
       first
       | (with_reducible refine (fun hx => ?_) (?_ : P x)
          on_goal 1 => clear_value x
          on_goal 2 => (unfold x; clear x))
       | clear_value x
       | skip)
    | with_reducible apply setRun_keep (hP.mono (by decide))
    | with_reducible apply lawRun_keep (hP.mono (by decide))

theorem lawErr_keep {P : State → Prop} (hP : Keeps [.chans, .runs] P) (e : Nat) (s : State) (hst : P s) :
    P (lawErr e s) := by
  unfold lawErr
  repeat' first
    | with_reducible assumption
    | (first | intro x | (lift_lets -underBinder; intro x)
       first
       | (with_reducible refine (fun hx => ?_) (?_ : P x)
          on_goal 1 => clear_value x
          on_goal 2 => (unfold x; clear x))
       | clear_value x
       | skip)
    | with_reducible apply actErr_keep (hP.mono (by decide))
    | with_reducible apply lawRun_keep (hP.mono (by decide))

theorem lawStore_keep {P : State → Prop} (hP : Keeps [.regs, .ws, .chans, .runs, .col, .host] P) (e : Nat) (s : State) (hst : P s) :
    P (lawStore e s) := by
  unfold lawStore
  repeat' first
    | with_reducible assumption
    | (first | intro x | (lift_lets -underBinder; intro x)
       first
       | (with_reducible refine (fun hx => ?_) (?_ : P x)
          on_goal 1 => clear_value x
          on_goal 2 => (unfold x; clear x))
       | clear_value x
       | skip)
    | with_reducible apply ite_keep
    | split
    | with_reducible apply storeAt_keep (hP.mono (by decide))
    | with_reducible apply lawRun_keep (hP.mono (by decide))

theorem lawAct_keep {P : State → Prop} (hP : Keeps [.chans, .runs] P) (e : Nat) (s : State) (hst : P s) :
    P (lawAct e s) := by
  unfold lawAct
  repeat' first
    | with_reducible assumption
    | (first | intro x | (lift_lets -underBinder; intro x)
       first
       | (with_reducible refine (fun hx => ?_) (?_ : P x)
          on_goal 1 => clear_value x
          on_goal 2 => (unfold x; clear x))
       | clear_value x
       | skip)
    | with_reducible apply actOut_keep (hP.mono (by decide))
    | with_reducible apply lawRun_keep (hP.mono (by decide))

theorem lawCap_keep {P : State → Prop} (hP : Keeps [.runs] P) (e : Nat) (s : State) (hst : P s) :
    P (lawCap e s) := by
  unfold lawCap
  repeat' first
    | with_reducible assumption
    | (first | intro x | (lift_lets -underBinder; intro x)
       first
       | (with_reducible refine (fun hx => ?_) (?_ : P x)
          on_goal 1 => clear_value x
          on_goal 2 => (unfold x; clear x))
       | clear_value x
       | skip)
    | with_reducible apply setRun_keep (hP.mono (by decide))
    | with_reducible apply lawRun_keep (hP.mono (by decide))

theorem modelClamp_keep {P : State → Prop} (hP : Keeps [.regs, .chans, .runs, .col, .host, .free] P) (e : Nat) (s : State) (hst : P s) :
    P (modelClamp e s) := by
  unfold modelClamp
  repeat' first
    | with_reducible assumption
    | (first | intro x | (lift_lets -underBinder; intro x)
       first
       | (with_reducible refine (fun hx => ?_) (?_ : P x)
          on_goal 1 => clear_value x
          on_goal 2 => (unfold x; clear x))
       | (with_reducible refine (fun hfun => ?_) (?_ : ∀ a, P a → P (x a))
          on_goal 1 => clear_value x
          on_goal 2 => (unfold x; clear x))
       | (with_reducible refine (fun hfun => ?_) (?_ : ∀ a b, P b → P (x a b))
          on_goal 1 => clear_value x
          on_goal 2 => (unfold x; clear x))
       | (with_reducible refine (fun hfun => ?_) (?_ : ∀ a b c, P c → P (x a b c))
          on_goal 1 => clear_value x
          on_goal 2 => (unfold x; clear x))
       | (with_reducible refine (fun hfun => ?_) (?_ : ∀ a b c d, P d → P (x a b c d))
          on_goal 1 => clear_value x
          on_goal 2 => (unfold x; clear x))
       | (with_reducible refine (fun hx => ?_) (?_ : P x.2)
          on_goal 1 => clear_value x
          on_goal 2 => (unfold x; clear x))
       | (with_reducible refine (fun hfun => ?_) (?_ : ∀ a, P (x a))
          on_goal 1 => clear_value x
          on_goal 2 => (unfold x; clear x))
       | (with_reducible refine (fun hfun => ?_) (?_ : ∀ a b c, P (x a b c))
          on_goal 1 => clear_value x
          on_goal 2 => (unfold x; clear x))
       | clear_value x
       | skip)
    | with_reducible apply hfun
    | with_reducible apply setRun_keep (hP.mono (by decide))
    | with_reducible apply modelLaw_keep (hP.mono (by decide))
    | with_reducible apply actClm_keep (hP.mono (by decide))

theorem stdStates_keep {P : State → Prop} (hP : Keeps [.regs, .ws, .chans, .runs, .col, .host] P) (e : Nat) (s : State) (hst : P s) :
    P (stdStates e s) := by
  unfold stdStates
  repeat' first
    | with_reducible assumption
    | (first | intro x | (lift_lets -underBinder; intro x)
       first
       | (with_reducible refine (fun hx => ?_) (?_ : P x)
          on_goal 1 => clear_value x
          on_goal 2 => (unfold x; clear x))
       | clear_value x
       | skip)
    | with_reducible apply ite_keep
    | split
    | with_reducible apply storeAt_keep (hP.mono (by decide))
    | with_reducible apply lawRun_keep (hP.mono (by decide))
    | with_reducible apply forL_keep

theorem handModel_keep {P : State → Prop} (hP : Keeps [.outs, .chans, .mengs] P) (e : Nat) (ended : Bool) (r : Run) (s : State) (hst : P s) :
    P (handModel e ended r s) := by
  unfold handModel
  repeat' first
    | with_reducible assumption
    | intro x
    | with_reducible apply updMEng_keep (hP.mono (by decide))
    | with_reducible apply lateSignals_keep (hP.mono (by decide))

theorem modelEvidence_keep {P : State → Prop} (hP : Keeps [.regs, .chans, .health, .runs, .mengs, .svc, .col, .host, .nv] P) (n : Nat) (s : State) (hst : P s) :
    P (modelEvidence n s) := by
  unfold modelEvidence
  repeat' first
    | with_reducible assumption
    | with_reducible apply ite_keep
    | split
    | with_reducible apply declareFailed_keep (hP.mono (by decide))

theorem stopModelRun_keep {P : State → Prop} (hP : Keeps [.regs, .outs, .chans, .health, .runs, .mengs, .svc, .col, .host, .nv] P) (n : Nat) (s : State) (hst : P s) :
    P (stopModelRun n s) := by
  unfold stopModelRun
  repeat' first
    | with_reducible assumption
    | (first | intro x | (lift_lets -underBinder; intro x)
       first
       | (with_reducible refine (fun hx => ?_) (?_ : P x)
          on_goal 1 => clear_value x
          on_goal 2 => (unfold x; clear x))
       | clear_value x
       | skip)
    | with_reducible apply ite_keep
    | split
    | with_reducible apply updMEng_keep (hP.mono (by decide))
    | with_reducible apply modelEvidence_keep (hP.mono (by decide))
    | with_reducible apply bump_keep (hP.mono (by decide))
    | with_reducible apply handModel_keep (hP.mono (by decide))
    | with_reducible apply meEvent_keep (hP.mono (by decide))
    | with_reducible apply setEvt_keep (hP.mono (by decide))
    | with_reducible apply endRun_keep (hP.mono (by decide))

theorem execModelDeadline_keep {P : State → Prop} (hP : Keeps [.regs, .outs, .chans, .health, .runs, .mengs, .svc, .col, .host, .nv] P) (e : Fin 32) (s : State) (hst : P s) :
    AllNext P (execModelDeadline e s) := by
  unfold execModelDeadline
  repeat' first
    | with_reducible assumption
    | (first | intro x | (lift_lets -underBinder; intro x)
       first
       | (with_reducible refine (fun hx => ?_) (?_ : P x)
          on_goal 1 => clear_value x
          on_goal 2 => (unfold x; clear x))
       | clear_value x
       | skip)
    | with_reducible apply ite_keep
    | split
    | with_reducible apply next_keep
    | with_reducible apply updMEng_keep (hP.mono (by decide))
    | with_reducible apply stopModelRun_keep (hP.mono (by decide))

-- Iatia

theorem updRun_keep {P : State → Prop} (hP : Keeps [.runs] P) (s : State) (e : Nat) (f : Run → Run) (hst : P s) :
    P (State.updRun s e f) := by
  unfold State.updRun
  repeat' first
    | with_reducible assumption
    | with_reducible apply setRun_keep (hP.mono (by decide))

theorem wordCorrected_keep {P : State → Prop} (hP : Keeps [.regs, .col, .host] P) (e : Nat) (s : State) (hst : P s) :
    P (wordCorrected e s) := by
  unfold wordCorrected
  repeat' first
    | with_reducible assumption
    | with_reducible apply ite_keep
    | split
    | with_reducible apply bump_keep (hP.mono (by decide))
    | with_reducible apply raise_keep (hP.mono (by decide))

theorem runEvidence_keep {P : State → Prop} (hP : Keeps [.regs, .runs] P) (e : Nat) (s : State) (hst : P s) :
    P (runEvidence e s) := by
  unfold runEvidence
  repeat' first
    | with_reducible assumption
    | intro x
    | with_reducible apply updRun_keep (hP.mono (by decide))
    | with_reducible apply bump_keep (hP.mono (by decide))

theorem wordFinding_keep {P : State → Prop} (hP : Keeps [.regs, .runs, .col, .host] P) (e : Nat) (err : Nat) (s : State) (hst : P s) :
    P (wordFinding e err s) := by
  unfold wordFinding
  repeat' first
    | with_reducible assumption
    | (first | intro x | (lift_lets -underBinder; intro x)
       first
       | (with_reducible refine (fun hx => ?_) (?_ : P x)
          on_goal 1 => clear_value x
          on_goal 2 => (unfold x; clear x))
       | clear_value x
       | skip)
    | with_reducible apply ite_keep
    | split
    | with_reducible apply wordCorrected_keep (hP.mono (by decide))
    | with_reducible apply runEvidence_keep (hP.mono (by decide))
    | with_reducible apply bump_keep (hP.mono (by decide))
    | with_reducible apply raise_keep (hP.mono (by decide))
    | with_reducible refine eq_keep (by assumption) ?_

theorem iaStep_keep {P : State → Prop} (hP : Keeps [.regs, .runs, .col, .host] P) (op : Nat) (cost : Nat) (e : Nat) (err : Nat) (f : W → State → State) (s : State) (hf : ∀ a0 a1, P a1 → P (f a0 a1)) (hst : P s) :
    P (iaStep op cost e err f s) := by
  unfold iaStep
  repeat' first
    | with_reducible assumption
    | (first | intro x | (lift_lets -underBinder; intro x)
       first
       | (with_reducible refine (fun hx => ?_) (?_ : P x)
          on_goal 1 => clear_value x
          on_goal 2 => (unfold x; clear x))
       | clear_value x
       | skip)
    | with_reducible apply ite_keep
    | split
    | with_reducible apply hf
    | with_reducible apply updRun_keep (hP.mono (by decide))
    | with_reducible apply wordFinding_keep (hP.mono (by decide))
    | with_reducible refine eq_keep (by assumption) ?_

theorem iaStd_keep {P : State → Prop} (hP : Keeps [.regs, .runs, .col, .host] P) (op : Nat) (cost : Nat) (e : Nat) (err : Nat) (g : State → State) (f : W → State → State) (s : State) (hg : ∀ a0, P a0 → P (g a0)) (hf : ∀ a0 a1, P a1 → P (f a0 a1)) (hst : P s) :
    P (iaStd op cost e err g f s) := by
  unfold iaStd
  repeat' first
    | with_reducible assumption
    | intro x
    | with_reducible apply ite_keep
    | split
    | with_reducible apply hg
    | with_reducible apply hf
    | with_reducible apply iaStep_keep (hP.mono (by decide))

theorem iaReg_keep {P : State → Prop} (hP : Keeps [.regs, .runs, .col, .host] P) (op : Nat) (cost : Nat) (e : Nat) (err : Nat) (f : W → Run → Run) (s : State) (hst : P s) :
    P (iaReg op cost e err f s) := by
  unfold iaReg
  repeat' first
    | with_reducible assumption
    | intro x
    | with_reducible apply updRun_keep (hP.mono (by decide))
    | with_reducible apply iaStep_keep (hP.mono (by decide))

theorem handOver_keep {P : State → Prop} (hP : Keeps [.chans] P) (r : Run) (x : RunSum) (s : State) (hst : P s) :
    P (handOver r x s) := by
  unfold handOver
  repeat' first
    | with_reducible assumption
    | intro x
    | with_reducible apply ite_keep
    | split
    | with_reducible apply updLease_keep (hP.mono (by decide))

theorem stopRun_keep {P : State → Prop} (hP : Keeps [.regs, .chans, .runs, .svc, .col, .host] P) (e : Nat) (cut : Bool) (s : State) (hst : P s) :
    P (stopRun e cut s) := by
  unfold stopRun
  repeat' first
    | with_reducible assumption
    | (first | intro x | (lift_lets -underBinder; intro x)
       first
       | (with_reducible refine (fun hx => ?_) (?_ : P x)
          on_goal 1 => clear_value x
          on_goal 2 => (unfold x; clear x))
       | clear_value x
       | skip)
    | with_reducible apply ite_keep
    | split
    | with_reducible apply updChan_keep (hP.mono (by decide))
    | with_reducible apply bump_keep (hP.mono (by decide))
    | with_reducible apply handOver_keep (hP.mono (by decide))
    | with_reducible apply endRun_keep (hP.mono (by decide))
    | with_reducible apply raise_keep (hP.mono (by decide))
    | with_reducible apply held_keep (hP.mono (by decide))

theorem markEnd_keep {P : State → Prop} (hP : Keeps [.regs] P) (e : Nat) (cc : Nat) (s : State) (hst : P s) :
    P (markEnd e cc s) := by
  unfold markEnd
  repeat' first
    | with_reducible assumption
    | (first | intro x | (lift_lets -underBinder; intro x)
       first
       | (with_reducible refine (fun hx => ?_) (?_ : P x)
          on_goal 1 => clear_value x
          on_goal 2 => (unfold x; clear x))
       | clear_value x
       | skip)
    | with_reducible apply setField_keep (hP.mono (by decide))

theorem endLoopRun_keep {P : State → Prop} (hP : Keeps [.regs, .chans, .runs, .svc] P) (e : Nat) (s : State) (hst : P s) :
    P (endLoopRun e s) := by
  unfold endLoopRun
  repeat' first
    | with_reducible assumption
    | (first | intro x | (lift_lets -underBinder; intro x)
       first
       | (with_reducible refine (fun hx => ?_) (?_ : P x)
          on_goal 1 => clear_value x
          on_goal 2 => (unfold x; clear x))
       | clear_value x
       | skip)
    | with_reducible apply ite_keep
    | split
    | with_reducible apply updChan_keep (hP.mono (by decide))
    | with_reducible apply bump_keep (hP.mono (by decide))
    | with_reducible apply handOver_keep (hP.mono (by decide))
    | with_reducible apply markEnd_keep (hP.mono (by decide))
    | with_reducible apply endRun_keep (hP.mono (by decide))
    | with_reducible apply held_keep (hP.mono (by decide))

theorem endModelRun_keep {P : State → Prop} (hP : Keeps [.regs, .outs, .chans, .health, .runs, .mengs, .svc, .col, .host, .nv] P) (e : Nat) (s : State) (hst : P s) :
    P (endModelRun e s) := by
  unfold endModelRun
  repeat' first
    | with_reducible assumption
    | (first | intro x | (lift_lets -underBinder; intro x)
       first
       | (with_reducible refine (fun hx => ?_) (?_ : P x)
          on_goal 1 => clear_value x
          on_goal 2 => (unfold x; clear x))
       | clear_value x
       | skip)
    | with_reducible apply ite_keep
    | split
    | with_reducible apply modelEvidence_keep (hP.mono (by decide))
    | with_reducible apply handModel_keep (hP.mono (by decide))
    | with_reducible apply markEnd_keep (hP.mono (by decide))
    | with_reducible apply endRun_keep (hP.mono (by decide))

theorem execIaNop_keep {P : State → Prop} (hP : Keeps [.regs, .runs, .col, .host] P) (e : Fin 160) (err : Fin 5) (s : State) (hst : P s) :
    AllNext P (execIaNop e err s) := by
  unfold execIaNop
  repeat' first
    | with_reducible assumption
    | intro x
    | with_reducible apply next_keep
    | with_reducible apply iaReg_keep (hP.mono (by decide))

theorem execIaEnd_keep {P : State → Prop} (hP : Keeps [.regs, .outs, .chans, .health, .runs, .mengs, .svc, .col, .host, .nv] P) (e : Fin 160) (err : Fin 5) (s : State) (hst : P s) :
    AllNext P (execIaEnd e err s) := by
  unfold execIaEnd
  repeat' first
    | with_reducible assumption
    | (first | intro x | (lift_lets -underBinder; intro x)
       first
       | (with_reducible refine (fun hx => ?_) (?_ : P x)
          on_goal 1 => clear_value x
          on_goal 2 => (unfold x; clear x))
       | clear_value x
       | skip)
    | with_reducible apply ite_keep
    | split
    | with_reducible apply next_keep
    | with_reducible apply stopModelRun_keep (hP.mono (by decide))
    | with_reducible apply updRun_keep (hP.mono (by decide))
    | with_reducible apply wordFinding_keep (hP.mono (by decide))
    | with_reducible apply endModelRun_keep (hP.mono (by decide))
    | with_reducible apply endLoopRun_keep (hP.mono (by decide))
    | with_reducible apply stopRun_keep (hP.mono (by decide))
    | with_reducible refine eq_keep (by assumption) ?_

theorem execIaMovi_keep {P : State → Prop} (hP : Keeps [.regs, .runs, .col, .host] P) (e : Fin 160) (err : Fin 5) (s : State) (hst : P s) :
    AllNext P (execIaMovi e err s) := by
  unfold execIaMovi
  repeat' first
    | with_reducible assumption
    | intro x
    | with_reducible apply next_keep
    | with_reducible apply iaReg_keep (hP.mono (by decide))

theorem execIaLdp_keep {P : State → Prop} (hP : Keeps [.regs, .runs, .col, .host] P) (e : Fin 160) (err : Fin 5) (s : State) (hst : P s) :
    AllNext P (execIaLdp e err s) := by
  unfold execIaLdp
  repeat' first
    | with_reducible assumption
    | intro x
    | with_reducible apply next_keep
    | with_reducible apply iaReg_keep (hP.mono (by decide))

theorem execIaAddp_keep {P : State → Prop} (hP : Keeps [.regs, .runs, .col, .host] P) (e : Fin 160) (err : Fin 5) (s : State) (hst : P s) :
    AllNext P (execIaAddp e err s) := by
  unfold execIaAddp
  repeat' first
    | with_reducible assumption
    | intro x
    | with_reducible apply next_keep
    | with_reducible apply iaReg_keep (hP.mono (by decide))

theorem execIaMov_keep {P : State → Prop} (hP : Keeps [.regs, .runs, .col, .host] P) (e : Fin 160) (err : Fin 5) (s : State) (hst : P s) :
    AllNext P (execIaMov e err s) := by
  unfold execIaMov
  repeat' first
    | with_reducible assumption
    | intro x
    | with_reducible apply next_keep
    | with_reducible apply iaReg_keep (hP.mono (by decide))

theorem execIaMfl_keep {P : State → Prop} (hP : Keeps [.regs, .runs, .col, .host] P) (e : Fin 160) (err : Fin 5) (s : State) (hst : P s) :
    AllNext P (execIaMfl e err s) := by
  unfold execIaMfl
  repeat' first
    | with_reducible assumption
    | intro x
    | with_reducible apply next_keep
    | with_reducible apply iaReg_keep (hP.mono (by decide))

theorem execIaClrs_keep {P : State → Prop} (hP : Keeps [.regs, .runs, .col, .host] P) (e : Fin 160) (err : Fin 5) (s : State) (hst : P s) :
    AllNext P (execIaClrs e err s) := by
  unfold execIaClrs
  repeat' first
    | with_reducible assumption
    | intro x
    | with_reducible apply next_keep
    | with_reducible apply iaReg_keep (hP.mono (by decide))

theorem execIaLdh_keep {P : State → Prop} (hP : Keeps [.regs, .runs, .col, .host] P) (e : Fin 160) (err : Fin 5) (s : State) (hst : P s) :
    AllNext P (execIaLdh e err s) := by
  unfold execIaLdh
  repeat' first
    | with_reducible assumption
    | (first | intro x | (lift_lets -underBinder; intro x)
       first
       | (with_reducible refine (fun hx => ?_) (?_ : P x)
          on_goal 1 => clear_value x
          on_goal 2 => (unfold x; clear x))
       | (with_reducible refine (fun hfun => ?_) (?_ : ∀ a, P a → P (x a))
          on_goal 1 => clear_value x
          on_goal 2 => (unfold x; clear x))
       | (with_reducible refine (fun hfun => ?_) (?_ : ∀ a b, P b → P (x a b))
          on_goal 1 => clear_value x
          on_goal 2 => (unfold x; clear x))
       | (with_reducible refine (fun hfun => ?_) (?_ : ∀ a b c, P c → P (x a b c))
          on_goal 1 => clear_value x
          on_goal 2 => (unfold x; clear x))
       | (with_reducible refine (fun hfun => ?_) (?_ : ∀ a b c d, P d → P (x a b c d))
          on_goal 1 => clear_value x
          on_goal 2 => (unfold x; clear x))
       | (with_reducible refine (fun hx => ?_) (?_ : P x.2)
          on_goal 1 => clear_value x
          on_goal 2 => (unfold x; clear x))
       | (with_reducible refine (fun hfun => ?_) (?_ : ∀ a, P (x a))
          on_goal 1 => clear_value x
          on_goal 2 => (unfold x; clear x))
       | (with_reducible refine (fun hfun => ?_) (?_ : ∀ a b c, P (x a b c))
          on_goal 1 => clear_value x
          on_goal 2 => (unfold x; clear x))
       | clear_value x
       | skip)
    | with_reducible apply hfun
    | with_reducible apply next_keep
    | with_reducible apply updRun_keep (hP.mono (by decide))
    | with_reducible apply loadView_keep (hP.mono (by decide))
    | with_reducible apply iaStep_keep (hP.mono (by decide))

theorem execIaSth_keep {P : State → Prop} (hP : Keeps [.regs, .ws, .chans, .runs, .col, .host] P) (e : Fin 160) (err : Fin 5) (s : State) (hst : P s) :
    AllNext P (execIaSth e err s) := by
  unfold execIaSth
  repeat' first
    | with_reducible assumption
    | intro x
    | with_reducible apply next_keep
    | with_reducible apply storeView_keep (hP.mono (by decide))
    | with_reducible apply lawStore_keep (hP.mono (by decide))
    | with_reducible apply iaStd_keep (hP.mono (by decide))

theorem execIaLdw_keep {P : State → Prop} (hP : Keeps [.regs, .runs, .col, .host] P) (e : Fin 160) (err : Fin 5) (s : State) (hst : P s) :
    AllNext P (execIaLdw e err s) := by
  unfold execIaLdw
  repeat' first
    | with_reducible assumption
    | (first | intro x | (lift_lets -underBinder; intro x)
       first
       | (with_reducible refine (fun hx => ?_) (?_ : P x)
          on_goal 1 => clear_value x
          on_goal 2 => (unfold x; clear x))
       | (with_reducible refine (fun hfun => ?_) (?_ : ∀ a, P a → P (x a))
          on_goal 1 => clear_value x
          on_goal 2 => (unfold x; clear x))
       | (with_reducible refine (fun hfun => ?_) (?_ : ∀ a b, P b → P (x a b))
          on_goal 1 => clear_value x
          on_goal 2 => (unfold x; clear x))
       | (with_reducible refine (fun hfun => ?_) (?_ : ∀ a b c, P c → P (x a b c))
          on_goal 1 => clear_value x
          on_goal 2 => (unfold x; clear x))
       | (with_reducible refine (fun hfun => ?_) (?_ : ∀ a b c d, P d → P (x a b c d))
          on_goal 1 => clear_value x
          on_goal 2 => (unfold x; clear x))
       | (with_reducible refine (fun hx => ?_) (?_ : P x.2)
          on_goal 1 => clear_value x
          on_goal 2 => (unfold x; clear x))
       | (with_reducible refine (fun hfun => ?_) (?_ : ∀ a, P (x a))
          on_goal 1 => clear_value x
          on_goal 2 => (unfold x; clear x))
       | (with_reducible refine (fun hfun => ?_) (?_ : ∀ a b c, P (x a b c))
          on_goal 1 => clear_value x
          on_goal 2 => (unfold x; clear x))
       | clear_value x
       | skip)
    | with_reducible apply hfun
    | with_reducible apply next_keep
    | with_reducible apply updRun_keep (hP.mono (by decide))
    | with_reducible apply loadView_keep (hP.mono (by decide))
    | with_reducible apply iaStep_keep (hP.mono (by decide))

theorem execIaStw_keep {P : State → Prop} (hP : Keeps [.regs, .ws, .chans, .runs, .col, .host] P) (e : Fin 160) (err : Fin 5) (s : State) (hst : P s) :
    AllNext P (execIaStw e err s) := by
  unfold execIaStw
  repeat' first
    | with_reducible assumption
    | (first | intro x | (lift_lets -underBinder; intro x)
       first
       | (with_reducible refine (fun hx => ?_) (?_ : P x)
          on_goal 1 => clear_value x
          on_goal 2 => (unfold x; clear x))
       | clear_value x
       | skip)
    | with_reducible apply next_keep
    | with_reducible apply updRun_keep (hP.mono (by decide))
    | with_reducible apply storeView_keep (hP.mono (by decide))
    | with_reducible apply stdStates_keep (hP.mono (by decide))
    | with_reducible apply iaStd_keep (hP.mono (by decide))

theorem execIaAdd_keep {P : State → Prop} (hP : Keeps [.regs, .runs, .col, .host] P) (e : Fin 160) (err : Fin 5) (s : State) (hst : P s) :
    AllNext P (execIaAdd e err s) := by
  unfold execIaAdd
  repeat' first
    | with_reducible assumption
    | intro x
    | with_reducible apply next_keep
    | with_reducible apply iaReg_keep (hP.mono (by decide))

theorem execIaSub_keep {P : State → Prop} (hP : Keeps [.regs, .runs, .col, .host] P) (e : Fin 160) (err : Fin 5) (s : State) (hst : P s) :
    AllNext P (execIaSub e err s) := by
  unfold execIaSub
  repeat' first
    | with_reducible assumption
    | intro x
    | with_reducible apply next_keep
    | with_reducible apply iaReg_keep (hP.mono (by decide))

theorem execIaAddi_keep {P : State → Prop} (hP : Keeps [.regs, .runs, .col, .host] P) (e : Fin 160) (err : Fin 5) (s : State) (hst : P s) :
    AllNext P (execIaAddi e err s) := by
  unfold execIaAddi
  repeat' first
    | with_reducible assumption
    | intro x
    | with_reducible apply next_keep
    | with_reducible apply iaReg_keep (hP.mono (by decide))

theorem execIaNeg_keep {P : State → Prop} (hP : Keeps [.regs, .runs, .col, .host] P) (e : Fin 160) (err : Fin 5) (s : State) (hst : P s) :
    AllNext P (execIaNeg e err s) := by
  unfold execIaNeg
  repeat' first
    | with_reducible assumption
    | intro x
    | with_reducible apply next_keep
    | with_reducible apply iaReg_keep (hP.mono (by decide))

theorem execIaAbs_keep {P : State → Prop} (hP : Keeps [.regs, .runs, .col, .host] P) (e : Fin 160) (err : Fin 5) (s : State) (hst : P s) :
    AllNext P (execIaAbs e err s) := by
  unfold execIaAbs
  repeat' first
    | with_reducible assumption
    | intro x
    | with_reducible apply next_keep
    | with_reducible apply iaReg_keep (hP.mono (by decide))

theorem execIaMin_keep {P : State → Prop} (hP : Keeps [.regs, .runs, .col, .host] P) (e : Fin 160) (err : Fin 5) (s : State) (hst : P s) :
    AllNext P (execIaMin e err s) := by
  unfold execIaMin
  repeat' first
    | with_reducible assumption
    | intro x
    | with_reducible apply next_keep
    | with_reducible apply iaReg_keep (hP.mono (by decide))

theorem execIaMax_keep {P : State → Prop} (hP : Keeps [.regs, .runs, .col, .host] P) (e : Fin 160) (err : Fin 5) (s : State) (hst : P s) :
    AllNext P (execIaMax e err s) := by
  unfold execIaMax
  repeat' first
    | with_reducible assumption
    | intro x
    | with_reducible apply next_keep
    | with_reducible apply iaReg_keep (hP.mono (by decide))

theorem execIaAnd_keep {P : State → Prop} (hP : Keeps [.regs, .runs, .col, .host] P) (e : Fin 160) (err : Fin 5) (s : State) (hst : P s) :
    AllNext P (execIaAnd e err s) := by
  unfold execIaAnd
  repeat' first
    | with_reducible assumption
    | intro x
    | with_reducible apply next_keep
    | with_reducible apply iaReg_keep (hP.mono (by decide))

theorem execIaOr_keep {P : State → Prop} (hP : Keeps [.regs, .runs, .col, .host] P) (e : Fin 160) (err : Fin 5) (s : State) (hst : P s) :
    AllNext P (execIaOr e err s) := by
  unfold execIaOr
  repeat' first
    | with_reducible assumption
    | intro x
    | with_reducible apply next_keep
    | with_reducible apply iaReg_keep (hP.mono (by decide))

theorem execIaXor_keep {P : State → Prop} (hP : Keeps [.regs, .runs, .col, .host] P) (e : Fin 160) (err : Fin 5) (s : State) (hst : P s) :
    AllNext P (execIaXor e err s) := by
  unfold execIaXor
  repeat' first
    | with_reducible assumption
    | intro x
    | with_reducible apply next_keep
    | with_reducible apply iaReg_keep (hP.mono (by decide))

theorem execIaAndi_keep {P : State → Prop} (hP : Keeps [.regs, .runs, .col, .host] P) (e : Fin 160) (err : Fin 5) (s : State) (hst : P s) :
    AllNext P (execIaAndi e err s) := by
  unfold execIaAndi
  repeat' first
    | with_reducible assumption
    | intro x
    | with_reducible apply next_keep
    | with_reducible apply iaReg_keep (hP.mono (by decide))

theorem execIaShl_keep {P : State → Prop} (hP : Keeps [.regs, .runs, .col, .host] P) (e : Fin 160) (err : Fin 5) (s : State) (hst : P s) :
    AllNext P (execIaShl e err s) := by
  unfold execIaShl
  repeat' first
    | with_reducible assumption
    | intro x
    | with_reducible apply next_keep
    | with_reducible apply iaReg_keep (hP.mono (by decide))

theorem execIaShr_keep {P : State → Prop} (hP : Keeps [.regs, .runs, .col, .host] P) (e : Fin 160) (err : Fin 5) (s : State) (hst : P s) :
    AllNext P (execIaShr e err s) := by
  unfold execIaShr
  repeat' first
    | with_reducible assumption
    | intro x
    | with_reducible apply next_keep
    | with_reducible apply iaReg_keep (hP.mono (by decide))

theorem execIaCmp_keep {P : State → Prop} (hP : Keeps [.regs, .runs, .col, .host] P) (e : Fin 160) (err : Fin 5) (s : State) (hst : P s) :
    AllNext P (execIaCmp e err s) := by
  unfold execIaCmp
  repeat' first
    | with_reducible assumption
    | intro x
    | with_reducible apply next_keep
    | with_reducible apply iaReg_keep (hP.mono (by decide))

theorem execIaCmpi_keep {P : State → Prop} (hP : Keeps [.regs, .runs, .col, .host] P) (e : Fin 160) (err : Fin 5) (s : State) (hst : P s) :
    AllNext P (execIaCmpi e err s) := by
  unfold execIaCmpi
  repeat' first
    | with_reducible assumption
    | intro x
    | with_reducible apply next_keep
    | with_reducible apply iaReg_keep (hP.mono (by decide))

theorem execIaSel_keep {P : State → Prop} (hP : Keeps [.regs, .runs, .col, .host] P) (e : Fin 160) (err : Fin 5) (s : State) (hst : P s) :
    AllNext P (execIaSel e err s) := by
  unfold execIaSel
  repeat' first
    | with_reducible assumption
    | intro x
    | with_reducible apply ite_keep
    | split
    | with_reducible apply next_keep
    | with_reducible apply iaReg_keep (hP.mono (by decide))

theorem execIaMul_keep {P : State → Prop} (hP : Keeps [.regs, .runs, .col, .host] P) (e : Fin 160) (err : Fin 5) (s : State) (hst : P s) :
    AllNext P (execIaMul e err s) := by
  unfold execIaMul
  repeat' first
    | with_reducible assumption
    | intro x
    | with_reducible apply next_keep
    | with_reducible apply iaReg_keep (hP.mono (by decide))

theorem execIaMac_keep {P : State → Prop} (hP : Keeps [.regs, .runs, .col, .host] P) (e : Fin 160) (err : Fin 5) (s : State) (hst : P s) :
    AllNext P (execIaMac e err s) := by
  unfold execIaMac
  repeat' first
    | with_reducible assumption
    | intro x
    | with_reducible apply next_keep
    | with_reducible apply iaReg_keep (hP.mono (by decide))

theorem execIaMsu_keep {P : State → Prop} (hP : Keeps [.regs, .runs, .col, .host] P) (e : Fin 160) (err : Fin 5) (s : State) (hst : P s) :
    AllNext P (execIaMsu e err s) := by
  unfold execIaMsu
  repeat' first
    | with_reducible assumption
    | intro x
    | with_reducible apply next_keep
    | with_reducible apply iaReg_keep (hP.mono (by decide))

theorem execIaGmul_keep {P : State → Prop} (hP : Keeps [.regs, .runs, .col, .host] P) (e : Fin 160) (err : Fin 5) (s : State) (hst : P s) :
    AllNext P (execIaGmul e err s) := by
  unfold execIaGmul
  repeat' first
    | with_reducible assumption
    | intro x
    | with_reducible apply next_keep
    | with_reducible apply iaReg_keep (hP.mono (by decide))

theorem execIaGmac_keep {P : State → Prop} (hP : Keeps [.regs, .runs, .col, .host] P) (e : Fin 160) (err : Fin 5) (s : State) (hst : P s) :
    AllNext P (execIaGmac e err s) := by
  unfold execIaGmac
  repeat' first
    | with_reducible assumption
    | (first | intro x | (lift_lets -underBinder; intro x)
       first
       | (with_reducible refine (fun hx => ?_) (?_ : P x)
          on_goal 1 => clear_value x
          on_goal 2 => (unfold x; clear x))
       | clear_value x
       | skip)
    | with_reducible apply next_keep
    | with_reducible apply iaReg_keep (hP.mono (by decide))

theorem execIaAdda_keep {P : State → Prop} (hP : Keeps [.regs, .runs, .col, .host] P) (e : Fin 160) (err : Fin 5) (s : State) (hst : P s) :
    AllNext P (execIaAdda e err s) := by
  unfold execIaAdda
  repeat' first
    | with_reducible assumption
    | intro x
    | with_reducible apply next_keep
    | with_reducible apply iaReg_keep (hP.mono (by decide))

theorem execIaSuba_keep {P : State → Prop} (hP : Keeps [.regs, .runs, .col, .host] P) (e : Fin 160) (err : Fin 5) (s : State) (hst : P s) :
    AllNext P (execIaSuba e err s) := by
  unfold execIaSuba
  repeat' first
    | with_reducible assumption
    | intro x
    | with_reducible apply next_keep
    | with_reducible apply iaReg_keep (hP.mono (by decide))

theorem execIaXta_keep {P : State → Prop} (hP : Keeps [.regs, .runs, .col, .host] P) (e : Fin 160) (err : Fin 5) (s : State) (hst : P s) :
    AllNext P (execIaXta e err s) := by
  unfold execIaXta
  repeat' first
    | with_reducible assumption
    | intro x
    | with_reducible apply next_keep
    | with_reducible apply iaReg_keep (hP.mono (by decide))

theorem execIaRnd_keep {P : State → Prop} (hP : Keeps [.regs, .runs, .col, .host] P) (e : Fin 160) (err : Fin 5) (s : State) (hst : P s) :
    AllNext P (execIaRnd e err s) := by
  unfold execIaRnd
  repeat' first
    | with_reducible assumption
    | intro x
    | with_reducible apply next_keep
    | with_reducible apply iaReg_keep (hP.mono (by decide))

theorem execIaSha_keep {P : State → Prop} (hP : Keeps [.regs, .runs, .col, .host] P) (e : Fin 160) (err : Fin 5) (s : State) (hst : P s) :
    AllNext P (execIaSha e err s) := by
  unfold execIaSha
  repeat' first
    | with_reducible assumption
    | intro x
    | with_reducible apply next_keep
    | with_reducible apply iaReg_keep (hP.mono (by decide))

theorem execIaClpa_keep {P : State → Prop} (hP : Keeps [.regs, .runs, .col, .host] P) (e : Fin 160) (err : Fin 5) (s : State) (hst : P s) :
    AllNext P (execIaClpa e err s) := by
  unfold execIaClpa
  repeat' first
    | with_reducible assumption
    | (first | intro x | (lift_lets -underBinder; intro x)
       first
       | (with_reducible refine (fun hx => ?_) (?_ : P x)
          on_goal 1 => clear_value x
          on_goal 2 => (unfold x; clear x))
       | clear_value x
       | skip)
    | with_reducible apply next_keep
    | with_reducible apply iaReg_keep (hP.mono (by decide))

theorem execIaSatw_keep {P : State → Prop} (hP : Keeps [.regs, .runs, .col, .host] P) (e : Fin 160) (err : Fin 5) (s : State) (hst : P s) :
    AllNext P (execIaSatw e err s) := by
  unfold execIaSatw
  repeat' first
    | with_reducible assumption
    | intro x
    | with_reducible apply ite_keep
    | split
    | with_reducible apply next_keep
    | with_reducible apply iaReg_keep (hP.mono (by decide))
    | with_reducible refine eq_keep (by assumption) ?_

theorem execIaCmpa_keep {P : State → Prop} (hP : Keeps [.regs, .runs, .col, .host] P) (e : Fin 160) (err : Fin 5) (s : State) (hst : P s) :
    AllNext P (execIaCmpa e err s) := by
  unfold execIaCmpa
  repeat' first
    | with_reducible assumption
    | intro x
    | with_reducible apply next_keep
    | with_reducible apply iaReg_keep (hP.mono (by decide))

theorem execIaSela_keep {P : State → Prop} (hP : Keeps [.regs, .runs, .col, .host] P) (e : Fin 160) (err : Fin 5) (s : State) (hst : P s) :
    AllNext P (execIaSela e err s) := by
  unfold execIaSela
  repeat' first
    | with_reducible assumption
    | intro x
    | with_reducible apply ite_keep
    | split
    | with_reducible apply next_keep
    | with_reducible apply iaReg_keep (hP.mono (by decide))

theorem execIaExt_keep {P : State → Prop} (hP : Keeps [.regs, .runs, .col, .host] P) (e : Fin 160) (err : Fin 5) (s : State) (hst : P s) :
    AllNext P (execIaExt e err s) := by
  unfold execIaExt
  repeat' first
    | with_reducible assumption
    | (first | intro x | (lift_lets -underBinder; intro x)
       first
       | (with_reducible refine (fun hx => ?_) (?_ : P x)
          on_goal 1 => clear_value x
          on_goal 2 => (unfold x; clear x))
       | clear_value x
       | skip)
    | with_reducible apply next_keep
    | with_reducible apply iaReg_keep (hP.mono (by decide))

theorem execIaErr_keep {P : State → Prop} (hP : Keeps [.regs, .chans, .runs, .col, .host] P) (e : Fin 160) (err : Fin 5) (s : State) (hst : P s) :
    AllNext P (execIaErr e err s) := by
  unfold execIaErr
  repeat' first
    | with_reducible assumption
    | (first | intro x | (lift_lets -underBinder; intro x)
       first
       | (with_reducible refine (fun hx => ?_) (?_ : P x)
          on_goal 1 => clear_value x
          on_goal 2 => (unfold x; clear x))
       | clear_value x
       | skip)
    | with_reducible apply ite_keep
    | split
    | with_reducible apply next_keep
    | with_reducible apply setRun_keep (hP.mono (by decide))
    | with_reducible apply actErr_keep (hP.mono (by decide))
    | with_reducible apply lawErr_keep (hP.mono (by decide))
    | with_reducible apply iaStd_keep (hP.mono (by decide))

theorem execIaDiv_keep {P : State → Prop} (hP : Keeps [.regs, .runs, .col, .host] P) (e : Fin 160) (err : Fin 5) (s : State) (hst : P s) :
    AllNext P (execIaDiv e err s) := by
  unfold execIaDiv
  repeat' first
    | with_reducible assumption
    | (first | intro x | (lift_lets -underBinder; intro x)
       first
       | (with_reducible refine (fun hx => ?_) (?_ : P x)
          on_goal 1 => clear_value x
          on_goal 2 => (unfold x; clear x))
       | clear_value x
       | skip)
    | with_reducible apply next_keep
    | with_reducible apply iaReg_keep (hP.mono (by decide))

theorem execIaClra_keep {P : State → Prop} (hP : Keeps [.regs, .runs, .col, .host] P) (e : Fin 160) (err : Fin 5) (s : State) (hst : P s) :
    AllNext P (execIaClra e err s) := by
  unfold execIaClra
  repeat' first
    | with_reducible assumption
    | intro x
    | with_reducible apply next_keep
    | with_reducible apply iaReg_keep (hP.mono (by decide))

theorem execIaLse_keep {P : State → Prop} (hP : Keeps [.regs, .runs, .col, .host] P) (e : Fin 160) (err : Fin 5) (s : State) (hst : P s) :
    AllNext P (execIaLse e err s) := by
  unfold execIaLse
  repeat' first
    | with_reducible assumption
    | intro x
    | with_reducible apply next_keep
    | with_reducible apply updRun_keep (hP.mono (by decide))
    | with_reducible apply lawLse_keep (hP.mono (by decide))
    | with_reducible apply iaStd_keep (hP.mono (by decide))

theorem execIaHld_keep {P : State → Prop} (hP : Keeps [.regs, .runs, .col, .host] P) (e : Fin 160) (err : Fin 5) (s : State) (hst : P s) :
    AllNext P (execIaHld e err s) := by
  unfold execIaHld
  repeat' first
    | with_reducible assumption
    | intro x
    | with_reducible apply next_keep
    | with_reducible apply iaReg_keep (hP.mono (by decide))

theorem execIaCap_keep {P : State → Prop} (hP : Keeps [.regs, .runs, .col, .host] P) (e : Fin 160) (err : Fin 5) (s : State) (hst : P s) :
    AllNext P (execIaCap e err s) := by
  unfold execIaCap
  repeat' first
    | with_reducible assumption
    | intro x
    | with_reducible apply next_keep
    | with_reducible apply updRun_keep (hP.mono (by decide))
    | with_reducible apply lawCap_keep (hP.mono (by decide))
    | with_reducible apply iaStd_keep (hP.mono (by decide))

theorem execIaChn_keep {P : State → Prop} (hP : Keeps [.regs, .runs, .col, .host] P) (e : Fin 160) (err : Fin 5) (s : State) (hst : P s) :
    AllNext P (execIaChn e err s) := by
  unfold execIaChn
  repeat' first
    | with_reducible assumption
    | intro x
    | with_reducible apply next_keep
    | with_reducible apply iaReg_keep (hP.mono (by decide))

theorem execIaClm_keep {P : State → Prop} (hP : Keeps [.regs, .chans, .runs, .col, .host, .free] P) (e : Fin 160) (err : Fin 5) (s : State) (hst : P s) :
    AllNext P (execIaClm e err s) := by
  unfold execIaClm
  repeat' first
    | with_reducible assumption
    | (first | intro x | (lift_lets -underBinder; intro x)
       first
       | (with_reducible refine (fun hx => ?_) (?_ : P x)
          on_goal 1 => clear_value x
          on_goal 2 => (unfold x; clear x))
       | clear_value x
       | skip)
    | with_reducible apply next_keep
    | with_reducible apply modelClamp_keep (hP.mono (by decide))
    | with_reducible apply actClm_keep (hP.mono (by decide))
    | with_reducible apply iaStd_keep (hP.mono (by decide))

theorem execIaSpt_keep {P : State → Prop} (hP : Keeps [.regs, .runs, .col, .host] P) (e : Fin 160) (err : Fin 5) (s : State) (hst : P s) :
    AllNext P (execIaSpt e err s) := by
  unfold execIaSpt
  repeat' first
    | with_reducible assumption
    | (first | intro x | (lift_lets -underBinder; intro x)
       first
       | (with_reducible refine (fun hx => ?_) (?_ : P x)
          on_goal 1 => clear_value x
          on_goal 2 => (unfold x; clear x))
       | clear_value x
       | skip)
    | with_reducible apply next_keep
    | with_reducible apply updRun_keep (hP.mono (by decide))
    | with_reducible apply iaStep_keep (hP.mono (by decide))

theorem execIaSin_keep {P : State → Prop} (hP : Keeps [.regs, .runs, .col, .host] P) (e : Fin 160) (err : Fin 5) (s : State) (hst : P s) :
    AllNext P (execIaSin e err s) := by
  unfold execIaSin
  repeat' first
    | with_reducible assumption
    | (first | intro x | (lift_lets -underBinder; intro x)
       first
       | (with_reducible refine (fun hx => ?_) (?_ : P x)
          on_goal 1 => clear_value x
          on_goal 2 => (unfold x; clear x))
       | clear_value x
       | skip)
    | with_reducible apply next_keep
    | with_reducible apply updRun_keep (hP.mono (by decide))
    | with_reducible apply iaStep_keep (hP.mono (by decide))

theorem execIaFfw_keep {P : State → Prop} (hP : Keeps [.regs, .runs, .col, .host] P) (e : Fin 160) (err : Fin 5) (s : State) (hst : P s) :
    AllNext P (execIaFfw e err s) := by
  unfold execIaFfw
  repeat' first
    | with_reducible assumption
    | (first | intro x | (lift_lets -underBinder; intro x)
       first
       | (with_reducible refine (fun hx => ?_) (?_ : P x)
          on_goal 1 => clear_value x
          on_goal 2 => (unfold x; clear x))
       | clear_value x
       | skip)
    | with_reducible apply next_keep
    | with_reducible apply updRun_keep (hP.mono (by decide))
    | with_reducible apply iaStep_keep (hP.mono (by decide))

theorem execIaInj_keep {P : State → Prop} (hP : Keeps [.regs, .runs, .col, .host] P) (e : Fin 160) (err : Fin 5) (s : State) (hst : P s) :
    AllNext P (execIaInj e err s) := by
  unfold execIaInj
  repeat' first
    | with_reducible assumption
    | (first | intro x | (lift_lets -underBinder; intro x)
       first
       | (with_reducible refine (fun hx => ?_) (?_ : P x)
          on_goal 1 => clear_value x
          on_goal 2 => (unfold x; clear x))
       | clear_value x
       | skip)
    | with_reducible apply next_keep
    | with_reducible apply updRun_keep (hP.mono (by decide))
    | with_reducible apply iaStep_keep (hP.mono (by decide))

theorem execIaEvt_keep {P : State → Prop} (hP : Keeps [.regs, .runs, .col, .host] P) (e : Fin 160) (err : Fin 5) (s : State) (hst : P s) :
    AllNext P (execIaEvt e err s) := by
  unfold execIaEvt
  repeat' first
    | with_reducible assumption
    | (first | intro x | (lift_lets -underBinder; intro x)
       first
       | (with_reducible refine (fun hx => ?_) (?_ : P x)
          on_goal 1 => clear_value x
          on_goal 2 => (unfold x; clear x))
       | clear_value x
       | skip)
    | with_reducible apply next_keep
    | with_reducible apply updRun_keep (hP.mono (by decide))
    | with_reducible apply iaStep_keep (hP.mono (by decide))

theorem execIaOut_keep {P : State → Prop} (hP : Keeps [.regs, .chans, .runs, .col, .host] P) (e : Fin 160) (err : Fin 5) (s : State) (hst : P s) :
    AllNext P (execIaOut e err s) := by
  unfold execIaOut
  repeat' first
    | with_reducible assumption
    | intro x
    | with_reducible apply next_keep
    | with_reducible apply actOut_keep (hP.mono (by decide))
    | with_reducible apply lawAct_keep (hP.mono (by decide))
    | with_reducible apply iaStd_keep (hP.mono (by decide))

theorem execIaLoop_keep {P : State → Prop} (hP : Keeps [.regs, .runs, .col, .host] P) (e : Fin 160) (err : Fin 5) (s : State) (hst : P s) :
    AllNext P (execIaLoop e err s) := by
  unfold execIaLoop
  repeat' first
    | with_reducible assumption
    | intro x
    | with_reducible apply next_keep
    | with_reducible apply iaReg_keep (hP.mono (by decide))

theorem execIaSkp_keep {P : State → Prop} (hP : Keeps [.regs, .runs, .col, .host] P) (e : Fin 160) (err : Fin 5) (s : State) (hst : P s) :
    AllNext P (execIaSkp e err s) := by
  unfold execIaSkp
  repeat' first
    | with_reducible assumption
    | intro x
    | with_reducible apply ite_keep
    | split
    | with_reducible apply next_keep
    | with_reducible apply iaReg_keep (hP.mono (by decide))

-- Loops

theorem putCoef_keep {P : State → Prop} (hP : Keeps [.regs, .ws] P) (ch : Nat) (x : Nat × W) (s : State) (hst : P s) :
    P (putCoef ch x s) := by
  unfold putCoef
  repeat' first
    | with_reducible assumption
    | with_reducible apply ite_keep
    | split
    | with_reducible apply setField_keep (hP.mono (by decide))
    | with_reducible apply putWs_keep (hP.mono (by decide))

theorem execCoefWrite_keep {P : State → Prop} (hP : Keeps [.chans] P) (t : Fin 512) (w : Fin 32) (v : W) (s : State) (hst : P s) :
    AllNext P (execCoefWrite t w v s) := by
  unfold execCoefWrite
  repeat' first
    | with_reducible assumption
    | intro x
    | with_reducible apply ite_keep
    | split
    | with_reducible apply next_keep
    | with_reducible apply updChan_keep (hP.mono (by decide))
    | with_reducible refine eq_keep (by assumption) ?_

theorem execLoopCfgWrite_keep {P : State → Prop} (hP : Keeps [.regs, .chans, .col, .host] P) (t : Fin 512) (v : W) (s : State) (hst : P s) :
    AllNext P (execLoopCfgWrite t v s) := by
  unfold execLoopCfgWrite
  repeat' first
    | with_reducible assumption
    | (first | intro x | (lift_lets -underBinder; intro x)
       first
       | (with_reducible refine (fun hx => ?_) (?_ : P x)
          on_goal 1 => clear_value x
          on_goal 2 => (unfold x; clear x))
       | clear_value x
       | skip)
    | with_reducible apply ite_keep
    | split
    | with_reducible apply next_keep
    | with_reducible apply setChan_keep (hP.mono (by decide))
    | with_reducible apply raise_keep (hP.mono (by decide))
    | with_reducible refine eq_keep (by assumption) ?_

theorem execCoefApply_keep {P : State → Prop} (hP : Keeps [.regs, .ws, .chans] P) (ch : Fin 512) (ready : BitVec 16) (s : State) (hst : P s) :
    AllNext P (execCoefApply ch ready s) := by
  unfold execCoefApply
  repeat' first
    | with_reducible assumption
    | (first | intro x | (lift_lets -underBinder; intro x)
       first
       | (with_reducible refine (fun hx => ?_) (?_ : P x)
          on_goal 1 => clear_value x
          on_goal 2 => (unfold x; clear x))
       | clear_value x
       | skip)
    | with_reducible apply ite_keep
    | split
    | with_reducible apply next_keep
    | with_reducible apply setChan_keep (hP.mono (by decide))
    | with_reducible apply putCoef_keep (hP.mono (by decide))
    | with_reducible apply forL_keep

theorem applyProg_keep {P : State → Prop} (hP : Keeps [.ws, .chans] P) (ch : Nat) (s : State) (hst : P s) :
    P (applyProg ch s) := by
  unfold applyProg
  repeat' first
    | with_reducible assumption
    | (first | intro x | (lift_lets -underBinder; intro x)
       first
       | (with_reducible refine (fun hx => ?_) (?_ : P x)
          on_goal 1 => clear_value x
          on_goal 2 => (unfold x; clear x))
       | clear_value x
       | skip)
    | with_reducible apply ite_keep
    | split
    | with_reducible apply updChan_keep (hP.mono (by decide))
    | with_reducible apply putWs_keep (hP.mono (by decide))
    | with_reducible apply forL_keep

theorem motorCoef_keep {P : State → Prop} (hP : Keeps [.ws] P) (ch : Nat) (s : State) (hst : P s) :
    P (motorCoef ch s) := by
  unfold motorCoef
  repeat' first
    | with_reducible assumption
    | with_reducible apply ite_keep
    | split
    | with_reducible apply putWs_keep (hP.mono (by decide))
    | with_reducible refine eq_keep (by assumption) ?_

theorem latchFinding_keep {P : State → Prop} (hP : Keeps [.regs, .col, .host] P) (f : Nat) (x : WordFail) (s : State) (hst : P s) :
    P (latchFinding f x s) := by
  unfold latchFinding
  repeat' first
    | with_reducible assumption
    | (first | intro x | (lift_lets -underBinder; intro x)
       first
       | (with_reducible refine (fun hx => ?_) (?_ : P x)
          on_goal 1 => clear_value x
          on_goal 2 => (unfold x; clear x))
       | (with_reducible refine (fun hfun => ?_) (?_ : ∀ a, P a → P (x a))
          on_goal 1 => clear_value x
          on_goal 2 => (unfold x; clear x))
       | (with_reducible refine (fun hfun => ?_) (?_ : ∀ a b, P b → P (x a b))
          on_goal 1 => clear_value x
          on_goal 2 => (unfold x; clear x))
       | (with_reducible refine (fun hfun => ?_) (?_ : ∀ a b c, P c → P (x a b c))
          on_goal 1 => clear_value x
          on_goal 2 => (unfold x; clear x))
       | (with_reducible refine (fun hfun => ?_) (?_ : ∀ a b c d, P d → P (x a b c d))
          on_goal 1 => clear_value x
          on_goal 2 => (unfold x; clear x))
       | (with_reducible refine (fun hx => ?_) (?_ : P x.2)
          on_goal 1 => clear_value x
          on_goal 2 => (unfold x; clear x))
       | (with_reducible refine (fun hfun => ?_) (?_ : ∀ a, P (x a))
          on_goal 1 => clear_value x
          on_goal 2 => (unfold x; clear x))
       | (with_reducible refine (fun hfun => ?_) (?_ : ∀ a b c, P (x a b c))
          on_goal 1 => clear_value x
          on_goal 2 => (unfold x; clear x))
       | clear_value x
       | skip)
    | with_reducible apply hfun
    | with_reducible apply ite_keep
    | split
    | with_reducible apply bump_keep (hP.mono (by decide))
    | with_reducible apply raise_keep (hP.mono (by decide))
    | with_reducible refine eq_keep (by assumption) ?_

theorem latchChan_keep {P : State → Prop} (hP : Keeps [.chans] P) (fails : List WordFail) (ch : Nat) (l : Nat) (s : State) (hst : P s) :
    P (latchChan fails ch l s) := by
  unfold latchChan
  repeat' first
    | with_reducible assumption
    | (first | intro x | (lift_lets -underBinder; intro x)
       first
       | (with_reducible refine (fun hx => ?_) (?_ : P x)
          on_goal 1 => clear_value x
          on_goal 2 => (unfold x; clear x))
       | clear_value x
       | skip)
    | with_reducible apply ite_keep
    | split
    | with_reducible apply updChan_keep (hP.mono (by decide))

theorem countRun_keep {P : State → Prop} (hP : Keeps [.caps] P) (ch : Nat) (s : State) (hst : P s) :
    P (countRun ch s) := by
  unfold countRun
  repeat' first
    | with_reducible assumption
    | intro x
    | with_reducible apply ite_keep
    | split
    | with_reducible apply updCap_keep (hP.mono (by decide))
    | with_reducible refine eq_keep (by assumption) ?_

theorem execLoopLatch_keep {P : State → Prop} (hP : Keeps [.regs, .ws, .outs, .chans, .folds, .caps, .sense, .col, .host, .free] P) (f : Fin 32) (l : Fin 8) (bus : BitVec 16) (sens : List SenseIn) (fails : List WordFail) (s : State) (hst : P s) :
    AllNext P (execLoopLatch f l bus sens fails s) := by
  unfold execLoopLatch
  repeat' first
    | with_reducible assumption
    | (first | intro x | (lift_lets -underBinder; intro x)
       first
       | (with_reducible refine (fun hx => ?_) (?_ : P x)
          on_goal 1 => clear_value x
          on_goal 2 => (unfold x; clear x))
       | (with_reducible refine (fun hfun => ?_) (?_ : ∀ a, P a → P (x a))
          on_goal 1 => clear_value x
          on_goal 2 => (unfold x; clear x))
       | (with_reducible refine (fun hfun => ?_) (?_ : ∀ a b, P b → P (x a b))
          on_goal 1 => clear_value x
          on_goal 2 => (unfold x; clear x))
       | (with_reducible refine (fun hfun => ?_) (?_ : ∀ a b c, P c → P (x a b c))
          on_goal 1 => clear_value x
          on_goal 2 => (unfold x; clear x))
       | (with_reducible refine (fun hfun => ?_) (?_ : ∀ a b c d, P d → P (x a b c d))
          on_goal 1 => clear_value x
          on_goal 2 => (unfold x; clear x))
       | (with_reducible refine (fun hx => ?_) (?_ : P x.2)
          on_goal 1 => clear_value x
          on_goal 2 => (unfold x; clear x))
       | (with_reducible refine (fun hfun => ?_) (?_ : ∀ a, P (x a))
          on_goal 1 => clear_value x
          on_goal 2 => (unfold x; clear x))
       | (with_reducible refine (fun hfun => ?_) (?_ : ∀ a b c, P (x a b c))
          on_goal 1 => clear_value x
          on_goal 2 => (unfold x; clear x))
       | clear_value x
       | skip)
    | with_reducible apply hfun
    | with_reducible apply ite_keep
    | split
    | with_reducible apply next_keep
    | with_reducible apply updFold_keep (hP.mono (by decide))
    | with_reducible apply latchSignals_keep (hP.mono (by decide))
    | with_reducible apply latchFinding_keep (hP.mono (by decide))
    | with_reducible apply motionItems_keep (hP.mono (by decide))
    | with_reducible apply latchPort_keep (hP.mono (by decide))
    | with_reducible apply applyProg_keep (hP.mono (by decide))
    | with_reducible apply motorCoef_keep (hP.mono (by decide))
    | with_reducible apply latchChan_keep (hP.mono (by decide))
    | with_reducible apply countRun_keep (hP.mono (by decide))
    | with_reducible apply each_keep
    | with_reducible apply forL_keep

theorem execInstanceRunStart_keep {P : State → Prop} (hP : Keeps [.chans, .runs] P) (e : Fin 128) (ch : Fin 512) (l : Fin 8) (s : State) (hst : P s) :
    AllNext P (execInstanceRunStart e ch l s) := by
  unfold execInstanceRunStart
  repeat' first
    | with_reducible assumption
    | (first | intro x | (lift_lets -underBinder; intro x)
       first
       | (with_reducible refine (fun hx => ?_) (?_ : P x)
          on_goal 1 => clear_value x
          on_goal 2 => (unfold x; clear x))
       | clear_value x
       | skip)
    | with_reducible apply ite_keep
    | split
    | with_reducible apply next_keep
    | with_reducible apply updChan_keep (hP.mono (by decide))
    | with_reducible apply setRun_keep (hP.mono (by decide))
    | with_reducible refine eq_keep (by assumption) ?_

theorem skipInstance_keep {P : State → Prop} (hP : Keeps [.regs, .chans, .svc, .col, .host] P) (e : Nat) (ch : Nat) (side : Bool) (s : State) (hst : P s) :
    P (skipInstance e ch side s) := by
  unfold skipInstance
  repeat' first
    | with_reducible assumption
    | (first | intro x | (lift_lets -underBinder; intro x)
       first
       | (with_reducible refine (fun hx => ?_) (?_ : P x)
          on_goal 1 => clear_value x
          on_goal 2 => (unfold x; clear x))
       | clear_value x
       | skip)
    | with_reducible apply ite_keep
    | split
    | with_reducible apply updChan_keep (hP.mono (by decide))
    | with_reducible apply bump_keep (hP.mono (by decide))
    | with_reducible apply raise_keep (hP.mono (by decide))
    | with_reducible apply held_keep (hP.mono (by decide))

theorem execLoopCutoff_keep {P : State → Prop} (hP : Keeps [.regs, .chans, .runs, .svc, .col, .host] P) (e : Fin 128) (l : Fin 8) (s : State) (hst : P s) :
    AllNext P (execLoopCutoff e l s) := by
  unfold execLoopCutoff
  repeat' first
    | with_reducible assumption
    | (first | intro x | (lift_lets -underBinder; intro x)
       first
       | (with_reducible refine (fun hx => ?_) (?_ : P x)
          on_goal 1 => clear_value x
          on_goal 2 => (unfold x; clear x))
       | clear_value x
       | skip)
    | with_reducible apply ite_keep
    | split
    | with_reducible apply next_keep
    | with_reducible apply skipInstance_keep (hP.mono (by decide))
    | with_reducible apply stopRun_keep (hP.mono (by decide))
    | with_reducible apply forL_keep
    | with_reducible refine eq_keep (by assumption) ?_

theorem execOverrunHealthFailure_keep {P : State → Prop} (hP : Keeps [.regs, .col, .host] P) (ch : Fin 512) (shadow : Bool) (s : State) (hst : P s) :
    AllNext P (execOverrunHealthFailure ch shadow s) := by
  unfold execOverrunHealthFailure
  repeat' first
    | with_reducible assumption
    | (first | intro x | (lift_lets -underBinder; intro x)
       first
       | (with_reducible refine (fun hx => ?_) (?_ : P x)
          on_goal 1 => clear_value x
          on_goal 2 => (unfold x; clear x))
       | clear_value x
       | skip)
    | with_reducible apply ite_keep
    | split
    | with_reducible apply next_keep
    | with_reducible apply raise_keep (hP.mono (by decide))

theorem execFollowError_keep {P : State → Prop} (hP : Keeps [.regs, .chans, .col, .host] P) (ch : Fin 512) (s : State) (hst : P s) :
    AllNext P (execFollowError ch s) := by
  unfold execFollowError
  repeat' first
    | with_reducible assumption
    | (first | intro x | (lift_lets -underBinder; intro x)
       first
       | (with_reducible refine (fun hx => ?_) (?_ : P x)
          on_goal 1 => clear_value x
          on_goal 2 => (unfold x; clear x))
       | clear_value x
       | skip)
    | with_reducible apply ite_keep
    | split
    | with_reducible apply next_keep
    | with_reducible apply setChan_keep (hP.mono (by decide))
    | with_reducible apply raise_keep (hP.mono (by decide))

-- Images

theorem markProg_keep {P : State → Prop} (hP : Keeps [.svc] P) (op : Nat) (o : Nat × Nat) (f : Prog → Prog) (s : State) (hst : P s) :
    P (markProg op o f s) := by
  unfold markProg
  repeat' first
    | with_reducible assumption
    | intro x
    | with_reducible apply ite_keep
    | split
    | with_reducible apply updSvc_keep (hP.mono (by decide))

theorem startBurn_keep {P : State → Prop} (hP : Keeps [.regs, .svc, .col, .sec, .host] P) (b : SigBlock) (ver : Nat) (op : Nat) (o : Nat × Nat) (s : State) (hst : P s) :
    P (startBurn b ver op o s) := by
  unfold startBurn
  repeat' first
    | with_reducible assumption
    | intro x
    | with_reducible apply ite_keep
    | split
    | exact FuseLe.same rfl rfl rfl
    | exact fun _ => FuseLe.same rfl rfl rfl
    | exact FuseLe.count rfl (Nat.le_succ _) rfl
    | with_reducible apply updSec_keep (hP.mono (by decide))
    | with_reducible apply secEvent_keep (hP.mono (by decide))
    | with_reducible apply markProg_keep (hP.mono (by decide))

theorem finishReady_keep {P : State → Prop} (hP : Keeps [.rings, .svc] P) (op : Nat) (o : Nat × Nat) (s : State) (hst : P s) :
    P (finishReady op o s) := by
  unfold finishReady
  repeat' first
    | with_reducible assumption
    | intro x
    | with_reducible apply ite_keep
    | split
    | with_reducible apply finishObj_keep (hP.mono (by decide))

theorem execRollbackBurn_keep {P : State → Prop} (hP : Keeps [.regs, .rings, .svc, .col, .sec, .host] P) (slot : Fin 16) (got : Option (BitVec 8)) (s : State) (hst : P s) :
    AllNext P (execRollbackBurn slot got s) := by
  unfold execRollbackBurn
  split
  · exact next_keep hst
  · refine next_keep (finishReady_keep (hP.mono (by decide)) _ _ _ (markProg_keep (hP.mono (by decide)) _ _ _ _ (secEvent_keep (hP.mono (by decide)) _ _ ?_)))
    split
    · exact secEvent_keep (hP.mono (by decide)) _ _ (burn_keep (hP.mono (by decide)) _ (FuseLe.raise slot.val _ (Nat.le_max_left _ _) rfl rfl rfl) hst)
    · exact burn_keep (hP.mono (by decide)) _ (FuseLe.raise slot.val _ (Nat.le_max_left _ _) rfl rfl rfl) hst

theorem dropImages_keep {P : State → Prop} (hP : Keeps [.images] P) (s : State) (hst : P s) :
    P (dropImages s) := by
  unfold dropImages
  repeat' first
    | with_reducible assumption
    | intro x
    | with_reducible apply upd_images (hP.mono (by decide))

theorem refuseRule_keep {P : State → Prop} (hP : Keeps [.rings] P) (e : CmdEntry) (r : Nat × Nat) (s : State) (hst : P s) :
    P (refuseRule e r s) := by
  unfold refuseRule
  repeat' first
    | with_reducible assumption
    | with_reducible apply complete_keep (hP.mono (by decide))

theorem engineOn_keep {P : State → Prop} (hP : Keeps [.health] P) (e : Nat) (s : State) (hst : P s) :
    P (engineOn e s) := by
  unfold engineOn
  repeat' first
    | with_reducible assumption
    | intro x
    | with_reducible apply ite_keep
    | split
    | with_reducible apply updHlt_keep (hP.mono (by decide))

theorem placeImage_keep {P : State → Prop} (hP : Keeps [.ws, .chans, .images, .health] P) (ch : Nat) (x : Image) (s : State) (hst : P s) :
    P (placeImage ch x s) := by
  unfold placeImage
  repeat' first
    | with_reducible assumption
    | (first | intro x | (lift_lets -underBinder; intro x)
       first
       | (with_reducible refine (fun hx => ?_) (?_ : P x)
          on_goal 1 => clear_value x
          on_goal 2 => (unfold x; clear x))
       | clear_value x
       | skip)
    | with_reducible apply updChan_keep (hP.mono (by decide))
    | with_reducible apply putWs_keep (hP.mono (by decide))
    | with_reducible apply dropImages_keep (hP.mono (by decide))
    | with_reducible apply engineOn_keep (hP.mono (by decide))
    | with_reducible apply upd_images (hP.mono (by decide))
    | with_reducible apply dropWs_keep (hP.mono (by decide))

theorem execLoad_keep {P : State → Prop} (hP : Keeps [.regs, .ws, .dram, .chans, .images, .health, .rings, .svc, .col, .sec, .host] P) (e : CmdEntry) (std : Fin 3) (s : State) (hst : P s) :
    AllNext P (execLoad e std s) := by
  unfold execLoad
  repeat' first
    | with_reducible assumption
    | (first | intro x | (lift_lets -underBinder; intro x)
       first
       | (with_reducible refine (fun hx => ?_) (?_ : P x)
          on_goal 1 => clear_value x
          on_goal 2 => (unfold x; clear x))
       | clear_value x
       | skip)
    | with_reducible apply ite_keep
    | split
    | with_reducible apply next_keep
    | with_reducible apply acceptLater_keep (hP.mono (by decide))
    | with_reducible apply commandRow_keep (hP.mono (by decide))
    | with_reducible apply refuseRule_keep (hP.mono (by decide))
    | with_reducible apply placeImage_keep (hP.mono (by decide))
    | with_reducible apply startBurn_keep (hP.mono (by decide))
    | with_reducible apply secEvent_keep (hP.mono (by decide))
    | with_reducible apply checked_keep (hP.mono (by decide))
    | with_reducible apply refuse_keep (hP.mono (by decide))
    | with_reducible refine eq_keep (by assumption) ?_

theorem execLoadComplete_keep {P : State → Prop} (hP : Keeps [.rings, .svc] P) (ch : Fin 512) (s : State) (hst : P s) :
    AllNext P (execLoadComplete ch s) := by
  unfold execLoadComplete
  repeat' first
    | with_reducible assumption
    | intro x
    | with_reducible apply next_keep
    | with_reducible apply finishReady_keep (hP.mono (by decide))
    | with_reducible apply markProg_keep (hP.mono (by decide))

theorem execModelLoad_keep {P : State → Prop} (hP : Keeps [.regs, .dram, .images, .mengs, .rings, .svc, .col, .sec, .host] P) (e : CmdEntry) (std : Fin 3) (s : State) (hst : P s) :
    AllNext P (execModelLoad e std s) := by
  unfold execModelLoad
  repeat' first
    | with_reducible assumption
    | (first | intro x | (lift_lets -underBinder; intro x)
       first
       | (with_reducible refine (fun hx => ?_) (?_ : P x)
          on_goal 1 => clear_value x
          on_goal 2 => (unfold x; clear x))
       | clear_value x
       | skip)
    | with_reducible apply ite_keep
    | split
    | with_reducible apply next_keep
    | with_reducible apply updMEng_keep (hP.mono (by decide))
    | with_reducible apply acceptLater_keep (hP.mono (by decide))
    | with_reducible apply commandRow_keep (hP.mono (by decide))
    | with_reducible apply refuseRule_keep (hP.mono (by decide))
    | with_reducible apply startBurn_keep (hP.mono (by decide))
    | with_reducible apply secEvent_keep (hP.mono (by decide))
    | with_reducible apply checked_keep (hP.mono (by decide))
    | with_reducible apply refuse_keep (hP.mono (by decide))
    | with_reducible apply upd_images (hP.mono (by decide))
    | with_reducible refine eq_keep (by assumption) ?_

theorem execModelLoadComplete_keep {P : State → Prop} (hP : Keeps [.ws, .chans, .images, .health, .mengs, .rings, .svc] P) (f : Fin 32) (s : State) (hst : P s) :
    AllNext P (execModelLoadComplete f s) := by
  unfold execModelLoadComplete
  repeat' first
    | with_reducible assumption
    | (first | intro x | (lift_lets -underBinder; intro x)
       first
       | (with_reducible refine (fun hx => ?_) (?_ : P x)
          on_goal 1 => clear_value x
          on_goal 2 => (unfold x; clear x))
       | clear_value x
       | skip)
    | with_reducible apply ite_keep
    | split
    | with_reducible apply next_keep
    | with_reducible apply updMEng_keep (hP.mono (by decide))
    | with_reducible apply updMdl_keep (hP.mono (by decide))
    | with_reducible apply finishReady_keep (hP.mono (by decide))
    | with_reducible apply evalModels_keep (hP.mono (by decide))
    | with_reducible apply dropImages_keep (hP.mono (by decide))
    | with_reducible apply markProg_keep (hP.mono (by decide))
    | with_reducible apply engineOn_keep (hP.mono (by decide))
    | with_reducible apply each_keep
    | with_reducible refine eq_keep (by assumption) ?_

theorem execChanDelComplete_keep {P : State → Prop} (hP : Keeps [.regs, .wide, .ws, .ports, .chans, .terms, .binds, .gates, .motors, .caps, .injs, .images, .health, .runs, .rings, .svc, .col, .host, .nv] P) (ch : Fin 512) (s : State) (hst : P s) :
    AllNext P (execChanDelComplete ch s) := by
  unfold execChanDelComplete
  repeat' first
    | with_reducible assumption
    | (first | intro x | (lift_lets -underBinder; intro x)
       first
       | (with_reducible refine (fun hx => ?_) (?_ : P x)
          on_goal 1 => clear_value x
          on_goal 2 => (unfold x; clear x))
       | clear_value x
       | skip)
    | with_reducible apply ite_keep
    | split
    | with_reducible apply next_keep
    | with_reducible apply retireBroken_keep (hP.mono (by decide))
    | with_reducible apply evalModels_keep (hP.mono (by decide))
    | with_reducible apply dropImages_keep (hP.mono (by decide))
    | with_reducible apply deleteEnd_keep (hP.mono (by decide))

-- Station

theorem stnEvent_keep {P : State → Prop} (hP : Keeps [.regs, .col, .host] P) (port : Option Nat) (bit : Nat) (cls : Nat) (s : State) (hst : P s) :
    P (stnEvent port bit cls s) := by
  unfold stnEvent
  repeat' first
    | with_reducible assumption
    | with_reducible apply raise_keep (hP.mono (by decide))

theorem startDiscovery_keep {P : State → Prop} (hP : Keeps [.stn] P) (dstate : Nat) (s : State) (hst : P s) :
    P (startDiscovery dstate s) := by
  unfold startDiscovery
  repeat' first
    | with_reducible assumption
    | intro x
    | with_reducible apply ite_keep
    | split
    | with_reducible apply updStn_keep (hP.mono (by decide))

theorem standalone_keep {P : State → Prop} (hP : Keeps [.regs, .bell, .col, .host, .stn] P) (s : State) (hst : P s) :
    P (standalone s) := by
  unfold standalone
  repeat' first
    | with_reducible assumption
    | (first | intro x | (lift_lets -underBinder; intro x)
       first
       | (with_reducible refine (fun hx => ?_) (?_ : P x)
          on_goal 1 => clear_value x
          on_goal 2 => (unfold x; clear x))
       | clear_value x
       | skip)
    | with_reducible apply updStn_keep (hP.mono (by decide))
    | with_reducible apply linkCheck_keep (hP.mono (by decide))

theorem followHead_keep {P : State → Prop} (hP : Keeps [.bell, .stn] P) (rate : BitVec 18) (mLog2 : BitVec 2) (s : State) (hst : P s) :
    P (followHead rate mLog2 s) := by
  unfold followHead
  repeat' first
    | with_reducible assumption
    | (first | intro x | (lift_lets -underBinder; intro x)
       first
       | (with_reducible refine (fun hx => ?_) (?_ : P x)
          on_goal 1 => clear_value x
          on_goal 2 => (unfold x; clear x))
       | clear_value x
       | skip)
    | with_reducible apply updBell_keep (hP.mono (by decide))
    | with_reducible apply updStn_keep (hP.mono (by decide))
    | with_reducible apply setPend_keep (hP.mono (by decide))

theorem lateJoin_keep {P : State → Prop} (hP : Keeps [.regs, .bell, .col, .host, .stn] P) (i : Nat) (x : StnJoin) (s : State) (hst : P s) :
    P (lateJoin i x s) := by
  unfold lateJoin
  repeat' first
    | with_reducible assumption
    | intro x
    | with_reducible apply updStn_keep (hP.mono (by decide))
    | with_reducible apply followHead_keep (hP.mono (by decide))
    | with_reducible apply stnEvent_keep (hP.mono (by decide))

theorem trainPort_keep {P : State → Prop} (hP : Keeps [.stn] P) (i : Nat) (lanes : Nat) (s : State) (hst : P s) :
    P (trainPort i lanes s) := by
  unfold trainPort
  repeat' first
    | with_reducible assumption
    | (first | intro x | (lift_lets -underBinder; intro x)
       first
       | (with_reducible refine (fun hx => ?_) (?_ : P x)
          on_goal 1 => clear_value x
          on_goal 2 => (unfold x; clear x))
       | clear_value x
       | skip)
    | with_reducible apply ite_keep
    | split
    | with_reducible apply updStn_keep (hP.mono (by decide))

theorem execLinkTrained_keep {P : State → Prop} (hP : Keeps [.regs, .bell, .col, .host, .stn] P) (i : Fin 2) (lanes : Fin 3) (station : Option StnJoin) (s : State) (hst : P s) :
    AllNext P (execLinkTrained i lanes station s) := by
  unfold execLinkTrained
  repeat' first
    | with_reducible assumption
    | (first | intro x | (lift_lets -underBinder; intro x)
       first
       | (with_reducible refine (fun hx => ?_) (?_ : P x)
          on_goal 1 => clear_value x
          on_goal 2 => (unfold x; clear x))
       | clear_value x
       | skip)
    | with_reducible apply ite_keep
    | split
    | with_reducible apply next_keep
    | with_reducible apply trainPort_keep (hP.mono (by decide))
    | with_reducible apply lateJoin_keep (hP.mono (by decide))
    | with_reducible refine eq_keep (by assumption) ?_

theorem forwardToken_keep {P : State → Prop} (hP : Keeps [.stn] P) (i : Nat) (count : Nat) (s : State) (hst : P s) :
    P (forwardToken i count s) := by
  unfold forwardToken
  repeat' first
    | with_reducible assumption
    | intro x
    | with_reducible apply ite_keep
    | split
    | with_reducible apply updStn_keep (hP.mono (by decide))

theorem execDiscoveryToken_keep {P : State → Prop} (hP : Keeps [.regs, .bell, .col, .host, .stn] P) (i : Fin 2) (count : Fin 16) (id : BitVec 64) (s : State) (hst : P s) :
    AllNext P (execDiscoveryToken i count id s) := by
  unfold execDiscoveryToken
  repeat' first
    | with_reducible assumption
    | (first | intro x | (lift_lets -underBinder; intro x)
       first
       | (with_reducible refine (fun hx => ?_) (?_ : P x)
          on_goal 1 => clear_value x
          on_goal 2 => (unfold x; clear x))
       | clear_value x
       | skip)
    | with_reducible apply ite_keep
    | split
    | with_reducible apply next_keep
    | with_reducible apply startDiscovery_keep (hP.mono (by decide))
    | with_reducible apply updStn_keep (hP.mono (by decide))
    | with_reducible apply forwardToken_keep (hP.mono (by decide))
    | with_reducible apply standalone_keep (hP.mono (by decide))
    | with_reducible apply stnEvent_keep (hP.mono (by decide))
    | with_reducible refine eq_keep (by assumption) ?_

theorem execDiscoveryTimeout_keep {P : State → Prop} (hP : Keeps [.regs, .bell, .col, .host, .stn] P) (s : State) (hst : P s) :
    AllNext P (execDiscoveryTimeout s) := by
  unfold execDiscoveryTimeout
  repeat' first
    | with_reducible assumption
    | with_reducible apply ite_keep
    | split
    | with_reducible apply next_keep
    | with_reducible apply standalone_keep (hP.mono (by decide))
    | with_reducible apply stnEvent_keep (hP.mono (by decide))

theorem stationReady_keep {P : State → Prop} (hP : Keeps [.regs, .rings, .svc, .col, .host, .stn] P) (s : State) (hst : P s) :
    P (stationReady s) := by
  unfold stationReady
  repeat' first
    | with_reducible assumption
    | intro x
    | with_reducible apply updStn_keep (hP.mono (by decide))
    | with_reducible apply finishWhere_keep (hP.mono (by decide))
    | with_reducible apply stnEvent_keep (hP.mono (by decide))

theorem execStationFormMessage_keep {P : State → Prop} (hP : Keeps [.regs, .bell, .rings, .svc, .col, .host, .stn] P) (i : Fin 2) (nmod : Fin 9) (ring : Bool) (excluded : Bool) (rate : BitVec 18) (m : BitVec 2) (s : State) (hst : P s) :
    AllNext P (execStationFormMessage i nmod ring excluded rate m s) := by
  unfold execStationFormMessage
  repeat' first
    | with_reducible assumption
    | (first | intro x | (lift_lets -underBinder; intro x)
       first
       | (with_reducible refine (fun hx => ?_) (?_ : P x)
          on_goal 1 => clear_value x
          on_goal 2 => (unfold x; clear x))
       | clear_value x
       | skip)
    | with_reducible apply ite_keep
    | split
    | with_reducible apply next_keep
    | with_reducible apply updStn_keep (hP.mono (by decide))
    | with_reducible apply stationReady_keep (hP.mono (by decide))
    | with_reducible apply standalone_keep (hP.mono (by decide))
    | with_reducible apply followHead_keep (hP.mono (by decide))
    | with_reducible apply stnEvent_keep (hP.mono (by decide))

theorem execStationMarker_keep {P : State → Prop} (hP : Keeps [.regs, .stn] P) (i : Fin 2) (frame : BitVec 48) (err : BitVec 16) (s : State) (hst : P s) :
    AllNext P (execStationMarker i frame err s) := by
  unfold execStationMarker
  repeat' first
    | with_reducible assumption
    | (first | intro x | (lift_lets -underBinder; intro x)
       first
       | (with_reducible refine (fun hx => ?_) (?_ : P x)
          on_goal 1 => clear_value x
          on_goal 2 => (unfold x; clear x))
       | clear_value x
       | skip)
    | with_reducible apply ite_keep
    | split
    | with_reducible apply next_keep
    | with_reducible apply setReg_keep (hP.mono (by decide))
    | with_reducible apply updStn_keep (hP.mono (by decide))

theorem linkLost_keep {P : State → Prop} (hP : Keeps [.regs, .col, .host, .stn] P) (i : Nat) (s : State) (hst : P s) :
    P (linkLost i s) := by
  unfold linkLost
  repeat' first
    | with_reducible assumption
    | intro x
    | with_reducible apply setReg_keep (hP.mono (by decide))
    | with_reducible apply updStn_keep (hP.mono (by decide))
    | with_reducible apply stnEvent_keep (hP.mono (by decide))

theorem breakHop_keep {P : State → Prop} (hP : Keeps [.regs, .bell, .col, .host, .stn] P) (i : Nat) (h : Int) (s : State) (hst : P s) :
    P (breakHop i h s) := by
  unfold breakHop
  repeat' first
    | with_reducible assumption
    | (first | intro x | (lift_lets -underBinder; intro x)
       first
       | (with_reducible refine (fun hx => ?_) (?_ : P x)
          on_goal 1 => clear_value x
          on_goal 2 => (unfold x; clear x))
       | (with_reducible refine (fun hfun => ?_) (?_ : ∀ a, P a → P (x a))
          on_goal 1 => clear_value x
          on_goal 2 => (unfold x; clear x))
       | (with_reducible refine (fun hfun => ?_) (?_ : ∀ a b, P b → P (x a b))
          on_goal 1 => clear_value x
          on_goal 2 => (unfold x; clear x))
       | (with_reducible refine (fun hfun => ?_) (?_ : ∀ a b c, P c → P (x a b c))
          on_goal 1 => clear_value x
          on_goal 2 => (unfold x; clear x))
       | (with_reducible refine (fun hfun => ?_) (?_ : ∀ a b c d, P d → P (x a b c d))
          on_goal 1 => clear_value x
          on_goal 2 => (unfold x; clear x))
       | (with_reducible refine (fun hx => ?_) (?_ : P x.2)
          on_goal 1 => clear_value x
          on_goal 2 => (unfold x; clear x))
       | (with_reducible refine (fun hfun => ?_) (?_ : ∀ a, P (x a))
          on_goal 1 => clear_value x
          on_goal 2 => (unfold x; clear x))
       | (with_reducible refine (fun hfun => ?_) (?_ : ∀ a b c, P (x a b c))
          on_goal 1 => clear_value x
          on_goal 2 => (unfold x; clear x))
       | clear_value x
       | skip)
    | with_reducible apply hfun
    | with_reducible apply ite_keep
    | split
    | with_reducible apply startDiscovery_keep (hP.mono (by decide))
    | with_reducible apply updStn_keep (hP.mono (by decide))
    | with_reducible apply linkCheck_keep (hP.mono (by decide))
    | with_reducible apply stnEvent_keep (hP.mono (by decide))

theorem linkBreak_keep {P : State → Prop} (hP : Keeps [.regs, .bell, .col, .host, .stn] P) (i : Nat) (s : State) (hst : P s) :
    P (linkBreak i s) := by
  unfold linkBreak
  repeat' first
    | with_reducible assumption
    | with_reducible apply ite_keep
    | split
    | with_reducible apply linkLost_keep (hP.mono (by decide))
    | with_reducible apply breakHop_keep (hP.mono (by decide))

theorem healHop_keep {P : State → Prop} (hP : Keeps [.regs, .bell, .col, .host, .stn] P) (i : Nat) (h : Int) (s : State) (hst : P s) :
    P (healHop i h s) := by
  unfold healHop
  repeat' first
    | with_reducible assumption
    | (first | intro x | (lift_lets -underBinder; intro x)
       first
       | (with_reducible refine (fun hx => ?_) (?_ : P x)
          on_goal 1 => clear_value x
          on_goal 2 => (unfold x; clear x))
       | clear_value x
       | skip)
    | with_reducible apply ite_keep
    | split
    | with_reducible apply updBell_keep (hP.mono (by decide))
    | with_reducible apply updStn_keep (hP.mono (by decide))
    | with_reducible apply stnEvent_keep (hP.mono (by decide))

theorem execHopDelayMeasure_keep {P : State → Prop} (hP : Keeps [.regs, .bell, .col, .host, .stn] P) (i : Fin 2) (delay : W) (s : State) (hst : P s) :
    AllNext P (execHopDelayMeasure i delay s) := by
  unfold execHopDelayMeasure
  repeat' first
    | with_reducible assumption
    | with_reducible apply ite_keep
    | split
    | with_reducible apply next_keep
    | with_reducible apply setReg_keep (hP.mono (by decide))
    | with_reducible apply linkBreak_keep (hP.mono (by decide))

theorem execStationSeating_keep {P : State → Prop} (hP : Keeps [.regs, .bell, .col, .host, .stn] P) (at_ : Nat) (s : State) (hst : P s) :
    AllNext P (execStationSeating at_ s) := by
  unfold execStationSeating
  repeat' first
    | with_reducible assumption
    | (first | intro x | (lift_lets -underBinder; intro x)
       first
       | (with_reducible refine (fun hx => ?_) (?_ : P x)
          on_goal 1 => clear_value x
          on_goal 2 => (unfold x; clear x))
       | clear_value x
       | skip)
    | with_reducible apply ite_keep
    | split
    | with_reducible apply next_keep
    | with_reducible apply updBell_keep (hP.mono (by decide))
    | with_reducible apply updStn_keep (hP.mono (by decide))
    | with_reducible apply startLink_keep (hP.mono (by decide))
    | with_reducible apply bellEvt_keep (hP.mono (by decide))

theorem execAlignConfirm_keep {P : State → Prop} (hP : Keeps [.stn] P) (p : Fin 8) (s : State) (hst : P s) :
    AllNext P (execAlignConfirm p s) := by
  unfold execAlignConfirm
  repeat' first
    | with_reducible assumption
    | (first | intro x | (lift_lets -underBinder; intro x)
       first
       | (with_reducible refine (fun hx => ?_) (?_ : P x)
          on_goal 1 => clear_value x
          on_goal 2 => (unfold x; clear x))
       | clear_value x
       | skip)
    | with_reducible apply ite_keep
    | split
    | with_reducible apply next_keep
    | with_reducible apply updStn_keep (hP.mono (by decide))

theorem execStationReady_keep {P : State → Prop} (hP : Keeps [.regs, .rings, .svc, .col, .host, .stn] P) (s : State) (hst : P s) :
    AllNext P (execStationReady s) := by
  unfold execStationReady
  repeat' first
    | with_reducible assumption
    | (first | intro x | (lift_lets -underBinder; intro x)
       first
       | (with_reducible refine (fun hx => ?_) (?_ : P x)
          on_goal 1 => clear_value x
          on_goal 2 => (unfold x; clear x))
       | clear_value x
       | skip)
    | with_reducible apply ite_keep
    | split
    | with_reducible apply next_keep
    | with_reducible apply stationReady_keep (hP.mono (by decide))

theorem execAlignErr_keep {P : State → Prop} (hP : Keeps [.regs, .col, .host, .stn] P) (s : State) (hst : P s) :
    AllNext P (execAlignErr s) := by
  unfold execAlignErr
  repeat' first
    | with_reducible assumption
    | intro x
    | with_reducible apply ite_keep
    | split
    | with_reducible apply next_keep
    | with_reducible apply updStn_keep (hP.mono (by decide))
    | with_reducible apply stnEvent_keep (hP.mono (by decide))

theorem execLinkDown_keep {P : State → Prop} (hP : Keeps [.regs, .bell, .col, .host, .stn] P) (i : Fin 2) (far : Option Int) (s : State) (hst : P s) :
    AllNext P (execLinkDown i far s) := by
  unfold execLinkDown
  repeat' first
    | with_reducible assumption
    | with_reducible apply ite_keep
    | split
    | with_reducible apply next_keep
    | with_reducible apply linkBreak_keep (hP.mono (by decide))
    | with_reducible apply breakHop_keep (hP.mono (by decide))
    | with_reducible refine eq_keep (by assumption) ?_

theorem execLinkUp_keep {P : State → Prop} (hP : Keeps [.regs, .bell, .col, .host, .stn] P) (i : Fin 2) (lanes : Fin 3) (far : Option Int) (station : Option StnJoin) (s : State) (hst : P s) :
    AllNext P (execLinkUp i lanes far station s) := by
  unfold execLinkUp
  repeat' first
    | with_reducible assumption
    | (first | intro x | (lift_lets -underBinder; intro x)
       first
       | (with_reducible refine (fun hx => ?_) (?_ : P x)
          on_goal 1 => clear_value x
          on_goal 2 => (unfold x; clear x))
       | clear_value x
       | skip)
    | with_reducible apply ite_keep
    | split
    | with_reducible apply next_keep
    | with_reducible apply trainPort_keep (hP.mono (by decide))
    | with_reducible apply lateJoin_keep (hP.mono (by decide))
    | with_reducible apply healHop_keep (hP.mono (by decide))
    | with_reducible refine eq_keep (by assumption) ?_

theorem rescanOwn_keep {P : State → Prop} (hP : Keeps [.rings, .svc, .stn] P) (peerArmed : Bool) (e : CmdEntry) (s : State) (hst : P s) :
    P (rescanOwn peerArmed e s) := by
  unfold rescanOwn
  repeat' first
    | with_reducible assumption
    | intro x
    | with_reducible apply startDiscovery_keep (hP.mono (by decide))
    | with_reducible apply acceptLater_keep (hP.mono (by decide))
    | with_reducible apply checked_keep (hP.mono (by decide))
    | with_reducible apply held_keep (hP.mono (by decide))

theorem execStnRescan_keep {P : State → Prop} (hP : Keeps [.dram, .rings, .svc, .stn] P) (e : CmdEntry) (peerArmed : Bool) (s : State) (hst : P s) :
    AllNext P (execStnRescan e peerArmed s) := by
  unfold execStnRescan
  repeat' first
    | with_reducible assumption
    | with_reducible apply next_keep
    | with_reducible apply commandRow_keep (hP.mono (by decide))
    | with_reducible apply rescanOwn_keep (hP.mono (by decide))

theorem calEvent_keep {P : State → Prop} (hP : Keeps [.regs, .col, .host] P) (bit : Nat) (cls : Nat) (s : State) (hst : P s) :
    P (calEvent bit cls s) := by
  unfold calEvent
  repeat' first
    | with_reducible assumption
    | with_reducible apply raise_keep (hP.mono (by decide))

theorem calIsSet_keep {P : State → Prop} (hP : Keeps [.regs, .col, .host] P) (s : State) (hst : P s) :
    P (calIsSet s) := by
  unfold calIsSet
  repeat' first
    | with_reducible assumption
    | with_reducible apply setField_keep (hP.mono (by decide))
    | with_reducible apply calEvent_keep (hP.mono (by decide))

theorem execCalendarSet_keep {P : State → Prop} (hP : Keeps [.regs, .boot, .col, .host] P) (v : W) (s : State) (hst : P s) :
    AllNext P (execCalendarSet v s) := by
  unfold execCalendarSet
  repeat' first
    | with_reducible assumption
    | with_reducible apply ite_keep
    | split
    | with_reducible apply next_keep
    | with_reducible apply calEvent_keep (hP.mono (by decide))
    | with_reducible apply calIsSet_keep (hP.mono (by decide))
    | with_reducible apply upd_boot (hP.mono (by decide))

theorem calTick_keep {P : State → Prop} (hP : Keeps [.regs, .boot] P) (s : State) (hst : P s) :
    P (calTick s) := by
  unfold calTick
  repeat' first
    | with_reducible assumption
    | (first | intro x | (lift_lets -underBinder; intro x)
       first
       | (with_reducible refine (fun hx => ?_) (?_ : P x)
          on_goal 1 => clear_value x
          on_goal 2 => (unfold x; clear x))
       | clear_value x
       | skip)
    | with_reducible apply ite_keep
    | split
    | with_reducible apply setReg_keep (hP.mono (by decide))
    | with_reducible apply bump_keep (hP.mono (by decide))
    | with_reducible apply upd_boot (hP.mono (by decide))
    | with_reducible refine eq_keep (by assumption) ?_

theorem execCalendarSync_keep {P : State → Prop} (hP : Keeps [.regs, .col, .host] P) (sec : W) (frac : BitVec 14) (s : State) (hst : P s) :
    AllNext P (execCalendarSync sec frac s) := by
  unfold execCalendarSync
  repeat' first
    | with_reducible assumption
    | (first | intro x | (lift_lets -underBinder; intro x)
       first
       | (with_reducible refine (fun hx => ?_) (?_ : P x)
          on_goal 1 => clear_value x
          on_goal 2 => (unfold x; clear x))
       | clear_value x
       | skip)
    | with_reducible apply ite_keep
    | split
    | with_reducible apply next_keep
    | with_reducible apply setReg_keep (hP.mono (by decide))
    | with_reducible apply calIsSet_keep (hP.mono (by decide))

theorem execSupercapLow_keep {P : State → Prop} (hP : Keeps [.regs, .col, .host] P) (s : State) (hst : P s) :
    AllNext P (execSupercapLow s) := by
  unfold execSupercapLow
  repeat' first
    | with_reducible assumption
    | with_reducible apply next_keep
    | with_reducible apply holdLive_keep (hP.mono (by decide))
    | with_reducible apply calEvent_keep (hP.mono (by decide))

theorem execBackupLow_keep {P : State → Prop} (hP : Keeps [.regs, .col, .host] P) (s : State) (hst : P s) :
    AllNext P (execBackupLow s) := by
  unfold execBackupLow
  repeat' first
    | with_reducible assumption
    | with_reducible apply ite_keep
    | split
    | with_reducible apply next_keep
    | with_reducible apply holdLive_keep (hP.mono (by decide))
    | with_reducible apply calEvent_keep (hP.mono (by decide))

theorem execCalendarSupplyChange_keep {P : State → Prop} (hP : Keeps [.regs, .boot] P) (supply : Fin 4) (s : State) (hst : P s) :
    AllNext P (execCalendarSupplyChange supply s) := by
  unfold execCalendarSupplyChange
  repeat' first
    | with_reducible assumption
    | with_reducible apply ite_keep
    | split
    | with_reducible apply next_keep
    | with_reducible apply setField_keep (hP.mono (by decide))
    | with_reducible apply upd_boot (hP.mono (by decide))

-- Host

theorem hostEvent_keep {P : State → Prop} (hP : Keeps [.regs, .col, .host] P) (bit : Nat) (cls : Nat) (s : State) (hst : P s) :
    P (hostEvent bit cls s) := by
  unfold hostEvent
  repeat' first
    | with_reducible assumption
    | with_reducible apply raise_keep (hP.mono (by decide))

theorem execDoorbell_keep {P : State → Prop} (hP : Keeps [.regs, .col, .tal, .host] P) (r : Fin 8) (v : W) (s : State) (hst : P s) :
    AllNext P (execDoorbell r v s) := by
  unfold execDoorbell
  repeat' first
    | with_reducible assumption
    | (first | intro x | (lift_lets -underBinder; intro x)
       first
       | (with_reducible refine (fun hx => ?_) (?_ : P x)
          on_goal 1 => clear_value x
          on_goal 2 => (unfold x; clear x))
       | clear_value x
       | skip)
    | with_reducible apply ite_keep
    | split
    | with_reducible apply next_keep
    | with_reducible apply addReg_keep (hP.mono (by decide))
    | with_reducible apply hostEvent_keep (hP.mono (by decide))
    | with_reducible apply talCheck_keep (hP.mono (by decide))

theorem execCommandFetch_keep {P : State → Prop} (hP : Keeps [.regs, .rings] P) (e : CmdEntry) (s : State) (hst : P s) :
    AllNext P (execCommandFetch e s) := by
  unfold execCommandFetch
  repeat' first
    | with_reducible assumption
    | (first | intro x | (lift_lets -underBinder; intro x)
       first
       | (with_reducible refine (fun hx => ?_) (?_ : P x)
          on_goal 1 => clear_value x
          on_goal 2 => (unfold x; clear x))
       | clear_value x
       | skip)
    | with_reducible apply ite_keep
    | split
    | with_reducible apply next_keep
    | with_reducible apply updRing_keep (hP.mono (by decide))
    | with_reducible apply bump_keep (hP.mono (by decide))

theorem execCommandTake_keep {P : State → Prop} (hP : Keeps [.rings, .svc] P) (s : State) (hst : P s) :
    AllNext P (execCommandTake s) := by
  unfold execCommandTake
  repeat' first
    | with_reducible assumption
    | (first | intro x | (lift_lets -underBinder; intro x)
       first
       | (with_reducible refine (fun hx => ?_) (?_ : P x)
          on_goal 1 => clear_value x
          on_goal 2 => (unfold x; clear x))
       | clear_value x
       | skip)
    | with_reducible apply ite_keep
    | split
    | with_reducible apply next_keep
    | with_reducible apply updRing_keep (hP.mono (by decide))
    | with_reducible apply updSvc_keep (hP.mono (by decide))
    | with_reducible apply refuse_keep (hP.mono (by decide))
    | with_reducible refine eq_keep (by assumption) ?_

theorem execCompletionWrite_keep {P : State → Prop} (hP : Keeps [.regs, .rings, .tal, .host] P) (r : Fin 8) (s : State) (hst : P s) :
    AllNext P (execCompletionWrite r s) := by
  unfold execCompletionWrite
  repeat' first
    | with_reducible assumption
    | (first | intro x | (lift_lets -underBinder; intro x)
       first
       | (with_reducible refine (fun hx => ?_) (?_ : P x)
          on_goal 1 => clear_value x
          on_goal 2 => (unfold x; clear x))
       | clear_value x
       | skip)
    | with_reducible apply ite_keep
    | split
    | with_reducible apply next_keep
    | with_reducible apply setRing_keep (hP.mono (by decide))
    | with_reducible apply bump_keep (hP.mono (by decide))
    | with_reducible apply talCheck_keep (hP.mono (by decide))
    | with_reducible apply sendMsg_keep (hP.mono (by decide))
    | with_reducible refine eq_keep (by assumption) ?_

theorem execCqHeadWrite_keep {P : State → Prop} (hP : Keeps [.regs, .col, .host] P) (r : Fin 8) (v : W) (s : State) (hst : P s) :
    AllNext P (execCqHeadWrite r v s) := by
  unfold execCqHeadWrite
  repeat' first
    | with_reducible assumption
    | (first | intro x | (lift_lets -underBinder; intro x)
       first
       | (with_reducible refine (fun hx => ?_) (?_ : P x)
          on_goal 1 => clear_value x
          on_goal 2 => (unfold x; clear x))
       | clear_value x
       | skip)
    | with_reducible apply ite_keep
    | split
    | with_reducible apply next_keep
    | with_reducible apply setReg_keep (hP.mono (by decide))
    | with_reducible apply hostEvent_keep (hP.mono (by decide))

theorem execRingEnable_keep {P : State → Prop} (hP : Keeps [.regs, .rings] P) (r : Fin 8) (s : State) (hst : P s) :
    AllNext P (execRingEnable r s) := by
  unfold execRingEnable
  repeat' first
    | with_reducible assumption
    | (first | intro x | (lift_lets -underBinder; intro x)
       first
       | (with_reducible refine (fun hx => ?_) (?_ : P x)
          on_goal 1 => clear_value x
          on_goal 2 => (unfold x; clear x))
       | clear_value x
       | skip)
    | with_reducible apply ite_keep
    | split
    | with_reducible apply next_keep
    | with_reducible apply updRing_keep (hP.mono (by decide))
    | with_reducible apply setReg_keep (hP.mono (by decide))
    | with_reducible apply each_keep

theorem returnCredits_keep {P : State → Prop} (hP : Keeps [.regs, .rings, .svc] P) (r : Nat) (s : State) (hst : P s) :
    P (returnCredits r s) := by
  unfold returnCredits
  repeat' first
    | with_reducible assumption
    | (first | intro x | (lift_lets -underBinder; intro x)
       first
       | (with_reducible refine (fun hx => ?_) (?_ : P x)
          on_goal 1 => clear_value x
          on_goal 2 => (unfold x; clear x))
       | clear_value x
       | skip)
    | with_reducible apply ite_keep
    | split
    | with_reducible apply updRing_keep (hP.mono (by decide))
    | with_reducible apply updSvc_keep (hP.mono (by decide))
    | with_reducible apply addReg_keep (hP.mono (by decide))
    | with_reducible refine eq_keep (by assumption) ?_

theorem execRingDisable_keep {P : State → Prop} (hP : Keeps [.regs, .rings, .svc, .col, .host] P) (r : Fin 8) (s : State) (hst : P s) :
    AllNext P (execRingDisable r s) := by
  unfold execRingDisable
  repeat' first
    | with_reducible assumption
    | (first | intro x | (lift_lets -underBinder; intro x)
       first
       | (with_reducible refine (fun hx => ?_) (?_ : P x)
          on_goal 1 => clear_value x
          on_goal 2 => (unfold x; clear x))
       | clear_value x
       | skip)
    | with_reducible apply ite_keep
    | split
    | with_reducible apply next_keep
    | with_reducible apply returnCredits_keep (hP.mono (by decide))
    | with_reducible apply setReg_keep (hP.mono (by decide))
    | with_reducible apply hostEvent_keep (hP.mono (by decide))

theorem execRingDmaFailure_keep {P : State → Prop} (hP : Keeps [.regs, .rings, .col, .host] P) (r : Fin 8) (canWrite : Bool) (s : State) (hst : P s) :
    AllNext P (execRingDmaFailure r canWrite s) := by
  unfold execRingDmaFailure
  repeat' first
    | with_reducible assumption
    | intro x
    | with_reducible apply ite_keep
    | split
    | with_reducible apply next_keep
    | with_reducible apply updRing_keep (hP.mono (by decide))
    | with_reducible apply updReg_keep (hP.mono (by decide))
    | with_reducible apply hostEvent_keep (hP.mono (by decide))

theorem hostReset_keep {P : State → Prop} (hP : Keeps [.regs, .rings, .svc, .col, .host] P) (s : State) (hst : P s) :
    P (hostReset s) := by
  unfold hostReset
  repeat' first
    | with_reducible assumption
    | (first | intro x | (lift_lets -underBinder; intro x)
       first
       | (with_reducible refine (fun hx => ?_) (?_ : P x)
          on_goal 1 => clear_value x
          on_goal 2 => (unfold x; clear x))
       | clear_value x
       | skip)
    | with_reducible apply ite_keep
    | split
    | with_reducible apply clearRegs_keep (hP.mono (by decide))
    | with_reducible apply returnCredits_keep (hP.mono (by decide))
    | with_reducible apply updSvc_keep (hP.mono (by decide))
    | with_reducible apply hostEvent_keep (hP.mono (by decide))
    | with_reducible apply each_keep
    | with_reducible apply upd_host (hP.mono (by decide))

theorem execHostReset_keep {P : State → Prop} (hP : Keeps [.regs, .rings, .svc, .col, .host] P) (pclk : Bool) (s : State) (hst : P s) :
    AllNext P (execHostReset pclk s) := by
  unfold execHostReset
  repeat' first
    | with_reducible assumption
    | (first | intro x | (lift_lets -underBinder; intro x)
       first
       | (with_reducible refine (fun hx => ?_) (?_ : P x)
          on_goal 1 => clear_value x
          on_goal 2 => (unfold x; clear x))
       | clear_value x
       | skip)
    | with_reducible apply ite_keep
    | split
    | with_reducible apply next_keep
    | with_reducible apply hostReset_keep (hP.mono (by decide))
    | with_reducible apply raiseOwn_keep (hP.mono (by decide))
    | with_reducible apply holdLive_keep (hP.mono (by decide))

theorem execPcieLinkTrained_keep {P : State → Prop} (hP : Keeps [.regs] P) (width : Fin 3) (speed : Fin 3) (s : State) (hst : P s) :
    AllNext P (execPcieLinkTrained width speed s) := by
  unfold execPcieLinkTrained
  repeat' first
    | with_reducible assumption
    | with_reducible apply next_keep
    | with_reducible apply setField_keep (hP.mono (by decide))

theorem execIntAckWrite_keep {P : State → Prop} (hP : Keeps [.host] P) (v : W) (s : State) (hst : P s) :
    AllNext P (execIntAckWrite v s) := by
  unfold execIntAckWrite
  repeat' first
    | with_reducible assumption
    | intro x
    | with_reducible apply ite_keep
    | split
    | with_reducible apply next_keep
    | with_reducible apply sendMsg_keep (hP.mono (by decide))
    | with_reducible apply each_keep

theorem msixWrite_keep {P : State → Prop} (hP : Keeps [.host] P) (i : Nat) (v : W) (s : State) (hst : P s) :
    P (msixWrite i v s) := by
  unfold msixWrite
  repeat' first
    | with_reducible assumption
    | (first | intro x | (lift_lets -underBinder; intro x)
       first
       | (with_reducible refine (fun hx => ?_) (?_ : P x)
          on_goal 1 => clear_value x
          on_goal 2 => (unfold x; clear x))
       | clear_value x
       | skip)
    | with_reducible apply ite_keep
    | split
    | with_reducible apply upd_host (hP.mono (by decide))

theorem execBar2Read_keep {P : State → Prop} (hP : Keeps [.regs, .col, .host] P) (addr : BitVec 30) (len : Nat) (uncorrectable : Bool) (s : State) (hst : P s) :
    AllNext P (execBar2Read addr len uncorrectable s) := by
  unfold execBar2Read
  repeat' first
    | with_reducible assumption
    | (first | intro x | (lift_lets -underBinder; intro x)
       first
       | (with_reducible refine (fun hx => ?_) (?_ : P x)
          on_goal 1 => clear_value x
          on_goal 2 => (unfold x; clear x))
       | clear_value x
       | skip)
    | with_reducible apply ite_keep
    | split
    | with_reducible apply next_keep
    | with_reducible apply fault_keep
    | with_reducible apply hostEvent_keep (hP.mono (by decide))
    | with_reducible apply upd_host (hP.mono (by decide))

theorem execBar2Write_keep {P : State → Prop} (hP : Keeps [.regs, .dram, .col, .host] P) (addr : BitVec 30) (data : List (BitVec 8)) (s : State) (hst : P s) :
    AllNext P (execBar2Write addr data s) := by
  unfold execBar2Write
  repeat' first
    | with_reducible assumption
    | with_reducible apply ite_keep
    | split
    | with_reducible apply next_keep
    | with_reducible apply fault_keep
    | with_reducible apply putDram_keep (hP.mono (by decide))
    | with_reducible apply hostEvent_keep (hP.mono (by decide))

theorem execDramUncorrectable_keep {P : State → Prop} (hP : Keeps [.col] P) (s : State) (hst : P s) :
    AllNext P (execDramUncorrectable s) := by
  unfold execDramUncorrectable
  repeat' first
    | with_reducible assumption
    | with_reducible apply next_keep
    | with_reducible apply raiseOwn_keep (hP.mono (by decide))

-- Tallies

theorem execTallyFreeze_keep {P : State → Prop} (hP : Keeps [.regs, .tal] P) (s : State) (hst : P s) :
    AllNext P (execTallyFreeze s) := by
  unfold execTallyFreeze
  repeat' first
    | with_reducible assumption
    | with_reducible apply next_keep
    | with_reducible apply setReg_keep (hP.mono (by decide))
    | with_reducible apply upd_tal (hP.mono (by decide))

theorem execTallyUnfreeze_keep {P : State → Prop} (hP : Keeps [.regs, .tal] P) (s : State) (hst : P s) :
    AllNext P (execTallyUnfreeze s) := by
  unfold execTallyUnfreeze
  repeat' first
    | with_reducible assumption
    | with_reducible apply next_keep
    | with_reducible apply setReg_keep (hP.mono (by decide))
    | with_reducible apply upd_tal (hP.mono (by decide))

end Sys2Proof.Machine
end

