-- ==== Sys2Proof/Laws/KeepRest.lean ====
section
/-! SUPPORT. Every operation and meaning of the pairs, security, diagnosis, self-tests, captures, start-up, the frame boundary and the register file keeps what the primitives on the parts it touches keep. -/

set_option linter.all false

namespace Sys2Proof.Machine

open Sys2Proof

-- Pairs

theorem reportNow_keep {P : State → Prop} (hP : Keeps [.regs, .wide, .chans, .terms, .folds, .gates, .motors, .caps, .injs, .rings, .svc, .col, .tal, .host] P) (r : Report) (now : Nat) (s : State) (hst : P s) :
    P (reportNow r now s) := by
  unfold reportNow
  repeat' first
    | with_reducible assumption
    | (first | intro x | (lift_lets -underBinder; intro x)
       first
       | (with_reducible refine (fun hx => ?_) (?_ : P x)
          on_goal 1 => clear_value x
          on_goal 2 => (unfold x; clear x))
       | clear_value x
       | skip)
    | with_reducible apply ite_keep
    | split
    | with_reducible apply updCol_keep (hP.mono (by decide))
    | with_reducible apply latchReport_keep (hP.mono (by decide))
    | with_reducible apply holdLive_keep (hP.mono (by decide))

theorem stopReport_keep {P : State → Prop} (hP : Keeps [.regs, .wide, .chans, .terms, .folds, .gates, .motors, .caps, .injs, .rings, .svc, .col, .tal, .host] P) (wire : Bool) (source : Nat) (cls : Nat) (now : Nat) (s : State) (hst : P s) :
    P (stopReport wire source cls now s) := by
  unfold stopReport
  repeat' first
    | with_reducible assumption
    | with_reducible apply ite_keep
    | split
    | with_reducible apply reportNow_keep (hP.mono (by decide))
    | with_reducible apply raiseOwn_keep (hP.mono (by decide))
    | with_reducible apply holdLive_keep (hP.mono (by decide))

theorem fsStop_keep {P : State → Prop} (hP : Keeps [.regs, .wide, .chans, .terms, .folds, .gates, .motors, .caps, .injs, .fs, .rings, .svc, .col, .tal, .host, .free] P) (wire : Bool) (k : Nat) (now : Nat) (s : State) (hst : P s) :
    P (fsStop wire k now s) := by
  unfold fsStop
  repeat' first
    | with_reducible assumption
    | (first | intro x | (lift_lets -underBinder; intro x)
       first
       | (with_reducible refine (fun hx => ?_) (?_ : P x)
          on_goal 1 => clear_value x
          on_goal 2 => (unfold x; clear x))
       | (with_reducible refine (fun hfun => ?_) (?_ : ∀ a, P a → P (x a))
          on_goal 1 => clear_value x
          on_goal 2 => (unfold x; clear x))
       | (with_reducible refine (fun hfun => ?_) (?_ : ∀ a b, P b → P (x a b))
          on_goal 1 => clear_value x
          on_goal 2 => (unfold x; clear x))
       | (with_reducible refine (fun hfun => ?_) (?_ : ∀ a b c, P c → P (x a b c))
          on_goal 1 => clear_value x
          on_goal 2 => (unfold x; clear x))
       | (with_reducible refine (fun hfun => ?_) (?_ : ∀ a b c d, P d → P (x a b c d))
          on_goal 1 => clear_value x
          on_goal 2 => (unfold x; clear x))
       | (with_reducible refine (fun hx => ?_) (?_ : P x.2)
          on_goal 1 => clear_value x
          on_goal 2 => (unfold x; clear x))
       | (with_reducible refine (fun hfun => ?_) (?_ : ∀ a, P (x a))
          on_goal 1 => clear_value x
          on_goal 2 => (unfold x; clear x))
       | (with_reducible refine (fun hfun => ?_) (?_ : ∀ a b c, P (x a b c))
          on_goal 1 => clear_value x
          on_goal 2 => (unfold x; clear x))
       | clear_value x
       | skip)
    | with_reducible apply hfun
    | with_reducible apply ite_keep
    | split
    | with_reducible apply setFs_keep (hP.mono (by decide))
    | with_reducible apply draw_keep (hP.mono (by decide))
    | with_reducible apply stopReport_keep (hP.mono (by decide))
    | with_reducible apply queueTest_keep (hP.mono (by decide))
    | with_reducible refine eq_keep (by assumption) ?_
    | with_reducible refine eq_keep2 (by assumption) ?_

theorem rescan_keep {P : State → Prop} (hP : Keeps [.regs, .wide, .chans, .terms, .folds, .gates, .motors, .caps, .injs, .rings, .svc, .col, .tal, .host] P) (now : Nat) (s : State) (hst : P s) :
    P (rescan now s) := by
  unfold rescan
  repeat' first
    | with_reducible assumption
    | (first | intro x | (lift_lets -underBinder; intro x)
       first
       | (with_reducible refine (fun hx => ?_) (?_ : P x)
          on_goal 1 => clear_value x
          on_goal 2 => (unfold x; clear x))
       | clear_value x
       | skip)
    | with_reducible apply updCol_keep (hP.mono (by decide))
    | with_reducible apply latchReport_keep (hP.mono (by decide))
    | with_reducible apply forL_keep

theorem takeRole_keep {P : State → Prop} (hP : Keeps [.regs, .wide, .chans, .terms, .folds, .gates, .motors, .caps, .injs, .rings, .svc, .col, .tal, .host] P) (r : Nat) (now : Nat) (unwritten : List (Fin 512 × Fin 3)) (s : State) (hst : P s) :
    P (takeRole r now unwritten s) := by
  unfold takeRole
  repeat' first
    | with_reducible assumption
    | (first | intro x | (lift_lets -underBinder; intro x)
       first
       | (with_reducible refine (fun hx => ?_) (?_ : P x)
          on_goal 1 => clear_value x
          on_goal 2 => (unfold x; clear x))
       | clear_value x
       | skip)
    | with_reducible apply ite_keep
    | split
    | with_reducible apply updChan_keep (hP.mono (by decide))
    | with_reducible apply updSvc_keep (hP.mono (by decide))
    | with_reducible apply bump_keep (hP.mono (by decide))
    | with_reducible apply rescan_keep (hP.mono (by decide))
    | with_reducible apply forL_keep
    | with_reducible refine eq_keep (by assumption) ?_

theorem coreStop_keep {P : State → Prop} (hP : Keeps [.regs, .wide, .chans, .terms, .folds, .gates, .motors, .caps, .injs, .cores, .rings, .svc, .col, .tal, .host] P) (wire : Bool) (r : Nat) (b : Bool) (now : Nat) (unwritten : List (Fin 512 × Fin 3)) (s : State) (hst : P s) :
    P (coreStop wire r b now unwritten s) := by
  unfold coreStop
  repeat' first
    | with_reducible assumption
    | (first | intro x | (lift_lets -underBinder; intro x)
       first
       | (with_reducible refine (fun hx => ?_) (?_ : P x)
          on_goal 1 => clear_value x
          on_goal 2 => (unfold x; clear x))
       | clear_value x
       | skip)
    | with_reducible apply ite_keep
    | split
    | with_reducible apply setCore_keep (hP.mono (by decide))
    | with_reducible apply stopReport_keep (hP.mono (by decide))
    | with_reducible apply queueTest_keep (hP.mono (by decide))
    | with_reducible apply takeRole_keep (hP.mono (by decide))

theorem execPairCompareMiss_keep {P : State → Prop} (hP : Keeps [.regs, .wide, .chans, .terms, .folds, .gates, .motors, .caps, .injs, .fs, .cores, .rings, .svc, .col, .tal, .host, .free] P) (u : Fin 16) (unwritten : List (Fin 512 × Fin 3)) (now : Nat) (s : State) (hst : P s) :
    AllNext P (execPairCompareMiss u unwritten now s) := by
  unfold execPairCompareMiss
  repeat' first
    | with_reducible assumption
    | with_reducible apply ite_keep
    | split
    | with_reducible apply next_keep
    | with_reducible apply bump_keep (hP.mono (by decide))
    | with_reducible apply coreStop_keep (hP.mono (by decide))
    | with_reducible apply fsStop_keep (hP.mono (by decide))

theorem execFsResume_keep {P : State → Prop} (hP : Keeps [.fs, .col] P) (k : Fin 8) (s : State) (hst : P s) :
    AllNext P (execFsResume k s) := by
  unfold execFsResume
  repeat' first
    | with_reducible assumption
    | (first | intro x | (lift_lets -underBinder; intro x)
       first
       | (with_reducible refine (fun hx => ?_) (?_ : P x)
          on_goal 1 => clear_value x
          on_goal 2 => (unfold x; clear x))
       | clear_value x
       | skip)
    | with_reducible apply ite_keep
    | split
    | with_reducible apply next_keep
    | with_reducible apply setFs_keep (hP.mono (by decide))
    | with_reducible apply condEnd_keep (hP.mono (by decide))

theorem execCoreStandbyCopyDone_keep {P : State → Prop} (hP : Keeps [.cores, .col] P) (r : Fin 4) (b : Bool) (s : State) (hst : P s) :
    AllNext P (execCoreStandbyCopyDone r b s) := by
  unfold execCoreStandbyCopyDone
  repeat' first
    | with_reducible assumption
    | (first | intro x | (lift_lets -underBinder; intro x)
       first
       | (with_reducible refine (fun hx => ?_) (?_ : P x)
          on_goal 1 => clear_value x
          on_goal 2 => (unfold x; clear x))
       | clear_value x
       | skip)
    | with_reducible apply ite_keep
    | split
    | with_reducible apply next_keep
    | with_reducible apply setCore_keep (hP.mono (by decide))
    | with_reducible apply condEnd_keep (hP.mono (by decide))

theorem flockClear_keep {P : State → Prop} (hP : Keeps [.ws, .chans, .mengs] P) (f : Nat) (s : State) (hst : P s) :
    P (flockClear f s) := by
  unfold flockClear
  repeat' first
    | with_reducible assumption
    | (first | intro x | (lift_lets -underBinder; intro x)
       first
       | (with_reducible refine (fun hx => ?_) (?_ : P x)
          on_goal 1 => clear_value x
          on_goal 2 => (unfold x; clear x))
       | clear_value x
       | skip)
    | with_reducible apply updChan_keep (hP.mono (by decide))
    | with_reducible apply updMEng_keep (hP.mono (by decide))
    | with_reducible apply zeroWs_keep (hP.mono (by decide))
    | with_reducible apply each_keep

theorem flockOff_keep {P : State → Prop} (hP : Keeps [.regs, .wide, .ws, .dom, .chans, .terms, .images, .health, .runs, .mengs, .tal, .host] P) (f : Nat) (now : Nat) (s : State) (hst : P s) :
    P (flockOff f now s) := by
  unfold flockOff
  repeat' first
    | with_reducible assumption
    | (first | intro x | (lift_lets -underBinder; intro x)
       first
       | (with_reducible refine (fun hx => ?_) (?_ : P x)
          on_goal 1 => clear_value x
          on_goal 2 => (unfold x; clear x))
       | clear_value x
       | skip)
    | with_reducible apply clearRegs_keep (hP.mono (by decide))
    | with_reducible apply setReg_keep (hP.mono (by decide))
    | with_reducible apply updHlt_keep (hP.mono (by decide))
    | with_reducible apply setRun_keep (hP.mono (by decide))
    | with_reducible apply setDom_keep (hP.mono (by decide))
    | with_reducible apply evalModels_keep (hP.mono (by decide))
    | with_reducible apply dropImages_keep (hP.mono (by decide))
    | with_reducible apply flockClear_keep (hP.mono (by decide))
    | with_reducible apply signalVec_keep (hP.mono (by decide))
    | with_reducible apply enterSafe_keep (hP.mono (by decide))
    | with_reducible apply each_keep

theorem foldOff_keep {P : State → Prop} (hP : Keeps [.regs, .wide, .dom, .terms, .gates, .tal, .host] P) (k : Nat) (now : Nat) (s : State) (hst : P s) :
    P (foldOff k now s) := by
  unfold foldOff
  repeat' first
    | with_reducible assumption
    | (first | intro x | (lift_lets -underBinder; intro x)
       first
       | (with_reducible refine (fun hx => ?_) (?_ : P x)
          on_goal 1 => clear_value x
          on_goal 2 => (unfold x; clear x))
       | clear_value x
       | skip)
    | with_reducible apply clearRegs_keep (hP.mono (by decide))
    | with_reducible apply setDom_keep (hP.mono (by decide))
    | with_reducible apply refreshGates_keep (hP.mono (by decide))
    | with_reducible apply signalVec_keep (hP.mono (by decide))
    | with_reducible apply enterSafe_keep (hP.mono (by decide))
    | with_reducible apply setDrive_keep (hP.mono (by decide))
    | with_reducible apply gateLow_keep (hP.mono (by decide))
    | with_reducible apply each_keep

theorem groupOff_keep {P : State → Prop} (hP : Keeps [.regs, .dom, .ports, .bell, .col, .host] P) (g : Nat) (s : State) (hst : P s) :
    P (groupOff g s) := by
  unfold groupOff
  repeat' first
    | with_reducible assumption
    | (first | intro x | (lift_lets -underBinder; intro x)
       first
       | (with_reducible refine (fun hx => ?_) (?_ : P x)
          on_goal 1 => clear_value x
          on_goal 2 => (unfold x; clear x))
       | clear_value x
       | skip)
    | with_reducible apply ite_keep
    | split
    | with_reducible apply setReg_keep (hP.mono (by decide))
    | with_reducible apply setDom_keep (hP.mono (by decide))
    | with_reducible apply portOff_keep (hP.mono (by decide))
    | with_reducible apply each_keep

theorem domainOff_keep {P : State → Prop} (hP : Keeps [.regs, .wide, .ws, .dom, .ports, .bell, .chans, .terms, .gates, .images, .health, .runs, .mengs, .col, .tal, .host, .stn] P) (d : Nat) (now : Nat) (s : State) (hst : P s) :
    P (domainOff d now s) := by
  unfold domainOff
  repeat' first
    | with_reducible assumption
    | (first | intro x | (lift_lets -underBinder; intro x)
       first
       | (with_reducible refine (fun hx => ?_) (?_ : P x)
          on_goal 1 => clear_value x
          on_goal 2 => (unfold x; clear x))
       | clear_value x
       | skip)
    | with_reducible apply ite_keep
    | split
    | with_reducible apply setDom_keep (hP.mono (by decide))
    | with_reducible apply linkBreak_keep (hP.mono (by decide))
    | with_reducible apply flockOff_keep (hP.mono (by decide))
    | with_reducible apply groupOff_keep (hP.mono (by decide))
    | with_reducible apply foldOff_keep (hP.mono (by decide))

theorem domainOn_keep {P : State → Prop} (hP : Keeps [.regs, .ws, .dom, .ports, .chans, .gates, .images, .mengs, .sense] P) (d : Nat) (s : State) (hst : P s) :
    P (domainOn d s) := by
  unfold domainOn
  repeat' first
    | with_reducible assumption
    | (first | intro x | (lift_lets -underBinder; intro x)
       first
       | (with_reducible refine (fun hx => ?_) (?_ : P x)
          on_goal 1 => clear_value x
          on_goal 2 => (unfold x; clear x))
       | clear_value x
       | skip)
    | with_reducible apply ite_keep
    | split
    | with_reducible apply startSettling_keep (hP.mono (by decide))
    | with_reducible apply setReg_keep (hP.mono (by decide))
    | with_reducible apply setDom_keep (hP.mono (by decide))
    | with_reducible apply refreshGates_keep (hP.mono (by decide))
    | with_reducible apply evalModels_keep (hP.mono (by decide))
    | with_reducible apply dropImages_keep (hP.mono (by decide))
    | with_reducible apply flockClear_keep (hP.mono (by decide))
    | with_reducible apply toAcquire_keep (hP.mono (by decide))
    | with_reducible apply each_keep

theorem domainOwn_keep {P : State → Prop} (hP : Keeps [.regs, .wide, .ws, .dom, .ports, .bell, .chans, .terms, .gates, .images, .health, .runs, .mengs, .sense, .rings, .svc, .col, .tal, .host, .stn] P) (now : Nat) (e : CmdEntry) (s : State) (hst : P s) :
    P (domainOwn now e s) := by
  unfold domainOwn
  repeat' first
    | with_reducible assumption
    | (first | intro x | (lift_lets -underBinder; intro x)
       first
       | (with_reducible refine (fun hx => ?_) (?_ : P x)
          on_goal 1 => clear_value x
          on_goal 2 => (unfold x; clear x))
       | clear_value x
       | skip)
    | with_reducible apply ite_keep
    | split
    | with_reducible apply updCol_keep (hP.mono (by decide))
    | with_reducible apply acceptLater_keep (hP.mono (by decide))
    | with_reducible apply domainOff_keep (hP.mono (by decide))
    | with_reducible apply domainOn_keep (hP.mono (by decide))
    | with_reducible apply checked_keep (hP.mono (by decide))
    | with_reducible apply held_keep (hP.mono (by decide))

theorem execDomain_keep {P : State → Prop} (hP : Keeps [.regs, .wide, .ws, .dram, .dom, .ports, .bell, .chans, .terms, .gates, .images, .health, .runs, .mengs, .sense, .rings, .svc, .col, .tal, .host, .stn] P) (e : CmdEntry) (now : Nat) (s : State) (hst : P s) :
    AllNext P (execDomain e now s) := by
  unfold execDomain
  repeat' first
    | with_reducible assumption
    | with_reducible apply next_keep
    | with_reducible apply commandRow_keep (hP.mono (by decide))
    | with_reducible apply domainOwn_keep (hP.mono (by decide))

theorem execDomainSettled_keep {P : State → Prop} (hP : Keeps [.rings, .svc, .col] P) (d : Fin 48) (s : State) (hst : P s) :
    AllNext P (execDomainSettled d s) := by
  unfold execDomainSettled
  repeat' first
    | with_reducible assumption
    | (first | intro x | (lift_lets -underBinder; intro x)
       first
       | (with_reducible refine (fun hx => ?_) (?_ : P x)
          on_goal 1 => clear_value x
          on_goal 2 => (unfold x; clear x))
       | clear_value x
       | skip)
    | with_reducible apply ite_keep
    | split
    | with_reducible apply next_keep
    | with_reducible apply updCol_keep (hP.mono (by decide))
    | with_reducible apply finishObj_keep (hP.mono (by decide))
    | with_reducible apply condEnd_keep (hP.mono (by decide))

theorem loopBroken_keep {P : State → Prop} (hP : Keeps [.regs, .chans, .health, .runs, .col, .host, .nv] P) (e : Nat) (s : State) (hst : P s) :
    P (loopBroken e s) := by
  unfold loopBroken
  repeat' first
    | with_reducible assumption
    | (first | intro x | (lift_lets -underBinder; intro x)
       first
       | (with_reducible refine (fun hx => ?_) (?_ : P x)
          on_goal 1 => clear_value x
          on_goal 2 => (unfold x; clear x))
       | clear_value x
       | skip)
    | with_reducible apply ite_keep
    | split
    | with_reducible apply updLease_keep (hP.mono (by decide))
    | with_reducible apply retireBroken_keep (hP.mono (by decide))
    | with_reducible apply each_keep
    | with_reducible refine eq_keep (by assumption) ?_

theorem flockReaction_keep {P : State → Prop} (hP : Keeps [.regs, .wide, .chans, .terms, .folds, .gates, .motors, .caps, .injs, .rings, .svc, .col, .tal, .host] P) (f : Nat) (now : Nat) (s : State) (hst : P s) :
    P (flockReaction f now s) := by
  unfold flockReaction
  repeat' first
    | with_reducible assumption
    | (first | intro x | (lift_lets -underBinder; intro x)
       first
       | (with_reducible refine (fun hx => ?_) (?_ : P x)
          on_goal 1 => clear_value x
          on_goal 2 => (unfold x; clear x))
       | clear_value x
       | skip)
    | with_reducible apply dispatchC2_keep (hP.mono (by decide))
    | with_reducible apply reportNow_keep (hP.mono (by decide))
    | with_reducible apply holdLive_keep (hP.mono (by decide))
    | with_reducible apply each_keep

theorem wireReaction_keep {P : State → Prop} (hP : Keeps [.regs, .wide, .ports, .bell, .chans, .terms, .folds, .gates, .motors, .caps, .injs, .health, .runs, .mengs, .fs, .cores, .rings, .svc, .col, .tal, .host, .stn, .nv, .free] P) (i : Nat) (now : Nat) (unwritten : List (Fin 512 × Fin 3)) (s : State) (hst : P s) :
    P (wireReaction i now unwritten s) := by
  unfold wireReaction
  repeat' first
    | with_reducible assumption
    | (first | intro x | (lift_lets -underBinder; intro x)
       first
       | (with_reducible refine (fun hx => ?_) (?_ : P x)
          on_goal 1 => clear_value x
          on_goal 2 => (unfold x; clear x))
       | (with_reducible refine (fun hfun => ?_) (?_ : ∀ a, P a → P (x a))
          on_goal 1 => clear_value x
          on_goal 2 => (unfold x; clear x))
       | (with_reducible refine (fun hfun => ?_) (?_ : ∀ a b, P b → P (x a b))
          on_goal 1 => clear_value x
          on_goal 2 => (unfold x; clear x))
       | (with_reducible refine (fun hfun => ?_) (?_ : ∀ a b c, P c → P (x a b c))
          on_goal 1 => clear_value x
          on_goal 2 => (unfold x; clear x))
       | (with_reducible refine (fun hfun => ?_) (?_ : ∀ a b c d, P d → P (x a b c d))
          on_goal 1 => clear_value x
          on_goal 2 => (unfold x; clear x))
       | (with_reducible refine (fun hx => ?_) (?_ : P x.2)
          on_goal 1 => clear_value x
          on_goal 2 => (unfold x; clear x))
       | (with_reducible refine (fun hfun => ?_) (?_ : ∀ a, P (x a))
          on_goal 1 => clear_value x
          on_goal 2 => (unfold x; clear x))
       | (with_reducible refine (fun hfun => ?_) (?_ : ∀ a b c, P (x a b c))
          on_goal 1 => clear_value x
          on_goal 2 => (unfold x; clear x))
       | clear_value x
       | skip)
    | with_reducible apply hfun
    | with_reducible apply ite_keep
    | split
    | with_reducible apply declareFailed_keep (hP.mono (by decide))
    | with_reducible apply flockReaction_keep (hP.mono (by decide))
    | with_reducible apply setReg_keep (hP.mono (by decide))
    | with_reducible apply loopBroken_keep (hP.mono (by decide))
    | with_reducible apply linkBreak_keep (hP.mono (by decide))
    | with_reducible apply hostReset_keep (hP.mono (by decide))
    | with_reducible apply reportNow_keep (hP.mono (by decide))
    | with_reducible apply lineGone_keep (hP.mono (by decide))
    | with_reducible apply coreStop_keep (hP.mono (by decide))
    | with_reducible apply fsStop_keep (hP.mono (by decide))

theorem execBrokenWire_keep {P : State → Prop} (hP : Keeps [.regs, .wide, .ports, .bell, .chans, .terms, .folds, .gates, .motors, .caps, .injs, .health, .runs, .mengs, .fs, .cores, .rings, .svc, .col, .tal, .host, .stn, .nv, .free] P) (source : BitVec 8) (unwritten : List (Fin 512 × Fin 3)) (now : Nat) (s : State) (hst : P s) :
    AllNext P (execBrokenWire source unwritten now s) := by
  unfold execBrokenWire
  repeat' first
    | with_reducible assumption
    | (first | intro x | (lift_lets -underBinder; intro x)
       first
       | (with_reducible refine (fun hx => ?_) (?_ : P x)
          on_goal 1 => clear_value x
          on_goal 2 => (unfold x; clear x))
       | clear_value x
       | skip)
    | with_reducible apply ite_keep
    | split
    | with_reducible apply next_keep
    | with_reducible apply updCol_keep (hP.mono (by decide))
    | with_reducible apply wireReaction_keep (hP.mono (by decide))

-- Security

theorem secEvent_sec (b : Nat) (s : State) : (secEvent b s).sec = s.sec := raise_sec _ _ _

theorem commission_keep {P : State → Prop} (hP : Keeps [.regs, .col, .sec, .host] P) (b : SigBlock) (got : Option (BitVec 384)) (s : State) (hst : P s) :
    P (commission b got s) := by
  unfold commission
  split
  · rename_i hn
    refine secEvent_keep (hP.mono (by decide)) _ _ (burn_keep (hP.mono (by decide)) _ ?_ ?_)
    · refine ⟨fun _ => Nat.le_refl _, Nat.le_refl _, fun h hh => ?_⟩
      have : (if got.isSome = true then secEvent 5 s else s).sec.builderHash = s.sec.builderHash := by
        split
        · rw [secEvent_sec]
        · rfl
      rw [this] at hh
      rw [hh] at hn; cases hn
    · split
      · exact secEvent_keep (hP.mono (by decide)) _ _ hst
      · exact hst
  · exact hst

theorem fenceOwn_keep {P : State → Prop} (hP : Keeps [.regs, .rings, .svc, .col, .sec, .host] P) (got : Option (BitVec 384)) (e : CmdEntry) (s : State) (hst : P s) :
    P (fenceOwn got e s) := by
  unfold fenceOwn
  repeat' first
    | with_reducible assumption
    | (first | intro x | (lift_lets -underBinder; intro x)
       first
       | (with_reducible refine (fun hx => ?_) (?_ : P x)
          on_goal 1 => clear_value x
          on_goal 2 => (unfold x; clear x))
       | clear_value x
       | skip)
    | with_reducible apply ite_keep
    | split
    | exact FuseLe.same rfl rfl rfl
    | exact fun _ => FuseLe.same rfl rfl rfl
    | exact FuseLe.count rfl (Nat.le_succ _) rfl
    | with_reducible apply updSec_keep (hP.mono (by decide))
    | with_reducible apply acceptLater_keep (hP.mono (by decide))
    | with_reducible apply commission_keep (hP.mono (by decide))
    | with_reducible apply startBurn_keep (hP.mono (by decide))
    | with_reducible apply secEvent_keep (hP.mono (by decide))
    | with_reducible apply checked_keep (hP.mono (by decide))
    | with_reducible apply refuse_keep (hP.mono (by decide))
    | with_reducible apply held_keep (hP.mono (by decide))
    | with_reducible refine eq_keep (by assumption) ?_

theorem execFenceLoad_keep {P : State → Prop} (hP : Keeps [.regs, .dram, .rings, .svc, .col, .sec, .host] P) (e : CmdEntry) (got : Option (BitVec 384)) (s : State) (hst : P s) :
    AllNext P (execFenceLoad e got s) := by
  unfold execFenceLoad
  repeat' first
    | with_reducible assumption
    | with_reducible apply next_keep
    | with_reducible apply commandRow_keep (hP.mono (by decide))
    | with_reducible apply fenceOwn_keep (hP.mono (by decide))

theorem installFence_keep {P : State → Prop} (hP : Keeps [.ports, .sec] P) (f : Fence) (s : State) (hst : P s) :
    P (installFence f s) := by
  unfold installFence
  repeat' first
    | with_reducible assumption
    | (first | intro x | (lift_lets -underBinder; intro x)
       first
       | (with_reducible refine (fun hx => ?_) (?_ : P x)
          on_goal 1 => clear_value x
          on_goal 2 => (unfold x; clear x))
       | clear_value x
       | skip)
    | with_reducible apply ite_keep
    | split
    | exact FuseLe.same rfl rfl rfl
    | exact fun _ => FuseLe.same rfl rfl rfl
    | exact FuseLe.count rfl (Nat.le_succ _) rfl
    | with_reducible apply updPort_keep (hP.mono (by decide))
    | with_reducible apply updSec_keep (hP.mono (by decide))
    | with_reducible apply each_keep

theorem execFenceInForce_keep {P : State → Prop} (hP : Keeps [.ports, .rings, .svc, .sec] P) (s : State) (hst : P s) :
    AllNext P (execFenceInForce s) := by
  unfold execFenceInForce
  repeat' first
    | with_reducible assumption
    | (first | intro x | (lift_lets -underBinder; intro x)
       first
       | (with_reducible refine (fun hx => ?_) (?_ : P x)
          on_goal 1 => clear_value x
          on_goal 2 => (unfold x; clear x))
       | clear_value x
       | skip)
    | with_reducible apply ite_keep
    | split
    | exact FuseLe.same rfl rfl rfl
    | exact fun _ => FuseLe.same rfl rfl rfl
    | exact FuseLe.count rfl (Nat.le_succ _) rfl
    | with_reducible apply next_keep
    | with_reducible apply updSec_keep (hP.mono (by decide))
    | with_reducible apply installFence_keep (hP.mono (by decide))
    | with_reducible apply finishReady_keep (hP.mono (by decide))
    | with_reducible apply markProg_keep (hP.mono (by decide))
    | with_reducible refine eq_keep (by assumption) ?_

theorem writeReport_keep {P : State → Prop} (hP : Keeps [.dram, .free] P) (x : Attest) (s : State) (hst : P s) :
    P (writeReport x s) := by
  unfold writeReport
  repeat' first
    | with_reducible assumption
    | (first | intro x | (lift_lets -underBinder; intro x)
       first
       | (with_reducible refine (fun hx => ?_) (?_ : P x)
          on_goal 1 => clear_value x
          on_goal 2 => (unfold x; clear x))
       | (with_reducible refine (fun hfun => ?_) (?_ : ∀ a, P a → P (x a))
          on_goal 1 => clear_value x
          on_goal 2 => (unfold x; clear x))
       | (with_reducible refine (fun hfun => ?_) (?_ : ∀ a b, P b → P (x a b))
          on_goal 1 => clear_value x
          on_goal 2 => (unfold x; clear x))
       | (with_reducible refine (fun hfun => ?_) (?_ : ∀ a b c, P c → P (x a b c))
          on_goal 1 => clear_value x
          on_goal 2 => (unfold x; clear x))
       | (with_reducible refine (fun hfun => ?_) (?_ : ∀ a b c d, P d → P (x a b c d))
          on_goal 1 => clear_value x
          on_goal 2 => (unfold x; clear x))
       | (with_reducible refine (fun hx => ?_) (?_ : P x.2)
          on_goal 1 => clear_value x
          on_goal 2 => (unfold x; clear x))
       | (with_reducible refine (fun hfun => ?_) (?_ : ∀ a, P (x a))
          on_goal 1 => clear_value x
          on_goal 2 => (unfold x; clear x))
       | (with_reducible refine (fun hfun => ?_) (?_ : ∀ a b c, P (x a b c))
          on_goal 1 => clear_value x
          on_goal 2 => (unfold x; clear x))
       | clear_value x
       | skip)
    | with_reducible apply hfun
    | with_reducible apply ite_keep
    | split
    | with_reducible apply putDram_keep (hP.mono (by decide))
    | with_reducible apply draw_keep (hP.mono (by decide))
    | with_reducible refine eq_keep (by assumption) ?_
    | with_reducible refine eq_keep2 (by assumption) ?_

theorem attestLatch_keep {P : State → Prop} (hP : Keeps [.dram, .rings, .svc, .attest, .free] P) (s : State) (hst : P s) :
    P (attestLatch s) := by
  unfold attestLatch
  repeat' first
    | with_reducible assumption
    | (first | intro x | (lift_lets -underBinder; intro x)
       first
       | (with_reducible refine (fun hx => ?_) (?_ : P x)
          on_goal 1 => clear_value x
          on_goal 2 => (unfold x; clear x))
       | clear_value x
       | skip)
    | with_reducible apply ite_keep
    | split
    | with_reducible apply finishWhere_keep (hP.mono (by decide))
    | with_reducible apply writeReport_keep (hP.mono (by decide))
    | with_reducible apply forL_keep
    | with_reducible apply upd_attest (hP.mono (by decide))

theorem execAttest_keep {P : State → Prop} (hP : Keeps [.dram, .rings, .svc, .attest, .free] P) (e : CmdEntry) (s : State) (hst : P s) :
    AllNext P (execAttest e s) := by
  unfold execAttest
  repeat' first
    | with_reducible assumption
    | (first | intro x | (lift_lets -underBinder; intro x)
       first
       | (with_reducible refine (fun hx => ?_) (?_ : P x)
          on_goal 1 => clear_value x
          on_goal 2 => (unfold x; clear x))
       | clear_value x
       | skip)
    | with_reducible apply ite_keep
    | split
    | with_reducible apply next_keep
    | with_reducible apply acceptLater_keep (hP.mono (by decide))
    | with_reducible apply attestLatch_keep (hP.mono (by decide))
    | with_reducible apply commandRow_keep (hP.mono (by decide))
    | with_reducible apply checked_keep (hP.mono (by decide))
    | with_reducible apply upd_attest (hP.mono (by decide))

theorem execTallyLatch_keep {P : State → Prop} (hP : Keeps [.dram, .rings, .svc, .tal, .attest, .free] P) (s : State) (hst : P s) :
    AllNext P (execTallyLatch s) := by
  unfold execTallyLatch
  repeat' first
    | with_reducible assumption
    | (first | intro x | (lift_lets -underBinder; intro x)
       first
       | (with_reducible refine (fun hx => ?_) (?_ : P x)
          on_goal 1 => clear_value x
          on_goal 2 => (unfold x; clear x))
       | clear_value x
       | skip)
    | with_reducible apply ite_keep
    | split
    | with_reducible apply next_keep
    | with_reducible apply attestLatch_keep (hP.mono (by decide))
    | with_reducible apply upd_tal (hP.mono (by decide))

theorem execDebugChal_keep {P : State → Prop} (hP : Keeps [.dram, .rings, .svc, .sec, .free] P) (e : CmdEntry) (s : State) (hst : P s) :
    AllNext P (execDebugChal e s) := by
  unfold execDebugChal
  repeat' first
    | with_reducible assumption
    | (first | intro x | (lift_lets -underBinder; intro x)
       first
       | (with_reducible refine (fun hx => ?_) (?_ : P x)
          on_goal 1 => clear_value x
          on_goal 2 => (unfold x; clear x))
       | (with_reducible refine (fun hfun => ?_) (?_ : ∀ a, P a → P (x a))
          on_goal 1 => clear_value x
          on_goal 2 => (unfold x; clear x))
       | (with_reducible refine (fun hfun => ?_) (?_ : ∀ a b, P b → P (x a b))
          on_goal 1 => clear_value x
          on_goal 2 => (unfold x; clear x))
       | (with_reducible refine (fun hfun => ?_) (?_ : ∀ a b c, P c → P (x a b c))
          on_goal 1 => clear_value x
          on_goal 2 => (unfold x; clear x))
       | (with_reducible refine (fun hfun => ?_) (?_ : ∀ a b c d, P d → P (x a b c d))
          on_goal 1 => clear_value x
          on_goal 2 => (unfold x; clear x))
       | (with_reducible refine (fun hx => ?_) (?_ : P x.2)
          on_goal 1 => clear_value x
          on_goal 2 => (unfold x; clear x))
       | (with_reducible refine (fun hfun => ?_) (?_ : ∀ a, P (x a))
          on_goal 1 => clear_value x
          on_goal 2 => (unfold x; clear x))
       | (with_reducible refine (fun hfun => ?_) (?_ : ∀ a b c, P (x a b c))
          on_goal 1 => clear_value x
          on_goal 2 => (unfold x; clear x))
       | clear_value x
       | skip)
    | with_reducible apply hfun
    | with_reducible apply ite_keep
    | split
    | exact FuseLe.same rfl rfl rfl
    | exact fun _ => FuseLe.same rfl rfl rfl
    | exact FuseLe.count rfl (Nat.le_succ _) rfl
    | with_reducible apply next_keep
    | with_reducible apply putDram_keep (hP.mono (by decide))
    | with_reducible apply updSec_keep (hP.mono (by decide))
    | with_reducible apply draw_keep (hP.mono (by decide))
    | with_reducible apply commandRow_keep (hP.mono (by decide))
    | with_reducible apply acceptNow_keep (hP.mono (by decide))
    | with_reducible apply checked_keep (hP.mono (by decide))
    | with_reducible refine eq_keep (by assumption) ?_
    | with_reducible refine eq_keep2 (by assumption) ?_

theorem execChallengeLapse_keep {P : State → Prop} (hP : Keeps [.sec] P) (s : State) (hst : P s) :
    AllNext P (execChallengeLapse s) := by
  unfold execChallengeLapse
  repeat' first
    | with_reducible assumption
    | intro x
    | exact FuseLe.same rfl rfl rfl
    | exact fun _ => FuseLe.same rfl rfl rfl
    | exact FuseLe.count rfl (Nat.le_succ _) rfl
    | with_reducible apply next_keep
    | with_reducible apply updSec_keep (hP.mono (by decide))

theorem debugStop_keep {P : State → Prop} (hP : Keeps [.regs, .chans, .terms, .gates, .motors, .rings, .svc, .col, .host] P) (ch : Nat) (s : State) (hst : P s) :
    P (debugStop ch s) := by
  unfold debugStop
  repeat' first
    | with_reducible assumption
    | (first | intro x | (lift_lets -underBinder; intro x)
       first
       | (with_reducible refine (fun hx => ?_) (?_ : P x)
          on_goal 1 => clear_value x
          on_goal 2 => (unfold x; clear x))
       | clear_value x
       | skip)
    | with_reducible apply ite_keep
    | split
    | with_reducible apply updCol_keep (hP.mono (by decide))
    | with_reducible apply stopChannel_keep (hP.mono (by decide))
    | with_reducible apply raiseOwn_keep (hP.mono (by decide))
    | with_reducible apply holdLive_keep (hP.mono (by decide))
    | with_reducible refine eq_keep (by assumption) ?_

theorem execDebugResp_keep {P : State → Prop} (hP : Keeps [.regs, .dram, .chans, .terms, .gates, .motors, .rings, .svc, .col, .sec, .host] P) (e : CmdEntry) (fuseOk : Bool) (s : State) (hst : P s) :
    AllNext P (execDebugResp e fuseOk s) := by
  unfold execDebugResp
  repeat' first
    | with_reducible assumption
    | (first | intro x | (lift_lets -underBinder; intro x)
       first
       | (with_reducible refine (fun hx => ?_) (?_ : P x)
          on_goal 1 => clear_value x
          on_goal 2 => (unfold x; clear x))
       | clear_value x
       | skip)
    | with_reducible apply ite_keep
    | split
    | exact FuseLe.same rfl rfl rfl
    | exact fun _ => FuseLe.same rfl rfl rfl
    | exact FuseLe.count rfl (Nat.le_succ _) rfl
    | with_reducible apply next_keep
    | with_reducible apply updSec_keep (hP.mono (by decide))
    | with_reducible apply acceptLater_keep (hP.mono (by decide))
    | with_reducible apply commandRow_keep (hP.mono (by decide))
    | with_reducible apply debugDone_keep (hP.mono (by decide))
    | with_reducible apply debugStop_keep (hP.mono (by decide))
    | with_reducible apply secEvent_keep (hP.mono (by decide))
    | with_reducible apply gateLow_keep (hP.mono (by decide))
    | with_reducible apply checked_keep (hP.mono (by decide))
    | with_reducible apply each_keep

-- Diag

theorem startPass_keep {P : State → Prop} (hP : Keeps [.chans, .diags] P) (d : Nat) (s : State) (hst : P s) :
    P (startPass d s) := by
  unfold startPass
  repeat' first
    | with_reducible assumption
    | (first | intro x | (lift_lets -underBinder; intro x)
       first
       | (with_reducible refine (fun hx => ?_) (?_ : P x)
          on_goal 1 => clear_value x
          on_goal 2 => (unfold x; clear x))
       | clear_value x
       | skip)
    | with_reducible apply updChan_keep (hP.mono (by decide))
    | with_reducible apply setDiag_keep (hP.mono (by decide))

theorem formPoints_keep {P : State → Prop} (hP : Keeps [.diags, .free] P) (d : Nat) (s : State) (hst : P s) :
    P (formPoints d s) := by
  unfold formPoints
  repeat' first
    | with_reducible assumption
    | (first | intro x | (lift_lets -underBinder; intro x)
       first
       | (with_reducible refine (fun hx => ?_) (?_ : P x)
          on_goal 1 => clear_value x
          on_goal 2 => (unfold x; clear x))
       | (with_reducible refine (fun hfun => ?_) (?_ : ∀ a, P a → P (x a))
          on_goal 1 => clear_value x
          on_goal 2 => (unfold x; clear x))
       | (with_reducible refine (fun hfun => ?_) (?_ : ∀ a b, P b → P (x a b))
          on_goal 1 => clear_value x
          on_goal 2 => (unfold x; clear x))
       | (with_reducible refine (fun hfun => ?_) (?_ : ∀ a b c, P c → P (x a b c))
          on_goal 1 => clear_value x
          on_goal 2 => (unfold x; clear x))
       | (with_reducible refine (fun hfun => ?_) (?_ : ∀ a b c d, P d → P (x a b c d))
          on_goal 1 => clear_value x
          on_goal 2 => (unfold x; clear x))
       | (with_reducible refine (fun hx => ?_) (?_ : P x.2)
          on_goal 1 => clear_value x
          on_goal 2 => (unfold x; clear x))
       | (with_reducible refine (fun hfun => ?_) (?_ : ∀ a, P (x a))
          on_goal 1 => clear_value x
          on_goal 2 => (unfold x; clear x))
       | (with_reducible refine (fun hfun => ?_) (?_ : ∀ a b c, P (x a b c))
          on_goal 1 => clear_value x
          on_goal 2 => (unfold x; clear x))
       | clear_value x
       | skip)
    | with_reducible apply hfun
    | with_reducible apply ite_keep
    | split
    | with_reducible apply updDiag_keep (hP.mono (by decide))
    | with_reducible apply draw_keep (hP.mono (by decide))
    | with_reducible apply forL_keep

theorem diagOwn_keep {P : State → Prop} (hP : Keeps [.diags, .rings, .svc] P) (e : CmdEntry) (s : State) (hst : P s) :
    P (diagOwn e s) := by
  unfold diagOwn
  repeat' first
    | with_reducible assumption
    | (first | intro x | (lift_lets -underBinder; intro x)
       first
       | (with_reducible refine (fun hx => ?_) (?_ : P x)
          on_goal 1 => clear_value x
          on_goal 2 => (unfold x; clear x))
       | clear_value x
       | skip)
    | with_reducible apply setDiag_keep (hP.mono (by decide))
    | with_reducible apply acceptLater_keep (hP.mono (by decide))
    | with_reducible apply checked_keep (hP.mono (by decide))
    | with_reducible apply held_keep (hP.mono (by decide))

theorem execDiagRun_keep {P : State → Prop} (hP : Keeps [.dram, .diags, .rings, .svc] P) (e : CmdEntry) (s : State) (hst : P s) :
    AllNext P (execDiagRun e s) := by
  unfold execDiagRun
  repeat' first
    | with_reducible assumption
    | with_reducible apply next_keep
    | with_reducible apply commandRow_keep (hP.mono (by decide))
    | with_reducible apply diagOwn_keep (hP.mono (by decide))

theorem execDiagAbort_keep {P : State → Prop} (hP : Keeps [.dram, .diags, .rings, .svc] P) (e : CmdEntry) (s : State) (hst : P s) :
    AllNext P (execDiagAbort e s) := by
  unfold execDiagAbort
  repeat' first
    | with_reducible assumption
    | (first | intro x | (lift_lets -underBinder; intro x)
       first
       | (with_reducible refine (fun hx => ?_) (?_ : P x)
          on_goal 1 => clear_value x
          on_goal 2 => (unfold x; clear x))
       | clear_value x
       | skip)
    | with_reducible apply next_keep
    | with_reducible apply updDiag_keep (hP.mono (by decide))
    | with_reducible apply acceptLater_keep (hP.mono (by decide))
    | with_reducible apply commandRow_keep (hP.mono (by decide))
    | with_reducible apply checked_keep (hP.mono (by decide))

theorem execDiagEnrol_keep {P : State → Prop} (hP : Keeps [.dram, .rings, .svc, .nv] P) (e : CmdEntry) (s : State) (hst : P s) :
    AllNext P (execDiagEnrol e s) := by
  unfold execDiagEnrol
  repeat' first
    | with_reducible assumption
    | (first | intro x | (lift_lets -underBinder; intro x)
       first
       | (with_reducible refine (fun hx => ?_) (?_ : P x)
          on_goal 1 => clear_value x
          on_goal 2 => (unfold x; clear x))
       | clear_value x
       | skip)
    | with_reducible apply ite_keep
    | split
    | with_reducible apply next_keep
    | with_reducible apply commandRow_keep (hP.mono (by decide))
    | with_reducible apply acceptNow_keep (hP.mono (by decide))
    | with_reducible apply checked_keep (hP.mono (by decide))
    | with_reducible apply upd_nv (hP.mono (by decide))
    | with_reducible refine eq_keep (by assumption) ?_

theorem execDiagDel_keep {P : State → Prop} (hP : Keeps [.gens, .dram, .diags, .rings, .svc] P) (e : CmdEntry) (s : State) (hst : P s) :
    AllNext P (execDiagDel e s) := by
  unfold execDiagDel
  repeat' first
    | with_reducible assumption
    | (first | intro x | (lift_lets -underBinder; intro x)
       first
       | (with_reducible refine (fun hx => ?_) (?_ : P x)
          on_goal 1 => clear_value x
          on_goal 2 => (unfold x; clear x))
       | clear_value x
       | skip)
    | with_reducible apply next_keep
    | with_reducible apply setDiag_keep (hP.mono (by decide))
    | with_reducible apply advGen_keep (hP.mono (by decide))
    | with_reducible apply commandRow_keep (hP.mono (by decide))
    | with_reducible apply acceptNow_keep (hP.mono (by decide))
    | with_reducible apply checked_keep (hP.mono (by decide))

theorem diagStarts_keep {P : State → Prop} (hP : Keeps [.chans, .diags] P) (s : State) (hst : P s) :
    P (diagStarts s) := by
  unfold diagStarts
  repeat' first
    | with_reducible assumption
    | (first | intro x | (lift_lets -underBinder; intro x)
       first
       | (with_reducible refine (fun hx => ?_) (?_ : P x)
          on_goal 1 => clear_value x
          on_goal 2 => (unfold x; clear x))
       | clear_value x
       | skip)
    | with_reducible apply ite_keep
    | split
    | with_reducible apply updChan_keep (hP.mono (by decide))
    | with_reducible apply setDiag_keep (hP.mono (by decide))
    | with_reducible apply startPass_keep (hP.mono (by decide))
    | with_reducible apply each_keep

theorem execDiagPointEnd_keep {P : State → Prop} (hP : Keeps [.chans, .diags, .free] P) (d : Fin 256) (s : State) (hst : P s) :
    AllNext P (execDiagPointEnd d s) := by
  unfold execDiagPointEnd
  repeat' first
    | with_reducible assumption
    | (first | intro x | (lift_lets -underBinder; intro x)
       first
       | (with_reducible refine (fun hx => ?_) (?_ : P x)
          on_goal 1 => clear_value x
          on_goal 2 => (unfold x; clear x))
       | clear_value x
       | skip)
    | with_reducible apply ite_keep
    | split
    | with_reducible apply next_keep
    | with_reducible apply updDiag_keep (hP.mono (by decide))
    | with_reducible apply formPoints_keep (hP.mono (by decide))
    | with_reducible apply startPass_keep (hP.mono (by decide))

theorem diagFinish_keep {P : State → Prop} (hP : Keeps [.rings, .svc] P) (d : Nat) (s : State) (hst : P s) :
    P (diagFinish d s) := by
  unfold diagFinish
  repeat' first
    | with_reducible assumption
    | (first | intro x | (lift_lets -underBinder; intro x)
       first
       | (with_reducible refine (fun hx => ?_) (?_ : P x)
          on_goal 1 => clear_value x
          on_goal 2 => (unfold x; clear x))
       | clear_value x
       | skip)
    | with_reducible apply ite_keep
    | split
    | with_reducible apply finishObj_keep (hP.mono (by decide))

theorem execDiagRunEnd_keep {P : State → Prop} (hP : Keeps [.chans, .diags, .rings, .svc, .free] P) (d : Fin 256) (cause : Fin 6) (s : State) (hst : P s) :
    AllNext P (execDiagRunEnd d cause s) := by
  unfold execDiagRunEnd
  repeat' first
    | with_reducible assumption
    | (first | intro x | (lift_lets -underBinder; intro x)
       first
       | (with_reducible refine (fun hx => ?_) (?_ : P x)
          on_goal 1 => clear_value x
          on_goal 2 => (unfold x; clear x))
       | clear_value x
       | skip)
    | with_reducible apply ite_keep
    | split
    | with_reducible apply next_keep
    | with_reducible apply updChan_keep (hP.mono (by decide))
    | with_reducible apply updDiag_keep (hP.mono (by decide))
    | with_reducible apply formPoints_keep (hP.mono (by decide))
    | with_reducible apply diagFinish_keep (hP.mono (by decide))

theorem execDiagResultWrite_keep {P : State → Prop} (hP : Keeps [.dram, .diags, .rings, .svc, .free] P) (d : Fin 256) (s : State) (hst : P s) :
    AllNext P (execDiagResultWrite d s) := by
  unfold execDiagResultWrite
  repeat' first
    | with_reducible assumption
    | (first | intro x | (lift_lets -underBinder; intro x)
       first
       | (with_reducible refine (fun hx => ?_) (?_ : P x)
          on_goal 1 => clear_value x
          on_goal 2 => (unfold x; clear x))
       | (with_reducible refine (fun hfun => ?_) (?_ : ∀ a, P a → P (x a))
          on_goal 1 => clear_value x
          on_goal 2 => (unfold x; clear x))
       | (with_reducible refine (fun hfun => ?_) (?_ : ∀ a b, P b → P (x a b))
          on_goal 1 => clear_value x
          on_goal 2 => (unfold x; clear x))
       | (with_reducible refine (fun hfun => ?_) (?_ : ∀ a b c, P c → P (x a b c))
          on_goal 1 => clear_value x
          on_goal 2 => (unfold x; clear x))
       | (with_reducible refine (fun hfun => ?_) (?_ : ∀ a b c d, P d → P (x a b c d))
          on_goal 1 => clear_value x
          on_goal 2 => (unfold x; clear x))
       | (with_reducible refine (fun hx => ?_) (?_ : P x.2)
          on_goal 1 => clear_value x
          on_goal 2 => (unfold x; clear x))
       | (with_reducible refine (fun hfun => ?_) (?_ : ∀ a, P (x a))
          on_goal 1 => clear_value x
          on_goal 2 => (unfold x; clear x))
       | (with_reducible refine (fun hfun => ?_) (?_ : ∀ a b c, P (x a b c))
          on_goal 1 => clear_value x
          on_goal 2 => (unfold x; clear x))
       | clear_value x
       | skip)
    | with_reducible apply hfun
    | with_reducible apply ite_keep
    | split
    | with_reducible apply next_keep
    | with_reducible apply putDram_keep (hP.mono (by decide))
    | with_reducible apply setDiag_keep (hP.mono (by decide))
    | with_reducible apply draw_keep (hP.mono (by decide))
    | with_reducible apply diagFinish_keep (hP.mono (by decide))
    | with_reducible refine eq_keep (by assumption) ?_
    | with_reducible refine eq_keep2 (by assumption) ?_

-- Bist

theorem setCorePair_keep {P : State → Prop} (hP : Keeps [.cores] P) (u : Nat) (x : Pair) (s : State) (hst : P s) :
    P (setCorePair u x s) := by
  unfold setCorePair
  repeat' first
    | with_reducible assumption
    | with_reducible apply setCore_keep (hP.mono (by decide))

theorem engineTest_keep {P : State → Prop} (hP : Keeps [.health, .runs] P) (e : Nat) (s : State) (hst : P s) :
    P (engineTest e s) := by
  unfold engineTest
  repeat' first
    | with_reducible assumption
    | intro x
    | with_reducible apply updHlt_keep (hP.mono (by decide))
    | with_reducible apply setRun_keep (hP.mono (by decide))

theorem coverForTest_keep {P : State → Prop} (hP : Keeps [.regs, .mengs, .col, .host] P) (f : Nat) (s : State) (hst : P s) :
    P (coverForTest f s) := by
  unfold coverForTest
  repeat' first
    | with_reducible assumption
    | (first | intro x | (lift_lets -underBinder; intro x)
       first
       | (with_reducible refine (fun hx => ?_) (?_ : P x)
          on_goal 1 => clear_value x
          on_goal 2 => (unfold x; clear x))
       | clear_value x
       | skip)
    | with_reducible apply ite_keep
    | split
    | with_reducible apply updMEng_keep (hP.mono (by decide))
    | with_reducible apply bump_keep (hP.mono (by decide))
    | with_reducible apply meEvent_keep (hP.mono (by decide))

theorem bistStart_keep {P : State → Prop} (hP : Keeps [.regs, .chans, .terms, .health, .runs, .mengs, .fs, .cores, .bists, .col, .tal, .host] P) (c : Nat) (s : State) (hst : P s) :
    P (bistStart c s) := by
  unfold bistStart
  repeat' first
    | with_reducible assumption
    | (first | intro x | (lift_lets -underBinder; intro x)
       first
       | (with_reducible refine (fun hx => ?_) (?_ : P x)
          on_goal 1 => clear_value x
          on_goal 2 => (unfold x; clear x))
       | clear_value x
       | skip)
    | with_reducible apply ite_keep
    | split
    | exact ⟨fun h1 h2 => ⟨h1, h2⟩⟩
    | with_reducible apply updTerm_keep (hP.mono (by decide))
    | with_reducible apply setBist_keep (hP.mono (by decide))
    | with_reducible apply loseStandbys_keep (hP.mono (by decide))
    | with_reducible apply coverForTest_keep (hP.mono (by decide))
    | with_reducible apply setFs_keep (hP.mono (by decide))
    | with_reducible apply setCorePair_keep (hP.mono (by decide))
    | with_reducible apply engineTest_keep (hP.mono (by decide))
    | with_reducible apply movePen_keep (hP.mono (by decide))
    | with_reducible refine eq_keep (by assumption) ?_

theorem bistTake_keep {P : State → Prop} (hP : Keeps [.regs, .chans, .terms, .health, .runs, .mengs, .fs, .cores, .bists, .col, .tal, .host] P) (level : Nat) (kind : Nat) (u : Nat) (auto : Bool) (s : State) (hst : P s) :
    P (bistTake level kind u auto s) := by
  unfold bistTake
  repeat' first
    | with_reducible assumption
    | (first | intro x | (lift_lets -underBinder; intro x)
       first
       | (with_reducible refine (fun hx => ?_) (?_ : P x)
          on_goal 1 => clear_value x
          on_goal 2 => (unfold x; clear x))
       | clear_value x
       | skip)
    | with_reducible apply ite_keep
    | split
    | with_reducible apply updLease_keep (hP.mono (by decide))
    | with_reducible apply setBist_keep (hP.mono (by decide))
    | with_reducible apply bistStart_keep (hP.mono (by decide))
    | with_reducible apply each_keep

theorem bistOwn_keep {P : State → Prop} (hP : Keeps [.regs, .chans, .terms, .health, .runs, .mengs, .fs, .cores, .bists, .rings, .svc, .col, .tal, .host] P) (e : CmdEntry) (s : State) (hst : P s) :
    P (bistOwn e s) := by
  unfold bistOwn
  repeat' first
    | with_reducible assumption
    | (first | intro x | (lift_lets -underBinder; intro x)
       first
       | (with_reducible refine (fun hx => ?_) (?_ : P x)
          on_goal 1 => clear_value x
          on_goal 2 => (unfold x; clear x))
       | clear_value x
       | skip)
    | with_reducible apply acceptLater_keep (hP.mono (by decide))
    | with_reducible apply bistTake_keep (hP.mono (by decide))
    | with_reducible apply checked_keep (hP.mono (by decide))
    | with_reducible apply held_keep (hP.mono (by decide))

theorem execBistRun_keep {P : State → Prop} (hP : Keeps [.regs, .dram, .chans, .terms, .health, .runs, .mengs, .fs, .cores, .bists, .rings, .svc, .col, .tal, .host] P) (e : CmdEntry) (s : State) (hst : P s) :
    AllNext P (execBistRun e s) := by
  unfold execBistRun
  repeat' first
    | with_reducible assumption
    | with_reducible apply next_keep
    | with_reducible apply commandRow_keep (hP.mono (by decide))
    | with_reducible apply bistOwn_keep (hP.mono (by decide))

theorem execBistWorkMoved_keep {P : State → Prop} (hP : Keeps [.regs, .chans, .terms, .health, .runs, .mengs, .fs, .cores, .bists, .col, .tal, .host] P) (c : Fin 9) (s : State) (hst : P s) :
    AllNext P (execBistWorkMoved c s) := by
  unfold execBistWorkMoved
  repeat' first
    | with_reducible assumption
    | (first | intro x | (lift_lets -underBinder; intro x)
       first
       | (with_reducible refine (fun hx => ?_) (?_ : P x)
          on_goal 1 => clear_value x
          on_goal 2 => (unfold x; clear x))
       | clear_value x
       | skip)
    | with_reducible apply ite_keep
    | split
    | with_reducible apply next_keep
    | with_reducible apply bistStart_keep (hP.mono (by decide))

theorem execEngineAutoTestStart_keep {P : State → Prop} (hP : Keeps [.regs, .chans, .terms, .health, .runs, .mengs, .fs, .cores, .bists, .svc, .col, .tal, .host] P) (n : Fin 176) (s : State) (hst : P s) :
    AllNext P (execEngineAutoTestStart n s) := by
  unfold execEngineAutoTestStart
  repeat' first
    | with_reducible assumption
    | (first | intro x | (lift_lets -underBinder; intro x)
       first
       | (with_reducible refine (fun hx => ?_) (?_ : P x)
          on_goal 1 => clear_value x
          on_goal 2 => (unfold x; clear x))
       | clear_value x
       | skip)
    | with_reducible apply ite_keep
    | split
    | with_reducible apply next_keep
    | with_reducible apply updSvc_keep (hP.mono (by decide))
    | with_reducible apply bistTake_keep (hP.mono (by decide))
    | with_reducible refine eq_keep (by assumption) ?_

theorem noteTest_keep {P : State → Prop} (hP : Keeps [.health, .fs, .cores] P) (level : Nat) (u : Nat) (pass : Bool) (s : State) (hst : P s) :
    P (noteTest level u pass s) := by
  unfold noteTest
  repeat' first
    | with_reducible assumption
    | (first | intro x | (lift_lets -underBinder; intro x)
       first
       | (with_reducible refine (fun hx => ?_) (?_ : P x)
          on_goal 1 => clear_value x
          on_goal 2 => (unfold x; clear x))
       | clear_value x
       | skip)
    | with_reducible apply ite_keep
    | split
    | with_reducible apply updHlt_keep (hP.mono (by decide))
    | with_reducible apply setFs_keep (hP.mono (by decide))
    | with_reducible apply setCorePair_keep (hP.mono (by decide))
    | with_reducible refine eq_keep (by assumption) ?_

theorem unitReturns_keep {P : State → Prop} (hP : Keeps [.regs, .chans, .terms, .health, .sense, .fs, .cores, .svc, .tal, .host] P) (level : Nat) (u : Nat) (back : Nat) (s : State) (hst : P s) :
    P (unitReturns level u back s) := by
  unfold unitReturns
  repeat' first
    | with_reducible assumption
    | intro x
    | with_reducible apply ite_keep
    | split
    | exact ⟨fun h1 h2 => ⟨h1, h2⟩⟩
    | with_reducible apply updTerm_keep (hP.mono (by decide))
    | with_reducible apply startSettling_keep (hP.mono (by decide))
    | with_reducible apply updHlt_keep (hP.mono (by decide))
    | with_reducible apply rejoinOrWait_keep (hP.mono (by decide))
    | with_reducible apply setFs_keep (hP.mono (by decide))
    | with_reducible apply setCorePair_keep (hP.mono (by decide))
    | with_reducible apply movePen_keep (hP.mono (by decide))
    | with_reducible refine eq_keep (by assumption) ?_

theorem bistFailed_keep {P : State → Prop} (hP : Keeps [.col, .nv] P) (level : Nat) (u : Nat) (s : State) (hst : P s) :
    P (bistFailed level u s) := by
  unfold bistFailed
  repeat' first
    | with_reducible assumption
    | with_reducible apply queueRep_keep (hP.mono (by decide))
    | with_reducible apply upd_nv (hP.mono (by decide))

theorem retireUnit_keep {P : State → Prop} (hP : Keeps [.bists] P) (level : Nat) (u : Nat) (s : State) (hst : P s) :
    P (retireUnit level u s) := by
  unfold retireUnit
  repeat' first
    | with_reducible assumption
    | (first | intro x | (lift_lets -underBinder; intro x)
       first
       | (with_reducible refine (fun hx => ?_) (?_ : P x)
          on_goal 1 => clear_value x
          on_goal 2 => (unfold x; clear x))
       | clear_value x
       | skip)
    | with_reducible apply ite_keep
    | split
    | with_reducible apply setBist_keep (hP.mono (by decide))

theorem unitFails_keep {P : State → Prop} (hP : Keeps [.regs, .terms, .health, .runs, .fs, .cores, .bists, .col, .tal, .host, .nv] P) (level : Nat) (u : Nat) (s : State) (hst : P s) :
    P (unitFails level u s) := by
  unfold unitFails
  repeat' first
    | with_reducible assumption
    | intro x
    | with_reducible apply ite_keep
    | split
    | exact ⟨fun h1 h2 => ⟨h1, h2⟩⟩
    | with_reducible apply updTerm_keep (hP.mono (by decide))
    | with_reducible apply retireEngine_keep (hP.mono (by decide))
    | with_reducible apply setFs_keep (hP.mono (by decide))
    | with_reducible apply setCorePair_keep (hP.mono (by decide))
    | with_reducible apply bistFailed_keep (hP.mono (by decide))
    | with_reducible apply retireUnit_keep (hP.mono (by decide))
    | with_reducible apply movePen_keep (hP.mono (by decide))
    | with_reducible refine eq_keep (by assumption) ?_

theorem finishBist_keep {P : State → Prop} (hP : Keeps [.rings, .svc] P) (level : Nat) (u : Nat) (status : Nat) (result : W) (s : State) (hst : P s) :
    P (finishBist level u status result s) := by
  unfold finishBist
  repeat' first
    | with_reducible assumption
    | intro x
    | with_reducible apply finishWhere_keep (hP.mono (by decide))

theorem execBistVerdict_keep {P : State → Prop} (hP : Keeps [.regs, .chans, .terms, .health, .runs, .sense, .fs, .cores, .bists, .rings, .svc, .col, .tal, .host, .nv] P) (c : Fin 9) (sig : BitVec 64) (s : State) (hst : P s) :
    AllNext P (execBistVerdict c sig s) := by
  unfold execBistVerdict
  repeat' first
    | with_reducible assumption
    | (first | intro x | (lift_lets -underBinder; intro x)
       first
       | (with_reducible refine (fun hx => ?_) (?_ : P x)
          on_goal 1 => clear_value x
          on_goal 2 => (unfold x; clear x))
       | clear_value x
       | skip)
    | with_reducible apply ite_keep
    | split
    | with_reducible apply next_keep
    | with_reducible apply setBist_keep (hP.mono (by decide))
    | with_reducible apply unitReturns_keep (hP.mono (by decide))
    | with_reducible apply finishBist_keep (hP.mono (by decide))
    | with_reducible apply unitFails_keep (hP.mono (by decide))
    | with_reducible apply noteTest_keep (hP.mono (by decide))

theorem standbyBack_keep {P : State → Prop} (hP : Keeps [.chans] P) (e : Nat) (x : Nat × Lease) (s : State) (hst : P s) :
    P (standbyBack e x s) := by
  unfold standbyBack
  repeat' first
    | with_reducible assumption
    | (first | intro x | (lift_lets -underBinder; intro x)
       first
       | (with_reducible refine (fun hx => ?_) (?_ : P x)
          on_goal 1 => clear_value x
          on_goal 2 => (unfold x; clear x))
       | clear_value x
       | skip)
    | with_reducible apply ite_keep
    | split
    | with_reducible apply updLease_keep (hP.mono (by decide))

theorem loopEngBack_keep {P : State → Prop} (hP : Keeps [.chans, .health, .svc] P) (b : Bist) (s : State) (hst : P s) :
    P (loopEngBack b s) := by
  unfold loopEngBack
  repeat' first
    | with_reducible assumption
    | (first | intro x | (lift_lets -underBinder; intro x)
       first
       | (with_reducible refine (fun hx => ?_) (?_ : P x)
          on_goal 1 => clear_value x
          on_goal 2 => (unfold x; clear x))
       | clear_value x
       | skip)
    | with_reducible apply ite_keep
    | split
    | with_reducible apply updHlt_keep (hP.mono (by decide))
    | with_reducible apply standbyBack_keep (hP.mono (by decide))
    | with_reducible apply queueTest_keep (hP.mono (by decide))
    | with_reducible apply forL_keep

theorem modelEngBack_keep {P : State → Prop} (hP : Keeps [.regs, .health, .mengs, .svc, .col, .host] P) (b : Bist) (s : State) (hst : P s) :
    P (modelEngBack b s) := by
  unfold modelEngBack
  repeat' first
    | with_reducible assumption
    | (first | intro x | (lift_lets -underBinder; intro x)
       first
       | (with_reducible refine (fun hx => ?_) (?_ : P x)
          on_goal 1 => clear_value x
          on_goal 2 => (unfold x; clear x))
       | clear_value x
       | skip)
    | with_reducible apply ite_keep
    | split
    | with_reducible apply updMEng_keep (hP.mono (by decide))
    | with_reducible apply updHlt_keep (hP.mono (by decide))
    | with_reducible apply queueTest_keep (hP.mono (by decide))
    | with_reducible apply meEvent_keep (hP.mono (by decide))

theorem bistAbandon_keep {P : State → Prop} (hP : Keeps [.regs, .chans, .terms, .health, .mengs, .bists, .rings, .svc, .col, .tal, .host] P) (c : Nat) (s : State) (hst : P s) :
    P (bistAbandon c s) := by
  unfold bistAbandon
  repeat' first
    | with_reducible assumption
    | (first | intro x | (lift_lets -underBinder; intro x)
       first
       | (with_reducible refine (fun hx => ?_) (?_ : P x)
          on_goal 1 => clear_value x
          on_goal 2 => (unfold x; clear x))
       | clear_value x
       | skip)
    | with_reducible apply ite_keep
    | split
    | exact ⟨fun h1 h2 => ⟨h1, h2⟩⟩
    | with_reducible apply updLease_keep (hP.mono (by decide))
    | with_reducible apply updTerm_keep (hP.mono (by decide))
    | with_reducible apply setBist_keep (hP.mono (by decide))
    | with_reducible apply modelEngBack_keep (hP.mono (by decide))
    | with_reducible apply loopEngBack_keep (hP.mono (by decide))
    | with_reducible apply finishBist_keep (hP.mono (by decide))
    | with_reducible apply movePen_keep (hP.mono (by decide))
    | with_reducible apply each_keep
    | with_reducible refine eq_keep (by assumption) ?_

theorem deferredOwn_keep {P : State → Prop} (hP : Keeps [.regs, .wide, .ws, .dom, .ports, .bell, .chans, .terms, .gates, .images, .health, .runs, .mengs, .sense, .fs, .cores, .bists, .diags, .rings, .svc, .col, .tal, .sec, .host, .stn] P) (got : Option (BitVec 384)) (peerArmed : Bool) (now : Nat) (e : CmdEntry) (s : State) (hst : P s) :
    P (deferredOwn got peerArmed now e s) := by
  unfold deferredOwn
  repeat' first
    | with_reducible assumption
    | with_reducible apply ite_keep
    | split
    | with_reducible apply rescanOwn_keep (hP.mono (by decide))
    | with_reducible apply domainOwn_keep (hP.mono (by decide))
    | with_reducible apply fenceOwn_keep (hP.mono (by decide))
    | with_reducible apply diagOwn_keep (hP.mono (by decide))
    | with_reducible apply bistOwn_keep (hP.mono (by decide))
    | with_reducible refine eq_keep (by assumption) ?_

theorem silently_keep {P : State → Prop} (hP : Keeps [.rings, .svc] P) (e : CmdEntry) (f : State → State) (s : State) (hf : ∀ a0, P a0 → P (f a0)) (hst : P s) :
    P (silently e f s) := by
  unfold silently
  repeat' first
    | with_reducible assumption
    | (first | intro x | (lift_lets -underBinder; intro x)
       first
       | (with_reducible refine (fun hx => ?_) (?_ : P x)
          on_goal 1 => clear_value x
          on_goal 2 => (unfold x; clear x))
       | clear_value x
       | skip)
    | with_reducible apply ite_keep
    | split
    | with_reducible apply hf
    | with_reducible apply updRing_keep (hP.mono (by decide))
    | with_reducible apply updSvc_keep (hP.mono (by decide))

theorem runDeferred_keep {P : State → Prop} (hP : Keeps [.regs, .wide, .ws, .dram, .dom, .ports, .bell, .chans, .terms, .gates, .images, .health, .runs, .mengs, .sense, .fs, .cores, .bists, .diags, .rings, .svc, .col, .tal, .sec, .host, .stn] P) (got : Option (BitVec 384)) (peerArmed : Bool) (now : Nat) (d : Deferred) (s : State) (hst : P s) :
    P (runDeferred got peerArmed now d s) := by
  unfold runDeferred
  repeat' first
    | with_reducible assumption
    | (first | intro x | (lift_lets -underBinder; intro x)
       first
       | (with_reducible refine (fun hx => ?_) (?_ : P x)
          on_goal 1 => clear_value x
          on_goal 2 => (unfold x; clear x))
       | (with_reducible refine (fun hfun => ?_) (?_ : ∀ a, P a → P (x a))
          on_goal 1 => clear_value x
          on_goal 2 => (unfold x; clear x))
       | (with_reducible refine (fun hfun => ?_) (?_ : ∀ a b, P b → P (x a b))
          on_goal 1 => clear_value x
          on_goal 2 => (unfold x; clear x))
       | (with_reducible refine (fun hfun => ?_) (?_ : ∀ a b c, P c → P (x a b c))
          on_goal 1 => clear_value x
          on_goal 2 => (unfold x; clear x))
       | (with_reducible refine (fun hfun => ?_) (?_ : ∀ a b c d, P d → P (x a b c d))
          on_goal 1 => clear_value x
          on_goal 2 => (unfold x; clear x))
       | (with_reducible refine (fun hx => ?_) (?_ : P x.2)
          on_goal 1 => clear_value x
          on_goal 2 => (unfold x; clear x))
       | (with_reducible refine (fun hfun => ?_) (?_ : ∀ a, P (x a))
          on_goal 1 => clear_value x
          on_goal 2 => (unfold x; clear x))
       | (with_reducible refine (fun hfun => ?_) (?_ : ∀ a b c, P (x a b c))
          on_goal 1 => clear_value x
          on_goal 2 => (unfold x; clear x))
       | clear_value x
       | skip)
    | with_reducible apply hfun
    | with_reducible apply ite_keep
    | split
    | with_reducible apply rejoinEngine_keep (hP.mono (by decide))
    | with_reducible apply reselectNow_keep (hP.mono (by decide))
    | with_reducible apply revertCheck_keep (hP.mono (by decide))
    | with_reducible apply deferredOwn_keep (hP.mono (by decide))
    | with_reducible apply runCommand_keep (hP.mono (by decide))
    | with_reducible apply withBlock_keep (hP.mono (by decide))
    | with_reducible apply silently_keep (hP.mono (by decide))
    | with_reducible refine eq_keep (by assumption) ?_

theorem execDeferredActionRun_keep {P : State → Prop} (hP : Keeps [.regs, .wide, .ws, .dram, .dom, .ports, .bell, .chans, .terms, .gates, .images, .health, .runs, .mengs, .sense, .fs, .cores, .bists, .diags, .rings, .svc, .col, .tal, .sec, .host, .stn] P) (got : Option (BitVec 384)) (peerArmed : Bool) (now : Nat) (s : State) (hst : P s) :
    AllNext P (execDeferredActionRun got peerArmed now s) := by
  unfold execDeferredActionRun
  repeat' first
    | with_reducible assumption
    | intro x
    | with_reducible apply ite_keep
    | split
    | with_reducible apply next_keep
    | with_reducible apply updSvc_keep (hP.mono (by decide))
    | with_reducible apply runDeferred_keep (hP.mono (by decide))
    | with_reducible refine eq_keep (by assumption) ?_

theorem jtagBypass_keep {P : State → Prop} (hP : Keeps [.jtag] P) (code : BitVec 8) (s : State) (hst : P s) :
    P (jtagBypass code s) := by
  unfold jtagBypass
  repeat' first
    | with_reducible assumption
    | with_reducible apply upd_jtag (hP.mono (by decide))

theorem execJtagBypass_keep {P : State → Prop} (hP : Keeps [.jtag] P) (code : BitVec 8) (s : State) (hst : P s) :
    AllNext P (execJtagBypass code s) := by
  unfold execJtagBypass
  repeat' first
    | with_reducible assumption
    | with_reducible apply ite_keep
    | split
    | with_reducible apply next_keep
    | with_reducible apply jtagBypass_keep (hP.mono (by decide))

theorem execJtagIdcode_keep {P : State → Prop} (hP : Keeps [.jtag] P) (s : State) (hst : P s) :
    AllNext P (execJtagIdcode s) := by
  unfold execJtagIdcode
  repeat' first
    | with_reducible assumption
    | with_reducible apply ite_keep
    | split
    | with_reducible apply next_keep
    | with_reducible apply jtagBypass_keep (hP.mono (by decide))
    | with_reducible apply upd_jtag (hP.mono (by decide))

theorem execJtagSamplePreload_keep {P : State → Prop} (hP : Keeps [.jtag] P) (pins : List Bool) (shift : List Bool) (s : State) (hst : P s) :
    AllNext P (execJtagSamplePreload pins shift s) := by
  unfold execJtagSamplePreload
  repeat' first
    | with_reducible assumption
    | with_reducible apply ite_keep
    | split
    | with_reducible apply next_keep
    | with_reducible apply jtagBypass_keep (hP.mono (by decide))
    | with_reducible apply upd_jtag (hP.mono (by decide))

theorem execJtagExtest_keep {P : State → Prop} (hP : Keeps [.jtag] P) (pins : List Bool) (shift : Option (List Bool)) (s : State) (hst : P s) :
    AllNext P (execJtagExtest pins shift s) := by
  unfold execJtagExtest
  repeat' first
    | with_reducible assumption
    | (first | intro x | (lift_lets -underBinder; intro x)
       first
       | (with_reducible refine (fun hx => ?_) (?_ : P x)
          on_goal 1 => clear_value x
          on_goal 2 => (unfold x; clear x))
       | clear_value x
       | skip)
    | with_reducible apply ite_keep
    | split
    | with_reducible apply next_keep
    | with_reducible apply jtagBypass_keep (hP.mono (by decide))
    | with_reducible apply upd_jtag (hP.mono (by decide))

-- Captures

theorem execCapTrigger_keep {P : State → Prop} (hP : Keeps [.caps] P) (i : Fin 1024) (s : State) (hst : P s) :
    AllNext P (execCapTrigger i s) := by
  unfold execCapTrigger
  repeat' first
    | with_reducible assumption
    | (first | intro x | (lift_lets -underBinder; intro x)
       first
       | (with_reducible refine (fun hx => ?_) (?_ : P x)
          on_goal 1 => clear_value x
          on_goal 2 => (unfold x; clear x))
       | clear_value x
       | skip)
    | with_reducible apply ite_keep
    | split
    | with_reducible apply next_keep
    | with_reducible apply setCap_keep (hP.mono (by decide))
    | with_reducible refine eq_keep (by assumption) ?_

theorem execCapEntryRecord_keep {P : State → Prop} (hP : Keeps [.regs, .caps, .col] P) (i : Fin 1024) (fails : BitVec 4) (s : State) (hst : P s) :
    AllNext P (execCapEntryRecord i fails s) := by
  unfold execCapEntryRecord
  repeat' first
    | with_reducible assumption
    | (first | intro x | (lift_lets -underBinder; intro x)
       first
       | (with_reducible refine (fun hx => ?_) (?_ : P x)
          on_goal 1 => clear_value x
          on_goal 2 => (unfold x; clear x))
       | clear_value x
       | skip)
    | with_reducible apply ite_keep
    | split
    | with_reducible apply next_keep
    | with_reducible apply setCap_keep (hP.mono (by decide))
    | with_reducible apply addReg_keep (hP.mono (by decide))
    | with_reducible apply queueRep_keep (hP.mono (by decide))

theorem execCapEntryCommit_keep {P : State → Prop} (hP : Keeps [.dram, .caps, .rings, .svc] P) (i : Fin 1024) (s : State) (hst : P s) :
    AllNext P (execCapEntryCommit i s) := by
  unfold execCapEntryCommit
  repeat' first
    | with_reducible assumption
    | (first | intro x | (lift_lets -underBinder; intro x)
       first
       | (with_reducible refine (fun hx => ?_) (?_ : P x)
          on_goal 1 => clear_value x
          on_goal 2 => (unfold x; clear x))
       | clear_value x
       | skip)
    | with_reducible apply ite_keep
    | split
    | with_reducible apply next_keep
    | with_reducible apply putDram_keep (hP.mono (by decide))
    | with_reducible apply setCap_keep (hP.mono (by decide))
    | with_reducible apply finishObj_keep (hP.mono (by decide))
    | with_reducible refine eq_keep (by assumption) ?_

theorem execCapDone_keep {P : State → Prop} (hP : Keeps [.caps] P) (i : Fin 1024) (s : State) (hst : P s) :
    AllNext P (execCapDone i s) := by
  unfold execCapDone
  repeat' first
    | with_reducible assumption
    | (first | intro x | (lift_lets -underBinder; intro x)
       first
       | (with_reducible refine (fun hx => ?_) (?_ : P x)
          on_goal 1 => clear_value x
          on_goal 2 => (unfold x; clear x))
       | clear_value x
       | skip)
    | with_reducible apply ite_keep
    | split
    | with_reducible apply next_keep
    | with_reducible apply setCap_keep (hP.mono (by decide))

theorem execInjEnd_keep {P : State → Prop} (hP : Keeps [.injs] P) (i : Fin 512) (s : State) (hst : P s) :
    AllNext P (execInjEnd i s) := by
  unfold execInjEnd
  repeat' first
    | with_reducible assumption
    | (first | intro x | (lift_lets -underBinder; intro x)
       first
       | (with_reducible refine (fun hx => ?_) (?_ : P x)
          on_goal 1 => clear_value x
          on_goal 2 => (unfold x; clear x))
       | clear_value x
       | skip)
    | with_reducible apply ite_keep
    | split
    | with_reducible apply next_keep
    | with_reducible apply setInj_keep (hP.mono (by decide))

theorem execInjChunkFetch_keep {P : State → Prop} (hP : Keeps [.injs, .svc] P) (i : Fin 512) (s : State) (hst : P s) :
    AllNext P (execInjChunkFetch i s) := by
  unfold execInjChunkFetch
  repeat' first
    | with_reducible assumption
    | (first | intro x | (lift_lets -underBinder; intro x)
       first
       | (with_reducible refine (fun hx => ?_) (?_ : P x)
          on_goal 1 => clear_value x
          on_goal 2 => (unfold x; clear x))
       | clear_value x
       | skip)
    | with_reducible apply ite_keep
    | split
    | with_reducible apply next_keep
    | with_reducible apply setInj_keep (hP.mono (by decide))
    | with_reducible apply held_keep (hP.mono (by decide))
    | with_reducible refine eq_keep (by assumption) ?_

-- Startup

theorem cutPens_keep {P : State → Prop} (hP : Keeps [.regs, .tal, .host] P) (s : State) (hst : P s) :
    P (cutPens s) := by
  unfold cutPens
  repeat' first
    | with_reducible assumption
    | (first | intro x | (lift_lets -underBinder; intro x)
       first
       | (with_reducible refine (fun hx => ?_) (?_ : P x)
          on_goal 1 => clear_value x
          on_goal 2 => (unfold x; clear x))
       | clear_value x
       | skip)
    | with_reducible apply ite_keep
    | split
    | with_reducible apply movePen_keep (hP.mono (by decide))
    | with_reducible apply each_keep

theorem execAuxSupplyRise_keep {P : State → Prop} (hP : Keeps [.regs, .wide, .hiLatch, .gens, .ws, .dram, .dom, .boot, .amb, .ports, .outs, .bell, .chans, .terms, .folds, .binds, .gates, .timers, .trips, .motors, .caps, .injs, .images, .health, .runs, .mengs, .sense, .fs, .cores, .bists, .jtag, .diags, .rings, .svc, .col, .tal, .sec, .attest, .host, .stn, .nv, .free] P) (head : Bool) (s : State) (hst : P s) :
    AllNext P (execAuxSupplyRise head s) := by
  unfold execAuxSupplyRise
  repeat' first
    | with_reducible assumption
    | (first | intro x | (lift_lets -underBinder; intro x)
       first
       | (with_reducible refine (fun hx => ?_) (?_ : P x)
          on_goal 1 => clear_value x
          on_goal 2 => (unfold x; clear x))
       | clear_value x
       | skip)
    | with_reducible apply ite_keep
    | split
    | with_reducible apply next_keep
    | with_reducible apply clearRegs_keep (hP.mono (by decide))
    | with_reducible apply setField_keep (hP.mono (by decide))
    | with_reducible apply updBoot_keep (hP.mono (by decide))
    | with_reducible apply calEvent_keep (hP.mono (by decide))
    | with_reducible apply powerUp_keep (hP.mono (by decide))
    | with_reducible apply signal_keep (hP.mono (by decide))
    | with_reducible apply upd_hiLatch (hP.mono (by decide))

theorem execAlwaysOnReady_keep {P : State → Prop} (hP : Keeps [.boot] P) (s : State) (hst : P s) :
    AllNext P (execAlwaysOnReady s) := by
  unfold execAlwaysOnReady
  repeat' first
    | with_reducible assumption
    | intro x
    | with_reducible apply ite_keep
    | split
    | with_reducible apply next_keep
    | with_reducible apply updBoot_keep (hP.mono (by decide))

theorem execSecurityBootDone_keep {P : State → Prop} (hP : Keeps [.regs, .boot, .ports, .col, .sec, .host] P) (fwOk : Bool) (fw : W) (s : State) (hst : P s) :
    AllNext P (execSecurityBootDone fwOk fw s) := by
  unfold execSecurityBootDone
  repeat' first
    | with_reducible assumption
    | (first | intro x | (lift_lets -underBinder; intro x)
       first
       | (with_reducible refine (fun hx => ?_) (?_ : P x)
          on_goal 1 => clear_value x
          on_goal 2 => (unfold x; clear x))
       | clear_value x
       | skip)
    | with_reducible apply ite_keep
    | split
    | exact FuseLe.same rfl rfl rfl
    | exact fun _ => FuseLe.same rfl rfl rfl
    | exact FuseLe.count rfl (Nat.le_succ _) rfl
    | with_reducible apply next_keep
    | with_reducible apply updBoot_keep (hP.mono (by decide))
    | with_reducible apply setReg_keep (hP.mono (by decide))
    | with_reducible apply updSec_keep (hP.mono (by decide))
    | with_reducible apply installFence_keep (hP.mono (by decide))
    | with_reducible apply secEvent_keep (hP.mono (by decide))
    | with_reducible refine eq_keep (by assumption) ?_

theorem execCoresStarted_keep {P : State → Prop} (hP : Keeps [.boot] P) (s : State) (hst : P s) :
    AllNext P (execCoresStarted s) := by
  unfold execCoresStarted
  repeat' first
    | with_reducible assumption
    | intro x
    | with_reducible apply ite_keep
    | split
    | with_reducible apply next_keep
    | with_reducible apply updBoot_keep (hP.mono (by decide))

theorem execFoldSlotStart_keep {P : State → Prop} (hP : Keeps [.regs, .ws, .dom, .ports, .chans, .gates, .images, .mengs, .sense] P) (k : Fin 8) (s : State) (hst : P s) :
    AllNext P (execFoldSlotStart k s) := by
  unfold execFoldSlotStart
  repeat' first
    | with_reducible assumption
    | intro x
    | with_reducible apply ite_keep
    | split
    | with_reducible apply next_keep
    | with_reducible apply domainOn_keep (hP.mono (by decide))
    | with_reducible apply each_keep

theorem execFoldSlotEnd_keep {P : State → Prop} (hP : Keeps [.regs, .wide, .boot, .chans, .terms, .folds, .gates, .motors, .rings, .svc, .col, .tal, .host] P) (k : Fin 8) (low : Bool) (now : Nat) (s : State) (hst : P s) :
    AllNext P (execFoldSlotEnd k low now s) := by
  unfold execFoldSlotEnd
  repeat' first
    | with_reducible assumption
    | (first | intro x | (lift_lets -underBinder; intro x)
       first
       | (with_reducible refine (fun hx => ?_) (?_ : P x)
          on_goal 1 => clear_value x
          on_goal 2 => (unfold x; clear x))
       | clear_value x
       | skip)
    | with_reducible apply ite_keep
    | split
    | with_reducible apply next_keep
    | with_reducible apply updBoot_keep (hP.mono (by decide))
    | with_reducible apply foldLevel_keep (hP.mono (by decide))

theorem quickFs_keep {P : State → Prop} (hP : Keeps [.regs, .wide, .chans, .terms, .folds, .gates, .motors, .caps, .injs, .fs, .rings, .svc, .col, .tal, .host] P) (k : Nat) (s : State) (hst : P s) :
    P (quickFs k s) := by
  unfold quickFs
  repeat' first
    | with_reducible assumption
    | (first | intro x | (lift_lets -underBinder; intro x)
       first
       | (with_reducible refine (fun hx => ?_) (?_ : P x)
          on_goal 1 => clear_value x
          on_goal 2 => (unfold x; clear x))
       | clear_value x
       | skip)
    | with_reducible apply ite_keep
    | split
    | with_reducible apply setFs_keep (hP.mono (by decide))
    | with_reducible apply stopReport_keep (hP.mono (by decide))

theorem quickCore_keep {P : State → Prop} (hP : Keeps [.regs, .wide, .chans, .terms, .folds, .gates, .motors, .caps, .injs, .cores, .rings, .svc, .col, .tal, .host] P) (u : Nat) (s : State) (hst : P s) :
    P (quickCore u s) := by
  unfold quickCore
  repeat' first
    | with_reducible assumption
    | (first | intro x | (lift_lets -underBinder; intro x)
       first
       | (with_reducible refine (fun hx => ?_) (?_ : P x)
          on_goal 1 => clear_value x
          on_goal 2 => (unfold x; clear x))
       | clear_value x
       | skip)
    | with_reducible apply ite_keep
    | split
    | with_reducible apply setCore_keep (hP.mono (by decide))
    | with_reducible apply setCorePair_keep (hP.mono (by decide))
    | with_reducible apply stopReport_keep (hP.mono (by decide))

theorem quickFail_keep {P : State → Prop} (hP : Keeps [.regs, .wide, .boot, .chans, .terms, .folds, .gates, .motors, .caps, .injs, .health, .runs, .fs, .cores, .bists, .rings, .svc, .col, .tal, .host, .nv] P) (level : Nat) (u : Nat) (s : State) (hst : P s) :
    P (quickFail level u s) := by
  unfold quickFail
  repeat' first
    | with_reducible assumption
    | (first | intro x | (lift_lets -underBinder; intro x)
       first
       | (with_reducible refine (fun hx => ?_) (?_ : P x)
          on_goal 1 => clear_value x
          on_goal 2 => (unfold x; clear x))
       | clear_value x
       | skip)
    | with_reducible apply ite_keep
    | split
    | with_reducible apply updBoot_keep (hP.mono (by decide))
    | with_reducible apply retireEngine_keep (hP.mono (by decide))
    | with_reducible apply bistFailed_keep (hP.mono (by decide))
    | with_reducible apply retireUnit_keep (hP.mono (by decide))
    | with_reducible apply quickCore_keep (hP.mono (by decide))
    | with_reducible apply noteTest_keep (hP.mono (by decide))
    | with_reducible apply quickFs_keep (hP.mono (by decide))
    | with_reducible refine eq_keep (by assumption) ?_

theorem quickPens_keep {P : State → Prop} (hP : Keeps [.regs, .terms, .col, .tal, .host] P) (t : Nat) (s : State) (hst : P s) :
    P (quickPens t s) := by
  unfold quickPens
  repeat' first
    | with_reducible assumption
    | (first | intro x | (lift_lets -underBinder; intro x)
       first
       | (with_reducible refine (fun hx => ?_) (?_ : P x)
          on_goal 1 => clear_value x
          on_goal 2 => (unfold x; clear x))
       | clear_value x
       | skip)
    | with_reducible apply ite_keep
    | split
    | exact ⟨fun h1 h2 => ⟨h1, h2⟩⟩
    | with_reducible apply updTerm_keep (hP.mono (by decide))
    | with_reducible apply nsegRecompute_keep (hP.mono (by decide))
    | with_reducible apply substAll_keep (hP.mono (by decide))
    | with_reducible apply movePen_keep (hP.mono (by decide))
    | with_reducible apply each_keep

theorem execQuickBistDone_keep {P : State → Prop} (hP : Keeps [.regs, .wide, .boot, .chans, .terms, .folds, .gates, .motors, .caps, .injs, .health, .runs, .fs, .cores, .bists, .rings, .svc, .col, .tal, .host, .nv] P) (fails : List (Fin 8 × Fin 131072)) (segs : List (Fin 512 × Fin 16 × Fin 16)) (s : State) (hst : P s) :
    AllNext P (execQuickBistDone fails segs s) := by
  unfold execQuickBistDone
  repeat' first
    | with_reducible assumption
    | (first | intro x | (lift_lets -underBinder; intro x)
       first
       | (with_reducible refine (fun hx => ?_) (?_ : P x)
          on_goal 1 => clear_value x
          on_goal 2 => (unfold x; clear x))
       | clear_value x
       | skip)
    | with_reducible apply ite_keep
    | split
    | with_reducible apply next_keep
    | with_reducible apply updBoot_keep (hP.mono (by decide))
    | with_reducible apply isolateAll_keep (hP.mono (by decide))
    | with_reducible apply bistFailed_keep (hP.mono (by decide))
    | with_reducible apply quickFail_keep (hP.mono (by decide))
    | with_reducible apply quickPens_keep (hP.mono (by decide))
    | with_reducible apply noteTest_keep (hP.mono (by decide))
    | with_reducible apply each_keep
    | with_reducible apply forL_keep

theorem execFrameClockPhased_keep {P : State → Prop} (hP : Keeps [.regs, .ws, .dom, .boot, .ports, .chans, .gates, .images, .mengs, .sense, .stn] P) (s : State) (hst : P s) :
    AllNext P (execFrameClockPhased s) := by
  unfold execFrameClockPhased
  repeat' first
    | with_reducible assumption
    | (first | intro x | (lift_lets -underBinder; intro x)
       first
       | (with_reducible refine (fun hx => ?_) (?_ : P x)
          on_goal 1 => clear_value x
          on_goal 2 => (unfold x; clear x))
       | clear_value x
       | skip)
    | with_reducible apply ite_keep
    | split
    | with_reducible apply next_keep
    | with_reducible apply startDiscovery_keep (hP.mono (by decide))
    | with_reducible apply updBoot_keep (hP.mono (by decide))
    | with_reducible apply domainOn_keep (hP.mono (by decide))
    | with_reducible apply each_keep

theorem cutBurns_keep {P : State → Prop} (hP : Keeps [.sec, .free] P) (s : State) (hst : P s) : P (cutBurns s) := by
  unfold cutBurns
  refine forL_keep _ _ (fun b s h => ?_) (updSec_keep (hP.mono (by decide)) _ (fun _ => FuseLe.same rfl rfl rfl) hst)
  exact burn_keep (hP.mono (by decide)) _ (FuseLe.raise b.slot _ (Nat.le_add_right _ _) rfl rfl rfl) (draw_keep (hP.mono (by decide)) h)

theorem allOff_keep {P : State → Prop} (hP : Keeps [.regs, .wide, .terms, .gates, .tal, .host] P) (now : Nat) (s : State) (hst : P s) :
    P (allOff now s) := by
  unfold allOff
  repeat' first
    | with_reducible assumption
    | (first | intro x | (lift_lets -underBinder; intro x)
       first
       | (with_reducible refine (fun hx => ?_) (?_ : P x)
          on_goal 1 => clear_value x
          on_goal 2 => (unfold x; clear x))
       | clear_value x
       | skip)
    | with_reducible apply enterSafe_keep (hP.mono (by decide))
    | with_reducible apply setDrive_keep (hP.mono (by decide))
    | with_reducible apply gateLow_keep (hP.mono (by decide))
    | with_reducible apply each_keep

theorem powerDown_keep {P : State → Prop} (hP : Keeps [.regs, .wide, .dom, .boot, .terms, .gates, .tal, .sec, .host, .free] P) (now : Nat) (s : State) (hst : P s) :
    P (powerDown now s) := by
  unfold powerDown
  repeat' first
    | with_reducible assumption
    | (first | intro x | (lift_lets -underBinder; intro x)
       first
       | (with_reducible refine (fun hx => ?_) (?_ : P x)
          on_goal 1 => clear_value x
          on_goal 2 => (unfold x; clear x))
       | clear_value x
       | skip)
    | with_reducible apply ite_keep
    | split
    | with_reducible apply updBoot_keep (hP.mono (by decide))
    | with_reducible apply cutBurns_keep (hP.mono (by decide))
    | with_reducible apply allOff_keep (hP.mono (by decide))
    | with_reducible apply upd_dom (hP.mono (by decide))

theorem execAuxSupplyFail_keep {P : State → Prop} (hP : Keeps [.regs, .wide, .dom, .boot, .terms, .gates, .tal, .sec, .host, .free] P) (now : Nat) (s : State) (hst : P s) :
    AllNext P (execAuxSupplyFail now s) := by
  unfold execAuxSupplyFail
  repeat' first
    | with_reducible assumption
    | with_reducible apply next_keep
    | with_reducible apply powerDown_keep (hP.mono (by decide))

theorem execDomainPowerLoss_keep {P : State → Prop} (hP : Keeps [.regs, .wide, .ws, .dom, .boot, .ports, .bell, .chans, .terms, .folds, .gates, .motors, .caps, .injs, .images, .health, .runs, .mengs, .bists, .rings, .svc, .col, .tal, .sec, .host, .stn, .free] P) (d : Fin 48) (now : Nat) (s : State) (hst : P s) :
    AllNext P (execDomainPowerLoss d now s) := by
  unfold execDomainPowerLoss
  repeat' first
    | with_reducible assumption
    | (first | intro x | (lift_lets -underBinder; intro x)
       first
       | (with_reducible refine (fun hx => ?_) (?_ : P x)
          on_goal 1 => clear_value x
          on_goal 2 => (unfold x; clear x))
       | clear_value x
       | skip)
    | with_reducible apply ite_keep
    | split
    | with_reducible apply next_keep
    | with_reducible apply updBoot_keep (hP.mono (by decide))
    | with_reducible apply flockReaction_keep (hP.mono (by decide))
    | with_reducible apply updCol_keep (hP.mono (by decide))
    | with_reducible apply setDom_keep (hP.mono (by decide))
    | with_reducible apply bistAbandon_keep (hP.mono (by decide))
    | with_reducible apply reportNow_keep (hP.mono (by decide))
    | with_reducible apply domainOff_keep (hP.mono (by decide))
    | with_reducible apply powerDown_keep (hP.mono (by decide))
    | with_reducible apply each_keep
    | with_reducible refine eq_keep (by assumption) ?_

theorem execClockReserveTakeover_keep {P : State → Prop} (hP : Keeps [.col] P) (s : State) (hst : P s) :
    AllNext P (execClockReserveTakeover s) := by
  unfold execClockReserveTakeover
  repeat' first
    | with_reducible assumption
    | with_reducible apply next_keep
    | with_reducible apply raiseOwn_keep (hP.mono (by decide))
    | with_reducible apply holdLive_keep (hP.mono (by decide))

theorem execClockLossModuleStop_keep {P : State → Prop} (hP : Keeps [.regs, .wide, .bell, .chans, .terms, .folds, .gates, .motors, .caps, .injs, .rings, .svc, .col, .tal, .host] P) (clock : Fin 3) (now : Nat) (s : State) (hst : P s) :
    AllNext P (execClockLossModuleStop clock now s) := by
  unfold execClockLossModuleStop
  repeat' first
    | with_reducible assumption
    | (first | intro x | (lift_lets -underBinder; intro x)
       first
       | (with_reducible refine (fun hx => ?_) (?_ : P x)
          on_goal 1 => clear_value x
          on_goal 2 => (unfold x; clear x))
       | clear_value x
       | skip)
    | with_reducible apply ite_keep
    | split
    | with_reducible apply next_keep
    | with_reducible apply updBell_keep (hP.mono (by decide))
    | with_reducible apply reportNow_keep (hP.mono (by decide))

-- Frames

theorem slipEvt_keep {P : State → Prop} (hP : Keeps [.regs, .col, .host] P) (s : State) (hst : P s) :
    P (slipEvt s) := by
  unfold slipEvt
  repeat' first
    | with_reducible assumption
    | with_reducible apply raise_keep (hP.mono (by decide))

theorem takeFrame_keep {P : State → Prop} (hP : Keeps [.regs, .wide, .ports, .svc, .col, .host] P) (n : Nat) (s : State) (hst : P s) :
    P (takeFrame n s).1 := by
  unfold takeFrame
  repeat' first
    | with_reducible assumption
    | (first | intro x | (lift_lets -underBinder; intro x)
       first
       | (with_reducible refine (fun hx => ?_) (?_ : P x)
          on_goal 1 => clear_value x
          on_goal 2 => (unfold x; clear x))
       | clear_value x
       | skip)
    | with_reducible apply ite_keep
    | split
    | with_reducible apply addWide_keep (hP.mono (by decide))
    | with_reducible apply setPort_keep (hP.mono (by decide))
    | with_reducible apply bump_keep (hP.mono (by decide))
    | with_reducible apply slipEvt_keep (hP.mono (by decide))
    | with_reducible apply held_keep (hP.mono (by decide))
    | with_reducible refine eq_keep (by assumption) ?_
    | dsimp only

theorem eventsOf_keep {P : State → Prop} (hP : Keeps [.regs, .gates, .injs, .col, .host] P) (n : Nat) (l : List QSample) (s : State) (hst : P s) :
    P (eventsOf n l s) := by
  unfold eventsOf
  repeat' first
    | with_reducible assumption
    | intro x
    | with_reducible apply gateBits_keep (hP.mono (by decide))
    | with_reducible apply forL_keep

theorem sampleFate_keep {P : State → Prop} (hP : Keeps [.wide] P) (n : Nat) (fails : List (Fin 16 × Fin 32)) (q : QSample) (s : State) (hst : P s) :
    P (sampleFate n fails q s) := by
  unfold sampleFate
  repeat' first
    | with_reducible assumption
    | (first | intro x | (lift_lets -underBinder; intro x)
       first
       | (with_reducible refine (fun hx => ?_) (?_ : P x)
          on_goal 1 => clear_value x
          on_goal 2 => (unfold x; clear x))
       | clear_value x
       | skip)
    | with_reducible apply ite_keep
    | split
    | with_reducible apply addWide_keep (hP.mono (by decide))

theorem nearEdge_keep {P : State → Prop} (hP : Keeps [.regs, .col, .host] P) (n : Nat) (s : State) (hst : P s) :
    P (nearEdge n s) := by
  unfold nearEdge
  repeat' first
    | with_reducible assumption
    | (first | intro x | (lift_lets -underBinder; intro x)
       first
       | (with_reducible refine (fun hx => ?_) (?_ : P x)
          on_goal 1 => clear_value x
          on_goal 2 => (unfold x; clear x))
       | clear_value x
       | skip)
    | with_reducible apply ite_keep
    | split
    | with_reducible apply raiseOnce_keep (hP.mono (by decide))
    | with_reducible apply holdLive_keep (hP.mono (by decide))
    | with_reducible apply condEnd_keep (hP.mono (by decide))

theorem portBoundary_keep {P : State → Prop} (hP : Keeps [.regs, .wide, .ports, .gates, .injs, .svc, .col, .tal, .host] P) (fails : List (Fin 16 × Fin 32)) (n : Nat) (s : State) (hst : P s) :
    P (portBoundary fails n s) := by
  unfold portBoundary
  repeat' first
    | with_reducible assumption
    | (first | intro x | (lift_lets -underBinder; intro x)
       first
       | (with_reducible refine (fun hx => ?_) (?_ : P x)
          on_goal 1 => clear_value x
          on_goal 2 => (unfold x; clear x))
       | clear_value x
       | skip)
    | with_reducible apply ite_keep
    | split
    | with_reducible apply setPort_keep (hP.mono (by decide))
    | with_reducible apply updPort_keep (hP.mono (by decide))
    | with_reducible apply setReg_keep (hP.mono (by decide))
    | with_reducible apply sampleFate_keep (hP.mono (by decide))
    | with_reducible apply takeFrame_keep (hP.mono (by decide))
    | with_reducible apply talCheck_keep (hP.mono (by decide))
    | with_reducible apply eventsOf_keep (hP.mono (by decide))
    | with_reducible apply nearEdge_keep (hP.mono (by decide))
    | with_reducible apply liveEnd_keep (hP.mono (by decide))
    | with_reducible apply forL_keep
    | with_reducible apply held_keep (hP.mono (by decide))
    | with_reducible refine eq_keep (by assumption) ?_

theorem injStep_keep {P : State → Prop} (hP : Keeps [.regs, .injs, .rings, .svc, .col, .host, .free] P) (i : Nat) (s : State) (hst : P s) :
    P (injStep i s).1 := by
  unfold injStep
  repeat' first
    | with_reducible assumption
    | (first | intro x | (lift_lets -underBinder; intro x)
       first
       | (with_reducible refine (fun hx => ?_) (?_ : P x)
          on_goal 1 => clear_value x
          on_goal 2 => (unfold x; clear x))
       | (with_reducible refine (fun hfun => ?_) (?_ : ∀ a, P a → P (x a))
          on_goal 1 => clear_value x
          on_goal 2 => (unfold x; clear x))
       | (with_reducible refine (fun hfun => ?_) (?_ : ∀ a b, P b → P (x a b))
          on_goal 1 => clear_value x
          on_goal 2 => (unfold x; clear x))
       | (with_reducible refine (fun hfun => ?_) (?_ : ∀ a b c, P c → P (x a b c))
          on_goal 1 => clear_value x
          on_goal 2 => (unfold x; clear x))
       | (with_reducible refine (fun hfun => ?_) (?_ : ∀ a b c d, P d → P (x a b c d))
          on_goal 1 => clear_value x
          on_goal 2 => (unfold x; clear x))
       | (with_reducible refine (fun hx => ?_) (?_ : P x.2)
          on_goal 1 => clear_value x
          on_goal 2 => (unfold x; clear x))
       | (with_reducible refine (fun hfun => ?_) (?_ : ∀ a, P (x a))
          on_goal 1 => clear_value x
          on_goal 2 => (unfold x; clear x))
       | (with_reducible refine (fun hfun => ?_) (?_ : ∀ a b c, P (x a b c))
          on_goal 1 => clear_value x
          on_goal 2 => (unfold x; clear x))
       | clear_value x
       | skip)
    | with_reducible apply hfun
    | with_reducible apply ite_keep
    | split
    | with_reducible apply setInj_keep (hP.mono (by decide))
    | with_reducible apply draw_keep (hP.mono (by decide))
    | with_reducible apply bump_keep (hP.mono (by decide))
    | with_reducible apply finishObj_keep (hP.mono (by decide))
    | with_reducible apply raise_keep (hP.mono (by decide))
    | with_reducible refine eq_keep (by assumption) ?_
    | with_reducible refine eq_keep2 (by assumption) ?_
    | dsimp only

theorem inputWord_keep {P : State → Prop} (hP : Keeps [.regs, .injs, .rings, .svc, .col, .host, .free] P) (fails : List (Fin 16 × Fin 32)) (ch : Nat) (w : Nat) (old : Bank) (s : State) (hst : P s) :
    P (inputWord fails ch w old s).1 := by
  unfold inputWord
  repeat' first
    | with_reducible assumption
    | (first | intro x | (lift_lets -underBinder; intro x)
       first
       | (with_reducible refine (fun hx => ?_) (?_ : P x)
          on_goal 1 => clear_value x
          on_goal 2 => (unfold x; clear x))
       | clear_value x
       | skip)
    | with_reducible apply ite_keep
    | split
    | with_reducible apply bump_keep (hP.mono (by decide))
    | with_reducible apply injStep_keep (hP.mono (by decide))
    | with_reducible apply raise_keep (hP.mono (by decide))
    | with_reducible refine eq_keep (by assumption) ?_
    | dsimp only

theorem writeBank_keep {P : State → Prop} (hP : Keeps [.regs, .chans, .injs, .rings, .svc, .col, .host, .free] P) (fails : List (Fin 16 × Fin 32)) (ch : Nat) (s : State) (hst : P s) :
    P (writeBank fails ch s) := by
  unfold writeBank
  repeat' first
    | with_reducible assumption
    | (first | intro x | (lift_lets -underBinder; intro x)
       first
       | (with_reducible refine (fun hx => ?_) (?_ : P x)
          on_goal 1 => clear_value x
          on_goal 2 => (unfold x; clear x))
       | (with_reducible refine (fun hfun => ?_) (?_ : ∀ a, P a → P (x a))
          on_goal 1 => clear_value x
          on_goal 2 => (unfold x; clear x))
       | (with_reducible refine (fun hfun => ?_) (?_ : ∀ a b, P b → P (x a b))
          on_goal 1 => clear_value x
          on_goal 2 => (unfold x; clear x))
       | (with_reducible refine (fun hfun => ?_) (?_ : ∀ a b c, P c → P (x a b c))
          on_goal 1 => clear_value x
          on_goal 2 => (unfold x; clear x))
       | (with_reducible refine (fun hfun => ?_) (?_ : ∀ a b c d, P d → P (x a b c d))
          on_goal 1 => clear_value x
          on_goal 2 => (unfold x; clear x))
       | (with_reducible refine (fun hx => ?_) (?_ : P x.2)
          on_goal 1 => clear_value x
          on_goal 2 => (unfold x; clear x))
       | (with_reducible refine (fun hfun => ?_) (?_ : ∀ a, P (x a))
          on_goal 1 => clear_value x
          on_goal 2 => (unfold x; clear x))
       | (with_reducible refine (fun hfun => ?_) (?_ : ∀ a b c, P (x a b c))
          on_goal 1 => clear_value x
          on_goal 2 => (unfold x; clear x))
       | clear_value x
       | skip)
    | with_reducible apply hfun
    | with_reducible apply ite_keep
    | split
    | with_reducible apply updChan_keep (hP.mono (by decide))
    | with_reducible apply inputWord_keep (hP.mono (by decide))
    | with_reducible refine eq_keep (by assumption) ?_

theorem zcBoundary_keep {P : State → Prop} (hP : Keeps [.chans] P) (fails : List (Fin 16 × Fin 32)) (ch : Nat) (s : State) (hst : P s) :
    P (zcBoundary fails ch s) := by
  unfold zcBoundary
  repeat' first
    | with_reducible assumption
    | (first | intro x | (lift_lets -underBinder; intro x)
       first
       | (with_reducible refine (fun hx => ?_) (?_ : P x)
          on_goal 1 => clear_value x
          on_goal 2 => (unfold x; clear x))
       | clear_value x
       | skip)
    | with_reducible apply ite_keep
    | split
    | with_reducible apply updChan_keep (hP.mono (by decide))

theorem openFrame_keep {P : State → Prop} (hP : Keeps [.bell] P) (len : Nat) (s : State) (hst : P s) :
    P (openFrame len s) := by
  unfold openFrame
  repeat' first
    | with_reducible assumption
    | (first | intro x | (lift_lets -underBinder; intro x)
       first
       | (with_reducible refine (fun hx => ?_) (?_ : P x)
          on_goal 1 => clear_value x
          on_goal 2 => (unfold x; clear x))
       | clear_value x
       | skip)
    | with_reducible apply ite_keep
    | split
    | with_reducible apply updBell_keep (hP.mono (by decide))

theorem frameBoundary_keep {P : State → Prop} (hP : Keeps [.regs, .wide, .ports, .outs, .bell, .chans, .folds, .binds, .gates, .injs, .diags, .rings, .svc, .col, .tal, .host, .free] P) (len : Nat) (fails : List (Fin 16 × Fin 32)) (s : State) (hst : P s) :
    P (frameBoundary len fails s) := by
  unfold frameBoundary
  repeat' first
    | with_reducible assumption
    | (first | intro x | (lift_lets -underBinder; intro x)
       first
       | (with_reducible refine (fun hx => ?_) (?_ : P x)
          on_goal 1 => clear_value x
          on_goal 2 => (unfold x; clear x))
       | (with_reducible refine (fun hfun => ?_) (?_ : ∀ a, P a → P (x a))
          on_goal 1 => clear_value x
          on_goal 2 => (unfold x; clear x))
       | (with_reducible refine (fun hfun => ?_) (?_ : ∀ a b, P b → P (x a b))
          on_goal 1 => clear_value x
          on_goal 2 => (unfold x; clear x))
       | (with_reducible refine (fun hfun => ?_) (?_ : ∀ a b c, P c → P (x a b c))
          on_goal 1 => clear_value x
          on_goal 2 => (unfold x; clear x))
       | (with_reducible refine (fun hfun => ?_) (?_ : ∀ a b c d, P d → P (x a b c d))
          on_goal 1 => clear_value x
          on_goal 2 => (unfold x; clear x))
       | (with_reducible refine (fun hx => ?_) (?_ : P x.2)
          on_goal 1 => clear_value x
          on_goal 2 => (unfold x; clear x))
       | (with_reducible refine (fun hfun => ?_) (?_ : ∀ a, P (x a))
          on_goal 1 => clear_value x
          on_goal 2 => (unfold x; clear x))
       | (with_reducible refine (fun hfun => ?_) (?_ : ∀ a b c, P (x a b c))
          on_goal 1 => clear_value x
          on_goal 2 => (unfold x; clear x))
       | clear_value x
       | skip)
    | with_reducible apply hfun
    | with_reducible apply unbindAtBoundary_keep (hP.mono (by decide))
    | with_reducible apply gatesAtBoundary_keep (hP.mono (by decide))
    | with_reducible apply ftbAtBoundary_keep (hP.mono (by decide))
    | with_reducible apply portBoundary_keep (hP.mono (by decide))
    | with_reducible apply draw_keep (hP.mono (by decide))
    | with_reducible apply diagStarts_keep (hP.mono (by decide))
    | with_reducible apply zcBoundary_keep (hP.mono (by decide))
    | with_reducible apply writeBank_keep (hP.mono (by decide))
    | with_reducible apply openFrame_keep (hP.mono (by decide))
    | with_reducible apply latchOut_keep (hP.mono (by decide))
    | with_reducible apply each_keep

theorem execFrameBoundary_keep {P : State → Prop} (hP : Keeps [.regs, .wide, .ports, .outs, .bell, .chans, .folds, .binds, .gates, .injs, .diags, .rings, .svc, .col, .tal, .host, .free] P) (len : BitVec 32) (tagFails : List (Fin 16 × Fin 32)) (s : State) (hst : P s) :
    AllNext P (execFrameBoundary len tagFails s) := by
  unfold execFrameBoundary
  repeat' first
    | with_reducible assumption
    | with_reducible apply next_keep
    | with_reducible apply frameBoundary_keep (hP.mono (by decide))

theorem execFcSettingsApply_keep {P : State → Prop} (hP : Keeps [.regs, .ports, .bell, .chans, .col, .host] P) (s : State) (hst : P s) :
    AllNext P (execFcSettingsApply s) := by
  unfold execFcSettingsApply
  repeat' first
    | with_reducible assumption
    | (first | intro x | (lift_lets -underBinder; intro x)
       first
       | (with_reducible refine (fun hx => ?_) (?_ : P x)
          on_goal 1 => clear_value x
          on_goal 2 => (unfold x; clear x))
       | clear_value x
       | skip)
    | with_reducible apply ite_keep
    | split
    | with_reducible apply next_keep
    | with_reducible apply applySettings_keep (hP.mono (by decide))
    | with_reducible apply rebuildAll_keep (hP.mono (by decide))

theorem execOutputFrameSend_keep {P : State → Prop} (hP : Keeps [.outs] P) (n : Fin 4) (s : State) (hst : P s) :
    AllNext P (execOutputFrameSend n s) := by
  unfold execOutputFrameSend
  repeat' first
    | with_reducible assumption
    | (first | intro x | (lift_lets -underBinder; intro x)
       first
       | (with_reducible refine (fun hx => ?_) (?_ : P x)
          on_goal 1 => clear_value x
          on_goal 2 => (unfold x; clear x))
       | clear_value x
       | skip)
    | with_reducible apply ite_keep
    | split
    | with_reducible apply next_keep
    | with_reducible apply setOut_keep (hP.mono (by decide))

-- Regs

theorem readEffect_keep {P : State → Prop} (hP : Keeps [.hiLatch, .col] P) (a : Nat) (s : State) (hst : P s) :
    P (readEffect a s) := by
  unfold readEffect
  repeat' first
    | with_reducible assumption
    | (first | intro x | (lift_lets -underBinder; intro x)
       first
       | (with_reducible refine (fun hx => ?_) (?_ : P x)
          on_goal 1 => clear_value x
          on_goal 2 => (unfold x; clear x))
       | clear_value x
       | skip)
    | with_reducible apply ite_keep
    | split
    | with_reducible apply setRec_keep (hP.mono (by decide))
    | with_reducible apply upd_hiLatch (hP.mono (by decide))
    | with_reducible refine eq_keep (by assumption) ?_

theorem readWords_keep {P : State → Prop} (hP : Keeps [.hiLatch, .col] P) (n : Nat) : ∀ (a : Nat) (s : State), P s → P (readWords n a s).2 := by
  induction n with
  | zero => intro a s h; exact h
  | succ n ih => intro a s h; exact ih (a + 4) _ (readEffect_keep (hP.mono (by decide)) a s h)

theorem execLoWordRead_keep {P : State → Prop} (hP : Keeps [.hiLatch, .col, .host] P) (addr : BitVec 25) (size : Fin 4) (s : State) (hst : P s) :
    AllNext P (execLoWordRead addr size s) := by
  unfold execLoWordRead
  exact next_keep (upd_host (hP.mono (by decide)) (readWords_keep (hP.mono (by decide)) _ _ _ hst))

theorem unlatch_keep {P : State → Prop} (hP : Keeps [.col] P) (s : State) (hst : P s) :
    P (unlatch s) := by
  unfold unlatch
  repeat' first
    | with_reducible assumption
    | (first | intro x | (lift_lets -underBinder; intro x)
       first
       | (with_reducible refine (fun hx => ?_) (?_ : P x)
          on_goal 1 => clear_value x
          on_goal 2 => (unfold x; clear x))
       | clear_value x
       | skip)
    | with_reducible apply updCol_keep (hP.mono (by decide))

theorem writeEvt_keep {P : State → Prop} (hP : Keeps [.regs, .col, .host] P) (a : Nat) (v : W) (s : State) (hst : P s) :
    P (writeEvt a v s) := by
  unfold writeEvt
  repeat' first
    | with_reducible assumption
    | intro x
    | with_reducible apply updReg_keep (hP.mono (by decide))
    | with_reducible apply unlatch_keep (hP.mono (by decide))
    | with_reducible apply signal_keep (hP.mono (by decide))

theorem writeEnable_keep {P : State → Prop} (hP : Keeps [.regs, .host] P) (a : Nat) (v : W) (s : State) (hst : P s) :
    P (writeEnable a v s) := by
  unfold writeEnable
  repeat' first
    | with_reducible assumption
    | with_reducible apply setReg_keep (hP.mono (by decide))
    | with_reducible apply signal_keep (hP.mono (by decide))

theorem writeRing_keep {P : State → Prop} (hP : Keeps [.regs, .rings, .svc, .col, .tal, .host] P) (r : Fin 8) (o : Nat) (v : W) (s : State) (hst : P s) :
    AllNext P (writeRing r o v s) := by
  unfold writeRing
  repeat' first
    | with_reducible assumption
    | with_reducible apply ite_keep
    | split
    | with_reducible apply next_keep
    | with_reducible apply execCqHeadWrite_keep (hP.mono (by decide))
    | with_reducible apply execRingDisable_keep (hP.mono (by decide))
    | with_reducible apply execRingEnable_keep (hP.mono (by decide))
    | with_reducible apply setReg_keep (hP.mono (by decide))
    | with_reducible apply execDoorbell_keep (hP.mono (by decide))
    | with_reducible apply hostEvent_keep (hP.mono (by decide))
    | with_reducible refine eq_keep (by assumption) ?_

theorem writeFcCtrl_keep {P : State → Prop} (hP : Keeps [.regs, .bell, .svc, .col, .host] P) (v : W) (s : State) (hst : P s) :
    AllNext P (writeFcCtrl v s) := by
  unfold writeFcCtrl
  repeat' first
    | with_reducible assumption
    | (first | intro x | (lift_lets -underBinder; intro x)
       first
       | (with_reducible refine (fun hx => ?_) (?_ : P x)
          on_goal 1 => clear_value x
          on_goal 2 => (unfold x; clear x))
       | clear_value x
       | skip)
    | with_reducible apply ite_keep
    | split
    | with_reducible apply next_keep
    | with_reducible apply updBell_keep (hP.mono (by decide))
    | with_reducible apply execReselect_keep (hP.mono (by decide))
    | with_reducible apply unbarEntries_keep (hP.mono (by decide))

theorem writeFlock_keep {P : State → Prop} (hP : Keeps [.regs, .chans, .terms, .sense, .col, .host] P) (f : Fin 32) (o : Nat) (v : W) (s : State) (hst : P s) :
    AllNext P (writeFlock f o v s) := by
  unfold writeFlock
  repeat' first
    | with_reducible assumption
    | (first | intro x | (lift_lets -underBinder; intro x)
       first
       | (with_reducible refine (fun hx => ?_) (?_ : P x)
          on_goal 1 => clear_value x
          on_goal 2 => (unfold x; clear x))
       | (with_reducible refine (fun hfun => ?_) (?_ : ∀ a, P a → P (x a))
          on_goal 1 => clear_value x
          on_goal 2 => (unfold x; clear x))
       | (with_reducible refine (fun hfun => ?_) (?_ : ∀ a b, P b → P (x a b))
          on_goal 1 => clear_value x
          on_goal 2 => (unfold x; clear x))
       | (with_reducible refine (fun hfun => ?_) (?_ : ∀ a b c, P c → P (x a b c))
          on_goal 1 => clear_value x
          on_goal 2 => (unfold x; clear x))
       | (with_reducible refine (fun hfun => ?_) (?_ : ∀ a b c d, P d → P (x a b c d))
          on_goal 1 => clear_value x
          on_goal 2 => (unfold x; clear x))
       | (with_reducible refine (fun hx => ?_) (?_ : P x.2)
          on_goal 1 => clear_value x
          on_goal 2 => (unfold x; clear x))
       | (with_reducible refine (fun hfun => ?_) (?_ : ∀ a, P (x a))
          on_goal 1 => clear_value x
          on_goal 2 => (unfold x; clear x))
       | (with_reducible refine (fun hfun => ?_) (?_ : ∀ a b c, P (x a b c))
          on_goal 1 => clear_value x
          on_goal 2 => (unfold x; clear x))
       | clear_value x
       | skip)
    | with_reducible apply hfun
    | with_reducible apply ite_keep
    | split
    | with_reducible apply next_keep
    | with_reducible apply execSnsConfigWrite_keep (hP.mono (by decide))
    | with_reducible apply execStFieldWrite_keep (hP.mono (by decide))
    | with_reducible apply execFoldCfgWrite_keep (hP.mono (by decide))
    | with_reducible apply execLoopCfgWrite_keep (hP.mono (by decide))
    | with_reducible apply execCrookWrite_keep (hP.mono (by decide))
    | with_reducible apply execPmCfgWrite_keep (hP.mono (by decide))
    | with_reducible apply execCoefWrite_keep (hP.mono (by decide))
    | with_reducible apply setReg_keep (hP.mono (by decide))
    | with_reducible refine eq_keep (by assumption) ?_

theorem writeWord_keep {P : State → Prop} (hP : Keeps [.regs, .boot, .ports, .outs, .bell, .chans, .terms, .sense, .rings, .svc, .col, .tal, .host] P) (a : Nat) (v : W) (s : State) (hst : P s) :
    AllNext P (writeWord a v s) := by
  unfold writeWord
  repeat' first
    | with_reducible assumption
    | (first | intro x | (lift_lets -underBinder; intro x)
       first
       | (with_reducible refine (fun hx => ?_) (?_ : P x)
          on_goal 1 => clear_value x
          on_goal 2 => (unfold x; clear x))
       | clear_value x
       | skip)
    | with_reducible apply ite_keep
    | split
    | with_reducible apply next_keep
    | with_reducible apply execSpKindmapWrite_keep (hP.mono (by decide))
    | with_reducible apply execFcWindowWrite_keep (hP.mono (by decide))
    | with_reducible apply execTallyUnfreeze_keep (hP.mono (by decide))
    | with_reducible apply execFcRatioWrite_keep (hP.mono (by decide))
    | with_reducible apply execFcPhaseWrite_keep (hP.mono (by decide))
    | with_reducible apply execSpCtrlWrite_keep (hP.mono (by decide))
    | with_reducible apply execSoCtrlWrite_keep (hP.mono (by decide))
    | with_reducible apply execSoSlotWrite_keep (hP.mono (by decide))
    | with_reducible apply execFcRateWrite_keep (hP.mono (by decide))
    | with_reducible apply execFcPrioWrite_keep (hP.mono (by decide))
    | with_reducible apply execCalendarSet_keep (hP.mono (by decide))
    | with_reducible apply execIntAckWrite_keep (hP.mono (by decide))
    | with_reducible apply execTallyFreeze_keep (hP.mono (by decide))
    | with_reducible apply execFltRdWrite_keep (hP.mono (by decide))
    | with_reducible apply setReg_keep (hP.mono (by decide))
    | with_reducible apply writeEnable_keep (hP.mono (by decide))
    | with_reducible apply writeFcCtrl_keep (hP.mono (by decide))
    | with_reducible apply writeFlock_keep (hP.mono (by decide))
    | with_reducible apply msixWrite_keep (hP.mono (by decide))
    | with_reducible apply writeRing_keep (hP.mono (by decide))
    | with_reducible apply writeEvt_keep (hP.mono (by decide))
    | with_reducible refine eq_keep (by assumption) ?_

theorem execRegisterWrite_keep {P : State → Prop} (hP : Keeps [.regs, .boot, .ports, .outs, .bell, .chans, .terms, .sense, .rings, .svc, .col, .tal, .host] P) (addr : BitVec 25) (data : List (BitVec 8)) (s : State) (hst : P s) :
    AllNext P (execRegisterWrite addr data s) := by
  unfold execRegisterWrite
  dsimp only
  split
  · exact next_keep (hostEvent_keep (hP.mono (by decide)) _ _ _ hst)
  · split
    · exact writeWord_keep (hP.mono (by decide)) _ _ _ hst
    · split
      · have h := writeWord_keep (hP.mono (by decide)) addr.toNat (w32 (leVal (data.take 4))) s hst
        split
        · rename_i t ht
          exact writeWord_keep (hP.mono (by decide)) _ _ _ (h.all t ht)
        · exact h
      · exact next_keep (hostEvent_keep (hP.mono (by decide)) _ _ _ hst)

theorem execMaintenanceRequest_keep {P : State → Prop} (hP : Keeps [.regs, .host] P) (req : List (BitVec 8)) (s : State) (hst : P s) :
    AllNext P (execMaintenanceRequest req s) := by
  unfold execMaintenanceRequest
  repeat' first
    | with_reducible assumption
    | (first | intro x | (lift_lets -underBinder; intro x)
       first
       | (with_reducible refine (fun hx => ?_) (?_ : P x)
          on_goal 1 => clear_value x
          on_goal 2 => (unfold x; clear x))
       | clear_value x
       | skip)
    | with_reducible apply ite_keep
    | split
    | with_reducible apply next_keep
    | with_reducible apply setField_keep (hP.mono (by decide))
    | with_reducible apply upd_host (hP.mono (by decide))

end Sys2Proof.Machine
end

