-- ==== Sys2Proof/Laws/KeepExec.lean ====
section
/-! SUPPORT. Every command keeps what the primitives on the parts it touches keep. -/

namespace Sys2Proof.Machine

open Sys2Proof

/-- Whatever a command answers, a next state has every property that the primitives on its parts keep. -/
theorem exec_keep {P : State → Prop} (c : Instr) (hP : Keeps c.touches P) (s : State) (h : P s) : AllNext P (exec c s) := by
  cases c
  case auxSupplyRise => exact execAuxSupplyRise_keep hP _ _ h
  case securityBootDone => exact execSecurityBootDone_keep hP _ _ _ h
  case foldSlotStart => exact execFoldSlotStart_keep hP _ _ h
  case foldSlotEnd => exact execFoldSlotEnd_keep hP _ _ _ _ h
  case quickBistDone => exact execQuickBistDone_keep hP _ _ _ h
  case auxSupplyFail => exact execAuxSupplyFail_keep hP _ _ h
  case busRise => exact execBusRise_keep hP _ _ _ h
  case clockLossModuleStop => exact execClockLossModuleStop_keep hP _ _ _ h
  case ftbLoss => exact execFtbLoss_keep hP _ _ _ h
  case ftbReturn => exact execFtbReturn_keep hP _ _ h
  case outputPortClockLost => exact execOutputPortClockLost_keep hP _ _ h
  case domainPowerLoss => exact execDomainPowerLoss_keep hP _ _ _ h
  case domainSettled => exact execDomainSettled_keep hP _ _ h
  case streamFrame => exact execStreamFrame_keep hP _ _ _ h
  case sealVerdict => exact execSealVerdict_keep hP _ _ h
  case portStayTimeout => exact execPortStayTimeout_keep hP _ _ h
  case lineOutOfRange => exact execLineOutOfRange_keep hP _ _ h
  case sclkLost => exact execSclkLost_keep hP _ _ h
  case spCtrlWrite => exact execSpCtrlWrite_keep hP _ _ _ h
  case spKindmapWrite => exact execSpKindmapWrite_keep hP _ _ _ _ h
  case soCtrlWrite => exact execSoCtrlWrite_keep hP _ _ _ h
  case soSlotWrite => exact execSoSlotWrite_keep hP _ _ _ _ h
  case outputFrameSend => exact execOutputFrameSend_keep hP _ _ h
  case frameBoundary => exact execFrameBoundary_keep hP _ _ _ h
  case runLimit => exact execRunLimit_keep hP _ _ _ h
  case driftMeasurement => exact execDriftMeasurement_keep hP _ _ _ _ _ _ _ h
  case reselect => exact execReselect_keep hP _ _ h
  case unbar => exact execUnbar_keep hP _ _ h
  case fcRateWrite => exact execFcRateWrite_keep hP _ _ h
  case fcRatioWrite => exact execFcRatioWrite_keep hP _ _ h
  case fcPrioWrite => exact execFcPrioWrite_keep hP _ _ h
  case fcWindowWrite => exact execFcWindowWrite_keep hP _ _ h
  case fcPhaseWrite => exact execFcPhaseWrite_keep hP _ _ h
  case zcTimeout => exact execZcTimeout_keep hP _ _ h
  case gatedStopIdle => exact execGatedStopIdle_keep hP _ _ h
  case loopLatch => exact execLoopLatch_keep hP _ _ _ _ _ _ h
  case coefApply => exact execCoefApply_keep hP _ _ _ h
  case tokenGrant => exact execTokenGrant_keep hP _ _ h
  case armTakeEffect => exact execArmTakeEffect_keep hP _ _ _ h
  case disarmTakeEffect => exact execDisarmTakeEffect_keep hP _ _ h
  case instanceRunStart => exact execInstanceRunStart_keep hP _ _ _ _ h
  case loopCutoff => exact execLoopCutoff_keep hP _ _ _ h
  case overrunHealthFailure => exact execOverrunHealthFailure_keep hP _ _ _ h
  case followError => exact execFollowError_keep hP _ _ h
  case coefWrite => exact execCoefWrite_keep hP _ _ _ _ h
  case loopCfgWrite => exact execLoopCfgWrite_keep hP _ _ _ h
  case carrierBoundary => exact execCarrierBoundary_keep hP _ _ _ _ _ _ h
  case gateEvent => exact execGateEvent_keep hP _ _ _ _ _ _ h
  case integrityEscalation => exact execIntegrityEscalation_keep hP _ _ _ h
  case crookWrite => exact execCrookWrite_keep hP _ _ _ h
  case crookForceApply => exact execCrookForceApply_keep hP _ _ _ h
  case stFieldWrite => exact execStFieldWrite_keep hP _ _ _ _ h
  case commitApply => exact execCommitApply_keep hP _ _ _ h
  case stepChangeApply => exact execStepChangeApply_keep hP _ _ _ _ h
  case desaturation => exact execDesaturation_keep hP _ _ _ _ h
  case desatSpanClose => exact execDesatSpanClose_keep hP _ _ _ h
  case spareSelfTestStart => exact execSpareSelfTestStart_keep hP _ _ _ _ h
  case spareSelfTestEnd => exact execSpareSelfTestEnd_keep hP _ _ _ _ h
  case substOverlapStart => exact execSubstOverlapStart_keep hP _ _ _ h
  case substRelease => exact execSubstRelease_keep hP _ _ _ h
  case timerWindowOpen => exact execTimerWindowOpen_keep hP _ _ _ h
  case timerWindowClose => exact execTimerWindowClose_keep hP _ _ _ h
  case externalTrip => exact execExternalTrip_keep hP _ _ _ _ h
  case terminalOvercurrent => exact execTerminalOvercurrent_keep hP _ _ _ _ h
  case foldTrip => exact execFoldTrip_keep hP _ _ _ _ _ h
  case stageOvertempWarn => exact execStageOvertempWarn_keep hP _ _ _ h
  case debugHalt => exact execDebugHalt_keep hP _ _ _ h
  case foldBudgetRenewal => exact execFoldBudgetRenewal_keep hP _ _ _ _ _ _ _ _ _ _ h
  case coolantDerate => exact execCoolantDerate_keep hP _ _ _ h
  case foldCfgWrite => exact execFoldCfgWrite_keep hP _ _ _ h
  case foldStopEnd => exact execFoldStopEnd_keep hP _ _ h
  case injEnd => exact execInjEnd_keep hP _ _ h
  case injChunkFetch => exact execInjChunkFetch_keep hP _ _ h
  case capTrigger => exact execCapTrigger_keep hP _ _ h
  case capEntryRecord => exact execCapEntryRecord_keep hP _ _ _ h
  case capEntryCommit => exact execCapEntryCommit_keep hP _ _ h
  case capDone => exact execCapDone_keep hP _ _ h
  case loadComplete => exact execLoadComplete_keep hP _ _ h
  case modelLoadComplete => exact execModelLoadComplete_keep hP _ _ h
  case motionLatch => exact execMotionLatch_keep hP _ _ _ h
  case impDrift => exact execImpDrift_keep hP _ _ h
  case modelRunStart => exact execModelRunStart_keep hP _ _ _ h
  case modelDeadline => exact execModelDeadline_keep hP _ _ h
  case clampHoldNarrow => exact execClampHoldNarrow_keep hP _ _ h
  case modelEngineHealthFail => exact execModelEngineHealthFail_keep hP _ _ h
  case coverEnd => exact execCoverEnd_keep hP _ _ _ h
  case tableBuildDone => exact execTableBuildDone_keep hP _ _ h
  case tableSwap => exact execTableSwap_keep hP _ _ h
  case resRefit => exact execResRefit_keep hP _ _ h
  case senseSettled => exact execSenseSettled_keep hP _ _ h
  case illFault => exact execIllFault_keep hP _ _ _ h
  case snsConfigWrite => exact execSnsConfigWrite_keep hP _ _ _ _ h
  case pmCfgWrite => exact execPmCfgWrite_keep hP _ _ _ _ h
  case diagPointEnd => exact execDiagPointEnd_keep hP _ _ h
  case diagRunEnd => exact execDiagRunEnd_keep hP _ _ _ h
  case diagResultWrite => exact execDiagResultWrite_keep hP _ _ h
  case alignEnd => exact execAlignEnd_keep hP _ _ _ h
  case forcedStep => exact execForcedStep_keep hP _ _ _ h
  case motorHandover => exact execMotorHandover_keep hP _ _ _ h
  case lockedRotor => exact execLockedRotor_keep hP _ _ _ h
  case rampHoldEnd => exact execRampHoldEnd_keep hP _ _ _ h
  case blankEnd => exact execBlankEnd_keep hP _ _ _ h
  case crossingConfirmed => exact execCrossingConfirmed_keep hP _ _ _ _ h
  case commutationPost => exact execCommutationPost_keep hP _ _ _ h
  case syntheticCommutation => exact execSyntheticCommutation_keep hP _ _ _ h
  case reverse => exact execReverse_keep hP _ _ _ h
  case brakeEnd => exact execBrakeEnd_keep hP _ _ _ h
  case coastEnd => exact execCoastEnd_keep hP _ _ _ h
  case retryReload => exact execRetryReload_keep hP _ _ _ h
  case gateEdge => exact execGateEdge_keep hP _ _ _ h
  case gateLost => exact execGateLost_keep hP _ _ h
  case layerTimeout => exact execLayerTimeout_keep hP _ _ _ h
  case layerStateMessage => exact execLayerStateMessage_keep hP _ _ _ _ h
  case heldFaultTakeEffect => exact execHeldFaultTakeEffect_keep hP _ _ h
  case deferredActionRun => exact execDeferredActionRun_keep hP _ _ _ _ h
  case sheepdogJudgement => exact execSheepdogJudgement_keep hP _ _ _ h
  case leaseExpiry => exact execLeaseExpiry_keep hP _ _ h
  case engineAutoTestStart => exact execEngineAutoTestStart_keep hP _ _ h
  case resyncCopyDone => exact execResyncCopyDone_keep hP _ _ h
  case pairCompareMiss => exact execPairCompareMiss_keep hP _ _ _ _ h
  case fsResume => exact execFsResume_keep hP _ _ h
  case coreStandbyCopyDone => exact execCoreStandbyCopyDone_keep hP _ _ _ h
  case errorReport => exact execErrorReport_keep hP _ _ _ h
  case faultReactionApply => exact execFaultReactionApply_keep hP _ _ h
  case brokenWire => exact execBrokenWire_keep hP _ _ _ _ h
  case brokenSourcePoll => exact execBrokenSourcePoll_keep hP _ _ h
  case causeConditionEnd => exact execCauseConditionEnd_keep hP _ _ _ _ _ h
  case stationC4Received => exact execStationC4Received_keep hP _ _ _ h
  case fltRdWrite => exact execFltRdWrite_keep hP _ _ h
  case recordFreezeRead => exact execRecordFreezeRead_keep hP _ _ h
  case loWordRead => exact execLoWordRead_keep hP _ _ _ h
  case rollbackBurn => exact execRollbackBurn_keep hP _ _ _ h
  case linkTrained => exact execLinkTrained_keep hP _ _ _ _ h
  case discoveryToken => exact execDiscoveryToken_keep hP _ _ _ _ h
  case stationFormMessage => exact execStationFormMessage_keep hP _ _ _ _ _ _ _ h
  case stationMarker => exact execStationMarker_keep hP _ _ _ _ h
  case hopDelayMeasure => exact execHopDelayMeasure_keep hP _ _ _ h
  case stationSeating => exact execStationSeating_keep hP _ _ h
  case alignConfirm => exact execAlignConfirm_keep hP _ _ h
  case linkDown => exact execLinkDown_keep hP _ _ _ h
  case linkUp => exact execLinkUp_keep hP _ _ _ _ _ h
  case calendarSet => exact execCalendarSet_keep hP _ _ h
  case calendarSync => exact execCalendarSync_keep hP _ _ _ h
  case doorbell => exact execDoorbell_keep hP _ _ _ h
  case commandFetch => exact execCommandFetch_keep hP _ _ h
  case completionWrite => exact execCompletionWrite_keep hP _ _ h
  case cqHeadWrite => exact execCqHeadWrite_keep hP _ _ _ h
  case ringEnable => exact execRingEnable_keep hP _ _ h
  case ringDisable => exact execRingDisable_keep hP _ _ h
  case ringDmaFailure => exact execRingDmaFailure_keep hP _ _ _ h
  case hostReset => exact execHostReset_keep hP _ _ h
  case intAckWrite => exact execIntAckWrite_keep hP _ _ h
  case registerWrite => exact execRegisterWrite_keep hP _ _ _ h
  case bar2Read => exact execBar2Read_keep hP _ _ _ _ h
  case bar2Write => exact execBar2Write_keep hP _ _ _ h
  case maintenanceRequest => exact execMaintenanceRequest_keep hP _ _ h
  case chanNew => exact execChanNew_keep hP _ _ h
  case chanDel => exact execChanDel_keep hP _ _ h
  case chanDelOpen => exact execChanDelOpen_keep hP _ _ _ h
  case chanDelComplete => exact execChanDelComplete_keep hP _ _ h
  case bind => exact execBind_keep hP _ _ h
  case unbind => exact execUnbind_keep hP _ _ h
  case load => exact execLoad_keep hP _ _ _ h
  case modelLoad => exact execModelLoad_keep hP _ _ _ h
  case modelTable => exact execModelTable_keep hP _ _ h
  case stage => exact execStage_keep hP _ _ h
  case stageSet => exact execStageSet_keep hP _ _ h
  case commit => exact execCommit_keep hP _ _ h
  case abort => exact execAbort_keep hP _ _ h
  case arm => exact execArm_keep hP _ _ _ h
  case disarm => exact execDisarm_keep hP _ _ h
  case clear => exact execClear_keep hP _ _ h
  case mute => exact execMute_keep hP _ _ h
  case unmute => exact execUnmute_keep hP _ _ h
  case gain => exact execGain_keep hP _ _ h
  case capNew => exact execCapNew_keep hP _ _ h
  case capStart => exact execCapStart_keep hP _ _ h
  case capStop => exact execCapStop_keep hP _ _ h
  case capDel => exact execCapDel_keep hP _ _ h
  case injNew => exact execInjNew_keep hP _ _ h
  case injStart => exact execInjStart_keep hP _ _ h
  case injStop => exact execInjStop_keep hP _ _ h
  case injDel => exact execInjDel_keep hP _ _ h
  case diagRun => exact execDiagRun_keep hP _ _ h
  case diagAbort => exact execDiagAbort_keep hP _ _ h
  case diagEnrol => exact execDiagEnrol_keep hP _ _ h
  case diagDel => exact execDiagDel_keep hP _ _ h
  case fenceLoad => exact execFenceLoad_keep hP _ _ _ h
  case fenceQuery => exact execFenceQuery_keep hP _ _ h
  case attest => exact execAttest_keep hP _ _ h
  case debugChal => exact execDebugChal_keep hP _ _ h
  case debugResp => exact execDebugResp_keep hP _ _ _ h
  case bistRun => exact execBistRun_keep hP _ _ h
  case bistWorkMoved => exact execBistWorkMoved_keep hP _ _ h
  case bistVerdict => exact execBistVerdict_keep hP _ _ _ h
  case domain => exact execDomain_keep hP _ _ _ h
  case stnInfo => exact execStnInfo_keep hP _ _ h
  case stnRescan => exact execStnRescan_keep hP _ _ _ h
  case timerNew => exact execTimerNew_keep hP _ _ h
  case timerDel => exact execTimerDel_keep hP _ _ h
  case tripSet => exact execTripSet_keep hP _ _ h
  case tripAdd => exact execTripAdd_keep hP _ _ _ h
  case tripDel => exact execTripDel_keep hP _ _ h
  case motorNew => exact execMotorNew_keep hP _ _ h
  case motorDel => exact execMotorDel_keep hP _ _ h
  case gateNew => exact execGateNew_keep hP _ _ h
  case gateDel => exact execGateDel_keep hP _ _ h
  case jtagBypass => exact execJtagBypass_keep hP _ _ h
  case jtagSamplePreload => exact execJtagSamplePreload_keep hP _ _ _ h
  case jtagExtest => exact execJtagExtest_keep hP _ _ _ h
  case lineSignalPresent => exact execLineSignalPresent_keep hP _ _ h
  case calendarSupplyChange => exact execCalendarSupplyChange_keep hP _ _ h
  case pcieLinkTrained => exact execPcieLinkTrained_keep hP _ _ _ h
  case iaNop => exact execIaNop_keep hP _ _ _ h
  case iaEnd => exact execIaEnd_keep hP _ _ _ h
  case iaMovi => exact execIaMovi_keep hP _ _ _ h
  case iaLdp => exact execIaLdp_keep hP _ _ _ h
  case iaAddp => exact execIaAddp_keep hP _ _ _ h
  case iaMov => exact execIaMov_keep hP _ _ _ h
  case iaMfl => exact execIaMfl_keep hP _ _ _ h
  case iaClrs => exact execIaClrs_keep hP _ _ _ h
  case iaLdh => exact execIaLdh_keep hP _ _ _ h
  case iaSth => exact execIaSth_keep hP _ _ _ h
  case iaLdw => exact execIaLdw_keep hP _ _ _ h
  case iaStw => exact execIaStw_keep hP _ _ _ h
  case iaAdd => exact execIaAdd_keep hP _ _ _ h
  case iaSub => exact execIaSub_keep hP _ _ _ h
  case iaAddi => exact execIaAddi_keep hP _ _ _ h
  case iaNeg => exact execIaNeg_keep hP _ _ _ h
  case iaAbs => exact execIaAbs_keep hP _ _ _ h
  case iaMin => exact execIaMin_keep hP _ _ _ h
  case iaMax => exact execIaMax_keep hP _ _ _ h
  case iaAnd => exact execIaAnd_keep hP _ _ _ h
  case iaOr => exact execIaOr_keep hP _ _ _ h
  case iaXor => exact execIaXor_keep hP _ _ _ h
  case iaAndi => exact execIaAndi_keep hP _ _ _ h
  case iaShl => exact execIaShl_keep hP _ _ _ h
  case iaShr => exact execIaShr_keep hP _ _ _ h
  case iaCmp => exact execIaCmp_keep hP _ _ _ h
  case iaCmpi => exact execIaCmpi_keep hP _ _ _ h
  case iaSel => exact execIaSel_keep hP _ _ _ h
  case iaMul => exact execIaMul_keep hP _ _ _ h
  case iaMac => exact execIaMac_keep hP _ _ _ h
  case iaMsu => exact execIaMsu_keep hP _ _ _ h
  case iaGmul => exact execIaGmul_keep hP _ _ _ h
  case iaGmac => exact execIaGmac_keep hP _ _ _ h
  case iaAdda => exact execIaAdda_keep hP _ _ _ h
  case iaSuba => exact execIaSuba_keep hP _ _ _ h
  case iaXta => exact execIaXta_keep hP _ _ _ h
  case iaRnd => exact execIaRnd_keep hP _ _ _ h
  case iaSha => exact execIaSha_keep hP _ _ _ h
  case iaClpa => exact execIaClpa_keep hP _ _ _ h
  case iaSatw => exact execIaSatw_keep hP _ _ _ h
  case iaCmpa => exact execIaCmpa_keep hP _ _ _ h
  case iaSela => exact execIaSela_keep hP _ _ _ h
  case iaExt => exact execIaExt_keep hP _ _ _ h
  case iaErr => exact execIaErr_keep hP _ _ _ h
  case iaDiv => exact execIaDiv_keep hP _ _ _ h
  case iaClra => exact execIaClra_keep hP _ _ _ h
  case iaLse => exact execIaLse_keep hP _ _ _ h
  case iaHld => exact execIaHld_keep hP _ _ _ h
  case iaCap => exact execIaCap_keep hP _ _ _ h
  case iaChn => exact execIaChn_keep hP _ _ _ h
  case iaClm => exact execIaClm_keep hP _ _ _ h
  case iaSpt => exact execIaSpt_keep hP _ _ _ h
  case iaSin => exact execIaSin_keep hP _ _ _ h
  case iaFfw => exact execIaFfw_keep hP _ _ _ h
  case iaInj => exact execIaInj_keep hP _ _ _ h
  case iaEvt => exact execIaEvt_keep hP _ _ _ h
  case iaOut => exact execIaOut_keep hP _ _ _ h
  case iaLoop => exact execIaLoop_keep hP _ _ _ h
  case iaSkp => exact execIaSkp_keep hP _ _ _ h
  case alwaysOnReady => exact execAlwaysOnReady_keep hP _ h
  case coresStarted => exact execCoresStarted_keep hP _ h
  case frameClockPhased => exact execFrameClockPhased_keep hP _ h
  case clockReserveTakeover => exact execClockReserveTakeover_keep hP _ h
  case sourceLost => exact execSourceLost_keep hP _ h
  case holdoverEntry => exact execHoldoverEntry_keep hP _ h
  case holdoverMinEnd => exact execHoldoverMinEnd_keep hP _ h
  case holdoverNoSource => exact execHoldoverNoSource_keep hP _ h
  case slewFreqMatched => exact execSlewFreqMatched_keep hP _ h
  case slewPhaseDone => exact execSlewPhaseDone_keep hP _ h
  case fcSettingsApply => exact execFcSettingsApply_keep hP _ h
  case recordWrite => exact execRecordWrite_keep hP _ h
  case tallyFreeze => exact execTallyFreeze_keep hP _ h
  case tallyLatch => exact execTallyLatch_keep hP _ h
  case tallyUnfreeze => exact execTallyUnfreeze_keep hP _ h
  case fenceInForce => exact execFenceInForce_keep hP _ h
  case challengeLapse => exact execChallengeLapse_keep hP _ h
  case discoveryTimeout => exact execDiscoveryTimeout_keep hP _ h
  case stationReady => exact execStationReady_keep hP _ h
  case alignErr => exact execAlignErr_keep hP _ h
  case supercapLow => exact execSupercapLow_keep hP _ h
  case backupLow => exact execBackupLow_keep hP _ h
  case commandTake => exact execCommandTake_keep hP _ h
  case dramUncorrectable => exact execDramUncorrectable_keep hP _ h
  case jtagIdcode => exact execJtagIdcode_keep hP _ h

end Sys2Proof.Machine
end

