-- ==== Sys2Proof/Machine/Sram.lean ====
section
/-! DEFINITION. The flock SRAM as the engines address it (05 R135, R136): a view of the workspaces and input words that the channels of
a flock keep, with the check bits of a word. -/

namespace Sys2Proof.Machine

open Sys2Proof

/-- The regions of R135 by byte address: 0 workspaces, 1 input words, 2 binding tables, 3 injection staging, 4 none. -/
def sramRegion (a : Nat) : Nat :=
  if a < 0x30000 then 0 else if a < 0x30200 then 1 else if a < 0x31000 then 2 else if a < 0x40000 then 3 else 4

/-- The address of the input words of a position and bank (R136). -/
def bankAddr (q b : Nat) : Nat := 0x30000 + 32 * q + 16 * b

/-- Word w of a bank as it stands in the SRAM: SPT, FFW, INJ, STATUS (R136). -/
def Bank.word (b : Bank) (w : Nat) : W :=
  let put (tag : Nat) (v : BitVec 24) : W := BitVec.ofNat 32 (tag % 256 * 2 ^ 24 + v.toNat)
  match w with
  | 0 => put b.spt.tag b.spt.sample
  | 1 => put b.ffw.tag b.ffw.sample
  | 2 => put b.inj.tag b.inj.sample
  | _ => put b.stTag b.status

/-- The channel of a flock whose input words stand at a position: that of its first terminal there. -/
def State.chanAtPos (s : State) (f q : Nat) : Option Nat := (s.chansOfFlock f).find? (fun ch => (s.chan ch).adm.first == 16 * f + q)

/-- The input word at an address of region 1. A position of no channel holds what an unbound input does (R138). -/
def State.inputWordAt (s : State) (f a : Nat) : W :=
  let q := (a - 0x30000) / 32
  let inp := ((s.chanAtPos f q).map (fun ch => (s.chan ch).inp)).getD Inp.none
  (if (a - 0x30000) / 16 % 2 = 0 then inp.bank0 else inp.bank1).word (a / 4 % 4)

/-- The start of each channel's workspace in its flock: side by side in ascending channel index (log 131). -/
def State.wsBase (s : State) (ch : Nat) : Nat :=
  sumL ((s.chansOfFlock (s.chan ch).flock).filter (fun c => decide (c < ch))) (fun c => (s.chan c).adm.wsKib * 1024)

/-- The word at a byte address of region 0; 0 where no workspace lies. -/
def State.wsWordAt (s : State) (f a : Nat) : W :=
  match (s.chansOfFlock f).find? (fun ch => decide (s.wsBase ch ≤ a ∧ a < s.wsBase ch + (s.chan ch).adm.wsKib * 1024)) with
  | some ch => BitVec.ofNat 32 (s.wsVal ch ((a - s.wsBase ch) / 4 * 4) 4)
  | none => 0

/-- The word at an engine byte address of a flock's SRAM. The binding tables and the staging have no stated word format: their content is
kept as bindings and injection chunks. -/
def State.sramWord (s : State) (f a : Nat) : Option W :=
  match sramRegion a with
  | 0 => some (s.wsWordAt f a)
  | 1 => some (s.inputWordAt f a)
  | _ => none

/-- A word with its seven hidden SECDED check bits above it (R136). -/
def secdedWord (w : W) : BitVec 39 := Config.eccBits w ++ w

end Sys2Proof.Machine
end

