-- ==== Sys2Proof/Tests/Slice0.lean ====
section
/-! SUPPORT. The author's tests: what is not well formed is refused; a concrete state and operands that meet the hypotheses of each
statement; one step of each family on a small state. -/

open Sys2Proof Sys2Proof.Machine

set_option maxRecDepth 20000
set_option Elab.async false

-- ---------------------------------------------------------------- helpers

/-- An entry of ring 0 of `nops` operands. -/
def tEntry (op nops : Nat) (ops : List W) : CmdEntry :=
  { ring := 0, word0 := BitVec.ofNat 32 (op * 65536 + nops), cookie := 7, ops := ops ++ List.replicate (14 - ops.length) 0 }

/-- A channel of a kind from its first terminal on, idle. -/
def tChan (first kind : Nat) : Chan := { Chan.free with st := .idle, adm := { Adm.none with first, kind } }

/-- The handle of a channel of generation 1. -/
def tCh (i : Nat) : W := mkHandle 1 i 1

/-- State.reset with every domain on and in phase 6. -/
def tOn : State := { State.reset with dom := 0xFFFFFFFFFFFF, boot := { State.reset.boot with phase := 6 } }

/-- Channels 0 (idle, kind 2 on terminals 128 and 129, image, model valid, a group open), 1 (armed, kind 1 on terminal 0), 2 (idle,
kind 3 on terminals 4 to 6), 3 (deleting), 4 (stopped), 5 (audible, armed). -/
def tZoo : State :=
  { tOn with
    chans := [(0, { tChan 128 2 with grp := some Group.none, loop := { LoopPart.none with img := some 0 }, mdl := { Mdl.none with valid := true } }),
      (1, { tChan 0 1 with st := .armed }), (2, tChan 4 3), (3, { tChan 16 1 with st := .deleting }), (4, { tChan 17 1 with st := .stopped }),
      (5, { tChan 18 1 with st := .armed, audible := true })]
    binds := [(0, { Binding.none with live := true, chan := 0 })]
    gates := [(5, { Gate.none with live := true })]
    timers := [(0, { Timer.none with live := true, term := 4, event := 5, width := 5 })]
    trips := [(3, { Trip.none with live := true, scope := 1, n := 1, m := 1 })]
    motors := [(0, { Motor.none with live := true, chan := 2, timer := 1 })]
    caps := [(0, { Cap.none with live := true })]
    injs := [(0, { Inj.none with live := true })]
    diags := [(0, { Diag.none with live := true, st := 4 })] }

/-- An entry passes with nothing taken when the general checks and the windows let it. -/
theorem tAccepts (s : State) (e : CmdEntry) (op : Nat)
    (h : (s.boot.phase == 6 && opcodeOf e == op && s.svc.taken.isNone && (s.general e).isNone && !s.scopeOpen e) = true) : s.accepts e op := by
  simp only [Bool.and_eq_true, beq_iff_eq, Option.isNone_iff_eq_none, Bool.not_eq_true'] at h
  obtain ⟨⟨⟨⟨h0, h1⟩, h2⟩, h3⟩, h4⟩ := h
  have hu : s.untake e = s := by simp [State.untake, h2]
  exact ⟨h0, h1, by simp [State.blockKept, h2], by rw [hu]; exact h3, by rw [hu]; exact h4⟩

-- ---------------------------------------------------------------- what is not well formed

/-- A frame of `n` slots at 48 kHz: X, or Z, in slot 0, then Y (R74, R80). -/
def tFrame (n : Nat) (z : Bool) : LineFrame :=
  { len := 8533333, phase := 0, subs := (List.range n).map (fun i =>
      ⟨if i = 0 then (if z then 0xE8 else 0xE2) else 0xE4, false, 0, false, false, false, false⟩) }

theorem test_illformed_entry_length : (Instr.chanNew { tEntry 0x0101 9 [] with ops := [0, 0, 0] }).wf = false := by decide
theorem test_illformed_fetched_entry : (Instr.commandFetch { tEntry 0x0101 9 [] with ops := [] }).wf = false := by decide
theorem test_illformed_opcode : (Instr.chanNew (tEntry 0x0102 1 [])).wf = false := by decide
theorem test_illformed_frame_long : (Instr.streamFrame 0 (tFrame 33 false)).wf = false := by decide +kernel
theorem test_illformed_frame_no_time : (Instr.streamFrame 0 { tFrame 2 false with len := 0 }).wf = false := by decide +kernel
theorem test_wellformed_frame_broken : (Instr.streamFrame 0 (tFrame 3 false)).wf = true := by decide +kernel
theorem test_wellformed_latch : (Instr.loopLatch 1 0 0 ((List.range 8).map fun i => ⟨Fin.ofNat 256 (8 + i), 0, 0, 0⟩) []).wf = true := by decide
theorem test_illformed_latch_port_left_out : (Instr.loopLatch 0 0 0 ((List.range 7).map fun i => ⟨Fin.ofNat 256 i, 0, 0, 0⟩) []).wf = false := by decide
theorem test_illformed_latch_port_order : (Instr.loopLatch 0 0 0 ((List.range 8).map fun i => ⟨Fin.ofNat 256 (7 - i), 0, 0, 0⟩) []).wf = false := by decide
theorem test_illformed_boundary_terminal_twice : (Instr.carrierBoundary (.channel 1 0) false 0 none [⟨15, 0, 0⟩, ⟨15, 0, 0⟩]).wf = false := by decide
theorem test_illformed_budget_terminal : (Instr.foldBudgetRenewal 0 0 0 0 0 0 [] [(64, 0)] 0).wf = false := by decide
/-- FoldTripsStopEveryChannelOfTheFold: a renewal that is well formed. -/
theorem test_wellformed_budget : (Instr.foldBudgetRenewal 7 0 0 0 0 0 [(1, 0)] [(511, 0)] 0).wf = true := by decide
theorem test_illformed_budget_channel_twice : (Instr.foldBudgetRenewal 0 0 0 0 0 0 [(1, 0), (1, 0)] [] 0).wf = false := by decide
theorem test_illformed_budget_terminal_twice : (Instr.foldBudgetRenewal 0 0 0 0 0 0 [] [(63, 0), (63, 0)] 0).wf = false := by decide
theorem test_illformed_write_empty : (Instr.registerWrite 0 []).wf = false := by decide
theorem test_illformed_write_long : (Instr.registerWrite 0 (List.replicate 9 0)).wf = false := by decide
theorem test_illformed_bar2_read : (Instr.bar2Read 0x3FFFFFFF 2 false).wf = false := by decide
theorem test_illformed_bar2_write : (Instr.bar2Write 0x3FFFFFFF [0, 0]).wf = false := by decide
theorem test_wellformed_bar2_end : (Instr.bar2Read 0x3FFFFFFF 1 false).wf = true := by decide
theorem test_illformed_maintenance : (Instr.maintenanceRequest []).wf = false := by decide

/-- The opcode table gives no row bits, so no word spells a command. -/
theorem test_no_word_is_a_command : decodeTableWord 32 0x01010009 = none := by decide

-- ---------------------------------------------------------------- hypotheses that can be met

/-- EveryCommandCompletes: a well-formed command; the first byte past the end of DRAM, read and written. -/
theorem test_meets_every_command_completes :
    (Instr.chanNew (tEntry 0x0101 9 [])).wf = true ∧ 0x40000000 < (0x3FFFFFFF : BitVec 30).toNat + 2 ∧
    0x40000000 < (0x3FFFFFFF : BitVec 30).toNat + ([0, 0] : List (BitVec 8)).length := by decide

/-- CommandsTouchOnlyTheirParts and StepsKeep…: a command that answers a next state, an invariant state that steps. -/
theorem test_meets_steps : (∃ t, exec .coresStarted State.reset = .next t) ∧ (∃ t, step State.reset = .next t) ∧
    (∃ t, step { State.reset with pending := [.coresStarted] } = .next t) ∧ Part.dram ∉ Instr.coresStarted.touches :=
  ⟨⟨_, rfl⟩, ⟨_, rfl⟩, ⟨_, rfl⟩, by decide⟩

theorem test_meets_invariants : State.reset.tablesOk ∧ State.reset.legsOk ∧ State.reset.gensOk :=
  ⟨⟨rfl, rfl, rfl⟩, by intro t h; exact absurd h.1 (by simp [State.reset, State.term, tget, Term.none]),
    by intro ty i; simp [State.reset, State.gen, tget]⟩

/-- FusesStayBlown: fuses that are blown. -/
theorem test_meets_fuses : ∃ s t : State, step s = .next t ∧ s.sec.builderHash = some 5 ∧ tget 0 s.sec.rollback 0 = 3 :=
  ⟨{ State.reset with sec := { Sec.reset with builderHash := some 5, rollback := [(0, 3)] } }, _, rfl, rfl, rfl⟩

/-- A port in a state whose clock is recovered, at 2 slots of 48 kHz: 6.144 MBd. -/
def tPort (st : PortSt) (good : Nat) : State :=
  { tOn with ports := [(0, { Port.none with st, sclkOk := true, goodPre := good })], regs := [(spCtrl 0, 1)] }

/-- PortLockFollowsTheLine: ACQUIRE before the third whole frame, FRAME, LOCKED, RATE_HOLD, and a port in use that is whole; a frame at the
least rate in range, one slower, a whole one, one with Z, one of the wrong length. -/
theorem test_meets_port_lock :
    (∀ g ∈ [0, 1, 2], ((tPort .acquire g).port 0).st = .acquire ∧ ((tPort .acquire g).port 0).sclkOk = true ∧
      ((tPort .acquire g).port 0).goodPre = g) ∧
    ((tPort .frame 0).port 0).st = .frame ∧ ((tPort .frame 0).port 0).sclkOk = true ∧
    (tPort .frame 0).lineInRange 0 { tFrame 2 false with len := 12800000 } = true ∧
    (tPort .frame 0).lineInRange 0 { tFrame 2 false with len := 12800001 } = false ∧
    (tPort .frame 0).framingBad 0 (tFrame 2 false) = false ∧ firstPre (tFrame 2 true) = some .z ∧ firstPre (tFrame 2 false) = some .x ∧
    (tPort .frame 0).framingBad 0 (tFrame 8 false) = true ∧ (tPort .frame 0).lineInRange 0 (tFrame 2 true) = true ∧
    ((tPort .locked 0).port 0).st = .locked ∧ ((tPort .rateHold 0).port 0).st = .rateHold ∧
    ((tPort .locked 0).port 0).st ≠ .off ∧ (tPort .locked 0).col.broken.contains (srcPort 0) = false := by decide +kernel

def tSealTag : BitVec 128 := 0x38a5905c1fdc89bf195d1a7fe57c8fab

/-- RunLimitAndSealVerdicts: a run of 2 with VRUN_LIMIT 0, which acts as 1; a wide port with a block awaited, whose tag is the one its key
gives (accepted) or not; an enabled output. -/
def tSeal : SealInfo := { epoch := 1, seq := 1, streamId := 1, crcOk := true, tag := 0, data := [1, 2, 3] }

def tSealPort (tag : BitVec 128) : State :=
  { tOn with ports := [(0, { Port.none with slots := [(3, { SlotSt.none with run := 2 })], sealBlk := some { tSeal with tag }, sealSet := ⟨2, 1, 0⟩ })]
             regs := [(spCtrl 0, 2), (spLimit 0, 0), (soCtrl 0, 1)] }

theorem test_meets_run_and_seal : [tSealTag, 0].all (fun tag => let s := tSealPort tag; decide (
    (tget SlotSt.none (s.port 0).slots 3).run > max 1 (s.regField (spLimit 0) 0 16) ∧
    (tget SlotSt.none (s.port 0).slots 3).limHit = false ∧ (s.port 0).sealBlk = some { tSeal with tag } ∧ s.spWide 0 = true ∧
    bitOf (s.reg (soCtrl 0)) 0 = true ∧ (s.port 0).sealKey = 0 ∧ (s.port 0).epoch ≤ 1 ∧ (s.port 0).sealSet.epochMin ≤ 1 ∧
    (s.port 0).sealSet.streamId = 1 ∧ (s.port 0).lastSeq = none)) = true := by decide +kernel

theorem test_meets_seal_tag : sealTag 0 tSeal = tSealTag := by decide +kernel

/-- OutputFramesCarryTheDueValues: a port that sends in its range and one that does not send. -/
theorem test_meets_output_frames :
    let s : State := { tOn with regs := [(soStat 0, 1)] }
    s.reg (soStat 0) = 1 ∧ s.col.c4 = false ∧ baudOk (bitOf (s.reg (soCtrl 0)) 4) (64 * s.soN 0 * s.frate) 1 = true ∧
    s.reg (soStat 1) ≠ 1 := by decide +kernel

/-- SourceDecisionsFollowThePriorities: a window open by another module and none; a selected entry that is there, out of its window. -/
theorem test_meets_source_decisions :
    let s : State := { tOn with stn := { Stn.reset with openMods := [(1, 1)] } }
    s.stnOpen = true ∧ tOn.stnOpen = false ∧ tOn.linkReady = false ∧ tOn.selects 0 = true ∧ tOn.entryHere 1 0 = true ∧
    (tOn.window : Int) < absI (BitVec.ofInt 24 (tOn.window + 1)).toInt ∧ absI (BitVec.ofInt 24 (tOn.window : Int)).toInt ≤ tOn.window := by
  decide +kernel

/-- HoldoverAndSlewFollowTheSource and FrameClockWritesWaitForTheBoundary: no station link ready, nothing pending. -/
theorem test_meets_holdover : tOn.linkReady = false ∧ tOn.bell.pend = [] ∧ tOn.frate ≠ 0 := by decide +kernel

/-- FrameBoundariesCountAndRelease: the queue empty, of one and of two frames, the port LOCKED and not. -/
theorem test_meets_frame_boundaries : let f : QFrame := ⟨[], 0, 0⟩
    (Port.none.queue = []) ∧ (({ Port.none with queue := [f] } : Port).queue = [f]) ∧
    (∀ st ∈ [PortSt.locked, .block], ({ Port.none with st, queue := [f, f] } : Port).queue = f :: f :: []) ∧
    tOn.held 15 = false ∧ ({ tPort .locked 0 with bell := { Bell.reset with follow := none }, regs := [(fcPrio, 0x60)] } : State).held 0 = true := by decide +kernel

/-- ZeroCrossingsGateByTheLastValidSample: a change at the last boundary of its wait and no ramp, hit by 0 and missed by an invalid sample. -/
theorem test_meets_zero_crossing :
    let c : Chan := { Chan.free with zc := { Zc.none with pend := [⟨.mute, 0, some (0 + 1)⟩] } }
    c.zc.ramp = none ∧ c.zc.pend = [⟨.mute, 0, some (0 + 1)⟩] ∧ (∃ x : BitVec 24, some (0 : BitVec 24) = some x ∧ x = 0) ∧
      ¬∃ x : BitVec 24, none = some x := by
  refine ⟨rfl, rfl, ⟨0, rfl, rfl⟩, ?_⟩; rintro ⟨x, hx⟩; cases hx

/-- GeneralChecksDecideBeforeTheCommand: an entry that fails, one that waits for a window, one that fails its own check while it is open, one of
another opcode. -/
theorem test_meets_general :
    let s : State := { tZoo with gates := [(5, { Gate.none with live := true, open_ := true })] }
    let d := tEntry 0x0B01 1 [0x100]
    let x := tEntry 0x0B01 1 [0]
    (Instr.clear (tEntry 0x0603 0 [])).opcode ≠ 0 ∧ opcodeOf (tEntry 0x0603 0 []) = (Instr.clear (tEntry 0x0603 0 [])).opcode ∧
    tZoo.general (tEntry 0x0603 0 []) = some (stSize, 0xF1) ∧
    opcodeOf d = (Instr.domain d 0).opcode ∧ s.general d = none ∧ s.scopeOpen d = true ∧ s.svc.taken = none ∧
    deferFail (.domain d 0) s = none ∧ s.general x = none ∧ s.scopeOpen x = true ∧
    deferFail (.domain x 0) s = some (stState, 1) ∧
    opcodeOf (tEntry 0x0604 1 []) ≠ (Instr.clear (tEntry 0x0604 1 [])).opcode ∧ s.boot.phase = 6 ∧ State.reset.boot.phase ≠ 6 := by
  decide +kernel

/-- ChannelsAreAdmittedWholeAndDeletedInSteps. -/
theorem test_meets_channels :
    tZoo.accepts (tEntry 0x0101 9 [0x50000008, 0, 0, 0, 0, 0, 0, 0, 0]) 0x0101 ∧ tZoo.accepts (tEntry 0x0102 1 [tCh 0]) 0x0102 ∧
    (tZoo.chan 3).st = .deleting ∧ (tZoo.chan 3).opened = false :=
  ⟨tAccepts _ _ _ (by decide +kernel), tAccepts _ _ _ (by decide +kernel), by decide +kernel, by decide +kernel⟩

/-- BindingsAndStagedFieldsTakeTheirTurn: slot 1 of port 0 in plain mode to input 1 of the idle channel 0, binding 1 free. -/
theorem test_meets_bindings : let e := tEntry 0x0201 2 [tCh 0, 0x00091001]; let o := opN e 1
    tZoo.accepts e 0x0201 ∧ (tZoo.handleCheck 1 (opN e 0) = none ∧ (tZoo.chan 0).armed = false ∧ fld o 12 2 ≤ 2 ∧ fld o 16 8 ≤ 9 ∧
      tZoo.spWide (fld o 8 4) = false ∧ fld o 0 5 ≤ 1 ∧ tZoo.bindOf 0 (fld o 12 2) = none ∧
      (tZoo.bindsOfSlot (fld o 8 4) (fld o 0 5)).length < 4 ∧ tZoo.freeIndex 4 = some 1) ∧
    tZoo.accepts (tEntry 0x0202 1 [mkHandle 4 0 1]) 0x0202 ∧ tZoo.accepts (tEntry 0x0501 1 [tCh 0]) 0x0501 ∧ (tZoo.chan 0).st ≠ .deleting ∧
    tZoo.accepts (tEntry 0x0502 3 [tCh 0, 3, 255]) 0x0502 ∧ tZoo.accepts (tEntry 0x0503 1 [tCh 0]) 0x0503 ∧
    tZoo.accepts (tEntry 0x0504 1 [tCh 0]) 0x0504 :=
  ⟨tAccepts _ _ _ (by decide +kernel), by decide +kernel, tAccepts _ _ _ (by decide +kernel), tAccepts _ _ _ (by decide +kernel),
    by decide +kernel, tAccepts _ _ _ (by decide +kernel), tAccepts _ _ _ (by decide +kernel), tAccepts _ _ _ (by decide +kernel)⟩

theorem test_meets_staged_fields : tZoo.ownerOf 128 = some 0 ∧ (tZoo.chan 0).grp = some Group.none ∧ (tZoo.chan 0).adm.first = 128 ∧
    tZoo.ownerOf 129 = some 0 ∧ (tZoo.chan 0).adm.first ≠ 129 ∧
    ({ Chan.free with commit := some Group.none } : Chan).commit = some Group.none := by decide +kernel

/-- ArmingAndDisarmingTakeTheirBoundary: a channel that is ready, one that is not idle; a motor channel with its motor. -/
theorem test_meets_arming :
    (tZoo.accepts (tEntry 0x0601 1 [tCh 0]) 0x0601 ∧ tZoo.accepts (tEntry 0x0601 1 [tCh 1]) 0x0601 ∧ tZoo.accepts (tEntry 0x0602 1 [tCh 1]) 0x0602 ∧
      tZoo.accepts (tEntry 0x0603 1 [tCh 4]) 0x0603) ∧
    (tZoo.chan 1).st ≠ .idle ∧ (tZoo.chan 0).st = .idle ∧ tZoo.sec.unlocked = false ∧ (tZoo.chan 0).loop.img.isSome = true ∧
    (tZoo.chan 0).mdl.valid = true ∧ (tZoo.chan 0).mdl.rebuild = false ∧ (tZoo.chan 0).adm.kind ≠ 3 ∧ (tZoo.motorOf 2).isSome = true ∧
    tZoo.sideInSvc 0 false = true :=
  ⟨⟨tAccepts _ _ _ (by decide +kernel), tAccepts _ _ _ (by decide +kernel), tAccepts _ _ _ (by decide +kernel), tAccepts _ _ _ (by decide +kernel)⟩,
    by decide +kernel⟩

/-- GatedChangesStartWaitRampAndLand: the three commands, a ramp at its first and its last step. -/
theorem test_meets_gated_changes :
    tZoo.accepts (tEntry 0x0604 1 [tCh 5]) 0x0604 ∧ tZoo.accepts (tEntry 0x0605 1 [tCh 5]) 0x0605 ∧
    tZoo.accepts (tEntry 0x0606 2 [tCh 5, 32768]) 0x0606 ∧
    ∀ i ∈ [0, 63], ({ Zc.none with ramp := some ⟨.gain, 100, 0, i⟩ } : Zc).ramp = some ⟨.gain, 100, 0, i⟩ :=
  ⟨tAccepts _ _ _ (by decide +kernel), tAccepts _ _ _ (by decide +kernel), tAccepts _ _ _ (by decide +kernel), by decide⟩

/-- BeamGatesPlaceEdgesAndHoldLow: a block of gate 3 on slot 0 of port 0, wide with KIND 2; a gate to delete; a first edge. -/
def tGateState : State :=
  { tZoo with regs := [(spCtrl 0, 2), (spKindmap 0 0, 2)], dram := [(0x08000000, 1), (0x08000006, 1), (0x08000014, 1)] }

theorem test_meets_gate_new : let e := tEntry 0x0C31 4 [3, 0, 0x08000000, 64]; let s := tGateState
    s.accepts e 0x0C31 ∧ ((s.gate 3).live = false ∧ blockPlaced (opN e 2) (opN e 3) = true ∧ s.gateBlockOk 0x08000000 = true ∧
      s.gateBound 0x08000000 = [] ∧ s.spWide (s.blk 0x08000000 4 1) = true ∧
      s.kindOf (s.blk 0x08000000 4 1) (s.blk 0x08000000 5 1) = 2 ∧
      ∀ h ∈ tkeys s.gates, (s.gate h).live = true → ¬((s.gate h).port = 0 ∧ (s.gate h).slot = 1)) ∧
    tZoo.accepts (tEntry 0x0C32 1 [mkHandle 8 5 1]) 0x0C32 :=
  ⟨tAccepts _ _ _ (by decide +kernel), by decide +kernel, tAccepts _ _ _ (by decide +kernel)⟩

/-- ReportsAreLatchedStampedAndDispatched: a source that is ignored, one that is broken, and one of each class that reports. -/
theorem test_meets_reports :
    let s (c : Nat) : State := { tZoo with col := { Col.reset with srcQ := [⟨0xA0, 0, c, 1, 0⟩], unwatched := [0xA2], broken := [0xA1] } }
    (0xA2 : BitVec 8).toNat ∈ (s 0).col.unwatched ∧ (0xA1 : BitVec 8).toNat ∉ (s 0).col.unwatched ∧
    (0xA1 : BitVec 8).toNat ∈ (s 0).col.broken ∧ (0xA0 : BitVec 8).toNat ∉ (s 0).col.unwatched ∧ (0xA0 : BitVec 8).toNat ∉ (s 0).col.broken ∧
    (∀ c ∈ [0, 1, 2, 3, 4], leastReport (s c).col.srcQ (fun x => x.source == (0xA0 : BitVec 8).toNat) = some ⟨0xA0, 0, c, 1, 0⟩) ∧
    ((s 2).chan 0).st = .idle ∧ (s 2).layerOf 0 = false ∧
    ∀ r ∈ (s 2).col.srcQ, r.source ∈ (s 2).col.broken → r.cls ≤ 1 := by decide +kernel

/-- RecordsAreWrittenMergedFrozenAndReleased and StopsActAtTheirBoundaryOrAtOnce: a report served next, of the least and the greatest
class; a dispatched stop of an idle and of an armed channel. -/
theorem test_meets_records_and_stops :
    (∀ c ∈ [0, 4], let x : Stamped := ⟨⟨0xA0, 0, c, 1, 0⟩, 0, 0, 0, false, false⟩
      ({ tZoo with col := { Col.reset with intake := [x] } } : State).nextIntake = some (5, x) ∧ x.rep.cls ≤ 4) ∧
    let s : State := { tZoo with col := { Col.reset with reacts := [⟨0, ⟨0xA0, 0, 2, 1, 0⟩⟩, ⟨1, ⟨0xA0, 0, 2, 1, 1⟩⟩] } }
    { chan := 0, rep := ⟨0xA0, 0, 2, 1, 0⟩ } ∈ s.col.reacts ∧ (s.chan 0).st = .idle ∧
      { chan := 1, rep := ⟨0xA0, 0, 2, 1, 1⟩ } ∈ s.col.reacts ∧ (s.chan 1).st = .armed := by decide +kernel

/-- CarrierBoundariesFormTheNextPeriod: a free channel, the last boundary of a frame and the one past it. -/
theorem test_meets_carrier : let k := tZoo.m * (tZoo.chan 0).k
    (tZoo.chan 9).st = .free ∧ (tZoo.chan 0).st ≠ .free ∧ 0 < k ∧ k - 1 < 64 ∧ k - 1 < k ∧ k ≤ (63 : Fin 64).val := by decide +kernel

/-- PensAreIsolatedTestedAndSubstituted: an open and a closed span, a pen under self-test. -/
theorem test_meets_pens :
    let s : State := { tZoo with terms := [(3, { Term.none with spanOpen := true, span := [(0, 0)], selfTest := some 15 })] }
    (s.term 3).spanOpen = true ∧ (s.term 4).spanOpen = false ∧ (s.term 3).selfTest = some 15 := by decide

/-- GateEventsForcesAndEscalationsActOnTheLeg: an owned terminal whose parity failed twice, and whose readback failed four times. -/
theorem test_meets_escalation :
    let s : State := { tZoo with terms := [(0, { Term.none with parRun := 2, rbHist := [1, 2, 3, 4] })] }
    s.ownerOf 0 = some 1 ∧ 2 ≤ (s.term 0).parRun ∧ 4 ≤ (s.term 0).rbHist.length := by decide +kernel

/-- TimersAndTripGroupsOpenFireAndRelease. -/
theorem test_meets_timers_and_trips :
    tZoo.accepts (tEntry 0x0C01 2 [0x00050004, 0x00010000]) 0x0C01 ∧ tZoo.accepts (tEntry 0x0C11 2 [0x00010001, 0]) 0x0C11 ∧
    tZoo.accepts (tEntry 0x0C12 2 [mkHandle 10 3 1, tCh 0]) 0x0C12 ∧ tZoo.accepts (tEntry 0x0C13 1 [mkHandle 10 3 1]) 0x0C13 ∧
    ((tZoo.trip 3).active = false ∧ (tZoo.trip 3).fired = [] ∧ (tZoo.trip 3).firedFolds = []) :=
  ⟨tAccepts _ _ _ (by decide +kernel), tAccepts _ _ _ (by decide +kernel), tAccepts _ _ _ (by decide +kernel),
    tAccepts _ _ _ (by decide +kernel), by decide +kernel⟩

/-- MotorsHoldTheirTimerUntilTheyGo: a block at its least values on the idle motor channel 2, timer 0 on its first terminal. -/
def tMotorState : State :=
  { tZoo with motors := [], dram := [(0x08000000, 1), (0x08000004, 1), (0x08000007, 0x90), (0x0800000A, 1), (0x0800000C, 1), (0x0800000E, 1),
    (0x08000010, 1), (0x08000014, 2), (0x08000018, 1), (0x0800001C, 2), (0x08000020, 1), (0x08000022, 32), (0x0800002C, 4), (0x0800002E, 1),
    (0x08000030, 6), (0x08000034, 1), (0x08000036, 1), (0x08000038, 1)] }

theorem test_meets_motor_new : let e := tEntry 0x0C21 3 [tCh 2, 0x08000000, 64]; let s := tMotorState
    s.accepts e 0x0C21 ∧ ((s.chan 2).adm.kind = 3 ∧ (s.chan 2).st = .idle ∧ s.motorOf 2 = none ∧ blockPlaced (opN e 1) (opN e 2) = true ∧
      s.handleCheck 9 (BitVec.ofNat 32 (s.blk 0x08000000 4 4)) = none ∧ (s.timer 0).term ∈ (s.chan 2).terms ∧ (s.timer 0).event = 5 ∧
      s.motorBlockOk 0x08000000 = true ∧ s.blk 0x08000000 0x14 4 * 96 ≤ s.frate * s.m * (s.chan 2).k * 10 ∧ s.freeIndex 7 = some 0) ∧
    tZoo.accepts (tEntry 0x0C22 1 [mkHandle 7 0 1]) 0x0C22 ∧ tZoo.accepts (tEntry 0x0C02 1 [mkHandle 9 0 1]) 0x0C02 :=
  ⟨tAccepts _ _ _ (by decide +kernel), by decide +kernel, tAccepts _ _ _ (by decide +kernel), tAccepts _ _ _ (by decide +kernel)⟩

/-- CapturesAreCheckedFormedWrittenAndEnded. -/
theorem test_meets_captures :
    tZoo.accepts (tEntry 0x0701 3 [tCh 0, 0, 1]) 0x0701 ∧ tZoo.accepts (tEntry 0x0702 1 [mkHandle 5 0 1]) 0x0702 ∧
    tZoo.accepts (tEntry 0x0703 1 [mkHandle 5 0 1]) 0x0703 ∧ tZoo.accepts (tEntry 0x0704 1 [mkHandle 5 0 1]) 0x0704 ∧
    3 < [0, 1, 2, 11].length :=
  ⟨tAccepts _ _ _ (by decide +kernel), tAccepts _ _ _ (by decide +kernel), tAccepts _ _ _ (by decide +kernel),
    tAccepts _ _ _ (by decide +kernel), by decide⟩

/-- InjectionsAreCheckedRunAndFetchTheirChunks. -/
theorem test_meets_injections :
    tZoo.accepts (tEntry 0x0711 6 [tCh 0, 0x00010130, 1, 1, 1, 1]) 0x0711 ∧ tZoo.accepts (tEntry 0x0712 1 [mkHandle 6 0 1]) 0x0712 ∧
    tZoo.accepts (tEntry 0x0713 1 [mkHandle 6 0 1]) 0x0713 ∧ tZoo.accepts (tEntry 0x0714 1 [mkHandle 6 0 1]) 0x0714 :=
  ⟨tAccepts _ _ _ (by decide +kernel), tAccepts _ _ _ (by decide +kernel), tAccepts _ _ _ (by decide +kernel),
    tAccepts _ _ _ (by decide +kernel)⟩

/-- DiagnosisRunsStartStepEndAndWriteTheirResult. -/
theorem test_meets_diagnosis :
    tZoo.accepts (tEntry 0x0801 4 [tCh 0, 4, 0x08000000, 0x80]) 0x0801 ∧ tZoo.accepts (tEntry 0x0802 1 [mkHandle 11 0 1]) 0x0802 ∧
    tZoo.accepts (tEntry 0x0803 1 [mkHandle 11 0 1]) 0x0803 ∧ tZoo.accepts (tEntry 0x0804 1 [mkHandle 11 0 1]) 0x0804 :=
  ⟨tAccepts _ _ _ (by decide +kernel), tAccepts _ _ _ (by decide +kernel), tAccepts _ _ _ (by decide +kernel),
    tAccepts _ _ _ (by decide +kernel)⟩

/-- SecurityCommandsVerifyBurnAttestAndUnlock. -/
theorem test_meets_security :
    tZoo.accepts (tEntry 0x0901 2 [0x08000000, 0]) 0x0901 ∧ tZoo.accepts (tEntry 0x0902 2 [0, 8]) 0x0902 ∧
    tZoo.accepts (tEntry 0x0903 2 [0x08000000, 0x08000040]) 0x0903 ∧ tZoo.accepts (tEntry 0x0904 1 [0x08000000]) 0x0904 ∧
    tZoo.accepts (tEntry 0x0905 2 [0x08000000, 208]) 0x0905 :=
  ⟨tAccepts _ _ _ (by decide +kernel), tAccepts _ _ _ (by decide +kernel), tAccepts _ _ _ (by decide +kernel),
    tAccepts _ _ _ (by decide +kernel), tAccepts _ _ _ (by decide +kernel)⟩

/-- TestControllersTakeMoveTestAndJudge, DomainsSwitchAndSettleAsCommandedOrLost, ModelTablesAreBuiltSwappedAndRefitted,
TheStationIsDiscoveredFormedAndReported and ImagesAreVerifiedPlacedAndHeld. -/
theorem test_meets_units :
    tZoo.accepts (tEntry 0x0A01 1 [0x1000007F]) 0x0A01 ∧ tZoo.accepts (tEntry 0x0B01 1 [0x2F]) 0x0B01 ∧
    tZoo.accepts (tEntry 0x0402 3 [mkHandle 3 0 1, 0x08000000, 0]) 0x0402 ∧ tZoo.accepts (tEntry 0x0B02 0 []) 0x0B02 ∧
    tZoo.accepts (tEntry 0x0B03 0 []) 0x0B03 ∧ tZoo.accepts (tEntry 0x0301 3 [tCh 0, 0x08000000, 0]) 0x0301 ∧
    tZoo.accepts (tEntry 0x0401 3 [31, 0x08000000, 0]) 0x0401 :=
  ⟨tAccepts _ _ _ (by decide +kernel), tAccepts _ _ _ (by decide +kernel), tAccepts _ _ _ (by decide +kernel),
    tAccepts _ _ _ (by decide +kernel), tAccepts _ _ _ (by decide +kernel), tAccepts _ _ _ (by decide +kernel),
    tAccepts _ _ _ (by decide +kernel)⟩

/-- PairsThatStopAreReplacedOrStopWhatTheyServe: the first and the last module core pair. -/
theorem test_meets_pairs : (8 : Fin 16).val = 8 + 2 * (0 : Fin 4).val + b2n false ∧ (15 : Fin 16).val = 8 + 2 * (3 : Fin 4).val + b2n true := by
  decide

/-- SensePortsConvertSaturateAndKeepTheirSettings, MotorsAlignRampAndAcceptTheirCrossings, RingEnableClearsAndGuardsTheRingRegisters. -/
theorem test_meets_sense_motor_ring :
    (tZoo.sns 255).pend = [] ∧
    (∀ b ∈ [3, 4], ∃ row, (row, b) ∈ [(Instr.lockedRotor 2 0, 3), (.rampHoldEnd 2 0, 4)]) ∧
    (tZoo.ringOn 7 = false ∧ ({ tZoo with regs := [(ringCtrl 7, 1)] } : State).ringOn 7 = true) ∧ 0x14 ∈ [0x04, 0x08, 0x0C, 0x10, 0x14] := by
  refine ⟨by decide +kernel, ?_, by decide +kernel, by decide⟩
  intro b hb; simp at hb; rcases hb with rfl | rfl
  · exact ⟨_, List.mem_cons_self ..⟩
  · exact ⟨_, List.mem_cons_of_mem _ (List.mem_cons_self ..)⟩

/-- A maintenance request of one word to the module of an address, with its CRC (R519). -/
def tMnt (dev : Nat) (a : Nat) : List (BitVec 8) :=
  let h := [0xA5, BitVec.ofNat 8 dev, 1] ++ leBytes 4 a ++ [1]
  h ++ leBytes 2 (mntCrc h)

theorem test_meets_maintenance : let q := tMnt tOn.stn.pos 0x1FFFFFC
    tOn.col.broken.contains srcMnt = false ∧ q.length = 10 ∧ bytesAt q 0 1 = 0xA5 ∧ bytesAt q 1 1 = tOn.stn.pos ∧ bytesAt q 2 1 = 1 ∧
    bytesAt q 3 4 = 0x1FFFFFC ∧ bytesAt q 7 1 = 1 ∧ 0x1FFFFFC + 4 * 1 ≤ 0x2000000 ∧ bytesAt q 8 2 = mntCrc (q.take 8) ∧ q.dropLast.length ≠ 10 := by
  decide +kernel

/-- TheHostSideReadsWritesResetsAndAcknowledges and Bar2ReadsWritesAndGuardsModuleDram: an aligned and a misaligned address, 4 bytes to
an event register; the last byte of DRAM and the one past it. -/
theorem test_meets_host :
    (0x1FFFFFC : BitVec 25).toNat % 4 = 0 ∧ (3 : BitVec 25).toNat % 4 ≠ 0 ∧ isEvt hostEvt = true ∧ tOn.offWord hostEvt = false ∧
    tOn.absentWord hostEvt = false ∧ ¬dramSize < (0x3FFFFFFF : BitVec 30).toNat + 1 ∧ dramSize < (0x3FFFFFFF : BitVec 30).toNat + 2 ∧
    capBase < (0x10000000 : BitVec 30).toNat + 1 ∧ ¬capBase < (0x0FFFFFFF : BitVec 30).toNat + 1 := by decide +kernel

/-- ClockLossStopsTheModuleAndTheTestPortIsGuarded and TheCalendarIsSetSyncedAndSupplied: the test port locked and open. -/
theorem test_meets_test_port :
    tOn.jtagOpen = false ∧ ({ tOn with sec := { Sec.reset with unlocked := true, scope := 2 } } : State).jtagOpen = true ∧
    tOn.pending = [] := by decide

/-- A run of instance A (engine 0) or of a model (engine 128) that has reached one word. -/
def tRun (model : Bool) (w : W) : State :=
  { tOn with
    runs := [(if model then 128 else 0, { Run.none with live := true, model })]
    images := [(0, { Image.none with words := [w], stateBytes := 128 })], chans := [(0, { tChan 0 1 with loop := { LoopPart.none with img := some 0 } })] }

def tWord (op rest : Nat) : W := BitVec.ofNat 32 (op * 2 ^ 26 + rest)

/-- Iatia…: every opcode's word is reached, on a loop engine and on a model engine; inside a skipped span; a load outside the view. -/
theorem test_meets_words : ∀ op < 64, (tRun false (tWord op 0)).stdRun ((tRun false (tWord op 0)).run 0) = false ∧
    (tRun true (tWord op 0)).stdRun ((tRun true (tWord op 0)).run 128) = false ∧ opField (tWord op 0) = op ∧ ((tRun false (tWord op 0)).run 0).live = true ∧
    ((tRun false (tWord op 0)).runWords ((tRun false (tWord op 0)).run 0))[((tRun false (tWord op 0)).run 0).pc]? = some (tWord op 0) ∧
    ((tRun true (tWord op 0)).runWords ((tRun true (tWord op 0)).run 128))[0]? = some (tWord op 0) ∧
    ((tRun false (tWord op 0)).run 0).skip ≤ ((tRun false (tWord op 0)).run 0).pc := by decide +kernel

theorem test_meets_places : let s := tRun false (tWord 8 0); let r := s.run 0
    s.placeOf r 0x80 2 = .state 0 ∧ s.placeOf r 0xFE 2 = .state 0x7E ∧ s.placeOf r 0x100 2 = .outside ∧ s.placeOf r 0x81 2 = .outside ∧
    s.placeOf r 0x7E 2 = .coef 0x7E ∧ (s.run 1).live = false ∧ s.stdRun r = false ∧ fMisc (tWord 0x2F 0) % 2 = 0 ∧ fMisc (tWord 0x2F 1) % 2 = 1 := by decide +kernel

/-- A run of one of Dwentora's images, at the pc-th of its acts. -/
def tStd (model : Bool) (pc : Nat) : State :=
  let s := tRun model 0
  let e := if model then 128 else 0
  { s with images := [(0, { s.image 0 with std := 1 })], runs := [(e, { s.run e with pc })] }

/-- IatiaRunsLoadStoreCommandLoopAndEnd: the acts of a run of Dwentora's on a loop engine, and on a model engine. -/
theorem test_meets_std_acts : ∀ x ∈ [(0x32, false, 0), (0x2F, false, 1), (0x09, false, 2), (0x3D, false, 3), (0x0B, false, 4), (0x34, false, 5),
      (0x36, true, 0), (0x0B, true, 1)], let s := tStd x.2.1 x.2.2
    let r := s.run (if x.2.1 then 128 else 0)
    r.live = true ∧ s.stdRun r = true ∧ (s.runWords r)[r.pc]? = some (tWord x.1 0) ∧ opField (tWord x.1 0) = x.1 ∧ r.skip ≤ r.pc := by
  decide +kernel

/-- LoopPeriodsLatchStartCutAndSupervise: the law in manual, and automatic from a preset after manual. -/
theorem test_meets_pid : (∃ co : Nat → W, bitOf (co 6) 0 = false) ∧ ∃ co : Nat → W, bitOf (co 6) 0 = true ∧ bitOf (co 6) 1 = false :=
  ⟨⟨fun _ => 0, rfl⟩, ⟨fun _ => 1, rfl, rfl⟩⟩

/-- LoopPeriodsLatchStartCutAndSupervise and LeasesAreGrantedJudgedExpiredAndResynchronised: a latch that begins a motion period, with an armed
channel due on a side that runs, and a due channel of a holder that is judged. -/
theorem test_meets_latch :
    let s : State := { tZoo with chans := [(1, { tChan 0 1 with st := .armed, lease := { Lease.none with holder := some false } })] }
    s.flockOn 0 = true ∧ s.loopIndex 0 % s.nM = 0 ∧ 1 ∈ s.due 0 (s.loopIndex 0) ∧ (s.chan 1).armed = true ∧ (s.chan 1).inp.late = 0 ∧
    s.sideRuns 1 false = true ∧ s.sideRuns 1 true = true ∧ (s.chan 1).lease.holder = some false ∧ s.foldServed 0 (s.judgePt 0) = true ∧
    (tkeys s.chans).Nodup := by decide +kernel

-- ---------------------------------------------------------------- one step of each family

/-- What a command leaves, where it completes. -/
def tAfter (c : Instr) (s : State) : State := match exec c s with | .next t => t | _ => State.reset

/-- The last completion of ring 0: status, result, check. -/
def tLast (s : State) : Option (Nat × W × Nat) := (s.ring 0).done.getLast?.map (fun c => (c.status, c.result, c.check))

/-- R482: the start of a fold's slot brings up its domain and those of its four flocks. -/
theorem test_fold_slot_domains : let t := tAfter (.foldSlotStart 2) { State.reset with boot := { State.reset.boot with phase := 3, foldUp := 3 } }
    t.domOn 34 = true ∧ t.domOn 8 = true ∧ t.domOn 11 = true ∧ t.domOn 12 = false ∧ t.domOn 33 = false := by decide +kernel

/-- R89, R93: the third whole frame in a row moves the port from ACQUIRE to FRAME; R105: a change of MODE while enabled is ignored. -/
theorem test_port_third_frame : ((tAfter (.streamFrame 0 (tFrame 2 false)) (tPort .acquire 2)).port 0).st = .frame := by decide +kernel
theorem test_port_locked_setting : (tAfter (.spCtrlWrite 0 3) (tPort .locked 0)).reg (spCtrl 0) = 1 := by decide +kernel

/-- R108: the frame count is 48 bits and wraps. -/
theorem test_frame_count_wraps :
    (tAfter (.frameBoundary 4266666 []) { tOn with bell := { Bell.reset with frame := 0xFFFFFFFFFFFF } }).bell.frame = 0 := by decide +kernel

/-- R117: UNBAR clears the named bar alone. -/
theorem test_unbar : (tAfter (.unbar 0b0101) { tOn with bell := { Bell.reset with barred := 0b1111 } }).bell.barred = 0b1010 := by decide +kernel

/-- R52, R291, R306: a stale handle; CLEAR of a channel that is not stopped; of one that is. -/
theorem test_clear_stale : tLast (tAfter (.clear (tEntry 0x0603 1 [mkHandle 1 0 2])) tZoo) = some (stStale, 0, 0xF4) := by decide +kernel
theorem test_clear_idle : tLast (tAfter (.clear (tEntry 0x0603 1 [tCh 0])) tZoo) = some (stState, 0, 1) := by decide +kernel
theorem test_clear_stopped : let t := tAfter (.clear (tEntry 0x0603 1 [tCh 4])) tZoo
    (t.chan 4).clearPend = true ∧ tLast t = some (stOk, 0, 0) ∧ ((tAfter (.carrierBoundary (.channel 4 0) false 0 none []) t).chan 4).st = .idle := by decide +kernel

/-- R50: the generation after 0xFFFF is 1. -/
theorem test_generation_wraps : nextGen 0xFFFF = 1 ∧ nextGen 1 = 2 := by decide

/-- R130: the binding takes the lowest free index, with its handle as result. -/
theorem test_bind_result : tLast (tAfter (.bind (tEntry 0x0201 2 [tCh 0, 0x00091001])) tZoo) = some (stOk, 0x40010001, 0) := by decide +kernel

/-- R168: at D = 1/2 of 4,000 pt with a threshold of 250 the pulse is 2,000 pt, centred; 100 pt are carried on; 3,600 pt give a
whole period with −400 carried. -/
theorem test_treat_pulse : let q := treat 0 4000 250 2000 0
    q.row = 0 ∧ q.cr = 1000 ∧ q.cf = 3000 ∧ q.rNew = 0 := by decide
theorem test_treat_low : let q := treat 0 4000 250 60 40
    q.row = 2 ∧ q.deliv = 0 ∧ q.rNew = 100 := by decide
theorem test_treat_high : let q := treat 0 4000 250 3600 0
    q.row = 2 ∧ q.deliv = 4000 ∧ q.rNew = -400 := by decide

/-- R175: a force needs its key. -/
theorem test_crook_key : ((tAfter (.crookWrite 128 0xC4000003) tZoo).term 128).forceQ = none ∧
    ((tAfter (.crookWrite 128 0xC5000003) tZoo).term 128).forceQ = some 3 := by decide +kernel

/-- R207: a group that trips stops its channels. -/
theorem test_trip_stops : ((tAfter (.externalTrip 3 [true] 0) { tZoo with trips := [(3, { Trip.none with live := true, high := true, n := 1, m := 1, scope := 1, chans := [1] })] }).chan 1).st
    = .stopped := by decide +kernel

/-- R392: TIMER.DEL is refused while a motor names the timer. -/
theorem test_timer_named : tLast (tAfter (.timerDel (tEntry 0x0C02 1 [mkHandle 9 0 1]))
    { tZoo with motors := [(0, { Motor.none with live := true, timer := 0 })] }) = some (stState, 0, 1) := by decide +kernel

/-- R399, R400: an edge that is due gives the contact its level, and one that is not does not. -/
theorem test_gate_edge : let s (at_ : Nat) : State := { tZoo with gates := [(5, { Gate.none with live := true, pend := [⟨at_, true⟩] })] }
    ((tAfter (.gateEdge 5 100) (s 104)).gate 5).level = true ∧ ((tAfter (.gateEdge 5 100) (s 105)).gate 5).level = false := by
  decide +kernel

/-- R410, R420: the third conviction retires an engine. -/
theorem test_third_conviction :
    let s : State := { tZoo with chans := [(1, { tChan 0 1 with st := .armed, lease := { Lease.none with holder := some false, miss := 3 } })]
                                 health := [(0, { Health.none with convicts := 2 })] }
    let t := tAfter (.leaseExpiry 1) s
    (t.hlt 0).hstate = 4 ∧ (t.hlt 0).convicts = 3 ∧ (t.chan 1).lease.holder = none := by decide +kernel

/-- R513: a doorbell of 0 is bad, one of 1 on an enabled ring announces one. -/
theorem test_doorbell : let s : State := { tOn with regs := [(ringCtrl 0, 1)] }
    (tAfter (.doorbell 0 1) s).reg (sqTail 0) = 1 ∧ (tAfter (.doorbell 0 0) s).reg (sqTail 0) = 0 ∧
    (tAfter (.doorbell 0 0) s).reg hostEvt = 4 := by decide +kernel

/-- R503, R451: a host reset returns the credits held, and a doorbell that comes after it breaks no tally. -/
theorem test_credits_returned : let s : State := { tOn with regs := [(ringCtrl 0, 1)] }
    let t := tAfter (.hostReset false) (tAfter (.doorbell 0 3) s)
    t.reg (crReturned 0) = 3 ∧ t.reg (sqTail 0) = 3 ∧ (tAfter (.doorbell 0 1) t).tal.broken = 0 := by decide +kernel

/-- R504, R10: a misaligned write only sets BAD_ACCESS; R127: a 1 clears an event bit. -/
theorem test_write_misaligned : (tAfter (.registerWrite 0x2 (leBytes 4 5)) tOn).reg hostEvt = 2 := by decide +kernel
theorem test_event_cleared : (tAfter (.registerWrite 0x14 (leBytes 4 2)) { tOn with regs := [(hostEvt, 6)] }).reg hostEvt = 4 := by decide +kernel

/-- R508: BAR2 gives back what it wrote, lowest byte at the lowest address. -/
theorem test_bar2_round : (tAfter (.bar2Read 0x100 2 false) (tAfter (.bar2Write 0x100 [0xAB, 0xCD]) tOn)).host.bar2Resp = some ([0xAB, 0xCD], false) := by
  decide +kernel

/-- R499: a calendar write without its key does nothing. -/
theorem test_calendar_key : (tAfter (.calendarSet 0x5D000000) tOn).boot.calPend = none ∧ (tAfter (.calendarSet 0x5E000001) tOn).boot.calPend = some (0, 1) := by
  decide +kernel

/-- R534: IDCODE with the port locked is a bypass. -/
theorem test_jtag_locked : (tAfter .jtagIdcode tOn).jtag.captured = [false] := by decide +kernel

/-- R488: a token with 8 hops leaves the module standalone. -/
theorem test_token_hops : (tAfter (.discoveryToken 0 8 0) { tOn with stn := { Stn.reset with lanes := [(0, 4)], dstate := 2 } }).stn.dstate = 6 := by decide +kernel

/-- R260: ADD saturates with V and SAT; the register written may be a source. -/
theorem test_word_add : let s := tRun false (tWord 0x10 (1 * 2 ^ 21 + 1 * 2 ^ 16 + 2 * 2 ^ 11))
    let r := (tAfter (.iaAdd 0 0) { s with runs := [(0, { s.run 0 with x := [(1, 0x7FFF), (2, 1)] })] }).run 0
    r.xw 1 = 0x7FFF ∧ r.v = true ∧ r.sat = true ∧ r.pc = 1 := by decide +kernel

/-- R260: MUL doubles the product, −1 × −1 in Q1.15 needs more than 32 bits. -/
theorem test_word_mul : let s := tRun false (tWord 0x20 0)
    ((tAfter (.iaMul 0 0) { s with runs := [(0, { s.run 0 with x := [(0, 0x8000)] })] }).run 0).aci 0 = 2147483648 := by decide +kernel

/-- R263: a division by 0 gives the limit of its sign, V, SAT and DZ, in 16 cycles. -/
theorem test_word_div_zero : let r := (tAfter (.iaDiv 0 0) (tRun false (tWord 0x30 0))).run 0
    r.xw 0 = 0x7FFF ∧ r.v = true ∧ r.sat = true ∧ r.dz = true ∧ r.cc = 16 := by decide +kernel

/-- R255, R256, R260: STH then LDH at the first byte of the state area, and a load outside the view gives 0 with the bounds fault. -/
theorem test_word_store : let s := tRun false (tWord 0x09 0x80)
    let t := tAfter (.iaSth 0 0) { s with runs := [(0, { s.run 0 with x := [(0, 0xBEEF)] })] }
    (t.run 0).bounds = 0 ∧ t.wsVal 0 0x80 2 = 0xBEEF := by decide +kernel
theorem test_word_load_outside : let t := tAfter (.iaLdh 0 0) (tRun false (tWord 0x08 0x7F0))
    (t.run 0).bounds = 1 ∧ (t.run 0).xw 0 = 0 := by decide +kernel

/-- R74: the eight UI of a preamble in both line states, and what is none. -/
theorem test_preambles : (∀ b ∈ [false, true], ∀ x ∈ [(0xE2, Preamble.x), (0xE4, .y), (0xE8, .z)],
    preambleOf ⟨if b then ~~~x.1 else x.1, b, 0, false, false, false, false⟩ = some x.2) ∧
    preambleOf ⟨0xE2, true, 0, false, false, false, false⟩ = none := by decide

/-- R75: professional word length 1 0 0 of a 24-bit word is 20 bits, of a 20-bit word 16. -/
theorem test_word_length : csWlen (BitVec.ofNat 192 (1 + 4 * 65536 + 8 * 65536)) = 2 ∧ csWlen (BitVec.ofNat 192 (1 + 8 * 65536)) = 1 := by decide

/-- R222, R347: GAIN 1/2, offset −10: a value of 1 gives −9.5, which rounds away from 0. -/
theorem test_calibration_rounds : ({ tOn with regs := [(snsReg 0 0x08, 0x2000), (snsReg 0 0x0C, 0xFFFFF6)] } : State).calibrated 0 1 1 = BitVec.ofInt 24 (-10) := by
  decide +kernel

/-- R140, R141: a mute and a gain that wait together land at the same crossing. -/
theorem test_changes_land_together :
    let c : Chan := { Chan.free with zc := { Zc.none with gain := 32768, pend := [⟨.mute, 0, some 3⟩, ⟨.gain, 16384, some 1⟩] } }
    let t := (c.zcStep (some 0) 5).zc
    (t.pend, t.muted, t.gain) = ([], true, 16384) := by decide +kernel

/-- R229: in manual the stage output is MAN_OUT. -/
theorem test_manual_output : (pidLaw Latch.none (fun w => if w = 7 then 0x1234 else 0)
    { i := 5, d := 0, xprev := 0, uSat := 0, manual := false, ic := 0, cSat := 0, n1 := [], n2 := [] }).u = 0x1234 := by decide +kernel

-- ---------------------------------------------------------------- signed objects

/-- The entries of DRAM that hold bytes from an address on, and what is read of them. -/
def tPut : Nat → List (BitVec 8) → List (Nat × BitVec 8)
  | _, [] => []
  | a, b :: r => if b = 0 then tPut (a + 1) r else (a, b) :: tPut (a + 1) r

theorem tget_tPut (l : List (BitVec 8)) : ∀ a k, tget 0 (tPut a l) k = if a ≤ k then l.getD (k - a) 0 else 0 := by
  induction l with
  | nil => intro a k; simp [tPut, tget]
  | cons b r ih =>
    intro a k
    have e (h : a < k) : (b :: r).getD (k - a) 0 = r.getD (k - (a + 1)) 0 := by
      rw [show k - a = k - (a + 1) + 1 by omega]; rfl
    by_cases h : a < k
    · rw [if_pos (by omega), e h, tPut]; split
      · rw [ih, if_pos (by omega)]
      · rw [tget, if_neg (by omega), ih, if_pos (by omega)]
    · rw [tPut]; by_cases g : a = k
      · subst g; split
        · rw [ih, if_neg (by omega)]; simp_all
        · simp [tget]
      · rw [if_neg (by omega : ¬a ≤ k)]; split
        · rw [ih, if_neg (by omega)]
        · rw [tget, if_neg g, ih, if_neg (by omega)]

theorem dramBytes_tPut (s : State) (l : List (BitVec 8)) (h : s.dram = tPut 0 l) : s.dramBytes 0 l.length = l := by
  apply List.ext_getElem
  · simp [State.dramBytes]
  · intro i h1 h2
    simp only [State.dramBytes, State.dramByte, h, List.getElem_map, List.getElem_range, tget_tPut]
    simp [h2]

/-- A P-384 public key of the author's, as a number, and its digest: what BUILDER_HASH holds. -/
def tKey : Nat := 0x3cabc9df9ddc151a81191e01df65ec950910ae87db19d00a73e480b43b21d23ca548d13b0ad56a3268932cf7f36f6a0183dc188cb22be578c7f795e3431754632b601b264c9f8fad0808a7721c12ae18f6355bc90e850f3987b55e919560f9fb04
def tHash : BitVec 384 := 0xa15535c125a7f20fff4702f3b9ed621c4dd63caa70947c5b7c39296bb41dff737689f8f31512b500c16f0260ee5deae7

theorem test_key_hash : digestOf (leBytes 97 tKey) = tHash := by decide +kernel

/-- A loop image LSE, OUT, END of WCC 3 and VERSION 3 with its signature block, ADVANCE set, and a debug response, under that key. -/
def tImage : Nat :=
  0x136032c4caebf21475ed6077c2b1169458ef98ba190173d40a4d0aeb9b7f1cb2e3d6e50230de18ab729d587745f8a2e59a4c52feb4e336aef554aafb2b29d0079db6dcd3adea682a274c83c1f20445c955970342a35418ccc2f8345462b6df720000000000000000000000000000000000000000000000000000000000000000000000000000000000000000000000000000000000000000000000000000000000000000000000000000000000000000000000000000000000000000000000000000000000000000000000000000000000000000000000000000000000000000000000000000000000000000000000000000000000000000000000000000000000000000000000000000000000000000000000000000000000000000000000000000000000000000000000000000000000000000000000000000000000000000000000000000000000000000000000000000000000000000000000000000000000000000000000000000000000000000000000000000000000000000000000000000000000000000000000000000000000000000000000000000000000000000000000000000000000000000000000000000000000000000000000000000000000000000000000000000000000000000000000000000000000000000000000000000000000000000000000000000000000000000000000000000000000000000000000000000000000000000000000000000000000000000000000000000000000000000000000000000000000000000000000000000000000000000000000000000000000000000000000000000003cabc9df9ddc151a81191e01df65ec950910ae87db19d00a73e480b43b21d23ca548d13b0ad56a3268932cf7f36f6a0183dc188cb22be578c7f795e3431754632b601b264c9f8fad0808a7721c12ae18f6355bc90e850f3987b55e919560f9fb040000000000000000000000000000000000000000000000000000000000000000000000ac000000020001000157474953000000000000000000000000000000000000000000000000000000000000000000000000000000000000000000000000000000000000000000000000000000000000000000000000000000000000000000000000000000000000000000000000000000000000000000000000000000000000000000000000000000000000000004000000f4000000c8000000000000000000000000000003000000070000000000030003000100014c544149
def tResponse : Nat :=
  0x5377caa472e8566fa6feb16418b514be233060b13613c717b97a13d01dda94fec82026bf4a55c5a78f5c3566d1d4bd29a4c52feb4e336aef554aafb2b29d0079db6dcd3adea682a274c83c1f20445c955970342a35418ccc2f8345462b6df72000000000000003cabc9df9ddc151a81191e01df65ec950910ae87db19d00a73e480b43b21d23ca548d13b0ad56a3268932cf7f36f6a0183dc188cb22be578c7f795e3431754632b601b264c9f8fad0808a7721c12ae18f6355bc90e850f3987b55e919560f9fb040003000150534544

def tSigned (n x : Nat) : State :=
  { tZoo with
    sec := { Sec.reset with builderHash := some tHash }, dram := tPut 0 (leBytes n x)
    chans := [(0, { tChan 128 2 with adm := { Adm.none with first := 128, kind := 2, wcc := 8, wsKib := 4, engB := 1 } })] }

theorem test_image_verifies : (tSigned 908 tImage).verifyObject 0 908 1 = some (leBytes 172 tImage) := by
  have h : (tSigned 908 tImage).dramBytes 0 908 = leBytes 908 tImage := dramBytes_tPut _ (leBytes 908 tImage) rfl
  simp only [State.verifyObject, h]; decide +kernel

/-- SecurityCommands…: a response with SCOPE 3 to the challenge of count 0, time 0 and a random part of 0 under a MODULE_ID of 0 verifies (the
MODULE_ID itself comes of the module's private key, which is a free value). -/
theorem test_meets_response : respSigned (Chal.bytesOf 0 ⟨0, 0, 0⟩) (leBytes 208 tResponse) = true ∧
    digestOf (((leBytes 208 tResponse).drop 8).take 97) = tHash := by decide +kernel

/-- ImagesAreVerifiedPlacedAndHeld: the image fits channel 0. -/
theorem test_meets_load : let s := tSigned 908 tImage; let e := tEntry 0x0301 3 [tCh 0, 0, 908]; let x := imageOf (leBytes 172 tImage) 2 0
    s.accepts e 0x0301 ∧ (s.handleCheck 1 (opN e 0) = none ∧ (s.chan 0).st ≠ .armed ∧ s.testing 1 (4 * (s.chan 0).flock) = false ∧
      layoutOk (leBytes 172 tImage) = true ∧ check6 1 x.kind x.wcc x.words = none ∧ wccOf x.words ≤ (s.chan 0).adm.wcc ∧
      128 + 2 * x.stateBytes ≤ (s.chan 0).adm.wsKib * 1024 ∧ s.storeRoom (s.chan 0).flock 0 0 x = true ∧
      s.storeRoom (s.chan 0).flock 1 0 x = true) :=
  ⟨tAccepts _ _ _ (by decide +kernel), by decide +kernel⟩

-- ---------------------------------------------------------------- the clauses of the longer statements

/-- Channel 0 armed, of a kind and mode from terminal 128 on, with a step, its motor in a motor state, and force 2 on the legs named. -/
def tLegs (kind mode step mstate : Nat) (forced : List Nat) : State :=
  { tZoo with
    chans := [(0, { tChan 128 kind with st := .armed, step, md := { Chan.free.md with mode } })]
    terms := forced.map (fun q => (q, { Term.none with forceEff := 2 }))
    motors := [(0, { Motor.none with live := true, chan := 0, mstate })] }

/-- CarrierBoundariesFormTheNextPeriod: mode 1 with no leg overridden, leg A, leg B and both; mode 2 with either; mode 3; mode 4 in each step;
MotorsRunBrakeCoastAndRetry: step 7 in BRAKE and in COAST. -/
theorem test_meets_mode1 : [([], true, true), ([128], false, true), ([129], true, false), ([128, 129], false, false)].all (fun x =>
    let s := tLegs 2 1 0 0 x.1; let o := (clearDone 0 s).override 0
    decide ((s.chan 0).st ≠ .free ∧ 0 < s.m * (s.chan 0).k ∧ (s.chan 0).adm.kind = 2 ∧ (s.chan 0).md.mode = 1 ∧
      ((o 128).isNone, (o 129).isNone) = x.2)) = true := by decide +kernel
theorem test_meets_modes : [([], 2, 2), ([128], 2, 2), ([129], 2, 2), ([], 1, 3)].all (fun x => let s := tLegs x.2.1 x.2.2 0 0 x.1
    decide ((s.chan 0).st ≠ .free ∧ 0 < s.m * (s.chan 0).k ∧ (s.chan 0).adm.kind = x.2.1 ∧ (s.chan 0).md.mode = x.2.2)) = true := by decide +kernel
theorem test_meets_mode4 : [0, 1, 2, 3, 4, 5].all (fun step => let s := tLegs 3 4 step 0 []
    decide ((s.chan 0).adm.kind = 3 ∧ (s.chan 0).md.mode = 4 ∧ (pwmLeg step).isSome = true ∧ (lowLeg step).isSome = true ∧ (floatLeg step).isSome = true) &&
      [128, 129, 130].all (fun q => ((clearDone 0 s).override 0 q).isNone)) = true := by decide +kernel
theorem test_meets_step7 : [4, 5].all (fun mstate => let s := tLegs 3 4 7 mstate []
    decide (s.motorOf 0 = some 0 ∧ (s.motor 0).mstate = mstate ∧ (s.chan 0).step = 7 ∧ (s.chan 0).adm.kind = 3 ∧ (s.chan 0).md.mode = 4 ∧
      (s.chan 0).st ≠ .free ∧ 63 < s.m * (s.chan 0).k + 64) && [128, 129, 130].all (fun q => ((clearDone 0 s).override 0 q).isNone)) = true := by
  decide +kernel

/-- A clamp that was in time; a terminal of no channel with a pen to retire on a fold that is served. -/
theorem test_meets_clamp_and_idle : (∃ c : Chan, c.clampQ = some (5, -5) ∧ c.clampQ.isSome = true ∧ (-5 : Int) ≤ 5) ∧
    let s : State := { tOn with terms := [(300, { Term.none with retire := [15] })] }
    s.ownerOf 300 = none ∧ foldOf 300 = 4 ∧ s.flockOn (flockOf 300) = true ∧ s.foldServed 4 0 = true ∧ 15 ∈ (s.term 300).retire :=
  ⟨⟨{ Chan.free with clampQ := some (5, -5) }, rfl, rfl, by decide⟩, by decide +kernel⟩

/-- OnTimeIsDeliveredDroppedOrCarried: the three cases at their edges; a pulse and an inverse that repeat. -/
theorem test_meets_on_time : let row (t : Int) := (treat 0 100 10 t 0).row
    (row 0, row 9, row 10, row 80, row 81, row 100) = (1, 2, 0, 0, 2, 1) ∧ min 5 (5 - 1) ≠ min 2 (5 - 1) := by decide

/-- PensAreIsolatedTestedAndSubstituted and every act of a fold supervisor: a fold that is served with nothing waiting and one that is not; a
substitution in overlap and none; a pen under self-test. -/
theorem test_meets_supervised : 
    let s : State := { tOn with
      fs := [(1, { tOn.fsPair 1 with st := 2 })], regs := [(psReg 0 0x04, 0x20)]
      terms := [(0, { Term.none with selfTest := some 3, spanOpen := true, span := [(0, 0)] })] }
    s.foldServed 0 0 = true ∧ (s.fold 0).waits = [] ∧ s.foldServed 1 0 = false ∧ s.substSt 0 = 2 ∧ s.substSt 1 ≠ 2 ∧ (s.term 0).selfTest = some 3 := by
  decide +kernel

/-- FoldTripsStopEveryChannelOfTheFold: the supplies up and down. TimersAndTripGroups…: a timer that two groups name. -/
theorem test_meets_trips : tOn.boot.down = false ∧ ({ tOn with boot := { tOn.boot with down := true } } : State).boot.down = true ∧
    let s : State := { tZoo with trips := [(3, { Trip.none with live := true, timer := some 0 }), (4, { Trip.none with live := true, timer := some 0 })] }
    s.tripsOf 0 = [3, 4] ∧ (s.tripsOf 0).Nodup := by decide +kernel

/-- Groups that TRIP.DEL takes: latched, active on a channel, active with none, of scope 2 active and not. -/
theorem test_meets_trip_del : let g (x : Trip) : Trip := { x with live := true }
    [(g { Trip.none with fired := [1] }, true), (g { Trip.none with scope := 1, active := true, chans := [1] }, true),
      (g { Trip.none with scope := 1, active := true }, false), (g { Trip.none with scope := 2, active := true }, true),
      (g { Trip.none with scope := 2 }, false)].all (fun x =>
        (decide (x.1.fired ≠ [] ∨ x.1.firedFolds ≠ [] ∨ x.1.active = true ∧ (x.1.scope = 1 ∧ x.1.chans ≠ [] ∨ x.1.scope = 2)) == x.2) &&
          decide ((({ tZoo with trips := [(3, x.1)] } : State).general (tEntry 0x0C13 1 [mkHandle 10 3 1])) = none)) = true := by decide +kernel

/-- BindingsAndStagedFieldsTakeTheirTurn: fields that STAGE.SET does not take, each at an edge. -/
theorem test_meets_stage_refused : [(0, 0), (1, 2), (2, 2), (3, 0), (3, 256), (4, 0)].all (fun x =>
    let e := tEntry 0x0502 3 [tCh 0, BitVec.ofNat 32 x.1, BitVec.ofNat 32 x.2]; let v := (opN e 2).toNat; let field := fld (opN e 1) 0 8
    decide (tZoo.boot.phase = 6 ∧ opcodeOf e = 0x0502 ∧ ¬((field = 1 ∨ field = 2) ∧ v ≤ 1 ∨ field = 3 ∧ 1 ≤ v ∧ v ≤ 255) ∧
      tZoo.general e = some (stNoRes, 0xF7))) = true := by decide +kernel

/-- Armed channel 1 with instance A its holder, on engines 0 and 1, FIRST of its lease. -/
def tLeased (x : Lease) : State := { tZoo with chans := [(1, { tChan 0 1 with st := .armed, adm := { (tChan 0 1).adm with engB := 1 }, lease := x })] }

/-- LoopPeriodsLatchStartCutAndSupervise and LeasesAreGrantedJudgedExpiredAndResynchronised: instance B in step and not; a channel that is
judged, on a fold that is served and one that is not; its holder in service and quarantined; the only armed channel of a cutoff with no run
begun; a copy that can end. -/
theorem test_meets_leases : let s := tLeased { Lease.none with holder := some false, stepped := true }
    s.sideRuns 1 true = true ∧ (tLeased { Lease.none with holder := some false, stby := 1 }).sideRuns 1 true = false ∧ 1 ∈ s.judged 0 0 ∧
    s.foldServed 0 (s.judgePt 0) = true ∧ ({ s with fs := [(0, { s.fsPair 0 with st := 2 })] } : State).foldServed 0 (s.judgePt 0) = false ∧
    s.inSvc ((s.chan 1).engOf false) = true ∧
    ({ s with health := [(0, { Health.none with hstate := 1 })] } : State).inSvc ((s.chan 1).engOf false) = false ∧
    s.dueArmed 0 (s.loopIndex 0) = [1] ∧ (s.chan 1).sideOn 0 = some false ∧ ((s.chan 1).lease.sum false).isNone = true ∧
    s.sideRan 1 false = true ∧ s.placeAhead 1 0 false = true ∧ s.modOpen = false := by decide +kernel

/-- ModelTablesAreBuiltSwappedAndRefitted: the eighth window in a row on an armed channel; a period with 20 mA and one with less. -/
theorem test_meets_drift : (∃ s : State, (s.chan 0).armed = true ∧ (s.chan 0).mon.drift = 8) ∧ Corr.none.iamp < 20000 :=
  ⟨⟨{ tZoo with chans := [(0, { tChan 128 2 with st := .armed, mon := { Chan.free.mon with drift := 8 } })] }, rfl, rfl⟩, by decide +kernel⟩

/-- TheStationAlignsBreaksAndHeals: a ready module at position 1 of a ring whose upstream hop is whole, a broken far hop that returns, and a
module that joins. -/
theorem test_meets_station : 
    let s : State := { tOn with stn := { Stn.reset with
      dstate := 5, pos := 1, place := 1, nmod := 3, ring := true, upstream := some 0, refPort := some 0, lanes := [(0, 4), (1, 4)], broken := [1] } }
    s.lanes 0 ≠ 0 ∧ s.stn.hopOf 0 ∉ s.stn.broken ∧ (1 : Int) ∈ s.stn.broken ∧ s.joined = true ∧ s.follows = true ∧ tOn.stn.pos = 15 ∧
    tOn.stn.late = false := by decide +kernel

/-- ClockLossStopsTheModuleAndTheTestPortIsGuarded: codes of an instruction and of none on a port that is open. -/
theorem test_meets_bypass : (2 : BitVec 8).toNat ≤ 2 ∧ 2 < (3 : BitVec 8).toNat ∧
    ({ tOn with sec := { Sec.reset with unlocked := true, scope := 2 } } : State).jtagOpen = true := by decide

/-- DomainsSwitchAndSettleAsCommandedOrLost: a domain of a flock that serves and one of a fold with no channel. TestControllers…: a command
whose scope has closed. -/
theorem test_meets_domains : tZoo.domServes 0 = true ∧ tZoo.domServes 39 = false ∧
    tZoo.deferOpen (.command (tEntry 0x0B01 1 [0]) [] false) = false := by decide +kernel
end

section
/-! SUPPORT. The scope of commands: what a deletion touches, and the row of a station command. -/

namespace Sys2Proof.Machine

open Sys2Proof

/-- Channel 1 in deleting still holds a valid model, its state at byte 832 of a workspace of 1 KiB; channel 0 in deleting is open. -/
def twoDeleting : State :=
  let one : Chan := { Chan.free with st := .deleting, adm := { Adm.none with kind := 1, wsKib := 1 } }
  { State.reset with
    chans := [(0, { one with opened := true }),
      (1, { one with adm := { one.adm with first := 1 }, mdl := { one.mdl with valid := true } })]
    ws := [(0x4000 + 832, 1)] }

/-- Refutes O3: CHAN_DEL_COMPLETE takes the validity of the models again (R319), and a model that another channel in deleting still
holds gives up its state in that channel's workspace (R322). -/
theorem not_commandsTouchOnlyTheirParts : ¬ Obligations.CommandsTouchOnlyTheirParts := by
  unfold Obligations.CommandsTouchOnlyTheirParts
  rintro ⟨-, -, -, hdel⟩
  have h := hdel 0 twoDeleting _ rfl (0x4000 + 832) (by decide)
  exact absurd h (by decide +kernel)
-- ---------------------------------------------------------------- the row of a station command (R291, R294, R300, R509)

/-- The row of a station command outside PHASE 6 does nothing (R485). -/
theorem commandRow_idle {op : Nat} {own : CmdEntry → State → State} {e : CmdEntry} {s : State} (hph : s.boot.phase ≠ 6) :
    commandRow op own e s = s := by
  simp [commandRow, hph]

theorem untake_dram (s : State) (e : CmdEntry) : (s.untake e).dram = s.dram := by
  unfold State.untake
  split <;> rfl

theorem readBlock_untake (s : State) (e : CmdEntry) : (s.untake e).readBlock e = s.readBlock e := by
  simp only [State.readBlock, State.dramBytes, State.dramByte, untake_dram]

/-- Where the block still stands as it was read, a command acts on the state as it is (R509). -/
theorem withBlock_kept {e : CmdEntry} {blk : List (BitVec 8)} {f : State → State} {s : State} (h : blk = [] ∨ s.readBlock e = blk) :
    withBlock e blk f s = f s := by
  unfold withBlock
  rcases h with rfl | h
  · cases s.readBlock e <;> simp
  · simp [h]

/-- In PHASE 6 a row untakes its command; then an entry of its own opcode meets the general checks, another is refused. -/
theorem commandRow_eq {op : Nat} {own : CmdEntry → State → State} {e : CmdEntry} {s : State} (hph : s.boot.phase = 6)
    (hblk : opcodeOf e = op → s.blockKept e) :
    commandRow op own e s = if opcodeOf e = op then runCommand own e (s.untake e) else refuse e stState 0xF0 (s.untake e) := by
  have hu : (if s.svc.taken == some e then s.updSvc (fun v => { v with taken := none, takenBlk := [] }) else s) = s.untake e := by
    simp [State.untake]
  unfold commandRow
  simp only [hph, bne_self_eq_false, Bool.false_eq_true, if_false, hu]
  split
  next hop =>
    refine withBlock_kept ?_
    rw [readBlock_untake]
    by_cases ht : s.svc.taken = some e
    · simpa [ht] using hblk hop ht
    · simp [ht]
  next => rfl

/-- A refusal posts its completion and leaves every part but the rings. -/
theorem refuse_posted (e : CmdEntry) (st chk : Nat) (s : State) :
    Posted e st 0 chk s (refuse e st chk s) ∧ ∀ p : Part, p ≠ .rings → p.same s (refuse e st chk s) := by
  refine ⟨by simp [Posted, refuse, complete], fun p hp => ?_⟩
  cases p
  case rings => exact absurd rfl hp
  all_goals rfl

/-- What an own part does of an entry that waits for an open window: refused at the own check that it fails, else deferred with its
block. -/
def Waits (e : CmdEntry) (fail : Option (Nat × Nat)) (s t : State) : Prop :=
  match fail with
  | some (st, chk) => Posted e st 0 chk s t ∧ t.svc.defer = s.svc.defer
  | none => t = s.updSvc (fun v => { v with defer := v.defer ++ [.command e (s.readBlock e) false] })

theorem checked_held_waits (e : CmdEntry) (l : List (Bool × Nat × Nat)) (eff : State → State) (s : State) (ho : s.scopeOpen e = true) :
    Waits e (firstFail l) s (checked e l (held e eff) s) := by
  unfold checked Waits
  split
  next st chk h => simp only [h]; exact ⟨(refuse_posted e st chk s).1, rfl⟩
  next h => simp [h, held, ho]

theorem fenceOwn_waits (got : Option (BitVec 384)) (e : CmdEntry) (s : State) (ho : s.scopeOpen e = true) :
    Waits e (deferFail (.fenceLoad e got) s) s (fenceOwn got e s) := by
  unfold fenceOwn deferFail
  cases hv : s.verifyFence (opN e 0).toNat (opN e 1).toNat with
  | none =>
    simp only [hv]
    exact ⟨by simp [Posted, refuse, complete, secEvent], by simp [refuse, complete, secEvent]⟩
  | some body =>
    simp only [hv]
    exact checked_held_waits e [(s.fenceFits (fenceOf body), stFence, 2)] _ s ho

/-- The row of a station command: it is `commandRow` of its opcode with an own part, which waits where a window is open. -/
theorem exec_row {c : Instr} {e : CmdEntry} (hc : c.opcode ≠ 0) (he : c.entry = some e) :
    ∃ own, (∀ s, exec c s = .next (commandRow c.opcode own e s)) ∧
      ∀ s : State, opcodeOf e = c.opcode → s.scopeOpen e = true → Waits e (deferFail c s) s (own e s) := by
  cases c
  any_goals exact absurd rfl hc
  all_goals (cases he; refine ⟨_, fun _ => rfl, fun s hop ho => ?_⟩)
  case diagRun => exact checked_held_waits _ _ _ _ ho
  case fenceLoad => exact fenceOwn_waits _ _ _ ho
  case bistRun => exact checked_held_waits _ _ _ _ ho
  case domain => exact checked_held_waits _ _ _ _ ho
  case stnRescan => exact checked_held_waits _ _ _ _ ho
  all_goals simp [State.scopeOpen, hop, Instr.opcode] at ho

/-- Settles O18: a row's core refuses, defers or carries out what the service core has untaken. -/
theorem generalChecksDecideBeforeTheCommand : Obligations.GeneralChecksDecideBeforeTheCommand := by
  unfold Obligations.GeneralChecksDecideBeforeTheCommand
  refine ⟨fun c e s hc he hph => ?_, fun c e s hc he hph => ?_⟩
  · obtain ⟨own, hrow, -⟩ := exec_row hc he
    rw [hrow, commandRow_idle hph]
  obtain ⟨own, hrow, hown⟩ := exec_row hc he
  have mine (hop : opcodeOf e = c.opcode) (hblk : s.blockKept e) : exec c s = .next (runCommand own e (s.untake e)) := by
    rw [hrow, commandRow_eq hph fun _ => hblk, if_pos hop]
  refine ⟨fun st chk hop hblk hg => ?_, fun st chk hop hblk hg ho hf => ?_, fun hop hblk hg ho hf => ?_, fun hop => ?_⟩
  · exact ⟨_, by rw [mine hop hblk, runCommand, hg], refuse_posted e st chk _⟩
  · have hw := hown _ hop ho
    rw [hf] at hw
    exact ⟨_, by rw [mine hop hblk, runCommand, hg], hw⟩
  · have hw := hown _ hop ho
    rw [hf] at hw
    refine ⟨_, by rw [mine hop hblk, runCommand, hg], ?_⟩
    rw [show own e (s.untake e) = _ from hw]
    refine ⟨rfl, fun p hp => ?_⟩
    cases p
    case svc => exact absurd rfl hp
    all_goals rfl
  · exact ⟨_, by rw [hrow, commandRow_eq hph fun h => absurd h hop, if_neg hop], refuse_posted e stState 0xF0 _⟩
end Sys2Proof.Machine
end

section
/-! SUPPORT. The host side: reads, writes, failures, resets, acknowledges and maintenance requests. -/

namespace Sys2Proof.Machine

open Sys2Proof

/-- A word that is cleared reads its reset value, the others as before. -/
@[simp] theorem State.clearRegs_reg (s : State) (p : Nat → Bool) (a : Nat) :
    (s.clearRegs p).reg a = if p a then regReset a else s.reg a := tget_tdrop _ _ _ _

-- ---- reads (R504, R510)
theorem readEffect_regs (a : Nat) (s : State) : (readEffect a s).regs = s.regs := by
  unfold readEffect
  split
  · rfl
  · dsimp only
    split <;> rfl

theorem readEffect_hiLatch {a : Nat} {s : State} {v : W} (h : s.pairHi a = some v) : tget 0 (readEffect a s).hiLatch a = v := by
  simp [readEffect, h]

@[simp] theorem length_leBytes (n x : Nat) : (leBytes n x).length = n := by
  induction n generalizing x with
  | zero => rfl
  | succ n ih => simp [leBytes, ih]

theorem leVal_leBytes (n x : Nat) : leVal (leBytes n x) = x % 256 ^ n := by
  induction n generalizing x with
  | zero => simp [leBytes, leVal, Nat.mod_one]
  | succ n ih => simp [leBytes, leVal, ih, Nat.pow_succ', Nat.mod_mul]

/-- The state after a read of the bytes `b`. -/
def State.answer (s : State) (b : List (BitVec 8)) : State := { s with host := { s.host with readResp := some b } }

/-- An aligned read of 4 bytes answers the word. -/
theorem loWordRead_four {a : BitVec 25} (s : State) (ha : a.toNat % 4 = 0) :
    exec (.loWordRead a 2) s = .next ((readEffect a.toNat s).answer (leBytes 4 (s.readWord a.toNat).toNat)) := by
  change execLoWordRead a 2 s = _
  simp [execLoWordRead, ha, readWords, State.answer, List.take_of_length_le]

/-- An aligned read of 8 bytes answers two words, the lower first. -/
theorem loWordRead_eight {a : BitVec 25} (s : State) (ha : a.toNat % 4 = 0) :
    exec (.loWordRead a 3) s = .next ((readEffect (a.toNat + 4) (readEffect a.toNat s)).answer
      (leBytes 4 (s.readWord a.toNat).toNat ++ leBytes 4 ((readEffect a.toNat s).readWord (a.toNat + 4)).toNat)) := by
  change execLoWordRead a 3 s = _
  simp [execLoWordRead, ha, readWords, State.answer, List.take_of_length_le]

theorem loWordRead_holds {a : BitVec 25} (s : State) (ha : a.toNat % 4 = 0) :
    Does (.loWordRead a 2) s (fun t => t.host.readResp = some (leBytes 4 (s.readWord a.toNat).toNat) ∧ t.regs = s.regs ∧
      ∀ v, s.pairHi a.toNat = some v → tget 0 t.hiLatch a.toNat = v) ∧
    Does (.loWordRead a 3) s (fun t => t.host.readResp = some (leBytes 4 (s.readWord a.toNat).toNat ++
      leBytes 4 ((readEffect a.toNat s).readWord (a.toNat + 4)).toNat) ∧ t.regs = s.regs) :=
  ⟨⟨_, loWordRead_four s ha, rfl, readEffect_regs _ _, fun _ h => readEffect_hiLatch h⟩,
    ⟨_, loWordRead_eight s ha, rfl, (readEffect_regs _ _).trans (readEffect_regs _ _)⟩⟩

-- ---- writes (R10, R504)
/-- An event of the endpoint sets its bit and no other word. -/
theorem hostEvent_reg {bit : Nat} (hb : bit < 16) (cls : Nat) (s : State) (b : Nat) :
    (hostEvent bit cls s).reg b = if b = hostEvt then setBit (s.reg hostEvt) bit else s.reg b := by
  simp [hostEvent, mkRep, Nat.mod_eq_of_lt hb]

theorem hostEvent_sets {bit : Nat} (hb : bit < 16) (cls : Nat) (s : State) : bitOf ((hostEvent bit cls s).reg hostEvt) bit = true := by
  simp [hostEvent_reg hb]
  omega

/-- A write that is not aligned, or not of 4 or 8 bytes, only sets BAD_ACCESS. -/
theorem registerWrite_bad {a : BitVec 25} {d : List (BitVec 8)} (s : State)
    (h : a.toNat % 4 ≠ 0 ∨ d.length ≠ 4 ∧ d.length ≠ 8) : exec (.registerWrite a d) s = .next (hostEvent 1 0 s) := by
  change execRegisterWrite a d s = _
  unfold execRegisterWrite
  by_cases ha : a.toNat % 4 = 0
  · obtain ⟨h4, h8⟩ := h.resolve_left (absurd ha)
    simp [ha, h4, h8]
  · simp [ha]

theorem registerWrite_evt {a : BitVec 25} {d : List (BitVec 8)} (s : State) (ha : a.toNat % 4 = 0) (hd : d.length = 4)
    (he : isEvt a.toNat = true) (ho : s.offWord a.toNat = false) (hn : s.absentWord a.toNat = false) :
    exec (.registerWrite a d) s = .next (writeEvt a.toNat (w32 (leVal d)) s) := by
  change execRegisterWrite a d s = _
  simp [execRegisterWrite, writeWord, ha, hd, he, ho, hn]

theorem writeEvt_reg (a : Nat) (v : W) (s : State) (b : Nat) :
    (writeEvt a v s).reg b = if b = a then s.reg a &&& ~~~v else s.reg b := by
  simp [writeEvt, unlatch]

-- ---- a DMA failure
theorem ringDmaFailure_off {r : Fin 8} (w : Bool) {s : State} (h : s.ringOn r.val = false) : exec (.ringDmaFailure r w) s = .next s := by
  change execRingDmaFailure r w s = _
  simp [execRingDmaFailure, h]

theorem ringDmaFailure_on {r : Fin 8} (w : Bool) {s : State} (h : s.ringOn r.val = true) :
    Does (.ringDmaFailure r w) s fun t =>
      t.ringHalted r.val = true ∧ t.ring r.val = { s.ring r.val with lost := (s.ring r.val).lost || !w } ∧ bitOf (t.reg hostEvt) 3 = true ∧
        t.col.srcQ = s.col.srcQ ++ [mkRep srcPcie 0 3 1 0 0] := by
  have hne : ringCtrl r.val ≠ hostEvt := by unfold ringCtrl aRing hostEvt; omega
  refine ⟨_, (by change execRingDmaFailure r w s = _; rw [execRingDmaFailure, h]; rfl), ?_, ?_, hostEvent_sets (by decide) _ _, ?_⟩
  · simp [State.ringHalted, hostEvent_reg, hne]
  · simp [hostEvent]
  · simp [hostEvent, queueRep_col]

-- ---- an acknowledge (R127)
/-- One vector of an acknowledge, as INT_ACK_WRITE takes them in turn. -/
def ackOne (v : W) (i : Nat) (s : State) : State := if bitOf v i && fieldN s.host.summary i 1 == 1 then sendMsg i s else s

/-- An acknowledge sends a message again for this vector: named, pending and not masked. -/
def State.resends (s : State) (v : W) (i : Nat) : Bool :=
  bitOf v i && fieldN s.host.summary i 1 == 1 && !bitOf (tget 1 s.host.msixTable (4 * i + 3)) 0

/-- What messages sent between `s` and `t` leave: registers, INT_SUMMARY and the table; `l` are the vectors sent. -/
structure Sent (l : List Nat) (s t : State) : Prop where
  regs : t.regs = s.regs
  summary : t.host.summary = s.host.summary
  table : t.host.msixTable = s.host.msixTable
  msgs : t.host.msgs = s.host.msgs ++ l

theorem sendMsg_sent (i : Nat) (s : State) :
    Sent (if bitOf (tget 1 s.host.msixTable (4 * i + 3)) 0 then [] else [i]) s (sendMsg i s) := by
  unfold sendMsg
  split
  · exact ⟨rfl, rfl, rfl, (List.append_nil _).symm⟩
  · exact ⟨rfl, rfl, rfl, rfl⟩

theorem ackOne_sent (v : W) (i : Nat) (s : State) : Sent (if s.resends v i then [i] else []) s (ackOne v i s) := by
  unfold ackOne State.resends
  cases bitOf v i && fieldN s.host.summary i 1 == 1 with
  | false => exact ⟨rfl, rfl, rfl, (List.append_nil _).symm⟩
  | true =>
    have h := sendMsg_sent i s
    cases hb : bitOf (tget 1 s.host.msixTable (4 * i + 3)) 0 <;> rw [hb] at h <;> exact h

theorem each_ackOne_sent (v : W) (l : List Nat) (s : State) : Sent (l.filter (s.resends v)) s (each l (ackOne v) s) := by
  induction l generalizing s with
  | nil => exact ⟨rfl, rfl, rfl, (List.append_nil _).symm⟩
  | cons i l ih =>
    have h1 := ackOne_sent v i s
    have h2 := ih (ackOne v i s)
    have hsame : (ackOne v i s).resends v = s.resends v := by
      funext j
      simp only [State.resends, h1.summary, h1.table]
    rw [hsame] at h2
    refine ⟨h2.regs.trans h1.regs, h2.summary.trans h1.summary, h2.table.trans h1.table, ?_⟩
    rw [show each (i :: l) (ackOne v) s = each l (ackOne v) (ackOne v i s) from rfl, h2.msgs, h1.msgs, List.append_assoc,
      List.filter_cons]
    cases s.resends v i <;> rfl

theorem intAckWrite_sent (v : W) (s : State) :
    Does (.intAckWrite v) s (Sent (((List.range 8).map (· + 8)).filter (s.resends v)) s) :=
  ⟨_, rfl, each_ackOne_sent v _ s⟩

-- ---- fields of a word, and the trained link (R521, R522)
/-- A word split at a field: what stands above, in and below it. -/
theorem toNat_split (w : W) (lo width : Nat) :
    w.toNat = 2 ^ lo * (2 ^ width * (w.toNat / 2 ^ lo / 2 ^ width)) + w.toNat % 2 ^ lo + fld w lo width * 2 ^ lo := by
  have h : 2 ^ lo * (2 ^ width * (w.toNat / 2 ^ lo / 2 ^ width) + w.toNat / 2 ^ lo % 2 ^ width) + w.toNat % 2 ^ lo = w.toNat := by
    rw [Nat.div_add_mod, Nat.div_add_mod]
  unfold fld fieldN
  linarith

/-- A field written in its place between what stands above and below it. -/
theorem setFld_toNat (w : W) {lo width : Nat} (v : Nat) (h : lo + width ≤ 32) :
    (setFld w lo width v).toNat = 2 ^ lo * (2 ^ width * (w.toNat / 2 ^ lo / 2 ^ width) + v % 2 ^ width) + w.toNat % 2 ^ lo := by
  have hcut := Nat.sub_eq_of_eq_add (toNat_split w lo width)
  have habove : w.toNat / 2 ^ lo / 2 ^ width < 2 ^ (32 - (lo + width)) := by
    rw [Nat.div_div_eq_div_mul, ← pow_add]
    exact Nat.div_lt_of_lt_mul (by rw [← pow_add, Nat.add_sub_cancel' h]; exact w.isLt)
  have hfield : v % 2 ^ width * 2 ^ lo + 2 ^ lo ≤ 2 ^ width * 2 ^ lo := by
    rw [← Nat.succ_mul]
    exact Nat.mul_le_mul_right _ (Nat.mod_lt v (Nat.two_pow_pos width))
  have hbelow := Nat.mod_lt w.toNat (Nat.two_pow_pos lo)
  rw [setFld, BitVec.toNat_ofNat, hcut, Nat.mod_eq_of_lt]
  · ring
  calc _ < 2 ^ lo * (2 ^ width * (w.toNat / 2 ^ lo / 2 ^ width + 1)) := by linarith
    _ ≤ 2 ^ lo * (2 ^ width * 2 ^ (32 - (lo + width))) := by gcongr; omega
    _ = 2 ^ 32 := by rw [← pow_add, ← pow_add]; congr 1; omega

theorem fld_testBit (w : W) (lo width i : Nat) : (fld w lo width).testBit i = (decide (i < width) && w.toNat.testBit (i + lo)) := by
  simp [fld, fieldN, Nat.testBit_div_two_pow]

/-- A write of a field changes the bits of the field alone. -/
theorem setFld_testBit (w : W) {lo width : Nat} (v : Nat) (h : lo + width ≤ 32) (i : Nat) : (setFld w lo width v).toNat.testBit i =
    if lo ≤ i ∧ i < lo + width then v.testBit (i - lo) else w.toNat.testBit i := by
  rw [setFld_toNat w v h, Nat.testBit_two_pow_mul_add _ (Nat.mod_lt _ (Nat.two_pow_pos lo)),
    Nat.testBit_two_pow_mul_add _ (Nat.mod_lt _ (Nat.two_pow_pos width))]
  simp only [Nat.testBit_mod_two_pow, Nat.testBit_div_two_pow]
  by_cases h1 : i < lo
  · simp [h1, show ¬(lo ≤ i) by omega]
  by_cases h2 : i - lo < width
  · simp [h1, h2, show lo ≤ i ∧ i < lo + width by omega]
  · simp [h1, h2, show ¬(i < lo + width) by omega]
    congr 1; omega

/-- A field that is written reads its value. -/
theorem fld_setFld (w : W) {lo width : Nat} (v : Nat) (h : lo + width ≤ 32) : fld (setFld w lo width v) lo width = v % 2 ^ width := by
  refine Nat.eq_of_testBit_eq fun i => ?_
  rw [fld_testBit, setFld_testBit w v h, Nat.testBit_mod_two_pow]
  by_cases hi : i < width
  · simp [hi, show i + lo < lo + width by omega]
  · simp [hi]

/-- A write of a field leaves the fields below and above it. -/
theorem fld_setFld_of_disjoint (w : W) {lo width lo' width' : Nat} (v : Nat) (h : lo + width ≤ 32)
    (hd : lo' + width' ≤ lo ∨ lo + width ≤ lo') : fld (setFld w lo width v) lo' width' = fld w lo' width' := by
  refine Nat.eq_of_testBit_eq fun i => ?_
  rw [fld_testBit, fld_testBit, setFld_testBit w v h]
  by_cases hi : i < width'
  · rw [if_neg (by omega)]
  · simp [hi]

/-- A trained link shows its width and speed, and no other word changes. -/
theorem pcieLinkTrained_fields (w sp : Fin 3) (s : State) : Does (.pcieLinkTrained w sp) s fun t => t.regField modCap 8 8 = 2 ^ w.val ∧
    t.regField modCap 4 4 = sp.val + 1 ∧ t.regField modCap 0 4 = s.regField modCap 0 4 ∧ ∀ b, b ≠ modCap → t.reg b = s.reg b := by
  have hw : 2 ^ w.val ≤ 2 ^ 2 := Nat.pow_le_pow_right (by decide) (by omega)
  refine ⟨_, rfl, ?_, ?_, ?_, fun b hb => by simp [hb]⟩
  · simp [State.regField, fld_setFld, fld_setFld_of_disjoint]
    omega
  · simp [State.regField, fld_setFld]
    omega
  · simp [State.regField, fld_setFld_of_disjoint]

theorem dramUncorrectable_reported (s : State) :
    Does .dramUncorrectable s fun t => t.regs = s.regs ∧ ∃ q ∈ t.col.srcQ, q.source = srcDram ∧ q.cls = 1 :=
  ⟨_, rfl, rfl, mkRep srcDram 15 10 1 0 0, by simp [raiseOwn, queueRep_col], rfl, rfl⟩

-- ---- a maintenance request (R519)
/-- The block at a place of equal blocks. -/
theorem take_drop_flatMap {α β : Type} {f : α → List β} {k : Nat} (hk : ∀ a, (f a).length = k) (l : List α) {i : Nat}
    (hi : i < l.length) : ((l.flatMap f).drop (k * i)).take k = f l[i] := by
  induction l generalizing i with
  | nil => simp at hi
  | cons a l ih =>
    cases i with
    | zero => simp [hk]
    | succ i =>
      rw [List.flatMap_cons, Nat.mul_succ, Nat.add_comm, ← List.drop_drop, List.drop_left' (hk a)]
      exact ih (by simpa using hi)

/-- A request that MAINTENANCE_REQUEST answers (R519). -/
def State.answers (s : State) (q : List (BitVec 8)) : Bool :=
  q.length == 10 && bytesAt q 0 1 == 0xA5 && bytesAt q 1 1 == s.stn.pos && bytesAt q 2 1 == 1 && bytesAt q 3 4 % 4 == 0 &&
    decide (1 ≤ bytesAt q 7 1 ∧ bytesAt q 7 1 ≤ 64 ∧ bytesAt q 3 4 + 4 * bytesAt q 7 1 ≤ 0x2000000) &&
    bytesAt q 8 2 == mntCrc (q.take 8)

theorem State.answers_length {s : State} {q : List (BitVec 8)} (h : s.answers q = true) : q.length = 10 := by
  simp only [State.answers, Bool.and_eq_true, beq_iff_eq, and_assoc] at h
  exact h.1

/-- The bytes of an answer before its CRC. -/
def State.answerBody (s : State) (d a n : Nat) : List (BitVec 8) :=
  leBytes 3 (0x5A + d * 256 + n * 65536) ++ (List.range n).flatMap (fun i => leBytes 4 (s.mntWord a (a + 4 * i)).toNat)

/-- The state after a request was counted in the half of MNT_STAT at bit `lo` and `b` was sent. -/
def State.mntDone (s : State) (lo : Nat) (b : List (BitVec 8)) : State :=
  { s.setField mntStat lo 16 (s.regField mntStat lo 16 + 1) with host := { s.host with mntResp := b } }

theorem maintenanceRequest_eq (q : List (BitVec 8)) (s : State) : exec (.maintenanceRequest q) s = .next
    (if s.col.broken.contains srcMnt then s
    else if s.answers q then
      let body := s.answerBody (bytesAt q 1 1) (bytesAt q 3 4) (bytesAt q 7 1)
      s.mntDone 16 (body ++ leBytes 2 (mntCrc body))
    else s.mntDone 0 []) := by
  change execMaintenanceRequest q s = _
  unfold execMaintenanceRequest State.answers
  dsimp only
  split
  · rfl
  · split <;> rfl

theorem mntDone_reg (s : State) (lo : Nat) (b : List (BitVec 8)) {a : Nat} (ha : a ≠ mntStat) : (s.mntDone lo b).reg a = s.reg a := by
  change (s.setField mntStat lo 16 _).reg a = _
  simp [ha]

theorem mntDone_counts (s : State) {lo : Nat} (b : List (BitVec 8)) (h : lo + 16 ≤ 32) :
    (s.mntDone lo b).regField mntStat lo 16 = (s.regField mntStat lo 16 + 1) % 65536 := by
  change fld ((s.setField mntStat lo 16 _).reg mntStat) lo 16 = _
  simp [fld_setFld _ _ h]

theorem mntDone_other (s : State) {lo lo' : Nat} (b : List (BitVec 8)) (h : lo + 16 ≤ 32) (hd : lo' + 16 ≤ lo ∨ lo + 16 ≤ lo') :
    (s.mntDone lo b).regField mntStat lo' 16 = s.regField mntStat lo' 16 := by
  change fld ((s.setField mntStat lo 16 _).reg mntStat) lo' 16 = _
  simp [fld_setFld_of_disjoint _ _ h hd, State.regField]

theorem length_answerBody (s : State) (d a n : Nat) : (s.answerBody d a n).length = 3 + 4 * n := by
  simp [State.answerBody, List.length_flatMap, Nat.mul_comm]

theorem bytesAt_append {b : List (BitVec 8)} {off n : Nat} (h : off + n ≤ b.length) (c : List (BitVec 8)) :
    bytesAt (b ++ c) off n = bytesAt b off n := by
  rw [bytesAt, bytesAt, List.drop_append_of_le_length (by omega), List.take_append_of_le_length (by simp; omega)]

theorem bytesAt_one_lt (b : List (BitVec 8)) (off : Nat) : bytesAt b off 1 < 256 := by
  unfold bytesAt
  cases b.drop off with
  | nil => simp [leVal]
  | cons x r => simpa [leVal] using x.isLt

/-- The words of an answer follow its head. -/
theorem bytesAt_answerBody (s : State) (d a : Nat) {n i : Nat} (hi : i < n) :
    bytesAt (s.answerBody d a n) (3 + 4 * i) 4 = (s.mntWord a (a + 4 * i)).toNat := by
  rw [State.answerBody, bytesAt, ← List.drop_drop, List.drop_left' (length_leBytes 3 _),
    take_drop_flatMap (fun _ => length_leBytes 4 _) _ (by simpa using hi), leVal_leBytes, List.getElem_range]
  exact Nat.mod_eq_of_lt (by simpa using (s.mntWord a (a + 4 * i)).isLt)

/-- The head of an answer: 0x5A, DEV and COUNT. -/
theorem answerBody_head (s : State) {d a n : Nat} (hd : d < 256) (hn : n < 256) :
    bytesAt (s.answerBody d a n) 0 1 = 0x5A ∧ bytesAt (s.answerBody d a n) 1 1 = d ∧ bytesAt (s.answerBody d a n) 2 1 = n := by
  simp [State.answerBody, bytesAt, leBytes, leVal]
  omega

@[simp] theorem mntDone_col (s : State) (lo : Nat) (b : List (BitVec 8)) : (s.mntDone lo b).col = s.col := by
  simp [State.mntDone]

@[simp] theorem mntDone_mntResp (s : State) (lo : Nat) (b : List (BitVec 8)) : (s.mntDone lo b).host.mntResp = b := by
  simp [State.mntDone]

/-- A request changes no word but MNT_STAT and nothing of the collector; one of a wrong length is counted as dropped. -/
theorem maintenanceRequest_counts (q : List (BitVec 8)) (s : State) :
    Does (.maintenanceRequest q) s fun t => t.col = s.col ∧ (∀ b, b ≠ mntStat → t.reg b = s.reg b) ∧
      (q.length ≠ 10 → s.col.broken.contains srcMnt = false → t.host.mntResp = [] ∧
        t.regField mntStat 0 16 = (s.regField mntStat 0 16 + 1) % 65536 ∧ t.regField mntStat 16 16 = s.regField mntStat 16 16) := by
  refine ⟨_, maintenanceRequest_eq q s, ?_⟩
  split
  next hb => exact ⟨rfl, fun _ _ => rfl, fun _ h => absurd (hb.symm.trans h) (by decide)⟩
  next =>
    split
    next ha => exact ⟨mntDone_col s _ _, fun b hb => mntDone_reg s _ _ hb, fun hl => absurd (State.answers_length ha) hl⟩
    next => exact ⟨mntDone_col s _ _, fun b hb => mntDone_reg s _ _ hb, fun _ _ =>
      ⟨mntDone_mntResp s _ _, mntDone_counts s _ (by decide), mntDone_other s _ (by decide) (.inr (by decide))⟩⟩

theorem maintenanceRequest_answered {q : List (BitVec 8)} (s : State) (hbr : s.col.broken.contains srcMnt = false)
    (hlen : q.length = 10) (hbyte : bytesAt q 0 1 = 0xA5) (hdev : bytesAt q 1 1 = s.stn.pos) (hcmd : bytesAt q 2 1 = 1)
    (ha : bytesAt q 3 4 % 4 = 0) (hn : 1 ≤ bytesAt q 7 1 ∧ bytesAt q 7 1 ≤ 64 ∧ bytesAt q 3 4 + 4 * bytesAt q 7 1 ≤ 0x2000000)
    (hcrc : bytesAt q 8 2 = mntCrc (q.take 8)) :
    Does (.maintenanceRequest q) s fun t => t.host.mntResp.length = 5 + 4 * bytesAt q 7 1 ∧
      bytesAt t.host.mntResp 0 1 = 0x5A ∧ bytesAt t.host.mntResp 1 1 = bytesAt q 1 1 ∧ bytesAt t.host.mntResp 2 1 = bytesAt q 7 1 ∧
      (∀ i < bytesAt q 7 1, bytesAt t.host.mntResp (3 + 4 * i) 4 = (s.mntWord (bytesAt q 3 4) (bytesAt q 3 4 + 4 * i)).toNat) ∧
      t.regField mntStat 16 16 = (s.regField mntStat 16 16 + 1) % 65536 ∧ t.regField mntStat 0 16 = s.regField mntStat 0 16 := by
  have hans : s.answers q = true := by simp [State.answers, hlen, hbyte, hdev, hcmd, ha, hn, hcrc]
  have hbody := length_answerBody s (bytesAt q 1 1) (bytesAt q 3 4) (bytesAt q 7 1)
  obtain ⟨h0, h1, h2⟩ := answerBody_head s (a := bytesAt q 3 4) (bytesAt_one_lt q 1) (bytesAt_one_lt q 7)
  refine ⟨_, by rw [maintenanceRequest_eq, hbr, hans, if_neg Bool.false_ne_true, if_pos rfl], ?_, ?_, ?_, ?_, fun i hi => ?_,
    mntDone_counts s _ (by decide), mntDone_other s _ (by decide) (.inl (by decide))⟩
  · simp [State.mntDone, hbody]
    omega
  · exact (bytesAt_append (by omega) _).trans h0
  · exact (bytesAt_append (by omega) _).trans h1
  · exact (bytesAt_append (by omega) _).trans h2
  · exact (bytesAt_append (by omega) _).trans (bytesAt_answerBody s _ _ hi)

-- ---- a host reset (R503)
/-- What a host reset does to one ring (R503). -/
def ringReset (r : Nat) (s : State) : State :=
  (if s.ringOn r then returnCredits r s else s).clearRegs (fun a => decide (ringCtrl r ≤ a ∧ a < ringCtrl r + 0x18))

/-- The words of ring k that a host reset reads: its control, its tails, the credits that it returned. -/
def ringWord (k a : Nat) : Prop := a = ringCtrl k ∨ a = sqTail k ∨ a = cqTail k ∨ a = crReturned k

/-- Ring k stands as it was: its words and its queues. -/
structure RingSame (k : Nat) (s t : State) : Prop where
  words : ∀ a, ringWord k a → t.reg a = s.reg a
  ring : t.ring k = s.ring k

theorem RingSame.trans {k : Nat} {s t u : State} (h : RingSame k s t) (h' : RingSame k t u) : RingSame k s u :=
  ⟨fun a ha => (h'.words a ha).trans (h.words a ha), h'.ring.trans h.ring⟩

theorem RingSame.ringOn {k : Nat} {s t : State} (h : RingSame k s t) : t.ringOn k = s.ringOn k := by
  rw [State.ringOn, State.ringOn, h.words _ (.inl rfl)]

theorem RingSame.heldCr {k : Nat} {s t : State} (h : RingSame k s t) : t.heldCr k = s.heldCr k := by
  rw [State.heldCr, State.heldCr, h.words _ (.inr (.inl rfl)), h.words _ (.inr (.inr (.inl rfl)))]

/-- Ring k is off, and where it was on its credits have returned and nothing is fetched or to be written. -/
structure RingOff (k : Nat) (s t : State) : Prop where
  off : t.ringOn k = false
  emptied : s.ringOn k = true → (t.ring k).fetched = [] ∧ (t.ring k).done = [] ∧
    t.reg (crReturned k) = s.reg (crReturned k) + BitVec.ofNat 32 (s.heldCr k)

theorem RingOff.of_same {k : Nat} {s t u : State} (h : RingOff k s t) (h' : RingSame k t u) : RingOff k s u :=
  ⟨h'.ringOn.trans h.off, fun hon => by
    rw [h'.ring, h'.words _ (.inr (.inr (.inr rfl)))]
    exact h.emptied hon⟩

theorem RingOff.after_same {k : Nat} {s t u : State} (h : RingSame k s t) (h' : RingOff k t u) : RingOff k s u :=
  ⟨h'.off, fun hon => by
    have he := h'.emptied (h.ringOn.trans hon)
    rwa [h.words _ (.inr (.inr (.inr rfl))), h.heldCr] at he⟩

theorem returnCredits_reg (r : Nat) (s : State) (a : Nat) : (returnCredits r s).reg a =
    if a = crReturned r then s.reg a + BitVec.ofNat 32 (s.heldCr r) else s.reg a := by
  simp only [returnCredits, State.updSvc_at_reg, State.updRing_eq, State.setRing_at_reg, State.addReg_eq, State.updReg_eq, State.setReg_reg]
  split <;> simp [*]

theorem returnCredits_ring (r : Nat) (s : State) (k : Nat) :
    (returnCredits r s).ring k = if k = r then { s.ring r with fetched := [], done := [] } else s.ring k := by
  simp [returnCredits]

theorem ringReset_off {r : Nat} (hr : r < 8) (s : State) : RingOff r s (ringReset r s) := by
  have hctrl : regReset (ringCtrl r) = 0 := (by decide : ∀ r : Fin 8, regReset (ringCtrl r.val) = 0) ⟨r, hr⟩
  have hcr : ¬(ringCtrl r ≤ crReturned r ∧ crReturned r < ringCtrl r + 0x18) := by
    unfold ringCtrl crReturned aRing aTal; omega
  refine ⟨by simp [State.ringOn, ringReset, hctrl, bitOf], fun hon => ?_⟩
  simp [ringReset, hon, returnCredits_ring, returnCredits_reg, hcr]

theorem ringReset_other {r k : Nat} (hr : r < 8) (hk : k < 8) (hkr : k ≠ r) (s : State) : RingSame k s (ringReset r s) := by
  have hfar : ∀ a, ringWord k a → a ≠ crReturned r ∧ ¬(ringCtrl r ≤ a ∧ a < ringCtrl r + 0x18) := by
    intro a ha
    unfold ringWord ringCtrl sqTail cqTail crReturned aRing aTal at ha
    unfold ringCtrl crReturned aRing aTal
    omega
  refine ⟨fun a ha => ?_, ?_⟩
  · obtain ⟨h1, h2⟩ := hfar a ha
    simp only [ringReset, State.clearRegs_reg, h2, decide_false, Bool.false_eq_true, if_false]
    split <;> simp [returnCredits_reg, h1]
  · simp only [ringReset, State.clearRegs_at_ring]
    split <;> simp [returnCredits_ring, hkr]

/-- Every command in progress in `t` is one of `s`, no less silent, and silent where its ring is in `l` and was on. -/
def Silenced (l : List Nat) (s t : State) : Prop :=
  ∀ p ∈ t.svc.inProg, ∃ q ∈ s.svc.inProg, q.entry = p.entry ∧ (q.silent = true → p.silent = true) ∧
    (p.entry.ring.val ∈ l → s.ringOn p.entry.ring.val = true → p.silent = true)

theorem ringReset_silenced (r : Nat) (s : State) : Silenced [r] s (ringReset r s) := by
  intro p hp
  simp only [ringReset, State.clearRegs_svc] at hp
  cases hon : s.ringOn r with
  | false =>
    rw [hon] at hp
    exact ⟨p, hp, rfl, id, fun hr h => by simp_all⟩
  | true =>
    simp only [hon, if_true, returnCredits, State.updSvc_svc, List.mem_map] at hp
    obtain ⟨q, hq, rfl⟩ := hp
    refine ⟨q, by simpa using hq, ?_⟩
    split <;> simp_all

/-- What a host reset of the rings of `l` does. -/
theorem each_ringReset {l : List Nat} (hl : ∀ r ∈ l, r < 8) (hnd : l.Nodup) (s : State) :
    (∀ k ∈ l, RingOff k s (each l ringReset s)) ∧ (∀ k < 8, k ∉ l → RingSame k s (each l ringReset s)) ∧
      Silenced l s (each l ringReset s) := by
  induction l generalizing s with
  | nil => exact ⟨by simp, fun k _ _ => ⟨fun _ _ => rfl, rfl⟩, fun p hp => ⟨p, hp, rfl, id, by simp⟩⟩
  | cons r l ih =>
    obtain ⟨hrl, hnd⟩ := List.nodup_cons.1 hnd
    have hr := hl r (by simp)
    have hl' : ∀ k ∈ l, k < 8 := fun k hk => hl k (by simp [hk])
    obtain ⟨hoff, hsame, hsil⟩ := ih hl' hnd (ringReset r s)
    refine ⟨fun k hk => ?_, fun k hk8 hk => ?_, fun p hp => ?_⟩
    · rcases List.mem_cons.1 hk with rfl | hk
      · exact (ringReset_off hr s).of_same (hsame k hr hrl)
      · exact .after_same (ringReset_other hr (hl' k hk) (fun e => hrl (e ▸ hk)) s) (hoff k hk)
    · obtain ⟨hkr, hk⟩ := not_or.1 (mt List.mem_cons.2 hk)
      exact (ringReset_other hr hk8 hkr s).trans (hsame k hk8 hk)
    · obtain ⟨q, hq, he, hqs, hql⟩ := hsil p hp
      obtain ⟨q', hq', he', hqs', hql'⟩ := ringReset_silenced r s q hq
      refine ⟨q', hq', he'.trans he, hqs ∘ hqs', fun hpl hon => ?_⟩
      rcases List.mem_cons.1 hpl with hpr | hpl
      · exact hqs (hql' (by simp [he, hpr]) (by rwa [he]))
      · have hne : p.entry.ring.val ≠ r := fun e => hrl (e ▸ hpl)
        exact hql hpl ((ringReset_other hr p.entry.ring.isLt hne s).ringOn.trans hon)

/-- Bringing an interrupt up to date writes no table entry. -/
theorem signalVec_msixTable (v : Nat) (s : State) : (signalVec v s).host.msixTable = s.host.msixTable := by
  unfold signalVec
  dsimp only
  split
  · rfl
  · split
    · exact (sendMsg_sent v _).table
    · rfl

theorem raise_msixTable (a : Nat) (r : Report) (s : State) : (raise a r s).host.msixTable = s.host.msixTable := by
  change (signal a _).host.msixTable = _
  unfold signal
  split
  · exact signalVec_msixTable _ _
  · rfl

/-- A host reset takes its rings in turn, then the commands not accepted and the message table (R503). -/
theorem hostReset_eq (s : State) : hostReset s =
    let u := (each (List.range 8) ringReset s).updSvc (fun v => { v with taken := none, takenBlk := [] })
    hostEvent 0 0 { u with host := { u.host with msixTable := [], msixPba := 0 } } := rfl

/-- What a host reset leaves, whether or not PCLK is lost. -/
structure HostResetDone (s t : State) : Prop where
  taken : t.svc.taken = none
  table : t.host.msixTable = []
  event : bitOf (t.reg hostEvt) 0 = true
  rings : ∀ r < 8, RingOff r s t
  silenced : Silenced (List.range 8) s t

theorem hostReset_done (s : State) : HostResetDone s (hostReset s) := by
  obtain ⟨hoff, -, hsil⟩ := each_ringReset (fun r hr => List.mem_range.1 hr) List.nodup_range s
  rw [hostReset_eq]
  refine ⟨by simp [hostEvent], by simp [hostEvent, raise_msixTable], hostEvent_sets (by decide) _ _, fun r hr => ?_, ?_⟩
  · refine (hoff r (List.mem_range.2 hr)).of_same ⟨fun a ha => ?_, by rw [hostEvent, raise_at_ring]; rfl⟩
    have hne : a ≠ hostEvt := by
      unfold ringWord ringCtrl sqTail cqTail crReturned aRing aTal at ha
      unfold hostEvt
      omega
    rw [hostEvent_reg (by decide), if_neg hne]
    rfl
  · simpa [Silenced, hostEvent] using hsil

/-- The loss of PCLK beside it leaves all of that. -/
theorem HostResetDone.withPclk {s t : State} (h : HostResetDone s t) :
    HostResetDone s (holdLive (mkRep srcClock 15 3 1 0 0) (raiseOwn srcClock 3 1 0 0 t)) :=
  ⟨by simpa [holdLive] using h.taken, by simpa [holdLive, raiseOwn] using h.table, by simpa [holdLive] using h.event,
    fun r hr => (h.rings r hr).of_same ⟨fun _ _ => by simp [holdLive], by simp [holdLive]⟩,
    by simpa [Silenced, holdLive] using h.silenced⟩

theorem execHostReset_does (pclk : Bool) (s : State) : Does (.hostReset pclk) s fun t =>
    (pclk = true → ∃ q ∈ t.col.srcQ, q.source = srcClock ∧ q.cls = 1) ∧ HostResetDone s t := by
  cases pclk with
  | false => exact ⟨_, rfl, by simp, hostReset_done s⟩
  | true => exact ⟨_, rfl, fun _ => ⟨mkRep srcClock 15 3 1 0 0, by simp [holdLive, raiseOwn, queueRep_col], rfl, rfl⟩,
      (hostReset_done s).withPclk⟩

/-- Settles O50: each clause is the lemma of its row; the rings of a host reset are taken in turn by `each_ringReset`. -/
theorem theHostSideReadsWritesResetsAndAcknowledges : Obligations.TheHostSideReadsWritesResetsAndAcknowledges := by
  unfold Obligations.TheHostSideReadsWritesResetsAndAcknowledges
  refine ⟨fun a s ha => loWordRead_holds s ha, fun a d s => ⟨fun h => ?_, fun ha hd he ho hn => ?_⟩, fun r w s => ?_, fun pclk s => ?_,
    fun v s => ?_, pcieLinkTrained_fields, dramUncorrectable_reported, fun q s => ?_, fun q s => ?_⟩
  · exact ⟨_, registerWrite_bad s h, fun b hb => by rw [hostEvent_reg (by decide), if_neg hb], hostEvent_sets (by decide) _ _⟩
  · exact ⟨_, registerWrite_evt s ha hd he ho hn, by rw [writeEvt_reg, if_pos rfl]; rfl, fun b hb => by rw [writeEvt_reg, if_neg hb]⟩
  · cases hon : s.ringOn r.val with
    | false => exact ⟨_, ringDmaFailure_off w hon, rfl⟩
    | true => exact ringDmaFailure_on w hon
  · obtain ⟨t, hx, hclk, h⟩ := execHostReset_does pclk s
    refine ⟨t, hx, hclk, h.taken, h.table, h.event, fun r hr => ⟨(h.rings r hr).off, (h.rings r hr).emptied⟩, fun p hp hon => ?_⟩
    obtain ⟨q, -, -, -, hsil⟩ := h.silenced p hp
    exact hsil (List.mem_range.2 p.entry.ring.isLt) hon
  · obtain ⟨t, hx, h⟩ := intAckWrite_sent v s
    exact ⟨t, hx, h.regs, h.summary, h.msgs⟩
  · exact maintenanceRequest_counts q s
  · dsimp only
    intro hbr hlen hbyte hdev hcmd ha hn hcrc
    exact maintenanceRequest_answered s hbr hlen hbyte hdev hcmd ha hn hcrc

end Sys2Proof.Machine
end

section
/-! SUPPORT. What an operation leaves: every part outside its list, and under a stop or a report below class C4 the watch of the collector and
the legs. The class C4 stop, and the row of an accepted command. -/

namespace Sys2Proof.Machine

open Sys2Proof

/-- A part outside the list stands as it was under every primitive operation on the parts of the list. -/
theorem Keeps.same {L : List Part} {p : Part} (hp : L.contains p = false) (s : State) : Keeps L (p.same s) := by
  have hne {q : Part} (hq : L.contains q = true) : p ≠ q := fun e => by rw [e, hq] at hp; exact absurd hp (by decide)
  constructor
  case power => exact fun hall => absurd rfl (hne (hall p))
  all_goals intro hq; replace hq := hne hq; intros; cases p
  all_goals try exact absurd rfl hq
  all_goals assumption

theorem Part.same_refl (p : Part) (s : State) : p.same s s := by cases p <;> rfl

-- ---- tables and folds
theorem tget_of_not_mem {α : Type} (d : α) {t : Tab α} {k : Nat} (h : k ∉ tkeys t) : tget d t k = d := by
  induction t with
  | nil => rfl
  | cons e t ih =>
    obtain ⟨hk, ht⟩ := not_or.1 (mt List.mem_cons.2 h)
    rw [tget, if_neg (Ne.symm hk)]
    exact ih ht

/-- A fold of operations leaves what each of them leaves. -/
theorem each_same {γ : Type} (g : State → γ) {f : Nat → State → State} (hf : ∀ i s, g (f i s) = g s) (l : List Nat) (s : State) :
    g (each l f s) = g s := foldl_same g _ (fun s i => hf i s) l s

-- ---- an accepted command (R291)
/-- The row of an accepted entry is its own part on the state that the core has untaken. -/
theorem commandRow_accepted {op : Nat} {own : CmdEntry → State → State} {e : CmdEntry} {s : State} (h : s.accepts e op) :
    commandRow op own e s = own e (s.untake e) := by
  obtain ⟨hph, hop, hblk, hgen, -⟩ := h
  rw [commandRow_eq hph fun _ => hblk, if_pos hop, runCommand, hgen]

/-- An entry that the general checks pass has its operands in range (R292). -/
theorem rangeCheck_of_general {e : CmdEntry} {s : State} (h : s.general e = none) : s.rangeCheck e = none := by
  by_contra hr
  obtain ⟨st, hr⟩ := Option.ne_none_iff_exists'.1 hr
  simp only [State.general, hr] at h
  repeat' split at h
  all_goals cases h

-- ---- what stops and reports leave alone (R439, R440)
/-- What of the collector a report below class C4 leaves: C4, the broken wires and the sources it ignores. -/
def Col.watch (c : Col) : Bool × List Nat × List Nat := (c.c4, c.broken, c.unwatched)

/-- The sides of every leg that are on, high and low. -/
def State.sides (s : State) : Nat → Bool × Bool := fun n => ((s.term n).hi, (s.term n).lo)

/-- The watch of the collector and the sides of the legs. -/
def State.steady (s : State) : (Bool × List Nat × List Nat) × (Nat → Bool × Bool) := (s.col.watch, s.sides)

theorem State.steady_of_same {s t : State} (hc : Part.same .col s t) (ht : Part.same .terms s t) : t.steady = s.steady := by
  replace hc : t.col = s.col := hc
  replace ht : t.terms = s.terms := ht
  have hs : t.sides = s.sides := by unfold State.sides State.term; rw [ht]
  rw [State.steady, State.steady, hc, hs]

theorem State.setTerm_sides (s : State) {t : Nat} {x : Term} (hhi : x.hi = (s.term t).hi) (hlo : x.lo = (s.term t).lo) :
    (s.setTerm t x).sides = s.sides := by
  funext n
  simp only [State.sides, State.setTerm_read]
  split <;> simp [*]

theorem modEvent_steady (t bit : Nat) (s : State) : (modEvent t bit s).steady = s.steady := by
  unfold modEvent raiseOnce
  split
  · rfl
  · refine Prod.ext (by simp [State.steady, queueRep_col, Col.watch]) (funext fun n => ?_)
    simp [State.steady, State.sides]

theorem clearForces_steady (ch : Nat) (s : State) : (clearForces ch s).steady = s.steady := by
  refine each_same State.steady (fun t s => ?_) _ s
  have hterm {x : Term} (hhi : x.hi = (s.term t).hi) (hlo : x.lo = (s.term t).lo) : (s.setTerm t x).steady = s.steady := by
    simp only [State.steady, State.setTerm_sides s hhi hlo, State.setTerm_col]
  dsimp only
  split
  · exact hterm rfl rfl
  · exact (modEvent_steady t 3 _).trans (hterm rfl rfl)

theorem refreshGates_steady (s : State) : (refreshGates s).steady = s.steady :=
  State.steady_of_same (refreshGates_keep (.same rfl s) s rfl) (refreshGates_keep (.same rfl s) s rfl)

theorem motorIdle_steady (ch : Nat) (s : State) : (motorIdle ch s).steady = s.steady :=
  State.steady_of_same (motorIdle_keep (.same rfl s) ch s rfl) (motorIdle_keep (.same rfl s) ch s rfl)

theorem finishObj_steady (op : Nat) (obj : Nat × Nat) (st : Nat) (s : State) : (finishObj op obj st s).steady = s.steady :=
  State.steady_of_same (finishObj_keep (.same rfl s) op obj st s rfl) (finishObj_keep (.same rfl s) op obj st s rfl)

theorem stopChannel_steady (ch : Nat) (r : Report) (s : State) : (stopChannel ch r s).steady = s.steady := by
  unfold stopChannel
  dsimp only
  split
  · rfl
  · rfl
  · exact ite_keep (Q := fun t : State => t.steady = s.steady) (clearForces_steady ch _) rfl
  · rw [refreshGates_steady, motorIdle_steady, clearForces_steady, finishObj_steady, finishObj_steady]
    rfl

theorem dispatchC2_steady (r : Report) (s : State) : (dispatchC2 r s).steady = s.steady := by
  unfold dispatchC2
  dsimp only
  split
  · split
    · exact refreshGates_steady _
    · rfl
  · split
    · exact refreshGates_steady _
    · rfl
  · exact stopChannel_steady _ r s
  · rfl

theorem dispatchC3_steady (r : Report) (s : State) : (dispatchC3 r s).steady = s.steady := by
  refine each_same State.steady (fun k s => ?_) _ s
  refine Eq.trans (each_same State.steady (fun ch s => ?_) _ (markFold k r s)) rfl
  split
  · rfl
  · rfl
  · exact stopChannel_steady ch r s

/-- A report of class C3 or below leaves the watch and the legs. -/
theorem latchReport_steady {r : Report} (hr : r.cls ≤ 3) (delayed : Bool) (now : Nat) (s : State) :
    (latchReport r delayed now s).steady = s.steady := by
  unfold latchReport
  dsimp only
  split
  · rfl
  · rfl
  · split
    · exact dispatchC2_steady r _
    · rfl
  · exact dispatchC3_steady r _
  next h0 h1 h2 h3 => interval_cases r.cls <;> contradiction

theorem holdLive_steady (r : Report) (s : State) : (holdLive r s).steady = s.steady := rfl

theorem reportNow_steady {r : Report} (hr : r.cls ≤ 3) (now : Nat) (s : State) : (reportNow r now s).steady = s.steady := by
  unfold reportNow
  rw [holdLive_steady, latchReport_steady hr]
  rfl

theorem flockReaction_steady (f now : Nat) (s : State) : (flockReaction f now s).steady = s.steady := by
  unfold flockReaction
  dsimp only
  rw [each_same State.steady fun ch s => (dispatchC2_steady _ _).trans (holdLive_steady (mkRep (srcFlock f) 15 0 2 1 ch) s)]
  exact reportNow_steady (r := mkRep (srcFlock f) 15 0 2 0 0) (Nat.le_succ 2) now s

-- ---- the state of a stopped channel (R53, R439)
/-- The state of a channel once a stop has named it. -/
def ChanSt.stop : ChanSt → ChanSt
  | .idle | .armed => .stopped
  | x => x

@[simp] theorem ChanSt.stop_stop (x : ChanSt) : x.stop.stop = x.stop := by cases x <;> rfl

theorem State.chan_of_same {s t : State} (h : Part.same .chans s t) (j : Nat) : t.chan j = s.chan j := by
  unfold State.chan
  rw [show t.chans = s.chans from h]

theorem State.liveChans_of_same {s t : State} (h : Part.same .chans s t) : t.liveChans = s.liveChans := by
  unfold State.liveChans
  rw [show t.chans = s.chans from h]
  simp only [s.chan_of_same h]

theorem motorIdle_st (ch : Nat) (s : State) (j : Nat) : ((motorIdle ch s).chan j).st = (s.chan j).st := by
  unfold motorIdle
  split
  · rfl
  · simp only [State.updChan_eq, State.setChan_read]
    split <;> simp [State.updMotor, *]

@[simp] theorem clearForces_chan (ch : Nat) (s : State) (j : Nat) : (clearForces ch s).chan j = s.chan j :=
  State.chan_of_same (clearForces_keep (.same (p := .chans) rfl s) ch s rfl) j
@[simp] theorem refreshGates_chan (s : State) (j : Nat) : (refreshGates s).chan j = s.chan j :=
  State.chan_of_same (refreshGates_keep (.same (p := .chans) rfl s) s rfl) j
@[simp] theorem finishObj_chan (op : Nat) (obj : Nat × Nat) (st : Nat) (s : State) (j : Nat) : (finishObj op obj st s).chan j = s.chan j :=
  State.chan_of_same (finishObj_keep (.same (p := .chans) rfl s) op obj st s rfl) j
@[simp] theorem enterSafe_chan (ch now : Nat) (s : State) (j : Nat) : (enterSafe ch now s).chan j = s.chan j :=
  State.chan_of_same (enterSafe_keep (.same (p := .chans) rfl s) ch now s rfl) j

theorem State.setChan_st (s : State) (i : Nat) (c : Chan) (j : Nat) :
    ((s.setChan i c).chan j).st = if j = i then c.st else (s.chan j).st := by
  rw [State.setChan_read]
  split <;> rfl

theorem stopChannel_st (ch : Nat) (r : Report) (s : State) (j : Nat) :
    ((stopChannel ch r s).chan j).st = if j = ch then (s.chan ch).st.stop else (s.chan j).st := by
  unfold stopChannel
  dsimp only
  split
  next h => simp_all [ChanSt.stop]
  next h => simp_all [ChanSt.stop]
  next h =>
    rw [h]
    refine ite_keep (Q := fun t => (State.chan t j).st = _) ((congrArg Chan.st (clearForces_chan ch _ j)).trans ?_) ?_
    all_goals
      simp only [State.updChan_eq, State.setChan_read, if_true, Chan.dropZc]
      split <;> simp [ChanSt.stop, *]
  next hfree hdel hstop =>
    have hst : (s.chan ch).st.stop = .stopped := by
      cases h : (s.chan ch).st <;> simp_all [ChanSt.stop]
    rw [refreshGates_chan, motorIdle_st, clearForces_chan, finishObj_chan, finishObj_chan, State.setChan_st, hst]

/-- A trip stops its channel as a report does. -/
theorem tripChannel_st (ch now : Nat) (r : Report) (s : State) (j : Nat) :
    ((tripChannel ch now r s).chan j).st = if j = ch then (s.chan ch).st.stop else (s.chan j).st := by
  unfold tripChannel
  split
  · simp only [stopChannel_st, clearForces_chan, enterSafe_chan]
  next h =>
    have hfree : (s.chan ch).st = .free := by simpa [Chan.live] using h
    split <;> simp_all [ChanSt.stop]

theorem each_tripChannel_st (now : Nat) (r : Report) (l : List Nat) (s : State) (j : Nat) :
    ((each l (fun ch s => tripChannel ch now r s) s).chan j).st = if j ∈ l then (s.chan j).st.stop else (s.chan j).st := by
  induction l generalizing s with
  | nil => rfl
  | cons ch l ih =>
    rw [show each (ch :: l) _ s = each l _ (tripChannel ch now r s) from rfl, ih, tripChannel_st]
    by_cases hj : j = ch
    · subst hj
      simp
    · simp [hj]

theorem tripChannel_watch (ch now : Nat) (r : Report) (s : State) : (tripChannel ch now r s).col.watch = s.col.watch := by
  unfold tripChannel
  split
  · have hstop := congrArg Prod.fst (stopChannel_steady ch r (clearForces ch (enterSafe ch now s)))
    have hclear := congrArg Prod.fst (clearForces_steady ch (enterSafe ch now s))
    have hsafe : (enterSafe ch now s).col = s.col := enterSafe_keep (.same (p := .col) rfl s) ch now s rfl
    exact hstop.trans (hclear.trans (congrArg Col.watch hsafe))
  · rfl

-- ---- class C4 (R441)
/-- Every gate that is listed goes low, and one that is not is low already. -/
theorem each_gateLow_level (s : State) (g : Nat) : ((each (tkeys s.gates) gateLow s).gate g).level = false := by
  have hlow (l : List Nat) (u : State) : ((each l gateLow u).gate g).level = if g ∈ l then false else (u.gate g).level := by
    induction l generalizing u with
    | nil => rfl
    | cons i l ih =>
      rw [show each (i :: l) gateLow u = each l gateLow (gateLow i u) from rfl, ih]
      simp only [gateLow, State.updGate_eq, State.setGate_read, List.mem_cons]
      by_cases hg : g = i <;> simp [hg]
  rw [hlow]
  split
  · rfl
  next h => rw [State.gate, tget_of_not_mem _ h]; rfl

/-- What class C4 leaves: C4 set, every gate low, the live channels that were idle or armed stopped. -/
structure ModuleStopped (s t : State) : Prop where
  c4 : t.col.c4 = true
  gates : ∀ g, (t.gate g).level = false
  chans : ∀ ch ∈ s.liveChans, (t.chan ch).st = (s.chan ch).st.stop

theorem moduleStop_stopped (st : Stamped) (now : Nat) (s : State) : ModuleStopped s (moduleStop st now s) := by
  unfold moduleStop
  extract_lets u v w x
  have hv {p : Part} (hp : [Part.rings, .svc].contains p = false) : p.same u v :=
    dropDeferred_keep (.same hp u) _ (finishWhere_keep (.same hp u) _ _ _ u (p.same_refl u))
  have hx {p : Part} (hp : [Part.gates].contains p = false) : p.same w x :=
    each_keep _ _ (fun g y hy => gateLow_keep (.same hp w) g y hy) (p.same_refl w)
  have ht {p : Part} (hp : [Part.caps, .injs].contains p = false) : p.same x (each (tkeys x.injs) endInj (each (tkeys x.caps) haltCap x)) :=
    each_keep _ _ (fun i y hy => endInj_keep ((Keeps.same hp x).mono (by decide)) i y hy)
      (each_keep _ _ (fun i y hy => haltCap_keep ((Keeps.same hp x).mono (by decide)) i y hy) (p.same_refl x))
  refine ⟨?_, fun g => ?_, fun ch hch => ?_⟩
  · have hw : w.col.watch = v.col.watch := each_same (fun y => y.col.watch) (fun ch y => tripChannel_watch ch now st.rep y) _ v
    rw [show (each _ endInj _).col = x.col from ht (p := .col) rfl, show x.col = w.col from hx (p := .col) rfl,
      show w.col.c4 = v.col.c4 from congrArg Prod.fst hw, show v.col = u.col from hv (p := .col) rfl]
    rfl
  · rw [State.gate, show (each _ endInj _).gates = x.gates from ht (p := .gates) rfl]
    exact each_gateLow_level w g
  · have hlive : ch ∈ v.liveChans := by rwa [State.liveChans_of_same (hv (p := .chans) rfl)]
    rw [State.chan_of_same (ht (p := .chans) rfl), State.chan_of_same (hx (p := .chans) rfl), each_tripChannel_st, if_pos hlive,
      State.chan_of_same (hv (p := .chans) rfl)]
    rfl

/-- A report of class C4 stops the module. -/
theorem latchReport_stops {r : Report} (hr : r.cls = 4) (delayed : Bool) (now : Nat) (s : State) :
    ModuleStopped s (latchReport r delayed now s) := by
  have heq : ∃ f, latchReport r delayed now s = moduleStop (s.stamp r delayed) now (s.updCol f) := by
    unfold latchReport
    simp only [hr]
    exact ⟨_, rfl⟩
  obtain ⟨f, heq⟩ := heq
  rw [heq]
  obtain ⟨hc4, hgates, hchans⟩ := moduleStop_stopped (s.stamp r delayed) now (s.updCol f)
  exact ⟨hc4, hgates, hchans⟩

theorem reportNow_stops {r : Report} (hr : r.cls = 4) (now : Nat) (s : State) : ModuleStopped s (reportNow r now s) := by
  unfold reportNow
  extract_lets u
  obtain ⟨hc4, hgates, hchans⟩ := latchReport_stops hr false now u
  exact ⟨hc4, hgates, hchans⟩

end Sys2Proof.Machine
end

section
/-! SUPPORT. Lost clocks and the test port. -/

namespace Sys2Proof.Machine

open Sys2Proof

-- ---- clocks (R40)
/-- The clock that is lost leaves the Bellwether dead where it is the crystal oscillator, and nothing else. -/
def clockGone (c : Fin 3) (s : State) : State := if c.val = 2 then s.updBell (fun b => { b with dead := true }) else s

theorem clockGone_dead (c : Fin 3) (s : State) : (clockGone c s).bell.dead = (s.bell.dead || c.val == 2) := by
  unfold clockGone
  split <;> simp [*]

theorem clockGone_chans (c : Fin 3) (s : State) : Part.same .chans s (clockGone c s) := by
  unfold clockGone
  split <;> rfl

theorem clockReserveTakeover_reported (s : State) : Does .clockReserveTakeover s fun t => t.regs = s.regs ∧ t.chans = s.chans ∧
    t.col.c4 = s.col.c4 ∧ ∃ q ∈ t.col.srcQ, q.source = srcClock ∧ q.cls = 1 :=
  ⟨_, rfl, rfl, rfl, rfl, mkRep srcClock 15 3 1 0 0, by simp [holdLive, raiseOwn, queueRep_col], rfl, rfl⟩

theorem clockLossModuleStop_stops (c : Fin 3) (now : Nat) (s : State) : Does (.clockLossModuleStop c now) s fun t =>
    t.bell.dead = (s.bell.dead || c.val == 2) ∧ ModuleStopped s t := by
  refine ⟨reportNow (mkRep srcClock 15 3 4 0 0) now (clockGone c s), rfl, ?_, ?_⟩
  · have hbell := reportNow_keep (.same (p := .bell) rfl (clockGone c s)) (mkRep srcClock 15 3 4 0 0) now (clockGone c s) rfl
    rw [show (reportNow _ _ _).bell = (clockGone c s).bell from hbell, clockGone_dead]
  · obtain ⟨hc4, hgates, hchans⟩ := reportNow_stops (r := mkRep srcClock 15 3 4 0 0) rfl now (clockGone c s)
    refine ⟨hc4, hgates, fun ch hch => ?_⟩
    rw [hchans ch (by rwa [State.liveChans_of_same (clockGone_chans c s)]), State.chan_of_same (clockGone_chans c s)]

-- ---- the test port (R476, R533, R534)
theorem jtagBypass_locked {code : BitVec 8} {s : State} (h : s.jtagOpen = false ∨ 2 < code.toNat) :
    exec (.jtagBypass code) s = .next (jtagBypass code s) := by
  have h' : (s.jtagOpen && decide (code.toNat ≤ 2)) = false := by
    rcases h with h | h
    · simp [h]
    · simp [Nat.not_le.2 h]
  change execJtagBypass code s = _
  simp [execJtagBypass, h']

theorem jtagBypass_open {code : BitVec 8} {s : State} (ho : s.jtagOpen = true) (h : code.toNat ≤ 2) :
    exec (.jtagBypass code) s = .next s := by
  change execJtagBypass code s = _
  simp [execJtagBypass, ho, h]

theorem jtagIdcode_eq (s : State) : exec .jtagIdcode s = .next (if s.jtagOpen then
    { s with jtag := { s.jtag with ir := 1, captured := bitsOf 32 s.idcode.toNat, driven := none } } else jtagBypass 1 s) := by
  change execJtagIdcode s = _
  unfold execJtagIdcode
  split <;> rfl

theorem jtagSamplePreload_eq (pins sh : List Bool) (s : State) : exec (.jtagSamplePreload pins sh) s = .next (if s.jtagOpen then
    { s with jtag := { ir := 2, captured := pins ++ s.gatePins, latch := sh, driven := none } } else jtagBypass 2 s) := by
  change execJtagSamplePreload pins sh s = _
  unfold execJtagSamplePreload
  split <;> rfl

theorem jtagExtest_eq (pins : List Bool) (o : Option (List Bool)) (s : State) : exec (.jtagExtest pins o) s = .next (if s.jtagOpen then
    { s with jtag := { ir := 0, captured := pins ++ s.gatePins, latch := o.getD s.jtag.latch, driven := some (o.getD s.jtag.latch) } }
    else jtagBypass 0 s) := by
  change execJtagExtest pins o s = _
  unfold execJtagExtest
  split <;> rfl

/-- The lowest bit of IDCODE is a 1. -/
theorem State.idcode_odd (s : State) : s.idcode.toNat % 2 = 1 := by
  rw [State.idcode, BitVec.toNat_ofNat, Nat.mod_mod_of_dvd _ (by decide)]
  omega

/-- Settles O53: a report of class C4 is the module stop (`reportNow_stops`); each row of the test port has one equation. -/
theorem clockLossStopsTheModuleAndTheTestPortIsGuarded : Obligations.ClockLossStopsTheModuleAndTheTestPortIsGuarded := by
  unfold Obligations.ClockLossStopsTheModuleAndTheTestPortIsGuarded
  refine ⟨clockReserveTakeover_reported, fun c now s => ?_, fun s row code pins sh o h => ?_, fun s pins sh o ho => ?_⟩
  · obtain ⟨t, hx, hdead, hc4, hgates, hchans⟩ := clockLossModuleStop_stops c now s
    refine ⟨t, hx, hc4, hdead, hgates, fun ch hch hst => ?_⟩
    rw [hchans ch hch]
    rcases hst with hst | hst <;> rw [hst] <;> rfl
  · rcases h with ⟨rfl, h⟩ | ⟨hl, h⟩
    · exact ⟨_, jtagBypass_locked h, rfl⟩
    · simp only [List.mem_cons, Prod.mk.injEq, List.not_mem_nil, or_false] at h
      rcases h with ⟨rfl, rfl⟩ | ⟨rfl, rfl⟩ | ⟨rfl, rfl⟩
      · exact ⟨_, jtagIdcode_eq s, by rw [hl]; rfl⟩
      · exact ⟨_, jtagSamplePreload_eq pins sh s, by rw [hl]; rfl⟩
      · exact ⟨_, jtagExtest_eq pins o s, by rw [hl]; rfl⟩
  · refine ⟨fun code hc => jtagBypass_open ho hc, ⟨_, jtagIdcode_eq s, ?_⟩, ⟨_, jtagSamplePreload_eq pins sh s, ?_⟩,
      ⟨_, jtagExtest_eq pins o s, ?_⟩⟩ <;> rw [if_pos ho]
    · refine ⟨by simp [bitsOf], ?_, rfl, rfl⟩
      simp [bitsOf, fieldN, s.idcode_odd]
    · rfl
    · rfl

end Sys2Proof.Machine
end

section
/-! SUPPORT. Power domains: switched by command, settled, lost. -/

namespace Sys2Proof.Machine

open Sys2Proof

-- ---- power domains (R31)
theorem State.setDom_domOn (s : State) {d : Nat} (hd : d < 48) (on : Bool) (j : Nat) :
    (s.setDom d on).domOn j = if j = d then on else s.domOn j := by
  have hm : (BitVec.ofNat 48 (2 ^ d)).getLsbD j = decide (j = d) := by
    rw [BitVec.getLsbD_ofNat, Nat.testBit_two_pow]
    by_cases h : d = j
    · simp [h, show j < 48 by omega]
    · simp [h, Ne.symm h]
  change BitVec.getLsbD (if on = true then _ else _) j = _
  cases on
  · rw [if_neg Bool.false_ne_true, BitVec.getLsbD_and, BitVec.getLsbD_not, hm]
    by_cases h : j = d
    · simp [h]
    · simpa [h, State.domOn] using BitVec.lt_of_getLsbD
  · rw [if_pos rfl, BitVec.getLsbD_or, hm]
    by_cases h : j = d <;> simp [h, State.domOn]

@[simp] theorem each_dom {f : Nat → State → State} (hf : ∀ i s, (f i s).dom = s.dom) (l : List Nat) (s : State) :
    (each l f s).dom = s.dom := each_same State.dom hf l s

@[simp] theorem enterSafe_dom (ch now : Nat) (s : State) : (enterSafe ch now s).dom = s.dom :=
  enterSafe_keep (.same (p := .dom) rfl s) ch now s rfl
@[simp] theorem setDrive_dom (t : Nat) (d : Drive) (own : Bool) (a : Nat) (s : State) : (setDrive t d own a s).dom = s.dom := rfl
@[simp] theorem gateLow_dom (g : Nat) (s : State) : (gateLow g s).dom = s.dom := rfl
@[simp] theorem refreshGates_dom (s : State) : (refreshGates s).dom = s.dom := refreshGates_keep (.same (p := .dom) rfl s) s rfl
@[simp] theorem flockClear_dom (f : Nat) (s : State) : (flockClear f s).dom = s.dom :=
  flockClear_keep (.same (p := .dom) rfl s) f s rfl
@[simp] theorem dropImages_dom (s : State) : (dropImages s).dom = s.dom := rfl
@[simp] theorem evalModels_dom (s : State) : (evalModels s).dom = s.dom := evalModels_keep (.same (p := .dom) rfl s) s rfl
@[simp] theorem startSettling_dom (n : Nat) (s : State) : (startSettling n s).dom = s.dom :=
  startSettling_keep (.same (p := .dom) rfl s) n s rfl
@[simp] theorem toAcquire_dom (n : Nat) (s : State) : (toAcquire n s).dom = s.dom := toAcquire_keep (.same (p := .dom) rfl s) n s rfl
@[simp] theorem portOff_dom (n : Nat) (s : State) : (portOff n s).dom = s.dom := portOff_keep (.same (p := .dom) rfl s) n s rfl
@[simp] theorem linkBreak_dom (i : Nat) (s : State) : (linkBreak i s).dom = s.dom := linkBreak_keep (.same (p := .dom) rfl s) i s rfl

theorem flockOff_dom (f now : Nat) (s : State) : (flockOff f now s).dom = (s.setDom f false).dom := by
  simp only [flockOff, evalModels_dom, dropImages_dom, signalVec_dom, State.clearRegs_dom, flockClear_dom]
  rw [each_dom, each_dom, each_dom, each_dom]
  · exact fun ch s => enterSafe_dom ch now s
  all_goals exact fun _ _ => rfl

theorem foldOff_dom (k now : Nat) (s : State) : (foldOff k now s).dom = (s.setDom (32 + k) false).dom := by
  simp only [foldOff, refreshGates_dom]
  rw [each_dom fun i s => gateLow_dom (8 * k + i) s, signalVec_dom, State.clearRegs_dom, each_dom, each_dom]
  · exact fun ch s => enterSafe_dom ch now s
  · exact fun _ _ => rfl

theorem groupOff_dom (g : Nat) (s : State) : (groupOff g s).dom = (s.setDom (40 + g) false).dom := by
  have hf : ∀ n (s : State), (if s.spEnable n = true then portOff n s else s).dom = s.dom := fun n s => by split <;> simp
  simp only [groupOff, State.setReg_dom, each_dom hf]

/-- A domain that goes off takes that bit of the domains and no other. -/
theorem domainOff_dom (d now : Nat) (s : State) : (domainOff d now s).dom = (s.setDom d false).dom := by
  unfold domainOff
  split
  next => exact flockOff_dom d now s
  next =>
    split
    next => rw [foldOff_dom, show 32 + (d - 32) = d by omega]
    next =>
      split
      next => rw [groupOff_dom, show 40 + (d - 40) = d by omega]
      next => exact linkBreak_dom _ _

theorem domainOn_dom (d : Nat) (s : State) : (domainOn d s).dom = (s.setDom d true).dom := by
  have hf : ∀ n (s : State), (if s.spEnable n = true then toAcquire n s else s).dom = s.dom := fun n s => by split <;> simp
  unfold domainOn
  split
  next => dsimp only; split <;> simp only [State.setReg_dom, each_dom hf]
  next => rw [refreshGates_dom]; split <;> simp

theorem domainOff_svc (d now : Nat) (s : State) : (domainOff d now s).svc = s.svc := domainOff_keep (.same (p := .svc) rfl s) d now s rfl
theorem domainOff_rings (d now : Nat) (s : State) : (domainOff d now s).rings = s.rings :=
  domainOff_keep (.same (p := .rings) rfl s) d now s rfl
theorem domainOn_svc (d : Nat) (s : State) : (domainOn d s).svc = s.svc := domainOn_keep (.same (p := .svc) rfl s) d s rfl
theorem domainOn_rings (d : Nat) (s : State) : (domainOn d s).rings = s.rings := domainOn_keep (.same (p := .rings) rfl s) d s rfl

-- ---- DOMAIN (R33, R34)
theorem domain_refused {e : CmdEntry} {s : State} (now : Nat) (hoff : bitOf (opN e 0) 8 = false)
    (hserves : s.domServes (fld (opN e 0) 0 6) = true) : domainOwn now e s = refuse e stState 1 s := by
  simp [domainOwn, checked, domainChecks, firstFail, hoff, hserves]

theorem domain_on {e : CmdEntry} {s : State} (now : Nat) (hopen : s.scopeOpen e = false) (hon : bitOf (opN e 0) 8 = true) :
    domainOwn now e s =
      acceptLater e 0 (if s.domOn (fld (opN e 0) 0 6) then s else domainOn (fld (opN e 0) 0 6) s) := by
  simp [domainOwn, checked, domainChecks, firstFail, held, hopen, hon]

/-- The collector ignores these sources from now on: what they still had to report is gone (R34, R436). -/
def unwatch (src : List Nat) (s : State) : State :=
  s.updCol (fun c => { c with
    unwatched := c.unwatched ++ src.filter (fun i => !c.unwatched.contains i)
    srcQ := c.srcQ.filter (fun r => !src.contains r.source)
    gone := c.gone.filter (fun r => !src.contains r.source) })

theorem domain_off {e : CmdEntry} {s : State} (now : Nat) (hopen : s.scopeOpen e = false) (hoff : bitOf (opN e 0) 8 = false)
    (hfree : s.domServes (fld (opN e 0) 0 6) = false) :
    domainOwn now e s = acceptLater e 0 (unwatch (domSources (fld (opN e 0) 0 6))
      (if s.domOn (fld (opN e 0) 0 6) then domainOff (fld (opN e 0) 0 6) now s else s)) := by
  simp [domainOwn, checked, domainChecks, firstFail, held, hopen, hoff, hfree, unwatch]

theorem mem_unwatch {src : List Nat} (s : State) {i : Nat} (hi : i ∈ src) : i ∈ (unwatch src s).col.unwatched := by
  by_cases h : i ∈ s.col.unwatched <;> simp [unwatch, hi, h]

/-- A domain switched as asked: no other domain, no command in progress and no ring changes. -/
structure Switched (d : Nat) (on : Bool) (s t : State) : Prop where
  dom : ∀ j, t.domOn j = if j = d then on else s.domOn j
  svc : t.svc = s.svc
  rings : t.rings = s.rings

theorem Switched.of_already {d : Nat} {on : Bool} {s : State} (h : s.domOn d = on) : Switched d on s s :=
  ⟨fun j => by split <;> simp_all, rfl, rfl⟩

theorem State.domOn_of_dom {s t : State} (h : t.dom = s.dom) (j : Nat) : t.domOn j = s.domOn j := by rw [State.domOn, h, State.domOn]

theorem domainOn_switched {d : Nat} (hd : d < 48) (s : State) : Switched d true s (domainOn d s) :=
  ⟨fun j => (State.domOn_of_dom (domainOn_dom d s) j).trans (s.setDom_domOn hd true j), domainOn_svc d s, domainOn_rings d s⟩

theorem domainOff_switched {d : Nat} (hd : d < 48) (now : Nat) (s : State) : Switched d false s (domainOff d now s) :=
  ⟨fun j => (State.domOn_of_dom (domainOff_dom d now s) j).trans (s.setDom_domOn hd false j), domainOff_svc d now s, domainOff_rings d now s⟩

theorem switchOn_switched {d : Nat} (hd : d < 48) (s : State) : Switched d true s (if s.domOn d then s else domainOn d s) := by
  split
  next h => exact .of_already h
  next => exact domainOn_switched hd s

theorem switchOff_switched {d : Nat} (hd : d < 48) (now : Nat) (s : State) :
    Switched d false s (if s.domOn d then domainOff d now s else s) := by
  split
  next => exact domainOff_switched hd now s
  next h => exact .of_already (by simpa using h)

/-- A switched domain whose command stays in progress. -/
theorem Switched.inProgress {d : Nat} {on : Bool} {s t : State} (h : Switched d on s t) (e : CmdEntry) :
    (acceptLater e 0 t).domOn d = on ∧ (∀ j < 48, j ≠ d → (acceptLater e 0 t).domOn j = s.domOn j) ∧
      InProgress e s (acceptLater e 0 t) := by
  refine ⟨(h.dom d).trans (if_pos rfl), fun j _ hj => (h.dom j).trans (if_neg hj), ?_, h.rings⟩
  rw [← h.svc]
  rfl

/-- A DOMAIN that is accepted names one of the 48 domains (R292). -/
theorem domain_lt {e : CmdEntry} {s : State} (hop : opcodeOf e = 0x0B01) (h : s.general e = none) : fld (opN e 0) 0 6 < 48 := by
  have hr := rangeCheck_of_general h
  simp only [State.rangeCheck, hop] at hr
  by_contra hd
  simp [show 47 < fld (opN e 0) 0 6 by omega] at hr

theorem domain_switches (e : CmdEntry) (now : Nat) (s : State) (h : s.accepts e 0x0B01) : let u := s.untake e; let d := fld (opN e 0) 0 6
    let on := bitOf (opN e 0) 8
    Does (.domain e now) s fun t =>
      if on = false ∧ u.domServes d = true then Posted e stState 0 1 u t ∧ t.dom = u.dom
      else t.domOn d = on ∧ (∀ j < 48, j ≠ d → t.domOn j = u.domOn j) ∧ InProgress e u t ∧
        (on = false → ∀ i ∈ domSources d, i ∈ t.col.unwatched) := by
  intro u d on
  obtain ⟨-, hop, -, hgen, hopen⟩ := id h
  have hd : d < 48 := domain_lt hop hgen
  refine ⟨domainOwn now e u, congrArg Host.Outcome.next (commandRow_accepted h), ?_⟩
  cases hon : on with
  | true =>
    rw [if_neg (by simp), domain_on now hopen hon]
    obtain ⟨hdom, hother, hprog⟩ := (switchOn_switched hd u).inProgress e
    exact ⟨hdom, hother, hprog, by simp⟩
  | false =>
    cases hserves : u.domServes d with
    | true =>
      rw [if_pos ⟨rfl, rfl⟩, domain_refused now hon hserves]
      exact ⟨(refuse_posted e stState 1 u).1, rfl⟩
    | false =>
      rw [if_neg (by simp), domain_off now hopen hon hserves]
      obtain ⟨hdom, hother, hprog⟩ := (switchOff_switched hd now u).inProgress e
      exact ⟨hdom, hother, hprog, fun _ i hi => mem_unwatch _ hi⟩

-- ---- DOMAIN_SETTLED (R312, R436)
theorem finishWhere_svc (p : Prog → Bool) (st : Nat) (res : Prog → W) (s : State) :
    (finishWhere p st res s).svc = { s.svc with inProg := s.svc.inProg.filter (fun x => !p x) } := by
  unfold finishWhere
  exact foldl_same State.svc _ (fun b x => by split <;> rfl) _ _

theorem not_mem_finishObj {op st : Nat} {obj : Nat × Nat} {s : State} {p : Prog} (h : p ∈ (finishObj op obj st s).svc.inProg) :
    ¬(opcodeOf p.entry = op ∧ p.obj = some obj) := by
  rw [finishObj, finishWhere_svc] at h
  rw [not_and_or]
  simpa using (List.mem_filter.1 h).2

theorem condEnd_watch (p : Report → Bool) (s : State) : (condEnd p s).col.watch = s.col.watch := by
  unfold condEnd
  refine Eq.trans (each_same (fun y => y.col.watch) (fun n y => ?_) _ _) rfl
  dsimp only
  split <;> rfl

/-- The collector watches these sources afresh (R436). -/
def rewatch (src : List Nat) (s : State) : State :=
  s.updCol (fun c => { c with
    unwatched := c.unwatched.filter (fun i => !src.contains i), broken := c.broken.filter (fun i => !src.contains i) })

theorem domainSettled_eq (d : Fin 48) (s : State) : let u := finishObj 0x0B01 (17, d.val) stOk s
    exec (.domainSettled d) s = .next (if s.svc.inProg.any (fun p => p.obj == some (17, d.val)) && u.domOn d.val && decide (d.val < 46)
      then condEnd (fun r => (domSources d.val).contains r.source && r.cause == 0xF0) (rewatch (domSources d.val) u) else u) := by
  change execDomainSettled d s = _
  unfold execDomainSettled
  dsimp only
  split <;> rfl

theorem domainSettled_watches (d : Fin 48) (s : State) : Does (.domainSettled d) s fun t => t.dom = s.dom ∧
    (∀ p ∈ t.svc.inProg, ¬(opcodeOf p.entry = 0x0B01 ∧ p.obj = some (17, d.val))) ∧
    if s.svc.inProg.any (fun p => p.obj == some (17, d.val)) = true ∧ s.domOn d.val = true ∧ d.val < 46 then
      (∀ i ∈ domSources d.val, i ∉ t.col.unwatched ∧ i ∉ t.col.broken)
    else t.col = s.col := by
  have hfin {p : Part} (hp : [Part.rings, .svc].contains p = false) : p.same s (finishObj 0x0B01 (17, d.val) stOk s) :=
    finishObj_keep (.same hp s) _ _ _ s (p.same_refl s)
  refine ⟨_, domainSettled_eq d s, ?_⟩
  rw [State.domOn_of_dom (hfin (p := .dom) rfl)]
  simp only [Bool.and_eq_true, decide_eq_true_eq, and_assoc]
  split
  next =>
    generalize hu : rewatch (domSources d.val) (finishObj 0x0B01 (17, d.val) stOk s) = u
    have hend {p : Part} (hp : [Part.col].contains p = false) (q : Report → Bool) : p.same u (condEnd q u) :=
      condEnd_keep (.same hp u) q u (p.same_refl u)
    refine ⟨(hend (p := .dom) rfl _).trans ?_, fun p hp => ?_, fun i hi => ?_⟩
    · rw [← hu]
      exact hfin (p := .dom) rfl
    · rw [show (condEnd _ u).svc = u.svc from hend (p := .svc) rfl _, ← hu] at hp
      exact not_mem_finishObj hp
    · have hw := condEnd_watch (fun r => (domSources d.val).contains r.source && r.cause == 0xF0) u
      simp only [Col.watch, Prod.mk.injEq] at hw
      obtain ⟨-, hbroken, hunwatched⟩ := hw
      rw [hbroken, hunwatched, ← hu]
      simp [rewatch, hi]
  next => exact ⟨hfin (p := .dom) rfl, fun p hp => not_mem_finishObj hp, hfin (p := .col) rfl⟩

-- ---- DOMAIN_POWER_LOSS (R34, R436, R531)
/-- The reaction to one source of a domain that has lost power. -/
def lostReaction (now i : Nat) (s : State) : State :=
  if 0xA0 ≤ i ∧ i < 0xC0 then flockReaction (i - 0xA0) now s
  else reportNow (mkRep i 15 0 (if 0xC0 ≤ i ∧ i < 0xC8 then 3 else 1) 0 0) now s

/-- The sources of a domain that are watched and whole. -/
def State.wholeSources (s : State) (d : Nat) : List Nat :=
  (domSources d).filter (fun i => !s.col.broken.contains i && !s.col.unwatched.contains i)

/-- The sources of a domain that has lost power are broken wires, with the reaction of each. -/
def sourcesLost (d now : Nat) (s : State) : State :=
  each (s.wholeSources d) (lostReaction now) (s.updCol (fun c => { c with broken := c.broken ++ s.wholeSources d }))

/-- A domain other than PD46 without power. -/
def unpowered (d now : Nat) (s : State) : State :=
  if d = 47 then (s.setDom 47 false).updBoot (fun b => { b with calDead := true }) else domainOff d now s

theorem domainPowerLoss_off {d : Fin 48} (now : Nat) {s : State} (h : s.domOn d.val = false) :
    exec (.domainPowerLoss d now) s = .next s := by
  change execDomainPowerLoss d now s = _
  simp [execDomainPowerLoss, h]

theorem domainPowerLoss_module {d : Fin 48} (now : Nat) {s : State} (h : s.domOn d.val = true) (hd : d.val = 46) :
    exec (.domainPowerLoss d now) s = .next (powerDown now s) := by
  change execDomainPowerLoss d now s = _
  rw [execDomainPowerLoss, h, if_neg (by decide), if_pos hd]

/-- The tests of the domain are abandoned, then it is without power, then its sources are lost. -/
theorem domainPowerLoss_on {d : Fin 48} (now : Nat) {s : State} (h : s.domOn d.val = true) (hd : d.val ≠ 46) :
    ∃ tests, exec (.domainPowerLoss d now) s = .next (sourcesLost d.val now (unpowered d.val now (each tests bistAbandon s))) := by
  change ∃ tests, execDomainPowerLoss d now s = _
  rw [execDomainPowerLoss, h, if_neg (by decide), if_neg hd]
  exact ⟨_, rfl⟩

theorem lostReaction_steady (now i : Nat) (s : State) : (lostReaction now i s).steady = s.steady := by
  unfold lostReaction
  split
  · exact flockReaction_steady _ now s
  · refine reportNow_steady ?_ now s
    simp only [mkRep]
    split <;> decide

theorem sourcesLost_steady (d now : Nat) (s : State) :
    (sourcesLost d now s).steady = (s.updCol (fun c => { c with broken := c.broken ++ s.wholeSources d })).steady :=
  each_same State.steady (lostReaction_steady now) _ _

/-- The loss of sources changes no part but these: neither the domains nor the boot state. -/
theorem sourcesLost_same {p : Part} (hp : [Part.regs, .wide, .chans, .terms, .folds, .gates, .motors, .caps, .injs, .rings, .svc, .col,
    .tal, .host].contains p = false) (d now : Nat) (s : State) : p.same s (sourcesLost d now s) := by
  have keep := Keeps.same hp s
  refine each_keep _ _ (fun i u hu => ?_) (keep.col rfl _ (p.same_refl s))
  unfold lostReaction
  split
  · exact flockReaction_keep keep _ now u hu
  · exact reportNow_keep keep _ now u hu

theorem sourcesLost_broken (d now : Nat) (s : State) {i : Nat} (hi : i ∈ domSources d) :
    i ∈ (sourcesLost d now s).col.broken ∨ i ∈ (sourcesLost d now s).col.unwatched := by
  have hw := congrArg Prod.fst (sourcesLost_steady d now s)
  simp only [State.steady, Col.watch, Prod.mk.injEq] at hw
  obtain ⟨-, hbroken, hunwatched⟩ := hw
  rw [hbroken, hunwatched]
  by_cases hb : i ∈ s.col.broken <;> by_cases hu : i ∈ s.col.unwatched <;> simp [State.wholeSources, hi, hb, hu]

theorem sourcesLost_sides (d now : Nat) (s : State) : (sourcesLost d now s).sides = s.sides :=
  congrArg Prod.snd (sourcesLost_steady d now s)

theorem unpowered_dom (d now : Nat) (s : State) : (unpowered d now s).dom = (s.setDom d false).dom := by
  unfold unpowered
  split
  next h => subst h; rfl
  next => exact domainOff_dom d now s

theorem setDrive_off_sides (t now : Nat) (own : Bool) (s : State) (n : Nat) :
    (setDrive t .off own now s).sides n = if n = t then (false, false) else s.sides n := by
  simp only [setDrive, State.sides, State.setTerm_read]
  split <;> rfl

theorem each_setDrive_off_sides (now : Nat) (l : List Nat) (s : State) (n : Nat) :
    (each l (fun t s => setDrive t .off false now s) s).sides n = if n ∈ l then (false, false) else s.sides n := by
  induction l generalizing s with
  | nil => rfl
  | cons t l ih =>
    rw [show each (t :: l) _ s = each l _ (setDrive t .off false now s) from rfl, ih, setDrive_off_sides]
    by_cases hn : n = t <;> simp [hn]

theorem State.sides_of_same {s t : State} (h : Part.same .terms s t) : t.sides = s.sides := by
  unfold State.sides State.term
  rw [show t.terms = s.terms from h]

/-- A gate-drive domain that goes off leaves no side of a leg of its fold on. -/
theorem foldOff_sides (k now : Nat) (s : State) {n : Nat} (hn : foldOf n = k) : (foldOff k now s).sides n = (false, false) := by
  unfold foldOff
  extract_lets u v w
  have hlast : Part.same .terms w
      (refreshGates (each (List.range 8) (fun i y => gateLow (8 * k + i) y) (signalVec 10 (w.clearRegs (foldWord k))))) := by
    have keep : Keeps [.gates, .host, .regs] (Part.same .terms w) := .same rfl w
    exact refreshGates_keep (keep.mono (by decide)) _ <| each_keep _ _ (fun i y hy => gateLow_keep (keep.mono (by decide)) _ y hy) <|
      signalVec_keep (keep.mono (by decide)) 10 _ rfl
  rw [State.sides_of_same hlast, each_setDrive_off_sides]
  split
  next => rfl
  next h =>
    have hkey : n ∉ tkeys v.terms := fun hk => h (by simp [hk, hn])
    rw [State.sides, State.term, tget_of_not_mem _ hkey]
    rfl

theorem powerDown_dom (now : Nat) (s : State) : (powerDown now s).dom = if s.domOn 47 then 0x800000000000 else 0 := by
  unfold powerDown
  extract_lets cal u
  have hu : u.dom = if cal then 0x800000000000 else 0 :=
    cutBurns_keep (.same (p := .dom) rfl _) _ (allOff_keep (.same (p := .dom) rfl _) now _ rfl)
  exact hu

theorem domainPowerLoss_breaks (d : Fin 48) (now : Nat) (s : State) : Does (.domainPowerLoss d now) s fun t =>
    if s.domOn d.val = false then t = s
    else t.domOn d.val = false ∧ (d.val ≠ 46 → ∀ i ∈ domSources d.val, i ∈ t.col.broken ∨ i ∈ t.col.unwatched) ∧
      (32 ≤ d.val → d.val < 40 → ∀ n ∈ tkeys s.terms, foldOf n = d.val - 32 → (t.term n).hi = false ∧ (t.term n).lo = false) ∧
      (d.val = 47 → t.boot.calDead = true) := by
  cases hon : s.domOn d.val with
  | false => exact ⟨s, domainPowerLoss_off now hon, rfl⟩
  | true =>
    by_cases hd : d.val = 46
    · refine ⟨_, domainPowerLoss_module now hon hd, ?_⟩
      simp only [Bool.true_eq_false, if_false, hd]
      refine ⟨?_, by simp, by simp, by simp⟩
      rw [State.domOn, powerDown_dom]
      split <;> decide
    · obtain ⟨tests, hexec⟩ := domainPowerLoss_on now hon hd
      generalize each tests bistAbandon s = u at hexec
      refine ⟨_, hexec, ?_⟩
      simp only [Bool.true_eq_false, if_false]
      refine ⟨?_, fun _ i hi => sourcesLost_broken _ now _ hi, fun hlo hhi n _ hn => ?_, fun h47 => ?_⟩
      · rw [State.domOn_of_dom (sourcesLost_same (p := .dom) rfl _ now _), State.domOn_of_dom (unpowered_dom _ now u),
          State.setDom_domOn u d.isLt, if_pos rfl]
      · have hoff : unpowered d.val now u = foldOff (d.val - 32) now u := by
          rw [unpowered, domainOff, if_neg (by omega), if_neg (by omega), if_pos hhi]
        have hsides := foldOff_sides (d.val - 32) now u hn
        rw [← hoff, ← sourcesLost_sides d.val now] at hsides
        exact Prod.mk.inj hsides
      · rw [show (sourcesLost _ now _).boot = _ from sourcesLost_same (p := .boot) rfl _ now _, unpowered, if_pos h47]
        rfl

/-- Settles O39: a row's effect is that of its switch (`Switched`), of the watch of the collector, or of the sources it loses. -/
theorem domainsSwitchAndSettleAsCommandedOrLost : Obligations.DomainsSwitchAndSettleAsCommandedOrLost := by
  unfold Obligations.DomainsSwitchAndSettleAsCommandedOrLost
  exact ⟨domain_switches, domainSettled_watches, domainPowerLoss_breaks⟩

end Sys2Proof.Machine
end

section
/-! SUPPORT. One step keeps what every primitive operation keeps; the generations are such a property. -/

namespace Sys2Proof.Machine

open Sys2Proof

/-- What the primitive operations and the queue leave intact, a step leaves intact: a command by `exec_keep`, the idle tick by
`calTick_keep`. -/
theorem step_keep {P : State → Prop} (hP : Keeps allParts P) (hqueue : ∀ {s : State} q, P s → P { s with pending := q })
    {s t : State} (h : P s) (hst : step s = .next t) : P t := by
  unfold step at hst
  split at hst
  next => cases hst; exact calTick_keep (hP.mono (by decide)) s h
  next c rest _ =>
    have hc : Keeps c.touches P := hP.mono (List.all_eq_true.2 fun p _ => by cases p <;> rfl)
    exact (exec_keep c hc _ (hqueue rest h)).all t hst

/-- 0x0000 is never issued (R50). -/
theorem nextGen_range (g : Nat) : 1 ≤ nextGen g ∧ nextGen g ≤ 0xFFFF := by
  unfold nextGen
  split <;> omega

theorem State.advGen_gensOk {s : State} (ty i : Nat) (h : s.gensOk) : (s.advGen ty i).gensOk := by
  intro ty' i'
  rw [State.gen, State.advGen, tget_tset]
  split
  · exact nextGen_range _
  · exact h ty' i'

/-- Every generation is 1 after a power-up. -/
theorem powerUp_gensOk (head : Bool) (s : State) : (powerUp head s).gensOk := fun _ _ =>
  show 1 ≤ 1 ∧ 1 ≤ 0xFFFF by decide

/-- Only `advGen` and a power-up write a generation. -/
theorem gensOk_keeps : Keeps allParts State.gensOk := by
  constructor
  case advGen => exact fun _ _ ty i h => State.advGen_gensOk ty i h
  case power => exact fun _ _ head _ => powerUp_gensOk head _
  all_goals intros; assumption

/-- Settles O7: an operation of a step that writes a generation keeps the range. -/
theorem stepsKeepGenerationsInRange : Obligations.StepsKeepGenerationsInRange := by
  unfold Obligations.StepsKeepGenerationsInRange
  exact fun _ _ h hst => step_keep gensOk_keeps (fun _ h => h) h hst

end Sys2Proof.Machine
end

section
/-! SUPPORT. What a stop leaves: of the collector all but the reports at their sources, of its channel what it was stopped for. -/

namespace Sys2Proof.Machine

open Sys2Proof

-- ---- folds of operations
/-- What an operation on a number brings about there, and on no number takes away, holds of every number after a fold. -/
theorem each_establishes {P : Nat → State → Prop} {f : Nat → State → State} (hest : ∀ i s, P i (f i s))
    (hkeep : ∀ i j s, P j s → P j (f i s)) {l : List Nat} {j : Nat} (hj : j ∈ l) (s : State) : P j (each l f s) := by
  induction l generalizing s with
  | nil => cases hj
  | cons i l ih =>
    by_cases h : j ∈ l
    · exact ih h _
    · obtain rfl : j = i := by simpa [h] using hj
      exact each_keep l f (fun i s => hkeep i j s) (hest j s)

-- ---- the parts of a state that a command reads
theorem State.term_of_same {s t : State} (h : Part.same .terms s t) (j : Nat) : t.term j = s.term j := by
  unfold State.term
  rw [show t.terms = s.terms from h]

theorem State.fold_of_same {s t : State} (h : Part.same .folds s t) (j : Nat) : t.fold j = s.fold j := by
  unfold State.fold
  rw [show t.folds = s.folds from h]

theorem State.ring_of_same {s t : State} (h : Part.same .rings s t) (j : Nat) : t.ring j = s.ring j := by
  unfold State.ring
  rw [show t.rings = s.rings from h]

/-- Outside its live channels every channel is free. -/
theorem State.st_of_not_live {s : State} {j : Nat} (h : j ∉ s.liveChans) : (s.chan j).st = .free := by
  by_cases hk : j ∈ tkeys s.chans
  · simpa [State.liveChans, hk, Chan.live] using h
  · rw [State.chan, tget_of_not_mem _ hk]
    rfl

-- ---- reports at their sources (R435, R437)
/-- The collector but for the reports that wait at their sources and their latches. -/
def Col.served (c : Col) : Col := { c with srcQ := [], latched := [] }

/-- Between `s` and `t` the collector changed by nothing but reports that wait at their sources. -/
structure Quiet (s t : State) : Prop where
  served : t.col.served = s.col.served

theorem Quiet.refl (s : State) : Quiet s s := ⟨rfl⟩

theorem Quiet.broken {s t : State} (h : Quiet s t) : t.col.broken = s.col.broken := (congrArg Col.broken h.served :)
theorem Quiet.intake {s t : State} (h : Quiet s t) : t.col.intake = s.col.intake := (congrArg Col.intake h.served :)
theorem Quiet.reacts {s t : State} (h : Quiet s t) : t.col.reacts = s.col.reacts := (congrArg Col.reacts h.served :)

/-- What does not touch the collector is quiet. -/
theorem Keeps.quiet {L : List Part} (hL : L.contains .col = false) (s : State) : Keeps L (Quiet s) := by
  have hno {q : Prop} (h : L.contains .col = true) : q := absurd (h.symm.trans hL) (by decide)
  constructor
  case power => exact fun hall => hno (hall .col)
  case col => exact fun h => hno h
  all_goals intros; rename_i h; exact ⟨h.served⟩

theorem raise_quiet {s t : State} (a : Nat) (r : Report) (h : Quiet s t) : Quiet s (raise a r t) :=
  ⟨(congrArg Col.served (raise_col a r t)).trans h.served⟩

theorem modEvent_quiet {s u : State} (t bit : Nat) (h : Quiet s u) : Quiet s (modEvent t bit u) := by
  unfold modEvent raiseOnce
  split
  · exact h
  · exact raise_quiet _ _ h

theorem clearForces_quiet {s t : State} (ch : Nat) (h : Quiet s t) : Quiet s (clearForces ch t) := by
  refine each_keep _ _ (fun q u hu => ?_) h
  have hterm (f : Term → Term) : Quiet s (u.updTerm q f) := ⟨hu.served⟩
  dsimp only
  split
  · exact hterm _
  · exact modEvent_quiet q 3 (hterm _)

theorem stopChannel_quiet {s t : State} (ch : Nat) (r : Report) (h : Quiet s t) : Quiet s (stopChannel ch r t) := by
  have hchan (c : Chan) : Quiet s (t.setChan ch c) := ⟨h.served⟩
  have hfin (op st : Nat) {u : State} (hu : Quiet s u) : Quiet s (finishObj op (1, ch) st u) :=
    finishObj_keep (.quiet rfl s) op _ st u hu
  unfold stopChannel
  extract_lets c
  split
  · exact h
  · exact h
  · exact ite_keep (clearForces_quiet ch ⟨h.served⟩) ⟨h.served⟩
  · exact refreshGates_keep (.quiet rfl s) _ (motorIdle_keep (.quiet rfl s) ch _ (clearForces_quiet ch (hfin _ _ (hfin _ _ (hchan _)))))

-- ---- the channel of a stop (R53, R142, R176, R439)
/-- No force is in effect on a leg or asked for. -/
def Term.unforced (x : Term) : Prop := x.forceEff = 0 ∧ x.forceQ = Option.none

theorem modEvent_term (t bit : Nat) (s : State) (q : Nat) : (modEvent t bit s).term q = s.term q :=
  State.term_of_same (modEvent_keep (.same (p := .terms) rfl s) t bit s rfl) q

/-- The clearing of one leg's force, and no other's, is what a step of `clearForces` does. -/
theorem clearForces_unforced {ch q : Nat} {s : State} (hq : q ∈ (s.chan ch).terms) : ((clearForces ch s).term q).unforced := by
  refine each_establishes (P := fun q s => (s.term q).unforced) (fun t s => ?_) (fun t q s hs => ?_) hq s
  · dsimp only
    split
    next h => simp [Term.unforced, h.1]
    next => simp [Term.unforced, modEvent_term]
  · dsimp only
    split
    next => by_cases e : q = t <;> simp_all [Term.unforced]
    next => by_cases e : q = t <;> simp_all [Term.unforced, modEvent_term]

theorem clearForces_keeps_unforced {ch q : Nat} {s : State} (h : (s.term q).unforced) : ((clearForces ch s).term q).unforced := by
  refine each_keep (P := fun s : State => (s.term q).unforced) _ _ (fun t s hs => ?_) h
  dsimp only
  split
  next => by_cases e : q = t <;> simp_all [Term.unforced]
  next => by_cases e : q = t <;> simp_all [Term.unforced, modEvent_term]

/-- A motor that goes idle leaves of its channel all but its step. -/
theorem motorIdle_chan (ch : Nat) (s : State) (j : Nat) :
    ∃ a b, (motorIdle ch s).chan j = { s.chan j with step := a, stepPend := b } := by
  unfold motorIdle
  split
  · exact ⟨_, _, rfl⟩
  · simp only [State.updChan_eq, State.setChan_read]
    split
    next h => exact ⟨7, [], by rw [h]; rfl⟩
    next => exact ⟨_, _, rfl⟩

/-- The channel is stopped by these causes among others, with no held fault and no force on these terminals. -/
structure Stopped (ch : Nat) (qs : List Nat) (rs : List Report) (s : State) : Prop where
  st : (s.chan ch).st = .stopped
  held : (s.chan ch).held = []
  causes : ∀ r ∈ rs, r ∈ (s.chan ch).causes
  unforced : ∀ q ∈ qs, (s.term q).unforced

/-- The first stop of an idle or armed channel. -/
theorem stopChannel_first {ch : Nat} {s : State} (r : Report) (h : (s.chan ch).st = .idle ∨ (s.chan ch).st = .armed) :
    Stopped ch (s.chan ch).terms [r] (stopChannel ch r s) := by
  generalize hc : ({ (s.chan ch).leaveArmed.dropZc with st := .stopped, causes := (s.chan ch).causes ++ [r], held := [] } : Chan) = c
  generalize hu : finishObj 0x0602 (1, ch) 0 (finishObj 0x0601 (1, ch) 8 (s.setChan ch c)) = u
  have heq : stopChannel ch r s = refreshGates (motorIdle ch (clearForces ch u)) := by
    unfold stopChannel
    rcases h with h | h <;> simp only [h, hc, hu]
  have huc : u.chan ch = c := by simp [← hu]
  obtain ⟨a, b, hm⟩ := motorIdle_chan ch (clearForces ch u) ch
  have hchan : (stopChannel ch r s).chan ch = { c with step := a, stepPend := b } := by
    rw [heq, refreshGates_chan, hm, clearForces_chan, huc]
  have hterm (q : Nat) : (stopChannel ch r s).term q = (clearForces ch u).term q := by
    rw [heq, State.term_of_same (refreshGates_keep (.same (p := .terms) rfl _) _ rfl),
      State.term_of_same (motorIdle_keep (.same (p := .terms) rfl _) ch _ rfl)]
  refine ⟨by rw [hchan, ← hc], by rw [hchan, ← hc], by simp [hchan, ← hc], fun q hq => ?_⟩
  rw [hterm]
  exact clearForces_unforced (by rw [huc, ← hc]; exact hq)

/-- A further stop of a stopped channel adds its cause. -/
theorem Stopped.again {ch : Nat} {qs : List Nat} {rs : List Report} {s : State} (h : Stopped ch qs rs s) (r : Report) :
    Stopped ch qs (r :: rs) (stopChannel ch r s) := by
  obtain ⟨hst, hheld, hcauses, hfree⟩ := h
  generalize hl : (if (s.chan ch).causes.contains r then (s.chan ch).causes else (s.chan ch).causes ++ [r]) = l
  have hmem : ∀ x ∈ r :: rs, x ∈ l := by
    intro x hx
    rcases List.mem_cons.1 hx with rfl | hx
    · rw [← hl]
      split <;> simp_all
    · rw [← hl]
      split
      · exact hcauses x hx
      · exact List.mem_append_left _ (hcauses x hx)
  generalize hu : (s.setChan ch { s.chan ch with clearPend := false, causes := l }).updChan ch Chan.dropZc = u
  have heq : stopChannel ch r s = clearForces ch u ∨ stopChannel ch r s = u := by
    unfold stopChannel
    extract_lets c
    split
    next h => exact absurd (h.symm.trans hst) (by decide)
    next h => exact absurd (h.symm.trans hst) (by decide)
    next =>
      rw [← hu, ← hl]
      split
      · exact .inl rfl
      · exact .inr rfl
    next h => exact absurd hst h
  have hnow : Stopped ch qs (r :: rs) u := by
    subst hu
    exact ⟨by simpa [Chan.dropZc] using hst, by simpa [Chan.dropZc] using hheld, by simpa [Chan.dropZc] using hmem, by simpa using hfree⟩
  rcases heq with heq | heq <;> rw [heq]
  · exact ⟨by rw [clearForces_chan, hnow.st], by rw [clearForces_chan, hnow.held], fun x hx => by
      rw [clearForces_chan]; exact hnow.causes x hx, fun q hq => clearForces_keeps_unforced (hnow.unforced q hq)⟩
  · exact hnow

/-- The stops of a channel in turn, each by the report of an entry. -/
theorem Stopped.forL {α : Type} {ch : Nat} {qs : List Nat} {rs : List Report} {s : State} (h : Stopped ch qs rs s) (rep : α → Report)
    (l : List α) : Stopped ch qs (l.map rep ++ rs) (forL l (fun x s => stopChannel ch (rep x) s) s) := by
  induction l generalizing rs s with
  | nil => exact h
  | cons x l ih =>
    obtain ⟨hst, hheld, hcauses, hfree⟩ := ih (h.again (rep x))
    exact ⟨hst, hheld, fun r hr => hcauses r (List.perm_middle.mem_iff.2 hr), hfree⟩

/-- Stops of an idle or armed channel, of which there is one at least. -/
theorem forL_stopChannel {α : Type} {ch : Nat} {s : State} (rep : α → Report) {l : List α} (hl : l ≠ [])
    (h : (s.chan ch).st = .idle ∨ (s.chan ch).st = .armed) :
    Stopped ch (s.chan ch).terms (l.map rep) (Machine.forL l (fun x s => stopChannel ch (rep x) s) s) := by
  cases l with
  | nil => exact absurd rfl hl
  | cons x l =>
    obtain ⟨hst, hheld, hcauses, hfree⟩ := (stopChannel_first (rep x) h).forL rep l
    exact ⟨hst, hheld, fun r hr => hcauses r (List.perm_middle.mem_iff.2 (by simpa using hr)), hfree⟩

end Sys2Proof.Machine
end

section
/-! SUPPORT. Stops at a boundary and at once: dispatched stops, held faults, debug halts, broken wires and the end of a fold stop. -/

namespace Sys2Proof.Machine

open Sys2Proof

-- ---- FAULT_REACTION_APPLY (R439)
theorem debugDone_quiet {s t : State} (h : Quiet s t) : Quiet s (debugDone t) := by
  unfold debugDone
  split
  · exact h
  · exact finishWhere_keep (.quiet rfl s) _ _ _ _ (raise_quiet _ _ ⟨h.served⟩)

/-- The stops that are dispatched on a channel leave the collector as they act. -/
def takeStops (ch : Nat) (s : State) : State :=
  s.updCol (fun c => { c with reacts := c.reacts.filter (fun x => x.chan != ch) })

theorem faultReactionApply_eq (ch : Fin 512) (s : State) : exec (.faultReactionApply ch) s = .next (debugDone
    (forL (s.col.reacts.filter (fun x => x.chan == ch.val)) (fun x s => stopChannel ch.val x.rep s) (takeStops ch.val s))) := rfl

theorem forL_stopChannel_quiet (ch : Nat) (l : List React) (s : State) :
    Quiet s (forL l (fun x s => stopChannel ch x.rep s) s) :=
  forL_keep l _ (fun x _ h => stopChannel_quiet ch x.rep h) (.refl s)

theorem faultReactionApply_stops {ch : Fin 512} {s : State} {r : Report} (hr : { chan := ch.val, rep := r } ∈ s.col.reacts)
    (hst : (s.chan ch.val).st = .idle ∨ (s.chan ch.val).st = .armed) : Does (.faultReactionApply ch) s fun t =>
      (t.chan ch.val).st = .stopped ∧ r ∈ (t.chan ch.val).causes ∧ (∀ x ∈ t.col.reacts, x.chan ≠ ch.val) ∧
        (∀ q ∈ (s.chan ch.val).terms, (t.term q).forceEff = 0 ∧ (t.term q).forceQ = none) := by
  refine ⟨_, faultReactionApply_eq ch s, ?_⟩
  have hmem : { chan := ch.val, rep := r } ∈ s.col.reacts.filter (fun x => x.chan == ch.val) := by simpa using hr
  obtain ⟨hstop, -, hcauses, hfree⟩ := forL_stopChannel (s := takeStops ch.val s) React.rep (List.ne_nil_of_mem hmem) hst
  have hquiet := forL_stopChannel_quiet ch.val (s.col.reacts.filter (fun x => x.chan == ch.val)) (takeStops ch.val s)
  generalize forL _ _ (takeStops ch.val s) = v at hstop hcauses hfree hquiet ⊢
  have hchan := State.chan_of_same (debugDone_keep (.same (p := .chans) rfl v) v rfl) ch.val
  refine ⟨by rw [hchan, hstop], ?_, ?_, fun q hq => ?_⟩
  · rw [hchan]
    exact hcauses r (List.mem_map_of_mem hmem)
  · rw [(debugDone_quiet hquiet).reacts]
    simp [takeStops]
  · rw [State.term_of_same (debugDone_keep (.same (p := .terms) rfl v) v rfl)]
    exact hfree q hq

-- ---- HELD_FAULT_TAKE_EFFECT (R405)
/-- No fault of a channel is held any more. -/
def dropHeld (ch : Nat) (s : State) : State := s.setChan ch { s.chan ch with held := [] }

theorem dropHeld_chan (ch : Nat) (s : State) : (dropHeld ch s).chan ch = { s.chan ch with held := [] } := by simp [dropHeld]

theorem heldFaultTakeEffect_waits {ch : Fin 512} {s : State} (h : (s.chan ch.val).held = [] ∨ s.layerOf ch.val = true) :
    exec (.heldFaultTakeEffect ch) s = .next s := by
  change execHeldFaultTakeEffect ch s = _
  simp [execHeldFaultTakeEffect, h]

theorem heldFaultTakeEffect_acts {ch : Fin 512} {s : State} (h : ¬((s.chan ch.val).held = [] ∨ s.layerOf ch.val = true)) :
    exec (.heldFaultTakeEffect ch) s = .next (refreshGates
      (if (s.chan ch.val).st = .idle ∨ (s.chan ch.val).st = .armed then
        forL (s.chan ch.val).held (fun r s => stopChannel ch.val r s) (dropHeld ch.val s)
      else dropHeld ch.val s)) := by
  change execHeldFaultTakeEffect ch s = _
  unfold execHeldFaultTakeEffect
  rw [if_neg (by simpa using h)]
  extract_lets u
  split
  next hst => rw [if_pos (.inl hst)]; rfl
  next hst => rw [if_pos (.inr hst)]; rfl
  next hidle harmed => rw [if_neg (not_or.2 ⟨hidle, harmed⟩)]; rfl

theorem heldFaultTakeEffect_stops (ch : Fin 512) (s : State) : Does (.heldFaultTakeEffect ch) s fun t =>
    if (s.chan ch.val).held = [] ∨ s.layerOf ch.val = true then t = s
    else (t.chan ch.val).held = [] ∧ ((s.chan ch.val).st = .idle ∨ (s.chan ch.val).st = .armed → (t.chan ch.val).st = .stopped) := by
  by_cases h : (s.chan ch.val).held = [] ∨ s.layerOf ch.val = true
  · exact ⟨s, heldFaultTakeEffect_waits h, by simp only [if_pos h]⟩
  refine ⟨_, heldFaultTakeEffect_acts h, ?_⟩
  simp only [if_neg h, refreshGates_chan]
  split
  next hst =>
    obtain ⟨hstop, hnone, -, -⟩ := forL_stopChannel (s := dropHeld ch.val s) id (fun e => h (.inl e)) (by rwa [dropHeld_chan])
    exact ⟨hnone, fun _ => hstop⟩
  next hst => exact ⟨by rw [dropHeld_chan], fun h => absurd h hst⟩

-- ---- DEBUG_HALT (R211, R342)
/-- Operations that each stop one channel stop those of a list. -/
theorem each_stop_st {f : Nat → State → State}
    (hf : ∀ i s j, ((f i s).chan j).st = if j = i then (s.chan j).st.stop else (s.chan j).st) (l : List Nat) (s : State) (j : Nat) :
    ((each l f s).chan j).st = if j ∈ l then (s.chan j).st.stop else (s.chan j).st := by
  induction l generalizing s with
  | nil => rfl
  | cons i l ih =>
    rw [show each (i :: l) f s = each l f (f i s) from rfl, ih, hf]
    by_cases hj : j = i <;> simp [hj]

theorem ChanSt.stop_ne_armed (x : ChanSt) : x.stop ≠ .armed := by cases x <;> decide

/-- The halt stops its channels one after the other. -/
def haltStops (src now ch : Nat) (s : State) : State := raiseOwn src 2 2 1 ch (tripChannel ch now (mkRep src 15 2 2 1 ch) s)

theorem haltStops_st (src now ch : Nat) (s : State) (j : Nat) :
    ((haltStops src now ch s).chan j).st = if j = ch then (s.chan j).st.stop else (s.chan j).st := by
  rw [haltStops, raiseOwn_at_chan, tripChannel_st]
  split
  next h => rw [h]
  next => rfl

theorem haltStops_same {p : Part} (hp : [Part.regs, .wide, .chans, .terms, .gates, .motors, .rings, .svc, .col, .tal, .host].contains p = false)
    (src now : Nat) (l : List Nat) (s : State) : p.same s (each l (haltStops src now) s) :=
  each_keep _ _ (fun ch t ht => raiseOwn_keep ((Keeps.same hp s).mono (by decide)) _ _ _ _ _ _
    (tripChannel_keep (.same hp s) ch now _ t ht)) (p.same_refl s)

/-- The engine is halted, its run over. -/
def haltEngine (e : Nat) (s : State) : State :=
  (s.updHlt e (fun h => { h with st := 3 })).setRun e { s.run e with live := false }

/-- The channels that a halt of engine e stops (R211, R342). -/
def State.haltHits (s : State) (e : Nat) : List Nat :=
  (s.chansOfFlock (if e < 128 then e / 4 else e - 128)).filter (fun ch =>
    if e < 128 then (s.chan ch).engOf false == e || (s.chan ch).engOf true == e else (s.chan ch).armed)

theorem debugHalt_eq (e : Fin 160) (now : Nat) (s : State) : exec (.debugHalt e now) s = .next (each (s.haltHits e.val)
    (haltStops (if e.val < 128 then srcLoop e.val else srcModel (if e.val < 128 then e.val / 4 else e.val - 128)) now)
    (haltEngine e.val s)) := rfl

theorem debugHalt_stops (e : Fin 160) (now : Nat) (s : State) : Does (.debugHalt e now) s fun t =>
    (t.hlt e.val).st = 3 ∧ (t.run e.val).live = false ∧
    ∀ ch ∈ s.liveChans, (if e.val < 128 then (s.chan ch).flock = e.val / 4 ∧ ((s.chan ch).engOf false = e.val ∨ (s.chan ch).engOf true = e.val)
        else (s.chan ch).flock = e.val - 128) → (t.chan ch).st ≠ .armed := by
  refine ⟨_, debugHalt_eq e now s, ?_⟩
  generalize (if e.val < 128 then srcLoop e.val else srcModel _) = src
  have hsame {p : Part} (hp) := haltStops_same (p := p) hp src now (s.haltHits e.val) (haltEngine e.val s)
  refine ⟨?_, ?_, fun ch hch hcond => ?_⟩
  · rw [State.hlt, show (each _ _ _).health = _ from hsame (p := .health) rfl]
    change ((haltEngine e.val s).hlt e.val).st = 3
    simp [haltEngine]
  · rw [State.run, show (each _ _ _).runs = _ from hsame (p := .runs) rfl]
    change ((haltEngine e.val s).run e.val).live = false
    simp [haltEngine]
  · rw [each_stop_st (haltStops_st src now), show (haltEngine e.val s).chan ch = s.chan ch from rfl]
    split
    next => exact ChanSt.stop_ne_armed _
    next hmiss =>
      intro harmed
      refine hmiss (List.mem_filter.2 ⟨List.mem_filter.2 ⟨hch, ?_⟩, ?_⟩)
      · split at hcond <;> simp_all
      · split at hcond <;> simp_all [Chan.armed]

-- ---- FOLD_STOP_END (R440)
theorem foldFree_fold (k : Nat) (s : State) : (foldFree k s).fold k = { s.fold k with stopped := false, causes := [] } := by
  have h : Part.same .folds (s.updFold k (fun f => { f with stopped := false, causes := [] })) (foldFree k s) := by
    refine each_keep _ _ (fun g t ht => ?_) rfl
    dsimp only
    split
    · exact updFired_keep (.same (p := .folds) rfl _) g _ ht
    · exact ht
  rw [State.fold_of_same h]
  simp

theorem foldStopEnd_frees (k : Fin 8) (s : State) : Does (.foldStopEnd k) s fun t =>
    if (s.fold k.val).stopped = true ∧ s.chansOfFold k.val = [] ∧ s.foldCausesGone k.val = true then
      (t.fold k.val).stopped = false ∧ (t.fold k.val).causes = [] ∧ t.chans = s.chans
    else t = s := by
  change ∃ t, execFoldStopEnd k s = .next t ∧ _
  unfold execFoldStopEnd
  simp only [Bool.and_eq_true, List.isEmpty_iff, and_assoc]
  split
  · exact ⟨_, rfl, by rw [foldFree_fold], by rw [foldFree_fold], foldFree_keep (.same (p := .chans) rfl s) k.val s rfl⟩
  · exact ⟨_, rfl, rfl⟩

end Sys2Proof.Machine
end

section
/-! SUPPORT. Broken wires: the collector marks the source broken whatever the reaction does. -/

namespace Sys2Proof.Machine

open Sys2Proof

-- ---- what only reports: engines, ports, links and the host side
theorem loseStandby_quiet {s t : State} (ch : Nat) (h : Quiet s t) : Quiet s (loseStandby ch t) := by
  unfold loseStandby
  extract_lets was u
  have hu : Quiet s u := ⟨h.served⟩
  exact ite_keep hu (raise_quiet _ _ hu)

theorem retireBroken_quiet {s t : State} (h : Quiet s t) : Quiet s (retireBroken t) := by
  refine each_keep _ _ (fun e u hu => ite_keep hu ?_) h
  exact each_keep _ _ (fun ch _ => loseStandby_quiet ch) (retireEngine_keep (.quiet rfl s) e u hu)

theorem loopBroken_quiet {s t : State} (e : Nat) (h : Quiet s t) : Quiet s (loopBroken e t) :=
  retireBroken_quiet (each_keep _ _ (fun _ _ hu => ⟨hu.served⟩) h)

theorem modelLost_quiet {s t : State} (f : Nat) (h : Quiet s t) : Quiet s (modelLost f t) :=
  each_keep _ _ (fun _ _ hu => each_keep _ _ (fun _ _ hv => raise_quiet _ _ hv) hu) h

theorem declareFailed_quiet {s t : State} (f cause : Nat) (h : Quiet s t) : Quiet s (declareFailed f cause t) := by
  have hset (k : Nat) (g : MEng → MEng) {u : State} (hu : Quiet s u) : Quiet s (u.updMEng k g) := updMEng_keep (.quiet rfl s) k g hu
  unfold declareFailed
  extract_lets e g u v w x
  have hu : Quiet s u := quarantine_keep (.quiet rfl s) e cause _ (raise_quiet _ _ h)
  have hw : Quiet s w := each_keep _ _ (fun ch _ => narrowClamp_keep (.quiet rfl s) ch _) (hset _ _ hu)
  refine ite_keep h (ite_keep (raise_quiet _ _ ?_) (modelLost_quiet f (hset _ _ hw)))
  exact bump_keep (.quiet rfl s) _ _ (bump_keep (.quiet rfl s) _ _ (hset _ _ (hset _ _ hw)))

theorem sourceLost_quiet {s t : State} (h : Quiet s t) : Quiet s (sourceLost t) := by
  unfold sourceLost
  extract_lets e u
  have hu : Quiet s u := updBell_keep (.quiet rfl s) _ h
  exact ite_keep h (leaveSource_keep (.quiet rfl s) _ (raise_quiet _ _ hu))

theorem portLeft_quiet {s t : State} (n : Nat) (h : Quiet s t) : Quiet s (portLeft n t) := ite_keep (sourceLost_quiet h) h

theorem loseLock_quiet {s t : State} (n : Nat) (h : Quiet s t) : Quiet s (loseLock n t) := by
  have hevt : Quiet s (portEvtBound n 0 (t.bump (spCnt n 5))) := raise_quiet _ _ (bump_keep (.quiet rfl s) t _ h)
  have hleft := portLeft_quiet n (toAcquire_keep (.quiet rfl s) n _ (dropSealBuf_keep (.quiet rfl s) n _ hevt))
  unfold loseLock
  split
  · exact hleft
  · exact hleft
  · exact h

theorem lineGone_quiet {s t : State} (n : Nat) (h : Quiet s t) : Quiet s (lineGone n t) := by
  unfold lineGone
  extract_lets u
  have hu : Quiet s u := updPort_keep (.quiet rfl s) n _ h
  split
  · exact loseLock_quiet n hu
  · exact loseLock_quiet n hu
  · exact toAcquire_keep (.quiet rfl s) n u hu
  · exact toAcquire_keep (.quiet rfl s) n u hu
  · exact updPort_keep (.quiet rfl s) n _ hu

theorem linkCheck_quiet {s t : State} (h : Quiet s t) : Quiet s (linkCheck t) := ite_keep (sourceLost_quiet h) h

theorem breakHop_quiet {s t : State} (i : Nat) (hop : Int) (h : Quiet s t) : Quiet s (breakHop i hop t) := by
  unfold breakHop
  extract_lets x y here u
  have hu : Quiet s u := ⟨h.served⟩
  refine ite_keep (ite_keep ?_ (linkCheck_quiet h)) (ite_keep (linkCheck_quiet h) (ite_keep ?_ ?_))
  · exact ⟨h.served⟩
  · exact raise_quiet _ _ hu
  · exact linkCheck_quiet (raise_quiet _ _ hu)

theorem linkBreak_quiet {s t : State} (i : Nat) (h : Quiet s t) : Quiet s (linkBreak i t) :=
  ite_keep h (breakHop_quiet i _ (raise_quiet _ _ ⟨h.served⟩))

theorem ringReset_quiet {s t : State} (r : Nat) (h : Quiet s t) : Quiet s (ringReset r t) :=
  clearRegs_keep (.quiet rfl s) _ (ite_keep (returnCredits_keep (.quiet rfl s) r t h) h)

theorem hostReset_quiet {s t : State} (h : Quiet s t) : Quiet s (hostReset t) := by
  rw [hostReset_eq]
  have hrings : Quiet s (each (List.range 8) ringReset t) := each_keep _ _ (fun r _ => ringReset_quiet r) h
  exact raise_quiet _ _ ⟨hrings.served⟩

-- ---- reports served in the same cycle
theorem moduleStop_broken (st : Stamped) (now : Nat) (s : State) : (moduleStop st now s).col.broken = s.col.broken := by
  unfold moduleStop
  extract_lets u v w x
  have hv : v.col = u.col :=
    dropDeferred_keep (.same (p := .col) rfl u) _ (finishWhere_keep (.same (p := .col) rfl u) _ _ _ u rfl)
  have hw : w.col.watch = v.col.watch := each_same (fun y => y.col.watch) (fun ch y => tripChannel_watch ch now st.rep y) _ v
  have hx : Part.same .col w x := each_keep _ _ (fun g y hy => gateLow_keep (.same (p := .col) rfl w) g y hy) rfl
  have hlast : Part.same .col w (each (tkeys x.injs) endInj (each (tkeys x.caps) haltCap x)) :=
    each_keep _ _ (fun i y hy => endInj_keep (.same (p := .col) rfl w) i y hy)
      (each_keep _ _ (fun i y hy => haltCap_keep (.same (p := .col) rfl w) i y hy) hx)
  rw [show (each _ endInj _).col = w.col from hlast]
  have hb := congrArg (fun p => p.2.1) hw
  exact hb.trans (by rw [hv]; rfl)

theorem latchReport_broken (r : Report) (delayed : Bool) (now : Nat) (s : State) :
    (latchReport r delayed now s).col.broken = s.col.broken := by
  by_cases hr : r.cls ≤ 3
  · exact congrArg (fun p => p.1.2.1) (latchReport_steady hr delayed now s)
  · unfold latchReport
    extract_lets st u
    split
    next h => omega
    next h => omega
    next h => omega
    next h => omega
    next => exact moduleStop_broken st now u

theorem reportNow_broken (r : Report) (now : Nat) (s : State) : (reportNow r now s).col.broken = s.col.broken :=
  latchReport_broken r false now _

theorem stopReport_broken (wire : Bool) (source cls now : Nat) (s : State) :
    (stopReport wire source cls now s).col.broken = s.col.broken := by
  unfold stopReport
  split
  · exact reportNow_broken _ now s
  · rfl

theorem fsStop_broken (wire : Bool) (k now : Nat) (s : State) : (fsStop wire k now s).col.broken = s.col.broken := by
  unfold fsStop
  extract_lets x g n u v y
  have hv : Part.same .col s v := ite_keep (Q := Part.same .col s) rfl (queueTest_keep (.same (p := .col) rfl s) _ u rfl)
  have hb : v.col.broken = s.col.broken := congrArg Col.broken hv
  split
  · split
    · exact stopReport_broken _ _ _ _ _
    · rfl
  · split
    · exact (stopReport_broken _ _ _ _ _).trans hb
    · exact (stopReport_broken _ _ _ _ _).trans ((stopReport_broken _ _ _ _ _).trans hb)

theorem rescan_broken (now : Nat) (s : State) : (rescan now s).col.broken = s.col.broken := by
  unfold rescan
  extract_lets todo again u
  have hall (l : List Report) (t : State) : (forL l (fun r s => latchReport r true now s) t).col.broken = t.col.broken := by
    induction l generalizing t with
    | nil => rfl
    | cons r l ih => exact (ih _).trans (latchReport_broken r true now t)
  exact hall todo u

theorem takeRole_broken (r now : Nat) (l : List (Fin 512 × Fin 3)) (s : State) : (takeRole r now l s).col.broken = s.col.broken := by
  unfold takeRole
  split
  · rfl
  · rfl
  · refine congrArg Col.broken (forL_keep (P := Part.same .col s) l _ (fun x t ht => ?_) rfl)
    extract_lets c
    split
    · exact ht
    · exact updChan_keep (.same rfl s) _ _ (bump_keep (.same rfl s) t _ ht)
  · exact rescan_broken now s

theorem coreStop_broken (wire : Bool) (r : Nat) (b : Bool) (now : Nat) (l : List (Fin 512 × Fin 3)) (s : State) :
    (coreStop wire r b now l s).col.broken = s.col.broken := by
  unfold coreStop
  extract_lets c x y src n d u v w
  have hv : Part.same .col s v := ite_keep (Q := Part.same .col s) rfl (queueTest_keep (.same (p := .col) rfl s) _ u rfl)
  have hb : v.col.broken = s.col.broken := congrArg Col.broken hv
  split
  · split
    · exact stopReport_broken _ _ _ _ _
    · rfl
  · split
    · exact (stopReport_broken _ _ _ _ _).trans hb
    · split
      · exact (stopReport_broken _ _ _ _ _).trans ((takeRole_broken _ _ _ _).trans hb)
      · exact (stopReport_broken _ _ _ _ _).trans hb

theorem flockReaction_broken (f now : Nat) (s : State) : (flockReaction f now s).col.broken = s.col.broken :=
  congrArg (fun p => p.1.2.1) (flockReaction_steady f now s)

-- ---- BROKEN_WIRE (R435, R436)
theorem wireReaction_broken (i now : Nat) (l : List (Fin 512 × Fin 3)) (s : State) :
    (wireReaction i now l s).col.broken = s.col.broken := by
  have hrep (cls : Nat) : (reportNow (mkRep i 15 0 cls 0 0) now s).col.broken = s.col.broken := reportNow_broken _ now s
  have hite {c : Prop} [Decidable c] {a b : State} (ha : a.col.broken = s.col.broken) (hb : b.col.broken = s.col.broken) :
      (if c then a else b).col.broken = s.col.broken := ite_keep (Q := fun t : State => t.col.broken = s.col.broken) ha hb
  unfold wireReaction
  refine hite ((loopBroken_quiet i (.refl _)).broken.trans (hrep 1)) <|
    hite ((declareFailed_quiet _ _ (.refl _)).broken.trans (hrep 1)) <|
    hite (flockReaction_broken _ now s) <| hite (hrep 3) <| hite (fsStop_broken _ _ now s) <|
    hite ((lineGone_quiet _ (.refl _)).broken.trans (hrep 1)) <| hite (hite (hrep 1) (hrep 1)) <| hite (hrep 4) <|
    hite ((linkBreak_quiet _ (.refl _)).broken.trans (hrep 1)) <| hite ((hostReset_quiet (.refl _)).broken.trans (hrep 1)) <|
    hite (coreStop_broken _ _ _ now l s) <| hite (hrep 4) <| hite (hrep 1) rfl

/-- A fold that a report names is stopped by its dispatch (R439). -/
theorem dispatchC3_stopped {r : Report} {k : Nat} (hk : k ∈ foldsOf r) (s : State) : ((dispatchC3 r s).fold k).stopped = true := by
  have hmark (j k : Nat) (t : State) : ((markFold j r t).fold k).stopped = (decide (k = j) || (t.fold k).stopped) := by
    simp only [markFold, State.updFold_eq, State.setFold_read]
    by_cases h : k = j <;> simp [h]
  refine each_establishes (P := fun k s => (s.fold k).stopped = true) (fun j t => ?_) (fun j k t ht => ?_) hk s
  all_goals
    dsimp only
    rw [State.fold_of_same (s := markFold j r t)]
    · simp [*]
    · refine each_keep _ _ (fun ch u hu => ?_) rfl
      split
      · exact hu
      · exact hu
      · exact stopChannel_keep (.same (p := .folds) rfl _) ch r u hu

theorem foldsOf_of_fold {r : Report} {k : Nat} (hk : k < 8) (hr : r.source = srcFold k) : foldsOf r = [k] := by
  have hrange : 0xC0 ≤ srcFold k ∧ srcFold k < 0xD0 := by unfold srcFold; omega
  have hmod : srcFold k % 8 = k := by unfold srcFold; omega
  rw [foldsOf, hr, if_pos hrange, hmod]

theorem wireReaction_fold {k : Nat} (hk : k < 8) (now : Nat) (l : List (Fin 512 × Fin 3)) (s : State) :
    wireReaction (srcFold k) now l s = reportNow (mkRep (srcFold k) 15 0 3 0 0) now s := by
  unfold wireReaction srcFold
  rw [if_neg (by omega), if_neg (by omega), if_neg (by omega), if_pos (by omega)]

theorem wireReaction_port {n : Nat} (hn : n < 16) (now : Nat) (l : List (Fin 512 × Fin 3)) (s : State) :
    wireReaction (srcPort n) now l s = lineGone n (reportNow (mkRep (srcPort n) 15 0 1 0 0) now s) := by
  unfold wireReaction srcPort
  rw [if_neg (by omega), if_neg (by omega), if_neg (by omega), if_neg (by omega), if_neg (by omega), if_pos (by omega),
    Nat.add_sub_cancel_left]

theorem wireReaction_module {i : Nat} (hi : i = srcBell ∨ i = srcClock) (now : Nat) (l : List (Fin 512 × Fin 3)) (s : State) :
    wireReaction i now l s = reportNow (mkRep i 15 0 4 0 0) now s := by
  rcases hi with rfl | rfl <;> rfl

/-- A line that goes leaves its port without a shift clock, whatever the state of the port. -/
theorem lineGone_sclkOk (n : Nat) (s : State) : ((lineGone n s).port n).sclkOk = false := by
  have hlock {u : State} (hu : (u.port n).sclkOk = false) : ((loseLock n u).port n).sclkOk = false := by
    generalize hw : portEvtBound n 0 (u.bump (spCnt n 5)) = w
    have hwp : w.port n = u.port n := by simp [← hw, portEvtBound]
    have hleft : (portLeft n (toAcquire n (dropSealBuf n w))).ports = (toAcquire n (dropSealBuf n w)).ports :=
      portLeft_keep (.same (p := .ports) rfl _) n _ rfl
    have hport : ((portLeft n (toAcquire n (dropSealBuf n w))).port n).sclkOk = false := by
      rw [State.port, hleft]
      change ((toAcquire n (dropSealBuf n w)).port n).sclkOk = false
      simpa [toAcquire, dropSealBuf, hwp] using hu
    unfold loseLock
    split
    · rw [hw]; exact hport
    · rw [hw]; exact hport
    · exact hu
  unfold lineGone
  extract_lets u
  have hu : (u.port n).sclkOk = false := by simp [u]
  split
  · exact hlock hu
  · exact hlock hu
  · simp [toAcquire, hu]
  · simp [toAcquire, hu]
  · simp [hu]

theorem latchReport_intake {r : Report} (hr : r.cls ≤ 1) (delayed : Bool) (now : Nat) (s : State) :
    (latchReport r delayed now s).col.intake = s.col.intake ++ [s.stamp r delayed] := by
  unfold latchReport
  split
  · rfl
  · rfl
  next h => omega
  next h => omega
  next h0 h1 _ _ => interval_cases r.cls <;> contradiction

/-- A report of class C1 or below joins the intake with the stamp of its cycle. -/
theorem reportNow_intake {r : Report} (hr : r.cls ≤ 1) (now : Nat) (s : State) :
    (reportNow r now s).col.intake = s.col.intake ++ [s.stamp r false] := latchReport_intake hr false now _

theorem moduleStop_st (st : Stamped) (now : Nat) (s : State) (j : Nat) :
    ((moduleStop st now s).chan j).st = (s.chan j).st.stop := by
  unfold moduleStop
  extract_lets u v w x
  have hv : Part.same .chans u v :=
    dropDeferred_keep (.same rfl u) _ (finishWhere_keep (.same rfl u) _ _ _ u rfl)
  have hx : Part.same .chans w x := each_keep _ _ (fun g y hy => gateLow_keep (.same (p := .chans) rfl w) g y hy) rfl
  have hlast : Part.same .chans w (each (tkeys x.injs) endInj (each (tkeys x.caps) haltCap x)) :=
    each_keep _ _ (fun i y hy => endInj_keep (.same (p := .chans) rfl w) i y hy)
      (each_keep _ _ (fun i y hy => haltCap_keep (.same (p := .chans) rfl w) i y hy) hx)
  rw [State.chan_of_same hlast, each_tripChannel_st, State.chan_of_same hv, show u.chan j = s.chan j from rfl]
  split
  · rfl
  next h =>
    have hfree : (s.chan j).st = .free := State.st_of_not_live (s := u) (by rwa [State.liveChans_of_same hv] at h)
    rw [hfree]
    rfl

/-- After a report of class C4 no channel is armed. -/
theorem latchReport_unarmed {r : Report} (hr : r.cls = 4) (delayed : Bool) (now : Nat) (s : State) (ch : Nat) :
    ((latchReport r delayed now s).chan ch).st ≠ .armed := by
  have heq : ∃ f, latchReport r delayed now s = moduleStop (s.stamp r delayed) now (s.updCol f) := by
    unfold latchReport
    simp only [hr]
    exact ⟨_, rfl⟩
  obtain ⟨f, heq⟩ := heq
  rw [heq, moduleStop_st]
  exact ChanSt.stop_ne_armed _

theorem reportNow_unarmed {r : Report} (hr : r.cls = 4) (now : Nat) (s : State) (ch : Nat) :
    ((reportNow r now s).chan ch).st ≠ .armed := by
  unfold reportNow
  extract_lets u
  exact latchReport_unarmed hr false now u ch

theorem brokenWire_ignored {src : BitVec 8} {s : State} (un : List (Fin 512 × Fin 3)) (now : Nat)
    (h : src.toNat ∈ s.col.broken ∨ src.toNat ∈ s.col.unwatched ∨ 0xF5 ≤ src.toNat) : exec (.brokenWire src un now) s = .next s := by
  change execBrokenWire src un now s = _
  simp [execBrokenWire, h, or_assoc]

theorem brokenWire_eq {src : BitVec 8} {s : State} (un : List (Fin 512 × Fin 3)) (now : Nat)
    (h : ¬(src.toNat ∈ s.col.broken ∨ src.toNat ∈ s.col.unwatched ∨ 0xF5 ≤ src.toNat)) : exec (.brokenWire src un now) s =
      .next (wireReaction src.toNat now un (s.updCol (fun c => { c with broken := c.broken ++ [src.toNat] }))) := by
  change execBrokenWire src un now s = _
  simp [execBrokenWire, h, or_assoc]

theorem brokenWire_reacts (src : BitVec 8) (un : List (Fin 512 × Fin 3)) (now : Nat) (s : State) : Does (.brokenWire src un now) s fun t =>
    if src.toNat ∈ s.col.broken ∨ src.toNat ∈ s.col.unwatched ∨ 0xF5 ≤ src.toNat then t = s
    else src.toNat ∈ t.col.broken ∧
      (∀ n < 16, src.toNat = srcPort n → (t.port n).sclkOk = false ∧
        s.stamp (mkRep (srcPort n) 15 0 1 0 0) false ∈ t.col.intake) ∧
      (∀ k < 8, src.toNat = srcFold k → (t.fold k).stopped = true) ∧
      (src.toNat = srcBell ∨ src.toNat = srcClock → t.col.c4 = true ∧ ∀ ch, (t.chan ch).st ≠ .armed) := by
  by_cases h : src.toNat ∈ s.col.broken ∨ src.toNat ∈ s.col.unwatched ∨ 0xF5 ≤ src.toNat
  · exact ⟨s, brokenWire_ignored un now h, by simp only [if_pos h]⟩
  refine ⟨_, brokenWire_eq un now h, ?_⟩
  simp only [if_neg h]
  generalize hu : s.updCol (fun c => { c with broken := c.broken ++ [src.toNat] }) = u
  refine ⟨?_, fun n hn hsrc => ?_, fun k hk hsrc => ?_, fun hsrc => ?_⟩
  · rw [wireReaction_broken, ← hu]
    simp
  · rw [hsrc, wireReaction_port hn]
    refine ⟨lineGone_sclkOk n _, ?_⟩
    rw [(lineGone_quiet n (.refl _)).intake, reportNow_intake (Nat.le_refl 1), ← hu]
    exact List.mem_append_right _ (List.mem_singleton.2 rfl)
  · rw [hsrc, wireReaction_fold hk]
    refine dispatchC3_stopped ?_ _
    rw [foldsOf_of_fold hk rfl]
    exact List.mem_singleton.2 rfl
  · rw [wireReaction_module hsrc]
    exact ⟨(reportNow_stops rfl now u).c4, reportNow_unarmed rfl now u⟩

/-- Settles O26: each clause is the lemma of its row. -/
theorem stopsActAtTheirBoundaryOrAtOnce : Obligations.StopsActAtTheirBoundaryOrAtOnce := by
  unfold Obligations.StopsActAtTheirBoundaryOrAtOnce
  exact ⟨fun _ _ _ => faultReactionApply_stops, heldFaultTakeEffect_stops, debugHalt_stops, brokenWire_reacts, foldStopEnd_frees⟩

end Sys2Proof.Machine
end

section
/-! SUPPORT. Arming and disarming: what the token, the arming, the motor and the disarm leave of a channel; ARM, DISARM and CLEAR. -/

namespace Sys2Proof.Machine

open Sys2Proof

-- ---- completions (R289, R295)
theorem complete_posted (e : CmdEntry) (st : Nat) (res : W) (chk : Nat) {s t : State} (h : Part.same .rings s t) :
    Posted e st res chk s (complete e st res chk 0 0 t) := by
  simp [Posted, complete, State.ring_of_same h]

theorem acceptNow_posted (e : CmdEntry) (res : W) {s t : State} (h : Part.same .rings s t) :
    Posted e stOk res 0 s (acceptNow e res t) :=
  complete_posted e stOk res 0 h

theorem acceptLater_inProgress (e : CmdEntry) {s t : State} (hsvc : Part.same .svc s t) (hrings : Part.same .rings s t) :
    InProgress e s (acceptLater e 0 t) := by
  change t.svc = s.svc at hsvc
  exact ⟨by simp [acceptLater, hsvc], hrings⟩

theorem acceptNow_chan (e : CmdEntry) (res : W) (s : State) (j : Nat) : (acceptNow e res s).chan j = s.chan j := rfl
theorem acceptLater_chan (e : CmdEntry) (res : W) (s : State) (j : Nat) : (acceptLater e res s).chan j = s.chan j := rfl

theorem refuse_chans (e : CmdEntry) (st chk : Nat) (s : State) :
    Posted e st 0 chk s (refuse e st chk s) ∧ (refuse e st chk s).chans = s.chans :=
  ⟨(refuse_posted e st chk s).1, rfl⟩

/-- A command is refused at the first of its own checks that fails; one that passes them all acts. -/
theorem checked_fails {e : CmdEntry} {l : List (Bool × Nat × Nat)} {eff : State → State} {s : State} {st chk : Nat}
    (h : firstFail l = some (st, chk)) : checked e l eff s = refuse e st chk s := by
  rw [checked, h]

theorem checked_passes {e : CmdEntry} {l : List (Bool × Nat × Nat)} {eff : State → State} {s : State}
    (h : firstFail l = none) : checked e l eff s = eff s := by
  rw [checked, h]

-- ---- the token of a channel that arms (R408, R454)
/-- The channel is `c` but for its lease, whose token is with `h`, and for the loop values that follow the token. -/
def Leased (c : Chan) (h : Option Bool) (ch : Nat) (s : State) : Prop :=
  ∃ l y, s.chan ch = { c with lease := l, loop := y } ∧ l.holder = h

theorem withdrawToken_leased {c : Chan} {h : Option Bool} {ch : Nat} {s : State} (hs : Leased c h ch s) :
    Leased c none ch (withdrawToken ch s) := by
  obtain ⟨l, y, hc, rfl⟩ := hs
  unfold withdrawToken
  simp only [hc]
  split
  next hl => exact ⟨{ l with grant := none, yield_ := false }, y, by simp, hl⟩
  next => exact ⟨{ l with holder := none, yield_ := false }, y, by simp, rfl⟩

theorem assignToken_leased {c : Chan} {h : Option Bool} {ch : Nat} {s : State} (side : Bool) (hs : Leased c h ch s) :
    Leased c (some side) ch (assignToken ch side s) := by
  obtain ⟨l, y, hc, -⟩ := hs
  exact ⟨{ l with holder := some side, grant := none, lost := false }, _, by simp [assignToken, State.updLease, hc]; rfl, rfl⟩

theorem updLease_leased {c : Chan} {h : Option Bool} {ch : Nat} {s : State} {f : Lease → Lease} (hf : ∀ l, (f l).holder = l.holder)
    (hs : Leased c h ch s) : Leased c h ch (s.updLease ch f) := by
  obtain ⟨l, y, hc, rfl⟩ := hs
  exact ⟨f l, y, by simp [State.updLease, hc], hf l⟩

theorem loseStandby_leased {c : Chan} {h : Option Bool} {ch : Nat} {s : State} (hs : Leased c h ch s) :
    Leased c h ch (loseStandby ch s) := by
  have hu := updLease_leased (f := fun x => { x with stby := 2, mirror := false, firstCmp := false, unshadowed := true })
    (fun _ => rfl) hs
  unfold loseStandby
  extract_lets was u
  split
  · exact hu
  · unfold Leased
    rw [State.chan_of_same (shdChan_keep (.same (p := .chans) rfl u) ch 4 1 u rfl)]
    exact hu

/-- At an ARM the token is with the engine that would hold it, where that is in service, else with the other. -/
theorem armToken_leased (ch : Nat) (s : State) :
    Leased (s.chan ch) (some (if s.sideInSvc ch (s.chan ch).lease.wants = true then (s.chan ch).lease.wants else !(s.chan ch).lease.wants))
      ch (armToken ch s) := by
  have hs : Leased (s.chan ch) (s.chan ch).lease.holder ch s := ⟨_, _, rfl, rfl⟩
  have hmove (side : Bool) := assignToken_leased side (withdrawToken_leased hs)
  unfold armToken
  extract_lets c want u b v
  have hu : Leased c (some (if s.sideInSvc ch want = true then want else !want)) ch u := by
    unfold u
    split
    next =>
      split
      next h => exact beq_iff_eq.1 h ▸ hs
      next => exact hmove want
    next => exact hmove (!want)
  have hv : Leased c (some (if s.sideInSvc ch want = true then want else !want)) ch v :=
    ite_keep (Q := Leased c _ ch) hu (loseStandby_leased hu)
  exact updLease_leased (fun _ => rfl) hv

theorem armToken_quiet (ch : Nat) (s : State) : Quiet s (armToken ch s) := by
  have hassign (side : Bool) : Quiet s (assignToken ch side (withdrawToken ch s)) :=
    assignToken_keep (.quiet rfl s) ch side _ (withdrawToken_keep (.quiet rfl s) ch s (.refl s))
  unfold armToken
  extract_lets c want u b v
  have hu : Quiet s u := by
    unfold u
    split
    · split
      · exact .refl s
      · exact hassign want
    · exact hassign (!want)
  refine updLease_keep (.quiet rfl s) v ch _ ?_
  unfold v
  split
  · exact hu
  · exact loseStandby_quiet ch hu

theorem State.stopDue_of_quiet {s t : State} (h : Quiet s t) (ch : Nat) : t.stopDue ch = s.stopDue ch := by
  rw [State.stopDue, State.stopDue, h.reacts]

-- ---- the channel that arms (R240, R307, R380)
/-- Between `c` and the channel in `s` nothing but its step changed. -/
def Stepped (c : Chan) (ch : Nat) (s : State) : Prop := ∃ a b, s.chan ch = { c with step := a, stepPend := b }

theorem Stepped.updChan {c : Chan} {ch : Nat} {s : State} (h : Stepped c ch s) {f : Chan → Chan} {a : Chan → Nat}
    {b : Chan → List (Nat × Nat)} (hf : ∀ x, f x = { x with step := a x, stepPend := b x }) : Stepped c ch (s.updChan ch f) := by
  obtain ⟨a', b', hc⟩ := h
  refine ⟨a (s.chan ch), b (s.chan ch), ?_⟩
  simp [hf, hc]

theorem Stepped.of_same {c : Chan} {ch : Nat} {s t : State} (h : Stepped c ch s) (hst : Part.same .chans s t) : Stepped c ch t := by
  unfold Stepped
  rw [State.chan_of_same hst]
  exact h

theorem postSteps_stepped {c : Chan} {ch : Nat} {s : State} (l : List (Nat × Nat)) (h : Stepped c ch s) :
    Stepped c ch (postSteps ch l s) := h.updChan (a := Chan.step) (b := fun _ => l) fun _ => rfl

theorem stepTo_stepped {c : Chan} {ch : Nat} {s : State} (a : Nat) (h : Stepped c ch s) :
    Stepped c ch (s.updChan ch (fun c => { c with step := a, stepPend := [] })) :=
  h.updChan (a := fun _ => a) (b := fun _ => []) fun _ => rfl

theorem motorForced_stepped {c : Chan} {ch : Nat} {s : State} (now : Nat) (h : Stepped c ch s) : Stepped c ch (motorForced ch now s) := by
  unfold motorForced onMotor
  extract_lets x forced
  split
  · exact h
  · split
    · dsimp only
      split
      · split
        · exact h
        · exact postSteps_stepped [] (h.of_same rfl)
      · split
        · exact postSteps_stepped _ (h.of_same rfl)
        · exact h
    · exact h

/-- A motor that arms leaves of its channel all but its step. -/
theorem motorArm_stepped (ch now : Nat) (s : State) : Stepped (s.chan ch) ch (motorArm ch now s) := by
  have hs : Stepped (s.chan ch) ch s := ⟨_, _, rfl⟩
  unfold motorArm
  refine motorForced_stepped now ?_
  unfold onMotor
  split
  next i _ =>
    beta_reduce
    extract_lets u
    have hu : Stepped (s.chan ch) ch u := stepTo_stepped (s.motor i).alignStep
      (hs.of_same (enterAlign_keep (.same (p := .chans) rfl s) i now _ (setMotor_keep (.same (p := .chans) rfl s) i _ rfl)))
    split
    · exact hu
    · exact hu.of_same (openTimer_keep (.same (p := .chans) rfl u) _ _ u rfl)
  next => exact hs

/-- The channel as `goArmed` leaves it at cc `now`. -/
def Chan.asArmed (c : Chan) (now : Nat) : Chan :=
  { c with
    st := .armed, armPend := false, cmdQ := none
    loop := { c.loop with first := true, delivered := true, armedAt := now }
    lease := { c.lease with sumA := none, sumB := none } }

theorem gateOff_chans (l : List Nat) (s : State) :
    (each l (fun t s => s.updTerm t (fun x => { x with gateOff := [] })) s).chans = s.chans :=
  each_same State.chans (by intros; rfl) l s

theorem goArmed_chan (ch now : Nat) (s : State) : (goArmed ch now s).chan ch = (s.chan ch).asArmed now := by
  have hterms := State.chan_of_same (gateOff_chans (s.chan ch).terms s) ch
  unfold goArmed
  extract_lets u
  rw [refreshGates_chan, State.updChan_eq, State.setChan_read, if_pos rfl, hterms]
  rfl

end Sys2Proof.Machine
end

section
/-! SUPPORT. ARM, DISARM and CLEAR, and the boundaries at which they take effect. -/

namespace Sys2Proof.Machine

open Sys2Proof

-- ---- ARM (R306)
/-- What ARM does of its own once its checks have passed. -/
def armOn (e : CmdEntry) (now : Nat) (c : Chan) (s : State) : State :=
  let ch := hIndex (opN e 0)
  if c.audible && s.stopDue ch then complete e stState 0 0 0 0 s
  else if c.audible then
    acceptNow e 0 (motorArm ch now ((goArmed ch now s).updChan ch (fun c => askZc .start 0 { c with zc := { c.zc with eff := 0 } })))
  else acceptLater e 0 (s.updChan ch (fun c => { c with armPend := true }))

/-- The own checks of ARM. -/
def armChecks (ch : Nat) (s : State) : List (Bool × Nat × Nat) :=
  [((s.chan ch).st == .idle && !s.sec.unlocked, stState, 1), ((s.chan ch).loop.img.isSome, stState, 2),
    ((s.chan ch).mdl.valid && !(s.chan ch).mdl.rebuild, stState, 3), ((s.chan ch).adm.kind != 3 || (s.motorOf ch).isSome, stState, 4),
    (s.sideInSvc ch false || s.sideInSvc ch true, stState, 5)]

theorem arm_eq {e : CmdEntry} (now : Nat) {s : State} (h : s.accepts e 0x0601) :
    exec (.arm e now) s = .next (checked e (armChecks (hIndex (opN e 0)) (s.untake e))
      (fun t => armOn e now ((s.untake e).chan (hIndex (opN e 0))) (armToken (hIndex (opN e 0)) t)) (s.untake e)) :=
  congrArg Host.Outcome.next (commandRow_accepted h)

theorem arm_refused {e : CmdEntry} (now : Nat) {s : State} (h : s.accepts e 0x0601)
    (hno : ((s.untake e).chan (hIndex (opN e 0))).st ≠ .idle ∨ (s.untake e).sec.unlocked = true) :
    Does (.arm e now) s fun t => Posted e stState 0 1 (s.untake e) t ∧ t.chans = (s.untake e).chans := by
  have hfail : firstFail (armChecks (hIndex (opN e 0)) (s.untake e)) = some (stState, 1) := by
    rcases hno with hno | hno <;> simp [armChecks, firstFail, hno]
  exact ⟨_, (arm_eq now h).trans (congrArg _ (checked_fails hfail)), refuse_chans e stState 1 _⟩

/-- ARM of a channel that passes its checks, from the state in which its token is placed. -/
theorem armOn_arms (e : CmdEntry) (now : Nat) {c : Chan} {k : Option Bool} {u t : State} (hst : c.st = .idle)
    (hl : Leased c k (hIndex (opN e 0)) t) (hq : Quiet u t) (hsvc : Part.same .svc u t) (hrings : Part.same .rings u t) :
    ((armOn e now c t).chan (hIndex (opN e 0))).lease.holder = k ∧
      if c.audible = true ∧ u.stopDue (hIndex (opN e 0)) = true then
        ((armOn e now c t).chan (hIndex (opN e 0))).st = .idle ∧ ((armOn e now c t).chan (hIndex (opN e 0))).armPend = c.armPend ∧
          Posted e stState 0 0 u (armOn e now c t)
      else if c.audible = true then
        ((armOn e now c t).chan (hIndex (opN e 0))).st = .armed ∧ ((armOn e now c t).chan (hIndex (opN e 0))).starting = true ∧
          ((armOn e now c t).chan (hIndex (opN e 0))).zc.eff = 0 ∧ Posted e stOk 0 0 u (armOn e now c t)
      else ((armOn e now c t).chan (hIndex (opN e 0))).st = .idle ∧ ((armOn e now c t).chan (hIndex (opN e 0))).armPend = true ∧
        InProgress e u (armOn e now c t) := by
  unfold armOn
  generalize hIndex (opN e 0) = ch at *
  dsimp only
  obtain ⟨l, y, hc, hk⟩ := hl
  rw [← State.stopDue_of_quiet hq ch]
  cases haud : c.audible
  case false =>
    simp only [Bool.false_eq_true, false_and, if_false, Bool.false_and]
    refine ⟨?_, ?_, ?_, acceptLater_inProgress e hsvc hrings⟩ <;>
      simp [acceptLater_chan, hc, hst, hk]
  case true =>
    cases hdue : t.stopDue ch
    case true =>
      simp only [and_self, if_true, Bool.and_self]
      refine ⟨?_, ?_, ?_, complete_posted e stState 0 0 hrings⟩ <;> simp [hc, hst, hk]
    case false =>
      simp only [Bool.and_false, Bool.false_eq_true, and_false, if_false, if_true]
      generalize hv : (goArmed ch now t).updChan ch (fun c => askZc .start 0 { c with zc := { c.zc with eff := 0 } }) = v
      have hvc : v.chan ch = askZc .start 0 { (t.chan ch).asArmed now with zc := { (t.chan ch).zc with eff := 0 } } := by
        rw [← hv, State.updChan_eq, State.setChan_read, if_pos rfl, goArmed_chan]
        rfl
      obtain ⟨a, b, hm⟩ := motorArm_stepped ch now v
      have hvr : Part.same .rings u v := by
        rw [← hv]
        exact updChan_keep (.same (p := .rings) rfl u) _ _ (goArmed_keep (.same (p := .rings) rfl u) ch now t hrings)
      refine ⟨?_, ?_, ?_, ?_, acceptNow_posted e 0 (motorArm_keep (.same (p := .rings) rfl u) ch now v hvr)⟩ <;>
        rw [acceptNow_chan, hm, hvc]
      · simpa [hc, askZc, Chan.asArmed] using hk
      · rfl
      · simp [askZc, Chan.starting]
      · rfl

theorem arm_arms {e : CmdEntry} (now : Nat) {s : State} (h : s.accepts e 0x0601) : let u := s.untake e; let ch := hIndex (opN e 0)
    let c := u.chan ch
    c.st = .idle → u.sec.unlocked = false → c.loop.img.isSome = true → c.mdl.valid = true → c.mdl.rebuild = false →
      (c.adm.kind = 3 → (u.motorOf ch).isSome = true) → u.sideInSvc ch false = true ∨ u.sideInSvc ch true = true →
      Does (.arm e now) s fun t =>
        (t.chan ch).lease.holder = some (if u.sideInSvc ch c.lease.wants = true then c.lease.wants else !c.lease.wants) ∧
        if c.audible = true ∧ u.stopDue ch = true then (t.chan ch).st = .idle ∧ (t.chan ch).armPend = c.armPend ∧ Posted e stState 0 0 u t
        else if c.audible = true then (t.chan ch).st = .armed ∧ (t.chan ch).starting = true ∧ (t.chan ch).zc.eff = 0 ∧
          Posted e stOk 0 0 u t
        else (t.chan ch).st = .idle ∧ (t.chan ch).armPend = true ∧ InProgress e u t := by
  intro u ch c hst hlock himg hvalid hbuilt hmotor hside
  have hpass : firstFail (armChecks ch u) = none := by
    have hmot : ((u.chan ch).adm.kind != 3 || (u.motorOf ch).isSome) = true := by
      by_cases hk : (u.chan ch).adm.kind = 3
      · simp [hmotor hk]
      · simp [hk]
    have hsvc : (u.sideInSvc ch false || u.sideInSvc ch true) = true := by simpa using hside
    simp only [c] at hst himg hvalid hbuilt
    simp only [armChecks, firstFail, hst, hlock, himg, hvalid, hbuilt, hmot, hsvc, beq_self_eq_true, Bool.not_false, Bool.and_self,
      if_true]
  exact ⟨_, (arm_eq now h).trans (congrArg _ (checked_passes hpass)), armOn_arms e now hst (armToken_leased ch u) (armToken_quiet ch u)
    (armToken_keep (.same (p := .svc) rfl u) ch u rfl) (armToken_keep (.same (p := .rings) rfl u) ch u rfl)⟩

-- ---- ARM_TAKE_EFFECT (R55, R307)
theorem armTakeEffect_acts (ch : Fin 512) (now : Nat) (s : State) : Does (.armTakeEffect ch now) s fun t =>
    if (s.chan ch.val).armPend = true ∧ s.stopDue ch.val = true then
      (t.chan ch.val).st = (s.chan ch.val).st ∧ (t.chan ch.val).armPend = false ∧ t.regs = s.regs ∧ t.terms = s.terms
    else if (s.chan ch.val).armPend = true ∧ (s.chan ch.val).st = .idle then
      (t.chan ch.val).st = .armed ∧ (t.chan ch.val).armPend = false ∧ (t.chan ch.val).loop.first = true
    else t = s := by
  unfold Does
  change ∃ t, execArmTakeEffect ch now s = _ ∧ _
  unfold execArmTakeEffect
  extract_lets c
  simp only [Bool.and_eq_true, beq_iff_eq]
  split
  next => exact ⟨_, rfl, by simp [c], by simp, finishObj_keep (.same (p := .regs) rfl s) _ _ _ _ rfl,
    finishObj_keep (.same (p := .terms) rfl s) _ _ _ _ rfl⟩
  next =>
    split
    next =>
      refine ⟨_, rfl, ?_⟩
      obtain ⟨a, b, hm⟩ := motorArm_stepped ch.val now (goArmed ch.val now s)
      rw [finishObj_chan, hm, goArmed_chan]
      exact ⟨rfl, rfl, rfl⟩
    next => exact ⟨s, rfl, rfl⟩

-- ---- DISARM and DISARM_TAKE_EFFECT (R55, R141, R307)
/-- What DISARM does of its own for an armed channel. -/
def disarmOn (e : CmdEntry) (ch : Nat) (s : State) : State :=
  let c := s.chan ch
  if !c.audible then acceptLater e 0 (s.setChan ch { c with disarmPend := true })
  else if c.starting then acceptNow e 0 (s.setChan ch { c with zc := { c.zc with
    pend := c.zc.pend.filter (fun x => x.kind != .start), stopping := true, eff := 0 } })
  else if c.stopping then acceptNow e 0 s
  else acceptNow e 0 (s.setChan ch (askZc .stop 0 c))

theorem disarm_eq {e : CmdEntry} {s : State} (h : s.accepts e 0x0602) : exec (.disarm e) s = .next
    (checked e [(((s.untake e).chan (hIndex (opN e 0))).armed, stState, 1)] (disarmOn e (hIndex (opN e 0))) (s.untake e)) :=
  congrArg Host.Outcome.next (commandRow_accepted h)

/-- DISARM of an armed channel waits for its boundary, or asks a gated stop of an audible one. -/
theorem disarmOn_asks (e : CmdEntry) {ch : Nat} {s : State} (hst : (s.chan ch).st = .armed) :
    if (s.chan ch).audible = false then ((disarmOn e ch s).chan ch).disarmPend = true ∧ ((disarmOn e ch s).chan ch).st = .armed ∧
      InProgress e s (disarmOn e ch s)
    else ((disarmOn e ch s).chan ch).stopping = true ∧ ((disarmOn e ch s).chan ch).st = .armed ∧ Posted e stOk 0 0 s (disarmOn e ch s) := by
  unfold disarmOn
  dsimp only
  cases haud : (s.chan ch).audible
  case false => exact ⟨by simp [acceptLater_chan], by simp [acceptLater_chan, hst], acceptLater_inProgress e rfl rfl⟩
  case true =>
    simp only [Bool.not_true, Bool.false_eq_true, if_false, reduceCtorEq]
    split
    · exact ⟨by simp [acceptNow_chan, Chan.stopping], by simp [acceptNow_chan, hst], acceptNow_posted e 0 rfl⟩
    · split
      next hstop => exact ⟨hstop, hst, acceptNow_posted e 0 rfl⟩
      next => exact ⟨by simp [acceptNow_chan, Chan.stopping, askZc], by simp [acceptNow_chan, askZc, hst], acceptNow_posted e 0 rfl⟩

theorem disarm_asks {e : CmdEntry} {s : State} (h : s.accepts e 0x0602) : let u := s.untake e; let ch := hIndex (opN e 0)
    let c := u.chan ch
    Does (.disarm e) s fun t =>
      if c.st ≠ .armed then Posted e stState 0 1 u t ∧ t.chans = u.chans
      else if c.audible = false then (t.chan ch).disarmPend = true ∧ (t.chan ch).st = .armed ∧ InProgress e u t
      else (t.chan ch).stopping = true ∧ (t.chan ch).st = .armed ∧ Posted e stOk 0 0 u t := by
  intro u ch c
  by_cases hst : c.st = .armed
  · refine ⟨disarmOn e ch u, (disarm_eq h).trans (congrArg _ (checked_passes ?_)), ?_⟩
    · simp [firstFail, Chan.armed, show (u.chan ch).st = .armed from hst, u, ch]
    · simp only [if_neg (not_not.2 hst)]
      exact disarmOn_asks e hst
  · refine ⟨refuse e stState 1 u, (disarm_eq h).trans (congrArg _ (checked_fails ?_)), ?_⟩
    · simp [firstFail, Chan.armed, show (u.chan ch).st ≠ .armed from hst, u, ch]
    · simp only [if_pos hst]
      exact refuse_chans e stState 1 u

theorem disarmTakeEffect_acts (ch : Fin 512) (s : State) : Does (.disarmTakeEffect ch) s fun t =>
    if (s.chan ch.val).st = .armed ∧ (s.chan ch.val).disarmPend = true then
      (t.chan ch.val).st = .idle ∧ (t.chan ch.val).disarmPend = false ∧ (t.chan ch.val).cmdQ = none ∧
        (t.chan ch.val).loop.feCount = 0 ∧ (t.chan ch.val).lease.holder = (s.chan ch.val).lease.holder
    else t = s := by
  unfold Does
  change ∃ t, execDisarmTakeEffect ch s = _ ∧ _
  unfold execDisarmTakeEffect
  simp only [Chan.armed, Bool.and_eq_true, beq_iff_eq]
  split
  next =>
    refine ⟨_, rfl, ?_⟩
    rw [finishObj_chan, goIdle, refreshGates_chan]
    obtain ⟨a, b, hm⟩ := motorIdle_chan ch.val _ ch.val
    rw [hm]
    simp [Chan.leaveArmed]
  next => exact ⟨s, rfl, rfl⟩

-- ---- CLEAR (R54, R306, R440)
/-- What CLEAR does of its own for a stopped channel that no cause keeps. -/
def clearOn (e : CmdEntry) (ch : Nat) (s : State) : State :=
  let c := s.chan ch
  acceptNow e 0 ((if (s.fold c.foldIx).stopped then foldFree c.foldIx s else s).setChan ch { c with clearPend := true })

theorem clear_eq {e : CmdEntry} {s : State} (h : s.accepts e 0x0603) : exec (.clear e) s = .next
    (checked e [(((s.untake e).chan (hIndex (opN e 0))).st == .stopped, stState, 1),
      (!(s.untake e).clearBlocked (hIndex (opN e 0)), stState, 2)] (clearOn e (hIndex (opN e 0))) (s.untake e)) :=
  congrArg Host.Outcome.next (commandRow_accepted h)

theorem clearDone_idles {ch : Nat} {s : State} (hst : (s.chan ch).st = .stopped) (hp : (s.chan ch).clearPend = true) :
    ((clearDone ch s).chan ch).st = .idle ∧ ((clearDone ch s).chan ch).causes = [] := by
  simp only [clearDone, hst, hp, beq_self_eq_true, Bool.and_self, if_true]
  rw [State.chan_of_same (tripLeft_keep (.same (p := .chans) rfl _) ch _ rfl)]
  simp

/-- The CLEAR of a stopped channel is to make it idle, and leaves its fold not stopped. -/
theorem clearOn_clears (e : CmdEntry) {ch : Nat} {s : State} (hst : (s.chan ch).st = .stopped) :
    (clearOn e ch s).chan ch = { s.chan ch with clearPend := true } ∧ ((clearDone ch (clearOn e ch s)).chan ch).st = .idle ∧
      ((clearDone ch (clearOn e ch s)).chan ch).causes = [] ∧ ((clearOn e ch s).fold (s.chan ch).foldIx).stopped = false ∧
        Posted e stOk 0 0 s (clearOn e ch s) := by
  generalize hv : (if (s.fold (s.chan ch).foldIx).stopped then foldFree (s.chan ch).foldIx s else s) = v
  have heq : clearOn e ch s = acceptNow e 0 (v.setChan ch { s.chan ch with clearPend := true }) := hv ▸ rfl
  have hchan : (clearOn e ch s).chan ch = { s.chan ch with clearPend := true } := by simp [heq, acceptNow_chan]
  have hfold : (v.fold (s.chan ch).foldIx).stopped = false := by
    rw [← hv]
    split
    next => rw [foldFree_fold]
    next h => simpa using h
  have hrings : Part.same .rings s v := by
    rw [← hv]
    split
    · exact foldFree_keep (.same (p := .rings) rfl s) _ s rfl
    · rfl
  obtain ⟨hidle, hcauses⟩ := clearDone_idles (s := clearOn e ch s) (ch := ch) (by rw [hchan]; exact hst) (by rw [hchan])
  exact ⟨hchan, hidle, hcauses, by rw [heq]; exact hfold, by rw [heq]; exact acceptNow_posted e 0 hrings⟩

theorem clear_clears {e : CmdEntry} {s : State} (h : s.accepts e 0x0603) : let u := s.untake e; let ch := hIndex (opN e 0)
    let c := u.chan ch
    Does (.clear e) s fun t =>
      if c.st ≠ .stopped then Posted e stState 0 1 u t ∧ t.chans = u.chans
      else if u.clearBlocked ch = true then Posted e stState 0 2 u t ∧ t.chans = u.chans
      else t.chan ch = { c with clearPend := true } ∧ ((clearDone ch t).chan ch).st = .idle ∧ ((clearDone ch t).chan ch).causes = [] ∧
        (t.fold c.foldIx).stopped = false ∧ Posted e stOk 0 0 u t := by
  intro u ch c
  have hrow := clear_eq h
  by_cases hst : (u.chan ch).st = .stopped
  · cases hb : u.clearBlocked ch
    case true =>
      refine ⟨refuse e stState 2 u, hrow.trans (congrArg _ (checked_fails ?_)), ?_⟩
      · simp [firstFail, hst, hb, u, ch]
      · simpa [hst, c] using refuse_chans e stState 2 u
    case false =>
      refine ⟨clearOn e ch u, hrow.trans (congrArg _ (checked_passes ?_)), ?_⟩
      · simp [firstFail, hst, hb, u, ch]
      · simpa [hst, c] using clearOn_clears e hst
  · refine ⟨refuse e stState 1 u, hrow.trans (congrArg _ (checked_fails ?_)), ?_⟩
    · simp [firstFail, hst, u, ch]
    · simpa [hst, c] using refuse_chans e stState 1 u

/-- Settles O21: the token is placed before ARM decides how the channel arms, the motor that arms or idles touches only the step,
and a CLEAR leaves the channel stopped but for its mark until the carrier boundary. -/
theorem armingAndDisarmingTakeTheirBoundary : Obligations.ArmingAndDisarmingTakeTheirBoundary := by
  unfold Obligations.ArmingAndDisarmingTakeTheirBoundary
  exact ⟨fun e now s h => ⟨arm_refused now h, arm_arms now h⟩, armTakeEffect_acts, fun e s h => disarm_asks h, disarmTakeEffect_acts,
    fun e s h => clear_clears h⟩

end Sys2Proof.Machine
end

section
/-! SUPPORT. CHAN.NEW and CHAN.DEL: what the admission of a channel and the start of its deletion leave (R56, R60). -/

namespace Sys2Proof.Machine

open Sys2Proof

-- ---- own checks
theorem firstFail_none {l : List (Bool × Nat × Nat)} (h : firstFail l = none) : ∀ x ∈ l, x.1 = true := by
  induction l with
  | nil => simp
  | cons x l ih =>
    obtain ⟨ok, st, chk⟩ := x
    cases ok
    · simp [firstFail] at h
    · simpa using ih (by simpa [firstFail] using h)

-- ---- room for a ring (R64, R144)
/-- Between `c` and the channel in `s` nothing but the place of its ring changed. -/
def Moved (c : Chan) (j : Nat) (s : State) : Prop := ∃ p, s.chan j = { c with adm := { c.adm with capAt := p } }

theorem Moved.refl (s : State) (j : Nat) : Moved (s.chan j) j s := ⟨_, rfl⟩

theorem Moved.updChan {c : Chan} {j : Nat} {s : State} (h : Moved c j s) (i p : Nat) :
    Moved c j (s.updChan i (fun c => { c with adm := { c.adm with capAt := p } })) := by
  obtain ⟨q, hq⟩ := h
  by_cases e : j = i
  · exact ⟨p, by simp [← e, hq]⟩
  · exact ⟨q, by simp [e, hq]⟩

theorem Moved.of_same {c : Chan} {j : Nat} {s t : State} (h : Moved c j s) (hst : Part.same .chans s t) : Moved c j t := by
  unfold Moved
  rw [State.chan_of_same hst]
  exact h

theorem repack_moved (s : State) (j : Nat) : Moved (s.chan j) j (repack s) := by
  unfold repack
  extract_lets moves cells u v
  have hv : Part.same .chans s v := forL_keep (P := Part.same .chans s) _ _ (fun x w hw => by
    split
    · exact setDramByte_keep (.same (p := .chans) rfl s) _ _ hw
    · exact hw) (dropDram_keep (.same (p := .chans) rfl s) _ (Part.same_refl .chans s))
  exact forL_keep (P := Moved (s.chan j) j) _ _ (fun m w hw => hw.updChan m.1 m.2) ((Moved.refl s j).of_same hv)

theorem roomFor_moved (bytes : Nat) (s : State) (j : Nat) : Moved (s.chan j) j (roomFor bytes s) := by
  unfold roomFor
  split
  · exact Moved.refl s j
  · exact repack_moved s j

theorem roomFor_of_place {bytes : Nat} {s : State} (h : (s.ringPlace bytes).isSome = true) : roomFor bytes s = s := by
  rw [roomFor, if_pos h]

-- ---- CHAN_NEW (R45, R60, R303)
/-- The settings at creation depend on the registers and the Bellwether alone. -/
theorem createSet_of_same {s t : State} (hr : Part.same .regs s t) (hb : Part.same .bell s t) (k : Nat) :
    t.createSet k = s.createSet k := by
  change t.regs = s.regs at hr
  change t.bell = s.bell at hb
  have hloop : t.loopNext = s.loopNext := by simp only [State.loopNext, State.fcNext, State.reg, hr, hb]
  unfold State.createSet
  rw [hloop]

theorem chanNew_eq {e : CmdEntry} {s : State} (h : s.accepts e 0x0101) : exec (.chanNew e) s = .next
    (checked e ((s.untake e).admChecks (admOf e)) (createChan e (admOf e)) (s.untake e)) :=
  congrArg Host.Outcome.next (commandRow_accepted h)

/-- An admitted request has a free index and engines. -/
theorem admChecks_pass {s : State} {a : Adm} (h : firstFail (s.admChecks a) = none) :
    (s.freeIndex 1).isSome = true ∧ (s.placeFor a).isSome = true := by
  have hall := firstFail_none h
  simp only [State.admChecks, List.mem_cons, forall_eq_or_imp, Bool.and_eq_true] at hall
  obtain ⟨-, -, -, -, ⟨-, hfree⟩, -, -, hplace, -⟩ := hall
  exact ⟨hfree, hplace⟩

/-- The channel of a request at its creation. -/
def Chan.created (e : CmdEntry) (a : Adm) (i : Nat) (md : ModSet) : Chan :=
  { Chan.free with
    st := .idle, adm := a, safe := bitOf (opN e 0) 28, audible := bitOf (opN e 0) 27, md, lfsr := BitVec.ofNat 16 (i + 1) }

/-- The terminals and engines of a channel at its creation. -/
def fitOut (a : Adm) (x y : Nat) (s : State) : State :=
  each [x, y] (fun q s => s.setField (engReg (4 * flockOf a.first + q) 0x04) 16 16 0)
    (each a.terms (fun t s => (s.setReg (psReg t 0x1C) (BitVec.ofNat 32 (min a.ipk (s.ipeak t)))).updTerm t
      (fun x => { x with ocHist := [], ocAct := false })) s)

theorem fitOut_keep {P : State → Prop} (hP : Keeps [.regs, .terms] P) (a : Adm) (x y : Nat) {s : State} (h : P s) :
    P (fitOut a x y s) := by
  refine each_keep (P := P) _ _ (fun q u hu => setField_keep (hP.mono (by decide)) _ _ _ _ hu) ?_
  refine each_keep (P := P) _ _ (fun t u hu => ?_) h
  exact updTerm_keep (hP.mono (by decide)) _ _ (fun _ => ⟨fun h1 h2 => ⟨h1, h2⟩⟩) (setReg_keep (hP.mono (by decide)) _ _ hu)

/-- The place, with its engines and ring, of an admitted request. -/
def State.placed (s : State) (a : Adm) (x y p : Nat) : Adm :=
  { a with engA := x, engB := y, phase := p, capAt := ((roomFor a.ringBytes s).ringPlace a.ringBytes).getD capBase }

/-- The state in which an admitted channel stands, before its command completes. -/
def admitted (e : CmdEntry) (a : Adm) (i x y p : Nat) (s : State) : State :=
  fitOut a x y ((roomFor a.ringBytes s).setChan i (Chan.created e (s.placed a x y p) i ((roomFor a.ringBytes s).createSet a.kind)))

theorem createChan_eq (e : CmdEntry) {a : Adm} {u : State} {i x y p : Nat} (hi : u.freeIndex 1 = some i)
    (hp : u.placeFor a = some (x, y, p)) :
    createChan e a u = acceptNow e (mkHandle 1 i ((admitted e a i x y p u).gen 1 i)) (admitted e a i x y p u) := by
  unfold createChan
  rw [hi, hp]
  rfl

theorem createChan_chan (e : CmdEntry) {a : Adm} {u : State} {i x y p : Nat} (hi : u.freeIndex 1 = some i)
    (hp : u.placeFor a = some (x, y, p)) (j : Nat) : (createChan e a u).chan j =
    if j = i then Chan.created e (u.placed a x y p) i (u.createSet a.kind) else (roomFor a.ringBytes u).chan j := by
  rw [createChan_eq e hi hp, acceptNow_chan, admitted,
    State.chan_of_same (fitOut_keep (.same (p := .chans) rfl _) a x y (Part.same_refl .chans _)), State.setChan_read,
    createSet_of_same (s := u) (roomFor_keep (.same (p := .regs) rfl u) _ u rfl) (roomFor_keep (.same (p := .bell) rfl u) _ u rfl)]

theorem createChan_posted (e : CmdEntry) {a : Adm} {u : State} {i x y p : Nat} (hi : u.freeIndex 1 = some i)
    (hp : u.placeFor a = some (x, y, p)) : Posted e stOk (mkHandle 1 i (u.gen 1 i)) 0 u (createChan e a u) := by
  have hkeep {q : Part} (hq : [Part.regs, .terms, .dram, .chans].contains q = false) : q.same u (admitted e a i x y p u) :=
    have hP : Keeps [.regs, .terms, .dram, .chans] (q.same u) := .same hq u
    fitOut_keep (hP.mono (by decide)) a x y
      (setChan_keep (hP.mono (by decide)) _ _ (roomFor_keep (hP.mono (by decide)) _ u (Part.same_refl q u)))
  have hgens : (admitted e a i x y p u).gens = u.gens := hkeep (q := .gens) rfl
  have hgen : (admitted e a i x y p u).gen 1 i = u.gen 1 i := by simp only [State.gen, hgens]
  rw [createChan_eq e hi hp, hgen]
  exact acceptNow_posted e _ (hkeep (q := .rings) rfl)

theorem chanNew_creates (e : CmdEntry) {a : Adm} {u : State} (h : firstFail (u.admChecks a) = none) : ∃ i x y φ,
    u.freeIndex 1 = some i ∧ u.placeFor a = some (x, y, φ) ∧ ((createChan e a u).chan i).st = .idle ∧
      ((createChan e a u).chan i).adm = { a with engA := x, engB := y, phase := φ
                                                 capAt := ((roomFor a.ringBytes u).ringPlace a.ringBytes).getD capBase } ∧
      ((createChan e a u).chan i).md = u.createSet a.kind ∧ (createChan e a u).gens = u.gens ∧
      (∀ j, j ≠ i → (createChan e a u).chan j =
          { u.chan j with adm := { (u.chan j).adm with capAt := ((createChan e a u).chan j).adm.capAt } } ∧
        ((u.ringPlace a.ringBytes).isSome = true → (createChan e a u).chan j = u.chan j)) ∧
      Posted e stOk (mkHandle 1 i (u.gen 1 i)) 0 u (createChan e a u) := by
  obtain ⟨hfree, hplace⟩ := admChecks_pass h
  obtain ⟨i, hi⟩ := Option.isSome_iff_exists.1 hfree
  obtain ⟨⟨x, y, p⟩, hp⟩ := Option.isSome_iff_exists.1 hplace
  have hchan := createChan_chan e hi hp
  have hposted := createChan_posted e hi hp
  have hgens : (createChan e a u).gens = u.gens := createChan_keep (.same (p := .gens) rfl u) e a u rfl
  generalize createChan e a u = t at hchan hposted hgens ⊢
  refine ⟨i, x, y, p, hi, hp, ?_, ?_, ?_, hgens, fun j hj => ?_, hposted⟩
  · rw [hchan, if_pos rfl]; rfl
  · rw [hchan, if_pos rfl]; rfl
  · rw [hchan, if_pos rfl]; rfl
  · rw [hchan, if_neg hj]
    obtain ⟨q, hq⟩ := roomFor_moved a.ringBytes u j
    exact ⟨by rw [hq], fun hroom => by rw [roomFor_of_place hroom]⟩

theorem chanNew_does (e : CmdEntry) (s : State) (h : s.accepts e 0x0101) : let u := s.untake e; let a := admOf e
    Does (.chanNew e) s fun t =>
      match firstFail (u.admChecks a) with
      | some (st, chk) => Posted e st 0 chk u t ∧ ∀ p : Part, p ≠ .rings → p.same u t
      | none => ∃ i x y φ, u.freeIndex 1 = some i ∧ u.placeFor a = some (x, y, φ) ∧ (t.chan i).st = .idle ∧
          (t.chan i).adm = { a with engA := x, engB := y, phase := φ
                                    capAt := ((roomFor a.ringBytes u).ringPlace a.ringBytes).getD capBase } ∧
          (t.chan i).md = u.createSet a.kind ∧ t.gens = u.gens ∧
          (∀ j, j ≠ i → t.chan j = { u.chan j with adm := { (u.chan j).adm with capAt := (t.chan j).adm.capAt } } ∧
            ((u.ringPlace a.ringBytes).isSome = true → t.chan j = u.chan j)) ∧
          Posted e stOk (mkHandle 1 i (u.gen 1 i)) 0 u t := by
  intro u a
  have hrow := chanNew_eq h
  cases hf : firstFail (u.admChecks a) with
  | some r => exact ⟨_, hrow.trans (congrArg _ (checked_fails hf)), refuse_posted e r.1 r.2 u⟩
  | none => exact ⟨_, hrow.trans (congrArg _ (checked_passes hf)), chanNew_creates e hf⟩

end Sys2Proof.Machine
end

section
/-! SUPPORT. The start of a deletion (R56): generations, bindings and state of the channel that goes. -/

namespace Sys2Proof.Machine

open Sys2Proof

-- ---- generations and bindings over the start of a deletion (R50, R56)
theorem State.gen_advGen (s : State) (ty i ty' j : Nat) :
    (s.advGen ty i).gen ty' j = if genKey ty' j = genKey ty i then nextGen (s.gen ty i) else s.gen ty' j :=
  tget_tset _ _ _ _ _

/-- The generations of the channel's own handles, of types 1 to 3, are `g`, and the bindings are `b`. -/
structure Deleted (ch : Nat) (g : Nat → Nat) (b : Tab Binding) (s : State) : Prop where
  gens : ∀ ty ∈ [1, 2, 3], s.gen ty ch = g ty
  binds : s.binds = b

theorem Keeps.deleted {L : List Part} (hg : L.contains .gens = false) (hb : L.contains .binds = false) (ch : Nat) (g : Nat → Nat)
    (b : Tab Binding) : Keeps L (Deleted ch g b) := by
  have hno {q : Prop} {p : Part} (hp : L.contains p = false) (h : L.contains p = true) : q := absurd (h.symm.trans hp) (by decide)
  constructor
  case power => exact fun hall => hno hg (hall .gens)
  case advGen => exact fun h => hno hg h
  case binds => exact fun h => hno hb h
  all_goals intros; rename_i h; exact ⟨h.gens, h.binds⟩

/-- The generation of an object of another type moves on without them. -/
theorem Deleted.advGen {ch : Nat} {g : Nat → Nat} {b : Tab Binding} {s : State} (h : Deleted ch g b s) (hch : ch < 4096) {ty : Nat}
    (hty : 3 < ty) (i : Nat) : Deleted ch g b (s.advGen ty i) := by
  refine ⟨fun k hk => ?_, h.binds⟩
  have hne : genKey k ch ≠ genKey ty i := by
    have : k ≤ 3 := by simp at hk; omega
    unfold genKey
    omega
  rw [State.gen_advGen, if_neg hne]
  exact h.gens k hk

theorem advGen_own (ch : Nat) (s : State) :
    Deleted ch (fun ty => nextGen (s.gen ty ch)) s.binds (each [1, 2, 3] (fun ty s => s.advGen ty ch) s) := by
  refine ⟨fun ty hty => ?_, rfl⟩
  change (((s.advGen 1 ch).advGen 2 ch).advGen 3 ch).gen ty ch = _
  fin_cases hty <;> simp [State.gen_advGen, genKey]

/-- The bindings as the deletion of a channel leaves them: those to it end with it and not at B(j). -/
def endingBinds (ch : Nat) (b : Tab Binding) : Tab Binding :=
  tmap Binding.none b (fun _ b => if b.chan == ch then { b with ending := false } else b)

theorem Deleted.endBinds {ch : Nat} {g : Nat → Nat} {b : Tab Binding} {s : State} (h : Deleted ch g b s) :
    Deleted ch g (endingBinds ch b) { s with binds := endingBinds ch s.binds } :=
  ⟨h.gens, by rw [h.binds]⟩

theorem deleteStart_deleted (ch : Nat) (s : State) (hch : ch < 4096) :
    Deleted ch (fun ty => nextGen (s.gen ty ch)) (endingBinds ch s.binds) (deleteStart ch s) := by
  have h0 := advGen_own ch s
  generalize hg : (fun ty => nextGen (s.gen ty ch)) = g at h0 ⊢
  have hP {L : List Part} {b : Tab Binding} (hgens : L.contains .gens = false) (hbinds : L.contains .binds = false) :
      Keeps L (Deleted ch g b) := .deleted hgens hbinds ch g b
  unfold deleteStart
  extract_lets s1 s2 s3 s4 s5 s6 s7 s8 s9 s10 s11 s12 s13 s14
  have h3 : Deleted ch g s.binds s3 := haltRuns_keep (hP rfl rfl) ch s2 (withdrawToken_keep (hP rfl rfl) ch s1 h0)
  have h4 : Deleted ch g s.binds s4 := each_keep (P := Deleted ch g s.binds) _ _ (fun i u hu => by
    split
    · exact hu
    · exact hu.advGen hch (by decide) i) h3
  have h5 : Deleted ch g s.binds s5 := each_keep (P := Deleted ch g s.binds) _ _ (fun i u hu =>
    haltCap_keep (hP rfl rfl) i _ (hu.advGen hch (by decide) i)) h4
  have h6 : Deleted ch g s.binds s6 := by
    unfold s6
    split
    · exact updInj_keep (hP rfl rfl) _ _ (h5.advGen hch (by decide) _)
    · exact h5
  have h7 : Deleted ch g s.binds s7 := by
    unfold s7
    split
    · exact motorIdle_keep (hP rfl rfl) ch _ (h6.advGen hch (by decide) _)
    · exact h6
  have h8 : Deleted ch g s.binds s8 := each_keep (P := Deleted ch g s.binds) _ _ (fun i u hu => by
    split
    · exact each_keep (P := Deleted ch g s.binds) _ _ (fun j v hv => setTrip_keep (hP rfl rfl) _ _ hv) (setTimer_keep (hP rfl rfl) _ _ hu)
    · exact hu) h7
  have h9 : Deleted ch g s.binds s9 := each_keep (P := Deleted ch g s.binds) _ _ (fun j v hv => setTrip_keep (hP rfl rfl) _ _ hv) h8
  have h11 : Deleted ch g s.binds s11 :=
    endObjCommands_keep (hP rfl rfl) ch s10 (debugDone_keep (hP rfl rfl) _ (updCol_keep (hP rfl rfl) _ h9))
  have h12 : Deleted ch g (endingBinds ch s.binds) s12 := h11.endBinds
  exact refreshGates_keep (hP rfl rfl) _ (tripLeft_keep (hP rfl rfl) ch s14
    (updChan_keep (hP rfl rfl) _ _ (updChan_keep (hP rfl rfl) _ _ h12)))

theorem deleteStart_st (ch : Nat) (s : State) : ((deleteStart ch s).chan ch).st = .deleting := by
  unfold deleteStart
  extract_lets s1 s2 s3 s4 s5 s6 s7 s8 s9 s10 s11 s12 s13 s14
  rw [refreshGates_chan, State.chan_of_same (tripLeft_keep (.same (p := .chans) rfl s14) ch s14 rfl)]
  simp [s14, s13]

-- ---- a table whose entries are rewritten
/-- A rewriting that does nothing to an entry a second time, and nothing to what is not listed, reads so at every number. -/
theorem tget_tmap {α : Type} [DecidableEq α] {d : α} {f : α → α} (hd : f d = d) (hf : ∀ x, f (f x) = f x) (t : Tab α) (j : Nat) :
    tget d (tmap d t (fun _ => f)) j = f (tget d t j) := by
  have hfold (l : List Nat) : ∀ a : Tab α, tget d (l.foldl (fun a k => tset d a k (f (tget d a k))) a) j =
      if j ∈ l then f (tget d a j) else tget d a j := by
    induction l with
    | nil => intro a; rfl
    | cons k l ih =>
      intro a
      rw [List.foldl_cons, ih, tget_tset]
      by_cases hk : j = k
      · simp [hk, hf]
      · simp [hk]
  rw [tmap, hfold]
  split
  · rfl
  next h => rw [tget_of_not_mem d h, hd]

theorem endingBinds_get (ch : Nat) (b : Tab Binding) (i : Nat) : tget Binding.none (endingBinds ch b) i =
    if (tget Binding.none b i).chan = ch then { tget Binding.none b i with ending := false } else tget Binding.none b i := by
  rw [endingBinds, tget_tmap]
  · simp only [beq_iff_eq]
  · split <;> rfl
  · intro x
    split <;> simp

-- ---- CHAN_DEL (R56)
/-- The own checks of CHAN.DEL. -/
def delChecks (ch : Nat) (s : State) : List (Bool × Nat × Nat) :=
  [(!(s.chan ch).armed, stState, 1), ((tkeys s.gates).all (fun g => !((s.gate g).live && (s.gate g).lagChan == some ch)), stState, 2)]

theorem chanDel_eq {e : CmdEntry} {s : State} (h : s.accepts e 0x0102) : exec (.chanDel e) s = .next
    (checked e (delChecks (hIndex (opN e 0)) (s.untake e)) (fun t => acceptLater e 0 (deleteStart (hIndex (opN e 0)) t)) (s.untake e)) :=
  congrArg Host.Outcome.next (commandRow_accepted h)

theorem hIndex_lt (h : W) : hIndex h < 4096 :=
  Nat.mod_lt _ (by decide)

theorem objOf_chanDel {e : CmdEntry} (h : opcodeOf e = 0x0102) : objOf e = some (1, hIndex (opN e 0)) := by
  simp [objOf, objsOf, handlesOf, h]

theorem chanDel_does (e : CmdEntry) (s : State) (h : s.accepts e 0x0102) : let u := s.untake e; let ch := hIndex (opN e 0)
    Does (.chanDel e) s fun t =>
      if (u.chan ch).st = .armed then Posted e stState 0 1 u t ∧ ∀ p : Part, p ≠ .rings → p.same u t
      else if ∃ g ∈ tkeys u.gates, (u.gate g).live = true ∧ (u.gate g).lagChan = some ch then
        Posted e stState 0 2 u t ∧ ∀ p : Part, p ≠ .rings → p.same u t
      else (t.chan ch).st = .deleting ∧ (∀ ty ∈ [1, 2, 3], t.gen ty ch = nextGen (u.gen ty ch)) ∧
        (∀ i, t.bind i = if (u.bind i).chan = ch then { u.bind i with ending := false } else u.bind i) ∧
        ∃ p ∈ t.svc.inProg, p.entry = e ∧ p.obj = some (1, ch) := by
  intro u ch
  have hrow := chanDel_eq h
  by_cases hst : (u.chan ch).st = .armed
  · have hfail : firstFail (delChecks ch u) = some (stState, 1) := by simp [delChecks, firstFail, Chan.armed, hst]
    refine ⟨refuse e stState 1 u, hrow.trans (congrArg _ (checked_fails hfail)), ?_⟩
    simpa [hst] using refuse_posted e stState 1 u
  by_cases hgate : ∃ g ∈ tkeys u.gates, (u.gate g).live = true ∧ (u.gate g).lagChan = some ch
  · have hfail : firstFail (delChecks ch u) = some (stState, 2) := by simpa [delChecks, firstFail, Chan.armed, hst] using hgate
    refine ⟨refuse e stState 2 u, hrow.trans (congrArg _ (checked_fails hfail)), ?_⟩
    simp only [if_neg hst, if_pos hgate]
    exact refuse_posted e stState 2 u
  · have hpass : firstFail (delChecks ch u) = none := by simpa [delChecks, firstFail, Chan.armed, hst] using hgate
    have hnext : exec (.chanDel e) s = .next (acceptLater e 0 (deleteStart ch u)) := hrow.trans (congrArg _ (checked_passes hpass))
    have hdel := deleteStart_st ch u
    have hboth := deleteStart_deleted ch u (hIndex_lt _)
    generalize deleteStart ch u = v at hdel hboth hnext
    obtain ⟨hgens, hbinds⟩ := hboth
    refine ⟨acceptLater e 0 v, hnext, ?_⟩
    simp only [if_neg hst, if_neg hgate]
    refine ⟨hdel, hgens, fun i => ?_, _, List.mem_append_right _ (List.mem_singleton_self _), rfl, objOf_chanDel h.2.1⟩
    rw [State.bind, show (acceptLater e 0 v).binds = endingBinds ch u.binds from hbinds, endingBinds_get]
    rfl

end Sys2Proof.Machine
end

section
/-! SUPPORT. A deleting channel opens its terminals, and the output slots that name it go to source 0 (R56, R102). -/

namespace Sys2Proof.Machine

open Sys2Proof

-- ---- the accounts of a terminal (R168, R170, R451)
theorem State.reg_of_same {s t : State} (h : Part.same .regs s t) (a : Nat) : t.reg a = s.reg a := by
  unfold State.reg
  rw [show t.regs = s.regs from h]

theorem talCheck_failed_reg (bit : Nat) (s : State) (a : Nat) : (talCheck bit false s).reg a = (setEvt talEvt bit s).reg a := rfl

/-- Checks of the volt-second tally write registers from the tallies' block on. -/
theorem vsCheck_reg {a : Nat} (ha : a < 0x200000) (t : Nat) (s : State) : (vsCheck t s).reg a = s.reg a := by
  have hbreak : a ≠ vsBreak t := by unfold vsBreak vsUnconf aFlock; omega
  have htal : a ≠ talEvt := by unfold talEvt aTal; omega
  unfold vsCheck
  split
  · rfl
  · simp [talCheck_failed_reg, hbreak, htal]

theorem vsCheck_term (t : Nat) (s : State) (q : Nat) : (vsCheck t s).term q = s.term q :=
  State.term_of_same (vsCheck_keep (.same (p := .terms) rfl s) t s rfl) q

theorem creditDel_term {t q : Nat} (h : q ≠ t) (p : Period) (d : Int) (s : State) : (creditDel t p d s).term q = s.term q := by
  unfold creditDel
  split <;> simp [h]

theorem creditDel_reg (t : Nat) (p : Period) (d : Int) (s : State) (a : Nat) : (creditDel t p d s).reg a = s.reg a := by
  unfold creditDel
  split <;> simp

theorem closePeriod_term {t q : Nat} (h : q ≠ t) (s : State) : (closePeriod t s).term q = s.term q := by
  unfold closePeriod
  split
  · rfl
  · simp [vsCheck_term, creditDel_term h, h]

theorem dropResidue_term {t q : Nat} (h : q ≠ t) (s : State) : (dropResidue t s).term q = s.term q := by
  unfold dropResidue
  dsimp only
  split
  · rfl
  · simp [vsCheck_term, h]

theorem closePeriod_reg {a : Nat} (ha : a < 0x200000) (t : Nat) (s : State) : (closePeriod t s).reg a = s.reg a := by
  unfold closePeriod
  split
  · rfl
  · simp [vsCheck_reg ha, creditDel_reg]

theorem dropResidue_reg {a : Nat} (ha : a < 0x200000) (t : Nat) (s : State) : (dropResidue t s).reg a = s.reg a := by
  unfold dropResidue
  dsimp only
  split
  · rfl
  · simp [vsCheck_reg ha]

-- ---- terminals that open (R56)
/-- Both sides of a leg are off, and its drive leaves them so. -/
def Term.open_ (x : Term) : Prop := x.hi = false ∧ x.lo = false ∧ x.drive = .off

/-- A terminal of a deleting channel opens. -/
def openTerm (now t : Nat) (s : State) : State :=
  setDrive t .off false now (dropResidue t (closePeriod t (s.updTerm t (fun x => { x with forceQ := none, forceEff := 0 }))))

theorem openTerm_opens (now t : Nat) (s : State) : ((openTerm now t s).term t).open_ := by
  simp [openTerm, setDrive, Term.open_]

theorem openTerm_term {t q : Nat} (h : q ≠ t) (now : Nat) (s : State) : (openTerm now t s).term q = s.term q := by
  simp [openTerm, setDrive, h, dropResidue_term h, closePeriod_term h]

theorem openTerm_keep {P : State → Prop} (hP : Keeps [.regs, .wide, .terms, .tal, .host] P) (now t : Nat) {s : State} (h : P s) :
    P (openTerm now t s) :=
  setDrive_keep (hP.mono (by decide)) t .off false now _ (dropResidue_keep hP t _ (closePeriod_keep hP t _
    (updTerm_keep (hP.mono (by decide)) t _ (fun _ => ⟨fun h1 h2 => ⟨h1, h2⟩⟩) h)))

theorem setDrive_reg (t : Nat) (d : Drive) (own : Bool) (now : Nat) (s : State) (a : Nat) : (setDrive t d own now s).reg a = s.reg a := rfl

theorem openTerm_reg {a : Nat} (ha : a < 0x200000) (now t : Nat) (s : State) : (openTerm now t s).reg a = s.reg a := by
  simp [openTerm, setDrive_reg, dropResidue_reg ha, closePeriod_reg ha]

theorem each_openTerm_opens {l : List Nat} {q : Nat} (hq : q ∈ l) (now : Nat) (s : State) : ((each l (openTerm now) s).term q).open_ := by
  refine each_establishes (P := fun q s => (s.term q).open_) (f := openTerm now) (openTerm_opens now) (fun t q s h => ?_) hq s
  by_cases e : q = t
  · rw [e]
    exact openTerm_opens now t s
  · rw [openTerm_term e]
    exact h

-- ---- output slots (R102)
/-- An output slot's word names a channel. -/
def slotNames (ch : Nat) (v : W) : Bool := fld v 28 4 == 1 && fld v 16 12 == ch

/-- Where its word names the channel, a slot of an output goes to source 0. -/
def dropSlot (ch n i : Nat) (s : State) : State := if slotNames ch (s.reg (soSlot n i)) then s.setField (soSlot n i) 28 4 0 else s

/-- So do the writes that wait for an output's slots, and the slots themselves. -/
def dropSlots (ch n : Nat) (s : State) : State :=
  each (List.range 32) (dropSlot ch n) (s.setOut n { s.out n with
    slotPend := tmap none (s.out n).slotPend (fun _ x => x.map (fun v => if slotNames ch v then setFld v 28 4 0 else v)) })

theorem fld_source_cleared (w : W) : fld (setFld w 28 4 0) 28 4 = 0 := by
  rw [fld_setFld w 0 (by decide)]
  rfl

theorem slotNames_cleared (ch : Nat) (w : W) : slotNames ch (setFld w 28 4 0) = false := by
  simp [slotNames, fld_source_cleared]

theorem dropSlot_reg (ch n i : Nat) (s : State) (a : Nat) : (dropSlot ch n i s).reg a = s.reg a ∨
    (dropSlot ch n i s).reg a = setFld (s.reg a) 28 4 0 := by
  unfold dropSlot
  split
  · by_cases h : a = soSlot n i
    · exact .inr (by simp [State.setField, h])
    · exact .inl (by simp [State.setField, h])
  · exact .inl rfl

theorem dropSlot_unnames (ch n i : Nat) (s : State) : slotNames ch ((dropSlot ch n i s).reg (soSlot n i)) = false := by
  unfold dropSlot
  split
  next => simp [State.setField, slotNames_cleared]
  next h => simpa using h

theorem dropSlot_keeps {Q : W → Prop} (hQ : ∀ w, Q w → Q (setFld w 28 4 0)) {a : Nat} {s : State} (h : Q (s.reg a)) (ch n i : Nat) :
    Q ((dropSlot ch n i s).reg a) := by
  rcases dropSlot_reg ch n i s a with he | he <;> rw [he]
  · exact h
  · exact hQ _ h

theorem dropSlots_keeps {Q : W → Prop} (hQ : ∀ w, Q w → Q (setFld w 28 4 0)) {a : Nat} {s : State} (h : Q (s.reg a)) (ch n : Nat) :
    Q ((dropSlots ch n s).reg a) :=
  each_keep (P := fun s : State => Q (s.reg a)) _ _ (fun i _ hu => dropSlot_keeps hQ hu ch n i) h

theorem dropSlots_unnames {i : Nat} (hi : i < 32) (ch n : Nat) (s : State) :
    slotNames ch ((dropSlots ch n s).reg (soSlot n i)) = false :=
  each_establishes (P := fun i s => slotNames ch (s.reg (soSlot n i)) = false) (dropSlot_unnames ch n)
    (fun k _ _ hs => dropSlot_keeps (Q := fun w => slotNames ch w = false) (fun _ _ => slotNames_cleared ch _) hs ch n k)
    (List.mem_range.2 hi) _

theorem each_dropSlots_unnames {n i : Nat} (hn : n < 4) (hi : i < 32) (ch : Nat) (s : State) :
    slotNames ch ((each (List.range 4) (dropSlots ch) s).reg (soSlot n i)) = false :=
  each_establishes (P := fun n s => slotNames ch (s.reg (soSlot n i)) = false) (dropSlots_unnames hi ch)
    (fun k _ _ hs => dropSlots_keeps (Q := fun w => slotNames ch w = false) (fun _ _ => slotNames_cleared ch _) hs ch k)
    (List.mem_range.2 hn) s

/-- A slot that names the channel has source 0 after them all. -/
theorem each_dropSlots_clears {n i : Nat} (hn : n < 4) (hi : i < 32) {ch : Nat} {s : State} (h : slotNames ch (s.reg (soSlot n i)) = true) :
    fld ((each (List.range 4) (dropSlots ch) s).reg (soSlot n i)) 28 4 = 0 := by
  have hor : (each (List.range 4) (dropSlots ch) s).reg (soSlot n i) = s.reg (soSlot n i) ∨
      fld ((each (List.range 4) (dropSlots ch) s).reg (soSlot n i)) 28 4 = 0 :=
    each_keep (P := fun u : State => u.reg (soSlot n i) = s.reg (soSlot n i) ∨ fld (u.reg (soSlot n i)) 28 4 = 0) _ _
      (fun k _ hu => dropSlots_keeps (Q := fun w => w = s.reg (soSlot n i) ∨ fld w 28 4 = 0) (fun w _ => .inr (fld_source_cleared w)) hu ch k)
      (.inl rfl)
  rcases hor with he | he
  · have hno := each_dropSlots_unnames hn hi ch s
    rw [he, h] at hno
    cases hno
  · exact he

theorem dropSlots_keep {P : State → Prop} (hP : Keeps [.outs, .regs] P) (ch n : Nat) {s : State} (h : P s) : P (dropSlots ch n s) := by
  refine each_keep (P := P) _ _ (fun i u hu => ?_) (setOut_keep (hP.mono (by decide)) _ _ h)
  unfold dropSlot
  split
  · exact setField_keep (hP.mono (by decide)) _ _ _ _ hu
  · exact hu

-- ---- CHAN_DEL_OPEN (R56)
/-- What CHAN_DEL_OPEN does for a deleting channel whose terminals are not open yet. -/
def openChan (ch now : Nat) (s : State) : State :=
  each (List.range 4) (dropSlots ch) (each (s.chan ch).terms (openTerm now) (s.setChan ch { s.chan ch with opened := true }))

theorem chanDelOpen_eq {ch : Fin 512} {s : State} (hst : (s.chan ch.val).st = .deleting) (hop : (s.chan ch.val).opened = false)
    (now : Nat) : exec (.chanDelOpen ch now) s = .next (openChan ch.val now s) := by
  have h : ¬((s.chan ch.val).st != .deleting || (s.chan ch.val).opened) = true := by simp [hst, hop]
  exact if_neg h

theorem openChan_chan (ch now : Nat) (s : State) : (openChan ch now s).chan ch = { s.chan ch with opened := true } := by
  unfold openChan
  generalize hu : s.setChan ch { s.chan ch with opened := true } = u
  have hterms : Part.same .chans u (each (s.chan ch).terms (openTerm now) u) :=
    each_keep (P := Part.same .chans u) _ _ (fun t _ h => openTerm_keep (.same (p := .chans) rfl u) now t h) (Part.same_refl .chans u)
  have hall : Part.same .chans u (each (List.range 4) (dropSlots ch) (each (s.chan ch).terms (openTerm now) u)) :=
    each_keep (P := Part.same .chans u) _ _ (fun n _ h => dropSlots_keep (.same (p := .chans) rfl u) ch n h) hterms
  rw [State.chan_of_same hall, ← hu, State.setChan_read, if_pos rfl]

theorem openChan_term {ch q : Nat} (now : Nat) {s : State} (hq : q ∈ (s.chan ch).terms) : ((openChan ch now s).term q).open_ := by
  unfold openChan
  generalize hu : each (s.chan ch).terms (openTerm now) (s.setChan ch { s.chan ch with opened := true }) = u
  have hall : Part.same .terms u (each (List.range 4) (dropSlots ch) u) :=
    each_keep (P := Part.same .terms u) _ _ (fun n _ h => dropSlots_keep (.same (p := .terms) rfl u) ch n h) (Part.same_refl .terms u)
  rw [State.term_of_same hall, ← hu]
  exact each_openTerm_opens hq now _

theorem soSlot_lt {n i : Nat} (hn : n < 4) (hi : i < 32) : soSlot n i < 0x200000 := by
  unfold soSlot aOut
  omega

theorem openChan_slot {n i : Nat} (hn : n < 4) (hi : i < 32) {ch : Nat} (now : Nat) {s : State}
    (h : slotNames ch (s.reg (soSlot n i)) = true) : fld ((openChan ch now s).reg (soSlot n i)) 28 4 = 0 := by
  refine each_dropSlots_clears hn hi ?_
  have hreg : (each (s.chan ch).terms (openTerm now) (s.setChan ch { s.chan ch with opened := true })).reg (soSlot n i) = s.reg (soSlot n i) :=
    each_keep (P := fun u : State => u.reg (soSlot n i) = s.reg (soSlot n i)) _ _
      (fun t u hu => (openTerm_reg (soSlot_lt hn hi) now t u).trans hu) rfl
  rw [hreg]
  exact h

theorem chanDelOpen_does (ch : Fin 512) (s : State) (hst : (s.chan ch.val).st = .deleting) (hop : (s.chan ch.val).opened = false)
    (now : Nat) : Does (.chanDelOpen ch now) s fun t => (t.chan ch.val).opened = true ∧ (t.chan ch.val).st = .deleting ∧
      (∀ q ∈ (s.chan ch.val).terms, (t.term q).hi = false ∧ (t.term q).lo = false ∧ (t.term q).drive = .off) ∧
      ∀ (n : Fin 4) (i : Fin 32), fld (s.reg (soSlot n.val i.val)) 28 4 = 1 → fld (s.reg (soSlot n.val i.val)) 16 12 = ch.val →
        fld (t.reg (soSlot n.val i.val)) 28 4 = 0 := by
  refine ⟨_, chanDelOpen_eq hst hop now, ?_, ?_, fun q hq => openChan_term now hq, fun n i hsrc hch => ?_⟩
  · rw [openChan_chan]
  · rw [openChan_chan]
    exact hst
  · exact openChan_slot n.isLt i.isLt now (by simp [slotNames, hsrc, hch])

end Sys2Proof.Machine
end

section
/-! SUPPORT. The completion of a deletion (R56): what is free of the channel once its terminals are open. -/

namespace Sys2Proof.Machine

open Sys2Proof

/-- A fold of operations leaves what each of them on a listed number leaves. -/
theorem each_keep_mem {P : State → Prop} {f : Nat → State → State} {l : List Nat} (hf : ∀ i ∈ l, ∀ s, P s → P (f i s)) {s : State}
    (h : P s) : P (each l f s) := by
  induction l generalizing s with
  | nil => exact h
  | cons i l ih => exact ih (fun j hj => hf j (List.mem_cons_of_mem i hj)) (hf i List.mem_cons_self s h)

-- ---- the workspace and the bindings over the deletion
/-- The workspaces are `w` and the bindings are `b`. -/
structure Stands (w : Tab (BitVec 8)) (b : Tab Binding) (s : State) : Prop where
  ws : s.ws = w
  binds : s.binds = b

theorem Keeps.stands {L : List Part} (hw : L.contains .ws = false) (hb : L.contains .binds = false) (w : Tab (BitVec 8))
    (b : Tab Binding) : Keeps L (Stands w b) := by
  have hno {q : Prop} {p : Part} (hp : L.contains p = false) (h : L.contains p = true) : q := absurd (h.symm.trans hp) (by decide)
  constructor
  case power => exact fun hall => hno hw (hall .ws)
  case setWs => exact fun h => hno hw h
  case dropWs => exact fun h => hno hw h
  case binds => exact fun h => hno hb h
  all_goals intros; rename_i h; exact ⟨h.ws, h.binds⟩

/-- The bindings without those to a channel. -/
def goneBinds (ch : Nat) (b : Tab Binding) : Tab Binding := tdrop b (fun i => (tget Binding.none b i).chan == ch)

theorem Stands.dropBinds {w : Tab (BitVec 8)} {b : Tab Binding} {s : State} (h : Stands w b s) (ch : Nat) :
    Stands w (goneBinds ch b) { s with binds := goneBinds ch s.binds } :=
  ⟨h.ws, by rw [h.binds]⟩

theorem goneBinds_get {ch i : Nat} {b : Tab Binding} (h : (tget Binding.none b i).chan = ch) :
    tget Binding.none (goneBinds ch b) i = Binding.none := by
  rw [goneBinds, tget_tdrop, if_pos (by simpa using h)]

theorem deleteEnd_stands (ch : Nat) (s : State) : Stands (s.zeroWs ch).ws (goneBinds ch s.binds) (deleteEnd ch s) := by
  generalize hw : (s.zeroWs ch).ws = w
  have hP {L : List Part} {b : Tab Binding} (h1 : L.contains .ws = false) (h2 : L.contains .binds = false) : Keeps L (Stands w b) :=
    .stands h1 h2 w b
  unfold deleteEnd
  extract_lets c a s1 s2 names s3 s4 s5 s6 s7 s8 s9 s10 s11 s12 f s13
  have h1 : Stands w s.binds s1 := ⟨hw, rfl⟩
  have h2 : Stands w s.binds s2 := by
    refine each_keep (P := Stands w s.binds) _ _ (fun t u hu => ?_) h1
    extract_lets u1 u2 u3 u4
    have hu1 : Stands w s.binds u1 := setWide_keep (hP rfl rfl) _ _ (setWide_keep (hP rfl rfl) _ _ (setWide_keep (hP rfl rfl) _ _
      (setWide_keep (hP rfl rfl) _ _ hu)))
    have hu2 : Stands w s.binds u2 := updTerm_keep (hP rfl rfl) _ _ (fun _ => ⟨fun h1 h2 => ⟨h1, h2⟩⟩) hu1
    have hu4 : Stands w s.binds u4 := liveEnd_keep (hP rfl rfl) _ _ (setField_keep (hP rfl rfl) _ _ _ _ hu2)
    exact each_keep (P := Stands w s.binds) _ _ (fun o v hv => setReg_keep (hP rfl rfl) _ _ hv) (setReg_keep (hP rfl rfl) _ _ hu4)
  have h5 : Stands w s.binds s5 := signalVec_keep (hP rfl rfl) 10 _ (clearRegs_keep (hP rfl rfl) _
    (liveEnd_keep (hP rfl rfl) names s3 (updCol_keep (hP rfl rfl) _ h2)))
  have h6 : Stands w (goneBinds ch s.binds) s6 := h5.dropBinds ch
  have h7 : Stands w (goneBinds ch s.binds) s7 := each_keep (P := Stands w _) _ _ (fun n u hu => recount_keep (hP rfl rfl) n u hu) h6
  clear_value s7
  have h10 : Stands w (goneBinds ch s.binds) s10 := ⟨h7.ws, h7.binds⟩
  have h11 : Stands w (goneBinds ch s.binds) s11 := each_keep (P := Stands w _) _ _ (fun g u hu => updGate_keep (hP rfl rfl) _ _ hu) h10
  clear_value s11
  have h12 : Stands w (goneBinds ch s.binds) s12 := ⟨h11.ws, h11.binds⟩
  have h13 : Stands w (goneBinds ch s.binds) s13 := rejoinDone_keep (hP rfl rfl) f _
    (each_keep (P := Stands w _) _ _ (fun q u hu => setField_keep (hP rfl rfl) _ _ _ _ hu) h12)
  exact refreshGates_keep (hP rfl rfl) _ (finishObj_keep (hP rfl rfl) _ _ _ _ h13)

theorem freed_chan (ch : Nat) (s : State) : State.chan { s with chans := tset Chan.free s.chans ch Chan.free } ch = Chan.free :=
  tget_tset_self Chan.free Chan.free s.chans ch

theorem deleteEnd_chan (ch : Nat) (s : State) : (deleteEnd ch s).chan ch = Chan.free := by
  unfold deleteEnd
  extract_lets c a s1 s2 names s3 s4 s5 s6 s7 s8 s9 s10 s11 s12 f s13
  clear_value s11
  have h13 : Part.same .chans s12 s13 := rejoinDone_keep (.same (p := .chans) rfl s12) f _
    (each_keep (P := Part.same .chans s12) _ _ (fun q u hu => setField_keep (.same (p := .chans) rfl s12) _ _ _ _ hu)
      (Part.same_refl .chans s12))
  rw [refreshGates_chan, finishObj_chan, State.chan_of_same h13]
  exact freed_chan ch s11

-- ---- a workspace that is empty
/-- Every byte of the workspace of a channel is 0. -/
def WsEmpty (ch : Nat) (s : State) : Prop := ∀ off, off < 0x4000 → s.wsByte ch off = 0

theorem WsEmpty.of_same {ch : Nat} {s t : State} (h : WsEmpty ch s) (hs : t.ws = s.ws) : WsEmpty ch t := fun off hoff => by
  rw [State.wsByte, hs]
  exact h off hoff

theorem zeroWs_empty (ch : Nat) (s : State) : WsEmpty ch (s.zeroWs ch) := fun off hoff => by
  have hkey : wsKey ch off / 0x4000 = ch := by unfold wsKey; omega
  rw [State.wsByte, State.zeroWs, tget_tdrop, if_pos (by simp [hkey])]

/-- Zeros leave a workspace empty wherever they are written. -/
theorem putWs_empty {ch : Nat} {l : List (BitVec 8)} (hl : ∀ b ∈ l, b = 0) {s : State} (h : WsEmpty ch s) (j o : Nat) :
    WsEmpty ch (s.putWs j o l) := by
  induction l generalizing s o with
  | nil => exact h
  | cons b l ih =>
    refine ih (fun x hx => hl x (List.mem_cons_of_mem b hx)) (fun off hoff => ?_) (o + 1)
    rw [hl b List.mem_cons_self, State.wsByte, State.setWsByte, tget_tset]
    split
    · rfl
    · exact h off hoff

theorem bytes_none : ∀ b ∈ MState.none.bytes, b = 0 := by decide

-- ---- a channel that is free (R56, R319, R435)
theorem not_live_of_free {ch : Nat} {s : State} (h : s.chan ch = Chan.free) : ch ∉ s.liveChans := by
  simp [State.liveChans, h, Chan.live, Chan.free]

/-- The models are evaluated again without a free channel. -/
theorem evalModels_freed {ch : Nat} {s : State} (hf : s.chan ch = Chan.free) (hw : WsEmpty ch s) :
    (evalModels s).chan ch = Chan.free ∧ WsEmpty ch (evalModels s) := by
  unfold evalModels
  extract_lets all ok
  refine each_keep_mem (P := fun u : State => u.chan ch = Chan.free ∧ WsEmpty ch u) (fun j hj u hu => ?_) ⟨hf, hw⟩
  have hne : ch ≠ j := fun e => not_live_of_free hf (e ▸ hj)
  obtain ⟨hc, he⟩ := hu
  extract_lets v
  split
  · exact ⟨hc, he⟩
  · split
    · exact ⟨by simp [State.updMdl, hne, hc], he.of_same rfl⟩
    · have hput : (putMst j MState.none u).chan ch = Chan.free :=
        (State.chan_of_same (putMst_keep (.same (p := .chans) rfl u) j _ u rfl) ch).trans hc
      have hzero : WsEmpty ch (putMst j MState.none u) := putWs_empty bytes_none he j _
      generalize putMst j MState.none u = w at hput hzero ⊢
      exact ⟨by simp [State.updMdl, hne, hput], hzero.of_same rfl⟩

theorem loseStandby_chan_ne {ch j : Nat} (h : ch ≠ j) (s : State) : (loseStandby j s).chan ch = s.chan ch := by
  unfold loseStandby
  extract_lets was u
  have hu : u.chan ch = s.chan ch := by simp [u, State.updLease, h]
  split
  · exact hu
  · rw [State.chan_of_same (shdChan_keep (.same (p := .chans) rfl u) j 4 1 u rfl), hu]

theorem standbysOf_live {e j : Nat} {s : State} (h : j ∈ s.standbysOf e) : j ∈ s.liveChans :=
  (List.mem_filter.1 (List.mem_filter.1 h).1).1

/-- Retirements take nothing of a free channel. -/
theorem retireBroken_freed {ch : Nat} {s : State} (hf : s.chan ch = Chan.free) : (retireBroken s).chan ch = Chan.free := by
  refine each_keep (P := fun u : State => u.chan ch = Chan.free) _ _ (fun e u hu => ?_) hf
  split
  · exact hu
  · have hv : (retireEngine e u).chan ch = Chan.free :=
      (State.chan_of_same (retireEngine_keep (.same (p := .chans) rfl u) e u rfl) ch).trans hu
    refine each_keep_mem (P := fun u : State => u.chan ch = Chan.free) (fun j hj w hw => ?_) hv
    have hne : ch ≠ j := fun e => not_live_of_free hv (e ▸ standbysOf_live hj)
    rw [loseStandby_chan_ne hne]
    exact hw

-- ---- CHAN_DEL_COMPLETE (R56)
theorem chanDelComplete_does (ch : Fin 512) (s : State) : Does (.chanDelComplete ch) s fun t =>
    if (s.chan ch.val).st = .deleting ∧ (s.chan ch.val).opened = true then
      t.chan ch.val = Chan.free ∧ (∀ off, off < 0x4000 → t.wsByte ch.val off = 0) ∧
        ∀ i, (s.bind i).live = true → (s.bind i).chan = ch.val → t.bind i = Binding.none
    else t = s := by
  unfold Does
  change ∃ t, execChanDelComplete ch s = _ ∧ _
  unfold execChanDelComplete
  simp only [Bool.and_eq_true, beq_iff_eq]
  split
  next =>
    refine ⟨_, rfl, ?_⟩
    obtain ⟨hws, hbinds⟩ := deleteEnd_stands ch.val s
    have hfree := deleteEnd_chan ch.val s
    generalize deleteEnd ch.val s = u at hws hbinds hfree ⊢
    have hdrop {p : Part} (hp : [Part.images].contains p = false) : p.same u (dropImages u) :=
      dropImages_keep (.same hp u) u (Part.same_refl p u)
    obtain ⟨hc, hw⟩ := evalModels_freed (s := dropImages u) ((State.chan_of_same (hdrop (p := .chans) rfl) _).trans hfree)
      (((zeroWs_empty ch.val s).of_same hws).of_same (hdrop (p := .ws) rfl))
    have hb : (evalModels (dropImages u)).binds = u.binds := evalModels_keep (.same (p := .binds) rfl u) _ (hdrop (p := .binds) rfl)
    generalize evalModels (dropImages u) = v at hc hw hb ⊢
    have hkeep {p : Part} (hp : [Part.regs, .chans, .health, .runs, .col, .host, .nv].contains p = false) : p.same v (retireBroken v) :=
      retireBroken_keep (.same hp v) v (Part.same_refl p v)
    refine ⟨retireBroken_freed hc, hw.of_same (hkeep (p := .ws) rfl), fun i _ hi => ?_⟩
    rw [State.bind, show (retireBroken v).binds = v.binds from hkeep (p := .binds) rfl, hb, hbinds]
    exact goneBinds_get hi
  next => exact ⟨s, rfl, rfl⟩

/-- Settles O19: an admission moves other rings only, a deletion advances the generations of its own handles once and empties its
workspace with zeros, and no later operation of the completion finds the freed channel among the live ones. -/
theorem channelsAreAdmittedWholeAndDeletedInSteps : Obligations.ChannelsAreAdmittedWholeAndDeletedInSteps := by
  unfold Obligations.ChannelsAreAdmittedWholeAndDeletedInSteps
  exact ⟨chanNew_does, chanDel_does, chanDelOpen_does, chanDelComplete_does⟩

end Sys2Proof.Machine
end

section
/-! SUPPORT. The words and the port that the operations of an input port leave, and the writes to the port registers (R105, R107). -/

namespace Sys2Proof.Machine

open Sys2Proof

-- ---- several reports from one event register
/-- The event bit that a report names. -/
theorem mkRep_bit {bit : Nat} (hb : bit < 16) (src sel cls okind obj : Nat) : (mkRep src sel bit cls okind obj).cause % 16 = bit := by
  simp only [mkRep]
  omega

/-- A row of reports from one event register leaves every other word. -/
theorem each_raise_reg {a b : Nat} (hb : b ≠ a) (r : Nat → Report) (l : List Nat) (s : State) :
    (each l (fun c s => raise a (r c) s) s).reg b = s.reg b :=
  each_same (fun t => t.reg b) (fun c t => by rw [raise_reg, if_neg hb]) l s

theorem bitOf_raise_keep {a bit : Nat} (r : Report) {s : State} (h : bitOf (s.reg a) bit = true) : bitOf ((raise a r s).reg a) bit = true := by
  simp [h]

theorem bitOf_raise {a bit : Nat} {r : Report} (hr : r.cause % 16 = bit) (s : State) : bitOf ((raise a r s).reg a) bit = true := by
  simp [hr]
  omega

/-- The first of a row of reports with one event bit sets it. -/
theorem each_raise_sets {a bit : Nat} {r : Nat → Report} (hr : ∀ c, (r c).cause % 16 = bit) {l : List Nat} (hl : l ≠ []) (s : State) :
    bitOf ((each l (fun c s => raise a (r c) s) s).reg a) bit = true := by
  obtain ⟨c, l, rfl⟩ := List.exists_cons_of_ne_nil hl
  refine each_keep (P := fun t : State => bitOf (t.reg a) bit = true) l _ (fun c t ht => bitOf_raise_keep (r c) ht) ?_
  exact bitOf_raise (hr c) s

theorem each_raise_ports (a : Nat) (r : Nat → Report) (l : List Nat) (s : State) :
    (each l (fun c s => raise a (r c) s) s).ports = s.ports :=
  each_same State.ports (fun c t => raise_ports a (r c) t) l s

theorem State.port_of_same {s t : State} (h : Part.same .ports s t) (n : Nat) : t.port n = s.port n := by
  unfold State.port
  rw [show t.ports = s.ports from h]

-- ---- events of a port (R97, R105)
theorem portEvt_reg {bit : Nat} (hb : bit < 16) (n obj : Nat) (s : State) (a : Nat) :
    (portEvt n bit obj s).reg a = if a = spEvt n then setBit (s.reg (spEvt n)) bit else s.reg a := by
  rw [portEvt, raise_reg, mkRep_bit hb]

theorem portEvtBound_reg {bit : Nat} (hb : bit < 16) (n : Nat) (s : State) (a : Nat) :
    (portEvtBound n bit s).reg a = if a = spEvt n then setBit (s.reg (spEvt n)) bit else s.reg a := by
  rw [portEvtBound, raise_reg, mkRep_bit hb]

@[simp] theorem portEvt_port (n bit obj : Nat) (s : State) (j : Nat) : (portEvt n bit obj s).port j = s.port j := by simp [portEvt]
@[simp] theorem portEvtBound_port (n bit : Nat) (s : State) (j : Nat) : (portEvtBound n bit s).port j = s.port j := by simp [portEvtBound]

/-- An ignored write sets CFG_IGNORED and leaves every other word. -/
theorem portIgnored_reg (n : Nat) (s : State) (a : Nat) :
    (portIgnored n s).reg a = if a = spEvt n then setBit (s.reg (spEvt n)) 8 else s.reg a := by
  rw [portIgnored, raise_reg, mkRep_bit (by decide)]

theorem portIgnored_sets (n : Nat) (s : State) : bitOf ((portIgnored n s).reg (spEvt n)) 8 = true := by
  simp [portIgnored_reg]

-- ---- the words of a port that loses lock or goes off (R91, R93, R95)
@[simp] theorem recount_reg (n : Nat) (s : State) (a : Nat) : (recount n s).reg a = s.reg a :=
  State.reg_of_same (recount_keep (.same (p := .regs) rfl s) n s rfl) a

@[simp] theorem toAcquire_reg (n : Nat) (s : State) (a : Nat) : (toAcquire n s).reg a = s.reg a := rfl

theorem dropSealBuf_reg {n a : Nat} (ha : a ≠ sealCnt n 2) (s : State) : (dropSealBuf n s).reg a = s.reg a := by
  simp [dropSealBuf, ha]

theorem sourceLost_reg {a : Nat} (ha : a ≠ fcEvt) (s : State) : (sourceLost s).reg a = s.reg a := by
  unfold sourceLost
  extract_lets e u
  have hu : (bellEvt 1 u).reg a = s.reg a := by simp [bellEvt, ha, u]
  exact ite_keep (Q := fun t : State => t.reg a = s.reg a) rfl hu

theorem portLeft_reg {a : Nat} (ha : a ≠ fcEvt) (n : Nat) (s : State) : (portLeft n s).reg a = s.reg a :=
  ite_keep (Q := fun t : State => t.reg a = s.reg a) (sourceLost_reg ha s) rfl

@[simp] theorem portLeft_port (n : Nat) (s : State) (j : Nat) : (portLeft n s).port j = s.port j :=
  State.port_of_same (portLeft_keep (.same (p := .ports) rfl s) n s rfl) j

/-- What the loss of lock does to a port that has it (R95). -/
def lockLost (n : Nat) (s : State) : State := portLeft n (toAcquire n (dropSealBuf n (portEvtBound n 0 (s.bump (spCnt n 5)))))

theorem loseLock_locked {n : Nat} {s : State} (h : (s.port n).st = .locked ∨ (s.port n).st = .rateHold) : loseLock n s = lockLost n s := by
  unfold loseLock
  rcases h with h | h <;> rw [h] <;> rfl

theorem loseLock_unlocked {n : Nat} {s : State} (h : ¬((s.port n).st = .locked ∨ (s.port n).st = .rateHold)) : loseLock n s = s := by
  unfold loseLock
  split
  next hst => exact absurd (.inl hst) h
  next hst => exact absurd (.inr hst) h
  next => rfl

/-- The loss of lock sets LOSS_OF_LOCK, counts it, and may change SEAL_DISC and the Bellwether's events; every other word stands. -/
theorem lockLost_reg {n a : Nat} (hs : a ≠ sealCnt n 2) (hf : a ≠ fcEvt) (s : State) : (lockLost n s).reg a =
    if a = spEvt n then setBit (s.reg (spEvt n)) 0 else if a = spCnt n 5 then s.reg a + 1 else s.reg a := by
  have hne : spEvt n ≠ spCnt n 5 := by unfold spEvt spCnt; omega
  rw [lockLost, portLeft_reg hf, toAcquire_reg, dropSealBuf_reg hs, portEvtBound_reg (by decide)]
  by_cases ha : a = spCnt n 5 <;> simp [hne, ha]

/-- The port goes to ACQUIRE with its recovered clock as it was. -/
theorem lockLost_port (n : Nat) (s : State) :
    ((lockLost n s).port n).st = .acquire ∧ ((lockLost n s).port n).sclkOk = (s.port n).sclkOk := by
  simp [lockLost, toAcquire, dropSealBuf]

/-- SP_CTRL stands when its port goes off. -/
theorem portOff_spCtrl {n : Nat} (hn : n < 16) (s : State) : (portOff n s).reg (spCtrl n) = s.reg (spCtrl n) := by
  have hseal : spCtrl n ≠ sealCnt n 2 := by unfold spCtrl sealCnt; omega
  have hfc : spCtrl n ≠ fcEvt := by unfold spCtrl aPort fcEvt aFc; omega
  have hevt : spCtrl n ≠ spEvt n := by unfold spCtrl spEvt; omega
  have hcnt : spCtrl n ≠ spCnt n 5 := by unfold spCtrl spCnt; omega
  have hlose : (loseLock n s).reg (spCtrl n) = s.reg (spCtrl n) := by
    by_cases h : (s.port n).st = .locked ∨ (s.port n).st = .rateHold
    · rw [loseLock_locked h, lockLost_reg hseal hfc, if_neg hevt, if_neg hcnt]
    · rw [loseLock_unlocked h]
  unfold portOff
  simp only [State.updPort_eq, State.setPort_at_reg, toAcquire_reg, dropSealBuf_reg hseal, hlose]

-- ---- SP_CTRL (R105)
/-- What a write of `v` makes of SP_CTRL: SEAL is kept, the reserved bits read 0. -/
abbrev spCtrlNew (old v : W) : W := (old &&& 0x0C00) ||| (v &&& 0x0333)

/-- A write that would change a locked field of an enabled port, or take it from under an armed channel. -/
abbrev State.spCtrlRefuses (s : State) (n : Nat) (v : W) : Prop :=
  bitOf (s.reg (spCtrl n)) 0 = true ∧ ((s.reg (spCtrl n) &&& 0x0332) ≠ (spCtrlNew (s.reg (spCtrl n)) v &&& 0x0332) ∨
    (bitOf (spCtrlNew (s.reg (spCtrl n)) v) 0 = false ∧ s.armedAtPort n ≠ []))

theorem spCtrlWrite_ignored {n : Fin 16} {v : W} {s : State} (h : s.spCtrlRefuses n.val v) :
    exec (.spCtrlWrite n v) s = .next (portIgnored n.val s) := by
  change execSpCtrlWrite n v s = _
  unfold execSpCtrlWrite
  extract_lets a old new en
  change en = true ∧ ((old &&& 0x0332) ≠ (new &&& 0x0332) ∨ (bitOf new 0 = false ∧ s.armedAtPort n.val ≠ [])) at h
  obtain ⟨hen, hch | ⟨hoff, harm⟩⟩ := h
  · rw [if_pos (by simpa [hen] using hch)]
  · simp [hen, hoff, harm]

theorem spCtrlWrite_taken {n : Fin 16} {v : W} {s : State} (h : ¬s.spCtrlRefuses n.val v) :
    Does (.spCtrlWrite n v) s fun t => t.reg (spCtrl n.val) = spCtrlNew (s.reg (spCtrl n.val)) v := by
  change ∃ t, execSpCtrlWrite n v s = _ ∧ _
  unfold execSpCtrlWrite
  extract_lets a old new en u w
  change ¬(en = true ∧ ((old &&& 0x0332) ≠ (new &&& 0x0332) ∨ (bitOf new 0 = false ∧ s.armedAtPort n.val ≠ []))) at h
  have hset : (s.setReg a new).reg a = new := by simp
  have hu : u.reg a = new := (recount_reg _ _ _).trans hset
  have hblk : a ≠ spBlkcnt n.val := by unfold a spCtrl spBlkcnt; omega
  have hw : w.reg a = new := by simp [w, hblk, hu]
  split
  next hc =>
    obtain ⟨hen, hch⟩ : en = true ∧ (old &&& 0x0332) ≠ (new &&& 0x0332) := by simpa using hc
    exact absurd ⟨hen, .inl hch⟩ h
  next =>
    split
    next hc =>
      obtain ⟨⟨hen, hoff⟩, harm⟩ : (en = true ∧ bitOf new 0 = false) ∧ s.armedAtPort n.val ≠ [] := by simpa using hc
      exact absurd ⟨hen, .inr ⟨hoff, harm⟩⟩ h
    next =>
      split
      · exact ⟨_, rfl, (recount_reg _ _ _).trans ((portOff_spCtrl n.isLt _).trans hset)⟩
      · split
        · split
          · exact ⟨_, rfl, hw⟩
          · exact ⟨_, rfl, hw⟩
        · exact ⟨_, rfl, hu⟩

theorem spCtrlWrite_does (n : Fin 16) (v : W) (s : State) : Does (.spCtrlWrite n v) s fun t =>
    let old := s.reg (spCtrl n.val)
    let new := (old &&& 0x0C00) ||| (v &&& 0x0333)
    if bitOf old 0 = true ∧ ((old &&& 0x0332) ≠ (new &&& 0x0332) ∨ (bitOf new 0 = false ∧ s.armedAtPort n.val ≠ [])) then
      t.reg (spCtrl n.val) = old ∧ bitOf (t.reg (spEvt n.val)) 8 = true
    else t.reg (spCtrl n.val) = new := by
  by_cases h : s.spCtrlRefuses n.val v
  · have hne : spCtrl n.val ≠ spEvt n.val := by unfold spCtrl spEvt; omega
    refine ⟨_, spCtrlWrite_ignored h, ?_⟩
    dsimp only
    rw [if_pos h, portIgnored_reg, if_neg hne]
    exact ⟨rfl, portIgnored_sets _ _⟩
  · obtain ⟨t, hx, ht⟩ := spCtrlWrite_taken h
    refine ⟨t, hx, ?_⟩
    dsimp only
    rw [if_neg h]
    exact ht

-- ---- SP_KINDMAP, SO_CTRL and SO_SLOT (R105, R107)
theorem spKindmapWrite_does (n : Fin 16) (i : Fin 2) (v : W) (s : State) : Does (.spKindmapWrite n i v) s fun t =>
    if s.spEnable n.val = true ∧ s.reg (spKindmap n.val i.val) ≠ v then
      t.reg (spKindmap n.val i.val) = s.reg (spKindmap n.val i.val) ∧ bitOf (t.reg (spEvt n.val)) 8 = true
    else t.reg (spKindmap n.val i.val) = v := by
  change ∃ t, execSpKindmapWrite n i v s = _ ∧ _
  have hne : spKindmap n.val i.val ≠ spEvt n.val := by unfold spKindmap spEvt; omega
  unfold execSpKindmapWrite
  by_cases h : s.spEnable n.val = true ∧ s.reg (spKindmap n.val i.val) ≠ v
  · refine ⟨portIgnored n.val s, by simp [h], ?_⟩
    rw [if_pos h, portIgnored_reg, if_neg hne]
    exact ⟨rfl, portIgnored_sets _ _⟩
  · refine ⟨recount n.val (s.setReg (spKindmap n.val i.val) v), ?_, ?_⟩
    · exact if_neg (by simpa using h)
    · rw [if_neg h, recount_reg]
      simp

theorem soCtrlWrite_does (n : Fin 4) (v : W) (s : State) : Does (.soCtrlWrite n v) s fun t =>
    t.reg (soCtrl n.val) =
      if bitOf (s.reg (soCtrl n.val)) 0 = true ∧ (s.reg (soCtrl n.val) &&& 0x0312) ≠ (v &&& 0x0313 &&& 0x0312)
      then s.reg (soCtrl n.val) else v &&& 0x0313 := by
  change ∃ t, execSoCtrlWrite n v s = _ ∧ _
  unfold execSoCtrlWrite
  extract_lets a old new u on w
  have hstat : a ≠ soStat n.val := by unfold a soCtrl soStat; omega
  have hu : u.reg a = new := by simp [u]
  have hw : w.reg a = new := ite_keep (Q := fun t : State => t.reg a = new) hu (by simp [hstat, hu])
  change ∃ t : State, _ ∧ t.reg a = if bitOf old 0 = true ∧ (old &&& 0x0312) ≠ (new &&& 0x0312) then old else new
  split
  next hc => exact ⟨s, rfl, (if_pos (by simpa using hc)).symm⟩
  next hc =>
    have hnew : w.reg a = if bitOf old 0 = true ∧ (old &&& 0x0312) ≠ (new &&& 0x0312) then old else new := by
      rw [if_neg (by simpa using hc), hw]
    split
    · exact ⟨_, rfl, hnew⟩
    · exact ⟨_, rfl, hnew⟩

theorem soSlotWrite_does (n : Fin 4) (sl : Fin 32) (v : W) (s : State) : Does (.soSlotWrite n sl v) s fun t =>
    tget none (t.out n.val).slotPend sl.val = some (v &&& 0xFFFF0F00) ∧ (t.out n.val).latched = (s.out n.val).latched ∧
      (t.out n.val).sent = (s.out n.val).sent ∧ ∀ a, t.reg a = s.reg a := by
  refine ⟨_, rfl, ?_⟩
  simp

/-- Settles O9: each clause is the lemma of its row; a write is refused (`State.spCtrlRefuses`) or taken, and what follows a write that
is taken leaves its word alone. -/
theorem portRegisterWritesObeyTheLocks : Obligations.PortRegisterWritesObeyTheLocks := by
  unfold Obligations.PortRegisterWritesObeyTheLocks
  exact ⟨spCtrlWrite_does, spKindmapWrite_does, soCtrlWrite_does, soSlotWrite_does⟩

end Sys2Proof.Machine
end

section
/-! SUPPORT. How a port gains and leaves its states with the line (R89, R93, R95, R40, R70). -/

namespace Sys2Proof.Machine

open Sys2Proof

-- ---- a frame that a port hears (R89, R93)
/-- A frame on a port in use with its clock and a rate within its level is heard: NRX and the lengths of R96 take it in. -/
def frameHeard (n : Nat) (f : LineFrame) (s : State) : State :=
  s.updPort n (fun p => { p with nrx := if s.spWide n then nrxOf f.subs.length else 0, lens := (f.len.toNat :: p.lens).take 256 })

theorem frameHeard_reg (n : Nat) (f : LineFrame) (s : State) (a : Nat) : (frameHeard n f s).reg a = s.reg a := rfl

theorem frameHeard_st (n : Nat) (f : LineFrame) (s : State) : ((frameHeard n f s).port n).st = (s.port n).st := by simp [frameHeard]

theorem toAcquire_st (n : Nat) (s : State) : ((toAcquire n s).port n).st = .acquire := by simp [toAcquire]

theorem framingErr_reg (n : Nat) (s : State) (a : Nat) : (framingErr n true s).reg a =
    if a = spEvt n then setBit (s.reg (spEvt n)) 1 else if a = spCnt n 4 then s.reg a + 1 else s.reg a := by
  have hne : spEvt n ≠ spCnt n 4 := by unfold spEvt spCnt; omega
  rw [framingErr, portEvt_reg (by decide), if_pos rfl]
  by_cases ha : a = spCnt n 4 <;> simp [hne, ha]

section
variable {n : Fin 16} {f : LineFrame} {s : State}

/-- In ACQUIRE a bad frame starts the count again and the third whole one in a row ends it. -/
theorem streamFrame_acquire (hst : (s.port n.val).st = .acquire) (hclk : (s.port n.val).sclkOk = true)
    (hin : s.lineInRange n.val f = true) : exec (.streamFrame n f) s = .next ((frameHeard n.val f s).updPort n.val fun p =>
      let g := if s.framingBad n.val f then 0 else p.goodPre + 1
      { p with goodPre := if g ≥ 3 then 0 else g, st := if g ≥ 3 then .frame else .acquire }) := by
  change execStreamFrame n f s = _
  simp [execStreamFrame, streamFrame, frameHeard, hst, hclk, hin]

theorem streamFrame_frame_bad (hst : (s.port n.val).st = .frame) (hclk : (s.port n.val).sclkOk = true)
    (hin : s.lineInRange n.val f = true) (hbad : s.framingBad n.val f = true) :
    exec (.streamFrame n f) s = .next (toAcquire n.val (framingErr n.val true (frameHeard n.val f s))) := by
  change execStreamFrame n f s = _
  simp [execStreamFrame, streamFrame, frameHeard, hst, hclk, hin, hbad]

/-- In FRAME a whole frame with Z starts a block, whatever seal settings come in force with it. -/
theorem streamFrame_frame_z (hst : (s.port n.val).st = .frame) (hclk : (s.port n.val).sclkOk = true)
    (hin : s.lineInRange n.val f = true) (hbad : s.framingBad n.val f = false) (hz : firstPre f = some .z) :
    ∃ u : State, exec (.streamFrame n f) s = .next (u.updPort n.val fun p => { blockFrame 0 false f p with st := .block }) := by
  change ∃ u : State, execStreamFrame n f s = _
  refine ⟨if (frameHeard n.val f s).sealStarts n.val f then applySeal n.val (frameHeard n.val f s) else frameHeard n.val f s, ?_⟩
  simp [execStreamFrame, streamFrame, frameHeard, hst, hclk, hin, hbad, hz]

theorem streamFrame_frame_whole (hst : (s.port n.val).st = .frame) (hclk : (s.port n.val).sclkOk = true)
    (hin : s.lineInRange n.val f = true) (hbad : s.framingBad n.val f = false) (hz : firstPre f ≠ some .z) :
    exec (.streamFrame n f) s = .next (frameHeard n.val f s) := by
  change execStreamFrame n f s = _
  simp [execStreamFrame, streamFrame, frameHeard, hst, hclk, hin, hbad, hz]

end

theorem streamFrame_counts (n : Fin 16) (f : LineFrame) (s : State) (hst : (s.port n.val).st = .acquire)
    (hclk : (s.port n.val).sclkOk = true) (hin : s.lineInRange n.val f = true) : Does (.streamFrame n f) s fun t =>
      if s.framingBad n.val f = true then (t.port n.val).st = .acquire ∧ (t.port n.val).goodPre = 0
      else if (s.port n.val).goodPre + 1 ≥ 3 then (t.port n.val).st = .frame
      else (t.port n.val).st = .acquire ∧ (t.port n.val).goodPre = (s.port n.val).goodPre + 1 := by
  refine ⟨_, streamFrame_acquire hst hclk hin, ?_⟩
  have hgood : ((frameHeard n.val f s).port n.val).goodPre = (s.port n.val).goodPre := by simp [frameHeard]
  simp only [State.updPort_eq, State.setPort_read, if_true, hgood]
  by_cases hbad : s.framingBad n.val f = true
  · simp [hbad]
  · by_cases h3 : (s.port n.val).goodPre + 1 ≥ 3
    · simp only [if_neg hbad, if_pos h3]
    · simp only [if_neg hbad, if_neg h3, and_self]

theorem streamFrame_aligns (n : Fin 16) (f : LineFrame) (s : State) (hst : (s.port n.val).st = .frame)
    (hclk : (s.port n.val).sclkOk = true) (hin : s.lineInRange n.val f = true) : Does (.streamFrame n f) s fun t =>
      if s.framingBad n.val f = true then (t.port n.val).st = .acquire ∧ bitOf (t.reg (spEvt n.val)) 1 = true ∧
        t.reg (spCnt n.val 4) = s.reg (spCnt n.val 4) + 1
      else (t.port n.val).st = if firstPre f = some .z then .block else .frame := by
  by_cases hbad : s.framingBad n.val f = true
  · have hne : spCnt n.val 4 ≠ spEvt n.val := by unfold spEvt spCnt; omega
    refine ⟨_, streamFrame_frame_bad hst hclk hin hbad, ?_⟩
    simp only [if_pos hbad]
    simp [toAcquire_st, framingErr_reg, frameHeard_reg, hne]
  · have hwhole : s.framingBad n.val f = false := Bool.eq_false_iff.2 hbad
    simp only [if_neg hbad]
    by_cases hz : firstPre f = some .z
    · obtain ⟨u, hu⟩ := streamFrame_frame_z hst hclk hin hwhole hz
      exact ⟨_, hu, by simp [hz]⟩
    · exact ⟨_, streamFrame_frame_whole hst hclk hin hwhole hz, by simp only [if_neg hz, frameHeard_st, hst]⟩

-- ---- the line or its clock is lost, and comes (R40, R70, R95)
theorem lineGone_locked {n : Nat} {s : State} (h : (s.port n).st = .locked ∨ (s.port n).st = .rateHold) :
    lineGone n s = lockLost n (s.updPort n (fun p => { p with sclkOk := false, lens := [], nrx := 0 })) := by
  unfold lineGone
  extract_lets u
  have hu : (u.port n).st = (s.port n).st := by simp [u]
  rw [← hu] at h
  rw [← loseLock_locked h]
  rcases h with h | h <;> rw [h]

theorem lineGone_unlocks {n : Nat} (hn : n < 16) {s : State} (h : (s.port n).st = .locked ∨ (s.port n).st = .rateHold) :
    ((lineGone n s).port n).st = .acquire ∧ ((lineGone n s).port n).sclkOk = false ∧
      bitOf ((lineGone n s).reg (spEvt n)) 0 = true ∧ (lineGone n s).reg (spCnt n 5) = s.reg (spCnt n 5) + 1 ∧
      ((lineGone n s).port n).rate = 0 := by
  rw [lineGone_locked h]
  generalize hu : s.updPort n (fun p => { p with sclkOk := false, lens := [], nrx := 0 }) = u
  obtain ⟨hst, hclk⟩ := lockLost_port n u
  have hevt : spEvt n ≠ sealCnt n 2 ∧ spEvt n ≠ fcEvt := by unfold spEvt sealCnt aPort fcEvt aFc; omega
  have hcnt : spCnt n 5 ≠ sealCnt n 2 ∧ spCnt n 5 ≠ fcEvt ∧ spCnt n 5 ≠ spEvt n := by
    unfold spCnt spEvt sealCnt aPort fcEvt aFc; omega
  refine ⟨hst, ?_, ?_, ?_, by rw [Port.rate, hst]⟩
  · rw [hclk, ← hu]
    simp
  · simp [lockLost_reg hevt.1 hevt.2]
  · rw [lockLost_reg hcnt.1 hcnt.2.1, if_neg hcnt.2.2, if_pos rfl, ← hu]
    rfl

theorem portStayTimeout_does (n : Fin 16) (s : State) : Does (.portStayTimeout n) s fun t =>
    (t.port n.val).st = if (s.port n.val).st = .frame ∨ (s.port n.val).st = .block then .acquire else (s.port n.val).st := by
  change ∃ t, execPortStayTimeout n s = _ ∧ _
  unfold execPortStayTimeout
  cases hst : (s.port n.val).st with
  | acquire | frame | block => exact ⟨_, rfl, by simp [toAcquire_st]⟩
  | off | locked | rateHold => exact ⟨_, rfl, by simp [hst]⟩

theorem lineSignalPresent_does (n : Fin 16) (s : State) (hst : (s.port n.val).st ≠ .off)
    (hbr : s.col.broken.contains (srcPort n.val) = false) : Does (.lineSignalPresent n) s fun t =>
      (t.port n.val).sclkOk = true ∧ (t.port n.val).st = (s.port n.val).st := by
  change ∃ t, execLineSignalPresent n s = _ ∧ _
  unfold execLineSignalPresent
  rw [if_neg (by simpa [hst] using hbr)]
  exact ⟨_, rfl, by simp⟩

/-- Settles O10: a frame is heard and then acts by the state of the port; a line that goes is the loss of lock (`lockLost`). -/
theorem portLockFollowsTheLine : Obligations.PortLockFollowsTheLine := by
  unfold Obligations.PortLockFollowsTheLine
  refine ⟨streamFrame_counts, streamFrame_aligns, fun n s h c hc => ?_, portStayTimeout_does, lineSignalPresent_does⟩
  have hx : exec c s = .next (lineGone n.val s) := by
    rcases List.mem_pair.1 hc with rfl | rfl <;> rfl
  exact ⟨_, hx, lineGone_unlocks n.isLt h⟩

end Sys2Proof.Machine
end

section
/-! SUPPORT. The limit of RUN, the verdict on a sealed block, and the clock of an output port (R92, R471 to R473, R40, R107). -/

namespace Sys2Proof.Machine

open Sys2Proof

-- ---- RUN_LIMIT (R92)
theorem slotEvt_sets {bit : Nat} (hb : bit < 16) (n sl : Nat) (l : List Nat) (s : State) :
    bitOf ((slotEvt n bit sl l s).reg (spEvt n)) bit = true := by
  unfold slotEvt
  split
  · exact bitOf_raise (mkRep_bit hb ..) s
  next hl => exact each_raise_sets (fun _ => mkRep_bit hb ..) hl _

theorem runLimit_reports {n : Fin 16} {sl : Fin 32} {s : State}
    (hrun : (tget SlotSt.none (s.port n.val).slots sl.val).run > max 1 (s.regField (spLimit n.val) 0 16))
    (hlim : (tget SlotSt.none (s.port n.val).slots sl.val).limHit = false) : exec (.runLimit n sl) s =
      .next (forL (runReps n.val sl.val s) holdLive (slotEvt n.val 5 sl.val (s.armedAtSlot n.val sl.val) (s.updPort n.val fun p =>
        { p with slots := tupd SlotSt.none p.slots sl.val fun x => { x with limHit := true } }))) := by
  change execRunLimit n sl s = _
  simp only [execRunLimit, hlim, hrun, decide_true, Bool.not_false, Bool.and_self, if_true]

/-- A slot that is marked reports nothing more. -/
theorem runLimit_marked {n : Fin 16} {sl : Fin 32} {s : State} (h : (tget SlotSt.none (s.port n.val).slots sl.val).limHit = true) :
    exec (.runLimit n sl) s = .next s := by
  change execRunLimit n sl s = _
  simp [execRunLimit, h]

theorem runLimit_does (n : Fin 16) (sl : Fin 32) (s : State)
    (hrun : (tget SlotSt.none (s.port n.val).slots sl.val).run > max 1 (s.regField (spLimit n.val) 0 16))
    (hlim : (tget SlotSt.none (s.port n.val).slots sl.val).limHit = false) : Does (.runLimit n sl) s fun t =>
      (tget SlotSt.none (t.port n.val).slots sl.val).limHit = true ∧ bitOf (t.reg (spEvt n.val)) 5 = true ∧
        exec (.runLimit n sl) t = .next t := by
  refine ⟨_, runLimit_reports hrun hlim, ?_⟩
  generalize hu : s.updPort n.val (fun p => { p with slots := tupd SlotSt.none p.slots sl.val fun x => { x with limHit := true } }) = u
  generalize hv : slotEvt n.val 5 sl.val (s.armedAtSlot n.val sl.val) u = v
  have hmark : (tget SlotSt.none (u.port n.val).slots sl.val).limHit = true := by simp [← hu, tupd]
  have hevt : bitOf (v.reg (spEvt n.val)) 5 = true := hv ▸ slotEvt_sets (by decide) n.val sl.val _ u
  have huv : Part.same .ports u v := hv ▸ slotEvt_keep (.same (p := .ports) rfl u) n.val 5 sl.val _ u rfl
  have hlive {p : Part} (hp : [Part.col].contains p = false) : p.same v (forL (runReps n.val sl.val s) holdLive v) :=
    forL_keep _ _ (fun r t ht => holdLive_keep (.same hp v) r t ht) (p.same_refl v)
  have ht : (tget SlotSt.none ((forL (runReps n.val sl.val s) holdLive v).port n.val).slots sl.val).limHit = true := by
    rw [State.port_of_same (hlive (p := .ports) rfl), State.port_of_same huv, hmark]
  exact ⟨ht, by rw [State.reg_of_same (hlive (p := .regs) rfl), hevt], runLimit_marked ht⟩

-- ---- the verdict on a block (R471 to R473)
theorem sealBits_reg {n a : Nat} (ha : a ≠ sealEvt n) (l : List Nat) (s : State) : (sealBits n l s).reg a = s.reg a :=
  foldl_same (fun t : State => t.reg a) _ (fun t b => by rw [setEvt_reg, if_neg ha]) l s

@[simp] theorem sealBits_port (n : Nat) (l : List Nat) (s : State) (j : Nat) : (sealBits n l s).port j = s.port j :=
  State.port_of_same (sealBits_keep (.same (p := .ports) rfl s) n l s rfl) j

@[simp] theorem gatesLowOnPort_reg (n : Nat) (s : State) (a : Nat) : (gatesLowOnPort n s).reg a = s.reg a :=
  State.reg_of_same (gatesLowOnPort_keep (.same (p := .regs) rfl s) n s rfl) a

theorem seqErr_reg {n a : Nat} (he : a ≠ spEvt n) (hc : a ≠ spCnt n 6) (s : State) : (seqErr n s).reg a = s.reg a := by
  rw [seqErr, portEvt_reg (by decide), if_neg he]
  simp [hc]

@[simp] theorem seqErr_port (n : Nat) (s : State) (j : Nat) : (seqErr n s).port j = s.port j := by simp [seqErr]

/-- A block that R471 verifies: its tag, its stream, an epoch that has not gone back, and a SEQ that is new. -/
abbrev State.sealHolds (s : State) (n : Nat) (b : SealInfo) : Prop :=
  s.spWide n = true ∧ sealTag (s.port n).sealKey b = b.tag ∧ b.streamId = (s.port n).sealSet.streamId ∧ (s.port n).epoch ≤ b.epoch ∧
    (s.port n).sealSet.epochMin ≤ b.epoch ∧ (b.epoch = (s.port n).epoch → ∀ q, (s.port n).lastSeq = some q → q < b.seq)

/-- What a verified block leaves at its port: nothing awaited, its epoch and SEQ held, the accepted count one up. -/
structure SealPassed (n : Nat) (b : SealInfo) (s t : State) : Prop where
  blk : (t.port n).sealBlk = none
  epoch : (t.port n).epoch = b.epoch
  seq : (t.port n).lastSeq = some b.seq
  good : t.reg (sealCnt n 0) = s.reg (sealCnt n 0) + 1
  bad : t.reg (sealCnt n 1) = s.reg (sealCnt n 1)

/-- What a block that fails leaves at its port: nothing awaited, the epoch and SEQ of before, the failed count one up. -/
structure SealCounted (n : Nat) (s t : State) : Prop where
  blk : (t.port n).sealBlk = none
  epoch : (t.port n).epoch = (s.port n).epoch
  seq : (t.port n).lastSeq = (s.port n).lastSeq
  bad : t.reg (sealCnt n 1) = s.reg (sealCnt n 1) + 1

theorem sealCnt_ne_sealEvt (n i : Nat) : sealCnt n i ≠ sealEvt n := by unfold sealCnt sealEvt; omega

section
variable {n : Nat} {s t : State}

theorem SealCounted.of_same (h : SealCounted n s t) {u : State} (hp : u.ports = t.ports)
    (hr : u.reg (sealCnt n 1) = t.reg (sealCnt n 1)) : SealCounted n s u := by
  have hport : u.port n = t.port n := State.port_of_same (s := t) hp n
  obtain ⟨hblk, hepoch, hseq, hbad⟩ := h
  exact ⟨by rw [hport, hblk], by rw [hport, hepoch], by rw [hport, hseq], by rw [hr, hbad]⟩

/-- The seal buffer may be emptied after the count. -/
theorem SealCounted.updPort (h : SealCounted n s t) {f : Port → Port} (hb : ∀ p, (f p).sealBlk = p.sealBlk)
    (he : ∀ p, (f p).epoch = p.epoch) (hs : ∀ p, (f p).lastSeq = p.lastSeq) : SealCounted n s (t.updPort n f) := by
  have hport : (t.updPort n f).port n = f (t.port n) := by simp
  obtain ⟨hblk, hepoch, hseq, hbad⟩ := h
  exact ⟨by rw [hport, hb, hblk], by rw [hport, he, hepoch], by rw [hport, hs, hseq], hbad⟩

theorem SealCounted.discard (h : SealCounted n s t) (k : Nat) : SealCounted n s (t.addReg (sealCnt n 2) k) := by
  have hne : sealCnt n 1 ≠ sealCnt n 2 := by unfold sealCnt; omega
  exact h.of_same (by simp) (by simp [hne])

/-- SEAL_FAIL is reported once for the port. -/
theorem SealCounted.raise (h : SealCounted n s t) {r : Report} (hr : r.cause % 16 = 0) :
    SealCounted n s (raise (sealEvt n) r t) ∧ bitOf ((raise (sealEvt n) r t).reg (sealEvt n)) 0 = true :=
  ⟨h.of_same (raise_ports _ _ _) (by rw [raise_reg, if_neg (sealCnt_ne_sealEvt n 1)]), bitOf_raise hr t⟩

/-- SEAL_FAIL is reported for each channel that is armed at the port. -/
theorem SealCounted.each_raise (h : SealCounted n s t) {r : Nat → Report} (hr : ∀ c, (r c).cause % 16 = 0) {l : List Nat} (hl : l ≠ []) :
    SealCounted n s (each l (fun c s => Machine.raise (sealEvt n) (r c) s) t) ∧
      bitOf ((each l (fun c s => Machine.raise (sealEvt n) (r c) s) t).reg (sealEvt n)) 0 = true :=
  ⟨h.of_same (each_raise_ports _ _ _ _) (each_raise_reg (sealCnt_ne_sealEvt n 1) _ _ _), each_raise_sets hr hl t⟩

end

/-- A block is judged: nothing is awaited, and the expected SEQ goes on. -/
def sealJudged (n : Nat) (s : State) : State := s.updPort n (fun p => { p with sealBlk := none, seqExp := p.seqExp.map nextSeq })

theorem sealBits_counted (n : Nat) (l : List Nat) (s : State) :
    SealCounted n s (sealBits n l ((sealJudged n s).bump (sealCnt n 1))) := by
  constructor
  · simp [sealJudged]
  · simp [sealJudged]
  · simp [sealJudged]
  · simp [sealBits_reg (sealCnt_ne_sealEvt n 1), sealJudged]

/-- A verified block is counted, with SEQ_ERR or without, and its epoch and SEQ are held. -/
theorem sealPassed_of_seen {n : Nat} {b : SealInfo} {s t : State}
    (h : t = (sealJudged n s).bump (sealCnt n 0) ∨ t = seqErr n ((sealJudged n s).bump (sealCnt n 0))) {f : Port → Port}
    (hb : ∀ p, (f p).sealBlk = p.sealBlk) (he : ∀ p, (f p).epoch = b.epoch) (hs : ∀ p, (f p).lastSeq = some b.seq) :
    SealPassed n b s (t.updPort n f) := by
  have hne : sealCnt n 1 ≠ sealCnt n 0 := by unfold sealCnt; omega
  have hsp (i : Nat) : sealCnt n i ≠ spEvt n ∧ sealCnt n i ≠ spCnt n 6 := by unfold sealCnt spEvt spCnt; omega
  have hport : t.port n = (sealJudged n s).port n := by rcases h with rfl | rfl <;> simp
  have hreg (i : Nat) : t.reg (sealCnt n i) = ((sealJudged n s).bump (sealCnt n 0)).reg (sealCnt n i) := by
    rcases h with rfl | rfl
    · rfl
    · exact seqErr_reg (hsp i).1 (hsp i).2 _
  have hread : (t.updPort n f).port n = f (t.port n) := by simp
  refine ⟨?_, by rw [hread, he], by rw [hread, hs], ?_, ?_⟩
  · rw [hread, hb, hport]
    simp [sealJudged]
  · simp [hreg, sealJudged]
  · simp [hreg, sealJudged, hne]

theorem sealVerdict_judges {n : Fin 16} {s : State} {b : SealInfo} (hb : (s.port n.val).sealBlk = some b) :
    Does (.sealVerdict n) s fun t => if s.sealHolds n.val b then SealPassed n.val b s t
      else SealCounted n.val s t ∧ bitOf (t.reg (sealEvt n.val)) 0 = true := by
  change ∃ t, execSealVerdict n s = _ ∧ _
  unfold execSealVerdict
  extract_lets p ent wide delayed u good
  split
  next h => exact absurd (h.symm.trans hb) nofun
  next b' h =>
    obtain rfl : b' = b := Option.some.inj (h.symm.trans hb)
    extract_lets streamErr epochErr replay jump seen bits failed drained dropped cls cleared raised
    have hiff : (wide && sealTag p.sealKey b' == b'.tag && !streamErr && !epochErr && !replay) = true ↔ s.sealHolds n.val b' := by
      change _ ↔ wide = true ∧ sealTag p.sealKey b' = b'.tag ∧ b'.streamId = ent.streamId ∧ p.epoch ≤ b'.epoch ∧
        ent.epochMin ≤ b'.epoch ∧ (b'.epoch = p.epoch → ∀ q, p.lastSeq = some q → q < b'.seq)
      unfold streamErr epochErr replay
      cases wide
      · simp
      · cases p.lastSeq with
        | none => simp [and_assoc]
        | some q => by_cases hq : b'.epoch = p.epoch <;> simp [and_assoc, hq]
    split
    next hc =>
      have hseen : seen = good ∨ seen = seqErr n.val good := ite_keep (Q := fun t => t = good ∨ t = seqErr n.val good) (.inr rfl) (.inl rfl)
      simp only [if_pos (hiff.1 hc)]
      exact ⟨_, rfl, sealPassed_of_seen hseen (fun _ => rfl) (fun _ => rfl) (fun _ => rfl)⟩
    next hc =>
      have hfailed : SealCounted n.val s failed := sealBits_counted n.val bits s
      simp only [if_neg (mt hiff.2 hc)]
      split
      · have hdropped : SealCounted n.val s dropped := (hfailed.discard _).updPort (fun _ => rfl) (fun _ => rfl) (fun _ => rfl)
        exact ⟨_, rfl, hdropped.raise (mkRep_bit (by decide) ..)⟩
      · have hcleared : SealCounted n.val s cleared := hfailed.updPort (fun _ => rfl) (fun _ => rfl) (fun _ => rfl)
        have hraised : SealCounted n.val s raised ∧ bitOf (raised.reg (sealEvt n.val)) 0 = true := by
          unfold raised
          split
          · exact hcleared.raise (mkRep_bit (by decide) ..)
          next hl => exact hcleared.each_raise (fun _ => mkRep_bit (by decide) ..) hl
        obtain ⟨hcounted, hevt⟩ := hraised
        have hports : (gatesLowOnPort n.val raised).ports = raised.ports :=
          gatesLowOnPort_keep (.same (p := .ports) rfl raised) n.val raised rfl
        exact ⟨_, rfl, hcounted.of_same hports (gatesLowOnPort_reg _ _ _), by rw [gatesLowOnPort_reg, hevt]⟩

theorem sealVerdict_does (n : Fin 16) (s : State) (b : SealInfo) (hb : (s.port n.val).sealBlk = some b) :
    Does (.sealVerdict n) s fun t =>
      (t.port n.val).sealBlk = none ∧
      if s.spWide n.val = true ∧ sealTag (s.port n.val).sealKey b = b.tag ∧ b.streamId = (s.port n.val).sealSet.streamId ∧ (s.port n.val).epoch ≤ b.epoch ∧
          (s.port n.val).sealSet.epochMin ≤ b.epoch ∧
          (b.epoch = (s.port n.val).epoch → ∀ q, (s.port n.val).lastSeq = some q → q < b.seq) then
        (t.port n.val).epoch = b.epoch ∧ (t.port n.val).lastSeq = some b.seq ∧
          t.reg (sealCnt n.val 0) = s.reg (sealCnt n.val 0) + 1 ∧ t.reg (sealCnt n.val 1) = s.reg (sealCnt n.val 1)
      else (t.port n.val).epoch = (s.port n.val).epoch ∧ (t.port n.val).lastSeq = (s.port n.val).lastSeq ∧
        t.reg (sealCnt n.val 1) = s.reg (sealCnt n.val 1) + 1 ∧ bitOf (t.reg (sealEvt n.val)) 0 = true := by
  obtain ⟨t, hx, ht⟩ := sealVerdict_judges hb
  refine ⟨t, hx, ?_⟩
  by_cases h : s.sealHolds n.val b
  · rw [if_pos h] at ht ⊢
    obtain ⟨hblk, hepoch, hseq, hgood, hbad⟩ := ht
    exact ⟨hblk, hepoch, hseq, hgood, hbad⟩
  · rw [if_neg h] at ht ⊢
    obtain ⟨⟨hblk, hepoch, hseq, hbad⟩, hevt⟩ := ht
    exact ⟨hblk, hepoch, hseq, hbad, hevt⟩

-- ---- the clock of an output port (R40, R107)
theorem outputPortClockLost_does (n : Fin 4) (s : State) (h : bitOf (s.reg (soCtrl n.val)) 0 = true) :
    Does (.outputPortClockLost n) s fun t => t.reg (soStat n.val) = 2 ∧ t.reg (soCtrl n.val) = s.reg (soCtrl n.val) := by
  change ∃ t, execOutputPortClockLost n s = _ ∧ _
  have hne : soCtrl n.val ≠ soStat n.val := by unfold soCtrl soStat; omega
  unfold execOutputPortClockLost
  rw [if_pos h]
  refine ⟨_, rfl, ?_, ?_⟩
  · simp [holdLive]
  · simp [holdLive, hne]

/-- Settles O11: each clause is the lemma of its row. -/
theorem runLimitAndSealVerdicts : Obligations.RunLimitAndSealVerdicts := by
  unfold Obligations.RunLimitAndSealVerdicts
  exact ⟨runLimit_does, sealVerdict_does, outputPortClockLost_does⟩

end Sys2Proof.Machine
end

section
/-! SUPPORT. The frames that the output ports send (R99, R103, R441). -/

namespace Sys2Proof.Machine

open Sys2Proof

/-- The value due for a slot of an output frame; an invalid zero where none is due. -/
def OutPort.dueAt (o : OutPort) (i : Nat) : OSlot := o.due.getD i ⟨0, true, 0, 0, Option.none⟩

/-- SEQ counts one at a frame that starts with Z. -/
def outCounted (n : Nat) (s : State) : State :=
  s.setOut n { s.out n with seq := if s.bell.frame.toNat % 192 == 0 then (s.out n).seq + 1 else (s.out n).seq }

/-- The subframe of slot i, by the state in which SEQ has counted. -/
def State.subframe (s : State) (n i : Nat) : OSub :=
  s.outSub n i (s.bell.frame.toNat % 192 == 0 && i == 0) ((s.out n).dueAt i)

/-- Outside C4 a subframe carries the sample and the validity of the value due, and Z in slot 0 of each frame whose count is a multiple
of 192 (R99, R103). -/
theorem subframe_running {s : State} (hc4 : s.col.c4 = false) (n i : Nat) :
    (s.subframe n i).sample = ((s.out n).dueAt i).sample ∧ (s.subframe n i).invalid = ((s.out n).dueAt i).invalid ∧
      (s.subframe n i).u = false ∧ ((s.subframe n i).z = true ↔ i = 0 ∧ s.bell.frame.toNat % 192 = 0) := by
  simp [State.subframe, State.outSub, hc4, and_comm]

theorem outCounted_out (n : Nat) (s : State) : ((outCounted n s).out n).due = (s.out n).due ∧
    ((outCounted n s).out n).seq = (s.out n).seq + (if s.bell.frame.toNat % 192 = 0 then 1 else 0) := by
  by_cases hz : s.bell.frame.toNat % 192 = 0 <;> simp [outCounted, hz]

theorem outputFrameSend_sends {n : Fin 4} {s : State} (hst : s.reg (soStat n.val) = 1)
    (hb : baudOk (bitOf (s.reg (soCtrl n.val)) 4) (64 * s.soN n.val * s.frate) 1 = true) :
    exec (.outputFrameSend n) s = .next ((outCounted n.val s).setOut n.val { (outCounted n.val s).out n.val with
      sent := (List.range (s.soN n.val)).map ((outCounted n.val s).subframe n.val) }) := by
  change execOutputFrameSend n s = _
  have hdue := (outCounted_out n.val s).1
  have hsub : (outCounted n.val s).subframe n.val = fun i =>
      (outCounted n.val s).outSub n.val i (s.bell.frame.toNat % 192 == 0 && i == 0) ((s.out n.val).dueAt i) := by
    funext i
    rw [State.subframe, OutPort.dueAt, hdue]
    rfl
  unfold execOutputFrameSend
  rw [if_neg (by simp [hst, hb]), hsub]
  rfl

theorem outputFrameSend_silent {n : Fin 4} {s : State} (hst : s.reg (soStat n.val) ≠ 1) : exec (.outputFrameSend n) s = .next s := by
  change execOutputFrameSend n s = _
  exact if_pos (by simp only [bne_iff_ne.2 hst, Bool.true_or])

theorem outputFrameSend_does (n : Fin 4) (s : State) (hst : s.reg (soStat n.val) = 1) (hc4 : s.col.c4 = false)
    (hb : baudOk (bitOf (s.reg (soCtrl n.val)) 4) (64 * s.soN n.val * s.frate) 1 = true) : Does (.outputFrameSend n) s fun t =>
    (t.out n.val).sent.length = s.soN n.val ∧
    (t.out n.val).seq = (s.out n.val).seq + (if s.bell.frame.toNat % 192 = 0 then 1 else 0) ∧
    ∀ i x, (t.out n.val).sent[i]? = some x →
      x.sample = ((s.out n.val).due.getD i ⟨0, true, 0, 0, none⟩).sample ∧ x.invalid = ((s.out n.val).due.getD i ⟨0, true, 0, 0, none⟩).invalid ∧
        x.u = false ∧ (x.z = true ↔ i = 0 ∧ s.bell.frame.toNat % 192 = 0) := by
  refine ⟨_, outputFrameSend_sends hst hb, ?_⟩
  obtain ⟨hdue, hseq⟩ := outCounted_out n.val s
  simp only [State.setOut_read, if_true]
  refine ⟨by simp, hseq, fun i x hx => ?_⟩
  obtain ⟨j, hj, rfl⟩ : ∃ j, (List.range (s.soN n.val))[i]? = some j ∧ (outCounted n.val s).subframe n.val j = x := by
    simpa only [List.getElem?_map, Option.map_eq_some_iff] using hx
  obtain rfl : i = j := (List.getElem?_eq_some_iff.1 hj).2 ▸ (List.getElem_range _).symm
  have hrun := subframe_running (s := outCounted n.val s) hc4 n.val i
  rwa [OutPort.dueAt, hdue, show (outCounted n.val s).bell = s.bell from rfl] at hrun

/-- Settles O12: the frame sent lists one subframe for each slot (`State.subframe`), and `subframe_running` says what it carries. -/
theorem outputFramesCarryTheDueValues : Obligations.OutputFramesCarryTheDueValues := by
  unfold Obligations.OutputFramesCarryTheDueValues
  exact ⟨outputFrameSend_does, fun _ _ => outputFrameSend_silent⟩

end Sys2Proof.Machine
end

section
/-! SUPPORT. The events, the bars and the decisions of the Bellwether (R113, R117, R118, R126). -/

namespace Sys2Proof.Machine

open Sys2Proof

-- ---- events of the Bellwether (R126)
@[simp] theorem bellEvt_bell (bit : Nat) (s : State) : (bellEvt bit s).bell = s.bell := by simp [bellEvt]
@[simp] theorem bellEvt_svc (bit : Nat) (s : State) : (bellEvt bit s).svc = s.svc := by simp [bellEvt]

theorem bellEvt_reg {bit : Nat} (hb : bit < 16) (s : State) (a : Nat) :
    (bellEvt bit s).reg a = if a = fcEvt then setBit (s.reg fcEvt) bit else s.reg a := by
  rw [bellEvt, raise_reg, mkRep_bit hb]

theorem bellEvt_sets {bit : Nat} (hb : bit < 16) (s : State) : bitOf ((bellEvt bit s).reg fcEvt) bit = true :=
  bitOf_raise (mkRep_bit hb ..) s

theorem bellEvt_keeps_evt {bit i : Nat} {s : State} (h : bitOf (s.reg fcEvt) i = true) :
    bitOf ((bellEvt bit s).reg fcEvt) i = true := bitOf_raise_keep _ h

-- ---- bits of BARRED (R114, R117)
/-- A field of one bit reads that bit. -/
theorem fieldN_one (x i : Nat) : fieldN x i 1 = (x.testBit i).toNat := (Nat.toNat_testBit x i).symm

theorem fieldN_one_eq_one {x i : Nat} : fieldN x i 1 = 1 ↔ x.testBit i = true := by
  rw [fieldN_one]
  cases x.testBit i <;> simp

/-- Subtracting the bits that two numbers share clears them. -/
theorem testBit_sub_and (x y i : Nat) : (x - (x &&& y)).testBit i = (x.testBit i && !y.testBit i) := by
  induction i generalizing x y with
  | zero =>
    have hle : x &&& y ≤ x := Nat.and_le_left
    have hbit : (x &&& y) % 2 = 1 ↔ x % 2 = 1 ∧ y % 2 = 1 := Nat.and_mod_two_eq_one
    generalize x &&& y = z at hle hbit
    simp only [Nat.testBit_zero, ← decide_not, ← Bool.decide_and]
    congr 1
    simp only [eq_iff_iff]
    omega
  | succ i ih =>
    have hle : x &&& y ≤ x := Nat.and_le_left
    have hbit : (x &&& y) % 2 = 1 ↔ x % 2 = 1 ∧ y % 2 = 1 := Nat.and_mod_two_eq_one
    have hhalf : (x - (x &&& y)) / 2 = x / 2 - (x / 2 &&& y / 2) := by
      rw [← Nat.and_div_two]
      generalize x &&& y = z at hle hbit
      omega
    rw [Nat.testBit_add_one, hhalf, ih, ← Nat.testBit_add_one, ← Nat.testBit_add_one]

/-- Replacing bit e by a 1 sets that bit and no other. -/
theorem testBit_setOne (x e j : Nat) : (x - fieldN x e 1 * 2 ^ e + 2 ^ e).testBit j = (x.testBit j || decide (j = e)) := by
  have hlow : x % 2 ^ e < 2 ^ e := Nat.mod_lt _ (Nat.two_pow_pos e)
  have hcut : x = 2 ^ e * (2 * (x / 2 ^ e / 2) + fieldN x e 1) + x % 2 ^ e := by
    rw [fieldN, pow_one, Nat.div_add_mod, Nat.div_add_mod]
  have hset : x - fieldN x e 1 * 2 ^ e + 2 ^ e = 2 ^ e * (2 * (x / 2 ^ e / 2) + 1) + x % 2 ^ e := by
    have hsub : x - fieldN x e 1 * 2 ^ e = 2 ^ e * (2 * (x / 2 ^ e / 2)) + x % 2 ^ e := Nat.sub_eq_of_eq_add (by linarith)
    rw [hsub]
    ring
  rw [hset, Nat.testBit_two_pow_mul_add _ hlow]
  split
  next hj => simp [Nat.testBit_mod_two_pow, hj, show j ≠ e by omega]
  next hj =>
    obtain ⟨k, rfl⟩ := Nat.exists_eq_add_of_le (Nat.le_of_not_lt hj)
    cases k with
    | zero => simp
    | succ k =>
      rw [show e + (k + 1) - e = k + 1 by omega, Nat.testBit_add_one, show (2 * (x / 2 ^ e / 2) + 1) / 2 = x / 2 ^ e / 2 by omega,
        ← Nat.testBit_add_one, Nat.testBit_div_two_pow]
      simp [Nat.add_comm]

-- ---- a decision with no station link ready (R113)
/-- The entry is the source selected and followed: a decision for it changes nothing. -/
def State.stays (s : State) (e : Nat) : Prop :=
  s.bell.mode ≠ .holdover ∧ s.bell.onLink = false ∧ s.bell.follow = none ∧ s.bell.active = e

/-- The exclusion of R118 ends. -/
def endExclusion (s : State) : State := s.updBell (fun b => { b with excl := none })

theorem decideSource_none {s : State} (hl : s.linkReady = false) (hp : s.pickEntry = none) : decideSource s = endExclusion s := by
  simp [decideSource, hl, hp, endExclusion]

theorem decideSource_stays {s : State} {e : Nat} (hl : s.linkReady = false) (hp : s.pickEntry = some e) (h : s.stays e) :
    decideSource s = endExclusion s := by
  obtain ⟨hm, ho, hf, ha⟩ := h
  simp [decideSource, hl, hp, endExclusion, hm, ho, hf, ha]

theorem decideSource_slews {s : State} {e : Nat} (hl : s.linkReady = false) (hp : s.pickEntry = some e) (h : ¬s.stays e) :
    decideSource s = endExclusion (bellEvt 3 (startSlew e s)) := by
  have hc : (s.bell.mode != .holdover && !s.bell.onLink && s.bell.follow.isNone && s.bell.active == e) = false := by
    rw [Bool.eq_false_iff]
    simpa [State.stays, and_assoc] using h
  simp [decideSource, hl, hp, endExclusion, hc]

/-- The slew to entry e has begun, with CHANGE set (R116). -/
structure Slews (e : Nat) (s t : State) : Prop where
  active : t.bell.active = e
  mode : t.bell.mode = .slewing
  onLink : t.bell.onLink = false
  phaseStep : t.bell.phaseStep = false
  follow : t.bell.follow = none
  excl : t.bell.excl = none
  change : bitOf (t.reg fcEvt) 3 = true
  frame : t.bell.frame = s.bell.frame

theorem slews_of_startSlew (e : Nat) (s : State) : Slews e s (endExclusion (bellEvt 3 (startSlew e s))) := by
  constructor
  case change => exact bellEvt_sets (by decide) _
  all_goals simp [endExclusion, startSlew]

-- ---- RESELECT (R113, R117, R118)
theorem reselect_ignored (s : State) : Does (.reselect true) s fun t =>
    t.bell = s.bell ∧ t.svc = s.svc ∧ bitOf (t.reg fcEvt) 6 = true :=
  ⟨bellIgnored s, rfl, bellEvt_bell _ _, bellEvt_svc _ _, bellEvt_sets (by decide) s⟩

theorem reselect_deferred (s : State) (h : s.stnOpen = true) : Does (.reselect false) s fun t => t.bell = s.bell ∧
    if s.svc.defer.length < 16 then t.svc.defer = s.svc.defer ++ [Deferred.reselect] ∧ t.regs = s.regs
    else t.svc = s.svc ∧ bitOf (t.reg fcEvt) 6 = true := by
  change ∃ t, execReselect false s = _ ∧ _
  by_cases hroom : s.svc.defer.length < 16
  · exact ⟨_, by simp [execReselect, h, deferAction, hroom]; rfl, by simp [hroom]⟩
  · refine ⟨bellIgnored s, by simp [execReselect, h, deferAction, hroom], bellEvt_bell _ _, ?_⟩
    rw [if_neg hroom]
    exact ⟨bellEvt_svc _ _, bellEvt_sets (by decide) s⟩

theorem reselect_early {s : State} (ho : s.stnOpen = false)
    (h : s.bell.enterHold = true ∨ (s.bell.mode = .holdover ∧ s.bell.holdFp < 192)) :
    exec (.reselect false) s = .next s := by
  change execReselect false s = _
  simp [execReselect, reselectNow, ho, h]

theorem reselect_decides {s : State} (ho : s.stnOpen = false)
    (h : ¬(s.bell.enterHold = true ∨ (s.bell.mode = .holdover ∧ s.bell.holdFp < 192))) :
    exec (.reselect false) s = .next (decideSource s) := by
  change execReselect false s = _
  simp only [execReselect, ho, reselectNow, Bool.false_eq_true, if_false]
  rw [if_neg (by simpa using h)]

-- ---- UNBAR (R117)
theorem unbar_clears (bits : BitVec 4) (s : State) : Does (.unbar bits) s fun t => t.regs = s.regs ∧ t.bell.active = s.bell.active ∧
    ∀ e, fieldN t.bell.barred e 1 = (if bits.getLsbD e then 0 else fieldN s.bell.barred e 1) ∧
      fieldN t.bell.unbarred e 1 = (if bits.getLsbD e ∧ fieldN s.bell.barred e 1 = 1 then 1 else fieldN s.bell.unbarred e 1) := by
  refine ⟨unbarEntries bits.toNat s, rfl, rfl, rfl, fun e => ?_⟩
  simp only [unbarEntries, State.updBell_bell, fieldN_one, testBit_sub_and, Nat.testBit_or, Nat.testBit_and, BitVec.testBit_toNat]
  cases bits.getLsbD e <;> cases s.bell.barred.testBit e <;> simp

end Sys2Proof.Machine
end

section
/-! SUPPORT. The drift measurement: what it shows of each entry, and what it flags (R113, R114, R117). -/

namespace Sys2Proof.Machine

open Sys2Proof

-- ---- what the sources are read from
/-- The entries and WINDOW, the ports and the station link stand. -/
structure SameSources (s t : State) : Prop where
  prio : t.reg fcPrio = s.reg fcPrio
  win : t.reg fcWindow = s.reg fcWindow
  ports : t.ports = s.ports
  stn : t.stn = s.stn

section
variable {s t : State} (h : SameSources s t)
include h

theorem SameSources.entrySrc (e : Nat) : t.entrySrc e = s.entrySrc e := by rw [State.entrySrc, h.prio, State.entrySrc]

theorem SameSources.window : t.window = s.window := by rw [State.window, State.regField, h.win, State.window, State.regField]

theorem SameSources.measOk (l : List Int) : t.measOk l = s.measOk l := by rw [State.measOk, h.window, State.measOk]

theorem SameSources.entryPort (e : Nat) : t.port (t.entryPort e) = s.port (s.entryPort e) := by
  rw [State.port_of_same (s := s) h.ports, State.entryPort, h.prio, State.entryPort]

theorem SameSources.entryHere (present e : Nat) : t.entryHere present e = s.entryHere present e := by
  have hlink : t.linkTrained = s.linkTrained := by simp only [State.linkTrained, State.lanes, h.stn]
  simp only [State.entryHere, h.entrySrc, h.entryPort, hlink]

/-- An entry that is not measured has no measurements left: it qualifies only as TCXO does (R113). -/
theorem SameSources.entryQual {present e : Nat} (hm : s.entryHere present e = false → tget [] t.bell.meas e = []) :
    t.entryQual e = true ↔ s.entrySrc e = 1 ∨ (s.entryHere present e = true ∧ s.measOk (tget [] t.bell.meas e) = true) := by
  have hempty : s.measOk [] = false := rfl
  simp only [State.entryQual, h.entrySrc, h.entryPort, h.measOk]
  cases hh : s.entryHere present e with
  | false =>
    rw [hm hh, hempty]
    split <;> simp_all
  | true =>
    unfold State.entryHere at hh
    split <;> simp_all

end

theorem SameSources.trans {s t u : State} (h : SameSources s t) (g : SameSources t u) : SameSources s u :=
  ⟨g.prio.trans h.prio, g.win.trans h.win, g.ports.trans h.ports, g.stn.trans h.stn⟩

-- ---- the measurement of the entries (R114)
theorem fcOffset_inj {i j : Nat} : fcOffset i = fcOffset j ↔ i = j := by
  unfold fcOffset
  omega

theorem measureEntry_reg (off : Nat → Int) (present e : Nat) (s : State) (a : Nat) : (measureEntry off present e s).reg a =
    if s.entryHere present e = true ∧ a = fcOffset e then BitVec.ofNat 32 (ux 24 (off e)) else s.reg a := by
  by_cases h : s.entryHere present e = true <;> simp [measureEntry, h]

theorem measureEntry_meas (off : Nat → Int) (present e : Nat) (s : State) (j : Nat) : tget [] (measureEntry off present e s).bell.meas j =
    if j = e then (if s.entryHere present e = true then (off e :: tget [] s.bell.meas e).take 4 else []) else tget [] s.bell.meas j := by
  by_cases h : s.entryHere present e = true <;> simp [measureEntry, h, tget_tset]

theorem measureEntry_sources (off : Nat → Int) (present e : Nat) (s : State) : SameSources s (measureEntry off present e s) := by
  have hreg {a : Nat} (ha : a ≠ fcOffset e) : (measureEntry off present e s).reg a = s.reg a := by simp [measureEntry_reg, ha]
  constructor
  · exact hreg (by unfold fcPrio fcOffset; omega)
  · exact hreg (by unfold fcWindow fcOffset; omega)
  · exact measureEntry_keep (.same (p := .ports) rfl s) off present e s rfl
  · exact measureEntry_keep (.same (p := .stn) rfl s) off present e s rfl

theorem each_measureEntry_sources (off : Nat → Int) (present : Nat) (l : List Nat) (s : State) :
    SameSources s (each l (measureEntry off present) s) :=
  each_keep l _ (fun e _ h => h.trans (measureEntry_sources off present e _)) ⟨rfl, rfl, rfl, rfl⟩

/-- FC_OFFSET of a measured entry shows its offset; that of any other keeps what it showed (log 159). -/
theorem each_measureEntry_reg (off : Nat → Int) (present : Nat) {l : List Nat} (hl : l.Nodup) (j : Nat) (s : State) :
    (each l (measureEntry off present) s).reg (fcOffset j) =
      if j ∈ l ∧ s.entryHere present j = true then BitVec.ofNat 32 (ux 24 (off j)) else s.reg (fcOffset j) := by
  induction l generalizing s with
  | nil => simp [each]
  | cons i l ih =>
    obtain ⟨hi, hl⟩ := List.nodup_cons.1 hl
    change (each l (measureEntry off present) (measureEntry off present i s)).reg (fcOffset j) = _
    rw [ih hl, (measureEntry_sources off present i s).entryHere, measureEntry_reg]
    by_cases hj : j = i
    · subst hj
      simp [hi]
    · simp [fcOffset_inj, hj]

/-- An entry that is measured keeps its last four offsets, any other none (R113). -/
theorem each_measureEntry_meas (off : Nat → Int) (present : Nat) {l : List Nat} (hl : l.Nodup) {j : Nat} (hj : j ∈ l) (s : State) :
    tget [] (each l (measureEntry off present) s).bell.meas j =
      if s.entryHere present j = true then (off j :: tget [] s.bell.meas j).take 4 else [] := by
  have hrest {i : Nat} {m : List Nat} (hi : i ∉ m) (s : State) :
      tget [] (each m (measureEntry off present) s).bell.meas i = tget [] s.bell.meas i := by
    refine each_keep_mem (P := fun t : State => tget [] t.bell.meas i = tget [] s.bell.meas i) (fun k hk t ht => ?_) rfl
    rw [measureEntry_meas, if_neg (fun hik : i = k => hi (hik ▸ hk)), ht]
  induction l generalizing s with
  | nil => cases hj
  | cons i l ih =>
    obtain ⟨hi, hl⟩ := List.nodup_cons.1 hl
    change tget [] (each l (measureEntry off present) (measureEntry off present i s)).bell.meas j = _
    by_cases hji : j = i
    · subst hji
      rw [hrest hi, measureEntry_meas, if_pos rfl]
    · rw [ih hl (by simpa [hji] using hj), (measureEntry_sources off present i s).entryHere, measureEntry_meas, if_neg hji]

-- ---- after the measurement
/-- What follows the measurement writes no word but the events and keeps the measurements, the ports and the station link. -/
structure Judged (s t : State) : Prop where
  regs : ∀ a, a ≠ fcEvt → t.reg a = s.reg a
  meas : t.bell.meas = s.bell.meas
  ports : t.ports = s.ports
  stn : t.stn = s.stn

theorem Judged.refl (s : State) : Judged s s := ⟨fun _ _ => rfl, rfl, rfl, rfl⟩

section
variable {s t : State} (h : Judged s t)
include h

theorem Judged.sources : SameSources s t := ⟨h.regs _ (by decide), h.regs _ (by decide), h.ports, h.stn⟩

theorem Judged.updBell {f : Bell → Bell} (hf : (f t.bell).meas = t.bell.meas) : Judged s (t.updBell f) :=
  ⟨h.regs, hf.trans h.meas, h.ports, h.stn⟩

theorem Judged.bellEvt (bit : Nat) : Judged s (bellEvt bit t) := by
  obtain ⟨hr, hm, hp, hn⟩ := h
  refine ⟨fun a ha => ?_, by simp [hm], by simp [Machine.bellEvt, hp], by simp [Machine.bellEvt, hn]⟩
  simp [Machine.bellEvt, ha, hr a ha]

theorem Judged.startSlew (e : Nat) : Judged s (startSlew e t) := ⟨h.regs, h.meas, h.ports, h.stn⟩

theorem Judged.startLink : Judged s (startLink t) := ⟨h.regs, h.meas, h.ports, h.stn⟩

theorem Judged.decideSource : Judged s (decideSource t) := by
  unfold Machine.decideSource
  refine Judged.updBell ?_ rfl
  refine ite_keep (ite_keep h (h.startLink.bellEvt 3)) ?_
  split
  · exact h
  · exact ite_keep h ((h.startSlew _).bellEvt 3)

theorem Judged.leaveSource : Judged s (leaveSource t) := h.updBell rfl

theorem Judged.flagEntry (e : Nat) : Judged s (flagEntry e t) := (h.updBell rfl).bellEvt 0

theorem Judged.flagCheck (off : Nat → Int) (present e : Nat) : Judged s (flagCheck off present e t) := by
  unfold Machine.flagCheck
  extract_lets again u
  have hu : Judged s u := h.updBell rfl
  exact ite_keep h (ite_keep hu (ite_keep (hu.flagEntry e).leaveSource (ite_keep (hu.flagEntry e) hu)))

theorem Judged.flagLink (o : Int) : Judged s (flagLink o t) := ite_keep (h.bellEvt 0).leaveSource h

theorem Judged.takeRewritten : Judged s (takeRewritten t) := ite_keep ((h.startSlew _).bellEvt 3) h

theorem Judged.revertCheck : Judged s (revertCheck t) := by
  have hdefer : Judged s ((deferAction .revert t).getD t) := by
    unfold deferAction
    split
    · exact ⟨h.regs, h.meas, h.ports, h.stn⟩
    · exact h
  unfold Machine.revertCheck
  split
  · exact ite_keep (ite_keep (ite_keep h hdefer) h.decideSource) h
  · exact h

end

-- ---- the source selected, and its flag (R114)
/-- What tells the source selected. -/
def Bell.selection (b : Bell) : Nat × Option Nat × Bool × BellMode := (b.active, b.follow, b.onLink, b.mode)

theorem State.selects_of_selection {s t : State} (h : t.bell.selection = s.bell.selection) (e : Nat) : t.selects e = s.selects e := by
  simp only [Bell.selection, Prod.mk.injEq] at h
  obtain ⟨ha, hf, ho, hm⟩ := h
  simp only [State.selects, ha, hf, ho, hm]

theorem measureEntry_selection (off : Nat → Int) (present e : Nat) (s : State) :
    (measureEntry off present e s).bell.selection = s.bell.selection := by
  unfold measureEntry
  split <;> rfl

theorem flagEntry_selection (e : Nat) (s : State) : (flagEntry e s).bell.selection = s.bell.selection := by
  rw [flagEntry, bellEvt_bell]
  rfl

theorem flagCheck_selection (off : Nat → Int) (present e : Nat) (s : State) :
    (flagCheck off present e s).bell.selection = s.bell.selection := by
  unfold flagCheck
  extract_lets again u
  have hflag : (flagEntry e u).bell.selection = s.bell.selection := flagEntry_selection e u
  split
  · rfl
  split
  · rfl
  split
  · exact hflag
  split
  · exact hflag
  · rfl

/-- Entry e is flagged: barred, holdover due, DRIFT set. -/
structure Flagged (e : Nat) (t : State) : Prop where
  barred : t.bell.barred.testBit e = true
  due : t.bell.enterHold = true
  drift : bitOf (t.reg fcEvt) 0 = true

theorem Flagged.flagEntry {j : Nat} {t : State} (h : Flagged j t) (e : Nat) : Flagged j (flagEntry e t) := by
  obtain ⟨hb, hd, he⟩ := h
  refine ⟨?_, by simpa [Machine.flagEntry] using hd, bellEvt_keeps_evt he⟩
  simp only [Machine.flagEntry, bellEvt_bell, State.updBell_bell, testBit_setOne, hb, Bool.true_or]

theorem Flagged.flagCheck {j : Nat} {t : State} (h : Flagged j t) (off : Nat → Int) (present e : Nat) :
    Flagged j (flagCheck off present e t) := by
  unfold Machine.flagCheck
  extract_lets again u
  have hu : Flagged j u := ⟨h.barred, h.due, h.drift⟩
  obtain ⟨hb, -, he⟩ := hu.flagEntry e
  exact ite_keep h (ite_keep hu (ite_keep ⟨hb, rfl, he⟩ (ite_keep (hu.flagEntry e) hu)))

/-- Entry e is selected and measured outside WINDOW. -/
structure Strays (off : Nat → Int) (present e : Nat) (s : State) : Prop where
  selected : s.selects e = true
  here : s.entryHere present e = true
  outside : (s.window : Int) < absI (off e)

theorem Strays.of_judged {off : Nat → Int} {present e : Nat} {s t : State} (h : Strays off present e t) (hj : Judged s t)
    (hs : t.bell.selection = s.bell.selection) : Strays off present e s := by
  obtain ⟨hsel, hhere, hout⟩ := h
  exact ⟨by rw [← State.selects_of_selection hs, hsel], by rw [← hj.sources.entryHere, hhere], by rw [← hj.sources.window]; exact hout⟩

theorem flagCheck_flags {off : Nat → Int} {present e : Nat} {s : State} (h : Strays off present e s) :
    Flagged e (flagCheck off present e s) := by
  obtain ⟨hsel, hhere, hout⟩ := h
  unfold flagCheck
  extract_lets again u
  have hu : u.selects e = true := hsel
  have hw : ¬absI (off e) ≤ (u.window : Int) := not_le.2 hout
  simp only [hhere, Bool.not_true, Bool.false_eq_true, if_false, if_neg hw, hu, if_true]
  refine ⟨?_, rfl, bellEvt_sets (by decide) _⟩
  simp [leaveSource, flagEntry, testBit_setOne]

theorem each_flagCheck_flags {off : Nat → Int} {present e : Nat} {l : List Nat} {s : State} (h : Strays off present e s) (he : e ∈ l) :
    Flagged e (each l (flagCheck off present) s) := by
  have back (i : Nat) {j : Nat} {t : State} (g : Strays off present j (flagCheck off present i t)) : Strays off present j t :=
    g.of_judged ((Judged.refl t).flagCheck off present i) (flagCheck_selection off present i t)
  have hall := each_establishes (P := fun j t => Strays off present j t → Flagged j t) (f := flagCheck off present)
    (fun i t g => flagCheck_flags (back i g)) (fun i j t ht g => (ht (back i g)).flagCheck off present i) he s
  refine hall ?_
  obtain ⟨hsel, hhere, hout⟩ := h
  have hj : Judged s (each l (flagCheck off present) s) := each_keep l _ (fun i _ ht => ht.flagCheck off present i) (.refl s)
  have hs := each_same (fun t => t.bell.selection) (f := flagCheck off present) (flagCheck_selection off present) l s
  exact ⟨by rw [State.selects_of_selection hs, hsel], by rw [hj.sources.entryHere, hhere], by rw [hj.sources.window]; exact hout⟩

-- ---- DRIFT_MEASUREMENT (R113, R114)
/-- The offset measured of entry e; that of TCXO is 0. -/
def driftOff (o : Fin 4 → BitVec 24) (link : BitVec 24) (s : State) (e : Nat) : Int :=
  if s.entrySrc e = 1 then 0
  else if e = 0 then (o 0).toInt else if e = 1 then (o 1).toInt else if e = 2 then (o 2).toInt else if e = 3 then (o 3).toInt
  else link.toInt

theorem driftOff_entry (o : Fin 4 → BitVec 24) (link : BitVec 24) (s : State) (e : Fin 4) :
    driftOff o link s e.val = (if s.entrySrc e.val = 1 then 0 else o e).toInt := by
  unfold driftOff
  split
  · rfl
  · fin_cases e <;> rfl

theorem ofNat_ux_toInt (x : BitVec 24) : BitVec.ofNat 32 (ux 24 x.toInt) = x.setWidth 32 := by
  have hux : ux 24 x.toInt = x.toNat := by rw [ux, ← BitVec.toNat_ofInt, BitVec.ofInt_toInt]
  rw [hux, BitVec.ofNat_toNat]

/-- The measurements of the four entries and of the station link. -/
def driftMeasured (off : Nat → Int) (link : BitVec 24) (present : BitVec 5) (s : State) : State :=
  measureLink link.toInt (present.getLsbD 4) (each [0, 1, 2, 3] (measureEntry off present.toNat) s)

/-- The flags of the entries and of the station link. -/
def driftFlagged (off : Nat → Int) (link : BitVec 24) (present : BitVec 5) (s : State) : State :=
  flagLink link.toInt (each [0, 1, 2, 3] (flagCheck off present.toNat) s)

/-- The decision in a holdover that has lasted, or a rewritten entry and REVERT. -/
def driftDecided (s : State) : State :=
  if s.bell.mode == .holdover && decide (192 ≤ s.bell.holdFp) then decideSource s else revertCheck (takeRewritten s)

theorem driftMeasurement_eq (o : Fin 4 → BitVec 24) (link : BitVec 24) (present : BitVec 5) (s : State) :
    exec (.driftMeasurement (o 0) (o 1) (o 2) (o 3) link present) s =
      .next (driftDecided (driftFlagged (driftOff o link s) link present (driftMeasured (driftOff o link s) link present s))) := by
  change execDriftMeasurement (o 0) (o 1) (o 2) (o 3) link present s = _
  unfold execDriftMeasurement driftDecided
  extract_lets off u v w
  have hw : driftFlagged (driftOff o link s) link present (driftMeasured (driftOff o link s) link present s) = w := rfl
  rw [hw]
  split <;> rfl

theorem Judged.driftDecided {s t : State} (h : Judged s t) : Judged s (driftDecided t) :=
  ite_keep h.decideSource h.takeRewritten.revertCheck

/-- A source that has just been left is the one selected until the holdover begins. -/
theorem driftDecided_due {s : State} (hm : s.bell.mode ≠ .holdover) (hf : s.bell.follow = none) (hd : s.bell.enterHold = true) :
    driftDecided s = s := by
  have htake : takeRewritten s = s := by simp [takeRewritten, hf]
  have hrevert : revertCheck s = s := by
    unfold revertCheck
    split
    · simp [hd]
    · rfl
  simp [Machine.driftDecided, hm, htake, hrevert]

theorem driftMeasured_sources (off : Nat → Int) (link : BitVec 24) (present : BitVec 5) (s : State) :
    SameSources s (driftMeasured off link present s) :=
  have h := each_measureEntry_sources off present.toNat [0, 1, 2, 3] s
  ⟨h.prio, h.win, h.ports, h.stn⟩

theorem driftMeasured_selection (off : Nat → Int) (link : BitVec 24) (present : BitVec 5) (s : State) :
    (driftMeasured off link present s).bell.selection = s.bell.selection :=
  each_same (fun t => t.bell.selection) (measureEntry_selection off present.toNat) [0, 1, 2, 3] s

theorem driftFlagged_judged (off : Nat → Int) (link : BitVec 24) (present : BitVec 5) (s : State) :
    Judged s (driftFlagged off link present s) :=
  Judged.flagLink (each_keep _ _ (fun e _ h => h.flagCheck off present.toNat e) (.refl s)) link.toInt

/-- What a drift measurement shows and keeps of an entry. -/
theorem driftDecided_entry (off : Nat → Int) (link : BitVec 24) (present : BitVec 5) {e : Nat} (he : e ∈ [0, 1, 2, 3]) (s : State) :
    let t := driftDecided (driftFlagged off link present (driftMeasured off link present s))
    t.reg (fcOffset e) = (if s.entryHere present.toNat e = true then BitVec.ofNat 32 (ux 24 (off e)) else s.reg (fcOffset e)) ∧
    tget [] t.bell.meas e = (if s.entryHere present.toNat e = true then (off e :: tget [] s.bell.meas e).take 4 else []) ∧
    (t.entryQual e = true ↔ s.entrySrc e = 1 ∨ (s.entryHere present.toNat e = true ∧ s.measOk (tget [] t.bell.meas e) = true)) := by
  intro t
  have hj : Judged (driftMeasured off link present s) t := (driftFlagged_judged off link present _).driftDecided
  have hnodup : ([0, 1, 2, 3] : List Nat).Nodup := by decide
  have hreg := each_measureEntry_reg off present.toNat hnodup e s
  simp only [he, true_and] at hreg
  have hmeas := each_measureEntry_meas off present.toNat hnodup he s
  have hevt : fcOffset e ≠ fcEvt := by unfold fcOffset fcEvt; omega
  have hkept : tget [] t.bell.meas e = _ := hj.meas ▸ hmeas
  refine ⟨(hj.regs _ hevt).trans hreg, hkept, ?_⟩
  refine ((driftMeasured_sources off link present s).trans hj.sources).entryQual fun hhere => ?_
  rw [hkept, hhere]
  rfl

/-- What a drift measurement does of a selected entry outside WINDOW. -/
theorem driftDecided_strays {off : Nat → Int} (link : BitVec 24) {present : BitVec 5} {e : Nat} (he : e ∈ [0, 1, 2, 3]) {s : State}
    (h : Strays off present.toNat e s) : let t := driftDecided (driftFlagged off link present (driftMeasured off link present s))
    Flagged e t ∧ t.bell.active = s.bell.active := by
  intro t
  obtain ⟨hsel, hhere, hout⟩ := h
  have hread := driftMeasured_sources off link present s
  have hpick := driftMeasured_selection off link present s
  have hstray : Strays off present.toNat e (driftMeasured off link present s) :=
    ⟨by rw [State.selects_of_selection hpick, hsel], by rw [hread.entryHere, hhere], by rw [hread.window]; exact hout⟩
  have hflag := each_flagCheck_flags hstray he
  have hsame : _ = s.bell.selection :=
    (each_same (fun t => t.bell.selection) (flagCheck_selection off present.toNat) [0, 1, 2, 3] _).trans hpick
  simp only [Bell.selection, Prod.mk.injEq] at hsame
  obtain ⟨ha, hf, ho, hm⟩ := hsame
  have hpicked : ((s.bell.active = e ∧ s.bell.follow = none) ∧ s.bell.onLink = false) ∧ s.bell.mode ≠ .holdover := by
    simpa [State.selects] using hsel
  obtain ⟨⟨⟨-, hfollow⟩, hlink⟩, hmode⟩ := hpicked
  have ht : t = each [0, 1, 2, 3] (flagCheck off present.toNat) (driftMeasured off link present s) := by
    unfold t driftFlagged
    rw [show flagLink link.toInt _ = _ from if_neg (by simp [ho, hlink])]
    exact driftDecided_due (by rw [hm]; exact hmode) (hf.trans hfollow) hflag.due
  rw [ht]
  exact ⟨hflag, ha⟩

theorem driftMeasurement_does (o : Fin 4 → BitVec 24) (link : BitVec 24) (present : BitVec 5) (s : State) :
    Does (.driftMeasurement (o 0) (o 1) (o 2) (o 3) link present) s fun t =>
      (∀ e : Fin 4,
        let here := s.entryHere present.toNat e.val
        let off := if s.entrySrc e.val = 1 then (0 : BitVec 24) else o e
        t.reg (fcOffset e.val) = (if here = true then off.setWidth 32 else s.reg (fcOffset e.val)) ∧
        tget [] t.bell.meas e.val = (if here = true then (off.toInt :: tget [] s.bell.meas e.val).take 4 else []) ∧
        (t.entryQual e.val = true ↔ s.entrySrc e.val = 1 ∨ (here = true ∧ s.measOk (tget [] t.bell.meas e.val) = true))) ∧
      (∀ e : Fin 4, s.selects e.val = true → s.entryHere present.toNat e.val = true → s.entrySrc e.val ≠ 1 →
        (s.window : Int) < absI (o e).toInt →
          fieldN t.bell.barred e.val 1 = 1 ∧ t.bell.enterHold = true ∧ bitOf (t.reg fcEvt) 0 = true ∧ t.bell.active = s.bell.active) := by
  have hmem (e : Fin 4) : e.val ∈ [0, 1, 2, 3] := by fin_cases e <;> decide
  refine ⟨_, driftMeasurement_eq o link present s, fun e => ?_, fun e hsel hhere hsrc hout => ?_⟩
  · have h := driftDecided_entry (driftOff o link s) link present (hmem e) s
    rw [driftOff_entry, ofNat_ux_toInt] at h
    exact h
  · have hoff : driftOff o link s e.val = (o e).toInt := by rw [driftOff_entry, if_neg hsrc]
    obtain ⟨⟨hb, hd, he⟩, ha⟩ := driftDecided_strays link (hmem e) ⟨hsel, hhere, hoff ▸ hout⟩
    exact ⟨fieldN_one_eq_one.2 hb, hd, he, ha⟩

/-- Settles O13: a decision with no station link ready ends the exclusion or slews (`decideSource_stays`, `decideSource_slews`); what
follows the measurement of the entries keeps it (`Judged`), and its flags stand (`each_flagCheck_flags`). -/
theorem sourceDecisionsFollowThePriorities : Obligations.SourceDecisionsFollowThePriorities := by
  unfold Obligations.SourceDecisionsFollowThePriorities
  refine ⟨reselect_ignored, reselect_deferred, fun s ho hl => ?_, unbar_clears, driftMeasurement_does⟩
  by_cases hearly : s.bell.enterHold = true ∨ (s.bell.mode = .holdover ∧ s.bell.holdFp < 192)
  · exact ⟨s, reselect_early ho hearly, by beta_reduce; rw [if_pos hearly]⟩
  · refine ⟨decideSource s, reselect_decides ho hearly, ?_⟩
    beta_reduce
    rw [if_neg hearly]
    split
    next hp => exact decideSource_none hl hp
    next e hp =>
      split
      next hstay => exact decideSource_stays hl hp hstay
      next hstay =>
        rw [decideSource_slews hl hp hstay]
        obtain ⟨ha, hm, ho, hps, hf, hx, hc, hfr⟩ := slews_of_startSlew e s
        exact ⟨ha, hm, ho, hps, hf, hx, hc, hfr⟩

end Sys2Proof.Machine
end

section
/-! SUPPORT. Loss, holdover and slew of the Bellwether (R112, R115, R116, R118, R126). -/

namespace Sys2Proof.Machine

open Sys2Proof

-- ---- the loss of the selected source (R112, R118)
/-- The source is there by its criterion: TCXO, an input port in LOCKED, the station link once it is trained. -/
theorem State.selHere_iff (s : State) : s.selHere = true ↔
    s.selSrc = 1 ∨ (s.selSrc = 3 ∧ (s.port s.selPort).st = .locked) ∨ (s.selSrc = 4 ∧ s.linkTrained = true) := by
  unfold State.selHere
  split <;> simp_all

theorem sourceLost_stands {s : State} (h : s.bell.mode = .holdover ∨ s.bell.lost = true ∨ s.selHere = true) : sourceLost s = s := by
  unfold sourceLost
  exact if_pos (by simpa [or_assoc] using h)

/-- A source that is lost is left, with LOST set: while slewing it is excluded, and its measurements are gone. -/
structure SourceLeft (s t : State) : Prop where
  due : t.bell.enterHold = true
  lost : t.bell.lost = true
  mode : t.bell.mode = s.bell.mode
  event : bitOf (t.reg fcEvt) 1 = true
  excl : s.bell.follow = none → s.bell.mode = .slewing → t.bell.excl = some (if s.bell.onLink then 4 else s.bell.active)
  meas : s.bell.follow = none → s.bell.onLink = false → tget [] t.bell.meas s.bell.active = []

theorem sourceLost_leaves {s : State} (h : ¬(s.bell.mode = .holdover ∨ s.bell.lost = true ∨ s.selHere = true)) :
    SourceLeft s (sourceLost s) := by
  unfold sourceLost
  extract_lets e u
  rw [if_neg (by simpa [or_assoc] using h)]
  have hbell : (leaveSource (bellEvt 1 u)).bell = (leaveSource u).bell := by simp [leaveSource]
  constructor
  case event => exact bellEvt_sets (by decide) u
  all_goals rw [hbell]
  case due => rfl
  all_goals cases ho : s.bell.onLink <;> simp +contextual [leaveSource, u, ho, e]

-- ---- holdover (R115, R126)
theorem holdoverEntry_does (s : State) : Does .holdoverEntry s fun t =>
    if s.bell.enterHold = true then t.bell.mode = .holdover ∧ t.bell.enterHold = false ∧ t.bell.holdFp = 0 ∧
      t.bell.noSrcFp = 0 ∧ t.bell.active = s.bell.active ∧ bitOf (t.reg fcEvt) 2 = true
    else t = s := by
  change ∃ t, execHoldoverEntry s = _ ∧ _
  unfold execHoldoverEntry
  split
  · exact ⟨_, rfl, by simp, by simp, by simp, by simp, by simp, bellEvt_sets (by decide) _⟩
  · exact ⟨s, rfl, rfl⟩

theorem holdoverMinEnd_decides {s : State} (h : s.bell.mode = .holdover ∧ 192 ≤ s.bell.holdFp) :
    exec .holdoverMinEnd s = .next (decideSource s) := by
  change execHoldoverMinEnd s = _
  exact if_pos (by simpa using h)

theorem holdoverMinEnd_stands {s : State} (h : ¬(s.bell.mode = .holdover ∧ 192 ≤ s.bell.holdFp)) :
    exec .holdoverMinEnd s = .next s := by
  change execHoldoverMinEnd s = _
  exact if_neg (by simpa using h)

theorem holdoverNoSource_does (s : State) : Does .holdoverNoSource s fun t =>
    if s.bell.mode = .holdover ∧ 65536 < s.bell.noSrcFp then
      bitOf (t.reg fcEvt) 2 = true ∧ t.bell.noSrcFp + 65536 = s.bell.noSrcFp ∧ t.bell.mode = .holdover
    else t = s := by
  change ∃ t, execHoldoverNoSource s = _ ∧ _
  unfold execHoldoverNoSource
  by_cases h : s.bell.mode = .holdover ∧ 65536 < s.bell.noSrcFp
  · obtain ⟨hm, hn⟩ := h
    refine ⟨_, if_pos (by simp [hm, hn]), ?_⟩
    rw [if_pos ⟨hm, hn⟩]
    refine ⟨bellEvt_sets (by decide) _, ?_, by simp [hm]⟩
    simp only [bellEvt_bell, State.updBell_bell]
    omega
  · exact ⟨s, if_neg (by simpa using h), by rw [if_neg h]⟩

-- ---- the two steps of a slew (R116)
theorem slewFreqMatched_does (s : State) : Does .slewFreqMatched s fun t =>
    if s.bell.mode = .slewing ∧ s.bell.phaseStep = false ∧
        absI (s.bell.freq - s.srcOff * s.frate) ≤ (10 * s.frate : Nat) then
      t.bell.mode = (if s.selSrc = 1 then .tracking else .slewing) ∧ (s.selSrc ≠ 1 → t.bell.phaseStep = true)
    else t = s := by
  change ∃ t, execSlewFreqMatched s = _ ∧ _
  have hc : (s.bell.mode == .slewing && !s.bell.phaseStep && s.freqMatched) = true ↔
      s.bell.mode = .slewing ∧ s.bell.phaseStep = false ∧ absI (s.bell.freq - s.srcOff * s.frate) ≤ (10 * s.frate : Nat) := by
    simp [State.freqMatched, and_assoc]
  unfold execSlewFreqMatched
  simp only [hc]
  split
  next h =>
    by_cases hsrc : s.selSrc = 1
    · exact ⟨_, by rw [if_pos (by simpa using hsrc)], by simp [hsrc]⟩
    · exact ⟨_, by rw [if_neg (by simpa using hsrc)], by simp [hsrc, h]⟩
  next => exact ⟨s, rfl, rfl⟩

theorem slewPhaseDone_does (s : State) : Does .slewPhaseDone s fun t =>
    if s.bell.mode = .slewing ∧ s.bell.phaseStep = true then t.bell.mode = .tracking ∧ t.bell.phaseStep = false else t = s := by
  change ∃ t, execSlewPhaseDone s = _ ∧ _
  unfold execSlewPhaseDone
  by_cases h : s.bell.mode = .slewing ∧ s.bell.phaseStep = true
  · exact ⟨_, if_pos (by simpa using h), by simp [h]⟩
  · exact ⟨s, if_neg (by simpa using h), by simp [h]⟩

/-- Settles O14: the loss of a source is `SourceLeft`, the decision that ends the least holdover is that of R113. -/
theorem holdoverAndSlewFollowTheSource : Obligations.HoldoverAndSlewFollowTheSource := by
  unfold Obligations.HoldoverAndSlewFollowTheSource
  refine ⟨fun s => ⟨sourceLost s, rfl, ?_⟩, holdoverEntry_does, fun s hl => ?_, holdoverNoSource_does, slewFreqMatched_does,
    slewPhaseDone_does⟩
  · have hiff : (s.bell.mode = .holdover ∨ s.selSrc = 1 ∨ s.bell.lost = true ∨ (s.selSrc = 3 ∧ (s.port s.selPort).st = .locked) ∨
        (s.selSrc = 4 ∧ s.linkTrained = true)) ↔ s.bell.mode = .holdover ∨ s.bell.lost = true ∨ s.selHere = true := by
      rw [s.selHere_iff, or_left_comm (a := s.selSrc = 1)]
    beta_reduce
    split
    next h => exact sourceLost_stands (hiff.1 h)
    next h =>
      obtain ⟨hd, hlost, hm, he, hx, hmeas⟩ := sourceLost_leaves (mt hiff.2 h)
      exact ⟨hd, hlost, hm, he, fun hf => ⟨hx hf, hmeas hf⟩⟩
  · by_cases h : s.bell.mode = .holdover ∧ 192 ≤ s.bell.holdFp
    · refine ⟨decideSource s, holdoverMinEnd_decides h, ?_⟩
      beta_reduce
      rw [if_pos h]
      split
      next e hp =>
        rw [decideSource_slews hl hp fun hstay => hstay.1 h.1]
        obtain ⟨ha, hm, -, -, -, -, hc, -⟩ := slews_of_startSlew e s
        exact ⟨ha, hm, hc⟩
      next hp => exact decideSource_none hl hp
    · exact ⟨s, holdoverMinEnd_stands h, by beta_reduce; rw [if_neg h]⟩

end Sys2Proof.Machine
end

section
/-! SUPPORT. The writes of the frame clock registers and the boundary that applies them (R110, R128, R129, R489). -/

namespace Sys2Proof.Machine

open Sys2Proof

-- ---- the frame clock settings at their boundary (R110, R128)
/-- A register of the frame clock block that is not the event register. -/
abbrev FcWord (a : Nat) : Prop := aFc ≤ a ∧ a ≠ fcEvt

/-- A register holds the value last written and nothing is pending. -/
structure Applied (a : Nat) (v : W) (t : State) : Prop where
  reg : t.reg a = v
  pend : t.bell.pend = []

theorem sourceLost_pend (s : State) : (sourceLost s).bell.pend = s.bell.pend := by
  unfold sourceLost
  extract_lets e u
  split
  · rfl
  · cases ho : s.bell.onLink <;> simp [leaveSource, u, ho]

theorem portLeft_pend (n : Nat) (s : State) : (portLeft n s).bell.pend = s.bell.pend :=
  ite_keep (Q := fun t : State => t.bell.pend = s.bell.pend) (sourceLost_pend s) rfl

section
variable {a : Nat} {v : W} {t : State} (h : Applied a v t)
include h

theorem Applied.updBell {f : Bell → Bell} (hf : (f t.bell).pend = t.bell.pend) : Applied a v (t.updBell f) := ⟨h.reg, hf.trans h.pend⟩

theorem Applied.bellEvt (ha : FcWord a) {bit : Nat} (hb : bit < 16) : Applied a v (bellEvt bit t) :=
  ⟨by rw [bellEvt_reg hb, if_neg ha.2, h.reg], by rw [bellEvt_bell, h.pend]⟩

/-- The words of the input ports lie below those of the frame clock. -/
theorem Applied.loseLock (ha : FcWord a) {n : Nat} (hn : n < 16) : Applied a v (loseLock n t) := by
  obtain ⟨hfc, hevt⟩ := ha
  by_cases hl : (t.port n).st = .locked ∨ (t.port n).st = .rateHold
  · rw [loseLock_locked hl]
    have hport : a ≠ sealCnt n 2 ∧ a ≠ spEvt n ∧ a ≠ spCnt n 5 := by
      unfold sealCnt spEvt spCnt aPort
      unfold aFc at hfc
      omega
    obtain ⟨hseal, hsp, hcnt⟩ := hport
    refine ⟨?_, ?_⟩
    · rw [lockLost_reg hseal hevt, if_neg hsp, if_neg hcnt, h.reg]
    · rw [lockLost, portLeft_pend]
      simp [toAcquire, dropSealBuf, portEvtBound, h.pend]
  · rw [loseLock_unlocked hl]
    exact h

theorem Applied.takeRewritten (ha : FcWord a) : Applied a v (takeRewritten t) :=
  have hslew (e : Nat) : Applied a v (startSlew e t) := ⟨h.reg, h.pend⟩
  ite_keep ((hslew _).bellEvt ha (by decide)) h

theorem Applied.applyPrio (ha : FcWord a) (old new : W) : Applied a v (applyPrio old new t) := by
  unfold Machine.applyPrio
  extract_lets changed u e was
  have hu : Applied a v u := each_keep _ _ (fun e w hw => ite_keep (hw.updBell rfl) hw) h
  exact ite_keep ((hu.updBell rfl).takeRewritten ha) hu

end

/-- The write that was last takes effect, whatever waits before it. -/
theorem applySettings_applied {a : Nat} {v : W} {l : Tab W} {s : State} (ha : FcWord a) (h : s.bell.pend = l ++ [(a, v)]) :
    Applied a v (applySettings s) := by
  unfold applySettings
  extract_lets old oldRate oldOff u₁ u₂ u₃ u₄
  have hu₂ : Applied a v u₂ := ⟨by simp [u₂, u₁, h], rfl⟩
  have hu₃ : Applied a v u₃ := ite_keep hu₂ (hu₂.applyPrio ha _ _)
  have hu₄ : Applied a v u₄ := ite_keep (hu₃.updBell rfl) hu₃
  exact ite_keep hu₄ (each_keep_mem (fun n hn t ht => ht.loseLock ha (List.mem_range.1 hn)) hu₄)

theorem fcSettingsApply_applied {a : Nat} {v : W} {l : Tab W} {s : State} (ha : FcWord a) (h : s.bell.pend = l ++ [(a, v)]) :
    Does .fcSettingsApply s fun u => u.reg a = v ∧ u.bell.pend = [] := by
  have happ := applySettings_applied ha h
  obtain ⟨hr, hp⟩ : Applied a v (if (s.frate, s.mLog2) = ((applySettings s).frate, (applySettings s).mLog2) then applySettings s
      else rebuildAll (applySettings s)) := by
    refine ite_keep happ ⟨?_, ?_⟩
    · rw [State.reg_of_same (rebuildAll_keep (.same (p := .regs) rfl _) _ rfl), happ.reg]
    · rw [rebuildAll_keep (.same (p := .bell) rfl (applySettings s)) _ rfl, happ.pend]
  exact ⟨_, rfl, hr, hp⟩

theorem roundDiv_mul_cancel (a : Int) {b : Int} (hb : 0 < b) : roundDiv (a * b) b = a := by
  have hnear (k : Int) : (2 * (k * b) + b).fdiv (2 * b) = k := by
    rw [Int.fdiv_eq_ediv_of_nonneg _ (by omega), show 2 * (k * b) + b = b + k * (2 * b) by ring, Int.add_mul_ediv_right _ _ (by omega),
      Int.ediv_eq_zero_of_lt (by omega) (by omega), zero_add]
  unfold roundDiv
  rw [← Int.neg_mul, hnear, hnear, Int.neg_neg, ite_self]

/-- With nothing pending the boundary changes nothing. -/
theorem applySettings_idle {s : State} (hp : s.bell.pend = []) (hf : s.frate ≠ 0) : applySettings s = s := by
  have hround : roundDiv (s.bell.freq * s.frate) s.frate = s.bell.freq := roundDiv_mul_cancel _ (by omega)
  have hself : s.updBell (fun b => { b with pend := [], freq := roundDiv (b.freq * s.frate) s.frate }) = s := by
    simp only [State.updBell, hround, ← hp]
  simp [applySettings, hp, hf, hself]

theorem fcSettingsApply_idle (s : State) (hp : s.bell.pend = []) (hf : s.frate ≠ 0) : Does .fcSettingsApply s fun t => t = s := by
  refine ⟨s, ?_, rfl⟩
  change execFcSettingsApply s = _
  simp [execFcSettingsApply, applySettings_idle hp hf]

-- ---- a write that waits, and one that is ignored (R128, R129)
/-- The write changes nothing of the Bellwether and sets CFG_IGNORED. -/
def FcIgnored (s t : State) : Prop := t.bell = s.bell ∧ bitOf (t.reg fcEvt) 6 = true

/-- The write changes no register and takes effect at the boundary. -/
def FcWaits (a : Nat) (v : W) (s t : State) : Prop := t.fcNext a = v ∧ t.regs = s.regs ∧
  Does .fcSettingsApply t fun u => u.reg a = v ∧ u.bell.pend = []

theorem bellIgnored_ignored (s : State) : FcIgnored s (bellIgnored s) := ⟨bellEvt_bell 6 s, bellEvt_sets (by decide) s⟩

theorem tget_filter_append {α : Type} (d : α) (l : Tab α) (a : Nat) (v : α) : tget d (l.filter (fun e => e.1 != a) ++ [(a, v)]) a = v := by
  induction l with
  | nil => simp [tget]
  | cons e l ih =>
    obtain ⟨k, x⟩ := e
    by_cases hk : k = a <;> simp [hk, tget, ih]

theorem setPend_waits {a : Nat} (ha : FcWord a) (v : W) (s : State) : FcWaits a v s (setPend a v s) :=
  ⟨tget_filter_append _ _ _ _, rfl, fcSettingsApply_applied ha rfl⟩

/-- A write that waits within its limits and is ignored otherwise. -/
theorem does_setPend {c : Instr} {a : Nat} {v : W} {s : State} {p q : Prop} [Decidable p] [Decidable q] (ha : FcWord a)
    (hx : exec c s = .next (if p then setPend a v s else bellIgnored s)) (hpq : p ↔ q) :
    Does c s fun t => if q then FcWaits a v s t else FcIgnored s t := by
  refine ⟨_, hx, ?_⟩
  beta_reduce
  by_cases hp : p
  · rw [if_pos hp, if_pos (hpq.1 hp)]
    exact setPend_waits ha v s
  · rw [if_neg hp, if_neg (mt hpq.2 hp)]
    exact bellIgnored_ignored s

-- ---- the five writes (R110, R129, R489)
theorem fcPrioWrite_does (v : W) (s : State) : Does (.fcPrioWrite v) s fun t =>
    if ∀ e : Fin 4, fld v (8 * e.val + 5) 3 ≤ 4 ∧ bitOf v (8 * e.val + 4) = false ∧
      (fld v (8 * e.val + 5) 3 = 3 ∨ fld v (8 * e.val) 4 = 0) then FcWaits fcPrio v s t else FcIgnored s t := by
  refine does_setPend (by decide) (show execFcPrioWrite v s = _ from rfl) ?_
  have hall (f : Nat → Bool) : [0, 1, 2, 3].all f = true ↔ ∀ e : Fin 4, f e.val = true := by simp [Fin.forall_fin_succ]
  rw [hall]
  refine forall_congr' fun e => ?_
  change _ ↔ prioSrc v e.val ≤ 4 ∧ bitOf v (8 * e.val + 4) = false ∧ (prioSrc v e.val = 3 ∨ prioPort v e.val = 0)
  simp [and_assoc]

theorem fcWindowWrite_does (v : W) (s : State) : Does (.fcWindowWrite v) s fun t =>
    if 1 ≤ fld v 24 8 ∧ fld v 24 8 ≤ 100 ∧ 1 ≤ fld v 16 8 ∧ fld v 16 8 ≤ 200 ∧ 100 ≤ fld v 0 16 ∧ fld v 0 16 ≤ 20000
    then FcWaits fcWindow v s t else FcIgnored s t :=
  does_setPend (by decide) (show execFcWindowWrite v s = _ from rfl) Iff.rfl

/-- A mask of ones over a field leaves the field. -/
theorem fld_and_ones (v : W) {m : W} {lo width : Nat} (h : fld m lo width = 2 ^ width - 1) : fld (v &&& m) lo width = fld v lo width := by
  unfold fld fieldN at h ⊢
  rw [BitVec.toNat_and, Nat.and_div_two_pow, Nat.and_mod_two_pow, h, Nat.and_two_pow_sub_one_eq_mod, Nat.mod_mod]

theorem fcPhaseWrite_does (v : W) (s : State) : Does (.fcPhaseWrite v) s fun t =>
    let cc := 800000000 / fld (s.fcNext fcRate) 0 18
    if fld v 0 16 < cc ∧ 2 * fld v 24 8 < cc then FcWaits fcPhase (v &&& 0xFF00FFFF) s t else FcIgnored s t := by
  refine does_setPend (by decide) (show execFcPhaseWrite v s = _ from rfl) ?_
  have hcc (fr : Nat) : (if fr = 0 then 0 else 800000000 / fr) = 800000000 / fr := by
    split
    next h => simp [h]
    next => rfl
  rw [hcc, fld_and_ones v (by decide), fld_and_ones v (by decide)]

/-- A write of FRATE or M_LOG2 meets R489, R110 and the limits of R129 in this order. -/
theorem does_rateWrite {c : Instr} {a : Nat} {v : W} {s : State} {ok : Bool} (ha : FcWord a) (hx : exec c s = .next (rateWrite a v s))
    (hok : s.rateOk (fld (if a = fcRate then v else s.fcNext fcRate) 0 18) (fld (if a = fcRatio then v else s.fcNext fcRatio) 0 2) = ok) :
    Does c s fun t => if s.joined = true then FcIgnored s t else if s.fcNext a = v then t = s
      else if s.anyArmed = true ∨ ok = false then FcIgnored s t else FcWaits a v s t := by
  refine ⟨_, hx, ?_⟩
  subst hok
  by_cases hj : s.joined = true
  · simpa [rateWrite, hj] using bellIgnored_ignored s
  by_cases hv : s.fcNext a = v
  · simp [rateWrite, hj, hv]
  by_cases harm : s.anyArmed = true
  · simpa [rateWrite, hj, hv, harm] using bellIgnored_ignored s
  cases hok : s.rateOk (fld (if a = fcRate then v else s.fcNext fcRate) 0 18) (fld (if a = fcRatio then v else s.fcNext fcRatio) 0 2) with
  | false => simpa [rateWrite, hj, hv, harm, hok] using bellIgnored_ignored s
  | true => simpa [rateWrite, hj, hv, harm, hok] using setPend_waits ha v s

theorem fcRateWrite_does (v : W) (s : State) : Does (.fcRateWrite v) s fun t =>
    let v := v &&& 0x3FFFF
    if s.joined = true then FcIgnored s t else if s.fcNext fcRate = v then t = s
    else if s.anyArmed = true ∨ s.rateOk (fld v 0 18) (fld (s.fcNext fcRatio) 0 2) = false then FcIgnored s t
    else FcWaits fcRate v s t :=
  does_rateWrite (by decide) rfl rfl

theorem fcRatioWrite_does (v : W) (s : State) : Does (.fcRatioWrite v) s fun t =>
    let v := v &&& 3
    if s.joined = true then FcIgnored s t else if s.fcNext fcRatio = v then t = s
    else if s.anyArmed = true ∨ s.rateOk (fld (s.fcNext fcRate) 0 18) (fld v 0 2) = false then FcIgnored s t
    else FcWaits fcRatio v s t :=
  does_rateWrite (by decide) rfl rfl

/-- Settles O15: a write waits (`setPend_waits`) or is ignored, and what the boundary does after it leaves the register
(`applySettings_applied`). -/
theorem frameClockWritesWaitForTheBoundary : Obligations.FrameClockWritesWaitForTheBoundary := by
  unfold Obligations.FrameClockWritesWaitForTheBoundary
  exact ⟨fcPrioWrite_does, fcWindowWrite_does, fcPhaseWrite_does, fcRateWrite_does, fcRatioWrite_does, fcSettingsApply_idle⟩

end Sys2Proof.Machine
end

section
/-! SUPPORT. The frame boundary: the frame that opens, the release of the ports and the run counts (R40, R91, R95, R108, R122). -/

namespace Sys2Proof.Machine

open Sys2Proof

-- ---- the frame that opens (R108)
/-- After it has opened the frame the boundary keeps what the primitives on the parts other than the Bellwether keep. -/
theorem frameBoundary_after {P : State → Prop} (hP : Keeps [.regs, .wide, .ports, .outs, .chans, .folds, .binds, .gates, .injs,
    .diags, .rings, .svc, .col, .tal, .host, .free] P) (len : Nat) (fails : List (Fin 16 × Fin 32)) (s : State) (h : P (openFrame len s)) :
    P (frameBoundary len fails s) := by
  have hports := each_keep (List.range 16) (portBoundary fails) (fun n => portBoundary_keep (hP.mono (by decide)) fails n)
    (unbindAtBoundary_keep (hP.mono (by decide)) _ h)
  have hbanks (l : List Nat) {t : State} (ht : P t) : P (each l (writeBank fails) t) :=
    each_keep l _ (fun ch => writeBank_keep (hP.mono (by decide)) fails ch) ht
  have hcross (l : List Nat) {t : State} (ht : P t) : P (each l (zcBoundary fails) t) :=
    each_keep l _ (fun ch => zcBoundary_keep (hP.mono (by decide)) fails ch) ht
  have houts {t : State} (ht : P t) : P (each (List.range 4) latchOut t) :=
    each_keep _ _ (fun n => latchOut_keep (hP.mono (by decide)) n) ht
  unfold frameBoundary
  exact diagStarts_keep (hP.mono (by decide)) _ (ftbAtBoundary_keep (hP.mono (by decide)) _ (gatesAtBoundary_keep (hP.mono (by decide)) _
    (houts (draw_keep (hP.mono (by decide)) (hcross _ (hbanks _ hports))))))

theorem frameBoundary_bell (len : Nat) (fails : List (Fin 16 × Fin 32)) (s : State) :
    (frameBoundary len fails s).bell = (openFrame len s).bell :=
  frameBoundary_after (.same (p := .bell) (by decide) _) len fails s (Part.same_refl .bell _)

theorem frameBoundary_opens (len : BitVec 32) (fails : List (Fin 16 × Fin 32)) (s : State) : Does (.frameBoundary len fails) s fun t =>
    t.bell.frame = s.bell.frame + 1 ∧ t.bell.mode = s.bell.mode ∧ t.bell.len256 = s.frameLen len.toNat ∧
    256 * t.bell.bPt + t.bell.bFrac = 256 * s.bell.bPt + s.bell.bFrac + s.bell.len256 ∧
    t.bell.holdFp = s.bell.holdFp + (if s.bell.mode = .holdover then 1 else 0) := by
  refine ⟨frameBoundary len.toNat fails s, rfl, ?_⟩
  simp only [frameBoundary_bell, openFrame, State.updBell_bell]
  refine ⟨trivial, trivial, trivial, Nat.div_add_mod _ _, ?_⟩
  by_cases h : s.bell.mode = .holdover <;> simp [h]

-- ---- release and slip (R95, R122)
theorem slipEvt_reg (s : State) (a : Nat) : (slipEvt s).reg a = if a = fcEvt then setBit (s.reg fcEvt) 4 else s.reg a := by
  rw [slipEvt, raise_reg, mkRep_bit (by decide)]

/-- A port whose frames slip: LOCKED, and not one that the Bellwether tracks (R120, R122). -/
abbrev State.slips (s : State) (n : Nat) : Prop := (s.port n).st = .locked ∧ s.held n = false

theorem slip_words (n : Nat) : slipRepeat n ≠ fcEvt ∧ slipDrop n ≠ fcEvt ∧ slipDrop n ≠ slipRepeat n := by
  unfold slipRepeat slipDrop fcEvt
  omega

section
variable {n : Nat} {s : State}

theorem takeFrame_repeat (hq : (s.port n).queue = []) (hs : s.slips n) (hr : (s.port n).relOnce = true) :
    takeFrame n s = (slipEvt ((s.bump (slipRepeat n)).addWide (spTally n 7) (s.sampleSlots n).length), none) := by
  simp [takeFrame, hq, hs, hr]

theorem takeFrame_none (hq : (s.port n).queue = []) (h : ¬(s.slips n ∧ (s.port n).relOnce = true)) : takeFrame n s = (s, none) := by
  unfold takeFrame
  simp only [hq]
  exact if_neg (by simpa [and_assoc] using h)

theorem takeFrame_one {a : QFrame} (hq : (s.port n).queue = [a]) : takeFrame n s =
    (s.setPort n { s.port n with queue := [], relOnce := (s.port n).relOnce || (s.port n).st == .locked }, some a) := by
  simp [takeFrame, hq]

theorem takeFrame_drop {a b : QFrame} {l : List QFrame} (hq : (s.port n).queue = a :: b :: l) (hs : s.slips n) : takeFrame n s =
    ((slipEvt ((s.bump (slipDrop n)).addWide (spTally n 2) a.samples.length)).setPort n
      { s.port n with queue := l, relOnce := true, dropEv := (s.port n).dropEv ++ a.samples }, some b) := by
  simp [takeFrame, hq, hs]

theorem takeFrame_oldest {a b : QFrame} {l : List QFrame} (hq : (s.port n).queue = a :: b :: l) (hs : ¬s.slips n) : takeFrame n s =
    (s.setPort n { s.port n with queue := b :: l, relOnce := (s.port n).relOnce || (s.port n).st == .locked }, some a) := by
  unfold takeFrame
  simp only [hq]
  exact if_neg (by simpa using hs)

end

/-- With no frame waiting a port that slips counts a repeat. -/
theorem takeFrame_empty (n : Nat) (s : State) (hq : (s.port n).queue = []) : let r := takeFrame n s
    r.2 = none ∧ (r.1.port n).queue = [] ∧
      r.1.reg (slipRepeat n) = s.reg (slipRepeat n) +
        (if (s.port n).st = .locked ∧ s.held n = false ∧ (s.port n).relOnce = true then 1 else 0) ∧
      r.1.reg (slipDrop n) = s.reg (slipDrop n) := by
  obtain ⟨hrep, hdrop, hne⟩ := slip_words n
  intro r
  unfold r
  by_cases h : s.slips n ∧ (s.port n).relOnce = true
  · rw [takeFrame_repeat hq h.1 h.2]
    simp [slipEvt, hrep, hdrop, hne, hq, h]
  · rw [takeFrame_none hq h, if_neg (by simpa [and_assoc] using h)]
    exact ⟨rfl, hq, by simp, rfl⟩

/-- Of two frames that wait at a port that slips the newer is released and the older dropped. -/
theorem takeFrame_drops (n : Nat) (s : State) {a b : QFrame} {l : List QFrame} (hq : (s.port n).queue = a :: b :: l) (hs : s.slips n) :
    let r := takeFrame n s
    r.2 = some b ∧ (r.1.port n).queue = l ∧
      (r.1.port n).dropEv = (s.port n).dropEv ++ a.samples ∧ r.1.reg (slipDrop n) = s.reg (slipDrop n) + 1 ∧
      r.1.reg (slipRepeat n) = s.reg (slipRepeat n) ∧ bitOf (r.1.reg fcEvt) 4 = true := by
  obtain ⟨hrep, hdrop, hne⟩ := slip_words n
  intro r
  unfold r
  rw [takeFrame_drop hq hs]
  simp [slipEvt_reg, hrep, hdrop, hne.symm]

-- ---- the run count of a slot (R91)
/-- RUN restarts at a valid sample released and else rises to its limit. -/
theorem release_run (x : SlotSt) (rel : Bool) (q : Option QSample) : (x.release true rel q).run =
    if (q.map (·.valid)).getD false = true then 0 else min 0xFFFF (x.run + 1) := by
  simp [SlotSt.release]

/-- Settles O16: after `openFrame` nothing of the boundary writes the Bellwether; each row of the table of R122 is one equation of
`takeFrame`. -/
theorem frameBoundariesCountAndRelease : Obligations.FrameBoundariesCountAndRelease := by
  unfold Obligations.FrameBoundariesCountAndRelease
  refine ⟨frameBoundary_opens, fun n s => ⟨takeFrame_empty n.val s, fun a hq => ?_, fun a b l hq hst hheld => ?_, fun a b l hq hs => ?_⟩,
    fun x rel q => ?_⟩
  · rw [takeFrame_one hq]
    simp
  · exact takeFrame_drops n.val s hq ⟨hst, hheld⟩
  · rw [takeFrame_oldest hq (by simpa [imp_iff_not_or] using hs)]
    simp
  · rw [release_run]
    cases q <;> rfl

end Sys2Proof.Machine
end

section
/-! SUPPORT. Every step keeps the tables of bytes and register words canonical (R135, R143, R504). -/

namespace Sys2Proof.Machine

open Sys2Proof

/-- The register words are in canonical form. -/
def State.regsOk (s : State) : Prop := twf regReset s.regs = true

/-- A word is written and words are dropped within the canonical form; no other operation writes one. -/
theorem regsOk_keeps : Keeps [.regs, .tal, .host] State.regsOk := by
  constructor
  case setReg => exact fun _ _ a v h => twf_tset regReset _ a v h
  case dropRegs => exact fun _ _ p h => twf_tdrop regReset _ p h
  case power => exact fun h => absurd (h .ws) (by decide)
  all_goals intros; assumption

theorem keptRegs_regsOk {s : State} (h : s.regsOk) : s.keptRegs.regsOk :=
  each_keep _ _ (fun a _ => updReg_keep (regsOk_keeps.mono (by decide)) a _) (clearRegs_keep (regsOk_keeps.mono (by decide)) _ h)

theorem powerUp_dram (head : Bool) (s : State) : (powerUp head s).dram = [] := rfl
theorem powerUp_ws (head : Bool) (s : State) : (powerUp head s).ws = [] := rfl
theorem powerUp_regs (head : Bool) (s : State) : (powerUp head s).regs = (cutPens s).keptRegs.regs := by rw [powerUp]

/-- A power-up empties DRAM and the workspaces; the words it keeps stay in canonical form. -/
theorem powerUp_tablesOk (head : Bool) {s : State} (h : s.regsOk) : (powerUp head s).tablesOk := by
  rw [State.tablesOk, powerUp_dram, powerUp_ws, powerUp_regs]
  exact ⟨twf_nil _, twf_nil _, keptRegs_regsOk (cutPens_keep regsOk_keeps s h)⟩

/-- Each operation on one of the three tables keeps its canonical form; no other operation touches them. -/
theorem tablesOk_keeps : Keeps allParts State.tablesOk := by
  constructor
  case setReg => exact fun _ _ a v ⟨hd, hw, hr⟩ => ⟨hd, hw, twf_tset regReset _ a v hr⟩
  case dropRegs => exact fun _ _ p ⟨hd, hw, hr⟩ => ⟨hd, hw, twf_tdrop regReset _ p hr⟩
  case setWs => exact fun _ _ _ _ b ⟨hd, hw, hr⟩ => ⟨hd, twf_tset _ _ _ b hw, hr⟩
  case dropWs => exact fun _ _ p ⟨hd, hw, hr⟩ => ⟨hd, twf_tdrop _ _ p hw, hr⟩
  case setDram => exact fun _ _ a b ⟨hd, hw, hr⟩ => ⟨twf_tset _ _ a b hd, hw, hr⟩
  case dropDram => exact fun _ _ p ⟨hd, hw, hr⟩ => ⟨twf_tdrop _ _ p hd, hw, hr⟩
  case power => exact fun _ _ head ⟨_, _, hr⟩ => powerUp_tablesOk head hr
  all_goals intros; assumption

/-- Settles O4: an operation of a step that writes a byte or a register word keeps its table canonical. -/
theorem stepsKeepTablesCanonical : Obligations.StepsKeepTablesCanonical := by
  unfold Obligations.StepsKeepTablesCanonical
  exact fun _ _ h hst => step_keep tablesOk_keeps (fun _ h => h) h hst

end Sys2Proof.Machine
end

section
/-! SUPPORT. Zero crossings: the sample that is one, and what the boundary does to the gated changes of a channel (R139 to R142). -/

namespace Sys2Proof.Machine

open Sys2Proof

-- ---- crossings (R140)
/-- The valid sample released at a boundary is zero or opposite in sign to the last valid one. -/
def Chan.crossedBy (c : Chan) (v : Option (BitVec 24)) : Prop :=
  ∃ x, v = some x ∧ (x = 0 ∨ ∃ y, c.zc.lastValid = some y ∧ x.toInt * y.toInt < 0)

/-- Signs are opposite where the product is negative. -/
theorem crosses_iff (x : BitVec 24) (last : Option (BitVec 24)) :
    crosses x last = true ↔ x = 0 ∨ ∃ y, last = some y ∧ x.toInt * y.toInt < 0 := by
  cases last with
  | none => simp [crosses]
  | some y =>
    have hsign : x.toInt * y.toInt < 0 ↔ x.toInt < 0 ∧ 0 < y.toInt ∨ 0 < x.toInt ∧ y.toInt < 0 := by
      rw [mul_neg_iff, or_comm]
    simp [crosses, hsign]

theorem crossedBy_iff (c : Chan) (v : Option (BitVec 24)) :
    c.crossedBy v ↔ (match v with | some x => crosses x c.zc.lastValid | none => false) = true := by
  cases v with
  | none => simp [Chan.crossedBy]
  | some x => simp [Chan.crossedBy, crosses_iff]

-- ---- a change that lands (R139, R141)
@[simp] theorem landZc_eff (k : ZcKind) (g : Nat) (c : Chan) : (landZc k g c).zc.eff = c.zcTarget k g := by cases k <;> rfl
@[simp] theorem landZc_pend (k : ZcKind) (g : Nat) (c : Chan) : (landZc k g c).zc.pend = c.zc.pend := by cases k <;> rfl
@[simp] theorem landZc_ramp (k : ZcKind) (g : Nat) (c : Chan) : (landZc k g c).zc.ramp = c.zc.ramp := by cases k <;> rfl
@[simp] theorem landZc_lastValid (k : ZcKind) (g : Nat) (c : Chan) : (landZc k g c).zc.lastValid = c.zc.lastValid := by cases k <;> rfl

/-- Of the pending changes those that land wait no longer; the others wait on. -/
theorem landAll_pend (c : Chan) (t : Nat) : (c.landAll t).zc.pend =
    (c.zc.pend.filter (fun x => decide (x.left.getD 0 = 0))).map (fun x => { x with left := some (x.left.getD t) }) :=
  foldl_same (fun c : Chan => c.zc.pend) _ (fun c (x : ZcChange) => landZc_pend x.kind x.target c) _ _

theorem landAll_lastValid (c : Chan) (t : Nat) : (c.landAll t).zc.lastValid = c.zc.lastValid :=
  foldl_same (fun c : Chan => c.zc.lastValid) _ (fun c (x : ZcChange) => landZc_lastValid x.kind x.target c) _ _

/-- A change that waits alone lands on the gain it leads to: only a start of its own keeps that at 0, and it is no longer pending. -/
theorem landAll_alone {c : Chan} {k : ZcKind} {g n : Nat} (t : Nat) (h : c.zc.pend = [{ kind := k, target := g, left := some (n + 1) }]) :
    (c.landAll t).zc.eff = c.zcTarget k g ∧ (c.landAll t).zc.pend = [] := by
  refine ⟨?_, by simp [landAll_pend, h]⟩
  simp only [Chan.landAll, h, Option.getD_some, Nat.succ_pos, decide_true, List.filter_cons_of_pos, List.filter_nil, List.foldl_cons,
    List.foldl_nil, landZc_eff]
  cases k <;> simp [Chan.zcTarget, Chan.starting, h]

-- ---- one boundary (R140 to R142)
/-- The channel once the release is noted: the gain before it, and its sample where it is valid. -/
def Chan.noted (c : Chan) (v : Option (BitVec 24)) : Chan :=
  { c with zc := { c.zc with prev := c.zc.eff, lastValid := if v.isSome then v else c.zc.lastValid } }

theorem zcStep_crossed {c : Chan} {v : Option (BitVec 24)} (t : Nat) (hr : c.zc.ramp = none) (h : c.crossedBy v) :
    c.zcStep v t = (c.noted v).landAll t := by
  unfold Chan.zcStep
  dsimp only
  split
  next hr' => rw [hr] at hr'; cases hr'
  next => exact if_pos ((crossedBy_iff c v).1 h)

theorem zcStep_uncrossed {c : Chan} {v : Option (BitVec 24)} (t : Nat) (hr : c.zc.ramp = none) (h : ¬c.crossedBy v) :
    c.zcStep v t = { c.noted v with zc := { (c.noted v).zc with
      pend := c.zc.pend.map (fun x => { x with left := some (match x.left with | some n => n - 1 | none => t) }) } } := by
  unfold Chan.zcStep
  dsimp only
  split
  next hr' => rw [hr] at hr'; cases hr'
  next => exact if_neg fun hc => h ((crossedBy_iff c v).2 hc)

/-- Settles O17: at a crossing `landAll` carries out what waits, at another boundary each wait goes on. -/
theorem zeroCrossingsGateByTheLastValidSample : Obligations.ZeroCrossingsGateByTheLastValidSample := by
  unfold Obligations.ZeroCrossingsGateByTheLastValidSample
  intro c v k hr hit t
  have hlast : (c.noted v).zc.lastValid = if v = none then c.zc.lastValid else v := by cases v <;> rfl
  by_cases h : c.crossedBy v
  · have ht : t = (c.noted v).landAll k := zcStep_crossed k hr h
    refine ⟨fun hn => absurd h hn, fun _ => ⟨?_, fun kind g n hp => ?_⟩, ?_⟩
    · rw [ht, landAll_pend, List.length_map]
      rfl
    · rw [ht]
      exact landAll_alone k hp
    · rw [ht, landAll_lastValid, hlast]
  · have ht : t = _ := zcStep_uncrossed k hr h
    refine ⟨fun _ => ?_, fun hn => absurd hn h, ?_⟩
    · rw [ht]
      exact ⟨rfl, rfl, rfl, rfl, hr⟩
    · rw [ht]
      exact hlast

end Sys2Proof.Machine
end

section
/-! SUPPORT. Rows with own checks, BIND and UNBIND (R130 to R132). -/

namespace Sys2Proof.Machine

open Sys2Proof

-- ---- rows with one own check
/-- A row whose one own check fails where `bad` holds is refused there, and acts elsewhere. -/
theorem does_checked {c : Instr} {e : CmdEntry} {st chk : Nat} {ok : Bool} {eff : State → State} {s u : State} {bad : Prop} [Decidable bad]
    {R P : State → Prop} (hrow : exec c s = .next (checked e [(ok, st, chk)] eff u)) (hbad : bad ↔ ok = false)
    (hrefused : R (refuse e st chk u)) (hacts : P (eff u)) : Does c s fun t => if bad then R t else P t := by
  refine ⟨_, hrow, ?_⟩
  beta_reduce
  cases ok
  case false => rwa [if_pos (hbad.2 rfl), checked_fails rfl]
  case true => rwa [if_neg (fun h => absurd (hbad.1 h) (by decide)), checked_passes rfl]

-- ---- BIND (R131)
/-- The own checks of BIND. -/
def bindChecks (e : CmdEntry) (s : State) : List (Bool × Nat × Nat) :=
  let ch := hIndex (opN e 0); let o := opN e 1
  let kind := s.kindOf (fld o 8 4) (fld o 0 5); let hnd := s.handleCheck 1 (opN e 0)
  [(hnd.isNone, hnd.getD 0, 1),
    (decide ((s.chan ch).armed = false), stState, 2),
    (decide (fld o 12 2 ≤ 2 ∧ fld o 16 8 ≤ 9 ∧ (s.spWide (fld o 8 4) = true ∨ fld o 0 5 ≤ 1)), stNoRes, 3),
    (decide (s.spWide (fld o 8 4) = true → kind = 1 ∨ kind = 2), stState, 4),
    (decide (s.bindOf ch (fld o 12 2) = none ∧ (fld o 12 2 = 2 → s.injOf ch = none)), stNoRes, 5),
    (decide ((s.takenAtSlot (fld o 8 4) (fld o 0 5)).length < 4), stNoRes, 6),
    ((s.freeIndex 4).isSome, stNoRes, 7)]

/-- The binding that BIND asks for. -/
def boundOf (e : CmdEntry) : Binding :=
  { live := true, port := fld (opN e 1) 8 4, slot := fld (opN e 1) 0 5, chan := hIndex (opN e 0), input := fld (opN e 1) 12 2
    units := fld (opN e 1) 16 8, exp := fld (opN e 1) 24 8, ending := false }

/-- The state in which the binding stands and its input word is empty. -/
def bindOn (e : CmdEntry) (i : Nat) (s : State) : State :=
  let w := emptyWord (32 * (boundOf e).port + (boundOf e).slot)
  (s.setBind i (boundOf e)).updChan (boundOf e).chan (fun c => { c with inp := { c.inp with
    bank0 := c.inp.bank0.put (boundOf e).input w false, bank1 := c.inp.bank1.put (boundOf e).input w false } })

theorem bindOf_none_iff (s : State) (ch w : Nat) :
    s.bindOf ch w = none ↔ s.liveBinds.any (fun i => (s.bind i).chan == ch && (s.bind i).input == w) = false := by
  rw [State.bindOf, List.find?_eq_none, List.any_eq_false]

/-- The checks of BIND as the model writes them. -/
theorem bindChecks_eq (e : CmdEntry) (s : State) : let ch := hIndex (opN e 0); let o := opN e 1
    let port := fld o 8 4; let slot := fld o 0 5; let input := fld o 12 2
    bindChecks e s = [((s.handleCheck 1 (opN e 0)).isNone, (s.handleCheck 1 (opN e 0)).getD 0, 1),
      (!(s.chan ch).armed, stState, 2),
      (decide (input ≤ 2 ∧ fld o 16 8 ≤ 9) && (s.spWide port || decide (slot ≤ 1)), stNoRes, 3),
      (!s.spWide port || (s.kindOf port slot == 1 || s.kindOf port slot == 2), stState, 4),
      (!s.liveBinds.any (fun i => (s.bind i).chan == ch && (s.bind i).input == input) && (input != 2 || (s.injOf ch).isNone), stNoRes, 5),
      (decide ((s.takenAtSlot port slot).length < 4), stNoRes, 6),
      ((s.freeIndex 4).isSome, stNoRes, 7)] := by
  intro ch o port slot input
  have harm : decide ((s.chan ch).armed = false) = !(s.chan ch).armed := by cases (s.chan ch).armed <;> rfl
  have hkind : decide (s.spWide port = true → s.kindOf port slot = 1 ∨ s.kindOf port slot = 2) =
      (!s.spWide port || (s.kindOf port slot == 1 || s.kindOf port slot == 2)) := by
    rw [Bool.eq_iff_iff]
    simp only [decide_eq_true_eq, Bool.or_eq_true, Bool.not_eq_true', beq_iff_eq, imp_iff_not_or, Bool.not_eq_true]
  have hrange : decide (input ≤ 2 ∧ fld o 16 8 ≤ 9 ∧ (s.spWide port = true ∨ slot ≤ 1)) =
      (decide (input ≤ 2 ∧ fld o 16 8 ≤ 9) && (s.spWide port || decide (slot ≤ 1))) := by
    simp [Bool.decide_and, Bool.decide_or, Bool.and_assoc]
  have hinput : decide (s.bindOf ch input = none ∧ (input = 2 → s.injOf ch = none)) =
      (!s.liveBinds.any (fun i => (s.bind i).chan == ch && (s.bind i).input == input) && (input != 2 || (s.injOf ch).isNone)) := by
    rw [Bool.eq_iff_iff]
    simp only [decide_eq_true_eq, bindOf_none_iff, Bool.and_eq_true, Bool.not_eq_true', Bool.or_eq_true, bne_iff_ne, Option.isNone_iff_eq_none,
      imp_iff_not_or, ne_eq]
  unfold bindChecks
  dsimp only
  rw [harm, hkind, hrange, hinput]

/-- What BIND does of its own once its checks have passed. -/
def bindNow (e : CmdEntry) (s : State) : State :=
  let i := (s.freeIndex 4).getD 0
  acceptNow e (mkHandle 4 i ((bindOn e i s).gen 4 i)) (bindOn e i s)

theorem bindNow_binds {e : CmdEntry} {s : State} (h : firstFail (bindChecks e s) = none) : ∃ i, s.freeIndex 4 = some i ∧
    (bindNow e s).bind i = boundOf e ∧ (∀ j, j ≠ i → (bindNow e s).bind j = s.bind j) ∧
      Posted e stOk (mkHandle 4 i (s.gen 4 i)) 0 s (bindNow e s) := by
  have hall := firstFail_none h
  simp only [bindChecks, List.mem_cons, forall_eq_or_imp] at hall
  obtain ⟨-, -, -, -, -, -, hfree, -⟩ := hall
  obtain ⟨i, hi⟩ := Option.isSome_iff_exists.1 hfree
  simp only [bindNow, hi, Option.getD_some]
  exact ⟨i, rfl, by simp [acceptNow, bindOn], fun j hj => by simp [acceptNow, bindOn, hj], acceptNow_posted e _ rfl⟩

theorem bind_eq {e : CmdEntry} {s : State} (h : s.accepts e 0x0201) : exec (.bind e) s = .next
    (checked e (bindChecks e (s.untake e)) (bindNow e) (s.untake e)) := by
  rw [bindChecks_eq]
  exact congrArg Host.Outcome.next (commandRow_accepted h)

theorem bind_does (e : CmdEntry) (s : State) (h : s.accepts e 0x0201) : let u := s.untake e
    Does (.bind e) s fun t => match firstFail (bindChecks e u) with
      | some (st, chk) => Posted e st 0 chk u t ∧ ∀ p : Part, p ≠ .rings → p.same u t
      | none => ∃ i, u.freeIndex 4 = some i ∧ t.bind i = boundOf e ∧ (∀ j, j ≠ i → t.bind j = u.bind j) ∧
          Posted e stOk (mkHandle 4 i (u.gen 4 i)) 0 u t := by
  intro u
  have hrow := bind_eq h
  cases hf : firstFail (bindChecks e u) with
  | some r => exact ⟨_, hrow.trans (congrArg _ (checked_fails hf)), refuse_posted e r.1 r.2 u⟩
  | none => exact ⟨_, hrow.trans (congrArg _ (checked_passes hf)), bindNow_binds hf⟩

-- ---- UNBIND (R132)
theorem unbind_eq {e : CmdEntry} {s : State} (h : s.accepts e 0x0202) : exec (.unbind e) s = .next
    (checked e [(!((s.untake e).chan ((s.untake e).bind (hIndex (opN e 0))).chan).armed, stState, 1)]
      (fun u => acceptLater e 0 ((u.setBind (hIndex (opN e 0)) { u.bind (hIndex (opN e 0)) with ending := true }).advGen 4 (hIndex (opN e 0))))
      (s.untake e)) :=
  congrArg Host.Outcome.next (commandRow_accepted h)

theorem unbind_does (e : CmdEntry) (s : State) (h : s.accepts e 0x0202) : let u := s.untake e; let i := hIndex (opN e 0)
    Does (.unbind e) s fun t =>
      if (u.chan (u.bind i).chan).armed = true then Posted e stState 0 1 u t ∧ t.binds = u.binds
      else t.bind i = { u.bind i with ending := true } ∧ t.gen 4 i = nextGen (u.gen 4 i) ∧ InProgress e u t := by
  intro u i
  refine does_checked (unbind_eq h) (by simp [u, i]) ⟨(refuse_posted e stState 1 u).1, rfl⟩ ⟨?_, ?_, acceptLater_inProgress e rfl rfl⟩
  · simp [acceptLater, u, i]
  · exact (State.gen_advGen _ 4 i 4 i).trans (if_pos rfl)

end Sys2Proof.Machine
end

section
/-! SUPPORT. Staging groups: STAGE, STAGE.SET, COMMIT and ABORT (R13, R179, R305). -/

namespace Sys2Proof.Machine

open Sys2Proof

-- ---- STAGE and ABORT (R13, R305)
theorem stage_eq {e : CmdEntry} {s : State} (h : s.accepts e 0x0501) : exec (.stage e) s = .next
    (checked e [(((s.untake e).chan (hIndex (opN e 0))).st != .deleting, stState, 1)]
      (fun u => acceptNow e 0 (u.updChan (hIndex (opN e 0)) (fun c => { c with grp := some Group.none }))) (s.untake e)) :=
  congrArg Host.Outcome.next (commandRow_accepted h)

theorem stage_does (e : CmdEntry) (s : State) (h : s.accepts e 0x0501) : let u := s.untake e; let ch := hIndex (opN e 0)
    Does (.stage e) s fun t => if (u.chan ch).st = .deleting then Posted e stState 0 1 u t ∧ t.chans = u.chans
      else (t.chan ch).grp = some Group.none ∧ Posted e stOk 0 0 u t := by
  intro u ch
  exact does_checked (stage_eq h) (by simp [u, ch]) (refuse_chans e stState 1 u) ⟨by simp [acceptNow_chan, ch], acceptNow_posted e 0 rfl⟩

theorem abort_eq {e : CmdEntry} {s : State} (h : s.accepts e 0x0504) : exec (.abort e) s = .next
    (checked e [(((s.untake e).chan (hIndex (opN e 0))).grp.isSome, stState, 1)]
      (fun u => acceptNow e 0 (u.updChan (hIndex (opN e 0)) (fun c => { c with grp := none }))) (s.untake e)) :=
  congrArg Host.Outcome.next (commandRow_accepted h)

theorem abort_does (e : CmdEntry) (s : State) (h : s.accepts e 0x0504) : let u := s.untake e; let ch := hIndex (opN e 0)
    Does (.abort e) s fun t => if (u.chan ch).grp = none then Posted e stState 0 1 u t ∧ t.chans = u.chans
      else (t.chan ch).grp = none ∧ (t.chan ch).md = (u.chan ch).md ∧ Posted e stOk 0 0 u t := by
  intro u ch
  exact does_checked (abort_eq h) (by simp [u, ch]) (refuse_chans e stState 1 u)
    ⟨by simp [acceptNow_chan, ch], by simp [acceptNow_chan, u, ch], acceptNow_posted e 0 rfl⟩

-- ---- the operands of STAGE.SET (R292, R305)
/-- A field that STAGE.SET writes, and a value in its range. -/
abbrev StageFits (field v : Nat) : Prop := (field = 1 ∨ field = 2) ∧ v ≤ 1 ∨ field = 3 ∧ 1 ≤ v ∧ v ≤ 255

theorem rangeCheck_stageSet {e : CmdEntry} (s : State) (hop : opcodeOf e = 0x0502) :
    s.rangeCheck e = if StageFits (fld (opN e 1) 0 8) (opN e 2).toNat then none else some stNoRes := by
  unfold State.rangeCheck
  simp only [hop]
  refine (if_congr ?_ rfl rfl).trans (ite_not _ _ _)
  unfold StageFits
  generalize fld (opN e 1) 0 8 = field
  generalize (opN e 2).toNat = v
  split
  next => simp
  next => simp
  next => simp; omega
  next h1 h2 h3 =>
    simp only [true_iff]
    rintro (⟨h | h, -⟩ | ⟨h, -⟩)
    exacts [h1 h, h2 h, h3 h]

/-- An entry of a row's opcode whose operands are out of range is refused, where no earlier general check refuses it, at check 0xF7. -/
theorem general_of_rangeCheck {e : CmdEntry} {s : State} {n st : Nat} (hop : nopsOf (opcodeOf e) = some n) (hr : s.rangeCheck e = some st) :
    ∃ st' chk, s.general e = some (st', chk) ∧ (chk ≤ 0xF6 ∨ st' = st ∧ chk = 0xF7) := by
  simp only [State.general, hop, hr]
  repeat' split
  all_goals exact ⟨_, _, rfl, by simp⟩

theorem withBlock_none {e : CmdEntry} {f : State → State} {s : State} (blk : List (BitVec 8)) (h : blockOf e = none) :
    withBlock e blk f s = f s := by
  unfold withBlock State.readBlock
  cases blk <;> simp [h]

/-- The row of a command that reads no block. -/
theorem commandRow_noBlock {op : Nat} {own : CmdEntry → State → State} {e : CmdEntry} {s : State} (hph : s.boot.phase = 6)
    (hop : opcodeOf e = op) (hblk : blockOf e = none) : commandRow op own e s = runCommand own e (s.untake e) := by
  have hu : (if s.svc.taken == some e then s.updSvc (fun v => { v with taken := none, takenBlk := [] }) else s) = s.untake e := by
    simp [State.untake]
  unfold commandRow
  simp only [hph, bne_self_eq_false, Bool.false_eq_true, if_false, hu, if_pos hop]
  exact withBlock_none _ hblk

theorem stageSet_unfit (e : CmdEntry) (s : State) (hph : s.boot.phase = 6) (hop : opcodeOf e = 0x0502)
    (hno : ¬StageFits (fld (opN e 1) 0 8) (opN e 2).toNat) : let u := s.untake e
    ∃ st chk, u.general e = some (st, chk) ∧ (chk ≤ 0xF6 ∨ st = stNoRes ∧ chk = 0xF7) ∧
      Does (.stageSet e) s fun t => Posted e st 0 chk u t ∧ t.chans = u.chans := by
  intro u
  have hrange : u.rangeCheck e = some stNoRes := by rw [rangeCheck_stageSet u hop, if_neg hno]
  obtain ⟨st, chk, hgen, hchk⟩ := general_of_rangeCheck (n := 3) (by rw [hop]; rfl) hrange
  refine ⟨st, chk, hgen, hchk, refuse e st chk u, congrArg Host.Outcome.next ?_, refuse_chans e st chk u⟩
  rw [commandRow_noBlock hph hop (by simp [blockOf, hop]), runCommand, hgen]

-- ---- STAGE.SET (R305)
/-- The group with the field of a STAGE.SET written. -/
def Group.stage (g : Group) (field v : Nat) : Group :=
  match field with
  | 1 => { g with safe := some (v == 1) }
  | 2 => { g with audible := some (v == 1) }
  | _ => { g with zcTimeout := some v }

theorem stageSet_none {e : CmdEntry} {s : State} (h : s.accepts e 0x0502) (hg : ((s.untake e).chan (hIndex (opN e 0))).grp = none) :
    exec (.stageSet e) s = .next (refuse e stState 1 (s.untake e)) := by
  refine congrArg Host.Outcome.next ((commandRow_accepted h).trans ?_)
  simp only [hg]

theorem stageSet_some {e : CmdEntry} {s : State} {g : Group} (h : s.accepts e 0x0502)
    (hg : ((s.untake e).chan (hIndex (opN e 0))).grp = some g) : exec (.stageSet e) s = .next (acceptNow e 0
      ((s.untake e).updChan (hIndex (opN e 0)) (fun c => { c with grp := some (g.stage (fld (opN e 1) 0 8) (opN e 2).toNat) }))) := by
  refine congrArg Host.Outcome.next ((commandRow_accepted h).trans ?_)
  simp only [hg] <;> rfl

theorem stageSet_does (e : CmdEntry) (s : State) (h : s.accepts e 0x0502) : let u := s.untake e; let ch := hIndex (opN e 0)
    let v := (opN e 2).toNat
    Does (.stageSet e) s fun t => match (u.chan ch).grp with
      | none => Posted e stState 0 1 u t ∧ t.chans = u.chans
      | some g => Posted e stOk 0 0 u t ∧
          ((fld (opN e 1) 0 8 = 1 ∧ v ≤ 1 ∧ (t.chan ch).grp = some { g with safe := some (v == 1) }) ∨
            (fld (opN e 1) 0 8 = 2 ∧ v ≤ 1 ∧ (t.chan ch).grp = some { g with audible := some (v == 1) }) ∨
            (fld (opN e 1) 0 8 = 3 ∧ 1 ≤ v ∧ v ≤ 255 ∧ (t.chan ch).grp = some { g with zcTimeout := some v })) := by
  intro u ch v
  cases hg : (u.chan ch).grp with
  | none => exact ⟨_, stageSet_none h hg, refuse_chans e stState 1 u⟩
  | some g =>
    refine ⟨_, stageSet_some h hg, acceptNow_posted e 0 rfl, ?_⟩
    rw [acceptNow_chan, State.updChan_eq, State.setChan_read, if_pos rfl]
    obtain ⟨-, hop, -, hgen, -⟩ := h
    have hfits : StageFits (fld (opN e 1) 0 8) v := by
      by_contra hno
      have hrange := rangeCheck_of_general hgen
      rw [rangeCheck_stageSet _ hop, if_neg hno] at hrange
      cases hrange
    obtain ⟨hf | hf, hv⟩ | ⟨hf, hv⟩ := hfits
    · exact .inl ⟨hf, hv, by rw [hf]; rfl⟩
    · exact .inr (.inl ⟨hf, hv, by rw [hf]; rfl⟩)
    · exact .inr (.inr ⟨hf, hv.1, hv.2, by rw [hf]; rfl⟩)

-- ---- COMMIT (R179, R191, R304)
/-- The own checks of COMMIT of a group. -/
def commitChecks (ch : Nat) (g : Group) (s : State) : List (Bool × Nat × Nat) :=
  let c := s.chan ch
  let m := c.md.with g
  [(!g.modulates || s.modOk c m (g.audible.getD c.audible), stState, 2),
    (decide (m.slew ≤ 13) && (m.slew == 0 || decide (64 ≤ m.dt)), stState, 3)]

theorem commit_none {e : CmdEntry} {s : State} (h : s.accepts e 0x0503) (hg : ((s.untake e).chan (hIndex (opN e 0))).grp = none) :
    exec (.commit e) s = .next (refuse e stState 1 (s.untake e)) := by
  refine congrArg Host.Outcome.next ((commandRow_accepted h).trans ?_)
  simp only [hg]

theorem commit_some {e : CmdEntry} {s : State} {g : Group} (h : s.accepts e 0x0503)
    (hg : ((s.untake e).chan (hIndex (opN e 0))).grp = some g) : exec (.commit e) s = .next
      (checked e (commitChecks (hIndex (opN e 0)) g (s.untake e)) (fun u => acceptLater e 0 (u.setChan (hIndex (opN e 0))
        { (s.untake e).chan (hIndex (opN e 0)) with grp := none, commit := some g })) (s.untake e)) := by
  refine congrArg Host.Outcome.next ((commandRow_accepted h).trans ?_)
  simp only [hg] <;> rfl

/-- The first own check of COMMIT that fails. -/
theorem commitChecks_fail (ch : Nat) (g : Group) (s : State) : let c := s.chan ch; let m := c.md.with g
    firstFail (commitChecks ch g s) = if g.modulates = true ∧ s.modOk c m (g.audible.getD c.audible) = false then some (stState, 2)
      else if 13 < m.slew ∨ (m.slew ≠ 0 ∧ m.dt < 64) then some (stState, 3) else none := by
  intro c m
  have hmod : (!g.modulates || s.modOk c m (g.audible.getD c.audible)) =
      !decide (g.modulates = true ∧ s.modOk c m (g.audible.getD c.audible) = false) := by
    cases g.modulates <;> cases s.modOk c m (g.audible.getD c.audible) <;> rfl
  have hslew : (decide (m.slew ≤ 13) && (m.slew == 0 || decide (64 ≤ m.dt))) = !decide (13 < m.slew ∨ (m.slew ≠ 0 ∧ m.dt < 64)) := by
    rw [Bool.eq_iff_iff]
    simp
  simp only [commitChecks, firstFail]
  rw [hmod, hslew]
  simp only [Bool.not_eq_true', decide_eq_false_iff_not, ite_not]

theorem commit_group {e : CmdEntry} {s : State} {g : Group} (h : s.accepts e 0x0503) : let u := s.untake e; let ch := hIndex (opN e 0)
    let m := (u.chan ch).md.with g
    (u.chan ch).grp = some g → Does (.commit e) s fun t =>
      if g.modulates = true ∧ u.modOk (u.chan ch) m (g.audible.getD (u.chan ch).audible) = false then
        Posted e stState 0 2 u t ∧ t.chans = u.chans
      else if 13 < m.slew ∨ (m.slew ≠ 0 ∧ m.dt < 64) then Posted e stState 0 3 u t ∧ t.chans = u.chans
      else (t.chan ch).grp = none ∧ (t.chan ch).commit = some g ∧ (t.chan ch).md = (u.chan ch).md ∧ InProgress e u t := by
  intro u ch m hg
  have hfail : firstFail (commitChecks ch g u) = _ := commitChecks_fail ch g u
  refine ⟨_, commit_some h hg, ?_⟩
  split
  next hmod =>
    rw [checked_fails (hfail.trans (if_pos hmod))]
    exact refuse_chans e stState 2 u
  next hmod =>
    split
    next hslew =>
      rw [checked_fails (hfail.trans ((if_neg hmod).trans (if_pos hslew)))]
      exact refuse_chans e stState 3 u
    next hslew =>
      rw [checked_passes (hfail.trans ((if_neg hmod).trans (if_neg hslew)))]
      refine ⟨?_, ?_, ?_, acceptLater_inProgress e rfl rfl⟩ <;> simp [acceptLater_chan, ch, u]

theorem commit_does (e : CmdEntry) (s : State) (h : s.accepts e 0x0503) : let u := s.untake e; let ch := hIndex (opN e 0)
    Does (.commit e) s fun t => match (u.chan ch).grp with
      | none => Posted e stState 0 1 u t ∧ t.chans = u.chans
      | some g =>
        let m := (u.chan ch).md.with g
        if g.modulates = true ∧ u.modOk (u.chan ch) m (g.audible.getD (u.chan ch).audible) = false then
          Posted e stState 0 2 u t ∧ t.chans = u.chans
        else if 13 < m.slew ∨ (m.slew ≠ 0 ∧ m.dt < 64) then Posted e stState 0 3 u t ∧ t.chans = u.chans
        else (t.chan ch).grp = none ∧ (t.chan ch).commit = some g ∧ (t.chan ch).md = (u.chan ch).md ∧ InProgress e u t := by
  intro u ch
  cases hg : (u.chan ch).grp with
  | none => exact ⟨_, commit_none h hg, refuse_chans e stState 1 u⟩
  | some g => exact commit_group h hg

end Sys2Proof.Machine
end

section
/-! SUPPORT. Staged fields: the writes that stage them and the boundary at which they become the settings (R170, R178, R304). -/

namespace Sys2Proof.Machine

open Sys2Proof

-- ---- ST_FIELD_WRITE (R178)
theorem modEvent_sets {bit : Nat} (hb : bit < 16) (t : Nat) (s : State) : bitOf ((modEvent t bit s).reg (modEvt (flockOf t))) bit = true := by
  have hc := mkRep_bit hb (srcFlock (flockOf t)) 1 0 2 t
  unfold modEvent raiseOnce
  rw [hc]
  split
  next h => exact h
  next => exact bitOf_raise hc s

theorem stIgnored_chans (t reg : Nat) (s : State) : (stIgnored t reg s).chans = s.chans :=
  stIgnored_keep (.same (p := .chans) rfl s) t reg s rfl

theorem stIgnored_sets (t reg : Nat) (s : State) : (reg ≠ 2 → bitOf ((stIgnored t reg s).reg (modEvt (flockOf t))) 1 = true) ∧
    (reg = 2 → bitOf ((stIgnored t reg s).reg (foldEvt (foldOf t))) 13 = true) := by
  unfold stIgnored
  refine ⟨fun h => ?_, fun h => ?_⟩
  · rw [if_neg h]
    exact modEvent_sets (by decide) t s
  · rw [if_pos h]
    exact bitOf_raise (mkRep_bit (by decide) ..) s

theorem stFieldWrite_ignored (t0 : Fin 512) (reg : Fin 3) (v : W) (s : State)
    (h : ∀ ch, s.ownerOf t0.val = some ch → (s.chan ch).grp = none ∨ (s.chan ch).adm.first ≠ t0.val) :
    Does (.stFieldWrite t0 reg v) s fun t => t.chans = s.chans ∧
      (reg.val ≠ 2 → bitOf (t.reg (modEvt (flockOf t0.val))) 1 = true) ∧ (reg.val = 2 → bitOf (t.reg (foldEvt (foldOf t0.val))) 13 = true) := by
  refine ⟨stIgnored t0.val reg.val s, ?_, stIgnored_chans _ _ s, stIgnored_sets _ _ s⟩
  change execStFieldWrite t0 reg v s = _
  unfold execStFieldWrite
  split
  next => rfl
  next ch how =>
    dsimp only
    split
    next => rfl
    next g hg =>
      have hfirst : (s.chan ch).adm.first ≠ t0.val := (h ch how).resolve_left (by simp [hg])
      rw [if_pos (by simpa using hfirst)]

theorem stFieldWrite_stages (t0 : Fin 512) (reg : Fin 3) (v : W) (s : State) (ch : Nat) (g : Group) (how : s.ownerOf t0.val = some ch)
    (hg : (s.chan ch).grp = some g) (hfirst : (s.chan ch).adm.first = t0.val) :
    Does (.stFieldWrite t0 reg v) s fun t => t.regs = s.regs ∧ (t.chan ch).md = (s.chan ch).md ∧
      (t.chan ch).grp = some (match reg with
        | 0 => { g with mode := some (fld v 0 3), kLog2 := some (fld v 8 2), spread := some (fld v 12 4) }
        | 1 => { g with dt := some (fld v 16 10), minp := some (fld v 0 9) }
        | _ => { g with slew := some (fld v 0 4) }) := by
  unfold Does
  change ∃ t, execStFieldWrite t0 reg v s = _ ∧ _
  simp only [execStFieldWrite, how, hg, hfirst, bne_self_eq_false, Bool.false_eq_true, if_false]
  refine ⟨_, rfl, rfl, by simp, ?_⟩
  rw [State.setChan_read, if_pos rfl]
  fin_cases reg <;> rfl

-- ---- COMMIT_APPLY (R170, R178, R305)
/-- The periods of a channel that commits a group end, and with a change of mode its residues. -/
def commitClosed (ch : Nat) (smp : Option FloatIn) (g : Group) (s : State) : State :=
  let c := s.chan ch
  let u := each c.terms (fun t s => closePeriod t (showPeriod t c.curP s)) (takeSample ch smp s)
  if (c.md.with g).mode = c.md.mode then u else each c.terms dropResidue u

theorem commitClosed_chan (ch : Nat) (smp : Option FloatIn) (g : Group) (s : State) (j : Nat) :
    (commitClosed ch smp g s).chan j = s.chan j := by
  have hP : Keeps [.regs, .wide, .terms, .motors, .tal, .host] (Part.same .chans s) := .same rfl s
  have hclosed := each_keep (s.chan ch).terms (fun t u => closePeriod t (showPeriod t (s.chan ch).curP u))
    (fun t u hu => closePeriod_keep (hP.mono (by decide)) t _ (showPeriod_keep (hP.mono (by decide)) t _ u hu))
    (takeSample_keep (hP.mono (by decide)) ch smp s (Part.same_refl .chans s))
  exact State.chan_of_same (ite_keep hclosed
    (each_keep _ dropResidue (fun t u hu => dropResidue_keep (hP.mono (by decide)) t u hu) hclosed)) j

/-- The channel `d` with the settings in effect that `c` has committed, before its gain follows a change of the audible mark. -/
def Chan.settled (c : Chan) (g : Group) (d : Chan) : Chan :=
  { d with
    md := c.md.with g, commit := none, safe := g.safe.getD d.safe
    loop := { d.loop with injPt := g.injPt.getD d.loop.injPt }
    zc := { d.zc with ms := g.zcTimeout.getD d.zc.ms } }

/-- The channel `d` as the group leaves it that `c` has committed (R139, R142, R178). -/
def Chan.committed (c : Chan) (g : Group) (d : Chan) : Chan :=
  let audible := g.audible.getD c.audible
  let x := c.settled g d
  if x.audible && !audible then { clearAudible x with audible := false }
  else if !x.audible && audible then
    let y : Chan := { x with audible := true }
    { y with zc := { y.zc with eff := y.restGain } }
  else x

theorem clearAudible_keeps (c : Chan) : (clearAudible c).commit = c.commit ∧ (clearAudible c).md = c.md ∧ (clearAudible c).safe = c.safe := by
  unfold clearAudible
  dsimp only
  split <;> exact ⟨rfl, rfl, rfl⟩

theorem committed_fields (c : Chan) (g : Group) : (c.committed g c).commit = none ∧ (c.committed g c).md = c.md.with g ∧
    (c.committed g c).safe = g.safe.getD c.safe ∧ (c.committed g c).audible = g.audible.getD c.audible := by
  obtain ⟨hcommit, hmd, hsafe⟩ := clearAudible_keeps (c.settled g c)
  have haudible : (c.settled g c).audible = c.audible := rfl
  unfold Chan.committed
  simp only [haudible]
  generalize g.audible.getD c.audible = a
  split
  next h => exact ⟨hcommit, hmd, hsafe, by simpa using (Bool.and_eq_true_iff.1 h).2⟩
  next h =>
    split
    next h' => exact ⟨rfl, rfl, rfl, (Bool.and_eq_true_iff.1 h').2.symm⟩
    next h' =>
      refine ⟨rfl, rfl, rfl, ?_⟩
      rw [haudible]
      simp only [Bool.and_eq_true, Bool.not_eq_true', not_and, Bool.not_eq_true, Bool.not_eq_false] at h h'
      cases hc : c.audible
      · exact (h' hc).symm
      · exact (h hc).symm

/-- The state once the committed group stands in its channel; a stop that it lands idles the motor. -/
def commitDone (ch : Nat) (smp : Option FloatIn) (g : Group) (s : State) : State :=
  let u := (commitClosed ch smp g s).updChan ch ((s.chan ch).committed g)
  if (s.chan ch).armed && !(u.chan ch).armed then motorIdle ch u else u

theorem commitApply_eq {ch : Fin 512} {s : State} {g : Group} (smp : Option FloatIn) (hg : (s.chan ch.val).commit = some g) :
    exec (.commitApply ch smp) s = .next (refreshGates (finishObj 0x0503 (1, ch.val) 0 (commitDone ch.val smp g s))) := by
  change execCommitApply ch smp s = _
  unfold execCommitApply
  extract_lets c
  split
  next hn => rw [hg] at hn; cases hn
  next g' hg' =>
    obtain rfl : g = g' := Option.some.inj (hg.symm.trans hg')
    rfl

theorem commitDone_chan (ch : Nat) (smp : Option FloatIn) (g : Group) (s : State) : ∃ a b,
    (commitDone ch smp g s).chan ch = { (s.chan ch).committed g (s.chan ch) with step := a, stepPend := b } := by
  have hchan : ((commitClosed ch smp g s).updChan ch ((s.chan ch).committed g)).chan ch = (s.chan ch).committed g (s.chan ch) := by
    rw [State.updChan_eq, State.setChan_read, if_pos rfl, commitClosed_chan]
  unfold commitDone
  extract_lets u
  split
  next =>
    obtain ⟨a, b, h⟩ := motorIdle_chan ch u ch
    exact ⟨a, b, by rw [h, hchan]⟩
  next => exact ⟨_, _, hchan⟩

theorem commitApply_does (ch : Fin 512) (smp : Option FloatIn) (s : State) (g : Group) (hg : (s.chan ch.val).commit = some g) :
    Does (.commitApply ch smp) s fun t =>
      (t.chan ch.val).commit = none ∧ (t.chan ch.val).md = (s.chan ch.val).md.with g ∧
        (t.chan ch.val).safe = g.safe.getD (s.chan ch.val).safe ∧ (t.chan ch.val).audible = g.audible.getD (s.chan ch.val).audible := by
  refine ⟨_, commitApply_eq smp hg, ?_⟩
  obtain ⟨a, b, h⟩ := commitDone_chan ch.val smp g s
  rw [refreshGates_chan, finishObj_chan, h]
  exact committed_fields (s.chan ch.val) g

/-- Settles O20: each row is its own checks and its own effect on the state that the core has untaken. -/
theorem bindingsAndStagedFieldsTakeTheirTurn : Obligations.BindingsAndStagedFieldsTakeTheirTurn := by
  unfold Obligations.BindingsAndStagedFieldsTakeTheirTurn
  exact ⟨bind_does, unbind_does, stage_does, stageSet_does, stageSet_unfit, commit_does, abort_does, stFieldWrite_stages,
    stFieldWrite_ignored, commitApply_does⟩

end Sys2Proof.Machine
end

section
/-! SUPPORT. Gated changes: asked for, started as a ramp when their wait runs out, and landed (R139, R141, R142, R306). -/

namespace Sys2Proof.Machine

open Sys2Proof

-- ---- MUTE, UNMUTE and GAIN (R142, R306)
/-- What MUTE, UNMUTE and GAIN do of their own once their checks have passed. -/
def askOn (k : ZcKind) (e : CmdEntry) (s : State) : State :=
  acceptNow e 0 (s.setChan (hIndex (opN e 0)) (askZc k (fld (opN e 1) 0 16) (s.chan (hIndex (opN e 0)))))

/-- The own checks of MUTE, UNMUTE and GAIN. -/
def askChecks (e : CmdEntry) (s : State) : List (Bool × Nat × Nat) :=
  [((s.chan (hIndex (opN e 0))).audible, stState, 1), (!(s.chan (hIndex (opN e 0))).stopping, stBusy, 2)]

theorem checked_asks (k : ZcKind) (e : CmdEntry) (s : State) : let ch := hIndex (opN e 0); let c := s.chan ch
    let t := checked e (askChecks e s) (askOn k e) s
    if c.audible = false then Posted e stState 0 1 s t ∧ t.chans = s.chans
    else if c.stopping = true then Posted e stBusy 0 2 s t ∧ t.chans = s.chans
    else Posted e stOk 0 0 s t ∧ t.chan ch = askZc k (fld (opN e 1) 0 16) c ∧ ∀ j, j ≠ ch → t.chan j = s.chan j := by
  dsimp only
  split
  next ha =>
    rw [checked_fails (st := stState) (chk := 1) (by simp [askChecks, firstFail, ha])]
    exact refuse_chans e stState 1 s
  next ha =>
    split
    next hs =>
      rw [checked_fails (st := stBusy) (chk := 2) (by simp [askChecks, firstFail, ha, hs])]
      exact refuse_chans e stBusy 2 s
    next hs =>
      rw [checked_passes (by simp [askChecks, firstFail, ha, hs])]
      exact ⟨acceptNow_posted e 0 rfl, by simp [askOn, acceptNow_chan], fun j hj => by simp [askOn, acceptNow_chan, hj]⟩

theorem gainRows_ask (e : CmdEntry) (s : State) (op : Nat) (row : Instr) (k : ZcKind)
    (hmem : (op, row, k) ∈ [(0x0604, Instr.mute e, ZcKind.mute), (0x0605, .unmute e, .unmute), (0x0606, .gain e, .gain)])
    (h : s.accepts e op) : let u := s.untake e; let ch := hIndex (opN e 0); let c := u.chan ch
    Does row s fun t =>
      if c.audible = false then Posted e stState 0 1 u t ∧ t.chans = u.chans
      else if c.stopping = true then Posted e stBusy 0 2 u t ∧ t.chans = u.chans
      else Posted e stOk 0 0 u t ∧ t.chan ch = askZc k (fld (opN e 1) 0 16) c ∧ ∀ j, j ≠ ch → t.chan j = u.chan j := by
  have hrow : exec row s = .next (gainRow op k e s) := by
    simp only [List.mem_cons, Prod.mk.injEq, List.not_mem_nil, or_false] at hmem
    obtain ⟨rfl, rfl, rfl⟩ | ⟨rfl, rfl, rfl⟩ | ⟨rfl, rfl, rfl⟩ := hmem <;> rfl
  have hacts : gainRow op k e s = checked e (askChecks e (s.untake e)) (askOn k e) (s.untake e) := commandRow_accepted h
  exact ⟨_, hrow.trans (congrArg _ hacts), checked_asks k e (s.untake e)⟩

-- ---- ZC_TIMEOUT (R141, R142)
theorem zcTimeout_ramps (ch : Fin 512) (s : State) : Does (.zcTimeout ch) s fun t =>
    match (s.chan ch.val).zc.pend.find? (fun x => x.left == some 0) with
    | some x => (t.chan ch.val).zc.ramp = some { kind := x.kind, target := x.target, from_ := (s.chan ch.val).zc.eff, step := 0 } ∧
        (t.chan ch.val).zc.pend = ((s.chan ch.val).zc.pend.erase x).map (fun y => { y with left := none }) ∧
        (t.chan ch.val).zc.timeouts = min 0xFFFF ((s.chan ch.val).zc.timeouts + 1) ∧
        bitOf (t.reg (intEvt (s.chan ch.val).flock)) 7 = true
    | none => t = s := by
  unfold Does
  change ∃ t, execZcTimeout ch s = _ ∧ _
  unfold execZcTimeout
  extract_lets c
  change ∃ t, _ ∧ match c.zc.pend.find? (fun x => x.left == some 0) with | some x => _ | none => _
  cases c.zc.pend.find? (fun x => x.left == some 0) with
  | none => exact ⟨s, rfl, rfl⟩
  | some x => exact ⟨_, rfl, by simp [c], by simp [c], by simp [c], bitOf_raise (mkRep_bit (by decide) ..) _⟩

-- ---- a ramp (R142)
/-- The 64th step of a ramp lands on its target. -/
theorem zcStep_lands {c : Chan} {r : ZcRamp} (v : Option (BitVec 24)) (n : Nat) (hr : c.zc.ramp = some r) (h : r.step = 63) :
    c.zcStep v n = landZc r.kind r.target { c.noted v with zc := { (c.noted v).zc with ramp := none } } := by
  simp only [Chan.zcStep, hr, h]
  rfl

/-- Any step before moves the gain a 64th of the way, rounded down. -/
theorem zcStep_moves {c : Chan} {r : ZcRamp} (v : Option (BitVec 24)) (n : Nat) (hr : c.zc.ramp = some r) (h : r.step ≠ 63) :
    c.zcStep v n = { c.noted v with zc := { (c.noted v).zc with
      ramp := some { r with step := r.step + 1 }
      eff := if c.starting then 0
        else (r.from_ + floorDiv (((c.zcTarget r.kind r.target : Int) - r.from_) * (r.step + 1 : Nat)) 64).toNat } } := by
  have h' : r.step + 1 ≠ 64 := by omega
  simp only [Chan.zcStep, hr, if_neg h']
  rfl

theorem zcStep_ramp (c : Chan) (v : Option (BitVec 24)) (n : Nat) (r : ZcRamp) (hr : c.zc.ramp = some r) : let t := c.zcStep v n
    if r.step = 63 then t.zc.eff = c.zcTarget r.kind r.target ∧ t.zc.ramp = none ∧ t.zc.pend = c.zc.pend
    else t.zc.ramp = some { r with step := r.step + 1 } ∧ (t.zc.eff : Int) = if c.starting = true then 0
      else max 0 (r.from_ + floorDiv (((c.zcTarget r.kind r.target : Int) - r.from_) * (r.step + 1)) 64) := by
  intro t
  split
  next h =>
    simp only [t, zcStep_lands v n hr h, landZc_eff, landZc_ramp, landZc_pend, true_and]
    exact ⟨rfl, rfl⟩
  next h =>
    simp only [t, zcStep_moves v n hr h, true_and]
    split
    · rfl
    · rw [Int.toNat_eq_max, max_comm]
      push_cast
      rfl

-- ---- GATED_STOP_IDLE (R141)
theorem goIdle_chan (ch : Nat) (s : State) : ((goIdle ch s).chan ch).st = .idle ∧ ((goIdle ch s).chan ch).zc.stopping = false ∧
    ((goIdle ch s).chan ch).cmdQ = none := by
  rw [goIdle, refreshGates_chan]
  obtain ⟨a, b, hm⟩ := motorIdle_chan ch _ ch
  rw [hm]
  simp [Chan.leaveArmed]

theorem gatedStopIdle_idles (ch : Fin 512) (s : State) : Does (.gatedStopIdle ch) s fun t =>
    if (s.chan ch.val).zc.stopping = true ∧ (s.chan ch.val).st = .armed then
      (t.chan ch.val).st = .idle ∧ (t.chan ch.val).zc.stopping = false ∧ (t.chan ch.val).cmdQ = none
    else t = s := by
  unfold Does
  change ∃ t, execGatedStopIdle ch s = _ ∧ _
  unfold execGatedStopIdle
  simp only [Chan.armed, Bool.and_eq_true, beq_iff_eq]
  split
  next => exact ⟨_, rfl, goIdle_chan ch.val s⟩
  next => exact ⟨s, rfl, rfl⟩

/-- Settles O22: three rows share `gainRow`; a timeout, a ramp's step and the end of a gated stop each write their own channel. -/
theorem gatedChangesStartWaitRampAndLand : Obligations.GatedChangesStartWaitRampAndLand := by
  unfold Obligations.GatedChangesStartWaitRampAndLand
  exact ⟨gainRows_ask, zcTimeout_ramps, zcStep_ramp, gatedStopIdle_idles⟩

end Sys2Proof.Machine
end

section
/-! SUPPORT. A step change that takes the sample of its period (R166, R372) in a table of motors whose numbers fall. -/

namespace Sys2Proof.Machine

open Sys2Proof

/-- Motors 1 and 0, listed in that order, both of channel 0, with a step change that waits. -/
def motorsFalling : State :=
  { State.reset with
    chans := [(0, { Chan.free with st := .idle, step := 0, stepPend := [(1, 0)] })]
    motors := [(1, { Motor.none with live := true, posted := true }), (0, { Motor.none with live := true })] }

/-- The sample of the period that ends is motor 1's; its write puts motor 0 in front, and the step change acts on that one. -/
theorem stepChangeApply_misses_motor : motorsFalling.motorOf 0 = some 1 ∧
    ∃ t, exec (.stepChangeApply 0 64 (some { float := 0, bus := 0 })) motorsFalling = .next t ∧ (t.motor 1).posted = true :=
  ⟨by decide +kernel, _, rfl, by decide +kernel⟩

/-- Refutes O30: STEP_CHANGE_APPLY looks its motor up again after it has taken the sample. In a table of motors that is not in canonical
form, with two motors of one channel, it then finds another than the channel had before, whose mark `posted` stays. -/
theorem not_gateEventsForcesAndEscalationsActOnTheLeg : ¬ Obligations.GateEventsForcesAndEscalationsActOnTheLeg := by
  unfold Obligations.GateEventsForcesAndEscalationsActOnTheLeg
  rintro ⟨-, -, -, hstep, -⟩
  obtain ⟨howner, t, ht, hposted⟩ := stepChangeApply_misses_motor
  obtain ⟨t', ht', h⟩ := hstep 0 64 (some { float := 0, bus := 0 }) motorsFalling
  obtain rfl : t = t' := Host.Outcome.next.inj (ht.symm.trans ht')
  obtain ⟨-, -, hmotor⟩ := (if_neg (by decide : ¬64 < 0 + 64)).mp h
  have hdone : (t.motor 1).posted = false := (hmotor 1 howner).1
  exact absurd (hposted.symm.trans hdone) (by decide)

end Sys2Proof.Machine
end

section
/-! SUPPORT. No step turns both sides of a leg on (R161, R162, R164, R165, R174). -/

namespace Sys2Proof.Machine

open Sys2Proof

/-- Every leg is off after a power-up. -/
theorem powerUp_legsOk (head : Bool) (s : State) : (powerUp head s).legsOk := fun _ h => absurd h.1 Bool.false_ne_true

/-- A terminal that is written has both sides on only where it had them on before. -/
theorem State.setTerm_legsOk {s : State} {i : Nat} {x : Term} (hx : LegLe (s.term i) x) (h : s.legsOk) : (s.setTerm i x).legsOk := by
  intro t
  rw [State.setTerm_read]
  split
  · exact fun ⟨hhi, hlo⟩ => h i (hx.both hhi hlo)
  · exact h t

/-- Only `setTerm` and a power-up write the sides of a leg. -/
theorem legsOk_keeps : Keeps allParts State.legsOk := by
  constructor
  case setTerm => exact fun _ _ _ _ hx h => State.setTerm_legsOk hx h
  case power => exact fun _ _ head _ => powerUp_legsOk head _
  all_goals intros; assumption

/-- Settles O5: an operation of a step that writes a terminal turns no side on beside the other. -/
theorem stepsKeepLegsApart : Obligations.StepsKeepLegsApart := by
  unfold Obligations.StepsKeepLegsApart
  exact fun _ _ h hst => step_keep legsOk_keeps (fun _ h => h) h hst

end Sys2Proof.Machine
end

section
/-! SUPPORT. The on-time of a carrier period: what it delivers, drops and carries on, and what a leg that fails repeats (R160, R164, R167,
R168, R171, R181). -/

namespace Sys2Proof.Machine

open Sys2Proof

-- ---- treatment of a requested on-time (R168)
/-- The on-time `x` is a pulse of the period: it keeps the distance h from both edges. -/
def Formed (p h : Nat) (x : Int) : Prop := 0 < x ∧ x < p ∧ (h : Int) ≤ x ∧ x ≤ (p : Int) - 2 * h

/-- The on-time `x` leaves the leg low: there is none, or too little for a pulse. -/
def TooLow (p h : Nat) (x : Int) : Prop := x ≤ 0 ∨ x < p ∧ x < h

/-- The account of a period in which the leg is low. -/
def lowPeriod (start p : Nat) (t r : Int) (row : Nat) : Period :=
  { start, p, t, t' := t + r, deliv := 0, drop := 0, rNew := t + r, row, cr := 0, cf := 0, repeated := false, rbFail := false }

/-- The account of a period in which the leg is high. -/
def highPeriod (start p : Nat) (t r : Int) (row : Nat) : Period :=
  { start, p, t, t' := t + r, deliv := p, drop := 0, rNew := t + r - p, row, cr := 0, cf := p, repeated := false, rbFail := false }

/-- The account of a period with a pulse, which stands in its centre. -/
def pulsePeriod (start p : Nat) (t r : Int) : Period :=
  let cr := (((p : Int) - (t + r)) / 2).toNat
  { start, p, t, t' := t + r, deliv := t + r, drop := 0, rNew := 0, row := 0, cr, cf := cr + (t + r).toNat, repeated := false, rbFail := false }

/-- Row 2 of R168 holds: the on-time lies inside the period and forms no pulse. -/
def Suppressed (p h : Nat) (x : Int) : Prop := 0 < x ∧ x < p ∧ (x < h ∨ (p : Int) - 2 * h < x)

/-- The three outcomes of R168, each with the row it shows. -/
theorem treat_cases (start p h : Nat) (t r : Int) :
    (Formed p h (t + r) ∧ treat start p h t r = pulsePeriod start p t r) ∨
    (∃ row, (row = 1 ∨ row = 2) ∧ (row = 2 ↔ Suppressed p h (t + r)) ∧
      (TooLow p h (t + r) ∧ treat start p h t r = lowPeriod start p t r row ∨
        ¬TooLow p h (t + r) ∧ ¬Formed p h (t + r) ∧ treat start p h t r = highPeriod start p t r row)) := by
  unfold treat
  simp only [Formed, TooLow, Suppressed]
  split
  next h1 => exact .inr ⟨1, .inl rfl, by omega, .inl ⟨.inl h1, rfl⟩⟩
  next h1 =>
  split
  next h2 => exact .inr ⟨1, .inl rfl, by omega, .inr ⟨by omega, by omega, rfl⟩⟩
  next h2 =>
  split
  next h3 => exact .inr ⟨2, .inr rfl, by omega, .inl ⟨by omega, rfl⟩⟩
  next h3 =>
  split
  next h4 => exact .inr ⟨2, .inr rfl, by omega, .inr ⟨by omega, by omega, rfl⟩⟩
  next h4 => exact .inl ⟨by omega, rfl⟩

theorem Formed.not_tooLow {p h : Nat} {x : Int} (hf : Formed p h x) : ¬TooLow p h x := by
  simp only [Formed, TooLow] at *
  omega

/-- A pulse is as long as its on-time and lies in the centre of its period, to one pt. -/
theorem pulsePeriod_centred {p h : Nat} {t r : Int} (start : Nat) (hf : Formed p h (t + r)) : let q := pulsePeriod start p t r
    (q.cf : Int) = q.cr + (t + r) ∧ q.cf ≤ p ∧ 2 * (q.cr : Int) + (t + r) ≤ p ∧ (p : Int) ≤ 2 * q.cr + (t + r) + 1 := by
  obtain ⟨hpos, hlt, -, -⟩ := hf
  simp only [pulsePeriod]
  omega

theorem highPeriod_drive {start p : Nat} {t r : Int} {row : Nat} (hp : 0 < p) : (highPeriod start p t r row).drive = .high := by
  simp [Period.drive, highPeriod, hp.ne']

/-- What R168 says of each on-time: one outcome after the other. -/
theorem treat_settles (start p h : Nat) (t r : Int) : let q := treat start p h t r
    q.t + r = q.deliv + q.drop + q.rNew ∧ q.start = start ∧ q.p = p ∧
    (q.row = 0 ↔ Formed p h (t + r)) ∧
    (q.row = 0 → (q.cf : Int) = q.cr + (t + r) ∧ q.cf ≤ p ∧ 2 * (q.cr : Int) + (t + r) ≤ p ∧ (p : Int) ≤ 2 * q.cr + (t + r) + 1 ∧
      q.deliv = t + r ∧ q.rNew = 0) ∧
    (q.row ≠ 0 → if t + r ≤ 0 ∨ t + r < p ∧ t + r < h then q.deliv = 0 ∧ q.cr = 0 ∧ q.cf = 0 ∧ q.rNew = t + r ∧ q.drive = .low
      else q.deliv = p ∧ q.cr = 0 ∧ q.cf = p ∧ q.rNew = t + r - p ∧ (0 < p → q.drive = .high)) ∧
    (q.row = 2 ↔ Suppressed p h (t + r)) := by
  intro q
  rcases treat_cases start p h t r with ⟨hf, hq⟩ | ⟨row, hrow, h2, ⟨hlow, hq⟩ | ⟨hlow, hf, hq⟩⟩
  · obtain ⟨hlen, hend, hleft, hright⟩ := pulsePeriod_centred start hf
    have hsup : ¬Suppressed p h (t + r) := by simp only [Formed, Suppressed] at *; omega
    simp only [q, hq]
    exact ⟨by simp [pulsePeriod], rfl, rfl, iff_of_true rfl hf, fun _ => ⟨hlen, hend, hleft, hright, rfl, rfl⟩,
      fun h0 => absurd rfl h0, iff_of_false (by simp [pulsePeriod]) hsup⟩
  · have h0 : row ≠ 0 := by omega
    simp only [q, hq]
    refine ⟨by simp [lowPeriod], rfl, rfl, iff_of_false h0 fun hf => hf.not_tooLow hlow, fun h => absurd h h0, fun _ => ?_, h2⟩
    unfold TooLow at hlow
    rw [if_pos hlow]
    exact ⟨rfl, rfl, rfl, rfl, rfl⟩
  · have h0 : row ≠ 0 := by omega
    simp only [q, hq]
    refine ⟨by simp [highPeriod], rfl, rfl, iff_of_false h0 hf, fun h => absurd h h0, fun _ => ?_, h2⟩
    unfold TooLow at hlow
    rw [if_neg hlow]
    exact ⟨rfl, rfl, rfl, rfl, highPeriod_drive⟩

-- ---- a repeated leg (R181, row 5)
/-- The account of a period whose compares are repeated: the on-time that they do not give is dropped. -/
def repeatedAt (start p : Nat) (t r : Int) (cr cf : Nat) : Period :=
  { start, p, t, t' := (cf : Int) - cr, deliv := (cf : Int) - cr, drop := t + r - ((cf : Int) - cr), rNew := 0, row := 3, cr, cf
    repeated := true, rbFail := false }

/-- The compares that a drive repeats in a period. -/
def Drive.held (d : Drive) (p : Nat) : Nat × Nat :=
  match d with
  | .high => (0, p)
  | .pulse cr cf => (min cr (p - 1), min cf (p - 1))
  | _ => (0, 0)

theorem repeatPeriod_eq (prev : Drive) (start p : Nat) (t r : Int) :
    repeatPeriod prev start p t r = repeatedAt start p t r (prev.held p).1 (prev.held p).2 := by
  cases prev <;> rfl

theorem repeatPeriod_settles (prev : Drive) (start p : Nat) (t r : Int) : let q := repeatPeriod prev start p t r
    q.t + r = q.deliv + q.drop + q.rNew ∧ q.rNew = 0 ∧ q.repeated = true ∧ q.deliv = (q.cf : Int) - q.cr ∧
    (prev = .high → q.deliv = p) ∧ (prev = .low → q.deliv = 0) ∧
    (∀ cr cf, prev = .pulse cr cf → q.cr = min cr (p - 1) ∧ q.cf = min cf (p - 1)) := by
  intro q
  simp only [q, repeatPeriod_eq]
  refine ⟨by simp [repeatedAt], rfl, rfl, rfl, ?_, ?_, ?_⟩
  · rintro rfl
    simp [repeatedAt, Drive.held]
  · rintro rfl
    rfl
  · rintro cr cf rfl
    exact ⟨rfl, rfl⟩

/-- Settles O28: each on-time has one of the three outcomes of R168; a repeated leg keeps the compares of its drive. -/
theorem onTimeIsDeliveredDroppedOrCarried : Obligations.OnTimeIsDeliveredDroppedOrCarried := by
  unfold Obligations.OnTimeIsDeliveredDroppedOrCarried
  exact ⟨treat_settles, repeatPeriod_settles, fun _ _ _ h => ⟨if_neg h, if_neg h⟩⟩

end Sys2Proof.Machine
end

section
/-! SUPPORT. Operations that write a motor and look it up again by its channel, in a table of motors whose numbers fall. -/

namespace Sys2Proof.Machine

open Sys2Proof

-- ---- a carrier boundary (R388)
/-- Motors 1 and 0, listed in that order, both of channel 0, which is armed with a command in its queue; only motor 1 discards it. -/
def commandWaits : State :=
  { State.reset with
    chans := [(0, { Chan.free with st := .armed, cmdQ := some 5 })]
    motors := [(1, { Motor.none with live := true, mstate := 1 }), (0, { Motor.none with live := true, mstate := 3 })] }

/-- The mark `sampled` of the period that opens is motor 1's; its write puts motor 0 in front, and the queued command is taken. -/
theorem carrierBoundary_takes_command : commandWaits.discardsOut 0 = true ∧
    ∃ t, exec (.carrierBoundary (.channel 0 0) false 0 none []) commandWaits = .next t ∧ (t.chan 0).cmd = 5 :=
  ⟨by decide +kernel, _, rfl, by decide +kernel⟩

/-- Refutes O29: CARRIER_BOUNDARY marks the motor of its channel as not yet sampled, and then looks it up again to see whether it discards
the command. In a table of motors that is not in canonical form, with two motors of one channel, it then finds another than the channel
had before, and takes a command that the first one discards. -/
theorem not_carrierBoundariesFormTheNextPeriod : ¬ Obligations.CarrierBoundariesFormTheNextPeriod := by
  unfold Obligations.CarrierBoundariesFormTheNextPeriod
  rintro ⟨hchannel, -⟩
  obtain ⟨hdiscards, t, ht, hcmd⟩ := carrierBoundary_takes_command
  obtain ⟨-, hopens⟩ := hchannel 0 0 false none [] commandWaits
  obtain ⟨t', ht', hperiod⟩ := hopens (by decide) (by decide +kernel)
  obtain rfl : t = t' := Host.Outcome.next.inj (ht.symm.trans ht')
  obtain ⟨-, -, -, hfirst, -⟩ := hperiod
  obtain ⟨-, htaken, -⟩ := hfirst (by decide)
  have hkept : (t.chan 0).cmd = 0 := htaken.trans (if_neg fun h => absurd (hdiscards.symm.trans h.2) (by decide))
  exact absurd (hcmd.symm.trans hkept) (by decide)

-- ---- a synthetic commutation (R379)
/-- Motors 1 and 0, listed in that order, both of channel 0; motor 1 runs and has missed its crossing, and with no jump allowed it has lost
synchronism. -/
def crossingMissed : State :=
  { State.reset with
    chans := [(0, { Chan.free with st := .armed, step := 0 })]
    motors := [(1, { Motor.none with live := true, mstate := 3, tp := 1000000, missMax := 5 }), (0, { Motor.none with live := true, jump := 255 })] }

/-- The posted commutation is motor 1's; its write puts motor 0 in front, by whose limit the jump is judged, and the step stays posted. -/
theorem syntheticCommutation_keeps_step : crossingMissed.motorOf 0 = some 1 ∧
    ∃ t, exec (.syntheticCommutation 0 1500000) crossingMissed = .next t ∧ (t.chan 0).stepPend = [(1, 1500000)] :=
  ⟨by decide +kernel, _, rfl, by decide +kernel⟩

/-- Refutes O47: SYNTHETIC_COMMUTATION writes the motor of its channel and looks it up again to judge its speed. In a table of motors that is
not in canonical form, with two motors of one channel, it then finds another than the channel had before, and a loss of synchronism of the
first leaves the step posted. -/
theorem not_motorsRunBrakeCoastAndRetry : ¬ Obligations.MotorsRunBrakeCoastAndRetry := by
  unfold Obligations.MotorsRunBrakeCoastAndRetry
  rintro ⟨-, hsynthetic, -⟩
  obtain ⟨howner, t, ht, hposted⟩ := syntheticCommutation_keeps_step
  obtain ⟨t', ht', h⟩ := hsynthetic 0 1500000 crossingMissed
  obtain rfl : t = t' := Host.Outcome.next.inj (ht.symm.trans ht')
  dsimp only at h
  rw [show crossingMissed.motorOf (0 : Fin 512).val = some 1 from howner] at h
  dsimp only at h
  rw [if_pos (by decide +kernel)] at h
  obtain ⟨-, -, hjudged, -⟩ := h
  rw [if_neg (by decide +kernel), if_pos (by decide +kernel), if_neg (by decide +kernel), if_pos (by decide +kernel)] at hjudged
  exact absurd (hposted.symm.trans hjudged.1) (by decide)

end Sys2Proof.Machine
end

section
/-! SUPPORT. Coefficient writes: how they wait, and what the workspace holds once they are applied (R178, R233, R248, R257, R389). -/

namespace Sys2Proof.Machine

open Sys2Proof

-- ---- bytes of a workspace
theorem State.setWsByte_read (s : State) (ch o : Nat) (b : BitVec 8) (p : Nat) :
    (s.setWsByte ch o b).wsByte ch p = if p = o then b else s.wsByte ch p := by
  simp only [State.wsByte, State.setWsByte, tget_tset, wsKey, Nat.add_left_cancel_iff]

/-- A byte of a workspace after a row of bytes is written there. -/
theorem State.putWs_read (l : List (BitVec 8)) : ∀ (s : State) (ch o p : Nat),
    (s.putWs ch o l).wsByte ch p = if o ≤ p ∧ p < o + l.length then l.getD (p - o) 0 else s.wsByte ch p := by
  induction l with
  | nil =>
    intro s ch o p
    rw [if_neg (by simp), State.putWs]
  | cons b l ih =>
    intro s ch o p
    rw [State.putWs, ih, State.setWsByte_read]
    rcases Nat.lt_trichotomy p o with hlt | rfl | hgt
    · rw [if_neg (by omega), if_neg (by omega), if_neg (by omega)]
    · simp
    · have hsub : p - o = p - (o + 1) + 1 := by omega
      simp only [List.length_cons, hsub, List.getD_cons_succ, if_neg hgt.ne']
      exact if_congr (by omega) rfl rfl

/-- The bytes written read back. -/
theorem State.putWs_val_same (s : State) (ch o : Nat) (l : List (BitVec 8)) : (s.putWs ch o l).wsVal ch o l.length = leVal l := by
  unfold State.wsVal
  congr 1
  refine List.ext_getElem (by simp) fun i hi hl => ?_
  simp [State.putWs_read, hl]

theorem State.putWs_val_other (s : State) {ch o p n : Nat} {l : List (BitVec 8)} (h : p + n ≤ o ∨ o + l.length ≤ p) :
    (s.putWs ch o l).wsVal ch p n = s.wsVal ch p n := by
  unfold State.wsVal
  congr 1
  refine List.map_congr_left fun i hi => ?_
  rw [List.mem_range] at hi
  rw [State.putWs_read, if_neg (by omega)]

theorem State.wsVal_of_ws {s t : State} (h : t.ws = s.ws) (ch o n : Nat) : t.wsVal ch o n = s.wsVal ch o n := by
  unfold State.wsVal State.wsByte
  rw [h]

-- ---- words that are applied (R233)
/-- A word of the coefficient block after one write: ESH lies outside it. -/
theorem putCoef_val (ch : Nat) (q : Nat × W) (s : State) {w : Nat} (hw : w < 32) :
    (putCoef ch q s).wsVal ch (4 * w) 4 = if q.1 = w then q.2.toNat else s.wsVal ch (4 * w) 4 := by
  have hlen : (leBytes 4 q.2.toNat).length = 4 := length_leBytes 4 _
  unfold putCoef
  split
  next he => exact (State.wsVal_of_ws rfl ..).trans (if_neg (by omega)).symm
  next =>
    split
    next he =>
      subst he
      have h := s.putWs_val_same ch (4 * q.1) (leBytes 4 q.2.toNat)
      rw [hlen, leVal_leBytes, Nat.mod_eq_of_lt (show q.2.toNat < 256 ^ 4 from q.2.isLt)] at h
      exact h
    next he => exact s.putWs_val_other (by omega)

/-- A word takes the last of the values written to it. -/
theorem forL_putCoef_val (ch : Nat) (l : List (Nat × W)) (s : State) {w : Nat} (hw : w < 32) :
    (forL l (putCoef ch) s).wsVal ch (4 * w) 4 = match (l.filter (fun q => q.1 == w)).getLast? with
      | some q => q.2.toNat
      | none => s.wsVal ch (4 * w) 4 := by
  induction l using List.reverseRecOn with
  | nil => rfl
  | append_singleton l q ih =>
    have hlast : forL (l ++ [q]) (putCoef ch) s = putCoef ch q (forL l (putCoef ch) s) := List.foldl_append
    rw [hlast, putCoef_val ch q _ hw, List.filter_append]
    split
    next h => simp [h]
    next h => simp [h, ih]

theorem forL_putCoef_chan (ch : Nat) (l : List (Nat × W)) (s : State) (j : Nat) : (forL l (putCoef ch) s).chan j = s.chan j :=
  State.chan_of_same (forL_keep l _ (fun q u hu => putCoef_keep (.same (p := .chans) rfl s) ch q u hu) rfl) j

/-- None of the writes names the word. -/
theorem writes_none_iff (l : List (Nat × W)) (w : Nat) : (!(l.map (·.1)).contains w) = true ↔ ∀ q ∈ l, q.1 ≠ w := by
  simp only [Bool.not_eq_true', Bool.eq_false_iff, ne_eq, List.contains_iff_mem, List.mem_map, not_exists, not_and]

theorem coefApply_does (ch : Fin 512) (n : BitVec 16) (s : State) : Does (.coefApply ch n) s fun t =>
    let x := (s.chan ch.val).loop; let y := (t.chan ch.val).loop
    if (s.chan ch.val).live = true then
      let now := x.coefQ.take n.toNat
      y.coefQ = x.coefQ.drop n.toNat ∧ (∀ p, p ∈ y.progQ ↔ p ∈ x.progQ ∧ ∀ q ∈ now, q.1 ≠ p.1 / 4) ∧
        ∀ w < 32, t.wsVal ch.val (4 * w) 4 = (match (now.filter (fun q => q.1 == w)).getLast? with
          | some q => q.2.toNat
          | none => s.wsVal ch.val (4 * w) 4)
    else t = s := by
  unfold Does
  change ∃ t, execCoefApply ch n s = _ ∧ _
  unfold execCoefApply
  dsimp only
  split
  next hl => exact ⟨s, rfl, (if_neg (by simpa using hl)).mpr rfl⟩
  next hl =>
    refine ⟨_, rfl, ?_⟩
    rw [if_pos (by simpa using hl), forL_putCoef_chan, State.setChan_read, if_pos rfl]
    exact ⟨rfl, fun p => List.mem_filter.trans (and_congr_right' (writes_none_iff _ _)), fun w hw => forL_putCoef_val _ _ _ hw⟩

-- ---- words that wait (R233, R248, R389)
theorem coefWrite_waits (n : Fin 512) (w : Fin 32) (v : W) (s : State) : Does (.coefWrite n w v) s fun t =>
    match s.ownerOf n.val with
    | some ch =>
      if (s.chan ch).adm.first ≠ n.val ∨ s.motorWord ch w.val = true then t = s
      else (t.chan ch).loop.coefQ = (s.chan ch).loop.coefQ ++ [(w.val, v)] ∧ t.ws = s.ws ∧ ∀ j, j ≠ ch → t.chan j = s.chan j
    | none => t = s := by
  unfold Does
  change ∃ t, execCoefWrite n w v s = _ ∧ _
  unfold execCoefWrite
  cases s.ownerOf n.val with
  | none => exact ⟨s, rfl, rfl⟩
  | some ch =>
    dsimp only
    split
    next h => exact ⟨s, rfl, (if_pos (by simpa using h)).mpr rfl⟩
    next h =>
      refine ⟨_, rfl, ?_⟩
      rw [if_neg (by simpa using h)]
      exact ⟨by simp, rfl, fun j hj => by simp [hj]⟩

theorem loopCfgWrite_waits (n : Fin 512) (v : W) (s : State) : Does (.loopCfgWrite n v) s fun t =>
    match s.ownerOf n.val with
    | some ch => let c := s.chan ch
      if c.adm.first ≠ n.val then t = s
      else (t.chan ch).loop.coefQ = c.loop.coefQ ++ [(32, v &&& 15)] ∧ (∀ j, j ≠ ch → t.chan j = s.chan j) ∧
        (match c.grp with
          | some g => (t.chan ch).grp = some { g with injPt := some (fld v 8 2) } ∧ t.regs = s.regs
          | none => (t.chan ch).grp = none ∧ bitOf (t.reg (loopEvt n.val)) 4 = true)
    | none => t = s := by
  unfold Does
  change ∃ t, execLoopCfgWrite n v s = _ ∧ _
  unfold execLoopCfgWrite
  cases s.ownerOf n.val with
  | none => exact ⟨s, rfl, rfl⟩
  | some ch =>
    dsimp only
    split
    next h => exact ⟨s, rfl, (if_pos (by simpa using h)).mpr rfl⟩
    next h =>
      simp only [if_neg (show ¬(s.chan ch).adm.first ≠ n.val by simpa using h)]
      cases hg : (s.chan ch).grp with
      | some g => exact ⟨_, rfl, by simp, fun j hj => by simp [hj], by simp, rfl⟩
      | none => exact ⟨_, rfl, by simp, fun j hj => by simp [hj], by simp, bitOf_raise (mkRep_bit (by decide) ..) _⟩

end Sys2Proof.Machine
end

section
/-! SUPPORT. Runs of a loop period: their start, the cutoff, and what the supervision reports (R219, R236, R238, R239). -/

namespace Sys2Proof.Machine

open Sys2Proof

-- ---- the start of a run (R219)
theorem instanceRunStart_does (e : Fin 128) (ch : Fin 512) (l : Fin 8) (s : State) : Does (.instanceRunStart e ch l) s fun t =>
    let c := s.chan ch.val; let i := s.loopIndex l.val
    match c.sideOn e.val, c.loop.img with
    | some side, some im =>
      if c.armed = true ∧ c.dueAt i = true ∧ s.sideRan ch.val side = true ∧ (s.hlt e.val).st ≠ 3 ∧ (s.run e.val).live = false then
        t.run e.val = { Run.none with live := true, ch := ch.val, inst := side, img := im
                                      start := s.placeStart c.flock (e.val % 4) ch.val i } ∧ (∀ j, j ≠ e.val → t.run j = s.run j) ∧
          t.chan ch.val = { c with loop := { c.loop with first := false } } ∧ ∀ j, j ≠ ch.val → t.chan j = s.chan j
      else t = s
    | _, _ => t = s := by
  unfold Does
  change ∃ t, execInstanceRunStart e ch l s = _ ∧ _
  unfold execInstanceRunStart
  dsimp only
  cases (s.chan ch.val).sideOn e.val with
  | none => exact ⟨s, rfl, rfl⟩
  | some side =>
    cases himg : (s.chan ch.val).loop.img with
    | none => exact ⟨s, rfl, rfl⟩
    | some im =>
      dsimp only
      split
      next h =>
        refine ⟨_, rfl, ?_⟩
        rw [if_pos (by simpa [and_assoc] using h)]
        exact ⟨by simp, fun j hj => by simp [hj], by simp [himg], fun j hj => by simp [hj]⟩
      next h => exact ⟨s, rfl, (if_neg (by simpa [and_assoc] using h)).mpr rfl⟩

-- ---- a run that is stopped (R236, R276)
theorem handOver_sum (r : Run) (x : RunSum) (s : State) : ((handOver r x s).chan r.ch).lease.sum r.inst = some x := by
  unfold handOver State.updLease
  cases h : r.inst <;> simp [Lease.sum]

theorem stopRun_run (e : Nat) (cut : Bool) (s : State) (j : Nat) : (stopRun e cut s).run j = if j = e then Run.none else s.run j := by
  unfold stopRun endRun handOver State.updLease
  dsimp only
  rw [State.setRun_read]
  split_ifs <;> simp

/-- A stopped run hands over a summary that says so. -/
theorem stopRun_sum (e : Nat) (cut : Bool) (s : State) :
    (((stopRun e cut s).chan (s.run e).ch).lease.sum (s.run e).inst).any (fun x => !x.ended) = true := by
  have h (x : RunSum) : ((handOver ((s.run e).act 0x0F 1 (s.runFlags e (s.run e)).toNat) x s).chan (s.run e).ch).lease.sum (s.run e).inst =
    some x := handOver_sum _ x s
  have hch (a b c : Nat) : ((s.run e).act a b c).ch = (s.run e).ch := rfl
  unfold stopRun endRun
  dsimp only
  split_ifs <;> simp [h, hch, Run.summary]

-- ---- a skipped side (R236)
theorem State.setChan_lease (s : State) {ch : Nat} {c : Chan} (h : c.lease = (s.chan ch).lease) (j : Nat) :
    ((s.setChan ch c).chan j).lease = (s.chan j).lease := by
  rw [State.setChan_read]
  split
  next hj => rw [h, hj]
  next => rfl

theorem skipInstance_lease (e ch : Nat) (side : Bool) (s : State) (j : Nat) : ((skipInstance e ch side s).chan j).lease = (s.chan j).lease := by
  unfold skipInstance
  dsimp only
  split
  all_goals
    simp only [raise_at_chan, State.bump_eq, State.updReg_eq, State.setReg_at_chan, State.updChan_eq]
    refine (State.setChan_lease _ ?_ j).trans rfl
    rfl

theorem engReg_ne_loopReg (e : Fin 128) (a : Nat) {off : Nat} (h : off < 0x100) : engReg e.val 8 ≠ loopReg a off := by
  unfold engReg loopReg atPos aFlock flockOf posOf
  rw [if_pos e.isLt]
  omega

/-- The active side that is skipped: an overrun, counted and reported (R236, R238). -/
theorem skipInstance_active (e : Fin 128) {ch : Nat} {b : Bool} {s : State} (hb : (s.chan ch).lease.holder = some b) :
    let t := skipInstance e.val ch b s; let c := s.chan ch
    t.reg (engReg e.val 8) = s.reg (engReg e.val 8) + 1 ∧ (t.chan ch).loop.ovr = true ∧
      (t.chan ch).loop.ovrRun = min 3 (c.loop.ovrRun + 1) ∧ bitOf (t.reg (loopEvt c.adm.first)) 0 = true := by
  have hcount := engReg_ne_loopReg e (s.chan ch).adm.first (off := 0x9C) (by decide)
  have hevt : engReg e.val 8 ≠ loopEvt (s.chan ch).adm.first := engReg_ne_loopReg e _ (by decide)
  simp only [skipInstance, hb, beq_self_eq_true, if_true]
  refine ⟨?_, by simp, by simp, bitOf_raise (mkRep_bit (by decide) ..) _⟩
  rw [raise_reg, if_neg hevt]
  simp [hcount]

-- ---- the cutoff (R236)
/-- The channels and sides that the cutoff of an engine skips: due and armed, not begun, their place ahead when their channel was armed. -/
def State.skipped (s : State) (e l : Nat) : List (Nat × Bool) :=
  (s.dueArmed (e / 4) (s.loopIndex l)).filterMap (fun ch =>
    match (s.chan ch).sideOn e with
    | some b =>
      if s.sideRan ch b && s.placeAhead ch l b && ((s.chan ch).lease.sum b).isNone && !((s.run e).live && (s.run e).ch == ch) then some (ch, b)
      else none
    | none => none)

/-- The state once the cutoff has stopped the run in progress. -/
def stopLive (e : Nat) (s : State) : State := if (s.run e).live then stopRun e true s else s

theorem loopCutoff_eq (e : Fin 128) (l : Fin 8) (s : State) : exec (.loopCutoff e l) s =
    .next (forL (s.skipped e.val l.val) (fun x s => skipInstance e.val x.1 x.2 s) (stopLive e.val s)) := rfl

theorem forL_skipInstance_runs (e : Nat) (l : List (Nat × Bool)) (s : State) (j : Nat) :
    (forL l (fun x s => skipInstance e x.1 x.2 s) s).run j = s.run j := by
  have h : Part.same .runs s (forL l (fun x s => skipInstance e x.1 x.2 s) s) :=
    forL_keep l _ (fun x u hu => skipInstance_keep (.same rfl s) e x.1 x.2 u hu) (Part.same_refl _ s)
  unfold State.run
  rw [show (forL l _ s).runs = s.runs from h]

theorem forL_skipInstance_lease (e : Nat) (l : List (Nat × Bool)) (s : State) (j : Nat) :
    ((forL l (fun x s => skipInstance e x.1 x.2 s) s).chan j).lease = (s.chan j).lease :=
  foldl_same (fun u : State => (u.chan j).lease) (fun u (x : Nat × Bool) => skipInstance e x.1 x.2 u) (fun u x => skipInstance_lease e x.1 x.2 u j) l s

theorem stopLive_run (e : Nat) (s : State) : ((stopLive e s).run e).live = false ∧ ∀ j, j ≠ e → (stopLive e s).run j = s.run j := by
  unfold stopLive
  split
  next => exact ⟨by simp [stopRun_run, Run.none], fun j hj => by simp [stopRun_run, hj]⟩
  next h => exact ⟨by simpa using h, fun _ _ => rfl⟩

theorem stopLive_idle {e : Nat} {s : State} (h : (s.run e).live = false) : stopLive e s = s := if_neg (by simp [h])

/-- With one channel due, its side on the engine is skipped or none is. -/
theorem skipped_one {s : State} {e l ch : Nat} {b : Bool} (hlive : (s.run e).live = false) (hdue : s.dueArmed (e / 4) (s.loopIndex l) = [ch])
    (hside : (s.chan ch).sideOn e = some b) (hsum : ((s.chan ch).lease.sum b).isNone = true) :
    s.skipped e l = if s.sideRan ch b = true ∧ s.placeAhead ch l b = true then [(ch, b)] else [] := by
  simp only [State.skipped, hdue, List.filterMap_cons, List.filterMap_nil, hside, hsum, hlive]
  split_ifs <;> simp_all

theorem loopCutoff_does (e : Fin 128) (l : Fin 8) (s : State) : Does (.loopCutoff e l) s fun t =>
    (t.run e.val).live = false ∧ (∀ j, j ≠ e.val → t.run j = s.run j) ∧
    ((s.run e.val).live = true → ((t.chan (s.run e.val).ch).lease.sum (s.run e.val).inst).any (fun x => !x.ended) = true) ∧
    ((s.run e.val).live = false → s.dueArmed (e.val / 4) (s.loopIndex l.val) = [] → t = s) ∧
    ((s.run e.val).live = false → ∀ ch, s.dueArmed (e.val / 4) (s.loopIndex l.val) = [ch] → let c := s.chan ch
      ∀ b, c.sideOn e.val = some b → (c.lease.sum b).isNone = true → c.lease.holder = some b →
        if s.sideRan ch b = true ∧ s.placeAhead ch l.val b = true then
          t.reg (engReg e.val 8) = s.reg (engReg e.val 8) + 1 ∧ (t.chan ch).loop.ovr = true ∧
            (t.chan ch).loop.ovrRun = min 3 (c.loop.ovrRun + 1) ∧ bitOf (t.reg (loopEvt c.adm.first)) 0 = true
        else t = s) := by
  obtain ⟨hstopped, hothers⟩ := stopLive_run e.val s
  refine ⟨_, loopCutoff_eq e l s, ?_, fun j hj => ?_, fun hlive => ?_, fun hlive hdue => ?_, fun hlive ch hdue b hside hsum hholder => ?_⟩
  · rw [forL_skipInstance_runs, hstopped]
  · rw [forL_skipInstance_runs, hothers j hj]
  · rw [forL_skipInstance_lease, stopLive, if_pos hlive]
    exact stopRun_sum e.val true s
  · rw [State.skipped, hdue, stopLive_idle hlive]
    rfl
  · rw [skipped_one hlive hdue hside hsum, stopLive_idle hlive]
    by_cases h : s.sideRan ch b = true ∧ s.placeAhead ch l.val b = true
    · rw [if_pos h, if_pos h]
      exact skipInstance_active e hholder
    · rw [if_neg h, if_neg h]
      rfl

-- ---- supervision (R238, R239)
theorem overrunHealthFailure_reports (ch : Fin 512) (sh : Bool) (s : State) : Does (.overrunHealthFailure ch sh) s fun t => let c := s.chan ch.val
    if c.armed = true ∧ (if sh = true then c.loop.ovrRunS else c.loop.ovrRun) = 3 then
      bitOf (t.reg (loopEvt c.adm.first)) 1 = true ∧ t.chans = s.chans
    else t = s := by
  unfold Does
  change ∃ t, execOverrunHealthFailure ch sh s = _ ∧ _
  unfold execOverrunHealthFailure
  dsimp only
  generalize (if sh = true then (s.chan ch.val).loop.ovrRunS else (s.chan ch.val).loop.ovrRun) = n
  split
  next h =>
    refine ⟨_, rfl, ?_⟩
    rw [if_pos (by simpa using h)]
    exact ⟨bitOf_raise (mkRep_bit (by decide) ..) _, raise_chans ..⟩
  next h => exact ⟨s, rfl, (if_neg (by simpa using h)).mpr rfl⟩

theorem followError_reports (ch : Fin 512) (s : State) : Does (.followError ch) s fun t => let c := s.chan ch.val; let a := c.adm.first
    if c.armed = true ∧ s.regField (feLim a) 0 24 ≠ 0 ∧ max 1 (s.regField (feTime a) 0 16) ≤ c.loop.feCount then
      bitOf (t.reg (loopEvt a)) 2 = true ∧ (t.chan ch.val).loop.followErr = true ∧ (t.chan ch.val).st = c.st
    else t = s := by
  unfold Does
  change ∃ t, execFollowError ch s = _ ∧ _
  unfold execFollowError
  dsimp only
  split
  next h =>
    refine ⟨_, rfl, ?_⟩
    rw [if_pos (by simpa [and_assoc] using h)]
    exact ⟨bitOf_raise (mkRep_bit (by decide) ..) _, by simp, by simp⟩
  next h => exact ⟨s, rfl, (if_neg (by simpa [and_assoc] using h)).mpr rfl⟩

-- ---- the law of the standard images in manual and after it (R229, R230)
theorem pidLaw_manual {l : Latch} {co : Nat → W} (x : LawState) (h : bitOf (co 6) 0 = false) : let y := pidLaw l co x
    y.u = sx 16 (fld (co 7) 0 16) ∧ y.auto = false ∧ y.st.manual = true ∧ (l.flags.getLsbD 7 = false → y.st.i = (sat32 x.i).1) := by
  refine ⟨by simp [pidLaw, h], h, by simp [pidLaw, h], fun hfirst => by simp [pidLaw, h, hfirst, -BitVec.getLsbD_eq_getElem]⟩

/-- The first automatic run after manual takes its integrator from IPRESET. -/
theorem pidLaw_preset {l : Latch} {co : Nat → W} {x : LawState} (hauto : bitOf (co 6) 0 = true) (hpreset : bitOf (co 6) 1 = false)
    (hmanual : x.manual = true) : (pidLaw l co x).st.i = (sat32 (clpaOf (co 8).toInt (sx 16 (fld (co 5) 16 16))).1).1 := by
  cases hfirst : l.flags.getLsbD 7 <;> simp [pidLaw, hauto, hpreset, hmanual, hfirst, -BitVec.getLsbD_eq_getElem]

end Sys2Proof.Machine
end

section
/-! SUPPORT. The latch of a loop period: the ports and the bus, the programs' stores, the motion items, and the latch sets of the channels
that are due (R139, R149, R218, R219, R257, R316). -/

namespace Sys2Proof.Machine

open Sys2Proof

-- ---- words below the flock blocks
/-- Every register word below the flock blocks stands as it was. -/
def LowSame (s t : State) : Prop := ∀ a < 0x400000, t.reg a = s.reg a

theorem LowSame.of_regs {s t u : State} (h : LowSame s t) (hu : Part.same .regs t u) : LowSame s u := by
  intro a ha
  rw [← h a ha, State.reg, State.reg, show u.regs = t.regs from hu]

theorem LowSame.setReg {s t : State} (h : LowSame s t) {a : Nat} (v : W) (ha : 0x400000 ≤ a) : LowSame s (t.setReg a v) := by
  intro b hb
  rw [State.setReg_reg, if_neg (by omega), h b hb]

theorem LowSame.raise {s t : State} (h : LowSame s t) {a : Nat} (r : Report) (ha : 0x400000 ≤ a) : LowSame s (raise a r t) := by
  intro b hb
  rw [raise_reg, if_neg (by omega), h b hb]

/-- The frame rate and the number of loop periods in a frame are such words. -/
theorem LowSame.rates {s t : State} (h : LowSame s t) : t.frate = s.frate ∧ t.m = s.m := by
  have hrate := h fcRate (by decide)
  have hratio := h fcRatio (by decide)
  simp only [State.frate, State.m, State.mLog2, State.regField, hrate, hratio, and_self]

theorem snsReg_ge (n off : Nat) : 0x400000 ≤ snsReg n off := by
  unfold snsReg aFlock
  omega

theorem applySns_low (n : Nat) {s t : State} (h : LowSame s t) : LowSame s (applySns n t) := by
  unfold applySns
  extract_lets p old u v
  have hu : LowSame s u := forL_keep p _ (fun e x hx => by split <;> [exact hx.setReg _ (snsReg_ge ..); exact hx]) h
  exact ite_keep (hu.of_regs rfl) (hu.of_regs rfl)

theorem setVals_low (n : Nat) (p q : BitVec 24) {s t : State} (h : LowSame s t) : LowSame s (setVals n p q t) :=
  (h.setReg _ (snsReg_ge ..)).setReg _ (snsReg_ge ..)

theorem limitEvt_low {s t : State} {a : Nat} (r : Report) (ha : 0x400000 ≤ a) (h : LowSame s t) : LowSame s (limitEvt a r true t) := by
  unfold limitEvt
  rw [if_pos rfl]
  split
  · exact h
  · have hr : LowSame s (raise a r t) := h.raise r ha
    exact hr.of_regs rfl

theorem snsCond_low (n bit hi : Nat) (on : Bool) {s t : State} (h : LowSame s t) : LowSame s (snsCond n bit hi on t) := by
  unfold snsCond
  cases on
  case true => exact limitEvt_low _ (snsReg_ge ..) h
  case false =>
    simp only [Bool.false_eq_true, if_false]
    exact h.of_regs (condEnd_keep (.same (p := .regs) rfl t) _ t (Part.same_refl _ t))

theorem latchPort_low (n : Nat) (x : SenseIn) {s t : State} (h : LowSame s t) : LowSame s (latchPort n x t) := by
  unfold latchPort
  extract_lets t1 t2
  have h2 : LowSame s t2 := (applySns_low n h).of_regs rfl
  split
  next => exact setVals_low n 0 0 h2
  next =>
    rename_i y t3 t4 t5 t6 _
    have h3 : LowSame s t3 := ite_keep (h2.of_regs rfl) h2
    have h4 : LowSame s t4 := ite_keep (h3.of_regs rfl) h3
    have h5 : LowSame s t5 := setVals_low _ _ _ h4
    have h6 : LowSame s t6 := ite_keep ((h5.setReg _ (snsReg_ge ..)).raise _ (snsReg_ge ..)) h5
    exact snsCond_low _ _ _ _ (snsCond_low _ _ _ _ (snsCond_low _ _ _ _ h6))

theorem latchFinding_low (f : Nat) (x : WordFail) {s t : State} (h : LowSame s t) : LowSame s (latchFinding f x t) := by
  have hfound (i : Nat) (r : Report) : LowSame s (raise (intEvt f) r (t.bump (intCnt f i))) :=
    (h.setReg _ (by unfold intCnt aFlock; omega)).raise _ (by unfold intEvt aFlock; omega)
  unfold latchFinding
  extract_lets ev
  split <;> exact hfound _ _

-- ---- channels
theorem mem_liveChans {s : State} {j : Nat} : j ∈ s.liveChans ↔ (s.chan j).live = true := by
  refine ⟨fun h => (List.mem_filter.1 h).2, fun h => ?_⟩
  by_contra hj
  simp [Chan.live, State.st_of_not_live hj] at h

theorem mem_chansOfFlock {s : State} {f j : Nat} : j ∈ s.chansOfFlock f ↔ (s.chan j).live = true ∧ (s.chan j).flock = f := by
  rw [State.chansOfFlock, List.mem_filter, mem_liveChans, beq_iff_eq]

theorem State.due_of_same {s t : State} (h : Part.same .chans s t) (f i : Nat) : t.due f i = s.due f i := by
  unfold State.due State.posSort State.chansOfFlock State.liveChans State.chan
  rw [show t.chans = s.chans from h]

theorem mem_flock_of_due {s : State} {f i ch : Nat} (h : ch ∈ s.due f i) : ch ∈ s.chansOfFlock f := by
  obtain ⟨q, -, hq⟩ := List.mem_flatMap.1 h
  exact (List.mem_filter.1 (List.mem_filter.1 hq).1).1

/-- A fold of operations, each on the channel of its number, leaves the other channels. -/
theorem each_chan_other {f : Nat → State → State} (hf : ∀ i j s, j ≠ i → (f i s).chan j = s.chan j) {l : List Nat} {j : Nat} (hj : j ∉ l)
    (s : State) : (each l f s).chan j = s.chan j := by
  induction l generalizing s with
  | nil => rfl
  | cons i l ih =>
    obtain ⟨hi, hl⟩ := not_or.1 (mt List.mem_cons.2 hj)
    exact (ih hl (f i s)).trans (hf i j s hi)

/-- What its operation brings about in a channel of the list, under an invariant that they all keep, holds after the fold. -/
theorem each_chan {I : State → Prop} {Q : Chan → Prop} {f : Nat → State → State} {j : Nat} (hI : ∀ i s, I s → I (f i s))
    (hf : ∀ i j s, j ≠ i → (f i s).chan j = s.chan j) (hQ : ∀ s, I s → Q ((f j s).chan j)) {l : List Nat} (hj : j ∈ l)
    {s : State} (hs : I s) : Q ((each l f s).chan j) := by
  induction l generalizing s with
  | nil => cases hj
  | cons i l ih =>
    by_cases h : j ∈ l
    · exact ih h (hI i s hs)
    · obtain rfl : j = i := by simpa [h] using hj
      rw [show each (j :: l) f s = each l f (f j s) from rfl, each_chan_other hf h]
      exact hQ s hs

-- ---- what a latch reads and keeps
/-- What a latch reads of a channel and leaves: its state, settings, gains, banks, token and the mark of its first run. -/
def Chan.latchView (c : Chan) : ChanSt × Adm × Zc × (Bank × Bank) × (Option Bool × Nat) × Bool :=
  (c.st, c.adm, c.zc, (c.inp.bank0, c.inp.bank1), (c.lease.holder, c.lease.stby), c.loop.first)

/-- In the course of a latch in state `s`, with this bus sample of fold k, the state `t` is reached. -/
structure Latching (s : State) (k bus : Nat) (t : State) : Prop where
  low : LowSame s t
  bell : t.bell = s.bell
  health : t.health = s.health
  svc : t.svc = s.svc
  bus : (t.fold k).busS = bus
  view : ∀ j, (t.chan j).latchView = (s.chan j).latchView
  late : ∀ j, (s.chan j).inp.late = 0 → (t.chan j).inp.late = 0
  idle : ∀ j side, s.sideRuns j side = false → (t.chan j).loop.lat side = (s.chan j).loop.lat side

namespace Latching

variable {s t u : State} {k bus : Nat}

theorem fields (h : Latching s k bus t) (j : Nat) : (t.chan j).st = (s.chan j).st ∧ (t.chan j).adm = (s.chan j).adm ∧
    (t.chan j).zc = (s.chan j).zc ∧ (t.chan j).inp.bank0 = (s.chan j).inp.bank0 ∧ (t.chan j).inp.bank1 = (s.chan j).inp.bank1 ∧
    (t.chan j).lease.holder = (s.chan j).lease.holder ∧ (t.chan j).lease.stby = (s.chan j).lease.stby ∧
    (t.chan j).loop.first = (s.chan j).loop.first := by
  simpa only [Chan.latchView, Prod.mk.injEq, and_assoc] using h.view j

theorem armed (h : Latching s k bus t) (j : Nat) : (t.chan j).armed = (s.chan j).armed := by
  obtain ⟨hst, -⟩ := h.fields j
  rw [Chan.armed, Chan.armed, hst]

theorem flock_iff (h : Latching s k bus t) (f j : Nat) : j ∈ t.chansOfFlock f ↔ j ∈ s.chansOfFlock f := by
  obtain ⟨hst, hadm, -⟩ := h.fields j
  rw [mem_chansOfFlock, mem_chansOfFlock, Chan.live, Chan.live, Chan.flock, Chan.flock, hst, hadm]

theorem sideRuns (h : Latching s k bus t) (j : Nat) (side : Bool) : t.sideRuns j side = s.sideRuns j side := by
  obtain ⟨-, hadm, -, -, -, hholder, hstby, -⟩ := h.fields j
  have hsvc (e : Nat) : t.inSvc e = s.inSvc e := by unfold State.inSvc State.hlt; rw [h.health, h.svc]
  have heng : (t.chan j).engOf side = (s.chan j).engOf side := by unfold Chan.engOf Chan.flock; rw [hadm]
  unfold State.sideRuns State.sideInSvc
  dsimp only
  rw [hsvc, heng, hholder, hstby]

theorem loopIndex (h : Latching s k bus t) (l : Nat) : t.loopIndex l = s.loopIndex l := by
  rw [State.loopIndex, State.loopIndex, h.bell, h.low.rates.2]

theorem nM (h : Latching s k bus t) : t.nM = s.nM := by
  rw [State.nM, State.nM, State.loopRate, State.loopRate, h.low.rates.1, h.low.rates.2]

theorem bankAtLatch (h : Latching s k bus t) (j l : Nat) : t.bankAtLatch j l = s.bankAtLatch j l := by
  obtain ⟨-, -, -, hb0, hb1, -⟩ := h.fields j
  unfold State.bankAtLatch
  rw [h.bell, hb0, hb1]

/-- An operation on none of these parts goes on with the latch. -/
theorem of_parts (h : Latching s k bus t) (hlow : LowSame s u) (hsame : ∀ p ∈ [Part.bell, .health, .svc, .folds, .chans], p.same t u) :
    Latching s k bus u := by
  have hchan := State.chan_of_same (hsame .chans (by decide))
  exact {
    low := hlow
    bell := Eq.trans (hsame .bell (by decide)) h.bell
    health := Eq.trans (hsame .health (by decide)) h.health
    svc := Eq.trans (hsame .svc (by decide)) h.svc
    bus := by rw [State.fold_of_same (hsame .folds (by decide)), h.bus]
    view := fun j => by rw [hchan, h.view]
    late := fun j hj => by rw [hchan, h.late j hj]
    idle := fun j side hj => by rw [hchan, h.idle j side hj] }

/-- So does one that keeps every part but those of this list. -/
theorem of_keep {L : List Part} {f : State → State} (hL : ∀ p ∈ [Part.regs, .bell, .health, .svc, .folds, .chans], L.contains p = false)
    (hf : ∀ {P : State → Prop}, Keeps L P → ∀ s, P s → P (f s)) (h : Latching s k bus t) : Latching s k bus (f t) := by
  have hsame (p : Part) (hp : p ∈ [Part.regs, .bell, .health, .svc, .folds, .chans]) : p.same t (f t) :=
    hf (.same (hL p hp) t) t (Part.same_refl p t)
  exact h.of_parts (h.low.of_regs (hsame .regs (by decide))) fun p hp => hsame p (List.mem_cons_of_mem _ hp)

/-- So does a write of a channel that keeps what the latch reads of it. -/
theorem setChan (h : Latching s k bus t) {ch : Nat} {c : Chan} (hview : c.latchView = (t.chan ch).latchView)
    (hlate : c.inp.late = 0 ∨ c.inp.late = (t.chan ch).inp.late)
    (hidle : ∀ side, s.sideRuns ch side = false → c.loop.lat side = (t.chan ch).loop.lat side) : Latching s k bus (t.setChan ch c) where
  low := h.low
  bell := h.bell
  health := h.health
  svc := h.svc
  bus := h.bus
  view j := by
    rw [State.setChan_read]
    split
    next hj => rw [hj, hview, h.view]
    next => exact h.view j
  late j hj := by
    have := h.late j hj
    rw [State.setChan_read]
    split
    next he => subst he; omega
    next => exact this
  idle j side hj := by
    rw [State.setChan_read]
    split
    next he => subst he; rw [hidle side hj, h.idle _ side hj]
    next => exact h.idle j side hj

/-- The latch begins with the bus sample. -/
theorem start (s : State) (k bus : Nat) : Latching s k bus (s.updFold k (fun x => { x with busS := bus })) where
  low := fun _ _ => rfl
  bell := rfl
  health := rfl
  svc := rfl
  bus := by simp
  view := fun _ => rfl
  late := fun _ h => h
  idle := fun _ _ _ => rfl

theorem latchPort (h : Latching s k bus t) (n : Nat) (x : SenseIn) : Latching s k bus (latchPort n x t) :=
  h.of_parts (latchPort_low n x h.low) fun p hp => latchPort_keep (.same (by revert p; decide) t) n x t (Part.same_refl p t)

theorem latchFinding (h : Latching s k bus t) (f : Nat) (x : WordFail) : Latching s k bus (latchFinding f x t) :=
  h.of_parts (latchFinding_low f x h.low) fun p hp => latchFinding_keep (.same (by revert p; decide) t) f x t (Part.same_refl p t)

end Latching

-- ---- program stores (R257)
/-- The stores of a list reach the workspace, but for those to the motor unit's word. -/
def putStores (ch : Nat) (q : List (Nat × Nat × Nat)) (s : State) : State :=
  forL q (fun p s => if s.motorWord ch (p.1 / 4) then s else s.putWs ch p.1 (leBytes p.2.1 p.2.2)) s

/-- The program stores of a channel and the word of its motor unit. -/
def applyStores (ch : Nat) (s : State) : State := motorCoef ch (applyProg ch s)

theorem applyStores_eq (ch : Nat) (s : State) : applyStores ch s = motorCoef ch (putStores ch (s.chan ch).loop.progQ
    (s.setChan ch { s.chan ch with loop := { (s.chan ch).loop with progQ := [] } })) := rfl

/-- What follows the emptying of the queue writes the workspace alone. -/
theorem putStores_keep {P : State → Prop} (hP : Keeps [.ws] P) (ch : Nat) (q : List (Nat × Nat × Nat)) (s : State) (hs : P s) :
    P (motorCoef ch (putStores ch q s)) :=
  motorCoef_keep hP ch _ (forL_keep q _ (fun p _ hu => ite_keep hu (putWs_keep hP _ ch p.1 hu)) hs)

theorem Latching.applyStores {s t : State} {k bus : Nat} (h : Latching s k bus t) (ch : Nat) : Latching s k bus (applyStores ch t) := by
  rw [applyStores_eq]
  have hset := h.setChan (c := { t.chan ch with loop := { (t.chan ch).loop with progQ := [] } }) rfl (.inr rfl) fun _ _ => rfl
  exact of_keep (f := fun u => motorCoef ch (putStores ch (t.chan ch).loop.progQ u)) (by decide) (fun hP u => putStores_keep hP ch _ u) hset

theorem applyStores_chan (ch : Nat) (s : State) (j : Nat) : (applyStores ch s).chan j =
    if j = ch then { s.chan ch with loop := { (s.chan ch).loop with progQ := [] } } else s.chan j := by
  rw [applyStores_eq, State.chan_of_same (putStores_keep (.same (p := .chans) rfl _) ch _ _ (Part.same_refl _ _))]
  exact State.setChan_read ..

-- ---- the items of a motion period (R316)
theorem motionItems_chan (ch l : Nat) (s : State) (j : Nat) : (motionItems ch l s).chan j = if j = ch then
    { s.chan ch with mdl := { (s.chan ch).mdl with latch := { s.senseItems ch Latch.none with
      flags := s.latchFlags ch (s.bankAtLatch ch l) (s.bankAtLatch ch l).fresh (!(s.chan ch).loop.delivered) (s.chan ch).loop.first } } }
    else s.chan j := State.setChan_read ..

theorem Latching.motionItems {s t : State} {k bus : Nat} (h : Latching s k bus t) (ch l : Nat) : Latching s k bus (motionItems ch l t) :=
  h.setChan rfl (.inr rfl) fun _ _ => rfl

-- ---- the latch set of a due channel (R139, R149, R218)
/-- What a latch without findings gives a side of a channel whose words are all in time. -/
theorem latchSet_clean {s : State} {ch : Nat} (l : Nat) (prev : Latch) (h : (s.chan ch).inp.late = 0) :
    let la := s.latchSet ch l [] [] prev; let b := s.bankAtLatch ch l
    la.sp = gained (if l = 0 then (s.chan ch).zc.prev else (s.chan ch).zc.eff) b.spt.sample ∧ la.ff = b.ffw.sample ∧
      la.inj = b.inj.sample ∧ la.bad = 0 ∧ la.idx = s.loopIndex l := by
  simp [State.latchSet, h, fieldN]

/-- A channel that has latched these inputs and latch sets; while it is armed the last run's command and summaries are gone. -/
def Chan.latched (c : Chan) (inp : Inp) (latA latB : Latch) : Chan :=
  let d : Chan := { c with inp, loop := { c.loop with latA, latB }, lease := { c.lease with stepped := c.lease.stby == 0 } }
  if c.armed then { d with loop := { d.loop with delivered := false, capVal := 0 }, lease := { d.lease with sumA := none, sumB := none } } else d

theorem Chan.latched_fields (c : Chan) (inp : Inp) (latA latB : Latch) : let d := c.latched inp latA latB
    d.inp = inp ∧ d.st = c.st ∧ d.adm = c.adm ∧ d.zc = c.zc ∧ d.mdl = c.mdl ∧ d.lease.holder = c.lease.holder ∧
      d.lease.stby = c.lease.stby ∧ d.loop.first = c.loop.first ∧ d.loop.progQ = c.loop.progQ ∧ d.loop.latA = latA ∧ d.loop.latB = latB ∧
      (c.armed = true → d.loop.delivered = false ∧ d.lease.sumA = none ∧ d.lease.sumB = none) := by
  unfold Chan.latched
  dsimp only
  split
  next => simp
  next h => simp [h]

/-- The latch set of a side after the latch of its channel: a new one where the side runs. -/
def State.sideLatch (s : State) (fails : List WordFail) (ch l : Nat) (side : Bool) : Latch :=
  let mine := badWords fails ch side
  if s.sideRuns ch side then s.latchSet ch l mine (if s.sideRuns ch (!side) then badWords fails ch (!side) else mine) ((s.chan ch).loop.lat side)
  else (s.chan ch).loop.lat side

theorem latchChan_eq (fails : List WordFail) (ch l : Nat) (s : State) : ∃ inp : Inp,
    inp.bank0 = (s.chan ch).inp.bank0 ∧ inp.bank1 = (s.chan ch).inp.bank1 ∧ inp.late = 0 ∧
      latchChan fails ch l s = s.setChan ch ((s.chan ch).latched inp (s.sideLatch fails ch l false) (s.sideLatch fails ch l true)) :=
  ⟨{ markLatch fails ch ((if s.sideRuns ch false then [false] else []) ++ (if s.sideRuns ch true then [true] else [])) (s.chan ch).inp with
      late := 0 }, rfl, rfl, rfl, rfl⟩

/-- What the latch of a channel and the count of its run do. -/
def latchStep (fails : List WordFail) (l ch : Nat) (s : State) : State := countRun ch (latchChan fails ch l s)

theorem latchStep_chan (fails : List WordFail) (l ch : Nat) (s : State) (j : Nat) :
    (latchStep fails l ch s).chan j = (latchChan fails ch l s).chan j :=
  State.chan_of_same (countRun_keep (.same (p := .chans) rfl _) ch _ (Part.same_refl _ _)) j

theorem latchStep_other (fails : List WordFail) (l ch : Nat) (s : State) {j : Nat} (hj : j ≠ ch) :
    (latchStep fails l ch s).chan j = s.chan j := by
  obtain ⟨inp, -, -, -, heq⟩ := latchChan_eq fails ch l s
  rw [latchStep_chan, heq, State.setChan_read, if_neg hj]

/-- What a channel is once it has latched: its stores and its model untouched, no word late. -/
theorem latchStep_fields (fails : List WordFail) (l ch : Nat) (s : State) : let c := s.chan ch; let d := (latchStep fails l ch s).chan ch
    d.inp.late = 0 ∧ d.mdl = c.mdl ∧ d.loop.progQ = c.loop.progQ ∧ (∀ side, d.loop.lat side = s.sideLatch fails ch l side) ∧
      (c.armed = true → d.loop.delivered = false ∧ d.lease.sumA = none ∧ d.lease.sumB = none) := by
  obtain ⟨inp, -, -, hlate, heq⟩ := latchChan_eq fails ch l s
  obtain ⟨hinp, -, -, -, hmdl, -, -, -, hprog, hA, hB, harmed⟩ :=
    (s.chan ch).latched_fields inp (s.sideLatch fails ch l false) (s.sideLatch fails ch l true)
  dsimp only
  rw [latchStep_chan, heq, State.setChan_read, if_pos rfl]
  exact ⟨by rw [hinp, hlate], hmdl, hprog, fun side => by cases side <;> assumption, harmed⟩

theorem Latching.latchStep {s t : State} {k bus : Nat} (h : Latching s k bus t) (fails : List WordFail) (l ch : Nat) :
    Latching s k bus (latchStep fails l ch t) := by
  refine of_keep (f := countRun ch) (by decide) (fun hP u => countRun_keep hP ch u) ?_
  obtain ⟨inp, hb0, hb1, hlate, heq⟩ := latchChan_eq fails ch l t
  obtain ⟨hinp, hst, hadm, hzc, -, hholder, hstby, hfirst, -, hA, hB, -⟩ :=
    (t.chan ch).latched_fields inp (t.sideLatch fails ch l false) (t.sideLatch fails ch l true)
  rw [heq]
  refine h.setChan ?_ (.inl (by rw [hinp, hlate])) fun side hside => ?_
  · simp only [Chan.latchView, hinp, hst, hadm, hzc, hholder, hstby, hfirst, hb0, hb1]
  · have hidle : t.sideLatch fails ch l side = (t.chan ch).loop.lat side := by
      rw [State.sideLatch, h.sideRuns, if_neg (by simp [hside])]
    rw [← hidle]
    cases side <;> assumption

-- ---- LOOP_LATCH (R218)
/-- The bus sample and the ports of a flock are latched. -/
def portsLatched (f : Nat) (bus : BitVec 16) (sens : List SenseIn) (s : State) : State :=
  each (List.range 8) (fun i s =>
    latchPort (8 * f + i) ((sens.find? (fun x => x.port.val == 8 * f + i)).getD ⟨0, 0, 0, 0⟩) s)
    (s.updFold (f / 4) (fun x => { x with busS := bus.toNat }))

/-- The findings that name a side which latches. -/
def State.findings (s : State) (f l : Nat) (fails : List WordFail) : List WordFail :=
  fails.filter (fun x => (s.due f (s.loopIndex l)).contains x.chan.val && s.sideRuns x.chan.val x.instB)

/-- Program stores have taken effect, and findings are reported. -/
def storesApplied (f l : Nat) (fails : List WordFail) (s : State) : State :=
  forL (s.findings f l fails) (latchFinding f) (each (s.chansOfFlock f) applyStores s)

/-- Where a motion period begins, the models have their items. -/
def itemsLatched (f l : Nat) (s : State) : State :=
  if s.loopIndex l % s.nM = 0 then each (s.chansOfFlock f) (fun ch s => motionItems ch l s) s else s

/-- The channels of a flock that is on have latched. -/
def flockLatched (f l : Nat) (fails : List WordFail) (s : State) : State :=
  each (s.due f (s.loopIndex l)) (latchStep (s.findings f l fails) l) (itemsLatched f l (storesApplied f l fails s))

/-- At B(j) the output slots take the signals. -/
def slotsLatched (f l : Nat) (s : State) : State := if l = 0 then latchSignals f s else s

theorem loopLatch_eq (f : Fin 32) (l : Fin 8) (bus : BitVec 16) (sens : List SenseIn) (fails : List WordFail) (s : State) :
    exec (.loopLatch f l bus sens fails) s = .next (slotsLatched f.val l.val
      (if (portsLatched f.val bus sens s).flockOn f.val then flockLatched f.val l.val fails (portsLatched f.val bus sens s)
        else portsLatched f.val bus sens s)) := by
  change execLoopLatch f l bus sens fails s = _
  unfold execLoopLatch
  extract_lets t0 t1 on out due fails' t2 t3 t4
  rw [show (portsLatched f.val bus sens s).flockOn f.val = on from rfl]
  by_cases h : on = true
  · rw [if_neg (by simp [h]), if_pos h]
    rfl
  · rw [if_pos (by simpa using h), if_neg h]
    rfl

-- ---- the parts of the latch, in order
theorem portsLatched_same {p : Part} (hp : [Part.regs, .sense, .col, .host, .free, .folds].contains p = false) (f : Nat) (bus : BitVec 16)
    (sens : List SenseIn) (s : State) : p.same s (portsLatched f bus sens s) :=
  each_keep _ _ (fun i u hu => latchPort_keep ((Keeps.same hp s).mono (by decide)) _ _ u hu)
    (updFold_keep ((Keeps.same hp s).mono (by decide)) _ _ (Part.same_refl p s))

theorem portsLatched_latching (f : Nat) (bus : BitVec 16) (sens : List SenseIn) (s : State) :
    Latching s (f / 4) bus.toNat (portsLatched f bus sens s) :=
  each_keep _ _ (fun _ _ hu => hu.latchPort _ _) (Latching.start s (f / 4) bus.toNat)

section
variable {s t : State} {k bus : Nat}

theorem Latching.storesApplied (h : Latching s k bus t) (f l : Nat) (fails : List WordFail) :
    Latching s k bus (storesApplied f l fails t) :=
  forL_keep _ _ (fun x _ hu => hu.latchFinding f x) (each_keep _ _ (fun ch _ hu => hu.applyStores ch) h)

theorem Latching.itemsLatched (h : Latching s k bus t) (f l : Nat) : Latching s k bus (itemsLatched f l t) :=
  ite_keep (each_keep _ _ (fun ch _ hu => hu.motionItems ch l) h) h

theorem Latching.flockLatched (h : Latching s k bus t) (f l : Nat) (fails : List WordFail) : Latching s k bus (flockLatched f l fails t) :=
  each_keep _ _ (fun ch _ hu => hu.latchStep _ l ch) ((h.storesApplied f l fails).itemsLatched f l)

end

theorem forL_latchFinding_chan (f : Nat) (l : List WordFail) (s : State) (j : Nat) : (forL l (latchFinding f) s).chan j = s.chan j :=
  State.chan_of_same (forL_keep l _ (fun x u hu => latchFinding_keep (.same (p := .chans) rfl s) f x u hu) (Part.same_refl _ s)) j

theorem applyStores_other (ch j : Nat) (s : State) (hj : j ≠ ch) : (applyStores ch s).chan j = s.chan j := by
  rw [applyStores_chan, if_neg hj]

theorem motionItems_other (l ch j : Nat) (s : State) (hj : j ≠ ch) : (motionItems ch l s).chan j = s.chan j := by
  rw [motionItems_chan, if_neg hj]

theorem storesApplied_prog {f l j : Nat} (fails : List WordFail) {s : State} (hj : j ∈ s.chansOfFlock f) :
    ((storesApplied f l fails s).chan j).loop.progQ = [] := by
  rw [storesApplied, forL_latchFinding_chan]
  refine each_chan (I := fun _ => True) (Q := fun c => c.loop.progQ = []) (fun _ _ _ => trivial) applyStores_other (fun u _ => ?_) hj trivial
  rw [applyStores_chan, if_pos rfl]

theorem motionItems_loop (ch l : Nat) (s : State) (j : Nat) : ((motionItems ch l s).chan j).loop = (s.chan j).loop := by
  rw [motionItems_chan]
  split
  next h => rw [h]
  next => rfl

theorem itemsLatched_loop (f l : Nat) (s : State) (j : Nat) : ((itemsLatched f l s).chan j).loop = (s.chan j).loop := by
  unfold itemsLatched
  split
  next => exact each_same (fun t => (t.chan j).loop) (fun ch u => motionItems_loop ch l u j) _ s
  next => rfl

/-- Where a motion period begins, every model of the flock has half the bus sample. -/
theorem itemsLatched_bus {s t : State} {f l j : Nat} {bus : BitVec 16} (h : Latching s (f / 4) bus.toNat t)
    (hmotion : s.loopIndex l % s.nM = 0) (hj : j ∈ s.chansOfFlock f) :
    ((itemsLatched f l t).chan j).mdl.latch.vbus = BitVec.ofNat 16 (bus.toNat / 2) := by
  rw [itemsLatched, h.loopIndex, h.nM, if_pos hmotion]
  refine each_chan (I := Latching s (f / 4) bus.toNat) (Q := fun c => c.mdl.latch.vbus = BitVec.ofNat 16 (bus.toNat / 2))
    (fun ch u hu => hu.motionItems ch l) (motionItems_other l) (fun u hu => ?_) ((h.flock_iff f j).2 hj) h
  have hfold : (u.chan j).foldIx = f / 4 := by
    have hflock := (mem_chansOfFlock.1 ((hu.flock_iff f j).2 hj)).2
    simp only [Chan.flock, flockOf, Chan.foldIx, foldOf] at *
    omega
  rw [motionItems_chan, if_pos rfl]
  simp only [State.senseItems, hfold, State.vbus, hu.bus]

theorem latchStep_mdl (fails : List WordFail) (l ch : Nat) (s : State) (j : Nat) :
    ((latchStep fails l ch s).chan j).mdl = (s.chan j).mdl := by
  by_cases hj : j = ch
  · subst hj
    obtain ⟨-, hmdl, -⟩ := latchStep_fields fails l j s
    exact hmdl
  · rw [latchStep_other fails l ch s hj]

theorem latchStep_prog (fails : List WordFail) (l ch : Nat) (s : State) (j : Nat) :
    ((latchStep fails l ch s).chan j).loop.progQ = (s.chan j).loop.progQ := by
  by_cases hj : j = ch
  · subst hj
    obtain ⟨-, -, hprog, -⟩ := latchStep_fields fails l j s
    exact hprog
  · rw [latchStep_other fails l ch s hj]

/-- The channel `d` is what a latch of channel `ch` in state `s` leaves of it. -/
def DueLatched (s : State) (fails : List WordFail) (ch l : Nat) (d : Chan) : Prop :=
  let c := s.chan ch
  (c.armed = true → d.loop.delivered = false ∧ d.lease.sumA = none ∧ d.lease.sumB = none) ∧
  d.loop.progQ = [] ∧ d.inp.late = 0 ∧ d.loop.first = c.loop.first ∧
  ∀ side, let la := if side = true then d.loop.latB else d.loop.latA
    (s.sideRuns ch side = false → la = if side = true then c.loop.latB else c.loop.latA) ∧
    (fails = [] → c.inp.late = 0 → s.sideRuns ch side = true → let b := s.bankAtLatch ch l
      la.sp = gained (if l = 0 then c.zc.prev else c.zc.eff) b.spt.sample ∧ la.ff = b.ffw.sample ∧ la.inj = b.inj.sample ∧
        la.bad = 0 ∧ la.idx = s.loopIndex l)

theorem latchStep_due {s t : State} {k bus : Nat} (h : Latching s k bus t) {fails found : List WordFail} (hfound : fails = [] → found = [])
    (l : Nat) {ch : Nat} (hprog : (t.chan ch).loop.progQ = []) : DueLatched s fails ch l ((latchStep found l ch t).chan ch) := by
  obtain ⟨hlate, -, hprog', hlat, harmed⟩ := latchStep_fields found l ch t
  obtain ⟨-, -, -, -, -, -, -, hfirst⟩ := (h.latchStep found l ch).fields ch
  obtain ⟨-, -, hzc, -⟩ := h.fields ch
  refine ⟨fun ha => harmed ((h.armed ch).trans ha), hprog'.trans hprog, hlate, hfirst, fun side => ⟨fun hside => ?_, fun hf hin hside => ?_⟩⟩
  · exact (h.latchStep found l ch).idle ch side hside
  · have hclean := latchSet_clean l ((t.chan ch).loop.lat side) (h.late ch hin)
    have hset : ((latchStep found l ch t).chan ch).loop.lat side = t.latchSet ch l [] [] ((t.chan ch).loop.lat side) := by
      rw [hlat, State.sideLatch, h.sideRuns, if_pos hside, hfound hf]
      simp [badWords]
    rw [← hset, h.bankAtLatch, h.loopIndex, hzc] at hclean
    exact hclean

-- ---- the whole latch
theorem flockLatched_other {s : State} {f l j : Nat} (fails : List WordFail) (h : j ∉ s.chansOfFlock f) {k bus : Nat} {s₀ : State}
    (h₀ : Latching s₀ k bus s) : (flockLatched f l fails s).chan j = s.chan j := by
  have hdue : j ∉ s.due f (s.loopIndex l) := fun hd => h (mem_flock_of_due hd)
  have hstores : (storesApplied f l fails s).chan j = s.chan j := by
    rw [storesApplied, forL_latchFinding_chan, each_chan_other applyStores_other h]
  have hitems : (itemsLatched f l (storesApplied f l fails s)).chan j = (storesApplied f l fails s).chan j := by
    unfold itemsLatched
    split
    next =>
      refine each_chan_other (motionItems_other l) (fun hd => h ?_) _
      exact (h₀.flock_iff f j).2 (((h₀.storesApplied f l fails).flock_iff f j).1 hd)
    next => rfl
  rw [flockLatched, each_chan_other (fun i j u hj => latchStep_other _ l i u hj) hdue, hitems, hstores]

theorem flockLatched_due {s t : State} {f l ch : Nat} {bus : BitVec 16} (fails : List WordFail) (h : Latching s (f / 4) bus.toNat t)
    (hch : ch ∈ t.due f (t.loopIndex l)) : DueLatched s fails ch l ((flockLatched f l fails t).chan ch) := by
  have hfound : fails = [] → t.findings f l fails = [] := fun hf => by rw [hf, State.findings, List.filter_nil]
  refine each_chan (I := fun u => Latching s (f / 4) bus.toNat u ∧ (u.chan ch).loop.progQ = [])
    (fun i u ⟨hu, hp⟩ => ⟨hu.latchStep _ l i, (latchStep_prog _ l i u ch).trans hp⟩) (fun i j u hj => latchStep_other _ l i u hj)
    (fun u ⟨hu, hp⟩ => latchStep_due hu hfound l hp) hch ⟨(h.storesApplied f l fails).itemsLatched f l, ?_⟩
  rw [itemsLatched_loop]
  exact storesApplied_prog fails (mem_flock_of_due hch)

theorem flockLatched_bus {s t : State} {f l ch : Nat} {bus : BitVec 16} (fails : List WordFail) (h : Latching s (f / 4) bus.toNat t)
    (hmotion : s.loopIndex l % s.nM = 0) (hch : ch ∈ s.chansOfFlock f) :
    ((flockLatched f l fails t).chan ch).mdl.latch.vbus = BitVec.ofNat 16 (bus.toNat / 2) := by
  have hmdl : ((flockLatched f l fails t).chan ch).mdl = ((itemsLatched f l (storesApplied f l fails t)).chan ch).mdl :=
    each_same (fun u => (u.chan ch).mdl) (fun i u => latchStep_mdl _ l i u ch) _ _
  rw [hmdl]
  exact itemsLatched_bus (h.storesApplied f l fails) hmotion hch

theorem slotsLatched_same {p : Part} (hp : [Part.outs, .free].contains p = false) (f l : Nat) (s : State) : p.same s (slotsLatched f l s) :=
  ite_keep (latchSignals_keep (.same hp s) f s (Part.same_refl p s)) (Part.same_refl p s)

theorem loopLatch_does (f : Fin 32) (l : Fin 8) (bus : BitVec 16) (sens : List SenseIn) (fails : List WordFail) (s : State) :
    Does (.loopLatch f l bus sens fails) s fun t => (t.fold (f.val / 4)).busS = bus.toNat ∧
      (∀ ch, ch ∉ s.chansOfFlock f.val → t.chan ch = s.chan ch) ∧ (s.flockOn f.val = false → t.chans = s.chans) ∧
      (s.flockOn f.val = true → s.loopIndex l.val % s.nM = 0 → ∀ ch ∈ s.chansOfFlock f.val,
        (t.chan ch).mdl.latch.vbus = BitVec.ofNat 16 (bus.toNat / 2)) ∧
      (s.flockOn f.val = true → ∀ ch ∈ s.due f.val (s.loopIndex l.val), DueLatched s fails ch l.val (t.chan ch)) := by
  refine ⟨_, loopLatch_eq f l bus sens fails s, ?_⟩
  have hu := portsLatched_latching f.val bus sens s
  have hchans : Part.same .chans s (portsLatched f.val bus sens s) := portsLatched_same rfl ..
  have hdom : Part.same .dom s (portsLatched f.val bus sens s) := portsLatched_same rfl ..
  generalize portsLatched f.val bus sens s = u at hu hchans hdom
  have hon : u.flockOn f.val = s.flockOn f.val := by rw [State.flockOn, State.domOn, show u.dom = s.dom from hdom]; rfl
  have hdue : u.due f.val (u.loopIndex l.val) = s.due f.val (s.loopIndex l.val) := by rw [hu.loopIndex, State.due_of_same hchans]
  beta_reduce
  rw [State.fold_of_same (slotsLatched_same rfl ..), hon]
  have hslots (v : State) : (slotsLatched f.val l.val v).chans = v.chans := slotsLatched_same (p := .chans) rfl ..
  simp only [State.chan_of_same (slotsLatched_same (p := .chans) rfl _ _ _), hslots]
  cases s.flockOn f.val with
  | false => exact ⟨hu.bus, fun ch _ => State.chan_of_same hchans ch, fun _ => hchans, fun h => absurd h (by decide), fun h => absurd h (by decide)⟩
  | true =>
    refine ⟨(hu.flockLatched f.val l.val fails).bus, fun ch hch => ?_, fun h => absurd h (by decide),
      fun _ hmotion ch hch => flockLatched_bus fails hu hmotion hch, fun _ ch hch => ?_⟩
    · rw [if_pos rfl, flockLatched_other fails (fun h => hch ((hu.flock_iff f.val ch).1 h)) hu, State.chan_of_same hchans]
    · exact flockLatched_due fails hu (hdue ▸ hch)

/-- Settles O40: the latch goes channel by channel through `Latching`; each other row is its own effect. -/
theorem loopPeriodsLatchStartCutAndSupervise : Obligations.LoopPeriodsLatchStartCutAndSupervise := by
  unfold Obligations.LoopPeriodsLatchStartCutAndSupervise
  exact ⟨loopLatch_does, coefWrite_waits, loopCfgWrite_waits, coefApply_does, instanceRunStart_does, loopCutoff_does,
    overrunHealthFailure_reports, followError_reports, fun _ _ x => ⟨pidLaw_manual x, pidLaw_preset⟩⟩

end Sys2Proof.Machine
end

section
/-! SUPPORT. Words rewritten, event bits latched and reports queued: what stops, and reports of the power stage, can do to a register
word and to a condition that is present (R171, R185, R437, R447, R451). -/

namespace Sys2Proof.Machine

open Sys2Proof

-- ---- properties of one part
theorem Keeps.ofRegs {L : List Part} (hL : L.contains .regs = false) (Q : Tab W → Prop) : Keeps L (fun u => Q u.regs) := by
  have hno {q : Prop} (h : L.contains .regs = true) : q := absurd (h.symm.trans hL) (by decide)
  constructor
  case power => exact fun hall => hno (hall .regs)
  case setReg => exact fun h => hno h
  case dropRegs => exact fun h => hno h
  all_goals intros; assumption

theorem Keeps.ofCol {L : List Part} (hL : L.contains .col = false) (Q : Col → Prop) : Keeps L (fun u => Q u.col) := by
  have hno {q : Prop} (h : L.contains .col = true) : q := absurd (h.symm.trans hL) (by decide)
  constructor
  case power => exact fun hall => hno (hall .col)
  case col => exact fun h => hno h
  all_goals intros; assumption

-- ---- a condition that is present moves no other part
@[simp] theorem holdLive_reg (r : Report) (s : State) (a : Nat) : (holdLive r s).reg a = s.reg a := rfl
@[simp] theorem holdLive_at_chan (r : Report) (s : State) (j : Nat) : (holdLive r s).chan j = s.chan j := rfl
@[simp] theorem holdLive_at_fold (r : Report) (s : State) (j : Nat) : (holdLive r s).fold j = s.fold j := rfl
@[simp] theorem holdLive_at_trip (r : Report) (s : State) (j : Nat) : (holdLive r s).trip j = s.trip j := rfl

-- ---- what an operation may write
/-- A property kept by a write of a word of `w`, by a bit set in a word of `e`, by a report queued at its source, and by the primitive
operations on the parts of `L`. -/
structure Frame (w e : Nat → Prop) (L : List Part) (P : State → Prop) : Prop where
  parts : Keeps L P
  write : ∀ {s a} v, w a → P s → P (State.setReg s a v)
  latch : ∀ {s a} i, e a → P s → P (State.setReg s a (setBit (State.reg s a) i))
  queue : ∀ {s} r, P s → P (queueRep r s)

section
variable {w e : Nat → Prop} {L M : List Part} {P : State → Prop} {s : State}

theorem Frame.mono (h : Frame w e L P) (hM : M.all L.contains = true) : Frame w e M P := ⟨h.parts.mono hM, h.write, h.latch, h.queue⟩

/-- A word that may neither be written nor latched stands as it was. -/
theorem Frame.word {a : Nat} {c : W} (hL : L.contains .regs = false) (hw : ¬ w a) (he : ¬ e a) : Frame w e L (fun u => u.reg a = c) where
  parts := .ofRegs hL (fun x => tget (regReset a) x a = c)
  write := fun {s b} v hb hs => by rw [State.setReg_reg, if_neg (by rintro rfl; exact hw hb), hs]
  latch := fun {s b} i hb hs => by rw [State.setReg_reg, if_neg (by rintro rfl; exact he hb), hs]
  queue := fun _ hs => hs

/-- A bit that is set stays set in a word that may be latched only. -/
theorem Frame.bit {a i : Nat} (hL : L.contains .regs = false) (hw : ¬ w a) : Frame w e L (fun u => bitOf (u.reg a) i = true) where
  parts := .ofRegs hL (fun x => bitOf (tget (regReset a) x a) i = true)
  write := fun {s b} v hb hs => by rwa [State.setReg_reg, if_neg (by rintro rfl; exact hw hb)]
  latch := fun {s b} j hb hs => by
    rw [State.setReg_reg]
    split
    next h => rw [bitOf_setBit, ← h, hs, Bool.true_or]
    next => exact hs
  queue := fun _ hs => hs

theorem Frame.setEvt (h : Frame w e [.host] P) {a : Nat} (i : Nat) (ha : e a) (hs : P s) : P (setEvt a i s) :=
  signal_keep h.parts a _ (h.latch i ha hs)

theorem Frame.raise (h : Frame w e [.host] P) {a : Nat} (r : Report) (ha : e a) (hs : P s) : P (raise a r s) :=
  h.queue r (h.setEvt _ ha hs)

theorem Frame.talCheck (h : Frame w e [.tal, .host] P) (ht : e talEvt) (bit : Nat) (ok : Bool) (hs : P s) : P (talCheck bit ok s) :=
  ite_keep hs (upd_tal (h.parts.mono (by decide)) ((h.mono (by decide)).setEvt bit ht hs))

end

-- ---- stops (R53, R171, R176, R451)
/-- The counts of broken volt-second equations. -/
def StopWord (a : Nat) : Prop := ∃ t, a = vsBreak t

/-- The events of the tallies and of the modulators. -/
def StopEvt (a : Nat) : Prop := a = talEvt ∨ ∃ f, a = modEvt f

section
variable {P : State → Prop} {s : State}

theorem vsCheck_frame (h : Frame StopWord StopEvt [.tal, .host] P) (t : Nat) (hs : P s) : P (vsCheck t s) :=
  ite_keep hs (h.talCheck (.inl rfl) 4 false (h.write _ ⟨t, rfl⟩ hs))

theorem closeMid_frame (h : Frame StopWord StopEvt [.wide, .terms, .tal, .host] P) (t now : Nat) (hs : P s) : P (closeMid t now s) := by
  unfold closeMid
  split
  · exact hs
  · refine vsCheck_frame (h.mono (by decide)) t (updTerm_keep (h.parts.mono (by decide)) t _ (fun _ => ⟨fun h1 h2 => ⟨h1, h2⟩⟩) ?_)
    exact creditDel_keep (h.parts.mono (by decide)) t _ _ _ (addWide_keep (h.parts.mono (by decide)) _ _
      (addWide_keep (h.parts.mono (by decide)) _ _ hs))

theorem dropResidue_frame (h : Frame StopWord StopEvt [.wide, .terms, .tal, .host] P) (t : Nat) (hs : P s) : P (dropResidue t s) :=
  ite_keep hs (vsCheck_frame (h.mono (by decide)) t (updTerm_keep (h.parts.mono (by decide)) t _ (fun _ => ⟨fun h1 h2 => ⟨h1, h2⟩⟩)
    (addWide_keep (h.parts.mono (by decide)) _ _ hs)))

theorem enterSafe_frame (h : Frame StopWord StopEvt [.wide, .terms, .tal, .host] P) (ch now : Nat) (hs : P s) : P (enterSafe ch now s) :=
  each_keep _ _ (fun t _ hu => setDrive_keep (h.parts.mono (by decide)) t _ _ _ _ (dropResidue_frame h t (closeMid_frame h t now hu))) hs

theorem modEvent_frame (h : Frame StopWord StopEvt [.host] P) (t bit : Nat) (hs : P s) : P (modEvent t bit s) :=
  ite_keep hs (h.raise _ (.inr ⟨_, rfl⟩) hs)

theorem clearForces_frame (h : Frame StopWord StopEvt [.terms, .host] P) (ch : Nat) (hs : P s) : P (clearForces ch s) := by
  refine each_keep _ _ (fun t u hu => ?_) hs
  have hterm (f : Term → Term) (hf : ∀ x, LegLe x (f x)) : P (u.updTerm t f) := updTerm_keep (h.parts.mono (by decide)) t f hf hu
  dsimp only
  split
  · exact hterm _ fun _ => ⟨fun h1 h2 => ⟨h1, h2⟩⟩
  · exact modEvent_frame (h.mono (by decide)) t 3 (hterm _ fun _ => ⟨fun h1 h2 => ⟨h1, h2⟩⟩)

theorem stopChannel_frame (h : Frame StopWord StopEvt [.chans, .terms, .gates, .motors, .rings, .svc, .host] P) (ch : Nat) (r : Report)
    (hs : P s) : P (stopChannel ch r s) := by
  have hchan {u : State} (c : Chan) (hu : P u) : P (u.setChan ch c) := setChan_keep (h.parts.mono (by decide)) ch c hu
  have hfin {u : State} (op st : Nat) (hu : P u) : P (finishObj op (1, ch) st u) := finishObj_keep (h.parts.mono (by decide)) op _ st u hu
  unfold stopChannel
  extract_lets c
  split
  · exact hs
  · exact hs
  · exact ite_keep (clearForces_frame (h.mono (by decide)) ch (hchan _ (hchan _ hs))) (hchan _ (hchan _ hs))
  · exact refreshGates_keep (h.parts.mono (by decide)) _ (motorIdle_keep (h.parts.mono (by decide)) ch _
      (clearForces_frame (h.mono (by decide)) ch (hfin _ _ (hfin _ _ (hchan _ hs)))))

/-- A trip writes no words but the counts of broken equations, and latches events of the modulators and tallies. -/
theorem tripChannel_frame (h : Frame StopWord StopEvt [.wide, .chans, .terms, .gates, .motors, .rings, .svc, .tal, .host] P) (ch now : Nat)
    (r : Report) (hs : P s) : P (tripChannel ch now r s) :=
  ite_keep (stopChannel_frame (h.mono (by decide)) ch r (clearForces_frame (h.mono (by decide)) ch
    (enterSafe_frame (h.mono (by decide)) ch now hs))) hs

end

/-- A word that no stop writes. -/
def OffStops (a : Nat) : Prop := ¬ StopWord a ∧ ¬ StopEvt a

theorem offStops_of_block {b o : Nat} (hb : b = 0x400000 + 0x80000 * (b / 0x80000 - 8)) (ho : o < 0x80000) (h1 : o ≠ 0x3440)
    (h2 : o < 0x7800 ∨ 0x7900 ≤ o) : OffStops (b + o) := by
  refine ⟨fun ⟨t, ht⟩ => ?_, fun h => ?_⟩
  · unfold vsBreak vsUnconf aFlock posOf at ht
    omega
  · rcases h with h | ⟨f, hf⟩
    · unfold talEvt aTal at h
      omega
    · unfold modEvt aFlock at hf
      omega

/-- The power-stage words of a terminal, and the words of a fold. -/
theorem offStops_psReg (t : Nat) {off : Nat} (h : off < 0x40) : OffStops (psReg t off) := by
  rw [psReg, Nat.add_assoc, Nat.add_assoc]
  exact offStops_of_block (by unfold aFlock; omega) (by unfold posOf; omega) (by omega) (by unfold posOf; omega)

theorem offStops_fold (k : Nat) {off : Nat} (h : off < 0x100) : OffStops (aFold k + off) := by
  rw [aFold, Nat.add_assoc]
  exact offStops_of_block (by unfold aFlock; omega) (by omega) (by omega) (by omega)

theorem tripChannel_reg {a : Nat} (ha : OffStops a) (ch now : Nat) (r : Report) (s : State) : (tripChannel ch now r s).reg a = s.reg a :=
  tripChannel_frame (Frame.word rfl ha.1 ha.2) ch now r rfl

theorem tripChannel_same {p : Part} (hp : [Part.regs, .wide, .chans, .terms, .gates, .motors, .rings, .svc, .col, .tal, .host].contains p = false)
    (ch now : Nat) (r : Report) (s : State) : p.same s (tripChannel ch now r s) :=
  tripChannel_keep (.same hp s) ch now r s (p.same_refl s)

-- ---- the stop of a fold (R440)
theorem tripFold_reg {a : Nat} (ha : OffStops a) (k now : Nat) (r : Report) (s : State) : (tripFold k now r s).reg a = s.reg a :=
  each_same (fun u => u.reg a) (fun ch u => tripChannel_reg ha ch now r u) _ (markFold k r s)

theorem tripFold_same {p : Part}
    (hp : [Part.regs, .wide, .chans, .terms, .folds, .gates, .motors, .rings, .svc, .col, .tal, .host].contains p = false)
    (k now : Nat) (r : Report) (s : State) : p.same s (tripFold k now r s) :=
  tripFold_keep (.same hp s) k now r s (p.same_refl s)

/-- Of the folds a fold stop writes the mark and the causes of its own. -/
theorem tripFold_fold (k now : Nat) (r : Report) (s : State) (j : Nat) : (tripFold k now r s).fold j = (markFold k r s).fold j :=
  State.fold_of_same (each_keep _ _ (fun ch _ hu => tripChannel_keep (.same (p := .folds) rfl _) ch now r _ hu) rfl) j

theorem tripFold_stopped (k now : Nat) (r : Report) (s : State) : ((tripFold k now r s).fold k).stopped = true := by
  rw [tripFold_fold]
  simp [markFold]

/-- A fold stop stops each channel of the fold and no other. -/
theorem tripFold_st (k now : Nat) (r : Report) (s : State) (j : Nat) : ((tripFold k now r s).chan j).st =
    if j ∈ s.chansOfFold k then (s.chan j).st.stop else (s.chan j).st :=
  each_tripChannel_st now r _ (markFold k r s) j

theorem tripFold_unarmed (now : Nat) (r : Report) {k j : Nat} {s : State} (hj : j ∈ s.chansOfFold k) :
    ((tripFold k now r s).chan j).st ≠ .armed := by
  rw [tripFold_st, if_pos hj]
  exact ChanSt.stop_ne_armed _

-- ---- reports of a condition (R437, R447)
/-- From `s` to `t`: the condition of r is present, and where it was not its report waits at its source. -/
def Reported (r : Report) (s t : State) : Prop := t.causeLive r = true ∧ (s.causeLive r = false → r ∈ t.col.srcQ)

/-- From collector `c` to `d` the condition of r stays present, it becomes so only as r is reported, and no report leaves its source. -/
structure Tells (r : Report) (c d : Col) : Prop where
  held : r ∈ c.live → r ∈ d.live
  told : r ∈ d.live → r ∈ c.live ∨ r ∈ d.srcQ
  queue : ∀ x ∈ c.srcQ, x ∈ d.srcQ

section
variable {r r' : Report} {c : Col} {s : State}

theorem Tells.refl (r : Report) (c : Col) : Tells r c c := ⟨id, .inl, fun _ => id⟩

theorem Tells.queueRep (h : Tells r c s.col) (x : Report) : Tells r c (queueRep x s).col := by
  rw [queueRep_col]
  exact ⟨h.held, fun hr => (h.told hr).imp_right (List.mem_append_left _), fun y hy => List.mem_append_left _ (h.queue y hy)⟩

theorem Tells.raise (h : Tells r c s.col) (a : Nat) (x : Report) : Tells r c (raise a x s).col := by
  rw [raise_col]
  exact h.queueRep x

theorem mem_holdLive : r ∈ (holdLive r' s).col.live ↔ r ∈ s.col.live ∨ r = r' := by
  simp only [holdLive, State.updCol_col, List.contains_eq_mem, decide_eq_true_eq]
  split
  next h => exact ⟨.inl, fun hr => hr.elim id (fun e => e ▸ h)⟩
  next => simp

/-- Another condition becomes present. -/
theorem Tells.holdLive (h : Tells r c s.col) (hne : r ≠ r') : Tells r c (holdLive r' s).col :=
  ⟨fun hr => mem_holdLive.2 (.inl (h.held hr)), fun hr => h.told ((mem_holdLive.1 hr).resolve_right hne), h.queue⟩

/-- The condition becomes present with its report at its source. -/
theorem Tells.holdLive_self (h : Tells r c s.col) (hr : r ∈ s.col.srcQ) : Tells r c (Machine.holdLive r s).col :=
  ⟨fun hc => mem_holdLive.2 (.inl (h.held hc)), fun _ => .inr hr, h.queue⟩

theorem condEnd_live (p : Report → Bool) (s : State) : (condEnd p s).col.live = s.col.live.filter (fun x => !p x) :=
  Eq.trans (each_same (fun u => u.col.live) (fun n u => by dsimp only; split <;> rfl) _ _) rfl

theorem condEnd_srcQ (p : Report → Bool) (s : State) : (condEnd p s).col.srcQ = s.col.srcQ :=
  Eq.trans (each_same (fun u => u.col.srcQ) (fun n u => by dsimp only; split <;> rfl) _ _) rfl

/-- Another condition ends. -/
theorem Tells.condEnd (h : Tells r c s.col) (hne : r ≠ r') : Tells r c (condEnd (fun x => x == r') s).col := by
  have hlive : r ∈ (Machine.condEnd (fun x => x == r') s).col.live ↔ r ∈ s.col.live := by simp [condEnd_live, hne]
  have hq := condEnd_srcQ (fun x => x == r') s
  exact ⟨fun hr => hlive.2 (h.held hr), fun hr => hq.symm ▸ h.told (hlive.1 hr), fun x hx => hq.symm ▸ h.queue x hx⟩

theorem Tells.frame (r : Report) (c : Col) {w e : Nat → Prop} {L : List Part} (hL : L.contains .col = false) :
    Frame w e L (fun u => Tells r c u.col) where
  parts := .ofCol hL (Tells r c)
  write := fun _ _ hs => hs
  latch := fun _ _ hs => hs
  queue := fun x hs => hs.queueRep x

theorem Tells.tripChannel (h : Tells r c s.col) (ch now : Nat) (x : Report) : Tells r c (tripChannel ch now x s).col :=
  tripChannel_frame (Tells.frame r c rfl) ch now x h

theorem Tells.tripFold (h : Tells r c s.col) (k now : Nat) (x : Report) : Tells r c (tripFold k now x s).col :=
  each_keep (P := fun u : State => Tells r c u.col) _ _ (fun ch _ hu => hu.tripChannel ch now x) (s := markFold k x s) h

/-- A condition that is present has been reported where it was not. -/
theorem Tells.reported {t : State} (h : Tells r s.col t.col) (hr : r ∈ t.col.live) : Reported r s t := by
  refine ⟨by simpa [State.causeLive] using hr, fun hs => (h.told hr).resolve_left fun hl => ?_⟩
  rw [State.causeLive, List.contains_eq_mem, decide_eq_false_iff_not] at hs
  exact hs hl

-- ---- conditions over a limit (R214, R447)
theorem limitEvt_tells (h : Tells r c s.col) (a : Nat) (isOver : Bool) (hne : r ≠ r') : Tells r c (limitEvt a r' isOver s).col := by
  unfold limitEvt
  exact ite_keep (Q := fun u : State => Tells r c u.col) (ite_keep (Q := fun u : State => Tells r c u.col) h ((h.raise a r').holdLive hne))
    (ite_keep (Q := fun u : State => Tells r c u.col) (h.condEnd hne) h)

theorem raiseOwn_tells (h : Tells r c s.col) (source bit cls okind obj : Nat) : Tells r c (raiseOwn source bit cls okind obj s).col := by
  rw [raiseOwn]
  exact Tells.queueRep (s := s.updCol _) ⟨h.held, h.told, h.queue⟩ _

theorem limitOwn_tells (h : Tells r c s.col) {source bit cls okind obj : Nat} (isOver : Bool) (hne : r ≠ mkRep source 15 bit cls okind obj) :
    Tells r c (limitOwn source bit cls okind obj isOver s).col := by
  unfold limitOwn
  exact ite_keep (Q := fun u : State => Tells r c u.col)
    (ite_keep (Q := fun u : State => Tells r c u.col) h ((raiseOwn_tells h source bit cls okind obj).holdLive hne))
    (ite_keep (Q := fun u : State => Tells r c u.col) (h.condEnd hne) h)

/-- A cause over its limit is present, and its report has gone to its source where it was not. -/
theorem limitOwn_over {source bit cls okind obj : Nat} (h : Tells (mkRep source 15 bit cls okind obj) c s.col) :
    Tells (mkRep source 15 bit cls okind obj) c (limitOwn source bit cls okind obj true s).col ∧
      mkRep source 15 bit cls okind obj ∈ (limitOwn source bit cls okind obj true s).col.live := by
  unfold limitOwn
  extract_lets r
  rw [if_pos rfl]
  split
  next hl => exact ⟨h, by simpa [State.causeLive] using hl⟩
  next =>
    refine ⟨(raiseOwn_tells h source bit cls okind obj).holdLive_self ?_, mem_holdLive.2 (.inr rfl)⟩
    rw [raiseOwn, queueRep_col]
    exact List.mem_append_right _ (List.mem_singleton.2 rfl)

end

end Sys2Proof.Machine
end

section
/-! SUPPORT. Timers and their windows (R202, R203, R206, R312). -/

namespace Sys2Proof.Machine

open Sys2Proof

-- ---- TIMER.NEW (R202, R312)
theorem freeTimer_spec {s : State} {k i : Nat} (h : s.freeTimer k = some i) : i / 64 = k ∧ (s.timer i).live = false := by
  obtain ⟨j, hj, rfl⟩ := Option.map_eq_some_iff.1 h
  have hlt : j < 64 := List.mem_range.1 (List.mem_of_find?_eq_some hj)
  exact ⟨by omega, by simpa using List.find?_some hj⟩

/-- The timer that TIMER.NEW asks for. -/
def timerOf (e : CmdEntry) : Timer :=
  { live := true, term := fld (opN e 0) 0 9, event := fld (opN e 0) 16 3, delay := fld (opN e 1) 0 16
    width := fld (opN e 1) 16 16, retrig := bitOf (opN e 0) 12, open_ := false, openAt := 0 }

theorem timerNew_eq {e : CmdEntry} {s : State} (h : s.accepts e 0x0C01) : exec (.timerNew e) s = .next
    (match (s.untake e).freeTimer (foldOf (fld (opN e 0) 0 9)) with
      | none => refuse e stNoRes 1 (s.untake e)
      | some i => acceptNow e (mkHandle 9 i ((s.untake e).gen 9 i)) ((s.untake e).setTimer i (timerOf e))) :=
  congrArg Host.Outcome.next (commandRow_accepted h)

theorem timerNew_does (e : CmdEntry) (s : State) (h : s.accepts e 0x0C01) : let u := s.untake e; let o := opN e 0
    Does (.timerNew e) s fun t => match u.freeTimer (foldOf (fld o 0 9)) with
      | none => Posted e stNoRes 0 1 u t ∧ t.timers = u.timers
      | some i => Posted e stOk (mkHandle 9 i (u.gen 9 i)) 0 u t ∧ i / 64 = foldOf (fld o 0 9) ∧ (u.timer i).live = false ∧
          t.timer i = { live := true, term := fld o 0 9, event := fld o 16 3, delay := fld (opN e 1) 0 16
                        width := fld (opN e 1) 16 16, retrig := bitOf o 12, open_ := false, openAt := 0 } := by
  intro u o
  refine ⟨_, timerNew_eq h, ?_⟩
  change match u.freeTimer (foldOf (fld o 0 9)) with | none => _ | some i => _
  cases hi : u.freeTimer (foldOf (fld o 0 9)) with
  | none => exact ⟨complete_posted e stNoRes 0 1 rfl, rfl⟩
  | some i =>
    obtain ⟨hfold, hfree⟩ := freeTimer_spec hi
    dsimp only
    exact ⟨acceptNow_posted e _ rfl, hfold, hfree, by simp [acceptNow, timerOf, o]⟩

-- ---- operations on the trip groups of a list
/-- An operation on each group of a list. -/
def mapTrips (F : Trip → Trip) (l : List Nat) (s : State) : State := each l (fun g s => s.setTrip g (F (s.trip g))) s

/-- It acts on a group as often as the list names it. -/
theorem mapTrips_trip (F : Trip → Trip) (l : List Nat) (s : State) (g : Nat) : (mapTrips F l s).trip g = F^[l.count g] (s.trip g) := by
  induction l generalizing s with
  | nil => rfl
  | cons i l ih =>
    rw [show mapTrips F (i :: l) s = mapTrips F l (s.setTrip i (F (s.trip i))) from rfl, ih, State.setTrip_read, List.count_cons]
    by_cases hg : g = i
    · simp [hg]
    · simp [hg, Ne.symm hg]

theorem mapTrips_timer (F : Trip → Trip) (l : List Nat) (s : State) (i : Nat) : (mapTrips F l s).timer i = s.timer i :=
  each_same (fun u => u.timer i) (f := fun g u => u.setTrip g (F (u.trip g))) (fun _ _ => rfl) l s

theorem iterate_idempotent {α : Type} {F : α → α} (hF : ∀ x, F (F x) = F x) {n : Nat} (hn : 0 < n) (x : α) : F^[n] x = F x := by
  induction n with
  | zero => exact absurd hn (lt_irrefl 0)
  | succ n ih =>
    rw [Function.iterate_succ_apply']
    rcases Nat.eq_zero_or_pos n with rfl | hpos
    · rfl
    · rw [ih hpos, hF]

theorem blankUntil_idempotent (n : Nat) (x : Trip) : (x.blankUntil n).blankUntil n = x.blankUntil n := by
  unfold Trip.blankUntil
  by_cases h : (x.blank && decide (x.blankTo ≤ n)) = true
  · simp [h]
  · simp [h]

-- ---- TIMER_WINDOW_OPEN and TIMER_WINDOW_CLOSE (R202, R203)
/-- The channel of a timer's terminal is out of its safe state (R203). -/
def State.timerReady (s : State) (i : Nat) : Bool :=
  match s.ownerOf (s.timer i).term with
  | some ch => (s.chan ch).armed || (s.term (s.timer i).term).forceEff != 0
  | none => false

theorem timerReady_iff (s : State) (i : Nat) : s.timerReady i = true ↔
    ∃ ch, s.ownerOf (s.timer i).term = some ch ∧ ((s.chan ch).st = .armed ∨ (s.term (s.timer i).term).forceEff ≠ 0) := by
  unfold State.timerReady
  cases s.ownerOf (s.timer i).term with
  | none => simp
  | some ch => simp [Chan.armed]

theorem timerWindowOpen_eq (i : Fin 512) (now : Nat) (s : State) : exec (.timerWindowOpen i now) s =
    if (s.timer i.val).live && s.timerReady i.val && !s.motorTimer i.val then .next (openTimer i.val now s) else .next s := by
  change execTimerWindowOpen i now s = _
  unfold execTimerWindowOpen State.timerReady
  rfl

theorem timerWindowOpen_does (i : Fin 512) (now : Nat) (s : State) : Does (.timerWindowOpen i now) s fun t =>
    let x := s.timer i.val
    if x.live = true ∧ (∃ ch, s.ownerOf x.term = some ch ∧ ((s.chan ch).st = .armed ∨ (s.term x.term).forceEff ≠ 0)) ∧
      s.motorTimer i.val = false ∧ (x.isOpen now = false ∨ x.retrig = true) then
      t.timer i.val = { x with open_ := true, openAt := now } ∧
        ((s.tripsOf i.val).Nodup → ∀ g ∈ s.tripsOf i.val, t.trip g = (s.trip g).blankOpen x.delay x.width now)
    else t = s := by
  unfold Does
  rw [timerWindowOpen_eq]
  simp only [← timerReady_iff]
  by_cases hopens : ((s.timer i.val).live && s.timerReady i.val && !s.motorTimer i.val) = true
  · have hready : (s.timer i.val).live = true ∧ s.timerReady i.val = true ∧ s.motorTimer i.val = false := by
      simpa [and_assoc] using hopens
    rw [if_pos hopens]
    by_cases hshut : (s.timer i.val).isOpen now = false ∨ (s.timer i.val).retrig = true
    · have hopen : ¬((s.timer i.val).isOpen now && !(s.timer i.val).retrig) = true := by
        rcases hshut with h | h <;> simp [h]
      refine ⟨_, congrArg _ (if_neg hopen), ?_⟩
      rw [if_pos ⟨hready.1, hready.2.1, hready.2.2, hshut⟩]
      refine ⟨?_, fun hnd g hg => ?_⟩
      · refine (mapTrips_timer (fun y => y.blankOpen (s.timer i.val).delay (s.timer i.val).width now) ..).trans ?_
        rw [State.setTimer_read, if_pos rfl]
      refine (mapTrips_trip (fun y => y.blankOpen (s.timer i.val).delay (s.timer i.val).width now) ..).trans ?_
      rw [List.count_eq_one_of_mem hnd hg]
      rfl
    · have hopen : ((s.timer i.val).isOpen now && !(s.timer i.val).retrig) = true := by
        simpa [not_or] using hshut
      exact ⟨_, congrArg _ (if_pos hopen), (if_neg fun h => hshut h.2.2.2).mpr rfl⟩
  · rw [if_neg hopens]
    refine ⟨_, rfl, (if_neg fun h => hopens ?_).mpr rfl⟩
    obtain ⟨hlive, hready, hmotor, -⟩ := h
    simp [hlive, hready, hmotor]

theorem timerWindowClose_does (i : Fin 512) (now : Nat) (s : State) : Does (.timerWindowClose i now) s fun t =>
    let x := s.timer i.val
    if x.open_ = true ∧ x.openAt + x.width ≤ now then
      t.timer i.val = { x with open_ := false } ∧ ∀ g ∈ s.tripsOf i.val, t.trip g = (s.trip g).blankUntil (x.openAt + x.width)
    else t = s := by
  change ∃ t, execTimerWindowClose i now s = .next t ∧ _
  unfold execTimerWindowClose
  simp only [Bool.and_eq_true, decide_eq_true_eq]
  split
  · refine ⟨_, rfl, ?_, fun g hg => ?_⟩
    · refine (mapTrips_timer (fun y => y.blankUntil ((s.timer i.val).openAt + (s.timer i.val).width)) ..).trans ?_
      rw [State.setTimer_read, if_pos rfl]
    refine (mapTrips_trip (fun y => y.blankUntil ((s.timer i.val).openAt + (s.timer i.val).width)) ..).trans ?_
    rw [iterate_idempotent (blankUntil_idempotent _) (List.count_pos_iff.2 hg)]
    rfl
  · exact ⟨_, rfl, rfl⟩

end Sys2Proof.Machine
end

section
/-! SUPPORT. Trip groups: what an active input does to channels and folds, and the commands that set, extend and delete a group
(R205 to R209, R312). -/

namespace Sys2Proof.Machine

open Sys2Proof

-- ---- what a trip leaves of its group (R207)
/-- A group but for the stops that it has caused. -/
def Trip.input (x : Trip) : Trip := { x with fired := [], firedFolds := [] }

theorem updFired_same {p : Part} (hp : [Part.regs].contains p = false) (g : Nat) (s : State) : p.same s (updFired g s) :=
  updFired_keep (.same hp s) g s (p.same_refl s)

theorem State.trip_of_same {s t : State} (h : Part.same .trips s t) (j : Nat) : t.trip j = s.trip j := by
  unfold State.trip
  rw [show t.trips = s.trips from h]

/-- The report of a group on a channel, its condition present, and the channel tripped. -/
def tripStop (now ch : Nat) (s : State) : State :=
  tripChannel ch now (tripRepC s ch) (holdLive (tripRepC s ch) (raise (foldEvt (s.chan ch).foldIx) (tripRepC s ch) s))

theorem tripStop_st (now ch : Nat) (s : State) (j : Nat) :
    ((tripStop now ch s).chan j).st = if j = ch then (s.chan j).st.stop else (s.chan j).st := by
  have hsame (i : Nat) : (holdLive (tripRepC s ch) (raise (foldEvt (s.chan ch).foldIx) (tripRepC s ch) s)).chan i = s.chan i := by
    rw [holdLive_at_chan, raise_at_chan]
  rw [tripStop, tripChannel_st, hsame, hsame]
  split
  next h => rw [h]
  next => rfl

theorem tripStop_trip (now ch : Nat) (s : State) (j : Nat) : (tripStop now ch s).trip j = s.trip j := by
  rw [tripStop, State.trip_of_same (tripChannel_same rfl ..), holdLive_at_trip, raise_at_trip]

/-- The group holds a stop of a channel as its own. -/
def markTrip (g ch : Nat) (s : State) : State :=
  s.setTrip g { s.trip g with fired := if (s.trip g).fired.contains ch then (s.trip g).fired else (s.trip g).fired ++ [ch] }

theorem State.setTrip_input {s : State} {g : Nat} {x : Trip} (h : x.input = (s.trip g).input) (j : Nat) :
    ((s.setTrip g x).trip j).input = (s.trip j).input := by
  rw [State.setTrip_read]
  split
  next hj => rw [h, hj]
  next => rfl

theorem markTrip_input (g ch : Nat) (s : State) (j : Nat) : ((markTrip g ch s).trip j).input = (s.trip j).input :=
  State.setTrip_input (by rfl) j

/-- A group acts on a channel by its stop, which it holds as its own where the channel was live. -/
theorem tripActOn_eq (g now ch : Nat) (s : State) :
    tripActOn g now ch s = tripStop now ch s ∨ tripActOn g now ch s = updFired g (markTrip g ch (tripStop now ch s)) := by
  unfold tripActOn
  dsimp only
  split
  · exact .inl rfl
  · exact .inl rfl
  · exact .inr rfl

theorem tripActOn_st (g now ch : Nat) (s : State) (j : Nat) :
    ((tripActOn g now ch s).chan j).st = if j = ch then (s.chan j).st.stop else (s.chan j).st := by
  rw [← tripStop_st now]
  rcases tripActOn_eq g now ch s with h | h
  · rw [h]
  · rw [h, State.chan_of_same (updFired_same rfl ..), markTrip, State.setTrip_at_chan]

theorem tripActOn_input (g now ch : Nat) (s : State) (j : Nat) : ((tripActOn g now ch s).trip j).input = (s.trip j).input := by
  have hstop := congrArg Trip.input (tripStop_trip now ch s j)
  rcases tripActOn_eq g now ch s with h | h
  · rw [h, hstop]
  · rw [h, State.trip_of_same (updFired_same rfl ..), markTrip_input, hstop]

/-- A group stops a fold. -/
def tripStopFold (now k : Nat) (s : State) : State :=
  tripFold k now (tripRepF k) (holdLive (tripRepF k) (raise (foldEvt k) (tripRepF k) s))

/-- The group holds a stop of a fold as its own. -/
def markTripFold (g k : Nat) (s : State) : State :=
  s.setTrip g { s.trip g with firedFolds := if (s.trip g).firedFolds.contains k then (s.trip g).firedFolds else (s.trip g).firedFolds ++ [k] }

theorem markTripFold_input (g k : Nat) (s : State) (j : Nat) : ((markTripFold g k s).trip j).input = (s.trip j).input :=
  State.setTrip_input (by rfl) j

/-- A group acts on a fold by its stop, which it holds as its own. -/
def tripActOnFold (g now k : Nat) (s : State) : State := markTripFold g k (tripStopFold now k s)

theorem tripActOnFold_input (g now k : Nat) (s : State) (j : Nat) : ((tripActOnFold g now k s).trip j).input = (s.trip j).input := by
  rw [tripActOnFold, markTripFold_input, tripStopFold, State.trip_of_same (tripFold_same rfl ..), holdLive_at_trip, raise_at_trip]

theorem markFold_stopped (k : Nat) (r : Report) (s : State) (j : Nat) :
    ((markFold k r s).fold j).stopped = (decide (j = k) || (s.fold j).stopped) := by
  by_cases h : j = k <;> simp [markFold, h]

theorem tripActOnFold_stopped (g now k j : Nat) (s : State) :
    ((tripActOnFold g now k s).fold j).stopped = (decide (j = k) || (s.fold j).stopped) := by
  rw [tripActOnFold, markTripFold, State.setTrip_at_fold, tripStopFold, tripFold_fold, markFold_stopped, holdLive_at_fold, raise_at_fold]

/-- The folds of a mask. -/
abbrev foldsIn (mask : Nat) : List Nat := (List.range 8).filter (fun k => fieldN mask k 1 == 1)

theorem mem_foldsIn {mask k : Nat} (hk : k < 8) (h : fieldN mask k 1 = 1) : k ∈ foldsIn mask := by simp [hk, h]

/-- An input that becomes active stops its group's channels. -/
theorem tripRise_chans {g : Nat} {s : State} (now : Nat) (h1 : (s.trip g).scope = 1) (hne : (s.trip g).chans ≠ []) :
    tripRise g now s = each (s.trip g).chans (tripActOn g now) s := by
  have e : (if (s.trip g).scope = 1 ∧ (s.trip g).chans = [] then 0 else (s.trip g).scope) = 1 := by simp [h1, hne]
  simp only [tripRise, e]

/-- It stops its group's folds. -/
theorem tripRise_folds {g : Nat} {s : State} (now : Nat) (h2 : (s.trip g).scope = 2) :
    tripRise g now s = updFired g (each (foldsIn (s.trip g).mask) (tripActOnFold g now) s) := by
  have e : (if (s.trip g).scope = 1 ∧ (s.trip g).chans = [] then 0 else (s.trip g).scope) = 2 := by simp [h2]
  simp only [tripRise, e]
  rfl

/-- A group of no scope is only shown. -/
theorem tripRise_shown {g : Nat} {s : State} (now : Nat) (h1 : (s.trip g).scope = 1 → (s.trip g).chans = []) (h2 : (s.trip g).scope ≠ 2) :
    tripRise g now s = each (foldsIn (s.trip g).mask) (fun k s => foldEvent k 6 0 0 0 s) s := by
  unfold tripRise
  dsimp only
  split
  next h =>
    split at h
    · cases h
    next hno => exact absurd ⟨h, h1 h⟩ hno
  next h =>
    split at h
    · cases h
    · exact absurd h h2
  next => rfl

/-- An input that becomes active has one of three effects, by the scope of its group. -/
theorem tripRise_input (g now : Nat) (s : State) (j : Nat) : ((tripRise g now s).trip j).input = (s.trip j).input := by
  by_cases h2 : (s.trip g).scope = 2
  · rw [tripRise_folds now h2, State.trip_of_same (updFired_same rfl ..)]
    exact each_same (fun u => (u.trip j).input) (fun k u => tripActOnFold_input g now k u j) _ s
  by_cases h1 : (s.trip g).scope = 1 → (s.trip g).chans = []
  · rw [tripRise_shown now h1 h2]
    exact each_same (fun u => (u.trip j).input) (fun k u => congrArg Trip.input (raise_at_trip _ _ u j)) _ s
  · obtain ⟨h1, hne⟩ := Classical.not_imp.1 h1
    rw [tripRise_chans now h1 hne]
    exact each_same (fun u => (u.trip j).input) (fun ch u => tripActOn_input g now ch u j) _ s

-- ---- the level of a group's filter (R205, R207)
/-- TRIP_ACT shows a group's input in each fold. -/
def showTrip (g : Nat) (active : Bool) (s : State) : State :=
  each (List.range 8) (fun k s => s.updReg (tripAct k) (fun w => if active then setBit w g else clrBit w g)) s

theorem showTrip_same {p : Part} (hp : [Part.regs].contains p = false) (g : Nat) (active : Bool) (s : State) :
    p.same s (showTrip g active s) :=
  each_keep _ _ (fun _ _ hu => updReg_keep (.same hp s) _ _ hu) (p.same_refl s)

theorem State.updReg_gens (s : State) (a : Nat) (f : W → W) : (s.updReg a f).gens = s.gens := rfl

theorem showTrip_gens (g : Nat) (active : Bool) (s : State) : (showTrip g active s).gens = s.gens :=
  each_same State.gens (fun k u => State.updReg_gens u (tripAct k) _) _ s

theorem tripLevel_stays {g : Nat} {b : Bool} {s : State} (now : Nat) (h : (s.trip g).active = b) : tripLevel g b now s = s := by
  simp [tripLevel, h]

theorem tripLevel_rises {g : Nat} {s : State} (now : Nat) (h : (s.trip g).active = false) :
    tripLevel g true now s = tripRise g now (showTrip g true (s.setTrip g { s.trip g with active := true })) := by
  simp [tripLevel, h, showTrip]

theorem tripLevel_falls {g : Nat} {s : State} (now : Nat) (h : (s.trip g).active = true) : ∃ p,
    tripLevel g false now s = updFired g (condEnd p (showTrip g false (s.setTrip g { s.trip g with active := false }))) := by
  unfold tripLevel
  extract_lets x u
  rw [if_neg (by simp [x, h])]
  exact ⟨_, if_neg (by decide)⟩

/-- A level leaves of the groups all but the activity of its own and the stops that it causes. -/
theorem tripLevel_input (g : Nat) (b : Bool) (now : Nat) (s : State) :
    ((tripLevel g b now s).trip g).input = { (s.trip g).input with active := b } := by
  by_cases h : (s.trip g).active = b
  · rw [tripLevel_stays now h, ← h]
    rfl
  have hshow : (showTrip g b (s.setTrip g { s.trip g with active := b })).trip g = { s.trip g with active := b } := by
    rw [State.trip_of_same (showTrip_same rfl ..)]
    simp
  cases b
  case true =>
    rw [tripLevel_rises now (by simpa using h), tripRise_input, hshow]
    rfl
  case false =>
    obtain ⟨p, hp⟩ := tripLevel_falls now (by simpa using h)
    rw [hp, State.trip_of_same (updFired_same rfl ..), State.trip_of_same (condEnd_keep (.same (p := .trips) rfl _) p _ rfl), hshow]
    rfl

/-- A level that does not rise moves no channel and no fold. -/
theorem tripLevel_quiet {g : Nat} {b : Bool} {s : State} (now : Nat) (h : b = false ∨ (s.trip g).active = true) :
    (tripLevel g b now s).chans = s.chans ∧ (tripLevel g b now s).folds = s.folds := by
  by_cases hb : (s.trip g).active = b
  · rw [tripLevel_stays now hb]
    exact ⟨rfl, rfl⟩
  obtain ⟨rfl, hact⟩ : b = false ∧ (s.trip g).active = true := by
    rcases h with h | h <;> cases b <;> simp_all
  obtain ⟨p, hp⟩ := tripLevel_falls now hact
  have hsame {q : Part} (h1 : [Part.regs].contains q = false) (h2 : [Part.col].contains q = false) :
      q.same (s.setTrip g { s.trip g with active := false }) (tripLevel g false now s) := by
    rw [hp]
    exact updFired_keep (.same h1 _) g _ (condEnd_keep (.same h2 _) p _ (showTrip_same h1 g false _))
  exact ⟨hsame (q := .chans) rfl rfl, hsame (q := .folds) rfl rfl⟩

/-- What a level that rises does: the stop of the group's channels, or of its folds, or its event alone. -/
theorem tripLevel_acts {g : Nat} {s : State} (now : Nat) (h : (s.trip g).active = false) : let t := tripLevel g true now s; let x := s.trip g
    (x.scope = 1 → ∀ ch ∈ x.chans, (t.chan ch).st ≠ .armed) ∧
    (x.scope = 2 → ∀ k < 8, fieldN x.mask k 1 = 1 → (t.fold k).stopped = true) ∧
    ((x.scope = 1 → x.chans = []) → x.scope ≠ 2 → t.chans = s.chans ∧ ∀ k < 8, fieldN x.mask k 1 = 1 → bitOf (t.reg (foldEvt k)) 6 = true) := by
  intro t x
  have ht : t = tripRise g now (showTrip g true (s.setTrip g { x with active := true })) := tripLevel_rises now h
  have hshow : (showTrip g true (s.setTrip g { x with active := true })).trip g = { x with active := true } := by
    rw [State.trip_of_same (showTrip_same rfl ..)]
    simp
  have hchans : (showTrip g true (s.setTrip g { x with active := true })).chans = s.chans := showTrip_same (p := .chans) rfl ..
  generalize showTrip g true (s.setTrip g { x with active := true }) = u at ht hshow hchans
  have hscope : (u.trip g).scope = x.scope := by rw [hshow]
  have hlist : (u.trip g).chans = x.chans := by rw [hshow]
  have hmask : (u.trip g).mask = x.mask := by rw [hshow]
  clear_value t
  subst ht
  refine ⟨fun h1 ch hch => ?_, fun h2 k hk hbit => ?_, fun h1 h2 => ?_⟩
  · rw [tripRise_chans now (hscope.trans h1) (by rw [hlist]; exact List.ne_nil_of_mem hch), hlist, each_stop_st (tripActOn_st g now),
      if_pos hch]
    exact ChanSt.stop_ne_armed _
  · rw [tripRise_folds now (hscope.trans h2), State.fold_of_same (updFired_same rfl ..), hmask]
    refine each_establishes (P := fun k v => (v.fold k).stopped = true) (fun i v => ?_) (fun i j v hv => ?_) (mem_foldsIn hk hbit) u
    · simp [tripActOnFold_stopped]
    · simp [tripActOnFold_stopped, hv]
  · rw [tripRise_shown now (by rwa [hscope, hlist]) (by rwa [hscope]), hmask]
    refine ⟨(each_same State.chans (fun k v => raise_chans _ _ v) _ u).trans hchans, fun k hk hbit => ?_⟩
    refine each_establishes (P := fun k v => bitOf (v.reg (foldEvt k)) 6 = true) (fun i v => ?_) (fun i j v hv => ?_) (mem_foldsIn hk hbit) u
    · exact bitOf_raise (mkRep_bit (by decide) ..) v
    · rw [foldEvent, raise_reg]
      split
      next hj => rw [← hj, bitOf_setBit, hv, Bool.true_or]
      next => exact hv

-- ---- EXTERNAL_TRIP (R205)
/-- Inside a blanking window a sample enters no filter. -/
theorem tripSample_blanked {g at_ : Nat} {s : State} (lvl : Bool) (h : ((s.trip g).blankUntil at_).blank = true) :
    tripSample g at_ lvl s = s.setTrip g ((s.trip g).blankUntil at_) := by
  simp [tripSample, h]

/-- Outside one it enters the filter, whose output is the level. -/
theorem tripSample_filtered {g at_ : Nat} {s : State} (lvl : Bool) (h : ((s.trip g).blankUntil at_).blank = false) :
    let x := (s.trip g).blankUntil at_; let h := filtNext x.hist x.m (lvl == x.high)
    tripSample g at_ lvl s = tripLevel g (filtActive h x.n) at_ (s.setTrip g { x with hist := h }) := by
  simp [tripSample, h]

theorem blankUntil_fields (n : Nat) (x : Trip) : (x.blankUntil n).live = x.live ∧ (x.blankUntil n).hist = x.hist := by
  unfold Trip.blankUntil
  split <;> exact ⟨rfl, rfl⟩

theorem tripSample_live (g at_ : Nat) (lvl : Bool) (s : State) : ((tripSample g at_ lvl s).trip g).live = (s.trip g).live := by
  obtain ⟨hlive, -⟩ := blankUntil_fields at_ (s.trip g)
  cases hb : ((s.trip g).blankUntil at_).blank
  · rw [tripSample_filtered lvl hb]
    have h := congrArg Trip.live (tripLevel_input g (filtActive (filtNext ((s.trip g).blankUntil at_).hist ((s.trip g).blankUntil at_).m
      (lvl == ((s.trip g).blankUntil at_).high)) ((s.trip g).blankUntil at_).n) at_ (s.setTrip g { (s.trip g).blankUntil at_ with
        hist := filtNext ((s.trip g).blankUntil at_).hist ((s.trip g).blankUntil at_).m (lvl == ((s.trip g).blankUntil at_).high) }))
    simpa [Trip.input, hlive] using h
  · rw [tripSample_blanked lvl hb]
    simp [hlive]

theorem externalTrip_live {g : Fin 32} {s : State} (l : List Bool) (at_ : Nat) (h : (s.trip g.val).live = true) :
    exec (.externalTrip g l at_) s = .next (forL l.zipIdx (fun x s => tripSample g.val (at_ + 4 * x.2) x.1 s) s) := by
  change execExternalTrip g l at_ s = _
  simp [execExternalTrip, h]

theorem externalTrip_unused {g : Fin 32} {s : State} (l : List Bool) (at_ : Nat) (h : (s.trip g.val).live = false) :
    exec (.externalTrip g l at_) s = .next s := by
  change execExternalTrip g l at_ s = _
  simp [execExternalTrip, h]

theorem externalTrip_one (g : Fin 32) (lvl : Bool) (at_ : Nat) (s : State) : Does (.externalTrip g [lvl] at_) s fun t =>
    let x := (s.trip g.val).blankUntil at_
    let h := filtNext x.hist x.m (lvl == x.high)
    if x.live = false then t = s
    else if x.blank = true then (t.trip g.val).hist = (s.trip g.val).hist ∧ t.chans = s.chans ∧ t.folds = s.folds
    else (t.trip g.val).active = filtActive h x.n ∧ (t.trip g.val).hist = h ∧
      (filtActive h x.n = false ∨ x.active = true → t.chans = s.chans ∧ t.folds = s.folds) ∧
      (filtActive h x.n = true → x.active = false →
        (x.scope = 1 → ∀ ch ∈ x.chans, (t.chan ch).st ≠ .armed) ∧
        (x.scope = 2 → ∀ k < 8, fieldN x.mask k 1 = 1 → (t.fold k).stopped = true) ∧
        ((x.scope = 1 → x.chans = []) → x.scope ≠ 2 → t.chans = s.chans ∧
          ∀ k < 8, fieldN x.mask k 1 = 1 → bitOf (t.reg (foldEvt k)) 6 = true)) := by
  unfold Does
  extract_lets x h
  obtain ⟨hlive, hhist⟩ := blankUntil_fields at_ (s.trip g.val)
  by_cases hl : x.live = false
  · exact ⟨s, externalTrip_unused _ at_ (hlive.symm.trans hl), (if_pos hl).mpr rfl⟩
  refine ⟨_, externalTrip_live [lvl] at_ (by simpa [x, hlive] using hl), ?_⟩
  change if x.live = false then _ else _
  rw [if_neg hl, show forL [lvl].zipIdx _ s = tripSample g.val at_ lvl s from rfl]
  by_cases hb : x.blank = true
  · rw [if_pos hb, tripSample_blanked lvl hb]
    exact ⟨by simp [hhist], rfl, rfl⟩
  rw [if_neg hb, tripSample_filtered lvl (by simpa using hb)]
  have hin := tripLevel_input g.val (filtActive h x.n) at_ (s.setTrip g.val { x with hist := h })
  have hread : (s.setTrip g.val { x with hist := h }).trip g.val = { x with hist := h } := (State.setTrip_read ..).trans (if_pos rfl)
  rw [hread] at hin
  have hact : ((s.setTrip g.val { x with hist := h }).trip g.val).active = x.active := by rw [hread]
  refine ⟨congrArg Trip.active hin, congrArg Trip.hist hin, fun hq => tripLevel_quiet at_ (by rwa [hact]), fun hrise hlow => ?_⟩
  rw [show filtActive (filtNext x.hist x.m (lvl == x.high)) x.n = true from hrise]
  have hacts := tripLevel_acts at_ (hact.trans hlow)
  rwa [hread] at hacts

/-- The samples of a list act one after the other, 4 pt apart. -/
theorem forL_zipIdx_snoc {α : Type} (f : α × Nat → State → State) (l : List α) (x : α) (s : State) :
    forL (l ++ [x]).zipIdx f s = f (x, l.length) (forL l.zipIdx f s) := by
  simp [forL, List.zipIdx_append]

theorem externalTrip_snoc (g : Fin 32) (l : List Bool) (x : Bool) (at_ : Nat) (s : State) : Does (.externalTrip g (l ++ [x]) at_) s fun t =>
    Does (.externalTrip g l at_) s fun u => exec (.externalTrip g [x] (at_ + 4 * l.length)) u = .next t := by
  cases hl : (s.trip g.val).live
  · exact ⟨s, externalTrip_unused _ at_ hl, s, externalTrip_unused _ at_ hl, externalTrip_unused _ _ hl⟩
  · refine ⟨_, externalTrip_live _ at_ hl, _, externalTrip_live _ at_ hl, ?_⟩
    beta_reduce
    rw [externalTrip_live, forL_zipIdx_snoc]
    · rfl
    · exact forL_keep (P := fun u : State => (u.trip g.val).live = true) _ _ (fun y u hu => (tripSample_live ..).trans hu) hl

-- ---- TRIP.SET, TRIP.ADD and TRIP.DEL (R206, R207, R312)
/-- The timer that blanks the group of a TRIP.SET. -/
def tripTimer (e : CmdEntry) : Option Nat := if opN e 1 = 0 then none else some (hIndex (opN e 1))

/-- The group that TRIP.SET asks for. -/
def tripOf (e : CmdEntry) : Trip :=
  let o := opN e 0
  { live := true, mask := fld o 24 8, high := bitOf o 12, n := fld o 8 4 + 1, m := fld o 4 4 + 1, scope := fld o 0 2, timer := tripTimer e
    chans := [], active := false, fired := [], firedFolds := [], hist := [], blank := false, blankAt := 0, blankTo := 0, blankEnd := none }

/-- The own checks of TRIP.SET. -/
def tripSetChecks (e : CmdEntry) (u : State) : List (Bool × Nat × Nat) :=
  [(!(u.trip (fld (opN e 0) 16 5)).live, stNoRes, 1), (decide (fld (opN e 0) 8 4 + 1 ≤ fld (opN e 0) 4 4 + 1), stNoRes, 2),
    (((tripTimer e).map (fun i => decide ((u.timer i).width ≤ 160))).getD true, stSize, 3)]

theorem tripSet_eq {e : CmdEntry} {s : State} (h : s.accepts e 0x0C11) : exec (.tripSet e) s = .next
    (checked e (tripSetChecks e (s.untake e)) (fun u => acceptNow e (mkHandle 10 (fld (opN e 0) 16 5) (u.gen 10 (fld (opN e 0) 16 5)))
      (u.setTrip (fld (opN e 0) 16 5) (tripOf e))) (s.untake e)) :=
  congrArg Host.Outcome.next (commandRow_accepted h)

theorem tripTimer_wide (e : CmdEntry) (u : State) : ((tripTimer e).map (fun i => decide ((u.timer i).width ≤ 160))).getD true = false ↔
    ∃ i, tripTimer e = some i ∧ 160 < (u.timer i).width := by
  cases tripTimer e <;> simp

theorem tripSet_does (e : CmdEntry) (s : State) (h : s.accepts e 0x0C11) : let u := s.untake e; let o := opN e 0; let g := fld o 16 5
    let tm := if opN e 1 = 0 then none else some (hIndex (opN e 1))
    Does (.tripSet e) s fun t =>
      if (u.trip g).live = true then Posted e stNoRes 0 1 u t ∧ t.trips = u.trips
      else if fld o 4 4 < fld o 8 4 then Posted e stNoRes 0 2 u t ∧ t.trips = u.trips
      else if ∃ i, tm = some i ∧ 160 < (u.timer i).width then Posted e stSize 0 3 u t ∧ t.trips = u.trips
      else Posted e stOk (mkHandle 10 g (u.gen 10 g)) 0 u t ∧ t.trip g =
        { live := true, mask := fld o 24 8, high := bitOf o 12, n := fld o 8 4 + 1, m := fld o 4 4 + 1, scope := fld o 0 2
          timer := tm, chans := [], active := false, fired := [], firedFolds := [], hist := [], blank := false, blankAt := 0, blankTo := 0
          blankEnd := none } := by
  intro u o g tm
  refine ⟨_, tripSet_eq h, ?_⟩
  beta_reduce
  have hrefused (st chk : Nat) : Posted e st 0 chk u (refuse e st chk u) ∧ (refuse e st chk u).trips = u.trips :=
    ⟨complete_posted e st 0 chk rfl, rfl⟩
  by_cases h1 : (u.trip g).live = true
  · rw [if_pos h1, checked_fails (st := stNoRes) (chk := 1) (by simp [tripSetChecks, firstFail, u, g, o, h1])]
    exact hrefused _ _
  have e1 : (u.trip g).live = false := by simpa using h1
  rw [if_neg h1]
  by_cases h2 : fld o 4 4 < fld o 8 4
  · rw [if_pos h2, checked_fails (st := stNoRes) (chk := 2)]
    · exact hrefused _ _
    · rw [tripSetChecks, show ((s.untake e).trip (fld (opN e 0) 16 5)).live = false from e1]
      simp [firstFail, o, h2]
  have e2 : decide (fld (opN e 0) 8 4 + 1 ≤ fld (opN e 0) 4 4 + 1) = true := decide_eq_true (Nat.succ_le_succ (Nat.not_lt.1 h2))
  rw [if_neg h2]
  by_cases h3 : ∃ i, tm = some i ∧ 160 < (u.timer i).width
  · rw [if_pos h3, checked_fails (st := stSize) (chk := 3)]
    · exact hrefused _ _
    · rw [tripSetChecks, show ((s.untake e).trip (fld (opN e 0) 16 5)).live = false from e1, e2, (tripTimer_wide e u).2 h3]
      rfl
  · have e3 := (tripTimer_wide e u).not.2 h3
    rw [if_neg h3, checked_passes]
    · exact ⟨acceptNow_posted e _ rfl, by simp [acceptNow, tripOf, tripTimer, g, o, tm]⟩
    · rw [tripSetChecks, show ((s.untake e).trip (fld (opN e 0) 16 5)).live = false from e1, e2,
        show ((tripTimer e).map (fun i => decide (((s.untake e).timer i).width ≤ 160))).getD true = true by simpa using e3]
      rfl

/-- The channel of TRIP.ADD joins its group, whose active trip acts on it. -/
def joinTrip (g ch now : Nat) (u : State) : State :=
  let s := u.setTrip g { u.trip g with chans := if (u.trip g).chans.contains ch then (u.trip g).chans else (u.trip g).chans ++ [ch] }
  if (u.trip g).active && !(u.trip g).chans.contains ch then tripActOn g now ch s else s

theorem tripAdd_eq {e : CmdEntry} {s : State} (now : Nat) (h : s.accepts e 0x0C12) : let x := (s.untake e).trip (hIndex (opN e 0))
    exec (.tripAdd e now) s = .next (checked e [(x.scope == 1, stState, 1), (decide (x.chans.length < 64), stNoRes, 2)]
      (fun _ => acceptNow e 0 (joinTrip (hIndex (opN e 0)) (hIndex (opN e 1)) now (s.untake e))) (s.untake e)) :=
  congrArg Host.Outcome.next (commandRow_accepted h)

theorem joinTrip_mem (g ch now : Nat) (u : State) : ch ∈ ((joinTrip g ch now u).trip g).chans := by
  unfold joinTrip
  generalize hs : u.setTrip g _ = s
  have hmem : ch ∈ (s.trip g).chans := by
    rw [← hs, State.setTrip_read, if_pos rfl]
    by_cases h : ch ∈ (u.trip g).chans <;> simp [h]
  split
  · have hchans : ((tripActOn g now ch s).trip g).input.chans = (s.trip g).input.chans := congrArg Trip.chans (tripActOn_input g now ch s g)
    exact hchans.symm ▸ hmem
  · exact hmem

theorem joinTrip_stops {g ch : Nat} {u : State} (now : Nat) (hact : (u.trip g).active = true) (hnew : ch ∉ (u.trip g).chans) :
    ((joinTrip g ch now u).chan ch).st ≠ .armed := by
  unfold joinTrip
  rw [if_pos (by simp [hact, hnew]), tripActOn_st, if_pos rfl]
  exact ChanSt.stop_ne_armed _

theorem joinTrip_waits {g : Nat} {u : State} (ch now : Nat) (hact : (u.trip g).active = false) :
    (joinTrip g ch now u).chans = u.chans ∧ (joinTrip g ch now u).rings = u.rings := by
  simp [joinTrip, hact]

theorem tripAdd_does (e : CmdEntry) (now : Nat) (s : State) (h : s.accepts e 0x0C12) : let u := s.untake e; let g := hIndex (opN e 0)
    let ch := hIndex (opN e 1)
    Does (.tripAdd e now) s fun t =>
      if (u.trip g).scope ≠ 1 then Posted e stState 0 1 u t ∧ t.trips = u.trips
      else if 64 ≤ (u.trip g).chans.length then Posted e stNoRes 0 2 u t ∧ t.trips = u.trips
      else ch ∈ (t.trip g).chans ∧ ((u.trip g).active = true → ch ∉ (u.trip g).chans → (t.chan ch).st ≠ .armed) ∧
        ((u.trip g).active = false → t.chans = u.chans ∧ Posted e stOk 0 0 u t) := by
  intro u g ch
  refine ⟨_, tripAdd_eq now h, ?_⟩
  beta_reduce
  have hrefused (st chk : Nat) : Posted e st 0 chk u (refuse e st chk u) ∧ (refuse e st chk u).trips = u.trips :=
    ⟨complete_posted e st 0 chk rfl, rfl⟩
  by_cases h1 : (u.trip g).scope ≠ 1
  · rw [if_pos h1, checked_fails (st := stState) (chk := 1) (by
      change firstFail [((u.trip g).scope == 1, stState, 1), _] = _
      simp [firstFail, h1])]
    exact hrefused _ _
  have e1 : (u.trip g).scope = 1 := by simpa using h1
  rw [if_neg h1]
  by_cases h2 : 64 ≤ (u.trip g).chans.length
  · rw [if_pos h2, checked_fails (st := stNoRes) (chk := 2)]
    · exact hrefused _ _
    · change firstFail [((u.trip g).scope == 1, stState, 1), (decide ((u.trip g).chans.length < 64), stNoRes, 2)] = _
      simp [firstFail, e1, h2]
  · rw [if_neg h2, checked_passes]
    · refine ⟨joinTrip_mem g ch now u, joinTrip_stops now, fun hact => ?_⟩
      obtain ⟨hchans, hrings⟩ := joinTrip_waits ch now hact
      exact ⟨hchans, acceptNow_posted e 0 hrings⟩
    · change firstFail [((u.trip g).scope == 1, stState, 1), (decide ((u.trip g).chans.length < 64), stNoRes, 2)] = _
      simpa [firstFail, e1] using h2

/-- A group may go: none of its stops is latched, and no active trip of it acts on a channel or a fold (R312). -/
def Trip.mayGo (x : Trip) : Bool :=
  !(x.active && ((x.scope == 1 && !x.chans.isEmpty) || x.scope == 2)) && x.fired.isEmpty && x.firedFolds.isEmpty

theorem mayGo_false (x : Trip) : (x.fired ≠ [] ∨ x.firedFolds ≠ [] ∨ x.active = true ∧ (x.scope = 1 ∧ x.chans ≠ [] ∨ x.scope = 2)) ↔
    x.mayGo = false := by
  unfold Trip.mayGo
  cases x.fired <;> cases x.firedFolds <;> cases x.chans <;> simp [or_iff_not_imp_left]

/-- A group goes, its input shown no more, and its generation moves on. -/
def dropTrip (g : Nat) (u : State) : State := ((showTrip g false u).setTrip g Trip.none).advGen 10 g

theorem tripDel_eq {e : CmdEntry} {s : State} (h : s.accepts e 0x0C13) : exec (.tripDel e) s = .next (checked e
    [(((s.untake e).trip (hIndex (opN e 0))).mayGo, stState, 1)] (fun u => acceptNow e 0 (dropTrip (hIndex (opN e 0)) u)) (s.untake e)) :=
  congrArg Host.Outcome.next (commandRow_accepted h)

theorem dropTrip_trip (g : Nat) (u : State) : (dropTrip g u).trip g = Trip.none := by
  rw [dropTrip, State.advGen_at_trip, State.setTrip_read, if_pos rfl]

theorem dropTrip_gen (g : Nat) (u : State) : (dropTrip g u).gen 10 g = nextGen (u.gen 10 g) := by
  have h : (showTrip g false u).gens = u.gens := showTrip_gens g false u
  rw [dropTrip, State.gen_advGen, if_pos rfl]
  rw [State.gen, State.gen, State.setTrip_gens, h]

theorem dropTrip_rings (g : Nat) (u : State) : (dropTrip g u).rings = u.rings := by
  rw [dropTrip, State.advGen_rings, State.setTrip_rings]
  exact showTrip_same (p := .rings) rfl g false u

theorem dropTrip_does (e : CmdEntry) (g : Nat) (u : State) : let t := acceptNow e 0 (dropTrip g u)
    t.trip g = Trip.none ∧ t.gen 10 g = nextGen (u.gen 10 g) ∧ Posted e stOk 0 0 u t := by
  refine ⟨?_, ?_, acceptNow_posted e 0 (dropTrip_rings g u)⟩
  · rw [acceptNow, complete_at_trip, dropTrip_trip]
  · rw [State.gen, acceptNow, complete_gens]
    exact dropTrip_gen g u

theorem tripDel_does (e : CmdEntry) (s : State) (h : s.accepts e 0x0C13) : let u := s.untake e; let g := hIndex (opN e 0)
    let x := u.trip g
    Does (.tripDel e) s fun t =>
      if x.fired ≠ [] ∨ x.firedFolds ≠ [] ∨ x.active = true ∧ (x.scope = 1 ∧ x.chans ≠ [] ∨ x.scope = 2) then
        Posted e stState 0 1 u t ∧ t.trips = u.trips ∧ t.gens = u.gens
      else t.trip g = Trip.none ∧ t.gen 10 g = nextGen (u.gen 10 g) ∧ Posted e stOk 0 0 u t := by
  intro u g x
  have hrefused : Posted e stState 0 1 u (refuse e stState 1 u) ∧ (refuse e stState 1 u).trips = u.trips ∧
      (refuse e stState 1 u).gens = u.gens := ⟨complete_posted e stState 0 1 rfl, rfl, rfl⟩
  exact does_checked (R := fun t => Posted e stState 0 1 u t ∧ t.trips = u.trips ∧ t.gens = u.gens)
    (P := fun t => t.trip g = Trip.none ∧ t.gen 10 g = nextGen (u.gen 10 g) ∧ Posted e stOk 0 0 u t)
    (tripDel_eq h) (mayGo_false x) hrefused (dropTrip_does e g u)

/-- Settles O32: each clause is the lemma of its row; a level that rises acts by the scope of its group (`tripLevel_acts`). -/
theorem timersAndTripGroupsOpenFireAndRelease : Obligations.TimersAndTripGroupsOpenFireAndRelease := by
  unfold Obligations.TimersAndTripGroupsOpenFireAndRelease
  exact ⟨timerNew_does, timerWindowOpen_does, timerWindowClose_does, tripSet_does, tripAdd_does, tripDel_does, externalTrip_one,
    externalTrip_snoc⟩

end Sys2Proof.Machine
end

section
/-! SUPPORT. What stops and pen moves leave of a terminal: its span of desaturations and its overcurrent filter (R194, R204). -/

namespace Sys2Proof.Machine

open Sys2Proof

/-- What guards a terminal: whether its span is open, and its overcurrent filter with its output. -/
def Term.guard (x : Term) : Bool × List Bool × Bool := (x.spanOpen, x.ocHist, x.ocAct)

def State.guard (s : State) (q : Nat) : Bool × List Bool × Bool := (s.term q).guard

theorem State.setTerm_guard {s : State} {t : Nat} {x : Term} (h : x.guard = (s.term t).guard) (q : Nat) :
    (s.setTerm t x).guard q = s.guard q := by
  unfold State.guard
  rw [State.setTerm_read]
  split
  next hq => rw [h, hq]
  next => rfl

theorem State.guard_of_same {s t : State} (h : Part.same .terms s t) (q : Nat) : t.guard q = s.guard q :=
  congrArg Term.guard (State.term_of_same h q)

theorem vsCheck_guard (t : Nat) (s : State) (q : Nat) : (vsCheck t s).guard q = s.guard q :=
  State.guard_of_same (vsCheck_keep (.same (p := .terms) rfl s) t s rfl) q

theorem setDrive_guard (t : Nat) (d : Drive) (own : Bool) (a : Nat) (s : State) (q : Nat) : (setDrive t d own a s).guard q = s.guard q := by
  unfold setDrive
  refine State.setTerm_guard ?_ q
  cases d <;> rfl

theorem closeMid_guard (t now : Nat) (s : State) (q : Nat) : (closeMid t now s).guard q = s.guard q := by
  unfold closeMid creditDel
  split
  · rfl
  · dsimp only
    rw [vsCheck_guard]
    refine (State.setTerm_guard (by rfl) q).trans ?_
    split <;> exact State.setTerm_guard (by rfl) q

theorem dropResidue_guard (t : Nat) (s : State) (q : Nat) : (dropResidue t s).guard q = s.guard q := by
  unfold dropResidue
  dsimp only
  split
  · rfl
  · rw [vsCheck_guard]
    exact State.setTerm_guard (by rfl) q

theorem enterSafe_guard (ch now : Nat) (s : State) (q : Nat) : (enterSafe ch now s).guard q = s.guard q :=
  each_same (fun u => u.guard q) (fun _ _ => (setDrive_guard ..).trans ((dropResidue_guard ..).trans (closeMid_guard ..))) _ s

theorem modEvent_guard (t bit : Nat) (s : State) (q : Nat) : (modEvent t bit s).guard q = s.guard q :=
  State.guard_of_same (modEvent_keep (.same (p := .terms) rfl s) t bit s rfl) q

theorem clearForces_guard (ch : Nat) (s : State) (q : Nat) : (clearForces ch s).guard q = s.guard q := by
  refine each_same (fun u => u.guard q) (fun t u => ?_) _ s
  dsimp only
  split
  · exact State.setTerm_guard (by rfl) q
  · exact (modEvent_guard ..).trans (State.setTerm_guard (by rfl) q)

theorem stopChannel_guard (ch : Nat) (r : Report) (s : State) (q : Nat) : (stopChannel ch r s).guard q = s.guard q := by
  unfold stopChannel
  dsimp only
  split
  · rfl
  · rfl
  · exact ite_keep (Q := fun u : State => u.guard q = s.guard q) (clearForces_guard ch _ q) rfl
  · rw [State.guard_of_same (refreshGates_keep (.same (p := .terms) rfl _) _ rfl),
      State.guard_of_same (motorIdle_keep (.same (p := .terms) rfl _) ch _ rfl), clearForces_guard,
      State.guard_of_same (finishObj_keep (.same (p := .terms) rfl _) _ _ _ _ rfl),
      State.guard_of_same (finishObj_keep (.same (p := .terms) rfl _) _ _ _ _ rfl)]
    rfl

theorem tripChannel_guard (ch now : Nat) (r : Report) (s : State) (q : Nat) : (tripChannel ch now r s).guard q = s.guard q := by
  unfold tripChannel
  split
  · rw [stopChannel_guard, clearForces_guard, enterSafe_guard]
  · rfl

-- ---- the trip of a terminal's channel (R195, R204)
/-- The state in which an overcurrent trips the terminal's channel: counted, reported, and present where it lasts. -/
def ocReported (t ch : Nat) (live : Bool) (s : State) : State :=
  let u := raise (foldEvt (foldOf t)) (ocRep t ch) (s.bump (psReg t 0x2C))
  if live then holdLive (ocRep t ch) u else u

theorem overcurrent_owned {t ch : Nat} {s : State} (now : Nat) (live : Bool) (h : s.ownerOf t = some ch) :
    overcurrent t now live s = tripChannel ch now (ocRep t ch) (ocReported t ch live s) := by
  simp [overcurrent, ocReported, h]

theorem ocReported_same {p : Part} (hp : [Part.regs, .col, .host].contains p = false) (t ch : Nat) (live : Bool) (s : State) :
    p.same s (ocReported t ch live s) := by
  have hraise := raise_keep (.same hp s) (foldEvt (foldOf t)) (ocRep t ch) _
    (bump_keep ((Keeps.same hp s).mono (by decide)) (s := s) (psReg t 0x2C) (p.same_refl s))
  exact ite_keep (holdLive_keep ((Keeps.same hp s).mono (by decide)) _ _ hraise) hraise

theorem overcurrent_guard (t now : Nat) (live : Bool) (s : State) (q : Nat) : (overcurrent t now live s).guard q = s.guard q := by
  cases h : s.ownerOf t with
  | none => simp [overcurrent, h]
  | some ch => rw [overcurrent_owned now live h, tripChannel_guard, State.guard_of_same (ocReported_same rfl ..)]

theorem ocReported_reg (t ch : Nat) (live : Bool) (s : State) (a : Nat) : (ocReported t ch live s).reg a =
    (raise (foldEvt (foldOf t)) (ocRep t ch) (s.bump (psReg t 0x2C))).reg a := by
  unfold ocReported
  cases live
  · rfl
  · exact holdLive_reg ..

theorem overcurrent_stops {t ch : Nat} {s : State} (now : Nat) (live : Bool) (h : s.ownerOf t = some ch) :
    ((overcurrent t now live s).chan ch).st ≠ .armed := by
  rw [overcurrent_owned now live h, tripChannel_st, if_pos rfl]
  exact ChanSt.stop_ne_armed _

end Sys2Proof.Machine
end

section
/-! SUPPORT. The words of a terminal's pens and segments: where they stand, and what the moves of pens write (R187 to R189, R194,
R197, R217). -/

namespace Sys2Proof.Machine

open Sys2Proof

-- ---- addresses
theorem psReg_ne_fold (t k : Nat) {a o : Nat} (ha : a < 0x40) (ho : o < 0x100) : psReg t a ≠ aFold k + o := by
  unfold psReg aFold aFlock posOf
  omega

theorem segmap_ne_fold (t k : Nat) {p o : Nat} (hp : p < 16) (ho : o < 0x100) : segmap t p ≠ aFold k + o := by
  unfold segmap aFold aFlock posOf
  omega

theorem psReg_ne_segmap (t u : Nat) {a p : Nat} (ha : a < 0x40) (hp : p < 16) : psReg t a ≠ segmap u p := by
  unfold psReg segmap aFlock posOf
  omega

theorem psReg_inj {t a b : Nat} : psReg t a = psReg t b ↔ a = b := by
  unfold psReg
  omega

theorem talEvt_ne_block (b o : Nat) : talEvt ≠ aFlock b + o := by
  unfold talEvt aTal aFlock
  omega

theorem foldEvt_eq (k : Nat) : foldEvt k = aFold k + 0x14 := rfl
theorem segTally_eq (k i : Nat) : segTally k i = aFold k + (0x40 + 4 * i) := Nat.add_assoc ..

theorem psReg_ne_foldEvt (t k : Nat) {a : Nat} (ha : a < 0x40) : psReg t a ≠ foldEvt k := psReg_ne_fold t k ha (by decide)
theorem segmap_ne_foldEvt (t k : Nat) {p : Nat} (hp : p < 16) : segmap t p ≠ foldEvt k := segmap_ne_fold t k hp (by decide)

theorem overcurrent_counts {t ch : Nat} {s : State} (now : Nat) (live : Bool) (h : s.ownerOf t = some ch) :
    (overcurrent t now live s).reg (psReg t 0x2C) = s.reg (psReg t 0x2C) + 1 := by
  rw [overcurrent_owned now live h, tripChannel_reg (offStops_psReg t (by decide)), ocReported_reg, raise_reg,
    if_neg (psReg_ne_foldEvt t _ (by decide))]
  simp [State.bump]

-- ---- the choice of an incoming pen (R197)
/-- The spare pen that R197 chooses. -/
def State.incomingPen (s : State) (t : Nat) : Option Nat :=
  (List.range 16).find? fun p => (s.penRole t p == spare || (s.penRole t p == underTest && (s.term t).selfTest == some p)) &&
    (s.term t).passed.any (fun e => e.1 == p && decide (s.bell.frame.toNat ≤ e.2 + 2 * s.frate)) && !(s.term t).underBist.contains p

/-- A test of the pen is abandoned. -/
def endTestOf (t p : Nat) (s : State) : State :=
  if (s.term t).selfTest = some p then movePen t p spare (s.updTerm t (fun y => { y with selfTest := none })) else s

theorem choosePen_found {t p : Nat} {s : State} (wanted : Nat) (h : s.incomingPen t = some p) : choosePen t wanted s =
    setSubst t 1 (((endTestOf t p s).setField (psReg t 0x04) 12 4 p).setField (psReg t 0x04) 8 4 wanted) := by
  unfold choosePen
  extract_lets x recent cand
  rw [show cand = some p from h]
  rfl

theorem choosePen_missing {t : Nat} {s : State} (wanted : Nat) (h : s.incomingPen t = none) : choosePen t wanted s =
    (foldEvent (foldOf t) 4 1 2 t (setSubst t 3 (s.setField (psReg t 0x04) 8 4 wanted))).updTerm t
      (fun x => { x with retire := x.retire ++ [wanted] }) := by
  unfold choosePen
  extract_lets x recent cand
  rw [show cand = none from h]

theorem incomingPen_role {t p : Nat} {s : State} (h : s.incomingPen t = some p) :
    p < 16 ∧ (s.penRole t p = spare ∨ s.penRole t p = underTest) := by
  have hrole := List.find?_some h
  simp only [Bool.and_eq_true, Bool.or_eq_true, beq_iff_eq] at hrole
  exact ⟨List.mem_range.1 (List.mem_of_find?_eq_some h), hrole.1.1.imp_right And.left⟩

-- ---- what the moves of pens write
/-- The counts of segments of a fold. -/
def TallyWord (k a : Nat) : Prop := ∃ i < 4, a = segTally k i

/-- The state of a terminal and its overcurrent threshold. -/
def RatingWord (t a : Nat) : Prop := a = psReg t 0x04 ∨ a = psReg t 0x1C

/-- The words that the moves of a terminal's pens write, and the events that they latch. -/
def PenWord (t a : Nat) : Prop := RatingWord t a ∨ TallyWord (foldOf t) a ∨ a = psReg t 0x08
def PenEvt (t a : Nat) : Prop := a = foldEvt (foldOf t) ∨ a = talEvt

theorem Frame.sub {w e w' e' : Nat → Prop} {L : List Part} {P : State → Prop} (h : Frame w e L P) (hw : ∀ a, w' a → w a)
    (he : ∀ a, e' a → e a) : Frame w' e' L P := ⟨h.parts, fun v ha => h.write v (hw _ ha), fun i ha => h.latch i (he _ ha), h.queue⟩

section
variable {P : State → Prop} {s : State}

theorem segMove_frame {t : Nat} (h : Frame (TallyWord (foldOf t)) (PenEvt t) [.tal, .host] P) {from_ to_ : Nat} (hfrom : from_ < 4)
    (hto : to_ < 4) (n : Nat) (hs : P s) : P (segMove t from_ to_ n s) :=
  h.talCheck (.inr rfl) 2 _ (h.write _ ⟨to_, hto, rfl⟩ (h.write _ ⟨from_, hfrom, rfl⟩ hs))

theorem foldEvent_frame {w : Nat → Prop} {t : Nat} (h : Frame w (PenEvt t) [.host] P) (bit cls okind obj : Nat) (hs : P s) :
    P (foldEvent (foldOf t) bit cls okind obj s) := h.raise _ (.inl rfl) hs

theorem State.penRole_lt (s : State) (t p : Nat) : s.penRole t p < 4 := Nat.mod_lt _ (by decide)

theorem movePen_frame {t : Nat} (h : Frame (PenWord t) (PenEvt t) [.tal, .host] P) (p : Nat) {r : Nat} (hr : r < 4) (hs : P s) :
    P (movePen t p r s) := by
  unfold movePen
  exact ite_keep hs (segMove_frame (h.sub (fun a ha => .inr (.inl ha)) fun a ha => ha) (s.penRole_lt t p) hr _ (h.write _ (.inr (.inr rfl)) hs))

theorem nsegRecompute_frame {t : Nat} (h : Frame (RatingWord t) (PenEvt t) [.col, .host] P) (hs : P s) : P (nsegRecompute t s) := by
  have hstat {u : State} (lo w v : Nat) (hu : P u) : P (u.setField (psReg t 0x04) lo w v) := h.write _ (.inl rfl) hu
  have hcol := h.parts.mono (M := [.col]) (by decide)
  have hevt {u : State} (bit cls okind obj : Nat) (hu : P u) := foldEvent_frame (s := u) (h.mono (M := [.host]) (by decide)) bit cls okind obj hu
  unfold nsegRecompute
  extract_lets overlap n u k wornWas u1 dr
  have hu1 : P u1 := hstat _ _ _ (hstat _ _ _ hs)
  refine ite_keep hs ?_
  split
  · exact hu1
  · extract_lets a u2 derWas der u3 u4 wr
    have hu3 : P u3 := hstat _ _ _ (h.write _ (.inr rfl) hu1)
    have hu4 : P u4 := ite_keep (liveEnd_keep hcol _ _ hu3) (ite_keep hu3 (holdLive_keep hcol _ _ (hevt _ _ _ _ hu3)))
    exact ite_keep (liveEnd_keep hcol _ _ hu4) (ite_keep hu4 (holdLive_keep hcol _ _ (hevt _ _ _ _ hu4)))

theorem choosePen_frame {t : Nat} (h : Frame (PenWord t) (PenEvt t) [.terms, .col, .tal, .host] P) (wanted : Nat) (hs : P s) :
    P (choosePen t wanted s) := by
  have hstat {u : State} (lo w v : Nat) (hu : P u) : P (u.setField (psReg t 0x04) lo w v) := h.write _ (.inl (.inl rfl)) hu
  have hterm {u : State} (f : Term → Term) (hf : ∀ x, LegLe x (f x)) (hu : P u) : P (u.updTerm t f) :=
    updTerm_keep (h.parts.mono (by decide)) t f hf hu
  cases hp : s.incomingPen t with
  | some p =>
    rw [choosePen_found wanted hp]
    refine hstat _ _ _ (hstat _ _ _ (hstat _ _ _ (ite_keep ?_ hs)))
    exact movePen_frame (h.mono (by decide)) p (by decide) (hterm _ (fun _ => ⟨fun h1 h2 => ⟨h1, h2⟩⟩) hs)
  | none =>
    rw [choosePen_missing wanted hp]
    exact hterm _ (fun _ => ⟨fun h1 h2 => ⟨h1, h2⟩⟩) (foldEvent_frame (h.mono (by decide)) _ _ _ _ (hstat _ _ _ (hstat _ _ _ hs)))

theorem substAll_frame {t : Nat} (h : Frame (PenWord t) (PenEvt t) [.terms, .col, .tal, .host] P) (hs : P s) : P (substAll t s) := by
  refine each_keep _ _ (fun _ u hu => ?_) hs
  unfold nextSubst
  refine ite_keep hu ?_
  split
  · exact choosePen_frame h _ hu
  · exact hu

end

/-- A word that no move of a terminal's pens writes. -/
def OffPens (t a : Nat) : Prop := ¬ PenWord t a ∧ ¬ PenEvt t a

theorem offPens_segmap (t : Nat) {p : Nat} (hp : p < 16) : OffPens t (segmap t p) := by
  refine ⟨fun h => ?_, fun h => ?_⟩
  · rcases h with (h | h) | ⟨i, hi, h⟩ | h
    · exact psReg_ne_segmap t t (by decide) hp h.symm
    · exact psReg_ne_segmap t t (by decide) hp h.symm
    · exact segmap_ne_fold t _ hp (by omega) (h.trans (segTally_eq ..))
    · exact psReg_ne_segmap t t (by decide) hp h.symm
  · rcases h with h | h
    · exact segmap_ne_foldEvt t _ hp h
    · rw [segmap, Nat.add_assoc, Nat.add_assoc] at h
      exact talEvt_ne_block _ _ h.symm

theorem psReg_not_tally (t : Nat) {a : Nat} (ha : a < 0x40) : ¬ TallyWord (foldOf t) (psReg t a) := by
  rintro ⟨i, hi, h⟩
  exact psReg_ne_fold t _ ha (by omega) (h.trans (segTally_eq ..))

theorem psReg_not_penEvt (t : Nat) {a : Nat} (ha : a < 0x40) : ¬ PenEvt t (psReg t a) := by
  rintro (h | h)
  · exact psReg_ne_foldEvt t _ ha h
  · rw [psReg, Nat.add_assoc, Nat.add_assoc] at h
    exact talEvt_ne_block _ _ h.symm

theorem offPens_psReg (t : Nat) {a : Nat} (ha : a < 0x40) (h4 : a ≠ 0x04) (h8 : a ≠ 0x08) (h1c : a ≠ 0x1C) : OffPens t (psReg t a) := by
  refine ⟨?_, psReg_not_penEvt t ha⟩
  rintro ((h | h) | h | h)
  · exact h4 (psReg_inj.1 h)
  · exact h1c (psReg_inj.1 h)
  · exact psReg_not_tally t ha h
  · exact h8 (psReg_inj.1 h)

theorem foldEvt_not_penWord (t : Nat) : ¬ PenWord t (foldEvt (foldOf t)) := by
  rintro ((h | h) | ⟨i, hi, h⟩ | h)
  · exact psReg_ne_foldEvt t _ (by decide) h.symm
  · exact psReg_ne_foldEvt t _ (by decide) h.symm
  · rw [foldEvt_eq, segTally_eq] at h
    omega
  · exact psReg_ne_foldEvt t _ (by decide) h.symm

theorem OffPens.frame {t a : Nat} (ha : OffPens t a) (c : W) {L : List Part} (hL : L.contains .regs = false) :
    Frame (PenWord t) (PenEvt t) L (fun u => u.reg a = c) := Frame.word hL ha.1 ha.2

theorem OffPens.movePen {t a : Nat} (ha : OffPens t a) (p : Nat) {r : Nat} (hr : r < 4) (s : State) : (movePen t p r s).reg a = s.reg a :=
  movePen_frame (ha.frame _ rfl) p hr rfl

theorem OffPens.nsegRecompute {t a : Nat} (ha : OffPens t a) (s : State) : (nsegRecompute t s).reg a = s.reg a :=
  nsegRecompute_frame ((ha.frame _ rfl).sub (fun _ h => .inl h) fun _ h => h) rfl

theorem OffPens.substAll {t a : Nat} (ha : OffPens t a) (s : State) : (substAll t s).reg a = s.reg a :=
  substAll_frame (ha.frame _ rfl) rfl

theorem OffPens.foldEvent {t a : Nat} (ha : OffPens t a) (bit cls okind obj : Nat) (s : State) :
    (foldEvent (foldOf t) bit cls okind obj s).reg a = s.reg a := by
  rw [Machine.foldEvent, raise_reg, if_neg fun h => ha.2 (.inl h)]

/-- An event of a terminal's fold stays latched as its pens are served. -/
theorem substAll_bit {t i : Nat} {s : State} (h : bitOf (s.reg (foldEvt (foldOf t))) i = true) :
    bitOf ((substAll t s).reg (foldEvt (foldOf t))) i = true :=
  substAll_frame (Frame.bit rfl (foldEvt_not_penWord t)) h

end Sys2Proof.Machine
end

section
/-! SUPPORT. Roles of pens, health of segments, and the acts of a fold's supervisor on them (R194 to R199, R426). -/

namespace Sys2Proof.Machine

open Sys2Proof

-- ---- fields of a terminal's words
theorem roleWord_not_rating (t : Nat) : ¬ RatingWord t (psReg t 0x08) := by
  rintro (h | h)
  · exact absurd (psReg_inj.1 h) (by decide)
  · exact absurd (psReg_inj.1 h) (by decide)

theorem State.setField_reg (s : State) (a lo w v b : Nat) : (s.setField a lo w v).reg b = if b = a then setFld (s.reg a) lo w v else s.reg b :=
  State.setReg_reg ..

/-- Another word than one that a field is written in stands. -/
theorem State.setField_reg_ne {s : State} {a b : Nat} (h : b ≠ a) (lo w v : Nat) : (s.setField a lo w v).reg b = s.reg b := by
  rw [State.setField_reg, if_neg h]

theorem State.regField_setField {s : State} {a lo w : Nat} (v : Nat) (h : lo + w ≤ 32) : (s.setField a lo w v).regField a lo w = v % 2 ^ w := by
  rw [State.regField, State.setField_reg, if_pos rfl, fld_setFld _ _ h]

theorem State.regField_setField_of_disjoint {s : State} {a lo w lo' w' : Nat} (v : Nat) (h : lo + w ≤ 32) (hd : lo' + w' ≤ lo ∨ lo + w ≤ lo') :
    (s.setField a lo w v).regField a lo' w' = s.regField a lo' w' := by
  rw [State.regField, State.setField_reg, if_pos rfl, fld_setFld_of_disjoint _ _ h hd, State.regField]

theorem State.regField_of_reg {s u : State} {a : Nat} (h : u.reg a = s.reg a) (lo w : Nat) : u.regField a lo w = s.regField a lo w := by
  rw [State.regField, State.regField, h]

-- ---- roles (R217)
theorem State.penRole_of_reg {s u : State} {t : Nat} (h : u.reg (psReg t 0x08) = s.reg (psReg t 0x08)) (p : Nat) :
    u.penRole t p = s.penRole t p := State.regField_of_reg h ..

theorem setRole_role {t p w : Nat} (hp : p < 16) (r : Nat) (s : State) :
    (setRole t p r s).penRole t w = if w = p then r % 4 else s.penRole t w := by
  unfold State.penRole setRole
  split
  next h => rw [h, State.regField_setField _ (by omega)]; rfl
  next h => rw [State.regField_setField_of_disjoint _ (by omega) (by omega)]

theorem segMove_reg {t a from_ to_ : Nat} (hw : ¬ TallyWord (foldOf t) a) (he : ¬ PenEvt t a) (hfrom : from_ < 4) (hto : to_ < 4)
    (n : Nat) (s : State) : (segMove t from_ to_ n s).reg a = s.reg a := segMove_frame (Frame.word rfl hw he) hfrom hto n rfl

/-- A pen that moves takes its role, and no other pen of its terminal does. -/
theorem movePen_role {t p r w : Nat} (hp : p < 16) (hr : r < 4) (s : State) :
    (movePen t p r s).penRole t w = if w = p then r else s.penRole t w := by
  unfold movePen
  dsimp only
  split
  next h =>
    split
    next hwp => rw [hwp, h]
    next => rfl
  next =>
    rw [State.penRole_of_reg (segMove_reg (psReg_not_tally t (by decide)) (psReg_not_penEvt t (by decide)) (s.penRole_lt t p) hr ..),
      setRole_role hp, Nat.mod_eq_of_lt hr]

/-- A pen that moves leaves the state of its terminal. -/
theorem movePen_stat {r : Nat} (hr : r < 4) (t p : Nat) (s : State) : (movePen t p r s).reg (psReg t 0x04) = s.reg (psReg t 0x04) := by
  unfold movePen
  dsimp only
  split
  · rfl
  · rw [segMove_reg (psReg_not_tally t (by decide)) (psReg_not_penEvt t (by decide)) (s.penRole_lt t p) hr]
    exact State.setField_reg_ne (by rw [Ne, psReg_inj]; decide) ..

theorem nsegRecompute_role (t w : Nat) (s : State) : (nsegRecompute t s).penRole t w = s.penRole t w :=
  State.penRole_of_reg (nsegRecompute_frame (Frame.word rfl (roleWord_not_rating t) (psReg_not_penEvt t (by decide))) rfl) w

theorem foldEvent_role (t w bit cls okind obj : Nat) (s : State) :
    (foldEvent (foldOf t) bit cls okind obj s).penRole t w = s.penRole t w :=
  State.penRole_of_reg (by rw [foldEvent, raise_reg, if_neg (psReg_ne_foldEvt t _ (by decide))]) w

theorem State.updTerm_role (s : State) (t : Nat) (f : Term → Term) (u w : Nat) : (s.updTerm t f).penRole u w = s.penRole u w := rfl

theorem setStat_role (t lo n v w : Nat) (s : State) : (s.setField (psReg t 0x04) lo n v).penRole t w = s.penRole t w :=
  State.penRole_of_reg (State.setField_reg_ne (by rw [Ne, psReg_inj]; decide) ..) w

theorem setSubst_role (t v w : Nat) (s : State) : (setSubst t v s).penRole t w = s.penRole t w := setStat_role ..

/-- The choice of an incoming pen moves no retired one. -/
theorem choosePen_retired {t w : Nat} {s : State} (wanted : Nat) (h : s.penRole t w = retired) :
    (choosePen t wanted s).penRole t w = retired := by
  cases hp : s.incomingPen t with
  | none =>
    rw [choosePen_missing wanted hp, State.updTerm_role, foldEvent_role, setSubst_role, setStat_role, h]
  | some p =>
    obtain ⟨hlt, hrole⟩ := incomingPen_role hp
    have hne : w ≠ p := by
      rintro rfl
      rw [h] at hrole
      exact absurd hrole (by decide)
    rw [choosePen_found wanted hp, setSubst_role, setStat_role, setStat_role, endTestOf]
    split
    · rw [movePen_role hlt (by decide), if_neg hne]
      exact h
    · exact h

theorem substAll_retired {t w : Nat} {s : State} (h : s.penRole t w = retired) : (substAll t s).penRole t w = retired := by
  refine each_keep (P := fun u : State => u.penRole t w = retired) _ _ (fun _ u hu => ?_) h
  unfold nextSubst
  refine ite_keep (Q := fun v : State => v.penRole t w = retired) hu ?_
  split
  · exact choosePen_retired _ hu
  · exact hu

-- ---- healthy segments (R187, R194)
theorem State.segHealthy_eq (s : State) (t p : Nat) {g : Nat} (hg : g < 16) : s.segHealthy t p g = bitOf (s.reg (segmap t p)) g := by
  have h := fld_testBit (s.reg (segmap t p)) 0 16 g
  rw [Nat.testBit_eq_decide_div_mod_eq, decide_eq_true hg, Bool.true_and] at h
  rw [State.segHealthy, fieldN, pow_one, beq_eq_decide]
  exact h

theorem State.healthy_of_reg {s u : State} {t p : Nat} (h : u.reg (segmap t p) = s.reg (segmap t p)) : u.healthy t p = s.healthy t p := by
  unfold State.healthy State.healthyMap
  rw [State.regField_of_reg h]

/-- Isolation clears the segment's bit in its map, and changes no other. -/
theorem isolate_segmap (t p g : Nat) {w : Nat} (hw : w < 16) (s : State) : (isolate t p g s).reg (segmap t w) =
    if s.segHealthy t p g = true ∧ segmap t w = segmap t p then clrBit (s.reg (segmap t w)) g else s.reg (segmap t w) := by
  have hoff := offPens_segmap t hw
  have hmove {from_ : Nat} (hfrom : from_ < 4) (u : State) : (segMove t from_ retired 1 u).reg (segmap t w) = u.reg (segmap t w) :=
    segMove_reg (fun h => hoff.1 (.inr (.inl h))) hoff.2 hfrom (by decide) 1 u
  unfold isolate
  by_cases hh : s.segHealthy t p g = true
  · rw [if_neg (by simp [hh])]
    extract_lets u u1
    have hu1 : u1.reg (segmap t w) = u.reg (segmap t w) := by
      unfold u1
      split
      · rfl
      · exact hmove (u.penRole_lt t p) u
    rw [State.bump, State.updReg_eq, State.setReg_reg, if_neg (psReg_ne_segmap t t (by decide) hw).symm, hu1]
    by_cases he : segmap t w = segmap t p <;> simp [u, hh, he]
  · simp [hh]

theorem isolate_isolates (t : Nat) {p g : Nat} (hp : p < 16) (hg : g < 16) (s : State) : (isolate t p g s).segHealthy t p g = false := by
  rw [State.segHealthy_eq _ t p hg, isolate_segmap t p g hp]
  by_cases hh : s.segHealthy t p g = true
  · simp [hh]
  · rw [if_neg fun h => hh h.1]
    rw [State.segHealthy_eq _ t p hg] at hh
    simpa using hh

theorem isolate_keeps (t p' g' : Nat) {p g : Nat} (hp : p < 16) (hg : g < 16) {s : State} (h : s.segHealthy t p g = false) :
    (isolate t p' g' s).segHealthy t p g = false := by
  rw [State.segHealthy_eq _ t p hg] at h ⊢
  rw [isolate_segmap t p' g' hp]
  split
  · simp [h]
  · exact h

theorem forL_establishes {α : Type} {P : State → Prop} {f : α → State → State} {x : α} (hest : ∀ s, P (f x s))
    (hkeep : ∀ y s, P s → P (f y s)) {l : List α} (hx : x ∈ l) (s : State) : P (forL l f s) := by
  obtain ⟨l1, l2, rfl⟩ := List.append_of_mem hx
  rw [forL, List.foldl_append]
  exact forL_keep l2 f hkeep (hest (forL l1 f s))

/-- Each segment of the list is isolated. -/
theorem isolateAll_isolates {t p g : Nat} {l : List (Nat × Nat)} (hp : p < 16) (hg : g < 16) (h : (p, g) ∈ l) (s : State) :
    (isolateAll t l s).segHealthy t p g = false := by
  have hall : (forL l (fun e s => isolate t e.1 e.2 s) s).segHealthy t p g = false := by
    refine forL_establishes (P := fun u => u.segHealthy t p g = false) (x := (p, g)) (fun u => ?_) (fun y u hu => ?_) h s
    · exact isolate_isolates t hp hg u
    · exact isolate_keeps t y.1 y.2 hp hg hu
  unfold isolateAll
  refine ite_keep (Q := fun u : State => u.segHealthy t p g = false) ?_ hall
  rw [State.segHealthy_eq _ t p hg] at hall ⊢
  rwa [(offPens_segmap t hp).foldEvent]

theorem State.segHealthy_of_reg {s u : State} {t p : Nat} (h : u.reg (segmap t p) = s.reg (segmap t p)) (g : Nat) :
    u.segHealthy t p g = s.segHealthy t p g := by
  unfold State.segHealthy State.healthyMap
  rw [State.regField_of_reg h]

-- ---- acts of a supervisor (R426)
/-- A fold with nothing waiting. -/
def clearWaits (k : Nat) (s : State) : State := s.updFold k (fun f => { f with waits := [] })

theorem onFold_served {k now : Nat} {s : State} (x : FoldWait) (h : s.foldServed k now = true) (hw : (s.fold k).waits = []) :
    onFold k now x s = runWait k x (clearWaits k s) := by
  simp [onFold, settleFold, clearWaits, h, hw, forL]

theorem onFold_waits {k now : Nat} {s : State} (x : FoldWait) (h : ¬ s.foldServed k now = true) :
    onFold k now x s = s.updFold k (fun f => { f with waits := f.waits ++ [x] }) := if_neg h

theorem State.updFold_waits (s : State) (k : Nat) (x : FoldWait) :
    ((s.updFold k (fun f => { f with waits := f.waits ++ [x] })).fold k).waits = (s.fold k).waits ++ [x] := by
  simp

theorem doesOnFold_of {c : Instr} {k now : Nat} {s : State} {x : FoldWait} {P : State → Prop} (hrow : exec c s = .next (onFold k now x s))
    (hdone : P (runWait k x (clearWaits k s))) : DoesOnFold c k now s P := by
  refine ⟨_, hrow, ?_⟩
  beta_reduce
  split
  next h =>
    intro hw
    rwa [onFold_served x h hw]
  next h =>
    rw [onFold_waits x h]
    exact ⟨rfl, rfl, x, State.updFold_waits s k x⟩

end Sys2Proof.Machine
end

section
/-! SUPPORT. Desaturations, self-tests and substitutions (R194 to R199, R426). -/

namespace Sys2Proof.Machine

open Sys2Proof

-- ---- what the acts of a supervisor leave of a terminal's guard
theorem foldEvent_guard (k bit cls okind obj : Nat) (s : State) (q : Nat) : (foldEvent k bit cls okind obj s).guard q = s.guard q :=
  State.guard_of_same (raise_terms _ _ s) q

theorem State.updTerm_guard {f : Term → Term} (hf : ∀ x, (f x).guard = x.guard) (s : State) (t q : Nat) :
    (s.updTerm t f).guard q = s.guard q := State.setTerm_guard (hf _) q

theorem State.setField_guard (s : State) (a lo w v q : Nat) : (s.setField a lo w v).guard q = s.guard q := rfl

theorem setSubst_guard (t v : Nat) (s : State) (q : Nat) : (setSubst t v s).guard q = s.guard q := rfl

theorem choosePen_guard (t wanted : Nat) (s : State) (q : Nat) : (choosePen t wanted s).guard q = s.guard q := by
  cases hp : s.incomingPen t with
  | none =>
    rw [choosePen_missing wanted hp]
    refine (State.updTerm_guard (fun _ => by rfl) ..).trans ?_
    rw [foldEvent_guard, setSubst_guard, State.setField_guard]
  | some p =>
    rw [choosePen_found wanted hp]
    rw [setSubst_guard, State.setField_guard, State.setField_guard, endTestOf]
    refine ite_keep (Q := fun u : State => u.guard q = s.guard q) ?_ rfl
    rw [State.guard_of_same (movePen_keep (.same (p := .terms) rfl _) t p spare _ rfl)]
    exact State.updTerm_guard (fun _ => by rfl) ..

theorem substAll_guard (t : Nat) (s : State) (q : Nat) : (substAll t s).guard q = s.guard q := by
  refine each_same (fun u => u.guard q) (fun _ u => ?_) _ s
  unfold nextSubst
  refine ite_keep (Q := fun v : State => v.guard q = u.guard q) rfl ?_
  split
  · exact choosePen_guard t _ u q
  · rfl

theorem nsegRecompute_guard (t : Nat) (s : State) (q : Nat) : (nsegRecompute t s).guard q = s.guard q :=
  State.guard_of_same (nsegRecompute_keep (.same (p := .terms) rfl s) t s rfl) q

theorem movePen_guard (t p r : Nat) (s : State) (q : Nat) : (movePen t p r s).guard q = s.guard q :=
  State.guard_of_same (movePen_keep (.same (p := .terms) rfl s) t p r s rfl) q

theorem isolateAll_guard (t : Nat) (l : List (Nat × Nat)) (s : State) (q : Nat) : (isolateAll t l s).guard q = s.guard q :=
  State.guard_of_same (isolateAll_keep (.same (p := .terms) rfl s) t l s rfl) q

theorem spanFaults_guard (t : Nat) (l : List (Nat × Nat)) (s : State) (q : Nat) : (spanFaults t l s).guard q = s.guard q := by
  rw [spanFaults, substAll_guard, nsegRecompute_guard, isolateAll_guard]

theorem startSelfTest_guard (t p : Nat) (s : State) (q : Nat) : (startSelfTest t p s).guard q = s.guard q := by
  unfold startSelfTest
  refine ite_keep (Q := fun v : State => v.guard q = s.guard q) ?_ rfl
  rw [movePen_guard]
  exact State.updTerm_guard (fun _ => by rfl) ..

theorem endSelfTest_guard (t : Nat) (fails : BitVec 16) (s : State) (q : Nat) : (endSelfTest t fails s).guard q = s.guard q := by
  unfold endSelfTest
  dsimp only
  split
  · rfl
  next p _ =>
    have hisolated {f : Term → Term} (hf : ∀ x, (f x).guard = x.guard) (l : List (Nat × Nat)) :
        (isolateAll t l (s.updTerm t f)).guard q = s.guard q := (isolateAll_guard ..).trans (State.updTerm_guard hf ..)
    refine ite_keep (Q := fun v : State => v.guard q = s.guard q) ?_ ?_
    · exact (movePen_guard ..).trans (hisolated (fun _ => by rfl) _)
    · exact (State.updTerm_guard (fun _ => by rfl) ..).trans ((movePen_guard ..).trans (hisolated (fun _ => by rfl) _))

theorem startOverlap_guard (t : Nat) (s : State) (q : Nat) : (startOverlap t s).guard q = s.guard q := by
  unfold startOverlap
  refine ite_keep (Q := fun v : State => v.guard q = s.guard q) ?_ rfl
  exact (State.updTerm_guard (fun _ => by rfl) ..).trans (movePen_guard t (s.penIn t) inService s q)

theorem substOutcome_guard (t i w : Nat) (s : State) (q : Nat) : (substOutcome t i w s).guard q = s.guard q := by
  unfold substOutcome
  rw [substAll_guard]
  refine ite_keep (Q := fun v : State => v.guard q = s.guard q) ?_ ?_
  · rw [foldEvent_guard]
    exact (nsegRecompute_guard t (movePen t w retired s) q).trans (movePen_guard ..)
  · rw [foldEvent_guard, nsegRecompute_guard, movePen_guard]

theorem runWait_guard (k : Nat) (x : FoldWait) (s : State) (q : Nat) : (runWait k x s).guard q = s.guard q := by
  cases x with
  | isolate t l => exact spanFaults_guard t l s q
  | testStart t p => exact startSelfTest_guard t p s q
  | testEnd t fails => exact endSelfTest_guard t fails s q
  | overlap t => exact startOverlap_guard t s q
  | outcome t i w => exact substOutcome_guard t i w s q
  | budget v n i j p c m => exact State.guard_of_same (renewBudget_keep (.same (p := .terms) rfl s) k v n i j p c m s rfl) q

theorem onFold_guard (k now : Nat) (x : FoldWait) (s : State) (q : Nat) : (onFold k now x s).guard q = s.guard q := by
  unfold onFold
  refine ite_keep (Q := fun v : State => v.guard q = s.guard q) ?_ rfl
  rw [runWait_guard]
  exact forL_keep (P := fun v : State => v.guard q = s.guard q) _ _ (fun y v hv => (runWait_guard k y v q).trans hv) rfl

-- ---- desaturations (R194, R195)
theorem State.updTerm_reg (s : State) (t : Nat) (f : Term → Term) (a : Nat) : (s.updTerm t f).reg a = s.reg a := rfl

theorem State.updTerm_term (s : State) (t : Nat) (f : Term → Term) : (s.updTerm t f).term t = f (s.term t) :=
  (State.setTerm_read ..).trans (if_pos rfl)

theorem foldEvent_reg {k a : Nat} (ha : a ≠ foldEvt k) (bit cls okind obj : Nat) (s : State) :
    (foldEvent k bit cls okind obj s).reg a = s.reg a := by
  rw [foldEvent, raise_reg, if_neg ha]

theorem foldEvent_bit {bit : Nat} (hb : bit < 16) (k cls okind obj : Nat) (s : State) :
    bitOf ((foldEvent k bit cls okind obj s).reg (foldEvt k)) bit = true := bitOf_raise (mkRep_bit hb ..) s

theorem desaturation_does (q : Fin 512) (p g : Fin 16) (s : State) : Does (.desaturation q p g) s fun t =>
    if s.segHealthy q.val p.val g.val = true ∧ s.penRole q.val p.val = inService ∧ (p.val, g.val) ∉ (s.term q.val).gateOff then
      t.reg (psReg q.val 0x20) = s.reg (psReg q.val 0x20) + 1 ∧ (p.val, g.val) ∈ (t.term q.val).gateOff ∧
        (t.term q.val).spanOpen = true ∧ (p.val, g.val) ∈ (t.term q.val).span ∧ bitOf (t.reg (foldEvt (foldOf q.val))) 0 = true
    else t = s := by
  refine ⟨desaturate q.val p.val g.val s, rfl, ?_⟩
  unfold desaturate
  split
  next h =>
    obtain ⟨hhealthy, hrole, hon⟩ := h
    extract_lets x u seg
    rw [if_neg (by simp [x, hhealthy, hrole, hon])]
    have hcount : u.reg (psReg q.val 0x20) = s.reg (psReg q.val 0x20) + 1 := by
      rw [foldEvent_reg (psReg_ne_foldEvt _ _ (by decide)), State.bump, State.updReg_eq, State.setReg_reg, if_pos rfl]
    have hevt : bitOf (u.reg (foldEvt (foldOf q.val))) 0 = true := foldEvent_bit (by decide) ..
    clear_value u
    rw [State.updTerm_term, State.updTerm_reg, State.updTerm_reg]
    exact ⟨hcount, List.mem_append_right _ (List.mem_singleton.2 rfl), rfl, List.mem_append_right _ (List.mem_singleton.2 rfl), hevt⟩
  next h => exact if_pos (by simpa [imp_iff_or_not, or_comm, or_assoc, or_left_comm] using h)

/-- The terminal whose span closes. -/
def shutSpan (t : Nat) (s : State) : State := s.updTerm t (fun y => { y with spanOpen := false, span := [] })

theorem desatSpanClose_open {q : Fin 512} {s : State} (now : Nat) (h : (s.term q.val).spanOpen = true) : exec (.desatSpanClose q now) s =
    .next (if (s.term q.val).span.length < 4 then onFold (foldOf q.val) now (.isolate q.val (s.term q.val).span) (shutSpan q.val s)
      else overcurrent q.val now false (shutSpan q.val s)) := by
  change execDesatSpanClose q now s = _
  unfold execDesatSpanClose
  by_cases hl : (s.term q.val).span.length < 4
  · simp [h, hl, shutSpan]
  · simp [h, hl, shutSpan, Nat.not_lt.1 hl]

theorem desatSpanClose_shut {q : Fin 512} {s : State} (now : Nat) (h : (s.term q.val).spanOpen = false) :
    exec (.desatSpanClose q now) s = .next s := by
  change execDesatSpanClose q now s = _
  simp [execDesatSpanClose, h]

theorem shutSpan_guard (t : Nat) (s : State) : ((shutSpan t s).guard t).1 = false := by
  simp [State.guard, Term.guard, shutSpan]

theorem spanFaults_isolates {t p g : Nat} {l : List (Nat × Nat)} (hp : p < 16) (hg : g < 16) (h : (p, g) ∈ l) (s : State) :
    (spanFaults t l s).segHealthy t p g = false := by
  have hoff := offPens_segmap t hp
  rw [spanFaults, State.segHealthy_of_reg (hoff.substAll _), State.segHealthy_of_reg (hoff.nsegRecompute _)]
  exact isolateAll_isolates hp hg h s

theorem desatSpanClose_does (q : Fin 512) (now : Nat) (s : State) (h : (s.term q.val).spanOpen = true) : Does (.desatSpanClose q now) s fun t =>
    (t.term q.val).spanOpen = false ∧
    if (s.term q.val).span.length < 4 then
      if s.foldServed (foldOf q.val) now = true then
        (s.fold (foldOf q.val)).waits = [] → ∀ p < 16, ∀ g < 16, (p, g) ∈ (s.term q.val).span → t.segHealthy q.val p g = false
      else t.regs = s.regs ∧ (t.fold (foldOf q.val)).waits =
        (s.fold (foldOf q.val)).waits ++ [.isolate q.val (s.term q.val).span]
    else ∀ ch, s.ownerOf q.val = some ch → (t.chan ch).st ≠ .armed ∧ t.reg (psReg q.val 0x2C) = s.reg (psReg q.val 0x2C) + 1 := by
  refine ⟨_, desatSpanClose_open now h, ?_⟩
  beta_reduce
  have hshut := shutSpan_guard q.val s
  by_cases hl : (s.term q.val).span.length < 4
  · rw [if_pos hl, if_pos hl]
    refine ⟨(congrArg Prod.fst (onFold_guard ..)).trans hshut, ?_⟩
    split
    next hserved =>
      intro hw p hp g hg hmem
      rw [onFold_served (s := shutSpan q.val s) _ hserved hw]
      exact spanFaults_isolates hp hg hmem _
    next hserved =>
      rw [onFold_waits (s := shutSpan q.val s) _ hserved]
      exact ⟨rfl, State.updFold_waits (shutSpan q.val s) _ _⟩
  · rw [if_neg hl, if_neg hl]
    refine ⟨(congrArg Prod.fst (overcurrent_guard ..)).trans hshut, fun ch hch => ?_⟩
    exact ⟨overcurrent_stops (s := shutSpan q.val s) now false hch, overcurrent_counts (s := shutSpan q.val s) now false hch⟩

-- ---- self-tests of spares (R196)
theorem spareSelfTestStart_does (q : Fin 512) (p : Fin 16) (now : Nat) (s : State) :
    DoesOnFold (.spareSelfTestStart q p now) (foldOf q.val) now s fun t =>
      if s.penRole q.val p.val = spare ∧ (s.term q.val).selfTest = none ∧ p.val ∉ (s.term q.val).underBist ∧
          ¬(s.substSt q.val = 1 ∧ s.penIn q.val = p.val) then
        t.penRole q.val p.val = underTest ∧ (t.term q.val).selfTest = some p.val
      else t.terms = s.terms ∧ t.regs = s.regs := by
  refine doesOnFold_of (x := .testStart q.val p.val) rfl ?_
  have hcond : ((clearWaits (foldOf q.val) s).penRole q.val p.val == spare && ((clearWaits (foldOf q.val) s).term q.val).selfTest.isNone &&
      !((clearWaits (foldOf q.val) s).term q.val).underBist.contains p.val &&
      !((clearWaits (foldOf q.val) s).substSt q.val == 1 && (clearWaits (foldOf q.val) s).penIn q.val == p.val)) = true ↔
      s.penRole q.val p.val = spare ∧ (s.term q.val).selfTest = none ∧ p.val ∉ (s.term q.val).underBist ∧
        ¬(s.substSt q.val = 1 ∧ s.penIn q.val = p.val) := by
    change (s.penRole q.val p.val == spare && (s.term q.val).selfTest.isNone && !(s.term q.val).underBist.contains p.val &&
      !(s.substSt q.val == 1 && s.penIn q.val == p.val)) = true ↔ _
    simp [and_assoc, imp_iff_not_or]
  change if _ then (startSelfTest q.val p.val (clearWaits (foldOf q.val) s)).penRole _ _ = _ ∧
    ((startSelfTest q.val p.val (clearWaits (foldOf q.val) s)).term _).selfTest = _ else
      (startSelfTest q.val p.val (clearWaits (foldOf q.val) s)).terms = _ ∧ (startSelfTest q.val p.val (clearWaits (foldOf q.val) s)).regs = _
  unfold startSelfTest
  dsimp only
  split
  next h =>
    rw [if_pos (hcond.2 h), movePen_role p.isLt (by decide), if_pos rfl]
    refine ⟨rfl, ?_⟩
    rw [State.term_of_same (movePen_keep (.same (p := .terms) rfl _) _ _ _ _ rfl)]
    simp
  next h =>
    rw [if_neg (mt hcond.1 h)]
    exact ⟨rfl, rfl⟩

theorem endSelfTest_eq {t p : Nat} {fails : BitVec 16} {s : State} (h : (s.term t).selfTest = some p) :
    ∃ u : State, (u.term t).selfTest = none ∧ (∀ g < 16, fails.getLsbD g = true → p < 16 → u.segHealthy t p g = false) ∧
      endSelfTest t fails s = if u.healthy t p < 12 then movePen t p retired u
        else (movePen t p spare u).updTerm t (fun x => { x with passed := x.passed ++ [(p, u.bell.frame.toNat)] }) := by
  unfold endSelfTest
  simp only [h]
  refine ⟨_, ?_, fun g hg hfail hp => ?_, rfl⟩
  · rw [State.term_of_same (isolateAll_keep (.same (p := .terms) rfl _) t _ _ rfl)]
    simp
  · refine isolateAll_isolates hp hg ?_ _
    simp [hg, hfail]

theorem spareSelfTestEnd_does (q : Fin 512) (fails : BitVec 16) (p : Fin 16) (now : Nat) (s : State) (h : (s.term q.val).selfTest = some p.val) :
    DoesOnFold (.spareSelfTestEnd q fails now) (foldOf q.val) now s fun t => (t.term q.val).selfTest = none ∧
      (∀ g < 16, fails.getLsbD g = true → t.segHealthy q.val p.val g = false) ∧
      t.penRole q.val p.val = (if t.healthy q.val p.val < 12 then retired else spare) := by
  refine doesOnFold_of (x := .testEnd q.val fails) rfl ?_
  obtain ⟨u, htest, hseg, hend⟩ := endSelfTest_eq (s := clearWaits (foldOf q.val) s) (fails := fails) h
  have hmap (r : Nat) (hr : r < 4) := (offPens_segmap q.val p.isLt).movePen p.val hr u
  have hterm (r : Nat) : (movePen q.val p.val r u).term q.val = u.term q.val :=
    State.term_of_same (movePen_keep (.same (p := .terms) rfl _) _ _ _ _ rfl) _
  have hmoved {r : Nat} (hr : r < 4) : ((movePen q.val p.val r u).term q.val).selfTest = none ∧
      (∀ g < 16, fails.getLsbD g = true → (movePen q.val p.val r u).segHealthy q.val p.val g = false) ∧
      (movePen q.val p.val r u).penRole q.val p.val = r ∧ (movePen q.val p.val r u).healthy q.val p.val = u.healthy q.val p.val := by
    refine ⟨by rw [hterm, htest], fun g hg hf => ?_, ?_, State.healthy_of_reg (hmap r hr)⟩
    · rw [State.segHealthy_of_reg (hmap r hr)]
      exact hseg g hg hf p.isLt
    · rw [movePen_role p.isLt hr, if_pos rfl]
  rw [runWait, hend]
  by_cases hfew : u.healthy q.val p.val < 12
  · rw [if_pos hfew]
    obtain ⟨hnone, hbad, hrole, hcount⟩ := hmoved (r := retired) (by decide)
    exact ⟨hnone, hbad, by rw [hrole, hcount, if_pos hfew]⟩
  · rw [if_neg hfew]
    obtain ⟨hnone, hbad, hrole, hcount⟩ := hmoved (r := spare) (by decide)
    generalize movePen q.val p.val spare u = v at hnone hbad hrole hcount
    refine ⟨by rw [State.updTerm_term]; exact hnone, hbad, ?_⟩
    rw [State.updTerm_role, hrole, State.healthy_of_reg (State.updTerm_reg ..), hcount, if_neg hfew]

-- ---- substitutions (R197 to R199)
theorem State.penOut_of_reg {s u : State} {t : Nat} (h : u.reg (psReg t 0x04) = s.reg (psReg t 0x04)) : u.penOut t = s.penOut t :=
  State.regField_of_reg h ..

theorem setSubst_subst {v : Nat} (hv : v < 4) (t : Nat) (s : State) : (setSubst t v s).substSt t = v :=
  (State.regField_setField v (by decide)).trans (Nat.mod_eq_of_lt hv)

theorem setSubst_penOut (t v : Nat) (s : State) : (setSubst t v s).penOut t = s.penOut t :=
  State.regField_setField_of_disjoint v (by decide) (by decide)

theorem leadIncoming_reg (t : Nat) (s : State) (a : Nat) : (leadIncoming t s).reg a = s.reg a := rfl

theorem State.penIn_lt (s : State) (t : Nat) : s.penIn t < 16 := Nat.mod_lt _ (by decide)
theorem State.penOut_lt (s : State) (t : Nat) : s.penOut t < 16 := Nat.mod_lt _ (by decide)

theorem startOverlap_does {t : Nat} {s : State} (h : s.substSt t = 1) : (startOverlap t s).substSt t = 2 ∧
    (startOverlap t s).penRole t (s.penIn t) = inService ∧ (startOverlap t s).penOut t = s.penOut t := by
  rw [startOverlap, if_pos h]
  refine ⟨?_, ?_, ?_⟩
  · exact (State.regField_of_reg (leadIncoming_reg ..) ..).trans (setSubst_subst (by decide) ..)
  · rw [State.penRole_of_reg (leadIncoming_reg ..), setSubst_role, movePen_role (s.penIn_lt t) (by decide), if_pos rfl]
  · rw [State.penOut_of_reg (leadIncoming_reg ..), setSubst_penOut, State.penOut_of_reg (movePen_stat (by decide) ..)]

theorem substOverlapStart_does (q : Fin 512) (now : Nat) (s : State) : DoesOnFold (.substOverlapStart q now) (foldOf q.val) now s fun t =>
    if s.substSt q.val = 1 then t.substSt q.val = 2 ∧ t.penRole q.val (s.penIn q.val) = inService ∧ t.penOut q.val = s.penOut q.val
    else t.terms = s.terms ∧ t.regs = s.regs := by
  refine doesOnFold_of (x := .overlap q.val) rfl ?_
  rw [runWait]
  split
  next h => exact startOverlap_does (s := clearWaits (foldOf q.val) s) h
  next h =>
    rw [startOverlap, if_neg (show ¬(clearWaits (foldOf q.val) s).substSt q.val = 1 from h)]
    exact ⟨rfl, rfl⟩

theorem State.updFold_reg (s : State) (k : Nat) (f : Fold → Fold) (a : Nat) : (s.updFold k f).reg a = s.reg a := rfl

theorem substRelease_eq {q : Fin 512} {s : State} (now : Nat) (h : s.substSt q.val = 2) : exec (.substRelease q now) s =
    .next (onFold (foldOf q.val) now (.outcome q.val (s.penIn q.val) (s.penOut q.val)) (setSubst q.val 0 s)) := by
  change execSubstRelease q now s = _
  simp [execSubstRelease, h]

theorem substRelease_idle {q : Fin 512} {s : State} (now : Nat) (h : s.substSt q.val ≠ 2) : exec (.substRelease q now) s = .next s := by
  change execSubstRelease q now s = _
  simp [execSubstRelease, h]

theorem substOutcome_of_healthy {t i : Nat} {s : State} (w : Nat) (h : 12 ≤ s.healthy t i) : substOutcome t i w s =
    substAll t (foldEvent (foldOf t) 2 1 2 t ((nsegRecompute t (movePen t w retired s)).bump (psReg t 0x28))) :=
  congrArg (substAll t) (if_pos h)

theorem substOutcome_of_worn {t i : Nat} {s : State} (w : Nat) (h : ¬ 12 ≤ s.healthy t i) : substOutcome t i w s =
    substAll t (foldEvent (foldOf t) 3 1 2 t (nsegRecompute t (movePen t i retired s))) :=
  congrArg (substAll t) (if_neg h)

/-- An incoming pen of 12 healthy segments or more stays, and the wanted pen retires. -/
theorem substOutcome_done {t i w : Nat} {s : State} (hw : w < 16) (h : 12 ≤ s.healthy t i) :
    (substOutcome t i w s).penRole t w = retired ∧ (substOutcome t i w s).reg (psReg t 0x28) = s.reg (psReg t 0x28) + 1 ∧
      bitOf ((substOutcome t i w s).reg (foldEvt (foldOf t))) 2 = true := by
  have hoff : OffPens t (psReg t 0x28) := offPens_psReg t (by decide) (by decide) (by decide) (by decide)
  rw [substOutcome_of_healthy w h]
  refine ⟨substAll_retired ?_, ?_, substAll_bit (foldEvent_bit (by decide) ..)⟩
  · rw [foldEvent_role]
    refine (State.penRole_of_reg ((State.setReg_reg ..).trans (if_neg (by rw [psReg_inj]; decide))) w).trans ?_
    rw [nsegRecompute_role, movePen_role hw (by decide), if_pos rfl]
  · rw [hoff.substAll, hoff.foldEvent, State.bump, State.updReg_eq, State.setReg_reg, if_pos rfl, hoff.nsegRecompute,
      hoff.movePen _ (by decide)]

/-- One that has fallen below 12 retires itself. -/
theorem substOutcome_failed {t i : Nat} (w : Nat) {s : State} (hi : i < 16) (h : ¬ 12 ≤ s.healthy t i) :
    (substOutcome t i w s).penRole t i = retired ∧ bitOf ((substOutcome t i w s).reg (foldEvt (foldOf t))) 3 = true := by
  rw [substOutcome_of_worn w h]
  refine ⟨substAll_retired ?_, substAll_bit (foldEvent_bit (by decide) ..)⟩
  rw [foldEvent_role, nsegRecompute_role, movePen_role hi (by decide), if_pos rfl]

theorem substRelease_does (q : Fin 512) (now : Nat) (s : State) (h : s.substSt q.val = 2) : Does (.substRelease q now) s fun t =>
    if s.foldServed (foldOf q.val) now = true then (s.fold (foldOf q.val)).waits = [] →
      if 12 ≤ s.healthy q.val (s.penIn q.val) then t.penRole q.val (s.penOut q.val) = retired ∧
        t.reg (psReg q.val 0x28) = s.reg (psReg q.val 0x28) + 1 ∧ bitOf (t.reg (foldEvt (foldOf q.val))) 2 = true
      else t.penRole q.val (s.penIn q.val) = retired ∧ bitOf (t.reg (foldEvt (foldOf q.val))) 3 = true
    else t.substSt q.val = 0 ∧ t.terms = s.terms ∧ (t.fold (foldOf q.val)).waits =
      (s.fold (foldOf q.val)).waits ++ [.outcome q.val (s.penIn q.val) (s.penOut q.val)] := by
  refine ⟨_, substRelease_eq now h, ?_⟩
  beta_reduce
  split
  next hserved =>
    intro hw
    rw [onFold_served (s := setSubst q.val 0 s) _ hserved hw, runWait]
    generalize hu : clearWaits (foldOf q.val) (setSubst q.val 0 s) = u
    have hreg {a : Nat} (ha : a ≠ psReg q.val 0x04) : u.reg a = s.reg a := by
      rw [← hu, clearWaits, State.updFold_reg, setSubst, State.setField_reg_ne ha]
    have hhealthy : u.healthy q.val (s.penIn q.val) = s.healthy q.val (s.penIn q.val) :=
      State.healthy_of_reg (hreg (psReg_ne_segmap _ _ (by decide) (s.penIn_lt _)).symm)
    split
    next hgood =>
      obtain ⟨hrole, hdone, hevt⟩ := substOutcome_done (s.penOut_lt q.val) (hgood.trans_eq hhealthy.symm)
      rw [hreg (by rw [Ne, psReg_inj]; decide)] at hdone
      exact ⟨hrole, hdone, hevt⟩
    next hbad => exact substOutcome_failed _ (s.penIn_lt q.val) (by rwa [hhealthy])
  next hserved =>
    rw [onFold_waits (s := setSubst q.val 0 s) _ hserved]
    refine ⟨?_, rfl, State.updFold_waits (setSubst q.val 0 s) _ _⟩
    exact (State.regField_of_reg (State.updFold_reg ..) 4 2).trans (setSubst_subst (by decide) ..)

/-- Settles O31: each clause is the lemma of its row, at once or in the fold's list (`doesOnFold_of`). -/
theorem pensAreIsolatedTestedAndSubstituted : Obligations.PensAreIsolatedTestedAndSubstituted := by
  unfold Obligations.PensAreIsolatedTestedAndSubstituted
  exact ⟨desaturation_does, desatSpanClose_does, fun _ now _ => desatSpanClose_shut now, spareSelfTestStart_does, spareSelfTestEnd_does,
    substOverlapStart_does, fun _ now _ => substRelease_idle now, substRelease_does⟩

end Sys2Proof.Machine
end

section
/-! SUPPORT. Samples of currents and of fold-wide sources, the fold timebase, and the settings of a fold (R204, R205, R209, R212, R217). -/

namespace Sys2Proof.Machine

open Sys2Proof

-- ---- samples of a terminal's current (R204, R205)
/-- The terminal with a sample in its filter. -/
def ocFiltered (t : Nat) (h : List Bool) (on : Bool) (s : State) : State := s.setTerm t { s.term t with ocHist := h, ocAct := on }

theorem ocFiltered_guard (t : Nat) (h : List Bool) (on : Bool) (s : State) : ((ocFiltered t h on s).guard t).2.1 = h := by
  rw [State.guard, ocFiltered, State.setTerm_read, if_pos rfl]
  rfl

theorem ocSample_unowned {t : Nat} {s : State} (at_ ma : Nat) (h : s.ownerOf t = none) : ocSample t at_ ma s = s := by
  simp [ocSample, h]

/-- A sample inside a blanking window is none; one outside enters the filter, which trips the channel as it becomes active. -/
theorem ocSample_owned {t ch : Nat} {s : State} (at_ ma : Nat) (hown : s.ownerOf t = some ch) : let x := s.term t; let k := foldOf t
    let h := filtNext x.ocHist (s.regField (foldCfg k) 20 4 + 1) (decide (s.regField (psReg t 0x1C) 0 16 < ma))
    let on := filtActive h (s.regField (foldCfg k) 16 4 + 1)
    ocSample t at_ ma s = if x.seenAt ≠ 0 ∧ x.seenAt ≤ at_ ∧ at_ < x.seenAt + 64 then s
      else if on = true ∧ x.ocAct = false then overcurrent t at_ true (ocFiltered t h on s)
      else if (x.ocAct && !(s.chan ch).terms.any (fun u => ((ocFiltered t h on s).term u).ocAct)) = true then
        condEnd (fun r => r == ocRep t ch) (ocFiltered t h on s)
      else ocFiltered t h on s := by
  intro x k h on
  unfold ocSample
  simp only [hown]
  refine if_congr (by tauto) rfl (if_congr ?_ rfl rfl)
  simp [x, h, on, k]

theorem overcurrent_event {t ch : Nat} {s : State} (now : Nat) (live : Bool) (h : s.ownerOf t = some ch) :
    bitOf ((overcurrent t now live s).reg (foldEvt (foldOf t))) 7 = true := by
  rw [overcurrent_owned now live h, foldEvt_eq, tripChannel_reg (offStops_fold _ (by decide)), ← foldEvt_eq, ocReported_reg]
  exact bitOf_raise (mkRep_bit (by decide) ..) _

theorem terminalOvercurrent_one (q : Fin 512) (ma at_ : Nat) (s : State) : Does (.terminalOvercurrent q [ma] at_) s fun t =>
    match s.ownerOf q.val with
    | none => t = s
    | some ch => let x := s.term q.val; let k := foldOf q.val
      let h := filtNext x.ocHist (s.regField (foldCfg k) 20 4 + 1) (decide (s.regField (psReg q.val 0x1C) 0 16 < ma))
      if x.seenAt ≠ 0 ∧ x.seenAt ≤ at_ ∧ at_ < x.seenAt + 64 then t = s
      else if filtActive h (s.regField (foldCfg k) 16 4 + 1) = true ∧ x.ocAct = false then
        (t.chan ch).st ≠ .armed ∧ t.reg (psReg q.val 0x2C) = s.reg (psReg q.val 0x2C) + 1 ∧ bitOf (t.reg (foldEvt k)) 7 = true
      else t.chans = s.chans ∧ t.regs = s.regs ∧ (t.term q.val).ocHist = h := by
  refine ⟨ocSample q.val at_ ma s, rfl, ?_⟩
  cases hown : s.ownerOf q.val with
  | none => exact ocSample_unowned at_ ma hown
  | some ch =>
    dsimp only
    rw [ocSample_owned at_ ma hown]
    split
    next => rfl
    next =>
      split
      next =>
        exact ⟨overcurrent_stops (s := ocFiltered ..) at_ true hown, overcurrent_counts (s := ocFiltered ..) at_ true hown,
          overcurrent_event (s := ocFiltered ..) at_ true hown⟩
      next =>
        generalize filtActive _ _ = on
        generalize filtNext _ _ _ = h
        have hhist := ocFiltered_guard q.val h on s
        split
        next =>
          refine ⟨condEnd_keep (.same (p := .chans) rfl _) _ (ocFiltered q.val h on s) rfl,
            condEnd_keep (.same (p := .regs) rfl _) _ (ocFiltered q.val h on s) rfl, ?_⟩
          rw [State.term_of_same (condEnd_keep (.same (p := .terms) rfl _) _ _ rfl)]
          exact hhist
        next => exact ⟨rfl, rfl, hhist⟩

theorem terminalOvercurrent_snoc (q : Fin 512) (l : List Nat) (x at_ : Nat) (s : State) : Does (.terminalOvercurrent q (l ++ [x]) at_) s fun t =>
    Does (.terminalOvercurrent q l at_) s fun u => exec (.terminalOvercurrent q [x] (at_ + 4 * l.length)) u = .next t :=
  ⟨_, rfl, _, rfl, congrArg Host.Outcome.next (forL_zipIdx_snoc (fun x s => ocSample q.val (at_ + 4 * x.2) x.1 s) l x s).symm⟩

-- ---- samples of a fold-wide source (R204, R205, R209)
theorem State.chansOfFold_of_same {s t : State} (h : Part.same .chans s t) (k : Nat) : t.chansOfFold k = s.chansOfFold k := by
  unfold State.chansOfFold State.liveChans State.chan
  rw [show t.chans = s.chans from h]

/-- A fold is stopped by a cause that its event register shows. -/
def stopFold (k bit now : Nat) (s : State) : State :=
  let r := mkRep (srcFold k) 0 bit 3 0 0
  tripFold k now r (holdLive r (raise (foldEvt k) r s))

theorem stopFold_event {bit : Nat} (hb : bit < 16) (k now : Nat) (s : State) : bitOf ((stopFold k bit now s).reg (foldEvt k)) bit = true := by
  rw [stopFold, foldEvt_eq, tripFold_reg (offStops_fold k (by decide)), holdLive_reg]
  exact bitOf_raise (mkRep_bit hb ..) s

theorem stopFold_reg {k off : Nat} (h : off < 0x100) (hne : off ≠ 0x14) (bit now : Nat) (s : State) :
    (stopFold k bit now s).reg (aFold k + off) = s.reg (aFold k + off) := by
  rw [stopFold, tripFold_reg (offStops_fold k h), holdLive_reg, raise_reg, if_neg (by rw [foldEvt_eq]; omega)]

theorem stopFold_unarmed {k ch : Nat} {s : State} (bit now : Nat) (h : ch ∈ s.chansOfFold k) : ((stopFold k bit now s).chan ch).st ≠ .armed := by
  refine tripFold_unarmed now _ ?_
  rwa [State.chansOfFold_of_same (holdLive_keep (.same (p := .chans) rfl _) _ _ rfl), State.chansOfFold_of_same (raise_chans ..)]

theorem State.updFold_fold (s : State) (k : Nat) (f : Fold → Fold) : (s.updFold k f).fold k = f (s.fold k) :=
  (State.setFold_read ..).trans (if_pos rfl)

theorem stopFold_fold (k bit now : Nat) (s : State) : ∃ l, (stopFold k bit now s).fold k = { s.fold k with stopped := true, causes := l } := by
  have hfold : (holdLive (mkRep (srcFold k) 0 bit 3 0 0) (raise (foldEvt k) (mkRep (srcFold k) 0 bit 3 0 0) s)).fold k = s.fold k := by
    rw [holdLive_at_fold, raise_at_fold]
  rw [stopFold, tripFold_fold, markFold, State.updFold_fold, hfold]
  exact ⟨_, rfl⟩

/-- A source whose filter becomes active stops the fold. -/
theorem foldLevel_rises {k src : Nat} {s : State} (now : Nat) (h : fieldN (s.fold k).act src 1 = 0) : foldLevel k src now true s =
    stopFold k 8 now (s.updFold k (fun f => { f with act := f.act + 2 ^ src })) := by
  simp [foldLevel, h, stopFold, foldTripRep]

/-- No other level moves a channel, a word, the stop or the samples of the fold. -/
theorem foldLevel_quiet {k src : Nat} {on : Bool} {s : State} (now : Nat) (h : ¬(on = true ∧ fieldN (s.fold k).act src 1 = 0)) :
    (foldLevel k src now on s).chans = s.chans ∧ (foldLevel k src now on s).regs = s.regs ∧
      (foldLevel k src now on s).fold k =
        { s.fold k with act := if on = false ∧ fieldN (s.fold k).act src 1 = 1 then (s.fold k).act - 2 ^ src else (s.fold k).act } := by
  have hbit : fieldN (s.fold k).act src 1 < 2 := Nat.mod_lt _ (by decide)
  unfold foldLevel
  by_cases hone : fieldN (s.fold k).act src 1 = 1
  · cases on
    case true => simp [hone]
    case false =>
      simp only [hone]
      rw [if_neg (by decide), if_neg (by decide)]
      generalize hu : s.updFold k _ = u
      have hfold : u.fold k = { s.fold k with act := (s.fold k).act - 2 ^ src } := by rw [← hu, State.updFold_fold]
      have hsame : u.chans = s.chans ∧ u.regs = s.regs := by rw [← hu]; exact ⟨rfl, rfl⟩
      split
      next =>
        rw [State.fold_of_same (condEnd_keep (.same (p := .folds) rfl _) _ u rfl), hfold]
        exact ⟨(condEnd_keep (.same (p := .chans) rfl _) _ u rfl : Part.same .chans u _).trans hsame.1,
          (condEnd_keep (.same (p := .regs) rfl _) _ u rfl : Part.same .regs u _).trans hsame.2, by simp⟩
      next =>
        rw [hfold]
        exact ⟨hsame.1, hsame.2, by simp⟩
  · have hzero : fieldN (s.fold k).act src 1 = 0 := by omega
    cases on
    case true => exact absurd ⟨rfl, hzero⟩ h
    case false => simp [hzero]

/-- A level keeps the samples and the precharge mark. -/
theorem foldLevel_fold (k src now : Nat) (on : Bool) (s : State) : ((foldLevel k src now on s).fold k).filt = (s.fold k).filt ∧
    ((foldLevel k src now on s).fold k).precharge = (s.fold k).precharge := by
  by_cases h : on = true ∧ fieldN (s.fold k).act src 1 = 0
  · obtain ⟨rfl, hact⟩ := h
    rw [foldLevel_rises now hact]
    obtain ⟨l, hl⟩ := stopFold_fold k 8 now (s.updFold k (fun f => { f with act := f.act + 2 ^ src }))
    rw [hl, State.updFold_fold]
    exact ⟨rfl, rfl⟩
  · obtain ⟨-, -, hfold⟩ := foldLevel_quiet now h
    rw [hfold]
    exact ⟨rfl, rfl⟩

end Sys2Proof.Machine
end

section
/-! SUPPORT. Fold trips, the loss of a fold's timebase, a bus that rises, warm stages and FOLD_CFG (R204, R205, R212, R217, R482, R537). -/

namespace Sys2Proof.Machine

open Sys2Proof

-- ---- FOLD_TRIP (R204, R537)
/-- A fold that has a sample of a source in its filter. -/
def foldFiltered (k src : Nat) (h : List Bool) (s : State) : State := s.updFold k (fun f => { f with filt := tset [] f.filt src h })

theorem foldSample_eq (k src at_ : Nat) (v : Int) (s : State) : let f := foldSource src v
    let h := filtNext (tget [] (s.fold k).filt src) f.2.2 f.1
    foldSample k src at_ v s = foldLevel k src at_ (filtActive h f.2.1) (foldFiltered k src h s) := rfl

theorem foldFiltered_fold (k src : Nat) (h : List Bool) (s : State) :
    (foldFiltered k src h s).fold k = { s.fold k with filt := tset [] (s.fold k).filt src h } := State.updFold_fold ..

theorem foldSample_filt (k src at_ : Nat) (v : Int) (s : State) : tget [] ((foldSample k src at_ v s).fold k).filt src =
    filtNext (tget [] (s.fold k).filt src) (foldSource src v).2.2 (foldSource src v).1 := by
  rw [foldSample_eq, (foldLevel_fold ..).1, foldFiltered_fold, tget_tset_self]

theorem foldSample_precharge (k src at_ : Nat) (v : Int) (s : State) :
    ((foldSample k src at_ v s).fold k).precharge = (s.fold k).precharge := by
  rw [foldSample_eq, (foldLevel_fold ..).2, foldFiltered_fold]

/-- A sample that makes the filter of its source active stops the fold. -/
theorem foldSample_trips {k src : Nat} {v : Int} {s : State} (at_ : Nat)
    (hon : filtActive (filtNext (tget [] (s.fold k).filt src) (foldSource src v).2.2 (foldSource src v).1) (foldSource src v).2.1 = true)
    (hoff : fieldN (s.fold k).act src 1 = 0) : let t := foldSample k src at_ v s
    (t.fold k).stopped = true ∧ bitOf (t.reg (foldEvt k)) 8 = true ∧ ∀ ch ∈ s.chansOfFold k, (t.chan ch).st ≠ .armed := by
  intro t
  have ht : t = foldLevel k src at_ true (foldFiltered k src _ s) := (foldSample_eq k src at_ v s).trans (by rw [hon])
  rw [ht, foldLevel_rises at_ (by rwa [foldFiltered_fold])]
  refine ⟨?_, stopFold_event (by decide) .., fun ch hch => stopFold_unarmed (s := State.updFold _ k _) 8 at_ hch⟩
  obtain ⟨l, hl⟩ := stopFold_fold k 8 at_ ((foldFiltered k src
    (filtNext (tget [] (s.fold k).filt src) (foldSource src v).2.2 (foldSource src v).1) s).updFold k (fun f => { f with act := f.act + 2 ^ src }))
  rw [hl]

theorem foldSample_quiet {k src : Nat} {v : Int} {s : State} (at_ : Nat)
    (h : ¬(filtActive (filtNext (tget [] (s.fold k).filt src) (foldSource src v).2.2 (foldSource src v).1) (foldSource src v).2.1 = true ∧
      fieldN (s.fold k).act src 1 = 0)) : let t := foldSample k src at_ v s
    t.chans = s.chans ∧ t.regs = s.regs ∧ (t.fold k).stopped = (s.fold k).stopped := by
  intro t
  have ht := foldSample_eq k src at_ v s
  dsimp only at ht
  generalize filtNext _ _ _ = hist at h ht
  obtain ⟨hchans, hregs, hfold⟩ := foldLevel_quiet (s := foldFiltered k src hist s) at_ (by rwa [foldFiltered_fold])
  rw [show t = _ from ht]
  exact ⟨hchans, hregs, by rw [hfold, foldFiltered_fold]⟩

/-- A bus below 20 V among the samples of source 1 takes the precharge mark away. -/
def dropCharge (k src : Nat) (l : List Int) (s : State) : State :=
  if src = 1 ∧ l.any (fun v => (foldSource 1 v).1) then s.updFold k (fun f => { f with precharge := false }) else s

theorem dropCharge_fold (k src : Nat) (l : List Int) (s : State) :
    ∃ b, (dropCharge k src l s).fold k = { s.fold k with precharge := b } ∧ (src = 1 → (∃ v ∈ l, v < 2000) → b = false) := by
  unfold dropCharge
  split
  next => exact ⟨false, State.updFold_fold .., fun _ _ => rfl⟩
  next h => exact ⟨_, rfl, fun h1 hlow => absurd ⟨h1, List.any_eq_true.2 (by simpa [foldSource] using hlow)⟩ h⟩

theorem dropCharge_same {p : Part} (hp : [Part.folds].contains p = false) (k src : Nat) (l : List Int) (s : State) :
    p.same s (dropCharge k src l s) := ite_keep (updFold_keep (.same hp s) k _ (p.same_refl s)) (p.same_refl s)

theorem foldTrip_down {k : Fin 8} {src : Fin 5} {s : State} (l : List Int) (at_ : Nat) (h : s.boot.down = true) :
    exec (.foldTrip k src l at_) s = .next (dropCharge k.val src.val l s) := by
  have hboot : (dropCharge k.val src.val l s).boot = s.boot := dropCharge_same (p := .boot) rfl ..
  have hsrc : src = 1 ↔ src.val = 1 := Fin.ext_iff
  change execFoldTrip k src l at_ s = _
  unfold execFoldTrip
  simp only [hsrc]
  exact if_pos ((congrArg Boot.down hboot).trans h)

theorem foldTrip_up {k : Fin 8} {src : Fin 5} {s : State} (l : List Int) (at_ : Nat) (h : s.boot.down = false) :
    exec (.foldTrip k src l at_) s =
      .next (forL l.zipIdx (fun x s => foldSample k.val src.val (at_ + 4 * x.2) x.1 s) (dropCharge k.val src.val l s)) := by
  have hboot : (dropCharge k.val src.val l s).boot = s.boot := dropCharge_same (p := .boot) rfl ..
  have hsrc : src = 1 ↔ src.val = 1 := Fin.ext_iff
  change execFoldTrip k src l at_ s = _
  unfold execFoldTrip
  simp only [hsrc]
  exact if_neg (ne_true_of_eq_false ((congrArg Boot.down hboot).trans h))

theorem foldTrip_list (k : Fin 8) (src : Fin 5) (l : List Int) (at_ : Nat) (s : State) : Does (.foldTrip k src l at_) s fun t =>
    (src.val = 1 → (∃ v ∈ l, v < 2000) → (t.fold k.val).precharge = false) ∧
    (s.boot.down = true → t.chans = s.chans ∧ t.regs = s.regs ∧ (t.fold k.val).stopped = (s.fold k.val).stopped) := by
  obtain ⟨b, hfold, hb⟩ := dropCharge_fold k.val src.val l s
  cases hdown : s.boot.down with
  | true =>
    refine ⟨_, foldTrip_down l at_ hdown, fun h1 hlow => by rw [hfold]; exact hb h1 hlow, fun _ => ?_⟩
    exact ⟨dropCharge_same (p := .chans) rfl .., dropCharge_same (p := .regs) rfl .., by rw [hfold]⟩
  | false =>
    refine ⟨_, foldTrip_up l at_ hdown, fun h1 hlow => ?_, fun h => absurd h (by decide)⟩
    refine forL_keep (P := fun u : State => (u.fold k.val).precharge = false) _ _ (fun x u hu => (foldSample_precharge ..).trans hu) ?_
    rw [hfold]
    exact hb h1 hlow

theorem foldTrip_one (k : Fin 8) (src : Fin 5) (v : Int) (at_ : Nat) (s : State) (h : s.boot.down = false) :
    Does (.foldTrip k src [v] at_) s fun t =>
      let f := foldSource src.val v
      let h := filtNext (tget [] (s.fold k.val).filt src.val) f.2.2 f.1
      tget [] (t.fold k.val).filt src.val = h ∧
      if filtActive h f.2.1 = true ∧ fieldN (s.fold k.val).act src.val 1 = 0 then
        (t.fold k.val).stopped = true ∧ bitOf (t.reg (foldEvt k.val)) 8 = true ∧ ∀ ch ∈ s.chansOfFold k.val, (t.chan ch).st ≠ .armed
      else t.chans = s.chans ∧ t.regs = s.regs ∧ (t.fold k.val).stopped = (s.fold k.val).stopped := by
  refine ⟨_, foldTrip_up [v] at_ h, ?_⟩
  obtain ⟨b, hfold, -⟩ := dropCharge_fold k.val src.val [v] s
  have hchans : (dropCharge k.val src.val [v] s).chans = s.chans := dropCharge_same (p := .chans) rfl ..
  have hregs : (dropCharge k.val src.val [v] s).regs = s.regs := dropCharge_same (p := .regs) rfl ..
  rw [show forL [v].zipIdx _ _ = foldSample k.val src.val at_ v (dropCharge k.val src.val [v] s) from rfl]
  generalize dropCharge k.val src.val [v] s = u at hfold hchans hregs
  have hfilt : (u.fold k.val).filt = (s.fold k.val).filt := by rw [hfold]
  have hact : (u.fold k.val).act = (s.fold k.val).act := by rw [hfold]
  have hstop : (u.fold k.val).stopped = (s.fold k.val).stopped := by rw [hfold]
  dsimp only
  rw [foldSample_filt, ← hfilt, ← hact, ← hstop, ← hchans, ← hregs, ← State.chansOfFold_of_same hchans]
  refine ⟨rfl, ?_⟩
  split
  next hc => exact foldSample_trips at_ hc.1 hc.2
  next hc => exact foldSample_quiet at_ hc

-- ---- FTB_LOSS and FTB_RETURN (R212)
/-- The gates of a fold go low, and their causes are judged. -/
def gatesLow (k : Nat) (s : State) : State := refreshGates (each (List.range 8) (fun i s => gateLow (8 * k + i) s) s)

theorem gatesLow_same {p : Part} (hp : [Part.gates].contains p = false) (k : Nat) (s : State) : p.same s (gatesLow k s) :=
  refreshGates_keep (.same hp s) _ (each_keep _ _ (fun i u hu => gateLow_keep (.same hp s) (8 * k + i) u hu) (p.same_refl s))

theorem gateLow_level (g i : Nat) (s : State) : ((gateLow g s).gate i).level = (if i = g then false else (s.gate i).level) := by
  rw [gateLow, State.updGate_eq, State.setGate_read]
  split <;> rfl

theorem refreshGate_low {i : Nat} {s : State} (g : Nat) (h : (s.gate i).level = false) : ((refreshGate g s).gate i).level = false := by
  unfold refreshGate
  dsimp only
  rw [State.updGate_eq, State.setGate_read]
  split
  next hi =>
    rw [← hi]
    split
    · exact h
    · split
      · exact h
      · rfl
  next => exact h

theorem gatesLow_level (k : Nat) {i : Nat} (hi : i < 8) (s : State) : ((gatesLow k s).gate (8 * k + i)).level = false := by
  refine each_keep (P := fun u : State => (u.gate (8 * k + i)).level = false) _ _ (fun g u hu => refreshGate_low g hu) ?_
  refine each_establishes (P := fun j u => (u.gate (8 * k + j)).level = false) (fun j u => ?_) (fun j j' u hu => ?_) (List.mem_range.2 hi) s
  · rw [gateLow_level, if_pos rfl]
  · rw [gateLow_level, hu, ite_self]

/-- A fold that falls back on its own timebase. -/
def ftbFallback (k : Nat) (s : State) : State := (s.bump (cntFallback k)).updFold k (fun f => { f with ftbLost := true, ftbBack := false })

theorem ftbFallback_chans (k : Nat) (s : State) : (ftbFallback k s).chans = s.chans := by
  rw [ftbFallback, State.updFold_eq, State.setFold_chans, State.bump, State.updReg_eq, State.setReg_chans]

theorem ftbLoss_eq {k : Fin 8} {s : State} (now : Nat) (h : (s.fold k.val).ftbLost = false) :
    exec (.ftbLoss k now) s = .next (gatesLow k.val (stopFold k.val 12 now (ftbFallback k.val s))) := by
  change execFtbLoss k now s = _
  unfold execFtbLoss
  rw [h]
  rfl

theorem ftbLoss_does (k : Fin 8) (now : Nat) (s : State) : Does (.ftbLoss k now) s fun t =>
    if (s.fold k.val).ftbLost = true then t = s
    else (t.fold k.val).ftbLost = true ∧ (t.fold k.val).stopped = true ∧ t.reg (cntFallback k.val) = s.reg (cntFallback k.val) + 1 ∧
      (∀ ch ∈ s.chansOfFold k.val, (t.chan ch).st ≠ .armed) ∧ ∀ i < 8, (t.gate (8 * k.val + i)).level = false := by
  cases hlost : (s.fold k.val).ftbLost with
  | true =>
    refine ⟨s, ?_, (if_pos rfl).mpr rfl⟩
    change execFtbLoss k now s = _
    simp [execFtbLoss, hlost]
  | false =>
    refine ⟨_, ftbLoss_eq now hlost, ?_⟩
    beta_reduce
    rw [if_neg (by decide)]
    have hcount : (ftbFallback k.val s).reg (cntFallback k.val) = s.reg (cntFallback k.val) + 1 := by
      rw [ftbFallback, State.updFold_reg, State.bump, State.updReg_eq, State.setReg_reg, if_pos rfl]
    have hfb : ((ftbFallback k.val s).fold k.val).ftbLost = true := by rw [ftbFallback, State.updFold_fold]
    have hchans : (ftbFallback k.val s).chansOfFold k.val = s.chansOfFold k.val := State.chansOfFold_of_same (ftbFallback_chans ..) _
    generalize ftbFallback k.val s = u at hcount hfb hchans
    obtain ⟨l, hfold⟩ := stopFold_fold k.val 12 now u
    have hreg := stopFold_reg (k := k.val) (off := 0x50) (by decide) (by decide) 12 now u
    have hst {ch : Nat} (hch : ch ∈ s.chansOfFold k.val) := stopFold_unarmed 12 now (hchans.symm ▸ hch)
    generalize stopFold k.val 12 now u = v at hfold hreg hst
    rw [State.fold_of_same (gatesLow_same rfl ..), hfold, State.reg_of_same (gatesLow_same rfl ..)]
    refine ⟨hfb, rfl, hreg.trans hcount, fun ch hch => ?_, fun i hi => gatesLow_level k.val hi v⟩
    rw [State.chan_of_same (gatesLow_same rfl ..)]
    exact hst hch

theorem ftbReturn_does (k : Fin 8) (s : State) : Does (.ftbReturn k) s fun t => (t.fold k.val).ftbLost = (s.fold k.val).ftbLost ∧
    ((s.fold k.val).ftbLost = true → (t.fold k.val).ftbBack = true) := by
  change ∃ t, execFtbReturn k s = .next t ∧ _
  unfold execFtbReturn
  split
  next h =>
    refine ⟨_, rfl, ?_⟩
    rw [State.updFold_fold]
    exact ⟨rfl, fun _ => rfl⟩
  next h => exact ⟨s, rfl, rfl, fun h' => absurd h' h⟩

-- ---- BUS_RISE (R482, R537)
theorem fieldN_sub_bit {n i : Nat} (h : fieldN n i 1 = 1) : fieldN (n - 2 ^ i) i 1 = 0 := by
  unfold fieldN at h ⊢
  have hle : 2 ^ i ≤ n := by
    by_contra hlt
    rw [Nat.div_eq_of_lt (Nat.not_le.1 hlt)] at h
    exact absurd h (by decide)
  have hdiv := Nat.div_eq_sub_div (Nat.two_pow_pos i) hle
  omega

theorem busRise_does (k : Fin 8) (now : Nat) (s : State) : Does (.busRise k now) s fun t => (t.fold k.val).precharge = true ∧
    fieldN (t.fold k.val).act 1 1 = 0 ∧ t.regs = s.regs ∧ t.chans = s.chans := by
  refine ⟨_, rfl, ?_⟩
  generalize hu : s.updFold k.val _ = u
  have hcharge : (u.fold k.val).precharge = true := by rw [← hu, State.updFold_fold]
  have hregs : u.regs = s.regs := by rw [← hu]; rfl
  have hchans : u.chans = s.chans := by rw [← hu]; rfl
  obtain ⟨htchans, htregs, hfold⟩ := foldLevel_quiet (k := k.val) (src := 1) (on := false) (s := u) now (fun h => absurd h.1 (by decide))
  rw [hfold]
  refine ⟨hcharge, ?_, htregs.trans hregs, htchans.trans hchans⟩
  have hbit : fieldN (u.fold k.val).act 1 1 < 2 := Nat.mod_lt _ (by decide)
  by_cases hone : fieldN (u.fold k.val).act 1 1 = 1
  · simpa [hone] using fieldN_sub_bit hone
  · simpa [hone] using (show fieldN (u.fold k.val).act 1 1 = 0 by omega)

-- ---- STAGE_OVERTEMP_WARN (R204, R549)
theorem overtempOn_reg {k a : Nat} (ha : a ≠ foldEvt k) (s : State) : (overtempOn k s).reg a = s.reg a := by
  unfold overtempOn
  refine ite_keep (Q := fun u : State => u.reg a = s.reg a) ?_ ?_
  · rw [setEvt_reg, if_neg ha]
  · rw [holdLive_reg, raise_reg, if_neg ha]

theorem overtempOn_bit (k : Nat) (s : State) : bitOf ((overtempOn k s).reg (foldEvt k)) 9 = true := by
  unfold overtempOn
  refine ite_keep (Q := fun u : State => bitOf (u.reg (foldEvt k)) 9 = true) ?_ ?_
  · rw [setEvt_reg, if_pos rfl, bitOf_setBit]
    simp
  · rw [holdLive_reg]
    exact bitOf_raise (mkRep_bit (by decide) ..) s

theorem overtempEnd_same {p : Part} (hp : [Part.col].contains p = false) (k : Nat) (s : State) : p.same s (overtempEnd k s) :=
  overtempEnd_keep (.same hp s) k s (p.same_refl s)

theorem overtempOn_same {p : Part} (hp : [Part.regs, .col, .host].contains p = false) (k : Nat) (s : State) : p.same s (overtempOn k s) :=
  overtempOn_keep (.same hp s) k s (p.same_refl s)

theorem foldTemp_ne_foldEvt (k : Nat) : foldTemp k ≠ foldEvt k := by
  unfold foldTemp foldEvt
  omega

theorem State.setField_chans (s : State) (a lo w v : Nat) : (s.setField a lo w v).chans = s.chans := rfl
theorem State.setField_folds (s : State) (a lo w v : Nat) : (s.setField a lo w v).folds = s.folds := rfl

theorem stageOvertempWarn_does (f : Fin 32) (temp : BitVec 8) (s : State) : Does (.stageOvertempWarn f temp) s fun t =>
    t.chans = s.chans ∧ t.folds = s.folds ∧ fld (t.reg (foldTemp (f.val / 4))) (8 * (f.val % 4)) 8 = temp.toNat ∧
    (110 < temp.toInt → bitOf (t.reg (foldEvt (f.val / 4))) 9 = true) := by
  refine ⟨_, rfl, ?_⟩
  generalize hu : s.setField _ _ _ _ = u
  have hshown : fld (u.reg (foldTemp (f.val / 4))) (8 * (f.val % 4)) 8 = temp.toNat := by
    rw [← hu]
    exact (State.regField_setField _ (by omega)).trans (Nat.mod_eq_of_lt temp.isLt)
  have hchans : u.chans = s.chans := hu ▸ State.setField_chans ..
  have hfolds : u.folds = s.folds := hu ▸ State.setField_folds ..
  split
  next =>
    refine ⟨(overtempOn_same (p := .chans) rfl _ u : Part.same .chans u _).trans hchans,
      (overtempOn_same (p := .folds) rfl _ u : Part.same .folds u _).trans hfolds, ?_, fun _ => overtempOn_bit _ u⟩
    rw [overtempOn_reg (foldTemp_ne_foldEvt _), hshown]
  next hcool =>
    refine ⟨(overtempEnd_same (p := .chans) rfl _ u : Part.same .chans u _).trans hchans,
      (overtempEnd_same (p := .folds) rfl _ u : Part.same .folds u _).trans hfolds, ?_, fun h => absurd h hcool⟩
    rw [State.reg_of_same (overtempEnd_same rfl ..), hshown]

-- ---- FOLD_CFG (R205, R217)
theorem foldCfgWrite_does (k : Fin 8) (v : W) (s : State) : Does (.foldCfgWrite k v) s fun t =>
    if (∃ ch ∈ s.chansOfFold k.val, (s.chan ch).st = .armed) ∨ fld v 20 4 < fld v 16 4 then
      t.reg (foldCfg k.val) = s.reg (foldCfg k.val) ∧ bitOf (t.reg (foldEvt k.val)) 13 = true
    else t.reg (foldCfg k.val) = v &&& 0x00FF007F ∧ t.col = s.col := by
  have hcond : ((s.chansOfFold k.val).any (fun ch => (s.chan ch).armed) || decide (fld v 16 4 > fld v 20 4)) = true ↔
      (∃ ch ∈ s.chansOfFold k.val, (s.chan ch).st = .armed) ∨ fld v 20 4 < fld v 16 4 := by
    simp [Chan.armed]
  change ∃ t, execFoldCfgWrite k v s = .next t ∧ _
  unfold execFoldCfgWrite
  rw [if_congr hcond rfl rfl]
  split
  next =>
    refine ⟨_, rfl, ?_, foldEvent_bit (by decide) ..⟩
    exact foldEvent_reg (by unfold foldCfg foldEvt; omega) ..
  next => exact ⟨_, rfl, by rw [State.setReg_reg, if_pos rfl], State.setReg_col ..⟩

end Sys2Proof.Machine
end

section
/-! SUPPORT. The coolant: its measure and mean, and what each fold does as it renews (R213, R214, R548, R549). -/

namespace Sys2Proof.Machine

open Sys2Proof

-- ---- the channels of a fold through the stops of folds
theorem mem_chansOfFold {s : State} {k j : Nat} : j ∈ s.chansOfFold k ↔ (s.chan j).live = true ∧ (s.chan j).foldIx = k := by
  rw [State.chansOfFold, List.mem_filter, mem_liveChans, beq_iff_eq]

theorem stopChannel_adm (ch : Nat) (r : Report) (s : State) (j : Nat) : ((stopChannel ch r s).chan j).adm = (s.chan j).adm := by
  have hset {u : State} {c : Chan} (h : c.adm = (u.chan ch).adm) : ((u.setChan ch c).chan j).adm = (u.chan j).adm := by
    rw [State.setChan_read]
    split
    next hj => rw [h, hj]
    next => rfl
  unfold stopChannel
  dsimp only
  split
  · rfl
  · rfl
  · refine ite_keep (Q := fun u : State => (u.chan j).adm = (s.chan j).adm) ?_ ?_
    · rw [clearForces_chan]
      exact (hset (by rfl)).trans (hset (by rfl))
    · exact (hset (by rfl)).trans (hset (by rfl))
  · rw [refreshGates_chan]
    obtain ⟨a, b, hm⟩ := motorIdle_chan ch (clearForces ch (finishObj 0x0602 (1, ch) 0 (finishObj 0x0601 (1, ch) 8 (s.setChan ch
      { (s.chan ch).leaveArmed.dropZc with st := .stopped, causes := (s.chan ch).causes ++ [r], held := [] })))) j
    rw [hm, clearForces_chan, finishObj_chan, finishObj_chan]
    exact hset (by rfl)

theorem tripChannel_adm (ch now : Nat) (r : Report) (s : State) (j : Nat) : ((tripChannel ch now r s).chan j).adm = (s.chan j).adm := by
  unfold tripChannel
  split
  · rw [stopChannel_adm, clearForces_chan, enterSafe_chan]
  · rfl

theorem tripFold_adm (k now : Nat) (r : Report) (s : State) (j : Nat) : ((tripFold k now r s).chan j).adm = (s.chan j).adm :=
  each_same (fun u => (u.chan j).adm) (fun ch u => tripChannel_adm ch now r u j) _ (markFold k r s)

theorem ChanSt.stop_free (x : ChanSt) : (x.stop != .free) = (x != .free) := by cases x <;> rfl

theorem tripFold_live (k now : Nat) (r : Report) (s : State) (j : Nat) : ((tripFold k now r s).chan j).live = (s.chan j).live := by
  unfold Chan.live
  rw [tripFold_st]
  split
  · exact ChanSt.stop_free _
  · rfl

/-- The stop of a fold leaves each fold the channels that it has. -/
theorem mem_chansOfFold_tripFold {k now i j : Nat} {r : Report} {s : State} : j ∈ (tripFold i now r s).chansOfFold k ↔ j ∈ s.chansOfFold k := by
  rw [mem_chansOfFold, mem_chansOfFold, tripFold_live, Chan.foldIx, Chan.foldIx, tripFold_adm]

/-- Two reports of which the source, the cause or the class differ are two. -/
theorem mkRep_ne {src src' sel sel' bit bit' cls cls' okind okind' obj obj' : Nat}
    (h : src ≠ src' ∨ 16 * sel + bit ≠ 16 * sel' + bit' ∨ cls ≠ cls' ∨ obj ≠ obj') :
    mkRep src sel bit cls okind obj ≠ mkRep src' sel' bit' cls' okind' obj' := by
  intro he
  simp only [mkRep, Report.mk.injEq] at he
  obtain ⟨h1, h2, h3, -, h5⟩ := he
  rcases h with h | h | h | h
  · exact h h1
  · exact h h2
  · exact h h3
  · exact h h5

/-- Where the cause is the report's own, it is over its limit. -/
theorem limitOwn_tells_of {r : Report} {c : Col} {s : State} (h : Tells r c s.col) {source bit cls okind obj : Nat} {isOver : Bool}
    (hown : r = mkRep source 15 bit cls okind obj → isOver = true) : Tells r c (limitOwn source bit cls okind obj isOver s).col := by
  by_cases hr : r = mkRep source 15 bit cls okind obj
  · rw [hown hr]
    subst hr
    exact (limitOwn_over h).1
  · exact limitOwn_tells h isOver hr

theorem limitOwn_same {p : Part} (hp : [Part.col].contains p = false) (source bit cls okind obj : Nat) (isOver : Bool) (s : State) :
    p.same s (limitOwn source bit cls okind obj isOver s) := limitOwn_keep (.same hp s) source bit cls okind obj isOver s (p.same_refl s)

-- ---- what a fold does as the coolant renews
/-- The measures of the coolant after a renewal. -/
def coolAmb (reading : Option (BitVec 16)) (a : Amb) : Amb :=
  let temp := reading.getD a.temp
  let stale := if reading.isSome then 0 else a.stale + 1
  let inRange := decide (-20 * 64 ≤ temp.toInt ∧ temp.toInt ≤ 100 * 64)
  let valid := inRange && decide (stale < 10)
  let hist := ((if inRange then some temp.toInt else none) :: a.hist).take 1000
  let x : Int := if valid then meanOf (hist.filterMap id) else 45 * 64
  { ok := valid, temp, hist, stale, tin := x, kt := if x ≤ 35 * 64 then 1280 else (55 * 64 - x).toNat
    hot := decide (50 * 64 ≤ x) || (a.hot && decide (48 * 64 ≤ x)) }

/-- The report of a fold that the coolant, or its own dissipation, stops. -/
def hotRep (k : Nat) : Report := mkRep (srcFold k) 15 9 3 0 0

/-- The warning of a fold. -/
def warmFold (ok : Bool) (k : Nat) (s : State) : State := if ok then overtempEnd k s else overtempOn k s

/-- The fold under coolant `a`, before it is stopped. -/
def coolJudged (a : Amb) (k : Nat) (s : State) : State :=
  limitOwn (srcFold k) 9 3 0 0 (a.hot || ((warmFold a.ok k s).fold k).diss) (warmFold a.ok k s)

/-- Fold k under coolant `a`, which has just become hot where `rises`. -/
def coolFold (a : Amb) (rises : Bool) (now k : Nat) (s : State) : State :=
  if rises then tripFold k now (hotRep k) (coolJudged a k s) else coolJudged a k s

theorem coolantDerate_eq (reading : Option (BitVec 16)) (now : Nat) (s : State) : exec (.coolantDerate reading now) s = .next
    (each (List.range 8) (coolFold (coolAmb reading s.amb) ((coolAmb reading s.amb).hot && !s.amb.hot) now)
      { s with amb := coolAmb reading s.amb }) := rfl

theorem warmFold_same {p : Part} (hp : [Part.regs, .col, .host].contains p = false) (hcol : [Part.col].contains p = false) (ok : Bool) (k : Nat)
    (s : State) : p.same s (warmFold ok k s) := ite_keep (overtempEnd_same hcol k s) (overtempOn_same hp k s)

theorem coolJudged_same {p : Part} (hp : [Part.regs, .col, .host].contains p = false) (hcol : [Part.col].contains p = false) (a : Amb) (k : Nat)
    (s : State) : p.same s (coolJudged a k s) :=
  limitOwn_keep (.same hcol s) _ _ _ _ _ _ _ (warmFold_same hp hcol a.ok k s)

theorem coolFold_rising (a : Amb) (now k : Nat) (s : State) : coolFold a true now k s = tripFold k now (hotRep k) (coolJudged a k s) :=
  if_pos rfl
theorem coolFold_steady (a : Amb) (now k : Nat) (s : State) : coolFold a false now k s = coolJudged a k s := if_neg (by decide)

theorem warmFold_tells {r : Report} {c : Col} {k : Nat} {s : State} (h : Tells r c s.col) (hne : r ≠ mkRep (srcFold k) 0 9 1 0 0) (ok : Bool) :
    Tells r c (warmFold ok k s).col := by
  unfold warmFold overtempEnd overtempOn
  refine ite_keep (Q := fun u : State => Tells r c u.col) ?_ ?_
  · exact ite_keep (Q := fun u : State => Tells r c u.col) (h.condEnd hne) h
  · refine ite_keep (Q := fun u : State => Tells r c u.col) ?_ ((h.raise (foldEvt k) (mkRep (srcFold k) 0 9 1 0 0)).holdLive hne)
    rwa [setEvt_col]

/-- While the coolant is hot no fold takes back the stop report of any. -/
theorem coolFold_tells {a : Amb} (hhot : a.hot = true) {c : Col} {j : Nat} {s : State} (rises : Bool) (now k : Nat)
    (h : Tells (hotRep j) c s.col) : Tells (hotRep j) c (coolFold a rises now k s).col := by
  have hjudged : Tells (hotRep j) c (coolJudged a k s).col :=
    limitOwn_tells_of (warmFold_tells h (mkRep_ne (.inr (.inl (by decide)))) a.ok) fun _ => by rw [hhot, Bool.true_or]
  cases rises
  · rwa [coolFold_steady]
  · rw [coolFold_rising]
    exact hjudged.tripFold k now (hotRep k)

theorem coolFold_reports {a : Amb} (hhot : a.hot = true) (rises : Bool) (now k : Nat) (s : State) :
    hotRep k ∈ (coolFold a rises now k s).col.live := by
  have hjudged : hotRep k ∈ (coolJudged a k s).col.live := by
    rw [coolJudged, hhot, Bool.true_or]
    exact (limitOwn_over (Tells.refl _ _)).2
  cases rises
  · rwa [coolFold_steady]
  · rw [coolFold_rising]
    exact ((Tells.refl (hotRep k) (coolJudged a k s).col).tripFold k now (hotRep k)).held hjudged

/-- Each fold reports the stop while the coolant is hot. -/
theorem coolFolds_stop {a : Amb} (hhot : a.hot = true) (rises : Bool) (now : Nat) {k : Nat} (hk : k < 8) (s : State) :
    Reported (hotRep k) s (each (List.range 8) (coolFold a rises now) s) := by
  have htells : Tells (hotRep k) s.col (each (List.range 8) (coolFold a rises now) s).col :=
    each_keep (P := fun u : State => Tells (hotRep k) s.col u.col) _ _ (fun i u hu => coolFold_tells hhot rises now i hu) (Tells.refl _ _)
  refine htells.reported (each_establishes (P := fun j u => hotRep j ∈ u.col.live) (fun i u => coolFold_reports hhot rises now i u)
    (fun i j u hu => ?_) (List.mem_range.2 hk) s)
  exact (coolFold_tells hhot rises now i (Tells.refl (hotRep j) u.col)).held hu

/-- Coolant that becomes hot stops each fold. -/
theorem coolFolds_stopped (a : Amb) (now : Nat) {k : Nat} (hk : k < 8) (s : State) :
    ((each (List.range 8) (coolFold a true now) s).fold k).stopped = true := by
  refine each_establishes (P := fun j u => (u.fold j).stopped = true) (fun i u => ?_) (fun i j u hu => ?_) (List.mem_range.2 hk) s
  · rw [coolFold_rising, tripFold_stopped]
  · rw [coolFold_rising, tripFold_fold, markFold_stopped, State.fold_of_same (coolJudged_same rfl rfl ..), hu, Bool.or_true]

theorem each_establishes_of {I P : State → Prop} {f : Nat → State → State} {j : Nat} (hI : ∀ i s, I s → I (f i s))
    (hest : ∀ s, I s → P (f j s)) (hkeep : ∀ i s, I s → P s → P (f i s)) {l : List Nat} (hj : j ∈ l) {s : State} (hs : I s) :
    P (each l f s) := by
  obtain ⟨l1, l2, rfl⟩ := List.append_of_mem hj
  have h1 : I (each l1 f s) := each_keep l1 f hI hs
  have h2 : I (f j (each l1 f s)) ∧ P (f j (each l1 f s)) := ⟨hI j _ h1, hest _ h1⟩
  have h3 : I (each l2 f (f j (each l1 f s))) ∧ P (each l2 f (f j (each l1 f s))) :=
    each_keep (P := fun u => I u ∧ P u) l2 f (fun i u hu => ⟨hI i u hu.1, hkeep i u hu.1 hu.2⟩) h2
  rw [each, List.foldl_append]
  exact h3.2

theorem coolFolds_unarmed (a : Amb) (now : Nat) {k ch : Nat} (hk : k < 8) {s : State} (hch : ch ∈ s.chansOfFold k) :
    ((each (List.range 8) (coolFold a true now) s).chan ch).st ≠ .armed := by
  have hin {i : Nat} {u : State} (hu : ch ∈ u.chansOfFold k) : ch ∈ (coolJudged a i u).chansOfFold k := by
    rwa [State.chansOfFold_of_same (coolJudged_same rfl rfl ..)]
  refine each_establishes_of (I := fun u => ch ∈ u.chansOfFold k) (P := fun u => (u.chan ch).st ≠ .armed) (j := k)
    (fun i u hu => ?_) (fun u hu => ?_) (fun i u _ hu => ?_) (List.mem_range.2 hk) hch
  · rw [coolFold_rising, mem_chansOfFold_tripFold]
    exact hin hu
  · rw [coolFold_rising]
    exact tripFold_unarmed now _ (hin hu)
  · rw [coolFold_rising, tripFold_st, State.chan_of_same (coolJudged_same rfl rfl ..)]
    split
    · exact ChanSt.stop_ne_armed _
    · exact hu

theorem coolFolds_amb (a : Amb) (rises : Bool) (now : Nat) (s : State) : (each (List.range 8) (coolFold a rises now) s).amb = s.amb := by
  refine each_same State.amb (fun k u => ?_) _ s
  have hjudged : (coolJudged a k u).amb = u.amb := coolJudged_same (p := .amb) rfl rfl a k u
  cases rises
  · rwa [coolFold_steady]
  · rw [coolFold_rising]
    exact (tripFold_same (p := .amb) rfl k now (hotRep k) (coolJudged a k u) : Part.same .amb _ _).trans hjudged

theorem coolFolds_chans (a : Amb) (now : Nat) (s : State) : (each (List.range 8) (coolFold a false now) s).chans = s.chans :=
  each_same State.chans (fun k u => by rw [coolFold_steady]; exact coolJudged_same (p := .chans) rfl rfl a k u) _ s

-- ---- the measures of the coolant
theorem coolAmb_ok (reading : Option (BitVec 16)) (a : Amb) : (coolAmb reading a).ok = true ↔
    -1280 ≤ (reading.getD a.temp).toInt ∧ (reading.getD a.temp).toInt ≤ 6400 ∧ (reading ≠ none ∨ a.stale < 9) := by
  have hstale : a.stale + 1 < 10 ↔ a.stale < 9 := by omega
  cases reading with
  | none => simp [coolAmb, and_assoc, hstale]
  | some => simp [coolAmb]

theorem coolAmb_hist (reading : Option (BitVec 16)) (a : Amb) : (coolAmb reading a).hist =
    ((if -1280 ≤ (reading.getD a.temp).toInt ∧ (reading.getD a.temp).toInt ≤ 6400 then some (reading.getD a.temp).toInt else none) ::
      a.hist).take 1000 := by
  simp [coolAmb]

theorem coolAmb_hot (reading : Option (BitVec 16)) (a : Amb) : (coolAmb reading a).hot = true ↔
    3200 ≤ (coolAmb reading a).tin ∨ (a.hot = true ∧ 3072 ≤ (coolAmb reading a).tin) := by
  simp [coolAmb]

theorem coolantDerate_does (reading : Option (BitVec 16)) (now : Nat) (s : State) : Does (.coolantDerate reading now) s fun t =>
    let temp := (reading.getD s.amb.temp).toInt
    let x := if t.amb.ok = true then meanOf (t.amb.hist.filterMap id) else 2880
    t.amb.temp = reading.getD s.amb.temp ∧
    (t.amb.ok = true ↔ -1280 ≤ temp ∧ temp ≤ 6400 ∧ (reading ≠ none ∨ s.amb.stale < 9)) ∧
    t.amb.hist = ((if -1280 ≤ temp ∧ temp ≤ 6400 then some temp else none) :: s.amb.hist).take 1000 ∧
    t.amb.tin = x ∧ t.amb.kt = (if x ≤ 2240 then 1280 else (3520 - x).toNat) ∧
    (t.amb.hot = true ↔ 3200 ≤ x ∨ (s.amb.hot = true ∧ 3072 ≤ x)) ∧
    (t.amb.hot = true → ∀ k < 8, Reported (hotRep k) s t) ∧
    if t.amb.hot = true ∧ s.amb.hot = false then ∀ k < 8, (t.fold k).stopped = true ∧ ∀ ch ∈ s.chansOfFold k, (t.chan ch).st ≠ .armed
    else t.chans = s.chans := by
  refine ⟨_, coolantDerate_eq reading now s, ?_⟩
  dsimp only
  rw [coolFolds_amb]
  dsimp only
  have htin : (coolAmb reading s.amb).tin =
      if (coolAmb reading s.amb).ok = true then meanOf ((coolAmb reading s.amb).hist.filterMap id) else 2880 := rfl
  have hkt : (coolAmb reading s.amb).kt =
      if (coolAmb reading s.amb).tin ≤ 2240 then 1280 else (3520 - (coolAmb reading s.amb).tin).toNat := rfl
  rw [← htin]
  refine ⟨rfl, coolAmb_ok .., coolAmb_hist .., rfl, hkt, coolAmb_hot .., fun hhot k hk => ?_, ?_⟩
  · obtain ⟨hlive, hsent⟩ := coolFolds_stop hhot ((coolAmb reading s.amb).hot && !s.amb.hot) now hk { s with amb := coolAmb reading s.amb }
    exact ⟨hlive, hsent⟩
  · split
    next h =>
      rw [h.1, h.2]
      exact fun k hk => ⟨coolFolds_stopped _ now hk _, fun ch hch =>
        coolFolds_unarmed (s := { s with amb := coolAmb reading s.amb }) _ now hk hch⟩
    next h =>
      have hrises : ((coolAmb reading s.amb).hot && !s.amb.hot) = false := by
        simpa using h
      rw [hrises]
      exact coolFolds_chans _ now { s with amb := coolAmb reading s.amb }

end Sys2Proof.Machine
end

section
/-! SUPPORT. The measures of R214 and R215: what a renewal shows, stops by its reports, and leaves (log 147). -/

namespace Sys2Proof.Machine

open Sys2Proof

-- ---- a condition of an event register
/-- A report of a collector's own cause is none of an event register. -/
theorem ne_of_own {r : Report} (h : 240 ≤ r.cause) {bit : Nat} (hb : bit < 240) (src cls okind obj : Nat) :
    r ≠ mkRep src 0 bit cls okind obj := by
  rintro rfl
  simp only [mkRep] at h
  omega

theorem limitEvt_reg {a b : Nat} (hb : b ≠ a) (r : Report) (isOver : Bool) (s : State) : (limitEvt a r isOver s).reg b = s.reg b := by
  unfold limitEvt
  refine ite_keep (Q := fun u : State => u.reg b = s.reg b) (ite_keep (Q := fun u : State => u.reg b = s.reg b) rfl ?_)
    (ite_keep (Q := fun u : State => u.reg b = s.reg b) ?_ rfl)
  · rw [holdLive_reg, raise_reg, if_neg hb]
  · exact State.reg_of_same (condEnd_keep (.same (p := .regs) rfl s) _ s rfl) b

theorem limitEvt_same {p : Part} (hp : [Part.regs, .col, .host].contains p = false) (a : Nat) (r : Report) (isOver : Bool) (s : State) :
    p.same s (limitEvt a r isOver s) := limitEvt_keep (.same hp s) a r isOver s (p.same_refl s)

-- ---- the power of a channel (R214, R215)
/-- The output power of a channel, 0 where the list leaves it out. -/
def channelMw (l : List (Fin 512 × Int)) (ch : Nat) : Int := ((l.find? (fun e => e.1.val == ch)).map (·.2)).getD 0

theorem channelMw_of_mem {l : List (Fin 512 × Int)} (hd : (l.map (·.1.val)).Nodup) {x : Fin 512 × Int} (hx : x ∈ l) :
    channelMw l x.1.val = x.2 := by
  induction l with
  | nil => cases hx
  | cons y l ih =>
    rw [List.map_cons, List.nodup_cons] at hd
    rcases List.mem_cons.1 hx with rfl | hx
    · simp [channelMw]
    · have hne : y.1.val ≠ x.1.val := fun he => hd.1 (he ▸ List.mem_map_of_mem hx)
      have hskip : channelMw (y :: l) x.1.val = channelMw l x.1.val := by simp [channelMw, hne]
      rw [hskip]
      exact ih hd.2 hx

/-- The channel shows its power, and the warning of its reservation is judged. -/
def powerShown (k ch : Nat) (mw : Int) (s : State) : State :=
  limitEvt (foldEvt k) (mkRep (srcFold k) 0 10 1 1 ch) (decide (((s.chan ch).adm.power : Int) * 1000 < mw))
    (s.updChan ch (fun c => { c with powAvg := mw }))

theorem chanPower_eq (k : Nat) (foldOver : Bool) (ch : Nat) (mw : Int) (s : State) : chanPower k foldOver ch mw s =
    limitOwn (srcFold k) 6 2 1 ch (decide (5 * (((s.chan ch).adm.power : Int) * 1000) < 4 * mw) ||
      (foldOver && decide (((s.chan ch).adm.power : Int) * 1000 < mw))) (powerShown k ch mw s) := rfl

theorem powerShown_tells {r : Report} {c : Col} {s : State} (h : Tells r c s.col) (hown : 240 ≤ r.cause) (k ch : Nat) (mw : Int) :
    Tells r c (powerShown k ch mw s).col := by
  unfold powerShown
  refine limitEvt_tells ?_ _ _ (ne_of_own hown (bit := 10) (by decide) _ _ _ _)
  exact h

theorem powerShown_chan (k ch : Nat) (mw : Int) (s : State) (j : Nat) :
    ((powerShown k ch mw s).chan j).st = (s.chan j).st ∧ ((powerShown k ch mw s).chan j).adm = (s.chan j).adm := by
  rw [powerShown, State.chan_of_same (limitEvt_same rfl ..), State.updChan_eq, State.setChan_read]
  split
  next h => rw [h]; exact ⟨rfl, rfl⟩
  next => exact ⟨rfl, rfl⟩

theorem chanPower_chan (k : Nat) (foldOver : Bool) (ch : Nat) (mw : Int) (s : State) (j : Nat) :
    ((chanPower k foldOver ch mw s).chan j).st = (s.chan j).st ∧ ((chanPower k foldOver ch mw s).chan j).adm = (s.chan j).adm := by
  rw [chanPower_eq, State.chan_of_same (limitOwn_same rfl ..)]
  exact powerShown_chan k ch mw s j

theorem chanPower_reg {k a : Nat} (ha : a ≠ foldEvt k) (foldOver : Bool) (ch : Nat) (mw : Int) (s : State) :
    (chanPower k foldOver ch mw s).reg a = s.reg a := by
  rw [chanPower_eq, State.reg_of_same (limitOwn_same rfl ..), powerShown, limitEvt_reg ha]
  rfl

/-- A channel above 125 % of its reservation is stopped by its report. -/
theorem chanPower_reports {k ch : Nat} {mw : Int} {s : State} (foldOver : Bool) (h : 5000 * ((s.chan ch).adm.power : Int) < 4 * mw) :
    mkRep (srcFold k) 15 6 2 1 ch ∈ (chanPower k foldOver ch mw s).col.live := by
  rw [chanPower_eq, decide_eq_true (by linarith), Bool.true_or]
  exact (limitOwn_over (Tells.refl _ _)).2

theorem chanPower_tells {r : Report} {c : Col} {k ch : Nat} {mw : Int} {s : State} (h : Tells r c s.col) (hown : 240 ≤ r.cause) (foldOver : Bool)
    (hover : r = mkRep (srcFold k) 15 6 2 1 ch → 5000 * ((s.chan ch).adm.power : Int) < 4 * mw) :
    Tells r c (chanPower k foldOver ch mw s).col := by
  rw [chanPower_eq]
  refine limitOwn_tells_of (powerShown_tells h hown k ch mw) fun hr => ?_
  rw [decide_eq_true (by linarith [hover hr]), Bool.true_or]

/-- The power of each channel of the fold. -/
def budgetPower (k : Nat) (foldOver : Bool) (mw : Nat → Int) (s : State) : State :=
  each (s.chansOfFold k) (fun ch s => chanPower k foldOver ch (mw ch) s) s

theorem budgetPower_chan (k : Nat) (foldOver : Bool) (mw : Nat → Int) (s : State) (j : Nat) :
    ((budgetPower k foldOver mw s).chan j).st = (s.chan j).st :=
  each_same (fun u => (u.chan j).st) (fun ch u => (chanPower_chan k foldOver ch (mw ch) u j).1) _ s

theorem budgetPower_reg {k a : Nat} (ha : a ≠ foldEvt k) (foldOver : Bool) (mw : Nat → Int) (s : State) :
    (budgetPower k foldOver mw s).reg a = s.reg a :=
  each_same (fun u => u.reg a) (fun ch u => chanPower_reg ha foldOver ch (mw ch) u) _ s

theorem budgetPower_amb (k : Nat) (foldOver : Bool) (mw : Nat → Int) (s : State) : (budgetPower k foldOver mw s).amb = s.amb :=
  each_same State.amb (fun ch u => chanPower_keep (.same (p := .amb) rfl u) k foldOver ch (mw ch) u rfl) _ s

/-- The channels are admitted as in `s`. -/
def AdmAs (s u : State) : Prop := ∀ j, (u.chan j).adm = (s.chan j).adm

theorem AdmAs.chanPower {s u : State} (h : AdmAs s u) (k : Nat) (foldOver : Bool) (ch : Nat) (mw : Int) :
    AdmAs s (chanPower k foldOver ch mw u) := fun j => (chanPower_chan k foldOver ch mw u j).2.trans (h j)

theorem budgetPower_tells {r : Report} {c : Col} {k : Nat} {mw : Nat → Int} {s : State} (h : Tells r c s.col) (hown : 240 ≤ r.cause)
    (foldOver : Bool) (hover : ∀ ch, r = mkRep (srcFold k) 15 6 2 1 ch → 5000 * ((s.chan ch).adm.power : Int) < 4 * mw ch) :
    Tells r c (budgetPower k foldOver mw s).col := by
  refine (each_keep (P := fun u : State => Tells r c u.col ∧ AdmAs s u) _ _ (fun ch u hu => ?_) ⟨h, fun _ => rfl⟩).1
  obtain ⟨htells, hadm⟩ := hu
  refine ⟨chanPower_tells htells hown foldOver fun hr => ?_, hadm.chanPower _ _ _ _⟩
  rw [hadm]
  exact hover ch hr

theorem budgetPower_reports {k ch : Nat} {mw : Nat → Int} {s : State} (foldOver : Bool) (hch : ch ∈ s.chansOfFold k)
    (hover : 5000 * ((s.chan ch).adm.power : Int) < 4 * mw ch) :
    mkRep (srcFold k) 15 6 2 1 ch ∈ (budgetPower k foldOver mw s).col.live := by
  refine each_establishes_of (I := AdmAs s) (P := fun u => mkRep (srcFold k) 15 6 2 1 ch ∈ u.col.live) (j := ch)
    (fun i u hu => hu.chanPower _ _ _ _) (fun u hu => ?_) (fun i u hu hlive => ?_) hch (fun _ => rfl)
  · exact chanPower_reports foldOver (by rwa [hu])
  · refine (chanPower_tells (Tells.refl _ u.col) (by simp [mkRep]) foldOver fun hr => ?_).held hlive
    obtain rfl : ch = i := congrArg Report.object hr
    rwa [hu]

-- ---- the I²t measures of the terminals (R214)
/-- The I²t measure of a terminal after a millisecond at a current. -/
def State.i2tNext (s : State) (t ma : Nat) : W := BitVec.ofInt 32 (min 0xFFFFFFFF (max 0 (((s.reg (psReg t 0x14)).toNat : Int) +
  ((ma : Int) * ma - (s.icont t : Int) * s.icont t) / 1000)))

theorem termI2t_reg (t ma : Nat) (s : State) (a : Nat) : (termI2t t ma s).reg a = if a = psReg t 0x14 then s.i2tNext t ma else s.reg a :=
  State.setReg_reg ..

theorem psReg_ne_term {t u a b : Nat} (h : t ≠ u) (ha : a < 0x40) (hb : b < 0x40) : psReg t a ≠ psReg u b := by
  unfold psReg aFlock flockOf posOf
  omega

theorem State.i2tNext_of_reg {s u : State} {t : Nat} (h : ∀ a < 0x40, u.reg (psReg t a) = s.reg (psReg t a)) (ma : Nat) :
    u.i2tNext t ma = s.i2tNext t ma := by
  have hnseg : u.nseg t = s.nseg t := State.regField_of_reg (h 0x04 (by decide)) ..
  rw [State.i2tNext, State.i2tNext, State.icont, State.icont, hnseg, h 0x14 (by decide)]

theorem termI2t_other {t u : Nat} (h : t ≠ u) (ma : Nat) (s : State) {a : Nat} (ha : a < 0x40) :
    (termI2t u ma s).reg (psReg t a) = s.reg (psReg t a) := by
  rw [termI2t_reg, if_neg (psReg_ne_term h ha (by decide))]

/-- Each terminal of a list is renewed once. -/
theorem each_termI2t (cur : Nat → Nat) {l : List Nat} (hl : l.Nodup) {q : Nat} (s : State) (hq : q ∈ l) :
    (each l (fun t s => termI2t t (cur t) s) s).reg (psReg q 0x14) = s.i2tNext q (cur q) := by
  induction l generalizing s with
  | nil => cases hq
  | cons i l ih =>
    rw [List.nodup_cons] at hl
    rw [show each (i :: l) (fun t s => termI2t t (cur t) s) s = each l (fun t s => termI2t t (cur t) s) (termI2t i (cur i) s) from rfl]
    rcases List.mem_cons.1 hq with rfl | hq
    · refine (each_keep_mem (P := fun u : State => u.reg (psReg q 0x14) = s.i2tNext q (cur q)) (fun t ht u hu => ?_) ?_)
      · rw [termI2t_other (t := q) (u := t) (fun h => hl.1 (h ▸ ht)) _ _ (by decide), hu]
      · rw [termI2t_reg, if_pos rfl]
    · have hne : q ≠ i := fun h => hl.1 (h ▸ hq)
      rw [ih hl.2 _ hq, State.i2tNext_of_reg fun a ha => termI2t_other hne _ s ha]

/-- The terminals of a fold. -/
def foldTerms (k : Nat) : List Nat := (List.range 64).map (64 * k + ·)

theorem foldTerms_nodup (k : Nat) : (foldTerms k).Nodup := List.nodup_range.map (fun _ _ h => Nat.add_left_cancel h)

theorem mem_foldTerms {q k : Nat} (h : q / 64 = k) : q ∈ foldTerms k :=
  List.mem_map.2 ⟨q % 64, List.mem_range.2 (Nat.mod_lt _ (by decide)), by omega⟩

/-- The I²t measure of each terminal of the fold. -/
def budgetHeat (k : Nat) (cur : Nat → Nat) (s : State) : State := each (foldTerms k) (fun t s => termI2t t (cur t) s) s

theorem budgetHeat_same {p : Part} (hp : [Part.regs].contains p = false) (k : Nat) (cur : Nat → Nat) (s : State) :
    p.same s (budgetHeat k cur s) := each_keep _ _ (fun t u hu => termI2t_keep (.same hp s) t (cur t) u hu) (p.same_refl s)

theorem psReg_ne_foldBus (t k : Nat) {a : Nat} (ha : a < 0x40) : psReg t a ≠ foldBus k := psReg_ne_fold t k ha (by decide)

theorem budgetHeat_bus (k j : Nat) (cur : Nat → Nat) (s : State) : (budgetHeat k cur s).reg (foldBus j) = s.reg (foldBus j) :=
  each_same (fun u => u.reg (foldBus j)) (fun t u => by rw [termI2t_reg, if_neg (psReg_ne_foldBus t j (by decide)).symm]) _ s

/-- The stops of the channels of which a terminal is over its I²t limit. -/
def budgetLimits (k : Nat) (s : State) : State := each (foldTerms k) (chanI2t k) s

theorem budgetLimits_same {p : Part} (hp : [Part.col].contains p = false) (k : Nat) (s : State) : p.same s (budgetLimits k s) :=
  each_keep _ _ (fun t u hu => chanI2t_keep (.same hp s) k t u hu) (p.same_refl s)

theorem budgetLimits_tells {r : Report} {c : Col} {s : State} (h : Tells r c s.col) (h7 : r.cause ≠ 247) (k : Nat) :
    Tells r c (budgetLimits k s).col := by
  refine each_keep (P := fun u : State => Tells r c u.col) _ _ (fun t u hu => ?_) h
  unfold chanI2t
  split
  · exact hu
  · refine limitOwn_tells hu _ ?_
    rintro rfl
    exact h7 rfl

-- ---- the measures of the fold (R214, R216)
/-- The fold shows its bus and its power. -/
def budgetShown (k : Nat) (bus power : W) (ms : List Nat) (s : State) : State :=
  ((s.updFold k (fun f => { f with dissMs := ms })).setReg (foldBus k) bus).setReg (foldPower k) power

theorem budgetShown_reg (k : Nat) (bus power : W) (ms : List Nat) (s : State) (a : Nat) : (budgetShown k bus power ms s).reg a =
    if a = foldPower k then power else if a = foldBus k then bus else s.reg a := by
  rw [budgetShown, State.setReg_reg, State.setReg_reg, State.updFold_reg]

theorem budgetShown_same {p : Part} (hp : [Part.regs, .folds].contains p = false) (k : Nat) (bus power : W) (ms : List Nat) (s : State) :
    p.same s (budgetShown k bus power ms s) := by
  have hregs : Keeps [.regs] (p.same s) := (Keeps.same hp s).mono (by decide)
  exact hregs.setReg rfl _ _ (hregs.setReg rfl _ _ (updFold_keep ((Keeps.same hp s).mono (by decide)) k _ (p.same_refl s)))

/-- The warning of the fold's dissipation, with the stop of its power before it. -/
def budgetWarned (k : Nat) (powOver : Bool) (pdiss : Nat) (s : State) : State :=
  let u := limitOwn (srcFold k) 6 3 0 0 powOver s
  limitEvt (foldEvt k) (mkRep (srcFold k) 0 11 1 0 0) (decide (110000 * u.amb.kt < 1280 * pdiss)) u

/-- The stops of the fold: its power, its dissipation, its bus current. -/
def budgetFold (k : Nat) (powOver : Bool) (pdiss : Nat) (busOver : Bool) (s : State) : State :=
  let u := budgetWarned k powOver pdiss s
  let dissOver := decide (125000 * u.amb.kt < 1280 * pdiss)
  let v := u.updFold k (fun f => { f with diss := dissOver })
  limitOwn (srcFold k) 8 3 0 0 busOver (limitOwn (srcFold k) 9 3 0 0 (dissOver || v.amb.hot) v)

theorem budgetWarned_same {p : Part} (hp : [Part.regs, .col, .host].contains p = false) (hcol : [Part.col].contains p = false) (k : Nat)
    (powOver : Bool) (pdiss : Nat) (s : State) : p.same s (budgetWarned k powOver pdiss s) :=
  limitEvt_keep (.same hp s) _ _ _ _ (limitOwn_same hcol ..)

theorem budgetWarned_tells {r : Report} {c : Col} {k : Nat} {s : State} (h : Tells r c s.col) (hown : 240 ≤ r.cause)
    (h6 : r ≠ mkRep (srcFold k) 15 6 3 0 0) (powOver : Bool) (pdiss : Nat) : Tells r c (budgetWarned k powOver pdiss s).col :=
  limitEvt_tells (limitOwn_tells h powOver h6) _ _ (ne_of_own hown (bit := 11) (by decide) _ _ _ _)

theorem budgetWarned_reg {k a : Nat} (ha : a ≠ foldEvt k) (powOver : Bool) (pdiss : Nat) (s : State) :
    (budgetWarned k powOver pdiss s).reg a = s.reg a :=
  (limitEvt_reg ha ..).trans (State.reg_of_same (limitOwn_same rfl ..) a)

/-- The fold with its dissipation judged, after the warning. -/
def budgetJudged (k : Nat) (powOver : Bool) (pdiss : Nat) (s : State) : State :=
  (budgetWarned k powOver pdiss s).updFold k (fun f => { f with diss := decide (125000 * s.amb.kt < 1280 * pdiss) })

theorem budgetFold_eq (k : Nat) (powOver : Bool) (pdiss : Nat) (busOver : Bool) (s : State) : budgetFold k powOver pdiss busOver s =
    limitOwn (srcFold k) 8 3 0 0 busOver (limitOwn (srcFold k) 9 3 0 0 (decide (125000 * s.amb.kt < 1280 * pdiss) || s.amb.hot)
      (budgetJudged k powOver pdiss s)) := by
  have hamb : (budgetWarned k powOver pdiss s).amb = s.amb := budgetWarned_same (p := .amb) rfl rfl ..
  have hjudged : (budgetJudged k powOver pdiss s).amb = s.amb := hamb
  unfold budgetFold
  dsimp only
  rw [hamb, show (State.updFold _ k _).amb = s.amb from hjudged]
  rfl

theorem budgetFold_reg {k a : Nat} (ha : a ≠ foldEvt k) (powOver : Bool) (pdiss : Nat) (busOver : Bool) (s : State) :
    (budgetFold k powOver pdiss busOver s).reg a = s.reg a := by
  rw [budgetFold_eq, State.reg_of_same (limitOwn_same rfl ..), State.reg_of_same (limitOwn_same rfl ..), budgetJudged, State.updFold_reg,
    budgetWarned_reg ha]

theorem budgetFold_chans (k : Nat) (powOver : Bool) (pdiss : Nat) (busOver : Bool) (s : State) :
    (budgetFold k powOver pdiss busOver s).chans = s.chans := by
  rw [budgetFold_eq]
  have hwarned : (budgetWarned k powOver pdiss s).chans = s.chans := budgetWarned_same (p := .chans) rfl rfl ..
  have hjudged : (budgetJudged k powOver pdiss s).chans = s.chans := hwarned
  exact limitOwn_keep (.same (p := .chans) rfl s) _ _ _ _ _ _ _ (limitOwn_keep (.same (p := .chans) rfl s) _ _ _ _ _ _ _ hjudged)

theorem budgetFold_tells {r : Report} {c : Col} {k : Nat} {powOver : Bool} {pdiss : Nat} {busOver : Bool} {s : State} (h : Tells r c s.col)
    (hown : 240 ≤ r.cause) (h6 : r ≠ mkRep (srcFold k) 15 6 3 0 0)
    (h9 : r = mkRep (srcFold k) 15 9 3 0 0 → 125000 * s.amb.kt < 1280 * pdiss ∨ s.amb.hot = true)
    (h8 : r = mkRep (srcFold k) 15 8 3 0 0 → busOver = true) : Tells r c (budgetFold k powOver pdiss busOver s).col := by
  rw [budgetFold_eq]
  refine limitOwn_tells_of (limitOwn_tells_of (s := budgetJudged k powOver pdiss s) (budgetWarned_tells h hown h6 powOver pdiss) fun hr => ?_) h8
  simpa using h9 hr

/-- A dissipation over its limit, or hot coolant, stops the fold by its report. -/
theorem budgetFold_hot {k : Nat} {pdiss : Nat} {s : State} (powOver busOver : Bool) (h : 125000 * s.amb.kt < 1280 * pdiss ∨ s.amb.hot = true) :
    mkRep (srcFold k) 15 9 3 0 0 ∈ (budgetFold k powOver pdiss busOver s).col.live := by
  rw [budgetFold_eq, show (decide (125000 * s.amb.kt < 1280 * pdiss) || s.amb.hot) = true by simpa using h]
  refine (limitOwn_tells (Tells.refl _ _) busOver (mkRep_ne (.inr (.inl (by decide))))).held ?_
  exact (limitOwn_over (Tells.refl _ _)).2

theorem budgetFold_bus {k : Nat} {busOver : Bool} (h : busOver = true) (powOver : Bool) (pdiss : Nat) (s : State) :
    mkRep (srcFold k) 15 8 3 0 0 ∈ (budgetFold k powOver pdiss busOver s).col.live := by
  rw [budgetFold_eq, h]
  exact (limitOwn_over (Tells.refl _ _)).2

end Sys2Proof.Machine
end

section
/-! SUPPORT. A renewal of the budgets as a whole, and the stops of a fold (R204, R212, R214, R215, R217, R440, R548, R549). -/

namespace Sys2Proof.Machine

open Sys2Proof

-- ---- up to the measures of the fold
/-- A renewal up to the measures of the fold itself. -/
def budgetMeasured (k : Nat) (foldOver : Bool) (bus power : W) (ms : List Nat) (mw : Nat → Int) (cur : Nat → Nat) (s : State) : State :=
  budgetLimits k (budgetHeat k cur (budgetPower k foldOver mw (budgetShown k bus power ms s)))

theorem psReg_ne_foldPower (t k : Nat) {a : Nat} (ha : a < 0x40) : psReg t a ≠ foldPower k := psReg_ne_fold t k ha (by decide)

section
variable (k : Nat) (foldOver : Bool) (bus power : W) (ms : List Nat) (mw : Nat → Int) (cur : Nat → Nat) (s : State)

theorem budgetMeasured_bus : (budgetMeasured k foldOver bus power ms mw cur s).reg (foldBus k) = bus := by
  have hevt : foldBus k ≠ foldEvt k := by
    unfold foldBus foldEvt
    omega
  have hpower : foldBus k ≠ foldPower k := by
    unfold foldBus foldPower
    omega
  rw [budgetMeasured, State.reg_of_same (budgetLimits_same rfl ..), budgetHeat_bus, budgetPower_reg hevt, budgetShown_reg, if_neg hpower,
    if_pos rfl]

theorem budgetMeasured_st (j : Nat) : ((budgetMeasured k foldOver bus power ms mw cur s).chan j).st = (s.chan j).st := by
  rw [budgetMeasured, State.chan_of_same (budgetLimits_same rfl ..), State.chan_of_same (budgetHeat_same rfl ..), budgetPower_chan,
    State.chan_of_same (budgetShown_same rfl ..)]

theorem budgetMeasured_amb : (budgetMeasured k foldOver bus power ms mw cur s).amb = s.amb := by
  have hshown : (budgetShown k bus power ms s).amb = s.amb := budgetShown_same (p := .amb) rfl ..
  have hpower := (budgetPower_amb k foldOver mw (budgetShown k bus power ms s)).trans hshown
  have hheat : (budgetHeat k cur (budgetPower k foldOver mw (budgetShown k bus power ms s))).amb = _ := budgetHeat_same (p := .amb) rfl ..
  have hlimits : (budgetMeasured k foldOver bus power ms mw cur s).amb = _ := budgetLimits_same (p := .amb) rfl ..
  exact hlimits.trans (hheat.trans hpower)

theorem budgetMeasured_i2t {q : Nat} (hq : q / 64 = k) :
    (budgetMeasured k foldOver bus power ms mw cur s).reg (psReg q 0x14) = s.i2tNext q (cur q) := by
  rw [budgetMeasured, State.reg_of_same (budgetLimits_same rfl ..), budgetHeat, each_termI2t cur (foldTerms_nodup k) _ (mem_foldTerms hq)]
  refine State.i2tNext_of_reg (fun a ha => ?_) _
  rw [budgetPower_reg (psReg_ne_foldEvt q k ha), budgetShown_reg, if_neg (psReg_ne_foldPower q k ha),
    if_neg (psReg_ne_foldBus q k ha)]

variable {k mw s}

theorem budgetShown_tells {r : Report} {c : Col} (h : Tells r c s.col) : Tells r c (budgetShown k bus power ms s).col := by
  rwa [show (budgetShown k bus power ms s).col = s.col from budgetShown_same (p := .col) rfl ..]

theorem budgetHeat_tells {r : Report} {c : Col} (h : Tells r c s.col) : Tells r c (budgetHeat k cur s).col := by
  rwa [show (budgetHeat k cur s).col = s.col from budgetHeat_same (p := .col) rfl ..]

theorem budgetMeasured_tells {r : Report} {c : Col} (h : Tells r c s.col) (hown : 240 ≤ r.cause) (h7 : r.cause ≠ 247)
    (hover : ∀ ch, r = mkRep (srcFold k) 15 6 2 1 ch → 5000 * ((s.chan ch).adm.power : Int) < 4 * mw ch) :
    Tells r c (budgetMeasured k foldOver bus power ms mw cur s).col := by
  rw [budgetMeasured]
  refine budgetLimits_tells (budgetHeat_tells cur (budgetPower_tells (budgetShown_tells bus power ms h) hown foldOver fun ch hr => ?_)) h7 k
  rw [State.chan_of_same (budgetShown_same rfl ..)]
  exact hover ch hr

theorem budgetMeasured_reports {ch : Nat} (hch : ch ∈ s.chansOfFold k) (hover : 5000 * ((s.chan ch).adm.power : Int) < 4 * mw ch) :
    mkRep (srcFold k) 15 6 2 1 ch ∈ (budgetMeasured k foldOver bus power ms mw cur s).col.live := by
  rw [budgetMeasured]
  refine (budgetLimits_tells (budgetHeat_tells cur (Tells.refl _ _)) (by simp [mkRep]) k).held (budgetPower_reports foldOver ?_ ?_)
  · rwa [State.chansOfFold_of_same (budgetShown_same rfl ..)]
  · rwa [State.chan_of_same (budgetShown_same rfl ..)]

end

/-- The report of a channel above its reservation, and those of a fold. -/
def powerRep (k ch : Nat) : Report := mkRep (srcFold k) 15 6 2 1 ch
def busRep (k : Nat) : Report := mkRep (srcFold k) 15 8 3 0 0

section
variable {k : Nat} {c : Col} {m : State}

/-- What the measures of the fold do later takes back no report of a channel's power. -/
theorem budgetFold_tells_power {ch : Nat} (h : Tells (powerRep k ch) c m.col) (powOver : Bool) (pdiss : Nat) (busOver : Bool) :
    Tells (powerRep k ch) c (budgetFold k powOver pdiss busOver m).col := by
  refine budgetFold_tells h (by simp [powerRep, mkRep]) (mkRep_ne (.inr (.inr (.inl (by decide))))) (fun hr => ?_) (fun hr => ?_)
  · exact absurd hr (mkRep_ne (.inr (.inl (by decide))))
  · exact absurd hr (mkRep_ne (.inr (.inl (by decide))))

theorem budgetFold_tells_hot {pdiss : Nat} (h : Tells (hotRep k) c m.col) (powOver busOver : Bool)
    (hhot : 125000 * m.amb.kt < 1280 * pdiss ∨ m.amb.hot = true) : Tells (hotRep k) c (budgetFold k powOver pdiss busOver m).col := by
  refine budgetFold_tells h (by simp [hotRep, mkRep]) (mkRep_ne (.inr (.inl (by decide)))) (fun _ => hhot) (fun hr => ?_)
  exact absurd hr (mkRep_ne (.inr (.inl (by decide))))

theorem budgetFold_tells_bus {busOver : Bool} (h : Tells (busRep k) c m.col) (powOver : Bool) (pdiss : Nat) (hbus : busOver = true) :
    Tells (busRep k) c (budgetFold k powOver pdiss busOver m).col := by
  refine budgetFold_tells h (by simp [busRep, mkRep]) (mkRep_ne (.inr (.inl (by decide)))) (fun hr => ?_) (fun _ => hbus)
  exact absurd hr (mkRep_ne (.inr (.inl (by decide))))

/-- Up to them no report of the fold itself is taken back. -/
theorem budgetMeasured_tells_fold {bit : Nat} (hbit : 7 < bit) {s : State} (h : Tells (mkRep (srcFold k) 15 bit 3 0 0) c s.col) (foldOver : Bool)
    (bus power : W) (ms : List Nat) (mw : Nat → Int) (cur : Nat → Nat) :
    Tells (mkRep (srcFold k) 15 bit 3 0 0) c (budgetMeasured k foldOver bus power ms mw cur s).col := by
  refine budgetMeasured_tells foldOver bus power ms cur h (by simp [mkRep]) ?_ fun ch hr => ?_
  · simp only [mkRep]
    omega
  · exact absurd hr (mkRep_ne (.inr (.inl (by omega))))

end

-- ---- FOLD_BUDGET_RENEWAL (R214, R215)
/-- The mean dissipation that a renewal finds. -/
def State.nextDiss (s : State) (k : Nat) (busV : BitVec 16) (ma : List (Fin 512 × Nat)) : Nat :=
  dissMean ((s.foldDiss k busV.toNat ma :: (s.fold k).dissMs).take 1000)

/-- The bus current of a fold is over its limit. -/
def busOver (busI busI10 : BitVec 16) : Bool := decide (busI.toInt > 3000) || decide (busI10.toInt > 9000)

section
variable (k : Nat) (busV busNow busI busI10 : BitVec 16) (pout : Int) (mw : List (Fin 512 × Int)) (ma : List (Fin 512 × Nat)) (s : State)

/-- A renewal measures, then judges the fold. -/
theorem renewBudget_eq : ∃ foldOver powOver power ms, renewBudget k busV busNow busI busI10 pout mw ma s =
    budgetFold k powOver (s.nextDiss k busV ma) (busOver busI busI10) (budgetMeasured k foldOver
      (BitVec.ofNat 32 (busV.toNat * 65536 + busNow.toNat)) power ms (channelMw mw) (termCurrent ma) s) := by
  unfold State.nextDiss busOver budgetMeasured
  exact ⟨_, _, _, _, rfl⟩

theorem renewBudget_bus : (renewBudget k busV busNow busI busI10 pout mw ma s).reg (foldBus k) =
    BitVec.ofNat 32 (busV.toNat * 65536 + busNow.toNat) := by
  obtain ⟨foldOver, powOver, power, ms, h⟩ := renewBudget_eq k busV busNow busI busI10 pout mw ma s
  have hevt : foldBus k ≠ foldEvt k := by
    unfold foldBus foldEvt
    omega
  rw [h, budgetFold_reg hevt, budgetMeasured_bus]

theorem renewBudget_st (j : Nat) : ((renewBudget k busV busNow busI busI10 pout mw ma s).chan j).st = (s.chan j).st := by
  obtain ⟨foldOver, powOver, power, ms, h⟩ := renewBudget_eq k busV busNow busI busI10 pout mw ma s
  rw [h, State.chan_of_same (budgetFold_chans ..), budgetMeasured_st]

theorem renewBudget_i2t {q : Nat} (hq : q / 64 = k) :
    (renewBudget k busV busNow busI busI10 pout mw ma s).reg (psReg q 0x14) = s.i2tNext q (termCurrent ma q) := by
  obtain ⟨foldOver, powOver, power, ms, h⟩ := renewBudget_eq k busV busNow busI busI10 pout mw ma s
  rw [h, budgetFold_reg (psReg_ne_foldEvt q k (by decide)), budgetMeasured_i2t _ _ _ _ _ _ _ _ hq]

variable {k mw s}

theorem renewBudget_overpower (hd : (mw.map (·.1.val)).Nodup) {x : Fin 512 × Int} (hx : x ∈ mw) (hch : x.1.val ∈ s.chansOfFold k)
    (hover : 5000 * ((s.chan x.1.val).adm.power : Int) < 4 * x.2) :
    Reported (powerRep k x.1.val) s (renewBudget k busV busNow busI busI10 pout mw ma s) := by
  obtain ⟨foldOver, powOver, power, ms, h⟩ := renewBudget_eq k busV busNow busI busI10 pout mw ma s
  rw [← channelMw_of_mem hd hx] at hover
  rw [h]
  have hlive := (budgetFold_tells_power (Tells.refl _ _) powOver (s.nextDiss k busV ma) (busOver busI busI10)).held
    (budgetMeasured_reports foldOver (BitVec.ofNat 32 (busV.toNat * 65536 + busNow.toNat)) power ms (termCurrent ma) hch hover)
  refine Tells.reported (budgetFold_tells_power (budgetMeasured_tells _ _ _ _ _ (Tells.refl _ _) ?_ ?_ fun ch hr => ?_) ..) hlive
  · simp [powerRep, mkRep]
  · simp [powerRep, mkRep]
  · obtain rfl : x.1.val = ch := congrArg Report.object hr
    exact hover

theorem renewBudget_hot (hhot : 125000 * s.amb.kt < 1280 * s.nextDiss k busV ma ∨ s.amb.hot = true) :
    Reported (hotRep k) s (renewBudget k busV busNow busI busI10 pout mw ma s) := by
  obtain ⟨foldOver, powOver, power, ms, h⟩ := renewBudget_eq k busV busNow busI busI10 pout mw ma s
  rw [← budgetMeasured_amb k foldOver (BitVec.ofNat 32 (busV.toNat * 65536 + busNow.toNat)) power ms (channelMw mw) (termCurrent ma) s] at hhot
  rw [h]
  exact Tells.reported (budgetFold_tells_hot (budgetMeasured_tells_fold (by decide) (Tells.refl _ _) ..) _ _ hhot) (budgetFold_hot _ _ hhot)

theorem renewBudget_overcurrent (hbus : 3000 < busI.toInt ∨ 9000 < busI10.toInt) :
    Reported (busRep k) s (renewBudget k busV busNow busI busI10 pout mw ma s) := by
  obtain ⟨foldOver, powOver, power, ms, h⟩ := renewBudget_eq k busV busNow busI busI10 pout mw ma s
  have hover : busOver busI busI10 = true := by simpa [busOver] using hbus
  rw [h]
  exact Tells.reported (budgetFold_tells_bus (budgetMeasured_tells_fold (by decide) (Tells.refl _ _) ..) _ _ hover) (budgetFold_bus hover ..)

end

theorem clearWaits_reg (k : Nat) (s : State) (a : Nat) : (clearWaits k s).reg a = s.reg a := rfl
theorem clearWaits_chan (k : Nat) (s : State) (j : Nat) : (clearWaits k s).chan j = s.chan j := rfl
theorem clearWaits_amb (k : Nat) (s : State) : (clearWaits k s).amb = s.amb := rfl
theorem clearWaits_foldDiss (k : Nat) (s : State) (j v : Nat) (l : List (Fin 512 × Nat)) :
    (clearWaits k s).foldDiss j v l = s.foldDiss j v l := rfl
theorem clearWaits_dissMs (k : Nat) (s : State) : ((clearWaits k s).fold k).dissMs = (s.fold k).dissMs := by
  rw [clearWaits, State.updFold_fold]

theorem Reported.of_clearWaits {r : Report} {k : Nat} {s t : State} (h : Reported r (clearWaits k s) t) : Reported r s t := h

theorem foldBudgetRenewal_wf {k : Fin 8} {busV busNow busI busI10 : BitVec 16} {pout : Int} {mw : List (Fin 512 × Int)}
    {ma : List (Fin 512 × Nat)} {now : Nat} (h : (Instr.foldBudgetRenewal k busV busNow busI busI10 pout mw ma now).wf = true) :
    (mw.map (·.1.val)).Nodup := by
  simp only [Instr.wf, Bool.and_eq_true] at h
  obtain ⟨-, ⟨-, hchans⟩, -⟩ := h
  exact of_decide_eq_true hchans

theorem foldBudgetRenewal_does (k : Fin 8) (busV busNow busI busI10 : BitVec 16) (pout : Int) (mw : List (Fin 512 × Int))
    (ma : List (Fin 512 × Nat)) (now : Nat) (s : State) (hwf : (Instr.foldBudgetRenewal k busV busNow busI busI10 pout mw ma now).wf = true) :
    Does (.foldBudgetRenewal k busV busNow busI busI10 pout mw ma now) s fun t =>
      if s.foldServed k.val now = false then (t.fold k.val).waits = (s.fold k.val).waits ++ [.budget busV busNow busI busI10 pout mw ma] ∧
        t.regs = s.regs ∧ t.chans = s.chans ∧ t.col = s.col
      else (s.fold k.val).waits = [] →
      let pdiss := dissMean ((s.foldDiss k.val busV.toNat ma :: (s.fold k.val).dissMs).take 1000)
      t.reg (foldBus k.val) = BitVec.ofNat 32 (busV.toNat * 65536 + busNow.toNat) ∧ (∀ ch, (t.chan ch).st = (s.chan ch).st) ∧
      (∀ x ∈ mw, (s.chan x.1.val).live = true → (s.chan x.1.val).foldIx = k.val → 5000 * ((s.chan x.1.val).adm.power : Int) < 4 * x.2 →
        Reported (powerRep k.val x.1.val) s t) ∧
      (∀ q < 512, q / 64 = k.val → t.reg (psReg q 0x14) = s.i2tNext q (termCurrent ma q)) ∧
      (125000 * s.amb.kt < 1280 * pdiss ∨ s.amb.hot = true → Reported (hotRep k.val) s t) ∧
      (3000 < busI.toInt ∨ 9000 < busI10.toInt → Reported (busRep k.val) s t) := by
  refine ⟨onFold k.val now (.budget busV busNow busI busI10 pout mw ma) s, rfl, ?_⟩
  by_cases hserved : s.foldServed k.val now = true
  · beta_reduce
    rw [if_neg (by simp [hserved])]
    intro hw pdiss
    have hdiss : (clearWaits k.val s).nextDiss k.val busV ma = pdiss := by
      rw [State.nextDiss, clearWaits_foldDiss, clearWaits_dissMs]
    rw [onFold_served _ hserved hw, runWait]
    refine ⟨renewBudget_bus .., fun ch => (renewBudget_st ..).trans (by rw [clearWaits_chan]), fun x hx hlive hfold hover => ?_, fun q _ hq => ?_,
      fun hhot => ?_, fun hbus => ?_⟩
    · have hch : x.1.val ∈ (clearWaits k.val s).chansOfFold k.val := by
        rw [mem_chansOfFold, clearWaits_chan]
        exact ⟨hlive, hfold⟩
      exact (renewBudget_overpower busV busNow busI busI10 pout ma (foldBudgetRenewal_wf hwf) hx hch (by rwa [clearWaits_chan])).of_clearWaits
    · rw [renewBudget_i2t _ _ _ _ _ _ _ _ _ hq, State.i2tNext_of_reg fun a _ => clearWaits_reg ..]
    · exact (renewBudget_hot busV busNow busI busI10 pout ma (by rwa [hdiss, clearWaits_amb])).of_clearWaits
    · exact (renewBudget_overcurrent busV busNow busI busI10 pout ma hbus).of_clearWaits
  · beta_reduce
    rw [if_pos (by simpa using hserved), onFold_waits _ hserved]
    exact ⟨State.updFold_waits .., rfl, rfl, rfl⟩

/-- Settles O27: each clause is the lemma of its row; stops of a fold by `stopFold_unarmed`, reports of a condition by `Tells.reported`. -/
theorem foldTripsStopEveryChannelOfTheFold : Obligations.FoldTripsStopEveryChannelOfTheFold := by
  unfold Obligations.FoldTripsStopEveryChannelOfTheFold
  exact ⟨terminalOvercurrent_one, terminalOvercurrent_snoc, foldTrip_list, foldTrip_one, ftbLoss_does, ftbReturn_does, busRise_does,
    stageOvertempWarn_does, foldCfgWrite_does, coolantDerate_does, foldBudgetRenewal_does⟩

end Sys2Proof.Machine
end

section
/-! SUPPORT. The words of the x registers, pointers and flags: what a word at its opcode does, saturation and division (R222, R251 to R264). -/

namespace Sys2Proof.Machine

open Sys2Proof

-- ---- a run written twice
theorem filter_ne_tins {α : Type} (k : Nat) (v : α) (t : Tab α) :
    (tins k v t).filter (fun e => e.1 != k) = t.filter (fun e => e.1 != k) := by
  induction t with
  | nil => simp [tins]
  | cons e t ih =>
    obtain ⟨i, w⟩ := e
    simp only [tins]
    split
    · simp
    · simp only [List.filter_cons, ih]

theorem tset_tset {α : Type} [DecidableEq α] (d v w : α) (t : Tab α) (k : Nat) : tset d (tset d t k v) k w = tset d t k w := by
  have hdrop : (tset d t k v).filter (fun e => e.1 != k) = t.filter (fun e => e.1 != k) := by
    unfold tset
    dsimp only
    split
    · rw [List.filter_filter]; simp
    · rw [filter_ne_tins, List.filter_filter]; simp
  unfold tset at hdrop ⊢
  rw [hdrop]

theorem State.setRun_setRun (s : State) (e : Nat) (x y : Run) : (s.setRun e x).setRun e y = s.setRun e y := by
  simp only [State.setRun, tset_tset]

theorem State.updRun_eq (s : State) (e : Nat) (f : Run → Run) : s.updRun e f = s.setRun e (f (s.run e)) := rfl

-- ---- a word at its opcode (R250, R253)
theorem iaStep_atWord {op : Nat} {e : Fin 160} {w : W} {s : State} (h : s.atWord e op w) (cost : Nat) (f : W → State → State) :
    iaStep op cost e.val 0 f s = (f w s).updRun e.val (fun r => r.advance cost) := by
  obtain ⟨hlive, -, hword, hop, hskip⟩ := h
  simp [iaStep, hword, hlive, hop, wordFinding, Nat.not_lt.2 hskip]

/-- The row of a word that writes its run: the run goes on from what it wrote. -/
theorem does_word {row : Instr} {op cost : Nat} {e : Fin 160} {w : W} {s : State} {f : W → State → State} {x r : Run}
    (hrow : exec row s = .next (iaStep op cost e.val 0 f s)) (h : s.atWord e op w) (hf : f w s = s.setRun e.val x)
    (hr : x.advance cost = r) : Does row s fun t => RunIs e s t r := by
  refine ⟨_, hrow, ?_⟩
  unfold RunIs
  rw [iaStep_atWord h, hf, State.updRun_eq, State.setRun_setRun, State.setRun_read, if_pos rfl, hr]

-- ---- saturation to 16 bits (R260)
theorem sat16_eq (y : Int) : sat16 y = (max (-32768) (min 32767 y), decide (y < -32768 ∨ 32767 < y)) := by
  refine Prod.ext rfl ?_
  change (decide (32767 < y) || decide (y < -32768)) = _
  rw [Bool.or_comm, Bool.decide_or]

theorem Run.putX_advance (r : Run) (d : Nat) (y : Int) (cost : Nat) : let o := decide (y < -32768 ∨ 32767 < y)
    (r.putX d (sat16 y)).advance cost =
      { r.advance cost with x := tset 0 r.x d (BitVec.ofInt 16 (max (-32768) (min 32767 y))), v := o, sat := r.sat || o } := by
  rw [sat16_eq]
  rfl

-- ---- division to the nearest, ties away from 0 (R263)
/-- The quotient is a nearest one, and of two as near the one farther from 0. -/
theorem roundDiv_near (a : Int) {b : Int} (hb : 0 < b) : let q := roundDiv a b
    2 * absI (a - q * b) ≤ b ∧ (2 * absI (a - q * b) = b → absI a ≤ absI (q * b)) := by
  have near (n : Int) : ((2 * n + b).fdiv (2 * b)) * b * 2 ≤ 2 * n + b ∧ 2 * n + b < ((2 * n + b).fdiv (2 * b)) * b * 2 + 2 * b := by
    have hle := Int.ediv_mul_le (2 * n + b) (b := 2 * b) (by omega)
    have hlt := Int.lt_ediv_add_one_mul_self (2 * n + b) (show 0 < 2 * b by omega)
    rw [Int.fdiv_eq_ediv_of_nonneg _ (by omega)]
    constructor <;> linarith
  intro q
  unfold q roundDiv absI
  by_cases ha : a < 0
  · obtain ⟨hlo, hhi⟩ := near (-a)
    rw [if_pos ha, neg_mul]
    generalize ((2 * -a + b).fdiv (2 * b)) * b = m at *
    split_ifs <;> omega
  · obtain ⟨hlo, hhi⟩ := near a
    rw [if_neg ha]
    generalize ((2 * a + b).fdiv (2 * b)) * b = m at *
    split_ifs <;> omega

theorem divOf_zero (a : Int) : divOf a 0 = (if 0 ≤ a then 32767 else -32768, true, true) := rfl

theorem divOf_near (a : Int) {b : Int} (hb : b ≠ 0) : ∃ q : Int, 2 * absI (a - q * (2 * b)) ≤ absI (2 * b) ∧
    (2 * absI (a - q * (2 * b)) = absI (2 * b) → absI a ≤ absI (q * (2 * b))) ∧ divOf a b = ((sat16 q).1, (sat16 q).2, false) := by
  by_cases hneg : b < 0
  · refine ⟨roundDiv (-a) (-(2 * b)), ?_⟩
    have h := roundDiv_near (-a) (show 0 < -(2 * b) by omega)
    simp only [divOf, if_neg hb, if_pos hneg, mul_neg, and_true] at h ⊢
    generalize roundDiv (-a) (-(2 * b)) * (2 * b) = m at *
    unfold absI at *
    split_ifs at * <;> omega
  · refine ⟨roundDiv a (2 * b), ?_⟩
    have h := roundDiv_near a (show 0 < 2 * b by omega)
    simp only [divOf, if_neg hb, if_neg hneg, and_true] at h ⊢
    rwa [show absI (2 * b) = 2 * b from if_neg (by omega)]

-- ---- the rows of O58
theorem does_putX {row : Instr} {op d : Nat} {e : Fin 160} {w : W} {s : State} {f : W → State → State} {y : Int}
    (hrow : exec row s = .next (iaStep op 1 e.val 0 f s)) (h : s.atWord e op w)
    (hf : f w s = s.setRun e.val ((s.run e.val).putX d (sat16 y))) : let r := s.run e.val; let o := decide (y < -32768 ∨ 32767 < y)
    Does row s fun t => RunIs e s t
      { r.advance 1 with x := tset 0 r.x d (BitVec.ofInt 16 (max (-32768) (min 32767 y))), v := o, sat := r.sat || o } :=
  does_word hrow h hf (Run.putX_advance ..)

theorem Run.setX_min (r : Run) (d i j : Nat) :
    r.setX d (min (r.xi i) (r.xi j)) = r.setXw d (if r.xi i ≤ r.xi j then r.xw i else r.xw j) := by
  by_cases h : r.xi i ≤ r.xi j
  · rw [min_eq_left h, if_pos h, Run.setX, Run.xi, BitVec.ofInt_toInt]
  · rw [min_eq_right (le_of_not_ge h), if_neg h, Run.setX, Run.xi, BitVec.ofInt_toInt]

theorem Run.setX_max (r : Run) (d i j : Nat) :
    r.setX d (max (r.xi i) (r.xi j)) = r.setXw d (if r.xi i ≤ r.xi j then r.xw j else r.xw i) := by
  by_cases h : r.xi i ≤ r.xi j
  · rw [max_eq_right h, if_pos h, Run.setX, Run.xi, BitVec.ofInt_toInt]
  · rw [max_eq_left (le_of_not_ge h), if_neg h, Run.setX, Run.xi, BitVec.ofInt_toInt]

theorem ux_eq (n : Nat) (y : Int) : ux n y = (BitVec.ofInt n y).toNat := (BitVec.toNat_ofInt ..).symm

theorem ofNat_ux16 (y : Int) : BitVec.ofNat 16 (ux 16 y) = BitVec.ofInt 16 y := by
  rw [ux_eq, BitVec.ofNat_toNat, BitVec.setWidth_eq]

theorem iaDiv_does {e : Fin 160} {w : W} {s : State} (h : s.atWord e 0x30 w) : let r := s.run e.val
    Does (.iaDiv e 0) s fun t => let a := r.aci (fAcA w); let b := r.xi (fXb w)
      if b = 0 then RunIs e s t { r.advance 16 with
        x := tset 0 r.x (fXd w) (BitVec.ofInt 16 (if 0 ≤ a then 32767 else -32768)), v := true, sat := true, dz := true }
      else ∃ q : Int, (2 * absI (a - q * (2 * b)) ≤ absI (2 * b)) ∧ (2 * absI (a - q * (2 * b)) = absI (2 * b) → absI a ≤ absI (q * (2 * b))) ∧
        RunIs e s t { r.advance 16 with x := tset 0 r.x (fXd w) (BitVec.ofInt 16 (max (-32768) (min 32767 q)))
                                        v := decide (q < -32768 ∨ 32767 < q), sat := r.sat || decide (q < -32768 ∨ 32767 < q) } := by
  intro r
  obtain ⟨t, hrow, ht⟩ := does_word (row := .iaDiv e 0) rfl h rfl rfl
  refine ⟨t, hrow, ?_⟩
  dsimp only
  by_cases hb : r.xi (fXb w) = 0
  · rw [if_pos hb]
    simp only [hb, divOf_zero, Run.setX, Run.setXw, Run.setV, r, Bool.or_true] at ht ⊢
    exact ht
  · rw [if_neg hb]
    obtain ⟨q, hnear, htie, hdiv⟩ := divOf_near (r.aci (fAcA w)) hb
    refine ⟨q, hnear, htie, ?_⟩
    simp only [hdiv, sat16_eq, Run.setX, Run.setXw, Run.setV, r, Bool.or_false] at ht ⊢
    exact ht

/-- Settles O58: a word at its opcode writes its run (`does_word`), saturated by `does_putX`; DIV is `iaDiv_does`. -/
theorem iatiaWordsWriteTheirRegisterAndFlags : Obligations.IatiaWordsWriteTheirRegisterAndFlags := by
  unfold Obligations.IatiaWordsWriteTheirRegisterAndFlags
  intro e w s r
  simp only [List.mem_cons, List.not_mem_nil, or_false, Prod.mk.injEq]
  refine ⟨fun row op d y hrow h => ?_, fun row op y hrow h => ?_, fun row op y hrow h => ?_, fun h => does_word rfl h rfl rfl,
    fun h => does_word rfl h rfl rfl, fun h => ?_, fun h => does_word rfl h rfl rfl, fun h => does_word rfl h rfl rfl, iaDiv_does⟩
  · rcases hrow with ⟨rfl, rfl, rfl, rfl⟩ | ⟨rfl, rfl, rfl, rfl⟩ | ⟨rfl, rfl, rfl, rfl⟩ | ⟨rfl, rfl, rfl, rfl⟩ | ⟨rfl, rfl, rfl, rfl⟩ |
      ⟨rfl, rfl, rfl, rfl⟩ | ⟨rfl, rfl, rfl, rfl⟩
    all_goals exact does_putX rfl h rfl
  · rcases hrow with ⟨rfl, rfl, rfl⟩ | ⟨rfl, rfl, rfl⟩ | ⟨rfl, rfl, rfl⟩ | ⟨rfl, rfl, rfl⟩ | ⟨rfl, rfl, rfl⟩ | ⟨rfl, rfl, rfl⟩ |
      ⟨rfl, rfl, rfl⟩ | ⟨rfl, rfl, rfl⟩ | ⟨rfl, rfl, rfl⟩ | ⟨rfl, rfl, rfl⟩ | ⟨rfl, rfl, rfl⟩ | ⟨rfl, rfl, rfl⟩
    -- MIN and MAX keep an operand as it stands, the others write their result.
    case inr.inr.inr.inl => exact does_word rfl h (congrArg (s.setRun e.val) (Run.setX_min ..)) rfl
    case inr.inr.inr.inr.inl => exact does_word rfl h (congrArg (s.setRun e.val) (Run.setX_max ..)) rfl
    all_goals exact does_word rfl h rfl rfl
  · rcases hrow with ⟨rfl, rfl, rfl⟩ | ⟨rfl, rfl, rfl⟩ | ⟨rfl, rfl, rfl⟩
    all_goals exact does_word rfl h rfl rfl
  · rw [← ofNat_ux16]
    exact does_word rfl h rfl rfl

end Sys2Proof.Machine
end

section
/-! SUPPORT. The words of the accumulators: saturation at every width, and the named values of a latch set (R221 to R223, R260 to R265). -/

namespace Sys2Proof.Machine

open Sys2Proof

-- ---- saturation to other widths (R260)
theorem satTo_eq (w : Nat) (y : Int) : let h : Int := 2 ^ (w - 1)
    satTo w y = (max (-h) (min (h - 1) y), decide (y < -h ∨ h - 1 < y)) := by
  refine Prod.ext rfl ?_
  change (decide (2 ^ (w - 1) - 1 < y) || decide (y < -(2 ^ (w - 1)))) = _
  rw [Bool.or_comm, Bool.decide_or]

theorem sat32_eq (y : Int) : sat32 y = (max (-2147483648) (min 2147483647 y), decide (y < -2147483648 ∨ 2147483647 < y)) := satTo_eq 32 y

theorem sat40_eq (y : Int) : sat40 y = (max (-549755813888) (min 549755813887 y), decide (y < -549755813888 ∨ 549755813887 < y)) := satTo_eq 40 y

/-- A quotient is no farther from 0 than its dividend. -/
theorem roundDiv_within (a : Int) {b : Int} (hb : 0 < b) : min a 0 ≤ roundDiv a b ∧ roundDiv a b ≤ max a 0 := by
  have within (n : Int) (hn : 0 ≤ n) : 0 ≤ (2 * n + b).fdiv (2 * b) ∧ (2 * n + b).fdiv (2 * b) ≤ n := by
    rw [Int.fdiv_eq_ediv_of_nonneg _ (by omega)]
    refine ⟨Int.ediv_nonneg (by omega) (by omega), Int.lt_add_one_iff.1 (Int.ediv_lt_of_lt_mul (by omega) ?_)⟩
    nlinarith
  unfold roundDiv
  split
  next h => have hn := within (-a) (by omega); omega
  next h => have hn := within a (by omega); omega

theorem Run.aci_bounds (r : Run) (i : Nat) : -549755813888 ≤ r.aci i ∧ r.aci i ≤ 549755813887 :=
  ⟨BitVec.le_toInt _, Int.le_of_lt_add_one BitVec.toInt_lt⟩

theorem shaOf_eq (r : Run) (i : Nat) (n : Int) : shaOf (r.aci i) n =
    sat40 (if n < 0 then roundDiv (r.aci i) (2 ^ (-n).toNat : Nat) else r.aci i * (2 ^ n.toNat : Nat)) := by
  unfold shaOf
  split
  next hn =>
    have hr := r.aci_bounds i
    have hq := roundDiv_within (r.aci i) (b := ((2 ^ (-n).toNat : Nat) : Int)) (by positivity)
    rw [sat40_eq, rshift]
    generalize roundDiv (r.aci i) _ = q at hq ⊢
    rw [min_eq_right (by omega), max_eq_right (by omega), decide_eq_false (by omega)]
  next => rfl

-- ---- SHA, CLPA, EXT and ERR (R261, R262, R264)
theorem clpaOf_eq (a x : Int) : let b := absI x * 65536
    clpaOf a x = (if a < -b then -b else if b < a then b else a, decide (a < -b ∨ b < a)) := by
  have hx : 0 ≤ absI x := by unfold absI; split <;> omega
  refine Prod.ext ?_ (Bool.decide_or ..).symm
  unfold clpaOf
  dsimp only
  split_ifs <;> omega

theorem extOf_eq (a : Int) (b : Nat) : let h : Int := 2 ^ (b + 15)
    extOf a b = (BitVec.ofInt 16 (max (-h) (min (h - 1) a) / (2 ^ b : Nat)), decide (a < -h ∨ h - 1 < a)) := by
  unfold extOf
  rw [satTo_eq]
  dsimp only
  rw [Int.fdiv_eq_ediv_of_nonneg _ (by positivity)]
  rfl

theorem errOf_eq (a b : Int) (esh : Nat) :
    let c32 := fun (y : Int) => max (-2147483648) (min 2147483647 y); let o32 := fun (y : Int) => decide (y < -2147483648 ∨ 2147483647 < y)
    let d := c32 a - c32 b; let q := roundDiv (c32 d) (2 ^ (8 - min 8 esh) : Nat)
    errOf a b esh = (c32 d, max (-32768) (min 32767 q), o32 a || o32 b || o32 d || decide (q < -32768 ∨ 32767 < q)) := by
  unfold errOf
  simp only [sat32_eq, sat16_eq]
  rfl

-- ---- what a word writes, and the run goes on
theorem Run.putAc_advance (r : Run) (i : Nat) (y : Int) (cost : Nat) : let o := decide (y < -549755813888 ∨ 549755813887 < y)
    (r.putAc i (sat40 y)).advance cost =
      { r.advance cost with ac := tset 0 r.ac i (BitVec.ofInt 40 (max (-549755813888) (min 549755813887 y))), v := o, sat := r.sat || o } := by
  rw [sat40_eq]
  rfl

theorem does_putAc {row : Instr} {op i : Nat} {e : Fin 160} {w : W} {s : State} {f : W → State → State} {y : Int}
    (hrow : exec row s = .next (iaStep op 1 e.val 0 f s)) (h : s.atWord e op w)
    (hf : f w s = s.setRun e.val ((s.run e.val).putAc i (sat40 y))) :
    let r := s.run e.val; let o := decide (y < -549755813888 ∨ 549755813887 < y)
    Does row s fun t => RunIs e s t
      { r.advance 1 with ac := tset 0 r.ac i (BitVec.ofInt 40 (max (-549755813888) (min 549755813887 y))), v := o, sat := r.sat || o } :=
  does_word hrow h hf (Run.putAc_advance ..)

theorem sinTo_advance (w : W) (l : Latch) (r : Run) : (sinTo w l r).advance 1 = (match fSrc w with
      | 0 => { r.advance 1 with ac := tset 0 r.ac (fD w % 4) (BitVec.ofInt 40 l.pos.toInt) }
      | 1 => { r.advance 1 with ac := tset 0 r.ac (fD w % 4) (BitVec.ofInt 40 l.sec.toInt) }
      | k + 2 => if k < 3 then { r.advance 1 with x := tset 0 r.x (fD w) (l.cur.getD k 0) }
        else if k < 6 then { r.advance 1 with x := tset 0 r.x (fD w) ((l.volt.getD (k - 3) 0) >>> 1) } else r.advance 1) := by
  unfold sinTo
  match fSrc w with
  | 0 | 1 | 2 | 3 | 4 | 5 | 6 | 7 => rfl
  | k + 8 => exact ((if_neg (by omega)).trans (if_neg (by omega))).symm

theorem ffwTo_advance (w : W) (l : Latch) (r : Run) : (ffwTo w l r).advance 1 = (match fSrc w with
      | 0 => { r.advance 1 with ac := tset 0 r.ac (fD w % 4) (BitVec.ofInt 40 l.ff.toInt) }
      | 1 => { r.advance 1 with x := tset 0 r.x (fD w) l.vbus }
      | 2 => { r.advance 1 with x := tset 0 r.x (fD w) l.vnom }
      | _ => r.advance 1) := by
  unfold ffwTo
  match fSrc w with
  | 0 | 1 | 2 | k + 3 => rfl

theorem Run.putSat_advance (r : Run) (i k : Nat) (a : Int) : let h : Int := 2 ^ (k - 1); let o := decide (a < -h ∨ h - 1 < a)
    (r.putAc i (satTo k a)).advance 1 =
      { r.advance 1 with ac := tset 0 r.ac i (BitVec.ofInt 40 (max (-h) (min (h - 1) a))), v := o, sat := r.sat || o } := by
  rw [satTo_eq]
  rfl

theorem Run.putExt_advance (r : Run) (d b : Nat) (a : Int) : let h : Int := 2 ^ (b + 15); let o := decide (a < -h ∨ h - 1 < a)
    ((r.setXw d (extOf a b).1).setV (extOf a b).2).advance 1 =
      { r.advance 1 with x := tset 0 r.x d (BitVec.ofInt 16 (max (-h) (min (h - 1) a) / (2 ^ b : Nat))), v := o, sat := r.sat || o } := by
  intro h o
  have hext : extOf a b = (BitVec.ofInt 16 (max (-h) (min (h - 1) a) / (2 ^ b : Nat)), o) := extOf_eq a b
  clear_value o h
  rw [hext]
  rfl

/-- As `does_word`, for a word that stands for an act in Dwentora's images: this run is of another image. -/
theorem iaStd_row {row : Instr} {op cost : Nat} {e : Fin 160} {w : W} {s : State} {g : State → State} {f : W → State → State} {x r : Run}
    (hrow : exec row s = .next (iaStd op cost e.val 0 g f s)) (h : s.atWord e op w) (hf : f w s = s.setRun e.val x)
    (hr : x.advance cost = r) : Does row s fun t => RunIs e s t r := by
  obtain ⟨-, hstd, -⟩ := id h
  exact does_word hrow h ((if_neg (by simp [hstd])).trans hf) hr

/-- Settles O59: as O58, saturated by `does_putAc`; each width and clip has one equation (`satTo_eq`, `clpaOf_eq`, `extOf_eq`, `errOf_eq`). -/
theorem iatiaWordsWriteTheirAccumulator : Obligations.IatiaWordsWriteTheirAccumulator := by
  unfold Obligations.IatiaWordsWriteTheirAccumulator
  intro e w s r m l lim cut out acc
  have hm : m = mulQ (r.xi (fXd w)) (r.xi (fXb w)) := mul_comm _ _
  clear_value m
  subst hm
  simp only [List.mem_cons, List.not_mem_nil, or_false, Prod.mk.injEq]
  refine ⟨fun row op y hrow h => ?_, fun row op i y hrow h => ?_, fun h => does_putAc rfl h rfl, fun h => ?_, fun h => ?_, fun h => ?_, fun h => ?_,
    fun h hrec => ?_, fun h => does_word rfl h rfl (sinTo_advance ..), fun h => does_word rfl h rfl (ffwTo_advance ..)⟩
  · rcases hrow with ⟨rfl, rfl, rfl⟩ | ⟨rfl, rfl, rfl⟩ | ⟨rfl, rfl, rfl⟩ | ⟨rfl, rfl, rfl⟩ | ⟨rfl, rfl, rfl⟩
    case inr.inr.inr.inr => exact does_putAc rfl h (congrArg (fun y => s.setRun e.val (r.putAc (fAcd w) y)) (shaOf_eq r _ _))
    all_goals exact does_putAc rfl h rfl
  · rcases hrow with ⟨rfl, rfl, rfl, rfl⟩ | ⟨rfl, rfl, rfl, rfl⟩ | ⟨rfl, rfl, rfl, rfl⟩ | ⟨rfl, rfl, rfl, rfl⟩ | ⟨rfl, rfl, rfl, rfl⟩ |
      ⟨rfl, rfl, rfl, rfl⟩
    all_goals exact does_word rfl h rfl rfl
  · refine does_word rfl h rfl ?_
    simp only [sat40_eq, gainProduct]
    rfl
  · refine does_word rfl h rfl ?_
    simp only [clpaOf_eq]
    rfl
  · refine does_word rfl h rfl ?_
    dsimp only
    generalize fMisc w % 4 = n
    match n with
    | 0 | 1 | 2 | n + 3 => exact Run.putSat_advance ..
  · exact does_word rfl h rfl (Run.putExt_advance ..)
  · refine iaStd_row rfl h (if_neg (by omega)) ?_
    simp only [errOf_eq]
    rfl

end Sys2Proof.Machine
end

section
/-! SUPPORT. Loads and stores: what a load or store of the view leaves, and where its bytes stand (R256, R257). -/

namespace Sys2Proof.Machine

open Sys2Proof

-- ---- loads (R256, R257)
theorem boundsFault_run (e a : Nat) (s : State) (j : Nat) : (boundsFault e a s).run j =
    if j = e then { (s.run e).act 0x08 a 0 with bounds := (s.run e).bounds + 1 } else s.run j := by
  simp [boundsFault]

theorem loadView_run (e n : Nat) (w : W) (s : State) : ∃ sig b, (loadView e n w s).2.run e = { s.run e with sig := sig, bounds := b } := by
  unfold loadView
  dsimp only
  split
  case h_5 => exact ⟨_, _, (boundsFault_run ..).trans (if_pos rfl)⟩
  all_goals exact ⟨_, _, rfl⟩

theorem loadView_ws (e n : Nat) (w : W) (s : State) : (loadView e n w s).2.ws = s.ws := by
  unfold loadView
  dsimp only
  split
  case h_5 => exact boundsFault_keep (.same (p := .ws) rfl s) e _ s rfl
  all_goals rfl

theorem loadView_state {e n o : Nat} {w : W} {s : State} (h : s.placeOf (s.run e) ((s.run e).ea w) n = .state o) :
    loadView e n w s = (s.wsVal (s.run e).ch (s.stateAt (s.run e) o) n, s) := by
  unfold loadView
  simp only [h]

theorem loadView_outside {e n : Nat} {w : W} {s : State} (h : s.placeOf (s.run e) ((s.run e).ea w) n = .outside) :
    loadView e n w s = (0, boundsFault e ((s.run e).ea w) s) := by
  unfold loadView
  simp only [h]

-- ---- stores (R256, R421)
/-- A place in the state of a run's side lies within it. -/
theorem placeOf_state {s : State} {r : Run} {a n o : Nat} (hm : r.model = false) (h : s.placeOf r a n = .state o) : o + n ≤ s.stateBytes r.ch := by
  unfold State.placeOf at h
  simp only [hm, Bool.false_eq_true, if_false] at h
  split at h
  · cases h
  · split_ifs at h
    simp only [Place.state.injEq] at h
    omega

theorem State.run_of_same {s t : State} (h : Part.same .runs s t) (j : Nat) : t.run j = s.run j := by
  unfold State.run
  rw [show t.runs = s.runs from h]

theorem putWs_same {p : Part} (hp : [Part.ws].contains p = false) (s : State) (ch o : Nat) (l : List (BitVec 8)) : p.same s (s.putWs ch o l) :=
  putWs_keep (.same hp s) l ch o (p.same_refl s)

theorem storeAt_run (e n val a : Nat) (s : State) : ∃ sig b, (storeAt e n val a s).run e = { s.run e with sig := sig, bounds := b } := by
  have hact (x : Run) : (s.setRun e x).run e = x := (State.setRun_read ..).trans (if_pos rfl)
  have hput (u : State) (ch o : Nat) (l : List (BitVec 8)) : (u.putWs ch o l).run e = u.run e := State.run_of_same (putWs_same rfl ..) e
  unfold storeAt
  dsimp only
  split
  · split
    all_goals exact ⟨_, _, hact _⟩
  · split
    · exact ⟨_, _, (hput ..).trans ((hput ..).trans (hact _))⟩
    · exact ⟨_, _, (hput ..).trans (hact _)⟩
  · exact ⟨_, _, (boundsFault_run ..).trans (if_pos rfl)⟩

/-- The bytes stored stand; the copy of a resynchronisation goes to the state of the other side, which lies beside this one. -/
theorem storeAt_state {e n val a o : Nat} {s : State} (h : s.placeOf (s.run e) a n = .state o) :
    (storeAt e n val a s).wsVal (s.run e).ch (s.stateAt (s.run e) o) n = val % 256 ^ n ∧ (storeAt e n val a s).chans = s.chans := by
  have hown (u : State) : (u.putWs (s.run e).ch (s.stateAt (s.run e) o) (leBytes n val)).wsVal (s.run e).ch (s.stateAt (s.run e) o) n = val % 256 ^ n := by
    have hput := u.putWs_val_same (s.run e).ch (s.stateAt (s.run e) o) (leBytes n val)
    rwa [length_leBytes, leVal_leBytes] at hput
  unfold storeAt
  simp only [h]
  split
  next hmirror =>
    obtain ⟨-, hact⟩ := Bool.and_eq_true_iff.1 hmirror
    have hmodel : (s.run e).model = false := by
      obtain ⟨hm, -⟩ := Bool.and_eq_true_iff.1 hact
      simpa using hm
    have hroom := placeOf_state hmodel h
    have hat : s.stateAt (s.run e) o = 128 + (if (s.run e).inst = true then s.stateBytes (s.run e).ch else 0) + o := if_neg (by simp [hmodel])
    refine ⟨(State.putWs_val_other _ ?_).trans (hown _), (putWs_same (p := .chans) rfl ..).trans (putWs_same (p := .chans) rfl ..)⟩
    rw [length_leBytes, hat]
    split_ifs <;> omega
  next => exact ⟨hown _, putWs_same (p := .chans) rfl ..⟩

end Sys2Proof.Machine
end

section
/-! SUPPORT. Words that load, store, command, clamp and record, and words that act as a NOP (R256, R266 to R273). -/

namespace Sys2Proof.Machine

open Sys2Proof

-- ---- loads and stores
theorem State.updRun_run (s : State) (e : Nat) (f : Run → Run) (j : Nat) : (s.updRun e f).run j = if j = e then f (s.run e) else s.run j :=
  State.setRun_read ..

theorem State.updRun_chans (s : State) (e : Nat) (f : Run → Run) : (s.updRun e f).chans = s.chans := rfl
theorem State.updRun_at_chan (s : State) (e : Nat) (f : Run → Run) (j : Nat) : (s.updRun e f).chan j = s.chan j := rfl
theorem State.updRun_wsVal (s : State) (e : Nat) (f : Run → Run) (ch o n : Nat) : (s.updRun e f).wsVal ch o n = s.wsVal ch o n := rfl

/-- A word of the opcode acts, and the run goes on by the word's cycles. -/
theorem does_atWord {row : Instr} {op cost : Nat} {e : Fin 160} {w : W} {s : State} {f : W → State → State} {P : State → Prop}
    (hrow : exec row s = .next (iaStep op cost e.val 0 f s)) (h : s.atWord e op w)
    (hP : P ((f w s).updRun e.val (fun r => r.advance cost))) : Does row s P :=
  ⟨_, hrow, by rwa [iaStep_atWord h]⟩

theorem does_atStd {row : Instr} {op cost : Nat} {e : Fin 160} {w : W} {s : State} {g : State → State} {f : W → State → State} {P : State → Prop}
    (hrow : exec row s = .next (iaStd op cost e.val 0 g f s)) (h : s.atWord e op w)
    (hP : P ((f w s).updRun e.val (fun r => r.advance cost))) : Does row s P := by
  obtain ⟨-, hstd, -⟩ := id h
  exact does_atWord hrow h (by rwa [if_neg (by simp [hstd])])

theorem iaLdh_does {e : Fin 160} {w : W} {s : State} (h : s.atWord e 0x08 w) : Does (.iaLdh e 0) s fun t => let p := loadView e.val 2 w s
    t.run e.val = { (p.2.run e.val).advance 1 with x := tset 0 (s.run e.val).x (fD w) (BitVec.ofNat 16 p.1) } ∧ t.ws = s.ws := by
  obtain ⟨sig, b, hrun⟩ := loadView_run e.val 2 w s
  refine does_atWord rfl h ?_
  refine ⟨?_, State.setRun_ws .. |>.trans (loadView_ws ..)⟩
  simp only [State.updRun_run, if_true, hrun]
  rfl

theorem iaLdw_does {e : Fin 160} {w : W} {s : State} (h : s.atWord e 0x0A w) : Does (.iaLdw e 0) s fun t => let p := loadView e.val 4 w s
    t.run e.val = { (p.2.run e.val).advance 1 with ac := tset 0 (s.run e.val).ac (fRac w) (BitVec.ofInt 40 (sx 32 p.1)) } ∧ t.ws = s.ws := by
  obtain ⟨sig, b, hrun⟩ := loadView_run e.val 4 w s
  refine does_atWord rfl h ?_
  refine ⟨?_, State.setRun_ws .. |>.trans (loadView_ws ..)⟩
  simp only [State.updRun_run, if_true, hrun]
  rfl

theorem iaSth_does {e : Fin 160} {w : W} {s : State} (h : s.atWord e 0x09 w) : let r := s.run e.val
    Does (.iaSth e 0) s fun t => ∀ o, s.placeOf r (r.ea w) 2 = .state o →
      t.wsVal r.ch (s.stateAt r o) 2 = (r.xw (fD w)).toNat ∧ (t.run e.val).x = r.x ∧ t.chans = s.chans := by
  intro r
  refine does_atStd rfl h fun o ho => ?_
  obtain ⟨hval, hchans⟩ := storeAt_state (val := (r.xw (fD w)).toNat) ho
  obtain ⟨sig, b, hrun⟩ := storeAt_run e.val 2 (r.xw (fD w)).toNat (r.ea w) s
  rw [Nat.mod_eq_of_lt (show _ < 256 ^ 2 from (r.xw (fD w)).isLt)] at hval
  refine ⟨(State.updRun_wsVal ..).trans hval, ?_, (State.updRun_chans ..).trans hchans⟩
  rw [State.updRun_run, if_pos rfl, storeView, hrun]
  rfl

theorem iaStw_does {e : Fin 160} {w : W} {s : State} (h : s.atWord e 0x0B w) : let r := s.run e.val
    Does (.iaStw e 0) s fun t => let a := r.aci (fRac w); let o := decide (a < -2147483648 ∨ 2147483647 < a)
      (t.run e.val).v = o ∧ (t.run e.val).sat = (r.sat || o) ∧ ∀ p, s.placeOf r (r.ea w) 4 = .state p →
        t.wsVal r.ch (s.stateAt r p) 4 = (BitVec.ofInt 32 (max (-2147483648) (min 2147483647 a))).toNat := by
  intro r
  refine does_atStd rfl h ?_
  dsimp only
  rw [sat32_eq]
  dsimp only
  generalize hy : max (-2147483648) (min 2147483647 ((s.run e.val).aci (fRac w))) = y
  obtain ⟨sig, b, hrun⟩ := storeAt_run e.val 4 (ux 32 y) (r.ea w) s
  rw [State.updRun_run, if_pos rfl, State.updRun_run, if_pos rfl, storeView, hrun]
  refine ⟨rfl, rfl, fun p hp => ?_⟩
  obtain ⟨hval, -⟩ := storeAt_state (val := ux 32 y) hp
  rw [ux_eq, Nat.mod_eq_of_lt (show _ < 256 ^ 4 from (BitVec.ofInt 32 y).isLt), ← ux_eq] at hval
  rw [State.updRun_wsVal, State.updRun_wsVal, ← ux_eq]
  exact hval

-- ---- acts (R266, R269, R270)
theorem actOut_run (e : Nat) (x : BitVec 16) (s : State) : (actOut e x s).run e = { (s.run e).act 0x03 0 x.toNat with out := true } := by
  unfold actOut
  dsimp only
  split_ifs <;> simp

theorem actOut_active {e : Nat} {s : State} (x : BitVec 16) (h : s.active (s.run e) = true) : let c := s.chan (s.run e).ch
    actOut e x s = (s.setRun e { (s.run e).act 0x03 0 x.toNat with out := true }).setChan (s.run e).ch
      { c with cmdQ := some x.toInt, loop := { c.loop with lastCmd := x.toNat, delivered := true } } :=
  if_pos h

theorem actOut_shadow {e : Nat} {s : State} (x : BitVec 16) (h : s.active (s.run e) = false) :
    actOut e x s = s.setRun e { (s.run e).act 0x03 0 x.toNat with out := true } :=
  if_neg (Bool.eq_false_iff.1 h)

theorem iaOut_does {e : Fin 160} {w : W} {s : State} (h : s.atWord e 0x3D w) : let r := s.run e.val; let live := s.active r
    Does (.iaOut e 0) s fun t => t.run e.val = { r.advance 1 with sig := (r.act 3 0 (r.xw (fD w)).toNat).sig, out := true } ∧
      (live = true → (t.chan r.ch).cmdQ = some (r.xi (fD w)) ∧ (t.chan r.ch).loop.delivered = true) ∧ (live = false → t.chans = s.chans) ∧
      ∀ j, j ≠ r.ch → t.chan j = s.chan j := by
  intro r live
  refine does_atStd rfl h ?_
  rw [State.updRun_run, if_pos rfl, actOut_run, State.updRun_eq]
  simp only [State.setRun_at_chan, State.setRun_chans]
  refine ⟨rfl, fun hl => ?_, fun hl => ?_, fun j hj => ?_⟩
  · rw [actOut_active _ hl]
    simp [r, Run.xi]
  · rw [actOut_shadow _ hl]
    rfl
  · cases hl : s.active r with
    | true => simp [actOut_active _ hl, hj, r]
    | false => simp [actOut_shadow _ hl]

theorem actClm_run (e : Nat) (hi lo : BitVec 16) (s : State) :
    (actClm e hi lo s).run e = (s.run e).act 0x09 (s.run e).sel (hi.toNat * 65536 + lo.toNat) :=
  (State.run_of_same (writeClamp_keep (.same rfl _) e _ _ _ (Part.same_refl .runs _)) e).trans ((State.setRun_read ..).trans (if_pos rfl))

theorem actClm_chans (e : Nat) (hi lo : BitVec 16) (s : State) :
    match s.selChan e (s.run e) with
    | some ch => if (s.chan ch).st = .deleting then (actClm e hi lo s).chans = s.chans
      else ((actClm e hi lo s).chan ch).clampQ = some (hi.toInt, lo.toInt) ∧ ((actClm e hi lo s).chan ch).mdl.without = 0 ∧
        ∀ j, j ≠ ch → (actClm e hi lo s).chan j = s.chan j
    | none => (actClm e hi lo s).chans = s.chans := by
  have hsel (a b c : Nat) : (s.setRun e ((s.run e).act a b c)).selChan e ((s.setRun e ((s.run e).act a b c)).run e) = s.selChan e (s.run e) := by
    rw [State.setRun_read, if_pos rfl]
    rfl
  unfold actClm writeClamp
  dsimp only
  rw [hsel]
  cases s.selChan e (s.run e) with
  | none => rfl
  | some ch =>
    by_cases hdel : (s.chan ch).st = .deleting
    · simp [hdel]
    · simp +contextual [hdel]

theorem iaClm_does {e : Fin 160} {w : W} {s : State} (h : s.atWord e 0x36 w) : let r := s.run e.val
    Does (.iaClm e 0) s fun t => (t.run e.val).x = r.x ∧ (t.run e.val).pc = (r.advance 1).pc ∧
      match s.selChan e.val r with
      | some ch => if (s.chan ch).st = .deleting then t.chans = s.chans else
        (t.chan ch).clampQ = some (r.xi (fA w), r.xi (fB w)) ∧ (t.chan ch).mdl.without = 0 ∧ ∀ j, j ≠ ch → t.chan j = s.chan j
      | none => t.chans = s.chans := by
  intro r
  refine does_atStd rfl h ?_
  rw [State.updRun_run, if_pos rfl, actClm_run]
  exact ⟨rfl, rfl, actClm_chans ..⟩

theorem actErr_run (e : Nat) (e32 e16 : Int) (s : State) : (actErr e e32 e16 s).run e = (s.run e).act 0x07 0 (ux 32 e32) := by
  unfold actErr
  dsimp only
  split_ifs
  · exact (State.run_of_same (recordError_keep (.same rfl _) _ _ _ _ (Part.same_refl .runs _)) e).trans ((State.setRun_read ..).trans (if_pos rfl))
  · exact (State.setRun_read ..).trans (if_pos rfl)

theorem actErr_shadow {e : Nat} {s : State} (e32 e16 : Int) (h : s.active (s.run e) = false) : (actErr e e32 e16 s).chans = s.chans := by
  have hshadow : actErr e e32 e16 s = s.setRun e ((s.run e).act 0x07 0 (ux 32 e32)) := if_neg (Bool.eq_false_iff.1 h)
  rw [hshadow, State.setRun_chans]

theorem actErr_active {e : Nat} {s : State} (e32 e16 : Int) (h : s.active (s.run e) = true) :
    ((actErr e e32 e16 s).chan (s.run e).ch).loop.lastErr = BitVec.ofInt 32 e32 ∧ ∀ j, j ≠ (s.run e).ch → (actErr e e32 e16 s).chan j = s.chan j := by
  have hactive : actErr e e32 e16 s = recordError (s.run e).ch e32 (BitVec.ofInt 16 e16) (s.setRun e ((s.run e).act 0x07 0 (ux 32 e32))) := if_pos h
  rw [hactive, recordError]
  exact ⟨by simp, fun j hj => by simp [hj]⟩

theorem iaErr_records {e : Fin 160} {w : W} {s : State} (h : s.atWord e 0x2F w) (hrec : fMisc w % 2 = 1) : let r := s.run e.val
    let live := s.active r
    Does (.iaErr e 0) s fun t => let y := errOf (r.aci (fAcA w)) (r.aci (fAcB w)) (s.latchOf e.val r).esh
      (t.run e.val).xw (fXd w) = BitVec.ofInt 16 y.2.1 ∧ (t.run e.val).v = y.2.2 ∧ (live = false → t.chans = s.chans) ∧
      (live = true → (t.chan r.ch).loop.lastErr = BitVec.ofInt 32 y.1 ∧ ∀ j, j ≠ r.ch → t.chan j = s.chan j) := by
  intro r live
  refine does_atStd rfl h ?_
  dsimp only
  rw [if_pos hrec]
  generalize errOf ((s.run e.val).aci (fAcA w)) ((s.run e.val).aci (fAcB w)) (s.latchOf e.val (s.run e.val)).esh = y
  obtain ⟨e32, e16, o⟩ := y
  have hrun (x : Run) : (s.setRun e.val x).run e.val = x := (State.setRun_read ..).trans (if_pos rfl)
  rw [State.updRun_run, if_pos rfl, actErr_run, hrun]
  refine ⟨tget_tset_self .., rfl, fun hl => ?_, fun hl => ?_⟩
  · refine (State.updRun_chans ..).trans ((actErr_shadow e32 e16 ?_).trans (State.setRun_chans ..))
    rw [hrun]
    exact hl
  · have hact := actErr_active (s := s.setRun e.val ((r.setX (fXd w) e16).setV o)) e32 e16 (by rw [hrun]; exact hl)
    rw [hrun] at hact
    simp only [State.setRun_at_chan, State.updRun_at_chan] at hact ⊢
    exact hact

-- ---- words that act as a NOP (R254, R273)
theorem does_skipped {row : Instr} {op cost : Nat} {e : Fin 160} {w : W} {s : State} {f : W → State → State}
    (hrow : exec row s = .next (iaStep op cost e.val 0 f s)) (hlive : (s.run e.val).live = true)
    (hword : (s.runWords (s.run e.val))[(s.run e.val).pc]? = some w) (hop : opField w = op) (hskip : (s.run e.val).pc < (s.run e.val).skip) :
    Does row s fun t => RunIs e s t ((s.run e.val).advance cost) := by
  refine ⟨_, hrow, ?_⟩
  simp [iaStep, hword, hlive, hop, hskip, wordFinding, RunIs, State.updRun]

theorem does_doubleBit {row : Instr} {op cost : Nat} {e : Fin 160} {w : W} {s : State} {f : W → State → State}
    (hrow : exec row s = .next (iaStep op cost e.val 2 f s)) (hlive : (s.run e.val).live = true)
    (hword : (s.runWords (s.run e.val))[(s.run e.val).pc]? = some w) (hop : opField w = op) :
    Does row s fun t => t.run e.val = { (s.run e.val).advance 1 with evid := true } ∧ t.ws = s.ws ∧ t.chans = s.chans := by
  refine ⟨_, hrow, ?_⟩
  have hstep : iaStep op cost e.val 2 f s = (wordFinding e.val 2 s).updRun e.val (fun r => r.advance 1) := by
    simp [iaStep, hword, hlive, hop]
  rw [hstep]
  refine ⟨?_, wordFinding_keep (.same (p := .ws) rfl s) e.val 2 s rfl, wordFinding_keep (.same (p := .chans) rfl s) e.val 2 s rfl⟩
  rw [State.updRun_run, if_pos rfl]
  simp [wordFinding, runEvidence, State.updRun]
  rfl

end Sys2Proof.Machine
end

section
/-! SUPPORT. The END of a loop run and of a model run (R237, R239, R276, R277). -/

namespace Sys2Proof.Machine

open Sys2Proof

-- ---- the END of a loop run (R237, R239, R276)
theorem handOver_other (r : Run) (x : RunSum) (s : State) : ((handOver r x s).chan r.ch).lease.sum (!r.inst) = (s.chan r.ch).lease.sum (!r.inst) ∧
    ∀ j, j ≠ r.ch → (handOver r x s).chan j = s.chan j := by
  unfold handOver State.updLease
  refine ⟨?_, fun j hj => by simp [hj]⟩
  cases h : r.inst <;> simp [Lease.sum]

/-- The run of an engine as its END closes it: its signature with the last record, and evidence where it ended at another cc than its WCC. -/
def State.endedRun (s : State) (e : Nat) : Run :=
  let r := s.run e
  let cc := if s.stdRun r then (s.image r.img).wcc else r.cc + 1
  { r.act 0x0F 0 (s.runFlags e r).toNat with evid := r.evid || cc != (s.image r.img).wcc }

/-- What the end of a loop run writes beside its summary: the loop values of its channel, and the counts of the active side. -/
def countEnd (r : Run) (mine : Bool) (a : Nat) (s : State) : State :=
  if mine then
    let held := r.hld && !r.out
    let s := s.updChan r.ch (fun c => { c with loop :=
      { c.loop with ovr := false, ovrRun := 0, held, capVal := r.cap, delivered := r.out, runs := c.loop.runs + 1 } })
    (if held then s.bump (loopReg a 0xA0) else s).bump (loopReg a 0xA4)
  else s.updChan r.ch (fun c => { c with loop := { c.loop with ovrRunS := 0 } })

theorem endLoopRun_eq (e : Nat) (s : State) : ∃ cc mine a, endLoopRun e s =
    endRun e (countEnd (s.endedRun e) mine a (markEnd e cc (handOver (s.endedRun e) ((s.endedRun e).summary true) s))) :=
  ⟨_, _, _, rfl⟩

theorem countEnd_eq (r : Run) (mine : Bool) (a : Nat) (s : State) : ∃ (g : LoopPart → LoopPart) (regs : Tab W),
    countEnd r mine a s = { s.updChan r.ch (fun c => { c with loop := g c.loop }) with regs } := by
  cases mine with
  | false => exact ⟨fun l => { l with ovrRunS := 0 }, _, rfl⟩
  | true =>
    refine ⟨fun l => { l with ovr := false, ovrRun := 0, held := r.hld && !r.out, capVal := r.cap, delivered := r.out, runs := l.runs + 1 }, ?_⟩
    unfold countEnd
    cases r.hld && !r.out
    all_goals exact ⟨_, rfl⟩

theorem countEnd_runs (r : Run) (mine : Bool) (a : Nat) (s : State) : (countEnd r mine a s).runs = s.runs := by
  obtain ⟨g, regs, heq⟩ := countEnd_eq r mine a s
  rw [heq]
  rfl

theorem countEnd_chan (r : Run) (mine : Bool) (a : Nat) (s : State) (j : Nat) : ((countEnd r mine a s).chan j).lease = (s.chan j).lease ∧
    (j ≠ r.ch → (countEnd r mine a s).chan j = s.chan j) := by
  obtain ⟨g, regs, heq⟩ := countEnd_eq r mine a s
  rw [heq]
  exact ⟨s.setChan_lease (by exact rfl) j, fun hj => (s.setChan_read ..).trans (if_neg hj)⟩

theorem handOver_runs (r : Run) (x : RunSum) (s : State) : (handOver r x s).runs = s.runs := by
  unfold handOver
  split <;> rfl

theorem markEnd_same {p : Part} (hp : [Part.regs].contains p = false) (e cc : Nat) (s : State) : p.same s (markEnd e cc s) :=
  markEnd_keep (.same hp s) e cc s (p.same_refl s)

theorem endLoopRun_run (e : Nat) (s : State) (j : Nat) : (endLoopRun e s).run j = if j = e then Run.none else s.run j := by
  obtain ⟨cc, mine, a, heq⟩ := endLoopRun_eq e s
  rw [heq, endRun, State.setRun_read]
  refine if_congr Iff.rfl rfl (State.run_of_same ?_ j)
  exact (countEnd_runs ..).trans ((markEnd_same (p := .runs) rfl ..).trans (handOver_runs ..))

theorem endLoopRun_chan (e : Nat) (s : State) (j : Nat) :
    ((endLoopRun e s).chan j).lease = ((handOver (s.endedRun e) ((s.endedRun e).summary true) s).chan j).lease ∧
    (j ≠ (s.run e).ch → (endLoopRun e s).chan j = s.chan j) := by
  obtain ⟨cc, mine, a, heq⟩ := endLoopRun_eq e s
  obtain ⟨-, hother⟩ := handOver_other (s.endedRun e) ((s.endedRun e).summary true) s
  generalize handOver (s.endedRun e) ((s.endedRun e).summary true) s = u at heq hother ⊢
  obtain ⟨hlease, hchan⟩ := countEnd_chan (s.endedRun e) mine a (markEnd e cc u) j
  have hmark : (markEnd e cc u).chan j = u.chan j := State.chan_of_same (markEnd_same rfl ..) j
  rw [hmark] at hlease hchan
  rw [heq, endRun, State.setRun_at_chan]
  exact ⟨hlease, fun hj => (hchan hj).trans (hother j hj)⟩

theorem iaEnd_loop {e : Fin 160} {w : W} {s : State} (h : s.atWord e 0x01 w) (he : e.val < 128) : let r := s.run e.val
    Does (.iaEnd e 0) s fun t => (t.run e.val).live = false ∧ (∀ j, j ≠ e.val → t.run j = s.run j) ∧
      (∀ j, j ≠ r.ch → t.chan j = s.chan j) ∧ (t.chan r.ch).lease.sum (!r.inst) = (s.chan r.ch).lease.sum (!r.inst) ∧
      ∃ x, (t.chan r.ch).lease.sum r.inst = some x ∧ x.ended = true ∧ x.lse = r.lse ∧ x.out = r.out ∧ x.hld = r.hld ∧ x.bounds = r.bounds ∧
        x.sig = (r.act 0x0F 0 r.flags.toNat).sig := by
  intro r
  have hrow : exec (.iaEnd e 0) s = .next (endLoopRun e.val s) := by
    obtain ⟨hlive, -, hword, hop, -⟩ := h
    change execIaEnd e 0 s = _
    simp [execIaEnd, hlive, hword, hop, wordFinding, he]
  obtain ⟨-, hstd, -⟩ := id h
  obtain ⟨hother, -⟩ := handOver_other (s.endedRun e.val) ((s.endedRun e.val).summary true) s
  obtain ⟨hlease, -⟩ := endLoopRun_chan e.val s r.ch
  refine ⟨_, hrow, ?_, fun j hj => ?_, fun j => (endLoopRun_chan e.val s j).2, ?_, (s.endedRun e.val).summary true, ?_, rfl, rfl, rfl, rfl, rfl, ?_⟩
  · rw [endLoopRun_run, if_pos rfl]
    rfl
  · rw [endLoopRun_run, if_neg hj]
  · rw [hlease]
    exact hother
  · rw [hlease]
    exact handOver_sum ..
  · simp [State.endedRun, Run.summary, State.runFlags, hstd, r]

theorem iaEnd_idle {e : Fin 160} {err : Fin 5} {s : State} (h : (s.run e.val).live = false) : Does (.iaEnd e err) s fun t => t = s := by
  refine ⟨s, ?_, rfl⟩
  change execIaEnd e err s = _
  simp [execIaEnd, h]

-- ---- the END of a model run (R276, R277)
theorem runEvidence_run (e : Nat) (s : State) (j : Nat) : (runEvidence e s).run j = if j = e then { s.run e with evid := true } else s.run j := by
  simp [runEvidence, State.updRun]

theorem wordFinding_run (e err : Nat) (s : State) : ((wordFinding e err s).run e).ch = (s.run e).ch ∧
    ∀ j, j ≠ e → (wordFinding e err s).run j = s.run j := by
  unfold wordFinding
  split
  · exact ⟨by simp [wordCorrected], fun j _ => by simp [wordCorrected]⟩
  · exact ⟨by simp [runEvidence_run], fun j hj => by simp [runEvidence_run, hj]⟩
  · exact ⟨by simp [runEvidence_run], fun j hj => by simp [runEvidence_run, hj]⟩
  · exact ⟨rfl, fun _ _ => rfl⟩

/-- The engine stands between runs and the run of channel `ch` has been handed to its model engine; the other engines' runs are those of `s`. -/
structure ModelEnded (n ch : Nat) (s t : State) : Prop where
  live : (t.run n).live = false
  others : ∀ j, j ≠ n → t.run j = s.run j
  sum : (t.meng (n - 128)).sum.map (·.1) = some ch

theorem Keeps.modelEnded {L : List Part} (hr : L.contains .runs = false) (hm : L.contains .mengs = false) (n ch : Nat) (s : State) :
    Keeps L (ModelEnded n ch s) := by
  have hno {q : Prop} {p : Part} (hp : L.contains p = false) (h : L.contains p = true) : q := absurd (h.symm.trans hp) (by decide)
  constructor
  case power => exact fun hall => hno hr (hall .runs)
  case runs => exact fun h => hno hr h
  case mengs => exact fun h => hno hm h
  all_goals intros; rename_i h; exact ⟨h.live, h.others, h.sum⟩

theorem ModelEnded.updMEng {n ch : Nat} {s t : State} (h : ModelEnded n ch s t) (f : Nat) {g : MEng → MEng} (hg : ∀ x, (g x).sum = x.sum) :
    ModelEnded n ch s (t.updMEng f g) := by
  refine ⟨h.live, h.others, ?_⟩
  rw [State.updMEng_read]
  split
  next hf => rw [hg, ← hf]; exact h.sum
  next => exact h.sum

theorem ModelEnded.halt {n ch : Nat} {s t : State} (h : ModelEnded n ch s t) : ModelEnded n ch s (t.setRun n { t.run n with live := false }) := by
  refine ⟨by simp, fun j hj => ?_, h.sum⟩
  rw [State.setRun_read, if_neg hj]
  exact h.others j hj

theorem handModel_ended (n : Nat) (ended : Bool) (r : Run) {s u : State} (hu : ∀ j, j ≠ n → u.run j = s.run j) :
    ModelEnded n r.ch s (handModel n ended r (endRun n u)) := by
  refine lateSignals_keep (.modelEnded rfl rfl n r.ch s) _ _ ⟨?_, fun j hj => ?_, by simp⟩
  · rw [endRun, State.updMEng_at_run, State.setRun_read, if_pos rfl]
    rfl
  · rw [endRun, State.updMEng_at_run, State.setRun_read, if_neg hj]
    exact hu j hj

theorem ModelEnded.retire {n ch : Nat} {s t : State} (h : ModelEnded n ch s t) : ModelEnded n ch s (retireEngine n t) := by
  have hhalt := (updHlt_keep (.modelEnded rfl rfl n ch s) n (fun h => { h with st := 0, hstate := 4 }) h).halt
  exact ⟨hhalt.live, hhalt.others, hhalt.sum⟩

theorem ModelEnded.quarantine {n ch : Nat} {s t : State} (h : ModelEnded n ch s t) (cause : Nat) :
    ModelEnded n ch s (quarantine n cause t) := by
  unfold Machine.quarantine
  extract_lets x c a _ b
  have hb : ModelEnded n ch s b := (updHlt_keep (.modelEnded rfl rfl n ch s) _ _ h).halt
  exact ite_keep hb.retire (queueTest_keep (.modelEnded rfl rfl n ch s) n b hb)

theorem ModelEnded.declareFailed {f ch : Nat} {s t : State} (h : ModelEnded (128 + f) ch s t) (cause : Nat) :
    ModelEnded (128 + f) ch s (declareFailed f cause t) := by
  unfold Machine.declareFailed
  extract_lets e g a b c d
  have ha : ModelEnded e ch s a := (meEvent_keep (.modelEnded rfl rfl _ ch s) f 6 1 t h).quarantine cause
  have hb : ModelEnded e ch s b := ha.updMEng f (by exact fun _ => rfl)
  have hc : ModelEnded e ch s c := each_keep _ _ (fun i => narrowClamp_keep (.modelEnded rfl rfl _ ch s) i) hb
  have hd : ModelEnded e ch s d := (hc.updMEng f (by exact fun _ => rfl)).updMEng g (by exact fun _ => rfl)
  refine ite_keep h (ite_keep (meEvent_keep (.modelEnded rfl rfl _ ch s) g 3 0 _ ?_) ?_)
  · exact bump_keep (.modelEnded rfl rfl _ ch s) _ _ (bump_keep (.modelEnded rfl rfl _ ch s) _ _ hd)
  · exact modelLost_keep (.modelEnded rfl rfl _ ch s) f _ (hc.updMEng g (by exact fun _ => rfl))

theorem ModelEnded.evidence {n ch : Nat} (hn : 128 ≤ n) {s t : State} (h : ModelEnded n ch s t) : ModelEnded n ch s (modelEvidence n t) := by
  obtain ⟨f, rfl⟩ := Nat.exists_eq_add_of_le hn
  unfold modelEvidence
  rw [Nat.add_sub_cancel_left]
  exact ite_keep (h.declareFailed 1) h

theorem endModelRun_ended {n : Nat} (hn : 128 ≤ n) {s u : State} (hu : ∀ j, j ≠ n → u.run j = s.run j) :
    ModelEnded n (u.run n).ch s (endModelRun n u) := by
  unfold endModelRun
  extract_lets r0 r cost cc
  have hmark (j : Nat) (hj : j ≠ n) : (markEnd n (r.start + cc) u).run j = s.run j :=
    (State.run_of_same (markEnd_same rfl ..) j).trans (hu j hj)
  exact (handModel_ended n true { r with evid := r.evid || cc != cost } hmark).evidence hn

theorem stopModelRun_ended {n : Nat} (hn : 128 ≤ n) {s u : State} (hu : ∀ j, j ≠ n → u.run j = s.run j) :
    ModelEnded n (u.run n).ch s (stopModelRun n u) := by
  unfold stopModelRun
  extract_lets r a again b c
  have ha : ModelEnded n r.ch s a := handModel_ended n false (r.act 0x0F 1 (u.runFlags n r).toNat) hu
  have hb : ModelEnded n r.ch s b := ha.updMEng _ (by exact fun _ => rfl)
  have hc : ModelEnded n r.ch s c := ite_keep hb (bump_keep (.modelEnded rfl rfl _ _ s) _ _ hb)
  exact (meEvent_keep (.modelEnded rfl rfl _ _ s) _ _ _ _ (setEvt_keep (.modelEnded rfl rfl _ _ s) _ _ _ hc)).evidence hn

theorem iaEnd_model {e : Fin 160} {err : Fin 5} {w : W} {s : State} (he : 128 ≤ e.val) (hlive : (s.run e.val).live = true)
    (hword : (s.runWords (s.run e.val))[(s.run e.val).pc]? = some w) (hop : opField w = 0x01) : Does (.iaEnd e err) s fun t =>
      (t.run e.val).live = false ∧ (∀ j, j ≠ e.val → t.run j = s.run j) ∧ (t.meng (e.val - 128)).sum.map (·.1) = some (s.run e.val).ch := by
  obtain ⟨hch, hother⟩ := wordFinding_run e.val err.val s
  let u := if err.val = 4 then (wordFinding e.val err.val s).updRun e.val (fun r => { r with evid := true }) else wordFinding e.val err.val s
  have hrow : exec (.iaEnd e err) s = .next (if err.val = 2 then stopModelRun e.val u else endModelRun e.val u) := by
    change execIaEnd e err s = _
    simp [execIaEnd, hlive, hword, hop, Nat.not_lt.2 he, u]
  have hu : ∀ j, j ≠ e.val → u.run j = s.run j := fun j hj => by
    unfold u
    split
    · rw [State.updRun_run, if_neg hj, hother j hj]
    · exact hother j hj
  have huch : (u.run e.val).ch = (s.run e.val).ch := by
    unfold u
    split
    · rw [State.updRun_run, if_pos rfl, ← hch]
    · exact hch
  have hended : ModelEnded e.val (u.run e.val).ch s (if err.val = 2 then stopModelRun e.val u else endModelRun e.val u) :=
    ite_keep (stopModelRun_ended he hu) (endModelRun_ended he hu)
  exact ⟨_, hrow, hended.live, hended.others, huch ▸ hended.sum⟩

end Sys2Proof.Machine
end

section
/-! SUPPORT. The acts of a run of one of Dwentora's images, from the one pass of its law (R239, log 33). -/

namespace Sys2Proof.Machine

open Sys2Proof

-- ---- the pass of the law that a run's first act formed (log 33)
theorem lawRun_eq (op e : Nat) (s : State) : ∃ cc, lawRun op e s = s.setRun e { s.run e with cc, law := some (s.lawNow e) } := ⟨_, rfl⟩

theorem lawRun_law (op e : Nat) (s : State) : ((lawRun op e s).run e).law = some (s.lawNow e) := by
  obtain ⟨cc, heq⟩ := lawRun_eq op e s
  rw [heq, State.setRun_read, if_pos rfl]

theorem lawRun_active (op e : Nat) (s : State) : (lawRun op e s).active ((lawRun op e s).run e) = s.active (s.run e) := by
  obtain ⟨cc, heq⟩ := lawRun_eq op e s
  rw [heq, State.setRun_read, if_pos rfl]
  rfl

theorem lawRun_ch (op e : Nat) (s : State) : ((lawRun op e s).run e).ch = (s.run e).ch := by
  obtain ⟨cc, heq⟩ := lawRun_eq op e s
  rw [heq, State.setRun_read, if_pos rfl]

theorem lawNow_of_formed {e : Nat} {s : State} {o : LawOut} (h : (s.run e).law = some o) : s.lawNow e = o := by
  rw [State.lawNow, h, Option.getD_some]

theorem lawLse_law (e : Nat) (s : State) : ((lawLse e s).run e).law = some (s.lawNow e) := by
  unfold lawLse
  rw [State.setRun_read, if_pos rfl, ← lawRun_law 0x32]
  rfl

theorem lawErr_law (e : Nat) (s : State) : ((lawErr e s).run e).law = some (s.lawNow e) := by
  unfold lawErr
  rw [actErr_run, ← lawRun_law 0x2F]
  rfl

theorem lawAct_law (e : Nat) (s : State) : ((lawAct e s).run e).law = some (s.lawNow e) := by
  unfold lawAct
  rw [actOut_run, ← lawRun_law 0x3D]
  rfl

theorem lawAct_commands {e : Nat} {s : State} (h : s.active (s.run e) = true) :
    ((lawAct e s).chan (s.run e).ch).cmdQ = some (BitVec.ofInt 16 (s.lawNow e).c).toInt := by
  unfold lawAct
  rw [actOut_active _ ((lawRun_active ..).trans h), lawRun_ch, State.setChan_read, if_pos rfl]

theorem lawCap_run (e : Nat) (s : State) : ((lawCap e s).run e).law = some (s.lawNow e) ∧
    ((lawCap e s).run e).cap = BitVec.ofInt 16 (s.lawNow e).iref := by
  unfold lawCap
  rw [State.setRun_read, if_pos rfl, ← lawRun_law 0x34]
  exact ⟨rfl, rfl⟩

-- ---- the acts
theorem does_stdAct {row : Instr} {op : Nat} {e : Fin 160} {w : W} {s : State} {g : State → State} {f : W → State → State}
    {P : State → Prop} (hrow : exec row s = .next (iaStd op 1 e.val 0 g f s)) (hlive : (s.run e.val).live = true) (hstd : s.stdRun (s.run e.val) = true)
    (hword : (s.runWords (s.run e.val))[(s.run e.val).pc]? = some w) (hop : opField w = op) (hskip : (s.run e.val).skip ≤ (s.run e.val).pc)
    (hP : P ((g s).updRun e.val (fun x => x.advance 1))) : Does row s P := by
  refine ⟨_, hrow, ?_⟩
  have hstep : iaStd op 1 e.val 0 g f s = (g s).updRun e.val (fun x => x.advance 1) := by
    simp [iaStd, iaStep, hword, hlive, hop, hstd, wordFinding, Nat.not_lt.2 hskip]
  rwa [hstep]

/-- The acts of a run of one of Dwentora's images, each from the one pass of its law (log 33). -/
theorem stdRun_acts (e : Fin 160) (w : W) (s : State) (row : Fin 5 → Instr) (op : Nat) (f : State → State) : let r := s.run e.val
    (row, op, f) ∈ [(Instr.iaLse e, 0x32, lawLse e.val), (.iaErr e, 0x2F, lawErr e.val), (.iaSth e, 0x09, lawStore e.val),
      (.iaOut e, 0x3D, lawAct e.val), (.iaStw e, 0x0B, stdStates e.val), (.iaCap e, 0x34, lawCap e.val), (.iaClm e, 0x36, modelClamp e.val)] →
    r.live = true → s.stdRun r = true → (s.runWords r)[r.pc]? = some w → opField w = op → r.skip ≤ r.pc →
    Does (row 0) s fun t => t = (f s).updRun e.val (fun x => x.advance 1) ∧
      (op = 0x3D → r.model = false → s.active r = true → (t.chan r.ch).cmdQ = some (BitVec.ofInt 16 (s.lawNow e.val).c).toInt) ∧
      (op = 0x34 → (t.run e.val).cap = BitVec.ofInt 16 (s.lawNow e.val).iref) ∧
      (op ∈ [0x32, 0x2F, 0x3D, 0x34] → ∀ o, r.law = some o → (t.run e.val).law = some o) := by
  intro r hrow hlive hstd hword hop hskip
  have hlaw {u : State} (hu : (u.run e.val).law = some (s.lawNow e.val)) (o : LawOut) (ho : r.law = some o) :
      ((u.updRun e.val (fun x => x.advance 1)).run e.val).law = some o := by
    rw [State.updRun_run, if_pos rfl, ← lawNow_of_formed ho, ← hu]
    rfl
  have hcap : (((lawCap e.val s).updRun e.val (fun x => x.advance 1)).run e.val).cap = BitVec.ofInt 16 (s.lawNow e.val).iref := by
    obtain ⟨-, hiref⟩ := lawCap_run e.val s
    rw [State.updRun_run, if_pos rfl, ← hiref]
    rfl
  have hnot {p q : Prop} [Decidable p] (h : decide p = false) (hp : p) : q := absurd hp (of_decide_eq_false h)
  simp only [List.mem_cons, List.not_mem_nil, or_false, Prod.mk.injEq] at hrow
  rcases hrow with ⟨rfl, rfl, rfl⟩ | ⟨rfl, rfl, rfl⟩ | ⟨rfl, rfl, rfl⟩ | ⟨rfl, rfl, rfl⟩ | ⟨rfl, rfl, rfl⟩ | ⟨rfl, rfl, rfl⟩ | ⟨rfl, rfl, rfl⟩
  all_goals refine does_stdAct rfl hlive hstd hword hop hskip ⟨rfl, ?_⟩
  · exact ⟨hnot rfl, hnot rfl, fun _ => hlaw (lawLse_law ..)⟩
  · exact ⟨hnot rfl, hnot rfl, fun _ => hlaw (lawErr_law ..)⟩
  · exact ⟨hnot rfl, hnot rfl, hnot rfl⟩
  · exact ⟨fun _ _ => lawAct_commands, hnot rfl, fun _ => hlaw (lawAct_law ..)⟩
  · exact ⟨hnot rfl, hnot rfl, hnot rfl⟩
  · exact ⟨hnot rfl, fun _ => hcap, fun _ => hlaw (lawCap_run ..).1⟩
  · exact ⟨hnot rfl, hnot rfl, hnot rfl⟩

/-- Settles O60: each clause is the lemma of its word; an END by `endLoopRun` or, of a model run, by `ModelEnded`. -/
theorem iatiaRunsLoadStoreCommandLoopAndEnd : Obligations.IatiaRunsLoadStoreCommandLoopAndEnd := by
  unfold Obligations.IatiaRunsLoadStoreCommandLoopAndEnd
  refine ⟨fun e w s => ⟨iaLdh_does, iaLdw_does, ?_, ?_, iaSth_does, iaStw_does, fun h => iaStd_row rfl h rfl rfl, fun h => does_word rfl h rfl rfl,
    fun h => iaStd_row rfl h rfl rfl, iaOut_does, iaClm_does, iaErr_records, fun h => does_word rfl h rfl rfl, fun h => ?_⟩,
    fun e w s row op cost hrow hlive hword hop => ⟨fun hskip => ?_, ?_⟩, fun e w s h he => iaEnd_loop h he, fun e err s => iaEnd_idle,
    fun e err w s => iaEnd_model, stdRun_acts, fun e s => rfl⟩
  · intro n o _ hp
    rw [loadView_state hp]
    exact ⟨rfl, rfl⟩
  · intro n hp
    rw [loadView_outside hp]
    refine ⟨rfl, ?_⟩
    rw [boundsFault_run, if_pos rfl]
  · refine does_word rfl h rfl ?_
    dsimp only
    split <;> rfl
  · simp only [List.mem_cons, List.not_mem_nil, or_false, Prod.mk.injEq] at hrow
    rcases hrow with ⟨rfl, rfl, rfl⟩ | ⟨rfl, rfl, rfl⟩ | ⟨rfl, rfl, rfl⟩ | ⟨rfl, rfl, rfl⟩ | ⟨rfl, rfl, rfl⟩ | ⟨rfl, rfl, rfl⟩ |
      ⟨rfl, rfl, rfl⟩ | ⟨rfl, rfl, rfl⟩ | ⟨rfl, rfl, rfl⟩ | ⟨rfl, rfl, rfl⟩ | ⟨rfl, rfl, rfl⟩
    all_goals exact does_skipped rfl hlive hword hop hskip
  · simp only [List.mem_cons, List.not_mem_nil, or_false, Prod.mk.injEq] at hrow
    rcases hrow with ⟨rfl, rfl, rfl⟩ | ⟨rfl, rfl, rfl⟩ | ⟨rfl, rfl, rfl⟩ | ⟨rfl, rfl, rfl⟩ | ⟨rfl, rfl, rfl⟩ | ⟨rfl, rfl, rfl⟩ |
      ⟨rfl, rfl, rfl⟩ | ⟨rfl, rfl, rfl⟩ | ⟨rfl, rfl, rfl⟩ | ⟨rfl, rfl, rfl⟩ | ⟨rfl, rfl, rfl⟩
    all_goals exact does_doubleBit rfl hlive hword hop

end Sys2Proof.Machine
end

section
/-! SUPPORT. Captures: rows with several own checks, the requests, and the entries of a running capture (R147, R244 to R247, R308). -/

namespace Sys2Proof.Machine

open Sys2Proof

-- ---- rows with several own checks
/-- The row's next state by its equation, to be read check by check. -/
theorem does_next {c : Instr} {s u : State} {P : State → Prop} (hrow : exec c s = .next u) (h : ∀ t, t = u → P t) : Does c s P :=
  ⟨u, hrow, h u rfl⟩

theorem checked_next {e : CmdEntry} {ok : Bool} {st chk : Nat} {l : List (Bool × Nat × Nat)} {eff : State → State} {u : State}
    (hok : ok = true) : checked e ((ok, st, chk) :: l) eff u = checked e l eff u := by
  rw [hok]
  rfl

/-- The first own check refuses where `bad` holds; elsewhere the others decide. -/
theorem if_checked {e : CmdEntry} {ok : Bool} {st chk : Nat} {l : List (Bool × Nat × Nat)} {eff : State → State} {u t : State}
    {bad A B : Prop} [Decidable bad] (ht : t = checked e ((ok, st, chk) :: l) eff u) (hbad : bad ↔ ok = false)
    (hrefused : t = refuse e st chk u → A) (hrest : ¬bad → t = checked e l eff u → B) : if bad then A else B := by
  cases ok with
  | false => rw [if_pos (hbad.2 rfl)]; exact hrefused ht
  | true =>
    have hpass : ¬bad := fun h => absurd (hbad.1 h) (by decide)
    rw [if_neg hpass]
    exact hrest hpass ht

-- ---- captures: the requests (R245, R246, R308)
theorem refused_caps {e : CmdEntry} {st chk : Nat} {u t : State} (h : t = refuse e st chk u) : Posted e st 0 chk u t ∧ t.caps = u.caps := by
  obtain rfl := h
  exact ⟨complete_posted e st 0 chk rfl, rfl⟩

/-- The signals in ascending number are those named. -/
theorem mem_ascending {l : List Nat} (hl : ∀ c ∈ l, c < 16) (c : Nat) :
    c ∈ (List.range 16).flatMap (fun k => l.filter (fun y => y == k)) ↔ c ∈ l := by
  simp only [List.mem_flatMap, List.mem_range, List.mem_filter, beq_iff_eq]
  exact ⟨fun ⟨_, _, hc, _⟩ => hc, fun hc => ⟨c, hl c hc, hc, rfl⟩⟩

theorem fieldN_lt (x lo width : Nat) : fieldN x lo width < 2 ^ width := Nat.mod_lt _ (by positivity)

/-- The signals that CAP.NEW names. -/
def namedSignals (e : CmdEntry) : List Nat := (List.range (fld (opN e 1) 6 2 + 1)).map (fun i => fld (opN e 1) (16 + 4 * i) 4)

theorem namedSignals_lt (e : CmdEntry) : ∀ c ∈ namedSignals e, c < 16 := by
  intro c hc
  obtain ⟨i, -, rfl⟩ := List.mem_map.1 hc
  exact fieldN_lt ..

/-- The capture that CAP.NEW asks for. -/
def newCap (e : CmdEntry) : Cap :=
  { Cap.none with
    live := true, chan := hIndex (opN e 0), codes := BitVec.ofNat 16 (fld (opN e 1) 16 16)
    sigs := (List.range 16).flatMap (fun c => (namedSignals e).filter (fun y => y == c)), layout := fld (opN e 1) 4 2
    decim := fld (opN e 1) 8 8 + 1, trig := bitOf (opN e 1) 3, cont := bitOf (opN e 1) 2, target := (opN e 2).toNat }

/-- What CAP.NEW does of its own once its checks have passed. -/
def capNewNow (e : CmdEntry) (u : State) : State :=
  let i := (u.freeIndex 5).getD 0
  acceptNow e (mkHandle 5 i (u.gen 5 i)) (u.setCap i (newCap e))

theorem capNewNow_takes (e : CmdEntry) {u : State} {i : Nat} (hi : u.freeIndex 5 = some i) :
    Posted e stOk (mkHandle 5 i (u.gen 5 i)) 0 u (capNewNow e u) ∧ (∀ j, j ≠ i → (capNewNow e u).cap j = u.cap j) ∧
      (capNewNow e u).cap i = newCap e := by
  simp only [capNewNow, hi, Option.getD_some]
  exact ⟨acceptNow_posted e _ rfl, fun j hj => by simp [acceptNow, hj], by simp [acceptNow]⟩

theorem capNew_eq {e : CmdEntry} {s : State} (h : s.accepts e 0x0701) : exec (.capNew e) s = .next (checked e
    [(((s.untake e).freeIndex 5).isSome, stNoRes, 0xF7),
      ((newCap e).sigs.all (fun c => decide (c < 12)) && fld (opN e 1) 4 2 != 3, stNoRes, 1),
      (bitOf (opN e 1) 2 == ((opN e 2).toNat == 0), stNoRes, 2),
      (decide ((opN e 2).toNat ≤ ((s.untake e).chan (hIndex (opN e 0))).adm.largest), stSize, 3)]
    (capNewNow e) (s.untake e)) :=
  congrArg Host.Outcome.next (commandRow_accepted h)

theorem capNew_full {e : CmdEntry} {s : State} (h : s.accepts e 0x0701) (hi : (s.untake e).freeIndex 5 = none) :
    Does (.capNew e) s fun t => Posted e stNoRes 0 0xF7 (s.untake e) t ∧ t.caps = (s.untake e).caps :=
  does_next (capNew_eq h) fun _ ht => refused_caps (ht.trans (checked_fails (by rw [hi]; rfl)))

theorem capNew_does {e : CmdEntry} {s : State} {i : Nat} (h : s.accepts e 0x0701) (hi : (s.untake e).freeIndex 5 = some i) :
    let u := s.untake e; let o := opN e 1; let named := namedSignals e
    Does (.capNew e) s fun t =>
      if ¬((∀ c ∈ named, c < 12) ∧ fld o 4 2 ≠ 3) then Posted e stNoRes 0 1 u t ∧ t.caps = u.caps
      else if ¬(bitOf o 2 = true ↔ opN e 2 = 0) then Posted e stNoRes 0 2 u t ∧ t.caps = u.caps
      else if (u.chan (hIndex (opN e 0))).adm.largest < (opN e 2).toNat then Posted e stSize 0 3 u t ∧ t.caps = u.caps
      else Posted e stOk (mkHandle 5 i (u.gen 5 i)) 0 u t ∧ (∀ j, j ≠ i → t.cap j = u.cap j) ∧ let x := t.cap i
        x.live = true ∧ x.chan = hIndex (opN e 0) ∧ x.codes = BitVec.ofNat 16 (fld o 16 16) ∧
          x.sigs = (List.range 16).flatMap (fun c => named.filter (fun y => y == c)) ∧ x.layout = fld o 4 2 ∧ x.decim = fld o 8 8 + 1 ∧
          x.trig = bitOf o 3 ∧ x.cont = bitOf o 2 ∧ x.target = (opN e 2).toNat ∧ x.st = 0 ∧ x.queued = [] := by
  intro u o named
  refine does_next (capNew_eq h) fun t ht => ?_
  have hfree : (u.freeIndex 5).isSome = true := by rw [hi]; rfl
  refine if_checked (ht.trans (checked_next hfree)) ?_ refused_caps fun _ ht => if_checked ht ?_ refused_caps fun _ ht =>
    if_checked ht ?_ refused_caps fun _ ht => ?_
  · have hsigs : (∀ c ∈ (newCap e).sigs, c < 12) ↔ ∀ c ∈ named, c < 12 :=
      forall_congr' fun c => imp_congr_left (mem_ascending (namedSignals_lt e) c)
    simp [← hsigs, o]
  · have hzero : (opN e 2).toNat = 0 ↔ opN e 2 = 0 := (BitVec.toNat_eq (y := 0)).symm
    rw [beq_eq_false_iff_ne, ne_eq, not_iff_not, Bool.eq_iff_iff (b := (opN e 2).toNat == 0), beq_iff_eq, hzero]
  · rw [decide_eq_false_iff_not, not_le]
  · obtain ⟨hposted, hothers, hcap⟩ := capNewNow_takes e hi
    obtain rfl : t = capNewNow e u := ht
    refine ⟨hposted, hothers, ?_⟩
    rw [hcap]
    exact ⟨rfl, rfl, rfl, rfl, rfl, rfl, rfl, rfl, rfl, rfl, rfl⟩

-- ---- captures that start, stop and go (R245, R246, R308)
theorem capStart_does (e : CmdEntry) (s : State) (h : s.accepts e 0x0702) : let u := s.untake e; let i := hIndex (opN e 0)
    let running := (tkeys u.caps).filter (fun j => (u.cap j).live && ((u.cap j).st == 1 || (u.cap j).st == 2))
    Does (.capStart e) s fun t =>
      if (u.capOf (u.cap i).chan).isSome = true then Posted e stBusy 0 1 u t ∧ t.caps = u.caps
      else if u.capsFit (running ++ [i]) = false then Posted e stOverBudget 0 2 u t ∧ t.caps = u.caps
      else Posted e stOk 0 0 u t ∧ (t.cap i).st = 1 ∧ (t.cap i).wptr = 0 ∧ (t.cap i).wraps = 0 ∧ (t.cap i).count = 0 ∧
        (t.cap i).queued = [] ∧ (t.cap i).sigs = (u.cap i).sigs ∧ ∀ j, j ≠ i → t.cap j = u.cap j := by
  intro u i running
  refine does_next (congrArg Host.Outcome.next (commandRow_accepted h)) fun t ht => ?_
  refine if_checked ht (by simp [u, i]) refused_caps fun _ ht => if_checked ht Iff.rfl refused_caps fun _ ht => ?_
  rw [ht]
  refine ⟨acceptNow_posted e 0 rfl, ?_⟩
  simp +contextual [checked, firstFail, acceptNow, i, u]

theorem capStop_does (e : CmdEntry) (s : State) (h : s.accepts e 0x0703) : let u := s.untake e; let i := hIndex (opN e 0)
    Does (.capStop e) s fun t =>
      if (u.cap i).st ≠ 1 ∧ (u.cap i).st ≠ 2 then Posted e stState 0 1 u t ∧ t.caps = u.caps
      else (t.cap i).st = 3 ∧ (t.cap i).queued = (u.cap i).queued ∧
        if (u.cap i).queued = [] then Posted e stOk 0 0 u t else InProgress e u t ∧ (t.cap i).stopping = true := by
  intro u i
  refine does_next (congrArg Host.Outcome.next (commandRow_accepted h)) fun t ht => ?_
  refine if_checked ht (by simp [u, i]) refused_caps fun _ ht => ?_
  cases hq : (u.cap i).queued with
  | nil =>
    have hacts : t = acceptNow e 0 (u.setCap i { u.cap i with st := 3 }) := ht.trans (if_pos (by rw [hq]; rfl))
    rw [hacts, if_pos rfl]
    exact ⟨by simp [acceptNow], by simp [acceptNow, hq], acceptNow_posted e 0 rfl⟩
  | cons v r =>
    have hacts : t = acceptLater e 0 (u.setCap i { u.cap i with st := 3, stopping := true }) := ht.trans (if_neg (by rw [hq]; simp))
    rw [hacts, if_neg (by simp)]
    exact ⟨by simp [acceptLater], by simp [acceptLater, hq], acceptLater_inProgress e rfl rfl, by simp [acceptLater]⟩

theorem capDel_does (e : CmdEntry) (s : State) (h : s.accepts e 0x0704) : let u := s.untake e; let i := hIndex (opN e 0)
    Does (.capDel e) s fun t =>
      if (u.cap i).st = 1 ∨ (u.cap i).st = 2 then Posted e stBusy 0 1 u t ∧ t.caps = u.caps
      else Posted e stOk 0 0 u t ∧ t.cap i = Cap.none ∧ t.gen 5 i = nextGen (u.gen 5 i) ∧ ∀ j, j ≠ i → t.cap j = u.cap j := by
  intro u i
  refine does_next (congrArg Host.Outcome.next (commandRow_accepted h)) fun t ht => ?_
  refine if_checked ht (by simp [u, i, or_iff_not_imp_left]) refused_caps fun _ ht => ?_
  have hacts : t = acceptNow e 0 ((u.setCap i Cap.none).advGen 5 i) := ht
  rw [hacts]
  refine ⟨acceptNow_posted e 0 rfl, by simp [acceptNow], ?_, fun j hj => by simp [acceptNow, hj]⟩
  exact (State.gen_advGen ..).trans (if_pos rfl)

-- ---- captures that run (R147, R244, R247)
/-- A row that acts where its guard holds and elsewhere changes nothing. -/
theorem does_guarded {c : Instr} {s u : State} {b : Bool} {cond : Prop} [Decidable cond] {P : State → Prop}
    (hrow : exec c s = if b = true then .next u else .next s) (hb : b = true ↔ cond) (hacts : cond → P u) :
    Does c s fun t => if cond then P t else t = s := by
  by_cases hc : cond
  · exact ⟨u, hrow.trans (if_pos (hb.2 hc)), (if_pos hc).mpr (hacts hc)⟩
  · exact ⟨s, hrow.trans (if_neg (mt hb.1 hc)), (if_neg hc).mpr rfl⟩

theorem capTrigger_does (i : Fin 1024) (s : State) : Does (.capTrigger i) s fun t => let x := s.cap i.val
    if x.live = true ∧ x.st = 1 ∧ (x.trig = true → (s.injOf x.chan).any (fun j => (s.inj j).st == 2) = true) then
      (t.cap i.val).st = 2 ∧ (t.cap i.val).skip = 0 ∧ ∀ j, j ≠ i.val → t.cap j = s.cap j
    else t = s := by
  refine does_guarded rfl ?_ fun _ => by simp +contextual
  cases s.injOf (s.cap i.val).chan with
  | none => simp [and_assoc]
  | some j => simp [and_assoc, imp_iff_not_or]

theorem capDone_does (i : Fin 1024) (s : State) : Does (.capDone i) s fun t => let x := s.cap i.val
    if x.live = true ∧ x.st = 2 ∧ x.target ≠ 0 ∧ x.count = x.target then (t.cap i.val).st = 3 ∧ (t.cap i.val).queued = x.queued
    else t = s :=
  does_guarded rfl (by simp [and_assoc]) fun _ => by simp

theorem sumL_toNat {α : Type} (p : α → Bool) (l : List α) : sumL l (fun a => (p a).toNat) = l.countP p := by
  have hacc (l : List α) (n : Nat) : l.foldl (fun n a => n + (p a).toNat) n = n + l.countP p := by
    induction l generalizing n with
    | nil => simp
    | cons a l ih =>
      rw [List.foldl_cons, ih, List.countP_cons]
      cases p a <;> simp; omega
  exact (hacc l 0).trans (Nat.zero_add _)

theorem countP_failing (fails : BitVec 4) (n : Nat) :
    (List.range n).countP (fun k => fails.getLsbD k) = sumL (List.range n) (fun k => fieldN fails.toNat k 1) := by
  simp only [fieldN_one]
  exact (sumL_toNat ..).symm

theorem captured_getElem? (c : Chan) (sigs : List Nat) (fails : BitVec 4) (k : Nat) (hk : k < sigs.length) :
    (c.captured sigs fails.toNat)[k]? = some (if fails.getLsbD k = true then 0x800000
      else (c.signal (sigs.getD k 0) c.latch.tc c.latch.exc).getD 0) := by
  simp [Chan.captured, hk, fieldN_one_eq_one, BitVec.testBit_toNat]

theorem State.putDram_dramBytes (s : State) (a : Nat) (l : List (BitVec 8)) : (s.putDram a l).dramBytes a l.length = l := by
  refine List.ext_getElem (by simp [State.dramBytes]) fun k hk hl => ?_
  simp [State.dramBytes, State.putDram_read, hl]

-- ---- CAP_ENTRY_RECORD (R244, R247)
/-- The report of operands that fail parity on a channel. -/
def parityReport (c : Chan) (ch : Nat) : Report :=
  { source := srcFlock c.flock, cause := Config.capParityCause.toNat, cls := 0, okind := 1, object := ch }

/-- The failing operands counted and, where there are any, reported. -/
def parityCounted (ch n : Nat) (s : State) : State :=
  let u := s.addReg (capReg (s.chan ch).adm.first 0x1C) n
  if n = 0 then u else queueRep (parityReport (s.chan ch) ch) u

theorem parityCounted_reg (ch n : Nat) (s : State) (a : Nat) : (parityCounted ch n s).reg a =
    if a = capReg (s.chan ch).adm.first 0x1C then s.reg a + BitVec.ofNat 32 n else s.reg a := by
  unfold parityCounted
  dsimp only
  split_ifs <;> simp [*]

theorem parityCounted_col (ch n : Nat) (s : State) : if n = 0 then (parityCounted ch n s).col = s.col
    else ∃ r, r.cls = 0 ∧ r.object = ch ∧ (parityCounted ch n s).col.srcQ = s.col.srcQ ++ [r] := by
  unfold parityCounted
  dsimp only
  split_ifs
  · rfl
  · exact ⟨parityReport (s.chan ch) ch, rfl, rfl, by simp [queueRep_col]⟩

/-- The entry of a run has joined the capture's queue. -/
def entryFormed (i : Nat) (fails : BitVec 4) (s : State) : State :=
  let x := s.cap i
  (parityCounted x.chan ((List.range x.sigs.length).countP (fun k => fails.getLsbD k)) s).setCap i
    { x with skip := 0, formed := x.formed + 1, queued := x.queued ++ [(s.chan x.chan).captured x.sigs fails.toNat] }

theorem capEntryRecord_eq (i : Fin 1024) (fails : BitVec 4) (s : State) : let x := s.cap i.val
    exec (.capEntryRecord i fails) s =
      if (x.live && x.st == 2 && decide (x.decim ≤ x.skip) && (x.target == 0 || decide (x.formed < x.target))) = true then
        .next (entryFormed i.val fails s) else .next s := by
  intro x
  simp only [entryFormed, countP_failing]
  rfl

theorem capEntryRecord_does (i : Fin 1024) (fails : BitVec 4) (s : State) : Does (.capEntryRecord i fails) s fun t =>
    let x := s.cap i.val; let c := s.chan x.chan
    if x.live = true ∧ x.st = 2 ∧ x.decim ≤ x.skip ∧ (x.target = 0 ∨ x.formed < x.target) then
      (t.cap i.val).queued = x.queued ++ [c.captured x.sigs fails.toNat] ∧ (t.cap i.val).formed = x.formed + 1 ∧ (t.cap i.val).skip = 0 ∧
        (∀ a, t.reg a = if a = capReg c.adm.first 0x1C then
          s.reg a + BitVec.ofNat 32 ((List.range x.sigs.length).countP (fun k => fails.getLsbD k)) else s.reg a) ∧
        (if (List.range x.sigs.length).countP (fun k => fails.getLsbD k) = 0 then t.col = s.col
          else ∃ r, r.cls = 0 ∧ r.object = x.chan ∧ t.col.srcQ = s.col.srcQ ++ [r])
    else t = s := by
  refine does_guarded (capEntryRecord_eq i fails s) (by simp [and_assoc]) fun _ => ?_
  exact ⟨by simp [entryFormed], by simp [entryFormed], by simp [entryFormed], parityCounted_reg _ _ s, parityCounted_col _ _ s⟩

-- ---- CAP_ENTRY_COMMIT (R147, R245)
/-- The oldest entry `v` written to its place, those of `r` still waiting, and the position advanced. -/
def entryCommitted (i : Nat) (v : List (BitVec 24)) (r : List (List (BitVec 24))) (s : State) : State :=
  let x := s.cap i
  let a := (s.chan x.chan).adm
  let wrap := decide (a.ringEntries ≤ x.wptr + 1)
  (s.putDram (a.capAt + x.wptr * x.bytes) (v.flatMap (encodeSample x.layout))).setCap i { x with
    queued := r, wptr := if wrap then 0 else x.wptr + 1, wraps := if wrap then (x.wraps + 1) % 2 ^ 32 else x.wraps
    count := (x.count + 1) % 2 ^ 32, stopping := x.stopping && !(x.stopping && r.isEmpty) }

theorem capEntryCommit_eq {i : Fin 1024} {s : State} {v : List (BitVec 24)} {r : List (List (BitVec 24))} (hq : (s.cap i.val).queued = v :: r) :
    exec (.capEntryCommit i) s = .next (if ((s.cap i.val).stopping && r.isEmpty) = true then
      finishObj 0x0703 (5, i.val) stOk (entryCommitted i.val v r s) else entryCommitted i.val v r s) := by
  change execCapEntryCommit i s = _
  unfold execCapEntryCommit
  simp only [hq]
  rfl

theorem capEntryCommit_idle {i : Fin 1024} {s : State} (hq : (s.cap i.val).queued = []) : Does (.capEntryCommit i) s fun t => t = s := by
  refine ⟨s, ?_, rfl⟩
  change execCapEntryCommit i s = _
  unfold execCapEntryCommit
  simp only [hq]

theorem capEntryCommit_does {i : Fin 1024} {s : State} {v : List (BitVec 24)} {r : List (List (BitVec 24))} (hq : (s.cap i.val).queued = v :: r) :
    Does (.capEntryCommit i) s fun t => let x := s.cap i.val; let a := (s.chan x.chan).adm
      let b := v.flatMap (encodeSample x.layout); let at_ := a.capAt + x.wptr * x.bytes
      t.dramBytes at_ b.length = b ∧ (∀ y, y < at_ ∨ at_ + b.length ≤ y → t.dramByte y = s.dramByte y) ∧
        (t.cap i.val).queued = r ∧ (t.cap i.val).count = (x.count + 1) % 2 ^ 32 ∧
        (t.cap i.val).wptr = (if a.ringEntries ≤ x.wptr + 1 then 0 else x.wptr + 1) ∧
        (t.cap i.val).wraps = (if a.ringEntries ≤ x.wptr + 1 then (x.wraps + 1) % 2 ^ 32 else x.wraps) := by
  refine does_next (capEntryCommit_eq hq) fun t ht => ?_
  obtain ⟨hdram, hcaps⟩ : t.dram = (entryCommitted i.val v r s).dram ∧ t.caps = (entryCommitted i.val v r s).caps := by
    rw [ht]
    split
    · exact ⟨finishObj_keep (.same (p := .dram) rfl _) _ _ _ _ rfl, finishObj_keep (.same (p := .caps) rfl _) _ _ _ _ rfl⟩
    · exact ⟨rfl, rfl⟩
  have hbyte (y : Nat) : t.dramByte y = (s.putDram ((s.chan (s.cap i.val).chan).adm.capAt + (s.cap i.val).wptr * (s.cap i.val).bytes)
      (v.flatMap (encodeSample (s.cap i.val).layout))).dramByte y := congrArg (tget 0 · y) hdram
  have hcap : t.cap i.val = (entryCommitted i.val v r s).cap i.val := congrArg (tget Cap.none · i.val) hcaps
  rw [hcap]
  refine ⟨?_, fun y hy => ?_, by simp [entryCommitted], by simp [entryCommitted], by simp [entryCommitted], by simp [entryCommitted]⟩
  · simp only [State.dramBytes, hbyte]
    exact State.putDram_dramBytes ..
  · rw [hbyte, State.putDram_read, dif_neg (by omega)]

/-- Settles O34: a request is read check by check (`if_checked`); an entry is formed by `entryFormed` and written by `entryCommitted`. -/
theorem capturesAreCheckedFormedWrittenAndEnded : Obligations.CapturesAreCheckedFormedWrittenAndEnded := by
  unfold Obligations.CapturesAreCheckedFormedWrittenAndEnded
  refine ⟨fun e s h => ?_, capStart_does, capStop_does, capDel_does, capTrigger_does, capEntryRecord_does, captured_getElem?, fun i s => ?_,
    capDone_does⟩
  · cases hi : (s.untake e).freeIndex 5 with
    | none => simpa only [hi] using capNew_full h hi
    | some i =>
      simp only [hi]
      exact capNew_does h hi
  · cases hq : (s.cap i.val).queued with
    | nil => simpa only [hq] using capEntryCommit_idle hq
    | cons v r => simpa only [hq] using capEntryCommit_does hq

end Sys2Proof.Machine
end

section
/-! SUPPORT. Injections: the requests, the end at the length, and the chunks of a host sequence (R241 to R243, R308, R309). -/

namespace Sys2Proof.Machine

open Sys2Proof

-- ---- INJ_NEW (R241, R309)
theorem refused_injs {e : CmdEntry} {st chk : Nat} {u t : State} (h : t = refuse e st chk u) : Posted e st 0 chk u t ∧ t.injs = u.injs := by
  obtain rfl := h
  exact ⟨complete_posted e st 0 chk rfl, rfl⟩

/-- The injection that INJ.NEW asks for, with the tone table as the state holds it. -/
def newInj (e : CmdEntry) (u : State) : Inj :=
  let src := fld (opN e 1) 4 3
  { Inj.none with
    live := true, chan := hIndex (opN e 0), amp := sx 16 (fld (opN e 1) 16 16), point := fld (opN e 1) 8 2, src, len := (opN e 2).toNat
    tones := if src = 4 then u.tones (opN e 4).toNat (opN e 5).toNat else [], p3 := opN e 3, p4 := opN e 4, p5 := opN e 5 }

/-- Another source writes the channel's excitation input. -/
def State.excBound (s : State) (ch : Nat) : Bool := s.liveBinds.any (fun i => (s.bind i).chan == ch && (s.bind i).input == 2)

/-- What INJ.NEW does of its own once its checks have passed. -/
def injNewNow (e : CmdEntry) (u : State) : State :=
  let i := (u.freeIndex 6).getD 0
  acceptNow e (mkHandle 6 i (u.gen 6 i)) (u.setInj i (newInj e u))

theorem injNewNow_takes (e : CmdEntry) {u : State} {i : Nat} (hi : u.freeIndex 6 = some i) :
    Posted e stOk (mkHandle 6 i (u.gen 6 i)) 0 u (injNewNow e u) ∧ (∀ j, j ≠ i → (injNewNow e u).inj j = u.inj j) ∧
      (injNewNow e u).inj i = newInj e u := by
  simp only [injNewNow, hi, Option.getD_some]
  exact ⟨acceptNow_posted e _ rfl, fun j hj => by simp [acceptNow, hj], by simp [acceptNow]⟩

theorem injNew_eq {e : CmdEntry} {s : State} (h : s.accepts e 0x0711) : let u := s.untake e
    let src := fld (opN e 1) 4 3; let o3 := opN e 3; let o4 := opN e 4; let o5 := opN e 5
    exec (.injNew e) s = .next (checked e
      [(fld (opN e 1) 8 2 != 0 && (u.injOf (hIndex (opN e 0))).isNone && !u.excBound (hIndex (opN e 0)) && u.injOk src o3 o4 o5 &&
          (u.freeIndex 6).isSome, stNoRes, 1),
        (((injWindow src o3 o4 o5).map (fun w => inWindows w.1 w.2)).getD true, stSize, 2),
        (src != 4 || decide (((u.tones o4.toNat o5.toNat).foldl (fun a x => a + absI x.2.1) 0) ≤ 32768), stNoRes, 3)] (injNewNow e) u) :=
  congrArg Host.Outcome.next (commandRow_accepted h)

theorem injNew_full {e : CmdEntry} {s : State} (h : s.accepts e 0x0711) (hi : (s.untake e).freeIndex 6 = none) :
    Does (.injNew e) s fun t => Posted e stNoRes 0 1 (s.untake e) t ∧ t.injs = (s.untake e).injs :=
  does_next (injNew_eq h) fun _ ht => refused_injs (ht.trans (checked_fails (by simp [firstFail, hi])))

theorem injNew_does {e : CmdEntry} {s : State} {i : Nat} (h : s.accepts e 0x0711) (hi : (s.untake e).freeIndex 6 = some i) :
    let u := s.untake e; let ch := hIndex (opN e 0); let o := opN e 1
    let src := fld o 4 3; let o3 := opN e 3; let o4 := opN e 4; let o5 := opN e 5
    Does (.injNew e) s fun t =>
      if fld o 8 2 = 0 ∨ (u.injOf ch).isSome = true ∨ u.excBound ch = true ∨ u.injOk src o3 o4 o5 = false then
        Posted e stNoRes 0 1 u t ∧ t.injs = u.injs
      else if (injWindow src o3 o4 o5).any (fun w => !inWindows w.1 w.2) = true then Posted e stSize 0 2 u t ∧ t.injs = u.injs
      else if src = 4 ∧ 32768 < (u.tones o4.toNat o5.toNat).foldl (fun a x => a + absI x.2.1) 0 then
        Posted e stNoRes 0 3 u t ∧ t.injs = u.injs
      else Posted e stOk (mkHandle 6 i (u.gen 6 i)) 0 u t ∧ (∀ j, j ≠ i → t.inj j = u.inj j) ∧ let x := t.inj i
        x.live = true ∧ x.chan = ch ∧ x.point = fld o 8 2 ∧ x.src = src ∧ x.amp = sx 16 (fld o 16 16) ∧ x.len = (opN e 2).toNat ∧
          x.st = 0 ∧ x.p3 = o3 ∧ x.p4 = o4 ∧ x.p5 = o5 ∧ x.tones = (if src = 4 then u.tones o4.toNat o5.toNat else []) := by
  intro u ch o src o3 o4 o5
  refine does_next (injNew_eq h) fun t ht => if_checked ht ?_ refused_injs fun _ ht => if_checked ht ?_ refused_injs fun _ ht =>
    if_checked ht ?_ refused_injs fun _ ht => ?_
  · have hfree : (u.freeIndex 6).isSome = true := by rw [hi]; rfl
    rw [hfree, Bool.and_true, Bool.and_eq_false_iff, Bool.and_eq_false_iff, Bool.and_eq_false_iff]
    simp [or_assoc, u, ch, o, src, o3, o4, o5]
  · cases injWindow src o3 o4 o5 <;> simp
  · rw [Bool.or_eq_false_iff, bne_eq_false_iff_eq, decide_eq_false_iff_not, not_le]
  · obtain ⟨hposted, hothers, hinj⟩ := injNewNow_takes e hi
    obtain rfl : t = injNewNow e u := ht
    refine ⟨hposted, hothers, ?_⟩
    rw [hinj]
    exact ⟨rfl, rfl, rfl, rfl, rfl, rfl, rfl, rfl, rfl, rfl, rfl⟩

-- ---- injections that start, stop and go (R241, R243, R308)
theorem injStart_does (e : CmdEntry) (s : State) (h : s.accepts e 0x0712) : let u := s.untake e; let i := hIndex (opN e 0); let x := u.inj i
    Does (.injStart e) s fun t =>
      if (u.chan x.chan).armed = false then Posted e stState 0 1 u t ∧ t.injs = u.injs
      else if x.st = 1 ∨ x.st = 2 then Posted e stBusy 0 2 u t ∧ t.injs = u.injs
      else if u.layerOf x.chan = true then Posted e stLayer 0 3 u t ∧ t.injs = u.injs
      else InProgress e u t ∧ (t.inj i).st = 1 ∧ (t.inj i).k = 0 ∧ (t.inj i).chunks = [] ∧ (t.inj i).stop = false ∧
        (t.inj i).zero = false ∧ (t.inj i).last = 0 ∧ (t.inj i).prbs = 2 ^ fld x.p3 0 5 - 1 ∧ ∀ j, j ≠ i → t.inj j = u.inj j := by
  intro u i x
  refine does_next (congrArg Host.Outcome.next (commandRow_accepted h)) fun t ht => if_checked ht Iff.rfl refused_injs fun _ ht =>
    if_checked ht (by simp [u, i, x, or_iff_not_imp_left]) refused_injs fun _ ht => if_checked ht (by simp [u, i, x]) refused_injs fun _ ht => ?_
  rw [ht]
  refine ⟨acceptLater_inProgress e rfl rfl, ?_⟩
  simp +contextual [checked, firstFail, acceptLater, u, i, x]

theorem injStop_does (e : CmdEntry) (s : State) (h : s.accepts e 0x0713) : let u := s.untake e; let i := hIndex (opN e 0)
    Does (.injStop e) s fun t =>
      if (u.inj i).st ≠ 1 ∧ (u.inj i).st ≠ 2 then Posted e stState 0 1 u t ∧ t.injs = u.injs
      else InProgress e u t ∧ t.inj i = { u.inj i with stop := true } ∧ ∀ j, j ≠ i → t.inj j = u.inj j := by
  intro u i
  refine does_next (congrArg Host.Outcome.next (commandRow_accepted h)) fun t ht => if_checked ht (by simp [u, i]) refused_injs fun _ ht => ?_
  rw [ht]
  refine ⟨acceptLater_inProgress e rfl rfl, ?_⟩
  simp +contextual [checked, firstFail, acceptLater, u, i]

theorem injDel_does (e : CmdEntry) (s : State) (h : s.accepts e 0x0714) : let u := s.untake e; let i := hIndex (opN e 0)
    Does (.injDel e) s fun t =>
      if (u.inj i).st = 1 ∨ (u.inj i).st = 2 then Posted e stBusy 0 1 u t ∧ t.injs = u.injs
      else Posted e stOk 0 0 u t ∧ t.inj i = Inj.none ∧ t.gen 6 i = nextGen (u.gen 6 i) ∧ ∀ j, j ≠ i → t.inj j = u.inj j := by
  intro u i
  refine does_next (congrArg Host.Outcome.next (commandRow_accepted h)) fun t ht =>
    if_checked ht (by simp [u, i, or_iff_not_imp_left]) refused_injs fun _ ht => ?_
  have hacts : t = acceptNow e 0 ((u.setInj i Inj.none).advGen 6 i) := ht
  rw [hacts]
  refine ⟨acceptNow_posted e 0 rfl, by simp [acceptNow], ?_, fun j hj => by simp [acceptNow, hj]⟩
  exact (State.gen_advGen ..).trans (if_pos rfl)

-- ---- injections that run (R241, R242)
theorem injEnd_does (i : Fin 512) (s : State) : Does (.injEnd i) s fun t => let x := s.inj i.val
    if x.live = true ∧ x.st = 2 ∧ x.len ≠ 0 ∧ x.len ≤ x.k then
      (t.inj i.val).st = 3 ∧ (t.inj i.val).zero = true ∧ ∀ j, j ≠ i.val → t.inj j = s.inj j
    else t = s :=
  does_guarded rfl (by simp [and_assoc]) fun _ => by simp +contextual

/-- The chunks that still hold values to come. -/
def Inj.heldChunks (x : Inj) : List (Nat × List (BitVec 24)) := x.chunks.filter (fun c => decide (x.k < 256 * c.1 + 256))

/-- The next chunk to fetch: the one after the last held, or the one of the present value. -/
def Inj.nextChunk (x : Inj) : Nat := (x.heldChunks.getLast?.map (fun y => y.1 + 1)).getD (x.k / 256)

theorem injChunkFetch_eq (i : Fin 512) (s : State) : let x := s.inj i.val
    exec (.injChunkFetch i) s = if (x.live && x.src == 2 && (x.st == 1 || x.st == 2) && decide (x.heldChunks.length < 2)) = true then
      .next (s.setInj i.val { x with chunks := x.heldChunks ++ [(x.nextChunk, s.chunkValues x x.nextChunk)] }) else .next s := by
  intro x
  have hnext : x.nextChunk = (match x.heldChunks.getLast? with | some y => y.1 + 1 | none => x.k / 256) := by
    unfold Inj.nextChunk
    cases x.heldChunks.getLast? <;> rfl
  change execInjChunkFetch i s = _
  rw [hnext]
  rfl

theorem chunkValues_length (s : State) (x : Inj) (c : Nat) : (s.chunkValues x c).length = 256 := by
  rw [State.chunkValues, List.length_map, List.length_range]

theorem chunkValues_getElem? (s : State) (x : Inj) (c : Nat) {k : Nat} (hk : k < 256) : let n := layoutBytes (fld x.p5 0 2)
    (s.chunkValues x c)[k]? = some (decodeSample (fld x.p5 0 2) (s.dramBytes (x.p3.toNat + (256 * c + k) % x.p4.toNat * n) n)) := by
  simp [State.chunkValues, hk]

theorem injChunkFetch_does (i : Fin 512) (s : State) : Does (.injChunkFetch i) s fun t => let x := s.inj i.val
    let held := x.chunks.filter (fun c => decide (x.k < 256 * c.1 + 256))
    if x.live = true ∧ x.src = 2 ∧ (x.st = 1 ∨ x.st = 2) ∧ held.length < 2 then
      let c := (held.getLast?.map (fun y => y.1 + 1)).getD (x.k / 256); let n := layoutBytes (fld x.p5 0 2)
      (t.inj i.val).chunks.length = held.length + 1 ∧ (∀ y ∈ held, y ∈ (t.inj i.val).chunks) ∧
        ∃ vs, (c, vs) ∈ (t.inj i.val).chunks ∧ vs.length = 256 ∧ ∀ k < 256, vs[k]? =
          some (decodeSample (fld x.p5 0 2) (s.dramBytes (x.p3.toNat + (256 * c + k) % x.p4.toNat * n) n))
    else t = s := by
  refine does_guarded (injChunkFetch_eq i s) (by simp [and_assoc, Inj.heldChunks]) fun _ => ?_
  rw [State.setInj_read, if_pos rfl]
  exact ⟨List.length_append, fun y hy => List.mem_append_left _ hy, s.chunkValues (s.inj i.val) (s.inj i.val).nextChunk,
    List.mem_append_right _ (List.mem_singleton_self _), chunkValues_length .., fun k hk => chunkValues_getElem? _ _ _ hk⟩

/-- Settles O35: a request is read check by check (`if_checked`); each other row acts under its guard (`does_guarded`). -/
theorem injectionsAreCheckedRunAndFetchTheirChunks : Obligations.InjectionsAreCheckedRunAndFetchTheirChunks := by
  unfold Obligations.InjectionsAreCheckedRunAndFetchTheirChunks
  refine ⟨fun e s h => ?_, injStart_does, injStop_does, injDel_does, injEnd_does, injChunkFetch_does⟩
  cases hi : (s.untake e).freeIndex 6 with
  | none => simpa only [hi] using injNew_full h hi
  | some i =>
    simp only [hi]
    exact injNew_does h hi

end Sys2Proof.Machine
end

section
/-! SUPPORT. Images: what LOAD and MODEL.LOAD check, where they place an image, and when they complete (R283 to R287, R304, R319, R466). -/

namespace Sys2Proof.Machine

open Sys2Proof

-- ---- images in use (R286)
theorem imageUsed_of_chan {s : State} {ch i : Nat} (hl : (s.chan ch).live = true) (hi : (s.chan ch).loop.img = some i) :
    s.imageUsed i = true := by
  have hused : s.liveChans.any (fun j => (s.chan j).loop.img == some i) = true :=
    List.any_eq_true.2 ⟨ch, mem_liveChans.2 hl, beq_iff_eq.2 hi⟩
  rw [State.imageUsed, hused, Bool.true_or, Bool.true_or]

theorem imageUsed_of_engine {s : State} {f i : Nat} (hi : (s.meng f).img = some i) : s.imageUsed i = true := by
  have hkey : f ∈ tkeys s.mengs := by
    by_contra hk
    rw [State.meng, tget_of_not_mem _ hk] at hi
    cases hi
  have hused : (tkeys s.mengs).any (fun j => (s.meng j).img == some i || (s.meng j).next == some i) = true :=
    List.any_eq_true.2 ⟨f, hkey, by rw [hi, beq_self_eq_true, Bool.true_or]⟩
  rw [State.imageUsed, hused, Bool.or_true, Bool.true_or]

theorem dropImages_image {s : State} {i : Nat} (h : s.imageUsed i = true) : (dropImages s).image i = s.image i := by
  rw [State.image, dropImages, tget_tdrop, h]
  rfl

theorem State.image_of_same {s t : State} (h : Part.same .images s t) (i : Nat) : t.image i = s.image i := by
  unfold State.image
  rw [show t.images = s.images from h]

theorem State.meng_of_same {s t : State} (h : Part.same .mengs s t) (f : Nat) : t.meng f = s.meng f := by
  unfold State.meng
  rw [show t.mengs = s.mengs from h]

-- ---- bytes of a workspace
theorem State.putWs_append (l k : List (BitVec 8)) : ∀ (s : State) (ch o : Nat),
    s.putWs ch o (l ++ k) = (s.putWs ch o l).putWs ch (o + l.length) k := by
  induction l with
  | nil => intro s ch o; rfl
  | cons b l ih =>
    intro s ch o
    rw [List.cons_append, State.putWs, ih, State.putWs, List.length_cons, Nat.add_assoc, Nat.add_comm 1]

/-- Each of a row of words that are written reads back. -/
theorem State.putWs_words (l : List W) : ∀ (s : State) (ch o : Nat) {w : Nat}, w < l.length →
    (s.putWs ch o (l.flatMap (fun v => leBytes 4 v.toNat))).wsVal ch (o + 4 * w) 4 = (l.getD w 0).toNat := by
  induction l with
  | nil => intro s ch o w hw; exact absurd hw (Nat.not_lt_zero w)
  | cons v l ih =>
    intro s ch o w hw
    have hlen : (leBytes 4 v.toNat).length = 4 := length_leBytes 4 _
    rw [List.flatMap_cons, State.putWs_append, hlen]
    cases w with
    | zero =>
      have h := s.putWs_val_same ch o (leBytes 4 v.toNat)
      rw [hlen, leVal_leBytes, Nat.mod_eq_of_lt (show v.toNat < 256 ^ 4 from v.isLt)] at h
      exact (State.putWs_val_other _ (.inl (Nat.le_refl _))).trans h
    | succ w =>
      rw [Nat.mul_succ, Nat.add_comm (4 * w), ← Nat.add_assoc]
      exact ih _ ch (o + 4) (Nat.lt_of_succ_lt_succ hw)

/-- The bytes of a workspace after those of one channel from `lo` up to `hi` are zeroed. -/
theorem wsByte_zeroed (s : State) {ch lo hi off : Nat} (hoff : off < 0x4000) :
    ({ s with ws := tdrop s.ws (fun k => k / 0x4000 == ch && decide (lo ≤ k % 0x4000 ∧ k % 0x4000 < hi)) } : State).wsByte ch off =
      if lo ≤ off ∧ off < hi then 0 else s.wsByte ch off := by
  have hquot : wsKey ch off / 0x4000 = ch := by unfold wsKey; omega
  have hrem : wsKey ch off % 0x4000 = off := by unfold wsKey; omega
  rw [State.wsByte, tget_tdrop, hquot, hrem, beq_self_eq_true, Bool.true_and]
  simp only [decide_eq_true_eq]
  rfl

-- ---- an image that is placed (R285)
/-- The state in which a channel names the image, held at its index. -/
def nameImage (ch : Nat) (x : Image) (s : State) : State :=
  ({ s with images := tset Image.none s.images (s.imageIx x) x } : State).updChan ch
    (fun c => { c with loop := { c.loop with img := some (s.imageIx x), coefQ := [], progQ := [] } })

/-- The state in which the engines of the channel hold the image. -/
def holdImage (ch : Nat) (x : Image) (s : State) : State :=
  let u := nameImage ch x s
  engineOn ((u.chan ch).engOf false) (engineOn ((u.chan ch).engOf true) (dropImages u))

/-- The workspace takes the coefficients, and the state of both sides is zeroed. -/
theorem placeImage_eq (ch : Nat) (x : Image) (s : State) : placeImage ch x s =
    let u := (holdImage ch x s).putWs ch 0 (x.coef.flatMap (fun v => leBytes 4 v.toNat))
    { u with ws := tdrop u.ws (fun k => k / 0x4000 == ch && decide (128 ≤ k % 0x4000 ∧ k % 0x4000 < 128 + 2 * x.stateBytes)) } := rfl

theorem placeImage_same {p : Part} (hp : [Part.ws, .chans, .images, .health].contains p = false) (ch : Nat) (x : Image) (s : State) :
    p.same s (placeImage ch x s) :=
  placeImage_keep (.same hp s) ch x s (p.same_refl s)

/-- Of the tables of channels and images the workspace writes leave what the engines hold. -/
theorem placeImage_holds {p : Part} (hp : [Part.ws].contains p = false) (ch : Nat) (x : Image) (s : State) :
    p.same (holdImage ch x s) (placeImage ch x s) := by
  rw [placeImage_eq]
  exact dropWs_keep (.same hp _) _ (putWs_same hp ..)

theorem placeImage_chan (ch : Nat) (x : Image) (s : State) : (placeImage ch x s).chan ch =
    { s.chan ch with loop := { (s.chan ch).loop with img := some (s.imageIx x), coefQ := [], progQ := [] } } :=
  (State.chan_of_same (placeImage_holds (p := .chans) rfl ch x s) ch).trans
    ((State.setChan_read ..).trans (if_pos rfl))

theorem placeImage_image {ch : Nat} {x : Image} {s : State} (hl : (s.chan ch).live = true) :
    (placeImage ch x s).image (s.imageIx x) = x := by
  have hchan : (nameImage ch x s).chan ch = _ := (State.setChan_read ..).trans (if_pos rfl)
  have hused : (nameImage ch x s).imageUsed (s.imageIx x) = true := imageUsed_of_chan (ch := ch) (by rw [hchan]; exact hl) (by rw [hchan])
  calc (placeImage ch x s).image (s.imageIx x)
      = (holdImage ch x s).image (s.imageIx x) := State.image_of_same (placeImage_holds (p := .images) rfl ch x s) _
    _ = (nameImage ch x s).image (s.imageIx x) := dropImages_image hused
    _ = x := tget_tset_self ..

theorem placeImage_coef (ch : Nat) {x : Image} (s : State) {w : Nat} (hw : w < 32) (hlen : x.coef.length = 32) :
    (placeImage ch x s).wsVal ch (4 * w) 4 = (x.coef.getD w 0).toNat := by
  have hput := (holdImage ch x s).putWs_words x.coef ch 0 (hw.trans_eq hlen.symm)
  rw [Nat.zero_add] at hput
  rw [placeImage_eq, ← hput]
  unfold State.wsVal
  congr 1
  refine List.map_congr_left fun i hi => ?_
  rw [List.mem_range] at hi
  exact (wsByte_zeroed _ (by omega)).trans (if_neg (by omega))

theorem placeImage_state (ch : Nat) (x : Image) (s : State) {i : Nat} (hi : i < 2 * x.stateBytes) (hend : 128 + i < 0x4000) :
    (placeImage ch x s).wsByte ch (128 + i) = 0 := by
  rw [placeImage_eq]
  exact (wsByte_zeroed _ hend).trans (if_pos (by omega))

-- ---- commands that wait for their moment and their burn (R295, R466)
/-- The command in progress is one of the opcode on the object. -/
def Prog.Of (op : Nat) (o : Nat × Nat) (p : Prog) : Prop := opcodeOf p.entry = op ∧ p.obj = some o

/-- An accepted load whose image stands in place: the command joins those in progress, and its burn starts. -/
def beginLoad (b : SigBlock) (x : Image) (op : Nat) (o : Nat × Nat) (e : CmdEntry) (s : State) : State :=
  startBurn b x.version.toNat op o (acceptLater e 0 s)

theorem beginLoad_same {p : Part} (hp : [Part.regs, .svc, .col, .sec, .host].contains p = false) (b : SigBlock) (x : Image) (op : Nat)
    (o : Nat × Nat) (e : CmdEntry) (s : State) : p.same s (beginLoad b x op o e s) :=
  startBurn_keep (.same hp s) b _ op o _
    (acceptLater_keep ((Keeps.same hp s).mono (by decide)) e 0 s (p.same_refl s))

theorem markProg_inProg (op : Nat) (o : Nat × Nat) (f : Prog → Prog) (s : State) : (markProg op o f s).svc.inProg =
    s.svc.inProg.map (fun x => if opcodeOf x.entry == op && x.obj == some o then f x else x) := rfl

theorem markProg_entries {op : Nat} {o : Nat × Nat} {f : Prog → Prog} (hf : ∀ x, (f x).entry = x.entry) (s : State) :
    (markProg op o f s).svc.inProg.map (·.entry) = s.svc.inProg.map (·.entry) := by
  rw [markProg_inProg, List.map_map]
  refine List.map_congr_left fun x _ => ?_
  rw [Function.comp_apply]
  split
  · exact hf x
  · rfl

theorem startBurn_entries (b : SigBlock) (ver op : Nat) (o : Nat × Nat) (s : State) :
    (startBurn b ver op o s).svc.inProg.map (·.entry) = s.svc.inProg.map (·.entry) := by
  unfold startBurn
  split
  · rfl
  · split
    · rw [secEvent, raise_svc]
    · exact markProg_entries (f := fun x => { x with burning := true }) (fun _ => rfl) _

theorem beginLoad_entries (b : SigBlock) (x : Image) (op : Nat) (o : Nat × Nat) (e : CmdEntry) {s t : State} (hsvc : Part.same .svc s t) :
    (beginLoad b x op o e t).svc.inProg.map (·.entry) = s.svc.inProg.map (·.entry) ++ [e] := by
  change t.svc = s.svc at hsvc
  rw [beginLoad, startBurn_entries, acceptLater, State.updSvc_svc, List.map_append, hsvc]
  rfl

/-- The moment of a load has come: it completes unless its burn is in progress. -/
def endLoad (op : Nat) (o : Nat × Nat) (s : State) : State :=
  finishReady op o (markProg op o (fun x => { x with ready := true }) s)

theorem endLoad_same {p : Part} (hp : [Part.rings, .svc].contains p = false) (op : Nat) (o : Nat × Nat) (s : State) :
    p.same s (endLoad op o s) :=
  finishReady_keep (.same hp s) op o _ (markProg_keep ((Keeps.same hp s).mono (by decide)) op o _ s (p.same_refl s))

@[simp] theorem endLoad_meng (op : Nat) (o : Nat × Nat) (s : State) (f : Nat) : (endLoad op o s).meng f = s.meng f :=
  State.meng_of_same (endLoad_same (p := .mengs) rfl op o s) f

@[simp] theorem endLoad_image (op : Nat) (o : Nat × Nat) (s : State) (i : Nat) : (endLoad op o s).image i = s.image i :=
  State.image_of_same (endLoad_same (p := .images) rfl op o s) i

/-- A command of the opcode on the object whose moment has come is ready, and burns as before. -/
theorem mem_markReady {op : Nat} {o : Nat × Nat} {s : State} {p : Prog} (hp : p.Of op o)
    (h : p ∈ (markProg op o (fun x => { x with ready := true }) s).svc.inProg) :
    p.ready = true ∧ ∃ q ∈ s.svc.inProg, q.Of op o ∧ q.burning = p.burning := by
  obtain ⟨q, hq, rfl⟩ := List.mem_map.1 (markProg_inProg .. ▸ h)
  by_cases hof : q.Of op o
  · obtain ⟨hop, hobj⟩ := hof
    simp only [hop, hobj, beq_self_eq_true, Bool.and_self, if_true]
    exact ⟨trivial, q, hq, ⟨hop, hobj⟩, rfl⟩
  · have hno : (opcodeOf q.entry == op && q.obj == some o) = false := by
      simpa [Prog.Of] using hof
    rw [hno] at hp
    exact absurd hp hof

/-- Where a command of the opcode on the object waits for no burn, none is in progress afterwards. -/
theorem endLoad_ends {op : Nat} {o : Nat × Nat} {s : State} (h : ∃ p ∈ s.svc.inProg, p.Of op o ∧ p.burning = false) :
    ∀ p ∈ (endLoad op o s).svc.inProg, ¬p.Of op o := by
  obtain ⟨p, hp, ⟨hop, hobj⟩, hburn⟩ := h
  have hready : { p with ready := true } ∈ (markProg op o (fun x => { x with ready := true }) s).svc.inProg := by
    rw [markProg_inProg]
    exact List.mem_map.2 ⟨p, hp, by simp [hop, hobj]⟩
  rw [endLoad, finishReady, if_pos (List.any_eq_true.2 ⟨_, hready, by simp [hop, hobj, hburn]⟩)]
  exact fun q hq => not_mem_finishObj hq

/-- Where each of them still burns, none completes and each is ready. -/
theorem endLoad_waits {op : Nat} {o : Nat × Nat} {s : State} (h : ∀ p ∈ s.svc.inProg, p.Of op o → p.burning = true) :
    (endLoad op o s).rings = s.rings ∧ ∀ p ∈ (endLoad op o s).svc.inProg, p.Of op o → p.burning = true ∧ p.ready = true := by
  have hburns {p : Prog} (hof : p.Of op o) (hp : p ∈ (markProg op o (fun x => { x with ready := true }) s).svc.inProg) :
      p.burning = true ∧ p.ready = true := by
    obtain ⟨hready, q, hq, hqof, hsame⟩ := mem_markReady hof hp
    exact ⟨hsame ▸ h q hq hqof, hready⟩
  rw [endLoad, finishReady, if_neg]
  · exact ⟨rfl, fun p hp hof => hburns hof hp⟩
  · simp only [List.any_eq_true, Bool.and_eq_true, beq_iff_eq, Bool.not_eq_true', not_exists, not_and, and_imp]
    intro p hp hop hobj _
    rw [(hburns ⟨hop, hobj⟩ hp).1]
    decide

theorem endLoad_left {op : Nat} {o : Nat × Nat} {s : State} {p : Prog} (hp : p ∈ (endLoad op o s).svc.inProg) (hof : p.Of op o) :
    p.burning = true ∧ p.ready = true := by
  by_cases h : ∃ q ∈ s.svc.inProg, q.Of op o ∧ q.burning = false
  · exact absurd hof (endLoad_ends h p hp)
  · exact (endLoad_waits fun q hq hqof => by_contra fun hb => h ⟨q, hq, hqof, Bool.eq_false_iff.2 hb⟩).2 p hp hof

theorem loadComplete_does (ch : Fin 512) (s : State) : let mine := fun (p : Prog) => opcodeOf p.entry = 0x0301 ∧ p.obj = some (1, ch.val)
    Does (.loadComplete ch) s fun t => ((∃ p ∈ s.svc.inProg, mine p ∧ p.burning = false) → ∀ p ∈ t.svc.inProg, ¬mine p) ∧
      ((∀ p ∈ s.svc.inProg, mine p → p.burning = true) → t.rings = s.rings ∧ ∀ p ∈ t.svc.inProg, mine p → p.ready = true) := by
  refine ⟨endLoad 0x0301 (1, ch.val) s, rfl, endLoad_ends, fun h => ?_⟩
  obtain ⟨hrings, hprog⟩ := endLoad_waits h
  exact ⟨hrings, fun p hp hof => (hprog p hp hof).2⟩

-- ---- a model engine that holds its next image (R304, R319)
/-- The next image of a model engine in place. -/
def engineHolds (f i : Nat) (s : State) : State :=
  (engineOn (128 + f) s).updMEng f (fun m => { m with img := some i, next := none })

/-- Every model of the flock runs with FIRST next, and validity is evaluated again. -/
def modelsFirst (f : Nat) (s : State) : State :=
  evalModels (each (s.validOf f) (fun ch s => s.updMdl ch (fun x => { x with first := true })) s)

@[simp] theorem dropImages_meng (s : State) (f : Nat) : (dropImages s).meng f = s.meng f := rfl

theorem modelsFirst_same {p : Part} (hp : [Part.ws, .chans].contains p = false) (f : Nat) (s : State) : p.same s (modelsFirst f s) :=
  evalModels_keep (.same hp s) _
    (each_keep _ _ (fun ch u hu => updMdl_keep ((Keeps.same hp s).mono (by decide)) u ch _ hu) (p.same_refl s))

@[simp] theorem modelsFirst_meng (f : Nat) (s : State) (j : Nat) : (modelsFirst f s).meng j = s.meng j :=
  State.meng_of_same (modelsFirst_same (p := .mengs) rfl f s) j

@[simp] theorem modelsFirst_image (f : Nat) (s : State) (i : Nat) : (modelsFirst f s).image i = s.image i :=
  State.image_of_same (modelsFirst_same (p := .images) rfl f s) i

theorem modelLoadComplete_eq (f : Fin 32) (s : State) : exec (.modelLoadComplete f) s = match (s.meng f.val).next with
    | none => .next s
    | some i => .next (endLoad 0x0401 (16, f.val) (modelsFirst f.val (dropImages (engineHolds f.val i s)))) := by
  change execModelLoadComplete f s = _
  unfold execModelLoadComplete
  cases (s.meng f.val).next <;> rfl

theorem modelLoadComplete_does (f : Fin 32) (s : State) : Does (.modelLoadComplete f) s fun t =>
    match (s.meng f.val).next with
    | none => t = s
    | some i => (t.meng f.val).img = some i ∧ (t.meng f.val).next = none ∧ t.image i = s.image i ∧
        ∀ p ∈ t.svc.inProg, opcodeOf p.entry = 0x0401 → p.obj = some (16, f.val) → p.burning = true ∧ p.ready = true := by
  unfold Does
  rw [modelLoadComplete_eq]
  cases (s.meng f.val).next with
  | none => exact ⟨s, rfl, rfl⟩
  | some i =>
    refine ⟨_, rfl, ?_⟩
    have hmeng : (engineHolds f.val i s).meng f.val = { s.meng f.val with img := some i, next := none } :=
      (State.updMEng_read ..).trans (if_pos rfl)
    have himage : (dropImages (engineHolds f.val i s)).image i = s.image i :=
      dropImages_image (imageUsed_of_engine (f := f.val) (by rw [hmeng]))
    simp only [endLoad_meng, modelsFirst_meng, dropImages_meng, hmeng, endLoad_image, modelsFirst_image, himage, true_and]
    exact fun p hp hop hobj => endLoad_left hp ⟨hop, hobj⟩

-- ---- the checks on an image (R283, R465)
/-- Checks 4 to 6 of R283 on the signed object that operands 1 and 2 name, and what follows for an image that passes them. -/
def onImage (e : CmdEntry) (std : Fin 3) (want : Nat) (eff : Image → State → State) (u : State) : State :=
  let a := (opN e 1).toNat; let n := (opN e 2).toNat
  match u.verifyObject a n 1 with
  | none => refuse e stAuth 4 (secEvent 0 u)
  | some b =>
    let x := imageOf b (u.sigBlock a n).slot std
    if !layoutOk b then refuse e stSize 5 u
    else match check6 want x.kind x.wcc x.words with
      | some r => refuseRule e r u
      | none => eff x u

/-- The command is refused, and the part stands as it was. -/
def Refused (p : Part) (e : CmdEntry) (st chk : Nat) (u t : State) : Prop := Posted e st 0 chk u t ∧ p.same u t

theorem refused_same {p : Part} (hp : p ≠ .rings) {e : CmdEntry} {st chk : Nat} {u t : State} (h : t = refuse e st chk u) :
    Refused p e st chk u t := by
  obtain ⟨hposted, hsame⟩ := refuse_posted e st chk u
  exact h ▸ ⟨hposted, hsame p hp⟩

/-- The answer of checks 4 to 6: a refusal that leaves the part `p`, or `P` of the image. -/
def ImageChecked (p : Part) (e : CmdEntry) (std : Fin 3) (want : Nat) (u t : State) (P : Image → Prop) : Prop :=
  let a := (opN e 1).toNat; let n := (opN e 2).toNat
  match u.verifyObject a n 1 with
  | none => Refused p e stAuth 4 u t ∧ bitOf (t.reg secEvt) 0 = true
  | some b => let x := imageOf b (u.sigBlock a n).slot std
    if layoutOk b = false then Refused p e stSize 5 u t
    else match check6 want x.kind x.wcc x.words with
      | some r => p.same u t ∧ (t.ring e.ring.val).done = (u.ring e.ring.val).done ++ [{
          opcode := opcodeOf e, status := stState, cookie := e.cookie, result := 0, check := 6, rule := r.1, index := r.2, irq := bitOf e.word0 9 }]
      | none => P x

theorem imageOf_coef_length (b : List (BitVec 8)) (slot : Nat) (std : Fin 3) : (imageOf b slot std).coef.length = 32 := by
  rw [imageOf, List.length_map, List.length_range]

/-- An object is refused at the first of these checks that it fails, else its image takes effect. -/
theorem onImage_checked {p : Part} (hp : [Part.regs, .rings, .col, .host].contains p = false) {e : CmdEntry} {std : Fin 3} {want : Nat}
    {eff : Image → State → State} {u t : State} {P : Image → Prop} (ht : t = onImage e std want eff u)
    (hpass : ∀ x : Image, x.coef.length = 32 → t = eff x u → P x) : ImageChecked p e std want u t P := by
  unfold onImage at ht
  unfold ImageChecked
  cases hv : u.verifyObject (opN e 1).toNat (opN e 2).toNat 1 with
  | none =>
    simp only [hv] at ht ⊢
    obtain rfl := ht
    exact ⟨⟨complete_posted e stAuth 0 4 (raise_rings ..), refuse_keep ((Keeps.same hp u).mono (by decide)) e _ _ _
      (secEvent_keep ((Keeps.same hp u).mono (by decide)) 0 u (p.same_refl u))⟩, bitOf_raise (mkRep_bit (by decide) ..) u⟩
  | some b =>
    simp only [hv] at ht ⊢
    generalize hx : imageOf b (u.sigBlock (opN e 1).toNat (opN e 2).toNat).slot std = x at ht ⊢
    have hcoef : x.coef.length = 32 := hx ▸ imageOf_coef_length ..
    cases hl : layoutOk b with
    | false => exact refused_same (by rintro rfl; cases hp) (by simpa [hl] using ht)
    | true =>
      cases hr : check6 want x.kind x.wcc x.words with
      | some r =>
        obtain rfl : t = refuseRule e r u := by simpa [hl, hr] using ht
        exact ⟨complete_keep ((Keeps.same hp u).mono (by decide)) e _ _ _ _ _ u (p.same_refl u), by simp [refuseRule, complete]⟩
      | none => exact hpass x hcoef (by simpa [hl, hr] using ht)

-- ---- LOAD (R283, R304)
theorem live_of_handleCheck {s : State} {h : W} (hh : s.handleCheck 1 h = none) : (s.chan (hIndex h)).live = true := by
  unfold State.handleCheck at hh
  extract_lets i at hh
  by_contra hl
  have hobj : s.objLive 1 i = false := Bool.eq_false_iff.2 hl
  rw [hobj] at hh
  split_ifs at hh
  exact absurd rfl ‹_›

/-- What LOAD does for an image that has passed checks 1 to 6 (R283, R285). -/
def loadImage (e : CmdEntry) (x : Image) (u : State) : State :=
  let ch := hIndex (opN e 0); let c := u.chan ch
  checked e [(decide (wccOf x.words ≤ c.adm.wcc), stOverBudget, 7), (decide (128 + 2 * x.stateBytes ≤ c.adm.wsKib * 1024), stSize, 8),
      (u.storeRoom c.flock c.adm.engA ch x && u.storeRoom c.flock c.adm.engB ch x, stNoRes, 9)]
    (fun s => beginLoad (u.sigBlock (opN e 1).toNat (opN e 2).toNat) x 0x0301 (1, ch) e (placeImage ch x s)) u

theorem load_eq {e : CmdEntry} {s : State} (std : Fin 3) (h : s.accepts e 0x0301) : let u := s.untake e
    let ch := hIndex (opN e 0); let c := u.chan ch; let hnd := u.handleCheck 1 (opN e 0)
    exec (.load e std) s = .next (checked e [(hnd.isNone, hnd.getD 0, 1), (!c.armed, stState, 2),
        (!(u.testing 1 (4 * c.flock + c.adm.engA) || u.testing 1 (4 * c.flock + c.adm.engB)), stUnderTest, 3)]
      (onImage e std 1 (loadImage e)) u) :=
  congrArg Host.Outcome.next (commandRow_accepted h)

/-- After LOAD the channel names the image, its coefficients stand in the workspace, the state of both sides is 0, and the command is in
progress (R285). -/
def Placed (e : CmdEntry) (ch : Nat) (x : Image) (u t : State) : Prop :=
  (t.chan ch).loop.img = some (u.imageIx x) ∧ t.image (u.imageIx x) = x ∧ (t.chan ch).loop.coefQ = [] ∧ t.rings = u.rings ∧
    (∀ w < 32, t.wsVal ch (4 * w) 4 = (x.coef.getD w 0).toNat) ∧
    (∀ i, i < 2 * x.stateBytes → 128 + i < 0x4000 → t.wsByte ch (128 + i) = 0) ∧
    t.svc.inProg.map (·.entry) = u.svc.inProg.map (·.entry) ++ [e]

theorem beginLoad_placed (b : SigBlock) (e : CmdEntry) {x : Image} {u : State} {ch : Nat} (o : Nat × Nat) (hl : (u.chan ch).live = true)
    (hcoef : x.coef.length = 32) : Placed e ch x u (beginLoad b x 0x0301 o e (placeImage ch x u)) := by
  generalize ht : beginLoad b x 0x0301 o e (placeImage ch x u) = t
  have hsame {p : Part} (hp : [Part.regs, .svc, .col, .sec, .host].contains p = false) : p.same (placeImage ch x u) t :=
    ht ▸ beginLoad_same hp ..
  have hchan : t.chan ch = _ := (State.chan_of_same (hsame (p := .chans) rfl) ch).trans (placeImage_chan ch x u)
  have hws : t.ws = (placeImage ch x u).ws := hsame (p := .ws) rfl
  unfold Placed
  rw [hchan]
  refine ⟨rfl, ?_, rfl, ?_, fun w hw => ?_, fun i hi hend => ?_, ht ▸ beginLoad_entries b x _ o e (placeImage_same (p := .svc) rfl ch x u)⟩
  · exact (State.image_of_same (hsame (p := .images) rfl) _).trans (placeImage_image hl)
  · exact Eq.trans (hsame (p := .rings) rfl) (placeImage_same (p := .rings) rfl ch x u)
  · exact (State.wsVal_of_ws hws ..).trans (placeImage_coef ch u hw hcoef)
  · rw [State.wsByte, hws]
    exact placeImage_state ch x u hi hend

/-- Checks 7 to 9 refuse the image, or it is placed. -/
def PlacedWhereItFits (e : CmdEntry) (x : Image) (u t : State) : Prop :=
  let ch := hIndex (opN e 0); let c := u.chan ch
  if c.adm.wcc < wccOf x.words then Refused .chans e stOverBudget 7 u t
  else if c.adm.wsKib * 1024 < 128 + 2 * x.stateBytes then Refused .chans e stSize 8 u t
  else if (u.storeRoom c.flock c.adm.engA ch x && u.storeRoom c.flock c.adm.engB ch x) = false then
    Refused .chans e stNoRes 9 u t
  else Placed e ch x u t

theorem loadImage_placed {e : CmdEntry} {x : Image} {u t : State} (ht : t = loadImage e x u)
    (hl : (u.chan (hIndex (opN e 0))).live = true) (hcoef : x.coef.length = 32) : PlacedWhereItFits e x u t := by
  unfold PlacedWhereItFits
  extract_lets ch c
  have hrefused {st chk : Nat} : t = refuse e st chk u → Refused .chans e st chk u t := refused_same (by decide)
  unfold loadImage at ht
  refine if_checked ht (by simp [c, ch]) hrefused fun _ ht => if_checked ht (by simp [c, ch]) hrefused fun _ ht =>
    if_checked ht Iff.rfl hrefused fun _ ht => ?_
  obtain rfl : t = beginLoad _ _ _ _ e (placeImage ch x u) := ht
  exact beginLoad_placed _ e _ hl hcoef

theorem load_does (e : CmdEntry) (std : Fin 3) (s : State) (h : s.accepts e 0x0301) : let u := s.untake e; let ch := hIndex (opN e 0)
    let c := u.chan ch
    Does (.load e std) s fun t =>
      match u.handleCheck 1 (opN e 0) with
      | some st => Refused .chans e st 1 u t
      | none =>
        if c.st = .armed then Refused .chans e stState 2 u t
        else if (u.testing 1 (4 * c.flock + c.adm.engA) || u.testing 1 (4 * c.flock + c.adm.engB)) = true then
          Refused .chans e stUnderTest 3 u t
        else ImageChecked .chans e std 1 u t fun x => PlacedWhereItFits e x u t := by
  intro u ch c
  refine does_next (load_eq std h) fun t ht => ?_
  have hrefused {st chk : Nat} : t = refuse e st chk u → Refused .chans e st chk u t := refused_same (by decide)
  cases hh : u.handleCheck 1 (opN e 0) with
  | some st => exact hrefused (ht.trans (checked_fails (by simp [firstFail, u, hh])))
  | none =>
    rw [checked_next (by rw [hh]; rfl)] at ht
    exact if_checked ht (by simp [Chan.armed, c, u, ch]) hrefused fun _ ht =>
      if_checked ht (by rw [Bool.not_eq_false']) hrefused fun _ ht =>
        onImage_checked (by decide) ht fun _ hcoef ht => loadImage_placed ht (live_of_handleCheck hh) hcoef

-- ---- MODEL.LOAD (R304, R319)
/-- The state in which the image, held at its index, is the next of a model engine. -/
def queueImage (f : Nat) (x : Image) (s : State) : State :=
  ({ s with images := tset Image.none s.images (s.imageIx x) x } : State).updMEng f (fun m => { m with next := some (s.imageIx x) })

/-- What MODEL.LOAD does for an image that has passed checks 4 to 6. -/
def loadModelImage (e : CmdEntry) (x : Image) (u : State) : State :=
  let f := fld (opN e 0) 0 5
  checked e [(decide (x.words.length ≤ 16384), stNoRes, 9)]
    (fun s => beginLoad (u.sigBlock (opN e 1).toNat (opN e 2).toNat) x 0x0401 (16, f) e (queueImage f x s)) u

theorem modelLoad_eq {e : CmdEntry} {s : State} (std : Fin 3) (h : s.accepts e 0x0401) : let u := s.untake e; let f := fld (opN e 0) 0 5
    exec (.modelLoad e std) s = .next (checked e [(u.flockOn f, stState, 1), (!(u.chansOfFlock f).any (fun ch => (u.chan ch).armed), stState, 2)]
      (onImage e std 2 (loadModelImage e)) u) :=
  congrArg Host.Outcome.next (commandRow_accepted h)

/-- After MODEL.LOAD the image is the next of its engine, and the command is in progress. -/
def NextImage (e : CmdEntry) (f : Nat) (x : Image) (u t : State) : Prop :=
  (t.meng f).next = some (u.imageIx x) ∧ (t.meng f).img = (u.meng f).img ∧ t.image (u.imageIx x) = x ∧ t.rings = u.rings ∧
    t.svc.inProg.map (·.entry) = u.svc.inProg.map (·.entry) ++ [e]

/-- Check 9 refuses an image, or it is the next of its engine. -/
theorem loadModelImage_next {e : CmdEntry} {x : Image} {u t : State} (ht : t = loadModelImage e x u) :
    if 16384 < x.words.length then Refused .mengs e stNoRes 9 u t else NextImage e (fld (opN e 0) 0 5) x u t := by
  unfold loadModelImage at ht
  extract_lets f at ht
  refine if_checked ht (by simp) (refused_same (by decide)) fun _ ht => ?_
  change t = beginLoad _ x 0x0401 (16, f) e (queueImage f x u) at ht
  have hsame {p : Part} (hp : [Part.regs, .svc, .col, .sec, .host].contains p = false) : p.same (queueImage f x u) t := by
    rw [ht]
    exact beginLoad_same hp ..
  have hmeng : t.meng f = { u.meng f with next := some (u.imageIx x) } :=
    (State.meng_of_same (hsame (p := .mengs) rfl) f).trans ((State.updMEng_read ..).trans (if_pos rfl))
  refine ⟨by rw [hmeng], by rw [hmeng], ?_, hsame (p := .rings) rfl, ?_⟩
  · exact (State.image_of_same (hsame (p := .images) rfl) _).trans (tget_tset_self ..)
  · rw [ht]
    exact beginLoad_entries (s := u) _ _ _ _ e rfl

theorem modelLoad_does (e : CmdEntry) (std : Fin 3) (s : State) (h : s.accepts e 0x0401) : let u := s.untake e; let f := fld (opN e 0) 0 5
    Does (.modelLoad e std) s fun t =>
      if u.flockOn f = false then Refused .mengs e stState 1 u t
      else if (u.chansOfFlock f).any (fun ch => (u.chan ch).armed) = true then Refused .mengs e stState 2 u t
      else ImageChecked .mengs e std 2 u t fun x =>
        if 16384 < x.words.length then Refused .mengs e stNoRes 9 u t else NextImage e f x u t := by
  intro u f
  exact does_next (modelLoad_eq std h) fun t ht => if_checked ht Iff.rfl (refused_same (by decide)) fun _ ht =>
    if_checked ht (by rw [Bool.not_eq_false']) (refused_same (by decide)) fun _ ht =>
      onImage_checked (by decide) ht fun _ _ ht => loadModelImage_next ht

/-- Settles O54: a request is read check by check (`if_checked`, `onImage_checked`) until its image stands in place; the end of a load is
`endLoad`. -/
theorem imagesAreVerifiedPlacedAndHeld : Obligations.ImagesAreVerifiedPlacedAndHeld := by
  unfold Obligations.ImagesAreVerifiedPlacedAndHeld
  exact ⟨load_does, modelLoad_does, loadComplete_does, modelLoadComplete_does⟩

end Sys2Proof.Machine
end
